-- ==== Sys2Proof/Word.lean ====
section
/-! DEFINITION. The word types of the module: bytes, register words, long
words, status codes, and the sparse table that every family of like units is
kept in. Only the plainest vocabulary stands here; the operations that could
turn out wrong (bit fields, byte orders, table reads and writes) stand under
`Machine/`. -/

namespace Sys2Proof

/-- One byte of memory (00 R13). -/
abbrev Byte := BitVec 8

/-- One register word: register accesses are 32 bits wide (01 R52). -/
abbrev Word := BitVec 32

/-- One 64-bit field of a record or a pair of LO/HI registers. -/
abbrev Long := BitVec 64

/-- A status code: class in bits 15 to 12, code in bits 11 to 0 (00 R20). -/
abbrev Status := BitVec 16

/-- A 256-byte structure as one number, byte 0 in the low bits (00 R13). -/
abbrev Block256 := BitVec 2048

/-- A sparse table: pairs of an index and what stands there, the indexes
strictly rising. What an index that is not listed holds is said by the reader
of the table (`Table.getD` of Machine/Bits.lean). -/
abbrev Table (α : Type) := List (Nat × α)

/-- A byte memory: the bytes that hold good data. A byte that is not listed
was never written or is poisoned (11 R353, R356). -/
abbrev Mem := List Host.Cell

end Sys2Proof
end

