-- ==== Sys2Proof/Syntax.lean ====
section
/-! DEFINITION. The commands of the module: who can send one, what the surroundings
report with one, and one constructor per row of spec/opcode_table.json with the row's
operands. -/

namespace Sys2Proof

/-! ### Senders and units -/

/-- Who issued a mailbox request (18 R575, R580). -/
inductive Issuer where
  /-- function f through its own MBX_ page -/
  | func (f : Nat)
  /-- the I3C sideband -/
  | i3c
  /-- the PF of a peer module, over the management channel -/
  | peer (harbour berth : Nat)
  deriving DecidableEq, Repr

/-- Who makes a register access or a write that a block restricts. -/
inductive Requester where
  /-- the host, as function f -/
  | host (f : Nat)
  /-- the quay control core of quay q -/
  | quayCore (q : Nat)
  /-- the scalar core of tile q * 64 + t -/
  | scalar (tile : Nat)
  | security
  | power
  | scheduler
  /-- the I3C sideband -/
  | i3c
  deriving DecidableEq, Repr

/-- A unit that can wait at the sync unit (13 R412). -/
inductive SyncUnit where
  /-- a stream of a tile: false access, true execute -/
  | stream (tile : Nat) (exec : Bool)
  /-- a SYNC node of a graph -/
  | node (seq node : Nat)
  /-- descriptor `idx` of a stack chain -/
  | stack (chain idx : Nat)
  deriving DecidableEq, Repr

/-! ### What the surroundings and the firmware report -/

/-- A placement: for each stage, the groups it holds, numbered quay × 8 + group,
in increasing number (08 R272, R273). -/
abbrev Placement := List (List Nat)

/-- Measurements of one class in a calibration window: STACK-form nodes, their MACs and
their stack-time; TILE-form nodes, their weight elements and their stack-time (08 R270). -/
structure CalCounts where
  nS : Nat
  macs : Nat
  timeS : Nat
  nT : Nat
  weights : Nat
  timeT : Nat
  deriving DecidableEq, Repr

/-- What the module measures in 100 µs: VIN in mV, IIN in 10 mA, input power in 0.1 W
averaged over 1 ms, input energy in mJ, each rail's mV and 10 mA, and each quay's
handshake energy in µJ since the last update (20 R619). -/
structure Measured where
  vin : Nat
  iin : Nat
  pin : Nat
  energy : Nat
  rails : List (Nat × Nat)
  quays : List Nat
  deriving DecidableEq, Repr

/-! ### The commands -/

/-- One constructor per row of the table, in its order, each with the rule its row names.
Operands `t`, `now` and `time` of events give the reading of the time base at which the
event happens; a tile is named quay × 64 + tile. -/
inductive Instr where
  -- Registers of quays (chapter 01)
  /-- R53 -/
  | registerWrite (r : Requester) (a v t : Nat)
  /-- R34 -/
  | quaySpareMapWrite (r : Requester) (q n v : Nat)
  -- Pace and supply (chapter 02)
  /-- R64 -/
  | paceWindowEnd (q cur mv t : Nat)
  /-- R68 -/
  | pacePredUpdate (q : Nat)
  /-- R72 -/
  | paceVsetStepWrite (r : Requester) (q v : Nat)
  /-- R72 -/
  | supplySettled (q t : Nat)
  /-- R73 -/
  | park (r : Requester) (q t : Nat)
  /-- R73 -/
  | unpark (r : Requester) (q t : Nat)
  /-- R73 -/
  | unparkReady (q t : Nat)
  /-- R74 -/
  | paceIssueWrite (r : Requester) (q v : Nat)
  /-- R70 -/
  | clrMinmax (q v : Nat)
  /-- R81 -/
  | refclkLost (t : Nat)
  -- Tiles and their descriptors (chapters 04 and 05)
  /-- R156 -/
  | tileStart (r : Requester) (t : Nat)
  /-- R156 -/
  | tileStop (r : Requester) (t : Nat)
  /-- R203 -/
  | tileResume (r : Requester) (t : Nat)
  /-- R158 -/
  | tileAbort (r : Requester) (t : Nat)
  /-- R158 -/
  | tileAbortDone (t : Nat)
  /-- R164 -/
  | scEnd (r : Requester) (t : Nat)
  /-- R179 -/
  | dcInv (r : Requester) (t : Nat)
  /-- R159 -/
  | cfgPendWrite (r : Requester) (t w v : Nat)
  /-- R175 -/
  | fetch (r : Requester) (t : Nat)
  /-- R175 -/
  | fetchStart (r : Requester) (t : Nat)
  /-- R175 -/
  | descFetchDone (t : Nat)
  /-- R176 -/
  | residentSetReady (t : Nat)
  /-- R201 -/
  | preRecWrite (r : Requester) (t w v : Nat)
  /-- R160 -/
  | tecSignalWrite (r : Requester) (t n : Nat)
  /-- R160 -/
  | tileFence (r : Requester) (t : Nat)
  /-- R153 -/
  | descComplete (t : Nat)
  /-- R152 -/
  | tileDqDeadlock (t : Nat)
  /-- R151 -/
  | dqWaitRelease (t : Nat) (ex : Bool)
  /-- R417 -/
  | signalQueueApply (t : Nat) (ex : Bool)
  -- Operations of a tile program (chapter 05)
  /-- R181 -/
  | nop (t : Nat) (ex : Bool)
  /-- R193 -/
  | loop (t : Nat) (ex : Bool)
  /-- R193 -/
  | endloop (t : Nat) (ex : Bool)
  /-- R199 -/
  | preempt (t : Nat) (ex : Bool)
  /-- R199 -/
  | preemptPointStop (t : Nat)
  /-- R181 -/
  | signal (t : Nat) (ex : Bool)
  /-- R181 -/
  | wait (t : Nat) (ex : Bool)
  /-- R181 -/
  | sync (t : Nat) (ex : Bool)
  /-- R180 -/
  | endStream (t : Nat) (ex : Bool)
  /-- R182 -/
  | load (t : Nat)
  /-- R182 -/
  | store (t : Nat)
  /-- R182 -/
  | dma (t : Nat)
  /-- R160 -/
  | tileDmaComplete (t id : Nat)
  /-- R186 -/
  | opfill (t : Nat)
  /-- R188 -/
  | mma (t : Nat)
  /-- R185 -/
  | accrel (t : Nat)
  /-- R189 -/
  | vadd (t : Nat)
  /-- R189 -/
  | vsub (t : Nat)
  /-- R189 -/
  | vmul (t : Nat)
  /-- R189 -/
  | vfma (t : Nat)
  /-- R189 -/
  | vmin (t : Nat)
  /-- R189 -/
  | vmax (t : Nat)
  /-- R189 -/
  | vcmplt (t : Nat)
  /-- R189 -/
  | vcmpeq (t : Nat)
  /-- R189 -/
  | vsel (t : Nat)
  /-- R189 -/
  | vdiv (t : Nat)
  /-- R189 -/
  | vsqrt (t : Nat)
  /-- R189 -/
  | vexp (t : Nat)
  /-- R189 -/
  | vexp2 (t : Nat)
  /-- R189 -/
  | vlog (t : Nat)
  /-- R189 -/
  | vrcp (t : Nat)
  /-- R189 -/
  | vrsqrt (t : Nat)
  /-- R189 -/
  | vtanh (t : Nat)
  /-- R189 -/
  | vsigm (t : Nat)
  /-- R189 -/
  | vsilu (t : Nat)
  /-- R189 -/
  | vgelut (t : Nat)
  /-- R189 -/
  | vgelue (t : Nat)
  /-- R190 -/
  | rsum (t : Nat)
  /-- R190 -/
  | rmax (t : Nat)
  /-- R190 -/
  | rmin (t : Nat)
  /-- R190 -/
  | rsumsq (t : Nat)
  /-- R139 -/
  | vld (t : Nat)
  /-- R139 -/
  | vst (t : Nat)
  /-- R138 -/
  | accrd (t : Nat)
  /-- R138 -/
  | accwr (t : Nat)
  /-- R190 -/
  | vimm (t : Nat)
  /-- R190 -/
  | vbcast (t : Nat)
  -- The scalar core (chapter 04)
  /-- R140 -/
  | scInstruction (t cyc time : Nat)
  -- Queues and graphs (chapter 07)
  /-- R228 -/
  | doorbell (f v : Nat)
  /-- R229 -/
  | entryRead (t : Nat)
  /-- R229 -/
  | shadowWrite (q t : Nat)
  /-- R234 -/
  | run (seq : Nat)
  /-- R234 -/
  | graphLoad (seq : Nat)
  /-- R234 -/
  | launch (seq : Nat)
  /-- R234 -/
  | unload (seq : Nat)
  /-- R251 -/
  | nodeDispatch (seq node t : Nat) (cands : List Placement) (rows : List (Option Nat))
  /-- R247 -/
  | nodeHead (t : Nat)
  /-- R251 -/
  | dispatchTimeout (seq node t : Nat)
  /-- R254 -/
  | nodeComplete (seq node : Nat)
  /-- R255 -/
  | unitFailure (seq node : Nat)
  /-- R258 -/
  | graphComplete (seq t : Nat)
  /-- R261 -/
  | graphWatchdog (seq t : Nat)
  -- Pilot placement (chapter 08)
  /-- R270 -/
  | calWindowEnd (counts : List CalCounts) (t : Nat)
  /-- R280 -/
  | rebalance (busy : List Nat) (t : Nat)
  /-- R280 -/
  | moveStart (table i t : Nat)
  /-- R280 -/
  | moveCopyDone (table i t : Nat)
  /-- R280 -/
  | moveAbandon (table i t : Nat)
  /-- R280 -/
  | moveFreeOld (table i t : Nat)
  /-- R275 -/
  | peerPlaceTimeout (t : Nat)
  -- Compute stacks (chapter 09)
  /-- R311 -/
  | stkDescStart (c t : Nat)
  /-- R310 -/
  | rowcopy (c i : Nat)
  /-- R310 -/
  | rowinit (c i : Nat)
  /-- R310 -/
  | rowand (c i : Nat)
  /-- R310 -/
  | rowor (c i : Nat)
  /-- R310 -/
  | rowxor (c i : Nat)
  /-- R310 -/
  | rownot (c i : Nat)
  /-- R298 -/
  | gemv (c i : Nat)
  /-- R302 -/
  | gemvt (c i : Nat)
  /-- R304 -/
  | eadd (c i : Nat)
  /-- R304 -/
  | emul (c i : Nat)
  /-- R305 -/
  | eact (c i : Nat)
  /-- R304 -/
  | eglu (c i : Nat)
  /-- R304 -/
  | escale (c i : Nat)
  /-- R306 -/
  | norm (c i : Nat)
  /-- R307 -/
  | smx (c i : Nat)
  /-- R308 -/
  | topk (c i : Nat)
  /-- R309 -/
  | reduce (c i : Nat)
  /-- R311 -/
  | stkDescComplete (c idx : Nat)
  /-- R313 -/
  | stkChainFail (c : Nat)
  /-- R318 -/
  | stkSlotCfgWrite (r : Requester) (st v : Nat)
  -- Memory tiers and data integrity (chapters 10 and 11)
  /-- R388 -/
  | memoryRead (r : Requester) (a n : Nat) (errs : List (Nat × Nat × Nat)) (t : Nat)
  /-- R334 -/
  | memoryWrite (r : Requester) (a : Nat) (bs : List Byte) (t : Nat)
  /-- R335 -/
  | mergeRetire (atom t : Nat)
  /-- R358 -/
  | ceWriteback (atom : Nat)
  /-- R330 -/
  | refresh (unit : Nat)
  /-- R341 -/
  | t1CalLoss (stack pc t : Nat)
  /-- R341 -/
  | t1PcFence (stack pc t : Nat)
  /-- R343 -/
  | t2RetrainStart (ch t errs temp : Nat)
  /-- R343 -/
  | t2RetrainDone (ch t : Nat)
  /-- R344 -/
  | t2RetrainFail (ch t : Nat)
  /-- R362 -/
  | scrubRead (unit : Nat) (errs : List (Nat × Nat))
  /-- R359 -/
  | ceLeak (bucket t : Nat) (withRead : Bool)
  /-- R365 -/
  | ueHandling (atom t : Nat)
  /-- R365 -/
  | mirrorRepairResponse (t : Nat)
  -- Module DMA (chapter 12)
  /-- R375 -/
  | dmaListStart (t : Nat)
  /-- R377 -/
  | copy (c i t : Nat) (hostErr : Bool)
  /-- R377 -/
  | fill (c i t : Nat)
  /-- R397 -/
  | atomic (c i t : Nat)
  /-- R400 -/
  | redadd (c i t : Nat) (hostErr : Bool)
  /-- R382 -/
  | dmaReadbackDone (c i t : Nat) (hostErr : Bool)
  /-- R385 -/
  | cqReserveRetry (c i t : Nat)
  /-- R386 -/
  | dmaDescFail (c i t : Nat)
  -- Synchronisation (chapter 13)
  /-- R409 -/
  | soSignal (u : SyncUnit) (so v : Nat)
  /-- R409 -/
  | soWait (u : SyncUnit) (so v : Nat)
  /-- R409 -/
  | soWaitDec (u : SyncUnit) (so v : Nat)
  /-- R409 -/
  | soSet (u : SyncUnit) (so v : Nat)
  /-- R409 -/
  | soDec (u : SyncUnit) (so v : Nat)
  /-- R425 -/
  | bar (t : Nat) (ex : Bool) (g : Nat)
  /-- R425 -/
  | barArrive (t : Nat) (ex : Bool) (g : Nat)
  /-- R425 -/
  | barWait (t : Nat) (ex : Bool) (g : Nat)
  /-- R414 -/
  | waiterRetry (u : SyncUnit)
  /-- R429 -/
  | soCountWrite (r : Requester) (n v : Nat)
  -- Serving engine (chapters 14 and 15)
  /-- R437 -/
  | openSeq (t : Nat)
  /-- R437 -/
  | ready (t : Nat)
  /-- R437 -/
  | credit (t : Nat)
  /-- R485 -/
  | pause (t : Nat)
  /-- R486 -/
  | resume (t : Nat)
  /-- R479 -/
  | close (t : Nat)
  /-- R437 -/
  | query (t : Nat)
  /-- R437 -/
  | setPrio (t : Nat)
  /-- R522 -/
  | rebind (t : Nat)
  /-- R485 -/
  | parkCopyDone (i t : Nat)
  /-- R443 -/
  | maxWaitExpiry (model stage t : Nat)
  /-- R444 -/
  | stepLaunch (model stage t : Nat)
  /-- R447 -/
  | stepCompletion (step t : Nat)
  /-- R448 -/
  | outputDescriptorWrite (i t : Nat)
  /-- R450 -/
  | ringWriteError (i t : Nat)
  /-- R454 -/
  | ttlExpiry (i t : Nat)
  /-- R457 -/
  | preemption (t : Nat) (cands : List Placement) (rows : List (Option Nat))
  /-- R457 -/
  | preemptTimeout (t : Nat)
  /-- R458 -/
  | spill (t : Nat)
  /-- R457 -/
  | spillDone (t : Nat)
  /-- R460 -/
  | restoreDone (seq node t : Nat)
  /-- R463 -/
  | slowdownWindowEnd (t : Nat)
  -- Fabric (chapter 16)
  /-- R495 -/
  | flitReceived (port : Nat) (flit : BitVec 1024) (t : Nat)
  /-- R510 -/
  | pktRd (t : Nat)
  /-- R510 -/
  | pktWr (t : Nat)
  /-- R510 -/
  | pktAtomic (t : Nat)
  /-- R510 -/
  | pktRedadd (t : Nat)
  /-- R509 -/
  | rspData (t : Nat)
  /-- R509 -/
  | rspAck (t : Nat)
  /-- R510 -/
  | rspErr (t : Nat)
  /-- R580 -/
  | mgt (t : Nat)
  /-- R517 -/
  | twin (last : Bool) (t : Nat)
  /-- R518 -/
  | twinAck (t : Nat)
  /-- R500 -/
  | hello (t : Nat)
  /-- R500 -/
  | helloSend (p t : Nat)
  /-- R500 -/
  | portLost (p t : Nat)
  /-- R503 -/
  | portTrained (p lanes rtt t : Nat)
  /-- R503 -/
  | portTrainTimeout (p t : Nat)
  /-- R501 -/
  | berthAssign (serials : List (BitVec 64)) (t : Nat)
  /-- R504 -/
  | lsaReceived (port berth : Nat) (serial : BitVec 64) (seq : BitVec 32) (links : List (Nat × Nat × Nat)) (t : Nat)
  /-- R504 -/
  | lsaSend (t : Nat)
  /-- R507 -/
  | routeCommit (t : Nat)
  /-- R503 -/
  | routeFloodTimeout (t : Nat)
  /-- R511 -/
  | reqTimeout (tag t : Nat)
  /-- R513 -/
  | portRetrainTrigger (p corr ucw t : Nat)
  /-- R513 -/
  | portRetrainDone (p lanes rtt : Nat) (peer : BitVec 64) (t : Nat)
  /-- R518 -/
  | twinResend (t : Nat)
  /-- R517 -/
  | twinHeartbeat (p t : Nat)
  /-- R519 -/
  | twinPairLost (t : Nat)
  /-- R520 -/
  | takeoverTimer (t : Nat)
  /-- R520 -/
  | takeoverDone (t : Nat)
  -- Faults, incidents and the logbook (chapter 17)
  /-- R541 -/
  | faultReport (t : Nat)
  /-- R540 -/
  | faultAck (t : Nat)
  /-- R542 -/
  | faultSync (t : Nat)
  /-- R540 -/
  | reportTimeout (t : Nat)
  /-- R542 -/
  | incidentWindowClose (suspect t : Nat)
  /-- R542 -/
  | incidentHoldExpiry (suspect t : Nat)
  /-- R534 -/
  | tileFailure (t now : Nat)
  /-- R552 -/
  | markTimeout (t : Nat)
  /-- R552 -/
  | markQuiescent (t : Nat)
  /-- R551 -/
  | logFull
  /-- R555 -/
  | replayDiverged (p since t : Nat)
  /-- R555 -/
  | replayInputMismatch (p : Nat)
  /-- R553 -/
  | replayEnd (t : Nat)
  -- Mailboxes and the host interface (chapters 18, 19 and 22)
  /-- R579 -/
  | mbxGo (f t : Nat)
  /-- R584 -/
  | mbxTimeout (iss : Issuer) (t : Nat)
  /-- R579 -/
  | mbxResponse
  /-- R585 -/
  | ident (iss : Issuer) (t : Nat)
  /-- R578 -/
  | sessionOpen (iss : Issuer) (t : Nat)
  /-- R585 -/
  | sessionClose (iss : Issuer) (t : Nat)
  /-- R585 -/
  | echo (iss : Issuer) (t : Nat)
  /-- R566 -/
  | quotaSet (iss : Issuer) (t : Nat)
  /-- R566 -/
  | quotaGet (iss : Issuer) (t : Nat)
  /-- R564 -/
  | grant (iss : Issuer) (t : Nat)
  /-- R564 -/
  | revoke (iss : Issuer) (t : Nat)
  /-- R585 -/
  | grantList (iss : Issuer) (t : Nat)
  /-- R561 -/
  | windowSet (iss : Issuer) (t : Nat)
  /-- R571 -/
  | evtRingSet (iss : Issuer) (t : Nat)
  /-- R572 -/
  | noteRingSet (iss : Issuer) (t : Nat)
  /-- R573 -/
  | tenantClear (iss : Issuer) (t : Nat)
  /-- R573 -/
  | functionLevelReset (f t : Nat)
  /-- R586 -/
  | qCreate (iss : Issuer) (t : Nat)
  /-- R232 -/
  | qState (iss : Issuer) (t : Nat)
  /-- R586 -/
  | qDestroy (iss : Issuer) (t : Nat)
  /-- R586 -/
  | qQuery (iss : Issuer) (t : Nat)
  /-- R259 -/
  | graphAbort (iss : Issuer) (t : Nat)
  /-- R586 -/
  | dcInval (iss : Issuer) (t : Nat)
  /-- R586 -/
  | soAlloc (iss : Issuer) (t : Nat)
  /-- R415 -/
  | soFree (iss : Issuer) (t : Nat)
  /-- R586 -/
  | soOp (iss : Issuer) (t : Nat)
  /-- R586 -/
  | soCfg (iss : Issuer) (t : Nat)
  /-- R422 -/
  | barBind (iss : Issuer) (t : Nat)
  /-- R426 -/
  | barUnbind (iss : Issuer) (t : Nat)
  /-- R394 -/
  | acBind (iss : Issuer) (t : Nat)
  /-- R586 -/
  | acSet (iss : Issuer) (t : Nat)
  /-- R396 -/
  | acUnbind (iss : Issuer) (t : Nat)
  /-- R274 -/
  | pilPlace (iss : Issuer) (t : Nat) (answer : Option (Option Nat))
  /-- R286 -/
  | pilFree (iss : Issuer) (t : Nat)
  /-- R279 -/
  | pilPin (iss : Issuer) (t : Nat)
  /-- R279 -/
  | pilUnpin (iss : Issuer) (t : Nat)
  /-- R280 -/
  | pilMove (iss : Issuer) (t : Nat)
  /-- R286 -/
  | pilTable (iss : Issuer) (t : Nat)
  /-- R271 -/
  | pilThresh (iss : Issuer) (t : Nat)
  /-- R586 -/
  | pilCalCfg (iss : Issuer) (t : Nat)
  /-- R441 -/
  | modelReg (iss : Issuer) (t : Nat)
  /-- R441 -/
  | modelDereg (iss : Issuer) (t : Nat)
  /-- R469 -/
  | kvGeomReg (iss : Issuer) (t : Nat)
  /-- R587 -/
  | serveRsv (iss : Issuer) (t : Nat)
  /-- R587 -/
  | serveCfg (iss : Issuer) (t : Nat)
  /-- R325 -/
  | memMap (iss : Issuer) (t : Nat)
  /-- R587 -/
  | memResv (iss : Issuer) (t : Nat)
  /-- R342 -/
  | t2Retrain (iss : Issuer) (t : Nat)
  /-- R587 -/
  | t2RetrainCfg (iss : Issuer) (t : Nat)
  /-- R587 -/
  | scrubCfg (iss : Issuer) (t : Nat)
  /-- R587 -/
  | ceCfg (iss : Issuer) (t : Nat)
  /-- R501 -/
  | berthTable (iss : Issuer) (t : Nat)
  /-- R503 -/
  | fabEnable (iss : Issuer) (t : Nat)
  /-- R587 -/
  | portCfg (iss : Issuer) (t : Nat)
  /-- R513 -/
  | portRetrain (iss : Issuer) (t : Nat)
  /-- R587 -/
  | fabCfg (iss : Issuer) (t : Nat)
  /-- R587 -/
  | twinCfg (iss : Issuer) (t : Nat)
  /-- R520 -/
  | twinTakeover (iss : Issuer) (t : Nat)
  /-- R523 -/
  | twinResync (iss : Issuer) (t : Nat)
  /-- R552 -/
  | logStart (iss : Issuer) (t : Nat)
  /-- R552 -/
  | logStop (iss : Issuer) (t : Nat)
  /-- R552 -/
  | logMark (iss : Issuer) (t : Nat)
  /-- R553 -/
  | replayStart (iss : Issuer) (t : Nat)
  /-- R553 -/
  | replayStop (iss : Issuer) (t : Nat)
  /-- R624 -/
  | paceSet (iss : Issuer) (t : Nat)
  /-- R620 -/
  | pwrLimit (iss : Issuer) (t : Nat)
  /-- R637 -/
  | thmRead (iss : Issuer) (t : Nat)
  /-- R634 -/
  | valveSet (iss : Issuer) (t : Nat)
  /-- R597 -/
  | fwLoad (iss : Issuer) (t : Nat) (hostErr : Bool) (bad : BitVec 64) (down : Bool)
  /-- R599 -/
  | fwUpdate (iss : Issuer) (t : Nat) (hostErr ready : Bool) (dead : BitVec 67)
  /-- R605 -/
  | crashDump (iss : Issuer) (t : Nat) (hostErr : Bool)
  /-- R608 -/
  | licInstall (iss : Issuer) (t : Nat) (hostErr : Bool)
  /-- R639 -/
  | resetModule (iss : Issuer) (t : Nat)
  /-- R645 -/
  | resetBlock (iss : Issuer) (t : Nat)
  /-- R646 -/
  | blockResetDone (bad : BitVec 68) (t : Nat)
  /-- R665 -/
  | trcCfg (iss : Issuer) (t : Nat)
  /-- R675 -/
  | counterSnapshot (iss : Issuer) (t : Nat)
  /-- R666 -/
  | trcSink (iss : Issuer) (t : Nat)
  /-- R667 -/
  | traceRecordWrite (u t : Nat)
  /-- R571 -/
  | eventRecordWrite (f t : Nat) (ok : Bool)
  /-- R570 -/
  | msixCoalesceExpiry (f vec t : Nat)
  /-- R571 -/
  | mbxEvtHeadWrite (f v : Nat)
  /-- R561 -/
  | hostBarAccess (f bar : Nat) (write : Bool) (off n : Nat) (bs : List Byte) (errs : List (Nat × Nat × Nat)) (t : Nat)
  -- The I3C sideband (chapter 23)
  /-- R690 -/
  | i3cMbxReq (bs : List Byte) (t : Nat)
  /-- R689 -/
  | i3cRegRead (bs : List Byte) (t : Nat)
  /-- R689 -/
  | i3cRegWrite (bs : List Byte) (t : Nat)
  /-- R689 -/
  | i3cMbxPoll (bs : List Byte)
  /-- R689 -/
  | i3cPrivateRead
  /-- R688 -/
  | entdaa (addr : BitVec 7)
  /-- R688 -/
  | rstdaa
  /-- R688 -/
  | getpid
  /-- R688 -/
  | getbcr
  /-- R688 -/
  | getdcr
  /-- R688 -/
  | getstatus
  /-- R688 -/
  | enec (v : Nat)
  /-- R688 -/
  | disec (v : Nat)
  /-- R688 -/
  | getmwl
  /-- R688 -/
  | getmrl
  /-- R688 -/
  | setmwl (v : Nat)
  /-- R688 -/
  | setmrl (v : Nat)
  /-- R690 -/
  | ibiSend (b : Nat)
  -- Firmware cores, power and coolant (chapters 19 and 20)
  /-- R592 -/
  | coreWatchdog (core cause t : Nat)
  /-- R614 -/
  | gateOn (vin t : Nat)
  /-- R614 -/
  | pgood (t : Nat)
  /-- R614 -/
  | rampTimeout (t : Nat)
  /-- R613 -/
  | vinUndervoltage (vin t : Nat)
  /-- R613 -/
  | vinOvervoltage (vin t : Nat)
  /-- R615 -/
  | hsShort (cause t : Nat)
  /-- R616 -/
  | hsRetry (t : Nat)
  /-- R616 -/
  | retriesClear (t : Nat)
  /-- R625 -/
  | estimatorUpdate (m : Measured) (t : Nat)
  /-- R632 -/
  | thmRestart (t : Nat)
  /-- R626 -/
  | coolantSensorRead (inlet outlet : Int) (t : Nat)
  /-- R621 -/
  | softLimitTick (t : Nat)
  /-- R630 -/
  | throttleTick (t : Nat)
  /-- R622 -/
  | hwPowerClamp (w t : Nat)
  /-- R622 -/
  | hwPowerClampRelease (w t : Nat)
  /-- R623 -/
  | inputCurrentEmergency (i t : Nat)
  /-- R623 -/
  | inputCurrentRelease (i t : Nat)
  /-- R634 -/
  | valveTick (fb t : Nat)
  /-- R633 -/
  | valveFbLost (t : Nat)
  /-- R635 -/
  | valveStuck (t : Nat)
  -- Reset and bring-up (chapter 21)
  /-- R639 -/
  | auxPowerOn
  /-- R639 -/
  | perstNAssert (t : Nat)
  /-- R639 -/
  | resetNAssert (t : Nat)
  /-- R641 -/
  | resetStretchEnd (perst resetN : Bool) (t : Nat)
  /-- R644 -/
  | moduleWatchdogExpiry (t : Nat)
  /-- R644 -/
  | rstWdogKick (r : Requester) (v t : Nat)
  /-- R644 -/
  | rstWdogCtrlWrite (r : Requester) (v t : Nat)
  /-- R650 -/
  | wakeStepDone (t : Nat)
  /-- R651 -/
  | wakeStepTimeout (rails : List Nat) (t : Nat)
  /-- R653 -/
  | pcieLinkUp (t : Nat)
  /-- R655 -/
  | tileTestDone (bad : Table (BitVec 68)) (t : Nat)
  /-- R653 -/
  | t1TrainingDone (bad : BitVec 768) (t : Nat)
  /-- R653 -/
  | t2TrainingDone (bad : BitVec 16) (t : Nat)
  /-- R355 -/
  | fillDone (which t : Nat)
  /-- R653 -/
  | fwInitDone (t : Nat)
  /-- R654 -/
  | bringupReady (t : Nat)
  /-- R653 -/
  | bringupTimeout (task ran : Nat) (tiles : Table (BitVec 68)) (pcs : BitVec 768) (chs : BitVec 16) (t : Nat)
  -- Changes that the surroundings report
  /-- R330 -/
  | dramHotChange (t2 : Bool) (n temp : Nat) (hot : Bool)
  /-- R341 -/
  | calibrationRegained (stack pc t : Nat)
  /-- R560 -/
  | pcieCompletionTimeout (q : Option Nat) (c i t : Nat)
  /-- R583 -/
  | mbxEnrolmentEnd (core f t : Nat)
  /-- R647 -/
  | auxPowerLoss (vbat : Bool) (t : Nat)
  deriving DecidableEq, Repr

end Sys2Proof
end

