-- ==== Sys2Proof/Decode.lean ====
section
/-! DEFINITION. The command that a word spells. The module takes commands, not encoded
instructions: no row of spec/opcode_table.json gives its command any bits. -/

namespace Sys2Proof

/-- The command read from a word of `nbits` bits: none, since no row has bits. -/
def decodeTableWord (_nbits _w : Nat) : Option Instr := none

end Sys2Proof
end

