-- ==== Sys2Proof/Config.lean ====
section
/-! DEFINITION. What one module has fixed for it and what the spec leaves
open: fuses and identities, the result functions that the spec bounds but does
not give, and the free values. Every constant here is opaque: no proof can see
what it is, so a theorem about the model holds whatever it is. -/

namespace Sys2Proof.Config

/-! ### Identity and fuses -/

/-- Module serial number (18 R585). -/
opaque serial : BitVec 64
/-- Silicon stepping of the east die (01 R32). -/
opaque steppingEast : BitVec 4
/-- Silicon stepping of the west die (01 R32). -/
opaque steppingWest : BitVec 4
/-- Base-die stepping of a stack (09 R318). -/
opaque steppingStack : Nat → BitVec 4
/-- PACE_TRIM of a quay, from its fuses (02 R68). -/
opaque paceTrim : Nat → BitVec 16
/-- PACE_CENTRAL_TRIM, from fuses (02 R696). -/
opaque centralTrim : BitVec 16
/-- Lowest firmware security version the fuses accept (19). -/
opaque fuseSvn : BitVec 32
/-- Address, in tier 1, of the firmware reservations taken at bring-up, by
MEM_RESV kind (18 R587, 01 R48): the spec leaves their places to the firmware.
The argument is the top of the tier the reservation lies in. -/
opaque resvBase : Nat → Nat → Nat

/-- Size of the reservation of the home index and owner words, which the spec does not
state (18 R587). -/
opaque indexBytes : Nat

/-- The bytes over which MAP_SUM is taken, for the values of the maps (17 R547): the
spec names the values and not their layout. -/
opaque mapBytes : List Nat → List Byte

/-- Is an ECDSA P-384 signature with SHA-384 over a message valid under the key
of this KEY_ID, and is the key known and not revoked (19 R596)? Key number,
message, signature. -/
opaque sigOk : BitVec 32 → List Byte → List Byte → Bool

/-! ### Function results that the spec bounds and does not give (03 R122)

Each is one fixed function of its input bits. Edge results are computed by
the model; these stand for every other input. -/

opaque fnExp : BitVec 32 → BitVec 32
opaque fnExp2 : BitVec 32 → BitVec 32
opaque fnLog : BitVec 32 → BitVec 32
opaque fnRcp : BitVec 32 → BitVec 32
opaque fnRsqrt : BitVec 32 → BitVec 32
opaque fnTanh : BitVec 32 → BitVec 32
opaque fnSigmoid : BitVec 32 → BitVec 32
opaque fnSilu : BitVec 32 → BitVec 32
opaque fnGeluTanh : BitVec 32 → BitVec 32
opaque fnGeluErf : BitVec 32 → BitVec 32

/-- The supply factor kV, in units of 1/25,000, at a supply in mV that the
table of 02 R60 does not reach. -/
opaque kvOutside : Nat → Nat

/-! ### Free values -/

/-- A fresh value the spec leaves open: the step hands in a counter that it
advances, so each use is a value of its own. -/
opaque freeValue : Nat → BitVec 64

/-- What a byte of host memory holds that the module has never written: host
memory is the surroundings' (00 R1). -/
opaque hostByte : Nat → Byte

end Sys2Proof.Config
end

