-- ==== Sys2Proof/Machine/Bits.lean ====
section
/-! DEFINITION. Bit fields, byte orders, sparse tables and byte memories: the
plain helpers that every meaning uses. Structures in memory are little-endian
(00 R13), so a structure of n bytes is handled as one number with byte 0 in
its low bits. -/

namespace Sys2Proof.Machine

/-! ### Bit fields of numbers -/

/-- The field of width `w` whose lowest bit is bit `lo` (00 R12). -/
def bits (x lo w : Nat) : Nat := x / 2 ^ lo % 2 ^ w

/-- One bit as a Boolean. -/
def bit (x n : Nat) : Bool := x / 2 ^ n % 2 == 1

/-- The number with one field replaced. -/
def setBits (x lo w v : Nat) : Nat :=
  x / 2 ^ (lo + w) * 2 ^ (lo + w) + v % 2 ^ w * 2 ^ lo + x % 2 ^ lo

/-- A Boolean as the bit it stands for. -/
def b2n (b : Bool) : Nat := if b then 1 else 0

/-- Two's complement value of the low `w` bits. -/
def sext (w x : Nat) : Int :=
  if x % 2 ^ w < 2 ^ (w - 1) then (x % 2 ^ w : Nat) else ((x % 2 ^ w : Nat) : Int) - 2 ^ w

/-- The `w`-bit two's complement pattern of an integer. -/
def ofInt (w : Nat) (i : Int) : Nat := (i % (2 ^ w : Int)).toNat

/-- The byte field at byte offset `off`, `n` bytes long, of a structure. -/
def byteField (x off n : Nat) : Nat := bits x (8 * off) (8 * n)

/-- Number of one bits below `w`. -/
def popcount : Nat → Nat → Nat
  | 0, _ => 0
  | w + 1, x => x % 2 + popcount w (x / 2)

/-- Index of the lowest one bit below `w`, if there is one. -/
def lowestBit (w x : Nat) : Option Nat := (List.range w).find? (fun i => bit x i)

/-- A sum that stays at the largest `w`-bit number. -/
def satAdd (w a b : Nat) : Nat := min (a + b) (2 ^ w - 1)

/-! ### Bytes -/

/-- Little-endian value of a list of bytes. -/
def natOfBytes : List Byte → Nat
  | [] => 0
  | b :: r => b.toNat + 256 * natOfBytes r

/-- The lowest `n` bytes of a number, byte 0 first. -/
def bytesOfNat : Nat → Nat → List Byte
  | 0, _ => []
  | n + 1, x => BitVec.ofNat 8 x :: bytesOfNat n (x / 256)

/-! ### Sparse tables -/

/-- What stands at an index, if the table lists it. -/
def Table.find {α : Type} : Table α → Nat → Option α
  | [], _ => none
  | (a, x) :: r, k => if a = k then some x else Table.find r k

/-- What stands at an index; an unlisted index holds `d`. -/
def Table.getD {α : Type} (t : Table α) (k : Nat) (d : α) : α := (Table.find t k).getD d

/-- Write one index, keeping the indexes rising. -/
def Table.put {α : Type} : Table α → Nat → α → Table α
  | [], k, v => [(k, v)]
  | (a, x) :: r, k, v =>
    if k < a then (k, v) :: (a, x) :: r
    else if k = a then (k, v) :: r
    else (a, x) :: Table.put r k v

/-- Take one index out. -/
def Table.del {α : Type} : Table α → Nat → Table α
  | [], _ => []
  | (a, x) :: r, k => if a = k then Table.del r k else (a, x) :: Table.del r k

/-- Change what stands at an index, an unlisted one holding `d`. -/
def Table.upd {α : Type} (t : Table α) (k : Nat) (d : α) (f : α → α) : Table α :=
  Table.put t k (f (Table.getD t k d))

/-- Change every listed entry. -/
def Table.mapV {α β : Type} (t : Table α) (f : Nat → α → β) : Table β :=
  t.map (fun p => (p.1, f p.1 p.2))

/-- The lowest of the first `n` indexes that the table does not list. -/
def Table.lowestFree {α : Type} (t : Table α) (n : Nat) : Option Nat :=
  (List.range n).find? (fun k => (Table.find t k).isNone)

/-! ### Byte memories -/

/-- Canonical form: addresses strictly rising. Every listed byte is one that a
write has made good, and an unlisted one reads as uncorrectable, so no listed
entry can equal what an unlisted address reads as. -/
def Mem.wf (m : Mem) : Bool := decide (m.Pairwise (fun a b => a.1 < b.1))

/-- One byte, `none` where the memory holds no good data. -/
def Mem.read (m : Mem) (a : Nat) : Option Byte := Table.find m a

/-- Write one byte. -/
def Mem.write (m : Mem) (a : Nat) (b : Byte) : Mem := Table.put m a b

/-- Write consecutive bytes from an address on. -/
def Mem.writeBytes (m : Mem) : Nat → List Byte → Mem
  | _, [] => m
  | a, b :: r => Mem.writeBytes (Mem.write m a b) (a + 1) r

/-- Take the good data of `n` bytes away: poison, or loss with the supply. -/
def Mem.drop (m : Mem) (a n : Nat) : Mem :=
  m.filter (fun c => !(decide (a ≤ c.1) && decide (c.1 < a + n)))

/-- Write zero to `n` bytes from an address on. -/
def Mem.fillZero (m : Mem) (a n : Nat) : Mem :=
  m.filter (fun c => decide (c.1 < a)) ++ (List.range n).map (fun i => (a + i, (0 : Byte)))
    ++ m.filter (fun c => decide (a + n ≤ c.1))

/-- `n` bytes from an address on, if all of them hold good data. -/
def Mem.readBytes (m : Mem) (a : Nat) : Nat → Option (List Byte)
  | 0 => some []
  | n + 1 =>
    match Mem.read m a, Mem.readBytes m (a + 1) n with
    | some b, some r => some (b :: r)
    | _, _ => none

/-- The first of `n` bytes that holds no good data. -/
def Mem.firstBad (m : Mem) (a n : Nat) : Option Nat :=
  (List.range n).find? (fun i => (Mem.read m (a + i)).isNone) |>.map (a + ·)

/-- Write bytes into a memory whose unit of integrity is `u` bytes (8 in a
scratchpad, 4 in a scalar data memory, the atom in the tiers). A unit that the
write covers whole becomes good; one it covers in part keeps its other bytes if
it was good, and is left poisoned, its new bytes discarded, if it was not
(11 R354). -/
def Mem.writeUnits (m : Mem) (u a : Nat) (bs : List Byte) : Mem :=
  let n := bs.length
  let first := a / u
  let last := (a + n - 1) / u
  (List.range (if n = 0 then 0 else last + 1 - first)).foldl (fun m' i =>
    let base := (first + i) * u
    let lo := max a base
    let hi := min (a + n) (base + u)
    let part := (bs.drop (lo - a)).take (hi - lo)
    if hi - lo = u ∨ (Mem.readBytes m' base u).isSome then Mem.writeBytes m' lo part
    else Mem.drop m' base u) m

end Sys2Proof.Machine
end

