-- ==== Sys2Proof/Machine/Flags.lean ====
section
/-! DEFINITION. Arithmetic flags and the arithmetic that sets them: exact
values, the floating-point encodings, rounding, conversion and the IEEE
operations on binary32 (chapter 03). Everything is computed exactly on numbers
of the form ±m · 2^e and rounded once, as the rules say. -/

namespace Sys2Proof.Machine

/-! ### ARITH_FLAGS (03 R126) -/

/-- ARITH_FLAGS as a bit mask. -/
abbrev ArithFlags := BitVec 8

def flagInv : ArithFlags := 0x01#8
def flagNanIn : ArithFlags := 0x02#8
def flagOvf : ArithFlags := 0x04#8
def flagInfSat : ArithFlags := 0x08#8
def flagUnf : ArithFlags := 0x10#8
def flagT3Rsv : ArithFlags := 0x20#8

/-- A flag, or none. -/
def flagIf (c : Bool) (f : ArithFlags) : ArithFlags := if c then f else 0#8

/-! ### Exact values -/

/-- A value before rounding: NaN, an infinity, or ±m · 2^e (±0 is m = 0). -/
inductive FV where
  | nan
  | inf (neg : Bool)
  | fin (neg : Bool) (m : Nat) (e : Int)
  deriving DecidableEq, Repr

/-- The integer i · 2^e. -/
def fvOfInt (i : Int) (e : Int) : FV := .fin (decide (i < 0)) i.natAbs e

/-- Two mantissas brought to one exponent. -/
def alignMants (m₁ : Nat) (e₁ : Int) (m₂ : Nat) (e₂ : Int) : Nat × Nat × Int :=
  let e := min e₁ e₂
  (m₁ * 2 ^ (e₁ - e).toNat, m₂ * 2 ^ (e₂ - e).toNat, e)

/-- The signed mantissa. -/
def signedMant (neg : Bool) (m : Nat) : Int := if neg then -(m : Int) else m

/-- Exact sum. The Boolean reports opposite infinities (an invalid
operation). A zero sum is −0 only when both addends are −0. -/
def fvAdd : FV → FV → FV × Bool
  | .nan, _ => (.nan, false)
  | _, .nan => (.nan, false)
  | .inf a, .inf b => if a = b then (.inf a, false) else (.nan, true)
  | .inf a, .fin .. => (.inf a, false)
  | .fin .., .inf b => (.inf b, false)
  | .fin n₁ m₁ e₁, .fin n₂ m₂ e₂ =>
    let (a, b, e) := alignMants m₁ e₁ m₂ e₂
    let s := signedMant n₁ a + signedMant n₂ b
    if s = 0 then (.fin (n₁ && n₂ && m₁ == 0 && m₂ == 0) 0 e, false)
    else (fvOfInt s e, false)

/-- Exact product. The Boolean reports infinity × 0 (an invalid operation). -/
def fvMul : FV → FV → FV × Bool
  | .nan, _ => (.nan, false)
  | _, .nan => (.nan, false)
  | .inf a, .inf b => (.inf (a != b), false)
  | .inf a, .fin b m _ => if m = 0 then (.nan, true) else (.inf (a != b), false)
  | .fin a m _, .inf b => if m = 0 then (.nan, true) else (.inf (a != b), false)
  | .fin a m e, .fin b n f => (.fin (a != b) (m * n) (e + f), false)

/-- Negation. -/
def fvNeg : FV → FV
  | .nan => .nan
  | .inf a => .inf (!a)
  | .fin a m e => .fin (!a) m e

/-- Multiplication by 2^k. -/
def fvScale (k : Int) : FV → FV
  | .nan => .nan
  | .inf a => .inf a
  | .fin a m e => .fin a m (e + k)

/-- IEEE less-than: false with a NaN, and −0 equals +0. -/
def fvLt : FV → FV → Bool
  | .nan, _ => false
  | _, .nan => false
  | .inf a, .inf b => a && !b
  | .inf a, .fin .. => a
  | .fin .., .inf b => !b
  | .fin n₁ m₁ e₁, .fin n₂ m₂ e₂ =>
    let (a, b, _) := alignMants m₁ e₁ m₂ e₂
    decide (signedMant n₁ a < signedMant n₂ b)

/-- IEEE equality. -/
def fvEq : FV → FV → Bool
  | .nan, _ => false
  | _, .nan => false
  | .inf a, .inf b => a == b
  | .inf _, .fin .. => false
  | .fin .., .inf _ => false
  | .fin n₁ m₁ e₁, .fin n₂ m₂ e₂ =>
    let (a, b, _) := alignMants m₁ e₁ m₂ e₂
    decide (signedMant n₁ a = signedMant n₂ b)

def fvIsNan : FV → Bool
  | .nan => true
  | _ => false

def fvIsZero : FV → Bool
  | .fin _ m _ => m == 0
  | _ => false

def fvIsNeg : FV → Bool
  | .nan => false
  | .inf a => a
  | .fin a _ _ => a

/-! ### Floating-point encodings (03 R91) -/

/-- How a type spends the codes of the largest exponent. -/
inductive TopCodes where
  /-- infinities and NaNs, as IEEE 754 -/
  | ieee
  /-- finite but for S.1111.111 (E4M3) -/
  | e4m3
  /-- all finite -/
  | finite
  deriving DecidableEq, Repr

/-- A floating-point type: exponent bits, mantissa bits, bias. -/
structure Fmt where
  ew : Nat
  mw : Nat
  bias : Nat
  top : TopCodes
  deriving DecidableEq, Repr

def fmtFp32 : Fmt := ⟨8, 23, 127, .ieee⟩
def fmtBf16 : Fmt := ⟨8, 7, 127, .ieee⟩
def fmtFp16 : Fmt := ⟨5, 10, 15, .ieee⟩
def fmtE4m3 : Fmt := ⟨4, 3, 7, .e4m3⟩
def fmtE5m2 : Fmt := ⟨5, 2, 15, .ieee⟩
def fmtE3m2 : Fmt := ⟨3, 2, 3, .finite⟩
def fmtE2m3 : Fmt := ⟨2, 3, 1, .finite⟩
def fmtE2m1 : Fmt := ⟨2, 1, 1, .finite⟩

/-- Largest exponent field and mantissa of a finite value. -/
def fmtMax (f : Fmt) : Nat × Nat :=
  match f.top with
  | .ieee => (2 ^ f.ew - 2, 2 ^ f.mw - 1)
  | .e4m3 => (2 ^ f.ew - 1, 2 ^ f.mw - 2)
  | .finite => (2 ^ f.ew - 1, 2 ^ f.mw - 1)

/-- The code of sign, exponent field and mantissa. -/
def fmtCode (f : Fmt) (neg : Bool) (ex man : Nat) : Nat :=
  b2n neg * 2 ^ (f.ew + f.mw) + ex * 2 ^ f.mw + man

/-- Canonical NaN (03 R92): the quiet NaN, or S.1111.111 positive. -/
def fmtNan (f : Fmt) : Nat :=
  match f.top with
  | .ieee => fmtCode f false (2 ^ f.ew - 1) (2 ^ (f.mw - 1))
  | .e4m3 => fmtCode f false (2 ^ f.ew - 1) (2 ^ f.mw - 1)
  | .finite => 0

/-- The infinity of a type that has one. -/
def fmtInf (f : Fmt) (neg : Bool) : Nat := fmtCode f neg (2 ^ f.ew - 1) 0

/-- The largest finite value. -/
def fmtLargest (f : Fmt) (neg : Bool) : Nat :=
  let (ex, man) := fmtMax f
  fmtCode f neg ex man

/-- The value of a code (03 R91). -/
def fmtDecode (f : Fmt) (c : Nat) : FV :=
  let man := bits c 0 f.mw
  let ex := bits c f.mw f.ew
  let neg := bit c (f.mw + f.ew)
  let fin : FV :=
    if ex = 0 then .fin neg man (1 - (f.bias : Int) - f.mw)
    else .fin neg (2 ^ f.mw + man) ((ex : Int) - f.bias - f.mw)
  if ex = 2 ^ f.ew - 1 then
    match f.top with
    | .ieee => if man = 0 then .inf neg else .nan
    | .e4m3 => if man = 2 ^ f.mw - 1 then .nan else fin
    | .finite => fin
  else fin

/-- Rounding mode of a conversion: to nearest even, or stochastic with the
element's 16-bit draw (03 R109, R111). -/
inductive RMode where
  | rne
  | sr (rnd : Nat)
  deriving DecidableEq, Repr

/-- m · 2^e in units of 2^ue, rounded to an integer (03 R110, R111). -/
def roundUnits (md : RMode) (m : Nat) (e ue : Int) : Nat :=
  if ue ≤ e then m * 2 ^ (e - ue).toNat
  else
    let d := 2 ^ (ue - e).toNat
    let k := m / d
    let r := m % d
    match md with
    | .rne => if 2 * r > d ∨ (2 * r = d ∧ k % 2 = 1) then k + 1 else k
    | .sr rnd => if r * 65536 / d + rnd ≥ 65536 then k + 1 else k

/-- ⌊log2⌋ of m · 2^e, for m > 0. -/
def log2Of (m : Nat) (e : Int) : Int := (Nat.log2 m : Int) + e

/-- A finite value rounded into a format: the code if it is in range, else
`none` (overflow), and whether a non-zero value became zero. Subnormals are
kept (03 R106). -/
def fmtRound (f : Fmt) (md : RMode) (neg : Bool) (m : Nat) (e : Int) : Option Nat × Bool :=
  if m = 0 then (some (fmtCode f neg 0 0), false)
  else
    let emin : Int := 1 - (f.bias : Int)
    let ue := max (log2Of m e) emin - f.mw
    let k := roundUnits md m e ue
    let (k, ue) := if k = 2 ^ (f.mw + 1) then (2 ^ f.mw, ue + 1) else (k, ue)
    if k = 0 then (some (fmtCode f neg 0 0), true)
    else if k < 2 ^ f.mw then (some (fmtCode f neg 0 k), false)
    else
      let ex := (ue + f.mw + f.bias).toNat
      let man := k - 2 ^ f.mw
      let (mex, mman) := fmtMax f
      if mex < ex ∨ (ex = mex ∧ mman < man) then (none, false)
      else (some (fmtCode f neg ex man), false)

/-! ### Binary32 results -/

/-- An exact value as binary32, rounded to nearest even; a result beyond the
range becomes an infinity. The flags are OVF and UNF. -/
def toFp32 : FV → BitVec 32 × ArithFlags
  | .nan => (0x7FC00000#32, 0)
  | .inf neg => (BitVec.ofNat 32 (fmtInf fmtFp32 neg), 0)
  | .fin neg m e =>
    match fmtRound fmtFp32 .rne neg m e with
    | (some c, z) => (BitVec.ofNat 32 c, flagIf z flagUnf)
    | (none, _) => (BitVec.ofNat 32 (fmtInf fmtFp32 neg), flagOvf)

/-- The value of a binary32 word. -/
def ofFp32 (w : BitVec 32) : FV := fmtDecode fmtFp32 w.toNat

/-- A vector-engine result: rounded once, an overflow raising no flag and a
non-zero result rounded to zero setting UNF (03 R106, R121). -/
def vecResult (v : FV) (inv : Bool) : BitVec 32 × ArithFlags :=
  let (w, fl) := toFp32 v
  (w, (fl &&& flagUnf) ||| flagIf inv flagInv)

/-- IEEE binary32 addition (03 R121). -/
def fpAdd (a b : BitVec 32) : BitVec 32 × ArithFlags :=
  let (v, inv) := fvAdd (ofFp32 a) (ofFp32 b)
  vecResult v inv

/-- IEEE binary32 subtraction. -/
def fpSub (a b : BitVec 32) : BitVec 32 × ArithFlags :=
  let (v, inv) := fvAdd (ofFp32 a) (fvNeg (ofFp32 b))
  vecResult v inv

/-- IEEE binary32 multiplication. -/
def fpMul (a b : BitVec 32) : BitVec 32 × ArithFlags :=
  let (v, inv) := fvMul (ofFp32 a) (ofFp32 b)
  vecResult v inv

/-- IEEE binary32 fused multiply-add, rounded once. -/
def fpFma (a b c : BitVec 32) : BitVec 32 × ArithFlags :=
  let (p, i₁) := fvMul (ofFp32 a) (ofFp32 b)
  let (v, i₂) := fvAdd p (ofFp32 c)
  vecResult v (i₁ || i₂)

/-- A quotient to 40 bits beyond the point with a sticky bit, so that rounding
it to any format of chapter 03 rounds the exact quotient. -/
def quotient (m : Nat) (e : Int) (n : Nat) (f : Int) : Nat × Int :=
  let s := 200 + Nat.log2 (n + 1)
  let q := m * 2 ^ s / n
  let r := m * 2 ^ s % n
  (2 * q + (if r = 0 then 0 else 1), e - f - s - 1)

/-- Exact-enough quotient of two values; invalid for 0/0 and ∞/∞, which R126
does not count among the operations that set INV. -/
def fvDiv : FV → FV → FV
  | .nan, _ => .nan
  | _, .nan => .nan
  | .inf _, .inf _ => .nan
  | .inf a, .fin b _ _ => .inf (a != b)
  | .fin a _ _, .inf b => .fin (a != b) 0 0
  | .fin a m e, .fin b n f =>
    if n = 0 then (if m = 0 then .nan else .inf (a != b))
    else if m = 0 then .fin (a != b) 0 0
    else let (q, x) := quotient m e n f; .fin (a != b) q x

/-- IEEE binary32 division. -/
def fpDiv (a b : BitVec 32) : BitVec 32 × ArithFlags :=
  vecResult (fvDiv (ofFp32 a) (ofFp32 b)) false

/-- Integer square root, by bits: the largest r with r² ≤ n below 2^k. -/
def isqrtBits : Nat → Nat → Nat → Nat
  | 0, _, r => r
  | k + 1, n, r =>
    let c := r + 2 ^ k
    isqrtBits k n (if c * c ≤ n then c else r)

/-- IEEE square root: NaN below zero, −0 of −0. -/
def fvSqrt : FV → FV
  | .nan => .nan
  | .inf neg => if neg then .nan else .inf false
  | .fin neg m e =>
    if m = 0 then .fin neg 0 0
    else if neg then .nan
    else
      let odd : Int := e % 2
      let m' := m * 2 ^ odd.toNat * 2 ^ 120
      let e' := (e - odd - 120) / 2
      let r := isqrtBits (Nat.log2 m' / 2 + 1) m' 0
      .fin false (2 * r + (if r * r = m' then 0 else 1)) (e' - 1)

/-- IEEE binary32 square root. -/
def fpSqrt (a : BitVec 32) : BitVec 32 × ArithFlags := vecResult (fvSqrt (ofFp32 a)) false

/-- min: NaN if either input is NaN, −0 below +0 (03 R121). -/
def fpMin (a b : BitVec 32) : BitVec 32 :=
  let x := ofFp32 a
  let y := ofFp32 b
  if fvIsNan x || fvIsNan y then 0x7FC00000#32
  else if fvLt x y then a
  else if fvLt y x then b
  else if fvIsNeg x then a else b

/-- max: NaN if either input is NaN, −0 below +0. -/
def fpMax (a b : BitVec 32) : BitVec 32 :=
  let x := ofFp32 a
  let y := ofFp32 b
  if fvIsNan x || fvIsNan y then 0x7FC00000#32
  else if fvLt x y then b
  else if fvLt y x then a
  else if fvIsNeg x then b else a

/-- 1.0 as binary32. -/
def fpOne : BitVec 32 := 0x3F800000#32

/-- VCMPLT of one lane. -/
def fpCmpLt (a b : BitVec 32) : BitVec 32 := if fvLt (ofFp32 a) (ofFp32 b) then fpOne else 0

/-- VCMPEQ of one lane. -/
def fpCmpEq (a b : BitVec 32) : BitVec 32 := if fvEq (ofFp32 a) (ofFp32 b) then fpOne else 0

/-- VSEL of one lane: VA where VC is not ±0. -/
def fpSel (a b c : BitVec 32) : BitVec 32 := if fvIsZero (ofFp32 c) then b else a

/-! ### Conversion (03 R104, R105) -/

/-- Conversion to an integer type of the range lo..hi, unscaled: ties to even,
clamped (03 R105, R110). -/
def convInt (lo hi : Int) (md : RMode) : FV → Int × ArithFlags
  | .nan => (0, flagInv)
  | .inf neg => (if neg then lo else hi, flagInfSat)
  | .fin neg m e =>
    let k := signedMant neg (roundUnits md m e 0)
    if k < lo then (lo, flagOvf)
    else if hi < k then (hi, flagOvf)
    else (k, flagIf (k == 0 && m != 0) flagUnf)

/-- Conversion to a floating-point type, unscaled (03 R104, R105). -/
def convFloat (f : Fmt) (sat : Bool) (md : RMode) : FV → Nat × ArithFlags
  | .nan =>
    match f.top with
    | .finite => (0, flagInv)
    | _ => (fmtNan f, 0)
  | .inf neg =>
    match f.top with
    | .ieee => (fmtInf f neg, 0)
    | .e4m3 => if sat then (fmtNan f, flagInv) else (fmtLargest f neg, flagInfSat)
    | .finite => (fmtLargest f neg, flagInfSat)
  | .fin neg m e =>
    match fmtRound f md neg m e with
    | (some c, z) => (c, flagIf z flagUnf)
    | (none, _) =>
      match f.top with
      | .ieee => (if sat then fmtInf f neg else fmtLargest f neg, flagOvf)
      | .e4m3 => (if sat then fmtNan f else fmtLargest f neg, flagOvf)
      | .finite => (fmtLargest f neg, flagOvf)

/-- The random draw of output element i (03 R112). -/
def srDraw (seed elemBase i : Nat) : Nat :=
  let z := (BitVec.ofNat 64 seed) + BitVec.ofNat 64 (elemBase + i) * 0x9E3779B97F4A7C15#64
  let z := (z ^^^ (z >>> 30)) * 0xBF58476D1CE4E5B9#64
  let z := (z ^^^ (z >>> 27)) * 0x94D049BB133111EB#64
  let z := z ^^^ (z >>> 31)
  z.toNat / 2 ^ 48

/-! ### Functions of R122: edge results exact, the rest a fixed function -/

/-- The lane function of an opcode's function, by its edge results and the
module's own function elsewhere. The functions are numbered as the vector
opcodes 0x52 to 0x5B. -/
def fnEdge (op : Nat) (v : FV) : Option (BitVec 32) :=
  let pinf : BitVec 32 := 0x7F800000#32
  let ninf : BitVec 32 := 0xFF800000#32
  let nan : BitVec 32 := 0x7FC00000#32
  let nz : BitVec 32 := 0x80000000#32
  match v with
  | .nan => some nan
  | _ =>
    if op = 0x52 then
      if fvLt (fvOfInt 8872 0) (fvMul v (fvOfInt 100 0)).1 then some pinf
      else if fvLt (fvMul v (fvOfInt 100 0)).1 (fvOfInt (-10398) 0) then some 0
      else none
    else if op = 0x53 then
      if !fvLt v (fvOfInt 128 0) then some pinf
      else if fvLt v (fvOfInt (-150) 0) then some 0
      else none
    else if op = 0x54 then
      if fvIsZero v then some ninf else if fvIsNeg v then some nan else none
    else if op = 0x55 then
      if fvIsZero v then some (if fvIsNeg v then ninf else pinf) else none
    else if op = 0x56 then
      if fvIsZero v then some (if fvIsNeg v then ninf else pinf)
      else if fvIsNeg v then some nan else none
    else if op = 0x57 then
      match v with
      | .inf neg => some (if neg then 0xBF800000#32 else fpOne)
      | _ => none
    else if op = 0x58 then
      match v with
      | .inf neg => some (if neg then 0 else fpOne)
      | _ => none
    else
      match v with
      | .inf neg => some (if neg then nz else pinf)
      | _ => none

end Sys2Proof.Machine
end

