-- ==== Sys2Proof/Machine/Operands.lean ====
section
/-! DEFINITION. Element types, scales and the operand forms built on them:
what an element code stands for, which types and scale modes an engine takes,
how a block of results is converted with its scale, and the block terms of the
matrix arithmetic (chapter 03). The same functions serve the tiles and the
near-bank units (03 R124). -/

namespace Sys2Proof.Machine

/-! ### Types (03 R88) -/

/-- Width in bits of a type code; 0 for a reserved code. -/
def typeBits (ty : Nat) : Nat :=
  match ty with
  | 0x0 => 32 | 0x1 => 16 | 0x2 => 16 | 0x3 => 8 | 0x4 => 8 | 0x5 => 6 | 0x6 => 6
  | 0x7 => 4 | 0x8 => 8 | 0x9 => 4 | 0xA => 3 | 0xB => 32 | _ => 0

/-- A defined type code. -/
def typeDefined (ty : Nat) : Bool := decide (ty ≤ 0xB)

/-- Types the matrix engine takes as an operand. -/
def typeMatrix (ty : Nat) : Bool := decide (1 ≤ ty) && decide (ty ≤ 0xA)

/-- Types a GEMV of the near-bank units takes as an operand. -/
def typeNbu (ty : Nat) : Bool :=
  ty == 0x3 || ty == 0x4 || ty == 0x7 || ty == 0x8 || ty == 0xA

/-- FP8, with FP6 widened to it (03 R93). -/
def typeFp8 (ty : Nat) : Bool := decide (3 ≤ ty) && decide (ty ≤ 6)

/-- Types that need the FP4 and T3 licence (03 R129). -/
def typeLicensed (ty : Nat) : Bool := ty == 0x7 || ty == 0xA

/-- Scale modes a type accepts (03 R99, R100). -/
def modeAccepted (ty mode : Nat) : Bool :=
  match ty with
  | 0x3 | 0x4 | 0x5 | 0x6 => decide (mode ≤ 2)
  | 0x7 => mode == 1 || mode == 2
  | 0x8 => decide (mode ≤ 1)
  | 0xA => mode == 2
  | _ => mode == 0

/-- The floating-point format of a type code, if it is one. -/
def typeFmt (ty : Nat) : Option Fmt :=
  match ty with
  | 0x0 => some fmtFp32 | 0x1 => some fmtBf16 | 0x2 => some fmtFp16 | 0x3 => some fmtE4m3
  | 0x4 => some fmtE5m2 | 0x5 => some fmtE3m2 | 0x6 => some fmtE2m3 | 0x7 => some fmtE2m1
  | _ => none

/-- A T3 code's level; the reserved code has none (03 R95). -/
def t3Level (c : Nat) : Option Int :=
  match c % 8 with
  | 0 => some 0 | 1 => some 1 | 2 => some 2 | 3 => some 3
  | 5 => some (-3) | 6 => some (-2) | 7 => some (-1) | _ => none

/-- The code of a T3 level. -/
def t3Code (i : Int) : Nat := ofInt 3 i

/-- Value of an element code before scaling, and the flags reading it sets.
In a scaled INT8 tensor the code stands for the integer × 2^−6 (03 R102). -/
def elemValue (ty mode c : Nat) : FV × ArithFlags :=
  match typeFmt ty with
  | some f =>
    let v := fmtDecode f c
    (v, flagIf (fvIsNan v) flagNanIn)
  | none =>
    if ty = 0x8 then (fvOfInt (sext 8 c) (if mode = 0 then 0 else -6), 0)
    else if ty = 0x9 then (fvOfInt (sext 4 c) 0, 0)
    else if ty = 0xA then
      match t3Level c with
      | some i => (fvOfInt i 0, 0)
      | none => (.nan, flagT3Rsv ||| flagNanIn)
    else (fvOfInt (sext 32 c) 0, 0)

/-- An E8M0 scale: `none` is NaN (03 R101). -/
def e8m0 (b : Nat) : Option Int := if b = 0xFF then none else some ((b : Int) - 127)

/-- Value of an element of a scaled tensor (03 R102): element × 2^(E−127) × S2,
an S2 of zero making it ±0, an S2 that is NaN or infinite making it NaN. -/
def scaledValue (ty mode c e s2 : Nat) : FV × ArithFlags :=
  let (v, fl) := elemValue ty mode c
  if mode = 0 then (v, fl)
  else
    match e8m0 e with
    | none => (.nan, fl ||| flagNanIn)
    | some k =>
      if mode = 1 then (fvScale k v, fl)
      else
        match fmtDecode fmtFp16 s2 with
        | .nan => (.nan, fl ||| flagNanIn)
        | .inf _ => (.nan, fl)
        | .fin n m x =>
          if m = 0 then (.fin (fvIsNeg v != n) 0 0, fl) else ((fvMul (fvScale k v) (.fin n m x)).1, fl)

/-- Conversion of an element to FP32 for a vector load (03 R89); a scaled
element is rounded once, and one beyond the range becomes an infinity with OVF
(DEDUCED, log 31). -/
def loadFp32 (ty mode c e s2 : Nat) : BitVec 32 × ArithFlags :=
  let (v, fl) := scaledValue ty mode c e s2
  let (w, fl') := toFp32 v
  (w, fl ||| fl')

/-! ### Conversion to a stored type (03 R104 to R108) -/

/-- Conversion of one value to an unscaled type: its code and flags. -/
def convElem (ty : Nat) (sat : Bool) (md : RMode) (v : FV) : Nat × ArithFlags :=
  match typeFmt ty with
  | some f => convFloat f sat md v
  | none =>
    let (lo, hi, w) : Int × Int × Nat :=
      if ty = 0x8 then (-128, 127, 8) else if ty = 0x9 then (-8, 7, 4)
      else if ty = 0xA then (-3, 3, 3) else (-2147483648, 2147483647, 32)
    let (i, fl) := convInt lo hi md v
    (ofInt w i, fl)

/-- Exponent of the largest element magnitude of a scaled type (03 R108). -/
def typeEmax (ty : Nat) : Int :=
  match ty with
  | 0x3 => 8 | 0x4 => 15 | 0x5 => 4 | 0x6 => 2 | 0x7 => 2 | 0x8 => 0 | _ => 1

/-- One element of a scaled block, after the division by 2^e: saturation that
comes of the scale sets no OVF (03 R107 step 4), and MXINT8 never gives the
code −128. -/
def convScaled (ty : Nat) (sat : Bool) (md : RMode) (v : FV) : Nat × ArithFlags :=
  match typeFmt ty with
  | some f =>
    let (c, fl) := convFloat f false md v
    match v with
    | .inf _ => convFloat f sat md v
    | _ => (c, fl &&& ~~~flagOvf)
  | none =>
    if ty = 0x8 then
      let (i, fl) := convInt (-127) 127 md (fvScale 6 v)
      (ofInt 8 i, fl &&& ~~~flagOvf)
    else
      let (i, fl) := convInt (-3) 3 md v
      (t3Code i, fl &&& ~~~flagOvf)

/-- Magnitude as mantissa and exponent, of a finite non-zero value. -/
def fvMag : FV → Option (Nat × Int)
  | .fin _ m e => if m = 0 then none else some (m, e)
  | _ => none

/-- The larger of two magnitudes. -/
def magMax (a b : Nat × Int) : Nat × Int :=
  let (x, y, _) := alignMants a.1 a.2 b.1 b.2
  if x < y then b else a

/-- Division by S2 rounded to FP32 to nearest even (03 R107 step 3). -/
def divS2 (v s2 : FV) : FV × ArithFlags :=
  let (w, fl) := toFp32 (fvDiv v s2)
  (ofFp32 w, fl &&& flagUnf)

/-- Conversion of one 32-element block with its E8M0 scale (03 R107): the
element codes, the scale byte and the flags. `s2` is the block's S2 in mode 2.
The rounding mode is given per element. -/
def convBlock (ty mode : Nat) (sat : Bool) (s2 : Nat) (vs : List (FV × RMode)) :
    List Nat × Nat × ArithFlags :=
  let s2v := fmtDecode fmtFp16 s2
  let badS2 : Bool := mode == 2 &&
    (match s2v with
     | .fin _ m _ => m == 0
     | _ => true)
  let special : Bool := vs.any (fun p =>
    match p.1 with
    | .nan => true
    | .inf _ => sat
    | .fin .. => false)
  if badS2 || special then (vs.map (fun _ => 0), 0xFF, flagInv)
  else
    let ds := vs.map (fun p => if mode = 2 then (divS2 p.1 s2v, p.2) else ((p.1, (0 : ArithFlags)), p.2))
    let mags := ds.filterMap (fun d => fvMag d.1.1)
    let e : Int :=
      match mags with
      | [] => 0
      | m :: r =>
        let mx := r.foldl magMax m
        max (-127) (min 127 (log2Of mx.1 mx.2 - typeEmax ty))
    let out := ds.map (fun d =>
      let (c, fl) := convScaled ty sat d.2 (fvScale (-e) d.1.1)
      (c, fl ||| d.1.2))
    (out.map Prod.fst, (e + 127).toNat, out.foldl (fun f o => f ||| o.2) 0)

/-! ### Matrix arithmetic (03 R114 to R119) -/

/-- How the products of an operand pair are accumulated. -/
inductive PairKind where
  /-- one fused multiply-add per k (BF16, FP16) -/
  | fma
  /-- one exact block term per group of 32 (FP8, FP4, T3, MXINT8) -/
  | block
  /-- exact INT32 accumulation with saturation -/
  | int
  deriving DecidableEq, Repr

/-- The operand pairs of R114, in either order. -/
def pairKind (ta tb ma mb : Nat) : Option PairKind :=
  let ok (x y : Nat) : Option PairKind :=
    if (x = 1 ∧ y = 1) ∨ (x = 2 ∧ y = 2) then some .fma
    else if typeFp8 x && (typeFp8 y || y == 0x7) then some .block
    else if x = 0x7 ∧ y = 0x7 then some .block
    else if x = 0xA ∧ (typeFp8 y ∨ y = 0x7 ∨ y = 0xA) then some .block
    else if x = 0x8 ∧ y = 0x8 then
      if ma = 0 ∧ mb = 0 then some .int
      else if ma = 1 ∧ mb = 1 then some .block else none
    else if x = 0x8 ∧ y = 0x9 then if ma = 0 ∧ mb = 0 then some .int else none
    else if x = 0x9 ∧ y = 0x9 then some .int
    else none
  match ok ta tb with
  | some k => some k
  | none => ok tb ta

/-- The scale factors of one operand's block: E8M0 exponent byte and S2 bits. -/
structure BlockScale where
  mode : Nat
  e : Nat
  s2 : Nat
  deriving DecidableEq, Repr

/-- What an operand's scales do to a block term: `none` makes it NaN. -/
def scaleFactor (b : BlockScale) : Option FV × ArithFlags :=
  if b.mode = 0 then (some (.fin false 1 0), 0)
  else
    match e8m0 b.e with
    | none => (none, flagNanIn)
    | some k =>
      if b.mode = 1 then (some (.fin false 1 k), 0)
      else
        match fmtDecode fmtFp16 b.s2 with
        | .fin n m x => (some (.fin n m (x + k)), 0)
        | _ => (none, flagNanIn)

/-- The exact sum of the products of one group, with the flags of R119: NaN
operands, infinity × 0 and products of opposite infinities. -/
def groupSum (ps : List ((FV × ArithFlags) × (FV × ArithFlags))) : FV × ArithFlags :=
  let fl := ps.foldl (fun f p => f ||| p.1.2 ||| p.2.2) 0
  let prods := ps.map (fun p => fvMul p.1.1 p.2.1)
  let inv := prods.any (fun p => p.2)
  let fins := (prods.filter (fun p => !fvIsNan p.1)).map Prod.fst
  let (s, opp) :=
    match fins with
    | [] => (FV.fin false 0 0, false)
    | x :: r => r.foldl (fun (acc : FV × Bool) y => let (t, o) := fvAdd acc.1 y; (t, acc.2 || o)) (x, false)
  let nan := prods.any (fun p => fvIsNan p.1)
  (if nan || opp then .nan else s, fl ||| flagIf (inv || opp) flagInv)

/-- The block term t_j of R116, with IEEE 754 within the term (R119): a zero
S2 makes a finite sum zero, and with an infinite sum it is infinity × 0
(DEDUCED, log 31). -/
def blockTerm (ps : List ((FV × ArithFlags) × (FV × ArithFlags))) (sa sb : BlockScale) :
    FV × ArithFlags :=
  let (s, fl) := groupSum ps
  let (fa, ga) := scaleFactor sa
  let (fb, gb) := scaleFactor sb
  let fl := fl ||| ga ||| gb
  match fa, fb with
  | some x, some y =>
    let (p, i₁) := fvMul s x
    let (t, i₂) := fvMul p y
    (t, fl ||| flagIf (i₁ || i₂) flagInv)
  | _, _ => (.nan, fl)

/-- Adding one group to an accumulator element (03 R116 to R118). -/
def accumulate (k : PairKind) (acc : BitVec 32)
    (ps : List ((FV × ArithFlags) × (FV × ArithFlags))) (sa sb : BlockScale) :
    BitVec 32 × ArithFlags :=
  match k with
  | .block =>
    let (t, fl) := blockTerm ps sa sb
    let (v, opp) := fvAdd (ofFp32 acc) t
    let (w, fl') := toFp32 v
    (w, fl ||| fl' ||| flagIf opp flagInv)
  | .fma =>
    ps.foldl (fun (st : BitVec 32 × ArithFlags) p =>
      let (q, i₁) := fvMul p.1.1 p.2.1
      let (v, i₂) := fvAdd (ofFp32 st.1) q
      let (w, fl) := toFp32 v
      (w, st.2 ||| fl ||| p.1.2 ||| p.2.2 ||| flagIf (i₁ || i₂) flagInv)) (acc, 0)
  | .int =>
    let term (v : FV) : Int :=
      match v with
      | .fin n m e => signedMant n (m * 2 ^ e.toNat)
      | _ => 0
    let s := ps.foldl (fun (t : Int) p => t + term p.1.1 * term p.2.1) acc.toInt
    if 2147483647 < s then (0x7FFFFFFF#32, flagOvf)
    else if s < -2147483648 then (0x80000000#32, flagOvf)
    else (BitVec.ofInt 32 s, 0)

/-! ### Reductions (03 R123) -/

/-- Pairwise tree over a list whose length is a power of two, in `n` rounds. -/
def pairTree (f : BitVec 32 → BitVec 32 → BitVec 32 × ArithFlags) :
    Nat → List (BitVec 32) → ArithFlags → BitVec 32 × ArithFlags
  | 0, l, fl => (l.headD 0, fl)
  | n + 1, l, fl =>
    let rec go : List (BitVec 32) → List (BitVec 32) × ArithFlags
      | a :: b :: r =>
        let (x, f₁) := f a b
        let (t, f₂) := go r
        (x :: t, f₁ ||| f₂)
      | [a] => ([a], 0)
      | [] => ([], 0)
    let (l', g) := go l
    pairTree f n l' (fl ||| g)

/-- Sum of one chunk of up to 64 elements: missing ones count as +0. -/
def chunkSum (l : List (BitVec 32)) : BitVec 32 × ArithFlags :=
  pairTree fpAdd 6 (l ++ List.replicate (64 - l.length) 0) 0

/-- Sum of squares of one chunk, each square rounded first. -/
def chunkSumSq (l : List (BitVec 32)) : BitVec 32 × ArithFlags :=
  let sq := l.map (fun x => fpMul x x)
  let (w, fl) := chunkSum (sq.map Prod.fst)
  (w, sq.foldl (fun f p => f ||| p.2) fl)

/-- Maximum of the elements of one chunk. -/
def chunkMax : List (BitVec 32) → BitVec 32
  | [] => 0xFF800000#32
  | x :: r => r.foldl fpMax x

/-- Minimum of the elements of one chunk. -/
def chunkMin : List (BitVec 32) → BitVec 32
  | [] => 0x7F800000#32
  | x :: r => r.foldl fpMin x

/-! ### Functions (03 R122) -/

/-- A function of R122 by its vector opcode. -/
def fnApply (op : Nat) (x : BitVec 32) : BitVec 32 :=
  match fnEdge op (ofFp32 x) with
  | some w => w
  | none =>
    match op with
    | 0x52 => Config.fnExp x
    | 0x53 => Config.fnExp2 x
    | 0x54 => Config.fnLog x
    | 0x55 => Config.fnRcp x
    | 0x56 => Config.fnRsqrt x
    | 0x57 => Config.fnTanh x
    | 0x58 => Config.fnSigmoid x
    | 0x59 => Config.fnSilu x
    | 0x5A => Config.fnGeluTanh x
    | _ => Config.fnGeluErf x

/-! ### Packed elements (03 R97) -/

/-- Element `i` of a packed stream of `w`-bit elements. -/
def packedElem (data w i : Nat) : Nat := bits data (w * i) w

/-- A packed stream of `w`-bit codes, element 0 lowest. -/
def packElems (w : Nat) : List Nat → Nat
  | [] => 0
  | c :: r => c % 2 ^ w + 2 ^ w * packElems w r

/-! ### Sums of integrity -/

/-- CRC over bytes, bit-reflected, of the polynomial given reflected. -/
def crcReflected (w poly : Nat) (init : Nat) (bs : List Byte) : Nat :=
  let stepBit (c : Nat) : Nat := if c % 2 = 1 then c / 2 ^^^ poly else c / 2
  bs.foldl (fun c b =>
    (List.range 8).foldl (fun c' _ => stepBit c') (c ^^^ b.toNat)) (init % 2 ^ w)

/-- CRC-32C (Castagnoli) of a list of bytes (05 R202). -/
def crc32c (bs : List Byte) : Nat :=
  crcReflected 32 0x82F63B78 0xFFFFFFFF bs ^^^ 0xFFFFFFFF

end Sys2Proof.Machine
end

