-- ==== Sys2Proof/Machine/State.lean ====
section
/-! DEFINITION. The machine state, as plain data: every register, FIFO,
buffer, counter, mode and pin the spec gives the module, the queue of waiting
commands, and the state after reset. -/

namespace Sys2Proof.Machine

/-! ### Quays and pace (chapters 01 and 02) -/

/-- QUAY_SPARE_MAPn with its write-once lock (01 R34). -/
structure SpareMap where
  inUse : Bool
  replaced : BitVec 7
  locked : Bool
  deriving DecidableEq, Repr

/-- A spare map register after reset. -/
def SpareMap.reset : SpareMap := { inUse := false, replaced := 0x7F#7, locked := false }

/-- Pace monitor and supply of one quay (02 R66 to R74). -/
structure Pace where
  valid : Bool
  refRing : Bool
  cur : BitVec 16
  max : BitVec 16
  min : BitVec 16
  pred : BitVec 16
  vmeas : BitVec 10
  tj : BitVec 16
  park : Bool
  step : BitVec 7
  issueN : BitVec 7
  lowPace : Bool
  slewing : Bool
  vsetClamped : Bool
  paceStep : Bool
  /-- consecutive windows more than 4 % below the prediction -/
  lowWindows : Nat
  /-- final target of a lowering that is written in stages (R72) -/
  stageTarget : Option Nat
  /-- when the last stage was written -/
  stageAt : Nat
  /-- the quay has been unparked and is not yet ready for dispatch -/
  unparking : Bool
  /-- windows of the last millisecond: their ends and paces (R84) -/
  recent : List (Nat × Nat)
  /-- pace has fallen more than 12 % under an exception of R84 -/
  fell : Bool
  deriving DecidableEq, Repr

/-- Pace registers after reset. -/
def Pace.reset : Pace :=
  { valid := false, refRing := false, cur := 0, max := 0, min := 0xFFFF#16, pred := 0,
    vmeas := 0, tj := 0, park := false, step := 0x32#7, issueN := 0x40#7, lowPace := false,
    slewing := false, vsetClamped := false, paceStep := false, lowWindows := 0,
    stageTarget := none, stageAt := 0, unparking := false, recent := [], fell := false }

/-- What limits a quay's supply and issue rate apart from its own registers
(20 R624): requested values, and the steps and issue rates of the power limit
and of the thermal throttle. -/
structure QuayLimits where
  reqStep : Nat
  reqIssue : Nat
  pwrStep : Nat
  pwrIssue : Nat
  thmStep : Nat
  thmIssue : Nat
  deriving DecidableEq, Repr

/-- Nothing limits the quay: the reset values of STEP and ISSUE_N. -/
def QuayLimits.reset : QuayLimits :=
  { reqStep := 50, reqIssue := 64, pwrStep := 70, pwrIssue := 64, thmStep := 70,
    thmIssue := 64 }

/-- One quay (01 R32 to R36). -/
structure Quay where
  inService : Bool
  /-- taken out of service by R31: LOG_TILES reads 0 -/
  outOfService : Bool
  parked : Bool
  sparesUsed : BitVec 3
  /-- failed physical tiles, bit p for Pp (R35) -/
  failed : BitVec 68
  spares : Table SpareMap
  pace : Pace
  limits : QuayLimits
  /-- QUAY_CC_STATUS -/
  ccState : BitVec 4
  heartbeat : BitVec 8
  /-- QUAY_CE_BUCKET, QUAY_CE_CFG and QUAY_UE_CNT (11 R371) -/
  ceLevel : BitVec 16
  ceOvf : BitVec 16
  ceCap : BitVec 16
  ceLeakMs : BitVec 16
  ue : BitVec 16
  poisonRd : BitVec 16
  deriving DecidableEq, Repr

/-- A quay after reset. -/
def Quay.reset : Quay :=
  { inService := false, outOfService := false, parked := false, sparesUsed := 0,
    failed := 0, spares := [], pace := Pace.reset, limits := QuayLimits.reset, ccState := 0,
    heartbeat := 0, ceLevel := 0, ceOvf := 0, ceCap := 0x40#16, ceLeakMs := 0x64#16,
    ue := 0, poisonRd := 0 }

/-! ### Tiles (chapters 04 and 05) -/

/-- TILE_STATUS.STATE (04 R164). -/
inductive TileMode where
  | idle | running | stopping | stopped | aborting
  deriving DecidableEq, Repr

/-- A tile event counter (04 R165). -/
structure Tec where
  count : BitVec 16
  sat : Bool
  deriving DecidableEq, Repr

/-- What a stream waits for. -/
inductive WaitCause where
  | none
  /-- a push to data queue n -/
  | push (n : Nat)
  /-- a pop from data queue n -/
  | pop (n : Nat)
  | tec
  | sync
  | dma
  /-- an MMA waits for an operand -/
  | operand
  /-- an accumulator operation waits for a block or a bank -/
  | acc
  /-- held at a PREEMPT of this ID -/
  | hold (id : Nat)
  deriving DecidableEq, Repr

/-- An open loop level of a stream (05 R193). -/
structure OpenLoop where
  lvl : Nat
  iter : Nat
  cnt : Nat
  /-- index of the operation after the LOOP -/
  body : Nat
  deriving DecidableEq, Repr

/-- One stream of a tile. -/
structure StreamSt where
  /-- index of the next operation -/
  pc : Nat
  ended : Bool
  wait : WaitCause
  /-- open levels, innermost first -/
  loops : List OpenLoop
  /-- entries an OPFILL in progress has popped -/
  popped : List (BitVec 512)
  /-- the operation waits on a sync object and has been sent -/
  sent : Bool
  deriving DecidableEq, Repr

/-- A stream at the start of a descriptor. -/
def StreamSt.reset : StreamSt :=
  { pc := 0, ended := false, wait := .none, loops := [], popped := [], sent := false }

/-- A data queue as a byte stream in 64-byte entries (04 R150, 05 R184). -/
structure DataQueue where
  /-- visible entries, oldest first -/
  entries : List (BitVec 512)
  /-- bytes already taken from the front entry -/
  taken : Nat
  /-- bytes appended to the entry not yet visible -/
  tail : List Byte
  /-- bytes of a block from the transpose tile or an accumulator bank that the
  full queue has not yet taken -/
  backlog : List Byte
  deriving DecidableEq, Repr

/-- An empty queue. -/
def DataQueue.reset : DataQueue := { entries := [], taken := 0, tail := [], backlog := [] }

/-- A filled operand register: its type and 32 rows of 32 elements. -/
structure OperandSlice where
  ty : Nat
  data : BitVec 16384
  deriving DecidableEq, Repr

/-- One operand of the matrix engine (04 R135, 05 R187). -/
structure OperandSide where
  /-- filled and unused registers, older first -/
  slices : List OperandSlice
  /-- E8M0 buffer: 32 rows of 64 bytes, and the groups it has served -/
  scales : Option (BitVec 16384)
  scaleUsed : Nat
  /-- S2 buffer: 32 FP16 values, and the groups it has served -/
  s2 : Option (BitVec 512)
  s2Used : Nat
  deriving DecidableEq, Repr

/-- An operand with nothing filled. -/
def OperandSide.reset : OperandSide :=
  { slices := [], scales := .none, scaleUsed := 0, s2 := .none, s2Used := 0 }

/-- An accumulator bank in use: 1,024 values of 32 bits, row-major. -/
structure AccBank where
  bank : Nat
  int : Bool
  data : BitVec 32768
  deriving DecidableEq, Repr

/-- Matrix engine state (04 R136, R137, 05 R188). -/
structure MatrixSt where
  a : OperandSide
  b : OperandSide
  /-- the block in progress -/
  block : Option AccBank
  /-- completed banks, oldest first -/
  held : List AccBank
  /-- banks still draining, with the queue they drain into -/
  draining : List (Nat × Nat)
  /-- bank of the next block to begin -/
  nextBank : Nat
  /-- accumulator input filled for the next block -/
  input : Option AccBank
  deriving DecidableEq, Repr

/-- The matrix engine at the start of a descriptor. -/
def MatrixSt.reset : MatrixSt :=
  { a := OperandSide.reset, b := OperandSide.reset, block := .none, held := [],
    draining := [], nextBank := 0, input := .none }

/-- A tile DMA transfer under way (05 R182, R196 to R198). -/
structure TileDma where
  id : Nat
  /-- false: external to scratchpad; true: the reverse -/
  out : Bool
  spad : Nat
  ext : BitVec 64
  /-- the external address is a fabric address -/
  fabric : Bool
  len : Nat
  tec : Nat
  opIndex : Nat
  /-- AG_S gave the null index, AG_X gave the null index -/
  nullS : Bool
  nullX : Bool
  /-- remote requests not yet answered, and the status of a failed one -/
  outstanding : Nat
  err : Option Status
  deriving DecidableEq, Repr

/-- A line of the descriptor cache (05 R178, R179). -/
structure CacheLine where
  addr : Nat
  tenant : Nat
  data : Block256
  lockAct : Bool
  lockPend : Bool
  /-- invalidate at release: DC_INV met it locked -/
  inval : Bool
  deriving DecidableEq, Repr

/-- The resident set of a descriptor (05 R176): the address-generator entries
(64 bytes each) and the operation words of both programs. -/
structure Resident where
  ag : List (BitVec 512)
  asp : List (BitVec 64)
  xsp : List (BitVec 64)
  deriving DecidableEq, Repr

/-- What the prefetch of the pending set's resident set gave (05 R176). -/
inductive Prefetch where
  | none
  | ready (r : Resident)
  | failed (status : Status) (source opIndex : Nat)
  deriving DecidableEq, Repr

/-- Scalar core (04 R140 to R143). -/
structure ScalarCore where
  /-- 0 idle, 1 running, 2 ended by SC_END, 3 stopped on trap -/
  state : BitVec 2
  cause : BitVec 4
  /-- TILE_SC_PC: the trapping instruction -/
  trapPc : Word
  /-- x1 to x31; x0 reads zero -/
  regs : Table Word
  pc : Word
  win : BitVec 17
  cycle : BitVec 64
  instret : BitVec 64
  deriving DecidableEq, Repr

/-- Where a tile's running work belongs in its graph, and the chain of
descriptors its node runs on it (07 R243, R245, 22 R663). -/
structure TileJob where
  seq : Nat
  node : Nat
  stage : Nat
  /-- descriptor that runs, the one to load next, and how many there are -/
  desc : Nat
  next : Nat
  count : Nat
  /-- descriptors completed with a class-0 status, and their flags -/
  done : Nat
  flags : BitVec 8
  /-- address of the tile's descriptor 0 -/
  base : Nat
  /-- generator-table copies by descriptor -/
  agt : List Nat
  /-- LIVE0 to LIVE3 of the stage, as stored (07 R242) -/
  live : Nat
  deriving DecidableEq, Repr

/-- A SIGNAL of a tile stream queued for the sync unit (13 R417). -/
structure QueuedSignal where
  so : Nat
  inc : Nat
  /-- queued by the execute stream -/
  exec : Bool
  /-- transfers whose writes it covers and which are not yet complete -/
  covers : List Nat
  deriving DecidableEq, Repr

/-- One logical tile. -/
structure Tile where
  mode : TileMode
  pendValid : Bool
  startLost : Bool
  cfgWrLost : Bool
  /-- TILE_DONE and TILE_DONE_CNT -/
  doneStatus : Status
  doneFlags : BitVec 8
  doneSeq : BitVec 8
  doneCnt : BitVec 32
  /-- TILE_OWNER -/
  owner : Option Nat
  /-- tenant of the last holder, none since its memories were poisoned or zeroed
  (07 R252) -/
  lastHolder : Option Nat
  /-- TILE_ERR_INFO -/
  errSource : BitVec 4
  errOp : BitVec 24
  loopCnt : Table Word
  tecs : Table Tec
  cfgPend : Block256
  cfgAct : Block256
  /-- a descriptor is active -/
  active : Bool
  /-- TILE_DESC_ADDR -/
  descAddr : BitVec 48
  fetchBusy : Bool
  fetchStart : Bool
  /-- a START waits for the resident set -/
  startHeld : Bool
  /-- the held START is a RESUME from a pre-emption record -/
  fromRecord : Bool
  /-- STOPPED was entered from IDLE (05 R203) -/
  fromIdle : Bool
  prefetch : Prefetch
  res : Resident
  cache : List CacheLine
  as : StreamSt
  xs : StreamSt
  dqs : Table DataQueue
  matrix : MatrixSt
  /-- V0 to V31, 64 lanes of FP32 -/
  vregs : Table (BitVec 2048)
  /-- rows (or half rows) the transpose tile has taken from LOADs -/
  ttIn : List (List Byte)
  /-- rows (or half rows) it has taken from a queue for STOREs -/
  ttRows : List (List Byte)
  /-- columns (or half columns) it still gives to STOREs -/
  ttOut : List (List Byte)
  flags : BitVec 8
  /-- elements the output paths have converted (05 R171) -/
  outCount : Nat
  dmas : List TileDma
  nextDma : Nat
  sc : ScalarCore
  /-- TILE_PRE_INFO -/
  skips : BitVec 8
  lastId : BitVec 8
  atPoint : Bool
  preRec : BitVec 1024
  sigq : List QueuedSignal
  /-- the descriptor ends with this status, source and operation index once its
  signal queue and its transfers are done -/
  ending : Option (Status × Nat × Nat)
  job : Option TileJob
  /-- status with which the unit's last descriptor ended since dispatch -/
  unitEnded : Option Status
  startTime : Nat
  /-- tile-failure evidence (17 R534): times of memory errors, time of the last
  progress, time of an unfinished ABORT -/
  errTimes : List Nat
  lastProgress : Nat
  abortAt : Option Nat
  deriving DecidableEq, Repr

/-- A tile after reset (04 R164 to R167, 05 R174, R201). -/
def Tile.reset : Tile :=
  { mode := .idle, pendValid := false, startLost := false, cfgWrLost := false,
    doneStatus := 0, doneFlags := 0, doneSeq := 0, doneCnt := 0, owner := .none,
    lastHolder := .none, errSource := 0, errOp := 0, loopCnt := [], tecs := [], cfgPend := 0, cfgAct := 0,
    active := false, descAddr := 0, fetchBusy := false, fetchStart := false,
    startHeld := false, fromRecord := false, fromIdle := false, prefetch := .none,
    res := { ag := [], asp := [], xsp := [] }, cache := [], as := StreamSt.reset,
    xs := StreamSt.reset, dqs := [], matrix := MatrixSt.reset, vregs := [], ttIn := [],
    ttRows := [], ttOut := [], flags := 0, outCount := 0, dmas := [], nextDma := 0,
    sc := { state := 0, cause := 0, trapPc := 0, regs := [], pc := 0, win := 0,
            cycle := 0, instret := 0 },
    skips := 0, lastId := 0, atPoint := false, preRec := 0, sigq := [], ending := .none,
    job := .none, unitEnded := .none,
    startTime := 0, errTimes := [], lastProgress := 0, abortAt := .none }

/-! ### Sync unit and barrier groups (chapter 13) -/

/-- A waiting operation: WAIT or WAIT_DEC with its threshold (13 R412). -/
structure Waiter where
  unit : SyncUnit
  dec : Bool
  t : Nat
  deriving DecidableEq, Repr

/-- A sync object (13 R408, R429). -/
structure SyncObj where
  count : BitVec 32
  thresh : BitVec 16
  tenant : BitVec 10
  valid : Bool
  irqEn : Bool
  ovf : Bool
  unf : Bool
  /-- waiters in arrival order -/
  waiters : List Waiter
  deriving DecidableEq, Repr

/-- A sync object after reset. -/
def SyncObj.reset : SyncObj :=
  { count := 0, thresh := 0, tenant := 0, valid := false, irqEn := false, ovf := false,
    unf := false, waiters := [] }

/-- A barrier group (13 R422 to R428). -/
structure Barrier where
  tenant : BitVec 10
  sigEn : Bool
  valid : Bool
  so : BitVec 17
  qmask : BitVec 64
  tmask : BitVec 64
  phase : Bool
  /-- members whose arrive wire is raised -/
  arrived : List Nat
  /-- tile ↦ PHASE recorded at its last arrival -/
  recorded : Table Bool
  /-- streams waiting for the release: tile and stream -/
  waiting : List (Nat × Bool)
  /-- second arrivals held until the next release, with the stream to hold
  (BAR) or to let go on (BAR_ARRIVE) afterwards -/
  second : List (Nat × Bool × Bool)
  releases : BitVec 32
  deriving DecidableEq, Repr

/-- A barrier group after reset. -/
def Barrier.reset : Barrier :=
  { tenant := 0, sigEn := false, valid := false, so := 0, qmask := 0, tmask := 0,
    phase := false, arrived := [], recorded := [], waiting := [], second := [],
    releases := 0 }

/-- A waiting operation that found the waiter table full (13 R414). -/
structure Retried where
  so : Nat
  waiter : Waiter
  tenant : Nat
  deriving DecidableEq, Repr

/-- The sync unit (13 R427). -/
structure SyncState where
  objs : Table SyncObj
  bars : Table Barrier
  retried : List Retried
  /-- SYNC nodes and stack descriptors whose wait has ended, with the status,
  until the unit goes on -/
  woken : List (SyncUnit × Status)
  evtOvf : BitVec 16
  evtUnf : BitVec 16
  isoCnt : BitVec 32
  ops : BitVec 32
  deriving DecidableEq, Repr

/-! ### Module DMA engines and arrival counters (chapter 12) -/

/-- Registers of one module DMA engine (12 R404). -/
structure DmaEngine where
  done : BitVec 32
  err : Status
  bytes : BitVec 64
  deriving DecidableEq, Repr

/-- How far a running DMA descriptor has come. -/
inductive DmaStage where
  /-- started: its accesses are still to be made -/
  | started
  /-- its source is being read from other modules -/
  | reading
  /-- its data are written; remote answers may be outstanding -/
  | writing
  /-- its CRC or its old value is being written -/
  | trailing
  /-- every write has completed: the read-back is due -/
  | written
  /-- read-back issued to another module -/
  | backing
  /-- it has ended; its record waits for a completion-queue slot -/
  | cqWait
  /-- it has ended with an error: the list is to be failed -/
  | failed
  deriving DecidableEq, Repr

/-- A running DMA descriptor. -/
structure DmaRun where
  index : Nat
  engine : Nat
  desc : BitVec 512
  stage : DmaStage
  result : BitVec 64
  crc : BitVec 64
  flags : BitVec 8
  status : Status
  /-- remote requests not yet answered -/
  outstanding : Nat
  /-- pieces of the present stage whose access has been issued -/
  sent : Nat
  /-- source bytes gathered, by offset -/
  source : Table (List Byte)
  /-- owner-table bytes read so far: side (true: destination), offset, bytes -/
  tbl : List (Bool × Nat × List Byte)
  /-- pieces of the destination known to have taken effect: offset ↦ length -/
  acked : Table Nat
  /-- bytes of the read-back that came from another module -/
  back : List Byte
  /-- when the present stage began -/
  since : Nat
  deriving DecidableEq, Repr

/-- A DMA list held by an engine (12 R375). -/
structure DmaCtx where
  engine : Nat
  seq : Nat
  node : Nat
  tenant : Nat
  hdr : BitVec 512
  /-- index of the next descriptor to start -/
  next : Nat
  running : List DmaRun
  completed : Nat
  flags : BitVec 8
  deriving DecidableEq, Repr

/-- An arrival counter (12 R406). -/
structure ArrivalCounter where
  tenant : BitVec 10
  sigEn : Bool
  sat : Bool
  valid : Bool
  so : BitVec 17
  base : BitVec 48
  /-- range size in 64-byte units: 33 bits, since 256 GiB is 2^32 units; DMA_ACn_SIZE shows
  the low 32 -/
  size64 : BitVec 33
  target : BitVec 32
  count : BitVec 40
  deriving DecidableEq, Repr

/-- An arrival counter after reset. -/
def ArrivalCounter.reset : ArrivalCounter :=
  { tenant := 0, sigEn := false, sat := false, valid := false, so := 0, base := 0,
    size64 := 0, target := 0, count := 0 }

/-- DMA state. -/
structure DmaState where
  engines : Table DmaEngine
  ctxs : Table DmaCtx
  nextCtx : Nat
  /-- lists that wait for a free context, oldest first -/
  waiting : List DmaCtx
  /-- lists that have ended, until their nodes take note: SEQ, node, status and
  flags -/
  ended : List (Nat × Nat × Status × BitVec 8)
  redaddCnt : BitVec 32
  acs : Table ArrivalCounter
  deriving DecidableEq, Repr

/-! ### Events and alarms (chapters 17 and 22) -/

/-- An event record (17 R529), its fields apart. -/
structure EventRec where
  /-- EFLAGS.SEV: 1 warning, 2 error, 3 alarm. -/
  sev : BitVec 2
  coalesced : Bool
  /-- EFLAGS.REPLAY. -/
  replay : Bool
  status : Status
  unitKind : BitVec 8
  unit : BitVec 16
  /-- TENANT with VALID; `none` is VALID = 0. -/
  tenant : Option Nat
  /-- Occurrences, saturating at 2^32 - 1. -/
  count : Nat
  /-- Time base at the first occurrence. -/
  time : Nat
  arg : BitVec 64
  deriving DecidableEq, Repr

/-- A pending entry of the event store or the alarm store (22 R671, R672). -/
structure EventEntry where
  record : EventRec
  /-- still to be written to the PF's ring -/
  toPf : Bool
  /-- the tenant whose ring it is still to be written to -/
  toTenant : Option Nat
  /-- it has been written to a ring, so nothing joins it any more -/
  written : Bool
  /-- an entry of the alarm store -/
  alarm : Bool
  /-- one of the 16 entries reserved per status class (22 R671 rule 3) -/
  reserved : Bool
  /-- for an alarm, the value of TRC_ALARM_CNT after it was mirrored -/
  mirrorNo : Nat
  deriving DecidableEq, Repr

/-- Event and alarm stores (22 R671, R672, R679). -/
structure EventStores where
  /-- pending entries of both stores in the order of their first occurrences -/
  entries : List EventEntry
  /-- alarms waiting on the alarm lane for a free entry (22 R672 rule 4) -/
  lane : List EventEntry
  /-- TRC_ALARMn: the mirrored alarm records, AUX domain, by slot -/
  mirror : Table EventRec
  /-- TRC_ALARM_CNT -/
  alarmCnt : BitVec 32
  deriving DecidableEq, Repr

/-! ### Trace units and counters (chapter 22) -/

/-- One trace unit: quay units 0 to 63 and the central unit 64 (22 R661). -/
structure TraceUnit where
  en : Bool
  /-- MODE[2:0] of R665 -/
  mode : BitVec 3
  /-- records held, oldest first; a record is 32 bytes (22 R662) -/
  buffer : List (BitVec 256)
  /-- how many of the held records are ordinary ones -/
  ordinary : Nat
  discarding : Bool
  /-- records discarded since the unit's previous DROP, and the time of the
  first of them -/
  dropCount : Nat
  dropTime : Nat
  parkedMark : Bool
  /-- TRC_WPTR -/
  wptr : BitVec 64
  /-- TRC_LOST -/
  lost : BitVec 64
  partBase : BitVec 48
  partRecs : BitVec 32
  /-- parks of the quay since reset, and when the running one began -/
  parks : BitVec 32
  parkTime : Nat
  deriving DecidableEq, Repr

/-- A trace unit after reset: every register 0 (22 R678, R679). -/
def TraceUnit.reset : TraceUnit :=
  { en := false, mode := 0, buffer := [], ordinary := 0, discarding := false,
    dropCount := 0, dropTime := 0, parkedMark := false, wptr := 0, lost := 0,
    partBase := 0, partRecs := 0, parks := 0, parkTime := 0 }

/-- Trace configuration and the TRC_ counters with their shadows. -/
structure Trace where
  units : Table TraceUnit
  /-- TRC_SINK: 0 is no sink -/
  sinkAddr : BitVec 48
  /-- TRC_SINK_SIZE in 4 KiB units -/
  sinkPages : BitVec 32
  snapTime : BitVec 64
  snapSeq : BitVec 32
  /-- The first of the free values that the last snapshot took for the shadows of counters
  whose counts the spec leaves to timing; none before a snapshot. -/
  snapFree : Option Nat
  /-- quay counters, index quay * 64 + i (22 R676) -/
  quayCnt : Table (BitVec 64)
  quayShadow : Table (BitVec 64)
  /-- module counters -/
  modCnt : Table (BitVec 64)
  modShadow : Table (BitVec 64)
  /-- tenant counters, index tenant * 2 + (0 TEN_TILE_CYC, 1 TEN_NODES) -/
  tenCnt : Table (BitVec 64)
  tenShadow : Table (BitVec 64)
  deriving DecidableEq, Repr

/-! ### Host functions and mailboxes (chapter 18) -/

/-- A ring in host memory placed by EVT_RING_SET or NOTE_RING_SET. -/
structure HostRing where
  base : BitVec 64
  sizeLog2 : Nat
  coalUs : Nat
  deriving DecidableEq, Repr

/-- One MSI-X vector of a function: messages raised, a raise held by the
coalescing time, and when that time ends (18 R570). -/
structure Vector0 where
  raised : Nat
  held : Bool
  quietUntil : Nat
  deriving DecidableEq, Repr

/-- One PCIe function and its MBX_ page (18 R569). Function f is tenant f. -/
structure Func where
  /-- MBX_STATUS.STATE: 0 idle, 1 busy, 2 response ready -/
  mbxState : BitVec 2
  overrun : Bool
  retryUs : BitVec 32
  evtHead : BitVec 32
  evtTail : BitVec 32
  noteHead : BitVec 32
  noteTail : BitVec 32
  noteLost : BitVec 32
  req : Block256
  rsp : Block256
  evtRing : Option HostRing
  noteRing : Option HostRing
  /-- open session number, 0 for none (18 R578) -/
  session : BitVec 16
  /-- WINDOW_BASE of the VF's BAR2 (18 R561) -/
  windowBase : BitVec 48
  vec0 : Vector0
  vec1 : Vector0
  vec2 : Vector0
  /-- last time a failed record write of its ring was reported (18 R571) -/
  ringErrTime : Option Nat
  /-- a function reset is running (18 R573) -/
  inReset : Bool
  deriving DecidableEq, Repr

/-- A function after reset (18 R569). -/
def Func.reset : Func :=
  { mbxState := 0, overrun := false, retryUs := 0, evtHead := 0, evtTail := 0,
    noteHead := 0, noteTail := 0, noteLost := 0, req := 0, rsp := 0,
    evtRing := none, noteRing := none, session := 0, windowBase := 0,
    vec0 := ⟨0, false, 0⟩, vec1 := ⟨0, false, 0⟩, vec2 := ⟨0, false, 0⟩,
    ringErrTime := none, inReset := false }

/-- A memory grant of a tenant (18 R564). -/
structure GrantPlace where
  base : BitVec 64
  size : BitVec 64
  deriving DecidableEq, Repr

/-- Per-tenant host-side record: quota (18 R565) and the 64 grant places. -/
structure Tenant where
  /-- the 48-byte quota record as one number -/
  quota : BitVec 384
  /-- grant places by index 0 to 63 -/
  grants : Table GrantPlace
  deriving DecidableEq, Repr

/-- An admitted request (18 R582, R584). -/
structure Admitted where
  issuer : Issuer
  msg : Block256
  /-- when it was admitted -/
  at_ : Nat
  /-- its work has begun but is not complete -/
  started : Bool
  /-- it has been answered ST_MBX_TIMEOUT: the core's answer is discarded -/
  mute : Bool
  /-- a firmware load has lost it (19 R598): it is never served -/
  lost : Bool
  deriving DecidableEq, Repr

/-- A function enrolled after BUSY (18 R583). -/
structure Enrolment where
  func : Nat
  until_ : Nat
  /-- a freed place is held for it -/
  held : Bool
  deriving DecidableEq, Repr

/-- The queue of one management core (18 R582, R583). -/
structure CoreQueue where
  queue : List Admitted
  ring : List Enrolment
  /-- the PF was the last to be given a freed place -/
  lastPf : Bool
  /-- the VF last given a freed place -/
  lastVf : Nat
  /-- service times of the last 64 commands, newest first, in ticks -/
  times : List Nat
  /-- when the last one was answered -/
  lastDone : Nat
  deriving DecidableEq, Repr

/-- An answer that waits to be written to its issuer. -/
structure Answer where
  issuer : Issuer
  msg : Block256
  deriving DecidableEq, Repr

/-- Host interface state. -/
structure HostIf where
  funcs : Table Func
  tenants : Table Tenant
  secq : CoreQueue
  pwrq : CoreQueue
  schq : CoreQueue
  answers : List Answer
  /-- the last session number given -/
  lastSession : BitVec 16
  vfEnable : Bool
  deriving DecidableEq, Repr

/-! ### Fault messages (chapter 17) -/

/-- The outstanding REPORT of the reporter (17 R540). -/
structure Report where
  suspect : Nat
  /-- harbourmasters whose ACK is awaited -/
  waiting : List Nat
  /-- an ACK with FULL arrived -/
  full : Bool
  sentAt : Nat
  deriving DecidableEq, Repr

/-- A suspect waiting in the reporter's queue of 16. -/
structure QueuedSuspect where
  suspect : Nat
  fkind : Nat
  status : Status
  firstTime : Nat
  num : Nat
  deriving DecidableEq, Repr

/-- An open incident at a harbourmaster (17 R541). -/
structure Incident where
  suspect : Nat
  firstTime : Nat
  firstReporter : Nat
  reporters : BitVec 8192
  fkinds : BitVec 4
  /-- sum of NUM, saturating at 2^32 - 1 -/
  num : Nat
  /-- the window has closed and the secondary's hold runs since then -/
  closedAt : Option Nat
  /-- the primary's SYNC has arrived before the window closed here -/
  synced : Bool
  deriving DecidableEq, Repr

/-- Harbourmaster and reporter state. -/
structure Harbourmaster where
  outstanding : Option Report
  /-- faults folded per suspect, with the kind, status and time of the first -/
  folded : Table QueuedSuspect
  queue : List QueuedSuspect
  /-- suspect ↦ time until which no further REPORT is sent -/
  quiet : Table Nat
  dropped : Nat
  droppedEvt : Option Nat
  incidents : List Incident
  /-- suspect ↦ incidents opened here so far -/
  serials : Table Nat
  fullCount : Nat
  fullEvt : Option Nat
  deriving DecidableEq, Repr

/-! ### Logbook and replay (chapter 17) -/

/-- A recorded point of R548: ordinals, running digest and the run of
decisions won by one requester that no record holds yet. -/
structure LogPoint where
  pseq : Nat
  iseq : Nat
  digest : BitVec 64
  runWinner : Option (BitVec 16)
  runStart : Nat
  runLen : Nat
  deriving DecidableEq, Repr

/-- A mark waiting for quiescence (17 R552). -/
structure MarkWait where
  /-- LOG_START (true) or LOG_MARK -/
  start : Bool
  since : Nat
  wrap : Bool
  issuer : Option Issuer
  deriving DecidableEq, Repr

/-- Logbook and replay (17 R547 to R555). The header and the records also
stand in memory, in the logbook reservation. -/
structure Logbook where
  recording : Bool
  wrap : Bool
  first : Nat
  nextRec : Nat
  lastMark : Nat
  gaps : BitVec 32
  /-- indexes of the quiescent MARK records still held, newest first -/
  marks : List Nat
  points : Table LogPoint
  mark : Option MarkWait
  /-- queue reading stopped by a mark -/
  paused : Bool
  /-- replay running from this MARK -/
  replayFrom : Option Nat
  /-- all points held: replay ended or stopped, state kept for reading -/
  held : Bool
  /-- record index that replay has reached -/
  replayPos : Nat
  deriving DecidableEq, Repr

/-- PACE_CENTRAL_CUR (02 R77). -/
structure CentralPace where
  valid : Bool
  refRing : Bool
  cur : BitVec 16
  deriving DecidableEq, Repr

/-! ### Memory tiers and stored-data integrity (chapters 10 and 11) -/

/-- A leaky bucket of correctable errors with its overflow count (11 R359). -/
structure CeBucket where
  level : BitVec 16
  ovf : BitVec 16
  deriving DecidableEq, Repr

/-- An empty bucket. -/
def CeBucket.reset : CeBucket := { level := 0, ovf := 0 }

/-- The integrity registers of a stack or of a tier-2 channel (11 R369, R370). -/
structure Integrity where
  passH : BitVec 8
  passes : BitVec 24
  cap : BitVec 16
  leakMs : BitVec 16
  ceTotal : BitVec 32
  ueData : BitVec 32
  ueAddr : BitVec 32
  uePoison : BitVec 32
  deriving DecidableEq, Repr

/-- Integrity registers after reset. -/
def Integrity.reset : Integrity :=
  { passH := 0x18#8, passes := 0, cap := 0x100#16, leakMs := 0x64#16, ceTotal := 0,
    ueData := 0, ueAddr := 0, uePoison := 0 }

/-- A tier-2 channel (10 R346, R347). -/
structure T2Chan where
  /-- 0 not trained, 1 in service, 2 retraining, 3 fenced, 4 mapped out -/
  state : BitVec 3
  attempt : BitVec 2
  hot : Bool
  selfRefresh : Bool
  errThresh : BitVec 16
  tempEn : Bool
  linkErr : BitVec 32
  /-- link errors of the last 1 ms, with their times -/
  linkErrs : List (Nat × Nat)
  cntDone : BitVec 16
  cntFailed : BitVec 16
  lastUs : BitVec 20
  lastCause : BitVec 4
  temp : BitVec 16
  /-- T2_TEMP at the last training -/
  trainedTemp : BitVec 16
  mergeRmw : BitVec 32
  rd : BitVec 64
  wr : BitVec 64
  /-- trigger that waits or runs, with the time retraining began -/
  cause : BitVec 4
  since : Nat
  deriving DecidableEq, Repr

/-- A tier-2 channel after reset. -/
def T2Chan.reset : T2Chan :=
  { state := 0, attempt := 0, hot := false, selfRefresh := false, errThresh := 0x40#16,
    tempEn := true, linkErr := 0, linkErrs := [], cntDone := 0,
    cntFailed := 0, lastUs := 0, lastCause := 0, temp := 0, trainedTemp := 0, mergeRmw := 0,
    rd := 0, wr := 0, cause := 0, since := 0 }

/-- A merge entry: an atom's bytes that narrow writes have brought, with their
mask (10 R334). -/
structure MergeEntry where
  atom : Nat
  /-- memory unit: stack * 64 + pseudo-channel, or 1024 + channel -/
  unit : Nat
  mask : BitVec 128
  data : BitVec 1024
  last : Nat
  deriving DecidableEq, Repr

/-- A memory request that waits for its pseudo-channel's calibration or its
channel's retraining, or for the poison fill (10 R341, R345, 11 R355). -/
structure HeldAccess where
  write : Bool
  addr : Nat
  len : Nat
  data : List Byte
  deriving DecidableEq, Repr

/-- An uncorrectable atom to be handled by 11 R365. -/
structure UeHandling where
  atom : Nat
  since : Nat
  /-- tag of the read of the paired module's copy that is under way -/
  tag : Option Nat
  deriving DecidableEq, Repr

/-- An uncorrectable atom of cause DATA or ADDR seen in a unit (11 R368). -/
structure UeSeen where
  unit : Nat
  atom : Nat
  addr : Bool
  time : Nat
  deriving DecidableEq, Repr

/-- Tier maps, merge buffers, scrubbers and error handling. -/
structure Tiers where
  /-- s: banks of the spread zone (10 R321) -/
  spread : Nat
  /-- tier-1 and tier-2 training is complete: their regions are mapped -/
  t1Up : Bool
  t2Up : Bool
  /-- poison fills complete -/
  t1Filled : Bool
  t2Filled : Bool
  /-- stack ↦ pseudo-channels mapped out at the last bring-up -/
  pcOut : Table (BitVec 64)
  /-- stack ↦ pseudo-channels fenced since -/
  pcFenced : Table (BitVec 64)
  chans : Table T2Chan
  /-- channels of CHLIST -/
  chIn : BitVec 16
  merge : List MergeEntry
  /-- memory unit ↦ when it lost calibration -/
  calLost : Table Nat
  held : List HeldAccess
  /-- integrity registers by stack, and by 64 + channel -/
  integ : Table Integrity
  /-- buckets by memory unit; base-die buffers of stack n at 2048 + n -/
  buckets : Table CeBucket
  /-- when a bucket last leaked -/
  leakAt : Table Nat
  /-- STK_STATUS.DRAM_HOT by stack -/
  stkHot : BitVec 12
  /-- next atom of a unit's scrubber, and its passes -/
  scrubPos : Table Nat
  scrubPasses : Table Nat
  scrubPaused : Bool
  ueRunning : List UeHandling
  ueQueue : List UeHandling
  ueSeen : List UeSeen
  /-- atoms with a queued write-back of corrected data -/
  writeBacks : Table (BitVec 1024)
  /-- firmware reservations by MEM_RESV kind: base and size (18 R587) -/
  resv : Table (Nat × Nat)
  deriving DecidableEq, Repr

/-- Tiers after reset: neither trained nor mapped. -/
def Tiers.reset : Tiers :=
  { spread := 1, t1Up := false, t2Up := false, t1Filled := false, t2Filled := false,
    pcOut := [], pcFenced := [], chans := [], chIn := 0xFFFF#16, merge := [], calLost := [],
    held := [], integ := [], buckets := [], leakAt := [], stkHot := 0, scrubPos := [], scrubPasses := [],
    scrubPaused := false, ueRunning := [], ueQueue := [], ueSeen := [], writeBacks := [],
    resv := [] }

/-! ### Fabric (chapter 16) -/

/-- A packet (16 R498), its fields apart. -/
structure Packet where
  ptype : Nat
  vc : Nat
  esc : Bool
  down : Bool
  dstH : Nat
  dstB : Nat
  srcH : Nat
  srcB : Nat
  tenant : Nat
  tag : Nat
  loc : Nat
  len : Nat
  aop : Nat
  data : List Byte
  deriving DecidableEq, Repr

/-- Whose a remote request is, and which part of its work it does. -/
inductive ReqOwner where
  /-- piece at offset `off` of a transfer of a tile -/
  | tileDma (tile id off : Nat)
  /-- piece of a DMA descriptor's source, at offset `off` -/
  | dmaSrc (ctx index off : Nat)
  /-- piece of its destination, at offset `off` -/
  | dmaDst (ctx index off : Nat)
  /-- its atomic operation -/
  | dmaAtomic (ctx index : Nat)
  /-- piece at offset `off` of an owner table its source or destination names -/
  | dmaTable (ctx index : Nat) (dst : Bool) (off : Nat)
  /-- its old value, its CRC or its read-back -/
  | dmaOld (ctx index : Nat)
  | dmaCrc (ctx index : Nat)
  | dmaBack (ctx index : Nat)
  /-- piece at offset `off` of a parked image on a peer -/
  | kvImage (entry off : Nat)
  /-- part of a block moved to a peer -/
  | pilot (table entry : Nat)
  deriving DecidableEq, Repr

/-- A place of the request tracker (16 R509). -/
structure RemoteReq where
  tag : Nat
  len : Nat
  owner : ReqOwner
  berth : Nat
  sentAt : Nat
  deriving DecidableEq, Repr

/-- A packet that waits for a port, with the routing generation under which it
entered the escape class (16 R506, R507). -/
structure QueuedPacket where
  pkt : Packet
  gen : Nat
  /-- port it arrived on, whose buffer holds it; 16 is this module itself -/
  port : Nat
  deriving DecidableEq, Repr

/-- A fabric port: registers and link layer (16 R493 to R500, R513, R524). -/
structure FabPort where
  /-- 0 disabled, 1 training or held, 2 up, 3 retraining, 4 down, 5 unlicensed -/
  state : BitVec 3
  lanes : BitVec 4
  attempt : BitVec 2
  en : Bool
  ucwThresh : BitVec 8
  replayThresh : BitVec 16
  peerBerth : BitVec 13
  peerHarbour : Bool
  peerPort : BitVec 4
  peerValid : Bool
  peerAssigned : Bool
  peerSn : BitVec 64
  /-- the lower of both sides' highest DESC_VER -/
  peerVer : BitVec 8
  fecCorr : BitVec 32
  fecUcw : BitVec 32
  replays : BitVec 32
  done : BitVec 16
  failed : BitVec 16
  rttNs : BitVec 16
  tx : BitVec 64
  badPkt : BitVec 32
  /-- next SEQ to send, next SEQ expected -/
  txSeq : BitVec 12
  rxSeq : BitVec 12
  /-- transmitted flits not yet acknowledged, oldest first -/
  retry : List (BitVec 1024)
  /-- a NAK is due, sent with the next flit -/
  nak : Bool
  /-- credits held in the eight classes, and slots freed but not yet returned -/
  credits : List Nat
  owed : List Nat
  /-- slots of a packet that has not arrived whole -/
  partialSlots : List (BitVec 64)
  /-- waiting for the link to be trained by step 1 to 3 of R503 -/
  training : Bool
  helloSent : Option Nat
  helloSeen : Option Nat
  flitSeen : Option Nat
  /-- uncorrectable codewords and replays of the last 1 ms: when, and how many -/
  ucwSeen : List (Nat × Nat)
  replaySeen : List (Nat × Nat)
  /-- since when the present attempt or training runs -/
  since : Nat
  /-- for a twin port, since when it counts as down (R519) -/
  downSince : Option Nat
  /-- last HEARTBEAT sent on it -/
  beatAt : Nat
  deriving DecidableEq, Repr

/-- A fabric port after reset. -/
def FabPort.reset : FabPort :=
  { state := 0, lanes := 0, attempt := 0, en := true, ucwThresh := 0x10#8,
    replayThresh := 0x40#16, peerBerth := 0, peerHarbour := false, peerPort := 0,
    peerValid := false, peerAssigned := false, peerSn := 0, peerVer := 0, fecCorr := 0,
    fecUcw := 0, replays := 0, done := 0, failed := 0, rttNs := 0, tx := 0, badPkt := 0,
    txSeq := 0, rxSeq := 0, retry := [], nak := false, credits := [], owed := [],
    partialSlots := [], training := false, helloSent := none, helloSeen := none,
    flitSeen := none, ucwSeen := [], replaySeen := [], since := 0,
    downSince := none, beatAt := 0 }

/-- A link-state advertisement (16 R504). -/
structure Advert where
  serial : BitVec 64
  seq : BitVec 32
  /-- port, neighbour's berth, width -/
  links : List (Nat × Nat × Nat)
  deriving DecidableEq, Repr

/-- A twin message (16 R517). -/
structure TwinMsg where
  tseq : Nat
  kind : Nat
  payload : List Byte
  /-- twin port it was last sent on, and when -/
  port : Nat
  sentAt : Nat
  deriving DecidableEq, Repr

/-- Twin harbours (16 R515 to R523). -/
structure Twin where
  /-- 0 off, 1 joined, 2 lost, 3 fenced, 4 took over, 5 resync -/
  state : BitVec 3
  auto : Bool
  holdMs : BitVec 12
  takeoverMs : BitVec 12
  /-- last TSEQ sent and acknowledged -/
  tx : Nat
  ack : Nat
  /-- messages in the replay buffer, oldest first -/
  buffer : List TwinMsg
  /-- messages that wait because the buffer is full -/
  waiting : List TwinMsg
  /-- last TSEQ applied in order, and those beyond it in the reorder window -/
  applied : Nat
  window : Table TwinMsg
  /-- received and in order, but not past the last STEP_MARK: applied at their
  own addresses, with what stood there, so that takeover can discard them -/
  sinceMark : List TwinMsg
  /-- takeover under way since; the last one's end -/
  takeoverAt : Option Nat
  /-- entries taken over by the last one -/
  taken : Nat
  /-- TSEQ of the last message of a resync -/
  resyncEnd : Option Nat
  deriving DecidableEq, Repr

/-- Fabric state (16 R501 to R512, R525). -/
structure Fabric where
  berth : BitVec 13
  harbour : Bool
  assigned : Bool
  /-- FAB_ID.MODE: 0 TABLE, 1 SORTED; and TWIN_MODE -/
  mode : BitVec 2
  twinMode : Bool
  ready : Bool
  partialRoutes : Bool
  gen : BitVec 32
  timeoutMs : BitVec 16
  late : BitVec 32
  ports : Table FabPort
  /-- committed routing table by berth, the previous one, and when it was left -/
  rt : Table (BitVec 32)
  prevRt : Table (BitVec 32)
  committedAt : Nat
  /-- berths that have been reachable since the fabric became ready (17 R538) -/
  reached : BitVec 8192
  /-- bit p: the link of port p is a down link (R505), now and before the last commit -/
  downLinks : BitVec 16
  prevDown : BitVec 16
  reqs : List RemoteReq
  nextTag : Nat
  waitQ : List QueuedPacket
  /-- packets that arrived for this module, oldest first, each with its port
  (16 is loopback) -/
  inbox : List (Nat × Packet)
  adverts : Table Advert
  ownSeq : BitVec 32
  advertAt : Nat
  advertChanged : Nat
  /-- the host's berth table: serial, harbour, berth (TABLE mode) -/
  berthTable : List (BitVec 64 × Bool × BitVec 13)
  /-- step of R503 under way, 0 for none, and since when -/
  step : Nat
  stepAt : Nat
  twin : Twin
  deriving DecidableEq, Repr

/-- The fabric after reset. MODE and TWIN_MODE come from the configuration, whose reset
value is SORTED (21 R657). -/
def Fabric.reset : Fabric :=
  { berth := 0, harbour := false, assigned := false, mode := 1, twinMode := false,
    ready := false, partialRoutes := false, gen := 0, timeoutMs := 0xFA#16, late := 0,
    ports := [], rt := [], prevRt := [], committedAt := 0, reached := 0, downLinks := 0, prevDown := 0, reqs := [],
    nextTag := 0, waitQ := [], inbox := [], adverts := [], ownSeq := 0, advertAt := 0,
    advertChanged := 0, berthTable := [], step := 0, stepAt := 0,
    twin := { state := 0, auto := false, holdMs := 0x1F4#12, takeoverMs := 0x3E8#12, tx := 0,
              ack := 0, buffer := [], waiting := [], applied := 0, window := [],
              sinceMark := [], takeoverAt := none, taken := 0, resyncEnd := none } }

/-! ### Hardware queues and graph engine (chapter 07) -/

/-- A hardware queue (07 R227). -/
structure HwQueue where
  tenant : Nat
  ringBase : BitVec 64
  /-- RING_LOC, SHADOW_LOC: 1 is host memory -/
  ringLoc : BitVec 1
  sizeLog2 : Nat
  prioMax : BitVec 3
  shadowAddr : BitVec 64
  shadowLoc : BitVec 1
  head : BitVec 17
  tail : BitVec 17
  enabled : Bool
  /-- MODE of Q_CREATE: a serving-mode queue (14 R436) -/
  serving : Bool
  /-- HEAD has changed since it was last written to the shadow, at this time -/
  shadowDue : Option Nat
  deriving DecidableEq, Repr

/-- A graph kept resident by LOAD (07 R234). -/
structure ResidentGraph where
  tenant : Nat
  tag : BitVec 32
  nodes : List (BitVec 512)
  edges : List (Nat × Nat)
  /-- an UNLOAD of it has been read -/
  unloading : Bool
  /-- SOLO_NS in ticks, and whether a solo launch gave it (14 R462) -/
  solo : Option Nat
  verified : Bool
  deriving DecidableEq, Repr

/-- Where a node stands. -/
inductive NodePhase where
  /-- not dispatched -/
  | waiting
  /-- its resources are reserved; dispatch steps 3 to 5 are still to come -/
  | reserved
  | running
  /-- spilled by a pre-emption (14 R457) -/
  | spilled
  /-- its live sets are being copied back (14 R460) -/
  | restoring
  | ended
  deriving DecidableEq, Repr

/-- Spill space of one tile of a spilled node (14 R458): where it stopped (true:
at a pre-emption point), its address, its size and its job. -/
structure SpillTile where
  tile : Nat
  atPoint : Bool
  base : Nat
  size : Nat
  job : TileJob
  deriving DecidableEq, Repr

/-- A node of a running graph. -/
structure NodeSt where
  /-- the node entry -/
  words : BitVec 512
  indeg : Nat
  phase : NodePhase
  /-- its pin record, once read: the form it pins, and per stage the quays, the
  mode and START_T (08 R278) -/
  pin : Option (Option Bool × List (Nat × Nat × Nat))
  /-- when it became ready -/
  readyAt : Option Nat
  /-- form chosen at its first consideration: false TILE, true STACK -/
  form : Option Bool
  /-- routing class and threshold used -/
  cls : Nat
  /-- tiles by stage, in stage-index order -/
  stages : List (List Nat)
  /-- every tile held, idle ones of the last groups included -/
  held : List Nat
  /-- its stack slots come from the serving reserve -/
  reserve : Bool
  memops : Nat
  /-- graph-area range it holds -/
  areaBase : Nat
  areaSize : Nat
  reservedAt : Nat
  dispatchedAt : Nat
  spill : List SpillTile
  /-- tiles of a pre-emption held for it -/
  claim : List Nat
  deriving DecidableEq, Repr

/-- A graph slot in use: an entry that has been read, from its first check to its
completion record. -/
structure GraphRun where
  queue : Nat
  tenant : Nat
  entry : BitVec 512
  op : Nat
  prio : Nat
  handle : Option Nat
  tag : BitVec 32
  nodes : Table NodeSt
  edges : List (Nat × Nat)
  /-- first failure: status, FAIL_NODE, FAIL_UNIT -/
  failing : Option (Status × Nat × Nat)
  flags : BitVec 8
  /-- last dispatch or completion of one of its nodes -/
  lastEvent : Nat
  /-- dispatch of its first node, and whether no other graph has had a
  dispatched unit since -/
  startedAt : Option Nat
  soloRun : Bool
  /-- launched by the serving engine (14 R444) -/
  step : Bool
  /-- its record has been written, or the attempt has failed -/
  recorded : Bool
  deriving DecidableEq, Repr

/-- An entry that has been read and not yet begun. -/
structure ReadEntry where
  seq : Nat
  queue : Nat
  tenant : Nat
  raw : BitVec 512
  /-- graph, node and edge slots it will take -/
  need : Nat × Nat × Nat
  deriving DecidableEq, Repr

/-- A pre-emption under way (14 R457): the head, the victims, and the step. -/
structure Preemption where
  head : Nat × Nat
  victims : List (Nat × Nat)
  since : Nat
  /-- live sets are being copied since then -/
  copying : Option Nat
  deriving DecidableEq, Repr

/-- The graph engine (07 R227 to R263). -/
structure GraphEngine where
  queues : Table HwQueue
  /-- tenant and, per tenant, queue last served (R230) -/
  lastTenant : Nat
  lastQueue : Table Nat
  /-- last SEQ given -/
  seq : Nat
  entries : List ReadEntry
  graphs : Table GraphRun
  residents : Table ResidentGraph
  preempt : Option Preemption
  /-- the head of the ready order, once noted (R247) -/
  head : Option (Nat × Nat)
  deriving DecidableEq, Repr

/-! ### The Pilot (chapter 08) -/

/-- A block the Pilot has placed: its owner table and entry, its home, its class
and when it was last used. -/
structure PilBlock where
  table : Nat
  entry : Nat
  berth : Option Nat
  base : Nat
  size : Nat
  tier2 : Bool
  unit : Nat
  cls : Nat
  pinned : Bool
  lastUse : Nat
  /-- reads of it in the running window of the rebalancing policy -/
  reads : Nat
  deriving DecidableEq, Repr

/-- A declared tensor. -/
structure PilTensor where
  id : BitVec 32
  tenant : Nat
  cls : Nat
  array : Nat
  table : Nat
  entries : Nat
  /-- PIL_FREE waits for these graphs, whose operations may resolve through the
  table -/
  freeing : Option (List Nat)
  deriving DecidableEq, Repr

/-- A move that has been asked for and waits to start (08 R280, R282). -/
structure PilReq where
  table : Nat
  entry : Nat
  /-- named home: berth, local address and HOME_LOC; none is the Pilot's choice -/
  home : Option (Nat × Nat × Nat)
  pin : Bool
  demote : Bool
  issuer : Option Issuer
  deriving DecidableEq, Repr

/-- Step of a block move (08 R280). -/
inductive MoveStep where
  /-- copying pass n, 1 to 4 (1 is the first copy) -/
  | copy (pass : Nat)
  /-- writes held, the last dirty chunks being copied -/
  | hold
  /-- committed: writes are forwarded until earlier operations complete -/
  | forward
  deriving DecidableEq, Repr

/-- A move of one block. -/
structure PilMove where
  table : Nat
  entry : Nat
  old : Nat
  new : Nat
  /-- berth of the new home where it is not this module -/
  berth : Option Nat
  /-- NEXT_LOC of the new home -/
  newLoc : Nat
  size : Nat
  step : MoveStep
  since : Nat
  /-- 4 KiB chunks to copy in this pass, and those written after their last copy -/
  todo : List Nat
  dirty : List Nat
  held : List (Nat × List Byte)
  /-- for a new home at a peer: writes to be sent there, and those sent and not
  yet answered -/
  send : List (Nat × List Byte)
  outstanding : Nat
  failed : Bool
  /-- graphs in flight at the commit, whose operations may still use the old home -/
  earlier : List Nat
  /-- the block is pinned at commit -/
  pin : Bool
  demote : Bool
  /-- mailbox command that waits for it -/
  issuer : Option Issuer
  /-- for a mirrored table: the twin message that told the paired module to commit -/
  twinSeq : Option Nat
  deriving DecidableEq, Repr

/-- A PIL_PLACE that waits for a peer (08 R275). -/
structure PeerPlace where
  issuer : Issuer
  /-- homes found so far by entry: berth (none: this module), local address -/
  homes : Table (Option Nat × Nat)
  /-- entries still to be placed, and berths to ask, first first -/
  entries : List Nat
  berths : List Nat
  /-- berths that refused the entry in hand -/
  refused : Nat
  askedAt : Nat
  deriving DecidableEq, Repr

/-- The Pilot (08 R265 to R286). -/
structure Pilot where
  frozen : Bool
  thresh : Table (BitVec 16)
  windows : Table (BitVec 16)
  fix : BitVec 3
  winMs : BitVec 8
  /-- start of the running calibration window -/
  calAt : Nat
  dlogHead : BitVec 32
  dlogLost : BitVec 32
  committed : BitVec 16
  abandoned : BitVec 16
  tensors : List PilTensor
  blocks : List PilBlock
  moves : List PilMove
  /-- moves that wait to start, and the ends of moves that commands wait for -/
  queue : List PilReq
  ended : List (Nat × Nat × Status)
  peerPlace : Option PeerPlace
  deriving DecidableEq, Repr

/-- The Pilot after reset: thresholds by R268. -/
def Pilot.reset : Pilot :=
  { frozen := false, thresh := [(0, 0x0831#16), (1, 0x0831#16), (2, 0x0625#16)], windows := [],
    fix := 0, winMs := 0x0A#8, calAt := 0, dlogHead := 0, dlogLost := 0, committed := 0,
    abandoned := 0, tensors := [], blocks := [], moves := [], queue := [],
    ended := [], peerPlace := none }

/-! ### Compute stacks (chapter 09) -/

/-- A started stack descriptor: whether its operation has run, so that its
outputs have taken effect, and what it gave. -/
structure StackRun where
  idx : Nat
  done : Bool
  flags : BitVec 8
  failed : Option Status
  deriving DecidableEq, Repr

/-- A stack chain in a context of the chain engine (09 R311). -/
structure StackChain where
  seq : Nat
  node : Nat
  tenant : Nat
  mask : Nat
  slots : Nat
  descs : List (BitVec 1024)
  /-- index of the next descriptor to start -/
  next : Nat
  running : List StackRun
  completed : Nat
  flags : BitVec 8
  /-- the next descriptor's wait has been sent, and has ended -/
  waitSent : Bool
  waitDone : Bool
  /-- first error: status, stack, descriptor -/
  failed : Option (Status × Nat × Nat)
  stopped : Bool
  /-- last start in each stack -/
  startAt : Table Nat
  /-- when a descriptor last started, completed or began to wait -/
  lastProgress : Nat
  /-- vector buffers by stack, at offsets of the node's allotment -/
  vb : Table Mem
  /-- MACs of its GEMV descriptors (08 R270) -/
  macs : Nat
  deriving DecidableEq, Repr

/-- Registers of one compute stack (09 R318, R319). -/
structure StackUnit where
  serveRsv : BitVec 8
  /-- slots the reserve holds now: it grows only as graph slots become free -/
  reserveNow : Nat
  nbuNs : Nat
  macs : BitVec 64
  errStatus : Status
  errIndex : BitVec 12
  descCnt : BitVec 32
  deriving DecidableEq, Repr

/-- A stack after reset. -/
def StackUnit.reset : StackUnit :=
  { serveRsv := 0x40#8, reserveNow := 64, nbuNs := 0, macs := 0, errStatus := 0, errIndex := 0,
    descCnt := 0 }

/-- The stacks and the chain engine. -/
structure Stacks where
  units : Table StackUnit
  chains : Table StackChain
  nextChain : Nat
  deriving DecidableEq, Repr

/-! ### KV cache (chapter 15) -/

/-- An allocated slot with its owner word (15 R475). -/
structure KvSlot where
  model : Nat
  stack : Nat
  nbu : Nat
  slot : Nat
  entry : Nat
  head : Nat
  page : Nat
  isV : Bool
  deriving DecidableEq, Repr

/-- What a range of a model's list area or parking area holds. -/
inductive KvUse where
  /-- list block of a head group and segment -/
  | list (head seg : Nat)
  /-- page table created by the engine -/
  | table
  /-- parked image -/
  | image
  deriving DecidableEq, Repr

/-- An allocated range of a list area or a parking area. -/
structure KvArea where
  model : Nat
  entry : Nat
  use : KvUse
  base : Nat
  size : Nat
  deriving DecidableEq, Repr

/-- A copy of a cache under way for a PAUSE, a RESUME or a demotion (15 R485,
R486). -/
structure KvCopy where
  entry : Nat
  resume : Bool
  image : Nat
  size : Nat
  since : Nat
  /-- ARG of the PAUSE, and the command whose result waits: its queue and words -/
  arg : Nat
  command : Option (Nat × Nat)
  /-- for an image on a peer: bytes requested so far, requests not yet answered,
  and the bytes read, by offset -/
  sent : Nat
  outstanding : Nat
  got : Table (List Byte)
  /-- a read met an uncorrectable error, or a remote request failed -/
  failed : Bool
  deriving DecidableEq, Repr

/-- KV state: geometries by model, slots, areas and copies. -/
structure Kv where
  geoms : Table (BitVec 512)
  slots : List KvSlot
  areas : List KvArea
  copies : List KvCopy
  poolFail : BitVec 16
  ptFail : BitVec 16
  sums : BitVec 32
  deriving DecidableEq, Repr

/-! ### Serving engine (chapter 14) -/

/-- A manifest entry: its 64 bytes (14 R432), the row from which it last returned
(R442), the time-to-live a PAUSE in a step left, whether it was taken over and
whether it waits for REBIND (16 R520, R522). -/
structure SrvEntry where
  w : BitVec 512
  row : Nat
  ttl : Nat
  taken : Bool
  held : Bool
  deriving DecidableEq, Repr

/-- A registered model: its tenant and its record (14 R441). -/
structure SrvModel where
  tenant : Nat
  words : BitVec 4608
  deriving DecidableEq, Repr

/-- A step in flight from one slot of a group (14 R443). -/
structure SrvStep where
  model : Nat
  stage : Nat
  slot : Nat
  stepNo : BitVec 32
  variant : Nat
  /-- manifest indexes of its rows -/
  rows : List Nat
  /-- its LAUNCH entry, and whether the launch queue has taken it -/
  launch : BitVec 512
  queued : Bool
  /-- SEQ given to the LAUNCH entry when the graph engine read it -/
  seq : Option Nat
  /-- status of its completion record, once written -/
  result : Option Status
  /-- rows processed so far; the slot is free when none is left and every
  descriptor is written -/
  delivered : Bool
  deriving DecidableEq, Repr

/-- An output descriptor that waits to be written (14 R447, R448). -/
structure SrvOut where
  entry : Nat
  words : BitVec 256
  /-- STATE of the entry after the write -/
  next : Nat
  /-- twin message whose acknowledgement it waits for; 0 is none (R44) -/
  tseq : Nat
  /-- step number whose slot it holds, if any -/
  step : Option (BitVec 32)
  deriving DecidableEq, Repr

/-- Registers and window sums of one tenant (14 R463, R466). -/
structure SrvTenant where
  quota : BitVec 21
  tokens : BitVec 32
  ratio : BitVec 16
  overs : BitVec 16
  measUs : BitVec 32
  soloUs : BitVec 32
  /-- sums over the running window, in ticks -/
  meas : Nat
  solo : Nat
  /-- consecutive windows at or above THRESH, and whether it has been raised -/
  consec : Nat
  fired : Bool
  deriving DecidableEq, Repr

/-- A tenant's serving registers after reset. -/
def SrvTenant.reset : SrvTenant :=
  { quota := 0, tokens := 0, ratio := 0, overs := 0, measUs := 0, soloUs := 0, meas := 0,
    solo := 0, consec := 0, fired := false }

/-- The serving engine (14 R431 to R466). -/
structure Serving where
  /-- current values of the entries that have been written; the others are FREE -/
  entries : Table SrvEntry
  /-- entries in the manifest cache, least recently used first -/
  cache : List Nat
  hits : BitVec 32
  misses : BitVec 32
  steps : BitVec 32
  tokens : BitVec 64
  stopUs : BitVec 16
  preempts : BitVec 16
  aborts : BitVec 16
  slowWin : BitVec 8
  slowThresh : BitVec 16
  slowConsec : BitVec 4
  slowAt : Nat
  ringErr : BitVec 32
  models : Table SrvModel
  inFlight : List SrvStep
  outs : List SrvOut
  tenants : Table SrvTenant
  /-- serving queue read last -/
  lastQueue : Nat
  deriving DecidableEq, Repr

/-- The serving engine after reset. -/
def Serving.reset : Serving :=
  { entries := [], cache := [], hits := 0, misses := 0, steps := 0, tokens := 0,
    stopUs := 0x7D0#16, preempts := 0, aborts := 0, slowWin := 0x64#8, slowThresh := 0x200#16,
    slowConsec := 3, slowAt := 0, ringErr := 0, models := [], inFlight := [], outs := [],
    tenants := [], lastQueue := 0 }

/-! ### Firmware (chapter 19) -/

/-- A crash-dump capture (19 R603, R604). Its sections are in the firmware's own
format: their bytes are the free values from `free` on. -/
structure Capture where
  cause : Nat
  /-- 0 to 66, or 0xFF for none -/
  core : Nat
  fwVer : BitVec 32
  time : Nat
  resets : BitVec 32
  status : Status
  /-- length of the firmware log ring -/
  logLen : Nat
  free : Nat
  deriving DecidableEq, Repr

/-- The firmware cores and the security core's stores. Cores are numbered 0 to 63
for the quays, 64 security, 65 power management, 66 scheduler (19 R592). -/
structure Firmware where
  /-- FW_STATE: 0 none, 1 loading, 2 running, 3 updating, 4 stopped -/
  state : BitVec 3
  /-- header of the running image, and of the staged one -/
  image : Option Block256
  staged : Option Block256
  /-- cores held stopped (R592) or held in reset (R597) -/
  stopped : BitVec 67
  /-- cores that a live update is replacing (R599) -/
  switching : BitVec 67
  /-- step of the load or update under way, 0 for none -/
  step : Nat
  /-- captures held, oldest first -/
  captures : List Capture
  deriving DecidableEq, Repr

/-- Firmware after reset: none runs. -/
def Firmware.reset : Firmware :=
  { state := 0, image := none, staged := none, stopped := 0, switching := 0, step := 0, captures := [] }

/-! ### Power and heat (chapter 20) -/

/-- Power entry, measurement and limits (20 R613 to R623, R636). -/
structure Power where
  gateOn : Bool
  ramping : Bool
  pgood : Bool
  latched : Bool
  retries : BitVec 2
  thmOff : Bool
  /-- clamp of R622: 64 is none -/
  clamp : Nat
  clampAt : Nat
  icur : Bool
  icurAt : Nat
  vinOk : Bool
  hsCause : BitVec 3
  ilim : BitVec 9
  vin : BitVec 16
  iin : BitVec 16
  pin : BitVec 16
  hwLimit : BitVec 11
  hwWritten : Bool
  softLimit : BitVec 11
  /-- consecutive ms below 0.97 of the soft limit -/
  lowMs : Nat
  energy : BitVec 64
  rails : Table (BitVec 32)
  qe : Table (BitVec 32)
  rampAt : Nat
  /-- latched for a short since then, waiting 1 s -/
  retryAt : Option Nat
  pgoodAt : Option Nat
  deriving DecidableEq, Repr

/-- Power entry after an AUX power-on reset. -/
def Power.reset : Power :=
  { gateOn := false, ramping := false, pgood := false, latched := false, retries := 0,
    thmOff := false, clamp := 64, clampAt := 0, icur := false, icurAt := 0, vinOk := false,
    hsCause := 0, ilim := 0x190#9, vin := 0, iin := 0, pin := 0, hwLimit := 0x5DC#11,
    hwWritten := false, softLimit := 0x5DC#11, lowMs := 0, energy := 0, rails := [], qe := [],
    rampAt := 0, retryAt := none, pgoodAt := none }

/-- A node of the thermal estimator: its states and estimate in units of
10^−9 °C, and the levels it has entered (20 R625, R628). -/
structure ThermNode where
  fast : Int
  slow : Int
  temp : Int
  throttled : Bool
  backstop : Bool
  deriving DecidableEq, Repr

/-- A node at AUX power-on. -/
def ThermNode.reset : ThermNode := { fast := 0, slow := 0, temp := 0, throttled := false, backstop := false }

/-- Thermal estimator, thresholds and coolant valve (20 R625 to R637). -/
structure Thermal where
  nodes : Table ThermNode
  /-- die states, east and west -/
  dieE : Int
  dieW : Int
  /-- inlet and outlet readings, signed, 1/16 °C -/
  inlet : BitVec 16
  outlet : BitVec 16
  inFail : Bool
  outFail : Bool
  /-- warning level; a shutdown runs since -/
  warn : Bool
  shutAt : Option Nat
  shutdowns : BitVec 16
  duty : Table (BitVec 7)
  /-- valve: mode (true fixed), position, command, feedback -/
  mode : Bool
  position : BitVec 7
  cmd : BitVec 7
  fb : BitVec 7
  stuck : Bool
  fbLost : Bool
  /-- automatic target and when it was computed; last move of the command -/
  autoTarget : Nat
  targetAt : Nat
  valveAt : Nat
  /-- feedback more than 10 % off, and within 5 %, since then -/
  offSince : Option Nat
  nearSince : Option Nat
  /-- THM_FLOW, as of the last update of the estimator -/
  flow : BitVec 16
  deriving DecidableEq, Repr

/-- The thermal unit after an AUX power-on reset. -/
def Thermal.reset : Thermal :=
  { nodes := [], dieE := 0, dieW := 0, inlet := 0, outlet := 0, inFail := false, outFail := false,
    warn := false, shutAt := none, shutdowns := 0, duty := [], mode := false, position := 0x64#7,
    cmd := 0x64#7, fb := 0, stuck := false, fbLost := false, autoTarget := 100, targetAt := 0,
    valveAt := 0, offSince := none, nearSince := none, flow := 0 }

/-! ### Reset, wake and bring-up (chapter 21), and the backup domain -/

/-- Reset, wake and bring-up (21 R639 to R657). -/
structure Bring where
  vaux : Bool
  vbat : Bool
  perstN : Bool
  resetN : Bool
  /-- time of the last source of the stretch that runs -/
  stretch : Option Nat
  /-- sources seen in it, by priority − 1 -/
  sources : BitVec 5
  /-- CAUSE of the next wake (R648), and whether a wake runs -/
  cause : Nat
  waking : Bool
  /-- last wake step completed, failures of the present one, and its start -/
  wakeStep : Nat
  tries : Nat
  stepAt : Nat
  /-- the wake has failed and no new one has begun -/
  failed : Bool
  /-- rails given up in this wake (R651), to be reported at READY -/
  outRails : List Nat
  /-- the ring reference took over during the wake -/
  refLost : Bool
  /-- a thermal shutdown ended: raise its events after the wake -/
  thmRestart : Bool
  ready : Bool
  pcieUp : Bool
  tileTest : Bool
  t1Trained : Bool
  t2Trained : Bool
  tilesFilled : Bool
  fwInit : Bool
  /-- when the bring-up tasks started -/
  tasksAt : Nat
  wdogMs : BitVec 16
  wdogAt : Nat
  blk : BitVec 12
  blkBusy : Bool
  blkAt : Nat
  /-- a mailbox RESET was answered then -/
  mbxAt : Option Nat
  /-- configuration record in force, as read at wake step 8 -/
  cfg : Table (BitVec 32)
  deriving DecidableEq, Repr

/-- What the backup domain keeps over a loss of input power (21 R647, R657). -/
structure Backup where
  /-- fence record: stack ↦ pseudo-channels, and tier-2 channels -/
  fenceT1 : Table (BitVec 64)
  fenceT2 : BitVec 16
  cause : BitVec 4
  sources : BitVec 5
  shorts : BitVec 3
  latch : Bool
  failStep : BitVec 4
  failRail : BitVec 8
  wakeFailed : Bool
  count : BitVec 32
  /-- RST_CFG0 to RST_CFG7 -/
  cfg : Table (BitVec 32)
  deriving DecidableEq, Repr

/-- The backup domain at its reset values. -/
def Backup.reset : Backup :=
  { fenceT1 := [], fenceT2 := 0, cause := 0, sources := 0, shorts := 0, latch := false,
    failStep := 0, failRail := 0xFF#8, wakeFailed := false, count := 0,
    cfg := [(0, 0x00000101#32), (1, 0x019005DC#32)] }

/-- Reset control while the reset of an AUX power-on is stretched. -/
def Bring.reset : Bring :=
  { vaux := true, vbat := true, perstN := true, resetN := true, stretch := some 0, sources := 1,
    cause := 1, waking := false, wakeStep := 0, tries := 0, stepAt := 0, failed := false,
    outRails := [], refLost := false, thmRestart := false, ready := false, pcieUp := false,
    tileTest := false, t1Trained := false, t2Trained := false, tilesFilled := false, fwInit := false,
    tasksAt := 0, wdogMs := 0, wdogAt := 0, blk := 0, blkBusy := false, blkAt := 0, mbxAt := none,
    cfg := [(0, 0x00000101#32), (1, 0x019005DC#32)] }

/-! ### The I3C sideband (chapter 23) -/

/-- The I3C target (23 R688 to R690). -/
structure I3c where
  /-- dynamic address -/
  addr : Option (BitVec 7)
  ibiOn : Bool
  /-- in-band interrupts not yet sent: a response, an alarm -/
  ibiRsp : Bool
  ibiAlarm : Bool
  /-- TRC_ALARM_CNT when the alarm interrupt was last raised -/
  alarmSeen : BitVec 32
  mwl : BitVec 16
  mrl : BitVec 16
  /-- the next private read gives the mailbox (true) or the register result -/
  mailbox : Bool
  regStatus : Status
  regValue : Word
  mbxState : BitVec 2
  rsp : Block256
  deriving DecidableEq, Repr

/-- The I3C target after reset. -/
def I3c.reset : I3c :=
  { addr := none, ibiOn := false, ibiRsp := false, ibiAlarm := false, alarmSeen := 0,
    mwl := 264, mrl := 264, mailbox := false, regStatus := 0, regValue := 0, mbxState := 0, rsp := 0 }

/-! ### The response of the memory port -/

/-- The response a requester receives to its last memory or register access:
the model's own place for it. -/
structure Response where
  status : Status
  /-- address of the first uncorrectable atom of a failed read (11 R360) -/
  addr : Nat
  data : List Byte
  deriving DecidableEq, Repr

/-! ### The state -/

/-- The module. -/
structure State where
  /-- commands that wait, first in, first out -/
  pending : List Instr
  /-- the time base in ticks of 40 ns (02 R80) -/
  time : Nat
  /-- PACE_TB_STATUS -/
  onRing : Bool
  refclkFailSeen : Bool
  /-- the model's own: how many free values have been taken -/
  free : Nat
  /-- tier 1, tier 2 and tile memories by local address -/
  mem : Mem
  /-- host memory, as far as the module has written it or a run has set it -/
  hostMem : Mem
  quays : Table Quay
  central : CentralPace
  tiles : Table Tile
  tiers : Tiers
  sync : SyncState
  dma : DmaState
  events : EventStores
  trace : Trace
  hif : HostIf
  hm : Harbourmaster
  log : Logbook
  fab : Fabric
  graph : GraphEngine
  pilot : Pilot
  stks : Stacks
  kv : Kv
  serving : Serving
  fw : Firmware
  power : Power
  thermal : Thermal
  bring : Bring
  backup : Backup
  i3c : I3c
  /-- the requester of the access under way, as the logbook names it (17 R549):
  source kind in bits 15 to 12, its index below -/
  agent : BitVec 16
  /-- the last response to an access made by a command -/
  resp : Response
  /-- LICENCES installed (19 R608): FP4/T3, tier 2, ports, twin, tenants -/
  licences : BitVec 5
  /-- MAP_MODE sampled at the wake: true is floor-plan mode (21 R656) -/
  mapMode : Bool
  deriving DecidableEq, Repr

/-! ### Reset -/

/-- Quota record of T0 at reset: the module's capacity in every field, and
PRIO_MAX 7 (18 R565). -/
def quotaT0 : BitVec 384 :=
  BitVec.ofNat 384 (8192 + 2 ^ 16 * 4096 + 2 ^ 32 * 4096 + 2 ^ 48 * 256 + 2 ^ 64 * 16384
    + 2 ^ 96 * 262144 + 2 ^ 128 * 1048576 + 2 ^ 160 * 16384 + 2 ^ 192 * 131072 + 2 ^ 224 * 1048576
    + 2 ^ 256 * 4096 + 2 ^ 272 * 64 + 2 ^ 280 * 7)

/-- An empty mailbox queue. -/
def CoreQueue.reset : CoreQueue := { queue := [], ring := [], lastPf := false, lastVf := 0, times := [], lastDone := 0 }

/-- The host interface after reset. -/
def HostIf.reset : HostIf :=
  { funcs := [], tenants := [(0, { quota := quotaT0, grants := [] })], secq := CoreQueue.reset,
    pwrq := CoreQueue.reset, schq := CoreQueue.reset, answers := [], lastSession := 0,
    vfEnable := false }

/-- The graph engine after reset. -/
def GraphEngine.reset : GraphEngine :=
  { queues := [], lastTenant := 0, lastQueue := [], seq := 0, entries := [], graphs := [],
    residents := [], preempt := none, head := none }

/-- The module right after an AUX power-on reset: every register at its reset
value, nothing trained, mapped or loaded, no command waiting (21 R640). -/
def State.reset : State :=
  { pending := [], time := 0, onRing := false, refclkFailSeen := false, free := 0, mem := [],
    hostMem := [], quays := [], central := { valid := false, refRing := false, cur := 0 },
    tiles := [], tiers := Tiers.reset,
    sync := { objs := [], bars := [], retried := [], woken := [], evtOvf := 0, evtUnf := 0,
              isoCnt := 0, ops := 0 },
    dma := { engines := [], ctxs := [], nextCtx := 0, waiting := [], ended := [], redaddCnt := 0, acs := [] },
    events := { entries := [], lane := [], mirror := [], alarmCnt := 0 },
    trace := { units := [], sinkAddr := 0, sinkPages := 0, snapTime := 0, snapSeq := 0, snapFree := none, quayCnt := [],
               quayShadow := [], modCnt := [], modShadow := [], tenCnt := [], tenShadow := [] },
    hif := HostIf.reset,
    hm := { outstanding := none, folded := [], queue := [], quiet := [], dropped := 0,
            droppedEvt := none, incidents := [], serials := [], fullCount := 0, fullEvt := none },
    log := { recording := false, wrap := false, first := 0, nextRec := 0, lastMark := 0, gaps := 0,
             marks := [], points := [], mark := none, paused := false, replayFrom := none,
             held := false, replayPos := 0 },
    fab := Fabric.reset, graph := GraphEngine.reset, pilot := Pilot.reset,
    stks := { units := [], chains := [], nextChain := 0 },
    kv := { geoms := [], slots := [], areas := [], copies := [], poolFail := 0, ptFail := 0, sums := 0 },
    serving := { Serving.reset with
      tenants := [(0, { SrvTenant.reset with quota := 0x100000#21 })] },
    fw := Firmware.reset, power := Power.reset, thermal := Thermal.reset, bring := Bring.reset,
    backup := Backup.reset, i3c := I3c.reset, agent := 0,
    resp := { status := 0, addr := 0, data := [] }, licences := 0, mapMode := false }

/-! ### Stops -/

/-- Reasons for which the machine stops with a fault. -/
inductive Fault where
  /-- raised by no command: every failure the spec describes is a status in a
  result, a register or an event. Safe. -/
  | none
  deriving DecidableEq, Repr

/-- Reasons for which the model refuses a command. -/
inductive Refusal where
  /-- raised by an arm of `exec` whose command has no meaning yet, naming its
  row of the opcode table. Safe: nothing is claimed of the command. -/
  | notModelled (mnemonic : String)
  deriving DecidableEq, Repr

/-- What a command answers. -/
abbrev Out := Host.Outcome State Fault Refusal

end Sys2Proof.Machine
end

