-- ==== Sys2Proof/Machine/Status.lean ====
section
/-! DEFINITION. The status codes of the spec, by the chapter that lists them
(class in bits 15 to 12, 00 R20, 17 R527). -/

namespace Sys2Proof.Machine

/-! Chapter 01, R56 -/

def ST_ADDR_UNMAPPED : Status := 0x1010#16
def ST_ADDR_ALIGN : Status := 0x1011#16
def ST_QUAY_OUT_OF_SERVICE : Status := 0x2010#16
def ST_ISO_ADDRESS : Status := 0x6011#16
def ST_REMOTE_REG_DENIED : Status := 0x6012#16

/-! Chapter 02, R87 -/

def ST_VSET_CLAMPED : Status := 0x1020#16
def ST_REFCLK_LOST : Status := 0x5020#16
def ST_PACE_LOW : Status := 0x5021#16
def ST_PACE_STEP : Status := 0x5022#16

/-! Chapter 03, R130 -/

def ST_TYPE_UNSUPPORTED : Status := 0x1030#16
def ST_TYPE_PAIR : Status := 0x1031#16
def ST_SCALE_MODE : Status := 0x1032#16
def ST_SCALE_ALIGN : Status := 0x1033#16
def ST_TYPE_UNLICENSED : Status := 0x6020#16

/-! Chapter 04, R168 -/

def ST_TILE_DQ_DEADLOCK : Status := 0x1040#16
def ST_TILE_DQ_RESIDUE : Status := 0x1041#16
def ST_TILE_SC_TRAP : Status := 0x1042#16
def ST_TT_TYPE : Status := 0x1043#16
def ST_SPAD_RANGE : Status := 0x1044#16
def ST_TILE_BUSY : Status := 0x2040#16
def ST_TILE_ABORTED : Status := 0x2041#16
def ST_TEC_SAT : Status := 0x2042#16
def ST_TILE_REG_DENIED : Status := 0x6040#16

/-! Chapter 05, R206 -/

def ST_DESC_VER : Status := 0x1050#16
def ST_DESC_LEN : Status := 0x1051#16
def ST_DESC_KIND : Status := 0x1052#16
def ST_DESC_RSV : Status := 0x1053#16
def ST_DESC_FIELD : Status := 0x1054#16
def ST_DESC_AG : Status := 0x1055#16
def ST_DESC_PROG : Status := 0x1056#16
def ST_DESC_DQ : Status := 0x1057#16
def ST_AG_BITALIGN : Status := 0x1058#16
def ST_LOAD_LINE : Status := 0x1059#16
def ST_MMA_OPERAND : Status := 0x105A#16
def ST_ACC_NONE : Status := 0x105B#16
def ST_PRE_MISMATCH : Status := 0x105C#16
def ST_MMA_BLOCK : Status := 0x105D#16
def ST_DESC_FETCH_UE : Status := 0x3050#16

/-! Chapter 06, R226 -/

def ST_OWNER_FMT : Status := 0x1060#16
def ST_OWNER_SHAPE : Status := 0x1061#16
def ST_OWNER_RANGE : Status := 0x1062#16
def ST_OWNER_ABSENT : Status := 0x1063#16
def ST_OWNER_LOST : Status := 0x3060#16

/-! Chapter 07, R264 -/

def ST_Q_ENTRY_FMT : Status := 0x1070#16
def ST_GRAPH_FMT : Status := 0x1071#16
def ST_GRAPH_EDGE : Status := 0x1072#16
def ST_GRAPH_CYCLE : Status := 0x1073#16
def ST_GRAPH_REL : Status := 0x1074#16
def ST_GRAPH_HANDLE : Status := 0x1075#16
def ST_Q_DOORBELL_RANGE : Status := 0x1076#16
def ST_GRAPH_TOO_BIG : Status := 0x2070#16
def ST_GRAPH_UNFIT : Status := 0x2071#16
def ST_GRAPH_ABORTED : Status := 0x2072#16
def ST_HANDLE_FULL : Status := 0x2073#16
def ST_Q_DISABLED : Status := 0x2074#16
def ST_GRAPH_FETCH_UE : Status := 0x3070#16
def ST_GRAPH_WATCHDOG : Status := 0x8070#16
def ST_GRAPH_DISPATCH_TIMEOUT : Status := 0x8071#16

/-! Chapter 08, R287 -/

def ST_PIL_PIN_FMT : Status := 0x1080#16
def ST_PIL_NO_TENSOR : Status := 0x1081#16
def ST_PIL_NO_SPACE : Status := 0x2080#16
def ST_PIL_PIN_UNFIT : Status := 0x2081#16
def ST_PIL_BUSY : Status := 0x2082#16
def ST_PIL_MOVE_FAILED : Status := 0x3080#16

/-! Chapter 09, R320 -/

def ST_STK_DESC_FMT : Status := 0x1090#16
def ST_STK_OPC : Status := 0x1091#16
def ST_STK_FIELD : Status := 0x1092#16
def ST_STK_VB_RANGE : Status := 0x1093#16
def ST_STK_ALIGN : Status := 0x1094#16
def ST_STK_CHAIN_LEN : Status := 0x1095#16
def ST_STK_PAGE_SPAN : Status := 0x1096#16
def ST_STK_SLOTS : Status := 0x2090#16
def ST_STK_NBU_OUT : Status := 0x2091#16
def ST_STK_UE : Status := 0x3090#16

/-! Chapter 10, R348 -/

def ST_MAP_CONFIG : Status := 0x1100#16
def ST_T2_RETRAIN_BUSY : Status := 0x2100#16
def ST_T2_CH_DOWN : Status := 0x2101#16
def ST_T1_PC_FENCED : Status := 0x3100#16
def ST_T2_CH_FENCED : Status := 0x3101#16
def ST_MERGE_UE : Status := 0x3102#16
def ST_T2_RETRAIN_FAIL : Status := 0x3103#16

/-! Chapter 11, R372 -/

def ST_MEM_UE : Status := 0x3110#16
def ST_SPAD_UE : Status := 0x3111#16
def ST_UE_RECORDED : Status := 0x3112#16
def ST_CE_OVERFLOW : Status := 0x3113#16
def ST_MIRROR_REPAIRED : Status := 0x3114#16
def ST_KV_PAGE_LOST : Status := 0x3115#16
def ST_WEIGHT_LOST : Status := 0x3116#16
def ST_BLOCK_LOST : Status := 0x3117#16
def ST_UE_OWNER_UNKNOWN : Status := 0x3118#16
def ST_UE_HANDLING_DROPPED : Status := 0x3119#16

/-! Chapter 12, R407 -/

def ST_DMA_DESC_FMT : Status := 0x1120#16
def ST_DMA_OP : Status := 0x1121#16
def ST_DMA_FIELD : Status := 0x1122#16
def ST_DMA_ALIGN : Status := 0x1123#16
def ST_DMA_LIST_FMT : Status := 0x1124#16
def ST_ATOMIC_TARGET : Status := 0x1125#16
def ST_AC_SAT : Status := 0x2120#16
def ST_AC_BIND : Status := 0x2121#16
def ST_DMA_READBACK_MISMATCH : Status := 0x3120#16
def ST_DMA_HOST_ERR : Status := 0x3121#16
def ST_AC_TENANT : Status := 0x6120#16
def ST_DMA_CQ_TIMEOUT : Status := 0x8120#16

/-! Chapter 13, R430 -/

def ST_BAR_NOT_MEMBER : Status := 0x1130#16
def ST_SO_OVERFLOW : Status := 0x2130#16
def ST_SO_UNDERFLOW : Status := 0x2131#16
def ST_SO_FREED : Status := 0x2132#16
def ST_ISO_SYNC : Status := 0x6130#16

/-! Chapter 14, R467 -/

def ST_SRV_CMD_FMT : Status := 0x1140#16
def ST_SRV_MODEL_FMT : Status := 0x1141#16
def ST_SRV_LAUNCH_Q : Status := 0x1142#16
def ST_SRV_QUOTA : Status := 0x2140#16
def ST_SPILL_FULL_ABORT : Status := 0x2141#16
def ST_ISO_MODEL : Status := 0x6140#16
def ST_PREEMPT_TIMEOUT : Status := 0x8140#16
def ST_SRV_STATE : Status := 0xA140#16
def ST_SRV_INDEX : Status := 0xA141#16
def ST_SRV_MODEL : Status := 0xA142#16
def ST_SRV_CREDIT : Status := 0xA143#16
def ST_SRV_RING_ERR : Status := 0xA144#16
def ST_SEQ_TTL_EXPIRED : Status := 0xA145#16
def ST_TENANT_SLOWDOWN : Status := 0xA146#16
def ST_PREEMPTED : Status := 0xA147#16

/-! Chapter 15, R490 -/

def ST_KV_GEOM_FMT : Status := 0x1150#16
def ST_KV_PT_FMT : Status := 0x1151#16
def ST_KV_POS : Status := 0x1152#16
def ST_KV_APPEND_FMT : Status := 0x1153#16
def ST_KV_NO_PAGE : Status := 0x1154#16
def ST_KV_POOL_FULL : Status := 0x2150#16
def ST_KV_LIST_FULL : Status := 0x2151#16
def ST_KV_PT_FULL : Status := 0x2152#16
def ST_KV_PARK_FULL : Status := 0x2153#16
def ST_KV_MOVE_UE : Status := 0x3150#16

/-! Chapter 16, R526 -/

def ST_FAB_HARBOUR : Status := 0x1160#16
def ST_FAB_BERTH_TABLE : Status := 0x1161#16
def ST_FAB_NO_ROUTE : Status := 0x4160#16
def ST_FAB_PORT_DOWN : Status := 0x4161#16
def ST_FAB_RETRAIN : Status := 0x4162#16
def ST_FAB_LANE_DEGRADED : Status := 0x4163#16
def ST_FAB_SERIAL_DUP : Status := 0x4164#16
def ST_FAB_BERTH_CONFLICT : Status := 0x4165#16
def ST_FAB_UNASSIGNED : Status := 0x4166#16
def ST_FAB_ROUTE_PARTIAL : Status := 0x4167#16
def ST_FAB_PEER_VERSION : Status := 0x4168#16
def ST_FAB_BAD_PACKET : Status := 0x4169#16
def ST_TWIN_LOST : Status := 0x416A#16
def ST_TWIN_FENCED : Status := 0x416B#16
def ST_TWIN_TAKEOVER : Status := 0x416C#16
def ST_TWIN_MISPAIR : Status := 0x416D#16
def ST_FAB_UNLICENSED : Status := 0x6160#16
def ST_FAB_REQ_TIMEOUT : Status := 0x8160#16
def ST_FAB_TRAIN_TIMEOUT : Status := 0x8161#16

/-! Chapter 17, R556 -/

def ST_OK : Status := 0x0000#16
def ST_TILE_FAILED : Status := 0x2170#16
def ST_TILE_REPAIRED : Status := 0x2171#16
def ST_FW_RES_UE : Status := 0x3170#16
def ST_INCIDENT : Status := 0x4170#16
def ST_REPORT_DROPPED : Status := 0x4171#16
def ST_LOG_FULL : Status := 0x9170#16
def ST_REPLAY_INPUT_MISMATCH : Status := 0x9171#16
def ST_REPLAY_DIVERGED : Status := 0x9172#16
def ST_REPLAY_END : Status := 0x9173#16
def ST_REPLAY_CONFIG : Status := 0x9174#16
def ST_LOG_NOT_QUIESCENT : Status := 0x9175#16
def ST_MAN_ENTRY_LOST : Status := 0xA170#16

/-! Chapter 18, R590 -/

def ST_MBX_FMT : Status := 0x1180#16
def ST_MBX_CMD : Status := 0x1181#16
def ST_MBX_ARG : Status := 0x1182#16
def ST_MBX_QUOTA : Status := 0x2180#16
def ST_SO_NOT_READY : Status := 0x2181#16
def ST_ISO_PRIV : Status := 0x6180#16
def ST_ISO_TENANT : Status := 0x6181#16
def ST_ISO_DOORBELL : Status := 0x6182#16
def ST_GRANT_RESERVED : Status := 0x6183#16
def ST_LIC_TENANTS : Status := 0x6184#16
def ST_MBX_BUSY : Status := 0x7180#16
def ST_MBX_VERSION : Status := 0x7181#16
def ST_MBX_NO_SESSION : Status := 0x7182#16
def ST_MBX_NO_FW : Status := 0x7183#16
def ST_MBX_TIMEOUT : Status := 0x8180#16

/-! Chapter 19, R611 -/

def ST_FW_IMAGE_FMT : Status := 0x1190#16
def ST_LIC_FMT : Status := 0x1191#16
def ST_FW_DUMP_SIZE : Status := 0x2190#16
def ST_FW_SIGNATURE : Status := 0x6190#16
def ST_FW_ROLLBACK : Status := 0x6191#16
def ST_LIC_SIGNATURE : Status := 0x6192#16
def ST_LIC_SERIAL : Status := 0x6193#16
def ST_FW_STATE : Status := 0x7190#16
def ST_FW_HANDOVER : Status := 0x7191#16
def ST_FW_CORE_STOPPED : Status := 0x7192#16
def ST_FW_UPDATE_ROLLBACK : Status := 0x7193#16
def ST_FW_UPDATED : Status := 0x7194#16
def ST_FW_SEG_CRC : Status := 0x7195#16
def ST_FW_START_TIMEOUT : Status := 0x8190#16

/-! Chapter 20, R638 -/

def ST_THM_WARN : Status := 0x5200#16
def ST_THM_THROTTLE : Status := 0x5201#16
def ST_THM_BACKSTOP : Status := 0x5202#16
def ST_THM_SHUTDOWN : Status := 0x5203#16
def ST_THM_RESTART : Status := 0x5204#16
def ST_PWR_LIMIT_HW : Status := 0x5205#16
def ST_PWR_INPUT_CURRENT : Status := 0x5206#16
def ST_HS_FAULT : Status := 0x5207#16
def ST_HS_LATCHED : Status := 0x5208#16
def ST_VIN_RANGE : Status := 0x5209#16
def ST_VALVE_STUCK : Status := 0x520A#16
def ST_COOL_SENSOR : Status := 0x520B#16

/-! Chapter 21, R659 -/

def ST_CFG_RANGE : Status := 0x1210#16
def ST_RST_BLOCK_BUSY : Status := 0x2210#16
def ST_RST_BLOCK_ISOLATED : Status := 0x2211#16
def ST_RESET_CAUSE : Status := 0x5210#16
def ST_RAIL_FAULT : Status := 0x5211#16
def ST_WAKE_FAILED : Status := 0x5212#16
def ST_BRINGUP_TIMEOUT : Status := 0x8210#16

/-! Chapter 22, R680 -/

def ST_TRC_SINK_FMT : Status := 0x1220#16
def ST_TRC_NO_SINK : Status := 0x2220#16
def ST_TRC_ACTIVE : Status := 0x2221#16
def ST_EVT_OVERFLOW : Status := 0x2222#16

/-! Chapter 23, R694 -/

def ST_I3C_FMT : Status := 0x1230#16
def ST_I3C_NO_MAIN : Status := 0x7230#16

/-- Class of a status (17 R527). -/
def statusClass (s : Status) : Nat := s.toNat / 4096

end Sys2Proof.Machine
end

