-- ==== Sys2Proof/Machine/Ops.lean ====
section
/-! DEFINITION. The shared operations on the state: reaching the tables of
units, time, free values, counters, trace records, and raising events. -/

namespace Sys2Proof.Machine

/-! ### Units -/

def State.quay (s : State) (q : Nat) : Quay := Table.getD s.quays q Quay.reset
def State.setQuay (s : State) (q : Nat) (x : Quay) : State := { s with quays := Table.put s.quays q x }
def State.updQuay (s : State) (q : Nat) (f : Quay → Quay) : State := s.setQuay q (f (s.quay q))
def State.updPace (s : State) (q : Nat) (f : Pace → Pace) : State :=
  s.updQuay q (fun x => { x with pace := f x.pace })

def State.tile (s : State) (t : Nat) : Tile := Table.getD s.tiles t Tile.reset
def State.setTile (s : State) (t : Nat) (x : Tile) : State := { s with tiles := Table.put s.tiles t x }
def State.updTile (s : State) (t : Nat) (f : Tile → Tile) : State := s.setTile t (f (s.tile t))

def State.func (s : State) (f : Nat) : Func := Table.getD s.hif.funcs f Func.reset
def State.setFunc (s : State) (f : Nat) (x : Func) : State :=
  { s with hif := { s.hif with funcs := Table.put s.hif.funcs f x } }
def State.updFunc (s : State) (f : Nat) (g : Func → Func) : State := s.setFunc f (g (s.func f))

def State.so (s : State) (n : Nat) : SyncObj := Table.getD s.sync.objs n SyncObj.reset
def State.setSo (s : State) (n : Nat) (x : SyncObj) : State :=
  { s with sync := { s.sync with objs := Table.put s.sync.objs n x } }

def State.bar (s : State) (g : Nat) : Barrier := Table.getD s.sync.bars g Barrier.reset
def State.setBar (s : State) (g : Nat) (x : Barrier) : State :=
  { s with sync := { s.sync with bars := Table.put s.sync.bars g x } }

/-! ### Time and free values -/

/-- An event of the time base happens at tick `t`: the time base has advanced
to it. It never decreases (02 R80). -/
def State.at (s : State) (t : Nat) : State := { s with time := max s.time t }

/-- Ticks of the 25 MHz time base in a microsecond and in a millisecond. -/
def usTicks (n : Nat) : Nat := n * 25
def msTicks (n : Nat) : Nat := n * 25000

/-- The next free value, and the state after it is taken. -/
def State.freshLong (s : State) : BitVec 64 × State :=
  (Config.freeValue s.free, { s with free := s.free + 1 })

/-- `n` free bytes. -/
def freeBytes : Nat → Nat → List Byte
  | _, 0 => []
  | k, n + 1 => (Config.freeValue k).truncate 8 :: freeBytes (k + 1) n

/-- Take `n` free bytes. -/
def State.freshBytes (s : State) (n : Nat) : List Byte × State :=
  (freeBytes s.free n, { s with free := s.free + n })

/-! ### Counters (22 R676) -/

/-- Add to counter `i` of quay `q`. -/
def State.cntQuay (s : State) (q i n : Nat) : State :=
  { s with trace := { s.trace with
      quayCnt := Table.upd s.trace.quayCnt (q * 64 + i) 0 (· + BitVec.ofNat 64 n) } }

/-- Add to module counter `i`. -/
def State.cntMod (s : State) (i n : Nat) : State :=
  { s with trace := { s.trace with
      modCnt := Table.upd s.trace.modCnt i 0 (· + BitVec.ofNat 64 n) } }

/-- Add to counter `i` (0 TEN_TILE_CYC, 1 TEN_NODES) of a tenant. -/
def State.cntTen (s : State) (tenant i n : Nat) : State :=
  { s with trace := { s.trace with
      tenCnt := Table.upd s.trace.tenCnt (tenant * 2 + i) 0 (· + BitVec.ofNat 64 n) } }

/-- Is counter `i` of a quay one of tile-cycles, waits, accesses, bytes and limits, whose
count follows the self-timed pace and the arbitration of the quay? -/
def quayTimed (i : Nat) : Bool :=
  i == 0 || (decide (8 ≤ i) && decide (i ≤ 22)) || (decide (24 ≤ i) && decide (i ≤ 35)) || i == 44 || i == 53
    || i == 60 || i == 61

/-- Is module counter `i` one of alarms and events on the observation network? -/
def modTimed (i : Nat) : Bool := i == 96 || i == 97

/-! ### Firmware cores (19 R591 to R593) -/

/-- Does firmware core `c` run? -/
def State.coreRuns (s : State) (c : Nat) : Bool :=
  (s.fw.state == 2 || s.fw.state == 3 || s.fw.state == 4) && !s.fw.stopped.getLsbD c
    && !s.fw.switching.getLsbD c

/-! ### Spares: which physical tile a logical tile stands for (17 R535) -/

/-- The physical tile a logical tile of a quay resolves to: the highest spare in
use, not failed, that replaces its own physical tile, else that tile. -/
def Quay.physical (q : Quay) (t : Nat) : Nat :=
  let ok (n : Nat) : Bool :=
    let m := Table.getD q.spares n SpareMap.reset
    m.inUse && m.replaced.toNat == t && !bit q.failed.toNat (64 + n)
  if ok 3 then 67 else if ok 2 then 66 else if ok 1 then 65 else if ok 0 then 64 else t

/-! ### Trace records (22 R661 to R670) -/

/-- Is the module replaying (17 R553)? -/
def State.replaying (s : State) : Bool := s.log.replayFrom.isSome

/-- A trace record (22 R662). -/
def traceRec (ty : Nat) (phys replay : Bool) (kind index tag time data : Nat) : BitVec 256 :=
  BitVec.ofNat 256 (ty + 2 ^ 8 * (b2n phys + 2 * b2n replay) + 2 ^ 16 * (index % 2 ^ 13 + 2 ^ 13 * kind)
    + 2 ^ 32 * (tag % 2 ^ 32) + 2 ^ 64 * (time % 2 ^ 64) + 2 ^ 128 * (data % 2 ^ 128))

def State.unit (s : State) (u : Nat) : TraceUnit := Table.getD s.trace.units u TraceUnit.reset
def State.setUnit (s : State) (u : Nat) (x : TraceUnit) : State :=
  { s with trace := { s.trace with units := Table.put s.trace.units u x } }

/-- The DROP record a unit owes. -/
def TraceUnit.dropRec (x : TraceUnit) (replay : Bool) (kind index now : Nat) : BitVec 256 :=
  traceRec 0x30 false replay kind index 0 now (x.dropCount + 2 ^ 64 * x.dropTime)

/-- A unit makes an ordinary record: it is held, or discarded and counted while
254 ordinary records are held or the unit is discarding (22 R670). -/
def TraceUnit.addOrdinary (x : TraceUnit) (r : BitVec 256) (now : Nat) : TraceUnit :=
  if x.discarding || decide (254 ≤ x.ordinary) then
    { x with discarding := true, dropCount := x.dropCount + 1,
             dropTime := if x.dropCount = 0 then now else x.dropTime, lost := x.lost + 1 }
  else { x with buffer := x.buffer ++ [r], ordinary := x.ordinary + 1 }

/-- Make an ordinary trace record in unit `u` if the unit is enabled and its
MODE bit `m` is set (22 R665). -/
def State.traceAdd (s : State) (u m : Nat) (r : BitVec 256) : State :=
  let x := s.unit u
  if x.en && bit x.mode.toNat m then s.setUnit u (x.addOrdinary r s.time) else s

/-- A record of a tile, named as MAP_MODE says (22 R664). -/
def State.traceTile (s : State) (t m ty tag data : Nat) : State :=
  let q := t / 64
  let index := if s.mapMode then q * 68 + (s.quay q).physical (t % 64) else t
  s.traceAdd q m (traceRec ty s.mapMode s.replaying 1 index tag s.time data)

/-- A record of the central unit CT. -/
def State.traceCentral (s : State) (m ty kind index tag data : Nat) : State :=
  s.traceAdd 64 m (traceRec ty false s.replaying kind index tag s.time data)

/-! ### Events and alarms (17 R529 to R532, 22 R671, R672) -/

/-- Statuses raised as alarms (17 R530). ST_QUAY_OUT_OF_SERVICE is an alarm
where it is raised as an event, which is when a quay goes out of service. -/
def isAlarm (st : Status) : Bool :=
  [ST_WEIGHT_LOST, ST_T1_PC_FENCED, ST_T2_CH_FENCED, ST_UE_HANDLING_DROPPED,
   ST_QUAY_OUT_OF_SERVICE, ST_REFCLK_LOST, ST_TWIN_FENCED, ST_TWIN_TAKEOVER, ST_FW_RES_UE,
   ST_INCIDENT, ST_THM_SHUTDOWN, ST_PWR_LIMIT_HW, ST_PWR_INPUT_CURRENT, ST_HS_LATCHED].contains st

/-- SEV of an event (17 R530). -/
def eventSev (st : Status) : BitVec 2 :=
  if isAlarm st then 3 else if statusClass st = 3 ∨ statusClass st = 9 then 2 else 1

/-- The entry an occurrence makes: to the PF's ring, and to the ring of its
tenant unless the event is one of isolation (17 R532). -/
def State.newEntry (s : State) (st : Status) (kind unit : Nat) (tenant : Option Nat) (arg : Nat) :
    EventEntry :=
  { record := { sev := eventSev st, coalesced := false, replay := s.replaying, status := st,
                unitKind := BitVec.ofNat 8 kind, unit := BitVec.ofNat 16 unit, tenant := tenant,
                count := 1, time := s.time, arg := BitVec.ofNat 64 arg }
    toPf := true
    toTenant := if statusClass st = 6 then none else
      match tenant with
      | some 0 => none
      | x => x
    written := false, alarm := isAlarm st, reserved := false, mirrorNo := 0 }

/-- One more occurrence in an entry: COUNT rises, COALESCED is set, TIME and ARG
stay (22 R671). -/
def EventEntry.join (e : EventEntry) : EventEntry :=
  { e with record := { e.record with count := satAdd 32 e.record.count 1, coalesced := true } }

/-- Equal signatures for events (22 R671 rule 1). -/
def EventEntry.sameEvent (a b : EventEntry) : Bool :=
  !a.written && !a.reserved && a.alarm == b.alarm && a.record.status == b.record.status
    && a.record.unitKind == b.record.unitKind && a.record.unit == b.record.unit
    && a.record.tenant == b.record.tenant && a.toPf == b.toPf && a.toTenant == b.toTenant

/-- Equal signatures for alarms (22 R672 rule 1). -/
def EventEntry.sameAlarm (a b : EventEntry) : Bool :=
  !a.written && a.alarm && a.record.status == b.record.status
    && a.record.unitKind == b.record.unitKind && a.record.unit == b.record.unit

/-- Change the first entry that a test picks. -/
def changeFirst {α : Type} (p : α → Bool) (f : α → α) : List α → List α
  | [] => []
  | x :: r => if p x then f x :: r else x :: changeFirst p f r

/-- Pending entries of the event store and of the alarm store. -/
def EventStores.evtUsed (e : EventStores) : Nat := (e.entries.filter (fun x => !x.alarm)).length
def EventStores.almUsed (e : EventStores) : Nat := (e.entries.filter (fun x => x.alarm)).length

/-- Write the mirrored record of an alarm entry, unless a newer one has its
slot (22 R672, R679). -/
def EventStores.remirror (e : EventStores) (x : EventEntry) : EventStores :=
  if x.alarm ∧ e.alarmCnt.toNat < x.mirrorNo + 16 then
    { e with mirror := Table.put e.mirror ((x.mirrorNo - 1) % 16) x.record }
  else e

/-- Put an alarm into a free entry, mirroring it. -/
def EventStores.takeAlarm (e : EventStores) (x : EventEntry) : EventStores :=
  let n := e.alarmCnt + 1
  let x := { x with mirrorNo := n.toNat }
  { e with entries := e.entries ++ [x], alarmCnt := n,
           mirror := Table.put e.mirror ((n.toNat - 1) % 16) x.record }

/-- Join an alarm to the first entry a test picks, and mirror it again. -/
def EventStores.joinAlarm (e : EventStores) (p : EventEntry → Bool) (f : EventEntry → EventEntry) :
    EventStores :=
  match e.entries.find? p with
  | some x => EventStores.remirror { e with entries := changeFirst p f e.entries } (f x)
  | none => e

/-- Place an alarm (22 R672 rules 1 to 4). -/
def EventStores.placeAlarm (e : EventStores) (x : EventEntry) : EventStores :=
  if e.entries.any (fun y => y.sameAlarm x) then
    e.joinAlarm (fun y => y.sameAlarm x) EventEntry.join
  else if e.almUsed < 256 then e.takeAlarm x
  else
    let byStatus := fun (y : EventEntry) => !y.written && y.alarm && y.record.status == x.record.status
    if e.entries.any byStatus then
      e.joinAlarm byStatus (fun y =>
        let z := y.join
        { z with record := { z.record with unitKind := 0, unit := 0xFFFF#16 } })
    else if e.lane.any (fun y => y.sameAlarm x) then
      { e with lane := changeFirst (fun y => y.sameAlarm x) EventEntry.join e.lane }
    else { e with lane := e.lane ++ [x] }

/-- The reserved entry of a class, with one folded occurrence (22 R671 rule 3). -/
def overflowEntry (x : EventEntry) : EventEntry :=
  { record := { x.record with
      sev := 1, coalesced := true, status := ST_EVT_OVERFLOW, unitKind := 0,
      unit := BitVec.ofNat 16 (statusClass x.record.status), tenant := none, count := 1,
      arg := BitVec.ofNat 64 x.record.status.toNat }
    toPf := true, toTenant := none, written := false, alarm := false, reserved := true,
    mirrorNo := 0 }

/-- Place an event (22 R671 rules 1 to 3). -/
def EventStores.placeEvent (e : EventStores) (x : EventEntry) : EventStores :=
  if e.entries.any (fun y => y.sameEvent x) then
    { e with entries := changeFirst (fun y => y.sameEvent x) EventEntry.join e.entries }
  else if (e.entries.filter (fun y => !y.alarm && !y.reserved)).length < 4080 then
    { e with entries := e.entries ++ [x] }
  else
    let cls := fun (y : EventEntry) => y.reserved && !y.written &&
      y.record.unit == BitVec.ofNat 16 (statusClass x.record.status)
    if e.entries.any cls then { e with entries := changeFirst cls EventEntry.join e.entries }
    else { e with entries := e.entries ++ [overflowEntry x] }

/-- Put the oldest alarms of the lane into entries that have become free. -/
def EventStores.drainLane (e : EventStores) : EventStores :=
  match e.lane with
  | [] => e
  | x :: r => if e.almUsed < 256 then EventStores.placeAlarm { e with lane := r } x else e

/-- Place an occurrence, and count it as raised, coalesced or folded (22 R671, R672,
R676). -/
def State.placeEntry (s : State) (x : EventEntry) : State :=
  let e := s.events
  if x.alarm then
    let e' := e.placeAlarm x
    let joined := e'.entries.length == e.entries.length && e'.lane.length == e.lane.length
    (({ s with events := e' }).cntMod 102 1).cntMod 103 (b2n joined)
  else
    let joined := e.entries.any (fun y => y.sameEvent x)
    let full := decide (4080 ≤ (e.entries.filter (fun y => !y.alarm && !y.reserved)).length)
    ((({ s with events := e.placeEvent x }).cntMod 99 1).cntMod 100 (b2n joined)).cntMod 101 (b2n (!joined && full))

/-- Raise an event or an alarm: one record, by the rules of 17 R529 to R532 and
22 R671 and R672. -/
def State.raise (s : State) (st : Status) (kind unit : Nat) (tenant : Option Nat) (arg : Nat) :
    State :=
  s.placeEntry (s.newEntry st kind unit tenant arg)

/-- An event with no tenant. -/
def State.raiseUnit (s : State) (st : Status) (kind unit arg : Nat) : State :=
  s.raise st kind unit none arg

/-- Record an isolation event: the address or object refused, and the offending
tenant (17 R531). -/
def State.isolation (s : State) (st : Status) (kind unit tenant arg : Nat) : State :=
  s.raise st kind unit (some tenant) arg

/-- Repeat a change of state. -/
def iter {α : Type} (f : α → α) : Nat → α → α
  | 0, x => x
  | n + 1, x => iter f n (f x)

end Sys2Proof.Machine
end

