-- ==== Sys2Proof/Machine/LogOps.lean ====
section
/-! DEFINITION. Recording in the logbook: records in its tier-2 area, decisions
and arbitrations at the recorded points, input digests, and what replay demands
of a point (17 R545 to R555). -/

namespace Sys2Proof.Machine

/-! ### CRC-64 and firmware areas -/

/-- One more run of bytes through the CRC-64 of the NVM Express command set
(12 R381), from the CRC of the bytes before. -/
def crc64Step (crc : Nat) (bs : List Byte) : Nat :=
  crcReflected 64 0x9A6C9329AC4BC9B5 (crc ^^^ 0xFFFFFFFFFFFFFFFF) bs ^^^ 0xFFFFFFFFFFFFFFFF

/-- CRC-64 of the NVM Express command set (12 R381). -/
def crc64 (bs : List Byte) : Nat := crc64Step 0 bs

/-- Base and size of a firmware reservation, by MEM_RESV kind (18 R587). -/
def State.resv (s : State) (kind : Nat) : Nat × Nat := Table.getD s.tiers.resv kind (0, 0)

/-- Write bytes of a firmware reservation whose atoms are `u` bytes long. An
atom that holds no good data is written whole, its other bytes zero. -/
def State.resvWrite (s : State) (u a : Nat) (bs : List Byte) : State :=
  let first := a / u
  let n := if bs.isEmpty then 0 else (a + bs.length - 1) / u + 1 - first
  let m := (List.range n).foldl (fun m i =>
    let base := (first + i) * u
    if (Mem.readBytes m base u).isSome then m else Mem.fillZero m base u) s.mem
  { s with mem := Mem.writeBytes m a bs }

/-! ### Records -/

/-- Slots of the record ring. -/
def State.logSlots (s : State) : Nat := ((s.resv 6).2 - 4096) / 16

/-- Rewrite the fields of the logbook header that change. -/
def State.logHeader (s : State) : State :=
  let base := (s.resv 6).1
  let l := s.log
  let s := s.resvWrite 128 (base + 0x03) (bytesOfNat 1 (b2n l.wrap + 2 * b2n l.recording))
  s.resvWrite 128 (base + 0x20)
    (bytesOfNat 8 l.first ++ bytesOfNat 8 l.nextRec ++ bytesOfNat 8 l.lastMark
      ++ bytesOfNat 4 l.gaps.toNat)

/-- A full ring: the oldest records give way up to the oldest quiescent MARK
still held, or recording stops (17 R551). -/
def State.logFull (s : State) : State :=
  let l := s.log
  let keep := l.marks.filter (fun m => decide (l.first < m))
  if l.wrap ∧ !keep.isEmpty then
    ({ s with log := { l with first := keep.foldl min l.nextRec, marks := keep } }).logHeader
  else (({ s with log := { l with recording := false } }).logHeader).raise ST_LOG_FULL 0 0 none 0

/-- Is the ring full? -/
def State.logIsFull (s : State) : Bool :=
  s.log.recording && decide (s.logSlots ≤ s.log.nextRec - s.log.first)

/-- Write one 16-byte record. -/
def State.logPut (s : State) (rcd : Nat) : State :=
  let s := if s.logIsFull then s.logFull else s
  if !s.log.recording then s
  else
    let a := (s.resv 6).1 + 4096 + 16 * (s.log.nextRec % max 1 s.logSlots)
    (({ (s.resvWrite 128 a (bytesOfNat 16 rcd)) with
        log := { s.log with nextRec := s.log.nextRec + 1 } })).logHeader

/-! ### Points -/

def LogPoint.fresh : LogPoint :=
  { pseq := 0, iseq := 0, digest := 0, runWinner := none, runStart := 0, runLen := 0 }

def State.point (s : State) (p : Nat) : LogPoint := Table.getD s.log.points p LogPoint.fresh
def State.setPoint (s : State) (p : Nat) (x : LogPoint) : State :=
  { s with log := { s.log with points := Table.put s.log.points p x } }

/-- Does the machine count decisions: recording, or replaying? -/
def State.logging (s : State) : Bool := s.log.recording || s.replaying

/-- Write the ARB record of a point's running run (17 R549). -/
def State.logFlush (s : State) (p : Nat) : State :=
  let x := s.point p
  match x.runWinner with
  | none => s
  | some w =>
    (s.setPoint p { x with runWinner := none, runLen := 0 }).logPut
      (1 + 2 ^ 4 * p + 2 ^ 20 * (x.runStart % 2 ^ 44) + 2 ^ 64 * w.toNat + 2 ^ 80 * (x.runLen - 1))

/-- An arbitration at a point, won by `winner`. -/
def State.logArb (s : State) (p : Nat) (winner : BitVec 16) : State :=
  if !s.logging then s
  else
    let x := s.point p
    if x.runWinner = some winner ∧ x.runLen < 65536 then
      s.setPoint p { x with runLen := x.runLen + 1, pseq := x.pseq + 1 }
    else
      let s := s.logFlush p
      let x := s.point p
      s.setPoint p { x with runWinner := some winner, runStart := x.pseq, runLen := 1,
                            pseq := x.pseq + 1 }

/-- A decision at a point, 64 bits to a record (17 R549). -/
def State.logDecision (s : State) (p : Nat) (values : List Nat) : State :=
  if !s.logging then s
  else
    let n := (s.point p).pseq
    let s := values.foldl (fun s v =>
      s.logPut (3 + 2 ^ 4 * p + 2 ^ 20 * (n % 2 ^ 44) + 2 ^ 64 * (v % 2 ^ 64))) s
    s.setPoint p { s.point p with pseq := n + 1 }

/-- A scalar-core read of a counter or a register: its value (17 R545). -/
def State.logRead (s : State) (tile v : Nat) : State :=
  if !s.logging then s
  else
    let p := 0x1000 + tile
    let n := (s.point p).pseq
    (s.logPut (6 + 2 ^ 4 * p + 2 ^ 20 * (n % 2 ^ 44) + 2 ^ 64 * (v % 2 ^ 32))).setPoint p
      { s.point p with pseq := n + 1 }

/-- Write the DIGEST record of an input point. -/
def State.logDigest (s : State) (p : Nat) : State :=
  let x := s.point p
  s.logPut (2 + 2 ^ 4 * p + 2 ^ 20 * (x.iseq % 2 ^ 44) + 2 ^ 64 * x.digest.toNat)

/-- An input arrives at an input point: its bytes enter the running digest,
written after every 4,096th (17 R550). `command` marks a doorbell or a mailbox
command, after which it is written too. -/
def State.logInput (s : State) (p : Nat) (bs : List Byte) (command : Bool) : State :=
  if !s.logging then s
  else
    let x := s.point p
    let s := s.setPoint p { x with
      iseq := x.iseq + 1, digest := BitVec.ofNat 64 (crc64Step x.digest.toNat bs) }
    if command ∨ (x.iseq + 1) % 4096 = 0 then s.logDigest p else s

/-! ### Replay (17 R553, R554) -/

/-- Record n of the logbook, if it can be read. -/
def State.logRecord (s : State) (n : Nat) : Option Nat :=
  (Mem.readBytes s.mem ((s.resv 6).1 + 4096 + 16 * (n % max 1 s.logSlots)) 16).map natOfBytes

/-- The recorded winner of a point for its next decision. -/
def State.replayWinner (s : State) (p : Nat) : Option Nat :=
  match s.log.replayFrom with
  | none => none
  | some from_ =>
    let n := (s.point p).pseq
    (List.range (s.log.nextRec - from_)).findSome? (fun i =>
      match s.logRecord (from_ + i) with
      | some r =>
        if bits r 0 4 = 1 ∧ bits r 4 16 = p ∧ bits r 20 44 ≤ n ∧ n ≤ bits r 20 44 + bits r 80 16
        then some (bits r 64 16) else none
      | none => none)

/-- The recorded decision of a point for its next decision: its first word. -/
def State.replayDecision (s : State) (p : Nat) : Option Nat :=
  match s.log.replayFrom with
  | none => none
  | some from_ =>
    let n := (s.point p).pseq
    (List.range (s.log.nextRec - from_)).findSome? (fun i =>
      match s.logRecord (from_ + i) with
      | some r =>
        if (bits r 0 4 = 3 ∨ bits r 0 4 = 6) ∧ bits r 4 16 = p ∧ bits r 20 44 = n
        then some (bits r 64 64) else none
      | none => none)

/-- May a requester be granted at a point now? In replay only the recorded
winner may; all points are held once replay has stopped. -/
def State.pointGrants (s : State) (p : Nat) (winner : BitVec 16) : Bool :=
  if s.log.held then false
  else if s.replaying then s.replayWinner p == some winner.toNat
  else true

/-- May a decision be taken at a point now? In replay only the recorded one. -/
def State.decisionAllowed (s : State) (p v : Nat) : Bool :=
  if s.log.held then false
  else if s.replaying then s.replayDecision p == some (v % 2 ^ 64)
  else true

end Sys2Proof.Machine
end

