-- ==== Sys2Proof/Machine/Access.lean ====
section
/-! DEFINITION. The local address map, the tier maps, and the rights of a tenant (01
R45 to R50, 10 R321 to R327, 18 R564, 21 R646). -/

namespace Sys2Proof.Machine

/-! ### The map -/

/-- Base of the tile windows and their stride per tile (01 R46). -/
def tileWindows : Nat := 0x400000000000
def registerBase : Nat := 0x7F0000000000
def tier2Base : Nat := 0x010000000000

/-- Base of the window of tile q * 64 + t. -/
def tileBase (t : Nat) : Nat := tileWindows + t / 64 * 0x1000000 + t % 64 * 0x40000

/-- Pseudo-channels of a stack that are mapped out (10 R339). -/
def State.pcOut (s : State) (stack : Nat) : Nat := (Table.getD s.tiers.pcOut stack 0).toNat

/-- P_sigma: working pseudo-channels of a stack (10 R321). -/
def State.pcCount (s : State) (stack : Nat) : Nat := 64 - popcount 64 (s.pcOut stack)

/-- P_total. -/
def State.pcTotal (s : State) : Nat := ((List.range 12).map s.pcCount).sum

/-- Tier-2 channels in service at the last bring-up. -/
def State.chList (s : State) : List Nat :=
  (List.range 16).filter (fun n => s.tiers.chIn.getLsbD n)

/-- First address beyond tier 1 (01 R47). -/
def State.t1Top (s : State) : Nat := if s.tiers.t1Up then s.pcTotal * 2 ^ 30 else 0

/-- First address beyond tier 2: by the channels in service and the licence
(01 R48, 10 R327). -/
def State.t2Top (s : State) : Nat :=
  if s.tiers.t2Up then
    tier2Base + min (s.chList.length * 2 ^ 36) (if s.licences.getLsbD 1 then 2 ^ 40 else 2 ^ 38)
  else 0

/-- The register blocks (01 R51). -/
inductive RegBlock where
  | pace | quay | tile | stk | t2 | port | fab | dma | sync | man | pil | trc | pwr | thm | rst | mbx
  deriving DecidableEq, Repr

/-- Base, size in bytes of one instance, and number of instances of each block. -/
def regBlocks : List (RegBlock × Nat × Nat × Nat) :=
  [(.pace, 0x7F0000000000, 0x1000, 64), (.quay, 0x7F0000100000, 0x10000, 64),
   (.tile, 0x7F0001000000, 0x1000, 4096), (.stk, 0x7F0002000000, 0x100000, 12),
   (.t2, 0x7F0003000000, 0x10000, 16), (.port, 0x7F0004000000, 0x10000, 16),
   (.fab, 0x7F0004100000, 0x100000, 1), (.dma, 0x7F0005000000, 0x100000, 1),
   (.sync, 0x7F0006000000, 0x200000, 1), (.man, 0x7F0007000000, 0x10000, 1),
   (.pil, 0x7F0007100000, 0x10000, 1), (.trc, 0x7F0008000000, 0x10000, 64),
   (.pwr, 0x7F0009000000, 0x10000, 1), (.thm, 0x7F0009010000, 0x10000, 1),
   (.rst, 0x7F0009020000, 0x10000, 1), (.mbx, 0x7F000A000000, 0x1000, 1024)]

/-- The block, the instance and the offset of an address of the register region;
none outside every block. Tiles follow at quay × 0x40000 + tile × 0x1000. -/
def regAt (a : Nat) : Option (RegBlock × Nat × Nat) :=
  match regBlocks.find? (fun b => decide (b.2.1 ≤ a) && decide (a < b.2.1 + b.2.2.1 * b.2.2.2)) with
  | some (k, base, size, _) => some (k, (a - base) / size, (a - base) % size)
  | none => none

/-- The parts of the local map (01 R45, R46). -/
inductive Region where
  | tier1
  | tier2
  /-- scratchpad of a tile -/
  | spad (tile : Nat)
  /-- scalar data memory of a tile -/
  | sdm (tile : Nat)
  | register
  | unmapped
  deriving DecidableEq, Repr

/-- The region an address lies in (01 R45 to R49). -/
def State.region (s : State) (a : Nat) : Region :=
  if a < s.t1Top then .tier1
  else if tier2Base ≤ a ∧ a < s.t2Top then .tier2
  else if tileWindows ≤ a ∧ a < tileWindows + 0x40000000 then
    let o := a - tileWindows
    let t := o / 0x1000000 * 64 + o / 0x40000 % 64
    if o % 0x40000 < 0x30000 then .spad t
    else if o % 0x40000 < 0x38000 then .sdm t else .unmapped
  else if (regAt a).isSome then .register
  else .unmapped

/-- The first address after `a` that lies in another region or another tile. -/
def State.regionEnd (s : State) (a : Nat) : Nat :=
  match s.region a with
  | .tier1 => s.t1Top
  | .tier2 => s.t2Top
  | .spad t => tileBase t + 0x30000
  | .sdm t => tileBase t + 0x38000
  | .register =>
    match regAt a with
    | some (_, _, o) =>
      match regBlocks.find? (fun b => decide (b.2.1 ≤ a) && decide (a < b.2.1 + b.2.2.1 * b.2.2.2)) with
      | some b => a - o + b.2.2.1
      | none => a + 1
    | none => a + 1
  | .unmapped => a + 1

/-- Bytes of one unit of integrity at an address: the tier-1 and tier-2 atoms,
the words of the scratchpad and of the scalar data memory (11 R349, R350). -/
def State.unitBytes (s : State) (a : Nat) : Nat :=
  match s.region a with
  | .tier1 => 64
  | .tier2 => 128
  | .spad _ => 8
  | .sdm _ => 4
  | _ => 1

/-! ### Tier-1 and tier-2 maps -/

/-- Z: size of the spread zone. -/
def State.spreadSize (s : State) : Nat := s.pcTotal * s.tiers.spread * 2 ^ 28

/-- BASE of a stack's zone. -/
def State.stackBase (s : State) (stack : Nat) : Nat :=
  s.spreadSize + ((List.range stack).map (fun k => s.pcCount k * (4 - s.tiers.spread) * 2 ^ 28)).sum

/-- Is a pseudo-channel in the map? -/
def State.pcWorks (s : State) (stack pc : Nat) : Bool := !bit (s.pcOut stack) pc

/-- SPREAD_LIST: working pseudo-channels by the key pc * 12 + stack. -/
def State.spreadList (s : State) : List (Nat × Nat) :=
  ((List.range 768).map (fun k => (k / 12, k % 12))).filter (fun p => s.pcWorks p.2 p.1)

/-- Entry w of SPREAD_LIST. -/
def State.spreadAt (s : State) (w : Nat) : Nat × Nat :=
  if s.pcTotal = 768 then (w / 12, w % 12) else (s.spreadList[w]?).getD (0, 0)

/-- PCLIST of a stack. -/
def State.pcList (s : State) (stack : Nat) : List Nat :=
  (List.range 64).filter (fun p => s.pcWorks stack p)

/-- Where an atom lies: memory unit (stack * 64 + pc, or 1024 + channel), bank
group, and offset in the bank group or in the channel. -/
structure MemLoc where
  unit : Nat
  bg : Nat
  off : Nat
  deriving DecidableEq, Repr

/-- The place of a tier-1 address (10 R322, R323). -/
def State.t1Loc (s : State) (a : Nat) : MemLoc :=
  if a < s.spreadSize then
    let c := a / 4096
    let (pc, stack) := s.spreadAt (c % s.pcTotal)
    let c2 := c / s.pcTotal
    { unit := stack * 64 + pc, bg := c2 % 16, off := c2 / 16 * 4096 + a % 4096 }
  else
    let stack := (((List.range 12).reverse).find? (fun k =>
      decide (s.stackBase k ≤ a) && decide (0 < s.pcCount k))).getD 0
    let p := s.pcCount stack
    let c := (a - s.stackBase stack) / 4096
    let c2 := c / p
    { unit := stack * 64 + ((s.pcList stack)[c % p]?).getD 0, bg := c2 % 16,
      off := s.tiers.spread * 2 ^ 24 + c2 / 16 * 4096 + a % 4096 }

/-- The place of a tier-2 address (10 R327). -/
def State.t2Loc (s : State) (a : Nat) : MemLoc :=
  let b := a - tier2Base
  let c := b / 4096
  let n := max 1 s.chList.length
  { unit := 1024 + ((s.chList)[c % n]?).getD 0, bg := 0, off := c / n * 4096 + b % 4096 }

/-- The place of a local address in the tiers. -/
def State.memLoc (s : State) (a : Nat) : Option MemLoc :=
  match s.region a with
  | .tier1 => some (s.t1Loc a)
  | .tier2 => some (s.t2Loc a)
  | _ => none

/-! ### Isolation of a block under reset (21 R646) -/

/-- Is the block of this code under reset? -/
def State.underReset (s : State) (blk : Nat) : Bool := s.bring.blkBusy && s.bring.blk.toNat == blk

/-- Block code of a memory unit. -/
def unitBlock (unit : Nat) : Nat := if unit < 1024 then 0x100 + unit / 64 else 0x200 + (unit - 1024)

/-- Does a range meet a stack or channel under reset? Chunks of 4 KiB lie in one
unit. -/
def State.isolated (s : State) (a n : Nat) : Bool :=
  s.bring.blkBusy && decide (0 < n) && (List.range ((a + n - 1) / 4096 + 1 - a / 4096)).any (fun k =>
    match s.memLoc (max a ((a / 4096 + k) * 4096)) with
    | some l => s.underReset (unitBlock l.unit)
    | none => false)

/-! ### Rights (01 R50, 18 R564) -/

/-- The tenant's grants. -/
def State.grants (s : State) (tenant : Nat) : List GrantPlace :=
  match Table.find s.hif.tenants tenant with
  | some t => t.grants.map Prod.snd
  | none => []

/-- Do a tenant's grants cover every byte from `a` up to `e`? -/
def coveredBy (gs : List GrantPlace) : Nat → Nat → Nat → Bool
  | 0, a, e => decide (e ≤ a)
  | fuel + 1, a, e =>
    if e ≤ a then true
    else
      match gs.find? (fun g => decide (g.base.toNat ≤ a) && decide (a < g.base.toNat + g.size.toNat)) with
      | some g => coveredBy gs fuel (g.base.toNat + g.size.toNat) e
      | none => false

/-- The firmware reservations a range overlaps, by kind. -/
def State.resvHit (s : State) (a n : Nat) : List Nat :=
  (s.tiers.resv.filter (fun r => decide (a < r.2.1 + r.2.2) && decide (r.2.1 < a + n))).map Prod.fst

/-- May the tenant make this access in the region of `a`? The range lies in one
region. T0 reads everything and writes everything but the firmware
reservations; of these it may write the logbook area while recording is off and
no replay runs. Numbers from 1,024 on stand for no tenant: nothing is forbidden. -/
def State.permitted (s : State) (tenant : Nat) (write : Bool) (a n : Nat) : Bool :=
  match s.region a with
  | .tier1 | .tier2 =>
    if 1024 ≤ tenant then true
    else if tenant = 0 then
      !write || (s.resvHit a n).all (fun k => k == 6 && !s.log.recording && s.log.replayFrom.isNone)
    else coveredBy (s.grants tenant) 65 a (a + n)
  | .spad t | .sdm t => tenant == 0 || decide (1024 ≤ tenant) || (s.tile t).owner == some tenant
  | .register => true
  | .unmapped => false

/-- The check of one piece of an access: unmapped, out of service, forbidden,
isolated, in that order. -/
def State.checkPiece (s : State) (tenant : Nat) (write : Bool) (a n : Nat) : Option Status :=
  match s.region a with
  | .unmapped => some ST_ADDR_UNMAPPED
  | .register => if n = 4 ∧ a % 4 = 0 then none else some ST_ADDR_ALIGN
  | .spad t | .sdm t =>
    if (s.quay (t / 64)).outOfService then some ST_QUAY_OUT_OF_SERVICE
    else if !s.permitted tenant write a n then some ST_ISO_ADDRESS
    else if s.underReset (t / 64) then some ST_RST_BLOCK_ISOLATED else none
  | _ =>
    if !s.permitted tenant write a n then some ST_ISO_ADDRESS
    else if s.isolated a n then some ST_RST_BLOCK_ISOLATED else none

/-- Check an access of `n` bytes, piece by piece over the regions it touches:
`none` is allowed (01 R49, R50). The first failing piece decides, an unmapped
one before a forbidden one. -/
def State.accessCheck (s : State) (tenant : Nat) (write : Bool) (a n : Nat) : Option Status :=
  let rec go : Nat → Nat → Nat → List Status
    | 0, _, _ => []
    | fuel + 1, a, n =>
      if n = 0 then []
      else
        let k := min n (s.regionEnd a - a)
        let rest := go fuel (a + k) (n - k)
        match s.checkPiece tenant write a k with
        | some e => e :: (if e = ST_ADDR_UNMAPPED then [] else rest)
        | none => rest
  let es := go (n / 0x8000 + 4) a n
  if es.contains ST_ADDR_UNMAPPED then some ST_ADDR_UNMAPPED else es.head?

/-- The source kind of a unit in the logbook (17 R549). -/
def agentOf (kind unit : Nat) : BitVec 16 :=
  let k := match kind with
    | 1 | 2 => 0
    | 3 => 1
    | 6 => 2
    | 5 | 13 => 4
    | 0 => 5
    | 11 => 6
    | _ => 3
  BitVec.ofNat 16 (k * 4096 + unit % 4096)

/-- A unit makes an access: it is the requester from here on, and its passage
through the network interfaces of quays is an arbitration there (17 R548). -/
def State.asAgent (s : State) (kind unit a : Nat) : State :=
  let w := agentOf kind unit
  let s := { s with agent := w }
  let s := if kind = 2 then s.logArb (0x40 + unit / 64) w else s
  match s.region a with
  | .spad t | .sdm t => s.logArb (t / 64) w
  | _ => s

/-- Check an access; a refusal by isolation is recorded as an isolation event
(01 R50), of the unit that made it. -/
def State.accessRecord (s : State) (kind unit tenant : Nat) (write : Bool) (a n : Nat) :
    Option Status × State :=
  match s.accessCheck tenant write a n with
  | some e => (some e, if e = ST_ISO_ADDRESS then s.isolation e kind unit tenant a else s)
  | none => (none, s.asAgent kind unit a)

end Sys2Proof.Machine
end

