-- ==== Sys2Proof/Machine/MemMap.lean ====
section
/-! DEFINITION. The tier maps back from a unit to its addresses (10 R324, R327), and
the error-correcting code of the tiers (11 R350 to R353). -/

namespace Sys2Proof.Machine

/-! ### Back from units to addresses -/

/-- Local address of an offset of a bank group (10 R324). -/
def State.nbuLocal (s : State) (stack pc bg o : Nat) : Nat :=
  if o < s.tiers.spread * 2 ^ 24 then
    let i := if s.pcTotal = 768 then pc * 12 + stack else s.spreadList.idxOf (pc, stack)
    ((o / 4096 * 16 + bg) * s.pcTotal + i) * 4096 + o % 4096
  else
    let o' := o - s.tiers.spread * 2 ^ 24
    s.stackBase stack
      + ((o' / 4096 * 16 + bg) * s.pcCount stack + (s.pcList stack).idxOf pc) * 4096 + o % 4096

/-- Local address of an offset of a tier-2 channel. -/
def State.chLocal (s : State) (ch o : Nat) : Nat :=
  tier2Base + (o / 4096 * s.chList.length + s.chList.idxOf ch) * 4096 + o % 4096

/-- Bytes of an atom of a memory unit. -/
def atomBytes (unit : Nat) : Nat := if unit < 1024 then 64 else 128

/-- Is a memory unit fenced? -/
def State.unitFenced (s : State) (unit : Nat) : Bool :=
  if unit < 1024 then (Table.getD s.tiers.pcFenced (unit / 64) 0).getLsbD (unit % 64)
  else (Table.getD s.tiers.chans (unit - 1024) T2Chan.reset).state == 3

/-- UNIT_KIND and UNIT of a memory unit in events (17 R529). -/
def unitKind (unit : Nat) : Nat := if unit < 1024 then 3 else 4
def unitIndex (unit : Nat) : Nat := if unit < 1024 then unit / 64 else unit - 1024

/-- Index of a unit's integrity registers. -/
def integIndex (unit : Nat) : Nat := if unit < 1024 then unit / 64 else 64 + (unit - 1024)

/-! ### The Reed-Solomon code over GF(2^8) (11 R350) -/

/-- Multiply by x modulo the field polynomial. -/
def gfDouble (a : Nat) : Nat := if a < 128 then 2 * a else (2 * a - 256) ^^^ 0x1D

/-- Product in GF(2^8). -/
def gfMul (a b : Nat) : Nat :=
  ((List.range 8).foldl (fun (p : Nat × Nat) i =>
    (if bit b i then p.1 ^^^ p.2 else p.1, gfDouble p.2)) (0, a)).1

/-- Power of the primitive element. -/
def gfPow : Nat → Nat
  | 0 => 1
  | n + 1 => gfDouble (gfPow n)

/-- Degree in the code word of symbol `p` as the stored word and the address
name it: data bytes 0 to n - 1, then check bytes C0 to C7, then A0 to A4. -/
def rsDegree (n p : Nat) : Nat :=
  if p < n then n + 12 - p
  else if p < n + 8 then 7 - (p - n)
  else 12 - (p - n - 8)

/-- Syndrome of an error pattern: pairs of a symbol and the bits changed. -/
def rsSyndrome (n : Nat) (errs : List (Nat × Nat)) : List Nat :=
  (List.range 8).map (fun i =>
    errs.foldl (fun acc e => acc ^^^ gfMul (e.2 % 256) (gfPow (rsDegree n e.1 * i % 255))) 0)

/-- The syndrome of the poison mask (11 R353). -/
def poisonSyndrome (n : Nat) : List Nat :=
  rsSyndrome n ((List.range 8).map (fun k => (n + k, 0x78 - 15 * k)))

/-- An error in at most two symbols with this syndrome, if there is one: the
symbols with the bits to change. -/
def rsDecode (n : Nat) (syn : List Nat) : Option (List (Nat × Nat)) :=
  let s (i : Nat) : Nat := (syn[i]?).getD 0
  if syn.all (· == 0) then some []
  else
    let x (p : Nat) : Nat := gfPow (rsDegree n p % 255)
    let ps := List.range (n + 13)
    match ps.find? (fun p => (List.range 7).all (fun i => s (i + 1) == gfMul (s i) (x p))) with
    | some p => if s 0 = 0 then none else some [(p, s 0)]
    | none =>
      ps.findSome? (fun p =>
        let t (i : Nat) : Nat := s (i + 1) ^^^ gfMul (s i) (x p)
        match ps.find? (fun q => decide (p < q) && t 0 != 0 &&
            (List.range 6).all (fun i => t (i + 1) == gfMul (t i) (x q))) with
        | some q =>
          -- t 0 = e_q * (x q + x p)
          let d := x q ^^^ x p
          match (List.range 256).find? (fun e => gfMul e d == t 0) with
          | some e => if (s 0 ^^^ e) = 0 then none else some [(p, s 0 ^^^ e), (q, e)]
          | none => none
        | none => none)

/-- What a decoded read is (11 R352). -/
inductive ReadClass where
  | good
  /-- corrected: the changes that the decoder makes -/
  | corrected (fix : List (Nat × Nat))
  | poison
  | addr
  | data
  deriving DecidableEq, Repr

/-- Exclusive or of two syndromes. -/
def synXor (a b : List Nat) : List Nat := List.zipWith (· ^^^ ·) a b

/-- Classify a read of an atom of `n` bytes, poisoned or not, whose stored word
and address path show the error pattern `errs` (11 R352). -/
def classify (n : Nat) (poisoned : Bool) (errs : List (Nat × Nat)) : ReadClass :=
  let stored (es : List (Nat × Nat)) : Bool := es.all (fun e => decide (e.1 < n + 8))
  let ps := poisonSyndrome n
  let syn := let e := rsSyndrome n errs; if poisoned then synXor e ps else e
  if errs.isEmpty then (if poisoned then .poison else .good)
  else
    match rsDecode n (synXor syn ps) with
    | some es => if stored es then .poison else next syn stored
    | none => next syn stored
where
  /-- rows 2 to 5 of the table -/
  next (syn : List Nat) (stored : List (Nat × Nat) → Bool) : ReadClass :=
    if syn.all (· == 0) then .good
    else
      match rsDecode n syn with
      | some es => if stored es then .corrected es else .addr
      | none => .data

/-- Apply byte changes to data. -/
def xorBytes (bs : List Byte) (es : List (Nat × Nat)) : List Byte :=
  es.foldl (fun l e => l.set e.1 ((l[e.1]?).getD 0 ^^^ BitVec.ofNat 8 e.2)) bs

end Sys2Proof.Machine
end

