-- ==== Sys2Proof/Machine/Memory.lean ====
section
/-! DEFINITION. Reading and writing module memory by local address, with merge
buffers, poison, fences and the error counts of the tiers (01 R47, 10 R333 to
R341, 11 R353 to R368), and host memory. -/

namespace Sys2Proof.Machine

/-! ### Tile memories and plain reads -/

/-- Read `n` bytes that no merge buffer can hold: `none` where a word of them is
uncorrectable (11 R360). -/
def State.readMem (s : State) (a n : Nat) : Option (List Byte) := Mem.readBytes s.mem a n

/-- Read a little-endian number of `n` bytes. -/
def State.readNum (s : State) (a n : Nat) : Option Nat := (s.readMem a n).map natOfBytes

/-- Poison or lose `n` bytes. -/
def State.dropMem (s : State) (a n : Nat) : State := { s with mem := Mem.drop s.mem a n }

/-! ### Registers of the memory units -/

def State.integ (s : State) (i : Nat) : Integrity := Table.getD s.tiers.integ i Integrity.reset
def State.updInteg (s : State) (i : Nat) (f : Integrity → Integrity) : State :=
  { s with tiers := { s.tiers with integ := Table.upd s.tiers.integ i Integrity.reset f } }

def State.chan (s : State) (ch : Nat) : T2Chan := Table.getD s.tiers.chans ch T2Chan.reset
def State.updChan (s : State) (ch : Nat) (f : T2Chan → T2Chan) : State :=
  { s with tiers := { s.tiers with chans := Table.upd s.tiers.chans ch T2Chan.reset f } }

/-- The aligned atoms of a tier range: their first addresses. -/
def State.atomsOf (s : State) (a n : Nat) : List Nat :=
  let u := s.unitBytes a
  if n = 0 then []
  else (List.range ((a + n - 1) / u - a / u + 1)).map (fun i => (a / u + i) * u)

/-- The memory unit of an address. -/
def State.unitAt (s : State) (a : Nat) : Nat := ((s.memLoc a).map (·.unit)).getD 4096

/-! ### Merge buffers (10 R333 to R337) -/

/-- Merge the bytes of an entry over an atom's bytes. -/
def mergeBytes (old : List Byte) (mask data : Nat) : List Byte :=
  (List.range old.length).map (fun i =>
    if bit mask i then BitVec.ofNat 8 (byteField data i 1) else (old[i]?).getD 0)

/-- Write an atom's bytes, whatever stood there; a queued write-back of older
corrected data is dropped (11 R358). -/
def State.putAtom (s : State) (atom : Nat) (bs : List Byte) : State :=
  { s with mem := Mem.writeBytes s.mem atom bs
           tiers := { s.tiers with writeBacks := Table.del s.tiers.writeBacks atom } }

/-- Retire an entry by read-modify-write: a poisoned atom stays poisoned and
the merged bytes are lost with ST_MERGE_UE (10 R335, R337). -/
def State.retire (s : State) (e : MergeEntry) : State :=
  let s := { s with tiers := { s.tiers with
    merge := s.tiers.merge.filter (fun x => x.atom != e.atom) } }
  let s := if e.unit < 1024 then s
    else s.updChan (e.unit - 1024) (fun c => { c with mergeRmw := c.mergeRmw + 1 })
  match Mem.readBytes s.mem e.atom (atomBytes e.unit) with
  | some old => s.putAtom e.atom (mergeBytes old e.mask.toNat e.data.toNat)
  | none =>
    (s.updInteg (integIndex e.unit) (fun i => { i with uePoison := i.uePoison + 1 })).raise ST_MERGE_UE (unitKind e.unit) (unitIndex e.unit) none e.atom

/-- Retire every entry that a test picks, oldest first. -/
def State.retireAll (s : State) (p : MergeEntry → Bool) : State :=
  (s.tiers.merge.filter p).foldl State.retire s

/-- Does an entry's atom overlap a range? -/
def MergeEntry.overlaps (e : MergeEntry) (a n : Nat) : Bool :=
  decide (e.atom < a + n) && decide (a < e.atom + atomBytes e.unit)

/-- Write part of an atom: it merges into the atom's entry, which is allocated
if there is none; a full mask writes the atom (10 R334, R335). -/
def State.mergePart (s : State) (atom unit a : Nat) (bs : List Byte) : State :=
  let n := atomBytes unit
  let old := s.tiers.merge.find? (fun e => e.atom == atom)
  let s := match old with
    | some _ => s
    | none =>
      let mine := s.tiers.merge.filter (fun (e : MergeEntry) => e.unit == unit)
      if (if unit < 1024 then 8 else 32) ≤ mine.length then
        match mine with
        | e :: _ => s.retire e
        | [] => s
      else s
  let e := old.getD { atom := atom, unit := unit, mask := 0, data := 0, last := 0 }
  let lo := a - atom
  let k := bs.length
  let mask := e.mask.toNat ||| ((2 ^ k - 1) * 2 ^ lo)
  let data := setBits e.data.toNat (8 * lo) (8 * k) (natOfBytes bs)
  let s := { s with tiers := { s.tiers with writeBacks := Table.del s.tiers.writeBacks atom } }
  if mask = 2 ^ n - 1 then
    ({ s with tiers := { s.tiers with merge := s.tiers.merge.filter (fun x => x.atom != atom) } }).putAtom
      atom (bytesOfNat n data)
  else
    let e' := { e with mask := BitVec.ofNat 128 mask, data := BitVec.ofNat 1024 data, last := s.time }
    { s with tiers := { s.tiers with merge :=
        match old with
        | some _ => s.tiers.merge.map (fun (x : MergeEntry) => if x.atom = atom then e' else x)
        | none => s.tiers.merge ++ [e'] } }

/-! ### Writes -/

/-- The controller of a memory unit takes an access: an arbitration (17 R548). -/
def State.logUnit (s : State) (unit : Nat) : State :=
  s.logArb (if unit < 1024 then 0x100 + unit else 0x400 + (unit - 1024)) s.agent

/-- Write bytes that lie in one tier, atom by atom; a fenced unit discards them
(01 R47). -/
def State.writeTier (s : State) (a : Nat) (bs : List Byte) : State :=
  (s.atomsOf a bs.length).foldl (fun s atom =>
    let unit := s.unitAt atom
    let s := s.logUnit unit
    let n := atomBytes unit
    let lo := max a atom
    let hi := min (a + bs.length) (atom + n)
    let part := (bs.drop (lo - a)).take (hi - lo)
    if s.unitFenced unit then s
    else
      let s := if unit < 1024 then s
        else s.updChan (unit - 1024) (fun c => { c with wr := c.wr + BitVec.ofNat 64 part.length })
      if hi - lo = n then
        ({ s with tiers := { s.tiers with
            merge := s.tiers.merge.filter (fun x => x.atom != atom) } }).putAtom atom part
      else s.mergePart atom unit lo part) s

/-- A write of part of a poisoned word of a tile memory reads the word and finds it
uncorrectable: the read is counted (11 R354). -/
def State.countPartial (s : State) (t u a n : Nat) : State :=
  let bad (b : Nat) : Bool := (decide (b < a) || decide (a + n < b + u)) && (Mem.readBytes s.mem b u).isNone
  let k := if n = 0 then 0
    else b2n (bad (a / u * u)) + (if (a + n - 1) / u = a / u then 0 else b2n (bad ((a + n - 1) / u * u)))
  if k = 0 then s
  else s.updQuay (t / 64) (fun x => { x with poisonRd := BitVec.ofNat 16 (satAdd 16 x.poisonRd.toNat k) })

/-- Write bytes at a local address, region by region. A word of a tile memory
that is written in part keeps its other bytes, or stays poisoned (11 R354). -/
def State.writePlain (s : State) (a : Nat) (bs : List Byte) : State :=
  let rec go : Nat → State → Nat → List Byte → State
    | 0, s, _, _ => s
    | fuel + 1, s, a, bs =>
      if bs.isEmpty then s
      else
        let k := min bs.length (s.regionEnd a - a)
        let part := bs.take k
        let s := match s.region a with
          | .tier1 | .tier2 => s.writeTier a part
          | .spad t => { s.countPartial t 8 a k with mem := Mem.writeUnits s.mem 8 a part }
          | .sdm t => { s.countPartial t 4 a k with mem := Mem.writeUnits s.mem 4 a part }
          | _ => s
        go fuel s (a + k) (bs.drop k)
  go (bs.length / 0x8000 + 4) s a bs

/-- Does a range meet the old home of a move? -/
def PilMove.meets (m : PilMove) (a n : Nat) : Bool :=
  decide (a < m.old + m.size) && decide (m.old < a + n)

/-- What the write monitor of a move does with a write that has taken effect at
the old home: before the commit it notes the 4 KiB chunks written, after it the
write also takes effect at the new home (08 R280, R281). -/
def State.monitorWrite (s : State) (m : PilMove) (a : Nat) (bs : List Byte) : State :=
  let lo := max a m.old
  let hi := min (a + bs.length) (m.old + m.size)
  match m.step, m.berth with
  | .forward, none => s.writePlain (m.new + (lo - m.old)) ((bs.drop (lo - a)).take (hi - lo))
  | .forward, some _ =>
    let w := (m.new + (lo - m.old), (bs.drop (lo - a)).take (hi - lo))
    { s with pilot := { s.pilot with
        moves := s.pilot.moves.map (fun (x : PilMove) =>
          if x.table = m.table ∧ x.entry = m.entry then { x with send := x.send ++ [w] } else x) } }
  | _, _ =>
    let c0 := (lo - m.old) / 4096
    let cs := (List.range ((hi - 1 - m.old) / 4096 + 1 - c0)).map (c0 + ·)
    { s with pilot := { s.pilot with
        moves := s.pilot.moves.map (fun (x : PilMove) =>
          if x.table = m.table ∧ x.entry = m.entry then
            { x with dirty := x.dirty ++ cs.filter (fun c => !x.dirty.contains c) }
          else x) } }

/-- Note the use of the blocks that a range meets (08 R277, R280). -/
def State.touch (s : State) (a n : Nat) (read : Bool) : State :=
  if s.pilot.blocks.isEmpty then s
  else { s with pilot := { s.pilot with blocks := s.pilot.blocks.map (fun (b : PilBlock) =>
    if b.berth.isNone && decide (a < b.base + b.size) && decide (b.base < a + n) then
      { b with lastUse := s.time, reads := b.reads + b2n read }
    else b) } }

/-- Write bytes at a local address, with the write monitors of the Pilot's
moves: while a move holds writes to its block, the write waits (08 R280
step 4). -/
def State.writeMem (s : State) (a : Nat) (bs : List Byte) : State :=
  let s := s.touch a bs.length false
  let holds (m : PilMove) : Bool := m.step == .hold && m.meets a bs.length
  if s.pilot.moves.any holds then
    { s with pilot := { s.pilot with
        moves := s.pilot.moves.map (fun (m : PilMove) =>
          if holds m then { m with held := m.held ++ [(a, bs)] } else m) } }
  else
    (s.pilot.moves.filter (fun m => m.meets a bs.length)).foldl
      (fun s m => s.monitorWrite m a bs) (s.writePlain a bs)

/-- Write a little-endian number of `n` bytes. -/
def State.writeNum (s : State) (a n v : Nat) : State := s.writeMem a (bytesOfNat n v)

/-- Does a write of this range meet a fenced unit, which reports an
uncorrectable error (01 R47, 10 R344)? -/
def State.fencedIn (s : State) (a n : Nat) : Bool :=
  match s.region a with
  | .tier1 | .tier2 => (s.atomsOf a n).any (fun x => s.unitFenced (s.unitAt x))
  | _ => false

/-! ### Reads -/

/-- Count the poisoned atoms or words that a read met (11 R354). A fenced unit's
are not poison. -/
def State.countPoison (s : State) (a n : Nat) : State :=
  match s.region a with
  | .tier1 | .tier2 =>
    (s.atomsOf a n).foldl (fun s x =>
      let u := s.unitAt x
      if s.unitFenced u || (Mem.readBytes s.mem x (atomBytes u)).isSome then s
      else s.updInteg (integIndex u) (fun i => { i with uePoison := i.uePoison + 1 })) s
  | .spad t | .sdm t =>
    s.updQuay (t / 64) (fun x =>
      { x with poisonRd := BitVec.ofNat 16 (satAdd 16 x.poisonRd.toNat 1) })
  | _ => s

/-- Read `n` bytes of module memory: merge entries that overlap are retired
first (10 R336); `none` where an atom or word is uncorrectable (11 R360). -/
def State.load (s : State) (a n : Nat) : Option (List Byte) × State :=
  let s := (s.retireAll (fun e => e.overlaps a n)).touch a n true
  let s := if s.logging then (s.atomsOf a n).foldl (fun s x =>
      if (s.memLoc x).isSome then s.logUnit (s.unitAt x) else s) s else s
  match Mem.readBytes s.mem a n with
  | some bs =>
    match s.region a with
    | .tier2 =>
      (some bs, (s.atomsOf a n).foldl (fun s x =>
        let u := s.unitAt x
        let k := min (a + n) (x + 128) - max a x
        s.updChan (u - 1024) (fun c => { c with rd := c.rd + BitVec.ofNat 64 k })) s)
    | _ => (some bs, s)
  | none => (none, s.countPoison a n)

/-- Read a little-endian number of `n` bytes. -/
def State.loadNum (s : State) (a n : Nat) : Option Nat × State :=
  let (o, s) := s.load a n
  (o.map natOfBytes, s)

/-- Can an access of this range be served now? Not while its pseudo-channel has
lost calibration or its channel retrains (10 R341, R345), nor a read before the
fill of its memory (11 R355). -/
def State.memReady (s : State) (read : Bool) (a n : Nat) : Bool :=
  match s.region a with
  | .tier1 =>
    (!read || s.tiers.t1Filled) &&
      (s.atomsOf a n).all (fun x => (Table.find s.tiers.calLost (s.unitAt x)).isNone)
  | .tier2 =>
    (!read || s.tiers.t2Filled) &&
      (s.atomsOf a n).all (fun x => (s.chan (s.unitAt x - 1024)).state != 2)
  | .spad _ | .sdm _ => !read || s.bring.tilesFilled
  | _ => true

/-! ### Host memory -/

/-- A byte of host memory: what the module last wrote there, else what the
surroundings hold. -/
def State.hostRead (s : State) (a n : Nat) : List Byte :=
  (List.range n).map (fun i => (Mem.read s.hostMem (a + i)).getD (Config.hostByte (a + i)))

/-- A read of host memory: its completion is an input of the logbook (17 R548, R550). -/
def State.hostFetch (s : State) (a n : Nat) : List Byte × State :=
  (s.hostRead a n, s.logInput 0x801 (s.hostRead a n) false)

/-- A write to host memory. -/
def State.hostWrite (s : State) (a : Nat) (bs : List Byte) : State :=
  { s with hostMem := Mem.writeBytes s.hostMem a bs }

/-- Read from a ring or block that lies in module memory (`loc` 0) or in host
memory (`loc` 1). -/
def State.readLoc (s : State) (loc a n : Nat) : Option (List Byte) × State :=
  if loc = 1 then (some (s.hostFetch a n).1, (s.hostFetch a n).2) else s.load a n

/-- Write to module memory (`loc` 0) or host memory (`loc` 1). -/
def State.writeLoc (s : State) (loc a : Nat) (bs : List Byte) : State :=
  if loc = 1 then s.hostWrite a bs else s.writeMem a bs

/-! ### Whole tile memories -/

/-- Zero-fill the scratchpad and the scalar data memory of a tile (07 R252). -/
def State.zeroFillTile (s : State) (t : Nat) : State :=
  ({ s with mem := Mem.fillZero s.mem (tileBase t) 0x38000 }).updTile t
    (fun x => { x with lastHolder := none })

/-- Poison the scratchpad and the scalar data memory of a tile (11 R355). -/
def State.poisonTile (s : State) (t : Nat) : State :=
  (s.dropMem (tileBase t) 0x38000).updTile t (fun x => { x with lastHolder := none })

/-! ### Correctable errors (11 R358, R359) -/

/-- One corrected read in a bucket of capacity `cap`: the bucket, and whether it
overflowed. -/
def CeBucket.hit (b : CeBucket) (cap : Nat) : CeBucket × Bool :=
  if b.level.toNat = max cap 1 then
    ({ level := 0, ovf := BitVec.ofNat 16 (satAdd 16 b.ovf.toNat 1) }, true)
  else ({ b with level := b.level + 1 }, false)

/-- A corrected read in a unit of the tiers (bucket `b`: a memory unit, or 2048
plus a stack for its base-die buffers). An overflow raises ST_CE_OVERFLOW. -/
def State.ceUnit (s : State) (b : Nat) : State :=
  let stack := decide (b < 1024) || decide (2048 ≤ b)
  let idx := if 2048 ≤ b then b - 2048 else unitIndex b
  let i := if 2048 ≤ b then b - 2048 else integIndex b
  let s := s.updInteg i (fun x => { x with ceTotal := x.ceTotal + 1 })
  let (k, overs) := (Table.getD s.tiers.buckets b CeBucket.reset).hit (s.integ i).cap.toNat
  let s := { s with tiers := { s.tiers with buckets := Table.put s.tiers.buckets b k } }
  if overs then s.raise ST_CE_OVERFLOW (if stack then 3 else 4) idx none (if b < 1024 then b % 64 else 0)
  else s

/-- A corrected read in the tile memories of a quay. -/
def State.ceQuay (s : State) (q : Nat) : State :=
  let x := s.quay q
  let (k, overs) := CeBucket.hit { level := x.ceLevel, ovf := x.ceOvf } x.ceCap.toNat
  let s := (s.setQuay q { x with ceLevel := k.level, ceOvf := k.ovf }).cntQuay q 23 1
  if overs then s.raise ST_CE_OVERFLOW 1 q none 0 else s

/-! ### Fencing (10 R341, R344, 11 R368) -/

/-- Lose what a memory unit holds, with the write-backs queued for it. -/
def State.dropUnit (s : State) (unit : Nat) : State :=
  { s with mem := s.mem.filter (fun c => s.unitAt c.1 != unit)
           tiers := { s.tiers with writeBacks := s.tiers.writeBacks.filter (fun w => s.unitAt w.1 != unit) } }

/-- Fence a tier-1 pseudo-channel: its contents become unreadable, it enters the
fence record, and the alarm is raised. -/
def State.fencePc (s : State) (unit : Nat) : State :=
  if s.unitFenced unit then s
  else
    let s := s.retireAll (fun e => e.unit == unit)
    let s := s.dropUnit unit
    let old := Table.getD s.tiers.pcFenced (unit / 64) 0
    let rcd := Table.getD s.backup.fenceT1 (unit / 64) 0
    let m := BitVec.ofNat 64 (2 ^ (unit % 64))
    ({ s with
       tiers := { s.tiers with
         pcFenced := Table.put s.tiers.pcFenced (unit / 64) (old ||| m)
         calLost := Table.del s.tiers.calLost unit }
       backup := { s.backup with
         fenceT1 := Table.put s.backup.fenceT1 (unit / 64) (rcd ||| m) } }).raise
      ST_T1_PC_FENCED 3 (unit / 64) none (unit % 64)

/-- Fence a tier-2 channel. -/
def State.fenceCh (s : State) (ch : Nat) : State :=
  if (s.chan ch).state = 3 then s
  else
    let unit := 1024 + ch
    let s := s.retireAll (fun e => e.unit == unit)
    let s := s.dropUnit unit
    let s := s.updChan ch (fun c =>
      { c with state := 3, attempt := 0, selfRefresh := false, cause := 0 })
    ({ s with
       backup := { s.backup with
         fenceT2 := s.backup.fenceT2 ||| BitVec.ofNat 16 (2 ^ ch) } }).raise ST_T2_CH_FENCED 4 ch none 0

/-- Fence a unit in which, within 1 s, 16 distinct atoms read uncorrectable with
cause ADDR or DATA, or 4 with cause ADDR (11 R368). -/
def State.fenceOnUe (s : State) (unit : Nat) : State :=
  let rec distinct : List Nat → List Nat
    | [] => []
    | a :: r => if r.contains a then distinct r else a :: distinct r
  let recent := s.tiers.ueSeen.filter (fun u => u.unit == unit && decide (s.time < u.time + msTicks 1000))
  let any_ := (distinct (recent.map (·.atom))).length
  let addr := (distinct ((recent.filter (·.addr)).map (·.atom))).length
  if 16 ≤ any_ ∨ 4 ≤ addr then (if unit < 1024 then s.fencePc unit else s.fenceCh (unit - 1024)) else s

/-- An atom found uncorrectable with cause ADDR or DATA: it is poisoned,
reported, counted and passed to owner handling (11 R361, R365 step 1, R367,
R368). -/
def State.ueFound (s : State) (atom unit : Nat) (addr : Bool) : State :=
  let s := s.dropMem atom (atomBytes unit)
  let s := { s with tiers := { s.tiers with writeBacks := Table.del s.tiers.writeBacks atom } }
  let s := s.raise ST_UE_RECORDED (unitKind unit) (unitIndex unit) none
    (atom + 2 ^ 48 * (if addr then 1 else 2))
  let s := s.updInteg (integIndex unit) (fun x =>
    if addr then { x with ueAddr := x.ueAddr + 1 } else { x with ueData := x.ueData + 1 })
  let h : UeHandling := { atom := atom, since := s.time, tag := none }
  let t := s.tiers
  let t := { t with ueSeen := { unit := unit, atom := atom, addr := addr, time := s.time } ::
      t.ueSeen.filter (fun u => decide (s.time < u.time + msTicks 1000)) }
  let s :=
    if t.ueRunning.length < 64 then { s with tiers := { t with ueRunning := t.ueRunning ++ [h] } }
    else if t.ueQueue.length < 1024 then
      { s with tiers := { t with
          ueQueue := t.ueQueue ++ [h]
          scrubPaused := t.scrubPaused || decide (1024 ≤ t.ueQueue.length + 1) } }
    else ({ s with tiers := t }).raise ST_UE_HANDLING_DROPPED (unitKind unit) (unitIndex unit) none atom
  s.fenceOnUe unit

/-- A handling has ended: the oldest queued one runs in its place, and the
scrubbers go on once the queue has fallen to 512 (11 R367). -/
def State.ueDone (s : State) (atom : Nat) : State :=
  let t := s.tiers
  let run := t.ueRunning.filter (fun h => h.atom != atom)
  let (run, q) := match t.ueQueue with
    | h :: r => if run.length < 64 then (run ++ [h], r) else (run, t.ueQueue)
    | [] => (run, [])
  { s with tiers := { t with
      ueRunning := run, ueQueue := q, scrubPaused := t.scrubPaused && decide (512 < q.length) } }

/-! ### One decoded read of an atom (11 R352, R358, R361) -/

/-- Read one atom of the tiers through its decoder, with the error pattern its
stored word and address path show. -/
def State.readAtom (s : State) (atom : Nat) (errs : List (Nat × Nat)) : Option (List Byte) × State :=
  let s := s.retireAll (fun e => e.atom == atom)
  let unit := s.unitAt atom
  let n := atomBytes unit
  if s.unitFenced unit then (none, s)
  else
    let held := Mem.readBytes s.mem atom n
    let stored := held.getD (List.replicate n 0)
    match classify n held.isNone errs with
    | .good => (some (xorBytes stored (errs.filter (fun e => decide (e.1 < n)))), s)
    | .corrected fix =>
      let d := xorBytes stored ((errs ++ fix).filter (fun e => decide (e.1 < n)))
      let s := s.ceUnit unit
      (some d, { s with tiers := { s.tiers with
        writeBacks := Table.put s.tiers.writeBacks atom (BitVec.ofNat 1024 (natOfBytes d)) } })
    | .poison => (none, s.updInteg (integIndex unit) (fun i => { i with uePoison := i.uePoison + 1 }))
    | .addr => (none, s.ueFound atom unit true)
    | .data => (none, s.ueFound atom unit false)

/-- Read one word of a tile memory through its SEC-DED decoder: `flips` are the
stored bits found flipped (from 0 on), `addrBad` an address mismatch. One bit
is corrected, two bits or an address mismatch are detected; the code promises
nothing of three or more (11 R349), so there both the finding and the data are
free values. -/
def State.readWord (s : State) (t a u flips : Nat) (addrBad : Bool) : Option (List Byte) × State :=
  let q := t / 64
  let bad (s : State) : Option (List Byte) × State :=
    let s := (s.dropMem a u).updQuay q (fun x => { x with ue := BitVec.ofNat 16 (satAdd 16 x.ue.toNat 1) })
    -- two within 1 s are a failure of the tile (17 R534)
    let old (x : Tile) : List Nat := x.errTimes.filter (fun e => decide (s.time < e + msTicks 1000))
    (none, s.updTile t (fun x => { x with errTimes := s.time :: old x }))
  match Mem.readBytes s.mem a u with
  | none => (none, s.countPoison a u)
  | some bs =>
    if addrBad then bad s
    else if flips = 0 then (some bs, s)
    else if flips = 1 then (some bs, s.ceQuay q)
    else if flips = 2 then bad s
    else
      let (k, s) := s.freshLong
      if k.getLsbD 0 then bad s
      else
        let (d, s) := s.freshBytes u
        (some d, { s with mem := Mem.writeBytes s.mem a d })

end Sys2Proof.Machine
end

