-- ==== Sys2Proof/Machine/HostOps.lean ====
section
/-! DEFINITION. Shared operations towards the host: MSI-X vectors with their
coalescing times, and sync notes (18 R570, R572). -/

namespace Sys2Proof.Machine

/-- A condition of a vector arises at time `now`: it is raised, unless its
coalescing time runs, when it is held until that time ends (18 R570). -/
def Vector0.arise (v : Vector0) (now coalUs : Nat) : Vector0 :=
  if now < v.quietUntil then { v with held := true }
  else { v with raised := v.raised + 1, held := false, quietUntil := now + usTicks coalUs }

/-- Raise vector 0: a response is ready. -/
def State.raiseVec0 (s : State) (f : Nat) : State :=
  s.updFunc f (fun x => { x with vec0 := { x.vec0 with raised := x.vec0.raised + 1 } })

/-- Vector 1: the event ring holds records. -/
def State.raiseVec1 (s : State) (f : Nat) : State :=
  s.updFunc f (fun x =>
    { x with vec1 := x.vec1.arise s.time ((x.evtRing.map (·.coalUs)).getD 0) })

/-- Vector 2: the note ring holds notes. -/
def State.raiseVec2 (s : State) (f : Nat) : State :=
  s.updFunc f (fun x =>
    { x with vec2 := x.vec2.arise s.time ((x.noteRing.map (·.coalUs)).getD 0) })

/-- Count a lost note; the counter saturates. -/
def State.loseNote (s : State) (f : Nat) : State :=
  s.updFunc f (fun x => { x with noteLost := BitVec.ofNat 32 (satAdd 32 x.noteLost.toNat 1) })

/-- Append a sync note to the function's note ring: SO in bits 16 to 0, COUNT
in bits 63 to 32. With no ring, or a full one, it is dropped and counted
(18 R572). -/
def State.writeNote (s : State) (f so count : Nat) : State :=
  let x := s.func f
  match x.noteRing with
  | none => s.loseNote f
  | some r =>
    if (x.noteTail - x.noteHead).toNat = 2 ^ r.sizeLog2 then s.loseNote f
    else
      let slot := x.noteTail.toNat % 2 ^ r.sizeLog2
      let s := s.hostWrite (r.base.toNat + 8 * slot) (bytesOfNat 8 (so % 2 ^ 17 + 2 ^ 32 * count))
      (s.updFunc f (fun y => { y with noteTail := y.noteTail + 1 })).raiseVec2 f

end Sys2Proof.Machine
end

