-- ==== Sys2Proof/Machine/FabricOps.lean ====
section
/-! DEFINITION. Shared operations of the fabric: packets and flits, the choice
of a port, sending, and the tracker of remote requests (chapter 16). -/

namespace Sys2Proof.Machine

/-! ### Packets (R498, R499) -/

/-- Does a packet of this type carry data? -/
def ptypeData (p : Nat) : Bool :=
  [0x2, 0x3, 0x4, 0x5, 0x8, 0x9, 0xA, 0xB].contains p

/-- The virtual channel of a packet type. -/
def ptypeVc (p : Nat) : Nat :=
  if p ≤ 4 then 0 else if p ≤ 7 then 1 else if p = 9 ∨ p = 0xA then 3 else 2

/-- 8-byte slots of a packet. -/
def Packet.slots (p : Packet) : Nat := 2 + (p.data.length + 7) / 8

/-- The 16-byte header as a number. In RSP_ERR the status stands in LOCAL. -/
def Packet.header (p : Packet) : Nat :=
  p.ptype % 16 + 2 ^ 4 * (p.vc % 4) + 2 ^ 6 * b2n p.esc + 2 ^ 7 * b2n p.down
    + 2 ^ 8 * (p.dstH % 2) + 2 ^ 9 * (p.dstB % 2 ^ 13) + 2 ^ 22 * (p.srcH % 2)
    + 2 ^ 23 * (p.srcB % 2 ^ 13) + 2 ^ 36 * (p.tenant % 2 ^ 10) + 2 ^ 46 * (p.tag % 2 ^ 16)
    + 2 ^ 64 * (p.loc % 2 ^ 48) + 2 ^ 112 * (p.len % 2 ^ 8) + 2 ^ 120 * (p.aop % 2 ^ 5)

/-- The packet as slots, its data padded with zeros. -/
def Packet.toSlots (p : Packet) : List (BitVec 64) :=
  let n := (p.data.length + 7) / 8
  let d := natOfBytes p.data
  [BitVec.ofNat 64 p.header, BitVec.ofNat 64 (p.header / 2 ^ 64)]
    ++ (List.range n).map (fun i => BitVec.ofNat 64 (d / 2 ^ (64 * i)))

/-- A packet read from its header and its data slots. -/
def packetOf (h : Nat) (data : List (BitVec 64)) : Packet :=
  let t := bits h 0 4
  let n := bits h 112 8 + 1
  { ptype := t, vc := bits h 4 2, esc := bit h 6, down := bit h 7, dstH := bits h 8 1,
    dstB := bits h 9 13, srcH := bits h 22 1, srcB := bits h 23 13, tenant := bits h 36 10,
    tag := bits h 46 16, loc := bits h 64 48, len := bits h 112 8, aop := bits h 120 5,
    data := if ptypeData t then (data.flatMap (fun w => bytesOfNat 8 w.toNat)).take n else [] }

/-- Is a header one of a defined packet: its type and its reserved bits? -/
def headerOk (h : Nat) : Bool :=
  decide (1 ≤ bits h 0 4) && decide (bits h 0 4 ≤ 0xB) && bits h 62 2 == 0 && bits h 125 3 == 0

/-! ### Ports and the module's own place -/

def State.port (s : State) (p : Nat) : FabPort := Table.getD s.fab.ports p FabPort.reset
def State.updPort (s : State) (p : Nat) (f : FabPort → FabPort) : State :=
  { s with fab := { s.fab with ports := Table.upd s.fab.ports p FabPort.reset f } }

def State.ownBerth (s : State) : Nat := s.fab.berth.toNat
def State.ownHarbour (s : State) : Nat := b2n s.fab.harbour

/-- Does (harbour, berth) name this module? -/
def State.isSelf (s : State) (h b : Nat) : Bool :=
  s.fab.assigned && h == s.ownHarbour && b == s.ownBerth

/-- The committed routing entry of a berth (R505). -/
def State.route (s : State) (b : Nat) : Nat := (Table.getD s.fab.rt b 0).toNat

/-- Is a berth reachable by the committed table? An unassigned module reaches none
(R501). -/
def State.reachable (s : State) (b : Nat) : Bool := s.fab.assigned && bit (s.route b) 31

/-- The source's check of a fabric address (R508). -/
def State.remoteCheck (s : State) (h b : Nat) : Option Status :=
  if h ≠ s.ownHarbour then some ST_FAB_HARBOUR
  else if s.isSelf h b || s.reachable b then none
  else some ST_FAB_NO_ROUTE

/-! ### Flits (R494, R495) -/

/-- Credits of the eight classes when a port completes training (R496). -/
def fullCredits : List Nat := [5376, 448, 4480, 448, 448, 224, 2464, 448]

/-- Build a flit of port state `x` with up to 14 payload slots; `start` says
whether a packet header stands in its first slot. It carries the pending
acknowledgement, a due NAK, and owed credits of the lowest class. -/
def FabPort.flit (x : FabPort) (payload : List (BitVec 64)) (start : Bool) : BitVec 1024 :=
  let cls := ((List.range 8).find? (fun c => decide (0 < (x.owed[c]?).getD 0))).getD 0
  let cnt := min 1023 ((x.owed[cls]?).getD 0)
  let hdr := x.txSeq.toNat + 2 ^ 12 * (x.rxSeq - 1).toNat + 2 ^ 24 + 2 ^ 25 * b2n x.nak
    + 2 ^ 26 * cls + 2 ^ 30 * cnt + 2 ^ 40 * (if start then 0 else 15)
  let body := hdr + 2 ^ 64 * packElems 64 (payload.map BitVec.toNat)
  let bytes := bytesOfNat 120 body
  BitVec.ofNat 1024 (natOfBytes bytes + 2 ^ 960 * crc64 bytes)

/-- Put one flit on the link, keeping it in the retry buffer. -/
def FabPort.putFlit (x : FabPort) (payload : List (BitVec 64)) (start : Bool) : FabPort :=
  let f := x.flit payload start
  let cls := ((List.range 8).find? (fun c => decide (0 < (x.owed[c]?).getD 0))).getD 0
  { x with retry := x.retry ++ [f], txSeq := x.txSeq + 1, nak := false,
           owed := x.owed.set cls ((x.owed[cls]?).getD 0 - min 1023 ((x.owed[cls]?).getD 0)) }

/-- Put a packet on the link, flit by flit, spending its credits. -/
def FabPort.putPacket (x : FabPort) (p : Packet) : FabPort :=
  let cls := 2 * p.vc + b2n p.esc
  let sl := p.toSlots
  let x := { x with credits := x.credits.set cls ((x.credits[cls]?).getD 0 - sl.length),
                    tx := x.tx + BitVec.ofNat 64 (8 * sl.length) }
  (List.range ((sl.length + 13) / 14)).foldl (fun x i =>
    x.putFlit ((sl.drop (14 * i)).take 14) (i == 0)) x

/-- Can a packet be put on the port now: up, credits for every slot in its class,
and room in the retry buffer? -/
def FabPort.takes (x : FabPort) (p : Packet) : Bool :=
  x.state == 2 && decide (p.slots ≤ (x.credits[2 * p.vc + b2n p.esc]?).getD 0)
    && decide (x.retry.length + (p.slots + 13) / 14 ≤ 512)

/-! ### Choice of a port (R506) -/

/-- The port a packet leaves by now under a routing entry and a set of down links,
and the packet as it leaves. -/
def State.choosePortBy (s : State) (e : Nat) (downs : BitVec 16) (p : Packet) : Option (Nat × Packet) :=
  let out (k : Nat) (q : Packet) : Option (Nat × Packet) :=
    let q := if q.esc && downs.getLsbD k then { q with down := true } else q
    if (s.port k).takes q then some (k, q) else none
  if p.vc = 3 then
    -- twin packets go over the twin ports
    (out 14 p) <|> (out 15 p)
  else
    if p.esc then
      if p.down then (if bit e 25 then out (bits e 20 4) p else none)
      else if bit e 24 then out (bits e 16 4) p else none
    else
      let cands := (List.range 14).filter (fun k => bit e k && (s.port k).takes p)
      let credit (k : Nat) : Nat := ((s.port k).credits[2 * p.vc]?).getD 0
      let best := cands.foldl (fun (b : Option Nat) k =>
        match b with
        | none => some k
        | some j => if credit j < credit k then some k else some j) none
      match best with
      | some k => some (k, p)
      | none => if bit e 24 then out (bits e 16 4) { p with esc := true, down := false } else none

/-- The same under the committed table. -/
def State.choosePort (s : State) (p : Packet) : Option (Nat × Packet) :=
  s.choosePortBy (s.route p.dstB) s.fab.downLinks p

/-- Slots of a port's receive buffer become free: their credits are owed to the
peer (R496). Port 16 is the module itself. -/
def State.freeSlots (s : State) (port : Nat) (p : Packet) : State :=
  if 16 ≤ port then s
  else
    let c := 2 * p.vc + b2n p.esc
    s.updPort port (fun x =>
      let owed := if x.owed.isEmpty then List.replicate 8 0 else x.owed
      { x with owed := owed.set c ((owed[c]?).getD 0 + p.slots) })

/-- Send a packet that stands in the buffer of `port` on its way: over a port that
takes it, else it waits (R506). -/
def State.forward (s : State) (port : Nat) (p : Packet) : State :=
  match s.choosePort p with
  | some (k, q) => (s.updPort k (fun x => x.putPacket q)).freeSlots port p
  | none =>
    let q : QueuedPacket := { pkt := p, gen := s.fab.gen.toNat, port := port }
    { s with fab := { s.fab with waitQ := s.fab.waitQ ++ [q] } }

/-- Send a packet of this module: to its own inbox when it names it (loopback,
01 R55). -/
def State.sendPacket (s : State) (p : Packet) : State :=
  if p.vc ≠ 3 ∧ s.isSelf p.dstH p.dstB then
    { s with fab := { s.fab with inbox := s.fab.inbox ++ [(16, p)] } }
  else s.forward 16 p

/-- An error answer to a packet that cannot be delivered (R507). -/
def State.noRoute (s : State) (p : Packet) : State :=
  if p.vc = 0 ∨ p.vc = 2 then
    s.sendPacket { p with ptype := 0x7, vc := 1, esc := false, down := false, dstH := p.srcH,
                          dstB := p.srcB, srcH := s.ownHarbour, srcB := s.ownBerth,
                          loc := ST_FAB_NO_ROUTE.toNat, len := 0, aop := 0, data := [] }
  else s

/-- Try the waiting packets again, in order: one whose destination has no route,
or whose escape generation has run out, is discarded; an escape packet of the previous
table follows that table (R507). -/
def State.pumpFabric (s : State) : State :=
  let q := s.fab.waitQ
  let s := { s with fab := { s.fab with waitQ := [] } }
  q.foldl (fun s w =>
    let p := w.pkt
    let stale := p.esc && (decide (w.gen + 1 < s.fab.gen.toNat) ||
      (decide (w.gen < s.fab.gen.toNat) && decide (s.fab.committedAt + msTicks 10 ≤ s.time)))
    let old := p.esc && decide (w.gen < s.fab.gen.toNat)
    let e := if old then (Table.getD s.fab.prevRt p.dstB 0).toNat else s.route p.dstB
    if p.vc ≠ 3 ∧ (stale || !(s.isSelf p.dstH p.dstB || (s.fab.assigned && bit e 31))) then
      (s.freeSlots w.port p).noRoute p
    else
      match s.choosePortBy e (if old then s.fab.prevDown else s.fab.downLinks) p with
      | some (k, x) => (s.updPort k (fun y => y.putPacket x)).freeSlots w.port p
      | none => { s with fab := { s.fab with waitQ := s.fab.waitQ ++ [w] } }) s

/-! ### Remote requests (R509, R511) -/

/-- Free places of the tracker. -/
def State.trackerFree (s : State) : Nat := 16384 - s.fab.reqs.length

/-- Send one remote request and take its place in the tracker. Packets that hold no
place carry TAG 0. -/
def State.sendReq (s : State) (owner : ReqOwner) (ptype h b tenant loc len aop : Nat)
    (data : List Byte) : State :=
  let tag := s.fab.nextTag % 65535 + 1
  let r : RemoteReq := { tag := tag, len := len, owner := owner, berth := b, sentAt := s.time }
  let s := { s with fab := { s.fab with reqs := s.fab.reqs ++ [r], nextTag := s.fab.nextTag + 1 } }
  s.sendPacket
    { ptype := ptype, vc := 0, esc := false, down := false, dstH := h, dstB := b,
      srcH := s.ownHarbour, srcB := s.ownBerth, tenant := tenant, tag := tag, loc := loc,
      len := len - 1, aop := aop, data := data }

/-- Pieces of a range that do not cross 256-byte boundaries: offset and length
(R499). -/
def pieces256 (a n : Nat) : List (Nat × Nat) :=
  let rec go : Nat → Nat → List (Nat × Nat)
    | 0, _ => []
    | fuel + 1, off =>
      if n ≤ off then []
      else
        let k := min (n - off) (256 - (a + off) % 256)
        (off, k) :: go fuel (off + k)
  go (n / 256 + 2) 0

end Sys2Proof.Machine
end

