-- ==== Sys2Proof/Machine/TileOps.lean ====
section
/-! DEFINITION. Shared operations of one tile: data queues, loop state, address
generators, the descriptor cache, and how a descriptor ends (chapters 04 and
05). -/

namespace Sys2Proof.Machine

/-! ### Descriptor fields (05 R170, R171) -/

def descCtrl (d : Nat) : Nat := byteField d 3 1
def descDqDir (d n : Nat) : Bool := bit (byteField d 4 1) n
def descAgCnt (d : Nat) : Nat := bits d (8 * 5) 5
def descAsLen (d : Nat) : Nat := bits d (8 * 6) 9
def descXsLen (d : Nat) : Nat := bits d (8 * 8) 9
def descTag (d : Nat) : Nat := byteField d 0x0C 4
def descLoop (d n : Nat) : Nat := byteField d (0x20 + 4 * n) 4
def descSr (d : Nat) : Bool := bit (descCtrl d) 0
def descSat (d : Nat) : Bool := bit (descCtrl d) 1
def descScEn (d : Nat) : Bool := bit (descCtrl d) 2
def descPreEn (d : Nat) : Bool := bit (descCtrl d) 3
def descDoneEn (d : Nat) : Bool := bit (descCtrl d) 4
def descDoneSo (d : Nat) : Nat := bits d (8 * 0x5C) 17

/-- Rounding mode of the i-th element the descriptor converts (03 R112). -/
def descRMode (d i : Nat) : RMode :=
  if descSr d then .sr (srDraw (byteField d 0x10 8) (byteField d 0x18 6) i) else .rne

/-! ### Streams -/

def Tile.stream (x : Tile) (exec : Bool) : StreamSt := if exec then x.xs else x.as
def Tile.setStream (x : Tile) (exec : Bool) (st : StreamSt) : Tile :=
  if exec then { x with xs := st } else { x with as := st }
def Tile.program (x : Tile) (exec : Bool) : List (BitVec 64) :=
  if exec then x.res.xsp else x.res.asp

/-- The operation word at a stream's next operation. -/
def Tile.opWord (x : Tile) (exec : Bool) : Option Nat :=
  ((x.program exec)[(x.stream exec).pc]?).map BitVec.toNat

/-- TILE_ERR_INFO.OP_INDEX of a position in a program: ENDLOOPs do not count in
the numbering only in so far as loop repeats do not advance it; the position is
the index in the program, saturated (04 R164). -/
def opIndexOf (pc : Nat) : Nat := min pc 0xFFFFFF

/-- Iteration index of a loop level: 0 when it is not open (05 R193). -/
def StreamSt.iter (st : StreamSt) (n : Nat) : Nat :=
  match st.loops.find? (fun l => l.lvl == n) with
  | some l => l.iter
  | none => 0

/-- Does a level stand at its last iteration? One that is not open does
(05 R188). -/
def StreamSt.lastIter (st : StreamSt) (n : Nat) : Bool :=
  match st.loops.find? (fun l => l.lvl == n) with
  | some l => decide (l.cnt ≤ l.iter + 1)
  | none => true

/-! ### Data queues (04 R150, 05 R184) -/

def Tile.dq (x : Tile) (n : Nat) : DataQueue := Table.getD x.dqs n DataQueue.reset
def Tile.setDq (x : Tile) (n : Nat) (q : DataQueue) : Tile := { x with dqs := Table.put x.dqs n q }

/-- Bytes the queue's 64 entries still take. -/
def DataQueue.room (q : DataQueue) : Nat := 4096 - (64 * q.entries.length + q.tail.length)

/-- Make full entries of the appended bytes visible. -/
def DataQueue.settle (q : DataQueue) : DataQueue :=
  let rec go : Nat → DataQueue → DataQueue
    | 0, q => q
    | fuel + 1, q =>
      if q.tail.length < 64 then q
      else go fuel { q with entries := q.entries ++ [BitVec.ofNat 512 (natOfBytes (q.tail.take 64))],
                            tail := q.tail.drop 64 }
  go 65 q

/-- Append bytes for which there is room. -/
def DataQueue.append (q : DataQueue) (bs : List Byte) : DataQueue :=
  DataQueue.settle { q with tail := q.tail ++ bs }

/-- Pad the entry being appended with zero bytes and make it visible. -/
def DataQueue.flush (q : DataQueue) : DataQueue :=
  if q.tail.isEmpty then q else q.append (List.replicate (64 - q.tail.length) 0)

/-- Move bytes of the backlog into the queue as far as there is room. -/
def DataQueue.refill (q : DataQueue) : DataQueue :=
  let k := min q.room q.backlog.length
  DataQueue.append { q with backlog := q.backlog.drop k } (q.backlog.take k)

/-- Hand a block to the queue: what does not fit waits in the backlog. -/
def DataQueue.offer (q : DataQueue) (bs : List Byte) : DataQueue :=
  DataQueue.refill { q with backlog := q.backlog ++ bs }

/-- Visible bytes not yet taken. -/
def DataQueue.avail (q : DataQueue) : Nat := 64 * q.entries.length - q.taken

/-- Take `n` visible bytes from the front. -/
def DataQueue.take (q : DataQueue) (n : Nat) : List Byte × DataQueue :=
  let all := (q.entries.take ((q.taken + n + 63) / 64)).flatMap (fun e => bytesOfNat 64 e.toNat)
  let bs := (all.drop q.taken).take n
  let t := q.taken + n
  (bs, DataQueue.refill { q with entries := q.entries.drop (t / 64), taken := t % 64 })

/-- Discard the rest of the entry the last take ended in. -/
def DataQueue.dropRest (q : DataQueue) : DataQueue :=
  if q.taken = 0 then q
  else DataQueue.refill { q with entries := q.entries.drop 1, taken := 0 }

/-- Pop one whole entry. -/
def DataQueue.pop (q : DataQueue) : Option (BitVec 512 × DataQueue) :=
  match q.entries with
  | [] => none
  | e :: r => some (e, DataQueue.refill { q with entries := r, taken := 0 })

/-- Nothing is left in the queue. -/
def DataQueue.isEmpty (q : DataQueue) : Bool :=
  q.entries.isEmpty && q.tail.isEmpty && q.backlog.isEmpty

/-- Banks whose drain into queue `n` has ended are free again. -/
def Tile.freeDrained (x : Tile) : Tile :=
  { x with matrix := { x.matrix with
      draining := x.matrix.draining.filter (fun d => !(x.dq d.2).backlog.isEmpty) } }

/-- Store a queue after a pop or take, releasing a bank that has drained. -/
def Tile.popped (x : Tile) (n : Nat) (q : DataQueue) : Tile := (x.setDq n q).freeDrained

/-! ### Tile event counters (04 R162) -/

def Tile.tec (x : Tile) (n : Nat) : Tec := Table.getD x.tecs n { count := 0, sat := false }

/-- Add to a TEC: it saturates at 0xFFFF, sets SAT and raises ST_TEC_SAT. -/
def State.tecAdd (s : State) (t n inc : Nat) : State :=
  let c := (s.tile t).tec n
  let v := c.count.toNat + inc
  if v ≤ 0xFFFF then
    s.updTile t (fun x => { x with tecs := Table.put x.tecs n { c with count := BitVec.ofNat 16 v } })
  else
    ((s.updTile t (fun x =>
        { x with tecs := Table.put x.tecs n { count := 0xFFFF#16, sat := true } })).raise
      ST_TEC_SAT 2 t none n).cntQuay (t / 64) 54 1

/-! ### Address generators (05 R194 to R198) -/

/-- Width in bits of an EW code. -/
def ewBits (ew : Nat) : Nat :=
  match ew with
  | 0 => 8 | 1 => 16 | 2 => 32 | 3 => 4 | 4 => 3 | _ => 6

def agAddr (e : Nat) : Nat := bits e 0 62
def agSpace (e : Nat) : Nat := bits e 62 2
def agEw (e : Nat) : Nat := bits e 64 3
def agKind (e : Nat) : Nat := bits e 67 2
def agSmode (e : Nat) : Nat := bits e 69 2
def agIdxAg (e : Nat) : Nat := bits e 72 4
def agIdxLvl (e : Nat) : Nat := bits e 76 3
def agIdxW (e : Nat) : Nat := bits e 79 1
def agStride (e n : Nat) : Int := sext 32 (byteField e (0x10 + 4 * n) 4)
def agLimit (e n : Nat) : Nat := byteField e (0x28 + 4 * n) 4

/-- What an address generator gives. -/
inductive AgOut where
  /-- the byte address, before the checks of R198 -/
  | addr (space : Nat) (a : Int)
  /-- the null index (R197) -/
  | null
  | fail (status : Status) (source : Nat)
  deriving DecidableEq, Repr

/-- Byte address from the indices of the levels (R196): clamped, strided, OFF
added. -/
def agCompute (e : Nat) (x : Nat → Nat) (off : Int) : AgOut :=
  let lim (n : Nat) : Nat :=
    let l := agLimit e n
    if l = 0 then x n else min (x n) (l - 1)
  let el : Int := (List.range 6).foldl (fun (a : Int) n => a + agStride e n * (lim n : Int)) off
  let b : Int := el * (ewBits (agEw e) : Int)
  if b % 8 ≠ 0 then .fail ST_AG_BITALIGN 1
  else .addr (agSpace e) ((agAddr e : Int) + b / 8)

/-- Address of an operation of the access stream through generator `ag`, with
the index read of an indexed one. -/
def State.agAddress (s : State) (t ag : Nat) (off : Int) : AgOut :=
  let x := s.tile t
  let e := ((x.res.ag[ag]?).getD 0).toNat
  let iter := x.as.iter
  if agKind e = 0 then agCompute e iter off
  else
    let ie := ((x.res.ag[agIdxAg e]?).getD 0).toNat
    let w : Nat := if agIdxW e = 0 then 2 else 4
    match agCompute ie iter 0 with
    | .fail st src => .fail st src
    | .null => .null
    | .addr _ a =>
      if a < 0 ∨ 0x30000 < a + (w : Int) then .fail ST_SPAD_RANGE 1
      else
        match s.readNum (tileBase t + a.toNat) w with
        | none => .fail ST_SPAD_UE 5
        | some v =>
          if v = 2 ^ (8 * w) - 1 then .null
          else agCompute e (fun n => if n = agIdxLvl e then v else iter n) off

/-! ### How a descriptor ends (04 R153, R156, 05 R205) -/

/-- CTRL of the running descriptor. -/
def Tile.desc (x : Tile) : Nat := x.cfgAct.toNat

/-- Release the cache lines the active descriptor locks; a line that DC_INV met
locked is dropped (05 R179). -/
def Tile.releaseLines (x : Tile) : Tile :=
  let ls := x.cache.map (fun l => { l with lockAct := false })
  { x with cache := ls.filter (fun l => !(l.inval && !l.lockPend)) }

/-- Write TILE_DONE, count the completion, and fill TILE_ERR_INFO. -/
def Tile.writeDone (x : Tile) (st : Status) (source op : Nat) : Tile :=
  let n := x.doneCnt + 1
  { x with doneStatus := st, doneFlags := x.flags, doneCnt := n, doneSeq := n.truncate 8,
           errSource := BitVec.ofNat 4 source, errOp := BitVec.ofNat 24 op }

/-- The trace record of a descriptor's end (22 R663). The handshake cycles it
took are a free value: the model counts no handshake cycles. -/
def State.traceDescEnd (s : State) (t : Nat) (tag : Nat) (st : Status) : State :=
  let x := s.tile t
  let seq := (x.job.map (·.seq)).getD 0
  let (cyc, s) := s.freshLong
  s.traceTile t 1 0x02 tag
    (st.toNat + 2 ^ 16 * x.flags.toNat + 2 ^ 32 * (cyc.toNat % 2 ^ 32) + 2 ^ 64 * seq)

/-- A completion counts for the tile's job: one more descriptor done, or the
unit's failure (07 R254, R255). -/
def Tile.jobDone (x : Tile) (st : Status) : Tile :=
  if st = 0 then
    { x with job := x.job.map (fun j => { j with done := j.done + 1, flags := j.flags ||| x.flags }) }
  else { x with unitEnded := some (x.unitEnded.getD st) }

/-- What the end of a descriptor leaves in the streams and the queues. -/
def Tile.clearRun (x : Tile) : Tile :=
  { x with active := false, ending := none, dqs := [], matrix := MatrixSt.reset, ttIn := [],
           ttRows := [], ttOut := [], atPoint := false,
           as := { StreamSt.reset with ended := true }, xs := { StreamSt.reset with ended := true },
           sc := if x.sc.state = 1 then { x.sc with state := 0 } else x.sc }

/-- The descriptor completes with a status: TILE_DONE, its record and its
count; an error clears PEND_VALID. What follows (IDLE, STOPPED or the pending
descriptor) is the caller's. -/
def State.finishDesc (s : State) (t : Nat) (st : Status) (source op : Nat) : State :=
  let s := s.traceDescEnd t (descTag (s.tile t).desc) st
  let s := s.updTile t (fun x =>
    (((x.writeDone st source op).jobDone st).clearRun).releaseLines)
  s.cntQuay (t / 64) (if st = 0 then 37 else if st = ST_TILE_ABORTED then 39 else 38) 1

/-- An error ends the descriptor. It completes at once when no queued signal
and no transfer is left, else when they are done (13 R417). -/
def State.failDesc (s : State) (t : Nat) (st : Status) (source op : Nat) : State :=
  let x := s.tile t
  if x.sigq.isEmpty && x.dmas.isEmpty then
    (s.finishDesc t st source op).updTile t (fun y =>
      { y with mode := .idle, pendValid := false })
  else
    s.updTile t (fun y => { y with ending := some (st, source, op) })

/-! ### Running one operation of a stream -/

/-- How an operation of a stream ends. -/
inductive OpOut where
  /-- it is done; the stream goes on at the next operation, or at a target -/
  | done (s : State) (next : Option Nat)
  /-- it waits -/
  | wait (s : State) (c : WaitCause)
  /-- it ends the descriptor -/
  | fail (s : State) (status : Status) (source : Nat)
  deriving Repr

/-- Is a stream ready to issue an operation? -/
def Tile.canIssue (x : Tile) (exec : Bool) : Bool :=
  (x.mode == .running || x.mode == .stopping) && x.active && x.ending.isNone
    && !(x.stream exec).ended

/-- Advance a stream past an operation; past the last one it ends (05 R180). -/
def Tile.advance (x : Tile) (exec : Bool) (next : Option Nat) (now : Nat) : Tile :=
  let st := x.stream exec
  let pc := next.getD (st.pc + 1)
  let y := x.setStream exec { st with pc := pc, wait := .none, popped := [], sent := false,
                                      ended := st.ended || decide ((x.program exec).length ≤ pc) }
  { y with lastProgress := now }

/-- Close an operation of a stream with its outcome. -/
def closeOp (t : Nat) (exec : Bool) : OpOut → State
  | .done s next => s.updTile t (fun x => x.advance exec next s.time)
  | .wait s c => s.updTile t (fun x =>
      let y := if (x.stream exec).wait = .none then { x with lastProgress := s.time } else x
      y.setStream exec { x.stream exec with wait := c })
  | .fail s st src =>
    s.failDesc t st src (opIndexOf ((s.tile t).stream exec).pc)

/-- Does a wait count as one on a data queue (04 R152)? -/
def WaitCause.onQueue : WaitCause → Bool
  | .push _ => true
  | .pop _ => true
  | _ => false

/-- A stream that has ended or waits on a data queue, and one that waits: a
stream that has ended but whose block has not all entered its queue waits. -/
def Tile.dqBlocked (x : Tile) (exec : Bool) : Bool :=
  let st := x.stream exec
  st.ended || st.wait.onQueue

/-- The deadlock of R152. -/
def Tile.deadlocked (x : Tile) : Bool :=
  x.dqBlocked false && x.dqBlocked true
    && (x.as.wait.onQueue || x.xs.wait.onQueue ||
        (List.range 4).any (fun n => !(x.dq n).backlog.isEmpty))

/-- Do both streams have the same open levels at the same iterations (R199)? -/
def Tile.sameLoops (x : Tile) : Bool :=
  decide (x.as.loops.map (fun l => (l.lvl, l.iter)) = x.xs.loops.map (fun l => (l.lvl, l.iter)))

/-- Queues empty and no accumulator bank held or in use (R199). A bank filled with
an input that no block has taken is in use (DEDUCED, log 29). -/
def Tile.enginesEmpty (x : Tile) : Bool :=
  (List.range 4).all (fun n => (x.dq n).isEmpty) && x.matrix.block.isNone
    && x.matrix.held.isEmpty && x.matrix.draining.isEmpty && x.matrix.input.isNone

/-- Must the hold at a pre-emption point be released (R200)? -/
def Tile.mustSkip (x : Tile) : Bool :=
  match x.as.wait, x.xs.wait with
  | .hold i, .hold j => !(i == j && x.sameLoops && x.enginesEmpty)
  | .hold _, w => x.xs.ended || w.onQueue
  | w, .hold _ => x.as.ended || w.onQueue
  | _, _ => false

/-- Let a held stream go on past its PREEMPT. -/
def Tile.unhold (x : Tile) (exec : Bool) (now : Nat) : Tile :=
  match (x.stream exec).wait with
  | .hold _ => x.advance exec none now
  | _ => x

/-- Skip the point if it cannot lead to a stop: SKIPS rises, saturating
(R200). -/
def State.skipCheck (s : State) (t : Nat) : State :=
  let x := s.tile t
  if x.mode = .stopping ∧ x.mustSkip then
    (s.updTile t (fun y =>
      let z := (y.unhold false s.time).unhold true s.time
      { z with skips := BitVec.ofNat 8 (satAdd 8 z.skips.toNat 1) })).cntQuay (t / 64) 41 1
  else s

/-- Run the operation at a stream's next position if it has opcode `opc` and
the stream can issue; otherwise nothing happens. -/
def State.streamOp (s : State) (t : Nat) (exec : Bool) (opc : Nat) (run : Nat → OpOut) : State :=
  let x := s.tile t
  match x.opWord exec with
  | some w =>
    if x.canIssue exec && bits w 0 8 == opc &&
       (match (x.stream exec).wait with
        | .hold _ => false
        | _ => true)
    then (closeOp t exec (run w)).skipCheck t
    else s
  | none => s

end Sys2Proof.Machine
end

