-- ==== Sys2Proof/Machine/SyncOps.lean ====
section
/-! DEFINITION. The sync unit and the barrier groups: operations on objects,
waiter passes, notes, arrivals and releases (chapter 13). -/

namespace Sys2Proof.Machine

/-! ### Waking units -/

/-- A waiting unit goes on with a status. A stream issues its next operation,
or its descriptor ends; a SYNC node or a stack descriptor is noted as woken. -/
def State.wake (s : State) (u : SyncUnit) (st : Status) : State :=
  match u with
  | .stream t exec =>
    if st = 0 then s.updTile t (fun x => x.advance exec none s.time)
    else s.failDesc t st (if exec then 2 else 1) (opIndexOf ((s.tile t).stream exec).pc)
  | _ => { s with sync := { s.sync with woken := s.sync.woken ++ [(u, st)] } }

/-! ### Objects -/

/-- Threshold of an operation with value `v` (13 R409). -/
def SyncObj.threshold (o : SyncObj) (v : Nat) : Nat :=
  if v ≠ 0 then v else max o.thresh.toNat 1

/-- One pass over an object's waiters (13 R412): COUNT after it, the waiters
released, and those that stay. -/
def passWaiters : Nat → List Waiter → Nat × List Waiter × List Waiter
  | c, [] => (c, [], [])
  | c, w :: r =>
    if w.dec then
      if w.t ≤ c then
        let (c', rel, stay) := passWaiters (c - w.t) r
        (c', w :: rel, stay)
      else (c, [], w :: r)
    else
      let (c', rel, stay) := passWaiters c r
      if w.t ≤ c then (c', w :: rel, stay) else (c', rel, w :: stay)

/-- Waiter places in use (13 R427). -/
def State.waiterCount (s : State) : Nat := (s.sync.objs.map (fun o => o.2.waiters.length)).sum

/-- Count operations applied. -/
def State.cntSync (s : State) (sop n : Nat) : State :=
  ({ s with sync := { s.sync with ops := s.sync.ops + BitVec.ofNat 32 n } }).cntMod (64 + sop) n

/-- Pass over the waiters of object `n`, release those that are due, and raise
the tenant's note if COUNT, which was `before`, has come to THRESH or more
(13 R412, R421). -/
def State.passObj (s : State) (n before : Nat) : State :=
  let o := s.so n
  let (c, rel, stay) := passWaiters o.count.toNat o.waiters
  let s := s.setSo n { o with count := BitVec.ofNat 32 c, waiters := stay }
  let s := rel.foldl (fun s w => (s.wake w.unit 0).cntSync (if w.dec then 2 else 1) 1) s
  let s := if rel.isEmpty then s else s.cntMod 72 rel.length
  let th := max o.thresh.toNat 1
  if o.irqEn && decide (before < th) && decide (th ≤ c) then s.writeNote o.tenant.toNat n c else s

/-- May the tenant operate on the object (13 R416)? -/
def State.soAllowed (s : State) (tenant n : Nat) : Bool :=
  (s.so n).valid && decide ((s.so n).tenant.toNat = tenant)

/-- A blocked operation: counted, and recorded as an isolation event naming the
issuer's tenant and the object. -/
def State.soBlocked (s : State) (kind unit tenant n : Nat) : State :=
  ({ s with sync := { s.sync with isoCnt := BitVec.ofNat 32 (satAdd 32 s.sync.isoCnt.toNat 1) } }).isolation
    ST_ISO_SYNC kind unit tenant n

/-- SIGNAL on an object: COUNT rises by v, or by 1 for a v of 0, stays at its
largest value on overflow, and its waiters are passed (13 R409, R413). -/
def State.soSignal (s : State) (n v : Nat) : State :=
  let o := s.so n
  let c := o.count.toNat + (if v = 0 then 1 else v)
  let s :=
    if c ≤ 0xFFFFFFFF then s.setSo n { o with count := BitVec.ofNat 32 c }
    else
      let s := s.setSo n { o with count := 0xFFFFFFFF#32, ovf := true }
      ({ s with sync := { s.sync with
          evtOvf := BitVec.ofNat 16 (satAdd 16 s.sync.evtOvf.toNat 1) } }).raise
        ST_SO_OVERFLOW 7 0 (some o.tenant.toNat) n
  (s.cntSync 0 1).passObj n o.count.toNat

/-- SET writes COUNT. -/
def State.soSet (s : State) (n v : Nat) : State :=
  let o := s.so n
  ((s.setSo n { o with count := BitVec.ofNat 32 v }).cntSync 3 1).passObj n o.count.toNat

/-- DEC lowers COUNT by v, or by 1 for a v of 0, and stops at 0. -/
def State.soDec (s : State) (n v : Nat) : State :=
  let o := s.so n
  let d := if v = 0 then 1 else v
  let s :=
    if d ≤ o.count.toNat then s.setSo n { o with count := BitVec.ofNat 32 (o.count.toNat - d) }
    else
      let s := s.setSo n { o with count := 0, unf := true }
      ({ s with sync := { s.sync with
          evtUnf := BitVec.ofNat 16 (satAdd 16 s.sync.evtUnf.toNat 1) } }).raise
        ST_SO_UNDERFLOW 7 0 (some o.tenant.toNat) n
  (s.cntSync 4 1).passObj n o.count.toNat

/-- What a WAIT or WAIT_DEC does on arrival. -/
inductive WaitOut where
  /-- its condition held: it is released at once -/
  | passed (s : State)
  /-- it waits, as a waiter or as a retried operation -/
  | waits (s : State)
  deriving Repr

/-- WAIT or WAIT_DEC of unit `u` (13 R409, R412, R414). -/
def State.soWait (s : State) (n v : Nat) (dec : Bool) (u : SyncUnit) : WaitOut :=
  let o := s.so n
  let t := o.threshold v
  if t ≤ o.count.toNat then
    if dec then
      let s := s.setSo n { o with count := BitVec.ofNat 32 (o.count.toNat - t) }
      .passed ((s.cntSync 2 1).passObj n o.count.toNat)
    else .passed (s.cntSync 1 1)
  else
    let w : Waiter := { unit := u, dec := dec, t := t }
    if s.waiterCount < 32768 then .waits (s.setSo n { o with waiters := o.waiters ++ [w] })
    else
      .waits ({ s with sync := { s.sync with
          retried := s.sync.retried ++ [{ so := n, waiter := w, tenant := o.tenant.toNat }] } })

/-- Take the waiting operations that a test picks out of every object, and pass
over the remaining waiters of the objects that lost one (13 R415). -/
def State.removeWaits (s : State) (p : SyncUnit → Bool) : State :=
  let hit := (s.sync.objs.filter (fun o => o.2.waiters.any (fun w => p w.unit))).map Prod.fst
  let s := { s with sync := { s.sync with
      retried := s.sync.retried.filter (fun r => !p r.waiter.unit)
      woken := s.sync.woken.filter (fun w => !p w.1) } }
  hit.foldl (fun s n =>
    let o := s.so n
    let s := s.setSo n { o with waiters := o.waiters.filter (fun w => !p w.unit) }
    s.passObj n o.count.toNat) s

/-- End every unit waiting on an object with ST_SO_FREED (13 R415). -/
def State.endWaiters (s : State) (n : Nat) : State :=
  let o := s.so n
  let rs := s.sync.retried.filter (fun r => r.so == n)
  let s := s.setSo n { o with waiters := [] }
  let s := { s with sync := { s.sync with retried := s.sync.retried.filter (fun r => !(r.so == n)) } }
  (o.waiters.map (·.unit) ++ rs.map (·.waiter.unit)).foldl (fun s u => s.wake u ST_SO_FREED) s

/-! ### Barrier groups (13 R422 to R426) -/

/-- Is the tile a member of the group? -/
def Barrier.member (b : Barrier) (t : Nat) : Bool :=
  bit b.qmask.toNat (t / 64) && bit b.tmask.toNat (t % 64)

/-- Number of members. -/
def Barrier.size (b : Barrier) : Nat := popcount 64 b.qmask.toNat * popcount 64 b.tmask.toNat

/-- A tile's arrive wire rises, recording PHASE. -/
def Barrier.arrive (b : Barrier) (t : Nat) : Barrier :=
  { b with arrived := b.arrived ++ [t], recorded := Table.put b.recorded t b.phase }

/-- If every member has arrived, release: PHASE toggles, the wires clear, the
waiting members go on, and the group's object is signalled (13 R423). Second
arrivals then arrive, which may complete the next phase (13 R425). -/
def State.barRelease (s : State) (g : Nat) : State :=
  let rec go : Nat → State → State
    | 0, s => s
    | fuel + 1, s =>
      let b := s.bar g
      if b.size = 0 ∨ b.arrived.length < b.size then s
      else
        let sec := b.second
        let b' := { b with phase := !b.phase, arrived := [], waiting := [], second := [],
                           releases := b.releases + 1 }
        let b' := sec.foldl (fun b x => b.arrive x.1) b'
        let b' := { b' with waiting := (sec.filter (fun x => x.2.2)).map (fun x => (x.1, x.2.1)) }
        let s := (s.setBar g b').cntMod 74 1
        let s := b.waiting.foldl (fun s w => s.wake (.stream w.1 w.2) 0) s
        let s := (sec.filter (fun x => !x.2.2)).foldl (fun s x => s.wake (.stream x.1 x.2.1) 0) s
        let s := if b.sigEn then
            (if s.soAllowed b.tenant.toNat b.so.toNat then s.soSignal b.so.toNat 1
             else s.soBlocked 7 0 b.tenant.toNat b.so.toNat)
          else s
        go fuel s
  go ((s.bar g).second.length + 2) s

/-- The check a barrier operation of a tile meets: bound to the tile's tenant,
and the tile a member (13 R416, R425). -/
def State.barCheck (s : State) (g t tenant : Nat) : Option Status :=
  let b := s.bar g
  if !b.valid || decide (b.tenant.toNat ≠ tenant) then some ST_ISO_SYNC
  else if !b.member t then some ST_BAR_NOT_MEMBER
  else none

/-- BAR (`wait`) or BAR_ARRIVE by a stream: the answer says whether the stream
goes on at once. -/
def State.barArrive (s : State) (g t : Nat) (exec wait : Bool) : State × Bool :=
  let b := s.bar g
  if b.arrived.contains t then
    (s.setBar g { b with second := b.second ++ [(t, exec, wait)] }, false)
  else
    let b := b.arrive t
    let released := decide (b.size ≤ b.arrived.length)
    let b := if wait && !released then { b with waiting := b.waiting ++ [(t, exec)] } else b
    let s := ((s.setBar g b).cntQuay (t / 64) 51 1).barRelease g
    (s, !wait || released)

/-- BAR_WAIT by a stream: released at once if the tile has not arrived since
the group's last release. -/
def State.barWait (s : State) (g t : Nat) (exec : Bool) : State × Bool :=
  let b := s.bar g
  let s := s.cntQuay (t / 64) 52 1
  if b.arrived.contains t then (s.setBar g { b with waiting := b.waiting ++ [(t, exec)] }, false)
  else (s, true)

/-- An ABORT of a member clears its arrive wire and its waits (13 R426). -/
def State.barAbort (s : State) (t : Nat) : State :=
  { s with sync := { s.sync with bars := Table.mapV s.sync.bars (fun _ b =>
      { b with arrived := b.arrived.filter (· ≠ t)
               waiting := b.waiting.filter (fun w => w.1 != t)
               second := b.second.filter (fun x => x.1 != t) }) } }

end Sys2Proof.Machine
end

