-- ==== Sys2Proof/Machine/DmaOps.lean ====
section
/-! DEFINITION. DMA lists: the header and its completion-queue block, the choice
of an engine, and how lists end and are stopped (12 R373 to R375, R383, R386). -/

namespace Sys2Proof.Machine

/-! ### Headers (R374, R383) -/

def listSpread (h : Nat) : Bool := bit (byteField h 3 1) 0
def listCount (h : Nat) : Nat := byteField h 4 4
def listDesc (h : Nat) : Nat := byteField h 8 6
def listCq (h : Nat) : Nat := byteField h 0x10 6

def listHeaderOk (h : Nat) : Bool :=
  byteField h 0 3 == 0x520801 && bits h 25 7 == 0 && decide (1 ≤ listCount h)
    && decide (listCount h ≤ 65536) && listDesc h % 64 == 0 && byteField h 0x0E 2 == 0
    && listCq h % 64 == 0 && byteField h 0x16 2 == 0 && byteField h 0x18 40 == 0

def cqBlockOk (b : Nat) : Bool :=
  byteField b 0 3 == 0x530801 && decide (4 ≤ byteField b 3 1) && decide (byteField b 3 1 ≤ 16)
    && bits b 33 7 == 0 && byteField b 5 3 == 0 && byteField b 8 8 % 64 == 0
    && byteField b 0x18 40 == 0

/-- Read the list header at `a`, and its completion-queue block, at dispatch. -/
def State.readList (s : State) (tenant a : Nat) : Except Status Nat × State :=
  match s.accessRecord 10 0 tenant false a 64 with
  | (some e, s) => (.error e, s)
  | (none, s) =>
    match s.loadNum a 64 with
    | (none, s) => (.error ST_GRAPH_FETCH_UE, s)
    | (some h, s) =>
      if !listHeaderOk h then (.error ST_DMA_LIST_FMT, s)
      else if listCq h = 0 then (.ok h, s)
      else
        match s.accessRecord 10 0 tenant false (listCq h) 64 with
        | (some e, s) => (.error e, s)
        | (none, s) =>
          match s.loadNum (listCq h) 64 with
          | (none, s) => (.error ST_GRAPH_FETCH_UE, s)
          | (some b, s) => (if cqBlockOk b then .ok h else .error ST_DMA_LIST_FMT, s)

/-! ### Engines (R375) -/

def State.engine (s : State) (e : Nat) : DmaEngine :=
  Table.getD s.dma.engines e { done := 0, err := 0, bytes := 0 }
def State.updEngine (s : State) (e : Nat) (f : DmaEngine → DmaEngine) : State :=
  { s with dma := { s.dma with engines := Table.put s.dma.engines e (f (s.engine e)) } }

/-- Lists an engine holds, and descriptors running on it. -/
def State.engineLists (s : State) (e : Nat) : Nat :=
  (s.dma.ctxs.filter (fun (c : Nat × DmaCtx) => c.2.engine == e)).length
def State.engineRuns (s : State) (e : Nat) : Nat :=
  ((s.dma.ctxs.flatMap (fun (c : Nat × DmaCtx) => c.2.running)).filter (fun r => r.engine == e)).length

/-- The engine of DMAE0 to DMAE14 with the fewest descriptors running among those
a test admits, lowest number on a tie; none that is under reset. -/
def State.leastEngine (s : State) (ok : Nat → Bool) : Option Nat :=
  ((List.range 15).filter (fun e => ok e && !s.underReset (0x400 + e))).foldl (fun (b : Option Nat) e =>
    match b with
    | none => some e
    | some x => if s.engineRuns e < s.engineRuns x then some e else some x) none

/-- Change a list context. -/
def State.updCtx (s : State) (c : Nat) (f : DmaCtx → DmaCtx) : State :=
  { s with dma := { s.dma with ctxs := Table.mapV s.dma.ctxs (fun k x => if k = c then f x else x) } }

/-- Hand a list to the engines: it waits for a free context. -/
def State.dmaSubmit (s : State) (seq node tenant hdr : Nat) : State :=
  { s with dma := { s.dma with waiting := s.dma.waiting ++
      [{ engine := 0, seq := seq, node := node, tenant := tenant, hdr := BitVec.ofNat 512 hdr,
         next := 0, running := [], completed := 0, flags := 0 }] } }

/-- Stop a graph's DMA lists: waiting ones are dropped, running ones start and
issue nothing more; their remote requests keep their places of the tracker until
they are answered (R386, 16 R509). -/
def State.abortDma (s : State) (seq : Nat) : State :=
  { s with
    dma := { s.dma with
      waiting := s.dma.waiting.filter (fun c => c.seq != seq)
      ctxs := s.dma.ctxs.filter (fun c => c.2.seq != seq)
      ended := s.dma.ended.filter (fun e => e.1 != seq) } }

end Sys2Proof.Machine
end

