-- ==== Sys2Proof/Machine/TwinOps.lean ====
section
/-! DEFINITION. Shared operations of the twin stream: sending messages to the
paired module and keeping them until they are acknowledged (16 R515 to R518). -/

namespace Sys2Proof.Machine

/-- Is state streamed to the paired module: joined, or resynchronising? -/
def State.twinOn (s : State) : Bool :=
  s.fab.twinMode && (s.fab.twin.state == 1 || s.fab.twin.state == 5)

/-- Bytes of the replay buffer in use; a message takes its data bytes. -/
def Twin.used (x : Twin) : Nat := (x.buffer.map (fun m => 16 + m.payload.length)).sum

/-- The packet of a message, addressed to the paired module. -/
def State.twinPacket (s : State) (m : TwinMsg) : Packet :=
  { ptype := 9, vc := 3, esc := false, down := false, dstH := 1 - s.ownHarbour, dstB := s.ownBerth,
    srcH := s.ownHarbour, srcB := s.ownBerth, tenant := 0, tag := 0, loc := 0,
    len := 15 + m.payload.length, aop := 0,
    data := bytesOfNat 8 m.tseq ++ bytesOfNat 8 m.kind ++ m.payload }

/-- Put a message on the twin ports. -/
def State.twinPut (s : State) (m : TwinMsg) : State :=
  let p := s.twinPacket m
  let port := ((s.choosePort p).map Prod.fst).getD 14
  let m := { m with port := port, sentAt := s.time }
  ({ s with fab := { s.fab with twin := { s.fab.twin with
      buffer := s.fab.twin.buffer ++ [m] } } }).sendPacket p

/-- Send messages that waited, as far as the replay buffer of 64 MiB has room. -/
def State.twinPump (s : State) : State :=
  let w := s.fab.twin.waiting
  let s := { s with fab := { s.fab with twin := { s.fab.twin with waiting := [] } } }
  w.foldl (fun s m =>
    if s.fab.twin.waiting.isEmpty && decide (s.fab.twin.used + 16 + m.payload.length ≤ 2 ^ 26) then
      s.twinPut m
    else { s with fab := { s.fab with twin := { s.fab.twin with
      waiting := s.fab.twin.waiting ++ [m] } } }) s

/-- Send one twin message of a kind, if state is streamed. -/
def State.twinSend (s : State) (kind : Nat) (payload : List Byte) : State :=
  if !s.twinOn then s
  else
    let n := s.fab.twin.tx + 1
    let m : TwinMsg := { tseq := n, kind := kind, payload := payload, port := 14, sentAt := s.time }
    ({ s with fab := { s.fab with twin := { s.fab.twin with
        tx := n, waiting := s.fab.twin.waiting ++ [m] } } }).twinPump

/-- MEM_WRITE messages of a write, 128 bytes at most in each. -/
def State.twinWrite (s : State) (a : Nat) (bs : List Byte) : State :=
  if !s.twinOn then s
  else (List.range ((bs.length + 127) / 128)).foldl (fun s i =>
    s.twinSend 2 (bytesOfNat 8 (a + 128 * i) ++ (bs.drop (128 * i)).take 128)) s

/-- Does a manifest entry have MIRRORED? -/
def State.entMirrored (s : State) (i : Nat) : Bool :=
  match Table.find s.serving.entries i with
  | some e => bit e.w.toNat 8
  | none => false

/-- A write of the KV cache of an entry: its own memory, and the twin's where the
entry is mirrored (15 R488). -/
def State.kvPut (s : State) (entry a : Nat) (bs : List Byte) : State :=
  let s := s.writeMem a bs
  if s.entMirrored entry then s.twinWrite a bs else s

/-- The half of a range that this module uses: the whole of it outside
twin-harbour mode, else the lower one for harbour 0 (16 R515). -/
def State.twinHalf (s : State) (n : Nat) : Nat × Nat :=
  if !s.fab.twinMode then (0, n)
  else if s.fab.harbour then (n / 2, n - n / 2) else (0, n / 2)

end Sys2Proof.Machine
end

