-- ==== Sys2Proof/Machine/KvOps.lean ====
section
/-! DEFINITION. The KV cache: geometries, where slots and lists lie, page tables,
allocation of pages, summary keys, and freeing (chapter 15). -/

namespace Sys2Proof.Machine

/-! ### Geometry (R468) -/

def kvFormat (g : Nat) : Nat := bits g 24 2
def kvModel (g : Nat) : Nat := bits g 32 12
def kvD (g : Nat) : Nat := byteField g 6 1
def kvHeads (g : Nat) : Nat := byteField g 7 1
def kvLayers (g : Nat) : Nat := byteField g 8 2
def kvSegLog (g : Nat) : Nat := byteField g 0x0A 1
def kvLazy (g : Nat) : Bool := bit (byteField g 0x0B 1) 0
def kvPeer (g : Nat) : Bool := bit (byteField g 0x0B 1) 1
def kvMask (g : Nat) : Nat := bits g (8 * 0x0C) 12
def kvSlots (g : Nat) : Nat := byteField g 0x0E 2
def kvJ0 (g : Nat) : Nat := byteField g 0x10 4
def kvFullTtl (g : Nat) : Nat := byteField g 0x1C 4
def kvListAddr (g : Nat) : Nat := byteField g 0x20 6
def kvListBytes (g : Nat) : Nat := byteField g 0x28 8
def kvParkAddr (g : Nat) : Nat := byteField g 0x30 8
def kvParkBytes (g : Nat) : Nat := byteField g 0x38 8

/-- The geometry of a model. -/
def State.kvGeom (s : State) (model : Nat) : Option Nat :=
  (Table.find s.kv.geoms model).map BitVec.toNat

/-! ### Frames (R470, R471) -/

/-- Local address of byte y of chunk x of a near-bank unit's stack-zone part. -/
def State.kvLocal (s : State) (stack nbu x y : Nat) : Nat :=
  s.nbuLocal stack (nbu / 16) (nbu % 16) (s.tiers.spread * 2 ^ 24 + 4096 * x + y)

/-- First chunk of the frame group of slot i in layer l. -/
def kvGroup (g i l : Nat) : Nat := kvJ0 g + l * (kvSlots g / 16) * 18 + i / 16 * 18

def State.kvElem (s : State) (g stack nbu i l : Nat) : Nat :=
  s.kvLocal stack nbu (kvGroup g i l + i % 16) 0
def State.kvScale (s : State) (g stack nbu i l : Nat) : Nat :=
  s.kvLocal stack nbu (kvGroup g i l + 16) (256 * (i % 16))
def State.kvSumm (s : State) (g stack nbu i l : Nat) : Nat :=
  s.kvLocal stack nbu (kvGroup g i l + 17) (256 * (i % 16))

/-! ### Page tables and lists (R472, R473) -/

/-- SEG(g) and start(g). -/
def kvSeg (geo g : Nat) : Nat := min (2 ^ kvSegLog geo) (32 * 2 ^ g)
def kvStart (geo : Nat) : Nat → Nat
  | 0 => 0
  | g + 1 => kvStart geo g + kvSeg geo g

/-- The segment that holds a page. -/
def kvSegOf (geo page : Nat) : Nat :=
  ((List.range 64).find? (fun g => decide (page < kvStart geo (g + 1)))).getD 64

/-- A list entry of 16 bytes. -/
def kvNull : List Byte := bytesOfNat 16 (2 ^ 48 - 1)

/-- Local address of the list entry of (layer, kind, position in the segment). -/
def kvEntryAddr (geo blk seg layer kind j : Nat) : Nat :=
  blk + ((3 * layer + kind) * kvSeg geo seg + j) * 16

/-- Find a page's list entry through the directory of the page table at `pt`:
none for a null one; an error for an uncorrectable read. -/
def State.kvEntry (s : State) (geo pt h layer kind page : Nat) :
    Except Unit (Option (Nat × Nat)) × State :=
  match s.loadNum pt 64 with
  | (none, s) => (.error (), s)
  | (some hd, s) =>
    let seg := kvSegOf geo page
    let nseg := byteField hd 6 1
    if nseg ≤ seg then (.ok none, s)
    else
      match s.loadNum (pt + 0x40 + 16 * (h * nseg + seg)) 16 with
      | (none, s) => (.error (), s)
      | (some de, s) =>
        let blk := bits de 0 48
        if blk = 0 then (.ok none, s)
        else
          match s.loadNum (kvEntryAddr geo blk seg layer kind (page - kvStart geo seg)) 16 with
          | (none, s) => (.error (), s)
          | (some e, s) =>
            if bits e 0 48 = 2 ^ 48 - 1 then (.ok none, s)
            else (.ok (some (bits e 0 48, bits e 64 48)), s)

/-! ### Free space -/

/-- The lowest free range of `n` bytes in an area, aligned to `al`, given what is
taken there. -/
def freeRange (base size n al : Nat) (taken : List (Nat × Nat)) : Option Nat :=
  let up (a : Nat) : Nat := (a + al - 1) / al * al
  let cands := up base :: taken.map (fun r => up (r.1 + r.2))
  let ok (a : Nat) : Bool := decide (base ≤ a) && decide (a + n ≤ base + size) &&
    taken.all (fun r => decide (r.1 + r.2 ≤ a) || decide (a + n ≤ r.1))
  (cands.filter ok).foldl (fun (b : Option Nat) a =>
    match b with
    | none => some a
    | some x => some (min x a)) none

/-- Take a range of a model's list area or parking area. -/
def State.kvTake (s : State) (geo entry : Nat) (use : KvUse) (n : Nat) : Option Nat × State :=
  let model := kvModel geo
  let park := use == .image
  let base := if park then kvParkAddr geo % 2 ^ 48 else kvListAddr geo
  let size := if park then kvParkBytes geo else kvListBytes geo
  let taken := (s.kv.areas.filter (fun (a : KvArea) => a.model == model && ((a.use == .image) == park))).map
    (fun a => (a.base, a.size))
  let (lo, len) := s.twinHalf size
  match freeRange (base + lo) len n 64 taken with
  | none => (none, s)
  | some a =>
    (some a, { s with kv := { s.kv with areas := s.kv.areas ++
      [{ model := model, entry := entry, use := use, base := a, size := n }] } })

/-- Free slots of a bank group in a model's pool, lowest first. -/
def State.kvFreeSlots (s : State) (geo stack nbu : Nat) : List Nat :=
  let used := (s.kv.slots.filter (fun (x : KvSlot) =>
    x.model == kvModel geo && x.stack == stack && x.nbu == nbu)).map (·.slot)
  let (lo, n) := s.twinHalf (kvSlots geo)
  ((List.range n).map (· + lo)).filter (fun i => !used.contains i)

/-- Is a near-bank unit's pseudo-channel in the map and not fenced? -/
def State.nbuWorks (s : State) (stack nbu : Nat) : Bool :=
  s.pcWorks stack (nbu / 16) && !s.unitFenced (stack * 64 + nbu / 16)

/-- Free slots of a stack in a model's pool. -/
def State.kvStackFree (s : State) (geo stack : Nat) : Nat :=
  let (lo, n) := s.twinHalf (kvSlots geo)
  ((List.range 1024).filter (s.nbuWorks stack)).length * n -
    (s.kv.slots.filter (fun (x : KvSlot) => x.model == kvModel geo && x.stack == stack
      && decide (lo ≤ x.slot) && decide (x.slot < lo + n))).length

/-! ### Allocation of pages (R476 to R478) -/

/-- Stack of an existing page of a head group. -/
def State.kvPageStack (s : State) (entry h page : Nat) : Option Nat :=
  (s.kv.slots.find? (fun (x : KvSlot) => x.entry == entry && x.head == h && x.page == page && !x.isV)).map
    (·.stack)

/-- Segments of an entry that lie in a stack: of a head group, and of all. -/
def State.kvSegsIn (s : State) (geo entry stack : Nat) (h : Option Nat) : Nat :=
  ((s.kv.slots.filter (fun (x : KvSlot) =>
    x.entry == entry && x.stack == stack && !x.isV
      && (match h with
          | some k => x.head == k
          | none => true)
      && kvStart geo (kvSegOf geo x.page) == x.page)).length)

/-- The least element of a list by a list of keys. -/
def leastBy (key : Nat → List Nat) : List Nat → Option Nat
  | [] => none
  | x :: r =>
    let lt (a b : List Nat) : Bool :=
      ((List.zip a b).find? (fun p => p.1 != p.2)).elim false (fun p => decide (p.1 < p.2))
    some (r.foldl (fun b y => if lt (key y) (key b) then y else b) x)

/-- The stack of a new page (R477, 08 R276): that of the previous page of its
segment if it has a free slot, else by free pages on its die and then on
either; for the first page of a segment, by the keys of R477. -/
def State.kvChooseStack (s : State) (geo entry h page : Nat) : Option Nat :=
  let free (st : Nat) : Nat := s.kvStackFree geo st
  let cands := (List.range 12).filter (fun st => bit (kvMask geo) st && decide (2 ≤ free st))
  if kvStart geo (kvSegOf geo page) = page then
    leastBy (fun st => [s.kvSegsIn geo entry st (some h), s.kvSegsIn geo entry st none,
      2 ^ 32 - free st, st]) cands
  else
    -- all pages of a segment lie in one stack (R473)
    match s.kvPageStack entry h (page - 1) with
    | some st => if cands.contains st then some st else none
    | none => none

/-- Near-bank units of a stack that have a free slot, cyclically from `first`. -/
def State.kvFirstFree (s : State) (geo stack first : Nat) : Option Nat :=
  ((List.range 1024).map (fun k => (first + k) % 1024)).find? (fun n =>
    s.nbuWorks stack n && !(s.kvFreeSlots geo stack n).isEmpty)

/-- The bank group with the most free slots, lowest number on a tie. -/
def State.kvRoomiest (s : State) (geo stack : Nat) : Option Nat :=
  leastBy (fun n => [2 ^ 32 - (s.kvFreeSlots geo stack n).length, n])
    ((List.range 1024).filter (fun n => s.nbuWorks stack n && !(s.kvFreeSlots geo stack n).isEmpty))

/-- Take one slot. -/
def State.kvTakeSlot (s : State) (geo stack nbu entry h page : Nat) (isV : Bool) : Option KvSlot × State :=
  match s.kvFreeSlots geo stack nbu with
  | [] => (none, s)
  | i :: _ =>
    let x : KvSlot := { model := kvModel geo, stack := stack, nbu := nbu, slot := i, entry := entry,
                        head := h, page := page, isV := isV }
    (some x, { s with kv := { s.kv with slots := s.kv.slots ++ [x] } })

/-- Count a failed allocation. -/
def State.kvFail (s : State) (pt : Bool) : State :=
  let k := s.kv
  { s with kv :=
      if pt then { k with ptFail := BitVec.ofNat 16 (satAdd 16 k.ptFail.toNat 1) }
      else { k with poolFail := BitVec.ofNat 16 (satAdd 16 k.poolFail.toNat 1) } }

/-- Write the list entries of a page of a head group for every layer. -/
def State.kvWriteEntries (s : State) (geo blk seg j : Nat) (k v : KvSlot) : State :=
  (List.range (kvLayers geo)).foldl (fun s l =>
    let ent (x : KvSlot) : List Byte :=
      bytesOfNat 8 (s.kvElem geo x.stack x.nbu x.slot l) ++
        bytesOfNat 8 (if kvFormat geo = 1 then s.kvScale geo x.stack x.nbu x.slot l else 0)
    let s := s.kvPut k.entry (kvEntryAddr geo blk seg l 0 j) (ent k)
    let s := s.kvPut k.entry (kvEntryAddr geo blk seg l 1 j) (ent v)
    if kvFormat geo = 1 then
      let zero := List.replicate 256 (0 : Byte)
      (s.kvPut k.entry (s.kvScale geo k.stack k.nbu k.slot l) zero).kvPut k.entry
        (s.kvScale geo v.stack v.nbu v.slot l) zero
    else s) s

/-- Allocate a page of one head group: its slots, its list block if it is the
first of its segment, its entries and its directory entry. -/
def State.kvAllocHead (s : State) (geo entry pt nseg h page : Nat) : Except Status State :=
  let seg := kvSegOf geo page
  if nseg ≤ seg then .error ST_KV_PT_FULL
  else
    match s.kvChooseStack geo entry h page with
    | none => .error ST_KV_POOL_FULL
    | some st =>
      let prev := s.kv.slots.find? (fun (x : KvSlot) =>
        x.entry == entry && x.head == h && x.page + 1 == page && !x.isV)
      let first := kvStart geo seg = page
      let knbu := if first then s.kvRoomiest geo st
        else s.kvFirstFree geo st (((prev.map (·.nbu)).getD 0 + 1) % 1024)
      match knbu with
      | none => .error ST_KV_POOL_FULL
      | some kn =>
        match s.kvTakeSlot geo st kn entry h page false with
        | (none, _) => .error ST_KV_POOL_FULL
        | (some k, s) =>
          match s.kvFirstFree geo st ((kn + 512) % 1024) with
          | none => .error ST_KV_POOL_FULL
          | some vn =>
            match s.kvTakeSlot geo st vn entry h page true with
            | (none, _) => .error ST_KV_POOL_FULL
            | (some v, s) =>
              let n := 3 * kvLayers geo * kvSeg geo seg * 16
              let blk : Option (Nat × State) :=
                if first then
                  match s.kvTake geo entry (.list h seg) n with
                  | (some a, s) =>
                    some (a, s.kvPut entry a ((List.range (n / 16)).flatMap (fun _ => kvNull)))
                  | (none, _) => none
                else
                  (s.kv.areas.find? (fun (a : KvArea) => a.entry == entry && a.use == .list h seg)).map
                    (fun a => (a.base, s))
              match blk with
              | none => .error ST_KV_LIST_FULL
              | some (b, s) =>
                let j := page - kvStart geo seg
                let s := s.kvWriteEntries geo b seg j k v
                .ok (s.kvPut entry (pt + 0x40 + 16 * (h * nseg + seg))
                  (bytesOfNat 16 (b + 2 ^ 48 * st + 2 ^ 64 * (j + 1))))

/-- Allocate a page of every head group; nothing is taken if one fails. -/
def State.kvAllocPage (s : State) (geo entry pt nseg page : Nat) : Except Status State :=
  let rec go : Nat → Nat → State → Except Status State
    | 0, _, s => .ok s
    | k + 1, h, s =>
      match s.kvAllocHead geo entry pt nseg h page with
      | .ok s => go k (h + 1) s
      | .error e => .error e
  match go (kvHeads geo) 0 s with
  | .ok s => .ok (s.kvPut entry (pt + 8) (bytesOfNat 4 (page + 1)))
  | .error e => .error e

/-- Allocate pages `from` to `upTo`; a failure leaves the state before. -/
def State.kvAllocPages (s : State) (geo entry pt nseg from_ upTo : Nat) : Except Status State :=
  (List.range (upTo + 1 - from_)).foldl (fun (r : Except Status State) i =>
    match r with
    | .ok s => s.kvAllocPage geo entry pt nseg (from_ + i)
    | e => e) (.ok s)

/-! ### Summary keys (R482) -/

/-- The summary record of one K slot in one layer: mean and max-abs, each D
codes of E4M3; none where a row cannot be read. -/
def State.kvSummary (s : State) (geo : Nat) (x : KvSlot) (l : Nat) : Option (List Byte) × State :=
  let d := kvD geo
  match s.loadNum (s.kvElem geo x.stack x.nbu x.slot l) (32 * d) with
  | (none, s) => (none, s)
  | (some e, s) =>
    let (sc, s) := if kvFormat geo = 1 then s.loadNum (s.kvScale geo x.stack x.nbu x.slot l) (32 * (d / 32))
      else (some 0, s)
    match sc with
    | none => (none, s)
    | some sc =>
      let val (t i : Nat) : BitVec 32 :=
        (loadFp32 3 (if kvFormat geo = 1 then 1 else 0) (byteField e (t * d + i) 1)
          (byteField sc (t * (d / 32) + i / 32) 1) 0).1
      let col (i : Nat) : List (BitVec 32) := (List.range 32).map (fun t => val t i)
      let conv (w : BitVec 32) : Byte := BitVec.ofNat 8 (convElem 3 false .rne (ofFp32 w)).1
      let mean (i : Nat) : Byte :=
        let (sm, _) := fpAdd 0 (chunkSum (col i)).1
        conv (fpDiv sm 0x42000000#32).1
      let mabs (i : Nat) : Byte := conv (chunkMax ((col i).map (fun w => w &&& 0x7FFFFFFF#32)))
      (some ((List.range d).map mean ++ (List.range d).map mabs), s)

/-- Summarise a full page of every head group: the records, then the SUM
entries, then SUMMED. A row that cannot be read leaves its summary unwritten. -/
def State.kvSummarise (s : State) (geo entry pt nseg page : Nat) : State :=
  let seg := kvSegOf geo page
  let s := (List.range (kvHeads geo)).foldl (fun s h =>
    match s.kv.slots.find? (fun (x : KvSlot) =>
        x.entry == entry && x.head == h && x.page == page && !x.isV),
      s.loadNum (pt + 0x40 + 16 * (h * nseg + seg)) 16 with
    | some x, (some de, s) =>
      (List.range (kvLayers geo)).foldl (fun s l =>
        match s.kvSummary geo x l with
        | (none, s) => s
        | (some bs, s) =>
          let a := s.kvSumm geo x.stack x.nbu x.slot l
          let s := s.kvPut entry a bs
          let s := s.kvPut entry (kvEntryAddr geo (bits de 0 48) seg l 2 (page - kvStart geo seg))
            (bytesOfNat 16 a)
          { s with kv := { s.kv with sums := s.kv.sums + 1 } }) s
    | _, _ => s) s
  s.kvPut entry (pt + 0x0C) (bytesOfNat 4 (page + 1))

/-- Summarise pages `from` up to `to` − 1. -/
def State.kvSummarisePages (s : State) (geo entry pt nseg from_ to_ : Nat) : State :=
  (List.range (to_ - from_)).foldl (fun s i => s.kvSummarise geo entry pt nseg (from_ + i)) s

/-! ### Freeing (R479) -/

/-- Free the slots and list blocks of an entry. -/
def State.kvFreePages (s : State) (entry : Nat) : State :=
  { s with kv := { s.kv with
      slots := s.kv.slots.filter (fun x => x.entry != entry)
      areas := s.kv.areas.filter (fun a => a.entry != entry || a.use == .image || a.use == .table) } }

/-- Free everything of an entry, and write its page table as empty; a table the
engine created is freed. -/
def State.kvFreeAll (s : State) (entry pt heads nseg : Nat) : State :=
  let s := s.kvFreePages entry
  let own := s.kv.areas.any (fun (a : KvArea) => a.entry == entry && a.use == .table)
  let s := { s with kv := { s.kv with areas := s.kv.areas.filter (fun a => a.entry != entry) } }
  if own then s
  else
    let flags := ((s.loadNum (pt + 3) 1).1).getD 0
    let s := s.kvPut entry (pt + 3) (bytesOfNat 1 (flags / 2 * 2))
    let s := s.kvPut entry (pt + 8) (List.replicate 8 0)
    let s := s.kvPut entry (pt + 0x10) (List.replicate 8 0)
    s.kvPut entry (pt + 0x40) (List.replicate (16 * heads * nseg) 0)

end Sys2Proof.Machine
end

