-- ==== Sys2Proof/Machine/StackCheck.lean ====
section
/-! DEFINITION. Stack descriptors: their fields, the checks a chain meets when
its node is dispatched, and the addresses a descriptor touches (09 R293 to
R303). -/

namespace Sys2Proof.Machine

/-! ### Fields (R293, R294) -/

def sdOpc (d : Nat) : Nat := byteField d 3 1
def sdMask (d : Nat) : Nat := bits d (8 * 4) 12
def sdFlags (d : Nat) : Nat := byteField d 6 1
def sdOverlap (d : Nat) : Bool := bit (sdFlags d) 0
def sdLast (d : Nat) : Bool := bit (sdFlags d) 1
def sdSat (d : Nat) : Bool := bit (sdFlags d) 2
def sdWaitEn (d : Nat) : Bool := bit (sdFlags d) 3
def sdSigEn (d : Nat) : Bool := bit (sdFlags d) 4
def sdPlace (d : Nat) : Bool := bit (sdFlags d) 5
def sdAccIn (d : Nat) : Bool := bit (sdFlags d) 6
def sdFunc (d : Nat) : Nat := byteField d 7 1
def sdNbuFirst (d : Nat) : Nat := bits d (8 * 8) 10
def sdNbuCnt (d : Nat) : Nat := bits d (8 * 0x0A) 11
def sdTag (d : Nat) : Nat := byteField d 0x0C 4
def sdN (d : Nat) : Nat := byteField d 0x10 4
def sdK (d : Nat) : Nat := byteField d 0x14 4
def sdB (d : Nat) : Nat := bits d (8 * 0x18) 7
def sdKsplit (d : Nat) : Nat := bits d (8 * 0x19) 6
def sdWType (d : Nat) : Nat := bits d (8 * 0x1A) 4
def sdWMode (d : Nat) : Nat := bits d (8 * 0x1A + 4) 2
def sdPaged (d : Nat) : Bool := bit d (8 * 0x1A + 6)
def sdXType (d : Nat) : Nat := bits d (8 * 0x1B) 4
def sdXMode (d : Nat) : Nat := bits d (8 * 0x1B + 4) 2
def sdOutType (d : Nat) : Nat := bits d (8 * 0x1C) 4
def sdOutMode (d : Nat) : Nat := bits d (8 * 0x1C + 4) 2
def sdDest (d : Nat) : Nat := bits d (8 * 0x1C + 6) 2
def sdParam (d : Nat) : Nat := byteField d 0x1E 2
/-- Offset and stride of operand M0, M1 or M2. -/
def sdOff (d m : Nat) : Nat := bits d (8 * (0x20 + 8 * m)) 26
def sdStride (d m : Nat) : Nat := byteField d (0x24 + 8 * m) 4
def sdXAddr (d : Nat) : Nat := byteField d 0x38 8
def sdXSaddr (d : Nat) : Nat := byteField d 0x40 8
def sdAux (d : Nat) : Nat := byteField d 0x48 8
def sdOut (d : Nat) : Nat := byteField d 0x50 8
def sdOutS (d : Nat) : Nat := byteField d 0x58 8
def sdPageAddr (d : Nat) : Nat := byteField d 0x60 6
def sdXVs (d : Nat) : Nat := byteField d 0x68 4
def sdOutVs (d : Nat) : Nat := byteField d 0x6C 4
def sdScalar (d : Nat) : BitVec 32 := BitVec.ofNat 32 (byteField d 0x70 4)
def sdBcast (d : Nat) : Nat := bits d (8 * 0x74) 12
def sdWaitSo (d : Nat) : Nat := bits d (8 * 0x78) 17
def sdSigSo (d : Nat) : Nat := bits d (8 * 0x7C) 17

/-- Stacks of a mask, in increasing number. -/
def stacksOf (mask : Nat) : List Nat := (List.range 12).filter (fun n => bit mask n)

/-- NS and L of R299: for operations other than GEMV, L = N. -/
def sdStacks (d : Nat) : List Nat := stacksOf (sdMask d)
def sdL (d : Nat) : Nat :=
  if sdOpc d = 0x10 then
    let ns := max 1 (sdStacks d).length
    (sdN d + ns - 1) / ns
  else sdN d

/-- Local rows of stack position `sig`. -/
def sdLocalRows (d sig : Nat) : Nat := min (sdN d) ((sig + 1) * sdL d) - min (sdN d) (sig * sdL d)

/-! ### What an operation is (R295) -/

def sdIsRow (d : Nat) : Bool := decide (1 ≤ sdOpc d) && decide (sdOpc d ≤ 6)
def sdIsEw (d : Nat) : Bool := decide (0x18 ≤ sdOpc d) && decide (sdOpc d ≤ 0x1C)

/-- Does the operation run on the near-bank units? -/
def sdNbu (d : Nat) : Bool :=
  sdIsRow d || sdOpc d == 0x10 || sdOpc d == 0x11 || sdOpc d == 0x28 ||
    ((decide (0x18 ≤ sdOpc d) && decide (sdOpc d ≤ 0x1B) && !sdPlace d)
      || (sdOpc d == 0x20 && decide (2 ≤ sdFunc d) && !sdPlace d)
      || (sdOpc d == 0x22 && sdFunc d == 1 && !sdPlace d))

/-- May the operation choose its place? -/
def sdPlaceable (d : Nat) : Bool :=
  (decide (0x18 ≤ sdOpc d) && decide (sdOpc d ≤ 0x1B))
    || (sdOpc d == 0x20 && decide (2 ≤ sdFunc d)) || (sdOpc d == 0x22 && sdFunc d == 1)

/-- Does it use the range of near-bank units? A paged one takes the units that
hold its pages. -/
def sdRange (d : Nat) : Bool := sdNbu d && !sdPaged d

/-- Does it write to OUT_ADDR? -/
def sdOuts (d : Nat) : Bool :=
  !(sdIsRow d) && !(sdIsEw d && sdNbu d)

/-- Does it read a vector operand at X_ADDR? -/
def sdReadsX (d : Nat) : Bool := sdOpc d == 0x10 || sdOpc d == 0x11 || sdOpc d == 0x28 || !sdNbu d

/-- Does it read FP32 (or, in a GEMV, INT32) values at AUX_ADDR, and how many
per vector? -/
def sdAuxCount (d : Nat) : Option Nat :=
  let n := sdN d
  match sdOpc d with
  | 0x10 => if sdAccIn d then some n else none
  | 0x18 | 0x19 | 0x1B => if sdNbu d then none else some n
  | 0x1C => some ((n + (if sdParam d = 0 then n else sdParam d) - 1)
      / max 1 (if sdParam d = 0 then n else sdParam d))
  | _ => none

/-- Output elements per vector, as they are written. -/
def sdOutCount (d : Nat) : Nat :=
  match sdOpc d with
  | 0x20 => if 2 ≤ sdFunc d then 1 else sdN d
  | 0x22 => if 1 ≤ sdFunc d then 2 else sdN d
  | _ => sdN d

/-- Type of the output as stored: FP32 for halves and for DEST 3. -/
def sdStoredType (d : Nat) : Nat :=
  if sdDest d = 3 ∨ (sdOpc d = 0x20 ∧ 2 ≤ sdFunc d) ∨ (sdOpc d = 0x22 ∧ 1 ≤ sdFunc d) then 0
  else sdOutType d

/-- Is an address field in the vector buffer, and its offset there? -/
def vbOff (a : Nat) : Option Nat := if bit a 63 then some (bits a 0 20) else none

/-! ### Check 1: format -/

/-- Reserved bits of an address field of R296. -/
def sdAddrOk (a : Nat) : Bool := if bit a 63 then bits a 20 43 == 0 else bits a 48 15 == 0

def sdFormatOk (d : Nat) : Bool :=
  byteField d 0 1 == 1 && byteField d 1 1 == 0x10 && byteField d 2 1 == 0x21
    && bits d (8 * 4 + 12) 4 == 0 && !bit (sdFlags d) 7 && bits d (8 * 8 + 10) 6 == 0
    && bits d (8 * 0x0A + 11) 5 == 0 && !bit d (8 * 0x18 + 7) && bits d (8 * 0x19 + 6) 2 == 0
    && !bit d (8 * 0x1A + 7) && bits d (8 * 0x1B + 6) 2 == 0 && byteField d 0x1D 1 == 0
    && (List.range 3).all (fun m => bits d (8 * (0x20 + 8 * m) + 26) 6 == 0)
    && sdAddrOk (sdXAddr d) && sdAddrOk (sdXSaddr d)
    && (sdOpc d == 0x02 || sdAddrOk (sdAux d)) && sdAddrOk (sdOut d) && sdAddrOk (sdOutS d)
    && byteField d 0x66 2 == 0 && bits d (8 * 0x74 + 12) 4 == 0 && byteField d 0x76 2 == 0
    && bits d (8 * 0x78 + 17) 15 == 0 && bits d (8 * 0x7C + 17) 15 == 0

/-! ### Check 2: opcodes -/

def sdOpcOk (d : Nat) : Bool :=
  [0x01, 0x02, 0x03, 0x04, 0x05, 0x06, 0x10, 0x11, 0x18, 0x19, 0x1A, 0x1B, 0x1C, 0x20, 0x22,
   0x28, 0x30].contains (sdOpc d)

/-! ### Check 3: field values -/

/-- Bytes an NBU-side operand takes from its offset on in one near-bank unit. -/
def sdNbuExtent (d m : Nat) : Nat :=
  let b := max 1 (sdB d)
  if sdIsRow d then 1024 * sdN d
  else if sdOpc d = 0x10 then
    -- row slots of one unit: units of a stack over the units of the range
    let units := sdLocalRows d 0 * max 1 (sdKsplit d)
    let slots := (units + max 1 (sdNbuCnt d) - 1) / max 1 (sdNbuCnt d)
    let g := (sdK d + 31) / 32
    let gp := (g + max 1 (sdKsplit d) - 1) / max 1 (sdKsplit d)
    let one := match m with
      | 0 => gp * 32 * typeBits (sdWType d) / 8
      | 1 => gp
      | _ => 2 * (gp / 32 + 1)
    if slots = 0 then 0 else (slots - 1) * sdStride d m + one
  else
    let w := if m = 2 then typeBits (sdOutType d) else typeBits (sdWType d)
    (b - 1) * sdStride d m + (sdN d * w + 7) / 8

/-- Which of M0, M1, M2 the operation names by NBU offset. -/
def sdUses (d m : Nat) : Bool :=
  if sdPaged d || !sdNbu d then false
  else
    match sdOpc d with
    | 0x01 => m == 0 || m == 2
    | 0x02 => m == 2
    | 0x03 | 0x04 | 0x05 => true
    | 0x06 => m == 0 || m == 2
    | 0x10 => m == 0 || (m == 1 && sdWMode d != 0) || (m == 2 && sdWMode d == 2)
    | 0x18 | 0x19 | 0x1B => true
    | 0x1A => m == 0 || m == 2
    | 0x20 | 0x22 => m == 0
    | _ => false

/-- Which strides of M0, M1, M2 it uses. -/
def sdUsesStride (d m : Nat) : Bool :=
  if sdIsRow d then false
  else if sdPaged d then
    (sdOpc d != 0x28) && (m == 0 || (m == 1 && sdWMode d != 0))
  else sdUses d m

/-- Fields an operation does not use shall be 0 (R295). -/
def sdUnusedOk (d : Nat) : Bool :=
  let z (c : Bool) (v : Nat) : Bool := c || v == 0
  let o := sdOpc d
  let mv := o == 0x10 || o == 0x11 || o == 0x28
  z (sdRange d) (bits d (8 * 8) 10 + sdNbuCnt d) && z mv (sdK d) && z (!sdIsRow d) (sdB d)
    && z (o == 0x10 || o == 0x30) (sdKsplit d)
    && z (sdNbu d && !sdIsRow d) (sdWType d + sdWMode d)
    && z mv (b2n (sdPaged d)) && z (sdReadsX d && o != 0x30) (sdXType d + sdXMode d)
    && z (!sdIsRow d && o != 0x28) (sdOutType d + sdOutMode d)
    && z (sdOuts d && o != 0x28) (sdDest d)
    && z (o == 0x1C || o == 0x28) (sdParam d)
    && (List.range 3).all (fun m => z (sdUses d m) (sdOff d m) && z (sdUsesStride d m) (sdStride d m))
    && z (sdReadsX d) (sdXAddr d) && z (sdReadsX d && sdXMode d != 0) (sdXSaddr d)
    && z ((sdAuxCount d).isSome || o == 0x02 || (o == 0x20 && (decide (sdFunc d ≤ 1) || sdFunc d == 4))
        || (o == 0x22 && sdFunc d == 0)) (sdAux d)
    && z (sdOuts d) (sdOut d) && z (sdOuts d && sdOutMode d != 0) (sdOutS d)
    && z (sdPaged d) (sdPageAddr d) && z (sdReadsX d) (sdXVs d)
    && z (sdOuts d && o != 0x28) (sdOutVs d)
    && z (o == 0x10 || o == 0x11 || (o == 0x20 && decide (sdFunc d ≤ 1))) (sdScalar d).toNat
    && z (sdDest d == 1) (sdBcast d)

/-- Is FUNC defined for the operation? -/
def sdFuncOk (d : Nat) : Bool :=
  match sdOpc d with
  | 0x1A | 0x1B => decide (sdFunc d ≤ 9)
  | 0x1C => decide (sdFunc d ≤ 1)
  | 0x20 => decide (sdFunc d ≤ 4)
  | 0x22 | 0x28 => decide (sdFunc d ≤ 2)
  | _ => sdFunc d == 0

/-- Check 3. -/
def sdFieldsOk (nodeMask d : Nat) : Bool :=
  let o := sdOpc d
  let g := (sdK d + 31) / 32
  sdMask d != 0 && (sdMask d &&& nodeMask) == sdMask d
    && (!sdRange d || (decide (1 ≤ sdNbuCnt d) && decide (sdNbuFirst d + sdNbuCnt d ≤ 1024)))
    && (sdIsRow d || (decide (1 ≤ sdB d) && decide (sdB d ≤ 64)))
    && (!(o == 0x10 || o == 0x30) || (decide (1 ≤ sdKsplit d) && decide (sdKsplit d ≤ 32)))
    && (o != 0x10 || decide (sdKsplit d ≤ g))
    && decide (1 ≤ sdN d)
    && (!(o == 0x10 || o == 0x11 || o == 0x28) || decide (1 ≤ sdK d))
    && (o != 0x28 || (decide (1 ≤ sdParam d) && decide (sdParam d ≤ 256)))
    && (sdPlaceable d || !sdPlace d) && sdFuncOk d
    && (sdDest d != 2 || o == 0x10) && (sdDest d != 3 || o == 0x10 || o == 0x11)
    && (sdDest d != 1 || (bit (sdOut d) 63 && sdBcast d != 0))
    && (!sdPaged d || (popcount 12 (sdMask d) == 1 && (sdWMode d != 2)))
    && (sdPaged d || !(o == 0x11 || o == 0x28))
    && (!sdAccIn d || (o == 0x10 && sdScalar d == 0))
    && (!sdNbu d || !sdIsEw d || (sdWMode d == 0 && sdOutMode d == 0))
    && (!sdNbu d || !(o == 0x20 || o == 0x22) || sdWMode d == 0)
    && decide (sdOutMode d ≤ 1)
    && (List.range 3).all (fun m => !sdUses d m || decide (sdOff d m + sdNbuExtent d m ≤ 2 ^ 26))
    && sdUnusedOk d

/-! ### Check 4: alignment -/

def sdAlignOk (d : Nat) : Bool :=
  let u := if sdIsRow d then 1024 else 16
  sdOff d 0 % u == 0 && sdStride d 0 % u == 0
    && (!sdIsRow d || (sdOff d 2 % 1024 == 0 && sdOff d 1 % 1024 == 0))
    && (sdXMode d == 0 || sdXVs d % 32 == 0)
    && (sdOutMode d == 0 || sdOutVs d % 32 == 0)
    && (sdOutMode d != 1 || decide ((sdStacks d).length ≤ 1) || sdL d % 32 == 0)
    && sdPageAddr d % 16 == 0

/-! ### Check 5: types -/

/-- Pairs of GEMV and GEMVT (R298). -/
def sdPairOk (d : Nat) : Bool :=
  let w := sdWType d
  let m := sdWMode d
  let x := sdXType d
  let k := sdXMode d
  let fp8 (t : Nat) : Bool := t == 3 || t == 4
  if sdOpc d = 0x10 then
    (fp8 w && decide (m ≤ 2) && fp8 x && decide (k ≤ 1))
      || (w == 7 && (m == 1 || m == 2) && ((fp8 x && decide (k ≤ 1)) || (x == 7 && k == 1)))
      || (w == 0xA && m == 2 && ((fp8 x && decide (k ≤ 1)) || (x == 7 && k == 1)))
      || (w == 8 && x == 8 && m == k && decide (m ≤ 1))
  else ((fp8 w && decide (m ≤ 1)) || (w == 7 && m == 1)) && fp8 x && decide (k ≤ 1)

/-- One type and mode, for the operations R88 and R100 govern. -/
def sdTypeCheck (ty mode : Nat) : Option Status :=
  if !typeDefined ty then some ST_TYPE_UNSUPPORTED
  else if !modeAccepted ty mode then some ST_SCALE_MODE else none

/-- Check 5; `lic` is the FP4 and T3 licence. -/
def sdTypes (lic : Bool) (d : Nat) : Option Status :=
  let o := sdOpc d
  let out := if sdOuts d || sdIsEw d then sdTypeCheck (sdOutType d) (sdOutMode d) else none
  let ins : Option Status :=
    if sdIsRow d then none
    else if sdXMode d = 2 then some ST_SCALE_MODE
    else if o = 0x10 ∨ o = 0x11 then
      if !(typeNbu (sdWType d) && typeNbu (sdXType d)) then some ST_TYPE_UNSUPPORTED
      else
        match sdTypeCheck (sdWType d) (sdWMode d), sdTypeCheck (sdXType d) (sdXMode d) with
        | some e, _ => some e
        | _, some e => some e
        | none, none => if sdPairOk d then none else some ST_TYPE_PAIR
    else if o = 0x28 then
      if !((sdWType d == 3 || sdWType d == 1) && (sdXType d == 3 || sdXType d == 4 || sdXType d == 1))
      then some ST_TYPE_UNSUPPORTED
      else if sdWMode d = 0 ∧ sdXMode d ≤ 1 then sdTypeCheck (sdXType d) (sdXMode d) else some ST_SCALE_MODE
    else if sdNbu d then sdTypeCheck (sdWType d) (sdWMode d)
    else if o = 0x30 then none else sdTypeCheck (sdXType d) (sdXMode d)
  match ins, out with
  | some e, _ => some e
  | none, some e => some e
  | none, none =>
    let named := (if sdNbu d && !sdIsRow d then [sdWType d] else [])
      ++ (if sdReadsX d && o != 0x30 then [sdXType d] else []) ++ [sdOutType d]
    if !lic && named.any typeLicensed then some ST_TYPE_UNLICENSED else none

/-! ### Check 6: units in service -/

def State.sdNbusOk (s : State) (d : Nat) : Bool :=
  !sdRange d || (sdStacks d).all (fun st =>
    (List.range (sdNbuCnt d)).all (fun k => s.pcWorks st ((sdNbuFirst d + k) / 16)))

/-! ### Checks 7 to 9: the places an operation touches -/

/-- One operand of a descriptor: its address field, whether it is written, and
per vector its pitch and its length in bits. -/
structure SdSpan where
  addr : Nat
  write : Bool
  vecs : Nat
  pitch : Nat
  len : Nat
  deriving DecidableEq, Repr

/-- Outputs per vector that a descriptor may write at OUT_ADDR, over all its
stacks where they are written at global indices. -/
def sdOutExtent (d : Nat) : Nat :=
  let n := sdN d
  if sdDest d = 2 then 0
  else if bit (sdOut d) 63 && sdDest d == 0 then (if sdOpc d = 0x10 then sdL d else sdOutCount d)
  else if sdOpc d = 0x10 then n
  else sdOutCount d * max 1 (sdStacks d).length

/-- What an operation reads and writes at X_ADDR, X_SADDR, AUX_ADDR, OUT_ADDR,
OUT_SADDR and PAGE_ADDR. The vector operand comes first where there is one. -/
def sdSpans (d : Nat) : List SdSpan :=
  let b := max 1 (sdB d)
  let o := sdOpc d
  let n := sdN d
  let xn := if o = 0x10 ∨ o = 0x28 ∨ o = 0x11 then sdK d else if o = 0x22 ∧ sdFunc d = 2 then 2 * n else n
  let xv := (if o = 0x30 then max 1 (sdKsplit d) else 1) * b
  let xw := typeBits (sdXType d)
  let ow := typeBits (sdStoredType d)
  let oc := sdOutExtent d
  let x := if sdReadsX d then [SdSpan.mk (sdXAddr d) false xv (sdXVs d * xw) (xn * xw)] else []
  let xs := if sdReadsX d && sdXMode d != 0 then
    [SdSpan.mk (sdXSaddr d) false xv (sdXVs d / 32 * 8) ((xn + 31) / 32 * 8)] else []
  let aux : List SdSpan :=
    match sdAuxCount d with
    | some k =>
      if o = 0x10 then [⟨sdAux d, false, b, 32 * sdOutVs d, 32 * n⟩]
      else if o = 0x1C then [⟨sdAux d, false, 1, 0, 32 * (b * k)⟩]
      else [⟨sdAux d, false, b, 32 * sdXVs d, 32 * k⟩]
    | none =>
      if o = 0x20 ∧ sdFunc d = 0 then [⟨sdAux d, false, 1, 0, 32 * n⟩]
      else if o = 0x20 ∧ sdFunc d = 1 then [⟨sdAux d, false, 1, 0, 64 * n⟩]
      else if o = 0x20 ∧ sdFunc d = 4 then [⟨sdAux d, false, 1, 0, 32 * b⟩]
      else if o = 0x22 ∧ sdFunc d = 0 then [⟨sdAux d, true, 1, 0, 32 * b⟩] else []
  let out : List SdSpan :=
    if !sdOuts d then []
    else if sdDest d = 2 then [⟨sdOut d, false, 1, 0, 512⟩]
    else if o = 0x28 then [⟨sdOut d, true, 1, 0, 64 * (sdParam d * b)⟩]
    else [⟨sdOut d, true, b, sdOutVs d * ow, oc * ow⟩]
  let os := if sdOuts d && sdOutMode d == 1 && sdStoredType d == sdOutType d && decide (sdDest d ≤ 1) then
    [SdSpan.mk (sdOutS d) true b (sdOutVs d / 32 * 8) ((oc + 31) / 32 * 8)] else []
  let pages := if sdPaged d then
    [SdSpan.mk (sdPageAddr d) false 1 0
      (128 * (((if o = 0x11 then sdK d else if o = 0x28 then 32 * n else n) + 31) / 32))]
    else []
  x ++ xs ++ aux ++ out ++ os ++ pages

/-- The range from the first to the last byte of each: address field, bytes,
whether written. -/
def sdRanges (d : Nat) : List (Nat × Nat × Bool) :=
  (sdSpans d).map (fun p => (p.addr, ((p.vecs - 1) * p.pitch + p.len + 7) / 8, p.write))

/-- The bytes of each vector of an operand: first address, number. -/
def SdSpan.pieces (p : SdSpan) : List (Nat × Nat) :=
  (List.range p.vecs).map (fun v => (p.addr + v * p.pitch / 8, (p.len + 7) / 8))

/-- Do two sets of ranges share a byte? -/
def piecesMeet (p q : List (Nat × Nat)) : Bool :=
  p.any (fun x => q.any (fun y => decide (x.1 < y.1 + y.2) && decide (y.1 < x.1 + x.2)))

/-- Ranges of operand M0, M1 or M2 in a unit's bank group, vector by vector. -/
def sdNbuPieces (d m : Nat) : List (Nat × Nat) :=
  if sdIsRow d then [(sdOff d m, 1024 * sdN d)]
  else
    let w := if m = 2 then typeBits (sdOutType d) else typeBits (sdWType d)
    (List.range (max 1 (sdB d))).map (fun v => (sdOff d m + v * sdStride d m, (sdN d * w + 7) / 8))

/-- An input and an output overlap, so that the results are not defined: source
and destination rows (R310), or any other operands but D lying exactly on A
(R295). -/
def sdOverlaps (d : Nat) : Bool :=
  let sp := sdSpans d
  let ins := sp.filter (fun p => !p.write)
  let outs := sp.filter (fun p => p.write)
  let exact (i o : SdSpan) : Bool := sdReadsX d && i.addr == sdXAddr d && o.addr == sdOut d
    && i.pitch == o.pitch && i.len == o.len && i.vecs == o.vecs && sdXType d == sdStoredType d
  let vec := ins.any (fun i => outs.any (fun o => !exact i o && piecesMeet i.pieces o.pieces))
  let nbu := sdUses d 2 && (sdIsRow d || sdIsEw d) &&
    ((sdUses d 0 && piecesMeet (sdNbuPieces d 0) (sdNbuPieces d 2)
        && (sdIsRow d || sdNbuPieces d 0 != sdNbuPieces d 2 || sdWType d != sdOutType d))
      || (sdUses d 1 && piecesMeet (sdNbuPieces d 1) (sdNbuPieces d 2)))
  vec || nbu

/-- Check 7: vector-buffer ranges within the node's allotment. -/
def sdVbOk (slots d : Nat) : Bool :=
  (sdRanges d).all (fun r =>
    match vbOff r.1 with
    | some o => decide (o + r.2.1 ≤ slots * 4096)
    | none => true)

/-- RB footprint in slots (R291). -/
def sdFootprint (d : Nat) : Nat :=
  let bytes :=
    match sdOpc d with
    | 0x10 => sdLocalRows d 0 * sdB d * 4 * max 1 (sdKsplit d)
    | 0x11 => sdN d * sdB d * 4 * ((sdK d + 31) / 32)
    | _ => sdN d * sdB d * 4
  (bytes + 4095) / 4096

/-- Local addresses of a range of offsets of one near-bank unit, chunk by chunk:
offset in the range, address and bytes. -/
def State.nbuPieces (s : State) (stack nbu o n : Nat) : List (Nat × Nat × Nat) :=
  let c0 := o / 4096
  let k := if n = 0 then 0 else (o + n - 1) / 4096 + 1 - c0
  (List.range k).map (fun i =>
    let lo := max o ((c0 + i) * 4096)
    let hi := min (o + n) ((c0 + i + 1) * 4096)
    (lo - o, s.nbuLocal stack (nbu / 16) (nbu % 16) lo, hi - lo))

/-- Check 9: local addresses, and those of the ranges of the near-bank units,
permitted to the tenant. -/
def State.sdPermitted (s : State) (stack tenant d : Nat) : Option Status × State :=
  let ranges := (sdRanges d).filter (fun r => (vbOff r.1).isNone)
  let nbus : List (Nat × Nat × Bool) :=
    if !sdRange d then []
    else
      (sdStacks d).flatMap (fun st =>
        (List.range (sdNbuCnt d)).flatMap (fun k =>
          (List.range 3).flatMap (fun m =>
            if sdUses d m then
              (s.nbuPieces st (sdNbuFirst d + k) (sdOff d m) (sdNbuExtent d m)).map (fun p =>
                (p.2.1, p.2.2, (m == 2 && (sdIsRow d || sdIsEw d))))
            else [])))
  let rec go : List (Nat × Nat × Bool) → State → Option Status × State
    | [], s => (none, s)
    | r :: rest, s =>
      match s.accessRecord 3 stack tenant r.2.2 (bits r.1 0 48) r.2.1 with
      | (some e, s) => (some e, s)
      | (none, s) => go rest s
  go (ranges ++ nbus) s

/-- Checks 1 to 9 of one descriptor (R297). -/
def State.sdCheck (s : State) (tenant nodeMask slots d : Nat) : Option Status × State :=
  let stack := ((sdStacks d).head?).getD 0
  if !sdFormatOk d then (some ST_STK_DESC_FMT, s)
  else if !sdOpcOk d then (some ST_STK_OPC, s)
  else if !sdFieldsOk nodeMask d then (some ST_STK_FIELD, s)
  else if !sdAlignOk d then (some ST_STK_ALIGN, s)
  else
    match sdTypes (s.licences.getLsbD 0) d with
    | some e => (some e, s)
    | none =>
      if !s.sdNbusOk d then (some ST_STK_NBU_OUT, s)
      else if !sdVbOk slots d then (some ST_STK_VB_RANGE, s)
      else if slots < sdFootprint d then (some ST_STK_SLOTS, s)
      else s.sdPermitted stack tenant d

/-- Read a chain: its descriptors up to the one with LAST, or the failure with
the index it concerns (R297, R311). -/
def State.readChain (s : State) (tenant a : Nat) :
    (Except (Status × Nat) (List (BitVec 1024))) × State :=
  let rec go : Nat → Nat → List (BitVec 1024) → State →
      (Except (Status × Nat) (List (BitVec 1024))) × State
    | 0, _, _, s => (.error (ST_STK_CHAIN_LEN, 0), s)
    | k + 1, i, acc, s =>
      match s.accessRecord 3 0 tenant false (a + 128 * i) 128 with
      | (some e, s) => (.error (e, i), s)
      | (none, s) =>
        match s.loadNum (a + 128 * i) 128 with
        | (none, s) => (.error (ST_GRAPH_FETCH_UE, i), s)
        | (some d, s) =>
          let acc := acc ++ [BitVec.ofNat 1024 d]
          if sdLast d then (.ok acc, s) else go k (i + 1) acc s
  go 4096 0 [] s

/-- Check every descriptor of a chain in order: the first failure with its index
and the descriptor's first stack. -/
def State.chainCheck (tenant nodeMask slots : Nat) :
    List (BitVec 1024) → Nat → State → Option (Status × Nat × Nat) × State
  | [], _, s => (none, s)
  | d :: r, i, s =>
    match s.sdCheck tenant nodeMask slots d.toNat with
    | (some e, s) => (some (e, ((stacksOf (sdMask d.toNat)).head?).getD
        (((stacksOf nodeMask).head?).getD 0), i), s)
    | (none, s) => State.chainCheck tenant nodeMask slots r (i + 1) s

end Sys2Proof.Machine
end

