-- ==== Sys2Proof/Machine/PilotOps.lean ====
section
/-! DEFINITION. Shared operations of the Pilot: decision records, thresholds,
the choice of a node's form and of its quay regions, and block space
(chapter 08). -/

namespace Sys2Proof.Machine

/-! ### Decision records (R283) -/

/-- Append a decision record to the decision log and, as a decision of the
Pilot, to the logbook. -/
def State.pilRecord (s : State) (dkind tenant flags stage subject index detail : Nat) : State :=
  let p := s.pilot
  let (base, _) := s.resv 3
  let rcd := bytesOfNat 3 0x460401 ++ bytesOfNat 1 dkind ++ bytesOfNat 2 tenant ++ bytesOfNat 1 flags
    ++ bytesOfNat 1 stage ++ bytesOfNat 8 subject ++ bytesOfNat 4 index ++ bytesOfNat 4 s.time
    ++ bytesOfNat 8 detail
  let s := if (s.resv 3).2 = 0 then s else s.resvWrite 64 (base + 32 * (p.dlogHead.toNat % 4096)) rcd
  let s := { s with pilot := { p with
    dlogHead := p.dlogHead + 1
    dlogLost := if 4096 ≤ p.dlogHead.toNat then BitVec.ofNat 32 (satAdd 32 p.dlogLost.toNat 1)
      else p.dlogLost } }
  (s.logDecision 0x602 [detail]).cntMod (47 + dkind) 1

/-! ### Thresholds and forms (R268 to R271) -/

def State.pilThresh (s : State) (c : Nat) : Nat :=
  (Table.getD s.pilot.thresh c (if c = 2 then 0x0625#16 else 0x0831#16)).toNat

/-- Clamp of a threshold. -/
def threshClamp (v : Nat) : Nat := max 0x0100 (min 0x4000 v)

/-- Routing class of a chain: by its first GEMV (R268). -/
def routeClass (ds : List (BitVec 1024)) : Nat :=
  match ds.find? (fun d => sdOpc d.toNat == 0x10) with
  | some d =>
    let w := sdWType d.toNat
    if w = 7 then 1 else if w = 0xA then 2 else 0
  | none => 0

/-- Is the STACK form chosen for a call of `b` tokens? (R269) -/
def State.stackForm (s : State) (cls b : Nat) : Bool := decide (b * 256 < s.pilThresh cls)

/-! ### Quay regions (R272, R273) -/

/-- Tiles of a group, in order. -/
def groupTiles (g : Nat) : List Nat := (List.range 8).map (fun i => g / 8 * 64 + g % 8 * 8 + i)

/-- Tiles held by running nodes. -/
def State.heldTiles (s : State) : List Nat :=
  s.graph.graphs.flatMap (fun g => g.2.nodes.flatMap (fun n => n.2.held))

/-- Is every tile of a group free, in a quay whose control core runs? -/
def State.groupFree (s : State) (held : List Nat) (g : Nat) : Bool :=
  let q := s.quay (g / 8)
  q.inService && !q.outOfService && s.coreRuns (g / 8) && (groupTiles g).all (fun t => !held.contains t)

/-- The quays of a stage, in increasing number. -/
def stageQuays (gs : List Nat) : List Nat := (gs.map (· / 8)).eraseDups

/-- Grid position of a quay: die, row, column (01 R27). -/
def quayPos (q : Nat) : Nat × Nat × Nat := (q / 32, q % 32 / 8, q % 8)

/-- Mesh hops between two quays, a die-bridge crossing counting as four. -/
def quayHops (a b : Nat) : Nat :=
  let (da, ra, ca) := quayPos a
  let (db, rb, cb) := quayPos b
  let dist (x y : Nat) : Nat := x - y + (y - x)
  if da = db then dist ra rb + dist ca cb else (7 - ca) + (7 - cb) + dist ra rb + 4

/-- Hops of a producer and a consumer stage, over their quays in order. -/
def pairHops (a b : List Nat) : Nat :=
  let qa := stageQuays a
  let qb := stageQuays b
  ((List.range (max qa.length qb.length)).map (fun i =>
    quayHops ((qa[min i (qa.length - 1)]?).getD 0) ((qb[min i (qb.length - 1)]?).getD 0))).sum

/-- Keys of a placement by rules 1 to 7 of R273, the lesser the better. `rows`
gives, for a stage with weights in tier 1, the grid row it should take. -/
def State.placementKeys (s : State) (rows : List (Option Nat)) (p : Placement) : List Nat :=
  let quays := (p.flatMap stageQuays).eraseDups
  let parked := (quays.filter (fun q => (s.quay q).parked)).length
  let dies := (quays.map (· / 32)).eraseDups.length
  let hops := ((p.zip (p.drop 1)).map (fun x => pairHops x.1 x.2)).sum
  let away := ((p.zip rows).map (fun x =>
    match x.2 with
    | some r => (((stageQuays x.1).map (fun q =>
        let row := (quayPos q).2.1
        row - r + (r - row))).sum)
    | none => 0)).sum
  let pace := (quays.map (fun q => (s.quay q).pace.cur.toNat)).foldl min 0xFFFF
  [parked, quays.length, dies, hops, away, 0xFFFF - pace]
    ++ p.map (fun gs => ((stageQuays gs).head?).getD 64)

/-- Does a placement give every stage its groups, in free groups, no group
twice, and within the quays a pin allows? Pins: per stage the quay mask, the
mode and START_T (R278). -/
def State.placementOk (s : State) (held : List Nat) (tiles : List Nat)
    (pins : List (Nat × Nat × Nat)) (p : Placement) : Bool :=
  let all := p.flatten
  decide (p.length = tiles.length) && all.eraseDups.length == all.length
    && all.all (fun g => decide (g < 512) && s.groupFree held g)
    && (p.zip tiles).all (fun x => x.1.length == (x.2 + 7) / 8 && decide (x.1.Pairwise (· < ·)))
    && (p.zipIdx).all (fun x =>
        match pins[x.2]? with
        | some (mask, mode, _) => mode == 0 || (stageQuays x.1).all (fun q => bit mask q)
        | none => true)

/-- Groups of an exact pin: TILES tiles in region order of its quays from
START_T in the lowest (R278); none if too few. -/
def exactGroups (mask start tiles : Nat) : Option (List Nat) :=
  let qs := (List.range 64).filter (fun q => bit mask q)
  let gs := qs.zipIdx.flatMap (fun x =>
    (List.range 8).filterMap (fun g =>
      if x.2 = 0 ∧ g < start / 8 then none else some (x.1 * 8 + g)))
  let n := (tiles + 7) / 8
  if gs.length < n then none else some (gs.take n)

/-- The placement taken among the candidates: the best by the rules of R273. -/
def State.choosePlacement (s : State) (held tiles : List Nat) (pins : List (Nat × Nat × Nat))
    (rows : List (Option Nat)) (cands : List Placement) : Option Placement :=
  let fixed (p : Placement) : Option Placement :=
    -- exact pins replace what a candidate says for their stages
    (p.zipIdx).mapM (fun x =>
      match pins[x.2]?, tiles[x.2]? with
      | some (mask, 2, st), some n => exactGroups mask st n
      | _, _ => some x.1)
  let base := if pins.all (fun p => p.2.1 == 2) && decide (pins.length = tiles.length) && !pins.isEmpty
    then tiles.map (fun _ => ([] : List Nat)) :: cands else cands
  let ok := (base.filterMap fixed).filter (s.placementOk held tiles pins)
  (leastBy (fun i => ((ok[i]?).map (s.placementKeys rows)).getD []) (List.range ok.length)).bind
    (fun i => ok[i]?)

/-- Tiles of a stage in stage-index order. -/
def stageTiles (gs : List Nat) (n : Nat) : List Nat := (gs.flatMap groupTiles).take n

end Sys2Proof.Machine
end

