-- ==== Sys2Proof/Machine/Stack.lean ====
section
/-! DEFINITION. Stack chains and their operations: starting a descriptor, the
near-bank and reduction-unit arithmetic, where outputs go, completion and
failure (09 R291 to R316). -/

namespace Sys2Proof.Machine

/-! ### Units, chains and slots -/

def State.stackUnit (s : State) (n : Nat) : StackUnit := Table.getD s.stks.units n StackUnit.reset
def State.updStack (s : State) (n : Nat) (f : StackUnit → StackUnit) : State :=
  { s with stks := { s.stks with units := Table.upd s.stks.units n StackUnit.reset f } }
def State.updChain (s : State) (c : Nat) (f : StackChain → StackChain) : State :=
  { s with stks := { s.stks with chains := Table.mapV s.stks.chains (fun k x =>
      if k = c then f x else x) } }

/-- A value an operation computes with the flags it sets, and its place. -/
abbrev FpOut := BitVec 32 × ArithFlags

/-! ### Reading operands -/

/-- Bytes at an address field of a descriptor: in the vector buffer of a stack, a
byte that nothing has written there is a free value; else in local memory. -/
def State.stkRead (s : State) (c stack addr n : Nat) : Option (List Byte) × State :=
  match vbOff addr with
  | none =>
    let s := s.asAgent 3 stack (bits addr 0 48)
    s.load (bits addr 0 48) n
  | some o =>
    let vb := ((Table.find s.stks.chains c).map (fun x => Table.getD x.vb stack [])).getD []
    let (fr, s) := s.freshBytes n
    (some ((List.range n).map (fun i => (Mem.read vb (o + i)).getD ((fr[i]?).getD 0))), s)

/-- Write bytes at an address field: into the vector buffers of the stacks named,
or into local memory. -/
def State.stkWrite (s : State) (c : Nat) (stks : List Nat) (addr off : Nat) (bs : List Byte) :
    State :=
  match vbOff addr with
  | none => s.writeMem (bits addr 0 48 + off) bs
  | some o => s.updChain c (fun x =>
      { x with vb := stks.foldl (fun t st => Table.upd t st [] (fun m => Mem.writeBytes m (o + off) bs)) x.vb })

/-- Read a range of offsets of a near-bank unit's bank group. -/
def State.nbuRead (s : State) (stack nbu o n : Nat) : Option (List Byte) × State :=
  (s.nbuPieces stack nbu o n).foldl (fun (acc : Option (List Byte) × State) p =>
    match acc with
    | (some bs, s) =>
      match s.load p.2.1 p.2.2 with
      | (some x, s) => (some (bs ++ x), s)
      | (none, s) => (none, s)
    | r => r) (some [], s.asAgent 3 stack (s.nbuLocal stack (nbu / 16) (nbu % 16) o))

/-- Write a range of offsets of a bank group. -/
def State.nbuWrite (s : State) (stack nbu o : Nat) (bs : List Byte) : State :=
  (s.nbuPieces stack nbu o bs.length).foldl (fun s p =>
    s.writeMem p.2.1 ((bs.drop p.1).take p.2.2)) s

/-- A read that failed, or the flags gathered. Operations run in this form: the
state, and either the status that ends the descriptor or the flags. -/
abbrev StkOut := State × (Except Status ArithFlags)

/-- Chain two parts of an operation, gathering flags. -/
def StkOut.then_ (o : StkOut) (f : State → StkOut) : StkOut :=
  match o with
  | (s, .error e) => (s, .error e)
  | (s, .ok fl) =>
    match f s with
    | (s', .error e) => (s', .error e)
    | (s', .ok fl') => (s', .ok (fl ||| fl'))

/-- A part that went well, with its flags. -/
def stkOk (s : State) (fl : ArithFlags) : StkOut := (s, .ok fl)

/-- Run a part for every element of a list. -/
def stkAll {α : Type} (f : α → State → StkOut) : List α → State → StkOut
  | [], s => (s, .ok 0)
  | x :: r, s => (f x s).then_ (stkAll f r)

/-- NAN_IN for FP32 values of an array that were read. -/
def nansOf (l : List (BitVec 32)) : ArithFlags := flagIf (l.any (fun x => fvIsNan (ofFp32 x))) flagNanIn

/-- A range of local memory that a page list names, read as the tenant of the
chain (R296, R301): the status of a refusal, or the bytes if good. -/
def State.pageRead (s : State) (tenant stack a n : Nat) : (Option Status × Option (List Byte)) × State :=
  match s.accessRecord 3 stack tenant false a n with
  | (some e, s) => ((some e, none), s)
  | (none, s) => let (o, s) := s.load a n; ((none, o), s)

/-- Hand bytes that were read on, or end with ST_STK_UE (R316). -/
def withBytes (r : Option (List Byte) × State) (f : Nat → State → StkOut) : StkOut :=
  match r with
  | (some bs, s) => f (natOfBytes bs) s
  | (none, s) => (s, .error ST_STK_UE)

/-- Hand the bytes of a page on, or end with the status of the refusal. -/
def State.withPage (s : State) (tenant stack a n : Nat) (f : Nat → State → StkOut) : StkOut :=
  match s.pageRead tenant stack a n with
  | ((some e, _), s) => (s, .error e)
  | ((none, o), s) => withBytes (o, s) f

/-- The page list of a descriptor, of `n` entries. -/
def State.withList (s : State) (stack d n : Nat) (f : Nat → State → StkOut) : StkOut :=
  withBytes ((s.asAgent 3 stack (sdPageAddr d)).load (sdPageAddr d) (16 * n)) f

/-- The rows of a page with their scales, of these bytes each. -/
def pageRows (d n bytes scBytes : Nat) (pg : Nat × Nat) : List (Nat × Nat) :=
  (List.range n).map (fun t => (pg.1 + t * sdStride d 0, bytes))
    ++ (List.range n).map (fun t => (pg.2 + t * sdStride d 1, scBytes))

/-- The vector operand of a descriptor, its elements and its scales, of `n`
elements per vector and `b` vectors. -/
def State.withX (s : State) (c stack d b n : Nat) (f : Nat → Nat → State → StkOut) : StkOut :=
  let e := (b - 1) * sdXVs d + n
  withBytes (s.stkRead c stack (sdXAddr d) ((e * typeBits (sdXType d) + 7) / 8)) (fun x s =>
    if sdXMode d = 0 then f x 0 s
    else withBytes (s.stkRead c stack (sdXSaddr d) ((e + 31) / 32)) (fun sc s => f x sc s))

/-- Element i of vector v of the vector operand, not yet scaled. -/
def xElem (d x v i : Nat) : FV × ArithFlags :=
  elemValue (sdXType d) (sdXMode d) (packedElem x (typeBits (sdXType d)) (v * sdXVs d + i))

/-- Its E8M0 scale byte. -/
def xScale (d sc v i : Nat) : Nat := byteField sc ((v * sdXVs d + i) / 32) 1

/-- Element i of vector v as FP32. -/
def xFp32 (d x sc v i : Nat) : FpOut :=
  loadFp32 (sdXType d) (sdXMode d) (packedElem x (typeBits (sdXType d)) (v * sdXVs d + i))
    (xScale d sc v i) 0

/-! ### Outputs (R303) -/

/-- Where the outputs of stack position `sig` go for DEST 0, 1 and 3: the stacks
whose vector buffers receive them, and the index of its first output. -/
def sdTarget (d sig stack : Nat) : List Nat × Nat :=
  if sdDest d = 1 then (stacksOf (sdBcast d), sig * sdL d)
  else if sdDest d = 0 ∧ bit (sdOut d) 63 then ([stack], 0)
  else ([stack], sig * sdL d)

/-- Convert and write the outputs of one vector in one stack: values in order of
their local index. -/
def State.stkOutput (s : State) (c d v sig stack per : Nat) (vs : List FV) : State × ArithFlags :=
  let ty := sdStoredType d
  let w := typeBits ty
  let (targets, first0) := sdTarget d sig stack
  -- operations other than GEMV write `per` outputs in each stack
  let first := if sdOpc d = 0x10 then first0 else if first0 = 0 then 0 else sig * per
  let pos := v * sdOutVs d + first
  if sdOutMode d = 1 ∧ sdDest d ≠ 3 ∧ ty = sdOutType d then
    let rec blocks : Nat → List FV → List (List Nat × Nat × ArithFlags)
      | 0, _ => []
      | k + 1, l =>
        if l.isEmpty then []
        else convBlock ty 1 (sdSat d) 0 ((l.take 32).map (fun x => (x, RMode.rne))) :: blocks k (l.drop 32)
    let bs := blocks (vs.length / 32 + 1) vs
    let codes := bs.flatMap (fun x => x.1)
    let scales := bs.map (fun x => BitVec.ofNat 8 x.2.1)
    let data := bytesOfNat ((codes.length * w + 7) / 8) (packElems w codes)
    let s := s.stkWrite c targets (sdOut d) (pos * w / 8) data
    (s.stkWrite c targets (sdOutS d) (pos / 32) scales, bs.foldl (fun f x => f ||| x.2.2) 0)
  else
    let cs := vs.map (fun x => convElem ty (sdSat d) .rne x)
    let codes := cs.map Prod.fst
    let data := bytesOfNat ((codes.length * w + 7) / 8) (packElems w codes)
    (s.stkWrite c targets (sdOut d) (pos * w / 8) data, cs.foldl (fun f x => f ||| x.2) 0)

/-! ### GEMV and GEMVT (R298 to R303) -/

/-- A page-list entry (R301): element and scale address; a null page has none. -/
def pageOf (list j : Nat) : Option (Nat × Nat) :=
  let e := bits list (128 * j) 48
  if e = 2 ^ 48 - 1 then none else some (e, bits list (128 * j + 64) 48)

/-- Is a range of local addresses in one bank group of a stack? -/
def State.inBankGroup (s : State) (stack : Nat) (rs : List (Nat × Nat)) : Bool :=
  match rs.filter (fun r => decide (0 < r.2)) with
  | [] => true
  | (a, _) :: _ =>
    match s.memLoc a with
    | none => false
    | some l =>
      l.unit / 64 == stack && decide (l.unit < 1024) &&
        rs.all (fun r => r.2 == 0 ||
          (List.range ((r.1 + r.2 - 1) / 4096 - r.1 / 4096 + 1)).all (fun i =>
            match s.memLoc (max r.1 ((r.1 / 4096 + i) * 4096)) with
            | some k => k.unit == l.unit && k.bg == l.bg
            | none => false))

/-- One part of one row for one vector: groups g0 to g1 − 1 added to `acc`. -/
def gemvPart (d x xsc v w wsc ws2 g0 g1 : Nat) (acc : BitVec 32) : FpOut :=
  let kind := (pairKind (sdWType d) (sdXType d) (sdWMode d) (sdXMode d)).getD .block
  let wb := typeBits (sdWType d)
  (List.range (g1 - g0)).foldl (fun (st : FpOut) i =>
    let j := g0 + i
    let n := min 32 (sdK d - 32 * j)
    let ps := (List.range n).map (fun k =>
      (xElem d x v (32 * j + k), elemValue (sdWType d) (sdWMode d) (packedElem w wb (32 * i + k))))
    let sa : BlockScale := { mode := sdXMode d, e := xScale d xsc v (32 * j), s2 := 0 }
    let sb : BlockScale := { mode := sdWMode d, e := byteField wsc i 1,
                             s2 := byteField ws2 (2 * (j / 32 - g0 / 32)) 2 }
    let (a, fl) := accumulate kind st.1 ps sa sb
    (a, st.2 ||| fl)) (acc, 0)

/-- Sum of two parts: RNE in FP32, exact with saturation in INT32. -/
def addParts (int : Bool) (a b : BitVec 32) : FpOut :=
  if int then
    let s := a.toInt + b.toInt
    if 2147483647 < s then (0x7FFFFFFF#32, flagOvf)
    else if s < -2147483648 then (0x80000000#32, flagOvf) else (BitVec.ofInt 32 s, 0)
  else fpAdd a b

/-- A result times SCALAR, unless that is 0 or the output is a partial result. -/
def sdScale (d : Nat) (int : Bool) (a : BitVec 32) : FV × ArithFlags :=
  let v := if int then fvOfInt a.toInt 0 else ofFp32 a
  if sdScalar d = 0 ∨ sdDest d = 3 then (v, 0)
  else
    let (p, inv) := fvMul v (ofFp32 (sdScalar d))
    let (r, fl) := toFp32 p
    (ofFp32 r, fl ||| flagIf inv flagInv)

/-- Does the descriptor accumulate in INT32? -/
def sdInt (d : Nat) : Bool := sdWType d == 8 && sdWMode d == 0

/-- The weights of part p of local row `rho` in a stack: elements, scales and S2. -/
def State.gemvWeights (s : State) (tenant d stack rho p g0 g1 : Nat) (page : Option (Nat × Nat))
    (f : Nat → Nat → Nat → State → StkOut) : StkOut :=
  let wb := typeBits (sdWType d)
  let n := (min (32 * g1) (sdK d) - 32 * g0)
  let bytes := (n * wb + 7) / 8
  match page with
  | some (e, sc) =>
    let row := rho % 32
    s.withPage tenant stack (e + row * sdStride d 0 + 32 * g0 * wb / 8) bytes (fun w s =>
      if sdWMode d = 0 then f w 0 0 s
      else s.withPage tenant stack (sc + row * sdStride d 1 + g0) (g1 - g0) (fun ws s => f w ws 0 s))
  | none =>
    let u := rho * sdKsplit d + p
    let nbu := sdNbuFirst d + u % max 1 (sdNbuCnt d)
    let m := u / max 1 (sdNbuCnt d)
    withBytes (s.nbuRead stack nbu (sdOff d 0 + m * sdStride d 0) bytes) (fun w s =>
      if sdWMode d = 0 then f w 0 0 s
      else
        withBytes (s.nbuRead stack nbu (sdOff d 1 + m * sdStride d 1) (g1 - g0)) (fun ws s =>
          if sdWMode d = 1 then f w ws 0 s
          else withBytes (s.nbuRead stack nbu (sdOff d 2 + m * sdStride d 2)
            (2 * ((g1 - 1) / 32 - g0 / 32 + 1))) (fun s2 s => f w ws s2 s)))

/-- One local row of a GEMV for every vector: results with their flags, handed on
in vector order. -/
def State.gemvRow (s : State) (tenant d stack rho x xsc acc : Nat) (accRow : Nat) (page : Option (Nat × Nat))
    (f : List (BitVec 32) → ArithFlags → State → StkOut) : StkOut :=
  let g := (sdK d + 31) / 32
  let ks := max 1 (sdKsplit d)
  let vs := List.range (sdB d)
  let init : List (BitVec 32) := vs.map (fun v =>
    if sdAccIn d then BitVec.ofNat 32 (byteField acc (4 * (v * sdOutVs d + accRow)) 4) else 0)
  let rec parts : Nat → Nat → List (BitVec 32) → ArithFlags → State → StkOut
    | 0, _, sums, fl, s => f sums fl s
    | k + 1, p, sums, fl, s =>
      let g0 := p * g / ks
      let g1 := (p + 1) * g / ks
      s.gemvWeights tenant d stack rho p g0 g1 page (fun w ws s2 s =>
        let one := vs.map (fun v =>
          gemvPart d x xsc v w ws s2 g0 g1 (if p = 0 then (init[v]?).getD 0 else 0))
        let fl := one.foldl (fun f o => f ||| o.2) fl
        if p = 0 then parts k (p + 1) (one.map Prod.fst) fl s
        else
          let added := List.zipWith (fun a (o : FpOut) => addParts (sdInt d) a o.1) sums one
          parts k (p + 1) (added.map Prod.fst) (added.foldl (fun f o => f ||| o.2) fl) s)
  parts ks 0 [] (if sdInt d then 0 else nansOf init) s

/-- A GEMV in one stack: its local rows, as lists of results per row. -/
def State.gemvStack (s : State) (tenant c d sig stack : Nat)
    (f : List (List FV) → State → StkOut) : StkOut :=
  let rows := sdLocalRows d sig
  s.withX c stack d (sdB d) (sdK d) (fun x xsc s =>
    let acc (k : Nat → State → StkOut) (s : State) : StkOut :=
      if sdAccIn d then
        withBytes (s.stkRead c stack (sdAux d) (4 * ((sdB d - 1) * sdOutVs d + sdN d))) k
      else k 0 s
    let list (k : Nat → State → StkOut) (s : State) : StkOut :=
      if sdPaged d then s.withList stack d ((sdN d + 31) / 32) k else k 0 s
    acc (fun acc s => list (fun lst s =>
      let rec go : Nat → Nat → List (List FV) → State → StkOut
        | 0, _, out, s => f out s
        | k + 1, rho, out, s =>
          let r := sig * sdL d + rho
          let finish (sums : List (BitVec 32)) (fl : ArithFlags) (s : State) : StkOut :=
            let sc := sums.map (fun a => sdScale d (sdInt d) a)
            (stkOk s (sc.foldl (fun f o => f ||| o.2) fl)).then_
              (go k (rho + 1) (out ++ [sc.map Prod.fst]))
          if sdPaged d then
            match pageOf lst (r / 32) with
            | none => go k (rho + 1) (out ++ [List.replicate (sdB d) (FV.inf true)]) s
            | some (e, sc) =>
              let n := min 32 (sdN d - r / 32 * 32)
              let wb := typeBits (sdWType d)
              if s.inBankGroup stack (pageRows d n ((sdK d * wb + 7) / 8)
                  (if sdWMode d = 0 then 0 else (sdK d + 31) / 32) (e, sc))
              then s.gemvRow tenant d stack r x xsc acc r (some (e, sc)) finish
              else (s, .error ST_STK_PAGE_SPAN)
          else s.gemvRow tenant d stack rho x xsc acc r none finish
      go rows 0 [] s) s) s)

/-- Write the results of a GEMV stack, vector by vector. -/
def State.gemvOutput (s : State) (c d sig stack : Nat) (rows : List (List FV)) : StkOut :=
  stkAll (fun v s =>
    let (s, fl) := s.stkOutput c d v sig stack (sdN d)
      (rows.map (fun r => (r[v]?).getD (FV.fin false 0 0)))
    (s, .ok fl)) (List.range (sdB d)) s

/-- Read and check the append map of a GEMV with DEST 2 (15 R480). -/
def State.appendMap (s : State) (d : Nat) : Except Status (Nat × Nat) × State :=
  match s.loadNum (bits (sdOut d) 0 48) 64 with
  | (none, s) => (.error ST_STK_UE, s)
  | (some m, s) =>
    match s.kvGeom (bits m 32 12) with
    | none => (.error ST_KV_APPEND_FMT, s)
    | some g =>
      match s.loadNum (byteField m 8 6) 64 with
      | (none, s) => (.error ST_STK_UE, s)
      | (some sb, s) =>
        let ok := byteField m 0 3 == 0x670801 && byteField m 3 1 == 0 && bits m 44 4 == 0
          && byteField m 0x0E 2 == 0 && byteField m 0x14 44 == 0
          && decide (byteField m 6 2 < kvLayers g)
          && decide (1 ≤ byteField m 0x13 1) && decide (byteField m 0x13 1 ≤ 64)
          && sdN d == 2 * kvD g * byteField m 0x13 1
          && decide (byteField m 0x12 1 + byteField m 0x13 1 ≤ kvHeads g)
          && sdOutType d == 3 && sdOutMode d == (if kvFormat g = 1 then 1 else 0)
          && decide (byteField m 0x10 2 + sdB d ≤ byteField sb 0x0A 2)
        (if ok then .ok (m, g) else .error ST_KV_APPEND_FMT, s)

/-- Append one converted row of D values to its page (15 R481). -/
def State.appendRow (s : State) (m g tenant stack v r0 : Nat) (codes : List Nat) (scales : List Nat) : StkOut :=
  let d := kvD g
  let h := byteField m 0x12 1 + r0 / (2 * d)
  let isV := decide (d ≤ r0 % (2 * d))
  match s.loadNum (byteField m 8 6 + 0x40 + 32 * (byteField m 0x10 2 + v)) 32 with
  | (none, s) => (s, .error ST_STK_UE)
  | (some row, s) =>
    if byteField row 0 4 = 0xFFFFFFFF then (s, .ok 0)
    else
      let pos := byteField row 4 4
      match s.kvEntry g (byteField row 0x10 8 % 2 ^ 48) h (byteField m 6 2) (b2n isV) (pos / 32) with
      | (.error _, s) => (s, .error ST_STK_UE)
      | (.ok none, s) => (s, .error ST_KV_NO_PAGE)
      | (.ok (some (e, sc)), s) =>
        let ok (a n : Nat) (s : State) : Option Status × State := s.accessRecord 3 stack tenant true a n
        match ok (e + pos % 32 * d) d s with
        | (some st, s) => (s, .error st)
        | (none, s) =>
          let i := byteField row 0 4
          let s := s.kvPut i (e + pos % 32 * d) (codes.map (fun c => BitVec.ofNat 8 c))
          if kvFormat g = 1 then
            match ok (sc + pos % 32 * (d / 32)) (d / 32) s with
            | (some st, s) => (s, .error st)
            | (none, s) =>
              (s.kvPut i (sc + pos % 32 * (d / 32)) (scales.map (fun c => BitVec.ofNat 8 c)), .ok 0)
          else (s, .ok 0)

/-- KV append of a stack's rows: blocks of 32 rows are converted and each whole
row of D values is written. -/
def State.gemvAppend (s : State) (d tenant m g first : Nat) (rows : List (List FV)) : StkOut :=
  let hd := kvD g
  stkAll (fun v s =>
    let vals := rows.map (fun r => (r[v]?).getD (FV.fin false 0 0))
    stkAll (fun k s =>
      let part := (vals.drop (k * hd)).take hd
      let bs := (List.range (hd / 32)).map (fun i =>
        let b := (part.drop (32 * i)).take 32
        if kvFormat g = 1 then convBlock 3 1 (sdSat d) 0 (b.map (fun x => (x, RMode.rne)))
        else
          let cs := b.map (fun x => convElem 3 (sdSat d) .rne x)
          (cs.map Prod.fst, 0, cs.foldl (fun f x => f ||| x.2) 0))
      (s.appendRow m g tenant (((sdStacks d)[(first + k * hd) / max 1 (sdL d)]?).getD 0) v (first + k * hd) (bs.flatMap (fun x => x.1)) (bs.map (fun x => x.2.1))).then_
        (fun s => (s, .ok (bs.foldl (fun f x => f ||| x.2.2) 0)))) (List.range (vals.length / hd)) s)
    (List.range (sdB d)) s

/-- GEMV over the stacks of the descriptor. Rows appended to pages are taken over
all stacks, since a stack may hold part of a head group's rows. -/
def State.runGemv (s : State) (c d tenant : Nat) : StkOut :=
  let sts := (sdStacks d).zipIdx
  if sdDest d = 2 then
    match s.appendMap d with
    | (.error e, s) => (s, .error e)
    | (.ok (m, g), s) =>
      let rec all : List (Nat × Nat) → List (List FV) → State → StkOut
        | [], rows, s => s.gemvAppend d tenant m g 0 rows
        | (st, sig) :: r, rows, s => s.gemvStack tenant c d sig st (fun x s => all r (rows ++ x) s)
      all sts [] s
  else
    stkAll (fun (p : Nat × Nat) s =>
      s.gemvStack tenant c d p.2 p.1 (fun rows s => s.gemvOutput c d p.2 p.1 rows)) sts s

/-- The partial of page j for every vector: 32 rows at most, N dimensions
(R302). -/
def State.gemvtPage (s : State) (tenant d stack j x xsc : Nat) (page : Nat × Nat)
    (f : List (List (BitVec 32)) → ArithFlags → State → StkOut) : StkOut :=
  let n := min 32 (sdK d - 32 * j)
  let wb := typeBits (sdWType d)
  let rowBytes := (sdN d * wb + 7) / 8
  let scRow := if sdWMode d = 0 then 0 else (sdN d + 31) / 32
  if !s.inBankGroup stack (pageRows d n rowBytes scRow page) then (s, .error ST_STK_PAGE_SPAN)
  else
    let rec rows : Nat → Nat → List (Nat × Nat) → State → StkOut
      | 0, _, acc, s =>
        let vals := (List.range (sdB d)).map (fun v =>
          (List.range (sdN d)).map (fun dim =>
            let ps := (List.range n).map (fun t =>
              let w := (acc[t]?).getD (0, 0)
              (xElem d x v (32 * j + t),
               scaledValue (sdWType d) (sdWMode d) (packedElem w.1 wb dim) (byteField w.2 (dim / 32) 1) 0))
            let (t, fl) := blockTerm ps { mode := sdXMode d, e := xScale d xsc v (32 * j), s2 := 0 }
              { mode := 0, e := 0, s2 := 0 }
            let (r, fl') := toFp32 t
            (r, fl ||| fl')))
        f (vals.map (fun l => l.map Prod.fst))
          (vals.foldl (fun g l => l.foldl (fun h o => h ||| o.2) g) 0) s
      | k + 1, t, acc, s =>
        s.withPage tenant stack (page.1 + t * sdStride d 0) rowBytes (fun w s =>
          if scRow = 0 then rows k (t + 1) (acc ++ [(w, 0)]) s
          else s.withPage tenant stack (page.2 + t * sdStride d 1) scRow (fun sc s =>
            rows k (t + 1) (acc ++ [(w, sc)]) s))
    rows n 0 [] s

/-- GEMVT: page partials added in page order from +0. -/
def State.runGemvt (s : State) (c d tenant : Nat) : StkOut :=
  stkAll (fun (p : Nat × Nat) s =>
    s.withX c p.1 d (sdB d) (sdK d) (fun x xsc s =>
      let np := (sdK d + 31) / 32
      s.withList p.1 d np (fun lst s =>
        let rec go : Nat → Nat → List (List (BitVec 32)) → State → StkOut
          | 0, _, sums, s =>
            stkAll (fun v s =>
              let vs := ((sums[v]?).getD []).map (fun a => sdScale d false a)
              let (s, fl) := s.stkOutput c d v p.2 p.1 (sdN d) (vs.map Prod.fst)
              (s, .ok (vs.foldl (fun f o => f ||| o.2) fl))) (List.range (sdB d)) s
          | k + 1, j, sums, s =>
            match pageOf lst j with
            | none => go k (j + 1) sums s
            | some pg =>
              s.gemvtPage tenant d p.1 j x xsc pg (fun part fl s =>
                let added := List.zipWith (fun a b => List.zipWith (fun y z => fpAdd y z) a b) sums part
                (stkOk s (added.foldl (fun g l => l.foldl (fun h o => h ||| o.2) g) fl)).then_
                  (go k (j + 1) (added.map (fun l => l.map Prod.fst))))
        go np 0 (List.replicate (sdB d) (List.replicate (sdN d) 0)) s))) ((sdStacks d).zipIdx) s

/-! ### Element-wise operations (R304, R305) -/

/-- f of R305 on one value: the identity, or a function of 03 R122. -/
def sdFn (fn : Nat) (x : BitVec 32) : FpOut :=
  match fn with
  | 1 => (fnApply 0x52 x, 0) | 2 => (fnApply 0x53 x, 0) | 3 => (fnApply 0x58 x, 0)
  | 4 => (fnApply 0x57 x, 0) | 5 => (fnApply 0x59 x, 0) | 6 => (fnApply 0x5A x, 0)
  | 7 => (fnApply 0x5B x, 0) | 8 => (fnApply 0x55 x, 0) | 9 => (fnApply 0x56 x, 0)
  | _ => (x, 0)

/-- One element of EADD, EMUL, EACT, EGLU or ESCALE from A and B (or the segment
factor). -/
def ewOp (d : Nat) (a b : BitVec 32) : FpOut :=
  match sdOpc d with
  | 0x18 => fpAdd a b
  | 0x19 => fpMul a b
  | 0x1A => sdFn (sdFunc d) a
  | 0x1B =>
    let (f, fl) := sdFn (sdFunc d) a
    let (p, fl') := fpMul f b
    (p, fl ||| fl')
  | _ => if sdFunc d = 1 then fpDiv a b else fpMul a b

/-- In NBU place: every unit of the range on its own bank group. -/
def State.ewNbu (s : State) (d : Nat) : StkOut :=
  let wb := typeBits (sdWType d)
  let ob := typeBits (sdOutType d)
  let two := sdUses d 1
  stkAll (fun st s =>
    stkAll (fun k s =>
      let nbu := sdNbuFirst d + k
      stkAll (fun v s =>
        withBytes (s.nbuRead st nbu (sdOff d 0 + v * sdStride d 0) ((sdN d * wb + 7) / 8)) (fun a s =>
          let go (b : Nat) (s : State) : StkOut :=
            let rs := (List.range (sdN d)).map (fun i =>
              let (x, f₁) := loadFp32 (sdWType d) 0 (packedElem a wb i) 0 0
              let (y, f₂) := if two then loadFp32 (sdWType d) 0 (packedElem b wb i) 0 0 else (0, 0)
              let (r, f₃) := ewOp d x y
              let (cd, f₄) := convElem (sdOutType d) (sdSat d) .rne (ofFp32 r)
              (cd, f₁ ||| f₂ ||| f₃ ||| f₄))
            (s.nbuWrite st nbu (sdOff d 2 + v * sdStride d 2)
              (bytesOfNat ((sdN d * ob + 7) / 8) (packElems ob (rs.map Prod.fst))),
             .ok (rs.foldl (fun f o => f ||| o.2) 0))
          if two then withBytes (s.nbuRead st nbu (sdOff d 1 + v * sdStride d 1) ((sdN d * wb + 7) / 8)) go
          else go 0 s)) (List.range (sdB d)) s) (List.range (sdNbuCnt d)) s) (sdStacks d) s

/-- Read FP32 values at AUX_ADDR. -/
def State.withAux (s : State) (c stack d n : Nat) (f : Nat → State → StkOut) : StkOut :=
  if n = 0 then f 0 s else withBytes (s.stkRead c stack (sdAux d) (4 * n)) f

/-- Value i of an FP32 array. -/
def fp32At (aux i : Nat) : BitVec 32 := BitVec.ofNat 32 (byteField aux (4 * i) 4)

/-- In SRU place: A at X_ADDR, B or the factors at AUX_ADDR, in each stack. -/
def State.ewSru (s : State) (c d : Nat) : StkOut :=
  let n := sdN d
  let seg := if sdParam d = 0 then n else sdParam d
  let segs := (n + seg - 1) / max 1 seg
  let auxN := if sdOpc d = 0x1A then 0 else if sdOpc d = 0x1C then sdB d * segs
    else (sdB d - 1) * sdXVs d + n
  stkAll (fun (p : Nat × Nat) s =>
    s.withX c p.1 d (sdB d) n (fun x sc s => s.withAux c p.1 d auxN (fun aux s =>
      stkAll (fun v s =>
        let rs := (List.range n).map (fun i =>
          let (a, f₁) := xFp32 d x sc v i
          let b := if sdOpc d = 0x1C then fp32At aux (v * segs + i / max 1 seg)
            else fp32At aux (v * sdXVs d + i)
          let f₂ := if sdOpc d = 0x1A then (0 : ArithFlags) else flagIf (fvIsNan (ofFp32 b)) flagNanIn
          let (r, f₃) := ewOp d a b
          (ofFp32 r, f₁ ||| f₂ ||| f₃))
        let (s, fl) := s.stkOutput c d v p.2 p.1 n (rs.map Prod.fst)
        (s, .ok (rs.foldl (fun f o => f ||| o.2) fl))) (List.range (sdB d)) s))) ((sdStacks d).zipIdx) s

/-- An element-wise operation in its place. -/
def State.runEw (s : State) (c d : Nat) : StkOut := if sdNbu d then s.ewNbu d else s.ewSru c d

/-! ### Normalisation, softmax, top-k and reduction (R306 to R309) -/

/-- Chunks of 64 (03 R123). -/
def chunks64 {α : Type} : Nat → List α → List (List α)
  | 0, _ => []
  | k + 1, l => if l.isEmpty then [] else l.take 64 :: chunks64 k (l.drop 64)

/-- Sum of a vector by 03 R123. -/
def vecSum (l : List (BitVec 32)) : FpOut :=
  (chunks64 (l.length / 64 + 1) l).foldl (fun (st : FpOut) ch =>
    let (x, f₁) := chunkSum ch
    let (r, f₂) := fpAdd st.1 x
    (r, st.2 ||| f₁ ||| f₂)) (0, 0)

/-- Sum of the squares, each rounded first. -/
def vecSumSq (l : List (BitVec 32)) : FpOut :=
  let sq := l.map (fun x => fpMul x x)
  let (r, fl) := vecSum (sq.map Prod.fst)
  (r, sq.foldl (fun f o => f ||| o.2) fl)

/-- Maximum of a vector. -/
def vecMax (l : List (BitVec 32)) : BitVec 32 := chunkMax l

/-- Every element less a value, rounded. -/
def subAll (l : List (BitVec 32)) (c : BitVec 32) : List FpOut := l.map (fun x => fpSub x c)

/-- An integer as FP32. -/
def fpOfNat (n : Nat) : BitVec 32 := (toFp32 (fvOfInt n 0)).1

/-- Flags of a list of results. -/
def flagsOf (l : List FpOut) : ArithFlags := l.foldl (fun f o => f ||| o.2) 0

/-- RMS or layer normalisation of one vector (FUNC 0, 1). -/
def normVec (d aux : Nat) (xs : List (BitVec 32)) : List FpOut :=
  let n := sdN d
  let cnt := fpOfNat n
  let eps := sdScalar d
  let gamma (i : Nat) : BitVec 32 := fp32At aux i
  if sdFunc d = 0 then
    let (ss, f₀) := vecSumSq xs
    let (m, f₁) := fpDiv ss cnt
    let (e, f₂) := fpAdd m eps
    let r := fnApply 0x56 e
    xs.zipIdx.map (fun p =>
      let (y, f₃) := fpMul p.1 r
      let (z, f₄) := fpMul y (gamma p.2)
      (z, f₀ ||| f₁ ||| f₂ ||| f₃ ||| f₄))
  else
    let (sm, f₀) := vecSum xs
    let (mu, f₁) := fpDiv sm cnt
    let ds := subAll xs mu
    let (vs, f₂) := vecSumSq (ds.map Prod.fst)
    let (var, f₃) := fpDiv vs cnt
    let (e, f₄) := fpAdd var eps
    let r := fnApply 0x56 e
    let f := f₀ ||| f₁ ||| f₂ ||| f₃ ||| f₄ ||| flagsOf ds
    ds.zipIdx.map (fun p =>
      let (y, g₁) := fpMul p.1.1 r
      let (z, g₂) := fpMul y (gamma p.2)
      let (w, g₃) := fpAdd z (fp32At aux (n + p.2))
      (w, f ||| g₁ ||| g₂ ||| g₃))

/-- A half of normalisation over some elements (FUNC 2 to 4). -/
def normHalf (d : Nat) (c : BitVec 32) (xs : List (BitVec 32)) : FpOut :=
  match sdFunc d with
  | 2 => vecSumSq xs
  | 3 => vecSum xs
  | _ =>
    let ds := subAll xs c
    let (r, f) := vecSumSq (ds.map Prod.fst)
    (r, f ||| flagsOf ds)

/-- Softmax pair (M, S) of a vector: the maximum and the sum of exponentials. -/
def smxPair (xs : List (BitVec 32)) : BitVec 32 × FpOut :=
  let m := vecMax xs
  let ds := subAll xs m
  let (t, f) := vecSum (ds.map (fun x => fnApply 0x52 x.1))
  (m, (t, f ||| flagsOf ds))

/-- Is a value −infinity? -/
def isNegInf (x : BitVec 32) : Bool := x == 0xFF800000#32

/-- Combine two pairs (R307): a pair whose M is −infinity contributes 0. -/
def smxJoin (a b : BitVec 32 × BitVec 32) : (BitVec 32 × BitVec 32) × ArithFlags :=
  let m := fpMax a.1 b.1
  let term (p : BitVec 32 × BitVec 32) : FpOut :=
    if isNegInf p.1 then (0, 0)
    else
      let (x, f₁) := fpSub p.1 m
      let (y, f₂) := fpMul p.2 (fnApply 0x52 x)
      (y, f₁ ||| f₂)
  let (x, f₁) := term a
  let (y, f₂) := term b
  let (z, f₃) := fpAdd x y
  ((m, z), f₁ ||| f₂ ||| f₃)

/-- Combine pairs in order, starting from the first. -/
def smxFold : List (BitVec 32 × BitVec 32) → (BitVec 32 × BitVec 32) × ArithFlags
  | [] => ((0xFF800000#32, 0), 0)
  | p :: r => r.foldl (fun (st : (BitVec 32 × BitVec 32) × ArithFlags) q =>
      let (x, f) := smxJoin st.1 q
      (x, st.2 ||| f)) (p, 0)

/-- Vector v of an operand in SRU place, as FP32 with flags. -/
def xVec (d x sc v n : Nat) : List FpOut := (List.range n).map (fun i => xFp32 d x sc v i)

/-- The elements of vector v in each unit of the range of a stack, in increasing
order of the units. -/
def State.nbuVecs (s : State) (d stack v : Nat) (f : List (List FpOut) → State → StkOut) : StkOut :=
  let wb := typeBits (sdWType d)
  let rec go : Nat → Nat → List (List FpOut) → State → StkOut
    | 0, _, acc, s => f acc s
    | k + 1, i, acc, s =>
      withBytes (s.nbuRead stack (sdNbuFirst d + i) (sdOff d 0 + v * sdStride d 0) ((sdN d * wb + 7) / 8))
        (fun a s => go k (i + 1) (acc ++ [(List.range (sdN d)).map (fun e =>
          loadFp32 (sdWType d) 0 (packedElem a wb e) 0 0)]) s)
  go (sdNbuCnt d) 0 [] s

/-- NORM in its place. -/
def State.runNorm (s : State) (c d : Nat) : StkOut :=
  let n := sdN d
  let auxN := match sdFunc d with
    | 0 => n | 1 => 2 * n | 4 => sdB d | _ => 0
  stkAll (fun (p : Nat × Nat) s => s.withAux c p.1 d auxN (fun aux s =>
    if sdNbu d then
      stkAll (fun v s => s.nbuVecs d p.1 v (fun vs s =>
        let ps := vs.map (fun l => normHalf d (fp32At aux v) (l.map Prod.fst))
        let (r, f) := vecSum (ps.map Prod.fst)
        let (s, fl) := s.stkOutput c d v p.2 p.1 1 [ofFp32 r]
        let fa := if sdFunc d = 4 then nansOf [fp32At aux v] else 0
        (s, .ok (fl ||| f ||| fa ||| flagsOf ps ||| flagsOf vs.flatten)))) (List.range (sdB d)) s
    else
      s.withX c p.1 d (sdB d) n (fun x sc s => stkAll (fun v s =>
        let xs := xVec d x sc v n
        let fa := nansOf (if sdFunc d = 4 then [fp32At aux v] else (List.range auxN).map (fp32At aux))
        let ys := if sdFunc d ≤ 1 then normVec d aux (xs.map Prod.fst)
          else [normHalf d (fp32At aux v) (xs.map Prod.fst)]
        let (s, fl) := s.stkOutput c d v p.2 p.1 ys.length (ys.map (fun y => ofFp32 y.1))
        (s, .ok (fl ||| fa ||| flagsOf xs ||| flagsOf ys))) (List.range (sdB d)) s))) ((sdStacks d).zipIdx) s

/-- SMX in its place. -/
def State.runSmx (s : State) (c d : Nat) : StkOut :=
  let n := sdN d
  let pairOut (v sig st : Nat) (r : (BitVec 32 × BitVec 32) × ArithFlags) (f : ArithFlags) (s : State) : StkOut :=
    let (s, fl) := s.stkOutput c d v sig st 2 [ofFp32 r.1.1, ofFp32 r.1.2]
    (s, .ok (fl ||| r.2 ||| f))
  stkAll (fun (p : Nat × Nat) s =>
    if sdNbu d then
      stkAll (fun v s => s.nbuVecs d p.1 v (fun vs s =>
        let ps := vs.map (fun l => smxPair (l.map Prod.fst))
        pairOut v p.2 p.1 (smxFold (ps.map (fun q => (q.1, q.2.1))))
          (flagsOf (ps.map (fun q => q.2)) ||| flagsOf vs.flatten) s)) (List.range (sdB d)) s
    else
      s.withX c p.1 d (sdB d) (if sdFunc d = 2 then 2 * n else n) (fun x sc s => stkAll (fun v s =>
        if sdFunc d = 2 then
          let xs := xVec d x sc v (2 * n)
          let at_ (i : Nat) : BitVec 32 := ((xs[i]?).map Prod.fst).getD 0
          pairOut v p.2 p.1 (smxFold ((List.range n).map (fun i => (at_ (2 * i), at_ (2 * i + 1)))))
            (flagsOf xs) s
        else
          let xs := xVec d x sc v n
          let (m, t, ft) := smxPair (xs.map Prod.fst)
          if sdFunc d = 1 then pairOut v p.2 p.1 ((m, t), ft) (flagsOf xs) s
          else
            let es := (subAll (xs.map Prod.fst) m).map (fun y => fnApply 0x52 y.1)
            let (s, fl) := s.stkOutput c d v p.2 p.1 n (es.map ofFp32)
            (s.stkWrite c [p.1] (sdAux d) (4 * v) (bytesOfNat 4 t.toNat),
             .ok (fl ||| ft ||| flagsOf xs))) (List.range (sdB d)) s)) ((sdStacks d).zipIdx) s

/-- Score of one summary record against one query (R308): groups of 32, each
group exact and added with one RNE. -/
def topkScore (d x sc v rcd : Nat) : FpOut :=
  let k := sdK d
  let wb := typeBits (sdWType d)
  let absV (a : FV) : FV := if fvIsNeg a then fvNeg a else
    match a with
    | .fin true m e => .fin false m e
    | y => y
  let part (abs : Bool) (base : Nat) (st : FpOut) : FpOut :=
    (List.range ((k + 31) / 32)).foldl (fun (st : FpOut) j =>
      let ps := (List.range (min 32 (k - 32 * j))).map (fun i =>
        let q := xElem d x v (32 * j + i)
        let m := elemValue (sdWType d) 0 (packedElem rcd wb (base + 32 * j + i))
        if abs then ((absV q.1, q.2), m) else (q, m))
      let (t, f) := blockTerm ps { mode := sdXMode d, e := xScale d sc v (32 * j), s2 := 0 }
        { mode := 0, e := 0, s2 := 0 }
      let (a, o) := fvAdd (ofFp32 st.1) t
      let (r, g) := toFp32 a
      (r, st.2 ||| f ||| g ||| flagIf o flagInv)) st
  match sdFunc d with
  | 0 => part false 0 (0, 0)
  | 1 => part true k (0, 0)
  | _ =>
    let (a, f) := part false 0 (0, 0)
    let (b, g) := part true k (0, 0)
    let (r, h) := fpAdd a b
    (r, f ||| g ||| h)

/-- Put a scored entry into the list of the best, score descending then index
ascending. -/
def topkInsert (e : Nat × BitVec 32) : List (Nat × BitVec 32) → List (Nat × BitVec 32)
  | [] => [e]
  | x :: r =>
    if fvLt (ofFp32 x.2) (ofFp32 e.2) then e :: x :: r else x :: topkInsert e r

/-- TOPK over the records of a page list of N entries. -/
def State.runTopk (s : State) (c d tenant : Nat) : StkOut :=
  let n := sdN d
  let bytes := 2 * sdK d * typeBits (sdWType d) / 8
  stkAll (fun (p : Nat × Nat) s =>
    s.withX c p.1 d (sdB d) (sdK d) (fun x sc s =>
      s.withList p.1 d n (fun lst s =>
        let rec go : Nat → Nat → List (List (Nat × BitVec 32)) → ArithFlags → State → StkOut
          | 0, _, best, fl, s =>
            (stkAll (fun v s =>
              let top := ((best[v]?).getD []).take (sdParam d)
              let out := (List.range (sdParam d)).flatMap (fun i =>
                match top[i]? with
                | some (j, w) => bytesOfNat 4 j ++ bytesOfNat 4 w.toNat
                | none => bytesOfNat 4 0xFFFFFFFF ++ bytesOfNat 4 0xFF800000)
              (s.stkWrite c [p.1] (sdOut d) (8 * sdParam d * v) out, .ok 0)) (List.range (sdB d)) s).then_
              (fun s => (s, .ok fl))
          | k + 1, j, best, fl, s =>
            match pageOf lst j with
            | none => go k (j + 1) best fl s
            | some (e, _) =>
              if !s.inBankGroup p.1 [(e, bytes)] then (s, .error ST_STK_PAGE_SPAN)
              else s.withPage tenant p.1 e bytes (fun rcd s =>
                let sc' := (List.range (sdB d)).map (fun v => topkScore d x sc v rcd)
                let best := List.zipWith (fun l (o : FpOut) =>
                  if fvIsNan (ofFp32 o.1) then l else topkInsert (j, o.1) l) best sc'
                go k (j + 1) best (fl ||| flagsOf sc') s)
        go n 0 (List.replicate (sdB d) []) 0 s))) ((sdStacks d).zipIdx) s

/-- REDUCE: partial arrays added in increasing order. -/
def State.runReduce (s : State) (c d : Nat) : StkOut :=
  let n := sdN d
  let b := sdB d
  let ks := max 1 (sdKsplit d)
  stkAll (fun (p : Nat × Nat) s =>
    withBytes (s.stkRead c p.1 (sdXAddr d) (4 * ((ks * b - 1) * sdXVs d + n))) (fun x s =>
      stkAll (fun v s =>
        let rs := (List.range n).map (fun i =>
          let e (q : Nat) : BitVec 32 := fp32At x ((q * b + v) * sdXVs d + i)
          (List.range (ks - 1)).foldl (fun (st : FpOut) q =>
            let (r, f) := fpAdd st.1 (e (q + 1))
            (r, st.2 ||| f)) (e 0, flagIf ((List.range ks).any (fun q => fvIsNan (ofFp32 (e q)))) flagNanIn))
        let (s, fl) := s.stkOutput c d v p.2 p.1 n (rs.map (fun r => ofFp32 r.1))
        (s, .ok (fl ||| flagsOf rs))) (List.range b) s)) ((sdStacks d).zipIdx) s

/-! ### Row operations (R310) -/

/-- Bitwise combination of a row operation. -/
def rowOp (d a b : Nat) : Nat :=
  match sdOpc d with
  | 0x01 => a
  | 0x03 => a &&& b
  | 0x04 => a ||| b
  | 0x05 => a ^^^ b
  | _ => 2 ^ 8192 - 1 - a

/-- A row operation in every near-bank unit of the range. -/
def State.runRow (s : State) (d : Nat) : StkOut :=
  stkAll (fun st s => stkAll (fun k s => stkAll (fun i s =>
    let nbu := sdNbuFirst d + k
    let at_ (m : Nat) : Nat := sdOff d m + 1024 * i
    let put (v : Nat) (s : State) : StkOut := (s.nbuWrite st nbu (at_ 2) (bytesOfNat 1024 v), .ok 0)
    if sdOpc d = 0x02 then
      put (packElems 64 (List.replicate 128 (sdAux d))) s
    else
      withBytes (s.nbuRead st nbu (at_ 0) 1024) (fun a s =>
        if sdUses d 1 then withBytes (s.nbuRead st nbu (at_ 1) 1024) (fun b s => put (rowOp d a b) s)
        else put (rowOp d a 0) s)) (List.range (sdN d)) s) (List.range (sdNbuCnt d)) s) (sdStacks d) s

/-! ### Starting, running and completing a descriptor (R311 to R316) -/

/-- Work of near-bank units: MACs by stack, and busy time in ns. -/
def sdWork (d sig : Nat) : Nat × Nat :=
  let rate := if sdWType d = 7 ∨ sdWType d = 0xA then 32 else if sdOpc d = 0x28 ∧ sdWType d = 1 then 8 else 16
  match sdOpc d with
  | 0x10 => let m := sdLocalRows d sig * sdK d * sdB d; (m, m / rate)
  | 0x11 => let m := sdN d * sdK d * sdB d; (m, m / rate)
  | 0x28 => let m := sdN d * (if sdFunc d = 2 then 2 * sdK d else sdK d) * sdB d; (m, m / rate)
  | _ =>
    if sdIsRow d then (0, 64 * sdN d * sdNbuCnt d)
    else if sdNbu d then 
      -- bytes read and written, 16 in a ns
      (0, sdNbuCnt d * (sdB d * sdN d * ((if sdUses d 1 then 2 else 1) * typeBits (sdWType d)
        + (if sdUses d 2 then typeBits (sdOutType d) else 0)) / 128)) else (0, 0)

/-- Count the work of a descriptor in its stacks. -/
def State.countWork (s : State) (c d : Nat) : State :=
  ((sdStacks d).zipIdx).foldl (fun s p =>
    let (m, t) := sdWork d p.2
    let s := if sdOpc d = 0x10 then s.updChain c (fun x => { x with macs := x.macs + m }) else s
    s.updStack p.1 (fun u => { u with macs := u.macs + BitVec.ofNat 64 m, nbuNs := u.nbuNs + t })) s

/-- Slots of RB that the running descriptors of a chain hold in a stack. -/
def StackChain.rbUsed (x : StackChain) (stack : Nat) : Nat :=
  (x.running.map (fun r =>
    let d := ((x.descs[r.idx]?).getD 0).toNat
    if bit (sdMask d) stack then sdFootprint d else 0)).sum

/-- Does the footprint of a descriptor fit in every stack it runs in (R291)? -/
def StackChain.rbFits (x : StackChain) (d : Nat) : Bool :=
  (sdStacks d).all (fun st => decide (x.rbUsed st + sdFootprint d ≤ x.slots))

/-- Have 20 ns (one tick) passed since the last start in each of its stacks? -/
def State.startSpaced (s : State) (d : Nat) : Bool :=
  (sdStacks d).all (fun st => s.stks.chains.all (fun c =>
    match Table.find c.2.startAt st with
    | some a => decide (a + 1 ≤ s.time)
    | none => true))

/-- Does the OVERLAP condition of the next descriptor hold? The first starts at
once. -/
def StackChain.overlapOk (x : StackChain) (d : Nat) : Bool :=
  x.next == 0 || sdOverlap d || x.running.isEmpty

/-- STK_DESC_START: the next descriptor of a chain starts once its OVERLAP
condition holds, its wait is met, its RB footprint fits, and 20 ns (one tick)
have passed since the previous start in its stacks. A wait that is not met
leaves it waiting at the sync unit. -/
def execStkDescStart (c t : Nat) (s : State) : Out :=
  let s := s.at t
  match Table.find s.stks.chains c with
  | none => .next s
  | some x =>
    match x.descs[x.next]? with
    | none => .next s
    | some w =>
      let d := w.toNat
      if x.stopped || x.failed.isSome || !x.overlapOk d || !x.rbFits d || !s.startSpaced d then .next s
      else if (sdStacks d).any (fun st => s.underReset (0x100 + st)) then
        .next (s.updChain c (fun y => { y with
          failed := some (ST_RST_BLOCK_ISOLATED, ((sdStacks d).head?).getD 0, y.next) }))
      else
        let begin (s : State) : State :=
          let s := (sdStacks d).foldl (fun s st => s.logArb (0x410 + st) (BitVec.ofNat 16 (0x1000 + st))) s
          let s := s.updChain c (fun y =>
            { y with
              running := y.running ++ [{ idx := y.next, done := false, flags := 0, failed := none }]
              next := y.next + 1, waitSent := false, waitDone := false, lastProgress := s.time
              startAt := (sdStacks d).foldl (fun m st => Table.put m st s.time) y.startAt })
          s.traceCentral 0 0x13 2 (((sdStacks d).head?).getD 0) (sdTag d)
            (sdMask d + 2 ^ 12 * x.next + 2 ^ 64 * x.seq)
        if !sdWaitEn d || x.waitDone then .next (begin s)
        else if x.waitSent then
          match s.sync.woken.find? (fun w => w.1 == .stack c x.next) with
          | none => .next s
          | some (u, st) =>
            let s := { s with sync := { s.sync with woken := s.sync.woken.filter (fun w => w.1 != u) } }
            if st = 0 then .next (begin s)
            else .next (s.updChain c (fun y => { y with
              failed := some (st, ((sdStacks d).head?).getD 0, y.next) }))
        else if !s.soAllowed x.tenant (sdWaitSo d) then
          .next ((s.soBlocked 3 (((sdStacks d).head?).getD 0) x.tenant (sdWaitSo d)).updChain c (fun y =>
            { y with failed := some (ST_ISO_SYNC, ((sdStacks d).head?).getD 0, y.next) }))
        else
          match s.soWait (sdWaitSo d) 1 true (.stack c x.next) with
          | .passed s => .next (begin s)
          | .waits s => .next (s.updChain c (fun y => { y with waitSent := true, lastProgress := s.time }))

/-- Bytes of free values. -/
def State.scrambleAt (s : State) (c : Nat) (stks : List Nat) (a n : Nat) : State :=
  let (bs, s) := s.freshBytes n
  s.stkWrite c stks a 0 bs

/-- The outputs of a descriptor that is stopped before it completes, or whose
output overlaps an input, are not defined: every byte it may write becomes a free
value (R295, R310, R313). -/
def State.scrambleOutputs (s : State) (c d tenant : Nat) : State :=
  let stks := if sdDest d = 1 then stacksOf (sdBcast d) else sdStacks d
  let s := ((sdSpans d).filter (fun p => p.write)).foldl (fun s p =>
    p.pieces.foldl (fun s r => s.scrambleAt c (if p.addr = sdAux d then sdStacks d else stks) r.1 r.2) s) s
  if sdUses d 2 && (sdIsRow d || sdIsEw d) then
    (sdStacks d).foldl (fun s st => (List.range (sdNbuCnt d)).foldl (fun s k =>
      (sdNbuPieces d 2).foldl (fun s r =>
        let (bs, s) := s.freshBytes r.2
        s.nbuWrite st (sdNbuFirst d + k) r.1 bs) s) s) s
  else if sdOpc d = 0x10 ∧ sdDest d = 2 then
    -- the rows of an append
    match s.appendMap d with
    | (.error _, s) => s
    | (.ok (m, g), s) =>
      (List.range (sdB d)).foldl (fun s v => (List.range (sdN d / kvD g)).foldl (fun s k =>
        let (cs, s) := s.freshBytes (kvD g)
        let (sc, s) := s.freshBytes (kvD g / 32)
        (s.appendRow m g tenant 0 v (k * kvD g) (cs.map BitVec.toNat) (sc.map BitVec.toNat)).1) s) s
  else s

/-- Run the operation of a started descriptor, if it has one of the opcodes. -/
def State.runStack (s : State) (c idx : Nat) (opc : Nat) (run : Nat → Nat → State → StkOut) : State :=
  match Table.find s.stks.chains c with
  | none => s
  | some x =>
    match x.descs[idx]?, x.running.find? (fun r => r.idx == idx) with
    | some w, some r =>
      let d := w.toNat
      if r.done || r.failed.isSome || x.stopped || sdOpc d != opc then s
      else
        let s := s.countWork c d
        match run d x.tenant s with
        | (s, .ok fl) =>
          let s := if sdOverlaps d then s.scrambleOutputs c d x.tenant else s
          s.updChain c (fun y => { y with running := y.running.map (fun q =>
            if q.idx = idx then { q with done := true, flags := fl } else q) })
        | (s, .error e) => s.updChain c (fun y => { y with running := y.running.map (fun q =>
            if q.idx = idx then { q with failed := some e } else q) })
    | _, _ => s

def execRowcopy (c i : Nat) (s : State) : Out := .next (s.runStack c i 0x01 (fun d _ s => s.runRow d))
def execRowinit (c i : Nat) (s : State) : Out := .next (s.runStack c i 0x02 (fun d _ s => s.runRow d))
def execRowand (c i : Nat) (s : State) : Out := .next (s.runStack c i 0x03 (fun d _ s => s.runRow d))
def execRowor (c i : Nat) (s : State) : Out := .next (s.runStack c i 0x04 (fun d _ s => s.runRow d))
def execRowxor (c i : Nat) (s : State) : Out := .next (s.runStack c i 0x05 (fun d _ s => s.runRow d))
def execRownot (c i : Nat) (s : State) : Out := .next (s.runStack c i 0x06 (fun d _ s => s.runRow d))
def execGemv (c i : Nat) (s : State) : Out :=
  .next (s.runStack c i 0x10 (fun d tn s => s.runGemv c d tn))
def execGemvt (c i : Nat) (s : State) : Out := 
  .next (s.runStack c i 0x11 (fun d tn s => s.runGemvt c d tn))
def execEadd (c i : Nat) (s : State) : Out := .next (s.runStack c i 0x18 (fun d _ s => s.runEw c d))
def execEmul (c i : Nat) (s : State) : Out := .next (s.runStack c i 0x19 (fun d _ s => s.runEw c d))
def execEact (c i : Nat) (s : State) : Out := .next (s.runStack c i 0x1A (fun d _ s => s.runEw c d))
def execEglu (c i : Nat) (s : State) : Out := .next (s.runStack c i 0x1B (fun d _ s => s.runEw c d))
def execEscale (c i : Nat) (s : State) : Out := .next (s.runStack c i 0x1C (fun d _ s => s.runEw c d))
def execNorm (c i : Nat) (s : State) : Out := .next (s.runStack c i 0x20 (fun d _ s => s.runNorm c d))
def execSmx (c i : Nat) (s : State) : Out := .next (s.runStack c i 0x22 (fun d _ s => s.runSmx c d))
def execTopk (c i : Nat) (s : State) : Out := 
  .next (s.runStack c i 0x28 (fun d tn s => s.runTopk c d tn))
def execReduce (c i : Nat) (s : State) : Out := .next (s.runStack c i 0x30 (fun d _ s => s.runReduce c d))

/-- Signal a sync object after a completion, checked against the tenant. -/
def State.signalChecked (s : State) (kind unit tenant so : Nat) : State :=
  if s.soAllowed tenant so then s.soSignal so 1 else s.soBlocked kind unit tenant so

/-- STK_DESC_COMPLETE: a descriptor whose outputs have taken effect completes,
and signals SIG_SO. The chain completes with its last (R311, R312). -/
def execStkDescComplete (c idx : Nat) (s : State) : Out :=
  match Table.find s.stks.chains c with
  | none => .next s
  | some x =>
    match x.running.find? (fun r => r.idx == idx && r.done), x.descs[idx]? with
    | some r, some w =>
      let d := w.toNat
      let s := s.updChain c (fun y =>
        { y with running := y.running.filter (fun q => q.idx != idx), completed := y.completed + 1,
                 lastProgress := s.time, flags := y.flags ||| r.flags })
      let s := (sdStacks d).foldl (fun s st => s.updStack st (fun u => { u with descCnt := u.descCnt + 1 })) s
      let s := s.traceCentral 1 0x14 2 (((sdStacks d).head?).getD 0) (sdTag d)
        (sdMask d + 2 ^ 12 * idx + 2 ^ 64 * x.seq)
      .next (if sdSigEn d then s.signalChecked 3 (((sdStacks d).head?).getD 0) x.tenant (sdSigSo d) else s)
    | _, _ => .next s

/-- STK_CHAIN_FAIL: the first error of a chain stops it: no further descriptor
starts, running ones stop with their outputs not defined, and STK_ERR_INFO of
the first stack to see the error records it (R313). -/
def execStkChainFail (c : Nat) (s : State) : Out :=
  match Table.find s.stks.chains c with
  | none => .next s
  | some x =>
    let first : Option (Status × Nat × Nat) :=
      x.failed.orElse (fun _ =>
        (x.running.find? (fun r => r.failed.isSome)).bind (fun r =>
          r.failed.map (fun e =>
            (e, ((stacksOf (sdMask (((x.descs[r.idx]?).getD 0).toNat))).head?).getD 0, r.idx))))
    match first with
    | none => .next s
    | some (e, st, i) =>
      if x.stopped then .next s
      else
        let s := s.updStack st (fun u => { u with errStatus := e, errIndex := BitVec.ofNat 12 i })
        let s := s.removeWaits (fun u => match u with
          | .stack k _ => k == c
          | _ => false)
        let d := ((x.descs[i]?).getD 0).toNat
        let s := s.traceCentral 1 0x14 2 (((sdStacks d).head?).getD 0) (sdTag d)
          (sdMask d + 2 ^ 12 * i + 2 ^ 24 * e.toNat + 2 ^ 64 * x.seq)
        let s := x.running.foldl (fun s r =>
          s.scrambleOutputs c ((x.descs[r.idx]?).getD 0).toNat x.tenant) s
        .next (s.updChain c (fun y => { y with failed := some (e, st, i), stopped := true, running := [] }))

/-! ### Slots (R291, R318) -/

/-- Stop a chain by an abort (R313): its waits end, its running descriptors stop. -/
def State.abortChain (s : State) (c : Nat) : State :=
  match Table.find s.stks.chains c with
  | none => s
  | some x =>
    let s := s.removeWaits (fun u => match u with
      | .stack k _ => k == c
      | _ => false)
    let s := x.running.foldl (fun s r => s.scrambleOutputs c ((x.descs[r.idx]?).getD 0).toNat x.tenant) s
    s.updChain c (fun y => { y with stopped := true, running := [] })

/-- STK_SLOT_CFG_WRITE: a write of SERVE_RSV: the scheduler core sets it, up to
192; the reserve shrinks at once and grows as graph slots become free. `used` is
how many graph-pool slots the stack's nodes hold. -/
def State.resizeReserve (s : State) (n used : Nat) : State :=
  s.updStack n (fun u =>
    let want := u.serveRsv.toNat
    { u with reserveNow := if want ≤ u.reserveNow then want else min want (256 - used) })

end Sys2Proof.Machine
end

