-- ==== Sys2Proof/Machine/TileCheck.lean ====
section
/-! DEFINITION. The checks of a layer descriptor at START: the fields of the
descriptor, its address generators, its programs, and the types they name
(05 R177). A failure is a status, a source and an entry or operation index. -/

namespace Sys2Proof.Machine

/-- A failure of a check: status, TILE_ERR_INFO.SOURCE and OP_INDEX. -/
abbrev CheckFail := Status × Nat × Nat

/-! ### Checks 1 to 5 -/

/-- Check 4: the reserved bits of R170 to R173. -/
def descReservedOk (d : Nat) : Bool :=
  let zero (lo w : Nat) : Bool := bits d lo w == 0
  zero (8 * 3 + 5) 3 && zero (8 * 4 + 4) 4 && zero (8 * 5 + 5) 3 && zero (8 * 6 + 9) 7
    && zero (8 * 8 + 9) 7 && zero (8 * 0x0A) 16 && zero (8 * 0x1E) 16
    && (List.range 6).all (fun n => bits (descLoop d n) 27 5 == 0)
    && zero (8 * 0x3E) 16 && zero (8 * 0x46) 16 && zero (8 * 0x4E) 16 && zero (8 * 0x56) 16
    && zero (8 * 0x5A) 16 && zero (8 * 0x5C + 17) 15
    && (List.range 4).all (fun n =>
        let p := byteField d (0x60 + 4 * n) 4
        bits p 16 16 == 0 && (bits p 8 8 != 0 || bits p 0 8 == 0))
    && zero (8 * 0x70) (8 * 144)

/-- Is a PRE_LIVE range valid (R173)? -/
def liveRangeOk (p : Nat) : Bool :=
  bits p 8 8 == 0 || (decide (bits p 0 8 ≤ 191) && decide (bits p 0 8 + bits p 8 8 ≤ 192))

/-- Check 5: field values. -/
def descFieldsOk (d : Nat) : Bool :=
  decide (descAgCnt d ≤ 16) && decide (descAsLen d ≤ 256) && decide (descXsLen d ≤ 256)
    && (List.range 6).all (fun n => bits (descLoop d n) 24 3 != 6)
    && (descAgCnt d == 0 || byteField d 0x38 1 == 0)
    && byteField d 0x40 1 == 0 && byteField d 0x48 1 == 0
    && (!descScEn d || (byteField d 0x50 1 == 0 && !bit d (8 * 0x58)))
    && (List.range 4).all (fun n => liveRangeOk (byteField d (0x60 + 4 * n) 4))
    && !(descPreEn d && descScEn d)

/-- Checks 1 to 5. -/
def descHeadCheck (d : Nat) : Option Status :=
  if byteField d 0 1 ≠ 1 then some ST_DESC_VER
  else if byteField d 1 1 ≠ 0x20 then some ST_DESC_LEN
  else if byteField d 2 1 ≠ 1 then some ST_DESC_KIND
  else if !descReservedOk d then some ST_DESC_RSV
  else if !descFieldsOk d then some ST_DESC_FIELD
  else none

/-! ### Check 7: address-generator entries (R194, R195) -/

/-- The status of one entry, if it is not valid. -/
def agEntryCheck (ags : List Nat) (i e : Nat) : Option Status :=
  let rsv := bit e (8 * 8 + 7) || byteField e 0x0A 6 != 0 ||
    (agKind e == 0 && byteField e 9 1 != 0)
  let spaceOk :=
    match agSpace e with
    | 0 => decide (agAddr e < 0x30000)
    | 1 => decide (agAddr e < 2 ^ 48)
    | 2 => true
    | _ => false
  let idxOk :=
    if agKind e = 0 then true
    else if agKind e = 1 then
      let k := agIdxAg e
      decide (agIdxLvl e ≤ 5) && k != i &&
        (match ags[k]? with
         | some x => agSpace x == 0 && agKind x == 0 && agEw x == (if agIdxW e = 0 then 1 else 2)
         | none => false)
    else false
  if rsv then some ST_DESC_RSV
  else if spaceOk && decide (agEw e ≤ 5) && agSmode e != 3 && idxOk then none
  else some ST_DESC_AG

/-- Check 7 over the table. -/
def agTableCheck (ags : List Nat) : Option CheckFail :=
  (List.range ags.length).findSome? (fun i =>
    (agEntryCheck ags i (ags[i]?.getD 0)).map (fun st => (st, 0, i)))

/-! ### Check 8: operations and loops (R180 to R192) -/

/-- Opcodes of the vector operations of R189. -/
def vectorOpcode (o : Nat) : Bool :=
  (decide (0x40 ≤ o) && decide (o ≤ 0x48)) || (decide (0x50 ≤ o) && decide (o ≤ 0x5B))
    || (decide (0x60 ≤ o) && decide (o ≤ 0x63)) || (decide (0x68 ≤ o) && decide (o ≤ 0x6D))

/-- Is an operation word of the stream defined, its reserved bits zero and its
field values valid? -/
def opWordOk (exec : Bool) (w : Nat) : Bool :=
  let zero (lo n : Nat) : Bool := bits w lo n == 0
  let o := bits w 0 8
  let lvl := decide (bits w 8 3 ≤ 5)
  if o = 0x00 ∨ o = 0x07 then zero 8 56
  else if o = 0x01 ∨ o = 0x02 then zero 11 53 && lvl
  else if o = 0x03 then zero 16 48
  else if o = 0x04 then zero 11 5 && zero 32 32
  else if o = 0x05 then zero 12 4 && zero 32 32
  else if o = 0x06 then
    zero 12 12 && zero 41 7 && decide (bits w 8 4 ≤ 7) &&
      (decide (bits w 8 4 ≤ 4) || (zero 30 11 && zero 48 16))
  else if !exec then
    if o = 0x10 ∨ o = 0x11 then zero 22 10
    else if o = 0x12 then zero 20 12 && zero 48 16
    else false
  else if o = 0x20 then
    zero 18 46 && bits w 10 2 != 3 && bits w 12 2 != 3 && (bits w 10 2 != 2 || bits w 12 2 == 0)
  else if o = 0x21 then zero 20 4 && zero 31 33
  else if o = 0x22 then zero 8 2 && zero 18 2 && zero 22 42
  else if !vectorOpcode o then false
  else if o ≤ 0x5B then zero 28 36
  else if o ≤ 0x63 then zero 18 14 && zero 40 24 && decide (bits w 32 7 ≤ 64)
  else if o ≤ 0x69 then
    zero 13 19 && zero 34 2 && zero 47 17 && (bits w 40 2 != 0 || bits w 42 5 == 0)
  else if o ≤ 0x6B then zero 13 1 && zero 18 46
  else if o = 0x6C then zero 13 19
  else zero 18 14 && zero 38 26

/-- Check 8 over one program: `lv` holds the open levels with the index of
their LOOP, innermost first. -/
def progCheck (exec : Bool) : Nat → List (Nat × Nat) → List Nat → Option Nat
  | _, lv, [] => lv.head?.map (fun l => l.2)
  | i, lv, w :: r =>
    let o := bits w 0 8
    if !opWordOk exec w then some i
    else if o = 0x01 then
      let n := bits w 8 3
      if lv.all (fun l => decide (l.1 < n)) then progCheck exec (i + 1) ((n, i) :: lv) r
      else some i
    else if o = 0x02 then
      match lv with
      | (n, _) :: lv' => if n = bits w 8 3 then progCheck exec (i + 1) lv' r else some i
      | [] => some i
    else if o = 0x07 then
      match lv with
      | (_, k) :: _ => some k
      | [] => progCheck exec (i + 1) lv r
    else progCheck exec (i + 1) lv r

/-- The first operation of a program that a test finds fault with. -/
def findOp (src : Nat) (ws : List Nat) (f : Nat → Option Status) : Option CheckFail :=
  (List.range ws.length).findSome? (fun i => (f (ws[i]?.getD 0)).map (fun st => (st, src, i)))

/-! ### Check 9: generators of the operations (R183, R182, R155) -/

/-- Does the operation name generators that exist, of the spaces it allows? -/
def opAgCheck (ags : List Nat) (w : Nat) : Option Status :=
  let o := bits w 0 8
  let space (n : Nat) (p : Nat → Bool) : Bool :=
    match ags[n]? with
    | some e => p (agSpace e)
    | none => false
  if o = 0x10 ∨ o = 0x11 then
    if space (bits w 10 4) (· == 0) then none else some ST_DESC_AG
  else if o = 0x12 then
    if space (bits w 8 4) (· == 0) && space (bits w 12 4) (fun x => x == 1 || x == 2) then none
    else some ST_DESC_AG
  else none

/-- Does a transposing operation name a tensor that can be transposed, with the
BYTES of its element width? -/
def opTtCheck (ags : List Nat) (w : Nat) : Option Status :=
  let o := bits w 0 8
  if (o = 0x10 ∨ o = 0x11) ∧ bit w 14 then
    let e := (ags[bits w 10 4]?).getD 0
    let ew := ewBits (agEw e)
    if ew = 3 ∨ ew = 6 ∨ agSmode e ≠ 0 then some ST_TT_TYPE
    else if bits w 16 6 + 1 = (if ew = 32 then 64 else 4 * ew) then none
    else some ST_DESC_PROG
  else none

/-! ### Check 10: queue directions -/

/-- Does the operation use its queues in their directions? -/
def opDqCheck (d w : Nat) : Option Status :=
  let o := bits w 0 8
  let load (n : Nat) : Bool := !descDqDir d n
  let store (n : Nat) : Bool := descDqDir d n
  let sm := bits w 40 2
  let ok : Bool :=
    match o with
    | 0x10 => load (bits w 8 2)
    | 0x11 => store (bits w 8 2)
    | 0x20 => load (bits w 8 2)
    | 0x22 => store (bits w 10 2) && (bits w 16 2 != 2 || load (bits w 20 2))
    | 0x68 => load (bits w 32 2) && (sm == 0 || load (bits w 42 2)) && (sm != 2 || load (bits w 44 2))
    | 0x69 => store (bits w 32 2) && (sm == 0 || store (bits w 42 2)) && (sm != 2 || load (bits w 44 2))
    | _ => true
  if ok then none else some ST_DESC_DQ

/-! ### Check 11: types, pairs, modes, strides and licences (03 R128, R129, R98) -/

/-- Types, pairs and scale modes of one operation. -/
def opTypeCheck (w : Nat) : Option Status :=
  let o := bits w 0 8
  if o = 0x20 then
    let ty := bits w 14 4
    if bits w 12 2 ≠ 0 then none
    else if bits w 10 2 = 2 then if ty = 0x0 ∨ ty = 0xB then none else some ST_TYPE_UNSUPPORTED
    else if typeMatrix ty then none else some ST_TYPE_UNSUPPORTED
  else if o = 0x21 then
    let (ta, tb, ma, mb) := (bits w 8 4, bits w 12 4, bits w 16 2, bits w 18 2)
    if !(typeMatrix ta && typeMatrix tb) then some ST_TYPE_UNSUPPORTED
    else if !(modeAccepted ta ma && modeAccepted tb mb) then
      (if (pairKind ta tb ma mb).isNone &&
          (pairKind ta tb 0 0).isNone && (pairKind ta tb 1 1).isNone then some ST_TYPE_PAIR
       else some ST_SCALE_MODE)
    else if (pairKind ta tb ma mb).isNone then some ST_TYPE_PAIR
    else none
  else if o = 0x22 then
    if !typeDefined (bits w 12 4) then some ST_TYPE_UNSUPPORTED
    else if !modeAccepted (bits w 12 4) (bits w 16 2) then some ST_SCALE_MODE else none
  else if o = 0x68 ∨ o = 0x69 then
    if !typeDefined (bits w 36 4) then some ST_TYPE_UNSUPPORTED
    else if !modeAccepted (bits w 36 4) (bits w 40 2) then some ST_SCALE_MODE else none
  else none

/-- Strides of a generator of a scaled tensor (R98). -/
def agStrideCheck (e : Nat) : Option Status :=
  if (agSmode e = 1 ∨ agSmode e = 2) ∧
     (List.range 6).any (fun n => let k := agStride e n; k != 0 && k != 1 && k % 32 != 0)
  then some ST_SCALE_ALIGN else none

/-- Types that need the licence (R129). -/
def opLicenceCheck (w : Nat) : Option Status :=
  let o := bits w 0 8
  let named : List Nat :=
    if o = 0x20 then if bits w 12 2 = 0 then [bits w 14 4] else []
    else if o = 0x21 then [bits w 8 4, bits w 12 4]
    else if o = 0x22 then [bits w 12 4]
    else if o = 0x68 ∨ o = 0x69 then [bits w 36 4] else []
  if named.any typeLicensed then some ST_TYPE_UNLICENSED else none

/-! ### Checks 7 to 11 together -/

/-- Checks 7 to 11, in their order; `lic` is the FP4 and T3 licence. -/
def descBodyCheck (lic : Bool) (d : Nat) (r : Resident) : Option CheckFail :=
  let ags := r.ag.map BitVec.toNat
  let a := r.asp.map BitVec.toNat
  let x := r.xsp.map BitVec.toNat
  let both (f : Nat → Option Status) : Option CheckFail := (findOp 1 a f) <|> (findOp 2 x f)
  (agTableCheck ags)
    <|> ((progCheck false 0 [] a).map (fun i => (ST_DESC_PROG, 1, i)))
    <|> ((progCheck true 0 [] x).map (fun i => (ST_DESC_PROG, 2, i)))
    <|> (findOp 1 a (opAgCheck ags))
    <|> (findOp 1 a (opTtCheck ags))
    <|> (both (opDqCheck d))
    <|> (both opTypeCheck)
    <|> ((List.range ags.length).findSome? (fun i =>
          (agStrideCheck (ags[i]?.getD 0)).map (fun st => (st, 0, i))))
    <|> (if lic then none else both opLicenceCheck)

end Sys2Proof.Machine
end

