-- ==== Sys2Proof/Machine/FaultOps.lean ====
section
/-! DEFINITION. Shared operations of fault reports: suspects, reports to their
harbourmasters, and incident records (17 R538 to R543). -/

namespace Sys2Proof.Machine

def State.updHm (s : State) (f : Harbourmaster → Harbourmaster) : State := { s with hm := f s.hm }

/-! ### Messages (R539) -/

/-- A fault message. -/
def faultMsg (mtype suspect sender mflags num time status : Nat) : List Byte :=
  bytesOfNat 3 0x740401 ++ bytesOfNat 1 mtype ++ bytesOfNat 2 (suspect % 8192) ++ bytesOfNat 2 (sender % 8192)
    ++ bytesOfNat 1 mflags ++ bytesOfNat 3 0 ++ bytesOfNat 4 num ++ bytesOfNat 8 time ++ bytesOfNat 2 status
    ++ bytesOfNat 6 0

/-- Is the data of a management packet a fault message of a defined MTYPE? -/
def isFaultMsg (d : List Byte) : Bool :=
  let h := natOfBytes (d.take 4)
  byteField h 2 1 == 0x74 && decide (1 ≤ byteField h 3 1) && decide (byteField h 3 1 ≤ 3)

/-- Send a fault message to a berth of this harbour. -/
def State.sendFault (s : State) (b : Nat) (msg : List Byte) : State :=
  s.sendPacket { ptype := 8, vc := 2, esc := false, down := false, dstH := s.ownHarbour, dstB := b,
                 srcH := s.ownHarbour, srcB := s.ownBerth, tenant := 0, tag := 0, loc := 0, len := 31,
                 aop := 0, data := msg }

/-! ### Incident records (R543) -/

/-- Raise ST_INCIDENT to the own host. `by_`: 1 primary, 2 secondary, 3 reporter. -/
def State.raiseIncident (s : State) (suspect count first fkinds by_ serial reporter num : Nat) : State :=
  let x := s.newEntry ST_INCIDENT 13 suspect none
    (fkinds % 16 + 2 ^ 4 * by_ + 2 ^ 8 * (serial % 256) + 2 ^ 16 * (reporter % 8192) + 2 ^ 32 * min num (2 ^ 32 - 1))
  let r : EventRec := { x.record with count := count, time := first }
  s.placeEntry { x with record := r }

/-- Serial of the next incident of a suspect at this module. -/
def State.nextSerial (s : State) (suspect : Nat) : Nat × State :=
  let n := Table.getD s.hm.serials suspect 0
  (n, s.updHm (fun h => { h with serials := Table.put h.serials suspect (n + 1) }))

/-! ### Reporting (R538, R540) -/

/-- The harbourmasters of a berth that a report can reach. -/
def State.harbourmasters (s : State) (b : Nat) : List Nat :=
  [b ^^^ 1, b ^^^ 2].filter (fun m => s.isSelf s.ownHarbour m || s.reachable m)

/-- Send the REPORT of a suspect, with the faults folded for it. -/
def State.sendReport (s : State) (q : QueuedSuspect) : State :=
  let q := match Table.find s.hm.folded q.suspect with
    | some x => { x with num := satAdd 32 x.num q.num }
    | none => q
  let to_ := s.harbourmasters q.suspect
  let s := s.updHm (fun h => { h with folded := Table.del h.folded q.suspect })
  if to_.isEmpty then
    let (n, s) := s.nextSerial q.suspect
    s.raiseIncident q.suspect 1 q.firstTime (2 ^ (q.fkind - 1)) 3 n s.ownBerth q.num
  else
    let r : Report := { suspect := q.suspect, waiting := to_, full := false, sentAt := s.time }
    let s := s.updHm (fun h => { h with outstanding := some r })
    to_.foldl (fun s m =>
      s.sendFault m (faultMsg 1 q.suspect s.ownBerth q.fkind q.num q.firstTime q.status.toNat)) s

/-- Fold a fault into a suspect's record. -/
def foldFault (t : Table QueuedSuspect) (q : QueuedSuspect) : Table QueuedSuspect :=
  Table.put t q.suspect
    (match Table.find t q.suspect with
     | some x => { x with num := satAdd 32 x.num 1 }
     | none => q)

/-- A fault of berth `b`: it is reported, folded, queued or dropped. -/
def State.suspectFault (s : State) (b fkind : Nat) (st : Status) : State :=
  let q : QueuedSuspect := { suspect := b, fkind := fkind, status := st, firstTime := s.time, num := 1 }
  if decide (s.time < Table.getD s.hm.quiet b 0) then s.updHm (fun h => { h with folded := foldFault h.folded q })
  else
    match s.hm.outstanding with
    | none => s.sendReport q
    | some r =>
      if r.suspect = b then s.updHm (fun h => { h with folded := foldFault h.folded q })
      else if s.hm.queue.any (fun x => x.suspect == b) then
        s.updHm (fun h => { h with queue := h.queue.map (fun x =>
          if x.suspect = b then { x with num := satAdd 32 x.num 1 } else x) })
      else if s.hm.queue.length < 16 then s.updHm (fun h => { h with queue := h.queue ++ [q] })
      else
        let s := s.updHm (fun h => { h with dropped := h.dropped + 1 })
        let due := match s.hm.droppedEvt with
          | none => true
          | some t => decide (t + msTicks 100 ≤ s.time)
        if due then
          (s.raise ST_REPORT_DROPPED 0 0 none s.hm.dropped).updHm (fun h => { h with droppedEvt := some s.time })
        else s

/-- The outstanding REPORT has ended: the next suspect that waits is reported, and
those after it as long as no harbourmaster is reachable for them. -/
def State.reportEnded (s : State) : State :=
  iter (fun s =>
    match s.hm.outstanding, s.hm.queue with
    | none, q :: rest => (s.updHm (fun h => { h with queue := rest })).sendReport q
    | _, _ => s) 16 (s.updHm (fun h => { h with outstanding := none }))

/-- A request to berth `b` was refused with ST_FAB_NO_ROUTE: a fault of it if it had
been reachable since the fabric became ready. -/
def State.noRouteFault (s : State) (h b : Nat) (st : Status) : State :=
  if st = ST_FAB_NO_ROUTE ∧ h = s.ownHarbour ∧ s.fab.ready ∧ s.fab.reached.getLsbD b then
    s.suspectFault b 3 st
  else s

end Sys2Proof.Machine
end

