-- ==== Sys2Proof/Machine/Stream.lean ====
section
/-! DEFINITION. The operations of a tile's two streams that control it and move
its data: NOP to END, LOAD, STORE, DMA, the completion of a transfer, and the
steps that come about between the streams (05 R180 to R200, 04 R149 to R155).
Each operation is one command naming the tile (q * 64 + t) and, where both
streams have it, the stream; it runs only where that stream stands at an
operation of that opcode. -/

namespace Sys2Proof.Machine

/-! ### Control operations (05 R181) -/

/-- NOP does nothing. -/
def opNop (s : State) : OpOut := .done s none

/-- Index of the operation after the ENDLOOP that matches a LOOP. -/
def afterEndloop (prog : List (BitVec 64)) : Nat → Nat → Nat → Nat
  | 0, pc, _ => pc
  | fuel + 1, pc, depth =>
    match prog[pc]? with
    | none => pc
    | some w =>
      let opc := bits w.toNat 0 8
      if opc = 0x01 then afterEndloop prog fuel (pc + 1) (depth + 1)
      else if opc = 0x02 then
        if depth = 0 then pc + 1 else afterEndloop prog fuel (pc + 1) (depth - 1)
      else afterEndloop prog fuel (pc + 1) depth

/-- Count of a loop level at entry: its immediate or its register (05 R172,
R193). -/
def Tile.loopCount (x : Tile) (lvl : Nat) : Nat :=
  let f := descLoop x.desc lvl
  let src := bits f 24 3
  if src = 7 then bits f 0 24 else (Table.getD x.loopCnt src 0).toNat

/-- LOOP enters a level at iteration 0; a count of 0 skips the body (05 R193). -/
def opLoop (t : Nat) (exec : Bool) (s : State) (w : Nat) : OpOut :=
  let x := s.tile t
  let lvl := bits w 8 3
  let st := x.stream exec
  let cnt := x.loopCount lvl
  if cnt = 0 then
    .done s (some (afterEndloop (x.program exec) 512 (st.pc + 1) 0))
  else
    let st := { st with loops := { lvl := lvl, iter := 0, cnt := cnt, body := st.pc + 1 } :: st.loops }
    .done (s.setTile t (x.setStream exec st)) none

/-- ENDLOOP increments the index of the innermost open level, and repeats the
body while it is below the count, else leaves the level (05 R193). -/
def opEndloop (t : Nat) (exec : Bool) (s : State) (_w : Nat) : OpOut :=
  let x := s.tile t
  let st := x.stream exec
  match st.loops with
  | [] => .done s none
  | l :: r =>
    if l.iter + 1 < l.cnt then
      let st := { st with loops := { l with iter := l.iter + 1 } :: r }
      .done (s.setTile t (x.setStream exec st)) (some l.body)
    else .done (s.setTile t (x.setStream exec { st with loops := r })) none

/-- PREEMPT is a NOP unless pre-emption is enabled and the tile is STOPPING; then
the stream holds there (05 R199). -/
def opPreempt (t : Nat) (_exec : Bool) (s : State) (w : Nat) : OpOut :=
  let x := s.tile t
  if descPreEn x.desc && x.mode == .stopping then .wait s (.hold (bits w 8 8)) else .done s none

/-- SIGNAL adds INC (0 adds 1) to a TEC; the stream's earlier stores have taken
effect (05 R181, 04 R160 rule 2). -/
def opSignal (t : Nat) (_exec : Bool) (s : State) (w : Nat) : OpOut :=
  let inc := bits w 16 16
  .done (s.tecAdd t (bits w 8 3) (if inc = 0 then 1 else inc)) none

/-- WAIT holds the stream until the TEC has reached THRESH, and with DEC
subtracts it in the same step (05 R181). -/
def opWait (t : Nat) (_exec : Bool) (s : State) (w : Nat) : OpOut :=
  let x := s.tile t
  let n := bits w 8 3
  let c := x.tec n
  let th := bits w 16 16
  if c.count.toNat < th then .wait s .tec
  else if bit w 11 then
    let c' : Tec := { c with count := BitVec.ofNat 16 (c.count.toNat - th) }
    .done (s.setTile t { x with tecs := Table.put x.tecs n c' }) none
  else .done s none

/-- Tenant of a tile's accesses: its owner, or T0 while it has none (05 R175). -/
def Tile.tenant (x : Tile) : Nat := x.owner.getD 0

/-- Transfers under way that a signal of the access stream covers. -/
def Tile.coverOf (x : Tile) (exec : Bool) : List Nat := if exec then [] else x.dmas.map (·.id)

/-- SYNC on a sync object or a barrier group (05 R181, 13 R409 to R425). A
SIGNAL enters the tile's signal queue and does not hold its stream; a full
queue of 16 holds it. -/
def opSync (t : Nat) (exec : Bool) (s : State) (w : Nat) : OpOut :=
  let x := s.tile t
  let sop := bits w 8 4
  let so := bits w 24 17
  let v := bits w 48 16
  let tenant := x.tenant
  let blocked (s : State) : OpOut :=
    .fail ((s.soBlocked 2 t tenant so).cntQuay (t / 64) 55 1) ST_ISO_SYNC (if exec then 2 else 1)
  if sop = 0 then
    if 16 ≤ x.sigq.length then .wait s .sync
    else
      let e : QueuedSignal := { so := so, inc := v, exec := exec, covers := x.coverOf exec }
      .done ((s.setTile t { x with sigq := x.sigq ++ [e] }).cntQuay (t / 64) 48 1) none
  else if sop ≤ 4 then
    if !s.soAllowed tenant so then blocked s
    else if sop = 3 then .done (s.soSet so v) none
    else if sop = 4 then .done (s.soDec so v) none
    else if (x.stream exec).sent then .wait s .sync
    else
      let s := s.cntQuay (t / 64) (if sop = 1 then 49 else 50) 1
      match s.soWait so v (sop == 2) (.stream t exec) with
      | .passed s => .done s none
      | .waits s =>
        let y := s.tile t
        .wait (s.setTile t (y.setStream exec { y.stream exec with sent := true })) .sync
  else
    let g := so % 64
    match s.barCheck g t tenant with
    | some st =>
      if st = ST_ISO_SYNC then blocked s else .fail s st (if exec then 2 else 1)
    | none =>
      if (x.stream exec).sent then .wait s .sync
      else if sop ≤ 6 && !(x.coverOf exec).isEmpty then .wait s .dma
      else
        let mark (s : State) : State :=
          let y := s.tile t
          s.setTile t (y.setStream exec { y.stream exec with sent := true })
        let (s', go) :=
          if sop = 7 then s.barWait g t exec else s.barArrive g t exec (sop == 5)
        if go then .done s' none else .wait (mark s') .sync

/-- END ends the stream (05 R180). -/
def opEnd (t : Nat) (exec : Bool) (s : State) (_w : Nat) : OpOut :=
  let x := s.tile t
  .done (s.setTile t (x.setStream exec { x.stream exec with ended := true })) none

/-! ### Transposition (04 R155, 05 R182) -/

/-- Rows of a 32×32 block of `w`-bit elements turned into columns; each row is
one number. -/
def transposeBlock (w : Nat) (rows : List Nat) : List Nat :=
  (List.range 32).map (fun c => packElems w (rows.map (fun r => packedElem r w c)))

/-- Pieces of a block as rows: one piece a row, or two for 32-bit elements. -/
def piecesToRows (w : Nat) (ps : List (List Byte)) : List Nat :=
  if w = 32 then
    let rec pair : List (List Byte) → List Nat
      | a :: b :: r => natOfBytes (a ++ b) :: pair r
      | _ => []
    pair ps
  else ps.map natOfBytes

/-- The columns of a block, as the pieces in which they are given. -/
def transposePieces (w : Nat) (ps : List (List Byte)) : List (List Byte) :=
  let cols := transposeBlock w (piecesToRows w ps)
  if w = 32 then cols.flatMap (fun c => let b := bytesOfNat 128 c; [b.take 64, b.drop 64])
  else cols.map (bytesOfNat (4 * w))

/-- Pieces in a block of this element width. -/
def blockPieces (w : Nat) : Nat := if w = 32 then 64 else 32

/-! ### Access-stream operations (05 R182) -/

/-- Fields of LOAD and STORE. -/
def lsDq (w : Nat) : Nat := bits w 8 2
def lsAg (w : Nat) : Nat := bits w 10 4
def lsTt (w : Nat) : Bool := bit w 14
def lsFlush (w : Nat) : Bool := bit w 15
def lsBytes (w : Nat) : Nat := bits w 16 6 + 1
def lsOff (w : Nat) : Int := sext 32 (bits w 32 32)

/-- Where a LOAD or STORE goes: `none` is a null access; else its scratchpad
offset, or the failure of R154, R182 or R198. -/
inductive SpadOut where
  | null
  | at (off : Nat)
  | fail (status : Status) (source : Nat)
  deriving DecidableEq, Repr

/-- The scratchpad address of a LOAD or STORE of `n` bytes. -/
def State.spadAddress (s : State) (t ag n : Nat) (off : Int) : SpadOut :=
  match s.agAddress t ag off with
  | .fail st src => .fail st src
  | .null => .null
  | .addr _ a =>
    if a < 0 ∨ 0x30000 < a + (n : Int) then .fail ST_SPAD_RANGE 1
    else if a.toNat / 64 ≠ (a.toNat + n - 1) / 64 then .fail ST_LOAD_LINE 1
    else .at a.toNat

/-- An uncorrectable word of the tile's own memories: counted, and noted as
evidence of a tile failure unless the word was poisoned or never written
(11 R371, 17 R534). In this model a stored word is good or poisoned, so the
read is one of poison. -/
def State.poisonRead (s : State) (q : Nat) : State :=
  s.updQuay q (fun x => { x with poisonRd := BitVec.ofNat 16 (satAdd 16 x.poisonRd.toNat 1) })

/-- LOAD reads bytes of one scratchpad line and appends them to a LOAD queue, or
hands them to the transpose tile as a row (05 R182, R184). -/
def opLoad (t : Nat) (s : State) (w : Nat) : OpOut :=
  let x := s.tile t
  let n := lsBytes w
  let dq := x.dq (lsDq w)
  let data : Option (List Byte) × Option (Status × Nat) :=
    match s.spadAddress t (lsAg w) n (lsOff w) with
    | .fail st src => (none, some (st, src))
    | .null => (some (List.replicate n 0), none)
    | .at off =>
      match s.readMem (tileBase t + off) n with
      | some bs => (some bs, none)
      | none => (none, some (ST_SPAD_UE, 5))
  match data with
  | (_, some (st, src)) => .fail (if st = ST_SPAD_UE then s.poisonRead (t / 64) else s) st src
  | (none, none) => .done s none
  | (some bs, none) =>
    let e := ((x.res.ag[lsAg w]?).getD 0).toNat
    let ew := ewBits (agEw e)
    let fl (q : DataQueue) : DataQueue := if lsFlush w then q.flush else q
    if lsTt w then
      let ps := x.ttIn ++ [bs]
      if ps.length < blockPieces ew then .done (s.setTile t { x with ttIn := ps }) none
      else if !dq.backlog.isEmpty then .wait s (.push (lsDq w))
      else
        let q := dq.offer (transposePieces ew ps).flatten
        .done (s.setTile t (({ x with ttIn := [] }).setDq (lsDq w) (fl q))) none
    else if !dq.backlog.isEmpty || decide (dq.room < n) then .wait s (.push (lsDq w))
    else .done (s.setTile t (x.setDq (lsDq w) (fl (dq.append bs)))) none

/-- Take one piece of a STORE from its queue, or a column from the transpose
tile, which first takes its 32 rows from the queue. -/
def Tile.storeBytes (x : Tile) (w ew n : Nat) : Option (List Byte) × Tile :=
  let d := lsDq w
  let fl (q : DataQueue) : DataQueue := if lsFlush w then q.dropRest else q
  if lsTt w then
    match x.ttOut with
    | c :: r => (some c, { x with ttOut := r })
    | [] =>
      let need := blockPieces ew - x.ttRows.length
      let can := min need ((x.dq d).avail / n)
      let (bs, q) := (x.dq d).take (can * n)
      let rows := x.ttRows ++ (List.range can).map (fun i => (bs.drop (i * n)).take n)
      let y := ({ x with ttRows := rows }).popped d q
      if can < need then (none, y)
      else
        match transposePieces ew rows with
        | c :: r => (some c, ({ y with ttRows := [], ttOut := r }).popped d (fl (y.dq d)))
        | [] => (none, y)
  else if (x.dq d).avail < n then (none, x)
  else
    let (bs, q) := (x.dq d).take n
    (some bs, x.popped d (fl q))

/-- STORE takes bytes from the front of a STORE queue and writes them into one
scratchpad line; a null access writes nothing (05 R182, R184, R197). -/
def opStore (t : Nat) (s : State) (w : Nat) : OpOut :=
  let x := s.tile t
  let n := lsBytes w
  let ew := ewBits (agEw ((x.res.ag[lsAg w]?).getD 0).toNat)
  let write (off : Option Nat) : OpOut :=
    match x.storeBytes w ew n with
    | (none, y) => .wait (s.setTile t y) (.pop (lsDq w))
    | (some bs, y) =>
      let s := s.setTile t y
      match off with
      | none => .done s none
      | some o => .done (s.writeMem (tileBase t + o) bs) none
  match s.spadAddress t (lsAg w) n (lsOff w) with
  | .fail st src => .fail (if st = ST_SPAD_UE then s.poisonRead (t / 64) else s) st src
  | .null => write none
  | .at off => write (some off)

/-- Fields of DMA. -/
def dmaAgS (w : Nat) : Nat := bits w 8 4
def dmaAgX (w : Nat) : Nat := bits w 12 4
def dmaOut (w : Nat) : Bool := bit w 16
def dmaTec (w : Nat) : Nat := bits w 17 3
def dmaLen (w : Nat) : Nat := bits w 32 16 + 1

/-- Issue the remote requests of a transfer: reads of its source, or writes of
the scratchpad bytes (16 R508, R509). -/
def State.dmaIssue (s : State) (t : Nat) (d : TileDma) (ps : List (Nat × Nat)) : TileDma × State :=
  let e := d.ext.toNat
  let (h, b, loc) := (bits e 61 1, bits e 48 13, e % 2 ^ 48)
  let tenant := (s.tile t).tenant
  match s.remoteCheck h b with
  | some st => ({ d with err := some st }, s.noRouteFault h b st)
  | none =>
    let own (o : Nat) : ReqOwner := .tileDma t d.id o
    if d.out then
      match s.readMem (tileBase t + d.spad) d.len with
      | none => ({ d with err := some ST_SPAD_UE }, s)
      | some bs =>
        ({ d with outstanding := ps.length },
          ps.foldl (fun s p =>
            s.sendReq (own p.1) 0x2 h b tenant (loc + p.1) p.2 0 ((bs.drop p.1).take p.2)) s)
    else
      ({ d with outstanding := ps.length },
        ps.foldl (fun s p => s.sendReq (own p.1) 0x1 h b tenant (loc + p.1) p.2 0 []) s)

/-- DMA starts a tile DMA transfer between scratchpad and an external address;
at 32 transfers under way it waits in issue (05 R182, R196 to R198, 12 R403). -/
def opDma (t : Nat) (s : State) (w : Nat) : OpOut :=
  let x := s.tile t
  let len := dmaLen w
  if 32 ≤ x.dmas.length then .wait s .dma
  else
    let go (spad : Nat) (ext : Nat) (fab nS nX : Bool) : OpOut :=
      let ps := if fab then pieces256 (ext % 2 ^ 48) len else []
      if s.trackerFree < ps.length then .wait s .dma
      else
        let d : TileDma :=
          { id := x.nextDma, out := dmaOut w, spad := spad, ext := BitVec.ofNat 64 ext,
            fabric := fab, len := len, tec := dmaTec w, opIndex := opIndexOf x.as.pc, nullS := nS,
            nullX := nX, outstanding := 0, err := none }
        let s := s.setTile t { x with nextDma := x.nextDma + 1 }
        let (d, s) := if fab then s.dmaIssue t d ps else (d, s)
        .done (s.updTile t (fun y => { y with dmas := y.dmas ++ [d] })) none
    let spad := s.agAddress t (dmaAgS w) 0
    let ext := s.agAddress t (dmaAgX w) 0
    let bad (st : Status) (src : Nat) : OpOut :=
      .fail (if st = ST_SPAD_UE then s.poisonRead (t / 64) else s) st src
    match spad, ext with
    | .fail st src, _ => bad st src
    | _, .fail st src => bad st src
    | .null, _ => go 0 0 false true true
    | .addr _ a, .null =>
      if a < 0 ∨ 0x30000 < a + (len : Int) then bad ST_SPAD_RANGE 1
      else go a.toNat 0 false false true
    | .addr _ a, .addr sp b =>
      if a < 0 ∨ 0x30000 < a + (len : Int) then bad ST_SPAD_RANGE 1
      else if sp = 1 then
        if b < 0 ∨ 2 ^ 48 ≤ b then bad ST_ADDR_UNMAPPED 1
        else go a.toNat b.toNat false false false
      else
        let e := ((x.res.ag[dmaAgX w]?).getD 0).toNat
        let hi : Nat := agAddr e / 2 ^ 48 * 2 ^ 48
        let loc := b - (hi : Int)
        if loc < 0 ∨ 2 ^ 48 ≤ loc then bad ST_ADDR_UNMAPPED 1
        else go a.toNat (hi + loc.toNat) true false false

/-! ### Completion of a transfer (04 R160 rule 3, 05 R197) -/

/-- A transfer has ended well: it no longer holds a signal back, and its TEC
rises. -/
def State.dmaDone (s : State) (t : Nat) (d : TileDma) : State :=
  let s := s.updTile t (fun x =>
    { x with dmas := x.dmas.filter (fun y => y.id != d.id), lastProgress := s.time,
             sigq := x.sigq.map (fun e => { e with covers := e.covers.filter (· ≠ d.id) }) })
  (s.tecAdd t d.tec 1).cntQuay (t / 64) 7 1

/-- A transfer has ended with an error: the signals of the access stream that
cover it, and those after them, are discarded, and the descriptor ends
(13 R417). -/
def State.dmaFailed (s : State) (t : Nat) (d : TileDma) (st : Status) (source : Nat) : State :=
  let drop (q : List QueuedSignal) : List QueuedSignal :=
    let rec go (hit : Bool) : List QueuedSignal → List QueuedSignal
      | [] => []
      | e :: r =>
        let h := hit || (!e.exec && e.covers.contains d.id)
        if h && !e.exec then go h r else e :: go h r
    go false q
  let s := s.updTile t (fun x =>
    { x with dmas := x.dmas.filter (fun y => y.id != d.id), sigq := drop x.sigq })
  if (s.tile t).mode = .aborting ∨ (s.tile t).ending.isSome then s else s.failDesc t st source d.opIndex

/-- Move a transfer's data, or end one whose remote requests have all been
answered. -/
def State.dmaMove (s : State) (t : Nat) (d : TileDma) : State :=
  let x := s.tile t
  let tenant := x.tenant
  let spadAt := tileBase t + d.spad
  if d.nullS then s.dmaDone t d
  else if d.nullX then
    if d.out then s.dmaDone t d
    else (s.writeMem spadAt (List.replicate d.len 0)).dmaDone t d
  else if d.fabric then
    match d.err with
    | some st => s.dmaFailed t d st (if st = ST_SPAD_UE then 5 else 4)
    | none => s.dmaDone t d
  else
    match s.accessRecord 2 t tenant d.out d.ext.toNat d.len with
    | (some e, s) => s.dmaFailed t d e 4
    | (none, s) =>
      if d.out then
        match s.readMem spadAt d.len with
        | none => (s.poisonRead (t / 64)).dmaFailed t d ST_SPAD_UE 5
        | some bs =>
          let bad := s.fencedIn d.ext.toNat d.len
          let s := s.writeMem d.ext.toNat bs
          if bad then s.dmaFailed t d ST_MEM_UE 4 else s.dmaDone t d
      else
        match s.load d.ext.toNat d.len with
        | (none, s) => s.dmaFailed t d ST_MEM_UE 4
        | (some bs, s) => (s.writeMem spadAt bs).dmaDone t d

/-- A transfer under way completes and increments its TEC. It
does not while its memory waits or a remote request is unanswered. -/
def State.tileDmaComplete (t id : Nat) (s : State) : Out :=
  match (s.tile t).dmas.find? (fun d => d.id == id) with
  | none => .next s
  | some d =>
    if d.outstanding ≠ 0 ∨ (!d.fabric && !d.nullS && !d.nullX &&
        !s.memReady (!d.out) d.ext.toNat d.len) then .next s
    else .next (s.dmaMove t d)

/-! ### The commands -/

def execNop (t : Nat) (exec : Bool) (s : State) : Out :=
  .next (s.streamOp t exec 0x00 (fun _ => opNop s))
def execLoop (t : Nat) (exec : Bool) (s : State) : Out :=
  .next (s.streamOp t exec 0x01 (opLoop t exec s))
def execEndloop (t : Nat) (exec : Bool) (s : State) : Out :=
  .next (s.streamOp t exec 0x02 (opEndloop t exec s))
def execPreempt (t : Nat) (exec : Bool) (s : State) : Out :=
  .next (s.streamOp t exec 0x03 (opPreempt t exec s))
def execSignal (t : Nat) (exec : Bool) (s : State) : Out :=
  .next (s.streamOp t exec 0x04 (opSignal t exec s))
def execWait (t : Nat) (exec : Bool) (s : State) : Out :=
  .next (s.streamOp t exec 0x05 (opWait t exec s))
def execSync (t : Nat) (exec : Bool) (s : State) : Out :=
  .next (s.streamOp t exec 0x06 (opSync t exec s))
def execEnd (t : Nat) (exec : Bool) (s : State) : Out :=
  .next (s.streamOp t exec 0x07 (opEnd t exec s))
def execLoad (t : Nat) (s : State) : Out := .next (s.streamOp t false 0x10 (opLoad t s))
def execStore (t : Nat) (s : State) : Out := .next (s.streamOp t false 0x11 (opStore t s))
def execDma (t : Nat) (s : State) : Out := .next (s.streamOp t false 0x12 (opDma t s))

/-! ### Steps between the streams -/

/-- SIGNAL_QUEUE_APPLY: the first queued SIGNAL of a stream is applied at the
sync unit once every write it covers has completed (13 R417). A blocked one
leaves the object alone and the unit goes on (13 R416). -/
def execSignalQueueApply (t : Nat) (exec : Bool) (s : State) : Out :=
  let x := s.tile t
  match x.sigq.find? (fun e => e.exec == exec) with
  | none => .next s
  | some e =>
    if !e.covers.isEmpty then .next s
    else
      let rec drop : List QueuedSignal → List QueuedSignal
        | [] => []
        | y :: r => if y.exec == exec then r else y :: drop r
      let s := s.setTile t { x with sigq := drop x.sigq }
      .next (if s.soAllowed x.tenant e.so then s.soSignal e.so e.inc
             else (s.soBlocked 2 t x.tenant e.so).cntQuay (t / 64) 55 1)

/-- PREEMPT_POINT_STOP: both streams hold at one point with equal loops, the
queues and accumulators are empty and every transfer is complete; the tile
stops there and writes its record (05 R199, R201, R202). -/
def Tile.preRecord (x : Tile) (id : Nat) : BitVec 1024 :=
  let lv (n : Nat) : Option OpenLoop := x.as.loops.find? (fun l => l.lvl == n)
  let openMask := (List.range 6).foldl (fun m n => m + (if (lv n).isSome then 2 ^ n else 0)) 0
  let iters := packElems 32 ((List.range 6).map (fun n => ((lv n).map (·.iter)).getD 0))
  let cnts := packElems 32 ((List.range 6).map (fun n => ((lv n).map (·.cnt)).getD 0))
  let tecs := packElems 16 ((List.range 8).map (fun n => (x.tec n).count.toNat))
  BitVec.ofNat 1024 (x.as.pc + 2 ^ 16 * x.xs.pc + 2 ^ 32 * openMask + 2 ^ 40 * id
    + 2 ^ 48 * x.flags.toNat + 2 ^ 56 + 2 ^ 64 * iters + 2 ^ 256 * cnts + 2 ^ 448 * tecs
    + 2 ^ 576 * crc32c (bytesOfNat 256 x.cfgAct.toNat))

def execPreemptPointStop (t : Nat) (s : State) : Out :=
  let x := s.tile t
  match x.as.wait, x.xs.wait with
  | .hold i, .hold j =>
    if x.mode = .stopping ∧ i = j ∧ x.sameLoops ∧ x.enginesEmpty ∧ x.dmas.isEmpty then
      let s := s.setTile t { x with mode := .stopped, atPoint := true, lastId := BitVec.ofNat 8 i,
                                    preRec := x.preRecord i }
      let seq := (x.job.map (·.seq)).getD 0
      .next ((s.traceTile t 2 0x03 (descTag x.desc)
        (i + 2 ^ 8 * x.skips.toNat + 2 ^ 16 + 2 ^ 64 * seq)).cntQuay (t / 64) 40 1)
    else .next s
  | _, _ => .next s

/-- TILE_DQ_DEADLOCK: each stream has ended or waits on a data queue of the
tile, and one waits; the descriptor ends and TILE_ERR_INFO names the waiting
operation (04 R152). -/
def execTileDqDeadlock (t : Nat) (s : State) : Out :=
  let x := s.tile t
  if x.active && x.ending.isNone && (x.mode == .running || x.mode == .stopping) && x.deadlocked then
    let exec := !x.as.wait.onQueue && x.xs.wait.onQueue
    .next (s.failDesc t ST_TILE_DQ_DEADLOCK (if exec then 2 else 1) (opIndexOf (x.stream exec).pc))
  else .next s

end Sys2Proof.Machine
end

