-- ==== Sys2Proof/Machine/Vector.lean ====
section
/-! DEFINITION. The execute stream's engines: operand fills, matrix groups,
accumulator banks and the vector engine (04 R133 to R139, 05 R185 to R190). -/

namespace Sys2Proof.Machine

/-! ### Operand fills (05 R186, R187) -/

/-- Entries an OPFILL pops. -/
def fillEntries (dest what ty : Nat) : Nat :=
  if dest = 2 then 64 else if what = 0 then 2 * typeBits ty else if what = 1 then 32 else 1

/-- Put a complete fill in its place. -/
def OperandSide.fill (o : OperandSide) (what ty data : Nat) : OperandSide :=
  if what = 0 then { o with slices := o.slices ++ [{ ty := ty, data := BitVec.ofNat 16384 data }] }
  else if what = 1 then { o with scales := some (BitVec.ofNat 16384 data), scaleUsed := 0 }
  else { o with s2 := some (BitVec.ofNat 512 data), s2Used := 0 }

/-- Is a bank free for a block or its input: neither held nor draining? -/
def MatrixSt.bankFree (m : MatrixSt) (bank : Nat) : Bool :=
  m.held.all (fun b => b.bank != bank) && m.draining.all (fun d => d.1 != bank)
    && (match m.block with
        | some b => b.bank != bank
        | none => true)

/-- OPFILL pops its entries, as they become visible, into an operand register, a
scale buffer, an S2 buffer or the bank of the next block. -/
def opOpfill (t : Nat) (s : State) (w : Nat) : OpOut :=
  let x := s.tile t
  let dqn := bits w 8 2
  let dest := bits w 10 2
  let what := bits w 12 2
  let ty := bits w 14 4
  let m := x.matrix
  let blocked : Bool :=
    if dest = 2 then m.input.isSome || !m.bankFree m.nextBank
    else what == 0 && decide (2 ≤ (if dest = 0 then m.a else m.b).slices.length)
  if blocked then .wait s (if dest = 2 then .acc else .operand)
  else
    let need := fillEntries dest what ty
    let rec popN : Nat → DataQueue → List (BitVec 512) → DataQueue × List (BitVec 512)
      | 0, q, l => (q, l)
      | k + 1, q, l =>
        match q.pop with
        | none => (q, l)
        | some (e, q') => popN k q' (l ++ [e])
    let (q, got) := popN (need - x.xs.popped.length) (x.dq dqn) x.xs.popped
    let y := x.popped dqn q
    if got.length < need then
      .wait (s.setTile t { y with xs := { y.xs with popped := got } }) (.pop dqn)
    else
      let data := packElems 512 (got.map BitVec.toNat)
      let m := y.matrix
      let m :=
        if dest = 0 then { m with a := m.a.fill what ty data }
        else if dest = 1 then { m with b := m.b.fill what ty data }
        else { m with input := some { bank := m.nextBank, int := ty == 0xB, data := BitVec.ofNat 32768 data } }
      .done (s.setTile t { y with matrix := m }) none

/-! ### Matrix groups (05 R187, R188) -/

/-- Scale of row `r` for the operand's next group. -/
def OperandSide.rowScale (o : OperandSide) (mode r : Nat) : BlockScale :=
  { mode := mode,
    e := byteField ((o.scales.map BitVec.toNat).getD 0) (r * 64 + o.scaleUsed) 1,
    s2 := bits ((o.s2.map BitVec.toNat).getD 0) (16 * r) 16 }

/-- Do fills serve the operand's next group? -/
def OperandSide.ready (o : OperandSide) (ty mode : Nat) : Bool :=
  (match o.slices with
   | [] => false
   | sl :: _ => sl.ty == ty)
  && (mode == 0 || (o.scales.isSome && decide (o.scaleUsed < 64)))
  && (mode != 2 || (o.s2.isSome && decide (o.s2Used < 32)))

/-- The operand after a group: the older register is consumed, and the group
has been served. -/
def OperandSide.consume (o : OperandSide) : OperandSide :=
  { o with slices := o.slices.drop 1, scaleUsed := o.scaleUsed + 1, s2Used := o.s2Used + 1 }

/-- Handshake cycles of a group (04 R134). -/
def groupCycles (k : PairKind) (ta tb : Nat) : Nat :=
  match k with
  | .fma => 128
  | .int => if ta = 0x9 ∧ tb = 0x9 then 16 else 32
  | .block => if (ta = 0x7 ∧ tb = 0x7) ∨ ta = 0xA ∨ tb = 0xA then 16 else 32

/-- The bank after one group is added to each of its 1,024 elements. -/
def addGroup (k : PairKind) (a b : OperandSide) (ta tb ma mb : Nat) (acc : Nat) : Nat × ArithFlags :=
  let wa := typeBits ta
  let wb := typeBits tb
  let da := ((a.slices.head?).map (fun s => s.data.toNat)).getD 0
  let db := ((b.slices.head?).map (fun s => s.data.toNat)).getD 0
  let rowA := (List.range 32).map (fun r => (List.range 32).map (fun j =>
    elemValue ta ma (packedElem da wa (32 * r + j))))
  let rowB := (List.range 32).map (fun r => (List.range 32).map (fun j =>
    elemValue tb mb (packedElem db wb (32 * r + j))))
  let out := (List.range 1024).map (fun i =>
    let m := i / 32
    let n := i % 32
    let ps := List.zip ((rowA[m]?).getD []) ((rowB[n]?).getD [])
    accumulate k (BitVec.ofNat 32 (packedElem acc 32 i)) ps (a.rowScale ma m) (b.rowScale mb n))
  (packElems 32 (out.map (fun o => o.1.toNat)), out.foldl (fun f o => f ||| o.2) 0)

/-- MMA runs one group into the active bank; a block begins when every level of
BM stands at iteration 0 and ends when each stands at its last. -/
def opMma (t : Nat) (s : State) (w : Nat) : OpOut :=
  let x := s.tile t
  let ta := bits w 8 4
  let tb := bits w 12 4
  let ma := bits w 16 2
  let mb := bits w 18 2
  let bm := bits w 24 6
  let accIn := bit w 30
  let m := x.matrix
  let levels := (List.range 6).filter (fun n => bit bm n)
  let begins := levels.all (fun n => x.xs.iter n == 0)
  let ends := levels.all (fun n => x.xs.lastIter n)
  match pairKind ta tb ma mb with
  | none => .fail s ST_TYPE_PAIR 2
  | some k =>
    if m.block.isSome == begins then .fail s ST_MMA_BLOCK 2
    else if begins && !m.bankFree m.nextBank then .wait s .acc
    else if !m.a.ready ta ma || !m.b.ready tb mb then .fail s ST_MMA_OPERAND 2
    else
      let isInt := k == .int
      let start : Option AccBank :=
        match m.block with
        | some b => some b
        | none =>
          if accIn then
            match m.input with
            | some i => if i.int == isInt then some i else none
            | none => none
          else some { bank := m.nextBank, int := isInt, data := 0 }
      match start with
      | none => .fail s ST_MMA_OPERAND 2
      | some blk =>
        let (d, fl) := addGroup k m.a m.b ta tb ma mb blk.data.toNat
        let blk := { blk with data := BitVec.ofNat 32768 d }
        let m := { m with a := m.a.consume, b := m.b.consume
                          input := if begins then none else m.input
                          nextBank := if begins then 1 - m.nextBank else m.nextBank }
        let m := if ends then { m with block := none, held := m.held ++ [blk] }
                 else { m with block := some blk }
        let c := groupCycles k ta tb
        .done ((s.setTile t { x with matrix := m, flags := x.flags ||| fl }).cntQuay (t / 64)
          (if c = 32 then 1 else if c = 16 then 2 else 3) 1) none

/-! ### Accumulator banks (04 R136, 05 R188) -/

/-- What an accumulator operation finds: the oldest held bank, or a wait for the
block in progress, or nothing. -/
def OpOut.onBank (s : State) (x : Tile) (f : AccBank → List AccBank → OpOut) : OpOut :=
  match x.matrix.held with
  | b :: r => f b r
  | [] => if x.matrix.block.isSome then .wait s .acc else .fail s ST_ACC_NONE 2

/-- Value of element `i` of a bank. -/
def AccBank.value (b : AccBank) (i : Nat) : FV :=
  let c := packedElem b.data.toNat 32 i
  if b.int then fvOfInt (sext 32 c) 0 else fmtDecode fmtFp32 c

/-- The output conversion of a bank: data bytes, then with E8M0 scales one entry
of 32 scale bytes, and the flags. -/
def convBank (b : AccBank) (ty mode : Nat) (sat : Bool) (rm : Nat → RMode) (s2 : Nat) :
    List Byte × ArithFlags :=
  if mode = 0 then
    let cs := (List.range 1024).map (fun i => convElem ty sat (rm i) (b.value i))
    (bytesOfNat (128 * typeBits ty) (packElems (typeBits ty) (cs.map Prod.fst)),
     cs.foldl (fun f c => f ||| c.2) 0)
  else
    let rows := (List.range 32).map (fun r =>
      convBlock ty mode sat (bits s2 (16 * r) 16)
        ((List.range 32).map (fun j => (b.value (32 * r + j), rm (32 * r + j)))))
    let codes := rows.flatMap (fun r => r.1)
    let scales := rows.map (fun r => BitVec.ofNat 8 r.2.1)
    (bytesOfNat (128 * typeBits ty) (packElems (typeBits ty) codes) ++ scales ++ List.replicate 32 0,
     rows.foldl (fun f r => f ||| r.2.2) 0)

/-- ACCREL releases the oldest held bank through output conversion into a data
queue; the bank is free again once it has drained. -/
def opAccrel (t : Nat) (s : State) (w : Nat) : OpOut :=
  let x := s.tile t
  let dqn := bits w 10 2
  let ty := bits w 12 4
  let mode := bits w 16 2
  let s2n := bits w 20 2
  OpOut.onBank s x (fun b rest =>
    if !(x.dq dqn).backlog.isEmpty then .wait s (.push dqn)
    else
      let finish (y : Tile) (s2 : Nat) : OpOut :=
        let (bs, fl) := convBank b ty mode (descSat x.desc) (fun i => descRMode x.desc (x.outCount + i)) s2
        let q := (y.dq dqn).offer bs
        let m := { y.matrix with held := rest, draining := y.matrix.draining ++ [(b.bank, dqn)] }
        let z := ({ y with matrix := m, flags := y.flags ||| fl, outCount := y.outCount + 1024 }).setDq dqn q
        .done (s.setTile t z.freeDrained) none
      if mode = 2 then
        match (x.dq s2n).pop with
        | none => .wait s (.pop s2n)
        | some (e, q) => finish (x.popped s2n q) e.toNat
      else finish x 0)

/-! ### Vector registers (04 R138) -/

/-- A vector register as its 64 lanes. -/
def Tile.lanes (x : Tile) (v : Nat) : List (BitVec 32) :=
  let d := (Table.getD x.vregs v 0).toNat
  (List.range 64).map (fun i => BitVec.ofNat 32 (packedElem d 32 i))

/-- Write the 64 lanes of a vector register. -/
def Tile.setLanes (x : Tile) (v : Nat) (l : List (BitVec 32)) : Tile :=
  { x with vregs := Table.put x.vregs v (BitVec.ofNat 2048 (packElems 32 (l.map BitVec.toNat))) }

/-- ACCRD reads rows 2 * PAIR and 2 * PAIR + 1 of the oldest held bank into a
vector register, unchanged, or converted to FP32 from an INT32 bank (R138). -/
def opAccrd (t : Nat) (s : State) (w : Nat) : OpOut :=
  let x := s.tile t
  OpOut.onBank s x (fun b _ =>
    let base := 64 * bits w 14 4
    let l := (List.range 64).map (fun i =>
      if b.int then (toFp32 (b.value (base + i))).1
      else BitVec.ofNat 32 (packedElem b.data.toNat 32 (base + i)))
    .done (s.setTile t (x.setLanes (bits w 8 5) l)) none)

/-- ACCWR writes a vector register into two rows of the oldest held bank,
converting to INT32 with saturation and flags where the bank is INT32. -/
def opAccwr (t : Nat) (s : State) (w : Nat) : OpOut :=
  let x := s.tile t
  OpOut.onBank s x (fun b rest =>
    let base := 64 * bits w 14 4
    let cs := (x.lanes (bits w 8 5)).map (fun l =>
      if b.int then convElem 0xB false .rne (ofFp32 l) else (l.toNat, (0 : ArithFlags)))
    let d := setBits b.data.toNat (32 * base) 2048 (packElems 32 (cs.map Prod.fst))
    let b := { b with data := BitVec.ofNat 32768 d }
    .done (s.setTile t { x with matrix := { x.matrix with held := b :: rest },
                                flags := cs.foldl (fun f c => f ||| c.2) x.flags }) none)

/-! ### Vector loads and stores (04 R139, 05 R190) -/

/-- Entries a VLD pops: 4 of FP32 or INT32, 2 of 16-bit types, else 1. -/
def vldEntries (ty : Nat) : Nat := max 1 (typeBits ty / 8)

/-- Pop `n` whole entries as one number. -/
def DataQueue.popEntries (q : DataQueue) (n : Nat) : Option (Nat × DataQueue) :=
  if q.entries.length < n then none
  else some (packElems 512 ((q.entries.take n).map BitVec.toNat),
             DataQueue.refill { q with entries := q.entries.drop n, taken := 0 })

/-- Take scale bytes from a queue, ending the entry early with SFLUSH. -/
def DataQueue.takeScale (q : DataQueue) (n : Nat) (flush : Bool) : Option (Nat × DataQueue) :=
  if q.avail < n then none
  else
    let (bs, q') := q.take n
    some (natOfBytes bs, if flush then q'.dropRest else q')

/-- VLD loads a vector with conversion to FP32 and its block scales. -/
def opVld (t : Nat) (s : State) (w : Nat) : OpOut :=
  let x := s.tile t
  let dqn := bits w 32 2
  let ty := bits w 36 4
  let mode := bits w 40 2
  let scn := bits w 42 2
  let s2n := bits w 44 2
  let fl := bit w 46
  match (x.dq dqn).popEntries (vldEntries ty) with
  | none => .wait s (.pop dqn)
  | some (data, q) =>
    let y := x.popped dqn q
    let sc : Option (Nat × Tile) :=
      if mode = 0 then some (0, y)
      else
        match (y.dq scn).takeScale 2 fl with
        | none => none
        | some (v, q) => some (v, y.popped scn q)
    match sc with
    | none => .wait s (.pop scn)
    | some (scale, y) =>
      let s2 : Option (Nat × Tile) :=
        if mode ≠ 2 then some (0, y)
        else
          match (y.dq s2n).takeScale 4 fl with
          | none => none
          | some (v, q) => some (v, y.popped s2n q)
      match s2 with
      | none => .wait s (.pop s2n)
      | some (s2v, y) =>
        let l := (List.range 64).map (fun i =>
          let h := i / 32
          loadFp32 ty mode (packedElem data (typeBits ty) i) (byteField scale h 1) (bits s2v (16 * h) 16))
        let z := y.setLanes (bits w 8 5) (l.map Prod.fst)
        .done ((s.setTile t { z with flags := l.foldl (fun f p => f ||| p.2) z.flags }).cntQuay
          (t / 64) 4 1) none

/-- VST converts a vector and appends it, with its computed scales, to data
queues. -/
def opVst (t : Nat) (s : State) (w : Nat) : OpOut :=
  let x := s.tile t
  let dqn := bits w 32 2
  let ty := bits w 36 4
  let mode := bits w 40 2
  let scn := bits w 42 2
  let s2n := bits w 44 2
  let fl := bit w 46
  let n := 8 * typeBits ty
  let lanes := x.lanes (bits w 8 5)
  let rm (i : Nat) : RMode := descRMode x.desc (x.outCount + i)
  let full (k need : Nat) : Bool := !(x.dq k).backlog.isEmpty || decide ((x.dq k).room < need)
  if full dqn n then .wait s (.push dqn)
  else if mode ≠ 0 ∧ full scn 2 then .wait s (.push scn)
  else
    let done (y : Tile) (codes : List Nat) (flags : ArithFlags) : OpOut :=
      let q := (y.dq dqn).append (bytesOfNat n (packElems (typeBits ty) codes))
      .done ((s.setTile t (({ y with flags := y.flags ||| flags, outCount := y.outCount + 64 }).setDq
        dqn q)).cntQuay (t / 64) 4 1) none
    if mode = 0 then
      let cs := (List.range 64).map (fun i =>
        convElem ty (descSat x.desc) (rm i) (ofFp32 ((lanes[i]?).getD 0)))
      done x (cs.map Prod.fst) (cs.foldl (fun f c => f ||| c.2) 0)
    else
      let s2 : Option (Nat × Tile) :=
        if mode = 1 then some (0, x)
        else
          match (x.dq s2n).takeScale 4 fl with
          | none => none
          | some (v, q) => some (v, x.popped s2n q)
      match s2 with
      | none => .wait s (.pop s2n)
      | some (s2v, y) =>
        let half (h : Nat) := convBlock ty mode (descSat x.desc) (bits s2v (16 * h) 16)
          ((List.range 32).map (fun j => (ofFp32 ((lanes[32 * h + j]?).getD 0), rm (32 * h + j))))
        let (c0, e0, f0) := half 0
        let (c1, e1, f1) := half 1
        let q := (y.dq scn).append [BitVec.ofNat 8 e0, BitVec.ofNat 8 e1]
        let y := y.setDq scn (if fl then q.flush else q)
        done y (c0 ++ c1) (f0 ||| f1)

/-! ### Lane operations (05 R189, R190) -/

/-- A lane-by-lane operation on VA, VB and VC. -/
def opLanes (t : Nat) (cyc4 : Bool)
    (f : BitVec 32 → BitVec 32 → BitVec 32 → BitVec 32 × ArithFlags) (s : State) (w : Nat) : OpOut :=
  let x := s.tile t
  let a := x.lanes (bits w 13 5)
  let b := x.lanes (bits w 18 5)
  let v := x.lanes (bits w 23 5)
  let r := (List.range 64).map (fun i => f ((a[i]?).getD 0) ((b[i]?).getD 0) ((v[i]?).getD 0))
  let y := x.setLanes (bits w 8 5) (r.map Prod.fst)
  .done ((s.setTile t { y with flags := r.foldl (fun g p => g ||| p.2) y.flags }).cntQuay (t / 64)
    (if cyc4 then 5 else 4) 1) none

/-- A function of R122 on VA. -/
def opFunction (t opc : Nat) (s : State) (w : Nat) : OpOut :=
  opLanes t true (fun a _ _ => (fnApply opc a, 0)) s w

/-- A reduction of lanes 0 to N − 1 of VA, combined with lane 0 of VD when ACC
is set; the result goes to every lane of VD. -/
def opReduce (t : Nat) (chunk : List (BitVec 32) → BitVec 32 × ArithFlags)
    (combine : BitVec 32 → BitVec 32 → BitVec 32 × ArithFlags) (s : State) (w : Nat) : OpOut :=
  let x := s.tile t
  let n := bits w 32 7
  let n := if n = 0 then 64 else n
  let (r, fl) := chunk ((x.lanes (bits w 13 5)).take n)
  let (r, fl') := if bit w 39 then combine (((x.lanes (bits w 8 5)).head?).getD 0) r else (r, 0)
  let y := x.setLanes (bits w 8 5) (List.replicate 64 r)
  .done ((s.setTile t { y with flags := y.flags ||| fl ||| fl' }).cntQuay (t / 64) 4 1) none

/-- VIMM writes an FP32 immediate to every lane. -/
def opVimm (t : Nat) (s : State) (w : Nat) : OpOut :=
  .done (s.updTile t (fun x => x.setLanes (bits w 8 5) (List.replicate 64 (BitVec.ofNat 32 (bits w 32 32))))) none

/-- VBCAST copies one lane to every lane. -/
def opVbcast (t : Nat) (s : State) (w : Nat) : OpOut :=
  let x := s.tile t
  let v := ((x.lanes (bits w 13 5))[bits w 32 6]?).getD 0
  .done (s.setTile t (x.setLanes (bits w 8 5) (List.replicate 64 v))) none

/-! ### The commands -/

def execOpfill (t : Nat) (s : State) : Out := .next (s.streamOp t true 0x20 (opOpfill t s))
def execMma (t : Nat) (s : State) : Out := .next (s.streamOp t true 0x21 (opMma t s))
def execAccrel (t : Nat) (s : State) : Out := .next (s.streamOp t true 0x22 (opAccrel t s))
def execVadd (t : Nat) (s : State) : Out :=
  .next (s.streamOp t true 0x40 (opLanes t false (fun a b _ => fpAdd a b) s))
def execVsub (t : Nat) (s : State) : Out :=
  .next (s.streamOp t true 0x41 (opLanes t false (fun a b _ => fpSub a b) s))
def execVmul (t : Nat) (s : State) : Out :=
  .next (s.streamOp t true 0x42 (opLanes t false (fun a b _ => fpMul a b) s))
def execVfma (t : Nat) (s : State) : Out :=
  .next (s.streamOp t true 0x43 (opLanes t false fpFma s))
def execVmin (t : Nat) (s : State) : Out :=
  .next (s.streamOp t true 0x44 (opLanes t false (fun a b _ => (fpMin a b, 0)) s))
def execVmax (t : Nat) (s : State) : Out :=
  .next (s.streamOp t true 0x45 (opLanes t false (fun a b _ => (fpMax a b, 0)) s))
def execVcmplt (t : Nat) (s : State) : Out :=
  .next (s.streamOp t true 0x46 (opLanes t false (fun a b _ => (fpCmpLt a b, 0)) s))
def execVcmpeq (t : Nat) (s : State) : Out :=
  .next (s.streamOp t true 0x47 (opLanes t false (fun a b _ => (fpCmpEq a b, 0)) s))
def execVsel (t : Nat) (s : State) : Out :=
  .next (s.streamOp t true 0x48 (opLanes t false (fun a b c => (fpSel a b c, 0)) s))
def execVdiv (t : Nat) (s : State) : Out :=
  .next (s.streamOp t true 0x50 (opLanes t true (fun a b _ => fpDiv a b) s))
def execVsqrt (t : Nat) (s : State) : Out :=
  .next (s.streamOp t true 0x51 (opLanes t true (fun a _ _ => fpSqrt a) s))
def execVexp (t : Nat) (s : State) : Out := .next (s.streamOp t true 0x52 (opFunction t 0x52 s))
def execVexp2 (t : Nat) (s : State) : Out := .next (s.streamOp t true 0x53 (opFunction t 0x53 s))
def execVlog (t : Nat) (s : State) : Out := .next (s.streamOp t true 0x54 (opFunction t 0x54 s))
def execVrcp (t : Nat) (s : State) : Out := .next (s.streamOp t true 0x55 (opFunction t 0x55 s))
def execVrsqrt (t : Nat) (s : State) : Out := .next (s.streamOp t true 0x56 (opFunction t 0x56 s))
def execVtanh (t : Nat) (s : State) : Out := .next (s.streamOp t true 0x57 (opFunction t 0x57 s))
def execVsigm (t : Nat) (s : State) : Out := .next (s.streamOp t true 0x58 (opFunction t 0x58 s))
def execVsilu (t : Nat) (s : State) : Out := .next (s.streamOp t true 0x59 (opFunction t 0x59 s))
def execVgelut (t : Nat) (s : State) : Out := .next (s.streamOp t true 0x5A (opFunction t 0x5A s))
def execVgelue (t : Nat) (s : State) : Out := .next (s.streamOp t true 0x5B (opFunction t 0x5B s))
def execRsum (t : Nat) (s : State) : Out :=
  .next (s.streamOp t true 0x60 (opReduce t chunkSum fpAdd s))
def execRmax (t : Nat) (s : State) : Out :=
  .next (s.streamOp t true 0x61 (opReduce t (fun l => (chunkMax l, 0)) (fun a b => (fpMax a b, 0)) s))
def execRmin (t : Nat) (s : State) : Out :=
  .next (s.streamOp t true 0x62 (opReduce t (fun l => (chunkMin l, 0)) (fun a b => (fpMin a b, 0)) s))
def execRsumsq (t : Nat) (s : State) : Out :=
  .next (s.streamOp t true 0x63 (opReduce t chunkSumSq fpAdd s))
def execVld (t : Nat) (s : State) : Out := .next (s.streamOp t true 0x68 (opVld t s))
def execVst (t : Nat) (s : State) : Out := .next (s.streamOp t true 0x69 (opVst t s))
def execAccrd (t : Nat) (s : State) : Out := .next (s.streamOp t true 0x6A (opAccrd t s))
def execAccwr (t : Nat) (s : State) : Out := .next (s.streamOp t true 0x6B (opAccwr t s))
def execVimm (t : Nat) (s : State) : Out := .next (s.streamOp t true 0x6C (opVimm t s))
def execVbcast (t : Nat) (s : State) : Out := .next (s.streamOp t true 0x6D (opVbcast t s))

end Sys2Proof.Machine
end

