-- ==== Sys2Proof/Machine/TileCtrl.lean ====
section
/-! DEFINITION. How a descriptor reaches a tile, is checked, started, stopped,
resumed, aborted and completed (04 R156 to R163, 05 R174 to R179, R199 to
R205, 07 R243). -/

namespace Sys2Proof.Machine

/-! ### Who may write a TILE_ page (04 R163) -/

/-- The tile's own scalar core and the control core of its quay. -/
def ownsTile (r : Requester) (t : Nat) : Bool :=
  match r with
  | .quayCore q => q == t / 64
  | .scalar x => x == t
  | _ => false

/-- Tenant a requester acts for. The firmware cores act for none, which is written
1,024: tenant isolation does not bind them (01 R48, R50). -/
def State.requesterTenant (s : State) (r : Requester) : Nat :=
  match r with
  | .host f => f
  | .scalar t => (s.tile t).tenant
  | .i3c => 0
  | _ => 1024

/-- A write refused by R163: ignored and recorded as an isolation event naming
the tile. -/
def State.tileDenied (s : State) (r : Requester) (t off : Nat) : State :=
  let n := s.requesterTenant r
  s.raise ST_TILE_REG_DENIED 2 t (if n < 1024 then some n else none)
    (registerBase + 0x1000000 + t * 0x1000 + off)

/-! ### The descriptor cache (05 R178, R179) -/

/-- Valid and locked lines (05 R174). -/
def Tile.lockedLines (x : Tile) : Nat :=
  (x.cache.filter (fun l => l.lockAct || l.lockPend)).length

/-- Does an address lie in a generator-table copy that the graph engine made for
the tile's work (07 R245)? The engine's own copies lie in the graph area, which
no tenant is granted. -/
def Tile.ownCopy (x : Tile) (a : Nat) : Bool :=
  match x.job with
  | some j => j.agt.any (fun b => decide (b ≤ a) && decide (a < b + 1024))
  | none => false

/-- Bring one line into the cache as the tile's tenant, most recently used last.
A miss reads 256 bytes; a failed read gives its status and the lowest failing
byte of the line. -/
def State.cacheLine (s : State) (t a : Nat) : (Except (Status × Nat) Nat) × State :=
  let x := s.tile t
  let tn := x.tenant
  match x.cache.find? (fun l => l.addr == a && l.tenant == tn) with
  | some l =>
    let rest := x.cache.filter (fun y => !(y.addr == a && y.tenant == tn))
    (.ok l.data.toNat, (s.setTile t { x with cache := rest ++ [l] }).cntQuay (t / 64) 42 1)
  | none =>
    let s := s.cntQuay (t / 64) 43 1
    match (if x.ownCopy a then (none, s.asAgent 2 t a) else s.accessRecord 2 t tn false a 256) with
    | (some e, s) =>
      let off := ((List.range 256).find? (fun i => (s.accessCheck tn false (a + i) 1).isSome)).getD 0
      (.error (e, off), s)
    | (none, s) =>
      match s.loadNum a 256 with
      | (none, s) => (.error (ST_DESC_FETCH_UE, ((Mem.firstBad s.mem a 256).getD a) - a), s)
      | (some v, s) =>
        let x := s.tile t
        let keep :=
          if x.cache.length < 64 then x.cache
          else
            match x.cache.find? (fun l => !l.lockAct && !l.lockPend) with
            | some l => x.cache.filter (fun y => !(y.addr == l.addr && y.tenant == l.tenant))
            | none => x.cache
        let l : CacheLine := { addr := a, tenant := tn, data := BitVec.ofNat 2048 v,
                               lockAct := false, lockPend := false, inval := false }
        (.ok v, s.setTile t { x with cache := keep ++ [l] })

/-- Lock a line for the pending descriptor. -/
def Tile.lockPend (x : Tile) (a : Nat) : Tile :=
  { x with cache := x.cache.map (fun l =>
      if l.addr = a ∧ l.tenant = x.tenant then { l with lockPend := true } else l) }

/-- Read one part of the resident set, `n` bytes from `a`, in whole lines. The
failure names the byte offset in the part. -/
def State.residentPart (s : State) (t a n : Nat) : (Except (Status × Nat) Nat) × State :=
  let rec go : Nat → Nat → Nat → State → (Except (Status × Nat) Nat) × State
    | 0, _, acc, s => (.ok acc, s)
    | k + 1, i, acc, s =>
      match s.cacheLine t (a + 256 * i) with
      | (.error (st, off), s) => (.error (st, 256 * i + off), s)
      | (.ok v, s) =>
        go k (i + 1) (acc + 2 ^ (2048 * i) * v) (s.updTile t (fun x => x.lockPend (a + 256 * i)))
  go ((n + 255) / 256) 0 0 s

/-- The pending set's descriptor, as a number. -/
def Tile.pend (x : Tile) : Nat := x.cfgPend.toNat

/-- Prefetch the resident set of the pending set, locking its lines: the part
that fails first gives the status, its source and the entry (05 R176, R177). -/
def State.prefetchResident (s : State) (t : Nat) : State :=
  let d := (s.tile t).pend
  let set (p : Prefetch) (s : State) : State := s.updTile t (fun x => { x with prefetch := p })
  match s.residentPart t (byteField d 0x38 6) (64 * descAgCnt d) with
  | (.error (st, off), s) => set (.failed st 0 (off / 64)) s
  | (.ok ag, s) =>
    match s.residentPart t (byteField d 0x40 6) (8 * descAsLen d) with
    | (.error (st, off), s) => set (.failed st 1 (off / 8)) s
    | (.ok asp, s) =>
      match s.residentPart t (byteField d 0x48 6) (8 * descXsLen d) with
      | (.error (st, off), s) => set (.failed st 2 (off / 8)) s
      | (.ok xsp, s) =>
        let words (n v : Nat) : List (BitVec 64) :=
          (List.range n).map (fun i => BitVec.ofNat 64 (v / 2 ^ (64 * i)))
        set (.ready
          { ag := (List.range (descAgCnt d)).map (fun i => BitVec.ofNat 512 (ag / 2 ^ (512 * i)))
            asp := words (descAsLen d) asp, xsp := words (descXsLen d) xsp }) s

/-- The pending set changes: what was prefetched for it no longer counts, and
its locks go. -/
def Tile.pendChanged (x : Tile) : Tile :=
  let ls := x.cache.map (fun l => { l with lockPend := false })
  { x with prefetch := .none, cache := ls.filter (fun l => !(l.inval && !l.lockAct)) }

/-- DC_INV invalidates unlocked lines at once, and each locked line when the
descriptor that locks it ends (05 R179). -/
def Tile.dcInv (x : Tile) : Tile :=
  let ls := x.cache.filter (fun l => l.lockAct || l.lockPend)
  { x with cache := ls.map (fun l => { l with inval := true }) }

/-! ### The chain of descriptors of a job (07 R243) -/

/-- Load descriptor `next` of the tile's job into the pending set and start it
there, as the quay control core does while the one before runs; while that core
restarts, the chain pauses (19 R598, R600). A descriptor that cannot be read
fails the unit. -/
def State.loadNext (s : State) (t : Nat) : State :=
  let x := s.tile t
  match x.job with
  | none => s
  | some j =>
    if j.count ≤ j.next ∨ x.pendValid ∨ ¬ s.coreRuns (t / 64) then s
    else
      match s.accessRecord 2 t x.tenant false (j.base + 256 * j.next) 256 with
      | (some e, s) => s.updTile t (fun y => { y with unitEnded := some (y.unitEnded.getD e) })
      | (none, s) =>
        match s.loadNum (j.base + 256 * j.next) 256 with
        | (none, s) => s.updTile t (fun y => { y with unitEnded := some (y.unitEnded.getD ST_DESC_FETCH_UE) })
        | (some d, s) =>
          let (d, s) := match j.agt[j.next]? with
            | some a => (setBits d (8 * 0x38) 48 a, s.cntQuay (t / 64) 47 1)
            | none => (d, s)
          s.updTile t (fun y =>
            { y.pendChanged with cfgPend := BitVec.ofNat 2048 d, pendValid := true,
                                 job := some { j with next := j.next + 1 } })

/-! ### Starting (05 R177, R203, R204) -/

/-- A refused start: the descriptor completes with the status and executes
nothing; the tile is IDLE. -/
def State.failStart (s : State) (t : Nat) (f : CheckFail) : State :=
  let s := s.updTile t (fun x =>
    { x.pendChanged with pendValid := false, startHeld := false, fromRecord := false, flags := 0,
                         mode := .idle })
  let s := s.traceDescEnd t (descTag (s.tile t).pend) f.1
  (s.updTile t (fun x => (x.writeDone f.1 f.2.1 f.2.2).jobDone f.1)).cntQuay (t / 64) 38 1

/-- Levels open at a position of a program with the index after their LOOP,
innermost first. -/
def openLevels (prog : List Nat) (pc : Nat) : List (Nat × Nat) :=
  (List.range pc).foldl (fun lv i =>
    let w := (prog[i]?).getD 0
    if bits w 0 8 = 0x01 then (bits w 8 3, i + 1) :: lv
    else if bits w 0 8 = 0x02 then lv.drop 1 else lv) []

/-- Does a pre-emption record fit the descriptor and its programs (05 R203)? -/
def recordFits (d old : Nat) (r : Resident) : Bool :=
  let at_ (p : List (BitVec 64)) (pc : Nat) : Bool :=
    match p[pc]? with
    | some w => bits w.toNat 0 8 == 0x03
    | none => false
  let pcA := byteField old 0 2
  let pcX := byteField old 2 2
  let mask (lv : List (Nat × Nat)) : Nat := lv.foldl (fun m l => m + 2 ^ l.1) 0
  byteField old 0x48 4 == crc32c (bytesOfNat 256 d) && at_ r.asp pcA && at_ r.xsp pcX
    && mask (openLevels (r.asp.map BitVec.toNat) pcA) == bits old 32 6
    && mask (openLevels (r.xsp.map BitVec.toNat) pcX) == bits old 32 6

/-- Loop state of a stream restored from a record. -/
def restoreStream (old : Nat) (prog : List (BitVec 64)) (pc : Nat) : StreamSt :=
  { StreamSt.reset with
    pc := pc + 1, ended := decide (prog.length ≤ pc + 1)
    loops := (openLevels (prog.map BitVec.toNat) pc).map (fun l =>
      { lvl := l.1, iter := byteField old (0x08 + 4 * l.1) 4,
        cnt := byteField old (0x20 + 4 * l.1) 4, body := l.2 }) }

/-- Copy the pending set to the active set and start it. -/
def Tile.begin (x : Tile) (r : Resident) (now : Nat) : Tile :=
  let d := x.pend
  { x with
    mode := .running, pendValid := false, startHeld := false, cfgAct := x.cfgPend,
    active := true, ending := none, prefetch := .none, res := r, startTime := now,
    lastProgress := now, flags := 0, outCount := 0, skips := 0, atPoint := false,
    vregs := [], dqs := [], matrix := MatrixSt.reset, ttIn := [], ttRows := [], ttOut := [],
    tecs := Table.mapV x.tecs (fun _ c => { c with count := 0 }),
    as := { StreamSt.reset with ended := r.asp.isEmpty },
    xs := { StreamSt.reset with ended := r.xsp.isEmpty },
    cache := x.cache.map (fun l => if l.lockPend then { l with lockPend := false, lockAct := true } else l),
    sc := if descScEn d then
        { x.sc with state := 1, pc := BitVec.ofNat 32 (0x30000000 + byteField d 0x58 2) }
      else x.sc }

/-- Restore what a record holds into a begun descriptor. The count of converted
elements is not in it: it is a free value. -/
def Tile.restore (x : Tile) (old cnt : Nat) : Tile :=
  { x with
    as := restoreStream old x.res.asp (byteField old 0 2)
    xs := restoreStream old x.res.xsp (byteField old 2 2)
    flags := BitVec.ofNat 8 (byteField old 6 1)
    outCount := cnt
    tecs := (List.range 8).foldl (fun m n =>
      Table.upd m n { count := 0, sat := false }
        (fun c => { c with count := BitVec.ofNat 16 (byteField old (0x38 + 2 * n) 2) })) x.tecs }

/-- Clear record byte 7: the record holds no stopped state (05 R201). -/
def clearRecord (r : BitVec 1024) : BitVec 1024 := BitVec.ofNat 1024 (setBits r.toNat 56 8 0)

/-- Note in the job that the descriptor now running is the last one loaded. -/
def Tile.jobStarted (x : Tile) : Tile :=
  { x with job := x.job.map (fun j => { j with desc := j.next - 1 }) }

/-- The START whose resident set is present: checks 6 to 11, then the start. -/
def State.startReady (s : State) (t : Nat) : State :=
  let x := s.tile t
  match x.prefetch with
  | .none => s
  | .failed st src op => s.failStart t (st, src, op)
  | .ready r =>
    match descBodyCheck (s.licences.getLsbD 0) x.pend r with
    | some f => s.failStart t f
    | none =>
      let old := x.preRec.toNat
      if x.fromRecord ∧ !recordFits x.pend old r then s.failStart t (ST_PRE_MISMATCH, 0, 0)
      else
        let s :=
          if x.fromRecord then
            let (k, s) := s.freshLong
            s.setTile t { ((x.begin r s.time).restore old (k.toNat % 2 ^ 48)) with fromRecord := false }
          else s.setTile t { (x.begin r s.time) with preRec := clearRecord x.preRec }
        let s := s.updTile t Tile.jobStarted
        let j := (s.tile t).job
        let s := s.traceTile t 0 0x01 (descTag (s.tile t).desc)
          (match j with
           | some j => j.seq + 2 ^ 64 * j.node + 2 ^ 78 * j.stage + 2 ^ 82 * j.desc
           | none => 0)
        (s.cntQuay (t / 64) 36 1).loadNext t

/-- Start the pending set: checks 1 to 5 at once; then the start waits until the
resident set is present. -/
def State.startPending (s : State) (t : Nat) (fromRecord : Bool) : State :=
  let x := s.tile t
  match descHeadCheck x.pend with
  | some st => s.failStart t (st, 0, 0)
  | none =>
    let s := s.setTile t { x with startHeld := true, pendValid := true, fromRecord := fromRecord }
    match x.prefetch with
    | .none => s.cntQuay (t / 64) 46 1
    | _ => s.startReady t

/-! ### TILE_CTRL (04 R156 to R158) -/

/-- ABORT: from RUNNING, STOPPING or STOPPED; anywhere it abandons a descriptor
fetch (05 R175). -/
def State.tileAbort (s : State) (t : Nat) : State :=
  let x := s.tile t
  let s := s.setTile t { x with fetchBusy := false, fetchStart := false }
  match x.mode with
  | .running | .stopping | .stopped =>
    let s := s.updTile t (fun y =>
      { y with mode := .aborting, startHeld := false, fromRecord := false, atPoint := false,
               dqs := [], matrix := MatrixSt.reset, ttIn := [], ttRows := [], ttOut := [],
               abortAt := some s.time, ending := none,
               as := { y.as with ended := true, wait := .none },
               xs := { y.xs with ended := true, wait := .none },
               sc := if y.sc.state = 1 then { y.sc with state := 0 } else y.sc })
    (s.removeWaits (fun u => match u with
      | .stream k _ => k == t
      | _ => false)).barAbort t
  | _ => s

/-- STOP: a running tile goes on to its next boundary or point, an idle one
stops at once. -/
def State.tileStop (s : State) (t : Nat) : State :=
  let x := s.tile t
  match x.mode with
  | .running =>
    if x.active then s.setTile t { x with mode := .stopping }
    else s.setTile t { x with mode := .stopped, startHeld := false, fromIdle := false }
  | .idle => s.setTile t { x with mode := .stopped, startHeld := false, fromIdle := true }
  | _ => s

/-- RESUME: a stopped descriptor goes on from its point; a record starts the
pending set where it stopped; a kept pending set starts; else the tile is IDLE
(04 R156, 05 R203, R204). -/
def State.tileResume (s : State) (t : Nat) : State :=
  let x := s.tile t
  if x.mode ≠ .stopped then s
  else if x.active then
    let y := { x with mode := .running, atPoint := false, vregs := [] }
    s.setTile t ((y.unhold false s.time).unhold true s.time)
  else if x.fromIdle ∧ bit x.preRec.toNat 56 then
    (s.setTile t { x with mode := .idle }).startPending t true
  else if x.pendValid then (s.setTile t { x with mode := .idle }).startPending t false
  else s.setTile t { x with mode := .idle }

/-- START: an idle tile starts the pending set, or is rejected; a running one
keeps it for the end of the active descriptor; with one already
waiting it is ignored and reported (04 R156, R157). A START while a fetch is
under way is ignored (05 R175). -/
def State.tileStart (s : State) (t : Nat) : State :=
  let x := s.tile t
  if x.fetchBusy then s.setTile t { x with cfgWrLost := true }
  else if x.pendValid then
    (s.setTile t { x with startLost := true }).raise ST_TILE_BUSY 2 t none 0
  else
    match x.mode with
    | .idle => s.startPending t false
    | .running => s.setTile t { x with pendValid := true }
    | _ => s

/-- SC_END, written by the scalar core, ends its program. -/
def State.tileScEnd (s : State) (t : Nat) : State :=
  s.updTile t (fun x => if x.sc.state = 1 then { x with sc := { x.sc with state := 2 } } else x)

/-- A write of TILE_CTRL: its actions in the order of R157. -/
def State.tileCtrl (s : State) (t v : Nat) : State :=
  let s := if bit v 5 then s.updTile t Tile.dcInv else s
  let s := if bit v 3 then s.tileAbort t else s
  let s := if bit v 1 then s.tileStop t else s
  let s := if bit v 2 then s.tileResume t else s
  let s := if bit v 0 then s.tileStart t else s
  if bit v 4 then s.tileScEnd t else s

/-! ### The other writes with an effect of their own -/

/-- A word of TILE_CFG_PEND (04 R159, R167). -/
def State.cfgPendWrite (s : State) (t w v : Nat) : State :=
  let x := s.tile t
  if x.pendValid then s.setTile t { x with cfgWrLost := true }
  else s.setTile t { x.pendChanged with
    cfgPend := BitVec.ofNat 2048 (setBits x.cfgPend.toNat (32 * (w % 64)) 32 v) }

/-- A word of TILE_PRE_REC (05 R201). -/
def State.preRecWrite (s : State) (t w v : Nat) : State :=
  let x := s.tile t
  if x.mode = .stopped then
    s.setTile t { x with preRec := BitVec.ofNat 1024 (setBits x.preRec.toNat (32 * (w % 32)) 32 v) }
  else s.setTile t { x with cfgWrLost := true }

/-- TILE_DESC_FETCH: FETCH or FETCH_START (05 R175). -/
def State.descFetch (s : State) (t : Nat) (start : Bool) : State :=
  let x := s.tile t
  if x.pendValid ∨ x.fetchBusy then s.setTile t { x with cfgWrLost := true }
  else (s.setTile t { x with fetchBusy := true, fetchStart := start }).cntQuay (t / 64) 45 1

/-! ### The commands -/

/-- A write that only the tile's owners may make; another requester's completes
with ST_TILE_REG_DENIED (04 R163). -/
def State.ownedWrite (s : State) (r : Requester) (t off : Nat) (f : State → State) : State :=
  if ownsTile r t then f s
  else { s.tileDenied r t off with resp := { status := ST_TILE_REG_DENIED, addr := 0, data := [] } }

/-- TILE_START: TILE_CTRL.START. -/
def execTileStart (r : Requester) (t : Nat) (s : State) : Out :=
  .next (s.ownedWrite r t 0x008 (fun s => s.tileCtrl t 0x01))

/-- TILE_STOP: TILE_CTRL.STOP. -/
def execTileStop (r : Requester) (t : Nat) (s : State) : Out :=
  .next (s.ownedWrite r t 0x008 (fun s => s.tileCtrl t 0x02))

/-- TILE_RESUME: TILE_CTRL.RESUME. -/
def execTileResume (r : Requester) (t : Nat) (s : State) : Out :=
  .next (s.ownedWrite r t 0x008 (fun s => s.tileCtrl t 0x04))

/-- TILE_ABORT: TILE_CTRL.ABORT. -/
def execTileAbort (r : Requester) (t : Nat) (s : State) : Out :=
  .next (s.ownedWrite r t 0x008 (fun s => s.tileCtrl t 0x08))

/-- SC_END: TILE_CTRL.SC_END. -/
def execScEnd (r : Requester) (t : Nat) (s : State) : Out :=
  .next (s.ownedWrite r t 0x008 (fun s => s.tileCtrl t 0x10))

/-- DC_INV: TILE_CTRL.DC_INV. -/
def execDcInv (r : Requester) (t : Nat) (s : State) : Out :=
  .next (s.ownedWrite r t 0x008 (fun s => s.tileCtrl t 0x20))

/-- TILE_ABORT_DONE: issue has stopped, no transfer is left and the signal queue
has drained; the tile is IDLE with ST_TILE_ABORTED (04 R158, 13 R417). -/
def execTileAbortDone (t : Nat) (s : State) : Out :=
  let x := s.tile t
  if x.mode = .aborting ∧ x.dmas.isEmpty ∧ x.sigq.isEmpty then
    .next ((s.finishDesc t ST_TILE_ABORTED 0 0).updTile t (fun y =>
      { y with mode := .idle, pendValid := false, abortAt := none }))
  else .next s

/-- CFG_PEND_WRITE: word `w` of TILE_CFG_PEND. -/
def execCfgPendWrite (r : Requester) (t w v : Nat) (s : State) : Out :=
  .next (s.ownedWrite r t (0x100 + 4 * (w % 64)) (fun s => s.cfgPendWrite t w v))

/-- FETCH: TILE_DESC_FETCH.FETCH. -/
def execFetch (r : Requester) (t : Nat) (s : State) : Out :=
  .next (s.ownedWrite r t 0x098 (fun s => s.descFetch t false))

/-- FETCH_START: TILE_DESC_FETCH.FETCH_START. -/
def execFetchStart (r : Requester) (t : Nat) (s : State) : Out :=
  .next (s.ownedWrite r t 0x098 (fun s => s.descFetch t true))

/-- DESC_FETCH_DONE: the fetch under way ends: the descriptor replaces the
pending set, and starts after FETCH_START; or its failure is reported (05 R175). -/
def execDescFetchDone (t : Nat) (s : State) : Out :=
  let x := s.tile t
  if !x.fetchBusy then .next s
  else
    let s := s.setTile t { x with fetchBusy := false, fetchStart := false }
    match s.cacheLine t x.descAddr.toNat with
    | (.error (st, _), s) =>
      .next (s.updTile t (fun y => { (({ y with flags := 0 }.writeDone st 0 0).jobDone st) with flags := y.flags }))
    | (.ok d, s) =>
      let s := s.updTile t (fun y => { y.pendChanged with cfgPend := BitVec.ofNat 2048 d })
      .next (if x.fetchStart then s.tileStart t else s)

/-- RESIDENT_SET_READY: the resident set of the pending set is present, and a
held START proceeds (05 R176). -/
def execResidentSetReady (t : Nat) (s : State) : Out :=
  let x := s.tile t
  if x.prefetch ≠ .none ∨ (descHeadCheck x.pend).isSome then .next s
  else
    let s := s.prefetchResident t
    .next (if x.startHeld then s.startReady t else s)

/-- PRE_REC_WRITE: word `w` of TILE_PRE_REC. -/
def execPreRecWrite (r : Requester) (t w v : Nat) (s : State) : Out :=
  .next (s.ownedWrite r t (0x300 + 4 * (w % 32)) (fun s => s.preRecWrite t w v))

/-- TEC_SIGNAL_WRITE: a write of 1 to TILE_TECn.SIGNAL; the scalar core's
earlier stores have taken effect (04 R160 rule 4, R162). -/
def execTecSignalWrite (r : Requester) (t n : Nat) (s : State) : Out :=
  .next (s.ownedWrite r t (0x060 + 4 * (n % 8)) (fun s => s.tecAdd t (n % 8) 1))

/-- TILE_FENCE: every earlier store and window access of the scalar core has
taken effect, since each takes effect with its instruction (04 R160 rule 5). -/
def execTileFence (r : Requester) (t : Nat) (s : State) : Out :=
  .next (s.ownedWrite r t 0x08C (fun s => s))

/-- A descriptor that has completed at a boundary: STOPPED, the pending one
started, or IDLE (04 R156). -/
def State.afterDesc (s : State) (t : Nat) (stopping : Bool) : State :=
  let x := s.tile t
  if stopping then s.setTile t { x with mode := .stopped, fromIdle := false }
  else if x.pendValid then (s.setTile t { x with mode := .running }).startPending t false
  else s.setTile t { x with mode := .idle }

/-- DONE_SO is signalled after a completion of class 0 (05 R205). -/
def State.doneSo (s : State) (t d : Nat) : State :=
  if !descDoneEn d then s
  else
    let so := descDoneSo d
    let tn := (s.tile t).tenant
    if s.soAllowed tn so then s.soSignal so 1
    else (s.soBlocked 2 t tn so).cntQuay (t / 64) 55 1

/-- DESC_COMPLETE: both streams have ended, the scalar core has ended or was not
started, every store and transfer is complete and the signal queue is empty; or
an error's transfers and signals are done (04 R153, R156, 13 R417). -/
def execDescComplete (t : Nat) (s : State) : Out :=
  let x := s.tile t
  if !((x.mode == .running || x.mode == .stopping) && x.active && x.dmas.isEmpty && x.sigq.isEmpty)
  then .next s
  else
    let fail (st : Status) (src op : Nat) : Out :=
      .next ((s.finishDesc t st src op).updTile t (fun y =>
        { y with mode := .idle, pendValid := false }))
    match x.ending with
    | some (st, src, op) => fail st src op
    | none =>
      if !(x.as.ended && x.xs.ended) || x.sc.state == 1
          || (List.range 4).any (fun n => !(x.dq n).backlog.isEmpty) then .next s
      else if (List.range 4).any (fun n => !(x.dq n).isEmpty) then fail ST_TILE_DQ_RESIDUE 0 0
      else
        let d := x.desc
        .next (((s.finishDesc t 0 0 0).doneSo t d).afterDesc t (x.mode == .stopping))

/-- The state a command that only goes on answers. -/
def Out.state (o : Out) (s : State) : State :=
  match o with
  | .next s' => s'
  | _ => s

/-- DQ_WAIT_RELEASE: the operation of a stream that waits on a data queue is
tried again, and proceeds if an entry has been pushed or popped (04 R151). -/
def execDqWaitRelease (t : Nat) (exec : Bool) (s : State) : Out :=
  let x := s.tile t
  if !(x.stream exec).wait.onQueue then .next s
  else
    match exec, (x.opWord exec).map (fun w => bits w 0 8) with
    | false, some 0x10 => execLoad t s
    | false, some 0x11 => execStore t s
    | true, some 0x20 => execOpfill t s
    | true, some 0x22 => execAccrel t s
    | true, some 0x68 => execVld t s
    | true, some 0x69 => execVst t s
    | _, _ => .next s

end Sys2Proof.Machine
end

