-- ==== Sys2Proof/Machine/GraphOps.lean ====
section
/-! DEFINITION. Shared operations of the graph engine: entries, graphs and nodes,
the ready order, pools, reservation and release, and how a graph fails (07 R227
to R263). -/

namespace Sys2Proof.Machine

/-! ### Submission entries (R233) -/

def entOp (e : Nat) : Nat := byteField e 3 1
def entTag (e : Nat) : Nat := byteField e 4 4
def entGraph (e : Nat) : Nat := byteField e 8 8
def entHandle (e : Nat) : Nat := bits e (8 * 0x10) 12
def entPrio (e : Nat) : Nat := bits e (8 * 0x12) 3
def entRecEn (e : Nat) : Bool := bit (byteField e 0x13 1) 0
def entRecHost (e : Nat) : Bool := bit (byteField e 0x13 1) 1
def entDoneEn (e : Nat) : Bool := bit (byteField e 0x13 1) 2
def entOrdered (e : Nat) : Bool := bit (byteField e 0x13 1) 3
def entDoneSo (e : Nat) : Nat := bits e (8 * 0x14) 17
def entWd (e : Nat) : Nat := if byteField e 0x18 2 = 0 then 1000 else byteField e 0x18 2
def entRec (e : Nat) : Nat := byteField e 0x20 8

/-- Check 1 of R241. -/
def entryOk (e : Nat) : Bool :=
  let load := decide (entOp e ≤ 1)
  byteField e 0 3 == 0x400801 && decide (entOp e ≤ 3) && byteField e 0x0E 2 == 0
    && bits e (8 * 0x10 + 12) 4 == 0 && bits e (8 * 0x12 + 3) 5 == 0 && bits e (8 * 0x13 + 4) 4 == 0
    && bits e (8 * 0x14 + 17) 15 == 0 && byteField e 0x1A 6 == 0 && byteField e 0x28 24 == 0
    && (if load then entGraph e % 64 == 0 && entHandle e == 0 else entGraph e == 0)
    && entRec e % 32 == 0 && (entRecEn e || entRec e == 0)

/-! ### Graph header, nodes and edges (R237 to R240) -/

def hdrNodes (h : Nat) : Nat := byteField h 4 2
def hdrEdges (h : Nat) : Nat := byteField h 8 4
def hdrTag (h : Nat) : Nat := byteField h 0x0C 4
def hdrNodeAddr (h : Nat) : Nat := byteField h 0x10 8
def hdrEdgeAddr (h : Nat) : Nat := byteField h 0x18 8

/-- The format part of check 3. -/
def headerFormatOk (h : Nat) : Bool :=
  byteField h 0 3 == 0x410801 && byteField h 3 1 == 0 && byteField h 6 2 == 0
    && byteField h 0x20 32 == 0 && decide (1 ≤ hdrNodes h) && decide (hdrNodes h ≤ 16384)
    && decide (hdrEdges h ≤ 65536) && byteField h 0x16 2 == 0 && byteField h 0x1E 2 == 0
    && hdrNodeAddr h % 64 == 0 && hdrEdgeAddr h % 8 == 0 && (hdrEdges h != 0 || hdrEdgeAddr h == 0)

def ndKind (n : Nat) : Nat := bits n 24 4
def ndStages (n : Nat) : Nat := bits n 32 5
def ndPin (n : Nat) : Bool := bit n 40
def ndMask (n : Nat) : Nat := bits n 48 12
def ndWork (n : Nat) : Nat := byteField n 8 6
def ndAlt (n : Nat) : Nat := byteField n 0x10 6
def ndPinAddr (n : Nat) : Nat := byteField n 0x18 6
def ndCallB (n : Nat) : Nat := byteField n 0x20 4
def ndMemops (n : Nat) : Nat := byteField n 0x24 2
def ndSlots (n : Nat) : Nat := byteField n 0x26 1
def ndSo (n : Nat) : Nat := bits n (8 * 0x28) 17
def ndSyncOp (n : Nat) : Nat := bits n (8 * 0x2C) 4
def ndSyncValue (n : Nat) : Nat := byteField n 0x30 4
def ndTag (n : Nat) : Nat := byteField n 0x34 4

/-- Check 5 of one node entry: format, reserved fields, and each field as its
kind requires (R238, R239, 08 R269, 13 R410). -/
def nodeOk (n : Nat) : Bool :=
  let k := ndKind n
  let tile := k == 1 || k == 4
  let stk := k == 2 || k == 4
  let work := decide (1 ≤ k) && decide (k ≤ 4)
  let iff (a b : Bool) : Bool := a == b
  byteField n 0 3 == 0x420801 && bits n 28 4 == 0 && bits n 37 3 == 0 && bits n 41 7 == 0
    && bits n 60 4 == 0 && byteField n 0x0E 2 == 0 && byteField n 0x16 2 == 0
    && byteField n 0x1E 2 == 0 && byteField n 0x27 1 == 0 && bits n (8 * 0x28 + 17) 15 == 0
    && bits n (8 * 0x2C + 4) 4 == 0 && byteField n 0x2D 3 == 0 && byteField n 0x38 8 == 0
    && decide (1 ≤ k) && decide (k ≤ 6)
    && (if tile then decide (1 ≤ ndStages n) && decide (ndStages n ≤ 16) else ndStages n == 0)
    && iff (ndWork n != 0) work && iff (ndAlt n != 0) (k == 4) && iff (ndCallB n != 0) (k == 4)
    && (if work then decide (1 ≤ ndMemops n) && decide (ndMemops n ≤ 16384) else ndMemops n == 0)
    && iff (ndMask n != 0) stk && iff (ndSlots n != 0) (ndMask n != 0)
    && iff (ndPinAddr n != 0) (ndPin n)
    && (if k = 5 then decide (ndSyncOp n ≤ 4)
        else ndSo n == 0 && ndSyncOp n == 0 && ndSyncValue n == 0)

/-- Edge words: FROM and TO, and whether its reserved bits are 0. -/
def edgeFrom (e : Nat) : Nat := bits e 0 14
def edgeTo (e : Nat) : Nat := bits e 16 14
def edgeOk (n e : Nat) : Bool :=
  bits e 14 2 == 0 && bits e 30 34 == 0 && decide (edgeFrom e < n) && decide (edgeTo e < n)
    && edgeFrom e != edgeTo e

/-- In-degree of every node. -/
def inDegrees (n : Nat) (es : List (Nat × Nat)) : List Nat :=
  (List.range n).map (fun i => (es.filter (fun e => e.2 == i)).length)

/-- Do the edges form no cycle? Nodes without an incoming edge from the rest are
taken away until none is left. -/
def acyclic (n : Nat) (es : List (Nat × Nat)) : Bool :=
  let rec go : Nat → List Nat → Bool
    | 0, left => left.isEmpty
    | fuel + 1, left =>
      let stay := left.filter (fun i => es.any (fun e => e.2 == i && left.contains e.1))
      if stay.length = left.length then left.isEmpty else go fuel stay
  go (n + 1) (List.range n)

/-! ### Stage entries (R242) -/

def sgShared (e : Nat) : Bool := bit e 24
def sgTiles (e : Nat) : Nat := bits e 32 13
def sgCount (e : Nat) : Nat := byteField e 6 1
def sgRelMask (e : Nat) : Nat := byteField e 8 2
def sgRelAdd (e : Nat) : Nat := byteField e 0x0A 2
def sgRelTgt (e n : Nat) : Nat := bits e (8 * 0x10 + 4 * n) 4
def sgDesc (e : Nat) : Nat := byteField e 0x18 6
def sgInit (e : Nat) : Nat := byteField e 0x20 6
def sgInitCnt (e : Nat) : Nat := bits e (8 * 0x28) 13

/-- Format and ranges of a stage entry of a node with `n` stages. -/
def stageOk (n e : Nat) : Bool :=
  byteField e 0 3 == 0x440801 && bits e 25 7 == 0 && bits e 45 3 == 0 && decide (1 ≤ sgTiles e)
    && decide (sgTiles e ≤ 4096) && decide (1 ≤ sgCount e) && byteField e 7 1 == 0
    && byteField e 0x0C 4 == 0 && (sgRelAdd e &&& sgRelMask e) == sgRelAdd e
    && (List.range 16).all (fun i =>
        if bit (sgRelMask e) i then decide (sgRelTgt e i < n) else sgRelTgt e i == 0)
    && byteField e 0x1E 2 == 0 && sgDesc e % 256 == 0 && byteField e 0x26 2 == 0
    && sgInit e % 8 == 0 && (sgInitCnt e != 0 || sgInit e == 0) && bits e (8 * 0x28 + 13) 3 == 0
    && decide (sgInitCnt e ≤ 4096) && byteField e 0x2A 2 == 0
    && (List.range 4).all (fun i =>
        let p := byteField e (0x2C + 4 * i) 4
        bits p 16 16 == 0 && liveRangeOk p && (bits p 8 8 != 0 || bits p 0 8 == 0))
    && byteField e 0x3C 4 == 0

/-! ### Tables of the engine -/

def State.hwq (s : State) (q : Nat) : Option HwQueue := Table.find s.graph.queues q
def State.updHwq (s : State) (q : Nat) (f : HwQueue → HwQueue) : State :=
  { s with graph := { s.graph with queues := Table.mapV s.graph.queues (fun k x =>
      if k = q then f x else x) } }
def State.graphOf (s : State) (seq : Nat) : Option GraphRun := Table.find s.graph.graphs seq
def State.updGraph (s : State) (seq : Nat) (f : GraphRun → GraphRun) : State :=
  { s with graph := { s.graph with graphs := Table.mapV s.graph.graphs (fun k x =>
      if k = seq then f x else x) } }
def State.nodeOf (s : State) (seq node : Nat) : Option NodeSt :=
  (s.graphOf seq).bind (fun g => Table.find g.nodes node)
def State.updNode (s : State) (seq node : Nat) (f : NodeSt → NodeSt) : State :=
  s.updGraph seq (fun g => { g with nodes := Table.mapV g.nodes (fun k x =>
    if k = node then f x else x) })

/-- A field of a tenant's quota record (18 R565): T0 has the module's capacity. -/
def State.quotaField (s : State) (tenant off n : Nat) : Nat :=
  match Table.find s.hif.tenants tenant with
  | some t => byteField t.quota.toNat off n
  | none => 0

/-- A node before it is considered. -/
def freshNode (w : BitVec 512) (indeg : Nat) : NodeSt :=
  { words := w, indeg := indeg, phase := .waiting, pin := none, readyAt := none, form := none, cls := 0,
    stages := [], held := [], reserve := false, memops := 0, areaBase := 0, areaSize := 0,
    reservedAt := 0, dispatchedAt := 0, spill := [], claim := [] }

def NodeSt.w (n : NodeSt) : Nat := n.words.toNat

/-- Does a node run as tiles, as a chain? -/
def NodeSt.isTile (n : NodeSt) : Bool := ndKind n.w == 1 || (ndKind n.w == 4 && n.form == some false)
def NodeSt.isStack (n : NodeSt) : Bool := ndKind n.w == 2 || (ndKind n.w == 4 && n.form == some true)

/-- Is a node dispatched and not ended? -/
def NodeSt.dispatched (n : NodeSt) : Bool :=
  n.phase == .running || n.phase == .reserved || n.phase == .restoring

/-! ### Slots of the engine (R231, R263) -/

/-- Graph, node and edge slots in use, of a tenant or of all. -/
def State.slotsUsed (s : State) (tenant : Option Nat) : Nat × Nat × Nat :=
  let mine (t : Nat) : Bool :=
    match tenant with
    | some k => t == k
    | none => true
  let gs := s.graph.graphs.filter (fun g => mine g.2.tenant)
  let own := gs.filter (fun g => g.2.op == 0 || g.2.op == 1)
  let rs := s.graph.residents.filter (fun r => mine r.2.tenant)
  let es := s.graph.entries.filter (fun e => mine e.tenant)
  (gs.length + (es.map (fun e => e.need.1)).sum,
   (own.map (fun g => g.2.nodes.length)).sum + (rs.map (fun r => r.2.nodes.length)).sum
     + (es.map (fun e => e.need.2.1)).sum,
   (own.map (fun g => g.2.edges.length)).sum + (rs.map (fun r => r.2.edges.length)).sum
     + (es.map (fun e => e.need.2.2)).sum)

/-- Could an entry's need ever fit (`now` = false), and does it fit now? -/
def State.slotsFit (s : State) (tenant : Nat) (need : Nat × Nat × Nat) (now : Bool) : Bool :=
  let qg := s.quotaField tenant 0x08 4
  let qn := s.quotaField tenant 0x0C 4
  let qe := s.quotaField tenant 0x10 4
  let (ug, un, ue) := if now then s.slotsUsed (some tenant) else (0, 0, 0)
  let (mg, mn, me) := if now then s.slotsUsed none else (0, 0, 0)
  let (g, n, e) := need
  decide (ug + g ≤ qg) && decide (un + n ≤ qn) && decide (ue + e ≤ qe)
    && decide (mg + g ≤ 16384) && decide (mn + n ≤ 262144) && decide (me + e ≤ 1048576)

/-! ### The ready order (R236, R246, R247) -/

/-- Is a graph held back: by ORDERED behind earlier graphs of its queue, or by an
earlier launch of its handle? -/
def State.graphHeld (s : State) (seq : Nat) (g : GraphRun) : Bool :=
  (entOrdered g.entry.toNat && (s.graph.graphs.any (fun h => decide (h.1 < seq) && h.2.queue == g.queue)
      || s.graph.entries.any (fun e => decide (e.seq < seq) && e.queue == g.queue)))
    || (match g.handle with
        | some h => g.op == 2 && s.graph.graphs.any (fun o =>
            decide (o.1 < seq) && o.2.op == 2 && o.2.handle == some h)
        | none => false)

/-- Is a node ready, waiting or spilled? -/
def NodeSt.ready (n : NodeSt) : Bool :=
  (n.phase == .waiting || n.phase == .spilled) && n.indeg == 0

/-- Ready nodes of the engine in the ready order. -/
def State.readyOrder (s : State) : List (Nat × Nat) :=
  let all := s.graph.graphs.flatMap (fun g =>
    if g.2.failing.isSome || s.graphHeld g.1 g.2 || (g.2.op == 1 || g.2.op == 3) then []
    else (g.2.nodes.filter (fun n => n.2.ready)).map (fun n => (g.2.prio, g.1, n.1)))
  let before (a b : Nat × Nat × Nat) : Bool :=
    decide (b.1 < a.1) || (a.1 == b.1 && (decide (a.2.1 < b.2.1) ||
      (a.2.1 == b.2.1 && decide (a.2.2 ≤ b.2.2))))
  (all.mergeSort before).map (fun x => x.2)

/-- Note the time at which nodes become ready. -/
def State.noteReady (s : State) : State :=
  (s.readyOrder).foldl (fun s p => s.updNode p.1 p.2 (fun n =>
    { n with readyAt := some (n.readyAt.getD s.time) })) s

/-- The head: the first node in the ready order that has been ready for 1 ms. -/
def State.headNode (s : State) : Option (Nat × Nat) :=
  (s.readyOrder).find? (fun p =>
    match s.nodeOf p.1 p.2 with
    | some n =>
      (match n.readyAt with
       | some t => decide (t + msTicks 1 ≤ s.time)
       | none => false)
    | none => false)

/-- May a node be considered under R247? -/
def State.headAllows (s : State) (seq node kind : Nat) : Bool :=
  match s.headNode with
  | none => true
  | some h =>
    kind == 5 || kind == 6 ||
      (match (s.readyOrder).idxOf? h, (s.readyOrder).idxOf? (seq, node) with
       | some i, some j => decide (j ≤ i)
       | _, _ => false)

/-! ### Pools (R249) -/

/-- Nodes that hold resources. -/
def State.holders (s : State) : List (Nat × GraphRun × NodeSt) :=
  s.graph.graphs.flatMap (fun g =>
    (g.2.nodes.filter (fun n => n.2.dispatched)).map (fun n => (g.1, g.2, n.2)))

/-- Memory operations reserved, of a tenant or of all. -/
def State.memopsUsed (s : State) (tenant : Option Nat) : Nat :=
  ((s.holders.filter (fun h => match tenant with
    | some t => h.2.1.tenant == t
    | none => true)).map (fun h => h.2.2.memops)).sum

/-- Stack slots of a pool held in one stack. -/
def State.slotsHeld (s : State) (stack : Nat) (reserve : Bool) : Nat :=
  ((s.holders.filter (fun h => h.2.2.isStack && bit (ndMask h.2.2.w) stack
      && h.2.2.reserve == reserve)).map (fun h => ndSlots h.2.2.w)).sum

/-- Stack slots a tenant holds in one stack. -/
def State.slotsTenant (s : State) (tenant stack : Nat) : Nat :=
  ((s.holders.filter (fun h => h.2.2.isStack && bit (ndMask h.2.2.w) stack
      && h.2.1.tenant == tenant)).map (fun h => ndSlots h.2.2.w)).sum

/-- Slots of a pool of a stack. -/
def State.poolSize (s : State) (stack : Nat) (reserve : Bool) : Nat :=
  if reserve then (s.stackUnit stack).reserveNow else 256 - (s.stackUnit stack).reserveNow

/-- Does the reserve grow, now that graph slots may have become free (09 R318)? -/
def State.growReserves (s : State) : State :=
  (List.range 12).foldl (fun s n => s.resizeReserve n (s.slotsHeld n false)) s

/-- Logical tiles in service. -/
def State.tilesInService (s : State) : Nat :=
  64 * ((List.range 64).filter (fun q => (s.quay q).inService && !(s.quay q).outOfService)).length

/-- Tiles a tenant holds. -/
def State.tilesTenant (s : State) (tenant : Nat) : Nat :=
  ((s.holders.filter (fun h => h.2.1.tenant == tenant)).map (fun h => h.2.2.held.length)).sum

/-- A free range of the graph area. -/
def State.areaFind (s : State) (n : Nat) : Option Nat :=
  if n = 0 then some 0
  else
    let taken := s.graph.graphs.flatMap (fun g => (g.2.nodes.filter (fun x =>
      x.2.areaSize != 0)).map (fun x => (x.2.areaBase, x.2.areaSize)))
    freeRange (s.resv 2).1 (s.resv 2).2 n 256 taken

/-! ### Failure, abort and release (R255, R257, R697) -/

/-- FAIL_UNIT. -/
def failUnit (kind idx : Nat) : Nat := kind * 4096 + idx % 4096

/-- Stop a tile's work: abort it, and drop a descriptor that has not started. -/
def State.abortTile (s : State) (t : Nat) : State :=
  let x := s.tile t
  if x.mode = .idle then
    s.setTile t { x.pendChanged with pendValid := false, startHeld := false, fromRecord := false,
                                     fetchBusy := false, fetchStart := false }
  else s.tileAbort t

/-- Is a tile at rest? -/
def Tile.atRest (x : Tile) : Bool := x.mode == .idle && !x.startHeld && !x.active

/-- Release a node: its tiles pass out of its hands, and its resources are free.
The flags of the descriptors it completed are kept. -/
def State.releaseNode (s : State) (seq node : Nat) : State :=
  match s.nodeOf seq node with
  | none => s
  | some n =>
    let fl := (n.held.map (fun t => ((s.tile t).job.map (·.flags)).getD 0)).foldl (· ||| ·) 0
    let chains := s.stks.chains.filter (fun (c : Nat × StackChain) => c.2.seq == seq && c.2.node == node)
    let fl := chains.foldl (fun f c => f ||| c.2.flags) fl
    let s := n.held.foldl (fun s t => s.updTile t (fun x =>
      { x with owner := none, job := none, unitEnded := none })) s
    let s := { s with stks := { s.stks with
      chains := s.stks.chains.filter (fun c => !(c.2.seq == seq && c.2.node == node)) } }
    let s := s.updGraph seq (fun g => { g with flags := g.flags ||| fl })
    (s.updNode seq node (fun n =>
      { n with phase := .ended, held := [], stages := [], memops := 0, areaBase := 0,
               areaSize := 0, spill := [], claim := [] })).growReserves

/-- Stop everything of a graph: tiles, chains, lists and waits; a spilled node's
space and a reservation that has started nothing are released at once. -/
def State.abortGraph (s : State) (seq : Nat) : State :=
  match s.graphOf seq with
  | none => s
  | some g =>
    let s := g.nodes.foldl (fun s n =>
      let s := if n.2.phase == .running && n.2.isTile then
          n.2.held.foldl (fun s t => s.abortTile t) s else s
      if n.2.phase == .reserved ∨ n.2.phase == .spilled ∨ n.2.phase == .restoring then s.releaseNode seq n.1 else s) s
    let s := (s.stks.chains.filter (fun c => c.2.seq == seq)).foldl (fun s c => s.abortChain c.1) s
    let s := s.abortDma seq
    s.removeWaits (fun u => match u with
      | .node k _ => k == seq
      | _ => false)

/-- A graph fails: the first failure is kept, and its units are stopped. -/
def State.failGraph (s : State) (seq : Nat) (st : Status) (node unit : Nat) : State :=
  match s.graphOf seq with
  | none => s
  | some g =>
    if g.failing.isSome then s
    else
      let s := match s.nodeOf seq node with
        | some n => s.traceCentral 1 0x11 4 0 (ndTag n.w) (seq + 2 ^ 64 * node + 2 ^ 80 * st.toNat)
        | none => s
      (s.updGraph seq (fun g => { g with failing := some (st, node, unit) })).abortGraph seq

/-- A node fails at dispatch, or while spilled: unit kind 4. -/
def State.failNode (s : State) (seq node : Nat) (st : Status) : State :=
  s.failGraph seq st node (failUnit 4 0)

/-- Have a node's units all stopped? -/
def State.nodeStopped (s : State) (seq node : Nat) : Bool :=
  match s.nodeOf seq node with
  | none => true
  | some n =>
    n.phase != .running ||
      (n.held.all (fun t => (s.tile t).atRest)
        && (s.stks.chains.filter (fun (c : Nat × StackChain) => c.2.seq == seq && c.2.node == node)).all
            (fun c => c.2.stopped)
        && !(s.dma.ctxs.any (fun c => c.2.seq == seq && c.2.node == node))
        && !(s.dma.waiting.any (fun c => c.seq == seq && c.node == node)))

/-- Successors of a node lose one in-degree per edge. -/
def State.lowerSuccessors (s : State) (seq node : Nat) : State :=
  match s.graphOf seq with
  | none => s
  | some g =>
    (g.edges.filter (fun e => e.1 == node)).foldl (fun s e =>
      s.updNode seq e.2 (fun n => { n with indeg := n.indeg - 1 })) s

/-- A node completes (R254): it is released and its successors go on. -/
def State.completeNode (s : State) (seq node : Nat) : State :=
  match s.graphOf seq, s.nodeOf seq node with
  | some g, some n =>
    let s := s.traceCentral 1 0x11 4 0 (ndTag n.w) (seq + 2 ^ 64 * node)
    let s := (s.releaseNode seq node).lowerSuccessors seq node
    let s := s.updGraph seq (fun g => { g with lastEvent := s.time })
    (s.cntTen g.tenant 1 1).noteReady
  | _, _ => s

/-! ### Waiting units and stalls (R260, R261) -/

/-- Does a stream count as waiting: ended, or held by a sync object, a TEC or a
transfer? -/
def StreamSt.stalls (st : StreamSt) : Bool :=
  st.ended ||
    (match st.wait with
     | .tec => true
     | .sync => true
     | .dma => true
     | _ => false)

/-- Is a tile waiting under R260? -/
def Tile.stalls (x : Tile) : Bool :=
  (x.mode == .running || x.mode == .stopping) && x.active && x.as.stalls && x.xs.stalls
    && !(x.as.ended && x.xs.ended && x.dmas.isEmpty && x.sigq.isEmpty) && x.sc.state != 1

/-- Has a tile completed every descriptor of its job? -/
def Tile.jobEnded (x : Tile) : Bool :=
  match x.job with
  | some j => decide (j.count ≤ j.done)
  | none => true

/-- A waiting chain: it waits for WAIT_SO and runs nothing. -/
def StackChain.stalls (c : StackChain) : Bool := c.waitSent && !c.waitDone && c.running.isEmpty

/-- Waiting units of a node with their unit codes, and whether it has a unit that
does not wait. -/
def State.nodeWaits (s : State) (seq node : Nat) (n : NodeSt) : List Nat × Bool :=
  if n.phase != .running then ([], false)
  else if n.isTile then
    let ts := n.held.filter (fun t => !(s.tile t).jobEnded)
    let w := ts.filter (fun t => (s.tile t).stalls)
    (w.map (failUnit 1), decide (w.length < ts.length))
  else if n.isStack then
    match s.stks.chains.find? (fun c => c.2.seq == seq && c.2.node == node) with
    | some c => if c.2.stalls then ([failUnit 2 (((stacksOf c.2.mask).head?).getD 0)], false) else ([], true)
    | none => ([], true)
  else if ndKind n.w = 5 then
    if s.sync.woken.any (fun w => w.1 == .node seq node) then ([], true) else ([failUnit 4 0], false)
  else ([], true)

/-- Is a graph stalled: at least one dispatched unit, every one of them waiting,
and no node spilled (14 R461)? -/
def State.graphStalled (s : State) (seq : Nat) (g : GraphRun) : Bool :=
  let ws := g.nodes.map (fun n => s.nodeWaits seq n.1 n.2)
  g.failing.isNone && ws.any (fun w => !w.1.isEmpty) && ws.all (fun w => !w.2)
    && g.nodes.all (fun n => n.2.phase != .spilled && n.2.phase != .reserved
        && n.2.phase != .restoring)

/-- Since when: the last dispatch, completion or progress of one of its units. -/
def State.stalledSince (s : State) (seq : Nat) (g : GraphRun) : Nat :=
  ((g.nodes.flatMap (fun n => n.2.held.map (fun t => (s.tile t).lastProgress)))
    ++ ((s.stks.chains.filter (fun c => c.2.seq == seq)).map (fun c => c.2.lastProgress))).foldl max g.lastEvent

/-- The waiting unit of lowest node and unit index. -/
def State.firstWait (s : State) (seq : Nat) (g : GraphRun) : Nat × Nat :=
  (g.nodes.findSome? (fun n =>
    match (s.nodeWaits seq n.1 n.2).1 with
    | [] => none
    | u :: r => some (n.1, r.foldl min u))).getD (0xFFFF, failUnit 4 0)

end Sys2Proof.Machine
end

