-- ==== Sys2Proof/Machine/Graph.lean ====
section
/-! DEFINITION. The graph engine's commands: doorbells, reading entries, loading
and launching graphs, dispatch, completion, failure and the wait watchdog
(chapter 07). -/

namespace Sys2Proof.Machine

/-! ### Queues (R228 to R231) -/

/-- A doorbell with a new TAIL for a queue (R228). -/
def State.ringDoorbell (s : State) (q tail : Nat) : State :=
  match s.hwq q with
  | none => (s.raise ST_Q_DOORBELL_RANGE 10 0 none q).cntMod 14 1
  | some x =>
    let d := (BitVec.ofNat 17 tail - x.head).toNat
    let a := (BitVec.ofNat 17 tail - x.tail).toNat
    let size := 2 ^ x.sizeLog2
    if s.serving.models.any (fun (m : Nat × SrvModel) => byteField m.2.words.toNat 8 2 % 8192 == q) then
      -- a launch queue is the serving engine's own (14 R441)
      (s.raise ST_SRV_LAUNCH_Q 8 0 (some x.tenant) q).cntMod 14 1
    else if !x.enabled then (s.raise ST_Q_DISABLED 10 0 (some x.tenant) q).cntMod 14 1
    else if size < d ∨ size < a then (s.raise ST_Q_DOORBELL_RANGE 10 0 (some x.tenant) q).cntMod 14 1
    else s.updHwq q (fun y => { y with tail := BitVec.ofNat 17 tail })

/-- Write HEAD to a queue's shadow (R229). -/
def State.writeShadow (s : State) (q : Nat) : State :=
  match s.hwq q with
  | none => s
  | some x =>
    let bs := bytesOfNat 4 x.head.toNat
    let s := s.updHwq q (fun y => { y with shadowDue := none })
    if x.shadowLoc = 1 then s.hostWrite x.shadowAddr.toNat bs
    else
      match s.accessRecord 10 0 x.tenant true x.shadowAddr.toNat 4 with
      | (some _, s) => s
      | (none, s) => s.writeMem x.shadowAddr.toNat bs

/-- Read the entry at HEAD of a queue as its tenant. -/
def State.peekEntry (s : State) (x : HwQueue) : Except Status Nat × State :=
  let a := x.ringBase.toNat + 64 * (x.head.toNat % 2 ^ x.sizeLog2)
  if x.ringLoc = 1 then (.ok (natOfBytes (s.hostFetch a 64).1), (s.hostFetch a 64).2)
  else
    match s.accessRecord 10 0 x.tenant false a 64 with
    | (some e, s) => (.error e, s)
    | (none, s) =>
      match s.loadNum a 64 with
      | (some v, s) => (.ok v, s)
      | (none, s) => (.error ST_GRAPH_FETCH_UE, s)

/-- Slots an entry needs: graph, nodes and edges; none where it needs none or its
header cannot be read (R231). -/
def State.entryNeed (s : State) (tenant e : Nat) : Option (Nat × Nat × Nat) :=
  if !entryOk e then none
  else if entOp e = 2 then some (1, 0, 0)
  else if entOp e = 3 then none
  else if (s.accessCheck tenant false (entGraph e) 64).isSome then none
  else
    match (s.loadNum (entGraph e) 64).1 with
    | some h => if headerFormatOk h then some (1, hdrNodes h, hdrEdges h) else none
    | none => none

/-- Does the head entry of a queue wait for slots (R231)? One that could never fit
does not. -/
def State.entryWaits (s : State) (x : HwQueue) : Bool :=
  match s.peekEntry x with
  | (.ok e, _) =>
    (match s.entryNeed x.tenant e with
     | some n => s.slotsFit x.tenant n false && !s.slotsFit x.tenant n true
     | none => false)
  | _ => false

/-- The queue the engine reads next: round-robin over tenants, then over the
tenant's queues, taking over empty, disabled and waiting ones (R230). -/
def State.nextQueue (s : State) : Option (Nat × HwQueue) :=
  let ok := s.graph.queues.filter (fun q =>
    q.2.enabled && !q.2.serving && q.2.head != q.2.tail && !s.entryWaits q.2)
  let after (k : Nat) (l : List Nat) : Option Nat :=
    ((l.filter (fun x => decide (k < x))).min?).orElse (fun _ => l.min?)
  match after s.graph.lastTenant (ok.map (fun q => q.2.tenant)) with
  | none => none
  | some t =>
    let mine := (ok.filter (fun q => q.2.tenant == t)).map Prod.fst
    let first := (Table.find s.graph.lastQueue t).elim mine.min? (fun k => after k mine)
    first.bind (fun q => (s.hwq q).map (fun x => (q, x)))

/-- ENTRY_READ: the engine reads one entry, gives it the next SEQ and advances
HEAD; the shadow is written at once when HEAD reaches TAIL (R229, R230, R235).
No entry is read while a mark stops the reading (17 R552). -/
def execEntryRead (t : Nat) (s : State) : Out :=
  let s := s.at t
  if s.log.paused then .next s
  else
    match s.nextQueue with
    | none =>
      let held := (s.graph.queues.filter (fun q => q.2.enabled && !q.2.serving &&
        q.2.head != q.2.tail)).length
      .next (s.cntMod 15 held)
    | some (q, x) =>
      if !s.decisionAllowed 0x601 q then .next s
      else
        let (r, s) := s.peekEntry x
        let seq := s.graph.seq + 1
        let raw := match r with
          | .ok e => e
          | .error _ => 0
        let need := match s.entryNeed x.tenant raw with
          | some n => if s.slotsFit x.tenant n false then n else (0, 0, 0)
          | none => (0, 0, 0)
        let e : ReadEntry := { seq := seq, queue := q, tenant := x.tenant,
                               raw := BitVec.ofNat 512 raw, need := need }
        let s := { s with graph := { s.graph with
          seq := seq, entries := s.graph.entries ++ [e], lastTenant := x.tenant
          lastQueue := Table.put s.graph.lastQueue x.tenant q } }
        let s := s.updHwq q (fun y => { y with head := y.head + 1,
                                               shadowDue := some (y.shadowDue.getD s.time) })
        let s := (s.cntMod 0 1).logDecision 0x601 [q]
        .next (if x.head + 1 = x.tail then s.writeShadow q else s)

/-- SHADOW_WRITE: HEAD is written to the shadow within 10 µs after it changed. -/
def execShadowWrite (q t : Nat) (s : State) : Out :=
  let s := s.at t
  match s.hwq q with
  | some x => .next (if x.shadowDue.isSome then s.writeShadow q else s)
  | none => .next s

/-! ### Entries (R233, R234, R241) -/

/-- A graph slot for an entry. -/
def graphRun (e : ReadEntry) (now : Nat) (prioMax : Nat) (step : Bool) : GraphRun :=
  let w := e.raw.toNat
  { queue := e.queue, tenant := e.tenant, entry := e.raw, op := entOp w,
    prio := min (entPrio w) prioMax, handle := none, tag := 0, nodes := [], edges := [],
    failing := none, flags := 0, lastEvent := now, startedAt := none, soloRun := true,
    step := step, recorded := false }

/-- Take the oldest entry read, if it is the one named and a test on its
operation picks it: it becomes a graph slot (R235). A LAUNCH entry that the
serving engine wrote makes a step graph (14 R444). -/
def State.takeEntry (s : State) (seq : Nat) (p : Nat → Bool) (f : GraphRun → State → State) : State :=
  match s.graph.entries with
  | e :: rest =>
    if e.seq = seq ∧ p (entOp e.raw.toNat) then
      let pm := ((s.hwq e.queue).map (fun q => q.prioMax.toNat)).getD 7
      let mine (x : SrvStep) : Bool := x.queued && x.seq.isNone && x.launch == e.raw
      let g := graphRun e s.time pm (s.serving.inFlight.any mine)
      let s := { s with
        serving := { s.serving with
          inFlight := changeFirst mine (fun x => { x with seq := some seq }) s.serving.inFlight }
        graph := { s.graph with entries := rest, graphs := Table.put s.graph.graphs seq g } }
      let s := s.cntMod (1 + min 3 g.op) 1
      if !entryOk g.entry.toNat then s.failGraph seq ST_Q_ENTRY_FMT 0xFFFF (failUnit 4 0)
      else f g s
    else s
  | [] => s

/-- Refuse an entry. -/
def State.refuseEntry (s : State) (seq : Nat) (st : Status) : State :=
  s.failGraph seq st 0xFFFF (failUnit 4 0)

/-- Words of `n` bits of a number, low first. -/
def wordsOf (n : Nat) : Nat → Nat → List Nat
  | 0, _ => []
  | k + 1, v => v % 2 ^ n :: wordsOf n k (v / 2 ^ n)

/-- Read a table of `n` words of `w` bytes as a tenant. -/
def State.readTable (s : State) (tenant a w n : Nat) : Except Status (List Nat) × State :=
  if n = 0 then (.ok [], s)
  else
    match s.accessRecord 10 0 tenant false a (w * n) with
    | (some e, s) => (.error e, s)
    | (none, s) =>
      match s.loadNum a (w * n) with
      | (some v, s) => (.ok (wordsOf (8 * w) n v), s)
      | (none, s) => (.error ST_GRAPH_FETCH_UE, s)

/-- Read and check the graph of a RUN or LOAD entry, by checks 2 to 7 of R241: its
nodes, edges and tag, or the failing status and node. -/
def State.readGraph (s : State) (tenant e : Nat) :
    Except (Status × Nat) (List (BitVec 512) × List (Nat × Nat) × Nat) × State :=
  match s.readTable tenant (entGraph e) 64 1 with
  | (.error st, s) => (.error (st, 0xFFFF), s)
  | (.ok hs, s) =>
    let h := (hs.head?).getD 0
    if !headerFormatOk h then (.error (ST_GRAPH_FMT, 0xFFFF), s)
    else
      match s.readTable tenant (hdrNodeAddr h) 64 (hdrNodes h) with
      | (.error st, s) => (.error (st, 0xFFFF), s)
      | (.ok ns, s) =>
        match s.readTable tenant (hdrEdgeAddr h) 8 (hdrEdges h) with
        | (.error st, s) => (.error (st, 0xFFFF), s)
        | (.ok es, s) =>
          let n := hdrNodes h
          let pairs := es.map (fun x => (edgeFrom x, edgeTo x))
          let r : Except (Status × Nat) (List (BitVec 512) × List (Nat × Nat) × Nat) :=
            if !s.slotsFit tenant (1, n, hdrEdges h) false then .error (ST_GRAPH_TOO_BIG, 0xFFFF)
            else
              match (ns.zipIdx).find? (fun x => !nodeOk x.1) with
              | some (_, i) => .error (ST_GRAPH_FMT, i)
              | none =>
                if !es.all (edgeOk n) then .error (ST_GRAPH_EDGE, 0xFFFF)
                else if !acyclic n pairs then .error (ST_GRAPH_CYCLE, 0xFFFF)
                else .ok (ns.map (BitVec.ofNat 512), pairs, hdrTag h)
          (r, s)

/-- Give a graph its nodes and edges. -/
def GraphRun.fill (g : GraphRun) (ns : List (BitVec 512)) (es : List (Nat × Nat)) (tag : Nat) :
    GraphRun :=
  let deg := inDegrees ns.length es
  { g with nodes := (ns.zip deg).zipIdx.map (fun x => (x.2, freshNode x.1.1 x.1.2)), edges := es,
           tag := BitVec.ofNat 32 tag }

/-- RUN: the graph is loaded into its slots and its nodes may go. An entry whose
OP is not defined is refused here too. -/
def execRun (seq : Nat) (s : State) : Out :=
  .next (s.takeEntry seq (fun op => op == 0 || decide (3 < op)) (fun g s =>
    match s.readGraph g.tenant g.entry.toNat with
    | (.error (st, n), s) => s.failGraph seq st n (failUnit 4 0)
    | (.ok (ns, es, tag), s) => (s.updGraph seq (fun g => g.fill ns es tag)).noteReady))

/-- LOAD: the graph is kept under the lowest free handle; no node runs. -/
def execGraphLoad (seq : Nat) (s : State) : Out :=
  .next (s.takeEntry seq (fun op => op == 1) (fun g s =>
    match s.readGraph g.tenant g.entry.toNat with
    | (.error (st, n), s) => s.failGraph seq st n (failUnit 4 0)
    | (.ok (ns, es, tag), s) =>
      let mine := (s.graph.residents.filter (fun r => r.2.tenant == g.tenant)).length
      match Table.lowestFree s.graph.residents 4096 with
      | none => s.refuseEntry seq ST_HANDLE_FULL
      | some h =>
        if s.quotaField g.tenant 0x02 2 ≤ mine then s.refuseEntry seq ST_HANDLE_FULL
        else
          let r : ResidentGraph := { tenant := g.tenant, tag := BitVec.ofNat 32 tag, nodes := ns,
                                     edges := es, unloading := false, solo := none, verified := false }
          let s := { s with graph := { s.graph with residents := Table.put s.graph.residents h r } }
          s.updGraph seq (fun g => { g with handle := some h, tag := BitVec.ofNat 32 tag })))

/-- The resident graph an entry names: loaded, by the same tenant, and not being
unloaded. -/
def State.residentOf (s : State) (tenant h : Nat) : Option ResidentGraph :=
  match Table.find s.graph.residents h with
  | some r => if r.tenant = tenant ∧ !r.unloading then some r else none
  | none => none

/-- LAUNCH: a resident graph runs in a new graph slot. -/
def execLaunch (seq : Nat) (s : State) : Out :=
  .next (s.takeEntry seq (fun op => op == 2) (fun g s =>
    let h := entHandle g.entry.toNat
    if !s.slotsFit g.tenant (1, 0, 0) false then s.refuseEntry seq ST_GRAPH_TOO_BIG
    else
      match s.residentOf g.tenant h with
      | none => s.refuseEntry seq ST_GRAPH_HANDLE
      | some r =>
        (s.updGraph seq (fun g => { (g.fill r.nodes r.edges r.tag.toNat) with
          handle := some h })).noteReady))

/-- UNLOAD: the handle is taken out of use; its slots are freed when the launches
read before have completed. -/
def execUnload (seq : Nat) (s : State) : Out :=
  .next (s.takeEntry seq (fun op => op == 3) (fun g s =>
    let h := entHandle g.entry.toNat
    match s.residentOf g.tenant h with
    | none => s.refuseEntry seq ST_GRAPH_HANDLE
    | some r =>
      let s := { s with graph := { s.graph with
        residents := Table.put s.graph.residents h { r with unloading := true } } }
      s.updGraph seq (fun g => { g with handle := some h })))

/-! ### First consideration (R248, 08 R268, R269, R278) -/

/-- Read a pin record: the form it pins, and its stage pins. -/
def State.readPin (s : State) (tenant a stages : Nat) (either : Bool) :
    Except Status (Option Bool × List (Nat × Nat × Nat)) × State :=
  match s.readTable tenant a 16 1 with
  | (.error e, s) => (.error e, s)
  | (.ok hs, s) =>
    let h := (hs.head?).getD 0
    let np := byteField h 4 1
    let ok := byteField h 0 1 == 1 && byteField h 1 1 == 2 + 2 * np && byteField h 2 1 == 0x45
      && bits h 26 6 == 0 && (np == 0 || np == stages) && byteField h 5 11 == 0
      && (bit h 24 || !bit h 25) && (either || !bit h 24)
    if !ok then (.error ST_PIL_PIN_FMT, s)
    else
      match s.readTable tenant (a + 16) 16 np with
      | (.error e, s) => (.error e, s)
      | (.ok ps, s) =>
        let pin (p : Nat) : Nat × Nat × Nat := (byteField p 0 8, byteField p 8 1, byteField p 9 1)
        let good (p : Nat) : Bool :=
          let (q, m, st) := pin p
          byteField p 0x0A 6 == 0 && decide (m ≤ 2) && ((m == 0) == (q == 0))
            && (if m = 2 then st % 8 == 0 && decide (st < 64) else st == 0)
        if ps.all good then
          (.ok (if bit h 24 then some (bit h 25) else none, ps.map pin), s)
        else (.error ST_PIL_PIN_FMT, s)

/-- The routing class of an EITHER node: its chain is read (08 R268). -/
def State.chainClass (s : State) (tenant a : Nat) : Except Status Nat × State :=
  match s.readChain tenant a with
  | (.ok ds, s) => (.ok (routeClass ds), s)
  | (.error (e, _), s) =>
    if e = ST_STK_CHAIN_LEN then
      (.ok (routeClass ((List.range 4096).map (fun i =>
        BitVec.ofNat 1024 (((s.loadNum (a + 128 * i) 128).1).getD 0)))), s)
    else (.error e, s)

/-- Choose the form of an EITHER node and record the decision; a replay forces the
recorded threshold. -/
def State.chooseForm (s : State) (seq node tenant cls callB : Nat) (pin : Option Bool) : State :=
  let th := match (if s.replaying then s.replayDecision 0x602 else none) with
    | some v => v % 2 ^ 16
    | none => s.pilThresh cls
  let stack := pin.getD (decide (callB * 256 < th))
  let s := s.updNode seq node (fun n => { n with form := some stack, cls := cls + 4 * th })
  let s := s.cntMod (25 + 2 * cls + b2n stack) 1
  s.pilRecord 1 tenant (b2n pin.isSome + 2 * b2n stack) 0 seq node (th + 2 ^ 16 * callB)

/-- What the first consideration of a node reads and decides; it may fail the
node. -/
def State.firstLook (s : State) (seq node tenant : Nat) (n : NodeSt) : State :=
  let w := n.w
  if n.pin.isSome then s
  else
    let (r, s) := if ndPin w then s.readPin tenant (ndPinAddr w) (ndStages w) (ndKind w == 4)
      else (.ok (none, []), s)
    match r with
    | .error e => s.failNode seq node e
    | .ok p =>
      if ndKind w = 4 then
        match s.chainClass tenant (ndAlt w) with
        | (.error e, s) => s.failNode seq node e
        | (.ok cls, s) =>
          (s.updNode seq node (fun n => { n with pin := some p })).chooseForm seq node tenant cls
            (ndCallB w) p.1
      else s.updNode seq node (fun n => { n with pin := some p })

/-! ### Reservation (R249, R250, R251 step 2) -/

/-- Copies of generator tables a stage needs (R245). -/
def stageCopies (e : Nat) : Nat :=
  if sgShared e && sgRelAdd e == 0 then sgCount e else sgTiles e * sgCount e

/-- Tiles other nodes hold, or that a pre-emption holds for another node. -/
def State.takenTiles (s : State) (seq node : Nat) : List Nat :=
  s.graph.graphs.flatMap (fun g => g.2.nodes.flatMap (fun n =>
    n.2.held ++ (if g.1 = seq ∧ n.1 = node then [] else n.2.claim)))

/-- Do memory operations fit the pool and the tenant's quota? -/
def State.memopsFit (s : State) (tenant n : Nat) : Bool :=
  decide (s.memopsUsed none + n ≤ 16384)
    && decide (s.memopsUsed (some tenant) + n ≤ s.quotaField tenant 0x14 4)

/-- Do a stack node's slots fit a pool, now or on an empty module? -/
def State.poolFits (s : State) (mask n : Nat) (reserve now : Bool) : Bool :=
  (stacksOf mask).all (fun st =>
    decide ((if now then s.slotsHeld st reserve else 0) + n ≤
      (if now then s.poolSize st reserve
       else if reserve then (s.stackUnit st).serveRsv.toNat
       else 256 - (s.stackUnit st).serveRsv.toNat)))

/-- Does the tenant's quota of stack slots allow it? -/
def State.slotQuotaFits (s : State) (tenant mask n : Nat) : Bool :=
  (stacksOf mask).all (fun st =>
    decide (s.slotsTenant tenant st + n ≤ s.quotaField tenant 0x06 2))

/-- Status with which a node can never be reserved, as the module now stands
(R250, 08 R278). -/
def State.tileUnfit (s : State) (tenant : Nat) (pins : List (Nat × Nat × Nat)) (es : List Nat) :
    Option Status :=
  let tiles := es.map sgTiles
  let up (q : Nat) : Bool := (s.quay q).inService && !(s.quay q).outOfService
  let exact := (pins.zip tiles).filter (fun p => p.1.2.1 == 2)
  let groups := exact.filterMap (fun p => exactGroups p.1.1 p.1.2.2 p.2)
  let groupsOf (mask : Nat) : Nat := 8 * ((List.range 64).filter (fun q => bit mask q && up q)).length
  let need := (tiles.map (fun t => (t + 7) / 8 * 8)).sum
  if exact.any (fun p => (exactGroups p.1.1 p.1.2.2 p.2).isNone
      || (List.range 64).any (fun q => bit p.1.1 q && !up q)) then some ST_PIL_PIN_UNFIT
  else if s.tilesInService < need || decide (s.quotaField tenant 0x04 2 < need)
      || groups.flatten.eraseDups.length != groups.flatten.length
      || (pins.zip tiles).any (fun p => p.1.2.1 == 1 && decide (groupsOf p.1.1 < (p.2 + 7) / 8))
      || decide (2 ^ 28 < 1024 * (es.map stageCopies).sum) then some ST_GRAPH_UNFIT
  else none

/-- Memory operations beyond the tenant's whole quota never fit. -/
def State.memopsUnfit (s : State) (tenant n : Nat) : Bool :=
  decide (s.quotaField tenant 0x14 4 < n)

/-- Hold what a node reserves. -/
def State.reserve (s : State) (seq node tenant : Nat) (f : NodeSt → NodeSt) : State :=
  let s := s.updNode seq node (fun n =>
    { (f n) with phase := .reserved, memops := ndMemops n.w, reservedAt := s.time, claim := [] })
  match s.nodeOf seq node with
  | some n => n.held.foldl (fun s t => s.updTile t (fun x =>
      { x with owner := some tenant, job := none, unitEnded := none })) s
  | none => s

/-- Place and reserve a TILE node; it waits, holding nothing, if that fails. -/
def State.reserveTiles (s : State) (seq node tenant : Nat) (n : NodeSt) (cands : List Placement)
    (rows : List (Option Nat)) : State :=
  match s.readTable tenant (ndWork n.w) 64 (ndStages n.w) with
  | (.error e, s) => s.failNode seq node e
  | (.ok es, s) =>
    if !es.all (stageOk (ndStages n.w)) then s.failNode seq node ST_GRAPH_FMT
    else
      let pins := ((n.pin.map Prod.snd).getD [])
      let tiles := es.map sgTiles
      match s.tileUnfit tenant pins es with
      | some e => s.failNode seq node e
      | none =>
        if s.memopsUnfit tenant (ndMemops n.w) then s.failNode seq node ST_GRAPH_UNFIT
        else
          let need := (tiles.map (fun t => (t + 7) / 8 * 8)).sum
          let area := 1024 * (es.map stageCopies).sum
          match s.choosePlacement (s.takenTiles seq node) tiles pins rows cands with
          | none => s.cntMod 16 1
          | some p =>
            let mask (gs : List Nat) : Nat := ((stageQuays gs).map (fun q => 2 ^ q)).sum
            match s.areaFind area with
            | none => s.cntMod 17 1
            | some a =>
              if !s.memopsFit tenant (ndMemops n.w)
                  || decide (s.quotaField tenant 0x04 2 < s.tilesTenant tenant + need) then s.cntMod 17 1
              else if !s.decisionAllowed 0x602 (mask ((p.head?).getD [])) then s
              else
                let s := s.reserve seq node tenant (fun n =>
                  { n with stages := (p.zip tiles).map (fun x => stageTiles x.1 x.2)
                           held := p.flatten.flatMap groupTiles
                           areaBase := a, areaSize := area })
                (p.zipIdx).foldl (fun s x =>
                  let pinned := match pins[x.2]? with
                    | some q => q.2.1 != 0
                    | none => false
                  s.pilRecord 2 tenant (b2n pinned) x.2 seq node (mask x.1)) s

/-- Reserve a STACK node: from the serving reserve for a step graph when every
stack's reserve has room, else from the graph pool (09 R291). -/
def State.reserveStack (s : State) (seq node tenant : Nat) (n : NodeSt) (step : Bool) : State :=
  let mask := ndMask n.w
  let k := ndSlots n.w
  let unfit := (!s.poolFits mask k false false && !(step && s.poolFits mask k true false))
    || (stacksOf mask).any (fun _ => decide (s.quotaField tenant 0x06 2 < k))
    || s.memopsUnfit tenant (ndMemops n.w)
  if unfit then s.failNode seq node ST_GRAPH_UNFIT
  else
    let res := step && s.poolFits mask k true true
    if !(res || s.poolFits mask k false true) || !s.slotQuotaFits tenant mask k
        || !s.memopsFit tenant (ndMemops n.w) then s.cntMod 17 1
    else s.reserve seq node tenant (fun n => { n with reserve := res })

/-- Reserve a DMA node. -/
def State.reserveDma (s : State) (seq node tenant : Nat) (n : NodeSt) : State :=
  if s.memopsUnfit tenant (ndMemops n.w) then s.failNode seq node ST_GRAPH_UNFIT
  else if !s.memopsFit tenant (ndMemops n.w) then s.cntMod 17 1
  else s.reserve seq node tenant id

/-! ### Dispatch, steps 3 to 5 (R243 to R245, R251, R252) -/

/-- The decision that a node dispatches next, as the logbook records it (17 R545). -/
def dispatchWord (seq node : Nat) : Nat := seq % 2 ^ 48 + 2 ^ 48 * node

/-- A node is dispatched: traced and counted, and it runs from now. While another
graph has a dispatched unit, neither launch is a solo launch (14 R462). -/
def State.noteDispatch (s : State) (seq node : Nat) : State :=
  match s.nodeOf seq node with
  | none => s
  | some n =>
    let k := ndKind n.w
    let s := s.traceCentral 0 0x10 4 0 (ndTag n.w)
      (seq + 2 ^ 64 * node + 2 ^ 78 * k + 2 ^ 82 * b2n (n.form == some true)
        + 2 ^ 96 * (if k = 4 then n.cls / 4 else 0))
    let s := (s.cntMod (6 + k) 1).logDecision 0x601 [dispatchWord seq node]
    let s := s.updNode seq node (fun n => { n with phase := .running, dispatchedAt := s.time })
    let s := s.updGraph seq (fun g =>
      { g with lastEvent := s.time, startedAt := some (g.startedAt.getD s.time) })
    let busy := (s.graph.graphs.filter (fun g => g.2.nodes.any (fun n => n.2.dispatched))).map Prod.fst
    if busy.length ≤ 1 then s
    else busy.foldl (fun s q => s.updGraph q (fun g => { g with soloRun := false })) s

/-- What a tile's memories hold at a node's start is not defined where the last
holder was of the same tenant: every byte becomes a free value (R252). -/
def State.scrambleTile (s : State) (t : Nat) : State :=
  let (bs, s) := s.freshBytes 0x38000
  { s with mem := Mem.writeBytes s.mem (tileBase t) bs }

/-- A tile passes to its new holder: its memories are zeroed if its last holder was
another tenant, and not defined if it was the same (R252). -/
def State.takeTile (s : State) (t tenant : Nat) : State :=
  let s := match (s.tile t).lastHolder with
    | some h => if h = tenant then s.scrambleTile t else s.zeroFillTile t
    | none => s
  s.updTile t (fun x => { x with lastHolder := some tenant })

/-- Init entries of every stage, in order. -/
def State.readInits (tenant : Nat) : List Nat → State → Except Status (List (Nat × Nat)) × State
  | [], s => (.ok [], s)
  | e :: r, s =>
    match s.readTable tenant (sgInit e) 8 (sgInitCnt e) with
    | (.error st, s) => (.error st, s)
    | (.ok ws, s) =>
      if ws.any (fun w => bits w 17 15 != 0) then (.error ST_GRAPH_FMT, s)
      else
        match State.readInits tenant r s with
        | (.ok rest, s) => (.ok (ws.map (fun w => (bits w 0 17, bits w 32 32)) ++ rest), s)
        | (.error st, s) => (.error st, s)

/-- Apply init entries; one naming another tenant's object ends with the
isolation status. -/
def State.applyInits (tenant : Nat) : List (Nat × Nat) → State → Option Status × State
  | [], s => (none, s)
  | (so, v) :: r, s =>
    if s.soAllowed tenant so then State.applyInits tenant r (s.soSet so v)
    else (some ST_ISO_SYNC, s.soBlocked 10 0 tenant so)

/-- One relocated generator entry (R245): none if its index is beyond the target
stage. -/
def relocate (stages : List (List Nat)) (e self n ag : Nat) : Option Nat :=
  if !bit (sgRelMask e) n then some ag
  else
    let k := bits ag 18 12 + (if bit (sgRelAdd e) n then self else 0)
    (((stages[sgRelTgt e n]?).getD [])[k]?).map (fun t => setBits ag 18 12 t)

/-- Write the copy of one descriptor's generator table at `dst`. -/
def State.copyTable (s : State) (tenant : Nat) (stages : List (List Nat)) (e self desc dst : Nat) :
    Option Status × State :=
  match s.readTable tenant desc 256 1 with
  | (.error st, s) => (some st, s)
  | (.ok ds, s) =>
    let d := (ds.head?).getD 0
    match s.readTable tenant (byteField d 0x38 6) 64 (min 16 (descAgCnt d)) with
    | (.error st, s) => (some st, s)
    | (.ok ags, s) =>
      match (ags.zipIdx).mapM (fun x => relocate stages e self x.2 x.1) with
      | none => (some ST_GRAPH_REL, s)
      | some ags => (none, s.resvWrite 64 dst (ags.flatMap (bytesOfNat 64)))

/-- Addresses of a stage's descriptors for tile k. -/
def stageDesc (e k j : Nat) : Nat :=
  sgDesc e + 256 * (if sgShared e then j else k * sgCount e + j)

/-- Write every copy of a stage from `dst` on. -/
def State.copyStage (s : State) (tenant : Nat) (stages : List (List Nat)) (e dst : Nat) :
    Option Status × State :=
  let one := sgShared e && sgRelAdd e == 0
  (List.range (stageCopies e)).foldl (fun (r : Option Status × State) i =>
    match r with
    | (some st, s) => (some st, s)
    | (none, s) =>
      let k := if one then 0 else i / sgCount e
      let j := if one then i else i % sgCount e
      s.copyTable tenant stages e k (stageDesc e k j) (dst + 1024 * i)) (none, s)

/-- Write every copy of a node; the answer gives the stages' first copies. -/
def State.copyStages (tenant : Nat) (stages : List (List Nat)) :
    List Nat → Nat → List Nat → State → Except Status (List Nat) × State
  | [], _, acc, s => (.ok acc, s)
  | e :: r, dst, acc, s =>
    match s.copyStage tenant stages e dst with
    | (some st, s) => (.error st, s)
    | (none, s) => State.copyStages tenant stages r (dst + 1024 * stageCopies e) (acc ++ [dst]) s

/-- Invalidate the lines of a range in a tile's descriptor cache: unlocked ones at
once, locked ones at their release. -/
def Tile.dropLines (x : Tile) (base n : Nat) : Tile :=
  let hit (l : CacheLine) : Bool := decide (base ≤ l.addr) && decide (l.addr < base + n)
  { x with cache := (x.cache.filter (fun l => !(hit l) || l.lockAct || l.lockPend)).map (fun l =>
      if hit l then { l with inval := true } else l) }

/-- Load and start descriptor 0 of a tile. -/
def State.startJob (s : State) (t : Nat) (j : TileJob) : State :=
  let s := s.updTile t (fun x =>
    { (if x.mode = .idle then { x with pendValid := false } else x) with job := some j, unitEnded := none })
  let s := s.loadNext t
  let x := s.tile t
  if x.mode = .idle ∧ x.pendValid then s.startPending t false else s

/-- Jobs of a node's tiles: tile, stage entry, stage, stage index, first copy. -/
def nodeJobs (seq node : Nat) (stages : List (List Nat)) (es cps : List Nat) : List (Nat × TileJob) :=
  ((stages.zip es).zip cps).zipIdx.flatMap (fun x =>
    let ts := x.1.1.1
    let e := x.1.1.2
    let c := x.1.2
    let one := sgShared e && sgRelAdd e == 0
    ts.zipIdx.map (fun t =>
      (t.1, { seq := seq, node := node, stage := x.2, desc := 0, next := 0, count := sgCount e,
              done := 0, flags := 0, base := stageDesc e t.2 0, live := byteField e 0x2C 16,
              agt := (List.range (sgCount e)).map (fun j =>
                c + 1024 * (if one then j else t.2 * sgCount e + j)) })))

/-- Steps 3 to 5 for a TILE node. -/
def State.startTiles (s : State) (seq node tenant : Nat) (n : NodeSt) : State :=
  match s.readTable tenant (ndWork n.w) 64 (ndStages n.w) with
  | (.error e, s) => (s.failNode seq node e).cntMod 18 1
  | (.ok es, s) =>
    if !es.all (stageOk (ndStages n.w)) then (s.failNode seq node ST_GRAPH_FMT).cntMod 18 1
    else
      match State.readInits tenant es s with
      | (.error e, s) => (s.failNode seq node e).cntMod 18 1
      | (.ok inits, s) =>
        match State.copyStages tenant n.stages es n.areaBase [] s with
        | (.error e, s) => (s.failNode seq node e).cntMod 18 1
        | (.ok cps, s) =>
          let s := n.held.foldl (fun s t => s.updTile t (fun x => x.dropLines n.areaBase n.areaSize)) s
          match State.applyInits tenant inits s with
          | (some e, s) => (s.failNode seq node e).cntMod 19 1
          | (none, s) =>
            let s := n.held.foldl (fun s t => s.takeTile t tenant) s
            let s := s.noteDispatch seq node
            (nodeJobs seq node n.stages es cps).foldl (fun s j => s.startJob j.1 j.2) s

/-- Steps 3 to 5 for a STACK node: its whole chain is read and checked, then a
context of the chain engine runs it (09 R297, R311). -/
def State.startChain (s : State) (seq node tenant : Nat) (n : NodeSt) : State :=
  let a := if ndKind n.w = 4 then ndAlt n.w else ndWork n.w
  let bad (st : Status) (stack idx : Nat) (s : State) : State :=
    let s := s.updStack stack (fun u => { u with errStatus := st, errIndex := BitVec.ofNat 12 idx })
    (s.failGraph seq st node (failUnit 2 stack)).cntMod 18 1
  match s.readChain tenant a with
  | (.error (e, i), s) => bad e (((stacksOf (ndMask n.w)).head?).getD 0) i s
  | (.ok ds, s) =>
    match State.chainCheck tenant (ndMask n.w) (ndSlots n.w) ds 0 s with
    | (some (e, st, i), s) => bad e st i s
    | (none, s) =>
      let c : StackChain :=
        { seq := seq, node := node, tenant := tenant, mask := ndMask n.w, slots := ndSlots n.w,
          descs := ds, next := 0, running := [], completed := 0, flags := 0, waitSent := false,
          waitDone := false, failed := none, stopped := false, startAt := [],
          lastProgress := s.time, vb := [], macs := 0 }
      let k := s.stks.nextChain
      let s := { s with stks := { s.stks with
        chains := Table.put s.stks.chains k c, nextChain := k + 1 } }
      s.noteDispatch seq node

/-- Steps 3 to 5 for a DMA node. -/
def State.startDma (s : State) (seq node tenant : Nat) (n : NodeSt) : State :=
  match s.readList tenant (ndWork n.w) with
  | (.error e, s) => (s.failGraph seq e node (failUnit 3 0)).cntMod 18 1
  | (.ok h, s) => (s.dmaSubmit seq node tenant h).noteDispatch seq node

/-- Steps 3 to 5 of a reserved node. A node with tiles of a quay that is parked or
being unparked, or whose control core is restarting, waits for it (02 R73,
19 R600). -/
def State.continueDispatch (s : State) (seq node : Nat) : State :=
  match s.graphOf seq, s.nodeOf seq node with
  | some g, some n =>
    let away := n.held.any (fun t =>
      (s.quay (t / 64)).parked || (s.quay (t / 64)).pace.unparking || !s.coreRuns (t / 64))
    if n.phase != .reserved || away then s
    else if n.isTile then s.startTiles seq node g.tenant n
    else if n.isStack then s.startChain seq node g.tenant n
    else s.startDma seq node g.tenant n
  | _, _ => s

/-! ### SYNC nodes and restored nodes -/

/-- Perform the operation of a SYNC node. -/
def State.dispatchSync (s : State) (seq node tenant : Nat) (n : NodeSt) : State :=
  let so := ndSo n.w
  let v := ndSyncValue n.w
  if !s.soAllowed tenant so then (s.soBlocked 10 0 tenant so).failNode seq node ST_ISO_SYNC
  else
    let u := SyncUnit.node seq node
    let s := s.noteDispatch seq node
    match ndSyncOp n.w with
    | 0 => (s.soSignal so v).wake u 0
    | 3 => (s.soSet so v).wake u 0
    | 4 => (s.soDec so v).wake u 0
    | k =>
      match s.soWait so v (k == 2) u with
      | .passed s => s.wake u 0
      | .waits s => s

/-- Every tile of the groups a list of tiles lies in. -/
def wholeGroups (ts : List Nat) : List Nat :=
  ((ts.map (fun t => t / 8)).eraseDups).flatMap (fun g => (List.range 8).map (fun i => g * 8 + i))

/-- A spilled node takes exactly its former tiles and its memory operations again,
and its live sets begin to be copied back (14 R460). -/
def State.reserveSpilled (s : State) (seq node tenant : Nat) (n : NodeSt) : State :=
  let ts := wholeGroups n.stages.flatten
  let taken := s.takenTiles seq node
  if ts.any (fun t => (s.quay (t / 64)).outOfService || !(s.quay (t / 64)).inService) then
    s.failNode seq node ST_QUAY_OUT_OF_SERVICE
  else if ts.any (fun t => taken.contains t) || !s.memopsFit tenant (ndMemops n.w)
      || decide (s.quotaField tenant 0x04 2 < s.tilesTenant tenant + ts.length) then s.cntMod 17 1
  else
    let s := s.updNode seq node (fun n =>
      { n with phase := .restoring, held := ts, memops := ndMemops n.w, reservedAt := s.time, claim := [] })
    ts.foldl (fun s t => (s.updTile t (fun x =>
      { x with owner := some tenant, job := none, unitEnded := none })).takeTile t tenant) s

/-- NODE_DISPATCH: a ready node is considered in the ready order: what its first
consideration reads, its reservation, and the steps of R251. `cands` are
placements the Pilot considers and `rows` the grid rows nearest each stage's
weights: the best candidate by R273 is taken. -/
def execNodeDispatch (seq node t : Nat) (cands : List Placement) (rows : List (Option Nat))
    (s : State) : Out :=
  let s := s.at t
  match s.graphOf seq, s.nodeOf seq node with
  | some g, some n =>
    if g.failing.isSome then .next s
    else if !s.decisionAllowed 0x601 (dispatchWord seq node) then .next s
    else if n.phase == .reserved then .next (s.continueDispatch seq node)
    else if !(s.readyOrder).contains (seq, node) || !s.headAllows seq node (ndKind n.w) then .next s
    else if n.phase == .spilled then .next (s.reserveSpilled seq node g.tenant n)
    else if ndKind n.w = 6 then .next ((s.noteDispatch seq node).completeNode seq node)
    else if ndKind n.w = 5 then .next (s.dispatchSync seq node g.tenant n)
    else
      let s := s.firstLook seq node g.tenant n
      match s.graphOf seq, s.nodeOf seq node with
      | some g, some n =>
        if g.failing.isSome then .next s
        else
          let s :=
            if n.isTile then s.reserveTiles seq node g.tenant n cands rows
            else if n.isStack then s.reserveStack seq node g.tenant n g.step
            else s.reserveDma seq node g.tenant n
          .next (s.continueDispatch seq node)
      | _, _ => .next s
  | _, _ => .next s

/-- NODE_HEAD: the first node in the ready order that has been ready for 1 ms is
the head (R247). -/
def execNodeHead (t : Nat) (s : State) : Out :=
  let s := s.at t
  let h := s.headNode
  if h = s.graph.head then .next s
  else
    let s := { s with graph := { s.graph with head := h } }
    .next (if h.isSome then s.cntMod 21 1 else s)

/-- DISPATCH_TIMEOUT: steps 3 to 5 of a dispatch have passed their limits, 90 µs
in all, with every quay of the node awake: the reservation is released and the
node fails (R251). -/
def execDispatchTimeout (seq node t : Nat) (s : State) : Out :=
  let s := s.at t
  match s.nodeOf seq node with
  | some n =>
    let away := n.held.any (fun t =>
      (s.quay (t / 64)).parked || (s.quay (t / 64)).pace.unparking || !s.coreRuns (t / 64))
    if n.phase == .reserved && !away && decide (n.reservedAt + usTicks 90 ≤ s.time) then
      .next ((s.failNode seq node ST_GRAPH_DISPATCH_TIMEOUT).cntMod 20 1)
    else .next s
  | none => .next s

/-! ### Completion and failure (R254 to R258) -/

/-- The chain of a node. -/
def State.chainOf (s : State) (seq node : Nat) : Option StackChain :=
  (s.stks.chains.find? (fun c => c.2.seq == seq && c.2.node == node)).map Prod.snd

/-- What a node's unit that ended reports: `none` while it has not ended. -/
def State.unitResult (s : State) (seq node : Nat) (n : NodeSt) : Option (Status × Nat × BitVec 8) :=
  if n.phase != .running then none
  else if n.isTile then
    match n.held.filter (fun t => ((s.tile t).unitEnded.getD 0) != 0) with
    | t :: r =>
      let u := r.foldl min t
      some (((s.tile u).unitEnded).getD 0, failUnit 1 u, 0)
    | [] =>
      if n.held.all (fun t => (s.tile t).jobEnded && (s.tile t).atRest) then some (0, 0, 0) else none
  else if n.isStack then
    match s.chainOf seq node with
    | some c =>
      (match c.failed with
       | some (e, st, _) => if c.stopped then some (e, failUnit 2 st, 0) else none
       | none => if c.completed = c.descs.length then some (0, 0, 0) else none)
    | none => none
  else if ndKind n.w = 5 then
    (s.sync.woken.find? (fun w => w.1 == .node seq node)).map (fun w => (w.2, failUnit 4 0, 0))
  else
    (s.dma.ended.find? (fun e => e.1 == seq && e.2.1 == node)).map (fun e => (e.2.2.1, failUnit 3 0, e.2.2.2))

/-- The report of a node's unit has been taken. -/
def State.takeReport (s : State) (seq node : Nat) (fl : BitVec 8) : State :=
  let s := { s with
    sync := { s.sync with woken := s.sync.woken.filter (fun w => w.1 != SyncUnit.node seq node) }
    dma := { s.dma with ended := s.dma.ended.filter (fun e => !(e.1 == seq && e.2.1 == node)) } }
  s.updGraph seq (fun g => { g with flags := g.flags ||| fl })

/-- NODE_COMPLETE: every unit of a node has ended well; the node is released and
its successors lose one in-degree per edge. In a graph that fails, a node whose
units have stopped is released (R254, R255). -/
def execNodeComplete (seq node : Nat) (s : State) : Out :=
  match s.graphOf seq, s.nodeOf seq node with
  | some g, some n =>
    if g.failing.isSome then
      .next (if n.phase == .running && s.nodeStopped seq node then
        ((s.takeReport seq node 0).releaseNode seq node).cntMod 31 1 else s)
    else
      match s.unitResult seq node n with
      | some (st, _, fl) =>
        .next (if st = 0 then (s.takeReport seq node fl).completeNode seq node else s)
      | none => .next s
  | _, _ => .next s

/-- UNIT_FAILURE: a unit of a node has ended with a non-zero status: the node
fails, and the graph's other units are stopped (R255). -/
def execUnitFailure (seq node : Nat) (s : State) : Out :=
  match s.graphOf seq, s.nodeOf seq node with
  | some g, some n =>
    if g.failing.isSome then .next s
    else
      match s.unitResult seq node n with
      | some (st, u, fl) =>
        .next (if st = 0 then s else (s.takeReport seq node fl).failGraph seq st node u)
      | none => .next s
  | _, _ => .next s

/-- May an entry complete: all its nodes ended; when it fails, all stopped; for
UNLOAD, no earlier launch of the handle left. -/
def State.mayComplete (s : State) (seq : Nat) (g : GraphRun) : Bool :=
  if g.failing.isSome then g.nodes.all (fun n => s.nodeStopped seq n.1)
  else if g.op = 3 then
    !(s.graph.graphs.any (fun o => decide (o.1 < seq) && o.2.op == 2 && o.2.handle == g.handle))
  else g.nodes.all (fun n => n.2.phase == .ended)

/-- Write the completion record (R257); one that cannot be written is reported as
an event with its status. -/
def State.writeRecord (s : State) (seq : Nat) (g : GraphRun) : State :=
  let e := g.entry.toNat
  let (st, fn, fu) := g.failing.getD (0, 0xFFFF, 0)
  if !entRecEn e then s
  else
    let rcd := bytesOfNat 3 0x430401 ++ bytesOfNat 1 (entOp e) ++ bytesOfNat 2 st.toNat
      ++ bytesOfNat 1 g.flags.toNat ++ bytesOfNat 1 0 ++ bytesOfNat 4 (entTag e) ++ bytesOfNat 2 fn
      ++ bytesOfNat 2 fu ++ bytesOfNat 8 seq
      ++ bytesOfNat 2 (if g.op = 1 then g.handle.getD 0 else 0) ++ bytesOfNat 2 0 ++ bytesOfNat 4 s.time
    if entRecHost e then s.hostWrite (entRec e) rcd
    else
      match s.accessRecord 10 0 g.tenant true (entRec e) 32 with
      | (none, s) => s.writeMem (entRec e) rcd
      | (some _, s) => s.raise st 10 0 (some g.tenant) (entRec e)

/-- The solo estimate and the slowdown sums of a LAUNCH that completes (14 R462,
R463). -/
def State.noteLaunch (s : State) (g : GraphRun) : State :=
  match g.handle, g.startedAt with
  | some h, some t0 =>
    if g.op ≠ 2 ∨ g.failing.isSome then s
    else
      match Table.find s.graph.residents h with
      | none => s
      | some r =>
        let d := s.time - t0
        let r' : ResidentGraph :=
          if g.soloRun then
            let best := if r.verified then min d (r.solo.getD d) else d
            { r with verified := true, solo := some best }
          else if r.verified then r
          else { r with solo := some (min d (r.solo.getD d)) }
        let x := Table.getD s.serving.tenants g.tenant SrvTenant.reset
        let x := { x with meas := x.meas + d, solo := x.solo + r'.solo.getD d }
        { s with
          graph := { s.graph with residents := Table.put s.graph.residents h r' }
          serving := { s.serving with tenants := Table.put s.serving.tenants g.tenant x } }
  | _, _ => s

/-- GRAPH_COMPLETE: an entry completes: its record is written, then DONE_SO is
incremented, whatever the status; its slots are free (R256 to R258). -/
def execGraphComplete (seq t : Nat) (s : State) : Out :=
  let s := s.at t
  match s.graphOf seq with
  | none => .next s
  | some g =>
    if !s.mayComplete seq g then .next s
    else
      let s := (g.nodes.filter (fun n => n.2.phase != .ended)).foldl (fun s n => s.releaseNode seq n.1) s
      let g := (s.graphOf seq).getD g
      let st := (g.failing.map (fun f => f.1)).getD 0
      let s := s.writeRecord seq g
      let e := g.entry.toNat
      let s := if entDoneEn e then s.signalChecked 10 0 g.tenant (entDoneSo e) else s
      let s := s.noteLaunch g
      let s := s.traceCentral 1 0x12 4 0 g.tag.toNat (seq + 2 ^ 64 * st.toNat)
      let s := s.cntMod (if st = 0 then 5 else 6) 1
      let res := match g.op, g.failing, g.handle with
        | 3, none, some h => Table.del s.graph.residents h
        | _, _, _ => s.graph.residents
      let fl := s.serving.inFlight.map (fun (x : SrvStep) =>
        if x.seq = some seq then { x with result := some st } else x)
      let s := { s with
        serving := { s.serving with inFlight := fl }
        graph := { s.graph with graphs := Table.del s.graph.graphs seq, residents := res } }
      .next s.noteReady

/-- GRAPH_WATCHDOG: a graph's stall timer reaches WD_MS: among it and the graphs of
its tenant stalled for 1 ms or more, the youngest fails (R261, R262). The timers
are held at 0 during a firmware load or update (19 R597, R600). -/
def execGraphWatchdog (seq t : Nat) (s : State) : Out :=
  let s := s.at t
  match s.graphOf seq with
  | none => .next s
  | some g =>
    if s.fw.state = 1 ∨ s.fw.state = 3 then .next s
    else if !(s.graphStalled seq g && decide (s.stalledSince seq g + msTicks (entWd g.entry.toNat) ≤ s.time)) then
      .next s
    else
      let also := s.graph.graphs.filter (fun o => o.2.tenant == g.tenant && s.graphStalled o.1 o.2
        && decide (s.stalledSince o.1 o.2 + msTicks 1 ≤ s.time))
      let v := (also.map Prod.fst).foldl max seq
      match s.graphOf v with
      | some x =>
        let (n, u) := s.firstWait v x
        if !s.decisionAllowed 0x601 (2 ^ 63 + v) then .next s
        else .next (((s.logDecision 0x601 [2 ^ 63 + v]).failGraph v ST_GRAPH_WATCHDOG n u).cntMod 13 1)
      | none => .next s

end Sys2Proof.Machine
end

