-- ==== Sys2Proof/Machine/PaceOps.lean ====
section
/-! DEFINITION. Shared operations on pace and supply: the factors of the pace
formula, the running of the firmware cores, and applying the limits of a quay
(chapters 02, 19 and 20). -/

namespace Sys2Proof.Machine

/-! ### Factors (R59 to R61) -/

/-- Rows of the supply table from 550 mV on, 25 mV apart, in 1/1,000. -/
def kvRows : List Nat := [492, 573, 647, 715, 778, 838, 894, 948, 1000, 1050, 1098, 1144, 1189]

/-- kV at a supply in mV, in units of 1/25,000, interpolated linearly (R60). -/
def kvOf (mv : Nat) : Nat :=
  if mv < 550 ∨ 850 < mv then Config.kvOutside mv
  else
    let i := (mv - 550) / 25
    let a := (kvRows[i]?).getD 1189
    let b := (kvRows[i + 1]?).getD 1189
    25 * a + (b - a) * ((mv - 550) % 25)

/-- Supply of a STEP in mV (R69). -/
def stepMv (step : Nat) : Nat := 500 + 5 * step

/-- kT at a temperature in 1/16 °C, in units of 1/16,000 (R61). -/
def ktOf (t16 : Int) : Nat := if t16 < 400 then 16640 else (16000 - (t16 - 1040)).toNat

/-- P of R59 in 4.12 fixed point, to the nearest. -/
def pacePred (spread mv : Nat) (t16 : Int) : Nat :=
  -- 1.60 × 4,096 = 65,536 / 10
  let n := 65536 * spread * kvOf mv * ktOf t16
  let d := 10 * 32768 * 25000 * 16000
  (2 * n + d) / (2 * d)

/-! ### Supply and issue rate of a quay (R69 to R74, 20 R624) -/

/-- Clamp of a STEP. -/
def stepClamp (v : Nat) : Nat := max 10 (min 70 v)

/-- Set STEP: the supply starts to move. -/
def State.setStep (s : State) (q v : Nat) : State :=
  if (s.quay q).pace.step.toNat = v then s
  else (s.updPace q (fun p => { p with step := BitVec.ofNat 7 v, slewing := true })).cntQuay q 62 1

/-- Apply the lowest of the values that apply to a quay (20 R624). -/
def State.applyLimits (s : State) (q : Nat) : State :=
  let l := (s.quay q).limits
  let s := s.setStep q (min l.reqStep (min l.pwrStep l.thmStep))
  s.updPace q (fun p => { p with issueN := BitVec.ofNat 7 (min l.reqIssue (min l.pwrIssue l.thmIssue)) })

/-- The lowest step not below `g` whose kV is at least 0.9 of that of step `c`
(R72). -/
def stageStep (c g : Nat) : Nat :=
  if c ≤ g then g
  else ((List.range (c - g)).map (g + ·)).find? (fun v =>
    decide (9 * kvOf (stepMv c) ≤ 10 * kvOf (stepMv v))) |>.getD (c - 1)

/-- Write the next stage of a requested lowering, once the previous one has
settled and 1 ms after it (R72). -/
def State.nextStage (s : State) (q : Nat) : State :=
  let p := (s.quay q).pace
  match p.stageTarget with
  | none => s
  | some g =>
    if p.slewing ∨ s.time < p.stageAt + msTicks 1 then s
    else
      let v := stageStep (s.quay q).limits.reqStep g
      let s := s.updQuay q (fun x => { x with limits := { x.limits with reqStep := v } })
      let s := s.updPace q (fun p =>
        { p with stageAt := s.time, stageTarget := if v = g then none else some g })
      s.applyLimits q

/-- Request a step and an issue rate for a quay: a higher supply at once, a lower
one in stages (R72). -/
def State.requestPace (s : State) (q step issue : Nat) : State :=
  let s := s.updQuay q (fun x => { x with limits := { x.limits with reqIssue := issue } })
  let cur := (s.quay q).limits.reqStep
  if cur ≤ step then
    let s := s.updQuay q (fun x => { x with limits := { x.limits with reqStep := step } })
    (s.updPace q (fun p => { p with stageTarget := none })).applyLimits q
  else ((s.updPace q (fun p => { p with stageTarget := some step })).nextStage q).applyLimits q

/-- The issue rate in force at a quay with the hardware clamps of 20 R622, R623
and R629. -/
def State.issueInForce (s : State) (q : Nat) : Nat :=
  let n := (s.quay q).pace.issueN.toNat
  let n := if n = 0 then 1 else min n 64
  let back := (Table.getD s.thermal.nodes q ThermNode.reset).backstop
  let n := min n s.power.clamp
  let n := if s.power.icur ∨ back then min n 16 else n
  if s.thermal.shutAt.isSome then 0 else n

end Sys2Proof.Machine
end

