-- ==== Sys2Proof/Machine/Pace.lean ====
section
/-! DEFINITION. The commands of pace and supply: the end of a monitor window,
predictions, supply and issue writes, parking, and the loss of the reference
oscillator (chapter 02). -/

namespace Sys2Proof.Machine

/-- Does a fall of more than 12 % within 1 ms stand in the windows kept? -/
def fellWithin (recent : List (Nat × Nat)) (now cur : Nat) : Bool :=
  recent.any (fun w => decide (now < w.1 + msTicks 1) && decide (100 * cur < 88 * w.2))

/-- Is one of the exceptions of R84 in force at a quay? -/
def State.paceException (s : State) (q : Nat) : Bool :=
  decide (100000000000 ≤ (Table.getD s.thermal.nodes q ThermNode.reset).temp) || decide (s.power.clamp < 64)
    || s.power.icur || s.thermal.shutAt.isSome

/-- PACE_WINDOW_END (R64 to R68, R84): a window of quay `q` (64: the central
supply, R77) ends at time `t` with measured pace `cur` and supply `mv`. -/
def execPaceWindowEnd (q cur mv t : Nat) (s : State) : Out :=
  let s := s.at t
  let c := BitVec.ofNat 16 cur
  if q = 64 then .next { s with central := { valid := true, refRing := s.onRing, cur := c } }
  else
    let x := s.quay q
    if x.parked ∨ ¬ x.inService then .next s
    else
      let low := decide (100 * c.toNat < 96 * x.pace.pred.toNat)
      let n := if low then x.pace.lowWindows + 1 else 0
      let fell := fellWithin x.pace.recent s.time c.toNat && s.paceException q
      let recent := (s.time, c.toNat) :: x.pace.recent.filter (fun w => decide (s.time < w.1 + msTicks 1))
      let s := s.updPace q (fun p =>
        { p with
          valid := true, refRing := s.onRing, cur := c, vmeas := BitVec.ofNat 10 mv
          max := if p.max.toNat < c.toNat then c else p.max
          min := if c.toNat < p.min.toNat then c else p.min
          lowWindows := n, lowPace := p.lowPace || decide (8 ≤ n)
          paceStep := p.paceStep || fell, fell := fell, recent := recent })
      let s := (s.cntQuay q 58 1).cntQuay q 59 (if low then 1 else 0)
      let s := if n = 8 then s.raise ST_PACE_LOW 1 q none 0 else s
      .next (if fell && !x.pace.fell then s.raise ST_PACE_STEP 1 q none 0 else s)

/-- PACE_PRED_UPDATE (R68, 20 R627): the power-management core writes the
prediction and the modelled temperature of a quay. -/
def execPacePredUpdate (q : Nat) (s : State) : Out :=
  if s.coreRuns 65 then
    let t := (Table.getD s.thermal.nodes q ThermNode.reset).temp
    let t16 := t * 16 / 1000000000
    .next (s.updPace q (fun p =>
      { p with tj := BitVec.ofInt 16 t16,
               pred := BitVec.ofNat 16 (pacePred (Config.paceTrim q).toNat p.vmeas.toNat t16) }))
  else .next s

/-- PACE_VSET_STEP_WRITE (R71, R72): only the power-management core writes. -/
def execPaceVsetStepWrite (r : Requester) (q v : Nat) (s : State) : Out :=
  if r = .power then
    let v := v % 128
    let s := if stepClamp v = v then s else s.updPace q (fun p => { p with vsetClamped := true })
    .next (s.setStep q (stepClamp v))
  else .next s

/-- SUPPLY_SETTLED (R72): the supply of a quay has settled at its target. -/
def execSupplySettled (q t : Nat) (s : State) : Out :=
  let s := (s.at t).updPace q (fun p => { p with slewing := false })
  .next (if s.coreRuns 65 then s.nextStage q else s)

/-- Append a PARK or UNPARK record to a quay's unit, any DROP that is due before
it (22 R668, R670). -/
def State.tracePark (s : State) (q ty data : Nat) : State :=
  let u := s.unit q
  if !u.en then s
  else
    let due := u.discarding && decide (0 < u.dropCount)
    let u := if due then
        { u with buffer := u.buffer ++ [u.dropRec s.replaying 0 q s.time], dropCount := 0, dropTime := 0 }
      else u
    s.setUnit q { u with
      buffer := u.buffer ++ [traceRec ty false s.replaying 0 q 0 s.time data]
      parkedMark := ty == 0x20 }

/-- PARK (R73): the power-management core gates the supply of a quay that holds
no work; its tile memories are lost. -/
def execPark (r : Requester) (q t : Nat) (s : State) : Out :=
  let s := s.at t
  let x := s.quay q
  let busy := s.heldTiles.any (fun t => t / 64 == q)
  if r = .power ∧ ¬ x.parked ∧ ¬ busy then
    let s := s.updPace q (fun p => { p with park := true, valid := false, unparking := false, recent := [] })
    let s := s.updQuay q (fun x => { x with parked := true })
    let s := (List.range 64).foldl (fun s i => s.poisonTile (q * 64 + i)) s
    let u := s.unit q
    let s := s.setUnit q { u with parks := u.parks + 1, parkTime := s.time }
    .next ((s.tracePark q 0x20 (u.parks.toNat + 1)).cntQuay q 56 1)
  else .next s

/-- UNPARK (R73): PARK is cleared; the supply returns and the poison fill of the
quay's tile memories begins. -/
def execUnpark (r : Requester) (q t : Nat) (s : State) : Out :=
  let s := s.at t
  if r = .power ∧ (s.quay q).pace.park then
    .next (s.updPace q (fun p => { p with park := false, unparking := true }))
  else .next s

/-- UNPARK_READY (R73): the quay is ready for dispatch, and the dispatches that
waited for it go on. -/
def execUnparkReady (q t : Nat) (s : State) : Out :=
  let s := s.at t
  if (s.quay q).pace.unparking then
    let s := s.updPace q (fun p => { p with unparking := false })
    let s := s.updQuay q (fun x => { x with parked := false })
    let u := s.unit q
    let s := (s.tracePark q 0x21 (s.time - u.parkTime)).cntQuay q 57 (s.time - u.parkTime)
    let waits := s.graph.graphs.flatMap (fun g => (g.2.nodes.filter (fun n =>
      n.2.phase == .reserved && n.2.held.any (fun t => t / 64 == q))).map (fun n => (g.1, n.1)))
    .next (waits.foldl (fun s w => s.continueDispatch w.1 w.2) s)
  else .next s

/-- PACE_ISSUE_WRITE (R70, R71). -/
def execPaceIssueWrite (r : Requester) (q v : Nat) (s : State) : Out :=
  if r = .power then .next (s.updPace q (fun p => { p with issueN := BitVec.ofNat 7 v })) else .next s

/-- CLR_MINMAX (R70): writing 1 resets PACE_MINMAX. -/
def execClrMinmax (q v : Nat) (s : State) : Out :=
  if bit v 0 then .next (s.updPace q (fun p => { p with max := 0, min := 0xFFFF#16 })) else .next s

/-- REFCLK_LOST (R81): the time base goes on from the ring reference until the
next AUX power-on reset. During a wake the alarm is kept for READY (21 R648). -/
def execRefclkLost (t : Nat) (s : State) : Out :=
  let s := s.at t
  if s.onRing then .next s
  else
    let s := { s with onRing := true, refclkFailSeen := true }
    if s.bring.waking then .next { s with bring := { s.bring with refLost := true } }
    else .next (s.raise ST_REFCLK_LOST 0 0 none 0)

/-! ### Register writes -/

/-- PACE_ registers (02 R69 to R71, R83). -/
def State.writePace (s : State) (r : Requester) (q off v : Nat) : State :=
  match off with
  | 0x010 =>
    let s := Out.state (execPaceVsetStepWrite r q v s) s
    if bit v 16 = (s.quay q).pace.park then s
    else Out.state (if bit v 16 then execPark r q s.time s else execUnpark r q s.time s) s
  | 0x01C => Out.state (execPaceIssueWrite r q v s) s
  | 0x020 => Out.state (execClrMinmax q v s) s
  | 0x024 =>
    s.updPace q (fun p =>
      { p with lowPace := p.lowPace && !bit v 0, vsetClamped := p.vsetClamped && !bit v 2
               paceStep := p.paceStep && !bit v 3 })
  | 0x80C => if q = 0 then { s with refclkFailSeen := s.refclkFailSeen && !bit v 1 } else s
  | _ => s

end Sys2Proof.Machine
end

