-- ==== Sys2Proof/Machine/ServeOps.lean ====
section
/-! DEFINITION. Shared operations of the serving engine: manifest entries and
their cache, models, the order of ready entries, result records, and the moves
of KV caches (chapters 14 and 15). -/

namespace Sys2Proof.Machine

/-! ### Manifest entries (14 R431 to R434) -/

/-- A field of a manifest entry at a byte offset. -/
def SrvEntry.f (e : SrvEntry) (off n : Nat) : Nat := byteField e.w.toNat off n
def SrvEntry.set (e : SrvEntry) (off n v : Nat) : SrvEntry :=
  { e with w := BitVec.ofNat 512 (setBits e.w.toNat (8 * off) (8 * n) v) }

def SrvEntry.state (e : SrvEntry) : Nat := e.f 0 1
def SrvEntry.setState (e : SrvEntry) (v : Nat) : SrvEntry := e.set 0 1 v
/-- EFLAGS bit n. -/
def SrvEntry.flag (e : SrvEntry) (n : Nat) : Bool := bit (e.f 1 1) n
def SrvEntry.setFlag (e : SrvEntry) (n : Nat) (b : Bool) : SrvEntry :=
  e.set 1 1 (setBits (e.f 1 1) n 1 (b2n b))
def SrvEntry.model (e : SrvEntry) : Nat := e.f 2 2 % 4096
def SrvEntry.tenant (e : SrvEntry) : Nat := e.f 4 2 % 1024
def SrvEntry.stage (e : SrvEntry) : Nat := e.f 6 1 % 8
def SrvEntry.prio (e : SrvEntry) : Nat := e.f 7 1 % 8
def SrvEntry.pos (e : SrvEntry) : Nat := e.f 0x0C 4
def SrvEntry.pt (e : SrvEntry) : Nat := e.f 0x20 8 % 2 ^ 48
def SrvEntry.ringBase (e : SrvEntry) : Nat := e.f 0x28 8 / 64 * 64
def SrvEntry.ringLog (e : SrvEntry) : Nat := e.f 0x28 8 % 32
def SrvEntry.tail (e : SrvEntry) : Nat := e.f 0x30 4
def SrvEntry.limit (e : SrvEntry) : Nat := e.f 0x34 4
def SrvEntry.time (e : SrvEntry) : Nat := e.f 0x38 8

/-- An entry that was never written: FREE. -/
def SrvEntry.free : SrvEntry := { w := 0, row := 0, ttl := 0, taken := false, held := false }

def State.srvE (s : State) (i : Nat) : SrvEntry := Table.getD s.serving.entries i SrvEntry.free

/-- Does the entry lie in this module's half, or has it been taken over (16
R515)? -/
def State.srvOwn (s : State) (i : Nat) : Bool :=
  !s.fab.twinMode || i / 524288 == s.ownHarbour || (s.srvE i).taken

/-- The manifest cache takes an entry up; one that leaves it is written back. -/
def State.srvTouch (s : State) (i : Nat) : State :=
  let v := s.serving
  if v.cache.contains i then
    { s with serving := { v with cache := v.cache.filter (· != i) ++ [i], hits := v.hits + 1 } }
  else
    let s := { s with serving := { v with misses := v.misses + 1 } }
    match v.cache with
    | old :: rest =>
      if v.cache.length < 16384 then { s with serving := { s.serving with cache := v.cache ++ [i] } }
      else
        let s := { s with serving := { s.serving with cache := rest ++ [i] } }
        s.resvWrite 64 ((s.resv 0).1 + 64 * old) (bytesOfNat 64 (s.srvE old).w.toNat)
    | [] => { s with serving := { s.serving with cache := [i] } }

/-- Is an entry in the manifest cache? -/
def State.srvCached (s : State) (i : Nat) : Bool := s.serving.cache.contains i

/-- Write an entry; one with MIRRORED whose state, POS, RING_TAIL or RING_LIMIT
changes is streamed to the paired module (16 R517). -/
def State.srvPut (s : State) (i : Nat) (e : SrvEntry) : State :=
  let old := s.srvE i
  let s := s.srvTouch i
  let s := { s with serving := { s.serving with entries := Table.put s.serving.entries i e } }
  if (e.flag 0 || old.flag 0) && (old.state != e.state || old.pos != e.pos || old.tail != e.tail
      || old.limit != e.limit) then
    s.twinSend 1 (bytesOfNat 8 i ++ bytesOfNat 64 e.w.toNat)
  else s

def State.srvUpd (s : State) (i : Nat) (f : SrvEntry → SrvEntry) : State := s.srvPut i (f (s.srvE i))

/-- RING_WAIT stands while RING_TAIL = RING_LIMIT; an entry that it leaves is
ready from now. -/
def SrvEntry.ringWait (e : SrvEntry) (now : Nat) : SrvEntry :=
  let w := decide (e.tail = e.limit)
  let e' := e.setFlag 1 w
  if e.flag 1 && !w && e.state == 2 then e'.set 0x38 8 now else e'

/-- The entry becomes READY now. -/
def SrvEntry.ready (e : SrvEntry) (now : Nat) : SrvEntry := (e.setState 2).set 0x38 8 now

/-- Entries a tenant holds: not FREE, and served by this module. -/
def State.srvUsed (s : State) (tenant : Nat) : Nat :=
  (s.serving.entries.filter (fun (e : Nat × SrvEntry) =>
    e.2.state != 0 && e.2.tenant == tenant && s.srvOwn e.1)).length

def State.srvTenant (s : State) (t : Nat) : SrvTenant := Table.getD s.serving.tenants t SrvTenant.reset
def State.updSrvTenant (s : State) (t : Nat) (f : SrvTenant → SrvTenant) : State :=
  { s with serving := { s.serving with tenants := Table.put s.serving.tenants t (f (s.srvTenant t)) } }

/-- Is a copy of the entry's cache under way? -/
def State.srvCopying (s : State) (i : Nat) : Bool := s.kv.copies.any (fun (c : KvCopy) => c.entry == i)

/-! ### Models (14 R441) -/

def SrvModel.f (m : SrvModel) (off n : Nat) : Nat := byteField m.words.toNat off n
def SrvModel.shared (m : SrvModel) : Bool := bit (m.f 3 1) 0
def SrvModel.stages (m : SrvModel) : Nat := m.f 6 1
def SrvModel.queue (m : SrvModel) : Nat := m.f 8 2 % 8192
def SrvModel.wd (m : SrvModel) : Nat := m.f 0x0A 2
def SrvModel.tag (m : SrvModel) : Nat := m.f 0x0C 4
/-- A field of stage record g. -/
def SrvModel.g (m : SrvModel) (st off n : Nat) : Nat := m.f (64 * (st + 1) + off) n
def SrvModel.bfull (m : SrvModel) (st : Nat) : Nat := m.g st 0 2
def SrvModel.vars (m : SrvModel) (st : Nat) : Nat := m.g st 2 1
def SrvModel.maxWait (m : SrvModel) (st : Nat) : Nat := m.g st 4 4
def SrvModel.block (m : SrvModel) (st slot : Nat) : Nat := m.g st (8 + 8 * slot) 8 % 2 ^ 48
def SrvModel.bmax (m : SrvModel) (st v : Nat) : Nat := m.g st (0x18 + 8 * v) 2
def SrvModel.handle (m : SrvModel) (st v slot : Nat) : Nat := m.g st (0x1A + 8 * v + 2 * slot) 2

def State.srvModel (s : State) (k : Nat) : Option SrvModel := Table.find s.serving.models k

/-! ### Ready entries (14 R442, R443) -/

/-- Ready entries of a group, in order. -/
def State.srvReady (s : State) (model stage : Nat) : List Nat :=
  let es := s.serving.entries.filter (fun (e : Nat × SrvEntry) =>
    e.2.state == 2 && e.2.model == model && e.2.stage == stage && !e.2.flag 1 && !e.2.held
      && s.srvOwn e.1 && !s.srvCopying e.1)
  let before (a b : Nat × SrvEntry) : Bool :=
    decide (b.2.prio < a.2.prio) || (a.2.prio == b.2.prio && (decide (a.2.time < b.2.time) ||
      (a.2.time == b.2.time && (decide (a.2.row < b.2.row) ||
        (a.2.row == b.2.row && decide (a.1 ≤ b.1))))))
  (es.mergeSort before).map Prod.fst

/-- The slot a group's next step takes: 0 before 1. -/
def State.srvSlot (s : State) (model stage : Nat) : Option Nat :=
  (List.range 2).find? (fun k => !(s.serving.inFlight.any (fun (x : SrvStep) =>
    x.model == model && x.stage == stage && x.slot == k)))

/-- Does a group qualify for a launch now? -/
def State.srvQualifies (s : State) (model stage : Nat) (m : SrvModel) : Bool :=
  let r := s.srvReady model stage
  let oldest := (r.map (fun i => (s.srvE i).time)).min?
  (s.srvSlot model stage).isSome && (decide (1 ≤ r.length) &&
    (decide (m.bfull stage ≤ r.length) ||
      (match oldest with
       | some t => decide (t + usTicks (m.maxWait stage) ≤ s.time)
       | none => false)))

/-- Groups that qualify, in the order of their first ready entries. -/
def State.srvGroups (s : State) : List (Nat × Nat) :=
  let all := s.serving.models.flatMap (fun (m : Nat × SrvModel) =>
    ((List.range m.2.stages).filter (fun g => s.srvQualifies m.1 g m.2)).map (fun g => (m.1, g)))
  let key (p : Nat × Nat) : List Nat :=
    match s.srvReady p.1 p.2 with
    | i :: _ =>
      let e := s.srvE i
      [7 - e.prio, e.time, e.row, i]
    | [] => []
  (leastBy (fun i => ((all[i]?).map key).getD []) (List.range all.length)).elim []
    (fun i => (all[i]?).toList)

/-! ### Result records (14 R436, R438) -/

def cmdOp (w : Nat) : Nat := byteField w 3 1
def cmdIndex (w : Nat) : Nat := byteField w 4 4
def cmdArg (w : Nat) : Nat := byteField w 0x0C 4
def cmdRec (w : Nat) : Nat := byteField w 0x10 8

/-- Write the result of a command, or raise its failure as an event where it asks
for no record. `idx` is the entry acted on. -/
def State.srvResult (s : State) (tenant w : Nat) (st : Status) (idx : Option Nat) : State :=
  if cmdRec w = 0 then
    if st = 0 then s else s.raise st 8 0 (some tenant) (idx.getD 0xFFFFFFFF)
  else
    let e := (idx.map s.srvE).getD SrvEntry.free
    s.hostWrite (cmdRec w) (bytesOfNat 3 0x640401 ++ bytesOfNat 1 (cmdOp w) ++ bytesOfNat 2 st.toNat
      ++ bytesOfNat 2 0 ++ bytesOfNat 4 (byteField w 8 4) ++ bytesOfNat 4 (idx.getD 0xFFFFFFFF)
      ++ bytesOfNat 1 e.state ++ bytesOfNat 3 0 ++ bytesOfNat 4 e.tail ++ bytesOfNat 4 e.pos
      ++ bytesOfNat 4 s.time)

/-! ### Lost pages and notices (14 R452) -/

/-- Queue an output descriptor: token, LOGP, status, POS and flags. RING_TAIL,
PHASE and TIME are filled in when it is written. -/
def outWords (token logp st pos tflags tag : Nat) : BitVec 256 :=
  BitVec.ofNat 256 (0x610401 + 2 ^ 24 * tflags + 2 ^ 32 * token + 2 ^ 64 * tag + 2 ^ 128 * pos
    + 2 ^ 160 * logp + 2 ^ 192 * st)

def State.srvQueueOut (s : State) (o : SrvOut) : State :=
  { s with serving := { s.serving with outs := s.serving.outs ++ [o] } }

/-- An entry becomes LOST, and its notice is queued. -/
def State.srvLost (s : State) (i : Nat) : State :=
  let s := s.srvUpd i (fun e => e.setState 5)
  let e := s.srvE i
  s.srvQueueOut { entry := i, words := outWords 0xFFFFFFFF 0 ST_KV_PAGE_LOST.toNat e.pos 0x20 (e.f 8 4),
                  next := 255, tseq := 0, step := none }

/-- A page of an entry is lost: KV_LOST is set, and the entry is LOST at once unless
it is in a step. -/
def State.kvPageLost (s : State) (i : Nat) : State :=
  let s := s.srvUpd i (fun e => e.setFlag 2 true)
  let st := (s.srvE i).state
  if st = 1 ∨ st = 2 ∨ st = 4 then s.srvLost i else s

/-! ### Parked images (15 R485, R486) -/

/-- N_SEG, PAGES and SUMMED of a page table. -/
def State.ptNseg (s : State) (pt : Nat) : Nat := byteField (((s.loadNum pt 64).1).getD 0) 6 1
def State.ptPages (s : State) (pt : Nat) : Nat := byteField (((s.loadNum pt 64).1).getD 0) 8 4
def State.ptSummed (s : State) (pt : Nat) : Nat := byteField (((s.loadNum pt 64).1).getD 0) 0x0C 4
def State.ptParked (s : State) (pt : Nat) : Bool := bit (byteField (((s.loadNum pt 64).1).getD 0) 3 1) 0

/-- Bytes of an image of `pages` pages. -/
def imageBytes (geo pages : Nat) : Nat := 68 * kvD geo * pages * kvHeads geo * kvLayers geo

/-- Parts of a cache: offset in the image, local address and length. Rows that no
token has reached hold nothing to copy, nor has a page without a summary a summary
record. -/
def State.kvParts (s : State) (geo i pos summed : Nat) : List (Nat × Nat × Nat) :=
  let d := kvD geo
  (s.kv.slots.filter (fun (x : KvSlot) => x.entry == i)).flatMap (fun x =>
    let rows := min 32 (pos - 32 * x.page)
    (List.range (kvLayers geo)).flatMap (fun l =>
      let b := ((x.page * kvHeads geo + x.head) * kvLayers geo + l) * 68 * d
      let k := b2n x.isV
      (if rows = 0 then [] else [(b + 32 * d * k, s.kvElem geo x.stack x.nbu x.slot l, rows * d)])
        ++ (if kvFormat geo = 1 then [(b + 64 * d + d * k, s.kvScale geo x.stack x.nbu x.slot l, d)] else [])
        ++ (if !x.isV && decide (x.page < summed) then
              [(b + 66 * d, s.kvSumm geo x.stack x.nbu x.slot l, 2 * d)] else [])))

/-- Copy parts from tier 1 into a local image. -/
def State.kvCopyOut (i image : Nat) : List (Nat × Nat × Nat) → State → Bool × State
  | [], s => (true, s)
  | (o, a, n) :: r, s =>
    match s.load a n with
    | (some bs, s) => State.kvCopyOut i image r (s.kvPut i (image + o) bs)
    | (none, s) => (false, s)

/-- Copy parts from a local image back. -/
def State.kvCopyIn (i image : Nat) : List (Nat × Nat × Nat) → State → Bool × State
  | [], s => (true, s)
  | (o, a, n) :: r, s =>
    match s.load (image + o) n with
    | (some bs, s) => State.kvCopyIn i image r (s.kvPut i a bs)
    | (none, s) => (false, s)

/-- Free the image of an entry. -/
def State.kvFreeImage (s : State) (i : Nat) : State :=
  { s with kv := { s.kv with areas := s.kv.areas.filter (fun a => !(a.entry == i && a.use == .image)) } }

/-- Set or clear PARKED and PARK of a page table. -/
def State.ptSetPark (s : State) (i pt park : Nat) (on : Bool) : State :=
  let fl := byteField (((s.loadNum pt 64).1).getD 0) 3 1
  (s.kvPut i (pt + 3) (bytesOfNat 1 (fl / 2 * 2 + b2n on))).kvPut i (pt + 0x10) (bytesOfNat 8 park)

/-- Free slots and list blocks of a parked entry; its directory names none. -/
def State.kvDropPages (s : State) (geo i pt : Nat) : State :=
  let n := s.ptNseg pt
  (s.kvFreePages i).kvPut i (pt + 0x40) (List.replicate (16 * kvHeads geo * n) 0)

/-- Address of an image in PARK_ADDR's form. -/
def parkForm (geo image : Nat) : Nat :=
  if kvPeer geo then kvParkAddr geo / 2 ^ 48 * 2 ^ 48 + image else image

/-- Pieces of an image's parts, as remote requests carry them: image offset, local
address, length. -/
def imagePieces (geo image : Nat) (ps : List (Nat × Nat × Nat)) : List (Nat × Nat × Nat) :=
  ps.flatMap (fun p => (pieces256 (kvParkAddr geo % 2 ^ 48 + (image - kvParkAddr geo % 2 ^ 48) + p.1)
    p.2.2).map (fun q => (p.1 + q.1, p.2.1 + q.1, q.2)))

def State.updCopy (s : State) (i : Nat) (f : KvCopy → KvCopy) : State :=
  { s with kv := { s.kv with copies := s.kv.copies.map (fun c => if c.entry = i then f c else c) } }

/-- Send the next remote requests of a copy to or from a peer, as far as the
tracker has places. -/
def State.kvPeerPump (s : State) (geo i tenant : Nat) (c : KvCopy) (ps : List (Nat × Nat × Nat)) :
    State :=
  let h := bits (kvParkAddr geo) 61 1
  let b := bits (kvParkAddr geo) 48 13
  (((imagePieces geo c.image ps).drop c.sent).take s.trackerFree).foldl (fun s p =>
    let go (bs : List Byte) (pty : Nat) (s : State) : State :=
      (s.updCopy i (fun c => { c with sent := c.sent + 1, outstanding := c.outstanding + 1 })).sendReq
        (.kvImage i p.1) pty h b tenant (c.image + p.1) p.2.2 0 bs
    if c.resume then go [] 1 s
    else
      match s.load p.2.1 p.2.2 with
      | (some bs, s) => go bs 2 s
      | (none, s) => s.updCopy i (fun c => { c with sent := c.sent + 1, failed := true })) s

/-- SUM entries of summarised pages, after a resume or a rewrite of lists. -/
def State.kvSumEntries (s : State) (geo i pt summed : Nat) : State :=
  let nseg := s.ptNseg pt
  (s.kv.slots.filter (fun (x : KvSlot) => x.entry == i && !x.isV && decide (x.page < summed))).foldl
    (fun s x =>
      let seg := kvSegOf geo x.page
      let de := ((s.loadNum (pt + 0x40 + 16 * (x.head * nseg + seg)) 16).1).getD 0
      (List.range (kvLayers geo)).foldl (fun s l =>
        s.kvPut i (kvEntryAddr geo (bits de 0 48) seg l 2 (x.page - kvStart geo seg))
          (bytesOfNat 16 (s.kvSumm geo x.stack x.nbu x.slot l))) s) s

/-- Rewrite every list block of an entry from the owner words (15 R475). -/
def State.kvRewriteLists (s : State) (geo i pt summed : Nat) : State :=
  let nseg := s.ptNseg pt
  let s := (s.kv.areas.filter (fun (a : KvArea) => a.entry == i)).foldl (fun s a =>
    match a.use with
    | .list h seg =>
      let s := s.kvPut i a.base ((List.range (a.size / 16)).flatMap (fun _ => kvNull))
      (s.kv.slots.filter (fun (x : KvSlot) => x.entry == i && x.head == h && !x.isV
          && kvSegOf geo x.page == seg)).foldl (fun s k =>
        match s.kv.slots.find? (fun (x : KvSlot) =>
            x.entry == i && x.head == h && x.page == k.page && x.isV) with
        | some v =>
          let j := k.page - kvStart geo seg
          let ent (x : KvSlot) (l : Nat) : List Byte :=
            bytesOfNat 8 (s.kvElem geo x.stack x.nbu x.slot l) ++
              bytesOfNat 8 (if kvFormat geo = 1 then s.kvScale geo x.stack x.nbu x.slot l else 0)
          (List.range (kvLayers geo)).foldl (fun s l =>
            (s.kvPut i (kvEntryAddr geo a.base seg l 0 j) (ent k l)).kvPut i
              (kvEntryAddr geo a.base seg l 1 j) (ent v l)) s
        | none => s) s
    | _ => s) s
  let _ := nseg
  s.kvSumEntries geo i pt summed

/-! ### Demotion of paused sequences (08 R277, 15 R485) -/

/-- Park a lazily paused sequence of a local parking area at once: its time is
timing that the model leaves out. -/
def State.kvParkNow (s : State) (i : Nat) : Option State :=
  let e := s.srvE i
  match s.kvGeom e.model with
  | none => none
  | some geo =>
    if kvPeer geo then none
    else
      match s.kvTake geo i .image (imageBytes geo (s.ptPages e.pt)) with
      | (none, _) => none
      | (some a, s) =>
        match State.kvCopyOut i a (s.kvParts geo i e.pos (s.ptSummed e.pt)) s with
        | (false, s) => some ((s.kvFreeImage i).kvPageLost i)
        | (true, s) => some ((s.kvDropPages geo i e.pt).ptSetPark i e.pt (parkForm geo a) true)

/-- Lazily paused sequences of a model, the one unused for longest first. -/
def State.lazySeqs (s : State) (model : Nat) : List Nat :=
  ((s.serving.entries.filter (fun (e : Nat × SrvEntry) =>
    e.2.state == 4 && e.2.model == model && !s.ptParked e.2.pt && !s.srvCopying e.1)).mergeSort
      (fun a b => decide (a.2.time ≤ b.2.time))).map Prod.fst

/-- Allocate pages, demoting paused sequences of the model while the pool is
short (08 R276, R277, 15 R478). -/
def State.kvAlloc (s : State) (geo i pt nseg from_ upTo : Nat) : Except Status State :=
  let rec go : Nat → State → Except Status State
    | 0, _ => .error ST_KV_POOL_FULL
    | fuel + 1, s =>
      match s.kvAllocPages geo i pt nseg from_ upTo with
      | .error e =>
        if e = ST_KV_POOL_FULL then
          match ((s.lazySeqs (kvModel geo)).filter (· != i)).findSome? (fun v => s.kvParkNow v) with
          | some s => go fuel s
          | none => .error e
        else .error e
      | r => r
  match go ((s.lazySeqs (kvModel geo)).length + 1) s with
  | .ok s =>
    -- each new page's home is a decision of the Pilot (08 R265, R283)
    let new := s.kv.slots.filter (fun (x : KvSlot) =>
      x.entry == i && !x.isV && decide (from_ ≤ x.page) && decide (x.page ≤ upTo))
    .ok (new.foldl (fun s x => s.pilRecord 4 (s.srvE i).tenant 0 0 pt x.page
      (s.kvElem geo x.stack x.nbu x.slot 0)) s)
  | r => r

/-- Count a failed allocation by its status. -/
def State.kvFailed (s : State) (e : Status) : State := s.kvFail (e == ST_KV_PT_FULL)

end Sys2Proof.Machine
end

