-- ==== Sys2Proof/Machine/Serving.lean ====
section
/-! DEFINITION. The serving engine's commands: serving commands, step launches,
completion and delivery, output rings, time-to-live and slowdown (chapter 14). -/

namespace Sys2Proof.Machine

/-! ### Reading serving commands (R435) -/

/-- Does the command at the head of a serving queue wait: a command of the queue is
under way, or a copy of the entry it names (15 R487)? -/
def State.srvBusy (s : State) (q : Nat) (w : Nat) : Bool :=
  s.kv.copies.any (fun (c : KvCopy) =>
    (match c.command with
     | some x => x.1 == q
     | none => false) || (c.entry == cmdIndex w && cmdOp w != 0))

/-- The serving queue whose turn it is, with its head command. -/
def State.srvNext (s : State) : Option (Nat × HwQueue × Nat) :=
  let word (x : HwQueue) : Nat :=
    match (s.peekEntry x).1 with
    | .ok e => e
    | .error _ => 0
  let ok := (s.graph.queues.filter (fun q =>
    q.2.enabled && q.2.serving && q.2.head != q.2.tail && !s.srvBusy q.1 (word q.2))).map Prod.fst
  let next := ((ok.filter (fun q => decide (s.serving.lastQueue < q))).min?).orElse (fun _ => ok.min?)
  next.bind (fun q => (s.hwq q).map (fun x => (q, x, word x)))

/-- The command `w` at the head of queue `q` is read: HEAD moves past it, and the
shadow word is written at once where the queue is then empty. -/
def State.srvTook (s : State) (q : Nat) (x : HwQueue) (w : Nat) : State :=
  let (_, s) := s.peekEntry x
  let s := s.updHwq q (fun y => { y with head := y.head + 1,
                                         shadowDue := some (y.shadowDue.getD s.time) })
  let s := { s with serving := { s.serving with lastQueue := q } }
  let s := (s.cntMod (32 + min 8 (cmdOp w)) 1).logDecision 0x603 [q]
  if x.head + 1 = x.tail then s.writeShadow q else s

/-- Take the next command, if its OP is one a test picks, and run it. -/
def State.srvTake (s : State) (p : Nat → Bool) (f : Nat → Nat → Nat → State → State) : State :=
  if s.log.paused then s
  else
    match s.srvNext with
    | none => s
    | some (q, x, w) =>
      if !p (cmdOp w) || !s.decisionAllowed 0x603 q then s
      else
        f q x.tenant w (s.srvTook q x w)

/-- Format of a command (00 R6, R436): its header, and zeros in the fields its
operation does not use. -/
def cmdFormatOk (twin : Bool) (w : Nat) : Bool :=
  let op := cmdOp w
  let z (used : Bool) (off n : Nat) : Bool := used || byteField w off n == 0
  byteField w 0 3 == 0x600801 && (decide (op ≤ 7) || (twin && op == 8)) && cmdRec w % 32 == 0
    && z (op == 0 || op == 2 || op == 3 || op == 7 || op == 8) 0x0C 4
    && z (op == 0) 0x18 8 && z (op == 0 || op == 1) 0x20 4 && z (op == 0) 0x24 4
    && z (op == 0 || op == 1) 0x28 4 && z (op == 0) 0x2C 4 && z (op == 0) 0x30 8
    && z (op == 0 || op == 8) 0x38 8
    && (op != 0 || (bits w (8 * 0x18 + 12) 4 == 0 && decide (byteField w 0x1A 1 < 8)
          && decide (byteField w 0x1B 1 < 4) && byteField w 0x36 2 == 0 && !bit (byteField w 0x38 8) 5))
    && (op != 3 || cmdArg w != 0)
    && (op != 8 || !bit (byteField w 0x38 8) 5)

/-- Run a command on an existing entry: format, index and state checks first. A
command that is not valid in the state changes nothing. -/
def State.srvCommand (s : State) (op : Nat) (ok : SrvEntry → Bool)
    (f : Nat → Nat → Nat → Nat → State → State) : State :=
  s.srvTake (· == op) (fun q tn w s =>
    if !cmdFormatOk s.fab.twinMode w then s.srvResult tn w ST_SRV_CMD_FMT none
    else
      let i := cmdIndex w
      let e := s.srvE i
      if 2 ^ 20 ≤ i ∨ !s.srvOwn i ∨ (e.state ≠ 0 ∧ e.tenant ≠ tn) then
        s.srvResult tn w ST_SRV_INDEX none
      else
        let s := s.srvTouch i
        if !ok e then s.srvResult tn w ST_SRV_STATE (some i) else f q tn w i s)

/-! ### OPEN (R437, R440, 15 R474, R476) -/

/-- The index an OPEN takes. -/
def State.srvPick (s : State) (w : Nat) : Option Nat :=
  if cmdIndex w ≠ 0xFFFFFFFF then some (cmdIndex w)
  else
    let (lo, n) := s.twinHalf (2 ^ 20)
    let used := (s.serving.entries.filter (fun e => e.2.state != 0)).map Prod.fst
    (List.range (min n (used.length + 1))).find? (fun k => !used.contains (lo + k)) |>.map (lo + ·)

/-- Is a tenant's page table prepared as 15 R474 requires? -/
def State.ptPrepared (s : State) (tenant geo pt : Nat) : Bool × State :=
  match s.accessRecord 8 0 tenant false pt 64 with
  | (some _, s) => (false, s)
  | (none, s) =>
    match s.loadNum pt 64 with
    | (none, s) => (false, s)
    | (some h, s) =>
      let n := byteField h 6 1
      if h ≠ 0x660801 + 2 ^ 32 * kvModel geo + 2 ^ 48 * n ∨ n = 0 ∨ 64 < n then (false, s)
      else
        let m := 16 * kvHeads geo * n
        match s.accessRecord 8 0 tenant true pt (64 + m) with
        | (some _, s) => (false, s)
        | (none, s) =>
          match s.loadNum (pt + 64) m with
          | (some 0, s) => (true, s)
          | (_, s) => (false, s)

/-- The entry an OPEN writes. -/
def openEntry (tn w pt now : Nat) : SrvEntry :=
  let b := bytesOfNat 1 (if bit (byteField w 0x1B 1) 1 then 1 else 2) ++
    bytesOfNat 1 (byteField w 0x1B 1 % 2) ++ bytesOfNat 2 (byteField w 0x18 2) ++ bytesOfNat 2 tn
    ++ bytesOfNat 1 0 ++ bytesOfNat 1 (byteField w 0x1A 1) ++ bytesOfNat 4 (byteField w 0x1C 4)
    ++ bytesOfNat 4 (byteField w 0x20 4) ++ bytesOfNat 4 0 ++ bytesOfNat 4 (byteField w 0x24 4)
    ++ bytesOfNat 4 (byteField w 0x28 4) ++ bytesOfNat 4 (byteField w 0x2C 4) ++ bytesOfNat 8 pt
    ++ bytesOfNat 8 (byteField w 0x38 8) ++ bytesOfNat 4 0 ++ bytesOfNat 4 (cmdArg w)
    ++ bytesOfNat 8 now
  (({ SrvEntry.free with w := BitVec.ofNat 512 (natOfBytes b) } : SrvEntry)).ringWait now

/-- Create the page table of a shared model's entry in the list area. -/
def State.ptCreate (s : State) (geo i : Nat) : Option (Nat × State) :=
  let n := 64 + 16 * kvHeads geo * 64
  match s.kvTake geo i .table n with
  | (some a, s) =>
    let h := 0x660801 + 2 ^ 24 * 2 + 2 ^ 32 * kvModel geo + 2 ^ 48 * 64
    some (a, s.kvPut i a (bytesOfNat n h))
  | (none, _) => none

/-- Write the entry and allocate its first pages; a failure leaves the entry
FREE. -/
def State.srvOpen (s : State) (tn w i geo : Nat) (shared : Bool) : Except Status State :=
  let mk : Except Status (Nat × State) :=
    if shared then
      -- the entry is written first, so that its table is mirrored with it
      match (s.srvPut i (openEntry tn w 0 s.time)).ptCreate geo i with
      | some r => .ok r
      | none => .error ST_KV_LIST_FULL
    else
      let pt := byteField w 0x30 8
      match s.ptPrepared tn geo pt with
      | (true, s) => .ok (pt, s)
      | (false, _) => .error ST_KV_PT_FMT
  match mk with
  | .error e => .error e
  | .ok (pt, s) =>
    if !bit (byteField w 0x1B 1) 1 ∧ byteField w 0x20 4 ≠ 0 then .error ST_KV_POS
    else
      let s := s.srvPut i (openEntry tn w pt s.time)
      s.kvAlloc geo i pt (s.ptNseg pt) 0 (byteField w 0x20 4 / 32)

/-- OPEN: a new entry, checked in the order of R437. -/
def execOpen (t : Nat) (s : State) : Out :=
  .next ((s.at t).srvTake (fun op => op == 0 || decide (8 < op) || (op == 8 && !s.fab.twinMode))
    (fun _ tn w s =>
    let fail (st : Status) (s : State) : State := s.srvResult tn w st none
    if !cmdFormatOk s.fab.twinMode w then fail ST_SRV_CMD_FMT s
    else
      let k := byteField w 0x18 2 % 4096
      match s.srvModel k, s.kvGeom k with
      | some m, some geo =>
        if !(m.tenant == tn || m.shared) then
          fail ST_ISO_MODEL (s.isolation ST_ISO_MODEL 8 0 tn k)
        else
          match s.srvPick w with
          | none => fail ST_SRV_QUOTA s
          | some i =>
            let e := s.srvE i
            let log := byteField w 0x38 8 % 32
            if 2 ^ 20 ≤ i ∨ !s.srvOwn i ∨ (e.state ≠ 0 ∧ e.tenant ≠ tn) then fail ST_SRV_INDEX s
            else if e.state ≠ 0 then s.srvResult tn w ST_SRV_STATE (some i)
            else if (s.srvTenant tn).quota.toNat ≤ s.srvUsed tn then fail ST_SRV_QUOTA s
            else if log < 4 ∨ 16 < log ∨ ((byteField w 0x30 8 == 0) != m.shared) then
              fail ST_SRV_CMD_FMT s
            else
              match s.srvOpen tn w i geo m.shared with
              | .ok s => s.srvResult tn w 0 (some i)
              | .error st =>
                let s := if st = ST_KV_POOL_FULL ∨ st = ST_KV_LIST_FULL ∨ st = ST_KV_PT_FULL then
                  s.kvFailed st else s
                fail st s
      | _, _ => fail ST_SRV_MODEL s))

/-! ### READY, CREDIT, SET_PRIO, QUERY, REBIND -/

/-- READY: keys and values are present up to POS. Pages are allocated and full
ones summarised; a LOST entry's list blocks are rewritten whole (15 R475, R476). -/
def execReady (t : Nat) (s : State) : Out :=
  .next ((s.at t).srvCommand 1 (fun e => e.state == 1 || e.state == 5) (fun _ tn w i s =>
    let e := s.srvE i
    match s.kvGeom e.model with
    | none => s.srvResult tn w ST_SRV_MODEL (some i)
    | some geo =>
      let pos := byteField w 0x20 4
      let sum := s.ptSummed e.pt
      let s := if e.state = 5 then s.kvRewriteLists geo i e.pt sum else s
      match s.kvAlloc geo i e.pt (s.ptNseg e.pt) (s.ptPages e.pt) (pos / 32) with
      | .error st => (s.kvFailed st).srvResult tn w st (some i)
      | .ok s =>
        let s := s.kvSummarisePages geo i e.pt (s.ptNseg e.pt) sum (pos / 32)
        let s := s.srvUpd i (fun e =>
          ((((e.set 0x0C 4 pos).set 0x18 4 (byteField w 0x28 4)).setFlag 2 false).setFlag 5 false).ready
            s.time)
        s.srvResult tn w 0 (some i)))

/-- May RING_LIMIT be set so (R437)? -/
def creditOk (arg tail log : Nat) : Bool := decide ((arg + 2 ^ 32 - tail) % 2 ^ 32 ≤ 2 ^ log)

/-- CREDIT: room in the output ring. -/
def execCredit (t : Nat) (s : State) : Out :=
  .next ((s.at t).srvCommand 2 (fun e => e.state != 0 && !e.held) (fun _ tn w i s =>
    let e := s.srvE i
    if creditOk (cmdArg w) e.tail e.ringLog then
      (s.srvUpd i (fun e => (e.set 0x34 4 (cmdArg w)).ringWait s.time)).srvResult tn w 0 (some i)
    else s.srvResult tn w ST_SRV_CREDIT (some i)))

/-- QUERY: the current entry follows the result record. -/
def execQuery (t : Nat) (s : State) : Out :=
  .next ((s.at t).srvCommand 6 (fun _ => true) (fun _ tn w i s =>
    let s := s.srvResult tn w 0 (some i)
    if cmdRec w = 0 then s else s.hostWrite (cmdRec w + 32) (bytesOfNat 64 (s.srvE i).w.toNat)))

/-- SET_PRIO. -/
def execSetPrio (t : Nat) (s : State) : Out :=
  .next ((s.at t).srvCommand 7 (fun e => e.state != 0) (fun _ tn w i s =>
    (s.srvUpd i (fun e => e.set 7 1 (cmdArg w % 8))).srvResult tn w 0 (some i)))

/-- REBIND: a taken-over entry gets a new ring, and its hold ends (16 R522). -/
def execRebind (t : Nat) (s : State) : Out :=
  if !s.fab.twinMode then .next (s.at t)
  else
    .next ((s.at t).srvCommand 8 (fun e => e.state != 0 && e.held) (fun _ tn w i s =>
      let r := byteField w 0x38 8
      if r % 32 < 4 ∨ 16 < r % 32 then s.srvResult tn w ST_SRV_CMD_FMT (some i)
      else if !creditOk (cmdArg w) 0 (r % 32) then s.srvResult tn w ST_SRV_CREDIT (some i)
      else
        (s.srvUpd i (fun e => { ((((e.set 0x28 8 r).set 0x30 4 0).set 0x34 4 (cmdArg w)).ringWait s.time) with
          held := false })).srvResult tn w 0 (some i)))

/-! ### PAUSE, RESUME, CLOSE (R437, 15 R479, R485 to R487) -/

/-- Ticks of a time-to-live in seconds. -/
def secTicks (n : Nat) : Nat := n * 25000000

/-- Pause an entry as PAUSE does; `cmd` is the command whose result waits. -/
def State.srvPause (s : State) (i ttl : Nat) (cmd : Option (Nat × Nat × Nat)) : State :=
  let e := s.srvE i
  let done (st : Status) (s : State) : State :=
    match cmd with
    | some (_, tn, w) => s.srvResult tn w st (some i)
    | none => s
  let stop (s : State) : State :=
    s.srvUpd i (fun e => ((e.setFlag 4 false).setState 4).set 0x38 8 (s.time + secTicks ttl))
  match s.kvGeom e.model with
  | none => done 0 (stop s)
  | some geo =>
    if kvLazy geo then done 0 (stop s)
    else
      let n := imageBytes geo (s.ptPages e.pt)
      match s.kvTake geo i .image n with
      | (none, s) =>
        let s := s.srvUpd i (fun e => e.setFlag 4 false)
        done ST_KV_PARK_FULL s
      | (some a, s) =>
        let c : KvCopy := { entry := i, resume := false, image := a, size := n, since := s.time,
                            arg := ttl, command := cmd.map (fun x => (x.1, x.2.2)), sent := 0,
                            outstanding := 0, got := [], failed := false }
        let s := { s with kv := { s.kv with copies := s.kv.copies ++ [c] } }
        s.srvUpd i (fun e => e.setFlag 4 false)

/-- Close an entry: its pages are freed and it is FREE. -/
def State.srvClose (s : State) (i : Nat) : State :=
  let e := s.srvE i
  let s := { s with serving := { s.serving with outs := s.serving.outs.filter (fun o => o.entry != i) } }
  let s := match s.kvGeom e.model with
    | some geo => s.kvFreeAll i e.pt (kvHeads geo) (s.ptNseg e.pt)
    | none => s
  s.srvUpd i (fun e => { (((e.setState 0).setFlag 3 false).setFlag 4 false) with held := false, taken := false })

/-- PAUSE: the cache is parked under a time-to-live; in a step the request is
applied at completion. -/
def execPause (t : Nat) (s : State) : Out :=
  .next ((s.at t).srvCommand 3 (fun e =>
      e.state == 1 || e.state == 2 || e.state == 3 || e.state == 5) (fun q tn w i s =>
    if (s.srvE i).state = 3 then
      (s.srvUpd i (fun e => { (e.setFlag 4 true) with ttl := cmdArg w })).srvResult tn w 0 (some i)
    else s.srvPause i (cmdArg w) (some (q, tn, w))))

/-- RESUME: a parked cache returns to tier 1; a lazily paused entry is only made
READY. -/
def execResume (t : Nat) (s : State) : Out :=
  .next ((s.at t).srvCommand 4 (fun e => e.state == 4) (fun q tn w i s =>
    let e := s.srvE i
    match s.kvGeom e.model with
    | none => s.srvResult tn w ST_SRV_MODEL (some i)
    | some geo =>
      if !s.ptParked e.pt then (s.srvUpd i (fun e => e.ready s.time)).srvResult tn w 0 (some i)
      else
        let n := s.ptPages e.pt
        let go : Except Status State :=
          if n = 0 then .ok s else s.kvAlloc geo i e.pt (s.ptNseg e.pt) 0 (n - 1)
        match go with
        | .error st => (s.kvFailed st).srvResult tn w st (some i)
        | .ok s =>
          let img := ((s.kv.areas.find? (fun (a : KvArea) => a.entry == i && a.use == .image)).map
            (·.base)).getD 0
          let c : KvCopy := { entry := i, resume := true, image := img, size := imageBytes geo n,
                              since := s.time, arg := 0, command := some (q, w), sent := 0,
                              outstanding := 0, got := [], failed := false }
          { s with kv := { s.kv with copies := s.kv.copies ++ [c] } }))

/-- CLOSE: the entry's pages are freed; in a step the request is applied at
completion. -/
def execClose (t : Nat) (s : State) : Out :=
  .next ((s.at t).srvCommand 5 (fun e => e.state != 0) (fun _ tn w i s =>
    if (s.srvE i).state = 3 then
      (s.srvUpd i (fun e => e.setFlag 3 true)).srvResult tn w 0 (some i)
    else (s.srvClose i).srvResult tn w 0 (some i)))

/-- The bytes of a part that a peer has answered. -/
def KvCopy.part (c : KvCopy) (off n : Nat) : Option (List Byte) :=
  let bs := (c.got.filter (fun g => decide (off ≤ g.1) && decide (g.1 < off + n))).flatMap Prod.snd
  if bs.length = n then some bs else none

/-- Write the parts that came back from a peer. -/
def State.kvFromPeer (i : Nat) (c : KvCopy) : List (Nat × Nat × Nat) → State → Bool × State
  | [], s => (true, s)
  | (o, a, n) :: r, s =>
    match c.part o n with
    | some bs => State.kvFromPeer i c r (s.kvPut i a bs)
    | none => (false, s)

/-- A copy has ended: its command's result is written. -/
def State.kvCopyEnd (s : State) (i : Nat) (c : KvCopy) (st : Status) : State :=
  let s := { s with kv := { s.kv with copies := s.kv.copies.filter (fun x => x.entry != i) } }
  match c.command with
  | some (_, w) => s.srvResult (s.srvE i).tenant w st (some i)
  | none => s

/-- PARK_COPY_DONE: the copy of a PAUSE or a RESUME completes, or meets an
uncorrectable error. For an image on a peer it first sends what is left to send. -/
def execParkCopyDone (i t : Nat) (s : State) : Out :=
  let s := s.at t
  match s.kv.copies.find? (fun (c : KvCopy) => c.entry == i), s.kvGeom (s.srvE i).model with
  | some c, some geo =>
    let e := s.srvE i
    let sum := s.ptSummed e.pt
    let ps := s.kvParts geo i e.pos sum
    let s := if kvPeer geo && !c.failed then
      s.kvPeerPump geo i (((s.srvModel e.model).map (·.tenant)).getD 0) c ps else s
    let c := (s.kv.copies.find? (fun (x : KvCopy) => x.entry == i)).getD c
    if kvPeer geo && (decide (0 < c.outstanding) ||
        (!c.failed && decide (c.sent < (imagePieces geo c.image ps).length))) then .next s
    else
      let (ok, s) :=
        if c.failed then (false, s)
        else if kvPeer geo then (if c.resume then State.kvFromPeer i c ps s else (true, s))
        else if c.resume then State.kvCopyIn i c.image ps s
        else State.kvCopyOut i c.image ps s
      if c.resume then
        let s := (s.kvFreeImage i).ptSetPark i e.pt 0 false
        if ok then
          let s := s.kvSumEntries geo i e.pt sum
          .next ((s.srvUpd i (fun e => e.ready s.time)).kvCopyEnd i c 0)
        else .next (((s.srvUpd i (fun e => e.setFlag 2 true)).srvLost i).kvCopyEnd i c ST_KV_MOVE_UE)
      else if ok then
        let s := ((s.kvDropPages geo i e.pt).ptSetPark i e.pt (parkForm geo c.image) true)
        .next ((s.srvUpd i (fun e => (e.setState 4).set 0x38 8 (s.time + secTicks c.arg))).kvCopyEnd i c 0)
      else .next (((s.kvFreeImage i).kvPageLost i).kvCopyEnd i c ST_KV_MOVE_UE)
  | _, _ => .next s

/-- TTL_EXPIRY: a paused entry whose TIME has passed is freed (R454). -/
def execTtlExpiry (i t : Nat) (s : State) : Out :=
  let s := s.at t
  let e := s.srvE i
  if e.state = 4 ∧ e.time ≤ s.time ∧ !s.srvCopying i ∧ s.srvOwn i ∧ s.decisionAllowed 0x603 (2 ^ 63 + i) then
    .next ((((s.logDecision 0x603 [2 ^ 63 + i]).srvClose i).raise ST_SEQ_TTL_EXPIRED 8 0 (some e.tenant) (i + 2 ^ 32 * e.f 8 4)).cntMod 46 1)
  else .next s

/-! ### Building a step (R443 to R445) -/

/-- Is there room for one more entry in a step's launch queue? -/
def State.launchRoom (s : State) (q : Nat) : Bool :=
  match s.hwq q with
  | some x => decide ((x.tail - x.head).toNat < 2 ^ x.sizeLog2)
  | none => false

/-- Write the LAUNCH entries of steps that wait for their launch queues, oldest
first. -/
def State.srvFlush (s : State) : State :=
  (s.serving.inFlight.filter (fun (x : SrvStep) => !x.queued)).foldl (fun s x =>
    match s.srvModel x.model with
    | none => s
    | some m =>
      match s.hwq m.queue with
      | none => s
      | some h =>
        if !s.launchRoom m.queue then s
        else
          let s := s.writeMem (h.ringBase.toNat + 64 * (h.tail.toNat % 2 ^ h.sizeLog2))
            (bytesOfNat 64 x.launch.toNat)
          let s := s.updHwq m.queue (fun y => { y with tail := y.tail + 1 })
          { s with serving := { s.serving with inFlight := s.serving.inFlight.map (fun y =>
              if y.stepNo = x.stepNo then { y with queued := true } else y) } }) s

/-- The LAUNCH entry of a step. -/
def launchEntry (step handle prio wd rec_ : Nat) : BitVec 512 :=
  BitVec.ofNat 512 (0x02400801 + 2 ^ 32 * (step % 2 ^ 32) + 2 ^ 128 * handle + 2 ^ 144 * prio
    + 2 ^ 152 + 2 ^ 192 * wd + 2 ^ 256 * rec_)

/-- The first word of the decision of a step's composition: its group and slot. -/
def stepWord (model stage slot : Nat) : Nat := model + 2 ^ 12 * stage + 2 ^ 16 * slot

/-- Build and launch a step of a group. -/
def State.srvLaunch (s : State) (model stage : Nat) (m : SrvModel) (slot : Nat) : State :=
  let ready := s.srvReady model stage
  let last := m.bmax stage (m.vars stage - 1)
  let n := min ready.length last
  let rows := ready.take n
  let v := ((List.range (m.vars stage)).find? (fun v => decide (n ≤ m.bmax stage v))).getD 0
  let bmax := m.bmax stage v
  let step := (s.serving.steps + 1).toNat
  let blk := m.block stage slot
  let s := rows.foldl (fun s i => s.srvTouch i) s
  let hdr := bytesOfNat 3 0x620801 ++ bytesOfNat 1 slot ++ bytesOfNat 2 model ++ bytesOfNat 1 stage
    ++ bytesOfNat 1 v ++ bytesOfNat 2 n ++ bytesOfNat 2 bmax ++ bytesOfNat 4 step
    ++ bytesOfNat 8 s.time ++ bytesOfNat 8 0
  let s := s.writeMem blk hdr
  let s := (rows.zipIdx).foldl (fun s r =>
    let e := s.srvE r.1
    s.writeMem (blk + 0x40 + 32 * r.2) (bytesOfNat 4 r.1 ++ bytesOfNat 4 e.pos
      ++ bytesOfNat 4 (e.f 0x18 4) ++ bytesOfNat 4 0 ++ bytesOfNat 8 e.pt)) s
  let s := (List.range (bmax - n)).foldl (fun s k =>
    s.writeMem (blk + 0x40 + 32 * (n + k)) (bytesOfNat 4 0xFFFFFFFF ++ List.replicate 28 0)) s
  let prio := (rows.map (fun i => (s.srvE i).prio)).foldl max 0
  let s := rows.foldl (fun s i => s.srvUpd i (fun e => e.setState 3)) s
  let x : SrvStep :=
    { model := model, stage := stage, slot := slot, stepNo := BitVec.ofNat 32 step, variant := v,
      rows := rows, launch := launchEntry step (m.handle stage v slot) prio m.wd (blk + 0x20),
      queued := false, seq := none, result := none, delivered := false }
  let s := { s with serving := { s.serving with
    steps := s.serving.steps + 1, inFlight := s.serving.inFlight ++ [x] } }
  let s := s.traceCentral 0 0x16 6 0 m.tag (step + 2 ^ 32 * model + 2 ^ 44 * stage + 2 ^ 48 * n)
  (((s.logDecision 0x603 (stepWord model stage slot :: rows)).cntMod 41 1).cntMod 47 (bmax - n)).srvFlush

/-- STEP_LAUNCH: the group of the first ready entry among those that qualify builds
its step; LAUNCH entries that wait for their queue are written when it has room. -/
def execStepLaunch (model stage t : Nat) (s : State) : Out :=
  let s := (s.at t).srvFlush
  match s.srvModel model, s.srvSlot model stage with
  | some m, some slot =>
    .next (if s.srvGroups.contains (model, stage) && s.decisionAllowed 0x603 (stepWord model stage slot) then
      s.srvLaunch model stage m slot else s)
  | _, _ => .next s

/-- MAX_WAIT_EXPIRY: the oldest ready entry of a group has waited MAX_WAIT_US: the
group qualifies for a launch, which STEP_LAUNCH performs (R443). Its condition is
read off the time base. -/
def execMaxWaitExpiry (_model _stage t : Nat) (s : State) : Out := .next (s.at t)

/-! ### Completing a step (R446 to R451) -/

/-- The slot of a step is free once it is delivered and none of its descriptors
waits. -/
def State.srvSlotFree (s : State) (step : BitVec 32) : State :=
  if s.serving.outs.any (fun (o : SrvOut) => o.step == some step) then s
  else
    match s.serving.inFlight.find? (fun (x : SrvStep) => x.stepNo == step && x.delivered) with
    | none => s
    | some x =>
      let tag := ((s.srvModel x.model).map (·.tag)).getD 0
      let s := s.traceCentral 1 0x16 6 0 tag (step.toNat + 2 ^ 32 * x.model + 2 ^ 44 * x.stage
        + 2 ^ 48 * x.rows.length + 2 ^ 64)
      ({ s with serving := { s.serving with
          inFlight := s.serving.inFlight.filter (fun y => y.stepNo != step) } }).cntMod 42 1

/-- Free the slots of the delivered steps that have no descriptor left. -/
def State.srvSlotsFree (s : State) : State :=
  ((s.serving.inFlight.filter (fun (x : SrvStep) => x.delivered)).map (·.stepNo)).foldl State.srvSlotFree s

/-- What an entry becomes after its delivery: CLOSE_REQ and PAUSE_REQ are applied
(R447, R451). -/
def State.srvSettle (s : State) (i next : Nat) : State :=
  let e := s.srvE i
  if e.flag 3 then s.srvClose i
  else
    let s := if next = 2 then s.srvUpd i (fun e => e.ready s.time)
      else if next = 255 then s
      else s.srvUpd i (fun e => e.setState next)
    if e.flag 4 && (next == 2) then s.srvPause i e.ttl none else s

/-- CAUSE of R449 for a token delivered. -/
def SrvEntry.cause (e : SrvEntry) (token gen : Nat) : Nat :=
  if e.f 0x1C 4 ≠ 0xFFFFFFFF ∧ token = e.f 0x1C 4 then 1
  else if e.f 0x14 4 ≠ 0 ∧ gen = e.f 0x14 4 then 2 else 0

/-- Deliver a last-stage row with its token: the entry's update, its new page, and
its descriptor (R447, 15 R476, R478). -/
def State.srvToken (s : State) (i row token logp : Nat) (step : BitVec 32) : State :=
  let e := s.srvE i
  let pos := (e.pos + 1) % 2 ^ 32
  let gen := (e.f 0x10 4 + 1) % 2 ^ 32
  let cause := e.cause token gen
  let s := s.srvUpd i (fun e =>
    { ((((e.set 0x0C 4 pos).set 0x10 4 gen).set 0x18 4 token).set 6 1 0).setFlag 5 false with row := row })
  let page (s : State) : Option Status × State :=
    match s.kvGeom e.model with
    | some geo =>
      if pos % 32 ≠ 0 then (none, s)
      else
        let nseg := s.ptNseg e.pt
        let (st, s) := match s.kvAlloc geo i e.pt nseg (pos / 32) (pos / 32) with
          | .ok s => ((none : Option Status), s)
          | .error st => (some st, s.kvFailed st)
        (st, if 0 < pos / 32 then s.kvSummarise geo i e.pt nseg (pos / 32 - 1) else s)
    | none => (none, s)
  let (st, s) := page s
  match st with
  | none =>
    let w := outWords token logp 0 pos (2 * b2n (cause != 0) + 4 * cause) (e.f 8 4)
    s.srvQueueOut ⟨i, w, if cause = 0 then 2 else 6, 0, some step⟩
  | some st =>
    -- the token is delivered with the failure; the entry is then paused lazily
    let w := outWords token logp (if cause = 0 then st.toNat else 0) pos
      (2 * b2n (cause != 0) + 4 * cause) (e.f 8 4)
    s.srvQueueOut ⟨i, w, if cause = 0 then 4 else 6, 0, some step⟩

/-- A row of a step that failed (R451). -/
def State.srvRetry (s : State) (i row : Nat) (st : Status) (step : BitVec 32) : State :=
  let e := s.srvE i
  if !e.flag 5 then
    ((s.srvUpd i (fun e => { (e.setFlag 5 true) with row := row })).cntMod 44 1).srvSettle i 2
  else
    s.srvQueueOut ⟨i, outWords 0xFFFFFFFF 0 st.toNat e.pos (2 + 4 * 3) (e.f 8 4), 6, 0, some step⟩

/-- Process one row. -/
def State.srvRow (s : State) (x : SrvStep) (m : SrvModel) (st : Status) (row i : Nat) : State :=
  let e := s.srvE i
  if e.state ≠ 3 then s
  else if e.flag 3 then s.srvClose i
  else if e.flag 2 then s.srvLost i
  else if st ≠ 0 then s.srvRetry i row st x.stepNo
  else if x.stage + 1 < m.stages then
    (s.srvUpd i (fun e => { (e.set 6 1 (x.stage + 1)) with row := row })).srvSettle i 2
  else
    match s.loadNum (m.block x.stage x.slot + 0x40 + 32 * row + 0x18) 8 with
    | (some v, s) => s.srvToken i row (v % 2 ^ 32) (v / 2 ^ 32) x.stepNo
    | (none, s) => s.srvRetry i row ST_GRAPH_FETCH_UE x.stepNo

/-- STEP_COMPLETION: the engine has seen a step's completion record and processes
its rows in order (R446, R447, R451). -/
def execStepCompletion (step t : Nat) (s : State) : Out :=
  let s := s.at t
  let n := BitVec.ofNat 32 step
  match s.serving.inFlight.find? (fun (x : SrvStep) => x.stepNo == n && !x.delivered) with
  | none => .next s
  | some x =>
    match x.result, s.srvModel x.model with
    | some st, some m =>
      let s := (x.rows.zipIdx).foldl (fun s r =>
        s.srvRow x m (if statusClass st = 0 then 0 else st) r.2 r.1) s
      let mir := x.rows.filter (fun i => (s.srvE i).flag 0)
      let s := if mir.isEmpty then s
        else s.twinSend 4 (bytesOfNat 4 step ++ mir.flatMap (bytesOfNat 4))
      let mark := if s.twinOn then s.fab.twin.tx else 0
      let outs := s.serving.outs.map (fun (o : SrvOut) =>
        if o.step = some n ∧ mir.contains o.entry then { o with tseq := mark } else o)
      let fl := s.serving.inFlight.map (fun (y : SrvStep) =>
        if y.stepNo = n then { y with delivered := true } else y)
      .next (({ s with serving := { s.serving with outs := outs, inFlight := fl } }).srvSlotFree n)
    | _, _ => .next s

/-- Take the oldest descriptor of an entry out of the queue. -/
def State.srvDropOut (s : State) (i : Nat) : State :=
  let rec drop : List SrvOut → List SrvOut
    | [] => []
    | o :: r => if o.entry = i then r else o :: drop r
  { s with serving := { s.serving with outs := drop s.serving.outs } }

/-- OUTPUT_DESCRIPTOR_WRITE: the oldest descriptor of an entry is written to its
ring, once the paired module has acknowledged what it covers and the ring has
room (R448, 01 R44). -/
def execOutputDescriptorWrite (i t : Nat) (s : State) : Out :=
  let s := s.at t
  match s.serving.outs.find? (fun (o : SrvOut) => o.entry == i) with
  | none => .next s
  | some o =>
    let e := s.srvE i
    let waits := e.flag 0 && o.tseq != 0 && s.twinOn && decide (s.fab.twin.ack < o.tseq)
    if waits || decide (e.tail = e.limit) || e.held then .next s
    else
      let phase := (e.tail / 2 ^ e.ringLog + 1) % 2
      let w := o.words.toNat + 2 ^ 24 * phase + 2 ^ 96 * e.tail + 2 ^ 224 * (s.time % 2 ^ 32)
      let s := s.hostWrite (e.ringBase + 32 * (e.tail % 2 ^ e.ringLog)) (bytesOfNat 32 w)
      let s := s.srvDropOut i
      let s := s.srvUpd i (fun e => (e.set 0x30 4 (e.tail + 1)).ringWait s.time)
      let s := if bit o.words.toNat 29 || bits o.words.toNat 26 3 == 3 then s
        else
          let s := s.updSrvTenant e.tenant (fun x => { x with tokens := x.tokens + 1 })
          ({ s with serving := { s.serving with tokens := s.serving.tokens + 1 } }).cntMod 43 1
      let s :=
        if o.next = 4 then
          let ttl := ((s.kvGeom e.model).map kvFullTtl).getD 1
          let s := s.srvUpd i (fun e => (e.setState 4).set 0x38 8 (s.time + secTicks ttl))
          if e.flag 3 then s.srvClose i else s
        else s.srvSettle i o.next
      .next (match o.step with
        | some n => s.srvSlotFree n
        | none => s)

/-- RING_WRITE_ERROR: the host refuses a descriptor write, or it ends with an error:
the entry is ENDED and no further descriptor is written for it (R450). -/
def execRingWriteError (i t : Nat) (s : State) : Out :=
  let s := s.at t
  match s.serving.outs.find? (fun (o : SrvOut) => o.entry == i) with
  | none => .next s
  | some o =>
    let e := s.srvE i
    let s := { s with serving := { s.serving with
      outs := s.serving.outs.filter (fun o => o.entry != i)
      ringErr := BitVec.ofNat 32 (satAdd 32 s.serving.ringErr.toNat 1) } }
    let s := (s.srvUpd i (fun e => e.setState 6)).raise ST_SRV_RING_ERR 8 0 (some e.tenant) i
    let s := if e.flag 3 then s.srvClose i else s
    .next (match o.step with
      | some n => s.srvSlotFree n
      | none => s)

/-! ### Slowdown (R463) -/

/-- The window's end for one tenant. -/
def State.slowTenant (s : State) (t : Nat) (x : SrvTenant) : State :=
  let th := s.serving.slowThresh.toNat
  let ratio := if x.solo = 0 then (if x.meas = 0 then 0 else 0xFFFF) else min 0xFFFF (256 * x.meas / x.solo)
  let overs := decide (th ≤ ratio) && x.meas != 0
  let consec := if overs then x.consec + 1 else 0
  let fire := overs && !x.fired && decide (max 1 s.serving.slowConsec.toNat ≤ consec)
  let y := { x with
    ratio := BitVec.ofNat 16 ratio
    overs := if overs then BitVec.ofNat 16 (satAdd 16 x.overs.toNat 1) else x.overs
    measUs := BitVec.ofNat 32 (x.meas / 25), soloUs := BitVec.ofNat 32 (x.solo / 25)
    meas := 0, solo := 0, consec := consec, fired := if overs then x.fired || fire else false }
  let s := s.updSrvTenant t (fun _ => y)
  if fire then s.raise ST_TENANT_SLOWDOWN 8 0 (some t) ratio else s

/-- SLOWDOWN_WINDOW_END: at the end of each window RATIO of every tenant is
computed. -/
def execSlowdownWindowEnd (t : Nat) (s : State) : Out :=
  let s := s.at t
  let w := msTicks (max 1 s.serving.slowWin.toNat)
  if s.time < s.serving.slowAt + w then .next s
  else
    let s := { s with serving := { s.serving with slowAt := s.serving.slowAt + w } }
    .next (s.serving.tenants.foldl (fun s p => s.slowTenant p.1 p.2) s)

end Sys2Proof.Machine
end

