-- ==== Sys2Proof/Machine/MbxOps.lean ====
section
/-! DEFINITION. Birouran messages: the command table, the checks of a request,
admission to the queues of the management cores, and service (18 R575 to
R588). -/

namespace Sys2Proof.Machine

/-! ### The command table (R585 to R587) -/

/-- A command: its core (0 security, 1 power management, 2 scheduler), who may
issue it (0 any, 1 own, 2 PF), whether it is valid before a session, its limit in
ms, the sizes of its arguments and of its results. -/
structure Cmd where
  core : Nat
  who : Nat
  pre : Bool
  limit : Nat
  args : List Nat
  res : List Nat

def cmdSession : Nat → Option Cmd
  | 0x0001 => some ⟨0, 0, true, 100, [], [1, 1, 1, 1, 1, 2, 8, 4, 4]⟩
  | 0x0002 => some ⟨0, 0, true, 100, [1, 1], [1, 2]⟩
  | 0x0003 => some ⟨0, 0, false, 100, [], []⟩
  | 0x0004 => some ⟨0, 0, true, 100, [8], [8]⟩
  | 0x0100 => some ⟨2, 2, false, 100, [2, 48], []⟩
  | 0x0101 => some ⟨2, 1, false, 100, [2], [48, 48]⟩
  | 0x0102 => some ⟨2, 2, false, 100, [2, 1, 8, 8], [1]⟩
  | 0x0103 => some ⟨2, 1, false, 100, [2, 1], [8, 8]⟩
  | 0x0104 => some ⟨2, 2, false, 100, [2, 8], []⟩
  | 0x0105 => some ⟨2, 0, false, 100, [8, 1, 2], []⟩
  | 0x0106 => some ⟨2, 0, false, 100, [8, 1, 2], []⟩
  | 0x0107 => some ⟨2, 2, false, 1000, [2], []⟩
  | _ => none

def cmdWork : Nat → Option Cmd
  | 0x0200 => some ⟨2, 2, false, 100, [2, 2, 1, 1, 1, 1, 1, 8, 8], [2]⟩
  | 0x0201 => some ⟨2, 2, false, 100, [2, 1], []⟩
  | 0x0202 => some ⟨2, 2, false, 1000, [2], []⟩
  | 0x0203 => some ⟨2, 1, false, 100, [2], [2, 8, 1, 1, 1, 8, 1, 4, 4, 1]⟩
  | 0x0204 => some ⟨2, 1, false, 1000, [8], []⟩
  | 0x0205 => some ⟨2, 1, false, 100, [2], []⟩
  | 0x0300 => some ⟨2, 2, false, 100, [2, 4, 4], [4]⟩
  | 0x0301 => some ⟨2, 2, false, 100, [4, 4], []⟩
  | 0x0302 => some ⟨2, 1, false, 100, [4, 1, 4], [4]⟩
  | 0x0303 => some ⟨2, 1, false, 100, [4, 1, 2], []⟩
  | 0x0304 => some ⟨2, 2, false, 100, [1, 2, 1, 4, 8, 8], []⟩
  | 0x0305 => some ⟨2, 2, false, 100, [1], []⟩
  | 0x0306 => some ⟨2, 2, false, 100, [2, 2, 4, 1, 8, 8, 4], [2]⟩
  | 0x0307 => some ⟨2, 1, false, 100, [2, 1, 4, 8], [8]⟩
  | 0x0308 => some ⟨2, 2, false, 100, [2], []⟩
  | 0x0400 => some ⟨2, 2, false, 10000,
      [4, 2, 1, 1, 1, 1, 2, 2, 1, 4, 4, 4, 4, 4, 4, 4, 4, 4, 4, 4, 4, 8], [8]⟩
  | 0x0401 => some ⟨2, 2, false, 10000, [8], []⟩
  | 0x0402 => some ⟨2, 2, false, 10000, [8, 4, 4, 8, 1], []⟩
  | 0x0403 => some ⟨2, 2, false, 10000, [8, 4, 4, 8, 1], []⟩
  | 0x0404 => some ⟨2, 2, false, 10000, [8, 4, 8, 1], []⟩
  | 0x0405 => some ⟨2, 2, false, 100, [4], [8]⟩
  | 0x0406 => some ⟨2, 2, false, 100, [1, 1, 2], [2]⟩
  | 0x0407 => some ⟨2, 2, false, 100, [1], []⟩
  | _ => none

def cmdModule : Nat → Option Cmd
  | 0x0500 => some ⟨2, 2, false, 1000, [8], []⟩
  | 0x0501 => some ⟨2, 2, false, 1000, [2], []⟩
  | 0x0502 => some ⟨2, 2, false, 1000, [8], []⟩
  | 0x0503 => some ⟨2, 2, false, 100, [2, 1], []⟩
  | 0x0504 => some ⟨2, 2, false, 100, [2, 2, 1, 1], []⟩
  | 0x0600 => some ⟨2, 0, false, 100, [],
      [1, 1, 2, 1, 1, 1, 1, 1, 1, 1, 1, 1, 1, 1, 1, 8, 8, 8, 8, 8, 8, 8, 8, 8, 8, 8, 8, 8, 8]⟩
  | 0x0601 => some ⟨2, 0, false, 100, [1], [8, 8]⟩
  | 0x0602 => some ⟨2, 2, false, 1000, [1], [4]⟩
  | 0x0603 => some ⟨2, 2, false, 100, [1, 1, 2], []⟩
  | 0x0604 => some ⟨2, 2, false, 100, [1, 1, 2], []⟩
  | 0x0605 => some ⟨2, 2, false, 100, [1, 1, 2, 2], []⟩
  | 0x0700 => some ⟨2, 2, false, 100, [8, 2], []⟩
  | 0x0701 => some ⟨2, 2, false, 100, [], []⟩
  | 0x0702 => some ⟨2, 2, false, 100, [1, 1, 1, 2], []⟩
  | 0x0703 => some ⟨2, 2, false, 700, [1], [1]⟩
  | 0x0704 => some ⟨2, 2, false, 100, [2], []⟩
  | 0x0705 => some ⟨2, 2, false, 100, [1, 2, 2], []⟩
  | 0x0706 => some ⟨2, 2, false, 3000, [], [4]⟩
  | 0x0707 => some ⟨2, 2, false, 100, [], []⟩
  | 0x0800 => some ⟨2, 2, false, 1100, [1, 1], [8]⟩
  | 0x0801 => some ⟨2, 2, false, 100, [], [8]⟩
  | 0x0802 => some ⟨2, 2, false, 1100, [1], [8]⟩
  | 0x0803 => some ⟨2, 2, false, 100, [8], []⟩
  | 0x0804 => some ⟨2, 2, false, 100, [], []⟩
  | 0x0900 => some ⟨1, 2, false, 100, [8, 1, 1], [1, 1]⟩
  | 0x0901 => some ⟨1, 2, false, 100, [2], [2]⟩
  | 0x0902 => some ⟨1, 0, false, 100, [], [2, 2, 2, 2, 1, 1]⟩
  | 0x0903 => some ⟨1, 2, false, 100, [1, 1], []⟩
  | 0x0A00 => some ⟨0, 2, true, 3000, [8, 4], []⟩
  | 0x0A01 => some ⟨0, 2, false, 3000, [8, 4], []⟩
  | 0x0A02 => some ⟨0, 2, false, 1000, [8, 4], [4]⟩
  | 0x0A03 => some ⟨0, 2, false, 100, [8, 4], [4]⟩
  | 0x0A04 => some ⟨2, 2, false, 100, [1, 2], []⟩
  | 0x0B00 => some ⟨2, 2, false, 100, [8, 1], []⟩
  | 0x0B01 => some ⟨2, 2, false, 100, [8, 8], []⟩
  | _ => none

/-- The command of a code. -/
def cmdOf (code : Nat) : Option Cmd :=
  if code < 0x0200 then cmdSession code else if code < 0x0500 then cmdWork code else cmdModule code

/-- Index of a TENANT argument. -/
def cmdTenant (code : Nat) : Option Nat :=
  if [0x0100, 0x0101, 0x0102, 0x0103, 0x0104, 0x0107, 0x0205, 0x0300].contains code then some 0
  else if [0x0200, 0x0304, 0x0306, 0x0400].contains code then some 1 else none

/-- Commands that the security core's boot code serves (R581). -/
def romCmd (code : Nat) : Bool := [0x0001, 0x0002, 0x0003, 0x0004, 0x0A00, 0x0A02].contains code

/-! ### Layout of messages (R575, R576) -/

/-- Offsets of fields packed from 0x10, and the end. -/
def fieldOffsets : List Nat → Nat → List Nat × Nat
  | [], o => ([], o)
  | n :: r, o =>
    let al := min n 8
    let a := (o + al - 1) / al * al
    let (os, e) := fieldOffsets r (a + n)
    (a :: os, e)

/-- LEN of a message whose last field ends at `e`. -/
def msgLen (e : Nat) : Nat := max 2 ((e + 7) / 8)

/-- Argument `i` of a request. -/
def argOf (c : Cmd) (msg i : Nat) : Nat :=
  byteField msg (((fieldOffsets c.args 0x10).1[i]?).getD 0) ((c.args[i]?).getD 0)

/-- Argument `i` of a request, by the table. -/
def msgArg (msg i : Nat) : Nat := ((cmdOf (byteField msg 4 2)).map (fun c => argOf c msg i)).getD 0

def msgCode (msg : Nat) : Nat := byteField msg 4 2
def msgSession (msg : Nat) : Nat := byteField msg 6 2

/-- A response to a request. A failed command's has the header only, but where its
chapter gives it a result all the same (19 R605). -/
def response (msg : Nat) (st : Status) (retry : Nat) (sizes vals : List Nat) : Nat :=
  let (os, e) := if st = 0 ∨ !vals.isEmpty then fieldOffsets sizes 0x10 else ([], 0x10)
  let body := ((os.zip sizes).zip vals).foldl (fun (m : Nat) x =>
    setBits m (8 * x.1.1) (8 * x.1.2) x.2) 0
  1 + 2 ^ 8 * msgLen e + 2 ^ 16 * 0x81 + 2 ^ 32 * msgCode msg + 2 ^ 48 * msgSession msg
    + 2 ^ 64 * byteField msg 8 4 + 2 ^ 96 * st.toNat + 2 ^ 112 * (retry % 65536) + body

/-- Bytes of a request that no argument covers: they shall be 0. -/
def gapsOk (c : Cmd) (msg : Nat) : Bool :=
  let (os, e) := fieldOffsets c.args 0x10
  let used (i : Nat) : Bool := (os.zip c.args).any (fun x => decide (x.1 ≤ i) && decide (i < x.1 + x.2))
  ((List.range (8 * msgLen e)).drop 16).all (fun i => used i || byteField msg i 1 == 0)

/-- Check 1 (R577, R6): version, LEN, KIND and reserved fields. The length of an
undefined command cannot be judged. -/
def msgFormatOk (msg : Nat) : Bool :=
  byteField msg 0 1 == 1 && byteField msg 2 2 == 0x80 && byteField msg 12 4 == 0
    && decide (2 ≤ byteField msg 1 1) && decide (byteField msg 1 1 ≤ 32)
    && (match cmdOf (msgCode msg) with
        | some c => byteField msg 1 1 == msgLen (fieldOffsets c.args 0x10).2 && gapsOk c msg
        | none => true)

/-! ### Issuers -/

/-- The function whose rights a request has: a peer and the sideband act as the
PF (R580). -/
def issuerFn : Issuer → Nat
  | .func f => f
  | _ => 0

/-- Does a request need a session? -/
def issuerNeedsSession : Issuer → Bool
  | .func _ => true
  | _ => false

/-- Is a tenant licensed? (R559) -/
def State.tenantLicensed (s : State) (t : Nat) : Bool := decide (t < 64) || s.licences.getLsbD 4

/-- The tenant of the object that an Own command names, if it exists. -/
def State.objectOwner (s : State) (code msg : Nat) : Option Nat :=
  match code with
  | 0x0203 => (s.hwq (msgArg msg 0)).map (·.tenant)
  | 0x0204 =>
    match s.graphOf (msgArg msg 0) with
    | some g => some g.tenant
    | none =>
      (s.graph.entries.find? (fun (e : ReadEntry) => e.seq == msgArg msg 0)).map (fun (e : ReadEntry) => e.tenant)
  | 0x0302 | 0x0303 =>
    let o := s.so (msgArg msg 0)
    if o.valid then some o.tenant.toNat else none
  | 0x0307 =>
    let a := Table.getD s.dma.acs (msgArg msg 0) ArrivalCounter.reset
    if a.valid then some a.tenant.toNat else none
  | _ => none

/-- The TENANT an Own command acts for: 0xFFFF means the issuer itself. -/
def ownTenant (iss : Issuer) (v : Nat) : Nat := if v = 0xFFFF then (issuerFn iss) else v

/-- Checks 1 to 6 of R577. -/
def State.msgCheck (s : State) (iss : Issuer) (msg : Nat) : Option Status :=
  let code := msgCode msg
  let f := (issuerFn iss)
  let open_ := (s.func f).session.toNat
  let ses := msgSession msg
  if !msgFormatOk msg then some ST_MBX_FMT
  else
    let c := cmdOf code
    let pre := (c.map (·.pre)).getD false && ses == 0
    if issuerNeedsSession iss && !pre && (open_ == 0 || ses != open_) then some ST_MBX_NO_SESSION
    else
      match c with
      | none => some ST_MBX_CMD
      | some c =>
        let ten := (cmdTenant code).map (fun i => argOf c msg i)
        let foreign :=
          if c.who = 1 ∧ f ≠ 0 then
            match ten with
            | some t => ownTenant iss t != f
            | none => (s.objectOwner code msg).elim false (fun o => o != f)
          else false
        if (c.who = 2 ∧ f ≠ 0) ∨ foreign then some ST_ISO_PRIV
        else if !s.tenantLicensed f && code != 0x0001 then some ST_LIC_TENANTS
        else if ten.elim false (fun t => decide (t < 1024) && !s.tenantLicensed t) then some ST_LIC_TENANTS
        else
          -- in FW_STATE 0 and 4 the boot code alone serves (R581)
          let up := s.fw.state == 2 || s.fw.state == 3
          if !up && !romCmd code then some ST_MBX_NO_FW else none

/-! ### Admission (R582, R583) -/

def State.coreQ (s : State) (core : Nat) : CoreQueue :=
  if core = 0 then s.hif.secq else if core = 1 then s.hif.pwrq else s.hif.schq
def State.setCoreQ (s : State) (core : Nat) (q : CoreQueue) : State :=
  if core = 0 then { s with hif := { s.hif with secq := q } }
  else if core = 1 then { s with hif := { s.hif with pwrq := q } }
  else { s with hif := { s.hif with schq := q } }

/-- Is an admitted request one of the management channel? -/
def Admitted.isPeer (a : Admitted) : Bool :=
  match a.issuer with
  | .peer _ _ => true
  | _ => false

/-- Places free for functions: one of the 32 is reserved for the management
channel, and a held place is taken. -/
def CoreQueue.free (q : CoreQueue) : Nat :=
  let peers := (q.queue.filter Admitted.isPeer).length
  31 - ((q.queue.length - peers) + (peers - 1) + (q.ring.filter (fun e => e.held)).length)

/-- Enrolled functions in ring order: the PF and the VFs alternate, the VFs in
increasing number from the one after the last served. -/
def CoreQueue.order (q : CoreQueue) (fs : List Nat) : List Nat :=
  let vfs := ((List.range 1024).drop 1).filter (fun f => fs.contains f)
  let vfs := vfs.filter (fun f => decide (q.lastVf < f)) ++ vfs.filter (fun f => decide (f ≤ q.lastVf))
  if !fs.contains 0 then vfs
  else if q.lastPf then vfs.take 1 ++ [0] ++ vfs.drop 1 else 0 :: vfs

/-- Functions that wait and hold no place yet. -/
def CoreQueue.waiting (q : CoreQueue) : List Nat := (q.ring.filter (fun e => !e.held)).map (·.func)

/-- Hold freed places for the next enrolled functions. -/
def CoreQueue.distribute (q : CoreQueue) : CoreQueue :=
  iter (fun (q : CoreQueue) =>
    match q.order q.waiting with
    | [] => q
    | f :: _ =>
      if q.free = 0 then q
      else { q with ring := q.ring.map (fun e => if e.func = f then { e with held := true } else e)
                    lastPf := f == 0, lastVf := if f = 0 then q.lastVf else f }) 32 q

/-- Mean service time in ticks of the last commands; none if none was served. -/
def CoreQueue.mean (q : CoreQueue) : Option Nat :=
  if q.times.isEmpty then none else some (q.times.sum / q.times.length)

/-- RETRY_AFTER in ticks (R583). -/
def retryAfter (d e mean : Nat) : Nat := max (usTicks 10) (min (msTicks 100) ((d + e) * mean))

/-- Enrol a function, or keep its place and extend it. -/
def CoreQueue.enrol (q : CoreQueue) (f until_ : Nat) : CoreQueue :=
  if q.ring.any (fun e => e.func == f) then
    { q with ring := q.ring.map (fun e => if e.func = f then { e with until_ := max e.until_ until_ } else e) }
  else { q with ring := q.ring ++ [{ func := f, until_ := until_, held := false }] }

/-- Push an answer to a request. -/
def State.answer (s : State) (iss : Issuer) (msg : Nat) : State :=
  { s with hif := { s.hif with answers := s.hif.answers ++ [{ issuer := iss, msg := BitVec.ofNat 2048 msg }] } }

/-- Admit a request, or answer BUSY with the hint and enrol its function. -/
def State.admitReq (s : State) (iss : Issuer) (core msg : Nat) : State :=
  let q := (s.coreQ core).distribute
  let a : Admitted := { issuer := iss, msg := BitVec.ofNat 2048 msg, at_ := s.time, started := false,
                        mute := false, lost := false }
  let put (q : CoreQueue) : State := s.setCoreQ core { q with queue := q.queue ++ [a] }
  let f := (issuerFn iss)
  let holder := q.ring.any (fun e => e.func == f && e.held)
  if a.isPeer then
    if q.queue.length < 32 ∧ (q.free ≠ 0 ∨ !q.queue.any Admitted.isPeer) then put q
    else
      -- a peer is no function: it is told the hint and not enrolled
      let (m, s) := match q.mean with
        | some m => (m, s)
        | none => let (v, s) := s.freshLong; (v.toNat, s)
      let r := retryAfter q.queue.length q.waiting.length m
      (s.setCoreQ core q).answer iss (response msg ST_MBX_BUSY ((r + usTicks 4 - 1) / usTicks 4) [] [])
  else if holder then put { q with ring := q.ring.filter (fun e => e.func != f) }
  else if q.free ≠ 0 then put { q with ring := q.ring.filter (fun e => e.func != f) }
  else
    let fs := if q.waiting.contains f then q.waiting else q.waiting ++ [f]
    let ahead := (q.order fs).idxOf f
    let (m, s) := match q.mean with
      | some m => (m, s)
      | none => let (v, s) := s.freshLong; (v.toNat, s)
    let r := retryAfter q.queue.length ahead m
    let s := s.setCoreQ core (q.enrol f (s.time + 2 * r + msTicks 1))
    let s := match iss with
      | .func g => s.updFunc g (fun x => { x with retryUs := BitVec.ofNat 32 ((r + 24) / 25) })
      | _ => s
    s.answer iss (response msg ST_MBX_BUSY ((r + usTicks 4 - 1) / usTicks 4) [] [])

/-- Submit a request: the checks of R577 in order, then admission. -/
def State.submit (s : State) (iss : Issuer) (msg : Nat) : State :=
  match s.msgCheck iss msg with
  | some st => s.answer iss (response msg st 0 [] [])
  | none =>
    match cmdOf (msgCode msg) with
    | some c => s.admitReq iss c.core msg
    | none => s

/-! ### Service -/

/-- What a command's work gives: nothing yet, or a status and its results. -/
abbrev Reply := Option (Status × List Nat)

/-- A reply with a status alone, and one with results. -/
def done (st : Status) : Reply := some (st, [])
def reply (vals : List Nat) : Reply := some (0, vals)

/-- Remove the first element that a test picks. -/
def dropFirst {α : Type} (p : α → Bool) : List α → List α
  | [] => []
  | x :: r => if p x then r else x :: dropFirst p r

/-- The admitted request of an issuer for a command that a core serves now: one
whose work has begun, or the oldest that has not. -/
def CoreQueue.served (q : CoreQueue) (iss : Issuer) (code : Nat) : Option Admitted :=
  let mine (a : Admitted) : Bool := a.issuer == iss && msgCode a.msg.toNat == code && !a.lost
  match q.queue.find? (fun a => mine a && a.started) with
  | some a => some a
  | none =>
    match q.queue.find? (fun a => !a.started && !a.lost) with
    | some a => if mine a then some a else none
    | none => none

/-- Serve a command of an issuer at time `t`: its core takes it in admission order
and does `work` (told whether it has begun before), which replies at once or
later. Nothing happens where no such request is due or its core does not run. -/
def State.serve (iss : Issuer) (code t : Nat) (work : Bool → Nat → State → Reply × State) (s : State) : Out :=
  let s := s.at t
  match cmdOf code with
  | none => .next s
  | some c =>
    let core := if c.core = 0 then 64 else if c.core = 1 then 65 else 66
    let rom := romCmd code && !s.fw.switching.getLsbD 64
    let q := s.coreQ c.core
    match q.served iss code with
    | none => .next s
    | some a =>
      if !s.coreRuns core && !rom then .next s
      else
        let same (x : Admitted) : Bool := x == a
        match work a.started a.msg.toNat s with
        | (none, s) =>
          let q := s.coreQ c.core
          .next (s.setCoreQ c.core { q with queue := changeFirst same (fun x => { x with started := true }) q.queue })
        | (some (st, vals), s) =>
          let q := s.coreQ c.core
          let q := { q with queue := dropFirst same q.queue
                            times := (s.time - max a.at_ q.lastDone) :: q.times.take 63, lastDone := s.time }
          let s := s.setCoreQ c.core q.distribute
          .next (if a.mute then s else s.answer iss (response a.msg.toNat st 0 c.res vals))

/-- A command that is done in one piece. -/
def State.serveNow (iss : Issuer) (code t : Nat) (work : Nat → State → Reply × State) (s : State) : Out :=
  State.serve iss code t (fun _ msg s => work msg s) s

end Sys2Proof.Machine
end

