-- ==== Sys2Proof/Machine/SyncCmds.lean ====
section
/-! DEFINITION. The commands of the sync unit, and the mailbox commands on
queues, graphs, sync objects, barrier groups and arrival counters (chapters 12,
13 and 18 R586). -/

namespace Sys2Proof.Machine

/-! ### Operations of units (R409, R410, R416) -/

/-- The tenant of a waiting unit, if it exists. -/
def State.unitTenant (s : State) (u : SyncUnit) : Option Nat :=
  match u with
  | .stream t _ => some (s.tile t).tenant
  | .node seq _ => (s.graphOf seq).map (fun (g : GraphRun) => g.tenant)
  | .stack c _ => (Table.find s.stks.chains c).map (fun (x : StackChain) => x.tenant)

/-- Unit kind and index of R529 for a unit that operates. -/
def unitKindOf : SyncUnit → Nat × Nat
  | .stream t _ => (2, t)
  | .node _ _ => (10, 0)
  | .stack _ _ => (3, 0)

/-- An operation of a unit on an object: a stream's is the SYNC operation it is
about to issue; another unit's reaches the sync unit at once. -/
def State.unitOp (s : State) (u : SyncUnit) (sop so v : Nat) (run : State → State) : Out :=
  match u with
  | .stream t exec =>
    match (s.tile t).opWord exec with
    | some w =>
      if bits w 8 4 = sop ∧ bits w 24 17 = so ∧ bits w 48 16 = v then execSync t exec s else .next s
    | none => .next s
  | _ =>
    match s.unitTenant u with
    | none => .next s
    | some ten =>
      if s.soAllowed ten so then .next (run s)
      else
        let s := s.soBlocked (unitKindOf u).1 (unitKindOf u).2 ten so
        .next (if sop = 0 then s else s.wake u ST_ISO_SYNC)

/-- A wait of a unit: it goes on at once, or when it is released. -/
def State.unitWait (s : State) (u : SyncUnit) (so v : Nat) (dec : Bool) : State :=
  match s.soWait so v dec u with
  | .passed s => s.wake u 0
  | .waits s => s

/-- SIGNAL (R409). -/
def execSoSignal (u : SyncUnit) (so v : Nat) (s : State) : Out :=
  s.unitOp u 0 so v (fun s => s.soSignal so v)
/-- WAIT. -/
def execSoWait (u : SyncUnit) (so v : Nat) (s : State) : Out :=
  s.unitOp u 1 so v (fun s => s.unitWait u so v false)
/-- WAIT_DEC. -/
def execSoWaitDec (u : SyncUnit) (so v : Nat) (s : State) : Out :=
  s.unitOp u 2 so v (fun s => s.unitWait u so v true)
/-- SET. -/
def execSoSet (u : SyncUnit) (so v : Nat) (s : State) : Out :=
  s.unitOp u 3 so v (fun s => s.soSet so v)
/-- DEC. -/
def execSoDec (u : SyncUnit) (so v : Nat) (s : State) : Out :=
  s.unitOp u 4 so v (fun s => s.soDec so v)

/-- A barrier operation that a stream is about to issue (R425). -/
def State.barOp (s : State) (t : Nat) (exec : Bool) (sop g : Nat) : Out :=
  match (s.tile t).opWord exec with
  | some w => if bits w 8 4 = sop ∧ bits w 24 6 = g then execSync t exec s else .next s
  | none => .next s

/-- BAR. -/
def execBar (t : Nat) (exec : Bool) (g : Nat) (s : State) : Out := s.barOp t exec 5 g
/-- BAR_ARRIVE. -/
def execBarArrive (t : Nat) (exec : Bool) (g : Nat) (s : State) : Out := s.barOp t exec 6 g
/-- BAR_WAIT. -/
def execBarWait (t : Nat) (exec : Bool) (g : Nat) (s : State) : Out := s.barOp t exec 7 g

/-- The first waiting operation that found the waiter table full is retried
(R414); an object that is no longer the tenant's blocks it (R416). -/
def execWaiterRetry (u : SyncUnit) (s : State) : Out :=
  match s.sync.retried.find? (fun (r : Retried) => r.waiter.unit == u) with
  | none => .next s
  | some r =>
    let s := ({ s with sync := { s.sync with
        retried := dropFirst (fun (x : Retried) => x.waiter.unit == u) s.sync.retried } }).cntMod 73 1
    if !s.soAllowed r.tenant r.so then
      .next ((s.soBlocked (unitKindOf u).1 (unitKindOf u).2 r.tenant r.so).wake u ST_ISO_SYNC)
    else .next (s.unitWait u r.so r.waiter.t r.waiter.dec)

/-- A write of SYNC_SOn_COUNT acts as a mailbox SET; writes of others than the
scheduler core are ignored (R429). -/
def execSoCountWrite (r : Requester) (n v : Nat) (s : State) : Out :=
  if r ≠ .scheduler ∨ 131072 ≤ n then .next s
  else if (s.so n).valid then .next (s.soSet n (v % 2 ^ 32))
  else .next (s.soBlocked 7 0 0 n)

/-! ### Sync objects through the mailbox -/

/-- Sync objects of a tenant that are allocated. -/
def State.sosOf (s : State) (tenant : Nat) : Nat :=
  (s.sync.objs.filter (fun o => o.2.valid && o.2.tenant.toNat == tenant)).length

/-- Is a run of objects wholly free? -/
def State.soRunFree (s : State) (first n : Nat) : Bool :=
  !s.sync.objs.any (fun o => o.2.valid && decide (first ≤ o.1) && decide (o.1 < first + n))

/-- The lowest free run of `n` objects: it begins at 0 or after an allocated one. -/
def State.soRun (s : State) (n : Nat) : Option Nat :=
  (0 :: (s.sync.objs.filter (fun o => o.2.valid)).map (fun o => o.1 + 1)).find? (fun a =>
    decide (a + n ≤ 131072) && s.soRunFree a n)

/-- Put `n` fresh objects of a tenant in a table from `first` on. -/
def freshObjs (first n tenant : Nat) (t : Table SyncObj) : Table SyncObj :=
  let o : SyncObj := { SyncObj.reset with thresh := 1, tenant := BitVec.ofNat 10 tenant, valid := true }
  t.filter (fun x => decide (x.1 < first)) ++ (List.range n).map (fun i => (first + i, o))
    ++ t.filter (fun x => decide (first + n ≤ x.1))

/-- SO_ALLOC (R586, R408). -/
def execSoAlloc (iss : Issuer) (t : Nat) (s : State) : Out :=
  State.serveNow iss 0x0300 t (fun m s =>
    let ten := msgArg m 0
    let first := msgArg m 1
    let n := msgArg m 2
    if 1024 ≤ ten ∨ n = 0 then (done ST_MBX_ARG, s)
    else if s.quotaField ten 0x18 4 < s.sosOf ten + n then (done ST_MBX_QUOTA, s)
    else
      let at_ : Except Status Nat :=
        if first = 0xFFFFFFFF then
          (match s.soRun n with
           | some a => .ok a
           | none => .error ST_MBX_QUOTA)
        else if 131072 < first + n ∨ !s.soRunFree first n then .error ST_MBX_ARG
        else .ok first
      match at_ with
      | .error st => (done st, s)
      | .ok a => (reply [a], { s with sync := { s.sync with objs := freshObjs a n ten s.sync.objs } })) s

/-- SO_FREE: every unit waiting on a freed object ends with ST_SO_FREED (R415). -/
def execSoFree (iss : Issuer) (t : Nat) (s : State) : Out :=
  State.serveNow iss 0x0301 t (fun m s =>
    let first := msgArg m 0
    let n := msgArg m 1
    let there := (s.sync.objs.filter (fun o => o.2.valid && decide (first ≤ o.1)
      && decide (o.1 < first + n))).map Prod.fst
    if n = 0 ∨ 131072 < first + n ∨ there.length ≠ n then (done ST_MBX_ARG, s)
    else
      (done 0, there.foldl (fun s a =>
        let s := s.endWaiters a
        { s with sync := { s.sync with objs := Table.del s.sync.objs a } }) s)) s

/-- SO_OP: SIGNAL, SET and DEC act; WAIT and WAIT_DEC never wait (R586). -/
def execSoOp (iss : Issuer) (t : Nat) (s : State) : Out :=
  State.serveNow iss 0x0302 t (fun m s =>
    let n := msgArg m 0
    let sop := msgArg m 1
    let v := msgArg m 2
    let count (s : State) : Reply × State := (reply [(s.so n).count.toNat], s)
    if 131072 ≤ n ∨ 4 < sop then (done ST_MBX_ARG, s)
    else if !(s.so n).valid then
      let s := s.soBlocked 7 0 (issuerFn iss) n
      if sop = 0 then count s else (done ST_ISO_SYNC, s)
    else
      let o := s.so n
      match sop with
      | 0 => count (s.soSignal n v)
      | 3 => count (s.soSet n v)
      | 4 => count (s.soDec n v)
      | k =>
        let th := o.threshold v
        if o.count.toNat < th then (done ST_SO_NOT_READY, s)
        else if k = 1 then count (s.cntSync 1 1)
        else
          let s := s.setSo n { o with count := BitVec.ofNat 32 (o.count.toNat - th) }
          count ((s.cntSync 2 1).passObj n o.count.toNat)) s

/-- SO_CFG. -/
def execSoCfg (iss : Issuer) (t : Nat) (s : State) : Out :=
  State.serveNow iss 0x0303 t (fun m s =>
    let n := msgArg m 0
    if 131072 ≤ n ∨ 1 < msgArg m 1 ∨ !(s.so n).valid then (done ST_MBX_ARG, s)
    else
      (done 0, s.setSo n { s.so n with irqEn := msgArg m 1 == 1, thresh := BitVec.ofNat 16 (msgArg m 2) })) s

/-! ### Barrier groups -/

/-- Barrier groups bound to a tenant, another group than `g`. -/
def State.barsOf (s : State) (tenant g : Nat) : Nat :=
  (s.sync.bars.filter (fun b => b.2.valid && b.2.tenant.toNat == tenant && b.1 != g)).length

/-- Unbind a group: its waiting members end with ST_SO_FREED (R426). -/
def State.barUnbind (s : State) (g : Nat) : State :=
  let b := s.bar g
  let s := s.setBar g { b with valid := false, arrived := [], recorded := [], waiting := [], second := [] }
  (b.waiting ++ b.second.map (fun x => (x.1, x.2.1))).foldl (fun s w =>
    s.wake (.stream w.1 w.2) ST_SO_FREED) s

/-- BAR_BIND (R422). -/
def execBarBind (iss : Issuer) (t : Nat) (s : State) : Out :=
  State.serveNow iss 0x0304 t (fun m s =>
    let g := msgArg m 0
    let ten := msgArg m 1
    if 64 ≤ g ∨ 1024 ≤ ten ∨ 1 < msgArg m 2 ∨ 131072 ≤ msgArg m 3 then (done ST_MBX_ARG, s)
    else if s.quotaField ten 0x22 1 ≤ s.barsOf ten g then (done ST_MBX_QUOTA, s)
    else
      let s := if (s.bar g).valid then s.barUnbind g else s
      let b : Barrier := { Barrier.reset with
        tenant := BitVec.ofNat 10 ten, sigEn := msgArg m 2 == 1, valid := true
        so := BitVec.ofNat 17 (msgArg m 3), qmask := BitVec.ofNat 64 (msgArg m 4)
        tmask := BitVec.ofNat 64 (msgArg m 5), phase := (s.bar g).phase }
      (done 0, s.setBar g b)) s

/-- BAR_UNBIND. -/
def execBarUnbind (iss : Issuer) (t : Nat) (s : State) : Out :=
  State.serveNow iss 0x0305 t (fun m s =>
    let g := msgArg m 0
    if 64 ≤ g ∨ !(s.bar g).valid then (done ST_MBX_ARG, s) else (done 0, s.barUnbind g)) s

/-! ### Arrival counters (12 R394 to R396) -/

def State.ac (s : State) (n : Nat) : ArrivalCounter := Table.getD s.dma.acs n ArrivalCounter.reset
def State.setAc (s : State) (n : Nat) (x : ArrivalCounter) : State :=
  { s with dma := { s.dma with acs := Table.put s.dma.acs n x } }

/-- Does a bound counter's range meet `n` bytes from `a` on? -/
def ArrivalCounter.meets (x : ArrivalCounter) (a n : Nat) : Bool :=
  x.valid && decide (a < x.base.toNat + 64 * x.size64.toNat) && decide (x.base.toNat < a + n)

/-- AC_BIND. -/
def execAcBind (iss : Issuer) (t : Nat) (s : State) : Out :=
  State.serveNow iss 0x0306 t (fun m s =>
    let ac := msgArg m 0
    let ten := msgArg m 1
    let base := msgArg m 4
    let size := msgArg m 5
    let bound := s.dma.acs.filter (fun x => x.2.valid)
    if (4096 ≤ ac ∧ ac ≠ 0xFFFF) ∨ 1024 ≤ ten ∨ 131072 ≤ msgArg m 2 ∨ 1 < msgArg m 3 ∨ base % 64 ≠ 0
        ∨ size % 64 ≠ 0 ∨ size = 0 ∨ 2 ^ 38 < size ∨ 2 ^ 48 < base + size then (done ST_MBX_ARG, s)
    else if s.quotaField ten 0x20 2 ≤ (bound.filter (fun x => x.2.tenant.toNat == ten)).length then
      (done ST_MBX_QUOTA, s)
    else if bound.any (fun x => x.2.meets base size) then (done ST_AC_BIND, s)
    else
      let place := if ac = 0xFFFF then Table.lowestFree bound 4096
        else if bound.any (fun x => x.1 == ac) then none else some ac
      match place with
      | none => (done ST_AC_BIND, s)
      | some a =>
        let x : ArrivalCounter :=
          { tenant := BitVec.ofNat 10 ten, sigEn := msgArg m 3 == 1, sat := false, valid := true
            so := BitVec.ofNat 17 (msgArg m 2), base := BitVec.ofNat 48 base
            size64 := BitVec.ofNat 33 (size / 64), target := BitVec.ofNat 32 (msgArg m 6), count := 0 }
        (reply [a], s.setAc a x)) s

/-- AC_SET: TARGET, and COUNT where FLAGS asks; the answer is COUNT before. -/
def execAcSet (iss : Issuer) (t : Nat) (s : State) : Out :=
  State.serveNow iss 0x0307 t (fun m s =>
    let a := msgArg m 0
    let c := msgArg m 3
    let x := s.ac a
    if 4096 ≤ a ∨ !x.valid ∨ 1 < msgArg m 1 ∨ (msgArg m 1 = 1 ∧ 2 ^ 40 ≤ c) then (done ST_MBX_ARG, s)
    else
      (reply [x.count.toNat], s.setAc a { x with
        target := BitVec.ofNat 32 (msgArg m 2)
        count := if msgArg m 1 = 1 then BitVec.ofNat 40 c else x.count })) s

/-- AC_UNBIND: the counter stops counting at once. -/
def execAcUnbind (iss : Issuer) (t : Nat) (s : State) : Out :=
  State.serveNow iss 0x0308 t (fun m s =>
    let a := msgArg m 0
    if 4096 ≤ a ∨ !(s.ac a).valid then (done ST_MBX_ARG, s)
    else (done 0, s.setAc a { s.ac a with valid := false, size64 := 0 })) s

/-! ### Hardware queues (07 R227, R232) -/

/-- Hardware queues of a tenant. -/
def State.queuesOf (s : State) (tenant : Nat) : Nat :=
  (s.graph.queues.filter (fun q => q.2.tenant == tenant)).length

/-- Q_CREATE. -/
def execQCreate (iss : Issuer) (t : Nat) (s : State) : Out :=
  State.serveNow iss 0x0200 t (fun m s =>
    let q := msgArg m 0
    let ten := msgArg m 1
    if 1024 ≤ ten ∨ msgArg m 2 < 4 ∨ 16 < msgArg m 2 ∨ 7 < msgArg m 3 ∨ 1 < msgArg m 4 ∨ 1 < msgArg m 5
        ∨ 1 < msgArg m 6 ∨ msgArg m 7 % 64 ≠ 0 then (done ST_MBX_ARG, s)
    else
      let place : Except Status Nat :=
        if q = 0xFFFF then
          (match Table.lowestFree s.graph.queues 8192 with
           | some k => .ok k
           | none => .error ST_MBX_QUOTA)
        else if 8192 ≤ q ∨ (s.hwq q).isSome then .error ST_MBX_ARG
        else .ok q
      match place with
      | .error st => (done st, s)
      | .ok k =>
        if s.quotaField ten 0x00 2 ≤ s.queuesOf ten then (done ST_MBX_QUOTA, s)
        else
          let x : HwQueue :=
            { tenant := ten, ringBase := BitVec.ofNat 64 (msgArg m 7), ringLoc := BitVec.ofNat 1 (msgArg m 5)
              sizeLog2 := msgArg m 2, prioMax := BitVec.ofNat 3 (min (msgArg m 3) (s.quotaField ten 0x23 1))
              shadowAddr := BitVec.ofNat 64 (msgArg m 8), shadowLoc := BitVec.ofNat 1 (msgArg m 6)
              head := 0, tail := 0, enabled := true, serving := msgArg m 4 == 1, shadowDue := none }
          (reply [k], { s with graph := { s.graph with queues := Table.put s.graph.queues k x } })) s

/-- Q_STATE: entries not yet read stay unread while the queue is disabled. -/
def execQState (iss : Issuer) (t : Nat) (s : State) : Out :=
  State.serveNow iss 0x0201 t (fun m s =>
    let q := msgArg m 0
    if (s.hwq q).isNone ∨ 1 < msgArg m 1 then (done ST_MBX_ARG, s)
    else (done 0, s.updHwq q (fun x => { x with enabled := msgArg m 1 == 1 }))) s

/-- Has every graph read from a queue completed? A serving queue has none. -/
def State.queueQuiet (s : State) (q : Nat) : Bool :=
  !s.graph.entries.any (fun (e : ReadEntry) => e.queue == q)
    && !s.graph.graphs.any (fun g => g.2.queue == q)

/-- Q_DESTROY: the queue is disabled at once and removed when every graph read
from it has completed. -/
def execQDestroy (iss : Issuer) (t : Nat) (s : State) : Out :=
  State.serve iss 0x0202 t (fun _ m s =>
    let q := msgArg m 0
    if (s.hwq q).isNone then (done ST_MBX_ARG, s)
    else
      let s := s.updHwq q (fun x => { x with enabled := false })
      if !s.queueQuiet q then (none, s)
      else (done 0, { s with graph := { s.graph with queues := Table.del s.graph.queues q } })) s

/-- Q_QUERY. -/
def execQQuery (iss : Issuer) (t : Nat) (s : State) : Out :=
  State.serveNow iss 0x0203 t (fun m s =>
    match s.hwq (msgArg m 0) with
    | none => (done ST_MBX_ARG, s)
    | some x =>
      (reply [x.tenant, x.ringBase.toNat, x.ringLoc.toNat, x.sizeLog2, x.prioMax.toNat,
              x.shadowAddr.toNat, x.shadowLoc.toNat, x.head.toNat, x.tail.toNat, b2n x.enabled], s)) s

/-! ### Graphs and descriptor caches -/

/-- Abort a graph by SEQ, begun or not (07 R259). -/
def State.abortSeq (s : State) (seq : Nat) (st : Status) : State :=
  let begun (s : State) : State := s.failGraph seq st 0xFFFF (failUnit 4 0)
  match s.graph.entries.find? (fun (e : ReadEntry) => e.seq == seq) with
  | none => begun s
  | some e =>
    let pm := ((s.hwq e.queue).map (fun q => q.prioMax.toNat)).getD 7
    let g := graphRun e s.time pm false
    begun { s with graph := { s.graph with
      entries := s.graph.entries.filter (fun (x : ReadEntry) => x.seq != seq)
      graphs := Table.put s.graph.graphs seq g } }

/-- Is an entry or a graph of this SEQ still under way? -/
def State.seqAlive (s : State) (seq : Nat) : Bool :=
  (s.graphOf seq).isSome || s.graph.entries.any (fun (e : ReadEntry) => e.seq == seq)

/-- GRAPH_ABORT: completes when the graph has stopped; one that has completed
already is not affected. -/
def execGraphAbort (iss : Issuer) (t : Nat) (s : State) : Out :=
  State.serve iss 0x0204 t (fun started m s =>
    let seq := msgArg m 0
    let s := if started || !s.seqAlive seq then s else s.abortSeq seq ST_GRAPH_ABORTED
    if s.seqAlive seq then (none, s) else (done 0, s)) s

/-- Invalidate a tenant's descriptor-cache lines in every tile, or all (05 R179). -/
def State.dcInvalAll (s : State) (tenant : Option Nat) : State :=
  { s with tiles := Table.mapV s.tiles (fun _ x =>
      let mine (l : CacheLine) : Bool := tenant.elim true (fun n => l.tenant == n)
      let keep := x.cache.filter (fun l => !mine l || l.lockAct || l.lockPend)
      { x with cache := keep.map (fun l => if mine l then { l with inval := true } else l) }) }

/-- DC_INVAL. -/
def execDcInval (iss : Issuer) (t : Nat) (s : State) : Out :=
  State.serveNow iss 0x0205 t (fun m s =>
    let v := msgArg m 0
    let ten := ownTenant iss v
    if v = 0xFFFE ∧ issuerFn iss = 0 then (done 0, s.dcInvalAll none)
    else if 1024 ≤ ten then (done ST_MBX_ARG, s)
    else (done 0, s.dcInvalAll (some ten))) s

end Sys2Proof.Machine
end

