-- ==== Sys2Proof/Machine/Mailbox.lean ====
section
/-! DEFINITION. The host interface: doorbells, the mailbox registers, sessions,
quotas, grants, rings, function reset, event rings and interrupts (18 R559 to
R585, 22 R671). -/

namespace Sys2Proof.Machine

/-- The message of an issuer that its core would serve now. -/
def State.dueMsg (s : State) (iss : Issuer) (code : Nat) : Option Nat :=
  match cmdOf code with
  | some c => ((s.coreQ c.core).served iss code).map (fun a => a.msg.toNat)
  | none => none

/-- A command that a row serves only in one of its forms. -/
def State.serveIf (iss : Issuer) (code t : Nat) (form : Nat → Bool)
    (work : Bool → Nat → State → Reply × State) (s : State) : Out :=
  if (s.dueMsg iss code).elim false form then State.serve iss code t work s else .next (s.at t)

/-! ### Doorbells (R567, R568, R559) -/

/-- Local address of the MBX_ page of a function. -/
def mbxPage (f : Nat) : Nat := 0x7F000A000000 + 0x1000 * f

/-- A doorbell arrives: an input of the logbook, and a decision point. -/
def State.hostArrival (s : State) (f : Nat) (bs : List Byte) : State :=
  (s.logArb 0x605 (agentOf 0 f)).logInput 0x800 bs true

/-- DOORBELL: a write of value `v` to MBX_DOORBELL by function f. -/
def execDoorbell (f v : Nat) (s : State) : Out :=
  if (s.func f).inReset then .next s
  else
    let s := s.hostArrival f (bytesOfNat 4 v)
    let q := bits v 0 13
    let arg := mbxPage f + 2 ^ 48 * q
    if !s.tenantLicensed f then .next (s.isolation ST_LIC_TENANTS 10 0 f arg)
    else
      match s.hwq q with
      | some x =>
        if x.tenant = f then .next (s.ringDoorbell q (bits v 13 17))
        else .next (s.isolation ST_ISO_DOORBELL 10 0 f arg)
      | none => .next (s.isolation ST_ISO_DOORBELL 10 0 f arg)

/-! ### The mailbox registers (R569, R579) -/

/-- A write of word w of MBX_REQ by the function itself. -/
def State.mbxReqWrite (s : State) (f w v : Nat) : State :=
  let x := s.func f
  if x.inReset then s
  else if x.mbxState = 1 then s.setFunc f { x with overrun := true }
  else s.setFunc f { x with req := BitVec.ofNat 2048 (setBits x.req.toNat (32 * w) 32 v) }

/-- MBX_GO: the request is copied, checked and admitted or answered. -/
def execMbxGo (f t : Nat) (s : State) : Out :=
  let s := s.at t
  let x := s.func f
  if x.inReset then .next s
  else if x.mbxState = 1 then .next (s.setFunc f { x with overrun := true })
  else
    let s := s.hostArrival f (bytesOfNat 256 x.req.toNat)
    .next ((s.setFunc f { x with mbxState := 1 }).submit (.func f) x.req.toNat)

/-- The queue, and the limit in ms, of an issuer's admitted request that is past
its limit and not yet answered. -/
def State.pastLimit (s : State) (iss : Issuer) : Option (Nat × Admitted) :=
  [0, 1, 2].findSome? (fun core =>
    ((s.coreQ core).queue.find? (fun (a : Admitted) =>
      a.issuer == iss && !a.mute
        && decide (a.at_ + msTicks (((cmdOf (msgCode a.msg.toNat)).map (·.limit)).getD 100) ≤ s.time))).map
      (fun a => (core, a)))

/-- MBX_TIMEOUT: the dispatcher answers, and the core's later answer will be
discarded; a stopped core gives none, so its request leaves the queue (R584). -/
def execMbxTimeout (iss : Issuer) (t : Nat) (s : State) : Out :=
  let s := s.at t
  match s.pastLimit iss with
  | none => .next s
  | some (core, a) =>
    let q := s.coreQ core
    let same (x : Admitted) : Bool := x == a
    let q := if s.coreRuns (64 + core) && !a.lost then
        { q with queue := changeFirst same (fun (x : Admitted) => { x with mute := true }) q.queue }
      else ({ q with queue := dropFirst same q.queue }).distribute
    .next ((s.setCoreQ core q).answer iss (response a.msg.toNat ST_MBX_TIMEOUT 0 [] []))

/-- The MGT packet that carries a message to a peer (R580, 16 R499, R512). -/
def State.mgtPacket (s : State) (h b : Nat) (msg : Nat) : Packet :=
  let n := 8 * byteField msg 1 1
  { ptype := 8, vc := ptypeVc 8, esc := false, down := false, dstH := h, dstB := b, srcH := s.ownHarbour,
    srcB := s.ownBerth, tenant := 0, tag := 0, loc := 0, len := n - 1, aop := 0, data := bytesOfNat n msg }

/-- Deliver an answer to its issuer: a function's MBX_RSP with vector 0, the
sideband's response register with an in-band interrupt, or an MGT packet. -/
def State.deliver (s : State) (a : Answer) : State :=
  match a.issuer with
  | .func f =>
    (s.updFunc f (fun x => { x with rsp := a.msg, mbxState := 2 })).raiseVec0 f
  | .i3c => { s with i3c := { s.i3c with rsp := a.msg, mbxState := 2, ibiRsp := s.i3c.ibiRsp || s.i3c.ibiOn } }
  | .peer h b => s.sendPacket (s.mgtPacket h b a.msg.toNat)

/-- MBX_RESPONSE: the oldest answer is delivered. -/
def execMbxResponse (s : State) : Out :=
  match s.hif.answers with
  | [] => .next s
  | a :: rest => .next (State.deliver { s with hif := { s.hif with answers := rest } } a)

/-- MBX_ENROLMENT_END: a function's enrolment has ended, and any place held for
it goes to the next (R583). -/
def execMbxEnrolmentEnd (core f t : Nat) (s : State) : Out :=
  let s := s.at t
  let q := s.coreQ (core % 3)
  let overs (e : Enrolment) : Bool := e.func == f && decide (e.until_ ≤ s.time)
  .next (s.setCoreQ (core % 3) ({ q with ring := q.ring.filter (fun e => !overs e) }).distribute)

/-! ### Sessions and identity (R578, R585) -/

/-- FW_VER of the running image. -/
def State.fwVer (s : State) : Nat := (s.fw.image.map (fun h => byteField h.toNat 4 4)).getD 0

/-- IDENT. -/
def execIdent (iss : Issuer) (t : Nat) (s : State) : Out :=
  State.serveNow iss 0x0001 t (fun _ s =>
    (reply [1, Config.steppingEast.toNat, Config.steppingWest.toNat, s.fw.state.toNat, 1, issuerFn iss,
            Config.serial.toNat, s.fwVer, s.licences.toNat], s)) s

/-- SESSION_OPEN: version 1 is the only one; a function's former session closes. -/
def execSessionOpen (iss : Issuer) (t : Nat) (s : State) : Out :=
  State.serveNow iss 0x0002 t (fun m s =>
    if 1 < msgArg m 0 ∨ msgArg m 1 < 1 then (done ST_MBX_VERSION, s)
    else
      let n := s.hif.lastSession + 1
      let n := if n = 0 then 1 else n
      let s := { s with hif := { s.hif with lastSession := n } }
      let s := match iss with
        | .func f => s.updFunc f (fun x => { x with session := n })
        | _ => s
      (reply [1, n.toNat], s)) s

/-- SESSION_CLOSE. -/
def execSessionClose (iss : Issuer) (t : Nat) (s : State) : Out :=
  State.serveNow iss 0x0003 t (fun _ s =>
    match iss with
    | .func f => (done 0, s.updFunc f (fun x => { x with session := 0 }))
    | _ => (done 0, s)) s

/-- ECHO. -/
def execEcho (iss : Issuer) (t : Nat) (s : State) : Out :=
  State.serveNow iss 0x0004 t (fun m s => (reply [msgArg m 0], s)) s

/-! ### Quotas (R565, R566) -/

def State.tenantRec (s : State) (t : Nat) : Tenant := Table.getD s.hif.tenants t { quota := 0, grants := [] }
def State.setTenantRec (s : State) (t : Nat) (x : Tenant) : State :=
  { s with hif := { s.hif with tenants := Table.put s.hif.tenants t x } }

/-- QUOTA_SET: the record is written; MAN_ENTRIES goes to MAN_TENn_QUOTA. -/
def execQuotaSet (iss : Issuer) (t : Nat) (s : State) : Out :=
  State.serveNow iss 0x0100 t (fun m s =>
    let ten := msgArg m 0
    let r := msgArg m 1
    if 1024 ≤ ten ∨ byteField r 0x24 12 ≠ 0 ∨ 7 < byteField r 0x23 1 then (done ST_MBX_ARG, s)
    else
      let s := s.setTenantRec ten { s.tenantRec ten with quota := BitVec.ofNat 384 r }
      (done 0, s.updSrvTenant ten (fun x =>
        { x with quota := BitVec.ofNat 21 (min (byteField r 0x1C 4) 0x1FFFFF) }))) s

/-- The usage record of a tenant, in the layout of its quota record. -/
def State.usage (s : State) (ten : Nat) : Nat :=
  let (g, n, e) := s.slotsUsed (some ten)
  let prio := (s.graph.queues.filter (fun q => q.2.tenant == ten)).foldl (fun m q =>
    max m q.2.prioMax.toNat) 0
  s.queuesOf ten
    + 2 ^ 16 * (s.graph.residents.filter (fun r => r.2.tenant == ten)).length
    + 2 ^ 32 * s.tilesTenant ten
    + 2 ^ 48 * ((List.range 12).foldl (fun m st => max m (s.slotsTenant ten st)) 0)
    + 2 ^ 64 * g + 2 ^ 96 * n + 2 ^ 128 * e + 2 ^ 160 * s.memopsUsed (some ten)
    + 2 ^ 192 * s.sosOf ten + 2 ^ 224 * s.srvUsed ten
    + 2 ^ 256 * (s.dma.acs.filter (fun a => a.2.valid && a.2.tenant.toNat == ten)).length
    + 2 ^ 272 * s.barsOf ten 64 + 2 ^ 280 * prio

/-- QUOTA_GET. -/
def execQuotaGet (iss : Issuer) (t : Nat) (s : State) : Out :=
  State.serveNow iss 0x0101 t (fun m s =>
    let ten := ownTenant iss (msgArg m 0)
    if 1024 ≤ ten then (done ST_MBX_ARG, s)
    else (reply [(s.tenantRec ten).quota.toNat, s.usage ten], s)) s

/-! ### Grants and windows (R561, R564) -/

/-- Does a range lie wholly within one tier's region as mapped? -/
def State.inOneTier (s : State) (a n : Nat) : Bool :=
  decide (a + n ≤ s.t1Top) || (decide (tier2Base ≤ a) && decide (a + n ≤ s.t2Top))

/-- GRANT with OP 1. -/
def execGrant (iss : Issuer) (t : Nat) (s : State) : Out :=
  State.serveIf iss 0x0102 t (fun m => msgArg m 1 != 0) (fun _ m s =>
    let ten := msgArg m 0
    let a := msgArg m 2
    let n := msgArg m 3
    let x := s.tenantRec ten
    if 1024 ≤ ten ∨ 1 < msgArg m 1 ∨ a % 4096 ≠ 0 ∨ n % 4096 ≠ 0 ∨ n = 0 ∨ !s.inOneTier a n then
      (done ST_MBX_ARG, s)
    else if !(s.resvHit a n).isEmpty then (done ST_GRANT_RESERVED, s)
    else
      match Table.lowestFree x.grants 64 with
      | none => (done ST_MBX_QUOTA, s)
      | some k =>
        let g : GrantPlace := { base := BitVec.ofNat 64 a, size := BitVec.ofNat 64 n }
        (reply [63 - x.grants.length], s.setTenantRec ten { x with grants := Table.put x.grants k g })) s

/-- GRANT with OP 0. -/
def execRevoke (iss : Issuer) (t : Nat) (s : State) : Out :=
  State.serveIf iss 0x0102 t (fun m => msgArg m 1 == 0) (fun _ m s =>
    let ten := msgArg m 0
    let x := s.tenantRec ten
    if 1024 ≤ ten then (done ST_MBX_ARG, s)
    else
      match x.grants.find? (fun g => g.2.base.toNat == msgArg m 2 && g.2.size.toNat == msgArg m 3) with
      | none => (done ST_MBX_ARG, s)
      | some g =>
        (reply [65 - x.grants.length], s.setTenantRec ten { x with grants := Table.del x.grants g.1 })) s

/-- GRANT_LIST. -/
def execGrantList (iss : Issuer) (t : Nat) (s : State) : Out :=
  State.serveNow iss 0x0103 t (fun m s =>
    let ten := ownTenant iss (msgArg m 0)
    if 1024 ≤ ten ∨ 64 ≤ msgArg m 1 then (done ST_MBX_ARG, s)
    else
      match Table.find (s.tenantRec ten).grants (msgArg m 1) with
      | some g => (reply [g.base.toNat, g.size.toNat], s)
      | none => (reply [0, 0], s)) s

/-- WINDOW_SET. -/
def execWindowSet (iss : Issuer) (t : Nat) (s : State) : Out :=
  State.serveNow iss 0x0104 t (fun m s =>
    let f := msgArg m 0
    let a := msgArg m 1
    if f = 0 ∨ 1024 ≤ f ∨ a % 2 ^ 34 ≠ 0 ∨ 2 ^ 48 ≤ a then (done ST_MBX_ARG, s)
    else (done 0, s.updFunc f (fun x => { x with windowBase := BitVec.ofNat 48 a }))) s

/-! ### Rings (R571, R572) -/

/-- The ring a request names, if its size is in range. -/
def ringOf (m : Nat) : Option HostRing :=
  if msgArg m 1 < 4 ∨ 16 < msgArg m 1 then none
  else some { base := BitVec.ofNat 64 (msgArg m 0), sizeLog2 := msgArg m 1, coalUs := msgArg m 2 }

/-- EVT_RING_SET. -/
def execEvtRingSet (iss : Issuer) (t : Nat) (s : State) : Out :=
  State.serveNow iss 0x0105 t (fun m s =>
    match ringOf m with
    | none => (done ST_MBX_ARG, s)
    | some r => (done 0, s.updFunc (issuerFn iss) (fun x =>
        { x with evtRing := some r, evtHead := 0, evtTail := 0 }))) s

/-- NOTE_RING_SET. -/
def execNoteRingSet (iss : Issuer) (t : Nat) (s : State) : Out :=
  State.serveNow iss 0x0106 t (fun m s =>
    match ringOf m with
    | none => (done ST_MBX_ARG, s)
    | some r => (done 0, s.updFunc (issuerFn iss) (fun x =>
        { x with noteRing := some r, noteHead := 0, noteTail := 0 }))) s

/-- MBX_EVT_HEAD_WRITE by the function itself. -/
def execMbxEvtHeadWrite (f v : Nat) (s : State) : Out :=
  if (s.func f).inReset then .next s
  else .next (s.updFunc f (fun x => { x with evtHead := BitVec.ofNat 32 v }))

/-- The 32 bytes of an event record (17 R529). -/
def EventRec.bytes (e : EventRec) : List Byte :=
  bytesOfNat 32 (1 + 2 ^ 8 * 4 + 2 ^ 16 * 0x71
    + 2 ^ 24 * (e.sev.toNat + 4 * b2n e.coalesced + 8 * b2n e.replay)
    + 2 ^ 32 * e.status.toNat + 2 ^ 48 * e.unitKind.toNat + 2 ^ 64 * e.unit.toNat
    + 2 ^ 80 * (e.tenant.elim 0 (fun t => t % 1024 + 0x8000)) + 2 ^ 96 * e.count
    + 2 ^ 128 * (e.time % 2 ^ 64) + 2 ^ 192 * e.arg.toNat)

/-- Is an entry still to be written to function f's ring? -/
def EventEntry.for_ (e : EventEntry) (f : Nat) : Bool := if f = 0 then e.toPf else e.toTenant == some f

/-- An entry has been written to f's ring, or that ring has gone. -/
def EventEntry.off (e : EventEntry) (f : Nat) : EventEntry :=
  if f = 0 then { e with toPf := false } else { e with toTenant := none }

/-- An entry that no ring awaits any more frees its place. -/
def EventStores.tidy (e : EventStores) : EventStores :=
  let e := { e with entries := e.entries.filter (fun (x : EventEntry) => x.toPf || x.toTenant.isSome) }
  iter EventStores.drainLane e.lane.length e

/-- A failed write of a VF's record is reported to the PF at most once in 100 ms. -/
def State.ringFailed (s : State) (f addr : Nat) : State :=
  let quiet := (s.func f).ringErrTime.elim false (fun t0 => decide (s.time < t0 + msTicks 100))
  if f = 0 ∨ quiet then s
  else
    let s := s.updFunc f (fun x => { x with ringErrTime := some s.time })
    s.placeEntry { s.newEntry ST_DMA_HOST_ERR 0 0 (some f) addr with toTenant := none }

/-- EVENT_RECORD_WRITE: the oldest pending entry of function f's ring is written
to it and TAIL advances; `ok` says whether the write succeeded (R571). -/
def execEventRecordWrite (f t : Nat) (ok : Bool) (s : State) : Out :=
  let s := s.at t
  let x := s.func f
  match x.evtRing, s.events.entries.find? (fun (e : EventEntry) => e.for_ f) with
  | some r, some e =>
    if (x.evtTail - x.evtHead).toNat = 2 ^ r.sizeLog2 then .next s
    else
      let a := r.base.toNat + 32 * (x.evtTail.toNat % 2 ^ r.sizeLog2)
      let done (y : EventEntry) : EventEntry := { y.off f with written := true }
      let entries := changeFirst (fun (y : EventEntry) => y.for_ f) done s.events.entries
      let s := if ok then s.hostWrite a e.record.bytes else s
      let s := { s with events := EventStores.tidy { s.events with entries := entries } }
      let s := s.updFunc f (fun y => { y with evtTail := y.evtTail + 1 })
      let s := (s.cntMod (if f = 0 then 104 else 105) 1).raiseVec1 f
      .next (if ok then s else s.ringFailed f a)
  | _, _ => .next s

/-- MSIX_COALESCE_EXPIRY: a vector held by its coalescing time is raised. -/
def execMsixCoalesceExpiry (f vec t : Nat) (s : State) : Out :=
  let s := s.at t
  let x := s.func f
  let free (v : Vector0) : Bool := v.held && decide (v.quietUntil ≤ s.time)
  if vec = 1 ∧ free x.vec1 then .next (s.raiseVec1 f)
  else if vec = 2 ∧ free x.vec2 then .next (s.raiseVec2 f)
  else .next s

/-! ### Function reset (R573, R574) -/

/-- Steps 1 and 2: the tenant's queues are disabled and its graphs aborted. -/
def State.stopTenant (s : State) (ten : Nat) : State :=
  let s := { s with graph := { s.graph with queues := Table.mapV s.graph.queues (fun _ q =>
    if q.tenant = ten then { q with enabled := false } else q) } }
  let seqs := (s.graph.entries.filter (fun (e : ReadEntry) => e.tenant == ten)).map (·.seq)
    ++ (s.graph.graphs.filter (fun g => g.2.tenant == ten)).map Prod.fst
  seqs.foldl (fun s q => s.abortSeq q ST_GRAPH_ABORTED) s

/-- Have the tenant's graphs stopped? -/
def State.tenantQuiet (s : State) (ten : Nat) : Bool :=
  !s.graph.entries.any (fun (e : ReadEntry) => e.tenant == ten)
    && !s.graph.graphs.any (fun g => g.2.tenant == ten)

/-- Step 3: its manifest entries are closed as CLOSE does. -/
def State.closeTenant (s : State) (ten : Nat) : State :=
  let is_ := (s.serving.entries.filter (fun (e : Nat × SrvEntry) =>
    e.2.state != 0 && e.2.tenant == ten && s.srvOwn e.1)).map Prod.fst
  (is_.foldl (fun s i =>
    -- one whose token is delivered but not yet written gets no descriptor
    if (s.srvE i).state = 3 && !s.serving.outs.any (fun (o : SrvOut) => o.entry == i) then
      s.srvUpd i (fun e => e.setFlag 3 true)
    else s.srvClose i) s).srvSlotsFree

/-- Steps 4 and 5: its session, its page, its rings and its interrupts. A request
it has in service stays with its core, which answers nobody. -/
def State.clearFunc (s : State) (f : Nat) : State :=
  let s := s.updFunc f (fun x => { Func.reset with windowBase := x.windowBase })
  let mine (a : Admitted) : Bool := a.issuer == .func f && msgCode a.msg.toNat != 0x0107
  let clear (q : CoreQueue) : CoreQueue :=
    { q with queue := q.queue.map (fun a => if mine a then { a with mute := true } else a)
             ring := q.ring.filter (fun e => e.func != f) }
  let s := { s with hif := { s.hif with
    secq := clear s.hif.secq, pwrq := clear s.hif.pwrq, schq := clear s.hif.schq
    answers := s.hif.answers.filter (fun a => a.issuer != Issuer.func f) } }
  let drop (e : EventEntry) : EventEntry := if e.for_ f && !(f == 0 && e.alarm) then e.off f else e
  { s with events := EventStores.tidy { s.events with entries := s.events.entries.map drop } }

/-- The clearing of a tenant and its function: begun, and finished once its graphs
have stopped. -/
def State.clearTenant (s : State) (f : Nat) : State :=
  let s := if (s.func f).inReset then s
    else (s.updFunc f (fun x => { x with inReset := true })).stopTenant f
  if s.tenantQuiet f then (s.closeTenant f).clearFunc f else s

/-- TENANT_CLEAR. -/
def execTenantClear (iss : Issuer) (t : Nat) (s : State) : Out :=
  State.serve iss 0x0107 t (fun _ m s =>
    let ten := msgArg m 0
    if 1024 ≤ ten then (done ST_MBX_ARG, s)
    else
      let s := s.clearTenant ten
      if (s.func ten).inReset then (none, s) else (done 0, s)) s

/-- FUNCTION_LEVEL_RESET of a function: of the PF it clears every tenant, VF
Enable and every session. -/
def execFunctionLevelReset (f t : Nat) (s : State) : Out :=
  let s := s.at t
  if 1024 ≤ f then .next s
  else if f ≠ 0 then .next (s.clearTenant f)
  else
    let s := (List.range 1024).foldl State.clearTenant s
    .next { s with hif := { s.hif with vfEnable := false } }

end Sys2Proof.Machine
end

