-- ==== Sys2Proof/Machine/Preempt.lean ====
section
/-! DEFINITION. Pre-emption, spilling and restoring of tile nodes by the serving
engine (14 R456 to R461). -/

namespace Sys2Proof.Machine

/-! ### Choice of victims (R456) -/

/-- Running TILE-form nodes of lower graph priority than `prio`, in the order in
which they become victims. -/
def State.victims (s : State) (prio : Nat) : List (Nat × Nat) :=
  let all := s.graph.graphs.flatMap (fun g =>
    if g.2.failing.isNone && decide (g.2.prio < prio) then
      (g.2.nodes.filter (fun n => n.2.phase == .running && n.2.isTile)).map (fun n => (g.2.prio, g.1, n.1))
    else [])
  let before (a b : Nat × Nat × Nat) : Bool :=
    decide (a.1 < b.1) || (a.1 == b.1 && (decide (b.2.1 < a.2.1) ||
      (a.2.1 == b.2.1 && decide (b.2.2 ≤ a.2.2))))
  (all.mergeSort before).map Prod.snd

/-- Tiles and memory operations of a node. -/
def State.nodeTiles (s : State) (p : Nat × Nat) : List Nat :=
  ((s.nodeOf p.1 p.2).map (·.held)).getD []
def State.nodeMemops (s : State) (p : Nat × Nat) : Nat :=
  ((s.nodeOf p.1 p.2).map (·.memops)).getD 0

/-- Can the head be placed once the tiles of some victims are released? -/
def State.placesWith (s : State) (seq node tenant : Nat) (n : NodeSt) (es : List Nat)
    (cands : List Placement) (rows : List (Option Nat)) (vs : List (Nat × Nat)) : Bool :=
  let freed := vs.flatMap s.nodeTiles
  let ops := (vs.map s.nodeMemops).sum
  -- what victims of the head's own tenant give back to its quota
  let own := vs.filter (fun v => (s.graphOf v.1).map (·.tenant) == some tenant)
  let need := (es.map (fun e => (sgTiles e + 7) / 8 * 8)).sum
  let taken := (s.takenTiles seq node).filter (fun t => !freed.contains t)
  (s.choosePlacement taken (es.map sgTiles) ((n.pin.map Prod.snd).getD []) rows cands).isSome
    && decide (s.memopsUsed none + ndMemops n.w ≤ 16384 + ops)
    && decide (s.tilesTenant tenant + need ≤ s.quotaField tenant 0x04 2 + (own.flatMap s.nodeTiles).length)
    && decide (s.memopsUsed (some tenant) + ndMemops n.w ≤
        s.quotaField tenant 0x14 4 + (own.map s.nodeMemops).sum)
    && (s.areaFind (1024 * (es.map stageCopies).sum)).isSome

/-- The shortest run of victims with which the head can be placed. -/
def enoughVictims (ok : List (Nat × Nat) → Bool) : List (Nat × Nat) → List (Nat × Nat) →
    Option (List (Nat × Nat))
  | _, [] => none
  | acc, v :: r => if ok (acc ++ [v]) then some (acc ++ [v]) else enoughVictims ok (acc ++ [v]) r

/-- PREEMPTION: the head, whose reservation fails, can dispatch once the tiles of
lower-priority nodes are released: STOP is written to every tile of the victims,
and their tiles are held for the head. -/
def execPreemption (t : Nat) (cands : List Placement) (rows : List (Option Nat)) (s : State) : Out :=
  let s := s.at t
  match s.headNode with
  | none => .next s
  | some h =>
    match s.graphOf h.1, s.nodeOf h.1 h.2 with
    | some g, some n =>
      let spilled := (s.graph.graphs.map (fun g => (g.2.nodes.filter (fun n =>
        n.2.phase == .spilled)).length)).sum
      if s.graph.preempt.isSome || !n.isTile || n.phase != .waiting || n.pin.isNone
          || decide (255 ≤ spilled) || !n.claim.isEmpty then .next s
      else
        match s.readTable g.tenant (ndWork n.w) 64 (ndStages n.w) with
        | (.error _, s) => .next s
        | (.ok es, s) =>
          if s.placesWith h.1 h.2 g.tenant n es cands rows [] then .next s
          else
            match enoughVictims (s.placesWith h.1 h.2 g.tenant n es cands rows) [] (s.victims g.prio) with
            | none => .next s
            | some vs =>
              let ts := vs.flatMap s.nodeTiles
              let s := ts.foldl (fun s t => s.tileStop t) s
              let s := s.updNode h.1 h.2 (fun n => { n with claim := ts })
              let p : Preemption := { head := h, victims := vs, since := s.time, copying := none }
              .next { s with graph := { s.graph with preempt := some p } }
    | _, _ => .next s

/-- Is every tile of a victim STOPPED? -/
def State.victimStopped (s : State) (p : Nat × Nat) : Bool :=
  (s.nodeTiles p).all (fun t => (s.tile t).mode == .stopped)

/-- Is a node still a victim: running in a graph that has not failed? -/
def State.victimAlive (s : State) (p : Nat × Nat) : Bool :=
  match s.graphOf p.1, s.nodeOf p.1 p.2 with
  | some g, some n => g.failing.isNone && n.phase == .running
  | _, _ => false

/-- Count nodes aborted by a pre-emption (R465 ABORTS). -/
def State.cntAborts (s : State) (n : Nat) : State :=
  { s with serving := { s.serving with aborts := s.serving.aborts + BitVec.ofNat 16 n } }

/-- PREEMPT_TIMEOUT: victims not stopped within STOP_LIMIT_US are aborted (R457). -/
def execPreemptTimeout (t : Nat) (s : State) : Out :=
  let s := s.at t
  match s.graph.preempt with
  | none => .next s
  | some p =>
    if p.copying.isSome || decide (s.time < p.since + usTicks (max 1 s.serving.stopUs.toNat)) then .next s
    else
      let slow := p.victims.filter (fun v => s.victimAlive v && !s.victimStopped v)
      if slow.isEmpty || !s.decisionAllowed 0x603 (2 ^ 62 + p.head.1) then .next s
      else
        let s := s.logDecision 0x603 [2 ^ 62 + p.head.1]
        let s := slow.foldl (fun s v => s.failNode v.1 v.2 ST_PREEMPT_TIMEOUT) s
        let s := s.cntAborts slow.length
        let left := p.victims.filter s.victimAlive
        let q := if left.isEmpty then none else some { p with victims := left }
        .next { s with graph := { s.graph with preempt := q } }

/-! ### Spilling (R458, R459) -/

/-- The KiB units a set of live ranges covers, in increasing number. -/
def liveUnits (ranges : List Nat) : List Nat :=
  (List.range 192).filter (fun k => ranges.any (fun r =>
    decide (bits r 0 8 ≤ k) && decide (k < bits r 0 8 + bits r 8 8)))

/-- Live units of a stopped tile: of its descriptor at a pre-emption point, of its
stage at a boundary. -/
def Tile.liveSet (x : Tile) : List Nat :=
  if x.atPoint then liveUnits ((List.range 4).map (fun n => byteField x.desc (0x60 + 4 * n) 4))
  else
    match x.job with
    | some j => liveUnits ((List.range 4).map (fun n => byteField j.live (4 * n) 4))
    | none => []

/-- Spill ranges in use. -/
def State.spillTaken (s : State) : List (Nat × Nat) :=
  s.graph.graphs.flatMap (fun g => g.2.nodes.flatMap (fun n => n.2.spill.map (fun x => (x.base, x.size))))

/-- Free spill space in KiB. -/
def State.spillFree (s : State) : Nat :=
  ((s.resv 1).2 - ((s.spillTaken).map Prod.snd).sum) / 1024

/-- Allocate spill space for the tiles of a node that have a job. -/
def State.spillAlloc (s : State) (p : Nat × Nat) : Option State :=
  ((s.nodeTiles p).filter (fun t => (s.tile t).job.isSome)).foldl (fun (r : Option State) t =>
    match r with
    | none => none
    | some s =>
      let x := s.tile t
      let n := 1024 + 1024 * x.liveSet.length
      match freeRange (s.resv 1).1 (s.resv 1).2 n 1024 s.spillTaken, x.job with
      | some a, some j =>
        some (s.updNode p.1 p.2 (fun k =>
          { k with spill := k.spill ++ [{ tile := t, atPoint := x.atPoint, base := a, size := n, job := j }] }))
      | _, _ => none) (some s)

/-- Allocate space for every victim. -/
def State.spillAll (s : State) (vs : List (Nat × Nat)) : Option State :=
  vs.foldl (fun (r : Option State) v => r.bind (fun s => s.spillAlloc v)) (some s)

/-- The node aborted for want of space: of lowest priority, youngest, highest index,
among the victims and the spilled nodes. -/
def State.spillVictim (s : State) (vs : List (Nat × Nat)) : Option (Nat × Nat) :=
  let all := s.graph.graphs.flatMap (fun g => (g.2.nodes.filter (fun n =>
    n.2.phase == .spilled || vs.contains (g.1, n.1))).map (fun n => (g.2.prio, g.1, n.1)))
  (leastBy (fun i => match all[i]? with
    | some (p, q, n) => [p, 2 ^ 64 - q, 2 ^ 14 - n]
    | none => []) (List.range all.length)).bind (fun i => (all[i]?).map Prod.snd)

/-- Copy the live set of one tile into its space: a header with where it stopped,
the descriptor index, the record and the descriptor, and the live ranges. -/
def State.spillCopy (s : State) (x : SpillTile) : Option Status × State :=
  let t := s.tile x.tile
  let hdr := bytesOfNat 4 (b2n x.atPoint) ++ bytesOfNat 124 (if x.atPoint then x.job.desc else x.job.done)
    ++ bytesOfNat 128 t.preRec.toNat ++ bytesOfNat 256 t.desc ++ List.replicate 512 0
  let s := s.resvWrite 64 x.base hdr
  (t.liveSet.zipIdx).foldl (fun (r : Option Status × State) k =>
    match r with
    | (some e, s) => (some e, s)
    | (none, s) =>
      match s.load (tileBase x.tile + 1024 * k.1) 1024 with
      | (some bs, s) => (none, s.resvWrite 64 (x.base + 1024 + 1024 * k.2) bs)
      | (none, s) => (some ST_SPAD_UE, s)) (none, s)

/-- Copy a victim's tiles; an uncorrectable error fails it. -/
def State.spillNode (s : State) (p : Nat × Nat) : State :=
  match s.nodeOf p.1 p.2 with
  | none => s
  | some n =>
    match n.spill.foldl (fun (r : Option Status × State) x =>
        match r with
        | (some e, s) => (some e, s)
        | (none, s) => s.spillCopy x) (none, s) with
    | (none, s) => s
    | (some e, s) => s.failNode p.1 p.2 e

/-- Forget the spill space of a node. -/
def State.spillClear (s : State) (p : Nat × Nat) : State := s.updNode p.1 p.2 (fun n => { n with spill := [] })

/-- SPILL: with every victim tile STOPPED, space is allocated, nodes being aborted
while it does not suffice, and the live sets are copied. -/
def execSpill (t : Nat) (s : State) : Out :=
  let s := s.at t
  match s.graph.preempt with
  | none => .next s
  | some p =>
    let vs := p.victims.filter s.victimAlive
    if p.copying.isSome || !vs.all s.victimStopped then .next s
    else
      let rec fit : Nat → List (Nat × Nat) → State → List (Nat × Nat) × State
        | 0, vs, s => (vs, s)
        | fuel + 1, vs, s =>
          match s.spillAll vs with
          | some s => (vs, s)
          | none =>
            match s.spillVictim vs with
            | none => (vs, s)
            | some v =>
              let s := (s.failNode v.1 v.2 ST_SPILL_FULL_ABORT).cntAborts 1
              fit fuel (vs.filter s.victimAlive) s
      let (vs, s) := fit 8192 vs s
      let s := vs.foldl (fun s v => s.spillNode v) s
      let left := vs.filter s.victimAlive
      .next { s with graph := { s.graph with preempt := some { p with victims := left, copying := some s.time } } }

/-- A tile's work is ended without a report: the pre-emption absorbs its
completion (R457 step 5). -/
def State.absorbTile (s : State) (t : Nat) : State :=
  let s := if (s.tile t).active then s.finishDesc t ST_TILE_ABORTED 0 0 else s
  s.updTile t (fun x =>
    { x.pendChanged with mode := .idle, pendValid := false, startHeld := false, fromRecord := false,
                         fromIdle := false, owner := none, job := none, unitEnded := none })

/-- SPILL_DONE: the copy completes: the victims are spilled nodes, and their tiles
and memory operations are free for the head (R457, R461). -/
def execSpillDone (t : Nat) (s : State) : Out :=
  let s := s.at t
  match s.graph.preempt with
  | none => .next s
  | some p =>
    if p.copying.isNone then .next s
    else
      let vs := p.victims.filter s.victimAlive
      let s := vs.foldl (fun s v =>
        let s := (s.nodeTiles v).foldl (fun s t => s.absorbTile t) s
        let s := s.updNode v.1 v.2 (fun n =>
          { n with phase := .spilled, held := [], memops := 0, readyAt := none })
        (s.raise ST_PREEMPTED 8 0 none (p.head.1 % 2 ^ 32 + 2 ^ 32 * (v.1 % 2 ^ 32))).cntMod 23 1) s
      let s := { s with
        serving := { s.serving with preempts := s.serving.preempts + 1 }
        graph := { s.graph with preempt := none } }
      .next ((s.cntMod 22 1).noteReady)

/-- Copy a tile's live set back: the header's descriptor and record, and the
ranges; none for an uncorrectable error. -/
def State.restoreTile (s : State) (x : SpillTile) : Option (Nat × Nat) × State :=
  match s.load x.base 1024 with
  | (none, s) => (none, s)
  | (some h, s) =>
    let hd := natOfBytes h
    let rcd := byteField hd 0x80 128
    let d := byteField hd 0x100 256
    let live := if x.atPoint then liveUnits ((List.range 4).map (fun n => byteField d (0x60 + 4 * n) 4))
      else liveUnits ((List.range 4).map (fun n => byteField x.job.live (4 * n) 4))
    let r := (live.zipIdx).foldl (fun (r : Bool × State) k =>
      if !r.1 then r
      else
        match r.2.load (x.base + 1024 + 1024 * k.2) 1024 with
        | (some bs, s) => (true, s.writeMem (tileBase x.tile + 1024 * k.1) bs)
        | (none, s) => (false, s)) (true, s)
    (if r.1 then some (rcd, d) else none, r.2)

/-- Restart a restored tile: by RESUME from its record, or with its next
descriptor. -/
def State.restart (s : State) (x : SpillTile) (rcd d : Nat) : State :=
  if x.atPoint then
    let s := s.updTile x.tile (fun y =>
      { y.pendChanged with
        cfgPend := BitVec.ofNat 2048 d, preRec := BitVec.ofNat 1024 (setBits rcd 56 8 1),
        pendValid := false, mode := .stopped, fromIdle := true, active := false
        job := some { x.job with next := x.job.desc + 1 } })
    s.tileResume x.tile
  else s.startJob x.tile { x.job with next := x.job.done }

/-- RESTORE_DONE: a spilled node's live sets are copied back, its space is freed,
and its tiles are restarted (R460). -/
def execRestoreDone (seq node t : Nat) (s : State) : Out :=
  let s := s.at t
  match s.nodeOf seq node with
  | none => .next s
  | some n =>
    let away := n.held.any (fun t =>
      (s.quay (t / 64)).parked || (s.quay (t / 64)).pace.unparking)
    if n.phase != .restoring || away then .next s
    else
      let (r, s) := n.spill.foldl (fun (r : Option (List (SpillTile × Nat × Nat)) × State) x =>
        match r with
        | (none, s) => (none, s)
        | (some l, s) =>
          match s.restoreTile x with
          | (some (a, b), s) => (some (l ++ [(x, a, b)]), s)
          | (none, s) => (none, s)) (some [], s)
      match r with
      | none => .next (s.failNode seq node ST_FW_RES_UE)
      | some l =>
        let s := (s.spillClear (seq, node)).noteDispatch seq node
        .next ((l.foldl (fun s x => s.restart x.1 x.2.1 x.2.2) s).cntMod 24 1)

end Sys2Proof.Machine
end

