-- ==== Sys2Proof/Machine/RegRead.lean ====
section
/-! DEFINITION. What every register of the register region reads as (the register
tables of chapters 01, 02, 04, 05, 08 to 16, 18 and 20 to 22). An offset that
holds no register reads 0 (01 R52). -/

namespace Sys2Proof.Machine

/-- Bits [31:0] or [63:32] of a 64-bit value. -/
def half (v : Nat) (hi : Bool) : Nat := if hi then v / 2 ^ 32 % 2 ^ 32 else v % 2 ^ 32

/-- The word of a family of registers with stride 4 from `base` on. -/
def word4 (off base n : Nat) : Option Nat :=
  if base ≤ off ∧ off < base + 4 * n ∧ off % 4 = 0 then some ((off - base) / 4) else none

/-- Die of a quay: Q00 to Q31 east, Q32 to Q63 west. -/
def quayDie (q : Nat) : Nat := q / 32

/-- Silicon stepping of a die. -/
def dieStepping (d : Nat) : Nat := (if d = 0 then Config.steppingEast else Config.steppingWest).toNat

/-! ### Pace (02 R66 to R70, R77, R83, R696) -/

def State.readPace (s : State) (q off : Nat) : Nat :=
  let p := (s.quay q).pace
  let module_ : Bool := q == 0
  match off with
  | 0x000 => 2 ^ 31 * b2n p.valid + 2 ^ 30 * b2n p.refRing + p.cur.toNat
  | 0x004 => 2 ^ 16 * p.max.toNat + p.min.toNat
  | 0x008 => p.pred.toNat
  | 0x00C => (Config.paceTrim q).toNat
  | 0x010 => 2 ^ 16 * b2n p.park + p.step.toNat
  | 0x014 => p.vmeas.toNat
  | 0x018 => p.tj.toNat
  | 0x01C => p.issueN.toNat
  | 0x024 => b2n p.lowPace + 2 * b2n p.slewing + 4 * b2n p.vsetClamped + 8 * b2n p.paceStep
  | 0x800 =>
    if module_ then 2 ^ 31 * b2n s.central.valid + 2 ^ 30 * b2n s.central.refRing + s.central.cur.toNat else 0
  | 0x804 => if module_ then half s.time false else 0
  | 0x808 => if module_ then half s.time true else 0
  | 0x80C => if module_ then b2n s.onRing + 2 * b2n s.refclkFailSeen else 0
  | 0x810 => if module_ then Config.centralTrim.toNat else 0
  | _ => 0

/-! ### Quays (01 R32 to R36, 11 R371, 21 R658) -/

def State.readQuay (s : State) (q off : Nat) : Nat :=
  let x := s.quay q
  match word4 off 0x10 4, word4 off 0x80 16 with
  | some n, _ =>
    let m := Table.getD x.spares n SpareMap.reset
    2 ^ 31 * b2n m.inUse + m.replaced.toNat
  | _, some n =>
    (List.range 4).foldl (fun v k => v + 2 ^ (8 * k) *
      (if s.mapMode && !x.outOfService && x.inService then x.physical (4 * n + k) else 0x7F)) 0
  | none, none =>
    match off with
    | 0x00 => 2 ^ 28 + 2 ^ 24 * dieStepping (quayDie q) + 2 ^ 22 * quayDie q + 2 ^ 16 * q + 2 ^ 8 * 68
        + (if x.outOfService then 0 else 64)
    | 0x04 => b2n x.inService + 2 * b2n x.parked + 4 * x.sparesUsed.toNat
        + 2 ^ 8 * popcount 68 x.failed.toNat + 2 ^ 16 * b2n s.mapMode
    | 0x20 => x.ccState.toNat + 2 ^ 8 * x.heartbeat.toNat
    | 0x30 => x.failed.toNat % 2 ^ 32
    | 0x34 => x.failed.toNat / 2 ^ 32 % 2 ^ 32
    | 0x38 => x.failed.toNat / 2 ^ 64
    | 0x40 => x.ceLevel.toNat + 2 ^ 16 * x.ceOvf.toNat
    | 0x44 => x.ceCap.toNat + 2 ^ 16 * x.ceLeakMs.toNat
    | 0x48 => x.ue.toNat + 2 ^ 16 * x.poisonRd.toNat
    | _ => 0

/-! ### Tiles (01 R37, 04 R164 to R167, 05 R174, R201) -/

def TileMode.code : TileMode → Nat
  | .idle => 0
  | .running => 1
  | .stopping => 2
  | .stopped => 3
  | .aborting => 4

def Tile.readDq (x : Tile) (n : Nat) : Nat :=
  let q := x.dq n
  let k := q.entries.length
  let on (st : StreamSt) (c : WaitCause) : Bool := decide (st.wait = c)
  k + 2 ^ 8 * b2n (x.active && descDqDir x.desc n) + 2 ^ 9 * b2n (k == 64) + 2 ^ 10 * b2n (k == 0)
    + 2 ^ 16 * b2n (on x.as (.push n) || on x.xs (.push n))
    + 2 ^ 17 * b2n (on x.as (.pop n) || on x.xs (.pop n))

def State.readTile (s : State) (t off : Nat) : Nat :=
  let x := s.tile t
  match word4 off 0x20 6, word4 off 0x40 4, word4 off 0x60 8, word4 off 0x100 64,
      word4 off 0x200 64, word4 off 0x300 32 with
  | some n, _, _, _, _, _ => (Table.getD x.loopCnt n 0).toNat
  | _, some n, _, _, _, _ => x.readDq n
  | _, _, some n, _, _, _ => (x.tec n).count.toNat + 2 ^ 16 * b2n (x.tec n).sat
  | _, _, _, some w, _, _ => byteField x.cfgPend.toNat (4 * w) 4
  | _, _, _, _, some w, _ => byteField x.cfgAct.toNat (4 * w) 4
  | _, _, _, _, _, some w => byteField x.preRec.toNat (4 * w) 4
  | none, none, none, none, none, none =>
    match off with
    | 0x000 => 2 ^ 28 + 2 ^ 24 * dieStepping (quayDie (t / 64)) + 2 ^ 22 * quayDie (t / 64)
        + 2 ^ 16 * (t / 64) + t % 64
    | 0x004 => x.mode.code + 2 ^ 4 * b2n x.pendValid + 2 ^ 5 * b2n (decide (x.as.wait ≠ .none))
        + 2 ^ 6 * b2n (decide (x.xs.wait ≠ .none)) + 2 ^ 7 * b2n (x.sc.state == 1)
        + 2 ^ 8 * b2n x.startLost + 2 ^ 9 * b2n x.cfgWrLost
    | 0x00C => x.doneStatus.toNat + 2 ^ 16 * x.doneFlags.toNat + 2 ^ 24 * x.doneSeq.toNat
    | 0x010 => x.doneCnt.toNat
    | 0x018 => x.owner.elim 0 (fun n => 2 ^ 31 + n)
    | 0x01C => x.errSource.toNat + 2 ^ 8 * x.errOp.toNat
    | 0x080 => x.sc.state.toNat + 2 ^ 4 * x.sc.cause.toNat
    | 0x084 => x.sc.trapPc.toNat
    | 0x088 => x.sc.win.toNat
    | 0x090 => x.descAddr.toNat % 2 ^ 32
    | 0x094 => x.descAddr.toNat / 2 ^ 32
    | 0x09C => x.cache.length + 2 ^ 8 * x.lockedLines + 2 ^ 16 * b2n x.fetchBusy
        + 2 ^ 17 * (match x.prefetch with
          | .ready _ => 1
          | _ => 0)
    | 0x0A0 => x.skips.toNat + 2 ^ 8 * x.lastId.toNat + 2 ^ 16 * b2n x.atPoint
    | _ => 0

/-! ### Stacks and tier-2 channels (09 R318, R319, 10 R346, R347, 11 R369, R370) -/

/-- The integrity registers at offsets 0x040 to 0x05C; `passes` and `bucket` differ
between stacks and channels. -/
def State.readInteg (s : State) (i off passes : Nat) (running : Bool) (bucket : Nat) : Nat :=
  let x := s.integ i
  match off with
  | 0x40 => x.passH.toNat
  | 0x44 => passes % 2 ^ 24 + 2 ^ 30 * b2n s.tiers.scrubPaused + 2 ^ 31 * b2n running
  | 0x48 => x.cap.toNat + 2 ^ 16 * x.leakMs.toNat
  | 0x4C => x.ceTotal.toNat
  | 0x50 => x.ueData.toNat
  | 0x54 => x.ueAddr.toNat
  | 0x58 => x.uePoison.toNat
  | 0x5C => bucket
  | _ => 0

/-- A bucket register. -/
def State.readBucket (s : State) (b : Nat) : Nat :=
  let x := Table.getD s.tiers.buckets b CeBucket.reset
  x.level.toNat + 2 ^ 16 * x.ovf.toNat

/-- Passes of the slowest scrubber of a stack. -/
def State.stackPasses (s : State) (n : Nat) : Nat :=
  let ps := (s.pcList n).map (fun p => Table.getD s.tiers.scrubPasses (n * 64 + p) 0)
  match ps with
  | [] => 0
  | p :: r => r.foldl min p

def State.readStk (s : State) (n off : Nat) : Nat :=
  let u := s.stackUnit n
  let out := s.pcOut n ||| (Table.getD s.tiers.pcFenced n 0).toNat
  let sru := s.stks.chains.any (fun c => c.2.running.any (fun r =>
    !r.done && (((c.2.descs[r.idx]?).map (fun d => (sdStacks d.toNat).contains n)).getD false)))
  match word4 off 0x100 64 with
  | some p => s.readBucket (n * 64 + p)
  | none =>
    match off with
    | 0x000 => 2 ^ 28 + 2 ^ 24 * (Config.steppingStack n).toNat + 2 ^ 20 * (n / 6) + 2 ^ 16 * n + 0x400
    | 0x004 => (s.poolSize n false - s.slotsHeld n false) + 2 ^ 16 * (s.poolSize n true - s.slotsHeld n true)
        + 2 ^ 28 * b2n (s.tiers.stkHot.getLsbD n) + 2 ^ 29 * b2n sru
    | 0x008 => u.serveRsv.toNat
    | 0x010 => half out false
    | 0x014 => half out true
    | 0x018 => u.nbuNs / 1024 % 2 ^ 32
    | 0x020 => half u.macs.toNat false
    | 0x024 => half u.macs.toNat true
    | 0x028 => u.errStatus.toNat + 2 ^ 16 * u.errIndex.toNat
    | 0x02C => u.descCnt.toNat
    | o => s.readInteg n o (s.stackPasses n) (s.tiers.t1Filled && (s.integ n).passH != 0) (s.readBucket (2048 + n))

def State.readT2 (s : State) (n off : Nat) : Nat :=
  let c := s.chan n
  let merges := (s.tiers.merge.filter (fun (e : MergeEntry) => e.unit == 1024 + n)).length
  match off with
  | 0x000 => 2 ^ 28 + 2 ^ 24 * dieStepping (n / 8) + 2 ^ 20 * (n / 8) + 2 ^ 16 * n + 0x40
  | 0x004 => c.state.toNat + 2 ^ 4 * c.attempt.toNat + 2 ^ 8 * b2n c.hot + 2 ^ 9 * b2n c.selfRefresh
      + 2 ^ 16 * merges
  | 0x008 => c.errThresh.toNat + 2 ^ 16 * b2n c.tempEn
  | 0x00C => c.linkErr.toNat
  | 0x010 => c.cntDone.toNat + 2 ^ 16 * c.cntFailed.toNat
  | 0x014 => c.lastUs.toNat + 2 ^ 20 * c.lastCause.toNat
  | 0x018 => c.temp.toNat
  | 0x01C => c.mergeRmw.toNat
  | 0x020 => half c.rd.toNat false
  | 0x024 => half c.rd.toNat true
  | 0x028 => half c.wr.toNat false
  | 0x02C => half c.wr.toNat true
  | o => s.readInteg (64 + n) o (Table.getD s.tiers.scrubPasses (1024 + n) 0)
      (s.tiers.t2Filled && (s.integ (64 + n)).passH != 0) (s.readBucket (1024 + n))

/-! ### Fabric (16 R524, R525) -/

def State.readPort (s : State) (n off : Nat) : Nat :=
  let p := s.port n
  match off with
  | 0x000 => p.state.toNat + 2 ^ 4 * p.lanes.toNat + 2 ^ 8 * p.attempt.toNat + 2 ^ 16 * b2n (decide (14 ≤ n))
  | 0x004 => b2n p.en + 2 ^ 8 * p.ucwThresh.toNat + 2 ^ 16 * p.replayThresh.toNat
  | 0x008 => p.peerBerth.toNat + 2 ^ 13 * b2n p.peerHarbour + 2 ^ 16 * p.peerPort.toNat + 2 ^ 31 * b2n p.peerValid
  | 0x00C => half p.peerSn.toNat false
  | 0x010 => half p.peerSn.toNat true
  | 0x014 => p.fecCorr.toNat
  | 0x018 => p.fecUcw.toNat
  | 0x01C => p.replays.toNat
  | 0x020 => p.done.toNat + 2 ^ 16 * p.failed.toNat
  | 0x024 => p.rttNs.toNat
  | 0x028 => half p.tx.toNat false
  | 0x02C => half p.tx.toNat true
  | 0x030 => p.badPkt.toNat
  | _ => 0

def State.readFab (s : State) (off : Nat) : Nat :=
  let f := s.fab
  let w := f.twin
  match word4 off 0x10000 8192 with
  | some b => s.route b
  | none =>
    match off with
    | 0x00 => f.berth.toNat + 2 ^ 13 * b2n f.harbour + 2 ^ 14 * b2n f.assigned + 2 ^ 16 * f.mode.toNat
        + 2 ^ 20 * b2n f.twinMode
    | 0x04 => half Config.serial.toNat false
    | 0x08 => half Config.serial.toNat true
    | 0x0C => b2n f.ready + 2 * b2n f.partialRoutes
        + 2 ^ 16 * (f.rt.filter (fun e => e.2.getLsbD 31)).length
    | 0x10 => f.gen.toNat
    | 0x14 => f.timeoutMs.toNat
    | 0x18 => f.reqs.length
    | 0x1C => f.late.toNat
    | 0x20 => w.state.toNat + 2 ^ 3 * b2n ((s.port 14).state == 2) + 2 ^ 4 * b2n ((s.port 15).state == 2)
    | 0x24 => b2n w.auto + 2 ^ 4 * w.holdMs.toNat + 2 ^ 16 * w.takeoverMs.toNat
    | 0x30 => half w.tx false
    | 0x34 => half w.tx true
    | 0x38 => half w.ack false
    | 0x3C => half w.ack true
    | 0x40 => w.used / 2 ^ 20
    | _ => 0

/-! ### DMA, sync, serving and Pilot (12 R404 to R406, 13 R427 to R429, 14 R465, R466,
15 R489, 08 R284, R285) -/

def State.readAc (s : State) (n off : Nat) : Nat :=
  let a := s.ac n
  match off with
  | 0x00 => a.tenant.toNat + 2 ^ 16 * b2n a.sigEn + 2 ^ 30 * b2n a.sat + 2 ^ 31 * b2n a.valid
  | 0x04 => a.so.toNat
  | 0x08 => a.base.toNat % 2 ^ 32
  | 0x0C => a.base.toNat / 2 ^ 32
  | 0x10 => a.size64.toNat % 2 ^ 32
  | 0x14 => a.target.toNat
  | 0x18 => half a.count.toNat false
  | 0x1C => half a.count.toNat true
  | _ => 0

def State.readDma (s : State) (off : Nat) : Nat :=
  if 0x10000 ≤ off ∧ off < 0x30000 then s.readAc ((off - 0x10000) / 0x20) ((off - 0x10000) % 0x20)
  else if off < 0x1000 then
    let n := off / 0x100
    let e := s.engine n
    match off % 0x100 with
    | 0x00 =>
      let wait := (s.dma.ctxs.flatMap (fun (c : Nat × DmaCtx) => c.2.running)).any (fun r =>
        r.engine == n && decide (r.stage = .cqWait))
      s.engineRuns n + 2 ^ 8 * s.engineLists n + 2 ^ 16 * b2n (n == 15) + 2 ^ 17 * b2n wait
    | 0x04 => e.done.toNat
    | 0x08 => e.err.toNat
    | 0x10 => half e.bytes.toNat false
    | 0x14 => half e.bytes.toNat true
    | _ => 0
  else
    match off with
    | 0x1000 => s.memopsUsed none
    | 0x1004 => 4096 - (s.dma.acs.filter (fun a => a.2.valid)).length
    | 0x1008 => s.dma.redaddCnt.toNat
    | _ => 0

def State.readBar (s : State) (g off : Nat) : Nat :=
  let b := s.bar g
  match off with
  | 0x00 => b.tenant.toNat + 2 ^ 16 * b2n b.sigEn + 2 ^ 31 * b2n b.valid
  | 0x04 => b.so.toNat
  | 0x08 => half b.qmask.toNat false
  | 0x0C => half b.qmask.toNat true
  | 0x10 => half b.tmask.toNat false
  | 0x14 => half b.tmask.toNat true
  | 0x18 => b2n b.phase + 2 ^ 4 * b.arrived.length
  | 0x1C => b.releases.toNat
  | _ => 0

def State.readSync (s : State) (off : Nat) : Nat :=
  if 0x100000 ≤ off then
    let o := s.so ((off - 0x100000) / 8)
    if off % 8 = 0 then
      o.tenant.toNat + 2 ^ 10 * b2n o.irqEn + 2 ^ 11 * b2n o.ovf + 2 ^ 12 * b2n o.unf
        + 2 ^ 13 * b2n (!o.waiters.isEmpty) + 2 ^ 15 * b2n o.valid + 2 ^ 16 * o.thresh.toNat
    else if off % 8 = 4 then o.count.toNat else 0
  else if 0x1000 ≤ off ∧ off < 0x1800 then s.readBar ((off - 0x1000) / 0x20) (off % 0x20)
  else
    match off with
    | 0x00 => s.waiterCount + 2 ^ 16 * b2n (!s.sync.retried.isEmpty)
    | 0x04 => 131072 - (s.sync.objs.filter (fun o => o.2.valid)).length
    | 0x08 => s.sync.evtOvf.toNat + 2 ^ 16 * s.sync.evtUnf.toNat
    | 0x0C => s.sync.isoCnt.toNat
    | 0x10 => s.sync.ops.toNat
    | _ => 0

def State.readManTenant (s : State) (n off : Nat) : Nat :=
  let x := s.srvTenant n
  match off with
  | 0x00 => x.ratio.toNat + 2 ^ 16 * x.overs.toNat
  | 0x04 => x.measUs.toNat
  | 0x08 => x.soloUs.toNat
  | 0x0C => s.srvUsed n
  | 0x10 => x.quota.toNat
  | 0x14 => x.tokens.toNat
  | _ => 0

/-- Free pool slots in a stack over every model's pool. -/
def State.kvFreeIn (s : State) (stack : Nat) : Nat :=
  (s.kv.geoms.map (fun g => s.kvStackFree g.2.toNat stack)).sum

def State.readMan (s : State) (off : Nat) : Nat :=
  let v := s.serving
  let live := v.entries.filter (fun (e : Nat × SrvEntry) => e.2.state != 0)
  if 0x8000 ≤ off then s.readManTenant ((off - 0x8000) / 0x20) (off % 0x20)
  else
    match word4 off 0x140 12 with
    | some n => s.kvFreeIn n
    | none =>
      match off with
      | 0x00 => live.length
      | 0x04 => v.hits.toNat
      | 0x08 => v.misses.toNat
      | 0x0C => v.steps.toNat
      | 0x10 => half v.tokens.toNat false
      | 0x14 => half v.tokens.toNat true
      | 0x18 =>
        let sp := (s.graph.graphs.map (fun g => (g.2.nodes.filter (fun n => n.2.phase == .spilled)).length)).sum
        (if (s.resv 1).2 = 0 then 0x100000 else s.spillFree) + 2 ^ 24 * sp
      | 0x1C => v.stopUs.toNat
      | 0x20 => v.preempts.toNat + 2 ^ 16 * v.aborts.toNat
      | 0x24 => v.slowWin.toNat + 2 ^ 8 * v.slowThresh.toNat + 2 ^ 24 * v.slowConsec.toNat
      | 0x28 => v.ringErr.toNat
      | 0x100 => (s.kv.slots.filter (fun (x : KvSlot) => !x.isV)).length
      | 0x104 => s.kv.poolFail.toNat + 2 ^ 16 * s.kv.ptFail.toNat
      | 0x108 => s.kv.sums.toNat
      | 0x10C => (live.filter (fun (e : Nat × SrvEntry) => s.ptParked e.2.pt)).length
      | _ => 0

def State.readPil (s : State) (off : Nat) : Nat :=
  let p := s.pilot
  match word4 off 0x10 3 with
  | some c => s.pilThresh c + 2 ^ 16 * (Table.getD p.windows c 0).toNat
  | none =>
    match off with
    | 0x00 => b2n p.frozen + 2 * b2n s.replaying + 2 ^ 16 * p.moves.length
    | 0x1C => p.fix.toNat + 2 ^ 8 * p.winMs.toNat
    | 0x20 => half (s.resv 3).1 false
    | 0x24 => half (s.resv 3).1 true
    | 0x28 => p.dlogHead.toNat
    | 0x2C => p.dlogLost.toNat
    | 0x30 => p.committed.toNat + 2 ^ 16 * p.abandoned.toNat
    | _ => 0

/-! ### Trace (22 R678, R679) -/

/-- A word of a table of 64-bit counters: index from `base` with stride `st`. -/
def readCnt (t : Table (BitVec 64)) (i : Nat) (hi : Bool) : Nat := half (Table.getD t i 0).toNat hi

/-- A word of a shadow: `timed` says whether its counter's count follows the timing, and
`j` numbers it among all counters. -/
def Trace.readShadow (t : Trace) (tab : Table (BitVec 64)) (i j : Nat) (timed hi : Bool) : Nat :=
  if timed then t.snapFree.elim 0 (fun k => half (Config.freeValue (k + j)).toNat hi) else readCnt tab i hi

/-- Does a TRC_ register show the live count of such a counter? -/
def trcTimed (q off : Nat) : Bool :=
  (decide (0x1000 ≤ off) && decide (off < 0x1200) && quayTimed ((off - 0x1000) / 8))
    || (q == 0 && decide (0x9000 ≤ off) && decide (off < 0x9400) && modTimed ((off - 0x9000) / 8))
    || (q == 1 && decide (0x8000 ≤ off) && decide (off < 0xC000) && off % 16 / 8 == 0)

/-- The registers that the central unit shares with quay units, at offsets 0x00 to
0x14 of R678. -/
def TraceUnit.readHead (x : TraceUnit) (off : Nat) : Nat :=
  match off with
  | 0x08 => half x.wptr.toNat false
  | 0x0C => half x.wptr.toNat true
  | 0x10 => half x.lost.toNat false
  | 0x14 => half x.lost.toNat true
  | _ => 0

/-- Module registers of instance 0, from offset 0x8000. -/
def State.readTrcModule (s : State) (off : Nat) : Nat :=
  let t := s.trace
  let c := s.unit 64
  if 0x9000 ≤ off ∧ off < 0x9400 then readCnt t.modCnt ((off - 0x9000) / 8) (off % 8 == 4)
  else if 0x9800 ≤ off ∧ off < 0x9C00 then
    let i := (off - 0x9800) / 8
    t.readShadow t.modShadow i (4096 + i) (modTimed i) (off % 8 == 4)
  else if 0x8800 ≤ off ∧ off < 0x8A00 then
    match Table.find s.events.mirror ((off - 0x8800) / 32) with
    | some r => byteField (natOfBytes r.bytes) (off % 32) 4
    | none => 0
  else
    match off with
    | 0x8000 => b2n c.en + 2 * (c.mode.toNat % 4)
    | 0x8020 => half t.sinkAddr.toNat false
    | 0x8024 => half t.sinkAddr.toNat true
    | 0x8028 => t.sinkPages.toNat
    | 0x8030 => half t.snapTime.toNat false
    | 0x8034 => half t.snapTime.toNat true
    | 0x8038 => t.snapSeq.toNat
    | 0x8040 => s.events.evtUsed + 2 ^ 16 * s.events.almUsed
    | 0x8044 => s.events.alarmCnt.toNat
    | o => c.readHead (o - 0x8000)

def State.readTrc (s : State) (q off : Nat) : Nat :=
  let t := s.trace
  let x := s.unit q
  if off % 4 ≠ 0 then 0
  else if 0x8000 ≤ off then
    if q = 0 then s.readTrcModule off
    else if q = 1 then
      let i := off % 0x4000 / 16 * 2 + off % 16 / 8
      if off < 0xC000 then readCnt t.tenCnt i (off % 8 == 4)
      else t.readShadow t.tenShadow i (4224 + i) (i % 2 == 0) (off % 8 == 4)
    else 0
  else if 0x1000 ≤ off ∧ off < 0x1200 then readCnt t.quayCnt (q * 64 + (off - 0x1000) / 8) (off % 8 == 4)
  else if 0x1800 ≤ off ∧ off < 0x1A00 then
    let i := (off - 0x1800) / 8
    t.readShadow t.quayShadow (q * 64 + i) (q * 64 + i) (quayTimed i) (off % 8 == 4)
  else
    match off with
    | 0x00 => b2n x.en + 2 * x.mode.toNat
    | 0x04 => x.buffer.length + 2 ^ 16 * b2n x.discarding + 2 ^ 17 * b2n x.parkedMark
    | 0x18 => half x.partBase.toNat false
    | 0x1C => half x.partBase.toNat true
    | 0x20 => x.partRecs.toNat
    | o => x.readHead o

/-! ### Power and heat (20 R636, R637) -/

def State.readPwr (s : State) (off : Nat) : Nat :=
  let p := s.power
  match word4 off 0x100 85, word4 off 0x400 64 with
  | some n, _ => (Table.getD p.rails n 0).toNat
  | _, some n => (Table.getD p.qe n 0).toNat
  | none, none =>
    match off with
    | 0x00 => b2n p.gateOn + 2 * b2n p.ramping + 4 * b2n p.pgood + 8 * b2n p.latched + 16 * p.retries.toNat
        + 2 ^ 6 * b2n p.thmOff + 2 ^ 7 * b2n (decide (p.clamp < 64)) + 2 ^ 8 * b2n p.icur + 2 ^ 9 * b2n p.vinOk
    | 0x04 => p.hsCause.toNat
    | 0x08 => p.ilim.toNat
    | 0x0C => p.vin.toNat
    | 0x10 => p.iin.toNat
    | 0x14 => p.pin.toNat
    | 0x18 => p.hwLimit.toNat
    | 0x1C => p.softLimit.toNat
    | 0x20 => half p.energy.toNat false
    | 0x24 => half p.energy.toNat true
    | _ => 0

/-- A node of the estimator. -/
def State.thermNode (s : State) (i : Nat) : ThermNode := Table.getD s.thermal.nodes i ThermNode.reset

/-- An estimate in 1/16 °C, as 16 bits of two's complement. -/
def sixteenths (t : Int) : Nat := ofInt 16 (t * 16 / 1000000000)

/-- The hottest node, the lowest on a tie. -/
def State.hotNode (s : State) : Nat :=
  (List.range 77).foldl (fun b i => if (s.thermNode b).temp < (s.thermNode i).temp then i else b) 0

/-- LEVEL of THM_STATUS. -/
def State.thermLevel (s : State) : Nat :=
  if s.thermal.shutAt.isSome then 3
  else if s.thermal.nodes.any (fun n => n.2.throttled) then 2
  else if s.thermal.warn then 1 else 0

/-- Flow in mL/min (R626). -/
def State.flow (s : State) : Nat :=
  if s.thermal.stuck || s.thermal.fbLost then 200 else max 200 (2000 * s.thermal.fb.toNat / 100)

/-- Case 1 of R634: the valve is commanded 100 %. -/
def State.valveForced (s : State) : Bool :=
  !s.coreRuns 65 || s.thermal.warn || s.thermal.shutAt.isSome || s.thermal.fbLost

/-- Quays in backstop. -/
def State.backstops (s : State) : Nat :=
  (List.range 64).foldl (fun v q => v + 2 ^ q * b2n (s.thermNode q).backstop) 0

def State.readThm (s : State) (off : Nat) : Nat :=
  let t := s.thermal
  match word4 off 0x40 12, word4 off 0x100 77 with
  | some n, _ => (Table.getD t.duty n 0x40#7).toNat
  | _, some n => sixteenths (s.thermNode n).temp + 2 ^ 16 * b2n (s.thermNode n).throttled
  | none, none =>
    match off with
    | 0x00 => s.thermLevel + 2 ^ 8 * s.hotNode + 2 ^ 16 * sixteenths (s.thermNode s.hotNode).temp
    | 0x04 => t.inlet.toNat + 2 ^ 16 * b2n t.inFail
    | 0x08 => t.outlet.toNat + 2 ^ 16 * b2n t.outFail
    | 0x0C => t.flow.toNat
    | 0x10 => b2n t.mode + 2 ^ 8 * t.position.toNat
    | 0x14 => t.cmd.toNat + 2 ^ 8 * t.fb.toNat + 2 ^ 16 * b2n t.stuck + 2 ^ 17 * b2n t.fbLost
        + 2 ^ 18 * b2n s.valveForced
    | 0x18 => t.shutdowns.toNat
    | 0x20 => half s.backstops false
    | 0x24 => half s.backstops true
    | _ => 0

/-! ### Reset (21 R657) -/

def State.readRst (s : State) (off : Nat) : Nat :=
  let b := s.bring
  let k := s.backup
  match word4 off 0x10 8, word4 off 0x40 24 with
  | some n, _ => (Table.getD k.cfg n 0).toNat
  | _, some n => half (Table.getD k.fenceT1 (n / 2) 0).toNat (n % 2 == 1)
  | none, none =>
    match off with
    | 0x00 => b2n b.ready + 2 * b2n b.pcieUp + 4 * b2n b.tileTest + 8 * b2n b.t1Trained + 16 * b2n b.t2Trained
        + 32 * b2n s.tiers.t1Filled + 64 * b2n s.tiers.t2Filled + 128 * b2n b.fwInit
        + 2 ^ 16 * b2n b.resetN + 2 ^ 17 * b2n b.perstN + 2 ^ 24 * b.wakeStep
    | 0x04 => k.cause.toNat + 2 ^ 4 * k.sources.toNat + 2 ^ 9 * k.shorts.toNat + 2 ^ 12 * b2n k.latch
        + 2 ^ 16 * k.failStep.toNat + 2 ^ 20 * k.failRail.toNat + 2 ^ 28 * b2n k.wakeFailed
    | 0x08 => k.count.toNat
    | 0xA0 => k.fenceT2.toNat
    | 0xC0 => b.wdogMs.toNat
    | 0xC8 => if b.wdogMs = 0 then 0 else b.wdogMs.toNat - (s.time - b.wdogAt) / 25000
    | 0xD0 => b.blk.toNat + 2 ^ 16 * b2n b.blkBusy
    | _ => 0

/-! ### Mailbox pages (18 R569) -/

def State.readMbx (s : State) (f off : Nat) : Nat :=
  let x := s.func f
  let enrolled := [0, 1, 2].any (fun c => (s.coreQ c).ring.any (fun e => e.func == f))
  match word4 off 0x100 64, word4 off 0x200 64 with
  | some w, _ => byteField x.req.toNat (4 * w) 4
  | _, some w => byteField x.rsp.toNat (4 * w) 4
  | none, none =>
    match off with
    | 0x08 => x.mbxState.toNat + 4 * b2n x.overrun + 8 * b2n enrolled
    | 0x0C => x.retryUs.toNat
    | 0x10 => x.evtHead.toNat
    | 0x14 => x.evtTail.toNat
    | 0x18 => x.noteHead.toNat
    | 0x1C => x.noteTail.toNat
    | 0x20 => x.noteLost.toNat
    | _ => 0

/-! ### Every register -/

/-- What the register at an address of the register region reads as. -/
def State.regValue (s : State) (a : Nat) : Nat :=
  match regAt a with
  | none => 0
  | some (b, i, o) =>
    match b with
    | .pace => s.readPace i o
    | .quay => s.readQuay i o
    | .tile => s.readTile i o
    | .stk => s.readStk i o
    | .t2 => s.readT2 i o
    | .port => s.readPort i o
    | .fab => s.readFab o
    | .dma => s.readDma o
    | .sync => s.readSync o
    | .man => s.readMan o
    | .pil => s.readPil o
    | .trc => s.readTrc i o
    | .pwr => s.readPwr o
    | .thm => s.readThm o
    | .rst => s.readRst o
    | .mbx => s.readMbx i o

/-- Read a register. The HEARTBEAT of a running control core is a free value: the
firmware advances it at a pace of its own (01 R36). So is a counter whose count
follows the timing (22 R676). -/
def State.readReg (s : State) (a : Nat) : Word × State :=
  match regAt a with
  | some (.quay, q, 0x20) =>
    if (s.quay q).ccState = 2 then
      let (v, s) := s.freshLong
      let s := s.updQuay q (fun x => { x with heartbeat := v.truncate 8 })
      (BitVec.ofNat 32 (s.regValue a), s)
    else (BitVec.ofNat 32 (s.regValue a), s)
  | some (.trc, q, o) =>
    if trcTimed q o ∧ o % 4 = 0 then
      let (v, s) := s.freshLong
      (v.truncate 32, s)
    else (BitVec.ofNat 32 (s.regValue a), s)
  | _ => (BitVec.ofNat 32 (s.regValue a), s)

end Sys2Proof.Machine
end

