-- ==== Sys2Proof/Machine/Atomic.lean ====
section
/-! DEFINITION. Atomic operations and floating-point reduction at the home of
an address (12 R397 to R400), and accesses of engines to local addresses with
the register region among them (01 R50 to R52). -/

namespace Sys2Proof.Machine

/-! ### Atomics (R397, R398) -/

/-- The new value of an atomic operation on a word of `size` bytes. -/
def atomicNew (op size old a b : Nat) : Nat :=
  let w := 8 * size
  let a := a % 2 ^ w
  let b := b % 2 ^ w
  match op with
  | 0 => (old + a) % 2 ^ w
  | 1 => if sext w old ≤ sext w a then old else a
  | 2 => if sext w old ≤ sext w a then a else old
  | 3 => min old a
  | 4 => max old a
  | 5 => old &&& a
  | 6 => old ||| a
  | 7 => old ^^^ a
  | 8 => a
  | _ => if old = a then b else old

/-- Does a move of the Pilot hold writes to this range? A read-modify-write of
it waits then. -/
def State.writesHeld (s : State) (a n : Nat) : Bool :=
  s.pilot.moves.any (fun m => m.step == .hold && m.meets a n)

/-- One read-modify-write of `n` bytes inside an atom or a scratchpad word, which
is written back whole. Gives the old value; `none` where the atom is
uncorrectable, which is left as it is. -/
def State.rmw (s : State) (a n : Nat) (f : Nat → Nat) : Option Nat × State :=
  let u := s.unitBytes a
  let base := a / u * u
  match s.load base u with
  | (none, s) => (none, s)
  | (some bs, s) =>
    let old := byteField (natOfBytes bs) (a - base) n
    (some old, s.writeMem base (bs.take (a - base) ++ bytesOfNat n (f old) ++ bs.drop (a - base + n)))

/-- The fixed parts of the map in which an atomic (`red` false) or a REDADD may
have its target (12 R379 check 5): tier 1, tier 2, and for atomics scratchpads. -/
def atomicPlace (red : Bool) (a : Nat) : Bool :=
  decide (a < 2 * tier2Base) || (!red && decide (tileWindows ≤ a) && decide (a < tileWindows + 0x40000000)
    && decide ((a - tileWindows) % 0x40000 < 0x30000))

/-! ### Reduction (R400) -/

/-- Source elements of a REDADD as FP32. -/
def redElems (bf16 : Bool) (bs : List Byte) : List (BitVec 32) :=
  let w := if bf16 then 2 else 4
  (List.range (bs.length / w)).map (fun i =>
    let v := natOfBytes ((bs.drop (w * i)).take w)
    BitVec.ofNat 32 (if bf16 then v * 65536 else v))

/-- Flags of one addition: those of the operation, a NaN that was read, and a finite
sum beyond the range (03 R126). -/
def redFlags (a b : BitVec 32) : ArithFlags :=
  let nan : Bool := fvIsNan (ofFp32 a) || fvIsNan (ofFp32 b)
  (fpAdd a b).2 ||| (toFp32 (fvAdd (ofFp32 a) (ofFp32 b)).1).2 ||| flagIf nan flagNanIn

/-- Add elements from address `a` on, one by one, up to the first that is
uncorrectable: the flags, whether all were added, and how many were. -/
def State.redadd (s : State) : Nat → List (BitVec 32) → ArithFlags × Bool × Nat × State
  | _, [] => (0, true, 0, s)
  | a, v :: vs =>
    let fl (old : Nat) : ArithFlags := redFlags (BitVec.ofNat 32 old) v
    match s.rmw a 4 (fun old => (fpAdd (BitVec.ofNat 32 old) v).1.toNat) with
    | (none, s) => (0, false, 0, s)
    | (some old, s) =>
      let s := { s with dma := { s.dma with redaddCnt := s.dma.redaddCnt + 1 } }
      let (f, ok, n, s) := State.redadd s (a + 4) vs
      (fl old ||| f, ok, n + 1, s)

/-! ### Engine accesses to local addresses -/

/-- Read as an engine: memory, or a register of 4 bytes, which any requester may
read (01 R50). -/
def State.engineRead (s : State) (a n : Nat) : Option (List Byte) × State :=
  if s.region a = .register then
    let (v, s) := s.readReg a
    (some (bytesOfNat 4 v.toNat), s)
  else s.load a n

/-- Write as an engine of tenant `tenant`. An engine writes no register that names its
writer: the write is ignored, and one to a TILE_ page is refused and recorded
(04 R163); the PACE_ fields that any requester clears are cleared. A write that meets a
fenced unit reports an uncorrectable error (11 R362). -/
def State.engineWrite (s : State) (tenant a : Nat) (bs : List Byte) : Option Status × State :=
  match regAt a with
  | some (.tile, t, _) =>
    (some ST_TILE_REG_DENIED, s.isolation ST_TILE_REG_DENIED 2 t tenant a)
  | some (.pace, q, off) => (none, s.writePace (.host tenant) q off (natOfBytes bs))
  | some _ => (none, s)
  | none =>
    let bad := s.fencedIn a bs.length
    (if bad then some ST_MEM_UE else none, s.writeMem a bs)

/-! ### Transfers of a tile (05 R197, R198) -/

/-- A tile DMA transfer under way completes and increments its TEC, or fails. -/
def execTileDmaComplete (t id : Nat) (s : State) : Out :=
  match (s.tile t).dmas.find? (fun d => d.id == id) with
  | none => .next s
  | some d =>
    if d.fabric || d.nullS || d.nullX || s.region d.ext.toNat != .register then s.tileDmaComplete t id
    else
      let spadAt := tileBase t + d.spad
      match s.accessRecord 2 t (s.tile t).tenant d.out d.ext.toNat d.len with
      | (some e, s) => .next (s.dmaFailed t d e 4)
      | (none, s) =>
        if d.out then
          match s.readMem spadAt d.len with
          | none => .next ((s.poisonRead (t / 64)).dmaFailed t d ST_SPAD_UE 5)
          | some bs =>
            match s.engineWrite (s.tile t).tenant d.ext.toNat bs with
            | (some e, s) => .next (s.dmaFailed t d e 4)
            | (none, s) => .next (s.dmaDone t d)
        else
          match s.engineRead d.ext.toNat d.len with
          | (none, s) => .next (s.dmaFailed t d ST_MEM_UE 4)
          | (some bs, s) => .next ((s.writeMem spadAt bs).dmaDone t d)

end Sys2Proof.Machine
end

