-- ==== Sys2Proof/Machine/Dma.lean ====
section
/-! DEFINITION. The module DMA engines: lists, descriptors and their checks, the
four operations, read-back and completion (12 R375 to R386). -/

namespace Sys2Proof.Machine

/-! ### Descriptor fields (R376) -/

def ddOp (d : Nat) : Nat := byteField d 3 1
def ddFlag (d i : Nat) : Bool := bit (byteField d 4 1) i
def ddFence (d : Nat) : Bool := ddFlag d 0
def ddRec (d : Nat) : Bool := ddFlag d 1
def ddSig (d : Nat) : Bool := ddFlag d 2
def ddCrc (d : Nat) : Bool := ddFlag d 3
def ddCrc64 (d : Nat) : Bool := ddFlag d 4
def ddCmp (d : Nat) : Bool := ddFlag d 5
def ddSrcMode (d : Nat) : Nat := bits (byteField d 5 1) 0 2
def ddDstMode (d : Nat) : Nat := bits (byteField d 5 1) 2 2
def ddMode (d : Nat) (dst : Bool) : Nat := if dst then ddDstMode d else ddSrcMode d
def ddAop (d : Nat) : Nat := byteField d 6 1
def ddAtop (d : Nat) : Nat := bits (ddAop d) 0 4
def ddAsize (d : Nat) : Nat := if bit (ddAop d) 4 then 8 else 4
def ddBf16 (d : Nat) : Bool := bit (ddAop d) 5
def ddLength (d : Nat) : Nat := bits (byteField d 8 8) 0 40
def ddSrc (d : Nat) : Nat := byteField d 0x10 8
def ddSrcAux (d : Nat) : Nat := byteField d 0x18 8
def ddDst (d : Nat) : Nat := byteField d 0x20 8
def ddDstAux (d : Nat) : Nat := byteField d 0x28 8
def ddAddr (d : Nat) (dst : Bool) : Nat := if dst then ddDst d else ddSrc d
def ddAux (d : Nat) (dst : Bool) : Nat := if dst then ddDstAux d else ddSrcAux d
def ddTag (d : Nat) : Nat := byteField d 0x30 4
def ddSigSo (d : Nat) : Nat := bits (byteField d 0x34 4) 0 17

/-- Bytes written at the destination without the CRC: a REDADD of BF16 elements
writes twice its source. -/
def ddDstBytes (d : Nat) : Nat := if ddOp d = 3 ∧ ddBf16 d then 2 * ddLength d else ddLength d
def ddCrcBytes (d : Nat) : Nat := if ddCrc d then (if ddCrc64 d then 8 else 4) else 0

/-- Harbour, berth and local address of a fabric address (00 R23). -/
def fabParts (a : Nat) : Nat × Nat × Nat := (bits a 61 1, bits a 48 13, bits a 0 48)

/-! ### Checks of a descriptor when it starts (R379) -/

/-- Reserved bits of an address field by its mode. -/
def addrReserved (mode a : Nat) : Bool :=
  match mode with
  | 0 => bits a 48 16 == 0
  | 2 => true
  | _ => bits a 62 2 == 0

/-- Check 1. -/
def ddFmtOk (d : Nat) : Bool :=
  byteField d 0 3 == 0x500801 && bits (byteField d 4 1) 6 2 == 0 && bits (byteField d 5 1) 4 4 == 0
    && bits (ddAop d) 6 2 == 0 && byteField d 7 1 == 0 && bits (byteField d 8 8) 40 24 == 0
    && addrReserved (ddSrcMode d) (ddSrc d) && addrReserved (ddDstMode d) (ddDst d)
    && bits (byteField d 0x34 4) 17 15 == 0 && byteField d 0x38 8 == 0

/-- Check 3. -/
def ddFieldOk (d : Nat) : Bool :=
  let unused (dst : Bool) : Bool := ddMode d dst == 3 || ddAux d dst == 0
  match ddOp d with
  | 0 => unused false && unused true && ddAop d == 0 && decide (1 ≤ ddLength d)
      && !(ddCrc d && ddDstMode d == 3)
  | 1 => ddSrc d == 0 && ddSrcMode d == 0 && unused true && ddAop d == 0 && decide (1 ≤ ddLength d)
      && !(ddCrc d && ddDstMode d == 3)
  | 2 => ddLength d == 0 && decide (ddDstMode d ≤ 1) && decide (ddSrcMode d ≤ 2) && !ddBf16 d
      && !ddCrc d && !ddCmp d
  | _ => ddSrcAux d == 0 && ddDstAux d == 0 && bits (ddAop d) 0 5 == 0 && decide (1 ≤ ddLength d)
      && ddLength d % (if ddBf16 d then 2 else 4) == 0 && decide (ddDstMode d ≤ 1) && !ddCrc d && !ddCmp d

/-- Check 4, but for the mode-3 sides, whose element width stands in the table. -/
def ddAlignOk (d : Nat) : Bool :=
  match ddOp d with
  | 2 => ddDst d % ddAsize d == 0 && ddSrc d % ddAsize d == 0
  | 3 => ddDst d % 4 == 0 && (ddSrcMode d == 3 || ddSrc d % (if ddBf16 d then 2 else 4) == 0)
  | _ => true

/-- Check 5. -/
def ddTargetOk (d : Nat) : Bool :=
  match ddOp d with
  | 2 => atomicPlace false (bits (ddDst d) 0 48)
  | 3 => atomicPlace true (bits (ddDst d) 0 48)
  | _ => true

/-- Checks 1 to 5, but for mode-3 sides. -/
def ddCheck (d : Nat) : Status :=
  if !ddFmtOk d then ST_DMA_DESC_FMT
  else if 4 ≤ ddOp d ∨ (ddOp d = 2 ∧ 9 < ddAtop d) then ST_DMA_OP
  else if !ddFieldOk d then ST_DMA_FIELD
  else if !ddAlignOk d then ST_DMA_ALIGN
  else if !ddTargetOk d then ST_ATOMIC_TARGET
  else 0

/-! ### Owner tables (06 R218 to R221) -/

def thEpoch (h : Nat) : Nat := byteField h 8 4
def thN (h : Nat) : Nat := byteField h 12 4
def thRank (h : Nat) : Nat := byteField h 0x11 1
def thExt (h d : Nat) : Nat := byteField h (0x18 + 4 * d) 4
def thBlk (h d : Nat) : Nat := byteField h (0x30 + 4 * d) 4
/-- Element width of the array in bits. -/
def thBits (h : Nat) : Nat :=
  let ty := byteField h 0x10 1
  match bits ty 6 2 with
  | 0 => typeBits (bits ty 0 4)
  | 1 => 8
  | _ => 16
/-- Blocks along a dimension. -/
def thGrid (h d : Nat) : Nat := (thExt h d + thBlk h d - 1) / max 1 (thBlk h d)

/-- Checks 1 and 2 of R221. -/
def tableStatus (h : Nat) : Status :=
  let r := thRank h
  let ds := List.range r
  if byteField h 0 3 != 0x301001 || bits (byteField h 3 1) 2 6 != 0 || byteField h 0x12 6 != 0
      || byteField h 0x48 56 != 0 || r == 0 || decide (6 < r) || bits (byteField h 0x10 1) 6 2 == 3
      || thEpoch h == 0 then ST_OWNER_FMT
  else if !ds.all (fun d => decide (1 ≤ thExt h d) && decide (1 ≤ thBlk h d) && decide (thBlk h d ≤ thExt h d))
      || !((List.range 6).drop r).all (fun d => thExt h d == 0 && thBlk h d == 0)
      || thN h == 0 || decide (1048576 < thN h)
      || thN h != ds.foldl (fun n d => n * thGrid h d) 1 then ST_OWNER_SHAPE
  else 0

/-- Checks 4 to 6 of R221 on an entry. -/
def entryStatus (e : Nat) : Status :=
  let st := byteField e 9 1
  if bits (byteField e 0 8) 61 3 != 0 || decide (2 ≤ bits (byteField e 8 1) 0 2)
      || bits (byteField e 8 1) 6 2 != 0 || bits st 2 6 != 0 || byteField e 10 2 != 0
      || bits (byteField e 0x10 8) 61 3 != 0 || bits (byteField e 0x18 1) 6 2 != 0
      || byteField e 0x19 7 != 0 then ST_OWNER_FMT
  else if bits st 0 2 = 0 then ST_OWNER_ABSENT
  else if bits st 0 2 = 3 then ST_OWNER_LOST
  else 0

/-- Index of an element along each dimension, the first dimension unbounded. -/
def elemCoords (h e : Nat) : List Nat :=
  let r := thRank h
  (List.range r).map (fun d =>
    let below := ((List.range r).drop (d + 1)).foldl (fun n k => n * thExt h k) 1
    if d = 0 then e / below else e / below % thExt h d)

/-- The block an element lies in, its offset in the block, and the elements from
it to the end of its row or block. -/
def elemPlace (h e : Nat) : Option (Nat × Nat × Nat) :=
  let r := thRank h
  let is := elemCoords h e
  let at_ (d : Nat) : Nat := (is[d]?).getD 0
  if thExt h 0 ≤ at_ 0 then none
  else
    let b := (List.range r).foldl (fun n d => n * thGrid h d + at_ d / thBlk h d) 0
    let o := (List.range r).foldl (fun n d => n * thBlk h d + at_ d % thBlk h d) 0
    let l := r - 1
    some (b, o, min (thExt h l - at_ l) (thBlk h l - at_ l % thBlk h l))

/-- The runs of `n` elements from element `e` on (R380): block, offset in it and
number of elements; and whether a run left the tensor. -/
def runsOf (h : Nat) : Nat → Nat → Nat → List (Nat × Nat × Nat) × Bool
  | 0, _, n => ([], n != 0)
  | fuel + 1, e, n =>
    if n = 0 then ([], false)
    else
      match elemPlace h e with
      | none => ([], true)
      | some (b, o, k) =>
        let k := min k n
        let (rs, bad) := runsOf h fuel (e + k) (n - k)
        ((b, o, k) :: rs, bad)

/-! ### Where a side's bytes lie -/

/-- Where a piece lies. -/
inductive Place where
  | loc
  | fab (h b : Nat)
  | host
  deriving DecidableEq, Repr

/-- A piece of a side: its offset in the range, its length, place and address. -/
structure Piece where
  off : Nat
  len : Nat
  place : Place
  addr : Nat
  deriving DecidableEq, Repr

/-- Pieces of a range at a fabric address (16 R499). -/
def fabPieces (off h b loc n : Nat) : List Piece :=
  (pieces256 loc n).map (fun p => { off := off + p.1, len := p.2, place := .fab h b, addr := loc + p.1 })

/-- What is known of a mode-3 side. -/
inductive Plan where
  | pieces (ps : List Piece)
  /-- bytes of the table, by offset and length, that are still to be read -/
  | need (ns : List (Nat × Nat))
  | fail (st : Status)

/-- Bytes of a side's owner table that have been read. -/
def DmaRun.tableBytes (r : DmaRun) (dst : Bool) (off n : Nat) : Option Nat :=
  (r.tbl.find? (fun x => x.1 == dst && x.2.1 == off && x.2.2.length == n)).map (fun x => natOfBytes x.2.2)

/-- The pieces of a side: `n` bytes in its mode. -/
def State.sidePlan (s : State) (r : DmaRun) (dst : Bool) (n : Nat) : Plan :=
  let d := r.desc.toNat
  let a := ddAddr d dst
  match ddMode d dst with
  | 0 => .pieces [{ off := 0, len := n, place := .loc, addr := a }]
  | 1 =>
    let (h, b, loc) := fabParts a
    .pieces (fabPieces 0 h b loc n)
  | 2 => .pieces [{ off := 0, len := n, place := .host, addr := a }]
  | _ =>
    match r.tableBytes dst 0 128 with
    | none => .need [(0, 128)]
    | some h =>
      let w := thBits h
      if tableStatus h ≠ 0 then .fail (tableStatus h)
      else if w = 0 ∨ n * 8 % w ≠ 0 then .fail ST_DMA_ALIGN
      else
        let (rs, bad) := runsOf h (n * 8 / w) (ddAux d dst) (n * 8 / w)
        if rs.any (fun x => x.2.1 * w % 8 != 0 || x.2.2 * w % 8 != 0) then .fail ST_DMA_ALIGN
        else
          let missing := (rs.map Prod.fst).eraseDups.filter (fun b => (r.tableBytes dst (128 + 32 * b) 32).isNone)
          if bad then .fail ST_OWNER_RANGE
          else if !missing.isEmpty then .need (missing.map (fun b => (128 + 32 * b, 32)))
          else
            let entry (b : Nat) : Nat := (r.tableBytes dst (128 + 32 * b) 32).getD 0
            match rs.find? (fun x => entryStatus (entry x.1) != 0) with
            | some x => .fail (entryStatus (entry x.1))
            | none =>
              .pieces (rs.foldl (fun (acc : Nat × List Piece) x =>
                let e := entry x.1
                let len := x.2.2 * w / 8
                (acc.1 + len, acc.2 ++ fabPieces acc.1 s.ownHarbour (bits e 48 13)
                  (bits e 0 48 + x.2.1 * w / 8) len)) (0, [])).2

/-- The pieces of the writes: the data, then the CRC from the byte after them
on (R381). -/
def crcPieces (d : Nat) : List Piece :=
  let n := ddLength d
  let k := ddCrcBytes d
  if k = 0 then []
  else
    match ddDstMode d with
    | 0 => [{ off := n, len := k, place := .loc, addr := ddDst d + n }]
    | 2 => [{ off := n, len := k, place := .host, addr := ddDst d + n }]
    | _ =>
      let (h, b, loc) := fabParts (ddDst d)
      fabPieces n h b (loc + n) k

/-! ### Contexts and runs -/

def State.dmaCtx (s : State) (c : Nat) : Option DmaCtx := Table.find s.dma.ctxs c
def State.dmaRun (s : State) (c i : Nat) : Option DmaRun :=
  (s.dmaCtx c).bind (fun x => x.running.find? (fun r => r.index == i))
def State.updRun (s : State) (c i : Nat) (f : DmaRun → DmaRun) : State :=
  s.updCtx c (fun x => { x with running := x.running.map (fun r => if r.index = i then f r else r) })

/-- A run meets an error: the first stands, and nothing more is issued. -/
def State.runFail (s : State) (c i : Nat) (st : Status) : State :=
  s.updRun c i (fun r => if r.status = 0 then { r with status := st } else r)

/-- The engine on which the next descriptor of a list starts (R375). -/
def State.startEngine (s : State) (x : DmaCtx) : Option Nat :=
  let e := if listSpread x.hdr.toNat then s.leastEngine (fun _ => true) else some x.engine
  match e with
  | some e =>
    if s.engineRuns e < 16 ∧ (!listSpread x.hdr.toNat || s.decisionAllowed 0x604 e) then some e else none
  | none => none

/-- Start the descriptors of a list that can start now, in order. -/
def State.startDescs (s : State) (c : Nat) : State :=
  iter (fun s =>
    match s.dmaCtx c with
    | none => s
    | some x =>
      let h := x.hdr.toNat
      if listCount h ≤ x.next ∨ x.running.any (fun r => r.status != 0) then s
      else
        match s.startEngine x with
        | none => s
        | some e =>
          let a := listDesc h + 64 * x.next
          let (st, d, s) : Status × Nat × State :=
            match s.accessRecord 6 e x.tenant false a 64 with
            | (some e, s) => (e, 0, s)
            | (none, s) =>
              match s.loadNum a 64 with
              | (none, s) => (ST_DESC_FETCH_UE, 0, s)
              | (some d, s) => (ddCheck d, d, s)
          if st = 0 ∧ ddFence d ∧ !x.running.isEmpty then s
          else
            let r : DmaRun :=
              { index := x.next, engine := e, desc := BitVec.ofNat 512 d, stage := .started, result := 0,
                crc := 0, flags := 0, status := st, outstanding := 0, sent := 0, source := [], tbl := [],
                acked := [], back := [], since := s.time }
            let s := if listSpread h then s.logDecision 0x604 [e] else s
            s.updCtx c (fun x => { x with next := x.next + 1, running := x.running ++ [r] })) 241 s

/-- Start what can start in every list, the older contexts first. -/
def State.startAll (s : State) : State := (s.dma.ctxs.map Prod.fst).foldl State.startDescs s

/-- Give the oldest waiting list to an engine with a free context, and start its
descriptors. -/
def State.placeList (s : State) : Option State :=
  match s.dma.waiting with
  | [] => none
  | x :: rest =>
    match s.leastEngine (fun e => decide (s.engineLists e < 8)) with
    | none => none
    | some e =>
      let c := s.dma.nextCtx
      let s := { s with dma := { s.dma with
        waiting := rest, nextCtx := c + 1, ctxs := Table.put s.dma.ctxs c { x with engine := e } } }
      some s.startAll

def execDmaListStart (t : Nat) (s : State) : Out :=
  .next (((s.at t).placeList).getD (s.at t))

/-! ### Completion (R382 to R386) -/

/-- Bytes known to have taken effect from the start of the destination on. -/
def DmaRun.known (r : DmaRun) : Nat :=
  let n := ddDstBytes r.desc.toNat
  iter (fun k => match Table.find r.acked k with | some l => k + l | none => k) r.acked.length 0 |> min n

/-- The completion record (R384). -/
def DmaRun.completion (r : DmaRun) (phase : Bool) : List Byte :=
  let d := r.desc.toNat
  let crcOk := ddCrc d && r.status == 0
  let res := if ddOp d = 2 then r.result.toNat else if r.status = 0 then ddDstBytes d else r.known
  bytesOfNat 3 0x510401 ++ bytesOfNat 1 (b2n phase + 2 * b2n crcOk + 4 * b2n (crcOk && ddCrc64 d))
    ++ bytesOfNat 2 r.status.toNat ++ bytesOfNat 1 (if ddOp d = 3 then r.flags.toNat else 0) ++ bytesOfNat 1 0
    ++ bytesOfNat 4 (ddTag d) ++ bytesOfNat 4 r.index ++ bytesOfNat 8 res
    ++ bytesOfNat 8 (if crcOk then r.crc.toNat else 0)

/-- A list ends: its node takes note, and its context frees. -/
def State.endList (s : State) (c : Nat) (x : DmaCtx) (st : Status) : State :=
  State.startAll { s with dma := { s.dma with
    ctxs := Table.del s.dma.ctxs c
    ended := s.dma.ended ++ [(x.seq, x.node, st, x.flags)] } }

/-- A descriptor has ended and its record, if any, has taken effect. -/
def State.runDone (s : State) (c i : Nat) : State :=
  match s.dmaCtx c, s.dmaRun c i with
  | some x, some r =>
    let d := r.desc.toNat
    let s := s.traceCentral 1 0x15 3 r.engine (ddTag d) (r.status.toNat + 2 ^ 16 * r.index + 2 ^ 64 * x.seq)
    if r.status ≠ 0 then
      (s.updEngine r.engine (fun e => { e with err := r.status })).updRun c i (fun r => { r with stage := .failed })
    else
      let s := s.updEngine r.engine (fun e => { e with done := e.done + 1 })
      let s := s.cntMod (76 + ddOp d) 1
      let so := ddSigSo d
      let s :=
        if !ddSig d then s
        else if s.soAllowed x.tenant so then s.soSignal so 1
        else s.soBlocked 6 r.engine x.tenant so
      let x := { x with running := x.running.filter (fun y => y.index != i), completed := x.completed + 1,
                        flags := x.flags ||| r.flags }
      let s := s.updCtx c (fun _ => x)
      if x.completed = listCount x.hdr.toNat then s.endList c x 0 else s.startAll
  | _, _ => s

/-- What reserving a slot of the completion queue gives. -/
inductive Slot where
  | full
  | fail (st : Status)
  | ok (tail size ring : Nat) (host : Bool)

/-- Reserve a slot (R385). -/
def State.cqReserve (s : State) (tenant cq : Nat) : Slot × State :=
  match s.accessRecord 6 0 tenant true cq 64 with
  | (some e, s) => (.fail e, s)
  | (none, s) =>
    match s.loadNum cq 64 with
    | (none, s) => (.fail ST_MEM_UE, s)
    | (some b, s) =>
      let size := 2 ^ byteField b 3 1
      let head := byteField b 0x10 4
      let tail := byteField b 0x14 4
      if (tail + 2 ^ 32 - head) % 2 ^ 32 < size then
        let (_, s) := s.rmw (cq + 0x14) 4 (fun v => (v + 1) % 2 ^ 32)
        (.ok tail size (byteField b 8 8) (bit (byteField b 4 1) 0), s)
      else (.full, s)

/-- Write the record of a descriptor that has ended, where one is due; without a
free slot it waits. -/
def State.runRecord (s : State) (c i : Nat) : State :=
  match s.dmaCtx c, s.dmaRun c i with
  | some x, some r =>
    let cq := listCq x.hdr.toNat
    if cq = 0 ∨ (r.status = 0 ∧ !ddRec r.desc.toNat) then s.runDone c i
    else
      match s.cqReserve x.tenant cq with
      | (.fail st, s) => (s.runFail c i st).runDone c i
      | (.full, s) =>
        let s := if r.stage = .cqWait then s else
          (s.updRun c i (fun r => { r with stage := .cqWait, since := s.time })).cntMod 82 1
        s
      | (.ok n size ring host, s) =>
        let a := ring + 32 * (n % size)
        let bs := r.completion ((n / size + 1) % 2 == 1)
        if host then (s.hostWrite a bs).runDone c i
        else
          match s.accessRecord 6 r.engine x.tenant true a 32 with
          | (some e, s) => (s.runFail c i e).runDone c i
          | (none, s) => (s.writeMem a bs).runDone c i
  | _, _ => s

/-- The next stage of a run. -/
def State.runStage (s : State) (c i : Nat) (st : DmaStage) : State :=
  s.updRun c i (fun r => { r with stage := st, sent := 0, since := s.time })

/-! ### Issuing accesses -/

/-- May this unit send a request to (h, b) now? none: the tracker is full. -/
def State.tryReq (s : State) (c i : Nat) (owner : ReqOwner) (ptype h b tenant loc len aop : Nat)
    (data : List Byte) : Option State :=
  match s.remoteCheck h b with
  | some e => some ((s.runFail c i e).noRouteFault h b e)
  | none =>
    if s.trackerFree = 0 then none
    else some ((s.sendReq owner ptype h b tenant loc len aop data).updRun c i
      (fun r => { r with outstanding := r.outstanding + 1 }))

/-- Ask for the missing parts of an owner table. -/
def State.askTable (s : State) (c i tenant : Nat) (dst : Bool) (header : Nat) (ns : List (Nat × Nat)) : State :=
  let (h, b, loc) := fabParts header
  ns.foldl (fun s n =>
    match s.tryReq c i (.dmaTable c i dst n.1) 1 h b tenant (loc + n.1) n.2 0 [] with
    | some s => s
    | none => s) s

/-- Read source pieces in order, until an error, a piece whose memory or host
does not serve it now, or a full tracker. -/
def State.readPieces (c i tenant : Nat) : List Piece → State → State
  | [], s => s
  | p :: ps, s =>
    let got (s : State) (bs : List Byte) : State :=
      s.updRun c i (fun r => { r with source := Table.put r.source p.off bs, sent := r.sent + 1 })
    match p.place with
    | .host =>
      if !s.bring.pcieUp then s
      else State.readPieces c i tenant ps (got (s.hostFetch p.addr p.len).2 (s.hostFetch p.addr p.len).1)
    | .loc =>
      if !s.memReady true p.addr p.len then s
      else
        match s.accessRecord 6 (((s.dmaRun c i).map (·.engine)).getD 0) tenant false p.addr p.len with
        | (some e, s) => s.runFail c i e
        | (none, s) =>
          match s.engineRead p.addr p.len with
          | (none, s) => s.runFail c i ST_MEM_UE
          | (some bs, s) => State.readPieces c i tenant ps (got s bs)
    | .fab h b =>
      match s.tryReq c i (.dmaSrc c i p.off) 1 h b tenant p.addr p.len 0 [] with
      | none => s
      | some s =>
        if ((s.dmaRun c i).map (·.status)).getD 0 ≠ 0 then s
        else State.readPieces c i tenant ps (s.updRun c i (fun r => { r with sent := r.sent + 1 }))

/-- Write destination pieces in order; `data` from the first piece's offset on. -/
def State.writePieces (c i tenant : Nat) : List Piece → List Byte → State → State
  | [], _, s => s
  | p :: ps, data, s =>
    let bs := data.take p.len
    let rest := data.drop p.len
    let done (s : State) : State :=
      let e := ((s.dmaRun c i).map (·.engine)).getD 0
      (s.updRun c i (fun r => { r with acked := Table.put r.acked p.off p.len, sent := r.sent + 1 })).updEngine e
        (fun e => { e with bytes := e.bytes + BitVec.ofNat 64 p.len })
    match p.place with
    | .host =>
      if !s.bring.pcieUp then s else State.writePieces c i tenant ps rest (done (s.hostWrite p.addr bs))
    | .loc =>
      if !s.memReady false p.addr p.len then s
      else
        match s.accessRecord 6 (((s.dmaRun c i).map (·.engine)).getD 0) tenant true p.addr p.len with
        | (some e, s) => s.runFail c i e
        | (none, s) =>
          match s.engineWrite tenant p.addr bs with
          | (some e, s) => s.runFail c i e
          | (none, s) => State.writePieces c i tenant ps rest (done s)
    | .fab h b =>
      match s.tryReq c i (.dmaDst c i p.off) 2 h b tenant p.addr p.len 0 bs with
      | none => s
      | some s =>
        if ((s.dmaRun c i).map (·.status)).getD 0 ≠ 0 then s
        else
          let e := ((s.dmaRun c i).map (·.engine)).getD 0
          State.writePieces c i tenant ps rest
            ((s.updRun c i (fun r => { r with sent := r.sent + 1 })).updEngine e
              (fun e => { e with bytes := e.bytes + BitVec.ofNat 64 p.len }))

/-- Add destination pieces of a REDADD: a remote piece travels in at most 256
bytes of source elements. -/
def State.addPieces (c i tenant : Nat) (bf16 : Bool) : List Piece → List Byte → State → State
  | [], _, s => s
  | p :: ps, data, s =>
    let k := if bf16 then p.len / 2 else p.len
    let bs := data.take k
    let rest := data.drop k
    let e := ((s.dmaRun c i).map (·.engine)).getD 0
    match p.place with
    | .loc =>
      if !s.memReady true p.addr p.len || s.writesHeld p.addr p.len then s
      else
        match s.accessRecord 6 e tenant true p.addr p.len with
        | (some st, s) => s.runFail c i st
        | (none, s) =>
          let (f, ok, n, s) := s.redadd p.addr (redElems bf16 bs)
          let s := (s.updRun c i (fun r =>
            { r with flags := r.flags ||| f, sent := r.sent + 1,
                     acked := Table.put r.acked p.off (4 * n) })).updEngine e
              (fun e => { e with bytes := e.bytes + BitVec.ofNat 64 (4 * n) })
          if ok then State.addPieces c i tenant bf16 ps rest s else s.runFail c i ST_MEM_UE
    | .fab h b =>
      match s.tryReq c i (.dmaDst c i p.off) 4 h b tenant p.addr k (if bf16 then 1 else 0) bs with
      | none => s
      | some s =>
        if ((s.dmaRun c i).map (·.status)).getD 0 ≠ 0 then s
        else
          State.addPieces c i tenant bf16 ps rest
            ((s.updRun c i (fun r => { r with sent := r.sent + 1 })).updEngine e
              (fun e => { e with bytes := e.bytes + BitVec.ofNat 64 p.len }))
    | .host => s

/-- Source bytes of a run in order. -/
def DmaRun.sourceBytes (r : DmaRun) : List Byte :=
  if ddOp r.desc.toNat = 1 then
    let pat := bytesOfNat 8 (ddSrcAux r.desc.toNat)
    (List.range (ddLength r.desc.toNat)).map (fun k => (pat[k % 8]?).getD 0)
  else r.source.flatMap Prod.snd

/-- The CRC of the bytes a run writes (R381). -/
def DmaRun.crcOf (r : DmaRun) : Nat :=
  if !ddCrc r.desc.toNat then 0
  else if ddCrc64 r.desc.toNat then crc64 r.sourceBytes else crc32c r.sourceBytes

/-- A mode-3 side whose table has to be read further: ask for what is missing.
none where both sides are known. -/
def State.resolve (s : State) (c i tenant : Nat) (r : DmaRun) : Option State :=
  let d := r.desc.toNat
  let side (dst : Bool) (n : Nat) : Option State :=
    match s.sidePlan r dst n with
    | .pieces _ => none
    | .need ns => some (s.askTable c i tenant dst (ddAddr d dst) ns)
    | .fail st => some (s.runFail c i st)
  (if ddOp d = 1 then none else side false (ddLength d)) <|> side true (ddDstBytes d)

def Plan.list : Plan → List Piece
  | .pieces ps => ps
  | .need _ => []
  | .fail _ => []

/-- Advance a COPY, a FILL or a REDADD as far as it goes now: its source, then
its writes. -/
def State.runAdvance (s : State) (c i : Nat) : State :=
  let gather (s : State) : State :=
    match s.dmaCtx c, s.dmaRun c i with
    | some x, some r =>
      let d := r.desc.toNat
      if (r.stage ≠ .started ∧ r.stage ≠ .reading) ∨ r.status ≠ 0 then s
      else
        match s.resolve c i x.tenant r with
        | some s' => if r.outstanding = 0 then s' else s
        | none =>
          let ps := if ddOp d = 1 then [] else (s.sidePlan r false (ddLength d)).list
          let s := if r.stage = .started then s.runStage c i .reading else s
          let s := State.readPieces c i x.tenant (ps.drop ((s.dmaRun c i).map (·.sent)|>.getD 0)) s
          match s.dmaRun c i with
          | some r => if r.status = 0 ∧ r.outstanding = 0 ∧ r.sent = ps.length then s.runStage c i .writing else s
          | none => s
    | _, _ => s
  let put (s : State) : State :=
    match s.dmaCtx c, s.dmaRun c i with
    | some x, some r =>
      let d := r.desc.toNat
      if r.stage ≠ .writing ∨ r.status ≠ 0 then s
      else
        let ps := (s.sidePlan r true (ddDstBytes d)).list ++ crcPieces d
        let crc := r.crcOf
        let s := s.updRun c i (fun r => { r with crc := BitVec.ofNat 64 crc })
        let todo := ps.drop r.sent
        let s :=
          if ddOp d = 3 then
            let skip := ((ps.take r.sent).map (·.len)).sum / (if ddBf16 d then 2 else 1)
            State.addPieces c i x.tenant (ddBf16 d) todo (r.sourceBytes.drop skip) s
          else
            let data := r.sourceBytes ++ bytesOfNat (ddCrcBytes d) crc
            State.writePieces c i x.tenant todo (data.drop ((ps.take r.sent).map (·.len)).sum) s
        match s.dmaRun c i with
        | some r =>
          if r.status = 0 ∧ r.outstanding = 0 ∧ r.sent = ps.length then
            let s := if ddCrc d then s.cntMod 80 1 else s
            s.runStage c i .written
          else s
        | none => s
    | _, _ => s
  let s := put (gather s)
  match s.dmaRun c i with
  | some r => if r.status ≠ 0 ∧ r.outstanding = 0 ∧ r.stage ≠ .failed ∧ r.stage ≠ .cqWait then s.runRecord c i else s
  | none => s

/-- A host access of a run that the host answers with an error (18 R560). -/
def State.hostAnswer (s : State) (c i : Nat) (hostErr : Bool) (mode : Nat) : State :=
  match s.dmaRun c i with
  | some r =>
    let waits := r.stage = .started ∨ r.stage = .reading ∨ r.stage = .written
    if hostErr ∧ mode = 2 ∧ waits then s.runFail c i ST_DMA_HOST_ERR else s
  | none => s

/-- Run a descriptor of operation `op`. -/
def State.runOp (s : State) (op c i : Nat) (hostErr : Bool) : State :=
  match s.dmaRun c i with
  | none => s
  | some r =>
    let d := r.desc.toNat
    if r.status ≠ 0 ∧ r.stage = .started then s.runRecord c i
    else if ddOp d ≠ op then s
    else (s.hostAnswer c i (hostErr && r.stage != .written) (ddSrcMode d)).runAdvance c i

/-! ### The commands -/

def execCopy (c i t : Nat) (hostErr : Bool) (s : State) : Out := .next ((s.at t).runOp 0 c i hostErr)
def execFill (c i t : Nat) (s : State) : Out := .next ((s.at t).runOp 1 c i false)
def execRedadd (c i t : Nat) (hostErr : Bool) (s : State) : Out := .next ((s.at t).runOp 3 c i hostErr)

/-- Write the old value of an atomic to its SRC address, where it has one. -/
def State.putOld (s : State) (c i tenant : Nat) (r : DmaRun) : State :=
  let d := r.desc.toNat
  let bs := bytesOfNat (ddAsize d) r.result.toNat
  if ddSrc d = 0 then s.runRecord c i
  else
    match ddSrcMode d with
    | 0 =>
      if !s.memReady false (ddSrc d) bs.length then s
      else
        match s.accessRecord 6 r.engine tenant true (ddSrc d) bs.length with
        | (some e, s) => (s.runFail c i e).runRecord c i
        | (none, s) =>
          match s.engineWrite tenant (ddSrc d) bs with
          | (some e, s) => (s.runFail c i e).runRecord c i
          | (none, s) => s.runRecord c i
    | 1 =>
      if r.sent ≠ 0 then (if r.outstanding = 0 then s.runRecord c i else s)
      else
        let (h, b, loc) := fabParts (ddSrc d)
        match s.tryReq c i (.dmaOld c i) 2 h b tenant loc bs.length 0 bs with
        | none => s
        | some s =>
          let s := s.updRun c i (fun r => { r with sent := 1 })
          if ((s.dmaRun c i).map (·.status)).getD 0 ≠ 0 then s.runRecord c i else s
    | _ => if !s.bring.pcieUp then s else (s.hostWrite (ddSrc d) bs).runRecord c i

/-- ATOMIC: one read-modify-write at the home of its target, then its old value
is written. It is issued again while it waits. -/
def execAtomic (c i t : Nat) (s : State) : Out :=
  let s := s.at t
  match s.dmaCtx c, s.dmaRun c i with
  | some x, some r =>
    let d := r.desc.toNat
    if r.stage = .failed ∨ r.stage = .cqWait then .next s
    else if r.status ≠ 0 then .next (if r.outstanding = 0 then s.runRecord c i else s)
    else if ddOp d ≠ 2 then .next s
    else if r.stage = .trailing then .next (s.putOld c i x.tenant r)
    else if r.stage ≠ .started then .next s
    else
      let n := ddAsize d
      if ddDstMode d = 1 then
        let (h, b, loc) := fabParts (ddDst d)
        match s.tryReq c i (.dmaAtomic c i) 3 h b x.tenant loc 16 (ddAop d % 32)
            (bytesOfNat 8 (ddSrcAux d) ++ bytesOfNat 8 (ddDstAux d)) with
        | none => .next s
        | some s =>
          let s := s.runStage c i .writing
          .next (if ((s.dmaRun c i).map (·.status)).getD 0 ≠ 0 then s.runRecord c i else s)
      else if !s.memReady true (ddDst d) n || s.writesHeld (ddDst d) n then .next s
      else
        match s.accessRecord 6 r.engine x.tenant true (ddDst d) n with
        | (some e, s) => .next ((s.runFail c i e).runRecord c i)
        | (none, s) =>
          match s.rmw (ddDst d) n (fun old => atomicNew (ddAtop d) n old (ddSrcAux d) (ddDstAux d)) with
          | (none, s) => .next ((s.runFail c i ST_MEM_UE).runRecord c i)
          | (some old, s) =>
            let s := (s.updRun c i (fun r => { r with result := BitVec.ofNat 64 old })).updEngine r.engine
              (fun e => { e with bytes := e.bytes + BitVec.ofNat 64 n })
            let s := s.runStage c i .trailing
            .next (match s.dmaRun c i with | some r => s.putOld c i x.tenant r | none => s)
  | _, _ => .next s

/-- The aligned 8 bytes that hold the last written byte of a run, with the piece
they lie in. -/
def State.lastWindow (s : State) (r : DmaRun) : Option (Piece × Nat) :=
  let d := r.desc.toNat
  (((s.sidePlan r true (ddDstBytes d)).list ++ crcPieces d).getLast?).map
    (fun p => (p, (p.addr + p.len - 1) / 8 * 8))

/-- The bytes that the run wrote in that window: offset in it, and bytes. The
window of a destination in one range may reach before the CRC. -/
def State.windowBytes (s : State) (r : DmaRun) : List (Nat × Byte) :=
  let d := r.desc.toNat
  match s.lastWindow r with
  | none => []
  | some (p, w) =>
    let data := r.sourceBytes ++ bytesOfNat (ddCrcBytes d) r.crc.toNat
    let ps := (s.sidePlan r true (ddDstBytes d)).list ++ crcPieces d
    (List.range 8).filterMap (fun k =>
      (ps.find? (fun q => decide (q.place = p.place) && decide (q.addr ≤ w + k)
        && decide (w + k < q.addr + q.len))).bind
        (fun q => (data[q.off + (w + k - q.addr)]?).map (fun b => (k, b))))

/-- Judge the read-back, and write the record. -/
def State.judgeBack (s : State) (c i : Nat) (bs : List Byte) : State :=
  match s.dmaRun c i with
  | none => s
  | some r =>
    let bad := ddCmp r.desc.toNat && (s.windowBytes r).any (fun x => bs[x.1]? != some x.2)
    let s := if bad then (s.runFail c i ST_DMA_READBACK_MISMATCH).cntMod 81 1 else s
    s.runRecord c i

/-- DMA_READBACK_DONE: every write has completed; the read-back is made, or has
returned from another module, and the descriptor completes. -/
def execDmaReadbackDone (c i t : Nat) (hostErr : Bool) (s : State) : Out :=
  let s := s.at t
  match s.dmaCtx c, s.dmaRun c i with
  | some x, some r =>
    if r.stage = .backing then
      if r.outstanding ≠ 0 then .next s
      else if r.status ≠ 0 then .next (s.runRecord c i)
      else .next (s.judgeBack c i r.back)
    else if r.stage ≠ .written ∨ r.status ≠ 0 then .next s
    else
      match s.lastWindow r with
      | none => .next (s.runRecord c i)
      | some (p, w) =>
        match p.place with
        | .host =>
          if hostErr then .next ((s.runFail c i ST_DMA_HOST_ERR).runRecord c i)
          else if !s.bring.pcieUp then .next s
          else .next ((s.hostFetch w 8).2.judgeBack c i (s.hostFetch w 8).1)
        | .loc =>
          if s.region w = .register then .next (s.judgeBack c i [])
          else if !s.memReady true w 8 then .next s
          else
            match s.load w 8 with
            | (none, s) => .next ((s.runFail c i ST_MEM_UE).runRecord c i)
            | (some bs, s) => .next (s.judgeBack c i bs)
        | .fab h b =>
          match s.tryReq c i (.dmaBack c i) 1 h b x.tenant w 8 0 [] with
          | none => .next s
          | some s =>
            let s := s.runStage c i .backing
            .next (if ((s.dmaRun c i).map (·.status)).getD 0 ≠ 0 then s.runRecord c i else s)
  | _, _ => .next s

/-- CQ_RESERVE_RETRY: a record that waits for a slot tries again 1 µs later; after
100 ms it is dropped and the list fails (R385). -/
def execCqReserveRetry (c i t : Nat) (s : State) : Out :=
  let s := s.at t
  match s.dmaRun c i with
  | none => .next s
  | some r =>
    if r.stage ≠ .cqWait ∨ s.time < r.since + usTicks 1 then .next s
    else if r.since + msTicks 100 ≤ s.time then
      .next (((s.logDecision 0x604 [i]).updRun c i (fun r => { r with status := ST_DMA_CQ_TIMEOUT })).runDone c i)
    else .next (s.runRecord c i)

/-- DMA_DESC_FAIL: a descriptor that ended with an error fails its list, and the
list's other descriptors stop (R386). -/
def execDmaDescFail (c i t : Nat) (s : State) : Out :=
  let s := s.at t
  let s := match s.dmaRun c i with
    | some r =>
      if r.status ≠ 0 ∧ r.outstanding = 0 ∧ r.stage ≠ DmaStage.failed ∧ r.stage ≠ DmaStage.cqWait then s.runRecord c i else s
    | none => s
  match s.dmaCtx c, s.dmaRun c i with
  | some x, some r =>
    if r.stage ≠ DmaStage.failed then .next s
    else .next (s.endList c { x with flags := x.flags ||| r.flags } r.status)
  | _, _ => .next s

/-- No completion of the host within 50 ms: the descriptor that waits for one
ends with ST_DMA_HOST_ERR; for a read of queue `q`'s ring in host memory, the
graph engine is told so by an event and the entry stays unread (18 R560). -/
def execPcieCompletionTimeout (q : Option Nat) (c i t : Nat) (s : State) : Out :=
  let s := s.at t
  match q with
  | some k =>
    match Table.find s.graph.queues k with
    | some x =>
      .next (if x.enabled && x.ringLoc == 1 && x.head != x.tail then
        s.raise ST_DMA_HOST_ERR 10 0 (some x.tenant) k else s)
    | none => .next s
  | none =>
    match s.dmaRun c i with
    | none => .next s
    | some r =>
      let d := r.desc.toNat
      let src := (r.stage = .started ∨ r.stage = .reading) ∧ ddOp d ≠ 1 ∧ ddOp d ≠ 2 ∧ ddSrcMode d = 2
      let back := r.stage = .written ∧ ddDstMode d = 2
      if (src ∨ back) ∧ r.status = 0 ∧ r.since + msTicks 50 ≤ s.time then
        .next ((s.runFail c i ST_DMA_HOST_ERR).runRecord c i)
      else .next s

end Sys2Proof.Machine
end

