-- ==== Sys2Proof/Machine/Link.lean ====
section
/-! DEFINITION. The fabric's link layer: flits, packets in arrival order, HELLO,
training and retraining of ports (16 R493 to R500, R502, R503, R513, R514). -/

namespace Sys2Proof.Machine

/-! ### Ports (R493) -/

/-- Is a port licensed? FP0 to FP3 always are. -/
def State.portLicensed (s : State) (p : Nat) : Bool :=
  decide (p < 4) || (decide (p < 14) && s.licences.getLsbD 2) || (decide (14 ≤ p) && s.licences.getLsbD 3)

/-- A port starts link training. -/
def FabPort.train (x : FabPort) (now : Nat) : FabPort :=
  { x with state := 1, training := true, since := now, attempt := 0, helloSent := none, helloSeen := none,
           flitSeen := none, retry := [], partialSlots := [], nak := false, credits := [] }

/-- A port that is enabled and licensed trains, another reads its state. -/
def State.startPort (s : State) (p : Nat) : State :=
  let lic := s.portLicensed p
  s.updPort p (fun x =>
    if !lic then { x with state := 5 }
    else if !x.en then { x with state := 0 }
    else if x.state = 0 ∨ x.state = 4 ∨ x.state = 5 then x.train s.time
    else x)

/-- Start the fabric: step 1 of R503 on every port. -/
def State.fabStart (s : State) : State :=
  if s.fab.step ≠ 0 then s
  else
    let s := (List.range 16).foldl State.startPort s
    { s with fab := { s.fab with step := 1, stepAt := s.time } }

/-- The advertisement of this module is out of date. -/
def State.linksChanged (s : State) : State :=
  { s with fab := { s.fab with advertAt := 0, advertChanged := s.time } }

/-! ### Packets in flits (R494, R498, R499) -/

/-- What stands at the front of a port's slots. -/
inductive Front where
  /-- nothing, or a packet that has not arrived whole -/
  | wait
  | padding (rest : List (BitVec 64))
  /-- an invalid packet, with its header and what follows it -/
  | bad (h : Nat) (rest : List (BitVec 64))
  | packet (p : Packet) (rest : List (BitVec 64))

def frontOf : List (BitVec 64) → Front
  | [] => .wait
  | [w] => if w = 0 then .padding [] else .wait
  | w :: v :: rest =>
    if w = 0 then .padding (v :: rest)
    else
      let h := w.toNat + 2 ^ 64 * v.toNat
      if bits h 0 4 = 0 ∨ 0xB < bits h 0 4 then .bad h []
      else
        let n := if ptypeData (bits h 0 4) then (bits h 112 8 + 8) / 8 else 0
        if rest.length < n then .wait
        else if !headerOk h then .bad h (rest.drop n)
        else .packet (packetOf h (rest.take n)) (rest.drop n)

/-- A packet has arrived whole on a port: for this module it is kept in arrival
order, else it is sent on, or refused where it has no route (R506, R507). -/
def State.receivePacket (s : State) (port : Nat) (p : Packet) : State :=
  let keep : Bool := p.ptype == 0xB || p.vc == 3 || s.isSelf p.dstH p.dstB || (p.vc == 2 && !s.fab.assigned)
  if keep then
    let s := s.logInput 0x802 (bytesOfNat 16 p.header ++ p.data) false
    { s with fab := { s.fab with inbox := s.fab.inbox ++ [(port, p)] } }
  else if decide (port < 14) && p.dstH == s.ownHarbour && s.reachable p.dstB then s.forward port p
  else (s.freeSlots port p).noRoute p

/-- Discard an invalid packet (R499); a packet of a berth of this harbour is a
fault of it (17 R538). -/
def State.badPacket (s : State) (port h : Nat) : State :=
  let s := s.updPort port (fun x => { x with badPkt := BitVec.ofNat 32 (satAdd 32 x.badPkt.toNat 1) })
  let s := s.raise ST_FAB_BAD_PACKET 5 port none 0
  if port < 14 ∧ bits h 22 1 = s.ownHarbour then s.suspectFault (bits h 23 13) 4 ST_FAB_BAD_PACKET else s

/-- Take the packets out of a port's slots. -/
def State.takeSlots (s : State) (port : Nat) (n : Nat) : State :=
  iter (fun s =>
    match frontOf (s.port port).partialSlots with
    | .wait => s
    | .padding rest => s.updPort port (fun x => { x with partialSlots := rest })
    | .bad h rest => (s.updPort port (fun x => { x with partialSlots := rest })).badPacket port h
    | .packet p rest => (s.updPort port (fun x => { x with partialSlots := rest })).receivePacket port p) n s

/-! ### Flits (R494, R495) -/

/-- Flits acknowledged by ACK_SEQ leave the retry buffer. -/
def dropAcked (retry : List (BitVec 1024)) (ack : Nat) : List (BitVec 1024) :=
  match retry.findIdx? (fun f => bits f.toNat 0 12 == ack) with
  | some i => retry.drop (i + 1)
  | none => retry

/-- Counts of the last 1 ms, with `n` more now. -/
def seenNow (now n : Nat) (l : List (Nat × Nat)) : List (Nat × Nat) :=
  (now, n) :: l.filter (fun e => decide (now ≤ e.1 + msTicks 1))

/-- How many were counted within 1 ms. -/
def seenSum (now : Nat) (l : List (Nat × Nat)) : Nat :=
  ((l.filter (fun e => decide (now ≤ e.1 + msTicks 1))).map Prod.snd).sum

/-- What the header of an accepted flit says to the sending side. -/
def FabPort.header (x : FabPort) (h now : Nat) : FabPort :=
  let x := if bit h 24 then { x with retry := dropAcked x.retry (bits h 12 12) } else x
  let x := if bit h 25 then
    { x with replays := x.replays + BitVec.ofNat 32 x.retry.length
             replaySeen := seenNow now x.retry.length x.replaySeen } else x
  let c := bits h 26 3
  { x with credits := x.credits.set c (min ((fullCredits[c]?).getD 0) ((x.credits[c]?).getD 0 + bits h 30 10)) }

/-- FLIT_RECEIVED: a flit with a bad CRC or out of order is discarded and NAKed;
else its acknowledgement, credits and packets are taken. -/
def execFlitReceived (port : Nat) (flit : BitVec 1024) (t : Nat) (s : State) : Out :=
  let s := s.at t
  let x := s.port port
  let f := flit.toNat
  if 16 ≤ port ∨ !(x.state == 1 || x.state == 2 || x.state == 3) ∨ x.credits.isEmpty then .next s
  else if crc64 (bytesOfNat 120 f) ≠ bits f 960 64 then .next (s.updPort port (fun x => { x with nak := true }))
  else
    let s := s.updPort port (fun x => { x with flitSeen := some s.time })
    if bits f 0 12 ≠ x.rxSeq.toNat then .next (s.updPort port (fun x => { x with nak := true }))
    else
      let s := s.updPort port (fun x => { (x.header f s.time) with rxSeq := x.rxSeq + 1 })
      let s :=
        if bit f 44 then s
        else
          let slots := (List.range 14).map (fun i => BitVec.ofNat 64 (bits f (64 + 64 * i) 64))
          let first := bits f 40 4
          let new := if x.partialSlots.isEmpty then slots.drop first else slots
          (s.updPort port (fun x => { x with partialSlots := x.partialSlots ++ new })).takeSlots port 64
      .next s.pumpFabric

/-- Take the first arrived packet that a test picks; its slots become free. -/
def State.takeInbox (s : State) (p : Nat × Packet → Bool) : Option (Nat × Packet × State) :=
  match s.fab.inbox.find? p with
  | none => none
  | some (port, q) =>
    let rec drop : List (Nat × Packet) → List (Nat × Packet)
      | [] => []
      | x :: r => if p x then r else x :: drop r
    let s := { s with fab := { s.fab with inbox := drop s.fab.inbox } }
    some (port, q, s.freeSlots port q)

/-! ### HELLO (R500, R502) -/

/-- The HELLO of a port. -/
def State.helloPacket (s : State) (p : Nat) : Packet :=
  let x := s.port p
  { ptype := 0xB, vc := 2, esc := false, down := false, dstH := 0, dstB := 0, srcH := s.ownHarbour,
    srcB := s.ownBerth, tenant := 0, tag := 0, loc := 0, len := 63, aop := 0,
    data := bytesOfNat 3 0x700801 ++ bytesOfNat 1 (p + 16) ++ bytesOfNat 1 1
      ++ bytesOfNat 1 (s.ownHarbour + 2 * b2n s.fab.assigned + 4 * b2n s.fab.twinMode)
      ++ bytesOfNat 2 (if s.fab.assigned then s.ownBerth else 0) ++ bytesOfNat 8 Config.serial.toNat
      ++ bytesOfNat 1 x.lanes.toNat ++ List.replicate 47 0 }

/-- HELLO_SEND: a trained port sends HELLO when one is due: at once, then every ms
until one has been received, then every 10 ms. -/
def execHelloSend (p t : Nat) (s : State) : Out :=
  let s := s.at t
  let x := s.port p
  let due := match x.helloSent with
    | none => true
    | some h => decide (h + msTicks (if x.helloSeen.isNone then 1 else 10) ≤ s.time)
  let q := s.helloPacket p
  if 16 ≤ p ∨ !(x.state == 1 || x.state == 2) ∨ !due ∨ (x.credits[4]?).getD 0 < q.slots then .next s
  else .next (s.updPort p (fun x => { (x.putPacket q) with helloSent := some s.time }))

/-- Is a HELLO acceptable? -/
def helloOk (d : Nat) (n : Nat) : Bool :=
  n == 64 && byteField d 0 3 == 0x700801 && bits d 28 4 != 0 && bits (byteField d 5 1) 3 5 == 0
    && byteField d 0x11 47 == 0

/-- Leave the berth: the module is unassigned (R501, R502). -/
def State.unassign (s : State) : State :=
  { s with fab := { s.fab with assigned := false, ready := false, step := 0 } }

/-- Is a twin port's peer not the paired module? -/
def State.mispaired (s : State) (p : Nat) : Bool :=
  let x := s.port p
  s.fab.assigned && x.peerAssigned && (x.peerBerth != s.fab.berth || x.peerHarbour == s.fab.harbour)

/-- Twin ports that agree with the pair join it; others are held (R502). -/
def State.pairCheck (s : State) (p : Nat) : State :=
  if p < 14 then s
  else if s.mispaired p then
    let held := (s.port p).state == 1 && !(s.port p).training
    let s := s.updPort p (fun x => { x with state := 1, training := false })
    if held then s else s.raise ST_TWIN_MISPAIR 5 p none 0
  else
    let x := s.port p
    if s.fab.twinMode && s.fab.assigned && x.peerAssigned && x.state == 2 && s.fab.twin.state == 0 then
      { s with fab := { s.fab with twin := { s.fab.twin with state := 1 } } }
    else s

/-- HELLO: the peer of a port is identified. One with GEN 0 or a wrong format holds
the port; a duplicate serial or berth is settled by R502. -/
def execHello (t : Nat) (s : State) : Out :=
  let s := s.at t
  match s.takeInbox (fun x => x.2.ptype == 0xB) with
  | none => .next s
  | some (p, q, s) =>
    let d := natOfBytes q.data
    if 16 ≤ p then .next s
    else if !helloOk d q.data.length then
      .next ((s.updPort p (fun x => { x with state := 1, training := false })).raise ST_FAB_PEER_VERSION 5 p none 0)
    else
      let fl := byteField d 5 1
      let s := s.updPort p (fun x =>
        { x with helloSeen := some s.time, flitSeen := some s.time, peerValid := true
                 peerBerth := BitVec.ofNat 13 (byteField d 6 2), peerHarbour := bit fl 0
                 peerAssigned := bit fl 1, peerPort := BitVec.ofNat 4 (byteField d 3 1 % 16)
                 peerSn := if x.state = 3 then x.peerSn else BitVec.ofNat 64 (byteField d 8 8), peerVer := BitVec.ofNat 8 (min 1 (byteField d 4 1)) })
      let x := s.port p
      if x.peerSn = Config.serial then .next ((s.unassign).raise ST_FAB_SERIAL_DUP 5 p none 0)
      else
        let s := if x.state = 1 ∧ !s.mispaired p then
            (s.updPort p (fun x => { x with state := 2, training := false, downSince := none })).linksChanged
          else s
        let s :=
          if decide (p < 14) && s.fab.assigned && x.peerAssigned && x.peerHarbour == s.fab.harbour
              && x.peerBerth == s.fab.berth then
            let s := s.raise ST_FAB_BERTH_CONFLICT 5 p none 0
            if x.peerSn < Config.serial then s.unassign else s
          else s
        .next (s.pairCheck p).pumpFabric

/-! ### Training and retraining (R503, R513, R514) -/

def laneWidth (n : Nat) : Bool := n == 8 || n == 4 || n == 2

/-- Below 8 lanes: the port reports its width. -/
def State.laneEvent (s : State) (p lanes : Nat) : State :=
  if lanes < 8 then s.raise ST_FAB_LANE_DEGRADED 5 p none lanes else s

/-- PORT_TRAINED: link training and flit lock of step 1 and 2 of R503 are complete,
with this width and credit round trip. -/
def execPortTrained (p lanes rtt t : Nat) (s : State) : Out :=
  let s := s.at t
  let x := s.port p
  if 16 ≤ p ∨ x.state ≠ 1 ∨ !x.training ∨ !x.credits.isEmpty ∨ !laneWidth lanes ∨ x.since + msTicks 501 < s.time then
    .next s
  else
    let s := s.updPort p (fun x =>
      { x with lanes := BitVec.ofNat 4 lanes, rttNs := BitVec.ofNat 16 rtt, credits := fullCredits,
               owed := List.replicate 8 0, txSeq := 0, rxSeq := 0, since := s.time, ucwSeen := [], replaySeen := [] })
    .next (s.laneEvent p lanes)

/-- PORT_TRAIN_TIMEOUT: a limit of step 1, 2 or 3 of R503 has passed. -/
def execPortTrainTimeout (p t : Nat) (s : State) : Out :=
  let s := s.at t
  let x := s.port p
  let limit := if x.credits.isEmpty then msTicks 501 else msTicks 10
  if 16 ≤ p ∨ x.state ≠ 1 ∨ !x.training ∨ s.time < x.since + limit then .next s
  else
    .next ((s.updPort p (fun x => { x with state := 4, training := false, credits := [] })).raise
      ST_FAB_TRAIN_TIMEOUT 5 p none 0)

/-- Start the retraining of a port that is up, or that a failure took down: no packet
is routed to it. -/
def State.retrain (s : State) (p : Nat) : State :=
  if (s.port p).state ≠ 2 ∧ (s.port p).state ≠ 4 then s
  else
    s.updPort p (fun x => { x with state := 3, attempt := 1, since := s.time })

/-- A twin port counts as down from now, unless it does already (R519). -/
def State.countDown (s : State) (p : Nat) : State :=
  if p < 14 then s else s.updPort p (fun x => { x with downSince := some (x.downSince.getD s.time) })

/-- PORT_LOST: no valid flit for 1 ms, or no HELLO for 35 ms. A twin port counts as
down from here (R519). -/
def execPortLost (p t : Nat) (s : State) : Out :=
  let s := s.at t
  let x := s.port p
  let late (o : Option Nat) (ms : Nat) : Bool :=
    match o with
    | some h => decide (h + msTicks ms ≤ s.time)
    | none => false
  .next (if x.state = 2 ∧ (late x.flitSeen 1 ∨ late x.helloSeen 35) then (s.countDown p).retrain p else s)

/-- PORT_RETRAIN_TRIGGER: the receiver has counted `corr` corrected and `ucw`
uncorrectable codewords more; more than a threshold of these, or of replays, within
1 ms start retraining. -/
def execPortRetrainTrigger (p corr ucw t : Nat) (s : State) : Out :=
  let s := s.at t
  if 16 ≤ p then .next s
  else
    let s := s.updPort p (fun x =>
      { x with fecCorr := x.fecCorr + BitVec.ofNat 32 corr, fecUcw := x.fecUcw + BitVec.ofNat 32 ucw
               ucwSeen := seenNow s.time ucw x.ucwSeen })
    let x := s.port p
    .next (if x.state = 2 ∧ (x.ucwThresh.toNat < seenSum s.time x.ucwSeen
        ∨ x.replayThresh.toNat < seenSum s.time x.replaySeen) then s.retrain p else s)

/-- A port goes down after its third failed attempt: its kept flits are discarded,
and a harbour port's peer is a suspect (17 R538). -/
def State.portDown (s : State) (p : Nat) : State :=
  let x := s.port p
  let s := s.updPort p (fun x =>
    { x with state := 4, attempt := 0, retry := [], partialSlots := [], credits := [], training := false })
  let s := ((s.countDown p).linksChanged).raise ST_FAB_PORT_DOWN 5 p none 0
  let s := if p < 14 ∧ x.peerValid ∧ x.peerAssigned then s.suspectFault x.peerBerth.toNat 2 ST_FAB_PORT_DOWN else s
  s.pumpFabric

/-- PORT_RETRAIN_DONE: an attempt ends. `lanes` is the width that trained, 0 for a
failed attempt; `peer` the serial of the HELLO of step 4. -/
def execPortRetrainDone (p lanes rtt : Nat) (peer : BitVec 64) (t : Nat) (s : State) : Out :=
  let s := s.at t
  let x := s.port p
  if 16 ≤ p ∨ x.state ≠ 3 then .next s
  else if laneWidth lanes ∧ s.time ≤ x.since + usTicks 166101 then
    -- a port that was down keeps no flits: its link starts afresh
    let same := x.peerSn == peer && !x.credits.isEmpty
    let s := s.updPort p (fun x =>
      { x with state := 2, attempt := 0, lanes := BitVec.ofNat 4 lanes, rttNs := BitVec.ofNat 16 rtt
               credits := fullCredits, owed := List.replicate 8 0, done := x.done + 1, peerSn := peer
               replays := if same then x.replays + BitVec.ofNat 32 x.retry.length else x.replays
               retry := if same then x.retry else []
               partialSlots := if same then x.partialSlots else []
               txSeq := if same then x.txSeq else 0, rxSeq := if same then x.rxSeq else 0
               flitSeen := some s.time, helloSeen := some s.time, ucwSeen := [], replaySeen := [], downSince := none })
    let s := if same then s else s.linksChanged
    let s := s.raise ST_FAB_RETRAIN 5 p none 0
    let s := if lanes = x.lanes.toNat then s else s.linksChanged
    .next (((s.laneEvent p lanes).pairCheck p).pumpFabric)
  else
    let s := s.updPort p (fun x => { x with failed := x.failed + 1 })
    if x.attempt.toNat < 3 then
      .next (s.updPort p (fun x => { x with attempt := x.attempt + 1, since := s.time }))
    else .next (s.portDown p)

end Sys2Proof.Machine
end

