-- ==== Sys2Proof/Machine/Pilot.lean ====
section
/-! DEFINITION. The Pilot: calibration, block homes, moves, and its mailbox
commands (chapter 08; owner tables of 06 R217 to R224). -/

namespace Sys2Proof.Machine

def State.updPilot (s : State) (f : Pilot → Pilot) : State := { s with pilot := f s.pilot }

/-! ### Owner tables (06 R218 to R222) -/

/-- HOME format: LOCAL and BERTH (06 R220). -/
def homeOf (berth loc : Nat) : Nat := loc % 2 ^ 48 + 2 ^ 48 * (berth % 2 ^ 13)

def entryAddr (table i : Nat) : Nat := table + 128 + 32 * i

/-- An entry of a valid block. -/
def ownerEntry (home loc epoch : Nat) : List Byte :=
  bytesOfNat 8 home ++ bytesOfNat 1 loc ++ bytesOfNat 3 1 ++ bytesOfNat 4 epoch ++ bytesOfNat 16 0

/-- Bytes of a table, rounded up to whole atoms of either tier. -/
def tableBytes (entries : Nat) : Nat := (128 + 32 * entries + 127) / 128 * 128

/-! ### Space (R274) -/

/-- Ranges that are not free: reservations, blocks, tables, both homes of moves,
and the pools of KV geometries (15 R469, R471). -/
def State.pilTaken (s : State) : List (Nat × Nat) :=
  let pools := s.kv.geoms.flatMap (fun (g : Nat × BitVec 512) =>
    let k := g.2.toNat
    ((List.range 12).filter (fun st => bit (kvMask k) st)).map (fun st =>
      (s.stackBase st + 65536 * s.pcCount st * kvJ0 k,
       65536 * s.pcCount st * (kvLayers k * 18 * (kvSlots k / 16)))))
  s.tiers.resv.map Prod.snd
    ++ (s.pilot.blocks.filter (fun b => b.berth.isNone)).map (fun b => (b.base, b.size))
    ++ s.pilot.tensors.map (fun t => (t.table, tableBytes t.entries))
    ++ s.pilot.moves.map (fun m => (m.old, m.size))
    ++ (s.pilot.moves.filter (fun m => m.berth.isNone)).map (fun m => (m.new, m.size)) ++ pools

/-- The stack zone of a stack: base and size (10 R322). -/
def State.stackZone (s : State) (st : Nat) : Nat × Nat :=
  (s.stackBase st, s.pcCount st * (4 - s.tiers.spread) * 2 ^ 28)

/-- A unit of placement: stack 0 to 11, or 16 plus the position of a channel in
the channel list. The lowest free range of `n` bytes in it. -/
def State.unitRange (s : State) (taken : List (Nat × Nat)) (unit n : Nat) : Option Nat :=
  if unit < 16 then
    let (b, z) := s.stackZone unit
    freeRange b z n 64 taken
  else
    let k := unit - 16
    let c := s.chList.length
    let top := s.t2Top
    -- the first place at or above `a` that starts in the channel, and lies in one
    -- chunk of it where it fits in one
    let start (a : Nat) : Nat :=
      let a := (a + 127) / 128 * 128
      let ch := (a - tier2Base) / 4096
      if ch % c = k ∧ (4096 < n ∨ a % 4096 + n ≤ 4096) then a
      else tier2Base + 4096 * (ch + 1 + (k + c - (ch + 1) % c) % c)
    let cands := start tier2Base :: taken.map (fun r => start (max tier2Base (r.1 + r.2)))
    let ok (a : Nat) : Bool := decide (a + n ≤ top) &&
      taken.all (fun r => decide (r.1 + r.2 ≤ a) || decide (a + n ≤ r.1))
    if c = 0 then none else (cands.filter ok).min?

/-- Free bytes of a unit. -/
def State.unitFree (s : State) (taken : List (Nat × Nat)) (unit : Nat) : Nat :=
  let cut (lo hi : Nat) : Nat := (taken.map (fun r => min hi (r.1 + r.2) - max lo r.1)).sum
  if unit < 16 then
    let (b, z) := s.stackZone unit
    z - cut b (b + z)
  else
    let c := s.chList.length
    let all := (s.t2Top - tier2Base) / 4096
    -- bytes of the taken ranges whose chunk belongs to the channel
    let mine (r : Nat × Nat) : Nat :=
      let lo := max tier2Base r.1 - tier2Base
      let hi := min s.t2Top (r.1 + r.2) - tier2Base
      ((List.range ((hi + 4095) / 4096 - lo / 4096)).map (fun i =>
        let ch := lo / 4096 + i
        if ch % c = unit - 16 then min hi (4096 * (ch + 1)) - max lo (4096 * ch) else 0)).sum
    if c = 0 then 0 else (all / c) * 4096 - (taken.map mine).sum

/-- HOME_LOC of a local range. -/
def State.homeLoc (s : State) (a n : Nat) : Nat :=
  if a < tier2Base then
    match (List.range 12).find? (fun st =>
      let (b, z) := s.stackZone st
      decide (b ≤ a) && decide (a + n ≤ b + z)) with
    | some st => 4 * st
    | none => 4 * 15
  else
    let c := (a - tier2Base) / 4096
    if (a + n - 1 - tier2Base) / 4096 = c then 1 + 4 * ((s.chList[c % s.chList.length]?).getD 15)
    else 1 + 4 * 15

/-- Units in round-robin order: from the one with the most free space, in
increasing number with wrap. -/
def State.roundRobin (s : State) (taken : List (Nat × Nat)) (units : List Nat) : List Nat :=
  match leastBy (fun u => [2 ^ 48 - s.unitFree taken u, u]) units with
  | none => []
  | some u0 => units.filter (fun u => decide (u0 ≤ u)) ++ units.filter (fun u => decide (u < u0))

/-- Place blocks of `n` bytes over units in turn; a unit without room is passed
over. Gives the homes by entry and the entries that found none. -/
def State.placeBlocks (s : State) (n : Nat) : List Nat → List Nat → List (Nat × Nat) →
    List (Nat × Nat) × List Nat × List (Nat × Nat)
  | [], _, taken => ([], [], taken)
  | e :: es, units, taken =>
    let hit := (List.range units.length).findSome? (fun i =>
      match units[i]? with
      | some u => (s.unitRange taken u n).map (fun a => (i, a))
      | none => none)
    match hit with
    | some (i, a) =>
      let (h, r, t) := State.placeBlocks s n es (units.drop (i + 1) ++ units.take (i + 1)) ((a, n) :: taken)
      ((e, a) :: h, r, t)
    | none =>
      let (h, r, t) := State.placeBlocks s n es units taken
      (h, e :: r, t)

/-! ### PIL_PLACE (R274, R275, R277) -/

/-- Arguments of PIL_PLACE. -/
def plTensor (m : Nat) : Nat := msgArg m 0
def plTenant (m : Nat) : Nat := msgArg m 1
def plClass (m : Nat) : Nat := msgArg m 2
def plArray (m : Nat) : Nat := msgArg m 3
def plType (m : Nat) : Nat := msgArg m 4
def plRank (m : Nat) : Nat := msgArg m 5
def plStacks (m : Nat) : Nat := msgArg m 6
def plChans (m : Nat) : Nat := msgArg m 7
def plBerths (m : Nat) : Nat := msgArg m 8
def plExt (m d : Nat) : Nat := msgArg m (9 + d)
def plBlk (m d : Nat) : Nat := msgArg m (15 + d)

/-- Bits of an element of the array. -/
def plBits (m : Nat) : Nat :=
  if plArray m = 0 then typeBits (plType m % 16) else if plArray m = 1 then 8 else 16

/-- Blocks of the grid, and bytes of a block (06 R219). -/
def plEntries (m : Nat) : Nat :=
  ((List.range (plRank m)).map (fun d => (plExt m d + plBlk m d - 1) / plBlk m d)).foldl (· * ·) 1
def plBlockBytes (m : Nat) : Nat :=
  (((List.range (plRank m)).map (plBlk m)).foldl (· * ·) 1 * plBits m + 7) / 8

/-- The command's own checks. -/
def State.plOk (s : State) (m : Nat) : Bool :=
  let r := plRank m
  decide (plTenant m < 1024) && decide (plClass m ≤ 4) && decide (plArray m ≤ 2)
    && typeDefined (plType m % 16) && decide (plType m < 64) && decide (1 ≤ r) && decide (r ≤ 6)
    && (List.range 6).all (fun d =>
        if d < r then decide (1 ≤ plBlk m d) && decide (plBlk m d ≤ plExt m d)
        else plBlk m d == 0 && plExt m d == 0)
    && decide (plEntries m ≤ 1048576)
    && (plBits m % 8 == 0 || plBlk m (r - 1) * plBits m % 8 == 0)
    && decide (plStacks m < 4096)
    && (plClass m == 4 || ((List.range 12).any (fun st => bit (plStacks m) st && decide (0 < s.pcCount st))))
    && (plClass m != 4 || s.chList.any (fun c => bit (plChans m) c))

/-- Units a class may use: tier 1 first, tier 2 after it (R274). -/
def State.plUnits (s : State) (m : Nat) : List Nat × List Nat :=
  let st := (List.range 12).filter (fun k => bit (plStacks m) k && decide (0 < s.pcCount k))
  let ch := (List.range s.chList.length).filter (fun k => bit (plChans m) ((s.chList[k]?).getD 16))
  let ch := ch.map (· + 16)
  match plClass m with
  | 1 => (st, ch)
  | 4 => (ch, [])
  | _ => (st, [])

/-- Precedence of a block of a class (R277). -/
def clsPrec (c : Nat) : Nat := if c = 0 then 2 else if c = 1 then 5 else if c = 3 then 4 else 3

/-- Blocks that a placement of class `c` in these stacks may demote, first
demoted first. -/
def State.demotable (s : State) (c : Nat) (units : List Nat) : List PilBlock :=
  let bs := s.pilot.blocks.filter (fun b => b.berth.isNone && !b.tier2 && !b.pinned && b.cls != 4
    && decide (clsPrec c < clsPrec b.cls) && units.contains b.unit
    && !s.pilot.moves.any (fun m => m.table == b.table && m.entry == b.entry)
    && !s.pilot.queue.any (fun q => q.table == b.table && q.entry == b.entry))
  let before (a b : PilBlock) : Bool :=
    decide (clsPrec b.cls < clsPrec a.cls) || (clsPrec a.cls == clsPrec b.cls
      && (decide (a.lastUse < b.lastUse) || (a.lastUse == b.lastUse && decide (b.base ≤ a.base))))
  bs.mergeSort before

/-- Can a block of `n` bytes find room in tier 2? -/
def State.roomInT2 (s : State) (n : Nat) : Bool :=
  (List.range s.chList.length).any (fun k => (s.unitRange s.pilTaken (16 + k) n).isSome)

/-- Ask for the demotions that free `need` bytes, at most 64 at once; none is
asked for when tier 2 has no room for it. -/
def State.askDemotions (s : State) (c need : Nat) (units : List Nat) : State :=
  let busy := (s.pilot.moves.filter (fun m => m.demote)).length + (s.pilot.queue.filter (fun q => q.demote)).length
  let pick := (s.demotable c units).foldl (fun (p : List PilBlock × Nat) b =>
    if p.2 < need ∧ busy + p.1.length < 64 ∧ s.roomInT2 b.size then (p.1 ++ [b], p.2 + b.size) else p) ([], 0)
  s.updPilot (fun p => { p with queue := p.queue ++ pick.1.map (fun b =>
    { table := b.table, entry := b.entry, home := none, pin := false, demote := true, issuer := none }) })

/-- Finish a placement: the table is written, the blocks and the tensor are kept,
and each home is recorded. -/
def State.finishPlace (s : State) (m : Nat) (homes : Table (Option Nat × Nat)) : Reply × State :=
  let n := plEntries m
  let size := plBlockBytes m
  let here := (homes.filter (fun h => h.2.1.isNone)).map (fun h => (h.2.2, size))
  match freeRange 0 s.t1Top (tableBytes n) 128 (s.pilTaken ++ here) with
  | none => (done ST_PIL_NO_SPACE, s.cntMod 59 1)
  | some tb =>
    let tier2 := decide (plClass m = 4)
    let locOf (h : Option Nat × Nat) : Nat :=
      match h.1 with
      | none => s.homeLoc h.2 size
      | some _ => (if tier2 then 1 else 0) + 4 * 15
    let hdr := bytesOfNat 3 0x301001 ++ bytesOfNat 1 2 ++ bytesOfNat 4 (plTensor m) ++ bytesOfNat 4 1
      ++ bytesOfNat 4 n ++ bytesOfNat 1 (plType m + 64 * plArray m) ++ bytesOfNat 1 (plRank m) ++ bytesOfNat 6 0
      ++ (List.range 6).flatMap (fun d => bytesOfNat 4 (plExt m d))
      ++ (List.range 6).flatMap (fun d => bytesOfNat 4 (plBlk m d)) ++ bytesOfNat 56 0
    let home (h : Option Nat × Nat) : Nat := homeOf (h.1.getD s.ownBerth) h.2
    let ents := homes.flatMap (fun h => ownerEntry (home h.2) (locOf h.2) 1)
    let pad := List.replicate (tableBytes n - 128 - 32 * n) (0 : Byte)
    let blocks := homes.map (fun h =>
      { table := tb, entry := h.1, berth := h.2.1, base := h.2.2, size := size,
        tier2 := locOf h.2 % 4 == 1, unit := locOf h.2 / 4, cls := plClass m, pinned := false,
        lastUse := s.time, reads := 0 : PilBlock })
    let s := s.writeMem tb (hdr ++ ents ++ pad)
    let x : PilTensor :=
      { id := BitVec.ofNat 32 (plTensor m), tenant := plTenant m, cls := plClass m, array := plArray m,
        table := tb, entries := n, freeing := none }
    let s := s.updPilot (fun p => { p with blocks := p.blocks ++ blocks, tensors := p.tensors ++ [x] })
    let s := homes.foldl (fun s h => s.pilRecord 3 (plTenant m) 0 0 tb h.1 (home h.2)) s
    (reply [tb], s.cntMod 58 (homes.filter (fun h => h.2.1.isSome)).length)

/-- Berths named by the command, read from BERTHS_ADDR as T0. -/
def State.plBerthList (s : State) (m : Nat) : Option (List Nat) × State :=
  if plBerths m = 0 then (some [], s)
  else
    match s.accessRecord 9 0 0 false (msgArg m 21) (2 * plBerths m) with
    | (some _, s) => (none, s)
    | (none, s) =>
      match s.load (msgArg m 21) (2 * plBerths m) with
      | (some bs, s) => (some ((List.range (plBerths m)).map (fun i => byteField (natOfBytes bs) (2 * i) 2 % 8192)), s)
      | (none, s) => (none, s)

/-- Ask the next berth for the block in hand. The form of the request is the
Pilots' own and is not given: its bytes are free values. -/
def State.askPeer (s : State) : State :=
  match s.pilot.peerPlace with
  | some p =>
    match p.berths with
    | b :: _ =>
      let (bs, s) := s.freshBytes 32
      (s.updPilot (fun x => { x with peerPlace := some { p with askedAt := s.time } })).sendPacket
        { ptype := 8, vc := 2, esc := false, down := false, dstH := s.ownHarbour, dstB := b,
          srcH := s.ownHarbour, srcB := s.ownBerth, tenant := 0, tag := 0, loc := 0, len := 31, aop := 0,
          data := bs }
    | [] => s
  | none => s

/-- The berth asked refuses or is skipped: the next one is asked, and a block that
every berth has refused fails the placement. -/
def State.skipPeer (s : State) : State :=
  s.updPilot (fun x => { x with peerPlace := x.peerPlace.map (fun p =>
    { p with berths := p.berths.drop 1 ++ p.berths.take 1, refused := p.refused + 1 }) })

/-- One step of a placement that waits for peers, with the answer received. -/
def State.peerStep (s : State) (m : Nat) (answer : Option (Option Nat)) : Reply × State :=
  match s.pilot.peerPlace with
  | none => (none, s)
  | some p =>
    match answer with
    | none =>
      if p.berths.length ≤ p.refused then
        (done ST_PIL_NO_SPACE, (s.updPilot (fun x => { x with peerPlace := none })).cntMod 59 1)
      else (none, s)
    | some none =>
      let s := s.skipPeer
      if p.berths.length ≤ p.refused + 1 then
        (done ST_PIL_NO_SPACE, (s.updPilot (fun x => { x with peerPlace := none })).cntMod 59 1)
      else (none, s.askPeer)
    | some (some a) =>
      match p.entries, p.berths with
      | e :: es, b :: bs =>
        let homes := Table.put p.homes e (some b, a)
        if es.isEmpty then
          State.finishPlace (s.updPilot (fun x => { x with peerPlace := none })) m homes
        else
          let q : PeerPlace := { p with homes := homes, entries := es, berths := bs ++ [b], refused := 0 }
          (none, (s.updPilot (fun x => { x with peerPlace := some q })).askPeer)
      | _, _ => (none, s)

/-- A placement: blocks by R274; where tier-1 space is short, demotions are asked
for first and the command waits for them (R277); what then does not fit goes to
the named berths (R275). -/
def State.placeStep (s : State) (iss : Issuer) (m : Nat) : Reply × State :=
  let taken := s.pilTaken
  let (u1, u2) := s.plUnits m
  let n := plBlockBytes m
  let es := List.range (plEntries m)
  let (h1, r1, taken) := s.placeBlocks n es (s.roundRobin taken u1) taken
  let (h2, r2, _) := s.placeBlocks n r1 (s.roundRobin taken u2) taken
  let homes : Table (Option Nat × Nat) := (h1 ++ h2).foldl (fun t h => Table.put t h.1 (none, h.2)) []
  if r2.isEmpty then s.finishPlace m homes
  else
    let s' := s.askDemotions (plClass m) (r2.length * n) u1
    if plClass m ≠ 4 ∧ s'.pilot.queue.length + s'.pilot.moves.length ≠ 0 ∧
        (s'.pilot.queue.any (fun q => q.demote) ∨ s'.pilot.moves.any (fun q => q.demote)) then (none, s')
    else
      match s.plBerthList m with
      | (none, s) => (done ST_MBX_ARG, s)
      | (some [], s) => (done ST_PIL_NO_SPACE, s.cntMod 59 1)
      | (some bs, s) =>
        let q : PeerPlace :=
          { issuer := iss, homes := homes, entries := r2, berths := bs, refused := 0, askedAt := s.time }
        (none, (s.updPilot (fun x => { x with peerPlace := some q })).askPeer)

/-- PIL_PLACE. `answer` is the answer of the peer asked, if one has come: refused,
or the range it grants. -/
def execPilPlace (iss : Issuer) (t : Nat) (answer : Option (Option Nat)) (s : State) : Out :=
  State.serve iss 0x0400 t (fun _ m s =>
    if !s.plOk m then (done ST_MBX_ARG, s.cntMod 59 1)
    else
      match s.pilot.peerPlace with
      | some p => if p.issuer = iss then s.peerStep m answer else (none, s)
      | none => s.placeStep iss m) s

/-- PEER_PLACE_TIMEOUT: the peer asked has not answered for 5 ms and is skipped
(R275). -/
def execPeerPlaceTimeout (t : Nat) (s : State) : Out :=
  let s := s.at t
  match s.pilot.peerPlace with
  | some p =>
    if s.time < p.askedAt + msTicks 5 then .next s
    else
      let s := s.skipPeer
      .next (if p.berths.length ≤ p.refused + 1 then s else s.askPeer)
  | none => .next s

/-! ### Moves (R280 to R282) -/

def State.moveOf (s : State) (table i : Nat) : Option PilMove :=
  s.pilot.moves.find? (fun m => m.table == table && m.entry == i)
def State.updMove (s : State) (table i : Nat) (f : PilMove → PilMove) : State :=
  s.updPilot (fun p => { p with moves := p.moves.map (fun m =>
    if m.table = table ∧ m.entry = i then f m else m) })
def State.dropMove (s : State) (table i : Nat) : State :=
  s.updPilot (fun p => { p with moves := p.moves.filter (fun m => !(m.table == table && m.entry == i)) })
def State.blockOf (s : State) (table i : Nat) : Option PilBlock :=
  s.pilot.blocks.find? (fun b => b.table == table && b.entry == i)
def State.updBlock (s : State) (table i : Nat) (f : PilBlock → PilBlock) : State :=
  s.updPilot (fun p => { p with blocks := p.blocks.map (fun b =>
    if b.table = table ∧ b.entry = i then f b else b) })
def State.tensorAt (s : State) (table : Nat) : Option PilTensor :=
  s.pilot.tensors.find? (fun t => t.table == table)

/-- Note the end of a move that a command waits for. -/
def State.moveEnded (s : State) (table i : Nat) (issuer : Option Issuer) (st : Status) : State :=
  if issuer.isSome then s.updPilot (fun p => { p with ended := p.ended ++ [(table, i, st)] }) else s

/-- The new home of a move: the named one if it is free, else the Pilot's choice:
another unit of the same tier with the most free space, or tier 2 for a
demotion. -/
def State.newHome (s : State) (q : PilReq) (b : PilBlock) : Option (Option Nat × Nat × Nat) :=
  let taken := s.pilTaken
  match q.home with
  | some (berth, a, loc) =>
    if berth ≠ s.ownBerth then some (some berth, a, loc)
    else
      let inside := match s.region a with
        | .tier1 => decide (a + b.size ≤ s.t1Top)
        | .tier2 => decide (a + b.size ≤ s.t2Top) && b.cls != 0
        | _ => false
      let free := taken.all (fun r => decide (r.1 + r.2 ≤ a) || decide (a + b.size ≤ r.1))
      if inside && free then some (none, a, loc) else none
  | none =>
    let chans := (List.range s.chList.length).map (· + 16)
    let own := if b.tier2 then 99 else b.unit
    let stks := (List.range 12).filter (fun k => decide (0 < s.pcCount k) && k != own)
    let units := if q.demote || b.tier2 then chans else stks
    (s.roundRobin taken units).findSome? (fun u =>
      (s.unitRange taken u b.size).map (fun a => (none, a, s.homeLoc a b.size)))

/-- MOVE_START: step 1 of R280 for the oldest request of the block. -/
def execMoveStart (table i t : Nat) (s : State) : Out :=
  let s := s.at t
  match s.pilot.queue.find? (fun q => q.table == table && q.entry == i) with
  | none => .next s
  | some q =>
    if 4096 ≤ s.pilot.moves.length then .next s
    else
      let s := s.updPilot (fun p => { p with queue := dropFirst (fun x => x == q) p.queue })
      match s.blockOf table i with
      | none => .next (s.moveEnded table i q.issuer ST_PIL_BUSY)
      | some b =>
        let (st, s) := s.loadNum (entryAddr table i + 9) 1
        if b.pinned ∨ (s.moveOf table i).isSome ∨ b.berth.isSome ∨ st.getD 0 % 4 ≠ 1 then
          .next (s.moveEnded table i q.issuer ST_PIL_BUSY)
        else
          match s.newHome q b with
          | none => .next (s.moveEnded table i q.issuer ST_PIL_NO_SPACE)
          | some (berth, a, loc) =>
            let s := s.writeMem (entryAddr table i + 0x10)
              (bytesOfNat 8 (homeOf (berth.getD s.ownBerth) a) ++ bytesOfNat 1 loc)
            let s := s.writeMem (entryAddr table i + 9) (bytesOfNat 1 2)
            .next (s.updPilot (fun p => { p with moves := p.moves ++
              [{ table := table, entry := i, old := b.base, new := a, berth := berth, newLoc := loc,
                 size := b.size, step := .copy 1, since := s.time,
                 todo := List.range ((b.size + 4095) / 4096), dirty := [], held := [], send := [],
                 outstanding := 0, failed := false, earlier := [], pin := q.pin, demote := q.demote,
                 issuer := q.issuer, twinSeq := none }] }))

/-- Send what waits to be written at a peer's new home. -/
def State.movePump (s : State) (m : PilMove) : State :=
  let ps := m.send.flatMap (fun w =>
    (pieces256 w.1 w.2.length).map (fun p => (w.1 + p.1, (w.2.drop p.1).take p.2)))
  let now := ps.take s.trackerFree
  let s := s.updMove m.table m.entry (fun x =>
    { x with send := ps.drop now.length, outstanding := x.outstanding + now.length })
  now.foldl (fun s p =>
    s.sendReq (.pilot m.table m.entry) 2 s.ownHarbour (m.berth.getD 0) 0 p.1 p.2.length 0 p.2) s

/-- Copy chunks of a block from its old home to its new one; false where a read
meets an uncorrectable error. -/
def State.copyChunks (s : State) (m : PilMove) (cs : List Nat) : Bool × State :=
  cs.foldl (fun (r : Bool × State) c =>
    let a := m.old + 4096 * c
    let n := min 4096 (m.size - 4096 * c)
    let s := r.2.retireAll (fun e => e.overlaps a n)
    match Mem.readBytes s.mem a n with
    | none => (false, s)
    | some bs =>
      match m.berth with
      | none => (r.1, s.writePlain (m.new + 4096 * c) bs)
      | some _ => (r.1, s.updMove m.table m.entry (fun x => { x with send := x.send ++ [(m.new + 4096 * c, bs)] })))
    (true, s)

/-- Release the writes held in step 4 to the old home; after a commit they take
effect at the new home too. -/
def State.releaseHeld (s : State) (m : PilMove) : State :=
  m.held.foldl (fun s w => s.writeMem w.1 w.2) s

/-- Abandon a move before its commit: the entry is valid again at the old home,
unless the scrubber has marked it lost, and the new home is free. -/
def State.abandonMove (s : State) (m : PilMove) : State :=
  let e := entryAddr m.table m.entry
  let (st, s) := s.loadNum (e + 9) 1
  let s := if st.getD 0 % 4 = 3 then s else s.writeMem (e + 9) (bytesOfNat 1 1)
  let s := s.writeMem (e + 0x10) (bytesOfNat 9 0)
  let s := (s.dropMove m.table m.entry).releaseHeld m
  let s := s.updPilot (fun p => { p with abandoned := p.abandoned + 1 })
  let s := s.pilRecord 6 (((s.tensorAt m.table).map (·.tenant)).getD 0) 0 0 m.table m.entry
    (homeOf (m.berth.getD s.ownBerth) m.new)
  let s := (s.cntMod 56 1).raise ST_PIL_MOVE_FAILED 9 0 ((s.tensorAt m.table).map (·.tenant)) m.table
  s.moveEnded m.table m.entry m.issuer ST_PIL_MOVE_FAILED

/-- Commit a move by 06 R222: the entry first, then the header's epoch. -/
def State.commitMove (s : State) (m : PilMove) : State :=
  let e := entryAddr m.table m.entry
  let (ep, s) := s.loadNum (m.table + 8) 4
  let ep := if ep.getD 0 = 0xFFFFFFFF then 1 else ep.getD 0 + 1
  let home := homeOf (m.berth.getD s.ownBerth) m.new
  let s := s.writeMem e (ownerEntry home m.newLoc ep)
  let s := s.writeMem (m.table + 8) (bytesOfNat 4 ep)
  let s := s.updMove m.table m.entry (fun x =>
    { x with step := .forward, since := s.time, held := [], earlier := s.graph.graphs.map Prod.fst })
  let s := s.updBlock m.table m.entry (fun b =>
    { b with base := m.new, berth := m.berth, tier2 := m.newLoc % 4 == 1, unit := m.newLoc / 4,
             pinned := b.pinned || m.pin })
  let s := s.releaseHeld m
  let s := s.updPilot (fun p => { p with committed := p.committed + 1 })
  let s := s.pilRecord 5 (((s.tensorAt m.table).map (·.tenant)).getD 0) (b2n m.pin) 0 m.table m.entry home
  let s := (s.cntMod 55 1).cntMod 57 (b2n m.demote)
  s.moveEnded m.table m.entry m.issuer 0

/-- A move in a mirrored table commits at the paired module first: the first call
sends it the entry and the epoch, and the move waits until the message is
acknowledged (R282, 16 R517). The layout of the payload is the model's: table, index,
epoch, entry. Gives whether the move waits. -/
def State.twinCommit (s : State) (m : PilMove) : Bool × State :=
  let flags := ((s.readNum (m.table + 3) 1).getD 0)
  if !bit flags 0 || !s.twinOn then (false, s)
  else
    match m.twinSeq with
    | some n => (decide (s.fab.twin.ack < n), s)
    | none =>
      let ep := (s.readNum (m.table + 8) 4).getD 0
      let ep := if ep = 0xFFFFFFFF then 1 else ep + 1
      let s := s.twinSend 3 (bytesOfNat 8 m.table ++ bytesOfNat 4 m.entry ++ bytesOfNat 4 ep
        ++ ownerEntry (homeOf (m.berth.getD s.ownBerth) m.new) m.newLoc ep)
      let n := s.fab.twin.tx
      (true, s.updMove m.table m.entry (fun x => { x with twinSeq := some n }))

/-- Has the entry of a block been marked lost? -/
def State.entryLost (s : State) (table i : Nat) : Bool :=
  match s.readNum (entryAddr table i + 9) 1 with
  | some v => v % 4 == 3
  | none => true

/-- MOVE_COPY_DONE: a copy pass ends. Another pass copies what was written since,
at most three times; then writes are held, the last chunks copied, and the move
commits (R280). A move to a peer waits for its writes to be answered. -/
def execMoveCopyDone (table i t : Nat) (s : State) : Out :=
  let s := s.at t
  match s.moveOf table i with
  | none => .next s
  | some m =>
    if m.failed ∨ s.entryLost table i then
      match m.step with
      | .forward => .next s
      | _ => .next (s.abandonMove m)
    else
      match m.step with
      | .forward => .next (s.movePump m)
      | .copy k =>
        match s.copyChunks m m.todo with
        | (false, s) => .next (s.abandonMove m)
        | (true, s) =>
          let s := s.updMove table i (fun x => { x with todo := [] })
          let s := ((s.moveOf table i).map (fun m => s.movePump m)).getD s
          let out : Nat := ((s.moveOf table i).map (fun m => m.outstanding + m.send.length)).getD 0
          if 0 < out then .next s
          else if m.dirty.isEmpty || decide (4 ≤ k) then
            .next (s.updMove table i (fun x =>
              { x with step := .hold, since := s.time, todo := x.dirty, dirty := [] }))
          else
            .next (s.updMove table i (fun x =>
              { x with step := .copy (k + 1), since := s.time, todo := x.dirty, dirty := [] }))
      | .hold =>
        match s.copyChunks m m.todo with
        | (false, s) => .next (s.abandonMove m)
        | (true, s) =>
          let s := s.updMove table i (fun x => { x with todo := [] })
          let s := ((s.moveOf table i).map (fun m => s.movePump m)).getD s
          match s.moveOf table i with
          | some m =>
            if m.outstanding + m.send.length ≠ 0 then .next s
            else
              let (wait, s) := s.twinCommit m
              if wait then .next s else .next (s.commitMove m)
          | none => .next s

/-- MOVE_ABANDON: a step of a move has passed its limit (R280). -/
def execMoveAbandon (table i t : Nat) (s : State) : Out :=
  let s := s.at t
  match s.moveOf table i with
  | none => .next s
  | some m =>
    let limit := match m.step with
      | .copy _ => m.size / 1000 + msTicks 1
      | .hold => usTicks 100
      | .forward => 0
    match m.step with
    | .forward => .next s
    | _ => if m.since + limit < s.time then .next (s.abandonMove m) else .next s

/-- MOVE_FREE_OLD: every operation that resolved under an earlier epoch has
completed; the monitor is disarmed and the old home is free. -/
def execMoveFreeOld (table i t : Nat) (s : State) : Out :=
  let s := s.at t
  match s.moveOf table i with
  | none => .next s
  | some m =>
    let s := s.movePump m
    let due := ((s.moveOf table i).map (fun m => m.outstanding + m.send.length)).getD 0 == 0
    if m.step == .forward && due && m.earlier.all (fun g => (s.graphOf g).isNone) then
      .next (s.dropMove table i)
    else .next s

/-- REBALANCE: a stack whose near-bank units were busy for more than 1.25 of the
module's mean over 100 ms (`busy`, per stack, in parts of the time) gives its
most-read unpinned block to the least busy stack. -/
def execRebalance (busy : List Nat) (t : Nat) (s : State) : Out :=
  let s := s.at t
  if s.pilot.frozen ∨ ¬ s.coreRuns 66 then .next s
  else
    let total := busy.sum
    let overs := (List.range busy.length).find? (fun k =>
      decide (5 * total < 4 * busy.length * (busy[k]?).getD 0))
    let cool := leastBy (fun k => [(busy[k]?).getD 0, k])
      ((List.range busy.length).filter (fun k => decide (0 < s.pcCount k)))
    let clear (s : State) : State :=
      s.updPilot (fun p => { p with blocks := p.blocks.map (fun b => { b with reads := 0 }) })
    match overs, cool with
    | some k, some c =>
      let bs := s.pilot.blocks.filter (fun b => b.berth.isNone && !b.tier2 && b.unit == k && !b.pinned
        && (s.moveOf b.table b.entry).isNone)
      match bs.foldl (fun (x : Option PilBlock) b =>
          match x with
          | none => some b
          | some y => if y.reads < b.reads then some b else some y) none with
      | some b =>
        match s.unitRange s.pilTaken c b.size with
        | some a =>
          .next (clear (s.updPilot (fun p => { p with queue := p.queue ++
            [{ table := b.table, entry := b.entry, home := some (s.ownBerth, a, 4 * c), pin := false,
               demote := false, issuer := none }] })))
        | none => .next (clear s)
      | none => .next (clear s)
    | _, _ => .next (clear s)

/-! ### Calibration (R270, R271) -/

/-- A quotient rounded to nearest, ties to even. -/
def divRne (n d : Nat) : Nat :=
  let q := n / d
  let r := n % d
  if d < 2 * r ∨ (2 * r = d ∧ q % 2 = 1) then q + 1 else q

/-- THRESH + (M − THRESH) / 8 with M = 256 R_S / R_T, rounded by RNE and clamped.
A rate of tile nodes that read nothing has no stated quotient: a free value. -/
def State.calibrated (s : State) (thr : Nat) (c : CalCounts) : Nat × State :=
  let n := 256 * c.macs * c.timeT
  let d := c.timeS * c.weights
  if d = 0 then
    let (v, s) := s.freshLong
    (threshClamp (v.toNat % 65536), s)
  else (threshClamp (divRne (7 * thr * d + n) (8 * d)), s)

/-- Set a threshold and append its record (R283). -/
def State.setThresh (s : State) (c new flags : Nat) : State :=
  let old := s.pilThresh c
  (s.updPilot (fun p => { p with thresh := Table.put p.thresh c (BitVec.ofNat 16 new) })).pilRecord 7 0 flags 0 0 c
    (new + 2 ^ 16 * old)

/-- CAL_WINDOW_END: at the end of a calibration window every class with at least
16 nodes of each form is updated. -/
def execCalWindowEnd (counts : List CalCounts) (t : Nat) (s : State) : Out :=
  let s := s.at t
  let p := s.pilot
  if p.frozen ∨ s.time < p.calAt + msTicks (max 1 p.winMs.toNat) then .next s
  else
    let s := s.updPilot (fun p => { p with calAt := s.time })
    .next ((counts.take 3).zipIdx.foldl (fun s x =>
      let c := x.2
      if 16 ≤ x.1.nS ∧ 16 ≤ x.1.nT ∧ ¬ p.fix.getLsbD c then
        let (v, s) := s.calibrated (s.pilThresh c) x.1
        let s := s.setThresh c v 0
        s.updPilot (fun p => { p with windows := Table.upd p.windows c 0 (fun w =>
          BitVec.ofNat 16 (satAdd 16 w.toNat 1)) })
      else s) s)

/-! ### Mailbox commands (R286) -/

/-- PIL_FREE: every block of a table is freed once the operations that may
resolve through it have completed. -/
def execPilFree (iss : Issuer) (t : Nat) (s : State) : Out :=
  State.serve iss 0x0401 t (fun _ m s =>
    let tb := msgArg m 0
    match s.tensorAt tb with
    | none => (done ST_MBX_ARG, s)
    | some x =>
      match x.freeing with
      | none =>
        let s := (s.pilot.moves.filter (fun m => m.table == tb && m.step != .forward)).foldl
          (fun s m => s.abandonMove m) s
        (none, s.updPilot (fun p =>
          { p with queue := p.queue.filter (fun q => q.table != tb)
                   tensors := p.tensors.map (fun y =>
                     if y.table = tb then { y with freeing := some (s.graph.graphs.map Prod.fst) } else y) }))
      | some gs =>
        if gs.any (fun g => (s.graphOf g).isSome) then (none, s)
        else
          (done 0, s.updPilot (fun p =>
            { p with tensors := p.tensors.filter (fun y => y.table != tb)
                     blocks := p.blocks.filter (fun b => b.table != tb)
                     moves := p.moves.filter (fun m => m.table != tb) }))) s

/-- The result of a command that waits for moves of blocks `es` of a table: none
while one is under way, else the first failure, and the ends are taken. -/
def State.movesResult (s : State) (tb : Nat) (es : List Nat) : Reply × State :=
  let mine (x i : Nat) : Bool := x == tb && es.contains i
  if s.pilot.queue.any (fun q => mine q.table q.entry && q.issuer.isSome)
      || s.pilot.moves.any (fun m => mine m.table m.entry && m.step != .forward && m.issuer.isSome) then (none, s)
  else
    let ends := (s.pilot.ended.filter (fun e => mine e.1 e.2.1)).map (fun e => e.2.2)
    (done ((ends.find? (· != 0)).getD 0),
     s.updPilot (fun p => { p with ended := p.ended.filter (fun e => !mine e.1 e.2.1) }))

/-- PIL_PIN: blocks are pinned where they are, or moved to the named home first; a
move not yet committed is abandoned and its block pinned at its old home
(R279). -/
def execPilPin (iss : Issuer) (t : Nat) (s : State) : Out :=
  State.serve iss 0x0402 t (fun started m s =>
    let tb := msgArg m 0
    let first := msgArg m 1
    let es := (List.range (msgArg m 2)).map (first + ·)
    let home := msgArg m 3
    if started then s.movesResult tb es
    else
      match s.tensorAt tb with
      | none => (done ST_MBX_ARG, s)
      | some x =>
        if x.entries < first + msgArg m 2 ∨ bits home 61 3 ≠ 0 then (done ST_MBX_ARG, s)
        else
          let s := es.foldl (fun s i =>
            match s.moveOf tb i, s.blockOf tb i with
            | some mv, some _ =>
              let s := if mv.step == .forward then s else s.abandonMove mv
              s.updBlock tb i (fun b => { b with pinned := true })
            | none, some b =>
              if home = 0 then s.updBlock tb i (fun b => { b with pinned := true })
              else s.updPilot (fun p => { p with queue := p.queue ++
                [{ table := tb, entry := i, home := some (bits home 48 13,
                     bits home 0 48 + (i - first) * b.size, msgArg m 4), pin := true, demote := false,
                   issuer := some iss }] })
            | _, none => s) s
          if home = 0 then (done 0, s) else s.movesResult tb es) s

/-- PIL_UNPIN: blocks return to their class's precedence. -/
def execPilUnpin (iss : Issuer) (t : Nat) (s : State) : Out :=
  State.serveNow iss 0x0403 t (fun m s =>
    let tb := msgArg m 0
    match s.tensorAt tb with
    | none => (done ST_MBX_ARG, s)
    | some x =>
      if x.entries < msgArg m 1 + msgArg m 2 then (done ST_MBX_ARG, s)
      else (done 0, ((List.range (msgArg m 2)).map (msgArg m 1 + ·)).foldl (fun s i =>
        s.updBlock tb i (fun b => { b with pinned := false })) s)) s

/-- PIL_MOVE: one block moves; the command completes at commit or abandonment. -/
def execPilMove (iss : Issuer) (t : Nat) (s : State) : Out :=
  State.serve iss 0x0404 t (fun started m s =>
    let tb := msgArg m 0
    let i := msgArg m 1
    let home := msgArg m 2
    if started then s.movesResult tb [i]
    else
      match s.blockOf tb i with
      | none => (done ST_MBX_ARG, s)
      | some b =>
        if b.pinned ∨ (s.moveOf tb i).isSome ∨ 4096 ≤ s.pilot.moves.length + s.pilot.queue.length then
          (done ST_PIL_BUSY, s)
        else
          let h := if home = 0 then none else some (bits home 48 13, bits home 0 48, msgArg m 3)
          (none, s.updPilot (fun p => { p with queue := p.queue ++
            [{ table := tb, entry := i, home := h, pin := false, demote := false, issuer := some iss }] }))) s

/-- PIL_TABLE: the owner table of a TENSOR_ID. -/
def execPilTable (iss : Issuer) (t : Nat) (s : State) : Out :=
  State.serveNow iss 0x0405 t (fun m s =>
    match s.pilot.tensors.find? (fun x => x.id.toNat == msgArg m 0) with
    | some x => (reply [x.table], s)
    | none => (done ST_PIL_NO_TENSOR, s)) s

/-- PIL_THRESH: write a class's threshold and FIX bit; the previous threshold is
returned (R271). -/
def execPilThresh (iss : Issuer) (t : Nat) (s : State) : Out :=
  State.serveNow iss 0x0406 t (fun m s =>
    let c := msgArg m 0
    if 2 < c ∨ 1 < msgArg m 1 then (done ST_MBX_ARG, s)
    else
      let old := s.pilThresh c
      let s := s.setThresh c (threshClamp (msgArg m 2)) 4
      let f := s.pilot.fix
      (reply [old], s.updPilot (fun p =>
        { p with fix := BitVec.ofNat 3 (setBits f.toNat c 1 (msgArg m 1)) }))) s

/-- PIL_CAL_CFG: set the calibration window. -/
def execPilCalCfg (iss : Issuer) (t : Nat) (s : State) : Out :=
  State.serveNow iss 0x0407 t (fun m s =>
    (done 0, s.updPilot (fun p => { p with winMs := BitVec.ofNat 8 (msgArg m 0) }))) s

end Sys2Proof.Machine
end

