-- ==== Sys2Proof/Machine/Remote.lean ====
section
/-! DEFINITION. Remote requests at their destination, their responses at their
source, arrival counting, and management packets (16 R509 to R512, 12 R394 to
R396, 18 R580). -/

namespace Sys2Proof.Machine

/-! ### Arrival counters (12 R394 to R396) -/

/-- Add `n` counted bytes to an arrival counter: it saturates, and signals at each
multiple of its target. -/
def State.acAdd (s : State) (k n : Nat) : State :=
  let a := s.ac k
  let sum := a.count.toNat + n
  let overs := decide (2 ^ 40 - 1 < sum)
  let c := min sum (2 ^ 40 - 1)
  let tgt := a.target.toNat
  let (hits, left) := if tgt = 0 then (0, c) else (c / tgt, c % tgt)
  let s := s.setAc k { a with count := BitVec.ofNat 40 left, sat := a.sat || overs }
  let s := if overs then s.raise ST_AC_SAT 6 0 (some a.tenant.toNat) k else s
  if a.sigEn then
    iter (fun s =>
      let s := s.cntMod 75 1
      if s.soAllowed a.tenant.toNat a.so.toNat then s.soSignal a.so.toNat 1
      else s.soBlocked 6 0 a.tenant.toNat a.so.toNat) hits s
  else s

/-- Count a write of `tenant` that arrived through the fabric interface from a berth
and took effect at `a`. -/
def State.arrive (s : State) (berth tenant a n : Nat) : State :=
  s.dma.acs.foldl (fun s k =>
    let c := s.ac k.1
    if !c.valid || !c.meets a n then s
    else if c.tenant.toNat ≠ tenant then s.isolation ST_AC_TENANT 13 berth tenant a
    else
      let lo := max a c.base.toNat
      let hi := min (a + n) (c.base.toNat + 64 * c.size64.toNat)
      s.acAdd k.1 (hi - lo)) s

/-! ### Answers (16 R510) -/

/-- Send a response to a request. -/
def State.respond (s : State) (q : Packet) (ptype loc : Nat) (data : List Byte) : State :=
  s.sendPacket { ptype := ptype, vc := if q.vc = 3 then 3 else 1, esc := false, down := false, dstH := q.srcH, dstB := q.srcB,
                 srcH := s.ownHarbour, srcB := s.ownBerth, tenant := q.tenant, tag := q.tag, loc := loc,
                 len := data.length - 1, aop := 0, data := data }

def State.refuse (s : State) (q : Packet) (st : Status) : State := s.respond q 7 st.toNat []

/-- Check a remote request: the register region is refused and recorded (01 R54),
the rest by the rights of its tenant. -/
def State.remoteAccess (s : State) (q : Packet) (write : Bool) (n : Nat) : Option Status × State :=
  if (regAt q.loc).isSome ∨ (regAt (q.loc + n - 1)).isSome then
    (some ST_REMOTE_REG_DENIED, s.isolation ST_REMOTE_REG_DENIED 13 q.srcB q.tenant q.loc)
  else s.accessRecord 13 q.srcB q.tenant write q.loc n

/-- The first arrived request of a type, if its memory serves it now. -/
def State.takeRequest (s : State) (ptype : Nat) (read : Bool) (n : Packet → Nat) : Option (Packet × State) :=
  match s.takeInbox (fun x => x.2.ptype == ptype) with
  | none => none
  | some (_, q, s') =>
    if s.pointGrants 0x500 (agentOf 13 q.srcB) && s.memReady read q.loc (n q) && !(s.writesHeld q.loc (n q) && (ptype == 3 || ptype == 4)) then
      some (q, s'.logArb 0x500 (agentOf 13 q.srcB))
    else none

/-- What the paired module's repair of an uncorrectable atom reads here: the
manifest as it stands, or memory (11 R365 step 3, 17 R537). -/
def State.twinRead (s : State) (a n : Nat) : Option (List Byte) × State :=
  let (base, size) := s.resv 0
  if base ≤ a ∧ a < base + size then
    let e := Table.find s.serving.entries ((a - base) / 64)
    (some (bytesOfNat n ((e.map (fun (e : SrvEntry) => e.w.toNat)).getD 0)), s)
  else s.load a n

/-- PKT_RD: a read at its home. One on the twin virtual channel is the paired
module's own and is not checked against a tenant. -/
def execPktRd (t : Nat) (s : State) : Out :=
  let s := s.at t
  match s.takeRequest 1 true (fun q => q.len + 1) with
  | none => .next s
  | some (q, s) =>
    match (if q.vc = 3 then (none, s) else s.remoteAccess q false (q.len + 1)) with
    | (some e, s) => .next (s.refuse q e)
    | (none, s) =>
      match (if q.vc = 3 then s.twinRead else s.load) q.loc (q.len + 1) with
      | (some bs, s) => .next (s.respond q 5 0 bs)
      | (none, s) => .next (s.refuse q ST_MEM_UE)

def execPktWr (t : Nat) (s : State) : Out :=
  let s := s.at t
  match s.takeRequest 2 false (fun q => q.data.length) with
  | none => .next s
  | some (q, s) =>
    match s.remoteAccess q true q.data.length with
    | (some e, s) => .next (s.refuse q e)
    | (none, s) =>
      let bad := s.fencedIn q.loc q.data.length
      let s := s.writeMem q.loc q.data
      .next (if bad then s.refuse q ST_MEM_UE
             else (s.arrive q.srcB q.tenant q.loc q.data.length).respond q 6 0 [])

/-- PKT_ATOMIC: the operation runs at its home and its old value is returned. -/
def execPktAtomic (t : Nat) (s : State) : Out :=
  let s := s.at t
  let size (q : Packet) : Nat := if bit q.aop 4 then 8 else 4
  match s.takeRequest 3 true size with
  | none => .next s
  | some (q, s) =>
    let n := size q
    let d := natOfBytes q.data
    if 9 < q.aop % 16 then .next (s.refuse q ST_DMA_OP)
    else if q.loc % n ≠ 0 then .next (s.refuse q ST_DMA_ALIGN)
    else
      match s.remoteAccess q true n with
      | (some e, s) => .next (s.refuse q e)
      | (none, s) =>
        if !atomicPlace false q.loc then .next (s.refuse q ST_ATOMIC_TARGET)
        else
          match s.rmw q.loc n (fun old => atomicNew (q.aop % 16) n old (byteField d 0 8) (byteField d 8 8)) with
          | (some old, s) => .next (s.respond q 5 0 (bytesOfNat 8 old))
          | (none, s) => .next (s.refuse q ST_MEM_UE)

/-- PKT_REDADD: elements are added at their home; the bytes changed are counted as
arrived. -/
def execPktRedadd (t : Nat) (s : State) : Out :=
  let s := s.at t
  let bf (q : Packet) : Bool := bit q.aop 0
  let size (q : Packet) : Nat := if bf q then 2 * q.data.length else q.data.length
  match s.takeRequest 4 true size with
  | none => .next s
  | some (q, s) =>
    if q.loc % 4 ≠ 0 then .next (s.refuse q ST_DMA_ALIGN)
    else
      match s.remoteAccess q true (size q) with
      | (some e, s) => .next (s.refuse q e)
      | (none, s) =>
        if !atomicPlace true q.loc then .next (s.refuse q ST_ATOMIC_TARGET)
        else
          let (_, ok, n, s) := s.redadd q.loc (redElems (bf q) q.data)
          let s := if n = 0 then s else s.arrive q.srcB q.tenant q.loc (4 * n)
          .next (if ok then s.respond q 6 0 [] else s.refuse q ST_MEM_UE)

/-! ### Responses (16 R509) -/

/-- What a response brings: data, an acknowledgement, or an error. -/
inductive Brought where
  | data (bs : List Byte)
  | ack
  | err (st : Status)

/-- The response to one request of a tile's transfer. -/
def State.tileAnswer (s : State) (t id off : Nat) (b : Brought) : State :=
  match (s.tile t).dmas.find? (fun d => d.id == id) with
  | none => s
  | some d =>
    let upd (s : State) (f : TileDma → TileDma) : State :=
      s.updTile t (fun x => { x with dmas := x.dmas.map (fun y => if y.id = id then f y else y) })
    let s := upd s (fun y => { y with outstanding := y.outstanding - 1 })
    match b with
    | .data bs => if d.out then s else s.writeMem (tileBase t + d.spad + off) bs
    | .ack => s
    | .err st => upd s (fun y => { y with err := some (y.err.getD st) })

/-- The response to one request of a DMA descriptor. Flags of elements added at
another module do not travel in a packet: they are free values. -/
def State.dmaAnswer (s : State) (c i : Nat) (len : Nat) (o : ReqOwner) (b : Brought) : State :=
  let s := s.updRun c i (fun r => { r with outstanding := r.outstanding - 1 })
  match b, o with
  | .err st, _ => s.runFail c i st
  | .data bs, .dmaSrc _ _ off => s.updRun c i (fun r => { r with source := Table.put r.source off bs })
  | .data bs, .dmaTable _ _ dst off => s.updRun c i (fun r => { r with tbl := r.tbl ++ [(dst, off, bs)] })
  | .data bs, .dmaBack _ _ => s.updRun c i (fun r => { r with back := bs })
  | .data bs, .dmaAtomic _ _ =>
    s.updRun c i (fun r =>
      { r with result := BitVec.ofNat 64 (natOfBytes bs), stage := .trailing, sent := 0, since := s.time })
  | .ack, .dmaDst _ _ off =>
    match s.dmaRun c i with
    | none => s
    | some r =>
      let d := r.desc.toNat
      if ddOp d = 3 then
        let (w, s) := s.freshLong
        s.updRun c i (fun r =>
          { r with flags := r.flags ||| BitVec.ofNat 8 (w.toNat % 64)
                   acked := Table.put r.acked off (if ddBf16 d then 2 * len else len) })
      else s.updRun c i (fun r => { r with acked := Table.put r.acked off len })
  | _, _ => s

/-- A response reaches the request whose place it frees. -/
def State.answered (s : State) (o : ReqOwner) (len : Nat) (b : Brought) : State :=
  match o with
  | .tileDma t id off => s.tileAnswer t id off b
  | .dmaSrc c i _ => s.dmaAnswer c i len o b
  | .dmaDst c i _ => s.dmaAnswer c i len o b
  | .dmaAtomic c i => s.dmaAnswer c i len o b
  | .dmaTable c i _ _ => s.dmaAnswer c i len o b
  | .dmaOld c i => s.dmaAnswer c i len o b
  | .dmaCrc c i => s.dmaAnswer c i len o b
  | .dmaBack c i => s.dmaAnswer c i len o b
  | .kvImage entry off =>
    s.updCopy entry (fun c =>
      let c := { c with outstanding := c.outstanding - 1 }
      match b with
      | .data bs => { c with got := Table.put c.got off bs }
      | .ack => c
      | .err _ => { c with failed := true })
  | .pilot table entry =>
    s.updMove table entry (fun m =>
      let m := { m with outstanding := m.outstanding - 1 }
      match b with
      | .err _ => { m with failed := true }
      | .data _ => m
      | .ack => m)

/-- The first arrived response of a type ends the request of its tag; one without a
request is late and is counted (R511). -/
def State.takeResponse (s : State) (ptype : Nat) (b : Packet → Brought) : State :=
  match s.takeInbox (fun x => x.2.ptype == ptype && x.2.vc != 3) with
  | none => s
  | some (_, q, s) =>
    match s.fab.reqs.find? (fun r => r.tag == q.tag) with
    | none =>
      -- TAG 0 is that of packets without a place in the tracker
      if q.tag = 0 then s
      else { s with fab := { s.fab with late := BitVec.ofNat 32 (satAdd 32 s.fab.late.toNat 1) } }
    | some r =>
      let s := { s with fab := { s.fab with reqs := s.fab.reqs.filter (fun x => x.tag != q.tag) } }
      let s := match b q with
        | .err st => s.noRouteFault s.ownHarbour r.berth st
        | .data _ => s
        | .ack => s
      s.answered r.owner r.len (b q)

def execRspData (t : Nat) (s : State) : Out :=
  .next ((s.at t).takeResponse 5 (fun q => .data q.data))
def execRspAck (t : Nat) (s : State) : Out := .next ((s.at t).takeResponse 6 (fun _ => .ack))
def execRspErr (t : Nat) (s : State) : Out :=
  .next ((s.at t).takeResponse 7 (fun q => .err (BitVec.ofNat 16 q.loc)))

/-- REQ_TIMEOUT: a request unanswered for REQ_TIMEOUT_MS ends with
ST_FAB_REQ_TIMEOUT, and its berth is a suspect (R511, 17 R538). -/
def execReqTimeout (tag t : Nat) (s : State) : Out :=
  let s := s.at t
  match s.fab.reqs.find? (fun r => r.tag == tag) with
  | none => .next s
  | some r =>
    if s.time < r.sentAt + msTicks (max 1 s.fab.timeoutMs.toNat) then .next s
    else
      let s := { s with fab := { s.fab with reqs := s.fab.reqs.filter (fun x => x.tag != tag) } }
      let s := s.logDecision 0x500 [tag]
      let s := if s.isSelf s.ownHarbour r.berth then s else s.suspectFault r.berth 1 ST_FAB_REQ_TIMEOUT
      .next (s.answered r.owner r.len (.err ST_FAB_REQ_TIMEOUT))

/-! ### Management packets (R512, 18 R580) -/

/-- MGT: the first arrived management packet that is no fault message. A Birouran
request is submitted with the rights of the PF and answered to its source; other
messages are control messages of the fabric and of the Pilots, whose forms are not
given and whose effects the commands of those units have. -/
def execMgt (t : Nat) (s : State) : Out :=
  let s := s.at t
  match s.takeInbox (fun x => x.2.ptype == 8 && !isFaultMsg x.2.data) with
  | none => .next s
  | some (_, q, s) =>
    let d := natOfBytes q.data
    .next (if byteField d 2 1 = 0x80 then s.submit (.peer q.srcH q.srcB) d else s)

end Sys2Proof.Machine
end

