-- ==== Sys2Proof/Machine/Incident.lean ====
section
/-! DEFINITION. Failed tiles and quays, and the fault messages between modules
(01 R31, 17 R534 to R536, R540 to R544). -/

namespace Sys2Proof.Machine

/-! ### Tiles and quays (R534 to R536) -/

/-- A tile's hardware is gone: it is at rest with nothing in it, but still in its
node's hands until the node is released. -/
def State.dropTile (s : State) (t : Nat) : State :=
  let x := s.tile t
  let s := s.removeWaits (fun u => match u with
    | .stream k _ => k == t
    | _ => false)
  s.setTile t { Tile.reset with owner := x.owner, job := x.job, lastHolder := x.lastHolder }

/-- The node that holds a tile: its graph and its index. -/
def State.tileHolder (s : State) (t : Nat) : Option (Nat × Nat) :=
  s.graph.graphs.findSome? (fun g =>
    (g.2.nodes.find? (fun n => n.2.held.contains t)).map (fun n => (g.1, n.1)))

/-- The node that holds a tile fails. -/
def State.failTileNode (s : State) (t : Nat) (st : Status) : State :=
  match s.tileHolder t with
  | some h => s.failGraph h.1 st h.2 (failUnit 1 t)
  | none => s

/-- A quay goes out of service (R31, R536): its work ends, and nothing is placed on
it until the next reset that repeats tile test. -/
def State.quayOut (s : State) (q : Nat) : State :=
  if (s.quay q).outOfService then s
  else
    let s := (s.updQuay q (fun x => { x with inService := false, outOfService := true })).raise
      ST_QUAY_OUT_OF_SERVICE 1 q none 0
    let ts := (List.range 64).map (fun i => 64 * q + i)
    let s := ts.foldl (fun s t => s.failTileNode t ST_QUAY_OUT_OF_SERVICE) s
    ts.foldl State.dropTile s

/-- Has a tile failed by R534? -/
def State.tileFailed (s : State) (t : Nat) : Bool :=
  let x := s.tile t
  let recent := x.errTimes.filter (fun e => decide (s.time < e + msTicks 1000))
  let stuck := x.mode == .running && !x.stalls && decide (x.lastProgress + msTicks 10 ≤ s.time)
  let hung := match x.abortAt with
    | some a => x.mode != .idle && decide (a + msTicks 1 ≤ s.time)
    | none => false
  decide (2 ≤ recent.length) || stuck || hung

/-- TILE_FAILURE: the quay control core finds a tile failed. Its node fails; the
lowest spare that is neither failed nor written takes its place, else the quay goes
out of service. -/
def execTileFailure (t now : Nat) (s : State) : Out :=
  let s := s.at now
  let q := t / 64
  if 4096 ≤ t ∨ !s.coreRuns q ∨ (s.quay q).outOfService ∨ !s.tileFailed t then .next s
  else
    let x := s.quay q
    let phys := x.physical (t % 64)
    let s := s.updQuay q (fun y => { y with failed := y.failed ||| BitVec.ofNat 68 (2 ^ phys) })
    let s := (s.failTileNode t ST_TILE_FAILED).dropTile t
    let x := s.quay q
    match (List.range 4).find? (fun n =>
      !x.failed.getLsbD (64 + n) && !(Table.getD x.spares n SpareMap.reset).locked) with
    | none => .next (s.quayOut q)
    | some n =>
      let m : SpareMap := { inUse := true, replaced := BitVec.ofNat 7 (t % 64), locked := true }
      let s := s.updQuay q (fun y => { y with spares := Table.put y.spares n m, sparesUsed := y.sparesUsed + 1 })
      let s := (s.zeroFillTile t).updTile t (fun y => { y with owner := none })
      .next (s.raise ST_TILE_REPAIRED 2 t none 0)

/-! ### Fault messages (R539 to R544) -/

/-- The first arrived fault message of a type: its numbers, as one. -/
def State.takeFault (s : State) (mtype : Nat) : Option (Nat × State) :=
  (s.takeInbox (fun x => x.2.ptype == 8 && isFaultMsg x.2.data
    && byteField (natOfBytes x.2.data) 3 1 == mtype)).map (fun r => (natOfBytes r.2.1.data, r.2.2))

def fmSuspect (d : Nat) : Nat := byteField d 4 2 % 8192
def fmSender (d : Nat) : Nat := byteField d 6 2 % 8192
def fmFlags (d : Nat) : Nat := byteField d 8 1
def fmNum (d : Nat) : Nat := byteField d 0x0C 4

/-- Is an incident open, its window still running at time `now`? -/
def Incident.open_ (x : Incident) (now : Nat) : Bool := x.closedAt.isNone && decide (now < x.firstTime + msTicks 100)

/-- FAULT_REPORT: a REPORT opens an incident or adds to one, and is answered. -/
def execFaultReport (t : Nat) (s : State) : Out :=
  let s := s.at t
  match s.takeFault 1 with
  | none => .next s
  | some (d, s) =>
    let b := fmSuspect d
    let r := fmSender d
    let k := fmFlags d % 16
    let fk : BitVec 4 := if 1 ≤ k ∧ k ≤ 4 then BitVec.ofNat 4 (2 ^ (k - 1)) else 0
    let here := s.hm.incidents.any (fun x => x.suspect == b && x.open_ s.time)
    let full := !here && decide (256 ≤ s.hm.incidents.length)
    let bitmap := BitVec.ofNat 8192 (2 ^ r)
    let s :=
      if here then
        s.updHm (fun h => { h with incidents := h.incidents.map (fun x =>
          if x.suspect == b && x.open_ s.time then
            { x with reporters := x.reporters ||| bitmap, fkinds := x.fkinds ||| fk, num := satAdd 32 x.num (fmNum d) }
          else x) })
      else if full then
        let s := s.updHm (fun h => { h with fullCount := h.fullCount + 1 })
        let due := match s.hm.fullEvt with
          | none => true
          | some e => decide (e + msTicks 100 ≤ s.time)
        if due then
          (s.raise ST_REPORT_DROPPED 0 0 none s.hm.fullCount).updHm (fun h => { h with fullEvt := some s.time })
        else s
      else
        let x : Incident := { suspect := b, firstTime := s.time, firstReporter := r, reporters := bitmap,
                              fkinds := fk, num := fmNum d, closedAt := none, synced := false }
        s.updHm (fun h => { h with incidents := h.incidents ++ [x] })
    .next (s.sendFault r (faultMsg 2 b s.ownBerth (b2n full) 0 0 0))

/-- FAULT_ACK: an ACK ends its part of the outstanding REPORT; after the last one
without FULL, the suspect is quiet for 100 ms. -/
def execFaultAck (t : Nat) (s : State) : Out :=
  let s := s.at t
  match s.takeFault 2 with
  | none => .next s
  | some (d, s) =>
    match s.hm.outstanding with
    | none => .next s
    | some r =>
      if r.suspect ≠ fmSuspect d then .next s
      else
        let q : Report := { r with waiting := r.waiting.filter (· != fmSender d), full := r.full || bit (fmFlags d) 0 }
        let s := s.updHm (fun h => { h with outstanding := some q })
        if !q.waiting.isEmpty then .next s
        else
          let s := if q.full then s
            else s.updHm (fun h => { h with quiet := Table.put h.quiet q.suspect (s.time + msTicks 100) })
          .next s.reportEnded

/-- REPORT_TIMEOUT: an outstanding REPORT ends after 10 ms. -/
def execReportTimeout (t : Nat) (s : State) : Out :=
  let s := s.at t
  match s.hm.outstanding with
  | some r => .next (if r.sentAt + msTicks 10 ≤ s.time then s.reportEnded else s)
  | none => .next s

/-- Is this module the primary of a suspect? -/
def State.primaryOf (s : State) (b : Nat) : Bool := s.ownBerth == b ^^^ 1

/-- Raise the record of an incident and free it. -/
def State.recordIncident (s : State) (x : Incident) (by_ : Nat) : State :=
  let (n, s) := s.nextSerial x.suspect
  let s := s.updHm (fun h => { h with incidents := h.incidents.filter (fun y => y != x) })
  s.raiseIncident x.suspect (popcount 8192 x.reporters.toNat) x.firstTime x.fkinds.toNat by_ n x.firstReporter x.num

/-- INCIDENT_WINDOW_CLOSE: at the primary the incident is recorded and SYNC is sent;
at the secondary its hold begins, or it is freed where SYNC has arrived. -/
def execIncidentWindowClose (suspect t : Nat) (s : State) : Out :=
  let s := s.at t
  match s.hm.incidents.find? (fun x =>
    x.suspect == suspect && x.closedAt.isNone && decide (x.firstTime + msTicks 100 ≤ s.time)) with
  | none => .next s
  | some x =>
    if s.primaryOf suspect then
      let n := popcount 8192 x.reporters.toNat
      .next ((s.recordIncident x 1).sendFault (suspect ^^^ 2) (faultMsg 3 suspect s.ownBerth 0 n s.time 0))
    else if x.synced then
      .next (s.updHm (fun h => { h with incidents := h.incidents.filter (fun y => y != x) }))
    else
      .next (s.updHm (fun h => { h with incidents := h.incidents.map (fun y =>
        if y = x then { y with closedAt := some (x.firstTime + msTicks 100) } else y) }))

/-- FAULT_SYNC: the secondary frees its incident without a record: at once in its
hold, else when its window closes. -/
def execFaultSync (t : Nat) (s : State) : Out :=
  let s := s.at t
  match s.takeFault 3 with
  | none => .next s
  | some (d, s) =>
    match s.hm.incidents.find? (fun x => x.suspect == fmSuspect d && !x.synced) with
    | some x =>
      let go (l : List Incident) : List Incident :=
        if x.closedAt.isSome then l.filter (fun y => y != x)
        else l.map (fun y => if y = x then { y with synced := true } else y)
      .next (s.updHm (fun h => { h with incidents := go h.incidents }))
    | none => .next s

/-- INCIDENT_HOLD_EXPIRY: no SYNC within 20 ms: the secondary records the incident. -/
def execIncidentHoldExpiry (suspect t : Nat) (s : State) : Out :=
  let s := s.at t
  match s.hm.incidents.find? (fun x => x.suspect == suspect && (match x.closedAt with
    | some c => decide (c + msTicks 20 ≤ s.time)
    | none => false)) with
  | some x => .next (s.recordIncident x 2)
  | none => .next s

end Sys2Proof.Machine
end

