-- ==== Sys2Proof/Machine/Routing.lean ====
section
/-! DEFINITION. Berths, link-state advertisements and routing tables, and the
mailbox commands of the fabric (16 R501 to R507, 18 R587). -/

namespace Sys2Proof.Machine

/-! ### Berths (R501, R502) -/

/-- Serial, harbour and berth of an entry of the berth table (16 bytes). -/
def berthEntry (e : Nat) : BitVec 64 × Bool × BitVec 13 :=
  (BitVec.ofNat 64 (byteField e 0 8), bit e 64, BitVec.ofNat 13 (byteField e 9 2))

/-- Entries of a table of `n` entries; none where one has a field out of range. -/
def berthEntries (bs : Nat) (n : Nat) : Option (List (BitVec 64 × Bool × BitVec 13)) :=
  (List.range n).mapM (fun i =>
    let e := byteField bs (16 * i) 16
    if byteField e 8 1 ≤ 1 ∧ byteField e 9 2 < 8192 then some (berthEntry e) else none)

/-- The module stays without a berth. -/
def State.noBerth (s : State) : State := (s.unassign).raise ST_FAB_UNASSIGNED 0 0 none 0

/-- The module takes a berth: the flood begins. -/
def State.takeBerth (s : State) (h : Bool) (b : BitVec 13) : State :=
  let s := { s with fab := { s.fab with
    berth := b, harbour := h, assigned := true, step := 5, stepAt := s.time, advertChanged := s.time, advertAt := 0 } }
  (s.pairCheck 14).pairCheck 15

/-- BERTH_ASSIGN: once every enabled port has trained or passed its limits, the
berth is taken from the host's table, or by the rank of the own serial among the
serials flooded (`serials`: those of the other modules of the harbour), or from the
twin ports' peer. -/
def execBerthAssign (serials : List (BitVec 64)) (t : Nat) (s : State) : Out :=
  let s := s.at t
  let busy := (List.range 16).any (fun p => (s.port p).state == 1 && (s.port p).training)
  if busy ∨ !(s.fab.step == 1 || s.fab.step == 4) then .next s
  else
    let s := if s.fab.step = 1 then { s with fab := { s.fab with step := 4, stepAt := s.time } } else s
    let late := decide (s.fab.stepAt + msTicks 2000 ≤ s.time)
    if s.fab.mode = 0 then
      match s.fab.berthTable.find? (fun e => e.1 == Config.serial) with
      | some e => .next (s.takeBerth e.2.1 e.2.2)
      | none => .next s.noBerth
    else if !s.fab.harbour then
      if serials.contains Config.serial then .next ((s.unassign).raise ST_FAB_SERIAL_DUP 0 0 none 0)
      else if late then .next s.noBerth
      else if s.time < s.fab.stepAt + msTicks 200 then .next s
      else
        let rank := (serials.eraseDups.filter (fun x => decide (x < Config.serial))).length
        .next (if 8192 ≤ rank then s.noBerth else s.takeBerth false (BitVec.ofNat 13 rank))
    else
      let peer := [14, 15].find? (fun p =>
        (s.port p).peerValid && (s.port p).peerAssigned && !(s.port p).peerHarbour)
      match peer with
      | some p => .next (if s.fab.twinMode then s.takeBerth true (s.port p).peerBerth else s.noBerth)
      | none => .next (if late ∨ !s.fab.twinMode then s.noBerth else s)

/-! ### Advertisements (R504) -/

/-- Links this module advertises: harbour ports that are up, with the neighbour's
berth and the width. A port that retrains keeps its place (R513). -/
def State.ownLinks (s : State) : List (Nat × Nat × Nat) :=
  ((List.range 14).filter (fun p => ((s.port p).state == 2 || (s.port p).state == 3) && (s.port p).peerAssigned)).map
    (fun p => (p, (s.port p).peerBerth.toNat, (s.port p).lanes.toNat))

/-- Send a control packet over every up harbour port but one. The form of an
advertisement is not given: its bytes are free values. -/
def State.flood (s : State) (except_ : Nat) : State :=
  ((List.range 14).filter (fun p => p != except_ && (s.port p).state == 2)).foldl (fun s p =>
    let (bs, s) := s.freshBytes 64
    let q : Packet :=
      { ptype := 8, vc := 2, esc := false, down := false, dstH := s.ownHarbour, dstB := (s.port p).peerBerth.toNat,
        srcH := s.ownHarbour, srcB := s.ownBerth, tenant := 0, tag := 0, loc := 0, len := 63, aop := 0, data := bs }
    if (s.port p).takes q then s.updPort p (fun x => x.putPacket q)
    else
      let w : QueuedPacket := { pkt := q, gen := s.fab.gen.toNat, port := 16 }
      { s with fab := { s.fab with waitQ := s.fab.waitQ ++ [w] } }) s

/-- LSA_SEND: an assigned module floods its advertisement when its links have
changed, and at least every 10 s. -/
def execLsaSend (t : Nat) (s : State) : Out :=
  let s := s.at t
  let links := s.ownLinks
  let old := Table.find s.fab.adverts s.ownBerth
  let changed := match old with
    | some a => a.links != links || a.serial != Config.serial
    | none => true
  if !s.fab.assigned ∨ (!changed ∧ s.time < s.fab.advertAt + msTicks 10000) then .next s
  else
    let n := s.fab.ownSeq + 1
    let a : Advert := { serial := Config.serial, seq := n, links := links }
    let s := { s with fab := { s.fab with
      adverts := Table.put s.fab.adverts s.ownBerth a, ownSeq := n, advertAt := s.time
      advertChanged := if changed then s.time else s.fab.advertChanged } }
    .next (s.flood 16)

/-- LSA_RECEIVED: an advertisement of a berth arrives on a port. A newer one is kept
and forwarded; one of another module that claims the own berth is a conflict
(R502). -/
def execLsaReceived (port berth : Nat) (serial : BitVec 64) (seq : BitVec 32) (links : List (Nat × Nat × Nat))
    (t : Nat) (s : State) : Out :=
  let s := s.at t
  if 14 ≤ port ∨ 8192 ≤ berth then .next s
  else if s.fab.assigned ∧ berth = s.ownBerth then
    if serial = Config.serial then .next s
    else
      let s := s.raise ST_FAB_BERTH_CONFLICT 13 berth none 0
      .next (if serial < Config.serial then s.unassign else s)
  else if s.fab.assigned ∧ serial = Config.serial then .next ((s.unassign).raise ST_FAB_SERIAL_DUP 13 berth none 0)
  else
    let old := Table.find s.fab.adverts berth
    let newer := match old with
      | some a => decide (a.seq < seq)
      | none => true
    if !newer then .next s
    else
      let a : Advert := { serial := serial, seq := seq, links := links }
      let changed := match old with
        | some x => x.links != links || x.serial != serial
        | none => true
      let s := { s with fab := { s.fab with
        adverts := Table.put s.fab.adverts berth a
        advertChanged := if changed then s.time else s.fab.advertChanged } }
      .next (s.flood port)

/-! ### Routes (R505) -/

/-- Links of a berth that count as up: both ends list them. -/
def State.upLinks (s : State) (u : Nat) : List (Nat × Nat) :=
  let links (v : Nat) : List (Nat × Nat × Nat) := ((Table.find s.fab.adverts v).map (·.links)).getD []
  ((links u).filter (fun l => (links l.2.1).any (fun k => k.2.1 == u))).map (fun l => (l.1, l.2.1))

/-- One round of relaxation of distances over links that a test admits. -/
def State.relax (s : State) (ok : Nat → Nat → Bool) (seed d : Table Nat) : Table Nat :=
  (s.fab.adverts.map Prod.fst).foldl (fun t u =>
    let via := ((s.upLinks u).filter (fun l => ok u l.2)).filterMap (fun l => (Table.find d l.2).map (· + 1))
    match ((Table.find seed u).toList ++ via).min? with
    | some n => Table.put t u n
    | none => t) []

/-- Hop counts to the berths of `seed` over links that a test admits. -/
def State.hops (s : State) (ok : Nat → Nat → Bool) (seed : Table Nat) : Table Nat :=
  iter (s.relax ok seed) (s.fab.adverts.length + 1) seed

/-- Levels of the module's connected part: hop counts from its lowest berth. -/
def State.levels (s : State) : Table Nat :=
  let part := s.hops (fun _ _ => true) [(s.ownBerth, 0)]
  match (part.map Prod.fst).min? with
  | some r => s.hops (fun _ _ => true) [(r, 0)]
  | none => []

/-- Is the link from u to v an up link? -/
def linkUp (lv : Table Nat) (u v : Nat) : Bool :=
  let a := Table.getD lv u 0
  let b := Table.getD lv v 0
  decide (b < a) || (a == b && decide (v < u))

/-- The lowest port with the least value. -/
def bestPort (xs : List (Nat × Nat)) : Option Nat :=
  match (xs.map Prod.snd).min? with
  | some m => ((xs.filter (fun x => x.2 == m)).map Prod.fst).min?
  | none => none

/-- The routing entry of a berth. -/
def State.routeEntry (s : State) (lv : Table Nat) (d : Nat) : Option (BitVec 32) :=
  let me := s.ownBerth
  if d = me then some (BitVec.ofNat 32 (2 ^ 30 + 2 ^ 31))
  else
    let dist := s.hops (fun _ _ => true) [(d, 0)]
    match Table.find dist me with
    | none => none
    | some n =>
      let mine := s.upLinks me
      let min_ := (mine.filter (fun l => Table.find dist l.2 == some (n - 1))).foldl (fun m l => m ||| 2 ^ l.1) 0
      let down := s.hops (fun u v => !linkUp lv u v) [(d, 0)]
      let updown := s.hops (fun u v => linkUp lv u v) down
      let upP := bestPort (mine.filterMap (fun l =>
        (Table.find (if linkUp lv me l.2 then updown else down) l.2).map (fun k => (l.1, k))))
      let dnP := bestPort ((mine.filter (fun l => !linkUp lv me l.2)).filterMap (fun l =>
        (Table.find down l.2).map (fun k => (l.1, k))))
      some (BitVec.ofNat 32 (min_ + 2 ^ 16 * upP.getD 0 + 2 ^ 20 * dnP.getD 0 + 2 ^ 24 * b2n upP.isSome
        + 2 ^ 25 * b2n dnP.isSome + 2 ^ 31))

/-- Compute the table from the advertisements held and commit it as one whole: the
previous one is kept for 10 ms (R507). -/
def State.commitRoutes (s : State) : State :=
  let lv := s.levels
  let rt : Table (BitVec 32) := (s.fab.adverts.map Prod.fst).foldl (fun t d =>
    match s.routeEntry lv d with
    | some e => Table.put t d e
    | none => t) []
  let dl := (s.upLinks s.ownBerth).foldl (fun m l =>
    if linkUp lv s.ownBerth l.2 then m else m ||| 2 ^ l.1) 0
  ({ s with fab := { s.fab with
    prevRt := s.fab.rt, rt := rt, gen := s.fab.gen + 1, committedAt := s.time, prevDown := s.fab.downLinks, downLinks := BitVec.ofNat 16 dl
    reached := rt.foldl (fun (m : BitVec 8192) (e : Nat × BitVec 32) => m ||| BitVec.ofNat 8192 (2 ^ e.1)) s.fab.reached } }).pumpFabric

/-- Step 7 of R503: the fabric is ready. -/
def State.fabReady (s : State) : State :=
  { s with fab := { s.fab with ready := true, step := 7, stepAt := s.time } }

/-- ROUTE_COMMIT: the flood has settled for 100 ms at the start; later, the
advertisements have changed since the last commit. -/
def execRouteCommit (t : Nat) (s : State) : Out :=
  let s := s.at t
  let quiet := decide (max s.fab.stepAt s.fab.advertChanged + msTicks 100 ≤ s.time)
  if s.fab.assigned && s.fab.step == 5 && quiet then .next (s.commitRoutes).fabReady
  else if s.fab.assigned && s.fab.step == 7 && decide (s.fab.committedAt < s.fab.advertChanged) then .next s.commitRoutes
  else .next s

/-- ROUTE_FLOOD_TIMEOUT: the flood has not settled within 1,000 ms. -/
def execRouteFloodTimeout (t : Nat) (s : State) : Out :=
  let s := s.at t
  if s.fab.step = 5 ∧ s.fab.stepAt + msTicks 1000 ≤ s.time then
    let s := s.commitRoutes
    .next (({ s with fab := { s.fab with partialRoutes := true } }).raise ST_FAB_ROUTE_PARTIAL 0 0 none 0).fabReady
  else .next s

/-! ### Mailbox commands (18 R587) -/

/-- Two equal elements in a list. -/
def hasDup {α : Type} [BEq α] : List α → Bool
  | [] => false
  | x :: r => r.contains x || hasDup r

/-- BERTH_TABLE: the table for TABLE mode, read from memory as T0. -/
def execBerthTable (iss : Issuer) (t : Nat) (s : State) : Out :=
  State.serveNow iss 0x0700 t (fun m s =>
    let a := msgArg m 0
    let n := msgArg m 1
    if 2 ^ 48 ≤ a ∨ n = 0 then (done ST_MBX_ARG, s)
    else
      match s.accessRecord 11 66 0 false a (16 * n) with
      | (some e, s) => (done e, s)
      | (none, s) =>
        match s.loadNum a (16 * n) with
        | (none, s) => (done ST_MEM_UE, s)
        | (some bs, s) =>
          match berthEntries bs n with
          | none => (done ST_MBX_ARG, s)
          | some es =>
            if hasDup (es.map Prod.fst) ∨ hasDup (es.map Prod.snd) then (done ST_FAB_BERTH_TABLE, s)
            else (done 0, { s with fab := { s.fab with berthTable := es } })) s

/-- FAB_ENABLE: R503 begins on the ports licensed now; in twin-harbour mode not
before its licence is installed (19 R609). -/
def execFabEnable (iss : Issuer) (t : Nat) (s : State) : Out :=
  State.serveNow iss 0x0701 t (fun _ s =>
    if s.fab.twinMode && !s.licences.getLsbD 3 then (done ST_FAB_UNLICENSED, s) else (done 0, s.fabStart)) s

/-- Enable or disable a port (R524). -/
def State.setPortEn (s : State) (p : Nat) (en : Bool) : State :=
  let x := s.port p
  if x.en = en then s
  else if en then
    let s := s.updPort p (fun x => { x with en := true })
    if s.fab.step = 0 then s else s.startPort p
  else
    let s := s.updPort p (fun x =>
      { x with en := false, state := if x.state = 5 then 5 else 0, retry := [], partialSlots := [], credits := []
               training := false, attempt := 0 })
    (s.countDown p).linksChanged.pumpFabric

def execPortCfg (iss : Issuer) (t : Nat) (s : State) : Out :=
  State.serveNow iss 0x0702 t (fun m s =>
    let p := msgArg m 0
    let en := msgArg m 1
    if 16 ≤ p ∨ 2 ≤ en then (done ST_MBX_ARG, s)
    else if en = 1 ∧ !s.portLicensed p then (done ST_FAB_UNLICENSED, s)
    else
      let s := s.updPort p (fun x =>
        { x with ucwThresh := BitVec.ofNat 8 (msgArg m 2), replayThresh := BitVec.ofNat 16 (msgArg m 3) })
      (done 0, s.setPortEn p (en == 1))) s

/-- PORT_RETRAIN: completes when the retraining has ended, with the width. -/
def execPortRetrain (iss : Issuer) (t : Nat) (s : State) : Out :=
  State.serve iss 0x0703 t (fun begun m s =>
    let p := msgArg m 0
    if 16 ≤ p then (done ST_MBX_ARG, s)
    else if begun then
      let x := s.port p
      if x.state = 3 then (none, s)
      else if x.state = 2 then (reply [x.lanes.toNat], s)
      else (done ST_FAB_PORT_DOWN, s)
    else if (s.port p).state = 2 ∨ (s.port p).state = 4 then (none, s.retrain p)
    else if (s.port p).state = 3 then (none, s)
    else if !s.portLicensed p then (done ST_FAB_UNLICENSED, s)
    else (done ST_FAB_PORT_DOWN, s)) s

def execFabCfg (iss : Issuer) (t : Nat) (s : State) : Out :=
  State.serveNow iss 0x0704 t (fun m s =>
    (done 0, { s with fab := { s.fab with timeoutMs := BitVec.ofNat 16 (msgArg m 0) } })) s

def execTwinCfg (iss : Issuer) (t : Nat) (s : State) : Out :=
  State.serveNow iss 0x0705 t (fun m s =>
    if 2 ≤ msgArg m 0 ∨ 4096 ≤ msgArg m 1 ∨ 4096 ≤ msgArg m 2 then (done ST_MBX_ARG, s)
    else
      (done 0, { s with fab := { s.fab with twin := { s.fab.twin with
        auto := msgArg m 0 == 1, holdMs := BitVec.ofNat 12 (msgArg m 1)
        takeoverMs := BitVec.ofNat 12 (msgArg m 2) } } })) s

end Sys2Proof.Machine
end

