-- ==== Sys2Proof/Machine/Firmware.lean ====
section
/-! DEFINITION. Firmware: loading, live update, stopped cores, crash dumps and
licences (chapter 19). -/

namespace Sys2Proof.Machine

def State.updFw (s : State) (f : Firmware → Firmware) : State := { s with fw := f s.fw }

/-! ### Crash dumps (R603 to R605) -/

/-- Make a capture. The bodies of its sections are free values. -/
def State.capture (s : State) (cause core : Nat) (st : Status) : State :=
  let (n, s) := s.freshLong
  let c : Capture :=
    { cause := cause, core := core, fwVer := BitVec.ofNat 32 s.fwVer, time := s.time
      resets := s.backup.count, status := st, logLen := n.toNat % 65537, free := s.free }
  let held := if s.fw.captures.length < 8 then s.fw.captures else s.fw.captures.drop 1
  { (s.updFw (fun f => { f with captures := held ++ [c] })) with free := s.free + 2 ^ 20 }

/-- A section: its header and its body. -/
def dumpSection (ty core : Nat) (body : List Byte) : List Byte :=
  bytesOfNat 1 ty ++ bytesOfNat 1 core ++ bytesOfNat 2 0 ++ bytesOfNat 4 body.length ++ bytesOfNat 8 0 ++ body

/-- The registers of one core: x0 reads zero, the other 36 values are free. -/
def dumpRegs (k : Nat) : List Byte := bytesOfNat 4 0 ++ freeBytes k 144 ++ List.replicate 108 0

/-- Bytes of the data memory of a core (R591). -/
def coreData (core : Nat) : Nat := if core < 64 then 0x20000 else 0x80000

/-- The bytes of a capture: registers of every core, and for a named core its data
memory and its log ring. -/
def Capture.bytes (c : Capture) : List Byte :=
  let regs := dumpSection 1 c.core ((List.range 67).flatMap (fun i => dumpRegs (c.free + 144 * i)))
  let own := if c.core = 0xFF then []
    else dumpSection 2 c.core (freeBytes (c.free + 0x4000) (coreData c.core))
      ++ dumpSection 3 c.core (freeBytes (c.free + 0x84000) c.logLen)
  let n := 64 + regs.length + own.length
  bytesOfNat 3 0x930801 ++ bytesOfNat 1 c.cause ++ bytesOfNat 1 c.core ++ bytesOfNat 3 0
    ++ bytesOfNat 4 c.fwVer.toNat ++ bytesOfNat 4 n ++ bytesOfNat 8 c.time ++ bytesOfNat 8 Config.serial.toNat
    ++ bytesOfNat 4 c.resets.toNat ++ bytesOfNat 2 c.status.toNat ++ bytesOfNat 26 0 ++ regs ++ own

/-- CRASH_DUMP: every capture held, oldest first, to host memory. A dump that does
not fit writes nothing, and its failed response gives the length all the same. -/
def execCrashDump (iss : Issuer) (t : Nat) (hostErr : Bool) (s : State) : Out :=
  State.serveNow iss 0x0A02 t (fun m s =>
    let bs := s.fw.captures.flatMap Capture.bytes
    if msgArg m 1 < bs.length then (some (ST_FW_DUMP_SIZE, [bs.length]), s)
    else if hostErr then (done ST_DMA_HOST_ERR, s)
    else (reply [bs.length], s.hostWrite (msgArg m 0) bs)) s

/-! ### Stopped cores (R592, R593) -/

/-- Every node that holds a tile of a quay fails. -/
def State.failQuayNodes (s : State) (q : Nat) : State :=
  s.holders.foldl (fun s (h : Nat × GraphRun × NodeSt) =>
    match h.2.2.held.find? (fun t => t / 64 == q), (h.2.1.nodes.find? (fun n => n.2 == h.2.2)) with
    | some tile, some n => s.failGraph h.1 ST_FW_CORE_STOPPED n.1 (failUnit 1 tile)
    | _, _ => s) s

/-- The cores of a step of a live update: the quay control cores in four groups, the
power-management, the scheduler and the security core (R599). -/
def updateCores (step : Nat) : BitVec 67 :=
  if step = 0 then 0
  else if step ≤ 4 then BitVec.ofNat 67 (0xFFFF * 2 ^ (16 * (step - 1)))
  else if step = 5 then BitVec.ofNat 67 (2 ^ 65)
  else if step = 6 then BitVec.ofNat 67 (2 ^ 66)
  else if step = 7 then BitVec.ofNat 67 (2 ^ 64)
  else 0

/-- Cores that the update has reached. -/
def updateReached (step : Nat) : BitVec 67 :=
  (List.range step).foldl (fun m k => m ||| updateCores (k + 1)) 0

/-- Set QUAY_CC_STATUS.STATE of every quay, by its core. -/
def State.setCc (s : State) (f : Nat → Nat → Nat) : State :=
  (List.range 64).foldl (fun s q => s.updQuay q (fun x => { x with ccState := BitVec.ofNat 4 (f q x.ccState.toNat) })) s

/-- A quay's core runs again: its tiles are judged afresh, and their chains of
descriptors go on (R598, 17 R534). -/
def State.resumeQuay (s : State) (q : Nat) : State :=
  if !s.coreRuns q then s
  else
    ((List.range 64).map (fun i => 64 * q + i)).foldl (fun s t =>
      if (Table.find s.tiles t).isNone then s
      else
        let s := s.updTile t (fun x =>
          { x with lastProgress := s.time, errTimes := [], abortAt := x.abortAt.map (fun _ => s.time) })
        let x := s.tile t
        if x.job.isSome ∧ x.unitEnded.isNone ∧ !x.startHeld then
          let s := s.loadNext t
          let y := s.tile t
          if y.mode = .idle ∧ y.pendValid ∧ !x.pendValid then s.startPending t false else s
        else s) s

/-- The stall timers of all graphs start again. -/
def State.releaseStalls (s : State) : State :=
  { s with graph := { s.graph with
    graphs := Table.mapV s.graph.graphs (fun _ (g : GraphRun) => { g with lastEvent := s.time }) } }

/-- Answer the command of a core whose work has begun. -/
def State.finishBegun (s : State) (core code : Nat) (st : Status) : State :=
  let q := s.coreQ core
  let begun (a : Admitted) : Bool := a.started && msgCode a.msg.toNat == code
  match q.queue.find? begun with
  | none => s
  | some a =>
    let q := { q with queue := dropFirst begun q.queue
                      times := (s.time - max a.at_ q.lastDone) :: q.times.take 63, lastDone := s.time }
    let s := s.setCoreQ core q.distribute
    if a.mute then s else s.answer a.issuer (response a.msg.toNat st 0 [] [])

/-- A live update rolls back (R601): the cores it had reached run the former image
again, but for those in `dead`. -/
def State.rollBack (s : State) (dead : BitVec 67) : State :=
  let stopped := s.fw.stopped &&& ~~~(updateReached s.fw.step) ||| (dead &&& updateReached s.fw.step)
  -- cores held in reset since the load have not stopped on fault (R597)
  let held := (List.range 64).foldl (fun (m : BitVec 67) q =>
    if (s.quay q).ccState = 0 then m ||| BitVec.ofNat 67 (2 ^ q) else m) 0
  let ok := decide (stopped &&& ~~~held = 0)
  let s := s.updFw (fun f =>
    { f with stopped := stopped, switching := 0, step := 0, staged := none, state := if ok then 2 else 4 })
  let s := s.setCc (fun q c => if stopped.getLsbD q then (if c = 0 then 0 else 4) else 2)
  let s := { s with pilot := { s.pilot with frozen := stopped.getLsbD 66 } }
  let s := (s.capture 4 0xFF ST_FW_UPDATE_ROLLBACK).releaseStalls
  let s := (List.range 64).foldl State.resumeQuay s
  s.finishBegun 0 0x0A01 ST_FW_UPDATE_ROLLBACK

/-- CORE_WATCHDOG: a core's watchdog expires (`cause` 2) or it takes a trap it does
not handle (1), and it stops. During a live update that rolls back. -/
def execCoreWatchdog (core cause t : Nat) (s : State) : Out :=
  let s := s.at t
  if 67 ≤ core ∨ !s.coreRuns core then .next s
  else
    let updating := s.fw.state == 3
    let s := s.capture (if cause = 1 then 1 else 2) core ST_FW_CORE_STOPPED
    let s := s.updFw (fun f => { f with stopped := f.stopped ||| BitVec.ofNat 67 (2 ^ core), state := 4 })
    let s := if core < 64 then s.updQuay core (fun x => { x with ccState := 4 }) else s
    let s := s.raise ST_FW_CORE_STOPPED 11 core none 0
    let s := if core < 64 then s.failQuayNodes core
      else if core = 66 then { s with pilot := { s.pilot with frozen := true } }
      else s
    .next (if updating then s.rollBack 0 else s)

/-! ### Images (R594 to R597) -/

def imVer (h : Nat) : Nat := byteField h 4 4
def imHoVer (h : Nat) : Nat := byteField h 0x0A 1
def imHoMin (h : Nat) : Nat := byteField h 0x0B 1
def imSvn (h : Nat) : Nat := byteField h 0x0C 4
def imSize (h : Nat) : Nat := byteField h 0x10 4
def imKey (h : Nat) : Nat := byteField h 0x18 4
def segCore (h k : Nat) : Nat := byteField h (0x20 + 16 * k) 1
def segOff (h k : Nat) : Nat := byteField h (0x24 + 16 * k) 4
def segSize (h k : Nat) : Nat := byteField h (0x28 + 16 * k) 4
def segCrc (h k : Nat) : Nat := byteField h (0x2C + 16 * k) 4

/-- Step 2: the header and its segment table, for a command that gives `size`. -/
def imageOk (h size : Nat) : Bool :=
  let ks := List.range 4
  byteField h 0 3 == 0x902001 && byteField h 3 1 == 0 && byteField h 8 1 == 1 && decide (1 ≤ byteField h 9 1)
    && decide (imHoMin h ≤ imHoVer h) && imSize h == size && decide (4096 ≤ size) && decide (size ≤ 16777216)
    && byteField h 0x14 1 == 4 && byteField h 0x15 3 == 0 && byteField h 0x1C 4 == 0 && byteField h 0x60 64 == 0
    && ks.all (fun k =>
      decide (segCore h k < 4) && byteField h (0x21 + 16 * k) 3 == 0 && decide (0x100 ≤ segOff h k)
        && segOff h k % 256 == 0 && decide (segOff h k + segSize h k ≤ size)
        && decide (segSize h k ≤ (if segCore h k = 3 then 0x60000 else 0x180000))
        && ks.all (fun j => j == k || (segCore h j != segCore h k
          && (decide (segOff h j + segSize h j ≤ segOff h k) || decide (segOff h k + segSize h k ≤ segOff h j)))))

/-- Steps 1 to 5: read the image at host address `a` and check it. -/
def State.readImage (s : State) (a size : Nat) (hostErr : Bool) : Except Status Nat × State :=
  if hostErr then (.error ST_DMA_HOST_ERR, s)
  else
    let (hb, s) := s.hostFetch a 256
    let h := natOfBytes hb
    if !imageOk h size then (.error ST_FW_IMAGE_FMT, s)
    else
      let (im, s) := s.hostFetch a size
      if !Config.sigOk (BitVec.ofNat 32 (imKey h)) (im.take 0xA0 ++ im.drop 0x100) ((im.drop 0xA0).take 96) then
        (.error ST_FW_SIGNATURE, s)
      else if imSvn h < Config.fuseSvn.toNat then (.error ST_FW_ROLLBACK, s)
      else if (List.range 4).all (fun k => crc32c ((im.drop (segOff h k)).take (segSize h k)) == segCrc h k) then
        (.ok h, s)
      else (.error ST_FW_SEG_CRC, s)

/-! ### Loading (R597, R598) -/

/-- Every core runs the staged image but the quay control cores of `bad`, whose
quays go out of service. -/
def State.fwStarted (s : State) (bad : BitVec 64) : State :=
  let s := s.updFw (fun f =>
    { f with image := f.staged, staged := none, state := 2, stopped := bad.zeroExtend 67, switching := 0, step := 0 })
  let s := s.setCc (fun q _ => if bad.getLsbD q then 0 else 2)
  let s := { s with pilot := { s.pilot with frozen := false } }
  let s := ((List.range 64).filter (fun q => bad.getLsbD q)).foldl State.quayOut s
  (List.range 64).foldl State.resumeQuay s.releaseStalls

/-- Commands admitted before a load are lost: they are never served. -/
def State.loseAdmitted (s : State) : State :=
  [0, 1, 2].foldl (fun s core =>
    let q := s.coreQ core
    s.setCoreQ core { q with queue := q.queue.map (fun (a : Admitted) =>
      if core = 0 ∧ msgCode a.msg.toNat = 0x0A00 then a else { a with lost := true }) }) s

/-- FW_LOAD: steps 1 to 5 and the loading of the cores when first issued; re-issued
once the tile test is done (21 R653),
the cores' answers: `bad` are the quay control cores whose CRC fails three times,
`down` that a central core is not ready in time. -/
def execFwLoad (iss : Issuer) (t : Nat) (hostErr : Bool) (bad : BitVec 64) (down : Bool) (s : State) : Out :=
  State.serve iss 0x0A00 t (fun begun m s =>
    if begun then
      if s.fw.step ≠ 6 ∨ s.fw.state ≠ 1 ∨ !s.bring.tileTest then (none, s)
      else if down then
        let s := s.updFw (fun f => { f with state := 0, step := 0, staged := none, stopped := 0 })
        (done ST_FW_START_TIMEOUT, ((s.setCc (fun _ _ => 0)).capture 3 0xFF ST_FW_START_TIMEOUT).releaseStalls)
      else (done 0, s.fwStarted bad)
    else if s.fw.state ≠ 0 ∧ s.fw.state ≠ 4 then (done ST_FW_STATE, s)
    else
      match s.readImage (msgArg m 0) (msgArg m 1) hostErr with
      | (.error e, s) => (done e, s)
      | (.ok h, s) =>
        let s := if s.fw.state = 4 then { s.loseAdmitted with pilot := { s.pilot with frozen := true } } else s
        let s := s.updFw (fun f => { f with state := 1, step := 6, staged := some (BitVec.ofNat 2048 h), switching := 0 })
        (none, s.setCc (fun _ _ => 1))) s

/-! ### Live update (R599 to R601) -/

/-- A step of a live update begins: its cores halt. -/
def State.updateStep (s : State) (step : Nat) : State :=
  let m := updateCores step &&& ~~~s.fw.stopped
  let s := s.updFw (fun f => { f with step := step, switching := m })
  let s := s.setCc (fun q c => if m.getLsbD q then 3 else c)
  if step = 6 then { s with pilot := { s.pilot with frozen := true } } else s

/-- The cores of the present step are ready: the next step, or commit. -/
def State.updateReady (s : State) : State :=
  let m := s.fw.switching
  let s := (s.updFw (fun f => { f with switching := 0 })).setCc (fun q c => if m.getLsbD q then 2 else c)
  let s := if s.fw.step = 6 then { s with pilot := { s.pilot with frozen := false } } else s
  let s := ((List.range 64).filter (fun q => m.getLsbD q)).foldl State.resumeQuay s
  if s.fw.step < 7 then s.updateStep (s.fw.step + 1)
  else
    let s := s.updFw (fun f => { f with image := f.staged, staged := none, state := 2, step := 0 })
    ((s.raise ST_FW_UPDATED 0 0 none 0).releaseStalls).finishBegun 0 0x0A01 0

/-- FW_UPDATE: the checks when first issued; re-issued, the answer of the cores of
the present step: ready, or not within the limit, with the cores in `dead` not ready
after the rollback either. -/
def execFwUpdate (iss : Issuer) (t : Nat) (hostErr ready : Bool) (dead : BitVec 67) (s : State) : Out :=
  if s.fw.state = 3 ∧ s.fw.step ≠ 0 then
    let s := s.at t
    .next (if ready then s.updateReady else s.rollBack dead)
  else
    State.serve iss 0x0A01 t (fun begun m s =>
      if begun then (none, s)
      else
        match s.fw.image with
        | none => (done ST_FW_STATE, s)
        | some run =>
          if s.fw.state ≠ 2 then (done ST_FW_STATE, s)
          else
            match s.readImage (msgArg m 0) (msgArg m 1) hostErr with
            | (.error e, s) => (done e, s)
            | (.ok h, s) =>
              let v := imHoVer run.toNat
              if imHoMin h ≤ v ∧ v ≤ imHoVer h then
                let s := s.updFw (fun f => { f with state := 3, staged := some (BitVec.ofNat 2048 h) })
                (none, s.updateStep 1)
              else (done ST_FW_HANDOVER, s)) s

/-! ### Licences (R606 to R609) -/

/-- The first failing check of a licence record. -/
def licCheck (r : List Byte) : Option Status :=
  let w := natOfBytes r
  if byteField w 0 3 ≠ 0x921001 ∨ byteField w 3 1 ≠ 0 ∨ 32 ≤ byteField w 4 4 ∨ byteField w 0x18 8 ≠ 0 then some ST_LIC_FMT
  else if !Config.sigOk (BitVec.ofNat 32 (byteField w 0x14 4)) (r.take 32) (r.drop 32) then some ST_LIC_SIGNATURE
  else if byteField w 8 8 ≠ Config.serial.toNat then some ST_LIC_SERIAL
  else none

/-- FAB_AUTO of the configuration record: start the fabric once firmware
initialisation has ended, in twin-harbour mode once its licence is installed (21
R653). -/
def State.fabAuto (s : State) : State :=
  let auto := (Table.getD s.bring.cfg 0 0).getLsbD 11
  if auto && s.bring.fwInit && (!s.fab.twinMode || s.licences.getLsbD 3) then s.fabStart else s

/-- The features of new licences take effect. -/
def State.licensed (s : State) (new : BitVec 5) : State :=
  let was := s.licences
  let s := { s with licences := was ||| new }
  let joins (p : Nat) : Bool := s.portLicensed p && !({ s with licences := was } : State).portLicensed p
  let s := ((List.range 16).filter joins).foldl (fun s p =>
    let s := s.updPort p (fun x => if x.state = 5 then { x with state := 0 } else x)
    if s.fab.step = 0 then s else s.startPort p) s
  s.fabAuto

/-- LIC_INSTALL. -/
def execLicInstall (iss : Issuer) (t : Nat) (hostErr : Bool) (s : State) : Out :=
  State.serveNow iss 0x0A03 t (fun m s =>
    let n := msgArg m 1
    if n % 128 ≠ 0 ∨ n = 0 ∨ 4096 < n then (done ST_LIC_FMT, s)
    else if hostErr then (done ST_DMA_HOST_ERR, s)
    else
      let (bs, s) := s.hostFetch (msgArg m 0) n
      let rs := (List.range (n / 128)).map (fun i => (bs.drop (128 * i)).take 128)
      match rs.findSome? licCheck with
      | some e => (done e, s)
      | none =>
        let new := rs.foldl (fun (f : Nat) r => f ||| byteField (natOfBytes r) 4 4) 0
        let s := s.licensed (BitVec.ofNat 5 new)
        (reply [s.licences.toNat], s)) s

end Sys2Proof.Machine
end

