-- ==== Sys2Proof/Machine/ResetOps.lean ====
section
/-! DEFINITION. Shared operations of reset: what each kind loses, the sources of a
reset, and the start of a wake (21 R639 to R648, 20 R632). -/

namespace Sys2Proof.Machine

def State.updBring (s : State) (f : Bring → Bring) : State := { s with bring := f s.bring }
def State.updBackup (s : State) (f : Backup → Backup) : State := { s with backup := f s.backup }
def State.updPower (s : State) (f : Power → Power) : State := { s with power := f s.power }
def State.updThermal (s : State) (f : Thermal → Thermal) : State := { s with thermal := f s.thermal }

/-! ### What is lost (R640) -/

/-- Power entry after a loss that is no AUX power-on: the kept fields and the gate. -/
def Power.kept (p : Power) : Power :=
  { Power.reset with
    gateOn := p.gateOn, ramping := p.ramping, pgood := p.pgood, latched := p.latched, retries := p.retries
    thmOff := p.thmOff, vinOk := p.vinOk, hsCause := p.hsCause, rampAt := p.rampAt, retryAt := p.retryAt
    pgoodAt := p.pgoodAt }

/-- The thermal unit after such a loss: the estimator and its levels go on. -/
def Thermal.kept (t : Thermal) : Thermal :=
  { Thermal.reset with
    nodes := t.nodes, dieE := t.dieE, dieW := t.dieW, warn := t.warn, shutAt := t.shutAt, shutdowns := t.shutdowns }

/-- The state after a module reset or, with `rails`, after the rails were off: the
backup domain, the time base, the estimator, the kept fields, the sideband's
addressing and, while the rails stay on, the crash dump store are kept. -/
def State.lose (s : State) (rails : Bool) : State :=
  let b := s.bring
  let i3c := { s.i3c with ibiRsp := false, ibiAlarm := false, alarmSeen := 0, mailbox := false, regStatus := 0,
                          regValue := 0, mbxState := 0, rsp := 0 }
  { State.reset with
    pending := s.pending, time := s.time, onRing := s.onRing, free := s.free, hostMem := s.hostMem
    power := s.power.kept, thermal := s.thermal.kept, backup := s.backup, i3c := i3c
    fw := { Firmware.reset with captures := if rails then [] else s.fw.captures }
    bring := { Bring.reset with
      vaux := b.vaux, vbat := b.vbat, perstN := b.perstN, resetN := b.resetN, stretch := b.stretch
      sources := b.sources, cause := b.cause, failed := b.failed, thmRestart := b.thmRestart, cfg := b.cfg } }

/-- The state right after VAUX has become good: all but the backup domain is at its
reset value, and the time base starts at 0. -/
def State.auxReset (s : State) : State :=
  { State.reset with
    pending := s.pending, free := s.free, hostMem := s.hostMem, backup := s.backup
    bring := { Bring.reset with vbat := s.bring.vbat, perstN := s.bring.perstN, resetN := s.bring.resetN } }

/-! ### Wakes and sources (R639, R641, R642, R648, R650) -/

/-- A wake begins at step 1. -/
def State.startWake (s : State) : State :=
  let b := s.bring
  let s := s.updBackup (fun k =>
    { k with count := BitVec.ofNat 32 (satAdd 32 k.count.toNat 1), cause := BitVec.ofNat 4 b.cause, sources := b.sources })
  s.updBring (fun b =>
    { b with waking := true, wakeStep := 0, tries := 0, stepAt := s.time, outRails := [], refLost := false, failed := false })

/-- CAUSE after sources of these priorities, where no other event gives it. -/
def causeOf (cause : Nat) (sources : BitVec 5) : Nat :=
  if 6 ≤ cause then cause else ((List.range 5).find? (fun n => sources.getLsbD n)).elim cause (· + 1)

/-- A source of priority `prio`, 2 to 5, arrives. During the stretch of a reset it
joins it; else it starts one. The wake begins at once, but after the stretch where a
wake or bring-up was under way. Nothing happens during a thermal shutdown or
without AUX. -/
def State.resetSource (s : State) (prio : Nat) : State :=
  let bitOf : BitVec 5 := BitVec.ofNat 5 (2 ^ (prio - 1))
  if s.thermal.shutAt.isSome || !s.bring.vaux then s
  else if s.bring.stretch.isSome then
    let s := s.updBring (fun b =>
      { b with stretch := some s.time, sources := b.sources ||| bitOf, cause := causeOf b.cause (b.sources ||| bitOf) })
    if s.bring.failed && s.power.pgood then (s.updBring (fun b => { b with cause := 8 })).startWake
    else if s.bring.waking then
      s.updBackup (fun k => { k with cause := BitVec.ofNat 4 s.bring.cause, sources := s.bring.sources })
    else s
  else
    let early := s.bring.waking || (s.power.pgood && !s.bring.ready && !s.bring.failed)
    let cause := if s.bring.failed then 8 else if !s.power.pgood ∧ 6 ≤ s.bring.cause then s.bring.cause else prio
    let s := s.lose s.bring.failed
    let s := s.updBring (fun b => { b with stretch := some s.time, sources := bitOf, cause := cause })
    if s.power.pgood && !early then s.startWake else s

/-- The rails are off: everything they held is lost, and the next wake has this
cause. -/
def State.railsOff (s : State) (cause : Nat) : State :=
  (s.lose true).updBring (fun b => { b with cause := cause, sources := if b.stretch.isSome then b.sources else 0, failed := false })

/-! ### FAULT_N (20 R616, R632, 21 R652) -/

/-- Is FAULT_N asserted? -/
def State.faultN (s : State) : Bool := s.power.latched || s.thermal.shutAt.isSome || s.bring.failed

end Sys2Proof.Machine
end

