-- ==== Sys2Proof/Machine/Power.lean ====
section
/-! DEFINITION. Power entry, power limits, the thermal estimator and its actions,
and the coolant valve (chapter 20). -/

namespace Sys2Proof.Machine

/-! ### The hot-swap gate (R613 to R617) -/

/-- The ramp of R614 starts. -/
def State.startRamp (s : State) : State :=
  s.updPower (fun p => { p with gateOn := true, ramping := true, pgood := false, rampAt := s.time, pgoodAt := none })

/-- GATE_ON: VIN, `vin` mV, has stayed at 39 V or more for 10 ms; after an overvoltage
it has been at or below 60 V for 1 s. -/
def execGateOn (vin t : Nat) (s : State) : Out :=
  let s := s.at t
  let p := s.power
  if !s.bring.vaux || decide (vin < 39000) || (p.hsCause == 4 && !p.gateOn && decide (60000 < vin)) then .next s
  else
    let s := s.updPower (fun p => { p with vinOk := true, vin := BitVec.ofNat 16 vin })
    .next (if p.gateOn || p.latched || p.retryAt.isSome then s else s.startRamp)

/-- PGOOD: the gate is fully on; the wake begins, unless a thermal shutdown runs. -/
def execPgood (t : Nat) (s : State) : Out :=
  let s := s.at t
  if !s.power.ramping then .next s
  else
    let s := s.updPower (fun p => { p with ramping := false, pgood := true, pgoodAt := some s.time })
    .next (if s.thermal.shutAt.isSome || s.bring.failed then s else s.startWake)

/-- The gate is turned off: the rails lose power. -/
def State.gateOff (s : State) (cause wake : Nat) : State :=
  let s := s.updPower (fun p =>
    { p with gateOn := false, ramping := false, pgood := false, hsCause := BitVec.ofNat 3 cause, pgoodAt := none })
  s.railsOff wake

/-- A short: the gate is latched off for 1 s, or for good after the third retry. -/
def State.hsFault (s : State) (cause : Nat) : State :=
  let last := s.power.retries == 3
  let s := s.updBackup (fun k => { k with shorts := BitVec.ofNat 3 (min 4 (k.shorts.toNat + 1)), latch := k.latch || last })
  (s.gateOff cause 7).updPower (fun p =>
    { p with latched := p.latched || last, retryAt := if last then none else some s.time })

/-- RAMP_TIMEOUT: the ramp is not complete in time. -/
def execRampTimeout (t : Nat) (s : State) : Out :=
  let s := s.at t
  if s.power.ramping ∧ s.power.rampAt + msTicks 23 ≤ s.time then .next (s.hsFault 2) else .next s

/-- HS_SHORT: a monitor of R615 trips: overcurrent (1) or a ramp not followed (2)
while the gate ramps, a short in operation (3) after PGOOD. -/
def execHsShort (cause t : Nat) (s : State) : Out :=
  let s := s.at t
  let p := s.power
  if (p.ramping ∧ (cause = 1 ∨ cause = 2)) ∨ (p.pgood ∧ cause = 3) then .next (s.hsFault cause) else .next s

/-- HS_RETRY: 1 s after a short the ramp is tried again, once VIN is in range (R614). -/
def execHsRetry (t : Nat) (s : State) : Out :=
  let s := s.at t
  match s.power.retryAt with
  | none => .next s
  | some r =>
    if s.power.latched ∨ !s.power.vinOk ∨ s.time < r + msTicks 1000 then .next s
    else .next (s.updPower (fun p => { p with retries := p.retries + 1, retryAt := none })).startRamp

/-- RETRIES_CLEAR: PGOOD has been held for 10 s. -/
def execRetriesClear (t : Nat) (s : State) : Out :=
  let s := s.at t
  match s.power.pgoodAt with
  | none => .next s
  | some g => .next (if g + msTicks 10000 ≤ s.time then s.updPower (fun p => { p with retries := 0 }) else s)

/-- VIN_UNDERVOLTAGE: VIN has been below 37.5 V for 100 µs. -/
def execVinUndervoltage (vin t : Nat) (s : State) : Out :=
  let s := s.at t
  if 37500 ≤ vin then .next s
  else
    let s := s.updPower (fun p => { p with vinOk := false, vin := BitVec.ofNat 16 vin })
    .next (if s.power.gateOn then s.gateOff 5 9 else s)

/-- VIN_OVERVOLTAGE: VIN exceeds 63 V. -/
def execVinOvervoltage (vin t : Nat) (s : State) : Out :=
  let s := s.at t
  if vin ≤ 63000 then .next s
  else
    let s := s.updPower (fun p => { p with vinOk := false, vin := BitVec.ofNat 16 vin })
    .next (if s.power.gateOn then s.gateOff 4 9 else s)

/-! ### Hardware clamps (R622, R623) -/

/-- HW_POWER_CLAMP: the input power averaged over 100 µs, `w` in 0.1 W, is above the
hardware limit. -/
def execHwPowerClamp (w t : Nat) (s : State) : Out :=
  let s := s.at t
  let p := s.power
  if !p.pgood ∨ w ≤ 10 * p.hwLimit.toNat then .next s
  else if p.clamp = 64 then
    .next ((s.updPower (fun p => { p with clamp := 32, clampAt := s.time })).raise ST_PWR_LIMIT_HW 12 0 none 0)
  else if p.clamp = 32 ∧ p.clampAt + msTicks 1 ≤ s.time then .next (s.updPower (fun p => { p with clamp := 16 }))
  else .next s

/-- HW_POWER_CLAMP_RELEASE: that average has been below 95 % of the limit for 10 ms. -/
def execHwPowerClampRelease (w t : Nat) (s : State) : Out :=
  let s := s.at t
  if 100 * w < 950 * s.power.hwLimit.toNat then .next (s.updPower (fun p => { p with clamp := 64 })) else .next s

/-- INPUT_CURRENT_EMERGENCY: IIN, `i` in 10 mA, has been above ILIM for 1 ms. -/
def execInputCurrentEmergency (i t : Nat) (s : State) : Out :=
  let s := s.at t
  let p := s.power
  if !p.pgood ∨ p.icur ∨ i ≤ 10 * p.ilim.toNat then .next s
  else
    .next ((s.updPower (fun p => { p with icur := true, icurAt := s.time })).raise ST_PWR_INPUT_CURRENT 12 0 none 0)

/-- INPUT_CURRENT_RELEASE: IIN has been below 90 % of ILIM for 10 ms. -/
def execInputCurrentRelease (i t : Nat) (s : State) : Out :=
  let s := s.at t
  if i < 9 * s.power.ilim.toNat then .next (s.updPower (fun p => { p with icur := false })) else .next s

/-! ### The estimator (R625, R626) -/

/-- One step of a state towards R × P (in 10^−9 °C), by a factor in 10^−12. -/
def thermStep (x rp k : Int) : Int := x + (rp - x) * k / 1000000000000

/-- Die of a node: east (0) or west; the central domain counts as east. -/
def nodeDie (i : Nat) : Nat := if i < 64 then i / 32 else if i = 64 then 0 else (i - 65) / 6

/-- R in m°C/W and factor of the fast and of the slow state of a node. -/
def nodeConst (i : Nat) : Int × Int × Int × Int :=
  if i < 64 then (1400, 48770575499, 900, 666444494)
  else if i = 64 then (200, 48770575499, 120, 666444494)
  else (300, 19801326693, 450, 249968753)

/-- Coolant temperature in 10^−9 °C: a failed inlet reads 50 °C, a failed outlet as the
inlet. -/
def State.coolant (s : State) : Int :=
  let t := s.thermal
  let tin : Int := if t.inFail then 50000000000 else sext 16 t.inlet.toNat * 62500000
  let tout : Int := if t.outFail then tin else sext 16 t.outlet.toNat * 62500000
  max ((tin + tout) / 2) (tin + (s.power.pin.toNat * 60000000000 : Int) / (78 * s.flow))

/-- Power of a rail in 10 µW. -/
def railPower (m : Measured) (n : Nat) : Int := ((m.rails[n]?).map (fun x => (x.1 * x.2 : Int))).getD 0

/-- Power of a node in 10 µW; none while the rails are off. -/
def State.nodePower (s : State) (m : Measured) (i : Nat) : Int :=
  if s.thermal.shutAt.isSome then 0
  else if i < 64 then 1000 * (((m.quays[i]?).getD 0 : Nat) : Int)
  else if i = 64 then railPower m 66
  else railPower m (67 + (i - 65)) + railPower m (79 + nodeDie i) / 6

/-- The measured registers. -/
def State.measure (s : State) (m : Measured) : State :=
  let table (f : Nat → Nat) (n : Nat) : Table (BitVec 32) := (List.range n).map (fun i => (i, BitVec.ofNat 32 (f i)))
  s.updPower (fun p =>
    { p with
      vin := BitVec.ofNat 16 m.vin, iin := BitVec.ofNat 16 m.iin, pin := BitVec.ofNat 16 m.pin
      energy := p.energy + BitVec.ofNat 64 m.energy
      rails := table (fun i => ((m.rails[i]?).map (fun x => x.1 % 65536 + 65536 * min 65535 x.2)).getD 0) 85
      qe := table (fun i => (Table.getD p.qe i 0).toNat + (m.quays[i]?).getD 0) 64 })

/-- New states and estimates of every node. -/
def State.estimate (s : State) (m : Measured) : State :=
  let pw := (List.range 77).map (s.nodePower m)
  let die (d : Nat) : Int := (((List.range 77).zip pw).filter (fun x => nodeDie x.1 == d)).foldl (fun (a : Int) x => a + x.2) 0
  let dE := thermStep s.thermal.dieE (25 * 10 * die 0) 49998750
  let dW := thermStep s.thermal.dieW (25 * 10 * die 1) 49998750
  let tc := s.coolant
  let node (i : Nat) (p : Int) : ThermNode :=
    let x := s.thermNode i
    let (rf, kf, rs, ks) := nodeConst i
    let f := thermStep x.fast (rf * 10 * p) kf
    let w := thermStep x.slow (rs * 10 * p) ks
    { x with fast := f, slow := w, temp := tc + f + w + (if nodeDie i = 0 then dE else dW) }
  s.updThermal (fun t => { t with nodes := ((List.range 77).zip pw).map (fun x => (x.1, node x.1 x.2)), dieE := dE, dieW := dW,
                                  flow := BitVec.ofNat 16 s.flow })

/-- °C in the estimator's unit. -/
def celsius (n : Int) : Int := n * 1000000000

/-- Thermal shutdown (R632 steps 1 and 2). -/
def State.thermalShutdown (s : State) : State :=
  let s := (s.updThermal (fun t =>
    { t with shutAt := some s.time, shutdowns := BitVec.ofNat 16 (satAdd 16 t.shutdowns.toNat 1) })).railsOff 6
  (s.updPower (fun p => { p with thmOff := true })).updBackup (fun k => { k with cause := 6 })

/-- Compare the estimates with the thresholds (R628). -/
def State.thresholds (s : State) : State :=
  let all (p : Int → Bool) : Bool := s.thermal.nodes.all (fun (n : Nat × ThermNode) => p n.2.temp)
  if s.thermal.shutAt.isNone && s.thermal.nodes.any (fun (n : Nat × ThermNode) => decide (celsius 110 ≤ n.2.temp)) then
    s.thermalShutdown
  else
    let hot := s.thermal.nodes.any (fun (n : Nat × ThermNode) => decide (celsius 95 ≤ n.2.temp))
    let warn := hot || (s.thermal.warn && !all (fun x => decide (x ≤ celsius 90)))
    let new (n : Nat × ThermNode) : ThermNode :=
      let x := n.2
      { x with
        throttled := decide (celsius 100 ≤ x.temp) || (x.throttled && decide (celsius 97 < x.temp))
        backstop := n.1 != 64 && (decide (celsius 105 ≤ x.temp) || (x.backstop && decide (celsius 100 < x.temp))) }
    let old := s.thermal.nodes
    let nodes := old.map (fun (n : Nat × ThermNode) => (n.1, new n))
    let was := s.thermal.warn
    let wasThr := old.any (fun (n : Nat × ThermNode) => n.2.throttled)
    let isThr := nodes.any (fun (n : Nat × ThermNode) => n.2.throttled)
    let backs := (old.filter (fun (n : Nat × ThermNode) => !n.2.backstop && (new n).backstop)).map Prod.fst
    let s := s.updThermal (fun t => { t with nodes := nodes, warn := warn })
    if s.thermal.shutAt.isSome then s
    else
      let s := if warn && !was then s.raise ST_THM_WARN 0 0 none 0 else s
      let s := if isThr && !wasThr then s.raise ST_THM_THROTTLE 0 0 none 0 else s
      backs.foldl (fun s i =>
        if i < 64 then s.raise ST_THM_BACKSTOP 1 i none 0 else s.raise ST_THM_BACKSTOP 3 (i - 65) none 0) s

/-- ESTIMATOR_UPDATE: every 100 µs. -/
def execEstimatorUpdate (m : Measured) (t : Nat) (s : State) : Out :=
  .next (((s.at t).measure m).estimate m).thresholds

/-- THM_RESTART: 30 s after a shutdown began every node is below 80 °C; a wake
begins, and its events follow it. -/
def execThmRestart (t : Nat) (s : State) : Out :=
  let s := s.at t
  match s.thermal.shutAt with
  | none => .next s
  | some a =>
    let cool := s.thermal.nodes.all (fun (n : Nat × ThermNode) => decide (n.2.temp < celsius 80))
    if !cool ∨ s.time < a + msTicks 30000 then .next s
    else
      let s := s.updThermal (fun x => { x with shutAt := none })
      let s := (s.updPower (fun p => { p with thmOff := false })).updBring (fun b => { b with thmRestart := true, cause := 6 })
      .next (if s.power.pgood then s.startWake else s)

/-- COOLANT_SENSOR_READ: the readings in 1/16 °C, every 10 ms (R626). -/
def execCoolantSensorRead (inlet outlet : Int) (t : Nat) (s : State) : Out :=
  let s := s.at t
  let bad (v : Int) : Bool := decide (v < -160) || decide (1600 < v)
  let old := s.thermal
  let s := s.updThermal (fun x =>
    { x with inlet := BitVec.ofInt 16 inlet, outlet := BitVec.ofInt 16 outlet, inFail := bad inlet, outFail := bad outlet })
  let s := if bad inlet && !old.inFail then s.raise ST_COOL_SENSOR 12 0 none 0 else s
  .next (if bad outlet && !old.outFail then s.raise ST_COOL_SENSOR 12 0 none 0 else s)

/-! ### Limits held by the power-management core (R620, R621, R624, R630) -/

/-- Quays in service that are not parked. -/
def State.livePace (s : State) : List Nat :=
  (List.range 64).filter (fun q => (s.quay q).inService && !(s.quay q).parked)

/-- Change the limits of a quay and apply them. -/
def State.updLimits (s : State) (q : Nat) (f : QuayLimits → QuayLimits) : State :=
  (s.updQuay q (fun x => { x with limits := f x.limits })).applyLimits q

/-- One lowering of the power limit. -/
def QuayLimits.lower (l : QuayLimits) : QuayLimits :=
  let st := min l.pwrStep l.reqStep
  if 10 < st then { l with pwrStep := st - 1 } else { l with pwrStep := 10, pwrIssue := max 4 (min l.pwrIssue l.reqIssue - 4) }

/-- One step back, the issue rate first; once the requested values are reached the
power limit holds nothing. -/
def QuayLimits.restore (l : QuayLimits) : QuayLimits :=
  let l := if l.pwrIssue < min 64 l.reqIssue then { l with pwrIssue := l.pwrIssue + 4 }
    else if l.pwrStep < l.reqStep then { l with pwrStep := l.pwrStep + 1 } else l
  { l with pwrIssue := if l.reqIssue ≤ l.pwrIssue then 64 else l.pwrIssue
           pwrStep := if l.reqStep ≤ l.pwrStep then 70 else l.pwrStep }

/-- SOFT_LIMIT_TICK: each ms. -/
def execSoftLimitTick (t : Nat) (s : State) : Out :=
  let s := s.at t
  let p := s.power
  if !s.coreRuns 65 then .next s
  else if 10 * p.softLimit.toNat < p.pin.toNat then
    let s := s.updPower (fun p => { p with lowMs := 0 })
    .next (s.livePace.foldl (fun s q => s.updLimits q QuayLimits.lower) s)
  else if 100 * p.pin.toNat < 970 * p.softLimit.toNat then
    let s := s.updPower (fun p => { p with lowMs := p.lowMs + 1 })
    .next (if 10 ≤ s.power.lowMs then s.livePace.foldl (fun s q => s.updLimits q QuayLimits.restore) s else s)
  else .next (s.updPower (fun p => { p with lowMs := 0 }))

/-- The factor of R630 at a temperature, in 10^−10. -/
def throttleFactor (temp : Int) : Int := max 1000000000 (min 10000000000 (10000000000 - (temp - celsius 100)))

/-- Thermal step and issue rate of a factor and a requested step. -/
def thermalLimits (f : Int) (req : Nat) : Nat × Nat :=
  let k : Int := f * (kvOf (stepMv req) : Int)
  let fits (v : Nat) : Bool := decide ((kvOf (stepMv v) : Int) * 10000000000 ≤ k)
  match ((List.range 61).map (70 - ·)).find? fits with
  | some v => (v, 64)
  | none => (10, max 1 (64 * k / (10000000000 * (kvOf (stepMv 10) : Int))).toNat)

/-- The factor that applies to a quay: its own in throttle, and on the east die that
of the central node if it is lower. -/
def State.quayFactor (s : State) (q : Nat) : Option Int :=
  let own := if (s.thermNode q).throttled then some (throttleFactor (s.thermNode q).temp) else none
  let cen := if (s.thermNode 64).throttled ∧ q < 32 then some (throttleFactor (s.thermNode 64).temp) else none
  match own, cen with
  | some a, some b => some (min a b)
  | some a, none => some a
  | none, x => x

/-- A limit moves to its target: down at once, up by one a millisecond. -/
def riseTo (now target : Nat) : Nat := if target ≤ now then target else now + 1

/-- THROTTLE_TICK: each ms. -/
def execThrottleTick (t : Nat) (s : State) : Out :=
  let s := s.at t
  if !s.coreRuns 65 then .next s
  else
    let s := (List.range 64).foldl (fun s q =>
      s.updLimits q (fun l =>
        let (st, is) := match s.quayFactor q with
          | some f => thermalLimits f l.reqStep
          | none => (70, 64)
        { l with thmStep := riseTo l.thmStep st, thmIssue := riseTo l.thmIssue is })) s
    .next ((List.range 12).foldl (fun s n =>
      let x := s.thermNode (65 + n)
      let was := min 64 (Table.getD s.thermal.duty n 0x40#7).toNat
      let d := if x.throttled then max 1 (64 * throttleFactor x.temp / 10000000000).toNat else riseTo was 64
      s.updThermal (fun y => { y with duty := Table.put y.duty n (BitVec.ofNat 7 d) })) s)

/-! ### The valve (R633 to R635) -/

/-- The automatic target in percent. -/
def State.autoValve (s : State) : Nat :=
  let tj := (s.thermNode s.hotNode).temp
  (max 20 (min 100 (30 + 5 * (tj - celsius 75) / 1000000000))).toNat

/-- The target of R634. -/
def State.valveTarget (s : State) : Nat :=
  if s.valveForced then 100
  else if s.thermal.mode then min 100 s.thermal.position.toNat
  else s.thermal.autoTarget

/-- VALVE_TICK: the feedback reads `fb` percent; the command moves towards its target
at 20 % a second, in whole percent. -/
def execValveTick (fb t : Nat) (s : State) : Out :=
  let s := s.at t
  let s := if s.thermal.targetAt + msTicks 100 ≤ s.time then
      s.updThermal (fun x => { x with autoTarget := s.autoValve, targetAt := s.time })
    else s
  let fb := min 100 fb
  let goal := s.valveTarget
  let x := s.thermal
  let cmd := x.cmd.toNat
  let n := (s.time - x.valveAt) / msTicks 50
  let cmd' := if cmd < goal then min goal (cmd + n) else max goal (cmd - n)
  let moved := (cmd - cmd') + (cmd' - cmd)
  let off := (cmd' - fb) + (fb - cmd')
  let since (c : Bool) (o : Option Nat) : Option Nat := if c then some (o.getD s.time) else none
  let near := since (decide (off ≤ 5)) x.nearSince
  let clear := match near with
    | some a => decide (a + msTicks 1000 ≤ s.time)
    | none => false
  .next (s.updThermal (fun x =>
    { x with
      cmd := BitVec.ofNat 7 cmd', valveAt := if cmd' = goal then s.time else x.valveAt + msTicks 50 * moved
      fb := BitVec.ofNat 7 fb, fbLost := false, offSince := since (decide (10 < off)) x.offSince
      nearSince := near, stuck := x.stuck && !clear }))

/-- The valve becomes stuck: one event for each entry. -/
def State.valveStuck (s : State) : State :=
  if s.thermal.stuck then s
  else (s.updThermal (fun x => { x with stuck := true })).raise ST_VALVE_STUCK 12 0 none 0

/-- VALVE_FB_LOST: the feedback is out of range, or without edges for 50 ms. -/
def execValveFbLost (t : Nat) (s : State) : Out :=
  .next ((s.at t).valveStuck.updThermal (fun x => { x with fbLost := true, nearSince := none }))

/-- VALVE_STUCK: the feedback has been more than 10 % off for 8 s. -/
def execValveStuck (t : Nat) (s : State) : Out :=
  let s := s.at t
  match s.thermal.offSince with
  | none => .next s
  | some a => .next (if a + msTicks 8000 ≤ s.time then s.valveStuck else s)

/-! ### Mailbox commands (18 R587) -/

/-- PACE_SET: requested values for the quays of a mask; the values applied are the
lowest over those quays. -/
def execPaceSet (iss : Issuer) (t : Nat) (s : State) : Out :=
  State.serveNow iss 0x0900 t (fun m s =>
    let qs := (List.range 64).filter (fun q => bit (msgArg m 0) q)
    let st := stepClamp (msgArg m 1)
    let is := if msgArg m 2 = 0 then 1 else min 64 (msgArg m 2)
    let clamped : Bool := st != msgArg m 1
    let s := qs.foldl (fun s q =>
      let s := if clamped then s.updPace q (fun p => { p with vsetClamped := true }) else s
      s.requestPace q st is) s
    let s := if clamped then s.raise ST_VSET_CLAMPED 12 0 none 0 else s
    let ls := qs.map (fun q => (s.quay q).limits)
    let aSt := (ls.map (fun l => min l.pwrStep l.thmStep)).foldl min st
    let aIs := (ls.map (fun l => min l.pwrIssue l.thmIssue)).foldl min is
    (reply [aSt, aIs], s)) s

def execPwrLimit (iss : Issuer) (t : Nat) (s : State) : Out :=
  State.serveNow iss 0x0901 t (fun m s =>
    let w := max 300 (min s.power.hwLimit.toNat (msgArg m 0))
    (reply [w], s.updPower (fun p => { p with softLimit := BitVec.ofNat 11 w }))) s

def execThmRead (iss : Issuer) (t : Nat) (s : State) : Out :=
  State.serveNow iss 0x0902 t (fun _ s =>
    (reply [sixteenths (s.thermNode s.hotNode).temp, s.thermal.inlet.toNat, s.thermal.outlet.toNat,
            s.power.pin.toNat / 10, s.thermal.fb.toNat, s.thermLevel], s)) s

def execValveSet (iss : Issuer) (t : Nat) (s : State) : Out :=
  State.serveNow iss 0x0903 t (fun m s =>
    if 2 ≤ msgArg m 0 then (done ST_MBX_ARG, s)
    else
      (done 0, s.updThermal (fun x =>
        { x with mode := msgArg m 0 == 1, position := BitVec.ofNat 7 (min 100 (msgArg m 1)) }))) s

end Sys2Proof.Machine
end

