-- ==== Sys2Proof/Machine/Logbook.lean ====
section
/-! DEFINITION. The logbook's commands: starting, marking and stopping a
recording, and replay (17 R547 to R555). -/

namespace Sys2Proof.Machine

def State.updLog (s : State) (f : Logbook → Logbook) : State := { s with log := f s.log }

/-! ### The header (R547) -/

/-- CONFIG_SUM: CRC-64 of the configuration record, 32 bytes (21 R649). -/
def State.configSum (s : State) : Nat :=
  crc64 ((List.range 8).flatMap (fun i => bytesOfNat 4 (Table.getD s.bring.cfg i 0).toNat))

/-- MAP_SUM: CRC-64 over s, P_σ, BASE_σ, CHLIST and the quays in service. How
these are laid out as bytes is open. -/
def State.mapSum (s : State) : Nat :=
  let quays := ((List.range 64).filter (fun q => (s.quay q).inService)).foldl (fun (m : Nat) q => m + 2 ^ q) 0
  crc64 (Config.mapBytes ([s.tiers.spread] ++ (List.range 12).map s.pcCount
    ++ (List.range 12).map s.stackBase ++ [s.tiers.chIn.toNat, quays]))

/-- Write the whole header. -/
def State.logWriteHeader (s : State) : State :=
  let s := s.resvWrite 128 (s.resv 6).1
    (bytesOfNat 3 0x720801 ++ bytesOfNat 1 0 ++ bytesOfNat 4 s.fwVer ++ bytesOfNat 8 Config.serial.toNat
      ++ bytesOfNat 8 s.configSum ++ bytesOfNat 8 s.mapSum ++ bytesOfNat 32 0)
  s.logHeader

/-! ### Marks (R552) -/

/-- Nothing is in flight: no graph, chain, DMA list, serving step, spill or remote
request. -/
def State.quiescent (s : State) : Bool :=
  s.graph.entries.isEmpty && s.graph.graphs.isEmpty && s.graph.preempt.isNone && s.stks.chains.isEmpty
    && s.dma.ctxs.isEmpty && s.dma.waiting.isEmpty && s.serving.inFlight.isEmpty && s.fab.reqs.isEmpty

/-- Write the running run of every point. -/
def State.logFlushAll (s : State) : State := (s.log.points.map (·.1)).foldl (fun s p => s.logFlush p) s

/-- Write a quiescent MARK with the DIGESTs of the input points. -/
def State.logMark (s : State) : State :=
  let s := s.logFlushAll
  let n := s.log.nextRec
  let s := s.logPut (4 + 2 ^ 20 + 2 ^ 64 * (s.time % 2 ^ 64))
  let s := if s.log.nextRec = n + 1 then
      s.updLog (fun l => { l with lastMark := n, marks := n :: l.marks })
    else s
  ((s.logDigest 0x800).logDigest 0x801).logDigest 0x802

/-- Recording begins anew. -/
def State.logBegin (s : State) (wrap : Bool) : State :=
  (s.updLog (fun l => { l with
    recording := true, wrap := wrap, first := 0, nextRec := 0, lastMark := 0, gaps := 0, marks := [],
    points := [] })).logWriteHeader

/-- Send a mark to every other berth of the harbour as a Birouran request on the
management virtual channel. -/
def State.sendMarks (s : State) (code wrap : Nat) : State :=
  let c := ((cmdOf code).map (·.args)).getD []
  let vals := if code = 0x0800 then [wrap, 0] else [0]
  let (os, e) := fieldOffsets c 0x10
  let body := ((os.zip c).zip vals).foldl (fun (m : Nat) (x : (Nat × Nat) × Nat) =>
    setBits m (8 * x.1.1) (8 * x.1.2) x.2) 0
  let msg := 1 + 2 ^ 8 * msgLen e + 2 ^ 16 * 0x80 + 2 ^ 32 * code + body
  (List.range 8192).foldl (fun s b =>
    if !s.isSelf s.ownHarbour b && s.reachable b then s.sendPacket (s.mgtPacket s.ownHarbour b msg) else s) s

/-- Begin a mark: the reading of hardware queues stops. -/
def State.beginMark (s : State) (iss : Issuer) (start wrap harbour : Bool) : State :=
  let m : MarkWait := { start := start, since := s.time, wrap := wrap, issuer := some iss }
  let s := s.updLog (fun l => { l with mark := some m, paused := true })
  if harbour then s.sendMarks (if start then 0x0800 else 0x0802) (b2n wrap) else s

/-- The mark ends: reading resumes, and its command is answered. -/
def State.endMark (s : State) (m : MarkWait) (t : Nat) (st : Status) (vals : List Nat) : Out :=
  let s := s.updLog (fun l => { l with mark := none, paused := false })
  match m.issuer with
  | some iss => State.serve iss (if m.start then 0x0800 else 0x0802) t (fun _ _ s => (some (st, vals), s)) s
  | none => .next s

def execLogStart (iss : Issuer) (t : Nat) (s : State) : Out :=
  if s.log.mark.isSome then .next (s.at t)
  else
    State.serve iss 0x0800 t (fun _ m s =>
      if 2 ≤ msgArg m 0 ∨ 2 ≤ msgArg m 1 ∨ (s.resv 6).2 = 0 ∨ s.replaying then (done ST_MBX_ARG, s)
      else (none, s.beginMark iss true (msgArg m 0 == 1) (msgArg m 1 == 1))) s

def execLogMark (iss : Issuer) (t : Nat) (s : State) : Out :=
  if s.log.mark.isSome then .next (s.at t)
  else
    State.serve iss 0x0802 t (fun _ m s =>
      if 2 ≤ msgArg m 0 ∨ !s.log.recording then (done ST_MBX_ARG, s)
      else (none, s.beginMark iss false false (msgArg m 0 == 1))) s

/-- LOG_STOP: the runs of every point are written, and recording stops. -/
def execLogStop (iss : Issuer) (t : Nat) (s : State) : Out :=
  State.serveNow iss 0x0801 t (fun _ s =>
    let s := if s.log.recording then
        ((s.logFlushAll).updLog (fun l => { l with recording := false })).logHeader
      else s
    (reply [s.log.nextRec], s)) s

/-- MARK_QUIESCENT. -/
def execMarkQuiescent (t : Nat) (s : State) : Out :=
  let s := s.at t
  match s.log.mark with
  | none => .next s
  | some m =>
    if !s.quiescent then .next s
    else
      let s := if m.start then s.logBegin m.wrap else s
      let s := s.logMark
      s.endMark m t 0 [s.log.lastMark]

/-- MARK_TIMEOUT. -/
def execMarkTimeout (t : Nat) (s : State) : Out :=
  let s := s.at t
  match s.log.mark with
  | none => .next s
  | some m =>
    if s.time < m.since + msTicks 1000 ∨ s.quiescent then .next s
    else s.endMark m t ST_LOG_NOT_QUIESCENT []

/-- LOG_FULL: recording meets the end of the ring (R551). -/
def execLogFull (s : State) : Out := .next (if s.logIsFull then s.logFull else s)

/-! ### Replay (R553 to R555) -/

/-- RKIND, POINT and the ordinal of a record. -/
def recKind (r : Nat) : Nat := bits r 0 4
def recPoint (r : Nat) : Nat := bits r 4 16
def recSeq (r : Nat) : Nat := bits r 20 44

/-- The records from index `a` up to NEXT; none where one cannot be read. -/
def State.logRecords (s : State) (a : Nat) : List (Option Nat) :=
  (List.range (s.log.nextRec - a)).map (fun i => s.logRecord (a + i))

/-- Where each point stands at the MARK: the ordinal of its first decision after it,
and the digests written with it. -/
def replayPoints : List (Option Nat) → Table LogPoint → Table LogPoint
  | [], t => t
  | none :: rs, t => replayPoints rs t
  | some r :: rs, t =>
    let p := recPoint r
    if (Table.find t p).isSome then replayPoints rs t
    else if recKind r = 2 then
      replayPoints rs (Table.put t p { LogPoint.fresh with iseq := recSeq r, digest := BitVec.ofNat 64 (bits r 64 64) })
    else if recKind r = 1 ∨ recKind r = 3 ∨ recKind r = 6 then
      replayPoints rs (Table.put t p { LogPoint.fresh with pseq := recSeq r })
    else replayPoints rs t

/-- REPLAY_START: the logbook's header must fit this module, and the MARK named must
be a quiescent one held, with no GAP after it. -/
def execReplayStart (iss : Issuer) (t : Nat) (s : State) : Out :=
  State.serveNow iss 0x0803 t (fun m s =>
    let n := msgArg m 0
    match s.readMem (s.resv 6).1 64 with
    | none => (done ST_MBX_ARG, s)
    | some bs =>
      let h := natOfBytes bs
      if (s.resv 6).2 = 0 ∨ s.log.recording ∨ s.replaying ∨ byteField h 0 3 ≠ 0x720801 then (done ST_MBX_ARG, s)
      else if byteField h 0x18 8 ≠ s.mapSum ∨ byteField h 0x10 8 ≠ s.configSum ∨ byteField h 4 4 ≠ s.fwVer then
        (done ST_REPLAY_CONFIG, s)
      else
        let l : Logbook := { s.log with
          first := byteField h 0x20 8, nextRec := byteField h 0x28 8, lastMark := byteField h 0x30 8
          gaps := BitVec.ofNat 32 (byteField h 0x38 4), wrap := bit (byteField h 3 1) 0 }
        let s1 := { s with log := l }
        let rs := s1.logRecords n
        let isMark : Bool := ((s1.logRecord n).map (fun r => recKind r == 4 && bit r 20)).getD false
        let gap : Bool := rs.any (fun (r : Option Nat) => (r.map (fun x => recKind x == 5)).getD true)
        if n < l.first ∨ l.nextRec ≤ n ∨ !isMark ∨ gap then (done ST_MBX_ARG, s)
        else
          (done 0, s1.updLog (fun l => { l with
            replayFrom := some n, replayPos := n, held := false, points := replayPoints rs [] }))) s

/-- Replay ends or is stopped: hardware queues are disabled, ST_REPLAY_END is raised
and the state is held for reading until reset. -/
def State.replayEnd (s : State) : State :=
  let s := { s with graph := { s.graph with
    queues := Table.mapV s.graph.queues (fun _ (q : HwQueue) => { q with enabled := false }) } }
  (s.raise ST_REPLAY_END 0 0 none 0).updLog (fun l => { l with held := true, replayPos := l.nextRec })

/-- Has a record's decision been taken again? -/
def State.replayPast (s : State) (r : Nat) : Bool :=
  let x := s.point (recPoint r)
  if recKind r = 1 then decide (recSeq r + bits r 80 16 < x.pseq)
  else if recKind r = 2 then decide (recSeq r ≤ x.iseq)
  else if recKind r = 3 ∨ recKind r = 6 then decide (recSeq r < x.pseq)
  else true

/-- REPLAY_END: every record up to NEXT has been replayed. -/
def execReplayEnd (t : Nat) (s : State) : Out :=
  let s := s.at t
  match s.log.replayFrom with
  | none => .next s
  | some from_ =>
    if s.log.held then .next s
    else if (s.logRecords from_).all (fun (r : Option Nat) => (r.map s.replayPast).getD true) then .next s.replayEnd
    else .next s

def execReplayStop (iss : Issuer) (t : Nat) (s : State) : Out :=
  State.serveNow iss 0x0804 t (fun _ s =>
    if s.replaying then (done 0, if s.log.held then s else s.replayEnd) else (done ST_MBX_ARG, s)) s

/-- REPLAY_DIVERGED: point `p` has held requesters since tick `since` without its
recorded winner. -/
def execReplayDiverged (p since t : Nat) (s : State) : Out :=
  let s := s.at t
  if !s.replaying || s.log.held || decide (s.time < since + msTicks 1000) then .next s
  else
    .next ((s.raise ST_REPLAY_DIVERGED 0 0 none (p + 2 ^ 32 * ((s.point p).pseq % 2 ^ 32))).updLog
      (fun l => { l with held := true }))

/-- REPLAY_INPUT_MISMATCH: the running digest of an input point differs from the
DIGEST record of as many inputs. -/
def execReplayInputMismatch (p : Nat) (s : State) : Out :=
  match s.log.replayFrom with
  | none => .next s
  | some from_ =>
    let x := s.point p
    let differs := (s.logRecords from_).any (fun (r : Option Nat) =>
      (r.map (fun v => recKind v == 2 && recPoint v == p && recSeq v == x.iseq
        && bits v 64 64 != x.digest.toNat)).getD false)
    if s.log.held ∨ !differs then .next s
    else
      .next ((s.raise ST_REPLAY_INPUT_MISMATCH 0 0 none (p + 2 ^ 32 * (x.iseq % 2 ^ 32))).updLog
        (fun l => { l with held := true }))

end Sys2Proof.Machine
end

