-- ==== Sys2Proof/Machine/MemCmds.lean ====
section
/-! DEFINITION. The commands of the memory tiers: merge retirement, write-back,
refresh, calibration, retraining, scrubbing and leaks (chapters 10 and 11). -/

namespace Sys2Proof.Machine

/-! ### Decoded reads -/

/-- Read a range in one region through the decoders of its home. `errs` gives, by the
address of an atom or word, the symbols found wrong with the bits changed; in a
tile memory each listed symbol below 72 is one flipped bit and a symbol from 72 on
an address mismatch. The answer is the data or the first bad address. -/
def State.decodedRead (s : State) (a n : Nat) (errs : List (Nat × Nat × Nat)) :
    (Except Nat (List Byte)) × State :=
  let mine (i : Nat) : List (Nat × Nat) := (errs.filter (fun e => e.1 == i)).map (fun e => e.2)
  let u := s.unitBytes a
  let rec go : Nat → Nat → List Byte → Option Nat → State → (Except Nat (List Byte)) × State
    | 0, _, acc, bad, s =>
      (match bad with
       | some x => .error x
       | none => .ok acc, s)
    | k + 1, at_, acc, bad, s =>
      let (o, s) := match s.region a with
        | .tier1 | .tier2 => s.readAtom at_ (mine at_)
        | .spad t | .sdm t =>
          let m := mine at_
          s.readWord t at_ u (m.filter (fun e => decide (e.1 < 72))).length
            (m.any (fun e => decide (72 ≤ e.1)))
        | _ => (none, s)
      match o with
      | some bs => go k (at_ + u) (acc ++ bs) bad s
      | none => go k (at_ + u) acc (some (bad.getD at_)) s
  if n = 0 then (.ok [], s)
  else
    let first := a / u * u
    match go ((a + n - 1) / u - a / u + 1) first [] none s with
    | (.ok bs, s) => (.ok ((bs.drop (a - first)).take n), s)
    | (.error x, s) => (.error x, s)

/-- The response to an access. -/
def State.memRespond (s : State) (st : Status) (addr : Nat) (data : List Byte) : State :=
  { s with resp := { status := st, addr := addr, data := data } }

/-- The first uncorrectable atom or word of a range (11 R360). -/
def State.firstBad (s : State) (a n : Nat) : Nat :=
  ((s.atomsOf a n).find? (fun x => (Mem.readBytes s.mem x (s.unitBytes a)).isNone)).getD a

/-- Serve the held accesses whose memory is ready, in their order: writes take
effect, reads deliver; one that meets a fenced unit is answered as there (01 R47,
10 R329, R341, R343). -/
def State.serveHeld (s : State) : State :=
  let ready := s.tiers.held.filter (fun h => s.memReady (!h.write) h.addr h.len)
  let s := { s with tiers := { s.tiers with
    held := s.tiers.held.filter (fun h => !s.memReady (!h.write) h.addr h.len) } }
  ready.foldl (fun s h =>
    if h.write then
      (s.writeMem h.addr h.data).memRespond (if s.fencedIn h.addr h.len then ST_MEM_UE else 0) h.addr []
    else
      match s.load h.addr h.len with
      | (some bs, s) => s.memRespond 0 0 bs
      | (none, s) => s.memRespond ST_MEM_UE (s.firstBad h.addr h.len) []) s

/-! ### Merging and write-back -/

/-- MERGE_RETIRE: an entry that has received no write for 1 µs is retired by
read-modify-write (10 R335). -/
def execMergeRetire (atom t : Nat) (s : State) : Out :=
  let s := s.at t
  match s.tiers.merge.find? (fun e => e.atom == atom) with
  | some e => .next (if e.last + usTicks 1 ≤ s.time then s.retire e else s)
  | none => .next s

/-- CE_WRITEBACK: a queued write-back of a corrected atom is performed; a write
that came first has taken it out of the queue (11 R358). -/
def execCeWriteback (atom : Nat) (s : State) : Out :=
  match Table.find s.tiers.writeBacks atom with
  | some d => .next (s.putAtom atom (bytesOfNat (s.unitBytes atom) d.toNat))
  | none => .next s

/-- REFRESH: refresh and interface recalibration take their share of the time of
a unit and change nothing that is stored (10 R330). -/
def execRefresh (_unit : Nat) (s : State) : Out := .next s

/-- DRAM_HOT_CHANGE: a stack's hottest die reads `temp` (1/16 °C): DRAM_HOT is
set above 85 °C and cleared at 82 °C or less; a tier-2 device reports `hot`
(10 R330, R346). -/
def execDramHotChange (t2 : Bool) (n temp : Nat) (hot : Bool) (s : State) : Out :=
  if t2 then .next (s.updChan n (fun c => { c with hot := hot }))
  else
    let v := sext 16 temp
    let m := BitVec.ofNat 12 (2 ^ n)
    let cur := s.tiers.stkHot
    let new := if 85 * 16 < v then cur ||| m else if v ≤ 82 * 16 then cur &&& ~~~m else cur
    .next { s with tiers := { s.tiers with stkHot := new } }

/-! ### Calibration of a tier-1 pseudo-channel (10 R341) -/

/-- T1_CAL_LOSS: a pseudo-channel loses calibration; its requests are held. -/
def execT1CalLoss (stack pc t : Nat) (s : State) : Out :=
  let s := s.at t
  let u := stack * 64 + pc
  if s.unitFenced u || !s.pcWorks stack pc || (Table.find s.tiers.calLost u).isSome then .next s
  else .next { s with tiers := { s.tiers with calLost := Table.put s.tiers.calLost u s.time } }

/-- T1_PC_FENCE: calibration not regained within 1 ms fences the pseudo-channel
and its held requests complete as for a fenced one. -/
def execT1PcFence (stack pc t : Nat) (s : State) : Out :=
  let s := s.at t
  let u := stack * 64 + pc
  match Table.find s.tiers.calLost u with
  | some t0 => .next (if t0 + msTicks 1 ≤ s.time then (s.fencePc u).serveHeld else s)
  | none => .next s

/-- CALIBRATION_REGAINED: within 1 ms the held requests are served in order. -/
def execCalibrationRegained (stack pc t : Nat) (s : State) : Out :=
  let s := s.at t
  let u := stack * 64 + pc
  match Table.find s.tiers.calLost u with
  | some t0 =>
    if s.time ≤ t0 + msTicks 1 then
      .next ({ s with tiers := { s.tiers with calLost := Table.del s.tiers.calLost u } }).serveHeld
    else .next s
  | none => .next s

/-! ### Retraining of a tier-2 channel (10 R342 to R345) -/

/-- May a channel begin retraining: in service, and no other of its die is
retraining? -/
def State.canRetrain (s : State) (ch : Nat) : Bool :=
  (s.chan ch).state == 1 &&
    (List.range 16).all (fun k => k / 8 != ch / 8 || (s.chan k).state != 2)

/-- Begin retraining: new requests wait, the merge entries are retired and the
devices enter self-refresh (R343 steps 1 to 3). -/
def State.beginRetrain (s : State) (ch cause : Nat) : State :=
  let s := s.retireAll (fun e => e.unit == 1024 + ch)
  s.updChan ch (fun c =>
    { c with state := 2, attempt := 1, selfRefresh := true, cause := BitVec.ofNat 4 cause,
             since := s.time })

/-- The trigger a channel meets: 1 link errors, 2 temperature, 3 START or a
command; one that waits comes first. -/
def T2Chan.trigger (c : T2Chan) : Option Nat :=
  if c.cause ≠ 0 then some c.cause.toNat
  else if c.errThresh ≠ 0 ∧ c.errThresh.toNat ≤ (c.linkErrs.map Prod.snd).sum then some 1
  else if c.tempEn ∧ 320 ≤ (sext 16 c.temp.toNat - sext 16 c.trainedTemp.toNat).natAbs then some 2
  else none

/-- T2_RETRAIN_START: at time `t` the channel has detected `errs` link errors
since the last such command and its hottest device reads `temp`; a trigger of
R342 starts the retraining. Link errors count against ERR_THRESH within 1 ms. -/
def execT2RetrainStart (ch t errs temp : Nat) (s : State) : Out :=
  let s := s.at t
  let s := s.updChan ch (fun c =>
    { c with linkErr := c.linkErr + BitVec.ofNat 32 errs, temp := BitVec.ofNat 16 temp,
             linkErrs := (s.time, errs) :: c.linkErrs.filter (fun e => decide (s.time ≤ e.1 + msTicks 1)) })
  match (s.chan ch).trigger with
  | some k =>
    .next (if s.canRetrain ch then s.beginRetrain ch k
      -- another channel of the die retrains: the trigger waits
      else if (s.chan ch).state = 1 then s.updChan ch (fun c => { c with cause := BitVec.ofNat 4 k })
      else s)
  | none => .next s

/-- T2_RETRAIN_DONE: the training checks; the channel is in service again and
its queued requests are issued (R343 step 6). -/
def execT2RetrainDone (ch t : Nat) (s : State) : Out :=
  let s := s.at t
  if (s.chan ch).state = 2 then
    .next (s.updChan ch (fun c =>
      { c with state := 1, attempt := 0, selfRefresh := false, cntDone := c.cntDone + 1,
               lastUs := BitVec.ofNat 20 ((s.time - c.since + 24) / 25), lastCause := c.cause,
               cause := 0, trainedTemp := c.temp, linkErrs := [] })).serveHeld
  else .next s

/-- T2_RETRAIN_FAIL: an attempt fails; the third failure fences the channel
(R344). -/
def execT2RetrainFail (ch t : Nat) (s : State) : Out :=
  let s := s.at t
  let c := s.chan ch
  if c.state = 2 then
    let s := (s.updChan ch (fun c => { c with cntFailed := c.cntFailed + 1 })).raise
      ST_T2_RETRAIN_FAIL 4 ch none 0
    if c.attempt.toNat < 3 then .next (s.updChan ch (fun c => { c with attempt := c.attempt + 1 }))
    else .next (s.fenceCh ch).serveHeld
  else .next s

/-! ### Scrubbing and leaks (11 R359, R362) -/

/-- Atoms of a memory unit, and the local address of its k-th by physical
address: bank group, then offset. -/
def unitAtoms (unit : Nat) : Nat := if unit < 1024 then 2 ^ 24 else 2 ^ 29
def State.scrubAddr (s : State) (unit k : Nat) : Nat :=
  if unit < 1024 then s.nbuLocal (unit / 64) (unit % 64) (k / 2 ^ 20) (k % 2 ^ 20 * 64)
  else s.chLocal (unit - 1024) (k * 128)

/-- SCRUB_READ: the scrubber of a unit reads its next atom: a corrected one is
written back, a poisoned one is passed over, another bad one is handled. A
scrubber that is off or paused, or whose unit is mapped out or fenced, does not
read (11 R362, R367). -/
def execScrubRead (unit : Nat) (errs : List (Nat × Nat)) (s : State) : Out :=
  let ok := if unit < 1024 then s.tiers.t1Filled && decide (unit < 768) && s.pcWorks (unit / 64) (unit % 64)
    else s.tiers.t2Filled && (s.chan (unit - 1024)).state == 1
  if !ok || s.unitFenced unit || s.tiers.scrubPaused || (s.integ (integIndex unit)).passH == 0 then .next s
  else
    let k := Table.getD s.tiers.scrubPos unit 0
    let atom := s.scrubAddr unit k
    let poisoned := (Mem.readBytes s.mem atom (atomBytes unit)).isNone &&
      !(s.tiers.merge.any (fun e => e.atom == atom))
    let s :=
      if poisoned && classify (atomBytes unit) true errs == .poison then s
      else
        match s.readAtom atom errs with
        | (some _, s) =>
          match Table.find s.tiers.writeBacks atom with
          | some d => s.putAtom atom (bytesOfNat (atomBytes unit) d.toNat)
          | none => s
        | (none, s) => s
    let last := decide (unitAtoms unit ≤ k + 1)
    let s := { s with tiers := { s.tiers with
      scrubPos := Table.put s.tiers.scrubPos unit (if last then 0 else k + 1)
      scrubPasses := if last then Table.upd s.tiers.scrubPasses unit 0 (· + 1) else s.tiers.scrubPasses } }
    if !last then .next s
    else
      let mates := if unit < 1024 then
          ((s.pcList (unit / 64)).filter (fun p => !s.unitFenced (unit / 64 * 64 + p))).map
            (fun p => unit / 64 * 64 + p)
        else [unit]
      let slow := (mates.map (fun u => Table.getD s.tiers.scrubPasses u 0)).foldl min
        (Table.getD s.tiers.scrubPasses unit 0)
      .next (s.updInteg (integIndex unit) (fun x => { x with passes := BitVec.ofNat 24 slow }))

/-- CE_LEAK: every LEAK_MS ms one is taken from a non-zero bucket; a corrected
read in the same cycle counts first (11 R359). Bucket: a memory unit, 2048 plus
a stack, or 4096 plus a quay. -/
def execCeLeak (bucket t : Nat) (withRead : Bool) (s : State) : Out :=
  let s := s.at t
  let quay := decide (4096 ≤ bucket)
  let q := bucket - 4096
  let s := if withRead then (if quay then s.ceQuay q else s.ceUnit bucket) else s
  let ms := if quay then (s.quay q).ceLeakMs.toNat
    else (s.integ (if 2048 ≤ bucket then bucket - 2048 else integIndex bucket)).leakMs.toNat
  if ms = 0 ∨ s.time < Table.getD s.tiers.leakAt bucket 0 + msTicks ms then .next s
  else
    let s := { s with tiers := { s.tiers with leakAt := Table.put s.tiers.leakAt bucket s.time } }
    if quay then
      .next (s.updQuay q (fun x => { x with ceLevel := if x.ceLevel = 0 then 0 else x.ceLevel - 1 }))
    else
      .next { s with tiers := { s.tiers with
        buckets := Table.upd s.tiers.buckets bucket CeBucket.reset
          (fun b => { b with level := if b.level = 0 then 0 else b.level - 1 }) } }

end Sys2Proof.Machine
end

