-- ==== Sys2Proof/Machine/Reset.lean ====
section
/-! DEFINITION. Reset sources, the module watchdog, block resets, the wake and
bring-up (chapter 21, 11 R355). -/

namespace Sys2Proof.Machine

/-! ### Sources (R639, R641, R644, R647) -/

/-- AUX_POWER_ON: VAUX becomes good. The time base starts at 0. -/
def execAuxPowerOn (s : State) : Out := .next s.auxReset

/-- AUX_POWER_LOSS: VAUX is absent, with VBAT in range or not. All but the backup
domain is lost, and that too without VBAT. -/
def execAuxPowerLoss (vbat : Bool) (t : Nat) (s : State) : Out :=
  let s := s.at t
  let l := s.lose true
  let b : Bring :=
    { Bring.reset with
      vaux := false, vbat := vbat, perstN := s.bring.perstN, resetN := s.bring.resetN, stretch := none, sources := 0 }
  .next { l with
      power := Power.reset, thermal := Thermal.reset, i3c := I3c.reset, onRing := false, refclkFailSeen := false
      backup := if vbat then s.backup else Backup.reset, bring := b }

/-- PERST_N_ASSERT: PERST_N is low. -/
def execPerstNAssert (t : Nat) (s : State) : Out :=
  .next (((s.at t).updBring (fun b => { b with perstN := false })).resetSource 2)

/-- RESET_N_ASSERT: another device has held RESET_N low for 1 µs. -/
def execResetNAssert (t : Nat) (s : State) : Out :=
  .next (((s.at t).updBring (fun b => { b with resetN := false })).resetSource 3)

/-- RESET_STRETCH_END: 10 ms after the last source, with PERST_N high and VAUX good,
RESET_N is released and sampled. `perst` and `resetN` are the levels of the pins; a
RESET_N still low is one more source. -/
def execResetStretchEnd (perst resetN : Bool) (t : Nat) (s : State) : Out :=
  let s := (s.at t).updBring (fun b => { b with perstN := perst })
  match s.bring.stretch with
  | none => .next s
  | some last =>
    if !perst || !s.bring.vaux || decide (s.time < last + msTicks 10) then .next s
    else if !resetN then .next ((s.updBring (fun b => { b with resetN := false })).resetSource 3)
    else
      let s := s.updBring (fun b => { b with resetN := true, stretch := none })
      let b := s.bring
      .next (if !b.waking && b.wakeStep == 0 && !b.failed && s.power.pgood && s.thermal.shutAt.isNone then s.startWake else s)

/-- MODULE_WATCHDOG_EXPIRY: PERIOD_MS has passed since the last kick. -/
def execModuleWatchdogExpiry (t : Nat) (s : State) : Out :=
  let s := s.at t
  let b := s.bring
  .next (if b.wdogMs ≠ 0 ∧ b.wdogAt + msTicks b.wdogMs.toNat ≤ s.time then s.resetSource 4 else s)

/-- May a requester write the RST_ registers? -/
def rstWriter (r : Requester) : Bool := r == .host 0 || r == .i3c || r == .security

/-- RST_WDOG_KICK: a write of the key restarts the count. -/
def execRstWdogKick (r : Requester) (v t : Nat) (s : State) : Out :=
  let s := s.at t
  .next (if rstWriter r ∧ v = 0x4B1D then s.updBring (fun b => { b with wdogAt := s.time }) else s)

/-- RST_WDOG_CTRL_WRITE: PERIOD_MS arms the watchdog, 0 turns it off. -/
def execRstWdogCtrlWrite (r : Requester) (v t : Nat) (s : State) : Out :=
  let s := s.at t
  .next (if rstWriter r then s.updBring (fun b => { b with wdogMs := BitVec.ofNat 16 v, wdogAt := s.time }) else s)

/-- RESET_MODULE: RESET with KIND 0 is answered, and starts a reset 1 ms later: the
row once more. A KIND that is not defined is an argument error. -/
def execResetModule (iss : Issuer) (t : Nat) (s : State) : Out :=
  match s.bring.mbxAt with
  | some a =>
    let s := s.at t
    .next (if a + msTicks 1 ≤ s.time then s.resetSource 5 else s)
  | none =>
    State.serveIf iss 0x0A04 t (fun m => msgArg m 0 != 1) (fun _ m s =>
      if msgArg m 0 = 0 then (done 0, s.updBring (fun b => { b with mbxAt := some s.time })) else (done ST_MBX_ARG, s)) s

/-! ### Block reset (R645, R646) -/

/-- The blocks that can be reset. -/
inductive Block where
  | quay (q : Nat)
  | stack (n : Nat)
  | chan (n : Nat)
  | port (n : Nat)
  | engine (n : Nat)
  deriving DecidableEq, Repr

def blockOf (code : Nat) : Option Block :=
  if code < 0x40 then some (.quay code)
  else if 0x100 ≤ code ∧ code ≤ 0x10B then some (.stack (code - 0x100))
  else if 0x200 ≤ code ∧ code ≤ 0x20F then some (.chan (code - 0x200))
  else if 0x300 ≤ code ∧ code ≤ 0x30F then some (.port (code - 0x300))
  else if 0x400 ≤ code ∧ code ≤ 0x40E then some (.engine (code - 0x400))
  else none

/-- The logical tiles of a quay. -/
def quayTiles (q : Nat) : List Nat := (List.range 64).map (fun i => 64 * q + i)

/-- Does a held access wait in a unit that a test picks? -/
def State.heldIn (s : State) (p : Nat → Bool) : Bool := s.tiers.held.any (fun (h : HeldAccess) => p (s.unitAt h.addr))

/-- Idle conditions. -/
def State.blockIdle (s : State) : Block → Bool
  | .quay q =>
    let spilled := s.graph.graphs.any (fun (g : Nat × GraphRun) => g.2.nodes.any (fun (n : Nat × NodeSt) =>
      (n.2.phase == .spilled || n.2.phase == .restoring) && n.2.spill.any (fun (x : SpillTile) => x.tile / 64 == q)))
    (quayTiles q).all (fun t => (s.tile t).owner.isNone) && !spilled && !(s.quay q).parked
  | .stack n => s.slotsHeld n false == 0 && s.slotsHeld n true == 0 && !s.heldIn (fun u => decide (u < 1024) && u / 64 == n)
  | .chan n => !s.heldIn (fun u => u == 1024 + n)
  | .port n => !(s.port n).en
  | .engine n => s.engineLists n == 0 && s.engineRuns n == 0

/-- A block reset begins: the block is isolated and reset. -/
def State.blockStart (s : State) : Block → State
  | .quay q =>
    let s := (quayTiles q).foldl (fun s t => (s.poisonTile t).setTile t Tile.reset) s
    let s := s.updQuay q (fun x =>
      { x with inService := false, outOfService := false, sparesUsed := 0, failed := 0, spares := [], ccState := 0 })
    s.updFw (fun f => { f with stopped := f.stopped ||| BitVec.ofNat 67 (2 ^ q) })
  | .stack n =>
    let s := s.retireAll (fun e => decide (e.unit < 1024) && e.unit / 64 == n)
    s.updStack n (fun u => { StackUnit.reset with serveRsv := u.serveRsv, reserveNow := u.reserveNow })
  | .chan n =>
    let s := s.retireAll (fun e => e.unit == 1024 + n)
    s.updChan n (fun c =>
      let up := c.state == 1 || c.state == 2
      { T2Chan.reset with
        state := if up then 2 else c.state, attempt := if up then 1 else 0, selfRefresh := up, temp := c.temp
        trainedTemp := c.trainedTemp, hot := c.hot, since := s.time })
  | .port n =>
    s.updPort n (fun x =>
      { x with retry := [], partialSlots := [], credits := [], owed := [], txSeq := 0, rxSeq := 0, nak := false })
  | .engine n => s.updEngine n (fun _ => { done := 0, err := 0, bytes := 0 })

/-- RESET_BLOCK: RESET with KIND 1. The idle condition is checked before the response;
one block reset runs at a time. -/
def execResetBlock (iss : Issuer) (t : Nat) (s : State) : Out :=
  State.serveIf iss 0x0A04 t (fun m => msgArg m 0 == 1) (fun _ m s =>
    match blockOf (msgArg m 1) with
    | none => (done ST_MBX_ARG, s)
    | some b =>
      if s.bring.blkBusy || !s.blockIdle b then (done ST_RST_BLOCK_BUSY, s)
      else
        (done 0, (s.blockStart b).updBring (fun x =>
          { x with blk := BitVec.ofNat 12 (msgArg m 1), blkBusy := true, blkAt := s.time }))) s

/-! ### Tile test and spares (R655) -/

/-- Spares of a quay with these failed physical tiles: each failed tile in rising
order with the lowest working spare; none where the spares do not suffice. -/
def mapSpares (bad : BitVec 68) : Option (Table SpareMap) :=
  let fails := (List.range 64).filter (fun p => bad.getLsbD p)
  let good := (List.range 4).filter (fun n => !bad.getLsbD (64 + n))
  if good.length < fails.length then none
  else some ((good.zip fails).map (fun x => (x.1, { inUse := true, replaced := BitVec.ofNat 7 x.2, locked := true })))

/-- The tile test of a quay has ended, with these physical tiles failed. -/
def State.quayTested (s : State) (q : Nat) (bad : BitVec 68) : State :=
  let s := s.updQuay q (fun x => { x with failed := bad })
  match mapSpares bad with
  | none => s.quayOut q
  | some m => s.updQuay q (fun x => { x with inService := true, spares := m, sparesUsed := BitVec.ofNat 3 m.length })

/-- BLOCK_RESET_DONE: the block leaves its reset and its isolation. For a quay `bad`
are the physical tiles that failed the test; a channel waits for its training. -/
def execBlockResetDone (bad : BitVec 68) (t : Nat) (s : State) : Out :=
  let s := s.at t
  let free (s : State) : State := s.updBring (fun x => { x with blkBusy := false })
  if !s.bring.blkBusy then .next s
  else
    match blockOf s.bring.blk.toNat with
    | some (.quay q) =>
      let s := s.quayTested q bad
      let s := if s.fw.image.isSome then
          (s.updFw (fun f => { f with stopped := f.stopped &&& ~~~(BitVec.ofNat 67 (2 ^ q)) })).updQuay q (fun x => { x with ccState := 2 })
        else s
      .next (free s)
    | some (.chan n) => .next (if (s.chan n).state = 2 then s else free s)
    | _ => .next (free s)

/-! ### The configuration record (R649, R656) -/

/-- A register of the configuration record in force. -/
def State.cfg (s : State) (n : Nat) : Nat := (Table.getD s.bring.cfg n 0).toNat

/-- The hardware limit of R620. -/
def hwLimitOf (w : Nat) : Nat := if w = 0 ∨ 1500 < w then 1500 else max w 300

/-- Wake step 8: the configuration record is read and applied, and the valve is
commanded open. -/
def State.applyConfig (s : State) : State :=
  let s := s.updBring (fun b => { b with cfg := s.backup.cfg })
  let c := s.cfg 0
  let w := BitVec.ofNat 11 (hwLimitOf (bits (s.cfg 1) 0 11))
  let s := { s with
    mapMode := bit c 4
    fab := { s.fab with mode := BitVec.ofNat 2 (bits c 8 1), harbour := bit c 9, twinMode := bit c 10 } }
  (s.updPower (fun p => { p with hwLimit := w, hwWritten := true, softLimit := w })).updThermal (fun t => { t with cmd := 100, valveAt := s.time })

/-! ### The wake (R650 to R652) -/

/-- WAKE_STEP_DONE: the rails of the present step, or its check, are ready. Step 8
ends after the stretch; the bring-up tasks start. -/
def execWakeStepDone (t : Nat) (s : State) : Out :=
  let s := s.at t
  let b := s.bring
  if !b.waking || !s.power.pgood || (b.wakeStep == 7 && b.stretch.isSome) then .next s
  else
    let s := s.updBring (fun b => { b with wakeStep := b.wakeStep + 1, tries := 0, stepAt := s.time })
    if b.wakeStep < 7 then .next s
    else
      let s := s.applyConfig.updBring (fun b => { b with waking := false, tasksAt := s.time, thmRestart := false })
      .next (if b.thmRestart then (s.raise ST_THM_SHUTDOWN 12 0 none 0).raise ST_THM_RESTART 12 0 none 0 else s)

/-- Rails that a wake step brings up. -/
def stepRails (step : Nat) : List Nat :=
  match step with
  | 1 => [1]
  | 2 => [66]
  | 3 => (List.range 14).map (67 + ·)
  | 4 => [81, 82]
  | 5 => [83]
  | 6 => (List.range 64).map (2 + ·)
  | _ => []

/-- Stacks that have no supply while these rails stay off. -/
def railsStacks (out : List Nat) : List Nat :=
  (List.range 12).filter (fun n => out.contains (67 + n) || out.contains (79 + n / 6))

/-- The wake fails at a step, by a rail (R652). -/
def State.wakeFails (s : State) (step rail : Nat) : State :=
  let s := s.updBackup (fun k => { k with wakeFailed := true, failStep := BitVec.ofNat 4 step, failRail := BitVec.ofNat 8 rail })
  (s.railsOff s.bring.cause).updBring (fun b => { b with failed := true, waking := false, thmRestart := s.bring.thmRestart })

/-- WAKE_STEP_TIMEOUT: the present step has passed its limit with these rails not
ready. It is repeated three times; then the rails' units are given up or the wake
fails. -/
def execWakeStepTimeout (rails : List Nat) (t : Nat) (s : State) : Out :=
  let s := s.at t
  let b := s.bring
  let step := b.wakeStep + 1
  let limit := if step = 8 then 10 else 50
  let late := (stepRails step).filter (fun r => rails.contains r)
  if !b.waking || (late.isEmpty && decide (step < 7)) || (step == 8 && b.stretch.isSome)
      || decide (s.time < b.stepAt + msTicks limit) then .next s
  else if b.tries < 3 then .next (s.updBring (fun b => { b with tries := b.tries + 1, stepAt := s.time + msTicks 1 }))
  else
    let next (s : State) : State := s.updBring (fun b => { b with wakeStep := step, tries := 0, stepAt := s.time })
    if step = 7 then
      .next (next ({ s with onRing := true, refclkFailSeen := true }.updBring (fun b => { b with refLost := true })))
    else if step = 8 then .next (s.wakeFails 8 0xFF)
    else
      let out := b.outRails ++ late
      if step = 1 ∨ step = 2 ∨ step = 5 ∨ (railsStacks out).length = 12 then
        .next (s.wakeFails step ((late.head?).getD 0xFF))
      else .next (next (s.updBring (fun b => { b with outRails := out })))

/-! ### Bring-up tasks (R653) -/

/-- May a bring-up task run: the wake is complete? -/
def State.tasksRun (s : State) : Bool := s.bring.wakeStep == 8 && !s.bring.waking

/-- PCIE_LINK_UP: link training completes. -/
def execPcieLinkUp (t : Nat) (s : State) : Out :=
  let s := s.at t
  if !s.tasksRun then .next s
  else .next (s.updBring (fun b => { b with pcieUp := true }))

/-- The tile test ends; `bad` gives the failed physical tiles by quay. A quay with no
supply is out of service. -/
def State.tilesTested (s : State) (bad : Table (BitVec 68)) : State :=
  if !s.tasksRun || s.bring.tileTest then s
  else
    let s := (List.range 64).foldl (fun s q =>
      if s.bring.outRails.contains (2 + q) then s.quayOut q else s.quayTested q (Table.getD bad q 0)) s
    s.updBring (fun b => { b with tileTest := true })

/-- Once both tiers are trained the maps stand (R321 to R327, R47, R48). With no
tier 1 the wake fails. -/
def State.buildMap (s : State) : State :=
  if !s.bring.t1Trained || !s.bring.t2Trained || s.tiers.t1Up then s
  else
    let v := bits (s.cfg 0) 0 3
    let s := { s with tiers := { s.tiers with spread := if 4 < v then 1 else v } }
    let s := if 4 < v then s.raise ST_MAP_CONFIG 0 0 none 0 else s
    if s.pcTotal = 0 then s.wakeFails 8 0xFF
    else { s with tiers := { s.tiers with t1Up := true, t2Up := true } }

/-- Tier-1 training ends: `bad` are the pseudo-channels, 64 × stack + p, that failed it
or whose base die failed its test. They and those of the fence record are mapped
out. -/
def State.t1Trained (s : State) (bad : BitVec 768) : State :=
  if !s.tasksRun || s.bring.t1Trained then s
  else
    let off := railsStacks s.bring.outRails
    let out (n : Nat) : BitVec 64 :=
      if off.contains n then BitVec.allOnes 64
      else BitVec.ofNat 64 (bits bad.toNat (64 * n) 64) ||| Table.getD s.backup.fenceT1 n 0
    let tab := (List.range 12).map (fun n => (n, out n))
    let s := { s with tiers := { s.tiers with pcOut := tab.filter (fun x => x.2 != 0), pcFenced := [] } }
    (s.updBring (fun b => { b with t1Trained := true })).buildMap

/-- Tier-2 training ends: channels that failed it, that the fence record names or that
have no supply are mapped out. -/
def State.t2Trained (s : State) (bad : BitVec 16) : State :=
  if !s.tasksRun || s.bring.t2Trained then s
  else
    let off (n : Nat) : Bool := bad.getLsbD n || s.backup.fenceT2.getLsbD n || s.bring.outRails.contains (81 + n / 8)
    let s := (List.range 16).foldl (fun s n => s.updChan n (fun c =>
      { c with state := if off n then 4 else 1, attempt := 0, trainedTemp := c.temp })) s
    let m := ((List.range 16).filter (fun n => !off n)).foldl (fun (m : Nat) n => m + 2 ^ n) 0
    let s := { s with tiers := { s.tiers with chIn := BitVec.ofNat 16 m } }
    (s.updBring (fun b => { b with t2Trained := true })).buildMap

/-- TILE_TEST_DONE. -/
def execTileTestDone (bad : Table (BitVec 68)) (t : Nat) (s : State) : Out := .next ((s.at t).tilesTested bad)

/-- T1_TRAINING_DONE. -/
def execT1TrainingDone (bad : BitVec 768) (t : Nat) (s : State) : Out := .next ((s.at t).t1Trained bad)

/-- T2_TRAINING_DONE. -/
def execT2TrainingDone (bad : BitVec 16) (t : Nat) (s : State) : Out := .next ((s.at t).t2Trained bad)

/-! ### Fills (11 R355) -/

/-- A fill of the addresses from `lo` up to `hi`: all of them are poisoned. Whether an
atom of `u` bytes that was written while the fill ran keeps its data is open. -/
def State.poisonFill (s : State) (u lo hi : Nat) : State :=
  { s with
    mem := s.mem.filter (fun c => !(decide (lo ≤ c.1) && decide (c.1 < hi))
      || (Config.freeValue (s.free + (c.1 - lo) / u)).getLsbD 0)
    free := s.free + (hi - lo) / u + 1 }

/-- FILL_DONE: the fill of tier 1 (0), of tier 2 (1) or of the tile memories (2)
completes, and the reads that waited for it go on. After the tier-2 fill the logbook
header is written. -/
def execFillDone (which t : Nat) (s : State) : Out :=
  let s := s.at t
  match which with
  | 0 =>
    if !s.tiers.t1Up || s.tiers.t1Filled then .next s
    else
      let s := s.poisonFill 64 0 s.t1Top
      .next ({ s with tiers := { s.tiers with t1Filled := true } }).serveHeld
  | 1 =>
    if !s.tiers.t2Up || s.tiers.t2Filled then .next s
    else
      let s := s.poisonFill 128 tier2Base s.t2Top
      let s := ({ s with tiers := { s.tiers with t2Filled := true } }).serveHeld
      .next (if (s.resv 6).2 = 0 then s else s.logWriteHeader)
  | 2 =>
    if !s.bring.tileTest || s.bring.tilesFilled then .next s
    else
      let s := s.poisonFill 8 tileWindows (tileWindows + 0x40000000)
      .next (s.updBring (fun b => { b with tilesFilled := true }))
  | _ => .next s

/-! ### Firmware initialisation (R653, R649, 18 R587) -/

/-- LOG_GIB in force: 0 where the record's value is above 512 or above the size of the
tier-2 region. -/
def State.logGib (s : State) : Nat :=
  let v := bits (s.cfg 0) 16 10
  if 512 < v ∨ s.t2Top - tier2Base < v * 2 ^ 30 then 0 else v

/-- The firmware reservations: kind, size, and whether they lie in tier 2. -/
def State.resvSizes (s : State) : List (Nat × Nat × Bool) :=
  [(0, 2 ^ 26, false), (1, 2 ^ 30, false), (2, 2 ^ 28, false), (3, 2 ^ 17, false), (4, Config.indexBytes, false),
   (5, if s.fab.twinMode then 2 ^ 26 else 0, false), (6, s.logGib * 2 ^ 30, true)]

/-- Place a reservation: where the firmware chooses, if that is a clear place of its
tier, else at the lowest clear one. A reservation for which there is no room, or of
size 0, is absent. -/
def State.placeResv (s : State) (kind size : Nat) (t2 : Bool) : State :=
  let taken := s.tiers.resv.map (fun r => (r.2.1, r.2.2))
  let lo := if t2 then tier2Base else 0
  let hi := if t2 then s.t2Top else s.t1Top
  let b := Config.resvBase kind hi / 4096 * 4096
  let clear := decide (lo ≤ b) && decide (b + size ≤ hi) && taken.all (fun r => decide (b + size ≤ r.1) || decide (r.1 + r.2 ≤ b))
  let place := if size = 0 then none else if clear then some b else freeRange lo (hi - lo) size 4096 taken
  match place with
  | none => s
  | some a => { s with tiers := { s.tiers with resv := Table.put s.tiers.resv kind (a, size) } }

/-- Write a reservation: the manifest and the decision log with zeros, their empty
form; the others with contents that are open. -/
def State.writeResv (s : State) (kind : Nat) : State :=
  let (a, n) := s.resv kind
  if kind = 0 ∨ kind = 3 then { s with mem := Mem.fillZero s.mem a n }
  else
    let (bs, s) := s.freshBytes n
    { s with mem := Mem.writeBytes s.mem a bs }

/-- FW_INIT_DONE: the reservations are placed and written, ILIM is written, and with
FAB_AUTO the fabric starts. -/
def execFwInitDone (t : Nat) (s : State) : Out :=
  let s := s.at t
  if s.fw.state ≠ 2 ∨ !s.tiers.t1Filled ∨ s.bring.fwInit then .next s
  else
    let bad := decide (s.logGib ≠ bits (s.cfg 0) 16 10)
    let s := s.resvSizes.foldl (fun s k => s.placeResv k.1 k.2.1 k.2.2) s
    let s := [0, 1, 2, 3, 4, 5].foldl State.writeResv s
    let s := if s.tiers.t2Filled ∧ (s.resv 6).2 ≠ 0 then s.logWriteHeader else s
    let s := if bad then s.raise ST_CFG_RANGE 0 0 none 0 else s
    let s := s.updPower (fun p => { p with ilim := BitVec.ofNat 9 (max 100 (min 450 (bits (s.cfg 1) 16 9))) })
    .next (s.updBring (fun b => { b with fwInit := true })).fabAuto

/-! ### READY and limits (R648, R651, R653, R654) -/

/-- BRINGUP_READY: the fills and firmware initialisation are complete. The record of
the wake is raised, and HS_SHORTS and WAKE_FAILED are cleared. -/
def execBringupReady (t : Nat) (s : State) : Out :=
  let s := s.at t
  let b := s.bring
  let k := s.backup
  if b.ready || !b.fwInit || !s.tiers.t1Filled || !s.tiers.t2Filled || !b.tilesFilled then .next s
  else
    let when (c : Bool) (f : State → State) (s : State) : State := if c then f s else s
    let s := (s.updBring (fun b => { b with ready := true })).raise ST_RESET_CAUSE 0 0 none (s.readRst 4)
    let s := iter (fun (s : State) => s.raise ST_HS_FAULT 12 0 none 0) k.shorts.toNat s
    let s := when k.latch (fun s => s.raise ST_HS_LATCHED 12 0 none 0) s
    let s := when (k.cause == 9) (fun s => s.raise ST_VIN_RANGE 12 0 none 0) s
    let s := when k.wakeFailed (fun s => s.raise ST_WAKE_FAILED 0 0 none 0) s
    let s := when b.refLost (fun s => s.raise ST_REFCLK_LOST 0 0 none 0) s
    let s := b.outRails.foldl (fun s r => s.raise ST_RAIL_FAULT 12 0 none r) s
    .next (s.updBackup (fun k => { k with shorts := 0, wakeFailed := false }))

/-- Limit of a bring-up task in ms: PCIe, tile test, tier-1 and tier-2 training, tier-1
and tier-2 fill, firmware initialisation. -/
def taskLimit (task : Nat) : Nat := ([100, 300, 500, 500, 50, 1500, 200][task]?).getD 0

/-- BRINGUP_TIMEOUT: a task has run `ran` ticks, past its limit. `tiles`, `pcs` and `chs`
are the tiles, pseudo-channels and channels that it has not finished. -/
def execBringupTimeout (task ran : Nat) (tiles : Table (BitVec 68)) (pcs : BitVec 768) (chs : BitVec 16) (t : Nat)
    (s : State) : Out :=
  let s := s.at t
  let out := s.raise ST_BRINGUP_TIMEOUT 0 0 none 0
  if !s.tasksRun ∨ ran < msTicks (taskLimit task) ∨ s.time < s.bring.tasksAt + ran then .next s
  else
    match task with
    | 0 => .next (if s.bring.pcieUp then s else out)
    | 1 => .next (s.tilesTested tiles)
    | 2 => .next (s.t1Trained pcs)
    | 3 => .next (s.t2Trained chs)
    | 4 =>
      if !s.tiers.t1Up || s.tiers.t1Filled then .next s
      else
        let s := ((List.range 768).filter (fun u => pcs.getLsbD u && s.pcWorks (u / 64) (u % 64))).foldl State.fencePc s
        execFillDone 0 t s
    | 5 =>
      if !s.tiers.t2Up || s.tiers.t2Filled then .next s
      else
        let s := ((List.range 16).filter (fun n => chs.getLsbD n && s.tiers.chIn.getLsbD n)).foldl State.fenceCh s
        execFillDone 1 t s
    | 6 =>
      if s.fw.state ≠ 2 ∨ !s.tiers.t1Filled ∨ s.bring.fwInit then .next s
      else .next (out.updFw (fun f => { f with state := 4 }))
    | _ => .next s

end Sys2Proof.Machine
end

