-- ==== Sys2Proof/Machine/Setup.lean ====
section
/-! DEFINITION. The mailbox commands of serving, KV geometry, memory and stored
data (18 R587): models, geometries, reserves, maps, retraining, scrubbers and
buckets. -/

namespace Sys2Proof.Machine

/-! ### Models (14 R440, R441) -/

/-- Bytes of a record named by a command of the PF: refused, or unreadable. -/
def State.readRecord (s : State) (a n : Nat) : Except Status Nat × State :=
  match s.accessRecord 8 0 0 false a n with
  | (some e, s) => (.error e, s)
  | (none, s) =>
    match s.loadNum a n with
    | (some v, s) => (.ok v, s)
    | (none, s) => (.error ST_MEM_UE, s)

/-- The format of a model record of `n` stages (R6, R441). -/
def modelFormatOk (w n : Nat) : Bool :=
  let m : SrvModel := { tenant := 0, words := BitVec.ofNat 4608 w }
  byteField w 0 1 == 1 && byteField w 1 1 == 8 + 8 * n && byteField w 2 1 == 0x63 && decide (byteField w 3 1 < 2)
    && decide (byteField w 4 2 < 4096) && byteField w 7 1 == 0 && decide (byteField w 8 2 < 8192)
    && byteField w 0x10 48 == 0
    && (List.range n).all (fun k =>
      decide (1 ≤ m.bfull k) && decide (m.bfull k ≤ 1024) && decide (1 ≤ m.vars k) && decide (m.vars k ≤ 4)
        && m.g k 3 1 == 0 && decide (1 ≤ m.maxWait k) && decide (m.maxWait k ≤ 1000000)
        && (List.range 2).all (fun i => decide (m.g k (8 + 8 * i) 8 < 2 ^ 48) && m.block k i % 64 == 0)
        && (List.range (m.vars k)).all (fun v =>
          decide (1 ≤ m.bmax k v) && decide (m.bmax k v ≤ 1024) && m.g k (0x1E + 8 * v) 2 == 0
            && (v == 0 || decide (m.bmax k (v - 1) < m.bmax k v)))
        && ((List.range 4).drop (m.vars k)).all (fun v => m.g k (0x18 + 8 * v) 8 == 0)
        && m.g k 0x38 8 == 0)

/-- Whether a model of a tenant may be registered: its launch queue, its handles and
its step blocks. -/
def State.modelOk (s : State) (m : SrvModel) (queue : HwQueue) : Bool :=
  !queue.serving && queue.ringLoc == 0 && (!m.shared || m.tenant == 0)
    && (List.range m.stages).all (fun k =>
      (List.range (m.vars k)).all (fun v =>
        (List.range 2).all (fun i => (s.residentOf m.tenant (m.handle k v i)).isSome))
      && (List.range 2).all (fun i =>
        s.permitted m.tenant true (m.block k i) (64 + 32 * m.bmax k (m.vars k - 1))))

/-- MODEL_REG: the model's tenant is that of its launch queue. -/
def execModelReg (iss : Issuer) (t : Nat) (s : State) : Out :=
  State.serveNow iss 0x0500 t (fun c s =>
    let a := msgArg c 0
    match s.readRecord a 64 with
    | (.error e, s) => (done e, s)
    | (.ok h, s) =>
      let n := byteField h 6 1
      if n = 0 ∨ 8 < n then (done ST_SRV_MODEL_FMT, s)
      else
        match s.readRecord a (64 + 64 * n) with
        | (.error e, s) => (done e, s)
        | (.ok w, s) =>
          if !modelFormatOk w n then (done ST_SRV_MODEL_FMT, s)
          else
            let id := byteField w 4 2
            match s.hwq (byteField w 8 2) with
            | none => (done ST_SRV_MODEL_FMT, s)
            | some q =>
              let m : SrvModel := { tenant := q.tenant, words := BitVec.ofNat 4608 w }
              if !s.modelOk m q then (done ST_SRV_MODEL_FMT, s)
              else if (s.srvModel id).isSome then (done ST_SRV_STATE, s)
              else (done 0, { s with serving := { s.serving with models := Table.put s.serving.models id m } })) s

/-- MODEL_DEREG: the model, its geometry and its pool are freed. -/
def execModelDereg (iss : Issuer) (t : Nat) (s : State) : Out :=
  State.serveNow iss 0x0501 t (fun c s =>
    let id := msgArg c 0
    if 4096 ≤ id then (done ST_MBX_ARG, s)
    else if (s.srvModel id).isNone then (done ST_SRV_MODEL, s)
    else if s.serving.entries.any (fun (e : Nat × SrvEntry) => e.2.state != 0 && e.2.model == id) then
      (done ST_SRV_STATE, s)
    else
      let s := { s with serving := { s.serving with models := Table.del s.serving.models id } }
      (done 0, { s with kv := { s.kv with
        geoms := Table.del s.kv.geoms id
        slots := s.kv.slots.filter (fun (x : KvSlot) => x.model != id)
        areas := s.kv.areas.filter (fun (x : KvArea) => x.model != id) } })) s

/-! ### KV geometries (15 R468, R469, R471) -/

/-- The format and the ranges of a geometry. -/
def geomFormatOk (g : Nat) : Bool :=
  byteField g 0 3 == 0x650801 && (byteField g 3 1 == 1 || byteField g 3 1 == 2) && decide (byteField g 4 2 < 4096)
    && (kvD g == 64 || kvD g == 128) && decide (1 ≤ kvHeads g) && decide (kvHeads g ≤ 64)
    && decide (1 ≤ kvLayers g) && decide (kvLayers g ≤ 256) && decide (5 ≤ kvSegLog g) && decide (kvSegLog g ≤ 12)
    && decide (byteField g 0x0B 1 < 4) && decide (byteField g 0x0C 2 < 4096)
    && kvSlots g % 16 == 0 && decide (16 ≤ kvSlots g) && decide (kvSlots g ≤ 1024)
    && decide (1 ≤ byteField g 0x18 2) && decide (byteField g 0x18 2 ≤ 256)
    && decide (1 ≤ byteField g 0x1A 1) && decide (byteField g 0x1A 1 ≤ 64) && decide (byteField g 0x1B 1 ≤ 2)
    && decide (1 ≤ kvFullTtl g) && decide (byteField g 0x20 8 < 2 ^ 48) && byteField g 0x20 8 % 4096 == 0
    && kvListBytes g % 4096 == 0 && decide (byteField g 0x30 8 < (if kvPeer g then 2 ^ 62 else 2 ^ 48))
    && byteField g 0x30 8 % 4096 == 0 && kvParkBytes g % 4096 == 0

/-- Chunks of each bank group that a geometry's pool takes (R471). -/
def kvChunks (g : Nat) : Nat := kvLayers g * 18 * (kvSlots g / 16)

/-- Does an area lie in one tier, in ranges of the model's tenant? -/
def State.areaGranted (s : State) (tenant : Nat) (tier : Region) (a n : Nat) : Bool :=
  n == 0 || (s.region a == tier && s.region (a + n - 1) == tier && s.permitted tenant true a n)

/-- KV_GEOM_REG. -/
def execKvGeomReg (iss : Issuer) (t : Nat) (s : State) : Out :=
  State.serveNow iss 0x0502 t (fun c s =>
    match s.readRecord (msgArg c 0) 64 with
    | (.error e, s) => (done e, s)
    | (.ok g, s) =>
      if !geomFormatOk g then (done ST_KV_GEOM_FMT, s)
      else
        match s.srvModel (kvModel g) with
        | none => (done ST_SRV_MODEL, s)
        | some m =>
          let stks := (List.range 12).filter (fun st => bit (kvMask g) st)
          let fits := decide (kvJ0 g + kvChunks g ≤ (4 - s.tiers.spread) * 4096)
          let areas := s.areaGranted m.tenant .tier1 (kvListAddr g) (kvListBytes g)
            && (kvPeer g || s.areaGranted m.tenant .tier2 (kvParkAddr g) (kvParkBytes g))
          if !(s.tiers.t1Up && stks.all (fun st => decide (0 < s.pcCount st)) && fits && areas) then
            (done ST_KV_GEOM_FMT, s)
          else if (s.kvGeom (kvModel g)).isSome then (done ST_SRV_STATE, s)
          else
            let taken := s.pilTaken
            let free := stks.all (fun st =>
              let a := s.stackBase st + 65536 * s.pcCount st * kvJ0 g
              let n := 65536 * s.pcCount st * kvChunks g
              taken.all (fun r => decide (a + n ≤ r.1) || decide (r.1 + r.2 ≤ a)))
            if !free then (done ST_PIL_NO_SPACE, s)
            else (done 0, { s with kv := { s.kv with
                   geoms := Table.put s.kv.geoms (kvModel g) (BitVec.ofNat 512 g) } })) s

/-! ### Reserves and serving settings (09 R318, 14 R465) -/

/-- The scheduler core sets SERVE_RSV of a stack. -/
def State.setServeRsv (s : State) (st v : Nat) : State :=
  (s.updStack st (fun u => { u with serveRsv := BitVec.ofNat 8 (min 192 v) })).resizeReserve st (s.slotsHeld st false)

/-- STK_SLOT_CFG_WRITE: a write of STK_SLOT_CFG; the reserve grows as graph slots
become free. Only the scheduler core writes it. -/
def execStkSlotCfgWrite (r : Requester) (st v : Nat) (s : State) : Out :=
  .next (if r = .scheduler ∧ st < 12 then s.setServeRsv st (v % 256) else s)

def execServeRsv (iss : Issuer) (t : Nat) (s : State) : Out :=
  State.serveNow iss 0x0503 t (fun c s =>
    if 4096 ≤ msgArg c 0 then (done ST_MBX_ARG, s)
    else
      (done 0, ((List.range 12).filter (fun st => bit (msgArg c 0) st)).foldl (fun s st =>
        s.setServeRsv st (msgArg c 1)) s)) s

def execServeCfg (iss : Issuer) (t : Nat) (s : State) : Out :=
  State.serveNow iss 0x0504 t (fun c s =>
    if 16 ≤ msgArg c 3 then (done ST_MBX_ARG, s)
    else
      (done 0, { s with serving := { s.serving with
        stopUs := BitVec.ofNat 16 (msgArg c 0), slowThresh := BitVec.ofNat 16 (msgArg c 1)
        slowWin := BitVec.ofNat 8 (msgArg c 2), slowConsec := BitVec.ofNat 4 (msgArg c 3) } })) s

/-! ### Memory (10 R321, R325, R327, R342) -/

def execMemMap (iss : Issuer) (t : Nat) (s : State) : Out :=
  State.serveNow iss 0x0600 t (fun _ s =>
    let mask := (s.chList).foldl (fun (m : Nat) c => m + 2 ^ c) 0
    (reply ([s.tiers.spread, s.chList.length, mask] ++ (List.range 12).map s.pcCount ++ [s.t1Top, s.t2Top]
      ++ (List.range 12).map s.stackBase), s)) s

def execMemResv (iss : Issuer) (t : Nat) (s : State) : Out :=
  State.serveNow iss 0x0601 t (fun c s =>
    if 7 ≤ msgArg c 0 then (done ST_MBX_ARG, s)
    else (reply [(s.resv (msgArg c 0)).1, (s.resv (msgArg c 0)).2], s)) s

/-- T2_RETRAIN: it completes with the retraining's duration. -/
def execT2Retrain (iss : Issuer) (t : Nat) (s : State) : Out :=
  State.serve iss 0x0602 t (fun begun c s =>
    let ch := msgArg c 0
    let x := s.chan ch
    let try_ (s : State) : State := if s.canRetrain ch then s.beginRetrain ch 3 else s
    if 16 ≤ ch then (done ST_MBX_ARG, s)
    else if begun then
      if x.state = 2 then (none, s)
      else if x.state = 1 then (if x.cause = 3 then (none, try_ s) else (reply [x.lastUs.toNat], s))
      else (done ST_T2_CH_DOWN, s)
    else if x.state = 2 then (done ST_T2_RETRAIN_BUSY, s)
    else if x.state ≠ 1 then (done ST_T2_CH_DOWN, s)
    else (none, try_ (s.updChan ch (fun y => { y with cause := 3 })))) s

def execT2RetrainCfg (iss : Issuer) (t : Nat) (s : State) : Out :=
  State.serveNow iss 0x0603 t (fun c s =>
    if 16 ≤ msgArg c 0 ∨ 2 ≤ msgArg c 1 then (done ST_MBX_ARG, s)
    else
      (done 0, s.updChan (msgArg c 0) (fun y =>
        { y with tempEn := msgArg c 1 == 1, errThresh := BitVec.ofNat 16 (msgArg c 2) }))) s

/-! ### Stored data (11 R359, R362) -/

def execScrubCfg (iss : Issuer) (t : Nat) (s : State) : Out :=
  State.serveNow iss 0x0604 t (fun c s =>
    let kind := msgArg c 0
    let mask := msgArg c 2
    let set (s : State) (n base : Nat) : State :=
      ((List.range n).filter (fun i => bit mask i)).foldl (fun s i =>
        s.updInteg (base + i) (fun x => { x with passH := BitVec.ofNat 8 (msgArg c 1) })) s
    if kind = 3 ∧ mask < 4096 then (done 0, set s 12 0)
    else if kind = 4 then (done 0, set s 16 64)
    else (done ST_MBX_ARG, s)) s

def execCeCfg (iss : Issuer) (t : Nat) (s : State) : Out :=
  State.serveNow iss 0x0605 t (fun c s =>
    let kind := msgArg c 0
    let i := msgArg c 1
    let cap := BitVec.ofNat 16 (msgArg c 2)
    let leak := BitVec.ofNat 16 (msgArg c 3)
    if kind = 1 ∧ i < 64 then (done 0, s.updQuay i (fun x => { x with ceCap := cap, ceLeakMs := leak }))
    else if kind = 3 ∧ i < 12 then (done 0, s.updInteg i (fun x => { x with cap := cap, leakMs := leak }))
    else if kind = 4 ∧ i < 16 then (done 0, s.updInteg (64 + i) (fun x => { x with cap := cap, leakMs := leak }))
    else (done ST_MBX_ARG, s)) s

end Sys2Proof.Machine
end

