-- ==== Sys2Proof/Machine/Registers.lean ====
section
/-! DEFINITION. Writes to registers: who may write which field, and what a write does
(00 R9, R15, 01 R34, R52, R53, 04 R163, and the register tables of every chapter). -/

namespace Sys2Proof.Machine

/-! ### Blocks of one quay or tile -/

/-- QUAY_SPARE_MAPn: written once by the quay's control core or the security core. -/
def State.writeSpare (s : State) (r : Requester) (q n v : Nat) : State :=
  let x := s.quay q
  if (r ≠ .quayCore q ∧ r ≠ .security) ∨ (Table.getD x.spares n SpareMap.reset).locked then s
  else
    let m : SpareMap := { inUse := bit v 31, replaced := BitVec.ofNat 7 v, locked := true }
    let t := Table.put x.spares n m
    s.setQuay q { x with spares := t, sparesUsed := BitVec.ofNat 3 (t.filter (fun e => e.2.inUse)).length }

/-- QUAY_ registers (01 R34, 11 R371). -/
def State.writeQuay (s : State) (r : Requester) (q off v : Nat) : State :=
  match word4 off 0x10 4 with
  | some n => s.writeSpare r q n v
  | none =>
    if off = 0x44 ∧ r = .scheduler then
      s.updQuay q (fun x => { x with ceCap := BitVec.ofNat 16 v, ceLeakMs := BitVec.ofNat 16 (v / 2 ^ 16) })
    else s

/-- TILE_TECn: SAT is cleared by writing 1, SIGNAL counts. -/
def State.writeTec (s : State) (t n v : Nat) : State :=
  let s := if bit v 16 then
      s.updTile t (fun x => { x with tecs := Table.put x.tecs n { x.tec n with sat := false } })
    else s
  if bit v 31 then s.tecAdd t n 1 else s

/-- TILE_ registers, for a requester that may write them (04 R164 to R167, 05 R174,
R201). -/
def State.writeTile (s : State) (t off v : Nat) : State :=
  match word4 off 0x20 6, word4 off 0x60 8, word4 off 0x100 64, word4 off 0x300 32 with
  | some n, _, _, _ => s.updTile t (fun x => { x with loopCnt := Table.put x.loopCnt n (BitVec.ofNat 32 v) })
  | _, some n, _, _ => s.writeTec t n v
  | _, _, some w, _ => s.cfgPendWrite t w v
  | _, _, _, some w => s.preRecWrite t w v
  | none, none, none, none =>
    match off with
    | 0x004 => s.updTile t (fun x => { x with startLost := x.startLost && !bit v 8, cfgWrLost := x.cfgWrLost && !bit v 9 })
    | 0x008 => s.tileCtrl t v
    | 0x088 => s.updTile t (fun x => { x with sc := { x.sc with win := BitVec.ofNat 17 v } })
    | 0x090 => s.updTile t (fun x => { x with descAddr := BitVec.ofNat 48 (setBits x.descAddr.toNat 0 32 (v / 256 * 256)) })
    | 0x094 => s.updTile t (fun x => { x with descAddr := BitVec.ofNat 48 (setBits x.descAddr.toNat 32 16 v) })
    | 0x098 => if bit v 1 then s.descFetch t true else if bit v 0 then s.descFetch t false else s
    | _ => s

/-! ### Blocks that the scheduler core writes -/

/-- The integrity fields of a stack or channel (11 R369, R370). -/
def State.writeInteg (s : State) (i off v : Nat) : State :=
  match off with
  | 0x40 => s.updInteg i (fun x => { x with passH := BitVec.ofNat 8 v })
  | 0x48 => s.updInteg i (fun x => { x with cap := BitVec.ofNat 16 v, leakMs := BitVec.ofNat 16 (v / 2 ^ 16) })
  | _ => s

/-- T2_ registers (10 R342, R346). -/
def State.writeT2 (s : State) (n off v : Nat) : State :=
  if off ≠ 0x008 then s.writeInteg (64 + n) off v
  else
    let s := s.updChan n (fun c => { c with errThresh := BitVec.ofNat 16 v, tempEn := bit v 16 })
    if !bit v 31 || (s.chan n).state != 1 then s
    else
      let s := s.updChan n (fun c => { c with cause := 3 })
      if s.canRetrain n then s.beginRetrain n 3 else s

/-- FAB_ registers of a port (16 R524). -/
def State.writePort (s : State) (n off v : Nat) : State :=
  if off ≠ 0x004 then s
  else
    let s := s.updPort n (fun x => { x with ucwThresh := BitVec.ofNat 8 (v / 2 ^ 8), replayThresh := BitVec.ofNat 16 (v / 2 ^ 16) })
    let s := s.setPortEn n (bit v 0)
    if bit v 1 then s.retrain n else s

/-- FAB_ routing and twin registers (16 R525). -/
def State.writeFab (s : State) (off v : Nat) : State :=
  match off with
  | 0x14 => { s with fab := { s.fab with timeoutMs := BitVec.ofNat 16 v } }
  | 0x24 =>
    { s with fab := { s.fab with twin := { s.fab.twin with
        auto := bit v 0, holdMs := BitVec.ofNat 12 (v / 2 ^ 4), takeoverMs := BitVec.ofNat 12 (v / 2 ^ 16) } } }
  | _ => s

/-- DMA_ACn_ registers (12 R406). -/
def ArrivalCounter.write (a : ArrivalCounter) (off v : Nat) : ArrivalCounter :=
  match off with
  | 0x00 => { a with tenant := BitVec.ofNat 10 v, sigEn := bit v 16, sat := a.sat && !bit v 30, valid := bit v 31 }
  | 0x04 => { a with so := BitVec.ofNat 17 v }
  | 0x08 => { a with base := BitVec.ofNat 48 (setBits a.base.toNat 0 32 (v / 64 * 64)) }
  | 0x0C => { a with base := BitVec.ofNat 48 (setBits a.base.toNat 32 16 v) }
  | 0x10 => { a with size64 := BitVec.ofNat 33 (v % 2 ^ 32) }
  | 0x14 => { a with target := BitVec.ofNat 32 v }
  | 0x18 => { a with count := BitVec.ofNat 40 (setBits a.count.toNat 0 32 v) }
  | 0x1C => { a with count := BitVec.ofNat 40 (setBits a.count.toNat 32 8 v) }
  | _ => a

def State.writeDma (s : State) (off v : Nat) : State :=
  if 0x10000 ≤ off ∧ off < 0x30000 then
    let n := (off - 0x10000) / 0x20
    { s with dma := { s.dma with acs := Table.put s.dma.acs n ((s.ac n).write ((off - 0x10000) % 0x20) v) } }
  else s

/-- SYNC_BARg_ registers (13 R428). -/
def Barrier.write (b : Barrier) (off v : Nat) : Barrier :=
  match off with
  | 0x00 => { b with tenant := BitVec.ofNat 10 v, sigEn := bit v 16, valid := bit v 31 }
  | 0x04 => { b with so := BitVec.ofNat 17 v }
  | 0x08 => { b with qmask := BitVec.ofNat 64 (setBits b.qmask.toNat 0 32 v) }
  | 0x0C => { b with qmask := BitVec.ofNat 64 (setBits b.qmask.toNat 32 32 v) }
  | 0x10 => { b with tmask := BitVec.ofNat 64 (setBits b.tmask.toNat 0 32 v) }
  | 0x14 => { b with tmask := BitVec.ofNat 64 (setBits b.tmask.toNat 32 32 v) }
  | _ => b

/-- SYNC_SOn_CFG (13 R429). -/
def SyncObj.write (o : SyncObj) (v : Nat) : SyncObj :=
  { o with tenant := BitVec.ofNat 10 v, irqEn := bit v 10, ovf := o.ovf && !bit v 11, unf := o.unf && !bit v 12
           valid := bit v 15, thresh := BitVec.ofNat 16 (v / 2 ^ 16) }

def State.writeSync (s : State) (off v : Nat) : State :=
  if 0x100000 ≤ off then
    let n := (off - 0x100000) / 8
    if off % 8 = 0 then s.setSo n ((s.so n).write v) else Out.state (execSoCountWrite .scheduler n v s) s
  else if 0x1000 ≤ off ∧ off < 0x1800 then
    let g := (off - 0x1000) / 0x20
    s.setBar g ((s.bar g).write (off % 0x20) v)
  else s

/-- MAN_ registers (14 R465, R466). -/
def State.writeMan (s : State) (off v : Nat) : State :=
  if 0x8000 ≤ off then
    if off % 0x20 = 0x10 then
      let n := (off - 0x8000) / 0x20
      { s with serving := { s.serving with
          tenants := Table.put s.serving.tenants n { s.srvTenant n with quota := BitVec.ofNat 21 v } } }
    else s
  else
    match off with
    | 0x1C => { s with serving := { s.serving with stopUs := BitVec.ofNat 16 v } }
    | 0x24 =>
      { s with serving := { s.serving with
          slowWin := BitVec.ofNat 8 v, slowThresh := BitVec.ofNat 16 (v / 2 ^ 8), slowConsec := BitVec.ofNat 4 (v / 2 ^ 24) } }
    | _ => s

/-- PIL_CAL_CTRL (08 R284). -/
def State.writePil (s : State) (off v : Nat) : State :=
  if off = 0x1C then
    { s with pilot := { s.pilot with fix := BitVec.ofNat 3 v, winMs := BitVec.ofNat 8 (v / 2 ^ 8) } }
  else s

/-- TRC_CTRL and TRC_C_CTRL (22 R678, R679). -/
def State.writeTrc (s : State) (q off v : Nat) : State :=
  if off = 0 then s.setUnit q { s.unit q with en := bit v 0, mode := BitVec.ofNat 3 (v / 2) }
  else if off = 0x8000 ∧ q = 0 then s.setUnit 64 { s.unit 64 with en := bit v 0, mode := BitVec.ofNat 3 (v / 2 % 4) }
  else s

/-! ### Power, heat, reset and mailbox pages -/

/-- PWR_ registers: the security core writes the hardware limit once, the
power-management core the others (20 R620, R623, R636). -/
def State.writePwr (s : State) (r : Requester) (off v : Nat) : State :=
  match off with
  | 0x08 => if r = .power then s.updPower (fun p => { p with ilim := BitVec.ofNat 9 (max 100 (min 450 (v % 512))) }) else s
  | 0x18 =>
    if r = .security ∧ !s.power.hwWritten then
      let w := BitVec.ofNat 11 (hwLimitOf (v % 2048))
      s.updPower (fun p => { p with hwLimit := w, hwWritten := true })
    else s
  | 0x1C =>
    if r = .power then
      s.updPower (fun p => { p with softLimit := BitVec.ofNat 11 (max 300 (min p.hwLimit.toNat (v % 2048))) })
    else s
  | _ => s

/-- THM_ registers (20 R637). -/
def State.writeThm (s : State) (r : Requester) (off v : Nat) : State :=
  if r ≠ .power then s
  else
    match word4 off 0x40 12 with
    | some n => s.updThermal (fun t => { t with duty := Table.put t.duty n (BitVec.ofNat 7 v) })
    | none =>
      if off = 0x10 then
        s.updThermal (fun t => { t with mode := bit v 0, position := BitVec.ofNat 7 (min 100 (bits v 8 7)) })
      else s

/-- Bits of a configuration register that are not reserved; those of RST_CFG2 to 7
read 0 (00 R9). -/
def cfgMask (n : Nat) : BitVec 32 := if n = 0 then 0x03FF0F17#32 else if n = 1 then 0x01FF07FF#32 else 0

/-- RST_ registers (21 R657). -/
def State.writeRst (s : State) (r : Requester) (off v : Nat) : State :=
  if !rstWriter r then s
  else
    match word4 off 0x10 8, word4 off 0x40 24 with
    | some n, _ => s.updBackup (fun k => { k with cfg := Table.put k.cfg n (BitVec.ofNat 32 v &&& cfgMask n) })
    | _, some n =>
      let m := BitVec.ofNat 64 (v % 2 ^ 32 * 2 ^ (32 * (n % 2)))
      s.updBackup (fun k => { k with fenceT1 := Table.upd k.fenceT1 (n / 2) 0 (fun x => x &&& ~~~m) })
    | none, none =>
      match off with
      | 0xA0 => s.updBackup (fun k => { k with fenceT2 := k.fenceT2 &&& ~~~(BitVec.ofNat 16 v) })
      | 0xC0 => Out.state (execRstWdogCtrlWrite r v s.time s) s
      | 0xC4 => Out.state (execRstWdogKick r v s.time s) s
      | _ => s

/-- The MBX_ page of a function, written by the function itself (18 R569). -/
def State.writeMbx (s : State) (f off v : Nat) : State :=
  match word4 off 0x100 64 with
  | some w => s.mbxReqWrite f w v
  | none =>
    match off with
    | 0x00 => Out.state (execDoorbell f v s) s
    | 0x04 => if bit v 0 then Out.state (execMbxGo f s.time s) s else s
    | 0x08 => s.updFunc f (fun x => { x with overrun := x.overrun && !bit v 2 })
    | 0x10 => Out.state (execMbxEvtHeadWrite f v s) s
    | 0x18 => s.updFunc f (fun x => { x with noteHead := BitVec.ofNat 32 v })
    | _ => s

/-! ### Every register -/

/-- The block code of a register block's unit, for the isolation of 21 R646. -/
def regUnit (b : RegBlock) (i : Nat) : Option Nat :=
  match b with
  | .quay => some i
  | .tile => some (i / 64)
  | .stk => some (0x100 + i)
  | .t2 => some (0x200 + i)
  | .port => some (0x300 + i)
  | _ => none

/-- Is a register in a block under reset? -/
def State.regIsolated (s : State) (b : RegBlock) (i : Nat) : Bool :=
  match regUnit b i with
  | some u => s.underReset u
  | none => false

/-- A write of a register word. -/
def State.writeReg (s : State) (r : Requester) (a v : Nat) : Status × State :=
  match regAt a with
  | none => (ST_ADDR_UNMAPPED, s)
  | some (b, i, o) =>
    if s.regIsolated b i then (ST_RST_BLOCK_ISOLATED, s)
    else
      let sched (f : State → State) : Status × State := (0, if r = .scheduler then f s else s)
      match b with
      | .pace => (0, s.writePace r i o v)
      | .quay => (0, s.writeQuay r i o v)
      | .tile => if ownsTile r i then (0, s.writeTile i o v) else (ST_TILE_REG_DENIED, s.tileDenied r i o)
      | .stk => sched (fun s => if o = 0x08 then s.setServeRsv i (v % 256) else s.writeInteg i o v)
      | .t2 => sched (fun s => s.writeT2 i o v)
      | .port => sched (fun s => s.writePort i o v)
      | .fab => sched (fun s => s.writeFab o v)
      | .dma => sched (fun s => s.writeDma o v)
      | .sync => sched (fun s => s.writeSync o v)
      | .man => sched (fun s => s.writeMan o v)
      | .pil => sched (fun s => s.writePil o v)
      | .trc => sched (fun s => s.writeTrc i o v)
      | .pwr => (0, s.writePwr r o v)
      | .thm => (0, s.writeThm r o v)
      | .rst => (0, s.writeRst r o v)
      | .mbx => (0, if r = .host i then s.writeMbx i o v else s)

/-- A register access as a response: its address and width are checked first (01 R52). -/
def regCheck (a n : Nat) : Option Status :=
  if (regAt a).isNone then some ST_ADDR_UNMAPPED else if n = 4 ∧ a % 4 = 0 then none else some ST_ADDR_ALIGN

/-- REGISTER_WRITE: a write of the word `v` to the register at address `a`. -/
def execRegisterWrite (r : Requester) (a v t : Nat) (s : State) : Out :=
  let s := s.at t
  match regCheck a 4 with
  | some e => .next (s.memRespond e a [])
  | none =>
    let (st, s) := s.writeReg r a (v % 2 ^ 32)
    .next (s.memRespond st 0 [])

/-- QUAY_SPARE_MAP_WRITE: a write of QUAY_SPARE_MAPn of quay `q`. -/
def execQuaySpareMapWrite (r : Requester) (q n v : Nat) (s : State) : Out :=
  .next (if q < 64 ∧ n < 4 ∧ !s.underReset q then s.writeSpare r q n v else s)

end Sys2Proof.Machine
end

