-- ==== Sys2Proof/Machine/HostAccess.lean ====
section
/-! DEFINITION. Reads and writes of the local map by any requester: memory at its home
and registers (01 R49 to R52, 10 R334, 11 R360, 12 R388), and the host's accesses
through its BARs (18 R561 to R563). -/

namespace Sys2Proof.Machine

/-! ### One access -/

/-- Unit kind and index of a requester, for arbitration and events. -/
def requesterUnit (r : Requester) : Nat × Nat :=
  match r with
  | .host f => (0, f)
  | .quayCore q => (11, q)
  | .scalar t => (2, t)
  | .security => (11, 64)
  | .power => (11, 65)
  | .scheduler => (11, 66)
  | .i3c => (0, 0)

/-- The pieces of a range, each in one region. -/
def State.pieces (s : State) (a n : Nat) : List (Nat × Nat) :=
  let rec go : Nat → Nat → Nat → List (Nat × Nat)
    | 0, _, _ => []
    | fuel + 1, a, n =>
      if n = 0 then []
      else
        let k := min n (s.regionEnd a - a)
        (a, k) :: go fuel (a + k) (n - k)
  go (n / 0x8000 + 4) a n

/-- Check an access of a requester and record what isolation forbids. -/
def State.requestCheck (s : State) (r : Requester) (write : Bool) (a n : Nat) : Option Status × State :=
  let (kind, unit) := requesterUnit r
  let tenant := s.requesterTenant r
  match s.accessCheck tenant write a n with
  | some e =>
    (some e, if e = ST_ISO_ADDRESS then s.isolation e kind (if kind = 0 then 0 else unit) tenant a else s)
  | none => (none, s.asAgent kind unit a)

/-- Read memory through the decoders of its homes: the first bad address, or the data. -/
def State.readAccess (s : State) (a n : Nat) (errs : List (Nat × Nat × Nat)) : (Except Nat (List Byte)) × State :=
  (s.pieces a n).foldl (fun (x : (Except Nat (List Byte)) × State) p =>
    let s := x.2.touch p.1 p.2 true
    let s := (s.atomsOf p.1 p.2).foldl (fun s y => if (s.memLoc y).isSome then s.logUnit (s.unitAt y) else s) s
    match x.1, s.decodedRead p.1 p.2 errs with
    | .ok bs, (.ok more, s) => (.ok (bs ++ more), s)
    | .ok _, (.error b, s) => (.error b, s)
    | .error b, (_, s) => (.error b, s)) (.ok [], s)

/-- Bytes read from tier-2 channels. -/
def State.countReads (s : State) (a n : Nat) : State :=
  (s.pieces a n).foldl (fun s p =>
    match s.region p.1 with
    | .tier2 =>
      (s.atomsOf p.1 p.2).foldl (fun s x =>
        let k := min (p.1 + p.2) (x + 128) - max p.1 x
        s.updChan (s.unitAt x - 1024) (fun c => { c with rd := c.rd + BitVec.ofNat 64 k })) s
    | _ => s) s

/-- Hold an access until its memory is ready. -/
def State.holdAccess (s : State) (h : HeldAccess) : State :=
  { s with tiers := { s.tiers with held := s.tiers.held ++ [h] } }

/-- A read by a requester: its response, unless it has to wait. -/
def State.memoryRead (s : State) (r : Requester) (a n : Nat) (errs : List (Nat × Nat × Nat)) : State :=
  match s.requestCheck r false a n with
  | (some e, s) => s.memRespond e a []
  | (none, s) =>
    match regAt a with
    | some (b, i, _) =>
      if s.regIsolated b i then s.memRespond ST_RST_BLOCK_ISOLATED a []
      else
        let (v, s) := s.readReg a
        s.memRespond 0 0 (bytesOfNat 4 v.toNat)
    | none =>
      if (s.pieces a n).all (fun p => s.memReady true p.1 p.2) then
        match s.readAccess a n errs with
        | (.ok bs, s) => (s.countReads a n).memRespond 0 0 bs
        | (.error b, s) => s.memRespond ST_MEM_UE b []
      else s.holdAccess { write := false, addr := a, len := n, data := [] }

/-- A write by a requester. One that meets a fenced unit is discarded there and reported
as an uncorrectable error. -/
def State.memoryWrite (s : State) (r : Requester) (a : Nat) (bs : List Byte) : State :=
  match s.requestCheck r true a bs.length with
  | (some e, s) => s.memRespond e a []
  | (none, s) =>
    if (regAt a).isSome then
      let (st, s) := s.writeReg r a (natOfBytes bs)
      s.memRespond st 0 []
    else if (s.pieces a bs.length).all (fun p => s.memReady false p.1 p.2) then
      let bad := (s.pieces a bs.length).any (fun p => s.fencedIn p.1 p.2)
      (s.writeMem a bs).memRespond (if bad then ST_MEM_UE else 0) a []
    else s.holdAccess { write := true, addr := a, len := bs.length, data := bs }

/-- MEMORY_READ: `n` bytes at the local address `a`; `errs` is the error pattern of the
stored words, by their addresses. -/
def execMemoryRead (r : Requester) (a n : Nat) (errs : List (Nat × Nat × Nat)) (t : Nat) (s : State) : Out :=
  .next ((s.at t).memoryRead r a n errs)

/-- MEMORY_WRITE: these bytes at the local address `a`. -/
def execMemoryWrite (r : Requester) (a : Nat) (bs : List Byte) (t : Nat) (s : State) : Out :=
  .next ((s.at t).memoryWrite r a bs)

/-! ### The host's BARs (18 R559, R561 to R563) -/

/-- The local address behind an offset of a memory BAR of function f; none where the
BAR does not reach. -/
def State.barAddr (s : State) (f bar off : Nat) : Option Nat :=
  if bar = 2 then
    if f = 0 then (if off < 2 ^ 41 then some off else none)
    else if off < 2 ^ 34 then some ((s.func f).windowBase.toNat + off) else none
  else if bar = 4 ∧ f = 0 then (if off < 2 ^ 30 then some (tileWindows + off) else none)
  else none

/-- An access of 4 bytes in the function window of a VF: its own MBX_ page, and the
read-only image of the counts of its sync objects. -/
def State.vfWindow (s : State) (f : Nat) (write : Bool) (off v : Nat) : State :=
  if off < 0x1000 then
    let a := mbxPage f + off / 4 * 4
    if write then
      let (st, s) := s.writeReg (.host f) a v
      s.memRespond st 0 []
    else s.memRespond 0 0 (bytesOfNat 4 (s.regValue a))
  else if 0x80000 ≤ off ∧ !write then
    let n := (off - 0x80000) / 4
    let o := s.so n
    if !s.tenantLicensed f then (s.isolation ST_LIC_TENANTS 0 0 f n).memRespond 0 0 (bytesOfNat 4 0)
    else if o.valid ∧ o.tenant.toNat = f then s.memRespond 0 0 (bytesOfNat 4 o.count.toNat)
    else (s.isolation ST_ISO_SYNC 7 0 f n).memRespond 0 0 (bytesOfNat 4 0)
  else s.memRespond 0 0 (if write then [] else bytesOfNat 4 0)

/-- HOST_BAR_ACCESS: a read of `n` bytes, or a write of `bs`, by function f at an offset
of one of its BARs. A write received is an input of the logbook. -/
def execHostBarAccess (f bar : Nat) (write : Bool) (off n : Nat) (bs : List Byte) (errs : List (Nat × Nat × Nat)) (t : Nat)
    (s : State) : Out :=
  let s := s.at t
  if 1024 ≤ f then .next s
  else
    let s := if write then s.logInput 0x800 bs false else s
    if bar = 0 ∧ f ≠ 0 then
      if 2 ^ 20 ≤ off then .next s
      else if (if write then bs.length else n) ≠ 4 ∨ off % 4 ≠ 0 then .next (s.memRespond ST_ADDR_ALIGN off [])
      else .next (s.vfWindow f write off (natOfBytes bs))
    else
      let a := if bar = 0 ∧ off < 2 ^ 28 then some (registerBase + off) else s.barAddr f bar off
      match a with
      | none => .next s
      | some a =>
        if !s.tenantLicensed f then
          .next ((s.isolation ST_LIC_TENANTS 0 0 f a).memRespond 0 0 (if write then [] else List.replicate n 0))
        else if write then .next (s.memoryWrite (.host f) a bs)
        else .next (s.memoryRead (.host f) a n errs)

end Sys2Proof.Machine
end

