-- ==== Sys2Proof/Machine/Twin.lean ====
section
/-! DEFINITION. Twin harbours: the stream of twin messages at both ends, loss of
the pair, takeover and resynchronisation (16 R515 to R523). -/

namespace Sys2Proof.Machine

def State.updTwin (s : State) (f : Twin → Twin) : State := { s with fab := { s.fab with twin := f s.fab.twin } }

/-! ### Applying messages (R517) -/

/-- Write a manifest entry as the paired module has it, without streaming it back. -/
def State.mirrorEntry (s : State) (i w : Nat) : State :=
  let s := s.srvTouch i
  { s with serving := { s.serving with
    entries := Table.put s.serving.entries i { s.srvE i with w := BitVec.ofNat 512 w } } }

/-- Bytes of a block of the owner table at `table`. -/
def State.blockBytes (s : State) (table : Nat) : Nat :=
  match s.readNum table 128 with
  | none => 0
  | some h => (List.range (thRank h)).foldl (fun n d => n * thBlk h d) (thBits h) / 8

/-- A move of a mirrored table at the paired module: the block is copied to the same
new home, and the entry and the epoch are written (08 R282). -/
def State.mirrorMove (s : State) (table i ep e : Nat) : State :=
  let old := (s.readNum (entryAddr table i) 8).getD 0
  let new := byteField e 0 8
  let n := s.blockBytes table
  let s :=
    if bits old 48 13 = s.ownBerth ∧ bits new 48 13 = s.ownBerth then
      match s.load (bits old 0 48) n with
      | (some bs, s) => s.writeMem (bits new 0 48) bs
      | (none, s) => s
    else s
  (s.writeMem (entryAddr table i) (bytesOfNat 32 e)).writeMem (table + 8) (bytesOfNat 4 ep)

/-- Apply a message; gives the messages that undo it, the first to be applied
first. Kind 0 is the model's own: it makes a range unreadable again. -/
def State.twinApply (s : State) (m : TwinMsg) : List TwinMsg × State :=
  let d := natOfBytes m.payload
  let undo (kind : Nat) (payload : List Byte) : TwinMsg := { m with kind := kind, payload := payload }
  let was (a n : Nat) : TwinMsg :=
    match s.readMem a n with
    | some bs => undo 2 (bytesOfNat 8 a ++ bs)
    | none => undo 0 (bytesOfNat 8 a ++ bytesOfNat 4 n)
  match m.kind with
  | 0 => ([], s.dropMem (byteField d 0 8) (byteField d 8 4))
  | 1 =>
    let i := byteField d 0 8
    ([undo 1 (bytesOfNat 8 i ++ bytesOfNat 64 (s.srvE i).w.toNat)], s.mirrorEntry i (byteField d 8 64))
  | 2 =>
    let a := byteField d 0 8
    ([was a (m.payload.length - 8)], s.writeMem a (m.payload.drop 8))
  | 3 =>
    let table := byteField d 0 8
    let i := byteField d 8 4
    ([was (entryAddr table i) 32, was (table + 8) 4], s.mirrorMove table i (byteField d 12 4) (byteField d 16 32))
  | _ => ([], s)

/-- Apply a message in its place of the stream; a STEP_MARK settles all before it. -/
def State.twinTake (s : State) (m : TwinMsg) : State :=
  let (undo, s) := s.twinApply m
  s.updTwin (fun x =>
    { x with applied := m.tseq, window := Table.del x.window m.tseq
             sinceMark := if m.kind = 4 then [] else undo ++ x.sinceMark })

/-- Apply what the reorder window holds in order. -/
def State.twinDrain (s : State) : State :=
  iter (fun s =>
    match Table.find s.fab.twin.window (s.fab.twin.applied + 1) with
    | some m => s.twinTake m
    | none => s) 4096 s

/-- TWIN: the first arrived twin message enters the reorder window of 4,096
messages; what is in order is applied and acknowledged. `last`: it ends a
resynchronisation of the paired module (R523). -/
def execTwin (last : Bool) (t : Nat) (s : State) : Out :=
  let s := s.at t
  match s.takeInbox (fun x => x.2.ptype == 9) with
  | none => .next s
  | some (_, q, s) =>
    let d := natOfBytes q.data
    let n := byteField d 0 8
    let m : TwinMsg := { tseq := n, kind := byteField d 8 8, payload := q.data.drop 16, port := 14, sentAt := s.time }
    let a := s.fab.twin.applied
    let s := if a < n ∧ n ≤ a + 4096 then
        (s.updTwin (fun x => { x with window := Table.put x.window n m })).twinDrain
      else s
    let s := s.sendPacket
      { ptype := 0xA, vc := 3, esc := false, down := false, dstH := 1 - s.ownHarbour, dstB := s.ownBerth,
        srcH := s.ownHarbour, srcB := s.ownBerth, tenant := 0, tag := 0, loc := 0, len := 7, aop := 0
        data := bytesOfNat 8 s.fab.twin.applied }
    .next (if last then s.updTwin (fun x => { x with state := 1 }) else s)

/-- TWIN_ACK: acknowledged messages leave the replay buffer; waiting ones go; a
resynchronisation whose last message is acknowledged is done (R518, R523). -/
def execTwinAck (t : Nat) (s : State) : Out :=
  let s := s.at t
  match s.takeInbox (fun x => x.2.ptype == 0xA) with
  | none => .next s
  | some (_, q, s) =>
    let n := natOfBytes q.data
    let s := s.updTwin (fun x =>
      { x with ack := max x.ack (min n x.tx), buffer := x.buffer.filter (fun m => decide (n < m.tseq)) })
    let s := s.twinPump
    .next (match s.fab.twin.resyncEnd with
      | some e => if e ≤ s.fab.twin.ack then s.updTwin (fun x => { x with state := 1, resyncEnd := none }) else s
      | none => s)

/-! ### Sending (R517, R518) -/

/-- Put a message on one twin port. -/
def State.putOn (s : State) (p : Nat) (m : TwinMsg) : State :=
  let q := s.twinPacket m
  let s := s.updTwin (fun x => { x with buffer := x.buffer.map (fun y =>
    if y.tseq = m.tseq then { y with port := p, sentAt := s.time } else y) })
  if (s.port p).takes q then s.updPort p (fun x => x.putPacket q)
  else
    let w : QueuedPacket := { pkt := q, gen := s.fab.gen.toNat, port := 16 }
    { s with fab := { s.fab with waitQ := s.fab.waitQ ++ [w] } }

/-- TWIN_RESEND: messages unacknowledged for 1 ms on one twin port are sent again on
the other. -/
def execTwinResend (t : Nat) (s : State) : Out :=
  let s := s.at t
  let due := s.fab.twin.buffer.filter (fun m => decide (m.sentAt + msTicks 1 ≤ s.time))
  .next (due.foldl (fun s m => s.putOn (29 - m.port) m) s)

/-- TWIN_HEARTBEAT: every 10 ms on each twin port. -/
def execTwinHeartbeat (p t : Nat) (s : State) : Out :=
  let s := s.at t
  let x := s.port p
  if !(p == 14 || p == 15) ∨ x.state ≠ 2 ∨ !s.twinOn ∨ s.time < x.beatAt + msTicks 10 then .next s
  else
    let n := s.fab.twin.tx + 1
    let m : TwinMsg := { tseq := n, kind := 5, payload := [], port := p, sentAt := s.time }
    let s := s.updPort p (fun x => { x with beatAt := s.time })
    let room := s.fab.twin.waiting.isEmpty && decide (s.fab.twin.used + 16 ≤ 2 ^ 26)
    if room then .next ((s.updTwin (fun x => { x with tx := n, buffer := x.buffer ++ [m] })).putOn p m)
    else .next (s.updTwin (fun x => { x with tx := n, waiting := x.waiting ++ [m] }))

/-! ### Loss of the pair (R519) -/

/-- How long both twin ports have counted as down: since when, if both do. -/
def State.pairDownSince (s : State) : Option Nat :=
  match (s.port 14).downSince, (s.port 15).downSince with
  | some a, some b => some (max a b)
  | _, _ => none

/-- Does an index lie in the own half of the manifest? -/
def State.ownHalf (s : State) (i : Nat) : Bool := i / 524288 == s.ownHarbour

/-- The pair is lost: the module serves on unmirrored, or fences itself. -/
def State.pairLost (s : State) : State :=
  let own (i : Nat) : Bool := if s.fab.twin.auto then s.ownHalf i else s.srvOwn i
  let mine := (s.serving.entries.filter (fun e => own e.1 && e.2.flag 0 && e.2.state != 0)).map Prod.fst
  if s.fab.twin.auto then
    let s := s.updTwin (fun x => { x with state := 3 })
    let s := { s with serving := { s.serving with outs := s.serving.outs.filter (fun o => !mine.contains o.entry) } }
    let s := (mine.foldl (fun s i => s.srvUpd i (fun e => e.setState 6)) s).srvSlotsFree
    s.raise ST_TWIN_FENCED 0 0 none 0
  else
    let s := s.updTwin (fun x => { x with state := 2 })
    let outs := s.serving.outs.map (fun (o : SrvOut) => if mine.contains o.entry then { o with tseq := 0 } else o)
    let s := { s with serving := { s.serving with outs := outs } }
    let s := mine.foldl (fun s i => s.srvUpd i (fun e => e.setFlag 0 false)) s
    s.raise ST_TWIN_LOST 0 0 none 0

/-- TWIN_PAIR_LOST: both twin ports have been down for HOLD_MS. -/
def execTwinPairLost (t : Nat) (s : State) : Out :=
  let s := s.at t
  match s.pairDownSince with
  | some d =>
    if s.twinOn && decide (d + msTicks (max 1 s.fab.twin.holdMs.toNat) ≤ s.time) then .next s.pairLost else .next s
  | none => .next s

/-! ### Takeover (R520 to R522) -/

/-- TAKEOVER_TIMER: under AUTO, both twin ports have been down for the longer of
TAKEOVER_MS and 2 × HOLD_MS. -/
def execTakeoverTimer (t : Nat) (s : State) : Out :=
  let s := s.at t
  let w := s.fab.twin
  match s.pairDownSince with
  | some d =>
    if w.auto && (w.state == 2 || w.state == 3) && w.takeoverAt.isNone
        && decide (d + msTicks (max (max 1 w.takeoverMs.toNat) (2 * max 1 w.holdMs.toNat)) ≤ s.time) then
      .next (s.updTwin (fun x => { x with takeoverAt := some s.time }))
    else .next s
  | none => .next s

/-- The near-bank unit and slot whose frame of layer 0 lies at an address. -/
def State.kvSlotAt (s : State) (geo stack a : Nat) : Option (Nat × Nat) :=
  (List.range 1024).findSome? (fun nbu =>
    ((List.range (kvSlots geo)).find? (fun i => s.kvElem geo stack nbu i 0 == a)).map (fun i => (nbu, i)))

/-- Adopt the slots, the list blocks, the page table and the parked image of an
entry, as its page table names them (R520 step 3). -/
def State.kvAdopt (s : State) (i : Nat) : State :=
  let e := s.srvE i
  match s.kvGeom e.model, s.readNum e.pt 64 with
  | some geo, some hd =>
    let nseg := byteField hd 6 1
    let pages := byteField hd 8 4
    let model := kvModel geo
    let area (use : KvUse) (a n : Nat) : KvArea := { model := model, entry := i, use := use, base := a, size := n }
    let dir (h g : Nat) : Nat := (s.readNum (e.pt + 0x40 + 16 * (h * nseg + g)) 16).getD 0
    let blocks := (List.range (kvHeads geo)).flatMap (fun h =>
      ((List.range nseg).filter (fun g => bits (dir h g) 0 48 != 0)).map (fun g =>
        area (.list h g) (bits (dir h g) 0 48) (3 * kvLayers geo * kvSeg geo g * 16)))
    let table := if bit (byteField hd 3 1) 1 then [area .table e.pt (64 + 16 * kvHeads geo * nseg)] else []
    let parked := bit (byteField hd 3 1) 0
    let image := if parked then [area .image (byteField hd 0x10 8 % 2 ^ 48) (imageBytes geo pages)] else []
    let slots : List KvSlot := if parked then [] else
      (List.range (kvHeads geo)).flatMap (fun h => (List.range pages).flatMap (fun p =>
        let g := kvSegOf geo p
        let st := bits (dir h g) 48 4
        [false, true].filterMap (fun v =>
          let ent := (s.readNum (kvEntryAddr geo (bits (dir h g) 0 48) g 0 (b2n v) (p - kvStart geo g)) 8).getD 0
          (s.kvSlotAt geo st (ent % 2 ^ 48)).map (fun x =>
            { model := model, stack := st, nbu := x.1, slot := x.2, entry := i, head := h, page := p, isV := v }))))
    { s with kv := { s.kv with
      slots := s.kv.slots.filter (fun x => x.entry != i) ++ slots
      areas := s.kv.areas.filter (fun a => a.entry != i) ++ blocks ++ table ++ image } }
  | _, _ => s

/-- TAKEOVER_DONE: what came after the last STEP_MARK is undone, the entries of the
mirror half are held for rebind, their slots and areas adopted, and the module
serves them as its own. -/
def execTakeoverDone (t : Nat) (s : State) : Out :=
  let s := s.at t
  match s.fab.twin.takeoverAt with
  | none => .next s
  | some _ =>
    let s := s.fab.twin.sinceMark.foldl (fun s m => (s.twinApply m).2) s
    let es := (s.serving.entries.filter (fun e => !s.ownHalf e.1 && e.2.state != 0 && !e.2.taken)).map Prod.fst
    let s := s.updTwin (fun x =>
      { x with state := 4, takeoverAt := none, taken := es.length, sinceMark := [], window := [] })
    let s := es.foldl (fun s i =>
      let s := s.srvUpd i (fun e =>
        let e := (if e.state = 3 then e.ready s.time else e).setFlag 0 false
        { e with taken := true, held := true })
      s.kvAdopt i) s
    .next (s.raise ST_TWIN_TAKEOVER 0 0 none es.length)

/-- TWIN_TAKEOVER: in STATE 1 or 2; it completes with the number of entries taken. -/
def execTwinTakeover (iss : Issuer) (t : Nat) (s : State) : Out :=
  State.serve iss 0x0706 t (fun begun _ s =>
    let w := s.fab.twin
    if begun then (if w.takeoverAt.isSome then (none, s) else (reply [w.taken], s))
    else if s.fab.twinMode ∧ (w.state = 1 ∨ w.state = 2) then
      (none, s.updTwin (fun x => { x with takeoverAt := some s.time }))
    else (done ST_MBX_ARG, s)) s

/-! ### Resynchronisation (R523) -/

/-- The ranges of memory that hold an entry's cache: its page table, its list blocks,
its image, and its frames with their scale and summary records. -/
def State.kvRanges (s : State) (i : Nat) : List (Nat × Nat) :=
  let e := s.srvE i
  match s.kvGeom e.model with
  | none => []
  | some geo =>
    let d := kvD geo
    (e.pt, 64 + 16 * kvHeads geo * s.ptNseg e.pt)
      :: (s.kv.areas.filter (fun (a : KvArea) => a.entry == i && a.use != .table
            && !(a.use == .image && kvPeer geo))).map (fun a => (a.base, a.size))
      ++ (s.kvParts geo i e.pos (s.ptSummed e.pt)).map (fun p => (p.2.1, if p.2.2 = 0 then d else p.2.2))

/-- TWIN_RESYNC: every entry that this module serves is streamed with its pages, and
is mirrored from then on; the command completes when streaming has begun. -/
def execTwinResync (iss : Issuer) (t : Nat) (s : State) : Out :=
  State.serveNow iss 0x0707 t (fun _ s =>
    if !s.fab.twinMode ∨ (!((s.port 14).state == 2) && !((s.port 15).state == 2)) then (done ST_MBX_ARG, s)
    else
      let s := s.updTwin (fun x => { x with state := 5 })
      let es := (s.serving.entries.filter (fun e => e.2.state != 0 && s.srvOwn e.1)).map Prod.fst
      let s := es.foldl (fun s i =>
        let s := { s with serving := { s.serving with
          entries := Table.put s.serving.entries i ((s.srvE i).setFlag 0 true) } }
        let s := (s.kvRanges i).foldl (fun s r =>
          match s.readMem r.1 r.2 with
          | some bs => s.twinWrite r.1 bs
          | none => s) s
        s.twinSend 1 (bytesOfNat 8 i ++ bytesOfNat 64 (s.srvE i).w.toNat)) s
      let s := s.updTwin (fun x => { x with resyncEnd := some x.tx })
      (done 0, s)) s

end Sys2Proof.Machine
end

