-- ==== Sys2Proof/Machine/Loss.lean ====
section
/-! DEFINITION. What becomes of an uncorrectable atom: its owner is looked up, it
is repaired from the paired module, or its owner loses it (11 R364 to R367, 14
R452, 17 R537). -/

namespace Sys2Proof.Machine

/-! ### The home index (R364) -/

/-- Who owns an atom. -/
inductive AtomOwner where
  | resv (kind : Nat)
  /-- KV page or list block of a manifest entry -/
  | page (entry : Nat)
  | block (b : PilBlock)
  | unknown

/-- Does a range meet an atom? -/
def meetsAtom (atom n a len : Nat) : Bool := decide (a < atom + n) && decide (atom < a + len)

/-- The manifest entry whose pages or list blocks an atom holds. -/
def State.atomEntry (s : State) (atom n : Nat) : Option Nat :=
  match s.kv.areas.find? (fun (a : KvArea) =>
      (match a.use with
       | .list _ _ => true
       | _ => false) && meetsAtom atom n a.base a.size) with
  | some a => some a.entry
  | none =>
    (s.kv.slots.find? (fun (x : KvSlot) =>
      match s.kvGeom x.model with
      | none => false
      | some g =>
        (List.range (kvLayers g)).any (fun l =>
          meetsAtom atom n (s.kvElem g x.stack x.nbu x.slot l) (32 * kvD g)
            || (kvFormat g == 1 && meetsAtom atom n (s.kvScale g x.stack x.nbu x.slot l) (kvD g))
            || (!x.isV && meetsAtom atom n (s.kvSumm g x.stack x.nbu x.slot l) (2 * kvD g))))).map
      (fun (x : KvSlot) => x.entry)

/-- The owner of an atom of `n` bytes. -/
def State.atomOwner (s : State) (atom n : Nat) : AtomOwner :=
  match (List.range 7).find? (fun k => meetsAtom atom n (s.resv k).1 (s.resv k).2) with
  | some k => .resv k
  | none =>
    match s.atomEntry atom n with
    | some i => .page i
    | none =>
      match s.pilot.blocks.find? (fun (b : PilBlock) => b.berth.isNone && meetsAtom atom n b.base b.size) with
      | some b => .block b
      | none => .unknown

/-- Has an owner a copy at the paired module? (16 R516) -/
def State.ownerMirrored (s : State) : AtomOwner → Bool
  | .resv k => k == 0
  | .page i => s.entMirrored i
  | .block b => ((s.readNum (b.table + 3) 1).map (fun f => bit f 0)).getD false
  | .unknown => false

/-! ### Steps 4 to 6 (R365, R452) -/

/-- The owner of an atom that could not be repaired loses it. -/
def State.ownerLoses (s : State) (atom : Nat) : AtomOwner → State
  | .page i =>
    let tn := (s.srvE i).tenant
    ((s.kvPageLost i).raise ST_KV_PAGE_LOST 8 0 (some tn) 0).cntMod 45 1
  | .block b =>
    let a := entryAddr b.table b.entry + 8
    -- STATE is bits 9 and 8 of the word at 8 of the entry
    let (_, s) := s.rmw a 8 (fun v => setBits v 8 2 3)
    let tn := (s.pilot.tensors.find? (fun (x : PilTensor) => x.table == b.table)).map (fun x => x.tenant)
    let u := s.unitAt atom
    s.raise (if b.cls = 0 ∨ b.cls = 1 then ST_WEIGHT_LOST else ST_BLOCK_LOST) (unitKind u) (unitIndex u) tn 0
  | _ => s

/-! ### Firmware reservations (R537) -/

/-- A manifest entry is lost: what it held is freed, and it is FREE. -/
def State.manEntryLost (s : State) (i : Nat) : State :=
  let tn := (s.srvE i).tenant
  let s := { s with serving := { s.serving with outs := s.serving.outs.filter (fun o => o.entry != i) } }
  let s := { s with kv := { s.kv with
    slots := s.kv.slots.filter (fun (x : KvSlot) => x.entry != i)
    areas := s.kv.areas.filter (fun (a : KvArea) => a.entry != i)
    copies := s.kv.copies.filter (fun (c : KvCopy) => c.entry != i) } }
  let s := (s.srvPut i SrvEntry.free).srvSlotsFree
  let s := s.resvWrite 64 ((s.resv 0).1 + 64 * i) (List.replicate 64 0)
  s.raise ST_MAN_ENTRY_LOST 8 0 (some tn) i

/-- Nodes that a test picks fail with ST_FW_RES_UE. -/
def State.failResv (s : State) (p : Nat → Nat → NodeSt → Bool) (clear : Bool) : State :=
  let hit := s.graph.graphs.flatMap (fun (g : Nat × GraphRun) =>
    (g.2.nodes.filter (fun (n : Nat × NodeSt) => p g.1 n.1 n.2)).map (fun n => (g.1, n.1)))
  hit.foldl (fun s (x : Nat × Nat) =>
    let s := s.failNode x.1 x.2 ST_FW_RES_UE
    if clear then s.spillClear x else s) s

/-- The handling of an atom of a reservation, but for the fetch of a manifest entry. -/
def State.resvLost (s : State) (kind atom n : Nat) : State :=
  let u := s.unitAt atom
  let ev (s : State) : State := s.raise ST_FW_RES_UE (unitKind u) (unitIndex u) none atom
  match kind with
  | 0 =>
    let i := (atom - (s.resv 0).1) / 64
    if s.srvCached i then
      ev (s.resvWrite 64 atom (bytesOfNat 64 (s.srvE i).w.toNat))
    else s.manEntryLost i
  | 1 =>
    (ev s).failResv (fun _ _ x => x.spill.any (fun (y : SpillTile) => meetsAtom atom n y.base y.size)) true
  | 2 => (ev s).failResv (fun _ _ x => meetsAtom atom n x.areaBase x.areaSize) false
  | 3 => s.resvWrite n atom (List.replicate n 0)
  | 4 =>
    -- rebuilt from the owner tables and the page tables: its form is the firmware's
    let (bs, s) := s.freshBytes n
    ev (s.resvWrite n atom bs)
  | 5 => if s.twinOn then (ev s).pairLost else ev s
  | _ =>
    let s := ev s
    if atom < (s.resv 6).1 + 4096 then (if s.log.recording then s.logWriteHeader else s)
    else
      let rcd := 5 + 2 ^ 20 * (n / 16) + 2 ^ 64 * (s.time % 2 ^ 64)
      let s := s.resvWrite n atom (bytesOfNat 16 rcd ++ List.replicate (n - 16) 0)
      (s.updLog (fun l => { l with gaps := BitVec.ofNat 32 (satAdd 32 l.gaps.toNat 1) })).logHeader

/-! ### The sequence (R365) -/

/-- The owner's handling without a repair ends it. -/
def State.ueEnd (s : State) (atom n : Nat) : State :=
  match s.atomOwner atom n with
  | .resv k => (s.resvLost k atom n).ueDone atom
  | .unknown =>
    let u := s.unitAt atom
    (s.raise ST_UE_OWNER_UNKNOWN (unitKind u) (unitIndex u) none 0).ueDone atom
  | o => (s.ownerLoses atom o).ueDone atom

/-- Is the paired module to be asked for its copy? -/
def State.askTwin (s : State) (atom : Nat) (o : AtomOwner) : Bool :=
  let up := (s.port 14).state == 2 || (s.port 15).state == 2
  s.ownerMirrored o && s.fab.twinMode && up &&
    (match o with
     | .resv _ =>
       let i := (atom - (s.resv 0).1) / 64
       !s.srvCached i && s.entMirrored i && s.fab.twin.state == 1
     | _ => true)

/-- UE_HANDLING: steps 2 to 6 for an atom whose handling runs. It asks the paired
module first; re-issued past 10 ms without an answer, it goes on without. -/
def execUeHandling (atom t : Nat) (s : State) : Out :=
  let s := s.at t
  match s.tiers.ueRunning.find? (fun h => h.atom == atom) with
  | none => .next s
  | some h =>
    let n := s.unitBytes atom
    match h.tag with
    | some _ => if h.since + msTicks 10 ≤ s.time then .next (s.ueEnd atom n) else .next s
    | none =>
      let o := s.atomOwner atom n
      if s.askTwin atom o then
        let tag := s.fab.nextTag % 65535 + 1
        let run := s.tiers.ueRunning.map (fun (x : UeHandling) =>
          if x.atom = atom then { x with tag := some tag, since := s.time } else x)
        let s := { s with tiers := { s.tiers with ueRunning := run } }
        let s := { s with fab := { s.fab with nextTag := s.fab.nextTag + 1 } }
        .next (s.sendPacket
          { ptype := 1, vc := 3, esc := false, down := false, dstH := 1 - s.ownHarbour, dstB := s.ownBerth,
            srcH := s.ownHarbour, srcB := s.ownBerth, tenant := 0, tag := tag, loc := atom, len := n - 1,
            aop := 0, data := [] })
      else .next (s.ueEnd atom n)

/-- MIRROR_REPAIR_RESPONSE: the paired module's answer. Its atom is written whole if
the local one is still poisoned (R366). -/
def execMirrorRepairResponse (t : Nat) (s : State) : Out :=
  let s := s.at t
  let tags := s.tiers.ueRunning.filterMap (fun (h : UeHandling) => h.tag)
  match s.takeInbox (fun x => x.2.vc == 3 && (x.2.ptype == 5 || x.2.ptype == 7) && tags.contains x.2.tag) with
  | none => .next s
  | some (_, q, s) =>
    match s.tiers.ueRunning.find? (fun h => h.tag == some q.tag) with
    | none => .next s
    | some h =>
      let n := s.unitBytes h.atom
      if q.ptype = 7 ∨ q.data.length ≠ n then .next (s.ueEnd h.atom n)
      else if (s.readMem h.atom n).isSome then .next (s.ueDone h.atom)
      else
        let u := s.unitAt h.atom
        match s.atomOwner h.atom n with
        | .resv _ =>
          let i := (h.atom - (s.resv 0).1) / 64
          let s := (s.resvWrite n h.atom q.data).mirrorEntry i (natOfBytes q.data)
          .next ((s.raise ST_FW_RES_UE (unitKind u) (unitIndex u) none h.atom).ueDone h.atom)
        | _ =>
          let s := s.writeMem h.atom q.data
          .next ((s.raise ST_MIRROR_REPAIRED (unitKind u) (unitIndex u) none 0).ueDone h.atom)

end Sys2Proof.Machine
end

