-- ==== Sys2Proof/Machine/Observe.lean ====
section
/-! DEFINITION. Trace configuration, the sink, the draining of trace records and
counter snapshots (chapter 22). -/

namespace Sys2Proof.Machine

def State.updTrace (s : State) (f : Trace → Trace) : State := { s with trace := f s.trace }

/-! ### Configuration (R665, R675) -/

/-- Is a sink set? -/
def State.sinkSet (s : State) : Bool := s.trace.sinkPages != 0

/-- Is any trace unit enabled? -/
def State.traceOn (s : State) : Bool := (List.range 65).any (fun u => (s.unit u).en)

/-- Every counter is copied into its shadow at one tick; those whose counts follow the
timing take free values. -/
def State.snapshot (s : State) : State :=
  let k := s.free
  (({ s with free := k + 8192 }).updTrace (fun t =>
    { t with quayShadow := t.quayCnt, modShadow := t.modCnt, tenShadow := t.tenCnt, snapTime := BitVec.ofNat 64 s.time
             snapSeq := t.snapSeq + 1, snapFree := some k })).cntMod 106 1

/-- Apply QMASK and MODE. -/
def State.traceConfig (s : State) (qmask mode : Nat) : State :=
  let s := (List.range 64).foldl (fun s q =>
    s.setUnit q { s.unit q with en := bit qmask q, mode := BitVec.ofNat 3 (mode % 8) }) s
  s.setUnit 64 { s.unit 64 with en := bit mode 3, mode := BitVec.ofNat 3 (mode % 4) }

/-- The work of TRC_CFG. -/
def trcCfgWork (_ : Bool) (m : Nat) (s : State) : Reply × State :=
  let qmask := msgArg m 0
  let mode := msgArg m 1
  if bits mode 4 3 ≠ 0 then (done ST_MBX_ARG, s)
  else if (qmask ≠ 0 ∨ bit mode 3) ∧ !s.sinkSet then (done ST_TRC_NO_SINK, s)
  else
    let s := s.traceConfig qmask mode
    (done 0, if bit mode 7 then s.snapshot else s)

/-- TRC_CFG without SNAP. -/
def execTrcCfg (iss : Issuer) (t : Nat) (s : State) : Out :=
  State.serveIf iss 0x0B00 t (fun m => !bit (msgArg m 1) 7) trcCfgWork s

/-- COUNTER_SNAPSHOT: TRC_CFG with SNAP. -/
def execCounterSnapshot (iss : Issuer) (t : Nat) (s : State) : Out :=
  State.serveIf iss 0x0B00 t (fun m => bit (msgArg m 1) 7) trcCfgWork s

/-! ### The sink (R666, R667, R670) -/

/-- Is a sink of `n` bytes at `a` allowed? -/
def State.sinkOk (s : State) (a n : Nat) : Bool :=
  a % 4096 == 0 && n % 4096 == 0 && decide (266240 ≤ n) && decide (n ≤ 2 ^ 36)
    && (decide (a + n ≤ s.t1Top) || (decide (tier2Base ≤ a) && decide (a + n ≤ s.t2Top)))
    && (s.resvHit a n).isEmpty

/-- TRC_SINK: the sink is set and divided into 65 parts. -/
def execTrcSink (iss : Issuer) (t : Nat) (s : State) : Out :=
  State.serveNow iss 0x0B01 t (fun m s =>
    let a := msgArg m 0
    let n := msgArg m 1
    if s.traceOn then (done ST_TRC_ACTIVE, s)
    else if !s.sinkOk a n then (done ST_TRC_SINK_FMT, s)
    else
      let part := n / 266240 * 4096
      let s := s.updTrace (fun t => { t with sinkAddr := BitVec.ofNat 48 a, sinkPages := BitVec.ofNat 32 (n / 4096) })
      (done 0, (List.range 65).foldl (fun s u =>
        s.setUnit u { s.unit u with partBase := BitVec.ofNat 48 (a + u * part), partRecs := BitVec.ofNat 32 (part / 32) }) s)) s

/-- Is a record an ordinary one: no PARK, UNPARK or DROP? -/
def traceOrdinary (r : BitVec 256) : Bool :=
  let ty := r.toNat % 256
  ty != 0x20 && ty != 0x21 && ty != 0x30

/-- A unit that is discarding accepts records again once 128 are held: it appends the
DROP it owes. -/
def TraceUnit.resume (x : TraceUnit) (replay : Bool) (kind index now : Nat) : TraceUnit :=
  if x.discarding && decide (x.buffer.length ≤ 128) then
    let x := if 0 < x.dropCount then { x with buffer := x.buffer ++ [x.dropRec replay kind index now] } else x
    { x with discarding := false, dropCount := 0, dropTime := 0 }
  else x

/-- TRACE_RECORD_WRITE: the oldest record of unit `u` goes to its slot and TRC_WPTR
advances. The write is no point of the logbook (17 R546). -/
def execTraceRecordWrite (u t : Nat) (s : State) : Out :=
  let s := s.at t
  let x := s.unit u
  match x.buffer with
  | [] => .next s
  | r :: rest =>
    if x.partRecs = 0 then .next s
    else
      let a := x.partBase.toNat + 32 * (x.wptr.toNat % x.partRecs.toNat)
      let log := s.log
      let s := { (s.writeMem a (bytesOfNat 32 r.toNat)) with log := log }
      let y : TraceUnit :=
        { x with buffer := rest, ordinary := x.ordinary - b2n (traceOrdinary r), wptr := x.wptr + 1 }
      .next ((s.setUnit u (y.resume s.replaying (if u = 64 then 4 else 0) (if u = 64 then 0 else u) s.time)).cntMod 98 1)

end Sys2Proof.Machine
end

