-- ==== Sys2Proof/Machine/ScalarCore.lean ====
section
/-! DEFINITION. The scalar core of a tile: RV32I with the M and C extensions, machine
mode only, its address space, its counters and its traps (04 R140 to R143). -/

namespace Sys2Proof.Machine

/-! ### Instruction words -/

/-- Fields of an instruction word: rd, funct3, rs1, rs2, funct7. -/
def rvRd (w : Nat) : Nat := bits w 7 5
def rvF3 (w : Nat) : Nat := bits w 12 3
def rvRs1 (w : Nat) : Nat := bits w 15 5
def rvRs2 (w : Nat) : Nat := bits w 20 5
def rvF7 (w : Nat) : Nat := bits w 25 7

/-- Immediates of the I, S, B, U and J formats, as 32-bit patterns. -/
def rvImmI (w : Nat) : Nat := ofInt 32 (sext 12 (bits w 20 12))
def rvImmS (w : Nat) : Nat := ofInt 32 (sext 12 (bits w 25 7 * 2 ^ 5 + bits w 7 5))
def rvImmB (w : Nat) : Nat :=
  ofInt 32 (sext 13 (bits w 31 1 * 2 ^ 12 + bits w 7 1 * 2 ^ 11 + bits w 25 6 * 2 ^ 5 + bits w 8 4 * 2))
def rvImmU (w : Nat) : Nat := bits w 12 20 * 2 ^ 12
def rvImmJ (w : Nat) : Nat :=
  ofInt 32 (sext 21 (bits w 31 1 * 2 ^ 20 + bits w 12 8 * 2 ^ 12 + bits w 20 1 * 2 ^ 11 + bits w 21 10 * 2))

/-- The instruction words of the formats. -/
def rvMkR (op f3 f7 rd rs1 rs2 : Nat) : Nat :=
  op + 2 ^ 7 * rd + 2 ^ 12 * f3 + 2 ^ 15 * rs1 + 2 ^ 20 * rs2 + 2 ^ 25 * f7
def rvMkI (op f3 rd rs1 imm : Nat) : Nat :=
  op + 2 ^ 7 * rd + 2 ^ 12 * f3 + 2 ^ 15 * rs1 + 2 ^ 20 * (imm % 2 ^ 12)
def rvMkS (f3 rs1 rs2 imm : Nat) : Nat :=
  0x23 + 2 ^ 7 * bits imm 0 5 + 2 ^ 12 * f3 + 2 ^ 15 * rs1 + 2 ^ 20 * rs2 + 2 ^ 25 * bits imm 5 7
def rvMkB (f3 rs1 imm : Nat) : Nat :=
  0x63 + 2 ^ 7 * bits imm 11 1 + 2 ^ 8 * bits imm 1 4 + 2 ^ 12 * f3 + 2 ^ 15 * rs1
    + 2 ^ 25 * bits imm 5 6 + 2 ^ 31 * bits imm 12 1
def rvMkJ (rd imm : Nat) : Nat :=
  0x6F + 2 ^ 7 * rd + 2 ^ 12 * bits imm 12 8 + 2 ^ 20 * bits imm 11 1 + 2 ^ 21 * bits imm 1 10
    + 2 ^ 31 * bits imm 20 1

/-- The 12-bit pattern of a 6-bit signed immediate. -/
def rvImm6 (c : Nat) : Nat := ofInt 12 (sext 6 (bits c 12 1 * 2 ^ 5 + bits c 2 5))

/-- Jump offset of C.J and C.JAL, and branch offset of C.BEQZ and C.BNEZ. -/
def rvImmCJ (c : Nat) : Nat :=
  ofInt 32 (sext 12 (bits c 12 1 * 2 ^ 11 + bits c 11 1 * 2 ^ 4 + bits c 9 2 * 2 ^ 8 + bits c 8 1 * 2 ^ 10
    + bits c 7 1 * 2 ^ 6 + bits c 6 1 * 2 ^ 7 + bits c 3 3 * 2 + bits c 2 1 * 2 ^ 5))
def rvImmCB (c : Nat) : Nat :=
  ofInt 32 (sext 9 (bits c 12 1 * 2 ^ 8 + bits c 10 2 * 2 ^ 3 + bits c 5 2 * 2 ^ 6 + bits c 3 2 * 2
    + bits c 2 1 * 2 ^ 5))

/-- The instruction that a 16-bit instruction of quadrant 0 stands for. -/
def rvExpand0 (c : Nat) : Option Nat :=
  let rd := 8 + bits c 2 3
  let rs := 8 + bits c 7 3
  let off := bits c 10 3 * 2 ^ 3 + bits c 6 1 * 2 ^ 2 + bits c 5 1 * 2 ^ 6
  match bits c 13 3 with
  | 0 =>
    let imm := bits c 11 2 * 2 ^ 4 + bits c 7 4 * 2 ^ 6 + bits c 6 1 * 2 ^ 2 + bits c 5 1 * 2 ^ 3
    if imm = 0 then none else some (rvMkI 0x13 0 rd 2 imm)
  | 2 => some (rvMkI 0x03 2 rd rs off)
  | 6 => some (rvMkS 2 rs rd off)
  | _ => none

/-- Quadrant 1, major code 4: C.SRLI to C.AND. -/
def rvExpandAlu (c : Nat) : Option Nat :=
  let rd := 8 + bits c 7 3
  let rs2 := 8 + bits c 2 3
  match bits c 10 2, bits c 12 1, bits c 5 2 with
  | 0, 0, _ => some (rvMkR 0x13 5 0 rd rd (bits c 2 5))
  | 1, 0, _ => some (rvMkR 0x13 5 0x20 rd rd (bits c 2 5))
  | 2, _, _ => some (rvMkI 0x13 7 rd rd (rvImm6 c))
  | 3, 0, 0 => some (rvMkR 0x33 0 0x20 rd rd rs2)
  | 3, 0, 1 => some (rvMkR 0x33 4 0 rd rd rs2)
  | 3, 0, 2 => some (rvMkR 0x33 6 0 rd rd rs2)
  | 3, 0, 3 => some (rvMkR 0x33 7 0 rd rd rs2)
  | _, _, _ => none

/-- Quadrant 1. -/
def rvExpand1 (c : Nat) : Option Nat :=
  let rd := bits c 7 5
  match bits c 13 3 with
  | 0 => some (rvMkI 0x13 0 rd rd (rvImm6 c))
  | 1 => some (rvMkJ 1 (rvImmCJ c))
  | 2 => some (rvMkI 0x13 0 rd 0 (rvImm6 c))
  | 3 =>
    if bits c 12 1 = 0 ∧ bits c 2 5 = 0 then none
    else if rd = 2 then
      some (rvMkI 0x13 0 2 2 (ofInt 12 (sext 10 (bits c 12 1 * 2 ^ 9 + bits c 6 1 * 2 ^ 4 + bits c 5 1 * 2 ^ 6
        + bits c 3 2 * 2 ^ 7 + bits c 2 1 * 2 ^ 5))))
    else some (0x37 + 2 ^ 7 * rd + 2 ^ 12 * ofInt 20 (sext 6 (bits c 12 1 * 2 ^ 5 + bits c 2 5)))
  | 4 => rvExpandAlu c
  | 5 => some (rvMkJ 0 (rvImmCJ c))
  | 6 => some (rvMkB 0 (8 + bits c 7 3) (rvImmCB c))
  | _ => some (rvMkB 1 (8 + bits c 7 3) (rvImmCB c))

/-- Quadrant 2. -/
def rvExpand2 (c : Nat) : Option Nat :=
  let rd := bits c 7 5
  let rs2 := bits c 2 5
  match bits c 13 3 with
  | 0 => if bits c 12 1 = 1 then none else some (rvMkR 0x13 1 0 rd rd rs2)
  | 2 =>
    if rd = 0 then none
    else some (rvMkI 0x03 2 rd 2 (bits c 12 1 * 2 ^ 5 + bits c 4 3 * 2 ^ 2 + bits c 2 2 * 2 ^ 6))
  | 4 =>
    if bits c 12 1 = 0 then
      if rs2 ≠ 0 then some (rvMkR 0x33 0 0 rd 0 rs2)
      else if rd = 0 then none else some (rvMkI 0x67 0 0 rd 0)
    else if rs2 ≠ 0 then some (rvMkR 0x33 0 0 rd rd rs2)
    else if rd = 0 then some 0x00100073 else some (rvMkI 0x67 0 1 rd 0)
  | 6 => some (rvMkS 2 2 rs2 (bits c 9 4 * 2 ^ 2 + bits c 7 2 * 2 ^ 6))
  | _ => none

/-- The 32-bit instruction that a 16-bit one stands for; none for the reserved ones and
those of other extensions. -/
def rvExpand (c : Nat) : Option Nat :=
  match c % 4 with
  | 0 => rvExpand0 c
  | 1 => rvExpand1 c
  | 2 => rvExpand2 c
  | _ => none

/-! ### Arithmetic -/

/-- The operations of OP and OP-IMM on two 32-bit values. -/
def rvAlu (f3 : Nat) (alt : Bool) (a b : Nat) : Nat :=
  let sh := b % 32
  match f3 with
  | 0 => if alt then (a + 2 ^ 32 - b) % 2 ^ 32 else (a + b) % 2 ^ 32
  | 1 => a * 2 ^ sh % 2 ^ 32
  | 2 => b2n (decide (sext 32 a < sext 32 b))
  | 3 => b2n (decide (a < b))
  | 4 => a ^^^ b
  | 5 => if alt then ofInt 32 (sext 32 a / 2 ^ sh) else a / 2 ^ sh
  | 6 => a ||| b
  | _ => a &&& b

/-- The operations of the M extension. A division by zero and the overflow of the most
negative number by -1 have the results that the extension gives. -/
def rvMul (f3 a b : Nat) : Nat :=
  let sa := sext 32 a
  let sb := sext 32 b
  match f3 with
  | 0 => a * b % 2 ^ 32
  | 1 => ofInt 32 (sa * sb / 2 ^ 32)
  | 2 => ofInt 32 (sa * (b : Int) / 2 ^ 32)
  | 3 => a * b / 2 ^ 32
  | 4 => if b = 0 then 2 ^ 32 - 1 else ofInt 32 (Int.tdiv sa sb)
  | 5 => if b = 0 then 2 ^ 32 - 1 else a / b
  | 6 => if b = 0 then a else ofInt 32 (Int.tmod sa sb)
  | _ => if b = 0 then a else a % b

/-- Is a branch taken? None for a condition that does not exist. -/
def rvTaken (f3 a b : Nat) : Option Bool :=
  match f3 with
  | 0 => some (a == b)
  | 1 => some (a != b)
  | 4 => some (decide (sext 32 a < sext 32 b))
  | 5 => some (!decide (sext 32 a < sext 32 b))
  | 6 => some (decide (a < b))
  | 7 => some (!decide (a < b))
  | _ => none

/-! ### Registers -/

/-- A general register; x0 reads zero. -/
def ScalarCore.reg (c : ScalarCore) (n : Nat) : Nat := if n = 0 then 0 else (Table.getD c.regs n 0).toNat

/-- Write a general register; x0 discards it. -/
def ScalarCore.setReg (c : ScalarCore) (n v : Nat) : ScalarCore :=
  if n = 0 then c else { c with regs := Table.put c.regs n (BitVec.ofNat 32 v) }

/-! ### What a part of an instruction answers -/

/-- A value, a wait (the instruction is issued again), or a trap with its exception code. -/
inductive ScOut where
  | ok (v : Nat) (s : State)
  | wait (s : State)
  | trap (cause : Nat) (s : State)

/-- A read of a counter or of the register region: recorded in the logbook, and in
replay taken from there (17 R545, R553). -/
def State.scRecorded (s : State) (t v : Nat) : ScOut :=
  if s.log.held then .wait s
  else if s.replaying then
    match s.replayDecision (0x1000 + t) with
    | some w => .ok (w % 2 ^ 32) (s.logRead t w)
    | none => .wait s
  else .ok v (s.logRead t v)

/-- A read of a register of the region by the core. -/
def State.scReadReg (s : State) (t a : Nat) : ScOut :=
  match regAt a with
  | some (b, i, _) =>
    if s.regIsolated b i then .trap 5 s
    else
      let (v, s') := s.readReg a
      match s'.scRecorded t v.toNat with
      | .ok v s => .ok v s
      | .trap c s => .trap c s
      | .wait _ => .wait s
  | none => .trap 5 s

/-! ### Fetch (R141, 05 R178) -/

/-- The halfword of code at `pc`. -/
def State.scFetchHalf (s : State) (t pc : Nat) : ScOut :=
  if pc / 2 ^ 16 ≠ 0x3000 then .trap 1 s
  else
    let x := s.tile t
    let off := pc % 2 ^ 16
    let line := byteField x.desc 0x50 6 + off / 256 * 256
    if !x.cache.any (fun l => l.addr == line && l.tenant == x.tenant) && !s.memReady true line 256 then .wait s
    else
      match s.cacheLine t line with
      | (.error _, s) => .trap 1 s
      | (.ok v, s) => .ok (byteField v (off % 256) 2) s

/-- The instruction at `pc`: 2^32 times its length in bytes, plus the 32-bit instruction
it stands for. One that does not exist is an illegal instruction. -/
def State.scFetch (s : State) (t pc : Nat) : ScOut :=
  match s.scFetchHalf t pc with
  | .ok lo s =>
    if lo % 4 ≠ 3 then
      match rvExpand lo with
      | some w => .ok (2 * 2 ^ 32 + w) s
      | none => .trap 2 s
    else if lo / 4 % 8 = 7 then .trap 2 s
    else
      match s.scFetchHalf t ((pc + 2) % 2 ^ 32) with
      | .ok hi s => .ok (4 * 2 ^ 32 + hi * 2 ^ 16 + lo) s
      | r => r
  | r => r

/-! ### Loads and stores (R141, R142) -/

/-- What stands at an address of the core's space: module memory of its own tile, its own
register page, or its window. -/
inductive ScPlace where
  | own (a : Nat)
  | page (off : Nat)
  | window (a : Nat)
  | nothing
  deriving DecidableEq, Repr

def scPlace (t win a : Nat) : ScPlace :=
  if a < 0x8000 then .own (tileBase t + 0x30000 + a)
  else if 0x10000000 ≤ a ∧ a < 0x10001000 then .page (a - 0x10000000)
  else if 0x20000000 ≤ a ∧ a < 0x20030000 then .own (tileBase t + (a - 0x20000000))
  else if 2 ^ 31 ≤ a then .window (win * 2 ^ 31 + (a - 2 ^ 31))
  else .nothing

/-- Read module memory. -/
def State.scReadMem (s : State) (a n : Nat) : ScOut :=
  if !s.memReady true a n then .wait s
  else
    match s.loadNum a n with
    | (some v, s) => .ok v s
    | (none, s) => .trap 5 s

/-- Load `n` bytes: 1, 2 or 4. -/
def State.scLoad (s : State) (t a n : Nat) : ScOut :=
  if a % n ≠ 0 then .trap 4 s
  else
    let x := s.tile t
    match scPlace t x.sc.win.toNat a with
    | .own l => s.scReadMem l n
    | .page off => if n = 4 then s.scReadReg t (registerBase + 0x1000000 + t * 0x1000 + off) else .trap 5 s
    | .window l =>
      if (s.accessCheck x.tenant false l n).isNone && (s.writesHeld l n || !s.memReady true l n) then .wait s
      else
        match s.accessRecord 2 t x.tenant false l n with
        | (some _, s) => .trap 5 s
        | (none, s') =>
          if (regAt l).isSome then
            match s'.scReadReg t l with
            | .wait _ => .wait s
            | r => r
          else s'.scReadMem l n
    | .nothing => .trap 5 s

/-- Store the low `n` bytes of `v`. -/
def State.scStore (s : State) (t a n v : Nat) : ScOut :=
  if a % n ≠ 0 then .trap 6 s
  else
    let x := s.tile t
    match scPlace t x.sc.win.toNat a with
    | .own l => .ok 0 (s.writeNum l n v)
    | .page off => if n = 4 then .ok 0 (s.writeTile t off v) else .trap 7 s
    | .window l =>
      if (s.accessCheck x.tenant true l n).isNone && (s.writesHeld l n || !s.memReady false l n) then .wait s
      else
        match s.accessRecord 2 t x.tenant true l n with
        | (some _, s) => .trap 7 s
        | (none, s) =>
          match regAt l with
          | some (.tile, i, off) => .trap 7 (s.tileDenied (.scalar t) i off)
          | some _ =>
            let (st, s) := s.writeReg (.scalar t) l v
            if st = 0 then .ok 0 s else .trap 7 s
          | none => if s.fencedIn l n then .trap 7 (s.writeNum l n v) else .ok 0 (s.writeNum l n v)
    | .nothing => .trap 7 s

/-! ### Execution -/

/-- A counter: cycle, time, instret and their high halves. -/
def State.scCounter (s : State) (t csr : Nat) : Option Nat :=
  let c := (s.tile t).sc
  match csr with
  | 0xC00 => some (c.cycle.toNat % 2 ^ 32)
  | 0xC01 => some (s.time % 2 ^ 32)
  | 0xC02 => some (c.instret.toNat % 2 ^ 32)
  | 0xC80 => some (c.cycle.toNat / 2 ^ 32)
  | 0xC81 => some (s.time / 2 ^ 32 % 2 ^ 32)
  | 0xC82 => some (c.instret.toNat / 2 ^ 32)
  | _ => none

/-- SYSTEM instructions: ECALL, EBREAK and reads of the counters. -/
def State.scSystem (s : State) (t w : Nat) : ScOut :=
  match rvF3 w with
  | 0 => if w = 0x73 then .trap 11 s else if w = 0x00100073 then .trap 3 s else .trap 2 s
  | 2 | 3 | 6 | 7 =>
    if rvRs1 w ≠ 0 then .trap 2 s
    else
      match s.scCounter t (bits w 20 12) with
      | some v => s.scRecorded t v
      | none => .trap 2 s
  | _ => .trap 2 s

/-- Width in bytes of a load or store, and sign extension of a loaded value. -/
def rvWidth (f3 : Nat) : Nat := 2 ^ (f3 % 4)
def rvExtend (f3 v : Nat) : Nat := if f3 < 4 then ofInt 32 (sext (8 * rvWidth f3) v) else v

/-- The instruction's result for rd (none: it writes none), its next pc, and the state. -/
inductive ScDone where
  | done (rd : Option Nat) (npc : Nat) (s : State)
  | wait (s : State)
  | trap (cause : Nat) (s : State)

/-- A value for rd, and on to the next instruction. -/
def ScOut.toReg (npc : Nat) (f : Nat → Nat) : ScOut → ScDone
  | .ok v s => .done (some (f v)) npc s
  | .wait s => .wait s
  | .trap c s => .trap c s

/-- Run the instruction `w` at `pc`, `len` bytes long. -/
def State.scRun (s : State) (t pc len w : Nat) : ScDone :=
  let c := (s.tile t).sc
  let npc := (pc + len) % 2 ^ 32
  let a := c.reg (rvRs1 w)
  let b := c.reg (rvRs2 w)
  match w % 128 with
  | 0x37 => .done (some (rvImmU w)) npc s
  | 0x17 => .done (some ((pc + rvImmU w) % 2 ^ 32)) npc s
  | 0x6F => .done (some npc) ((pc + rvImmJ w) % 2 ^ 32) s
  | 0x67 =>
    if rvF3 w = 0 then .done (some npc) ((a + rvImmI w) % 2 ^ 32 / 2 * 2) s else .trap 2 s
  | 0x63 =>
    match rvTaken (rvF3 w) a b with
    | some taken => .done none (if taken then (pc + rvImmB w) % 2 ^ 32 else npc) s
    | none => .trap 2 s
  | 0x03 =>
    if rvF3 w = 3 ∨ 5 < rvF3 w then .trap 2 s
    else (s.scLoad t ((a + rvImmI w) % 2 ^ 32) (rvWidth (rvF3 w))).toReg npc (rvExtend (rvF3 w))
  | 0x23 =>
    if 2 < rvF3 w then .trap 2 s
    else
      match s.scStore t ((a + rvImmS w) % 2 ^ 32) (rvWidth (rvF3 w)) b with
      | .ok _ s => .done none npc s
      | .wait s => .wait s
      | .trap c s => .trap c s
  | 0x13 =>
    let shift := rvF3 w == 1 || rvF3 w == 5
    if shift && !(rvF7 w == 0 || (rvF7 w == 0x20 && rvF3 w == 5)) then .trap 2 s
    else .done (some (rvAlu (rvF3 w) (shift && rvF7 w == 0x20) a (rvImmI w))) npc s
  | 0x33 =>
    if rvF7 w = 1 then .done (some (rvMul (rvF3 w) a b)) npc s
    else if rvF7 w = 0 ∨ (rvF7 w = 0x20 ∧ (rvF3 w = 0 ∨ rvF3 w = 5)) then
      .done (some (rvAlu (rvF3 w) (rvF7 w == 0x20) a b)) npc s
    else .trap 2 s
  | 0x0F => if rvF3 w = 0 then .done none npc s else .trap 2 s
  | 0x73 => (s.scSystem t w).toReg npc id
  | _ => .trap 2 s

/-- A trap: the core stops, the cause and the address of the instruction are recorded,
and the descriptor ends with ST_TILE_SC_TRAP (R142, R166). -/
def State.scTrap (s : State) (t cause : Nat) : State :=
  (s.updTile t (fun x => { x with sc := { x.sc with
    state := 3, cause := BitVec.ofNat 4 cause, trapPc := x.sc.pc } })).failDesc t ST_TILE_SC_TRAP 3 0

/-- An instruction retires: its result, the next pc, and the counts. -/
def State.scRetire (s : State) (t : Nat) (rd : Nat) (v : Option Nat) (npc : Nat) : State :=
  (s.updTile t (fun x =>
    let c := match v with
      | some v => x.sc.setReg rd v
      | none => x.sc
    { x with lastProgress := s.time
             sc := { c with pc := BitVec.ofNat 32 npc, instret := c.instret + 1 } })).cntQuay (t / 64) 6 1

/-- SC_INSTRUCTION: the scalar core of tile `t` executes one instruction; `cyc` is the
handshake cycles that have passed on the tile since the one before. -/
def execScInstruction (t cyc time : Nat) (s : State) : Out :=
  let s := s.at time
  let x := s.tile t
  if !((x.mode == .running || x.mode == .stopping) && x.active && x.ending.isNone && x.sc.state == 1) then .next s
  else
    let s := s.updTile t (fun x => { x with sc := { x.sc with cycle := x.sc.cycle + BitVec.ofNat 64 cyc } })
    let pc := x.sc.pc.toNat
    match s.scFetch t pc with
    | .wait s => .next s
    | .trap c s => .next (s.scTrap t c)
    | .ok v s =>
      let w := v % 2 ^ 32
      match s.scRun t pc (v / 2 ^ 32) w with
      | .wait s => .next s
      | .trap c s => .next (s.scTrap t c)
      | .done rd npc s => .next (s.scRetire t (rvRd w) rd npc)

end Sys2Proof.Machine
end

