-- ==== Sys2Proof/Machine/Sideband.lean ====
section
/-! DEFINITION. The I3C sideband: private writes and reads, common commands and in-band
interrupts (23 R688 to R690). -/

namespace Sys2Proof.Machine

def State.updI3c (s : State) (f : I3c → I3c) : State := { s with i3c := f s.i3c }

/-- Does the target take part on the bus: AUX is good and it has an address? -/
def State.i3cOn (s : State) : Bool := s.bring.vaux && s.i3c.addr.isSome

/-- Are the rails on and the wake complete? -/
def State.mainUp (s : State) : Bool := s.bring.wakeStep == 8

/-! ### Private writes and reads (R689, R690) -/

/-- The result of a register operation. -/
def State.i3cResult (s : State) (st : Status) (v : Word) : State :=
  s.updI3c (fun i => { i with mailbox := false, regStatus := st, regValue := v })

/-- Is a register available while the main domain is off: PWR_, THM_, RST_, and the
mirrored alarms? -/
def auxRegister (a : Nat) : Bool :=
  match regAt a with
  | some (.pwr, _, _) => true
  | some (.thm, _, _) => true
  | some (.rst, _, _) => true
  | some (.trc, 0, o) => o == 0x8044 || (decide (0x8800 ≤ o) && decide (o < 0x8A00))
  | _ => false

/-- A register operation at an offset: its format and the availability of the register
are checked first. -/
def State.i3cRegister (s : State) (off : Nat) (f : Nat → State → Status × Word × State) : State :=
  let a := registerBase + off
  if off % 4 ≠ 0 ∨ (regAt a).isNone then s.i3cResult ST_I3C_FMT 0
  else if !auxRegister a && !s.mainUp then s.i3cResult ST_I3C_NO_MAIN 0
  else
    match f a s with
    | (st, v, s) => s.i3cResult st v

/-- I3C_MBX_REQ: `bs` are the bytes after the operation byte. While a request is busy
the write is not acknowledged. -/
def execI3cMbxReq (bs : List Byte) (t : Nat) (s : State) : Out :=
  let s := s.at t
  let msg := natOfBytes bs
  if !s.i3cOn || s.i3c.mbxState == 1 then .next s
  else if bs.length < 16 ∨ 256 < bs.length ∨ bs.length ≠ 8 * byteField msg 1 1 then .next (s.i3cResult ST_I3C_FMT 0)
  else if !s.mainUp then
    .next (s.updI3c (fun i =>
      { i with mailbox := true, mbxState := 2, ibiRsp := i.ibiRsp || i.ibiOn
               rsp := BitVec.ofNat 2048 (response msg ST_I3C_NO_MAIN 0 [] []) }))
  else
    let s := s.logArb 0x605 (agentOf 0 0)
    .next ((s.updI3c (fun i => { i with mailbox := true, mbxState := 1 })).submit .i3c msg)

/-- I3C_REG_READ: `bs` are the bytes after the operation byte, an offset. -/
def execI3cRegRead (bs : List Byte) (t : Nat) (s : State) : Out :=
  let s := s.at t
  if !s.i3cOn then .next s
  else if bs.length ≠ 4 then .next (s.i3cResult ST_I3C_FMT 0)
  else
    .next (s.i3cRegister (natOfBytes bs) (fun a s =>
      match regAt a with
      | some (b, i, _) =>
        if s.regIsolated b i then (ST_RST_BLOCK_ISOLATED, 0, s) else let (v, s) := s.readReg a; (0, v, s)
      | none => (ST_I3C_FMT, 0, s)))

/-- I3C_REG_WRITE: an offset and a value. -/
def execI3cRegWrite (bs : List Byte) (t : Nat) (s : State) : Out :=
  let s := s.at t
  if !s.i3cOn then .next s
  else if bs.length ≠ 8 then .next (s.i3cResult ST_I3C_FMT 0)
  else
    .next (s.i3cRegister (natOfBytes (bs.take 4)) (fun a s =>
      let (st, s) := s.writeReg .i3c a (natOfBytes (bs.drop 4))
      (st, 0, s)))

/-- I3C_MBX_POLL: no byte follows the operation byte. -/
def execI3cMbxPoll (bs : List Byte) (s : State) : Out :=
  if !s.i3cOn then .next s
  else if !bs.isEmpty then .next (s.i3cResult ST_I3C_FMT 0)
  else .next (s.updI3c (fun i => { i with mailbox := true }))

/-- I3C_PRIVATE_READ: the result selected last; a ready response is taken. -/
def execI3cPrivateRead (s : State) : Out :=
  if !s.i3cOn then .next s
  else
    let i := s.i3c
    if i.mailbox then
      let m := if i.mbxState = 2 then bytesOfNat (8 * byteField i.rsp.toNat 1 1) i.rsp.toNat else []
      .next ((s.memRespond 0 0 (bytesOfNat 1 1 ++ bytesOfNat 1 i.mbxState.toNat ++ m)).updI3c (fun i =>
        { i with mbxState := if i.mbxState = 2 then 0 else i.mbxState }))
    else
      .next (s.memRespond 0 0 (bytesOfNat 2 2 ++ bytesOfNat 2 i.regStatus.toNat ++ bytesOfNat 4 i.regValue.toNat))

/-! ### Common commands (R688) -/

/-- The answer to a common command that reads, most significant byte first. -/
def State.i3cAnswer (s : State) (n v : Nat) : Out :=
  .next (if s.i3cOn then s.memRespond 0 0 (bytesOfNat n v).reverse else s)

/-- ENTDAA: a target with no address takes the one assigned. -/
def execEntdaa (addr : BitVec 7) (s : State) : Out :=
  .next (if s.bring.vaux ∧ s.i3c.addr.isNone then s.updI3c (fun i => { i with addr := some addr }) else s)

/-- RSTDAA. -/
def execRstdaa (s : State) : Out := .next (s.updI3c (fun i => { i with addr := none }))

/-- GETPID: 0x0F5 in bits 47 to 33, bit 32 set, and the low half of the serial. -/
def execGetpid (s : State) : Out := s.i3cAnswer 6 (0x0F5 * 2 ^ 33 + 2 ^ 32 + Config.serial.toNat % 2 ^ 32)

/-- GETBCR. -/
def execGetbcr (s : State) : Out := s.i3cAnswer 1 0x06

/-- GETDCR. -/
def execGetdcr (s : State) : Out := s.i3cAnswer 1 0x00

/-- GETSTATUS: the two status bytes, whose values the spec does not give. -/
def execGetstatus (s : State) : Out :=
  let (v, s) := s.freshLong
  s.i3cAnswer 2 (v.toNat % 2 ^ 16)

/-- Has an alarm been mirrored for which no interrupt has been sent? -/
def State.alarmIbi (s : State) : Bool :=
  s.i3c.ibiAlarm || (s.i3c.ibiOn && s.events.alarmCnt != s.i3c.alarmSeen)

/-- ENEC with its events byte: bit 0 enables in-band interrupts, for what arises from
now on. -/
def execEnec (v : Nat) (s : State) : Out :=
  .next (if s.i3cOn && bit v 0 && !s.i3c.ibiOn then
      s.updI3c (fun i => { i with ibiOn := true, alarmSeen := s.events.alarmCnt })
    else s)

/-- DISEC: bit 0 disables them; what is pending stays. -/
def execDisec (v : Nat) (s : State) : Out :=
  .next (if s.i3cOn && bit v 0 then
      s.updI3c (fun i => { i with ibiOn := false, ibiAlarm := s.alarmIbi, alarmSeen := s.events.alarmCnt })
    else s)

/-- GETMWL. -/
def execGetmwl (s : State) : Out := s.i3cAnswer 2 s.i3c.mwl.toNat

/-- GETMRL: the maximum read length, and the one data byte of an interrupt. -/
def execGetmrl (s : State) : Out := s.i3cAnswer 3 (s.i3c.mrl.toNat * 256 + 1)

/-- SETMWL: not above 264. -/
def execSetmwl (v : Nat) (s : State) : Out :=
  .next (if s.i3cOn then s.updI3c (fun i => { i with mwl := BitVec.ofNat 16 (min 264 (v % 65536)) }) else s)

/-- SETMRL: not above 264. -/
def execSetmrl (v : Nat) (s : State) : Out :=
  .next (if s.i3cOn then s.updI3c (fun i => { i with mrl := BitVec.ofNat 16 (min 264 (v % 65536)) }) else s)

/-! ### In-band interrupts (R690) -/

/-- IBI_SEND: an interrupt that is pending wins the bus and is sent with its data
byte: 1 for a response, 2 for an alarm. -/
def execIbiSend (b : Nat) (s : State) : Out :=
  if !s.i3cOn || !s.i3c.ibiOn then .next s
  else if b = 1 ∧ s.i3c.ibiRsp then .next ((s.memRespond 0 0 (bytesOfNat 1 1)).updI3c (fun i => { i with ibiRsp := false }))
  else if b = 2 ∧ s.alarmIbi then
    .next ((s.memRespond 0 0 (bytesOfNat 1 2)).updI3c (fun i =>
      { i with ibiAlarm := false, alarmSeen := s.events.alarmCnt }))
  else .next s

end Sys2Proof.Machine
end

