-- ==== Sys2Proof/Machine/Dispatch.lean ====
section
/-! DEFINITION. The effect of each command: one arm per row of spec/opcode_table.json. -/

namespace Sys2Proof.Machine

def exec (i : Instr) (s : State) : Host.Outcome State Fault Refusal :=
  match i with
  -- Registers of quays (chapter 01)
  | .registerWrite r a v t => Sys2Proof.Machine.execRegisterWrite r a v t s
  | .quaySpareMapWrite r q n v => Sys2Proof.Machine.execQuaySpareMapWrite r q n v s
  -- Pace and supply (chapter 02)
  | .paceWindowEnd q cur mv t => Sys2Proof.Machine.execPaceWindowEnd q cur mv t s
  | .pacePredUpdate q => Sys2Proof.Machine.execPacePredUpdate q s
  | .paceVsetStepWrite r q v => Sys2Proof.Machine.execPaceVsetStepWrite r q v s
  | .supplySettled q t => Sys2Proof.Machine.execSupplySettled q t s
  | .park r q t => Sys2Proof.Machine.execPark r q t s
  | .unpark r q t => Sys2Proof.Machine.execUnpark r q t s
  | .unparkReady q t => Sys2Proof.Machine.execUnparkReady q t s
  | .paceIssueWrite r q v => Sys2Proof.Machine.execPaceIssueWrite r q v s
  | .clrMinmax q v => Sys2Proof.Machine.execClrMinmax q v s
  | .refclkLost t => Sys2Proof.Machine.execRefclkLost t s
  -- Tiles and their descriptors (chapters 04 and 05)
  | .tileStart r t => Sys2Proof.Machine.execTileStart r t s
  | .tileStop r t => Sys2Proof.Machine.execTileStop r t s
  | .tileResume r t => Sys2Proof.Machine.execTileResume r t s
  | .tileAbort r t => Sys2Proof.Machine.execTileAbort r t s
  | .tileAbortDone t => Sys2Proof.Machine.execTileAbortDone t s
  | .scEnd r t => Sys2Proof.Machine.execScEnd r t s
  | .dcInv r t => Sys2Proof.Machine.execDcInv r t s
  | .cfgPendWrite r t w v => Sys2Proof.Machine.execCfgPendWrite r t w v s
  | .fetch r t => Sys2Proof.Machine.execFetch r t s
  | .fetchStart r t => Sys2Proof.Machine.execFetchStart r t s
  | .descFetchDone t => Sys2Proof.Machine.execDescFetchDone t s
  | .residentSetReady t => Sys2Proof.Machine.execResidentSetReady t s
  | .preRecWrite r t w v => Sys2Proof.Machine.execPreRecWrite r t w v s
  | .tecSignalWrite r t n => Sys2Proof.Machine.execTecSignalWrite r t n s
  | .tileFence r t => Sys2Proof.Machine.execTileFence r t s
  | .descComplete t => Sys2Proof.Machine.execDescComplete t s
  | .tileDqDeadlock t => Sys2Proof.Machine.execTileDqDeadlock t s
  | .dqWaitRelease t ex => Sys2Proof.Machine.execDqWaitRelease t ex s
  | .signalQueueApply t ex => Sys2Proof.Machine.execSignalQueueApply t ex s
  -- Operations of a tile program (chapter 05)
  | .nop t ex => Sys2Proof.Machine.execNop t ex s
  | .loop t ex => Sys2Proof.Machine.execLoop t ex s
  | .endloop t ex => Sys2Proof.Machine.execEndloop t ex s
  | .preempt t ex => Sys2Proof.Machine.execPreempt t ex s
  | .preemptPointStop t => Sys2Proof.Machine.execPreemptPointStop t s
  | .signal t ex => Sys2Proof.Machine.execSignal t ex s
  | .wait t ex => Sys2Proof.Machine.execWait t ex s
  | .sync t ex => Sys2Proof.Machine.execSync t ex s
  | .endStream t ex => Sys2Proof.Machine.execEnd t ex s
  | .load t => Sys2Proof.Machine.execLoad t s
  | .store t => Sys2Proof.Machine.execStore t s
  | .dma t => Sys2Proof.Machine.execDma t s
  | .tileDmaComplete t id => Sys2Proof.Machine.execTileDmaComplete t id s
  | .opfill t => Sys2Proof.Machine.execOpfill t s
  | .mma t => Sys2Proof.Machine.execMma t s
  | .accrel t => Sys2Proof.Machine.execAccrel t s
  | .vadd t => Sys2Proof.Machine.execVadd t s
  | .vsub t => Sys2Proof.Machine.execVsub t s
  | .vmul t => Sys2Proof.Machine.execVmul t s
  | .vfma t => Sys2Proof.Machine.execVfma t s
  | .vmin t => Sys2Proof.Machine.execVmin t s
  | .vmax t => Sys2Proof.Machine.execVmax t s
  | .vcmplt t => Sys2Proof.Machine.execVcmplt t s
  | .vcmpeq t => Sys2Proof.Machine.execVcmpeq t s
  | .vsel t => Sys2Proof.Machine.execVsel t s
  | .vdiv t => Sys2Proof.Machine.execVdiv t s
  | .vsqrt t => Sys2Proof.Machine.execVsqrt t s
  | .vexp t => Sys2Proof.Machine.execVexp t s
  | .vexp2 t => Sys2Proof.Machine.execVexp2 t s
  | .vlog t => Sys2Proof.Machine.execVlog t s
  | .vrcp t => Sys2Proof.Machine.execVrcp t s
  | .vrsqrt t => Sys2Proof.Machine.execVrsqrt t s
  | .vtanh t => Sys2Proof.Machine.execVtanh t s
  | .vsigm t => Sys2Proof.Machine.execVsigm t s
  | .vsilu t => Sys2Proof.Machine.execVsilu t s
  | .vgelut t => Sys2Proof.Machine.execVgelut t s
  | .vgelue t => Sys2Proof.Machine.execVgelue t s
  | .rsum t => Sys2Proof.Machine.execRsum t s
  | .rmax t => Sys2Proof.Machine.execRmax t s
  | .rmin t => Sys2Proof.Machine.execRmin t s
  | .rsumsq t => Sys2Proof.Machine.execRsumsq t s
  | .vld t => Sys2Proof.Machine.execVld t s
  | .vst t => Sys2Proof.Machine.execVst t s
  | .accrd t => Sys2Proof.Machine.execAccrd t s
  | .accwr t => Sys2Proof.Machine.execAccwr t s
  | .vimm t => Sys2Proof.Machine.execVimm t s
  | .vbcast t => Sys2Proof.Machine.execVbcast t s
  -- The scalar core (chapter 04)
  | .scInstruction t cyc time => Sys2Proof.Machine.execScInstruction t cyc time s
  -- Queues and graphs (chapter 07)
  | .doorbell f v => Sys2Proof.Machine.execDoorbell f v s
  | .entryRead t => Sys2Proof.Machine.execEntryRead t s
  | .shadowWrite q t => Sys2Proof.Machine.execShadowWrite q t s
  | .run seq => Sys2Proof.Machine.execRun seq s
  | .graphLoad seq => Sys2Proof.Machine.execGraphLoad seq s
  | .launch seq => Sys2Proof.Machine.execLaunch seq s
  | .unload seq => Sys2Proof.Machine.execUnload seq s
  | .nodeDispatch seq node t cands rows => Sys2Proof.Machine.execNodeDispatch seq node t cands rows s
  | .nodeHead t => Sys2Proof.Machine.execNodeHead t s
  | .dispatchTimeout seq node t => Sys2Proof.Machine.execDispatchTimeout seq node t s
  | .nodeComplete seq node => Sys2Proof.Machine.execNodeComplete seq node s
  | .unitFailure seq node => Sys2Proof.Machine.execUnitFailure seq node s
  | .graphComplete seq t => Sys2Proof.Machine.execGraphComplete seq t s
  | .graphWatchdog seq t => Sys2Proof.Machine.execGraphWatchdog seq t s
  -- Pilot placement (chapter 08)
  | .calWindowEnd counts t => Sys2Proof.Machine.execCalWindowEnd counts t s
  | .rebalance busy t => Sys2Proof.Machine.execRebalance busy t s
  | .moveStart table idx t => Sys2Proof.Machine.execMoveStart table idx t s
  | .moveCopyDone table idx t => Sys2Proof.Machine.execMoveCopyDone table idx t s
  | .moveAbandon table idx t => Sys2Proof.Machine.execMoveAbandon table idx t s
  | .moveFreeOld table idx t => Sys2Proof.Machine.execMoveFreeOld table idx t s
  | .peerPlaceTimeout t => Sys2Proof.Machine.execPeerPlaceTimeout t s
  -- Compute stacks (chapter 09)
  | .stkDescStart c t => Sys2Proof.Machine.execStkDescStart c t s
  | .rowcopy c idx => Sys2Proof.Machine.execRowcopy c idx s
  | .rowinit c idx => Sys2Proof.Machine.execRowinit c idx s
  | .rowand c idx => Sys2Proof.Machine.execRowand c idx s
  | .rowor c idx => Sys2Proof.Machine.execRowor c idx s
  | .rowxor c idx => Sys2Proof.Machine.execRowxor c idx s
  | .rownot c idx => Sys2Proof.Machine.execRownot c idx s
  | .gemv c idx => Sys2Proof.Machine.execGemv c idx s
  | .gemvt c idx => Sys2Proof.Machine.execGemvt c idx s
  | .eadd c idx => Sys2Proof.Machine.execEadd c idx s
  | .emul c idx => Sys2Proof.Machine.execEmul c idx s
  | .eact c idx => Sys2Proof.Machine.execEact c idx s
  | .eglu c idx => Sys2Proof.Machine.execEglu c idx s
  | .escale c idx => Sys2Proof.Machine.execEscale c idx s
  | .norm c idx => Sys2Proof.Machine.execNorm c idx s
  | .smx c idx => Sys2Proof.Machine.execSmx c idx s
  | .topk c idx => Sys2Proof.Machine.execTopk c idx s
  | .reduce c idx => Sys2Proof.Machine.execReduce c idx s
  | .stkDescComplete c idx => Sys2Proof.Machine.execStkDescComplete c idx s
  | .stkChainFail c => Sys2Proof.Machine.execStkChainFail c s
  | .stkSlotCfgWrite r st v => Sys2Proof.Machine.execStkSlotCfgWrite r st v s
  -- Memory tiers and data integrity (chapters 10 and 11)
  | .memoryRead r a n errs t => Sys2Proof.Machine.execMemoryRead r a n errs t s
  | .memoryWrite r a bs t => Sys2Proof.Machine.execMemoryWrite r a bs t s
  | .mergeRetire atom t => Sys2Proof.Machine.execMergeRetire atom t s
  | .ceWriteback atom => Sys2Proof.Machine.execCeWriteback atom s
  | .refresh unit => Sys2Proof.Machine.execRefresh unit s
  | .t1CalLoss stack pc t => Sys2Proof.Machine.execT1CalLoss stack pc t s
  | .t1PcFence stack pc t => Sys2Proof.Machine.execT1PcFence stack pc t s
  | .t2RetrainStart ch t errs temp => Sys2Proof.Machine.execT2RetrainStart ch t errs temp s
  | .t2RetrainDone ch t => Sys2Proof.Machine.execT2RetrainDone ch t s
  | .t2RetrainFail ch t => Sys2Proof.Machine.execT2RetrainFail ch t s
  | .scrubRead unit errs => Sys2Proof.Machine.execScrubRead unit errs s
  | .ceLeak bucket t withRead => Sys2Proof.Machine.execCeLeak bucket t withRead s
  | .ueHandling atom t => Sys2Proof.Machine.execUeHandling atom t s
  | .mirrorRepairResponse t => Sys2Proof.Machine.execMirrorRepairResponse t s
  -- Module DMA (chapter 12)
  | .dmaListStart t => Sys2Proof.Machine.execDmaListStart t s
  | .copy c idx t hostErr => Sys2Proof.Machine.execCopy c idx t hostErr s
  | .fill c idx t => Sys2Proof.Machine.execFill c idx t s
  | .atomic c idx t => Sys2Proof.Machine.execAtomic c idx t s
  | .redadd c idx t hostErr => Sys2Proof.Machine.execRedadd c idx t hostErr s
  | .dmaReadbackDone c idx t hostErr => Sys2Proof.Machine.execDmaReadbackDone c idx t hostErr s
  | .cqReserveRetry c idx t => Sys2Proof.Machine.execCqReserveRetry c idx t s
  | .dmaDescFail c idx t => Sys2Proof.Machine.execDmaDescFail c idx t s
  -- Synchronisation (chapter 13)
  | .soSignal u so v => Sys2Proof.Machine.execSoSignal u so v s
  | .soWait u so v => Sys2Proof.Machine.execSoWait u so v s
  | .soWaitDec u so v => Sys2Proof.Machine.execSoWaitDec u so v s
  | .soSet u so v => Sys2Proof.Machine.execSoSet u so v s
  | .soDec u so v => Sys2Proof.Machine.execSoDec u so v s
  | .bar t ex g => Sys2Proof.Machine.execBar t ex g s
  | .barArrive t ex g => Sys2Proof.Machine.execBarArrive t ex g s
  | .barWait t ex g => Sys2Proof.Machine.execBarWait t ex g s
  | .waiterRetry u => Sys2Proof.Machine.execWaiterRetry u s
  | .soCountWrite r n v => Sys2Proof.Machine.execSoCountWrite r n v s
  -- Serving engine (chapters 14 and 15)
  | .openSeq t => Sys2Proof.Machine.execOpen t s
  | .ready t => Sys2Proof.Machine.execReady t s
  | .credit t => Sys2Proof.Machine.execCredit t s
  | .pause t => Sys2Proof.Machine.execPause t s
  | .resume t => Sys2Proof.Machine.execResume t s
  | .close t => Sys2Proof.Machine.execClose t s
  | .query t => Sys2Proof.Machine.execQuery t s
  | .setPrio t => Sys2Proof.Machine.execSetPrio t s
  | .rebind t => Sys2Proof.Machine.execRebind t s
  | .parkCopyDone idx t => Sys2Proof.Machine.execParkCopyDone idx t s
  | .maxWaitExpiry model stage t => Sys2Proof.Machine.execMaxWaitExpiry model stage t s
  | .stepLaunch model stage t => Sys2Proof.Machine.execStepLaunch model stage t s
  | .stepCompletion step t => Sys2Proof.Machine.execStepCompletion step t s
  | .outputDescriptorWrite idx t => Sys2Proof.Machine.execOutputDescriptorWrite idx t s
  | .ringWriteError idx t => Sys2Proof.Machine.execRingWriteError idx t s
  | .ttlExpiry idx t => Sys2Proof.Machine.execTtlExpiry idx t s
  | .preemption t cands rows => Sys2Proof.Machine.execPreemption t cands rows s
  | .preemptTimeout t => Sys2Proof.Machine.execPreemptTimeout t s
  | .spill t => Sys2Proof.Machine.execSpill t s
  | .spillDone t => Sys2Proof.Machine.execSpillDone t s
  | .restoreDone seq node t => Sys2Proof.Machine.execRestoreDone seq node t s
  | .slowdownWindowEnd t => Sys2Proof.Machine.execSlowdownWindowEnd t s
  -- Fabric (chapter 16)
  | .flitReceived port flit t => Sys2Proof.Machine.execFlitReceived port flit t s
  | .pktRd t => Sys2Proof.Machine.execPktRd t s
  | .pktWr t => Sys2Proof.Machine.execPktWr t s
  | .pktAtomic t => Sys2Proof.Machine.execPktAtomic t s
  | .pktRedadd t => Sys2Proof.Machine.execPktRedadd t s
  | .rspData t => Sys2Proof.Machine.execRspData t s
  | .rspAck t => Sys2Proof.Machine.execRspAck t s
  | .rspErr t => Sys2Proof.Machine.execRspErr t s
  | .mgt t => Sys2Proof.Machine.execMgt t s
  | .twin last t => Sys2Proof.Machine.execTwin last t s
  | .twinAck t => Sys2Proof.Machine.execTwinAck t s
  | .hello t => Sys2Proof.Machine.execHello t s
  | .helloSend p t => Sys2Proof.Machine.execHelloSend p t s
  | .portLost p t => Sys2Proof.Machine.execPortLost p t s
  | .portTrained p lanes rtt t => Sys2Proof.Machine.execPortTrained p lanes rtt t s
  | .portTrainTimeout p t => Sys2Proof.Machine.execPortTrainTimeout p t s
  | .berthAssign serials t => Sys2Proof.Machine.execBerthAssign serials t s
  | .lsaReceived port berth serial seq links t => Sys2Proof.Machine.execLsaReceived port berth serial seq links t s
  | .lsaSend t => Sys2Proof.Machine.execLsaSend t s
  | .routeCommit t => Sys2Proof.Machine.execRouteCommit t s
  | .routeFloodTimeout t => Sys2Proof.Machine.execRouteFloodTimeout t s
  | .reqTimeout tag t => Sys2Proof.Machine.execReqTimeout tag t s
  | .portRetrainTrigger p corr ucw t => Sys2Proof.Machine.execPortRetrainTrigger p corr ucw t s
  | .portRetrainDone p lanes rtt peer t => Sys2Proof.Machine.execPortRetrainDone p lanes rtt peer t s
  | .twinResend t => Sys2Proof.Machine.execTwinResend t s
  | .twinHeartbeat p t => Sys2Proof.Machine.execTwinHeartbeat p t s
  | .twinPairLost t => Sys2Proof.Machine.execTwinPairLost t s
  | .takeoverTimer t => Sys2Proof.Machine.execTakeoverTimer t s
  | .takeoverDone t => Sys2Proof.Machine.execTakeoverDone t s
  -- Faults, incidents and the logbook (chapter 17)
  | .faultReport t => Sys2Proof.Machine.execFaultReport t s
  | .faultAck t => Sys2Proof.Machine.execFaultAck t s
  | .faultSync t => Sys2Proof.Machine.execFaultSync t s
  | .reportTimeout t => Sys2Proof.Machine.execReportTimeout t s
  | .incidentWindowClose suspect t => Sys2Proof.Machine.execIncidentWindowClose suspect t s
  | .incidentHoldExpiry suspect t => Sys2Proof.Machine.execIncidentHoldExpiry suspect t s
  | .tileFailure t now => Sys2Proof.Machine.execTileFailure t now s
  | .markTimeout t => Sys2Proof.Machine.execMarkTimeout t s
  | .markQuiescent t => Sys2Proof.Machine.execMarkQuiescent t s
  | .logFull => Sys2Proof.Machine.execLogFull s
  | .replayDiverged p since t => Sys2Proof.Machine.execReplayDiverged p since t s
  | .replayInputMismatch p => Sys2Proof.Machine.execReplayInputMismatch p s
  | .replayEnd t => Sys2Proof.Machine.execReplayEnd t s
  -- Mailboxes and the host interface (chapters 18, 19 and 22)
  | .mbxGo f t => Sys2Proof.Machine.execMbxGo f t s
  | .mbxTimeout iss t => Sys2Proof.Machine.execMbxTimeout iss t s
  | .mbxResponse => Sys2Proof.Machine.execMbxResponse s
  | .ident iss t => Sys2Proof.Machine.execIdent iss t s
  | .sessionOpen iss t => Sys2Proof.Machine.execSessionOpen iss t s
  | .sessionClose iss t => Sys2Proof.Machine.execSessionClose iss t s
  | .echo iss t => Sys2Proof.Machine.execEcho iss t s
  | .quotaSet iss t => Sys2Proof.Machine.execQuotaSet iss t s
  | .quotaGet iss t => Sys2Proof.Machine.execQuotaGet iss t s
  | .grant iss t => Sys2Proof.Machine.execGrant iss t s
  | .revoke iss t => Sys2Proof.Machine.execRevoke iss t s
  | .grantList iss t => Sys2Proof.Machine.execGrantList iss t s
  | .windowSet iss t => Sys2Proof.Machine.execWindowSet iss t s
  | .evtRingSet iss t => Sys2Proof.Machine.execEvtRingSet iss t s
  | .noteRingSet iss t => Sys2Proof.Machine.execNoteRingSet iss t s
  | .tenantClear iss t => Sys2Proof.Machine.execTenantClear iss t s
  | .functionLevelReset f t => Sys2Proof.Machine.execFunctionLevelReset f t s
  | .qCreate iss t => Sys2Proof.Machine.execQCreate iss t s
  | .qState iss t => Sys2Proof.Machine.execQState iss t s
  | .qDestroy iss t => Sys2Proof.Machine.execQDestroy iss t s
  | .qQuery iss t => Sys2Proof.Machine.execQQuery iss t s
  | .graphAbort iss t => Sys2Proof.Machine.execGraphAbort iss t s
  | .dcInval iss t => Sys2Proof.Machine.execDcInval iss t s
  | .soAlloc iss t => Sys2Proof.Machine.execSoAlloc iss t s
  | .soFree iss t => Sys2Proof.Machine.execSoFree iss t s
  | .soOp iss t => Sys2Proof.Machine.execSoOp iss t s
  | .soCfg iss t => Sys2Proof.Machine.execSoCfg iss t s
  | .barBind iss t => Sys2Proof.Machine.execBarBind iss t s
  | .barUnbind iss t => Sys2Proof.Machine.execBarUnbind iss t s
  | .acBind iss t => Sys2Proof.Machine.execAcBind iss t s
  | .acSet iss t => Sys2Proof.Machine.execAcSet iss t s
  | .acUnbind iss t => Sys2Proof.Machine.execAcUnbind iss t s
  | .pilPlace iss t answer => Sys2Proof.Machine.execPilPlace iss t answer s
  | .pilFree iss t => Sys2Proof.Machine.execPilFree iss t s
  | .pilPin iss t => Sys2Proof.Machine.execPilPin iss t s
  | .pilUnpin iss t => Sys2Proof.Machine.execPilUnpin iss t s
  | .pilMove iss t => Sys2Proof.Machine.execPilMove iss t s
  | .pilTable iss t => Sys2Proof.Machine.execPilTable iss t s
  | .pilThresh iss t => Sys2Proof.Machine.execPilThresh iss t s
  | .pilCalCfg iss t => Sys2Proof.Machine.execPilCalCfg iss t s
  | .modelReg iss t => Sys2Proof.Machine.execModelReg iss t s
  | .modelDereg iss t => Sys2Proof.Machine.execModelDereg iss t s
  | .kvGeomReg iss t => Sys2Proof.Machine.execKvGeomReg iss t s
  | .serveRsv iss t => Sys2Proof.Machine.execServeRsv iss t s
  | .serveCfg iss t => Sys2Proof.Machine.execServeCfg iss t s
  | .memMap iss t => Sys2Proof.Machine.execMemMap iss t s
  | .memResv iss t => Sys2Proof.Machine.execMemResv iss t s
  | .t2Retrain iss t => Sys2Proof.Machine.execT2Retrain iss t s
  | .t2RetrainCfg iss t => Sys2Proof.Machine.execT2RetrainCfg iss t s
  | .scrubCfg iss t => Sys2Proof.Machine.execScrubCfg iss t s
  | .ceCfg iss t => Sys2Proof.Machine.execCeCfg iss t s
  | .berthTable iss t => Sys2Proof.Machine.execBerthTable iss t s
  | .fabEnable iss t => Sys2Proof.Machine.execFabEnable iss t s
  | .portCfg iss t => Sys2Proof.Machine.execPortCfg iss t s
  | .portRetrain iss t => Sys2Proof.Machine.execPortRetrain iss t s
  | .fabCfg iss t => Sys2Proof.Machine.execFabCfg iss t s
  | .twinCfg iss t => Sys2Proof.Machine.execTwinCfg iss t s
  | .twinTakeover iss t => Sys2Proof.Machine.execTwinTakeover iss t s
  | .twinResync iss t => Sys2Proof.Machine.execTwinResync iss t s
  | .logStart iss t => Sys2Proof.Machine.execLogStart iss t s
  | .logStop iss t => Sys2Proof.Machine.execLogStop iss t s
  | .logMark iss t => Sys2Proof.Machine.execLogMark iss t s
  | .replayStart iss t => Sys2Proof.Machine.execReplayStart iss t s
  | .replayStop iss t => Sys2Proof.Machine.execReplayStop iss t s
  | .paceSet iss t => Sys2Proof.Machine.execPaceSet iss t s
  | .pwrLimit iss t => Sys2Proof.Machine.execPwrLimit iss t s
  | .thmRead iss t => Sys2Proof.Machine.execThmRead iss t s
  | .valveSet iss t => Sys2Proof.Machine.execValveSet iss t s
  | .fwLoad iss t hostErr bad down => Sys2Proof.Machine.execFwLoad iss t hostErr bad down s
  | .fwUpdate iss t hostErr ready dead => Sys2Proof.Machine.execFwUpdate iss t hostErr ready dead s
  | .crashDump iss t hostErr => Sys2Proof.Machine.execCrashDump iss t hostErr s
  | .licInstall iss t hostErr => Sys2Proof.Machine.execLicInstall iss t hostErr s
  | .resetModule iss t => Sys2Proof.Machine.execResetModule iss t s
  | .resetBlock iss t => Sys2Proof.Machine.execResetBlock iss t s
  | .blockResetDone bad t => Sys2Proof.Machine.execBlockResetDone bad t s
  | .trcCfg iss t => Sys2Proof.Machine.execTrcCfg iss t s
  | .counterSnapshot iss t => Sys2Proof.Machine.execCounterSnapshot iss t s
  | .trcSink iss t => Sys2Proof.Machine.execTrcSink iss t s
  | .traceRecordWrite u t => Sys2Proof.Machine.execTraceRecordWrite u t s
  | .eventRecordWrite f t ok => Sys2Proof.Machine.execEventRecordWrite f t ok s
  | .msixCoalesceExpiry f vec t => Sys2Proof.Machine.execMsixCoalesceExpiry f vec t s
  | .mbxEvtHeadWrite f v => Sys2Proof.Machine.execMbxEvtHeadWrite f v s
  | .hostBarAccess f bar write off n bs errs t => Sys2Proof.Machine.execHostBarAccess f bar write off n bs errs t s
  -- The I3C sideband (chapter 23)
  | .i3cMbxReq bs t => Sys2Proof.Machine.execI3cMbxReq bs t s
  | .i3cRegRead bs t => Sys2Proof.Machine.execI3cRegRead bs t s
  | .i3cRegWrite bs t => Sys2Proof.Machine.execI3cRegWrite bs t s
  | .i3cMbxPoll bs => Sys2Proof.Machine.execI3cMbxPoll bs s
  | .i3cPrivateRead => Sys2Proof.Machine.execI3cPrivateRead s
  | .entdaa addr => Sys2Proof.Machine.execEntdaa addr s
  | .rstdaa => Sys2Proof.Machine.execRstdaa s
  | .getpid => Sys2Proof.Machine.execGetpid s
  | .getbcr => Sys2Proof.Machine.execGetbcr s
  | .getdcr => Sys2Proof.Machine.execGetdcr s
  | .getstatus => Sys2Proof.Machine.execGetstatus s
  | .enec v => Sys2Proof.Machine.execEnec v s
  | .disec v => Sys2Proof.Machine.execDisec v s
  | .getmwl => Sys2Proof.Machine.execGetmwl s
  | .getmrl => Sys2Proof.Machine.execGetmrl s
  | .setmwl v => Sys2Proof.Machine.execSetmwl v s
  | .setmrl v => Sys2Proof.Machine.execSetmrl v s
  | .ibiSend b => Sys2Proof.Machine.execIbiSend b s
  -- Firmware cores, power and coolant (chapters 19 and 20)
  | .coreWatchdog core cause t => Sys2Proof.Machine.execCoreWatchdog core cause t s
  | .gateOn vin t => Sys2Proof.Machine.execGateOn vin t s
  | .pgood t => Sys2Proof.Machine.execPgood t s
  | .rampTimeout t => Sys2Proof.Machine.execRampTimeout t s
  | .vinUndervoltage vin t => Sys2Proof.Machine.execVinUndervoltage vin t s
  | .vinOvervoltage vin t => Sys2Proof.Machine.execVinOvervoltage vin t s
  | .hsShort cause t => Sys2Proof.Machine.execHsShort cause t s
  | .hsRetry t => Sys2Proof.Machine.execHsRetry t s
  | .retriesClear t => Sys2Proof.Machine.execRetriesClear t s
  | .estimatorUpdate m t => Sys2Proof.Machine.execEstimatorUpdate m t s
  | .thmRestart t => Sys2Proof.Machine.execThmRestart t s
  | .coolantSensorRead inlet outlet t => Sys2Proof.Machine.execCoolantSensorRead inlet outlet t s
  | .softLimitTick t => Sys2Proof.Machine.execSoftLimitTick t s
  | .throttleTick t => Sys2Proof.Machine.execThrottleTick t s
  | .hwPowerClamp w t => Sys2Proof.Machine.execHwPowerClamp w t s
  | .hwPowerClampRelease w t => Sys2Proof.Machine.execHwPowerClampRelease w t s
  | .inputCurrentEmergency idx t => Sys2Proof.Machine.execInputCurrentEmergency idx t s
  | .inputCurrentRelease idx t => Sys2Proof.Machine.execInputCurrentRelease idx t s
  | .valveTick fb t => Sys2Proof.Machine.execValveTick fb t s
  | .valveFbLost t => Sys2Proof.Machine.execValveFbLost t s
  | .valveStuck t => Sys2Proof.Machine.execValveStuck t s
  -- Reset and bring-up (chapter 21)
  | .auxPowerOn => Sys2Proof.Machine.execAuxPowerOn s
  | .perstNAssert t => Sys2Proof.Machine.execPerstNAssert t s
  | .resetNAssert t => Sys2Proof.Machine.execResetNAssert t s
  | .resetStretchEnd perst resetN t => Sys2Proof.Machine.execResetStretchEnd perst resetN t s
  | .moduleWatchdogExpiry t => Sys2Proof.Machine.execModuleWatchdogExpiry t s
  | .rstWdogKick r v t => Sys2Proof.Machine.execRstWdogKick r v t s
  | .rstWdogCtrlWrite r v t => Sys2Proof.Machine.execRstWdogCtrlWrite r v t s
  | .wakeStepDone t => Sys2Proof.Machine.execWakeStepDone t s
  | .wakeStepTimeout rails t => Sys2Proof.Machine.execWakeStepTimeout rails t s
  | .pcieLinkUp t => Sys2Proof.Machine.execPcieLinkUp t s
  | .tileTestDone bad t => Sys2Proof.Machine.execTileTestDone bad t s
  | .t1TrainingDone bad t => Sys2Proof.Machine.execT1TrainingDone bad t s
  | .t2TrainingDone bad t => Sys2Proof.Machine.execT2TrainingDone bad t s
  | .fillDone which t => Sys2Proof.Machine.execFillDone which t s
  | .fwInitDone t => Sys2Proof.Machine.execFwInitDone t s
  | .bringupReady t => Sys2Proof.Machine.execBringupReady t s
  | .bringupTimeout task ran tiles pcs chs t => Sys2Proof.Machine.execBringupTimeout task ran tiles pcs chs t s
  -- Changes that the surroundings report
  | .dramHotChange t2 n temp hot => Sys2Proof.Machine.execDramHotChange t2 n temp hot s
  | .calibrationRegained stack pc t => Sys2Proof.Machine.execCalibrationRegained stack pc t s
  | .pcieCompletionTimeout q c idx t => Sys2Proof.Machine.execPcieCompletionTimeout q c idx t s
  | .mbxEnrolmentEnd core f t => Sys2Proof.Machine.execMbxEnrolmentEnd core f t s
  | .auxPowerLoss vbat t => Sys2Proof.Machine.execAuxPowerLoss vbat t s

end Sys2Proof.Machine
end

