-- ==== Sys2Proof/Machine/Step.lean ====
section
/-! DEFINITION. One step of the module: the command at the front of its queue, or one
tick of the time base (02 R80) when none waits. -/

namespace Sys2Proof.Machine

/-- One tick of the 25 MHz time base: what passes when no command waits. -/
def State.tick (s : State) : State := { s with time := s.time + 1 }

/-- Take the first waiting command and run it on the state with the rest of the queue. -/
def step (s : State) : Host.Outcome State Fault Refusal :=
  match s.pending with
  | [] => .next s.tick
  | c :: rest => exec c { s with pending := rest }

/-- The state with the command that a word spells at the front of its queue; unchanged
where the word spells none. -/
def State.withFetchWord (s : State) (nbits w : Nat) : State :=
  match decodeTableWord nbits w with
  | some c => { s with pending := c :: s.pending }
  | none => s

end Sys2Proof.Machine
end

