-- ==== Sys2Proof/WellFormed.lean ====
section
/-! DEFINITION. Which commands a sender can send: every unit that an operand names is
one the module has, and every register value fits its width (chapters 01, 09, 10, 13, 16,
18, 19 and 23). -/

namespace Sys2Proof

/-- A requester that exists. -/
def Requester.wf : Requester → Bool
  | .host f => decide (f < 1024)
  | .quayCore q => decide (q < 64)
  | .scalar t => decide (t < 4096)
  | .security => true
  | .power => true
  | .scheduler => true
  | .i3c => true

/-- An issuer that exists. -/
def Issuer.wf : Issuer → Bool
  | .func f => decide (f < 1024)
  | .i3c => true
  | .peer h b => decide (h < 2) && decide (b < 2 ^ 13)

/-- A unit that exists at the sync unit. -/
def SyncUnit.wf : SyncUnit → Bool
  | .stream t _ => decide (t < 4096)
  | .node _ _ => true
  | .stack _ _ => true

/-- A pseudo-channel of a stack (stack × 64 + channel), or 1,024 plus a tier-2 channel. -/
def memUnit (u : Nat) : Bool := decide (u < 768) || (decide (1024 ≤ u) && decide (u < 1040))

/-- Widths of a port; 0 where its training gave none. -/
def laneCount (n : Nat) : Bool := decide (n = 0 ∨ n = 2 ∨ n = 4 ∨ n = 8)

/-- Is a command well-formed? -/
def wellFormed : Instr → Bool
  | .registerWrite r a v _ =>
    r.wf && decide (a < 2 ^ 48) && decide (v < 2 ^ 32)
  | .quaySpareMapWrite r q n v =>
    r.wf && decide (q < 64) && decide (n < 4) && decide (v < 2 ^ 32)
  | .paceWindowEnd q _ _ _ =>
    decide (q < 65)
  | .pacePredUpdate q | .supplySettled q _ | .unparkReady q _ =>
    decide (q < 64)
  | .paceVsetStepWrite r q v | .paceIssueWrite r q v =>
    r.wf && decide (q < 64) && decide (v < 2 ^ 32)
  | .park r q _ | .unpark r q _ =>
    r.wf && decide (q < 64)
  | .clrMinmax q v =>
    decide (q < 64) && decide (v < 2 ^ 32)
  | .refclkLost _ | .entryRead _ | .run _ | .graphLoad _ | .launch _ | .unload _ | .nodeDispatch _ _ _ _ _
  | .nodeHead _ | .dispatchTimeout _ _ _ | .nodeComplete _ _ | .unitFailure _ _ | .graphComplete _ _
  | .graphWatchdog _ _ | .calWindowEnd _ _ | .rebalance _ _ | .moveStart _ _ _ | .moveCopyDone _ _ _
  | .moveAbandon _ _ _ | .moveFreeOld _ _ _ | .peerPlaceTimeout _ | .stkDescStart _ _ | .rowcopy _ _
  | .rowinit _ _ | .rowand _ _ | .rowor _ _ | .rowxor _ _ | .rownot _ _ | .gemv _ _ | .gemvt _ _ | .eadd _ _
  | .emul _ _ | .eact _ _ | .eglu _ _ | .escale _ _ | .norm _ _ | .smx _ _ | .topk _ _ | .reduce _ _
  | .stkDescComplete _ _ | .stkChainFail _ | .mergeRetire _ _ | .ceWriteback _ | .ueHandling _ _
  | .mirrorRepairResponse _ | .dmaListStart _ | .copy _ _ _ _ | .fill _ _ _ | .atomic _ _ _
  | .redadd _ _ _ _ | .dmaReadbackDone _ _ _ _ | .cqReserveRetry _ _ _ | .dmaDescFail _ _ _ | .openSeq _
  | .ready _ | .credit _ | .pause _ | .resume _ | .close _ | .query _ | .setPrio _ | .rebind _
  | .parkCopyDone _ _ | .maxWaitExpiry _ _ _ | .stepLaunch _ _ _ | .stepCompletion _ _
  | .outputDescriptorWrite _ _ | .ringWriteError _ _ | .ttlExpiry _ _ | .preemption _ _ _
  | .preemptTimeout _ | .spill _ | .spillDone _ | .restoreDone _ _ _ | .slowdownWindowEnd _ | .pktRd _
  | .pktWr _ | .pktAtomic _ | .pktRedadd _ | .rspData _ | .rspAck _ | .rspErr _ | .mgt _ | .twin _ _
  | .twinAck _ | .hello _ | .berthAssign _ _ | .lsaSend _ | .routeCommit _ | .routeFloodTimeout _
  | .twinResend _ | .twinPairLost _ | .takeoverTimer _ | .takeoverDone _ | .faultReport _ | .faultAck _
  | .faultSync _ | .reportTimeout _ | .incidentWindowClose _ _ | .incidentHoldExpiry _ _ | .markTimeout _
  | .markQuiescent _ | .logFull | .replayDiverged _ _ _ | .replayInputMismatch _ | .replayEnd _
  | .mbxResponse | .blockResetDone _ _ | .i3cPrivateRead | .entdaa _ | .rstdaa | .getpid | .getbcr | .getdcr
  | .getstatus | .getmwl | .getmrl | .gateOn _ _ | .pgood _ | .rampTimeout _ | .vinUndervoltage _ _
  | .vinOvervoltage _ _ | .hsRetry _ | .retriesClear _ | .estimatorUpdate _ _ | .thmRestart _
  | .coolantSensorRead _ _ _ | .softLimitTick _ | .throttleTick _ | .hwPowerClamp _ _
  | .hwPowerClampRelease _ _ | .inputCurrentEmergency _ _ | .inputCurrentRelease _ _ | .valveFbLost _
  | .valveStuck _ | .auxPowerOn | .perstNAssert _ | .resetNAssert _ | .resetStretchEnd _ _ _
  | .moduleWatchdogExpiry _ | .wakeStepDone _ | .wakeStepTimeout _ _ | .pcieLinkUp _ | .tileTestDone _ _
  | .t1TrainingDone _ _ | .t2TrainingDone _ _ | .fwInitDone _ | .bringupReady _
  | .pcieCompletionTimeout _ _ _ _ | .auxPowerLoss _ _ =>
    true
  | .tileStart r t | .tileStop r t | .tileResume r t | .tileAbort r t | .scEnd r t | .dcInv r t | .fetch r t
  | .fetchStart r t | .tileFence r t =>
    r.wf && decide (t < 4096)
  | .tileAbortDone t | .descFetchDone t | .residentSetReady t | .descComplete t | .tileDqDeadlock t
  | .dqWaitRelease t _ | .signalQueueApply t _ | .nop t _ | .loop t _ | .endloop t _ | .preempt t _
  | .preemptPointStop t | .signal t _ | .wait t _ | .sync t _ | .endStream t _ | .load t | .store t | .dma t
  | .tileDmaComplete t _ | .opfill t | .mma t | .accrel t | .vadd t | .vsub t | .vmul t | .vfma t | .vmin t
  | .vmax t | .vcmplt t | .vcmpeq t | .vsel t | .vdiv t | .vsqrt t | .vexp t | .vexp2 t | .vlog t | .vrcp t
  | .vrsqrt t | .vtanh t | .vsigm t | .vsilu t | .vgelut t | .vgelue t | .rsum t | .rmax t | .rmin t
  | .rsumsq t | .vld t | .vst t | .accrd t | .accwr t | .vimm t | .vbcast t | .scInstruction t _ _
  | .tileFailure t _ =>
    decide (t < 4096)
  | .cfgPendWrite r t w v =>
    r.wf && decide (t < 4096) && decide (w < 64) && decide (v < 2 ^ 32)
  | .preRecWrite r t w v =>
    r.wf && decide (t < 4096) && decide (w < 32) && decide (v < 2 ^ 32)
  | .tecSignalWrite r t n =>
    r.wf && decide (t < 4096) && decide (n < 8)
  | .doorbell f v | .mbxEvtHeadWrite f v =>
    decide (f < 1024) && decide (v < 2 ^ 32)
  | .shadowWrite q _ =>
    decide (q < 8192)
  | .stkSlotCfgWrite r st v =>
    r.wf && decide (st < 12) && decide (v < 2 ^ 32)
  | .memoryRead r a n _ _ =>
    r.wf && decide (a < 2 ^ 48) && decide (0 < n)
  | .memoryWrite r a bs _ =>
    r.wf && decide (a < 2 ^ 48) && decide (bs ≠ [])
  | .refresh unit | .scrubRead unit _ =>
    memUnit unit
  | .t1CalLoss stack pc _ | .t1PcFence stack pc _ | .calibrationRegained stack pc _ =>
    decide (stack < 12) && decide (pc < 64)
  | .t2RetrainStart ch _ _ _ | .t2RetrainDone ch _ | .t2RetrainFail ch _ =>
    decide (ch < 16)
  | .ceLeak bucket _ _ =>
    (memUnit bucket || (decide (2048 ≤ bucket) && decide (bucket < 2060)) || (decide (4096 ≤ bucket) && decide (bucket < 4160)))
  | .soSignal u so v | .soWait u so v | .soWaitDec u so v | .soSet u so v | .soDec u so v =>
    u.wf && decide (so < 131072) && decide (v < 2 ^ 32)
  | .bar t _ g | .barArrive t _ g | .barWait t _ g =>
    decide (t < 4096) && decide (g < 64)
  | .waiterRetry u =>
    u.wf
  | .soCountWrite r n v =>
    r.wf && decide (n < 131072) && decide (v < 2 ^ 32)
  | .flitReceived port _ _ | .lsaReceived port _ _ _ _ _ =>
    decide (port < 16)
  | .helloSend p _ | .portLost p _ | .portTrainTimeout p _ | .portRetrainTrigger p _ _ _
  | .twinHeartbeat p _ =>
    decide (p < 16)
  | .portTrained p lanes _ _ | .portRetrainDone p lanes _ _ _ =>
    decide (p < 16) && laneCount lanes
  | .reqTimeout tag _ =>
    decide (tag < 2 ^ 16)
  | .mbxGo f _ | .functionLevelReset f _ | .eventRecordWrite f _ _ =>
    decide (f < 1024)
  | .mbxTimeout iss _ | .ident iss _ | .sessionOpen iss _ | .sessionClose iss _ | .echo iss _
  | .quotaSet iss _ | .quotaGet iss _ | .grant iss _ | .revoke iss _ | .grantList iss _ | .windowSet iss _
  | .evtRingSet iss _ | .noteRingSet iss _ | .tenantClear iss _ | .qCreate iss _ | .qState iss _
  | .qDestroy iss _ | .qQuery iss _ | .graphAbort iss _ | .dcInval iss _ | .soAlloc iss _ | .soFree iss _
  | .soOp iss _ | .soCfg iss _ | .barBind iss _ | .barUnbind iss _ | .acBind iss _ | .acSet iss _
  | .acUnbind iss _ | .pilPlace iss _ _ | .pilFree iss _ | .pilPin iss _ | .pilUnpin iss _ | .pilMove iss _
  | .pilTable iss _ | .pilThresh iss _ | .pilCalCfg iss _ | .modelReg iss _ | .modelDereg iss _
  | .kvGeomReg iss _ | .serveRsv iss _ | .serveCfg iss _ | .memMap iss _ | .memResv iss _ | .t2Retrain iss _
  | .t2RetrainCfg iss _ | .scrubCfg iss _ | .ceCfg iss _ | .berthTable iss _ | .fabEnable iss _
  | .portCfg iss _ | .portRetrain iss _ | .fabCfg iss _ | .twinCfg iss _ | .twinTakeover iss _
  | .twinResync iss _ | .logStart iss _ | .logStop iss _ | .logMark iss _ | .replayStart iss _
  | .replayStop iss _ | .paceSet iss _ | .pwrLimit iss _ | .thmRead iss _ | .valveSet iss _
  | .fwLoad iss _ _ _ _ | .fwUpdate iss _ _ _ _ | .crashDump iss _ _ | .licInstall iss _ _
  | .resetModule iss _ | .resetBlock iss _ | .trcCfg iss _ | .counterSnapshot iss _ | .trcSink iss _ =>
    iss.wf
  | .traceRecordWrite u _ =>
    decide (u < 65)
  | .msixCoalesceExpiry f vec _ =>
    decide (f < 1024) && decide (vec = 1 ∨ vec = 2)
  | .hostBarAccess f bar _ _ _ _ _ _ =>
    decide (f < 1024) && decide (bar = 0 ∨ bar = 2 ∨ bar = 4)
  | .i3cMbxReq bs _ | .i3cRegRead bs _ | .i3cRegWrite bs _ | .i3cMbxPoll bs =>
    decide (bs.length ≤ 264)
  | .enec v | .disec v =>
    decide (v < 256)
  | .setmwl v | .setmrl v =>
    decide (v < 2 ^ 16)
  | .ibiSend b =>
    decide (b = 1 ∨ b = 2)
  | .coreWatchdog core cause _ =>
    decide (core < 67) && decide (cause = 1 ∨ cause = 2)
  | .hsShort cause _ =>
    decide (1 ≤ cause ∧ cause ≤ 3)
  | .valveTick fb _ =>
    decide (fb ≤ 100)
  | .rstWdogKick r v _ | .rstWdogCtrlWrite r v _ =>
    r.wf && decide (v < 2 ^ 32)
  | .fillDone which _ =>
    decide (which < 3)
  | .bringupTimeout task _ _ _ _ _ =>
    decide (task < 7)
  | .dramHotChange t2 n _ _ =>
    decide (n < if t2 then 16 else 12)
  | .mbxEnrolmentEnd core f _ =>
    decide (core < 3) && decide (f < 1024)

end Sys2Proof
end

