-- ==== Sys2Proof/Safety.lean ====
section
/-! DEFINITION. What counts as a good run, in the terms the statements use: what a command
answers, what it leaves of the state, and the canonical form of the memories. -/

namespace Sys2Proof.Machine

/-- The command answers a next state, of which `P` holds. -/
def Gives (c : Instr) (s : State) (P : State → Prop) : Prop := ∃ t, exec c s = .next t ∧ P t

/-- Neither memory lists an address twice or out of order. -/
def State.memOk (s : State) : Prop := Mem.wf s.mem = true ∧ Mem.wf s.hostMem = true

/-- The parts of the state. -/
inductive Part where
  | pending | time | onRing | refclkFailSeen | free | mem | hostMem | quays | central | tiles | tiers | sync | dma | events | trace | hif | hm
  | log | fab | graph | pilot | stks | kv | serving | fw | power | thermal | bring | backup | i3c | agent | resp | licences | mapMode
  deriving DecidableEq, Repr

/-- Every part but those named is as it was. -/
def Keeps (ks : List Part) (s t : State) : Prop :=
  (Part.pending ∈ ks ∨ t.pending = s.pending) ∧
  (Part.time ∈ ks ∨ t.time = s.time) ∧
  (Part.onRing ∈ ks ∨ t.onRing = s.onRing) ∧
  (Part.refclkFailSeen ∈ ks ∨ t.refclkFailSeen = s.refclkFailSeen) ∧
  (Part.free ∈ ks ∨ t.free = s.free) ∧
  (Part.mem ∈ ks ∨ t.mem = s.mem) ∧
  (Part.hostMem ∈ ks ∨ t.hostMem = s.hostMem) ∧
  (Part.quays ∈ ks ∨ t.quays = s.quays) ∧
  (Part.central ∈ ks ∨ t.central = s.central) ∧
  (Part.tiles ∈ ks ∨ t.tiles = s.tiles) ∧
  (Part.tiers ∈ ks ∨ t.tiers = s.tiers) ∧
  (Part.sync ∈ ks ∨ t.sync = s.sync) ∧
  (Part.dma ∈ ks ∨ t.dma = s.dma) ∧
  (Part.events ∈ ks ∨ t.events = s.events) ∧
  (Part.trace ∈ ks ∨ t.trace = s.trace) ∧
  (Part.hif ∈ ks ∨ t.hif = s.hif) ∧
  (Part.hm ∈ ks ∨ t.hm = s.hm) ∧
  (Part.log ∈ ks ∨ t.log = s.log) ∧
  (Part.fab ∈ ks ∨ t.fab = s.fab) ∧
  (Part.graph ∈ ks ∨ t.graph = s.graph) ∧
  (Part.pilot ∈ ks ∨ t.pilot = s.pilot) ∧
  (Part.stks ∈ ks ∨ t.stks = s.stks) ∧
  (Part.kv ∈ ks ∨ t.kv = s.kv) ∧
  (Part.serving ∈ ks ∨ t.serving = s.serving) ∧
  (Part.fw ∈ ks ∨ t.fw = s.fw) ∧
  (Part.power ∈ ks ∨ t.power = s.power) ∧
  (Part.thermal ∈ ks ∨ t.thermal = s.thermal) ∧
  (Part.bring ∈ ks ∨ t.bring = s.bring) ∧
  (Part.backup ∈ ks ∨ t.backup = s.backup) ∧
  (Part.i3c ∈ ks ∨ t.i3c = s.i3c) ∧
  (Part.agent ∈ ks ∨ t.agent = s.agent) ∧
  (Part.resp ∈ ks ∨ t.resp = s.resp) ∧
  (Part.licences ∈ ks ∨ t.licences = s.licences) ∧
  (Part.mapMode ∈ ks ∨ t.mapMode = s.mapMode)

/-- In a table, nothing changes but what stands at one index. -/
def OnlyAt {α : Type} (old new : Table α) (k : Nat) : Prop := ∀ j, j ≠ k → Table.find new j = Table.find old j

/-- Every byte of memory outside [lo, hi) reads as it did. -/
def SameOutside (old new : Mem) (lo hi : Nat) : Prop :=
  ∀ a, (a < lo ∨ hi ≤ a) → Mem.read new a = Mem.read old a

/-- A stream of a tile stands at the operation `w` of this opcode and can issue it. -/
abbrev State.standsAt (s : State) (t : Nat) (ex : Bool) (opc w : Nat) : Prop :=
  (s.tile t).opWord ex = some w ∧ bits w 0 8 = opc ∧ (s.tile t).canIssue ex = true
    ∧ ((s.tile t).stream ex).wait = .none

/-- A value of each of the 64 lanes of VA, VB and VC. -/
def laneResults {α : Type} (x : Tile) (w : Nat) (f : BitVec 32 → BitVec 32 → BitVec 32 → α) : List α :=
  let lane (v i : Nat) : BitVec 32 := ((x.lanes v)[i]?).getD 0
  (List.range 64).map (fun i => f (lane (bits w 13 5) i) (lane (bits w 18 5) i) (lane (bits w 23 5) i))

/-- The one value of a reduction. -/
def reduceResult (x : Tile) (w : Nat) (chunk : List (BitVec 32) → BitVec 32)
    (combine : BitVec 32 → BitVec 32 → BitVec 32) : BitVec 32 :=
  let n := if bits w 32 7 = 0 then 64 else bits w 32 7
  let r := chunk ((x.lanes (bits w 13 5)).take n)
  if bit w 39 then combine (((x.lanes (bits w 8 5))[0]?).getD 0) r else r

/-- What a lane operation of opcode `opc` does wherever the execute stream stands at one:
every lane of VD gets `f` of the lanes of VA, VB and VC, the flags are added to those of the
descriptor, and nothing else of the tile's registers changes (05 R189). -/
def LaneOp (c : Nat → Instr) (opc : Nat)
    (f : BitVec 32 → BitVec 32 → BitVec 32 → BitVec 32 × ArithFlags) : Prop :=
  ∀ (s : State) (t w : Nat), s.standsAt t true opc w → Gives (c t) s (fun u =>
    (u.tile t).lanes (bits w 8 5) = laneResults (s.tile t) w (fun a b c => (f a b c).1)
    ∧ (u.tile t).flags = (laneResults (s.tile t) w (fun a b c => (f a b c).2)).foldl (· ||| ·) (s.tile t).flags
    ∧ OnlyAt (s.tile t).vregs (u.tile t).vregs (bits w 8 5) ∧ (u.tile t).xs.pc = (s.tile t).xs.pc + 1
    ∧ OnlyAt s.tiles u.tiles t ∧ Keeps [.tiles, .trace] s u)

/-- What a reduction of opcode `opc` does: lanes 0 to N − 1 of VA give the chunk's result,
combined with lane 0 of VD where ACC is 1, in every lane of VD (05 R190). -/
def ReduceOp (c : Nat → Instr) (opc : Nat) (chunk : List (BitVec 32) → BitVec 32)
    (combine : BitVec 32 → BitVec 32 → BitVec 32) : Prop :=
  ∀ (s : State) (t w : Nat), s.standsAt t true opc w → Gives (c t) s (fun u =>
    (u.tile t).lanes (bits w 8 5) =
      List.replicate 64 (reduceResult (s.tile t) w chunk combine)
    ∧ OnlyAt (s.tile t).vregs (u.tile t).vregs (bits w 8 5) ∧ (u.tile t).xs.pc = (s.tile t).xs.pc + 1
    ∧ OnlyAt s.tiles u.tiles t ∧ Keeps [.tiles, .trace] s u)

/-- Is a unit of the sync unit a stream of a tile? -/
def isStream : SyncUnit → Bool
  | .stream _ _ => true
  | _ => false

/-- Descriptor `i` of chain `c` is `d`, of this opcode, and runs. -/
def State.runsDesc (s : State) (c i d opc : Nat) : Bool :=
  match Table.find s.stks.chains c with
  | none => false
  | some x =>
    !x.stopped && (x.descs[i]?).map (fun w => w.toNat) == some d && sdOpc d == opc &&
      (match x.running.find? (fun r => r.idx == i) with
       | some r => !r.done && r.failed.isNone
       | none => false) && !sdOverlaps d

/-- Tenant of a chain. -/
def State.chainTenant (s : State) (c : Nat) : Nat := ((Table.find s.stks.chains c).map (fun x => x.tenant)).getD 0

/-- Descriptor `i` of chain `c` has run with these flags. -/
def State.ranDesc (s : State) (c i : Nat) (fl : ArithFlags) : Bool :=
  match Table.find s.stks.chains c with
  | none => false
  | some x =>
    (match x.running.find? (fun r => r.idx == i) with
     | some r => r.done && r.flags == fl && r.failed.isNone
     | none => false)

/-- Bytes of the vector buffer of a stack, as a chain has written it. -/
def State.vbBytes (s : State) (c stack o n : Nat) : Option (List Byte) :=
  match Table.find s.stks.chains c with
  | none => none
  | some x => Mem.readBytes (Table.getD x.vb stack []) o n

/-- Values as the vector buffer holds them in a type, without scales. -/
def vbValues (d : Nat) (vs : List (BitVec 32)) : List Byte :=
  bytesOfNat ((vs.length * typeBits (sdStoredType d) + 7) / 8) (packElems (typeBits (sdStoredType d))
    (vs.map (fun v => (convElem (sdStoredType d) (sdSat d) .rne (ofFp32 v)).1)))

/-- A descriptor works in the vector buffer of one stack, on one vector without scales. -/
abbrev vectorForm (d st ox oo : Nat) : Prop :=
  sdStacks d = [st] ∧ sdB d = 1 ∧ sdXMode d = 0 ∧ sdDest d = 0 ∧ sdOutMode d = 0
    ∧ vbOff (sdXAddr d) = some ox ∧ vbOff (sdOut d) = some oo

/-- Element i of the one vector of a descriptor. -/
def xValue (d : Nat) (xs : List Byte) (i : Nat) : BitVec 32 := (xFp32 d (natOfBytes xs) 0 0 i).1

/-- What an operation of opcode `opc` in SRU place does with one vector in the vector buffer
of one stack: with `xN d` elements and `auxN d` FP32 values at AUX_ADDR, the values `f d` gives of the elements
and of those are written at OUT_ADDR, and no other byte of the buffer changes. -/
def SruOp (cmd : Nat → Nat → Instr) (opc : Nat) (p : Nat → Bool) (xN auxN : Nat → Nat)
    (f : Nat → (Nat → BitVec 32) → (Nat → BitVec 32) → List (BitVec 32)) : Prop :=
  ∀ (s : State) (c i d st ox oa oo : Nat) (xs az : List Byte),
    s.runsDesc c i d opc = true → vectorForm d st ox oo → sdNbu d = false → p d = true →
    (auxN d = 0 ∨ vbOff (sdAux d) = some oa) →
    s.vbBytes c st ox ((xN d * typeBits (sdXType d) + 7) / 8) = some xs →
    s.vbBytes c st oa (4 * auxN d) = some az →
    Gives (cmd c i) s (fun u =>
      u.vbBytes c st oo (vbValues d (f d (xValue d xs) (fp32At (natOfBytes az)))).length
        = some (vbValues d (f d (xValue d xs) (fp32At (natOfBytes az))))
      ∧ (∀ a, (a < oo ∨ oo + (vbValues d (f d (xValue d xs) (fp32At (natOfBytes az)))).length ≤ a) →
          u.vbBytes c st a 1 = s.vbBytes c st a 1)
      ∧ (∀ k, k ≠ st → u.vbBytes c k = s.vbBytes c k) ∧ (∃ fl, u.ranDesc c i fl = true)
      ∧ OnlyAt s.stks.chains u.stks.chains c ∧ OnlyAt s.stks.units u.stks.units st
      ∧ Keeps [.free, .stks] s u)

/-- The values a normalisation writes, by its FUNC: RMS, layer, sum of squares, sum, and sum
of squares about a centre (09 R306). -/
def normValues (d : Nat) (x g : Nat → BitVec 32) : List (BitVec 32) :=
  let n := sdN d
  let xs := (List.range n).map x
  let mean (v : BitVec 32) : BitVec 32 := (fpDiv v (fpOfNat n)).1
  let root (v : BitVec 32) : BitVec 32 := fnApply 0x56 (fpAdd (mean v) (sdScalar d)).1
  match sdFunc d with
  | 0 => (List.range n).map (fun i => (fpMul (fpMul (x i) (root (vecSumSq xs).1)).1 (g i)).1)
  | 1 =>
    let cs := (List.range n).map (fun i => (fpSub (x i) (mean (vecSum xs).1)).1)
    cs.zipIdx.map (fun p =>
      (fpAdd (fpMul (fpMul p.1 (root (vecSumSq cs).1)).1 (g p.2)).1 (g (n + p.2))).1)
  | 2 => [(vecSumSq xs).1]
  | 3 => [(vecSum xs).1]
  | _ => [(vecSumSq ((List.range n).map (fun i => (fpSub (x i) (g 0)).1))).1]

/-- What a row operation with one source does in one near-bank unit, on one row (09 R310). -/
def RowOp1 (cmd : Nat → Nat → Instr) (opc : Nat) (f : Nat → Nat) : Prop :=
  ∀ (s : State) (c i d st : Nat) (a : List Byte),
    s.runsDesc c i d opc = true → sdPaged d = false → sdStacks d = [st] → sdNbuCnt d = 1 → sdN d = 1 →
    (s.nbuRead st (sdNbuFirst d) (sdOff d 0) 1024).1 = some a →
    Gives (cmd c i) s (fun u =>
      u.mem = ((s.nbuRead st (sdNbuFirst d) (sdOff d 0) 1024).2.nbuWrite st (sdNbuFirst d) (sdOff d 2)
        (bytesOfNat 1024 (f (natOfBytes a)))).mem
      ∧ u.ranDesc c i 0 = true ∧ OnlyAt s.stks.chains u.stks.chains c
      ∧ Keeps [.mem, .quays, .tiers, .events, .trace, .log, .fab, .pilot, .stks, .agent] s u)

/-- What a row operation with two sources does in one near-bank unit, on one row. -/
def RowOp2 (cmd : Nat → Nat → Instr) (opc : Nat) (f : Nat → Nat → Nat) : Prop :=
  ∀ (s : State) (c i d st : Nat) (a b : List Byte),
    s.runsDesc c i d opc = true → sdPaged d = false → sdStacks d = [st] → sdNbuCnt d = 1 → sdN d = 1 →
    (s.nbuRead st (sdNbuFirst d) (sdOff d 0) 1024).1 = some a →
    ((s.nbuRead st (sdNbuFirst d) (sdOff d 0) 1024).2.nbuRead st (sdNbuFirst d) (sdOff d 1) 1024).1 = some b →
    Gives (cmd c i) s (fun u =>
      u.mem = (((s.nbuRead st (sdNbuFirst d) (sdOff d 0) 1024).2.nbuRead st (sdNbuFirst d) (sdOff d 1) 1024).2.nbuWrite
        st (sdNbuFirst d) (sdOff d 2) (bytesOfNat 1024 (f (natOfBytes a) (natOfBytes b)))).mem
      ∧ u.ranDesc c i 0 = true ∧ OnlyAt s.stks.chains u.stks.chains c
      ∧ Keeps [.mem, .quays, .tiers, .events, .trace, .log, .fab, .pilot, .stks, .agent] s u)

/-- The answer to a packet, as its destination sends it. -/
def State.replyTo (s : State) (q : Packet) (ptype loc : Nat) (data : List Byte) : Packet :=
  { ptype := ptype, vc := 1, esc := false, down := false, dstH := q.srcH, dstB := q.srcB, srcH := s.ownHarbour,
    srcB := s.ownBerth, tenant := q.tenant, tag := q.tag, loc := loc, len := data.length - 1, aop := 0, data := data }

/-- The fabric once the one packet that stood in the inbox, received on port `k`, is answered with `r`. -/
def State.answered1 (s : State) (k : Nat) (q r : Packet) : Fabric :=
  (((({ s with fab := { s.fab with inbox := [] } }) : State).freeSlots k q).sendPacket r).fab

/-- The fabric once that packet is taken and nothing is sent. -/
def State.took1 (s : State) (k : Nat) (q : Packet) : Fabric :=
  ((({ s with fab := { s.fab with inbox := [] } }) : State).freeSlots k q).fab

/-- A management core (0 security, 1 power management, 2 scheduler) serves this admitted request of an issuer
now: it runs, or the request is one that the boot code serves (18 R581). -/
abbrev State.serves (s : State) (iss : Issuer) (core code : Nat) (a : Admitted) : Prop :=
  (s.coreQ core).served iss code = some a ∧ a.mute = false ∧
    (s.coreRuns (64 + core) || (romCmd code && !s.fw.switching.getLsbD 64)) = true

/-- The request has been answered with this status and these results, and has left its queue; the other cores'
queues are as they were. -/
abbrev State.gave (s u : State) (iss : Issuer) (core code : Nat) (a : Admitted) (st : Status) (vals : List Nat) : Prop :=
  u.hif.answers = s.hif.answers ++
      [{ issuer := iss, msg := BitVec.ofNat 2048 (response a.msg.toNat st 0 (((cmdOf code).map (·.res)).getD []) vals) }] ∧
    (u.coreQ core).queue = dropFirst (fun x => x == a) (s.coreQ core).queue ∧
    ((List.range 3).all (fun c => c == core || decide (u.coreQ c = s.coreQ c))) = true

/-- The request's work has begun: it stays in its queue, marked so, and nothing is answered yet. -/
abbrev State.began (s u : State) (core : Nat) (a : Admitted) : Prop :=
  u.hif.answers = s.hif.answers ∧
    (u.coreQ core).queue = changeFirst (fun x => x == a) (fun x => { x with started := true }) (s.coreQ core).queue ∧
    ((List.range 3).all (fun c => c == core || decide (u.coreQ c = s.coreQ c))) = true

/-- The functions, the tenants and the session numbers are as they were. -/
abbrev State.sameHif (s u : State) : Prop :=
  u.hif.funcs = s.hif.funcs ∧ u.hif.tenants = s.hif.tenants ∧ u.hif.lastSession = s.hif.lastSession ∧
    u.hif.vfEnable = s.hif.vfEnable

/-- Events and alarms with these statuses have been raised, in this order: said for stores with no pending entry,
where none is joined to another. -/
abbrev State.raised (s u : State) (sts : List Status) : Prop :=
  s.events.entries = [] → u.events.entries.map (fun e => e.record.status) = sts

end Sys2Proof.Machine
end

