-- ==== Sys2Proof/Certificates/Slice0/Obligations.lean ====
section
/-! DEFINITION. The statements for the provers. -/

open Sys2Proof Sys2Proof.Machine

/-- For every state whose queue begins with a command, step is exec of that command on the state
with the rest of the queue. -/
def Obligations.StepRunsFront : Prop :=
  ∀ (s : State) (c : Instr) (rest : List Instr), s.pending = c :: rest →
    step s = exec c { s with pending := rest }

/-- No command but AUX_POWER_ON lets the time base fall, and AUX_POWER_ON sets it to 0. On an empty
queue a step advances it by one tick and changes nothing else: that an idle step is a tick is
the model's choice (assumption log 2). -/
def Obligations.TimeBase : Prop :=
  (∀ (s : State), s.pending = [] → ∃ u, step s = .next u ∧ u.time = s.time + 1 ∧ Keeps [.time] s u) ∧
  (∀ (s u : State) (c : Instr), c ≠ .auxPowerOn → exec c s = .next u → s.time ≤ u.time) ∧
  (∀ (s : State), Gives .auxPowerOn s (fun u => u.time = 0))

/-- From every state a step answers a next state: no command ends in a machine fault, and every
command has its meaning. -/
def Obligations.StepNeverStops : Prop :=
  ∀ (s : State), ∃ u, step s = .next u

/-- If module memory and the written part of host memory list their addresses strictly rising, they
do so after every step, whatever command it runs. -/
def Obligations.MemoryFormKept : Prop :=
  ∀ (s u : State), s.memOk → step s = .next u → u.memOk

/-- After reset no byte of memory is listed, no command waits, the memory form holds, and the
registers in the list, each with its address, stride, number and value, read as their tables
give. -/
def Obligations.ResetState : Prop :=
  State.reset.memOk ∧ State.reset.mem = [] ∧ State.reset.pending = [] ∧
  (∀ p ∈ ([(0x7F0000000000, 0x1000, 64, 0x0), (0x7F0000000004, 0x1000, 64, 0xFFFF),
        (0x7F0000000010, 0x1000, 64, 0x32), (0x7F000000001C, 0x1000, 64, 0x40),
        (0x7F0000100004, 0x10000, 64, 0x0), (0x7F0000100010, 0x10000, 64, 0x7F),
        (0x7F0000100020, 0x10000, 64, 0x0), (0x7F0000100044, 0x10000, 64, 0x640040),
        (0x7F0001000004, 0x1000, 4096, 0x0), (0x7F0001000040, 0x1000, 4096, 0x400),
        (0x7F0002000008, 0x100000, 12, 0x40), (0x7F0002000040, 0x100000, 12, 0x18),
        (0x7F0002000048, 0x100000, 12, 0x640100), (0x7F0003000008, 0x10000, 16, 0x10040),
        (0x7F0004000000, 0x10000, 14, 0x0), (0x7F0004000004, 0x10000, 16, 0x401001),
        (0x7F0004100014, 0x0, 1, 0xFA), (0x7F0004100024, 0x0, 1, 0x3E81F40),
        (0x7F0004110000, 0x4, 64, 0x0), (0x7F0005001004, 0x0, 1, 0x1000),
        (0x7F0006000004, 0x0, 1, 0x20000), (0x7F0007000018, 0x0, 1, 0x100000),
        (0x7F000700001C, 0x0, 1, 0x7D0), (0x7F0007000024, 0x0, 1, 0x3020064),
        (0x7F000710001C, 0x0, 1, 0xA00), (0x7F0007100010, 0x4, 2, 0x831),
        (0x7F0007100018, 0x0, 1, 0x625), (0x7F0008000000, 0x10000, 64, 0x0),
        (0x7F0009000008, 0x0, 1, 0x190), (0x7F0009000018, 0x4, 2, 0x5DC),
        (0x7F0009010010, 0x0, 1, 0x6400), (0x7F0009010014, 0x0, 1, 0x40064),
        (0x7F0009010040, 0x4, 12, 0x40), (0x7F0009020008, 0x0, 1, 0x0),
        (0x7F0009020010, 0x0, 1, 0x101), (0x7F0009020014, 0x0, 1, 0x19005DC),
        (0x7F00090200C0, 0x0, 1, 0x0), (0x7F000A000008, 0x1000, 1024, 0x0),
        (0x7F000A000010, 0x1000, 1024, 0x0)] : List (Nat × Nat × Nat × Nat)),
    ∀ n < p.2.2.1, State.reset.regValue (p.1 + n * p.2.1) = p.2.2.2)

/-- A register write completes: to an address outside every block with ST_ADDR_UNMAPPED and no
effect, to QUAY_CE_CFG by the scheduler core with the two fields written, and to
QUAY_SPARE_MAPn by its quay control core with the spare mapped and locked; a locked register
ignores it. -/
def Obligations.QuayRegisterWrites : Prop :=
  (∀ (s : State) (r : Requester) (a v t : Nat), regAt a = none →
    Gives (.registerWrite r a v t) s (fun u => u.resp.status = ST_ADDR_UNMAPPED ∧ u.resp.data = []
    ∧ Keeps [.time, .resp] s u)) ∧
  (∀ (s : State) (q v t : Nat), q < 64 → s.underReset q = false →
    Gives (.registerWrite .scheduler (0x7F0000100044 + q * 0x10000) v t) s (fun u => (u.quay q).ceCap = BitVec.ofNat 16 v
    ∧ (u.quay q).ceLeakMs = BitVec.ofNat 16 (v % 2 ^ 32 / 2 ^ 16) ∧ OnlyAt s.quays u.quays q
    ∧ u.resp.status = 0 ∧ Keeps [.time, .resp, .quays] s u)) ∧
  (∀ (s : State) (q n v : Nat), q < 64 → n < 4 → s.underReset q = false →
    (Table.getD (s.quay q).spares n SpareMap.reset).locked = false →
    Gives (.quaySpareMapWrite (.quayCore q) q n v) s (fun u => Table.find (u.quay q).spares n = some { inUse := bit v 31, replaced := BitVec.ofNat 7 v, locked := true }
    ∧ OnlyAt (s.quay q).spares (u.quay q).spares n ∧ OnlyAt s.quays u.quays q ∧ Keeps [.quays] s u)) ∧
  (∀ (s : State) (r : Requester) (q n v : Nat),
    (Table.getD (s.quay q).spares n SpareMap.reset).locked = true →
    Gives (.quaySpareMapWrite r q n v) s (fun u => u = s))

/-- The end of a window gives PACE_CUR, PACE_MINMAX and the measured supply; a prediction gives
PACE_PRED; a STEP is clamped to 10 to 70; ISSUE_N is written by the power-management core
alone; CLR_MINMAX gives PACE_MINMAX its reset values; each leaves the other quays alone. -/
def Obligations.PaceCommands : Prop :=
  (∀ (s : State) (q cur mv t : Nat), q < 64 → (s.quay q).inService = true → (s.quay q).parked = false →
    Gives (.paceWindowEnd q cur mv t) s (fun u => (u.quay q).pace.valid = true
    ∧ (u.quay q).pace.cur = BitVec.ofNat 16 cur ∧ (u.quay q).pace.vmeas = BitVec.ofNat 10 mv
    ∧ (u.quay q).pace.max.toNat = max (s.quay q).pace.max.toNat (cur % 2 ^ 16)
    ∧ (u.quay q).pace.min.toNat = min (s.quay q).pace.min.toNat (cur % 2 ^ 16) ∧ OnlyAt s.quays u.quays q
    ∧ Keeps [.time, .quays, .events, .trace] s u)) ∧
  (∀ (s : State) (q : Nat), s.coreRuns 65 = true →
    Gives (.pacePredUpdate q) s (fun u => (u.quay q).pace.pred = BitVec.ofNat 16 (pacePred (Config.paceTrim q).toNat (s.quay q).pace.vmeas.toNat ((Table.getD s.thermal.nodes q ThermNode.reset).temp * 16 / 1000000000))
    ∧ OnlyAt s.quays u.quays q ∧ Keeps [.quays] s u)) ∧
  (∀ (s : State) (q v : Nat),
    Gives (.paceVsetStepWrite .power q v) s (fun u => (u.quay q).pace.step.toNat = max 10 (min 70 (v % 128))
    ∧ ((u.quay q).pace.vsetClamped = ((s.quay q).pace.vsetClamped || decide (v % 128 < 10 ∨ 70 < v % 128)))
    ∧ OnlyAt s.quays u.quays q ∧ Keeps [.quays, .trace] s u)) ∧
  (∀ (s : State) (q t : Nat), (s.quay q).pace.stageTarget = none →
    Gives (.supplySettled q t) s (fun u => (u.quay q).pace.slewing = false
    ∧ (u.quay q).pace.step = (s.quay q).pace.step ∧ OnlyAt s.quays u.quays q ∧ Keeps [.time, .quays] s u)) ∧
  (∀ (s : State) (q v : Nat),
    Gives (.paceIssueWrite .power q v) s (fun u => (u.quay q).pace.issueN = BitVec.ofNat 7 v
    ∧ OnlyAt s.quays u.quays q ∧ Keeps [.quays] s u)) ∧
  (∀ (s : State) (r : Requester) (q v : Nat), r ≠ .power → Gives (.paceIssueWrite r q v) s (fun u => u = s)) ∧
  (∀ (s : State) (q v : Nat), v % 2 = 1 → Gives (.clrMinmax q v) s (fun u => (u.quay q).pace.max = 0
    ∧ (u.quay q).pace.min = 0xFFFF#16 ∧ OnlyAt s.quays u.quays q ∧ Keeps [.quays] s u))

/-- PARK of a quay that holds no work parks it, ends VALID and loses every byte of its tile memories
and no other byte; UNPARK clears PARK and begins the return; UNPARK_READY makes the quay ready
for dispatch; REFCLK_LOST moves the time base to the ring reference. -/
def Obligations.ParkAndReference : Prop :=
  (∀ (s : State) (q t : Nat), q < 64 → (s.quay q).parked = false →
    s.heldTiles.all (fun k => k / 64 != q) = true →
    Gives (.park .power q t) s (fun u => (u.quay q).pace.park = true ∧ (u.quay q).parked = true
    ∧ (u.quay q).pace.valid = false ∧ Mem.readBytes u.mem (tileBase (64 * q)) 1 = none
    ∧ Mem.readBytes u.mem (tileBase (64 * q + 63) + 0x37FFF) 1 = none
    ∧ SameOutside s.mem u.mem (tileBase (64 * q)) (tileBase (64 * q + 64)) ∧ OnlyAt s.quays u.quays q
    ∧ Keeps [.time, .mem, .quays, .tiles, .trace] s u)) ∧
  (∀ (s : State) (q t : Nat), (s.quay q).pace.park = true →
    Gives (.unpark .power q t) s (fun u => (u.quay q).pace.park = false ∧ (u.quay q).pace.unparking = true
    ∧ OnlyAt s.quays u.quays q ∧ Keeps [.time, .quays] s u)) ∧
  (∀ (s : State) (q t : Nat), (s.quay q).pace.unparking = true → s.graph.graphs = [] →
    Gives (.unparkReady q t) s (fun u => (u.quay q).pace.unparking = false ∧ (u.quay q).parked = false
    ∧ OnlyAt s.quays u.quays q ∧ Keeps [.time, .quays, .trace] s u)) ∧
  (∀ (s : State) (t : Nat), s.onRing = false → Gives (.refclkLost t) s (fun u => u.onRing = true
    ∧ u.refclkFailSeen = true ∧ (s.bring.waking = true → u.bring.refLost = true)
    ∧ Keeps [.time, .onRing, .refclkFailSeen, .bring, .events, .trace] s u))

/-- START of an idle tile whose pending set passes checks 1 to 5 is held for the resident set, of a
running one keeps the pending set, and with one already waiting sets START_LOST; STOP stops an
idle tile and moves a running one to STOPPING; RESUME of a tile stopped from IDLE with no
record leaves STOPPED; ABORT moves a running tile to ABORTING; SC_END ends the scalar core;
DC_INV leaves only locked lines, each marked. -/
def Obligations.TileControl : Prop :=
  (∀ (s : State) (t : Nat), (s.tile t).mode = .idle → (s.tile t).fetchBusy = false →
    (s.tile t).pendValid = false → (s.tile t).prefetch = .none → descHeadCheck (s.tile t).pend = none →
    Gives (.tileStart (.quayCore (t / 64)) t) s (fun u => (u.tile t).startHeld = true
    ∧ (u.tile t).pendValid = true ∧ (u.tile t).cfgPend = (s.tile t).cfgPend ∧ OnlyAt s.tiles u.tiles t
    ∧ Keeps [.tiles, .trace] s u)) ∧
  (∀ (s : State) (t : Nat), (s.tile t).mode = .running → (s.tile t).fetchBusy = false →
    (s.tile t).pendValid = false →
    Gives (.tileStart (.quayCore (t / 64)) t) s (fun u => (u.tile t).pendValid = true
    ∧ (u.tile t).mode = .running ∧ OnlyAt s.tiles u.tiles t ∧ Keeps [.tiles] s u)) ∧
  (∀ (s : State) (t : Nat), (s.tile t).fetchBusy = false → (s.tile t).pendValid = true →
    Gives (.tileStart (.quayCore (t / 64)) t) s (fun u => (u.tile t).startLost = true
    ∧ (u.tile t).cfgPend = (s.tile t).cfgPend ∧ OnlyAt s.tiles u.tiles t
    ∧ Keeps [.tiles, .events, .trace] s u)) ∧
  (∀ (s : State) (t : Nat), (s.tile t).mode = .idle →
    Gives (.tileStop (.quayCore (t / 64)) t) s (fun u => (u.tile t).mode = .stopped
    ∧ (u.tile t).fromIdle = true ∧ OnlyAt s.tiles u.tiles t ∧ Keeps [.tiles] s u)) ∧
  (∀ (s : State) (t : Nat), (s.tile t).mode = .running → (s.tile t).active = true →
    Gives (.tileStop (.quayCore (t / 64)) t) s (fun u => (u.tile t).mode = .stopping
    ∧ OnlyAt s.tiles u.tiles t ∧ Keeps [.tiles] s u)) ∧
  (∀ (s : State) (t : Nat), (s.tile t).mode = .stopped → (s.tile t).active = false →
    (s.tile t).pendValid = false → bit (s.tile t).preRec.toNat 56 = false →
    Gives (.tileResume (.quayCore (t / 64)) t) s (fun u => (u.tile t).mode = .idle
    ∧ OnlyAt s.tiles u.tiles t ∧ Keeps [.tiles] s u)) ∧
  (∀ (s : State) (t : Nat), (s.tile t).mode = .stopped → (s.tile t).active = true →
    Gives (.tileResume (.quayCore (t / 64)) t) s (fun u => (u.tile t).mode = .running
    ∧ (u.tile t).atPoint = false ∧ OnlyAt s.tiles u.tiles t ∧ Keeps [.tiles] s u)) ∧
  (∀ (s : State) (t : Nat), (s.tile t).mode = .running → s.sync.objs = [] →
    Gives (.tileAbort (.quayCore (t / 64)) t) s (fun u => (u.tile t).mode = .aborting
    ∧ (u.tile t).as.ended = true ∧ (u.tile t).xs.ended = true ∧ (u.tile t).dqs = []
    ∧ (u.tile t).sc.state ≠ 1 ∧ (u.tile t).dmas = (s.tile t).dmas ∧ OnlyAt s.tiles u.tiles t
    ∧ Keeps [.tiles, .sync] s u)) ∧
  (∀ (s : State) (t : Nat), (s.tile t).sc.state = 1 →
    Gives (.scEnd (.scalar t) t) s (fun u => (u.tile t).sc.state = 2
    ∧ (u.tile t).sc.regs = (s.tile t).sc.regs ∧ OnlyAt s.tiles u.tiles t ∧ Keeps [.tiles] s u)) ∧
  (∀ (s : State) (t : Nat),
    Gives (.dcInv (.quayCore (t / 64)) t) s (fun u => ((u.tile t).cache.all (fun l => (l.lockAct || l.lockPend) && l.inval)) = true
    ∧ (u.tile t).cache.length ≤ (s.tile t).cache.length ∧ OnlyAt s.tiles u.tiles t ∧ Keeps [.tiles] s u))

/-- A write of TILE_CTRL, TILE_CFG_PEND, TILE_DESC_FETCH, TILE_PRE_REC, TILE_TECn or TILE_FENCE by
any requester but the quay control core of the tile's quay and the tile's own scalar core
changes no tile and no memory, completes with ST_TILE_REG_DENIED, and an event is pending. -/
def Obligations.TileOwnersOnly : Prop :=
  ∀ (s : State) (r : Requester) (t w v : Nat) (c : Instr), ownsTile r t = false →
    c ∈ [.tileStart r t, .tileStop r t, .tileResume r t, .tileAbort r t, .scEnd r t, .dcInv r t, .cfgPendWrite r t w v,
      .fetch r t, .fetchStart r t, .preRecWrite r t w v, .tecSignalWrite r t w, .tileFence r t] →
    Gives c s (fun u => u.events.entries ≠ [] ∧ u.resp.status = ST_TILE_REG_DENIED ∧ Keeps [.events, .trace, .resp] s u)

/-- A word write changes one word of TILE_CFG_PEND while no descriptor waits there, and of
TILE_PRE_REC while the tile is stopped; FETCH and FETCH_START begin a fetch; a fetch that hits
a cached line replaces the pending set with it; the resident set becomes present or its
failure is kept; TEC SIGNAL adds 1; TILE_FENCE changes nothing, since every earlier store has
taken effect. -/
def Obligations.TileLoads : Prop :=
  (∀ (s : State) (t w v : Nat), w < 64 → (s.tile t).pendValid = false →
    Gives (.cfgPendWrite (.quayCore (t / 64)) t w v) s (fun u => bits (u.tile t).cfgPend.toNat (32 * w) 32 = v % 2 ^ 32
    ∧ bits (u.tile t).cfgPend.toNat 0 (32 * w) = bits (s.tile t).cfgPend.toNat 0 (32 * w)
    ∧ (u.tile t).cfgPend.toNat / 2 ^ (32 * w + 32) = (s.tile t).cfgPend.toNat / 2 ^ (32 * w + 32)
    ∧ OnlyAt s.tiles u.tiles t ∧ Keeps [.tiles] s u)) ∧
  (∀ (s : State) (t w v : Nat), w < 32 → (s.tile t).mode = .stopped →
    Gives (.preRecWrite (.quayCore (t / 64)) t w v) s (fun u => bits (u.tile t).preRec.toNat (32 * w) 32 = v % 2 ^ 32
    ∧ bits (u.tile t).preRec.toNat 0 (32 * w) = bits (s.tile t).preRec.toNat 0 (32 * w)
    ∧ OnlyAt s.tiles u.tiles t ∧ Keeps [.tiles] s u)) ∧
  (∀ (s : State) (t w v : Nat), (s.tile t).mode ≠ .stopped →
    Gives (.preRecWrite (.quayCore (t / 64)) t w v) s (fun u => (u.tile t).cfgWrLost = true
    ∧ (u.tile t).preRec = (s.tile t).preRec ∧ OnlyAt s.tiles u.tiles t ∧ Keeps [.tiles] s u)) ∧
  (∀ (s : State) (t : Nat), (s.tile t).pendValid = false → (s.tile t).fetchBusy = false →
    Gives (.fetch (.quayCore (t / 64)) t) s (fun u => (u.tile t).fetchBusy = true
    ∧ (u.tile t).fetchStart = false ∧ OnlyAt s.tiles u.tiles t ∧ Keeps [.tiles, .trace] s u)) ∧
  (∀ (s : State) (t : Nat), (s.tile t).pendValid = false → (s.tile t).fetchBusy = false →
    Gives (.fetchStart (.quayCore (t / 64)) t) s (fun u => (u.tile t).fetchBusy = true
    ∧ (u.tile t).fetchStart = true ∧ OnlyAt s.tiles u.tiles t ∧ Keeps [.tiles, .trace] s u)) ∧
  (∀ (s : State) (t : Nat) (l : CacheLine), (s.tile t).fetchBusy = true → (s.tile t).fetchStart = false →
    (s.tile t).cache = [l] → l.addr = (s.tile t).descAddr.toNat → l.tenant = (s.tile t).tenant →
    Gives (.descFetchDone t) s (fun u => (u.tile t).cfgPend = l.data ∧ (u.tile t).fetchBusy = false
    ∧ (u.tile t).cfgAct = (s.tile t).cfgAct ∧ OnlyAt s.tiles u.tiles t ∧ Keeps [.tiles, .trace] s u)) ∧
  (∀ (s : State) (t : Nat), (s.tile t).prefetch = .none → (s.tile t).startHeld = false →
    descHeadCheck (s.tile t).pend = none →
    Gives (.residentSetReady t) s (fun u => (u.tile t).prefetch ≠ .none
    ∧ (u.tile t).cfgPend = (s.tile t).cfgPend ∧ (u.tile t).mode = (s.tile t).mode)) ∧
  (∀ (s : State) (t n : Nat), n < 8 → ((s.tile t).tec n).count.toNat < 0xFFFF →
    Gives (.tecSignalWrite (.scalar t) t n) s (fun u => ((u.tile t).tec n).count.toNat = ((s.tile t).tec n).count.toNat + 1
    ∧ OnlyAt (s.tile t).tecs (u.tile t).tecs n ∧ OnlyAt s.tiles u.tiles t ∧ Keeps [.tiles] s u)) ∧
  (∀ (s : State) (t : Nat), Gives (.tileFence (.scalar t) t) s (fun u => u = s))

/-- A descriptor whose streams have ended and that left nothing behind completes with status 0,
counted in TILE_DONE_CNT, and leaves the tile IDLE; an aborted tile returns to IDLE with
ST_TILE_ABORTED once its transfers are done; both streams blocked on data queues end it with
ST_TILE_DQ_DEADLOCK. -/
def Obligations.DescriptorEnds : Prop :=
  (∀ (s : State) (t : Nat), (s.tile t).mode = .running → (s.tile t).active = true → (s.tile t).dmas = [] →
    (s.tile t).sigq = [] → (s.tile t).ending = none → (s.tile t).as.ended = true →
    (s.tile t).xs.ended = true → (s.tile t).sc.state ≠ 1 → (s.tile t).dqs = [] →
    (s.tile t).pendValid = false → descDoneEn (s.tile t).desc = false →
    Gives (.descComplete t) s (fun u => (u.tile t).mode = .idle ∧ (u.tile t).doneStatus = 0
    ∧ (u.tile t).doneFlags = (s.tile t).flags ∧ (u.tile t).doneCnt = (s.tile t).doneCnt + 1
    ∧ (u.tile t).active = false ∧ OnlyAt s.tiles u.tiles t ∧ Keeps [.tiles, .trace, .free] s u)) ∧
  (∀ (s : State) (t : Nat), (s.tile t).mode = .aborting → (s.tile t).dmas = [] → (s.tile t).sigq = [] →
    Gives (.tileAbortDone t) s (fun u => (u.tile t).mode = .idle ∧ (u.tile t).doneStatus = ST_TILE_ABORTED
    ∧ (u.tile t).doneCnt = (s.tile t).doneCnt + 1 ∧ (u.tile t).pendValid = false ∧ OnlyAt s.tiles u.tiles t
    ∧ Keeps [.tiles, .trace, .free] s u)) ∧
  (∀ (s : State) (t : Nat), (s.tile t).mode = .running → (s.tile t).active = true → (s.tile t).ending = none
    → (s.tile t).dmas = [] → (s.tile t).sigq = [] → (s.tile t).as.wait = .pop 0 → (s.tile t).xs.ended = true
    → Gives (.tileDqDeadlock t) s (fun u => (u.tile t).mode = .idle
    ∧ (u.tile t).doneStatus = ST_TILE_DQ_DEADLOCK ∧ (u.tile t).errSource = 1 ∧ OnlyAt s.tiles u.tiles t
    ∧ Keeps [.tiles, .trace, .free] s u))

/-- NOP goes on to the next operation; LOOP with a count above 0 opens its level at iteration 0;
ENDLOOP repeats the body below the count and else leaves the level; PREEMPT of a running tile
is a NOP; SIGNAL adds INC, 0 standing for 1, to its counter; WAIT whose counter has reached
THRESH goes on, with DEC subtracting THRESH; END ends the stream. -/
def Obligations.StreamControl : Prop :=
  (∀ (s : State) (t w : Nat) (ex : Bool), s.standsAt t ex 0x00 w →
    Gives (.nop t ex) s (fun u => ((u.tile t).stream ex).pc = ((s.tile t).stream ex).pc + 1
    ∧ OnlyAt s.tiles u.tiles t ∧ Keeps [.tiles, .trace] s u)) ∧
  (∀ (s : State) (t w : Nat) (ex : Bool), s.standsAt t ex 0x01 w → 0 < (s.tile t).loopCount (bits w 8 3) →
    Gives (.loop t ex) s (fun u => ((u.tile t).stream ex).loops = { lvl := bits w 8 3, iter := 0, cnt := (s.tile t).loopCount (bits w 8 3), body := ((s.tile t).stream ex).pc + 1 } :: ((s.tile t).stream ex).loops
    ∧ ((u.tile t).stream ex).pc = ((s.tile t).stream ex).pc + 1 ∧ OnlyAt s.tiles u.tiles t
    ∧ Keeps [.tiles, .trace] s u)) ∧
  (∀ (s : State) (t w : Nat) (ex : Bool) (l : OpenLoop) (r : List OpenLoop), s.standsAt t ex 0x02 w →
    ((s.tile t).stream ex).loops = l :: r → l.iter + 1 < l.cnt →
    Gives (.endloop t ex) s (fun u => ((u.tile t).stream ex).loops = { l with iter := l.iter + 1 } :: r
    ∧ ((u.tile t).stream ex).pc = l.body ∧ OnlyAt s.tiles u.tiles t ∧ Keeps [.tiles, .trace] s u)) ∧
  (∀ (s : State) (t w : Nat) (ex : Bool) (l : OpenLoop) (r : List OpenLoop), s.standsAt t ex 0x02 w →
    ((s.tile t).stream ex).loops = l :: r → l.cnt ≤ l.iter + 1 →
    Gives (.endloop t ex) s (fun u => ((u.tile t).stream ex).loops = r
    ∧ ((u.tile t).stream ex).pc = ((s.tile t).stream ex).pc + 1 ∧ OnlyAt s.tiles u.tiles t
    ∧ Keeps [.tiles, .trace] s u)) ∧
  (∀ (s : State) (t w : Nat) (ex : Bool), s.standsAt t ex 0x03 w → (s.tile t).mode = .running →
    Gives (.preempt t ex) s (fun u => ((u.tile t).stream ex).pc = ((s.tile t).stream ex).pc + 1
    ∧ OnlyAt s.tiles u.tiles t ∧ Keeps [.tiles, .trace] s u)) ∧
  (∀ (s : State) (t w : Nat) (ex : Bool), s.standsAt t ex 0x04 w →
    ((s.tile t).tec (bits w 8 3)).count.toNat + max 1 (bits w 16 16) ≤ 0xFFFF →
    Gives (.signal t ex) s (fun u => ((u.tile t).tec (bits w 8 3)).count.toNat = ((s.tile t).tec (bits w 8 3)).count.toNat + max 1 (bits w 16 16)
    ∧ OnlyAt (s.tile t).tecs (u.tile t).tecs (bits w 8 3)
    ∧ ((u.tile t).stream ex).pc = ((s.tile t).stream ex).pc + 1 ∧ OnlyAt s.tiles u.tiles t
    ∧ Keeps [.tiles, .trace] s u)) ∧
  (∀ (s : State) (t w : Nat) (ex : Bool), s.standsAt t ex 0x05 w →
    bits w 16 16 ≤ ((s.tile t).tec (bits w 8 3)).count.toNat → bit w 11 = true →
    Gives (.wait t ex) s (fun u => ((u.tile t).tec (bits w 8 3)).count.toNat = ((s.tile t).tec (bits w 8 3)).count.toNat - bits w 16 16
    ∧ OnlyAt (s.tile t).tecs (u.tile t).tecs (bits w 8 3)
    ∧ ((u.tile t).stream ex).pc = ((s.tile t).stream ex).pc + 1 ∧ OnlyAt s.tiles u.tiles t
    ∧ Keeps [.tiles, .trace] s u)) ∧
  (∀ (s : State) (t w : Nat) (ex : Bool), s.standsAt t ex 0x05 w →
    bits w 16 16 ≤ ((s.tile t).tec (bits w 8 3)).count.toNat → bit w 11 = false →
    Gives (.wait t ex) s (fun u => (u.tile t).tecs = (s.tile t).tecs
    ∧ ((u.tile t).stream ex).pc = ((s.tile t).stream ex).pc + 1 ∧ OnlyAt s.tiles u.tiles t
    ∧ Keeps [.tiles, .trace] s u)) ∧
  (∀ (s : State) (t w : Nat) (ex : Bool), s.standsAt t ex 0x07 w →
    Gives (.endStream t ex) s (fun u => ((u.tile t).stream ex).ended = true ∧ OnlyAt s.tiles u.tiles t
    ∧ Keeps [.tiles, .trace] s u))

/-- SYNC with a SIGNAL enters the tile's signal queue while that holds fewer than 16 and its stream
goes on; a queued signal that covers no transfer raises the COUNT of its object by its value,
0 standing for 1; both streams at one pre-emption point with nothing in flight stop the tile
and write its record. -/
def Obligations.StreamSync : Prop :=
  (∀ (s : State) (t w : Nat) (ex : Bool), s.standsAt t ex 0x06 w → bits w 8 4 = 0 →
    (s.tile t).sigq.length < 16 →
    Gives (.sync t ex) s (fun u => (u.tile t).sigq = (s.tile t).sigq ++ [{ so := bits w 24 17, inc := bits w 48 16, exec := ex, covers := (s.tile t).coverOf ex }]
    ∧ ((u.tile t).stream ex).pc = ((s.tile t).stream ex).pc + 1 ∧ OnlyAt s.tiles u.tiles t
    ∧ Keeps [.tiles, .trace] s u)) ∧
  (∀ (s : State) (t : Nat) (ex : Bool) (e : QueuedSignal), (s.tile t).sigq = [e] → e.exec = ex →
    e.covers = [] → s.soAllowed (s.tile t).tenant e.so = true → (s.so e.so).waiters = [] →
    (s.so e.so).irqEn = false → (s.so e.so).count.toNat + max 1 e.inc < 2 ^ 32 →
    Gives (.signalQueueApply t ex) s (fun u => (u.so e.so).count.toNat = (s.so e.so).count.toNat + max 1 e.inc
    ∧ (u.tile t).sigq = [] ∧ OnlyAt s.sync.objs u.sync.objs e.so ∧ OnlyAt s.tiles u.tiles t
    ∧ Keeps [.tiles, .sync, .trace] s u)) ∧
  (∀ (s : State) (t i : Nat), (s.tile t).mode = .stopping → (s.tile t).as.wait = .hold i →
    (s.tile t).xs.wait = .hold i → (s.tile t).as.loops = [] → (s.tile t).xs.loops = [] → (s.tile t).dqs = []
    → (s.tile t).matrix = MatrixSt.reset → (s.tile t).dmas = [] → i < 256 →
    Gives (.preemptPointStop t) s (fun u => (u.tile t).mode = .stopped ∧ (u.tile t).atPoint = true
    ∧ (u.tile t).lastId.toNat = i ∧ byteField (u.tile t).preRec.toNat 7 1 = 1
    ∧ byteField (u.tile t).preRec.toNat 5 1 = i ∧ OnlyAt s.tiles u.tiles t ∧ Keeps [.tiles, .trace] s u))

/-- A LOAD that does not transpose appends its bytes of one scratchpad line to its queue; a STORE
writes the bytes it takes to its scratchpad address and no byte outside the words it meets; a
DMA is under way after its operation; a transfer with a null index on its scratchpad side
moves nothing and raises its event counter when it completes, and one with a null index on its
external side writes zeros; an operation that waits on a data queue goes on as the operation
does once it can. -/
def Obligations.AccessStream : Prop :=
  (∀ (s : State) (t w : Nat) (off : Nat) (bs : List Byte), s.standsAt t false 0x10 w → lsTt w = false →
    lsFlush w = false → s.spadAddress t (lsAg w) (lsBytes w) (lsOff w) = .at off →
    Mem.readBytes s.mem (tileBase t + off) (lsBytes w) = some bs → ((s.tile t).dq (lsDq w)).backlog = [] →
    lsBytes w ≤ ((s.tile t).dq (lsDq w)).room →
    Gives (.load t) s (fun u => (u.tile t).dq (lsDq w) = ((s.tile t).dq (lsDq w)).append bs
    ∧ OnlyAt (s.tile t).dqs (u.tile t).dqs (lsDq w) ∧ (u.tile t).as.pc = (s.tile t).as.pc + 1
    ∧ OnlyAt s.tiles u.tiles t ∧ Keeps [.tiles, .trace] s u)) ∧
  (∀ (s : State) (t w : Nat) (off : Nat), s.standsAt t false 0x11 w → lsTt w = false → lsFlush w = false →
    s.pilot.moves = [] → s.spadAddress t (lsAg w) (lsBytes w) (lsOff w) = .at off →
    lsBytes w ≤ ((s.tile t).dq (lsDq w)).avail → off % 8 = 0 → lsBytes w % 8 = 0 → off + lsBytes w ≤ 0x30000
    → t < 4096 →
    Gives (.store t) s (fun u => Mem.readBytes u.mem (tileBase t + off) (lsBytes w) = some (((s.tile t).dq (lsDq w)).take (lsBytes w)).1
    ∧ SameOutside s.mem u.mem (tileBase t + off) (tileBase t + off + lsBytes w)
    ∧ (u.tile t).as.pc = (s.tile t).as.pc + 1 ∧ OnlyAt s.tiles u.tiles t
    ∧ Keeps [.tiles, .mem, .pilot, .trace] s u)) ∧
  (∀ (s : State) (t w : Nat), s.standsAt t false 0x12 w → (s.tile t).dmas = [] →
    s.agAddress t (dmaAgS w) 0 = .null → Gives (.dma t) s (fun u => (u.tile t).dmas.length = 1
    ∧ (u.tile t).nextDma = (s.tile t).nextDma + 1 ∧ (u.tile t).as.pc = (s.tile t).as.pc + 1
    ∧ OnlyAt s.tiles u.tiles t ∧ Keeps [.tiles, .trace] s u)) ∧
  (∀ (s : State) (t : Nat) (d : TileDma), (s.tile t).dmas = [d] → d.nullS = true → d.outstanding = 0 →
    ((s.tile t).tec d.tec).count.toNat < 0xFFFF →
    Gives (.tileDmaComplete t d.id) s (fun u => (u.tile t).dmas = []
    ∧ ((u.tile t).tec d.tec).count.toNat = ((s.tile t).tec d.tec).count.toNat + 1 ∧ OnlyAt s.tiles u.tiles t
    ∧ Keeps [.tiles, .trace] s u)) ∧
  (∀ (s : State) (t : Nat) (d : TileDma), (s.tile t).dmas = [d] → d.nullS = false → d.nullX = true →
    d.out = false → d.outstanding = 0 → s.pilot.moves = [] → d.spad % 8 = 0 → d.len % 8 = 0 → 0 < d.len →
    d.spad + d.len ≤ 0x30000 → t < 4096 →
    Gives (.tileDmaComplete t d.id) s (fun u => Mem.readBytes u.mem (tileBase t + d.spad) d.len = some (List.replicate d.len 0)
    ∧ SameOutside s.mem u.mem (tileBase t + d.spad) (tileBase t + d.spad + d.len) ∧ (u.tile t).dmas = []
    ∧ OnlyAt s.tiles u.tiles t)) ∧
  (∀ (s : State) (t w : Nat), (s.tile t).opWord false = some w → bits w 0 8 = 0x11 → lsTt w = false →
    lsFlush w = false → (s.tile t).canIssue false = true → (s.tile t).as.wait = .pop (lsDq w) →
    s.spadAddress t (lsAg w) (lsBytes w) (lsOff w) = .null → lsBytes w ≤ ((s.tile t).dq (lsDq w)).avail →
    Gives (.dqWaitRelease t false) s (fun u => (u.tile t).as.pc = (s.tile t).as.pc + 1
    ∧ (u.tile t).as.wait = .none ∧ OnlyAt (s.tile t).dqs (u.tile t).dqs (lsDq w) ∧ OnlyAt s.tiles u.tiles t
    ∧ Keeps [.tiles, .trace] s u))

/-- VADD, VSUB, VMUL, VFMA, VMIN, VMAX, VCMPLT, VCMPEQ, VSEL, VDIV and VSQRT give every lane of VD
the result of their operation on the lanes of VA, VB and VC, add its exception flags, advance
the stream and change no other register. -/
def Obligations.LaneArithmetic : Prop :=
  LaneOp .vadd 0x40 (fun a b _ => fpAdd a b)
  ∧ LaneOp .vsub 0x41 (fun a b _ => fpSub a b)
  ∧ LaneOp .vmul 0x42 (fun a b _ => fpMul a b)
  ∧ LaneOp .vfma 0x43 fpFma
  ∧ LaneOp .vmin 0x44 (fun a b _ => (fpMin a b, 0))
  ∧ LaneOp .vmax 0x45 (fun a b _ => (fpMax a b, 0))
  ∧ LaneOp .vcmplt 0x46 (fun a b _ => (fpCmpLt a b, 0))
  ∧ LaneOp .vcmpeq 0x47 (fun a b _ => (fpCmpEq a b, 0))
  ∧ LaneOp .vsel 0x48 (fun a b c => (fpSel a b c, 0))
  ∧ LaneOp .vdiv 0x50 (fun a b _ => fpDiv a b)
  ∧ LaneOp .vsqrt 0x51 (fun a _ _ => fpSqrt a)

/-- VEXP, VEXP2, VLOG, VRCP, VRSQRT, VTANH, VSIGM, VSILU, VGELUT and VGELUE give every lane of VD
their function of the lane of VA and raise no flag; the statement holds whatever the function
is where the spec gives bounds only. -/
def Obligations.LaneFunctions : Prop :=
  LaneOp .vexp 0x52 (fun a _ _ => (fnApply 0x52 a, 0))
  ∧ LaneOp .vexp2 0x53 (fun a _ _ => (fnApply 0x53 a, 0))
  ∧ LaneOp .vlog 0x54 (fun a _ _ => (fnApply 0x54 a, 0))
  ∧ LaneOp .vrcp 0x55 (fun a _ _ => (fnApply 0x55 a, 0))
  ∧ LaneOp .vrsqrt 0x56 (fun a _ _ => (fnApply 0x56 a, 0))
  ∧ LaneOp .vtanh 0x57 (fun a _ _ => (fnApply 0x57 a, 0))
  ∧ LaneOp .vsigm 0x58 (fun a _ _ => (fnApply 0x58 a, 0))
  ∧ LaneOp .vsilu 0x59 (fun a _ _ => (fnApply 0x59 a, 0))
  ∧ LaneOp .vgelut 0x5A (fun a _ _ => (fnApply 0x5A a, 0))
  ∧ LaneOp .vgelue 0x5B (fun a _ _ => (fnApply 0x5B a, 0))

/-- RSUM, RMAX, RMIN and RSUMSQ reduce lanes 0 to N − 1 of VA, N = 0 standing for 64, combine the
result with lane 0 of VD where ACC is 1, and put it in every lane of VD. -/
def Obligations.Reductions : Prop :=
  ReduceOp .rsum 0x60 (fun l => (chunkSum l).1) (fun a b => (fpAdd a b).1)
  ∧ ReduceOp .rmax 0x61 chunkMax fpMax
  ∧ ReduceOp .rmin 0x62 chunkMin fpMin
  ∧ ReduceOp .rsumsq 0x63 (fun l => (chunkSumSq l).1) (fun a b => (fpAdd a b).1)

/-- VIMM writes its immediate and VBCAST lane LANE of VA to every lane of VD; ACCRD reads two rows
of the oldest held bank as FP32; ACCWR writes two rows of it and leaves the others; VLD in
scale mode 0 converts whole entries of its queue; VST in scale mode 0 appends the converted
lanes to its queue. -/
def Obligations.VectorMoves : Prop :=
  (∀ (s : State) (t w : Nat), s.standsAt t true 0x6C w →
    Gives (.vimm t) s (fun u => (u.tile t).lanes (bits w 8 5) = List.replicate 64 (BitVec.ofNat 32 (bits w 32 32))
    ∧ OnlyAt (s.tile t).vregs (u.tile t).vregs (bits w 8 5) ∧ (u.tile t).xs.pc = (s.tile t).xs.pc + 1
    ∧ OnlyAt s.tiles u.tiles t ∧ Keeps [.tiles, .trace] s u)) ∧
  (∀ (s : State) (t w : Nat), s.standsAt t true 0x6D w →
    Gives (.vbcast t) s (fun u => (u.tile t).lanes (bits w 8 5) = List.replicate 64 ((((s.tile t).lanes (bits w 13 5))[bits w 32 6]?).getD 0)
    ∧ OnlyAt (s.tile t).vregs (u.tile t).vregs (bits w 8 5) ∧ (u.tile t).xs.pc = (s.tile t).xs.pc + 1
    ∧ OnlyAt s.tiles u.tiles t ∧ Keeps [.tiles, .trace] s u)) ∧
  (∀ (s : State) (t w : Nat) (b : AccBank) (r : List AccBank), s.standsAt t true 0x6A w →
    (s.tile t).matrix.held = b :: r →
    Gives (.accrd t) s (fun u => (u.tile t).lanes (bits w 8 5) = (List.range 64).map (fun i => (toFp32 (b.value (64 * bits w 14 4 + i))).1)
    ∧ (u.tile t).matrix = (s.tile t).matrix ∧ OnlyAt (s.tile t).vregs (u.tile t).vregs (bits w 8 5)
    ∧ (u.tile t).xs.pc = (s.tile t).xs.pc + 1 ∧ OnlyAt s.tiles u.tiles t ∧ Keeps [.tiles, .trace] s u)) ∧
  (∀ (s : State) (t w : Nat) (b : AccBank) (r : List AccBank), s.standsAt t true 0x6B w →
    (s.tile t).matrix.held = b :: r → b.int = false →
    Gives (.accwr t) s (fun u => (u.tile t).matrix.held = { b with data := ((u.tile t).matrix.held.headD b).data } :: r
    ∧ (List.range 64).map (fun i => BitVec.ofNat 32 (packedElem ((u.tile t).matrix.held.headD b).data.toNat 32 (64 * bits w 14 4 + i))) = (s.tile t).lanes (bits w 8 5)
    ∧ ((u.tile t).matrix.held.headD b).data.toNat % 2 ^ (2048 * bits w 14 4) = b.data.toNat % 2 ^ (2048 * bits w 14 4)
    ∧ ((u.tile t).matrix.held.headD b).data.toNat / 2 ^ (2048 * bits w 14 4 + 2048) = b.data.toNat / 2 ^ (2048 * bits w 14 4 + 2048)
    ∧ (u.tile t).vregs = (s.tile t).vregs ∧ (u.tile t).xs.pc = (s.tile t).xs.pc + 1
    ∧ OnlyAt s.tiles u.tiles t ∧ Keeps [.tiles, .trace] s u)) ∧
  (∀ (s : State) (t w : Nat) (data : Nat) (q : DataQueue), s.standsAt t true 0x68 w → bits w 40 2 = 0 →
    ((s.tile t).dq (bits w 32 2)).popEntries (vldEntries (bits w 36 4)) = some (data, q) →
    Gives (.vld t) s (fun u => (u.tile t).lanes (bits w 8 5) = (List.range 64).map (fun i => (loadFp32 (bits w 36 4) 0 (packedElem data (typeBits (bits w 36 4)) i) 0 0).1)
    ∧ (u.tile t).dq (bits w 32 2) = q ∧ OnlyAt (s.tile t).vregs (u.tile t).vregs (bits w 8 5)
    ∧ (u.tile t).xs.pc = (s.tile t).xs.pc + 1 ∧ OnlyAt s.tiles u.tiles t ∧ Keeps [.tiles, .trace] s u)) ∧
  (∀ (s : State) (t w : Nat), s.standsAt t true 0x69 w → bits w 40 2 = 0 →
    ((s.tile t).dq (bits w 32 2)).backlog = [] →
    8 * typeBits (bits w 36 4) ≤ ((s.tile t).dq (bits w 32 2)).room →
    Gives (.vst t) s (fun u => (u.tile t).dq (bits w 32 2) = ((s.tile t).dq (bits w 32 2)).append (bytesOfNat (8 * typeBits (bits w 36 4)) (packElems (typeBits (bits w 36 4)) ((List.range 64).map (fun i => (convElem (bits w 36 4) (descSat (s.tile t).desc) (descRMode (s.tile t).desc ((s.tile t).outCount + i)) (ofFp32 ((((s.tile t).lanes (bits w 8 5))[i]?).getD 0))).1))))
    ∧ (u.tile t).outCount = (s.tile t).outCount + 64 ∧ (u.tile t).vregs = (s.tile t).vregs
    ∧ (u.tile t).xs.pc = (s.tile t).xs.pc + 1 ∧ OnlyAt s.tiles u.tiles t ∧ Keeps [.tiles, .trace] s u))

/-- OPFILL of an S2 buffer takes one entry of its queue; an MMA whose block both begins and ends at
this group, with both operands filled and no accumulator input, adds the group to a bank of
zeros, holds that bank, uses the older register of each operand up and moves on to the other
bank; ACCREL in scale mode 0 lets the oldest held bank go and counts 1,024 converted elements. -/
def Obligations.MatrixCommands : Prop :=
  (∀ (s : State) (t w : Nat) (e : BitVec 512) (r : List (BitVec 512)), s.standsAt t true 0x20 w →
    bits w 10 2 = 0 → bits w 12 2 = 2 → (s.tile t).xs.popped = [] →
    (s.tile t).dq (bits w 8 2) = { DataQueue.reset with entries := e :: r } →
    Gives (.opfill t) s (fun u => (u.tile t).matrix.a = { (s.tile t).matrix.a with s2 := some e, s2Used := 0 }
    ∧ (u.tile t).matrix.b = (s.tile t).matrix.b ∧ (u.tile t).matrix.held = (s.tile t).matrix.held
    ∧ OnlyAt (s.tile t).dqs (u.tile t).dqs (bits w 8 2) ∧ (u.tile t).xs.pc = (s.tile t).xs.pc + 1
    ∧ OnlyAt s.tiles u.tiles t ∧ Keeps [.tiles, .trace] s u)) ∧
  (∀ (s : State) (t w : Nat) (k : PairKind), s.standsAt t true 0x21 w → bits w 24 6 = 0 → bit w 30 = false →
    pairKind (bits w 8 4) (bits w 12 4) (bits w 16 2) (bits w 18 2) = some k →
    (s.tile t).matrix.block = none → (s.tile t).matrix.bankFree (s.tile t).matrix.nextBank = true →
    (s.tile t).matrix.a.ready (bits w 8 4) (bits w 16 2) = true →
    (s.tile t).matrix.b.ready (bits w 12 4) (bits w 18 2) = true →
    Gives (.mma t) s (fun u => (u.tile t).matrix.held = (s.tile t).matrix.held ++ [{ bank := (s.tile t).matrix.nextBank, int := k == .int, data := BitVec.ofNat 32768 (addGroup k (s.tile t).matrix.a (s.tile t).matrix.b (bits w 8 4) (bits w 12 4) (bits w 16 2) (bits w 18 2) 0).1 }]
    ∧ (u.tile t).matrix.block = none ∧ (u.tile t).matrix.nextBank = 1 - (s.tile t).matrix.nextBank
    ∧ (u.tile t).matrix.a.slices = (s.tile t).matrix.a.slices.drop 1
    ∧ (u.tile t).matrix.b.slices = (s.tile t).matrix.b.slices.drop 1
    ∧ (u.tile t).xs.pc = (s.tile t).xs.pc + 1 ∧ OnlyAt s.tiles u.tiles t ∧ Keeps [.tiles, .trace] s u)) ∧
  (∀ (s : State) (t w : Nat) (b : AccBank) (r : List AccBank), s.standsAt t true 0x22 w → bits w 16 2 = 0 →
    (s.tile t).matrix.held = b :: r → ((s.tile t).dq (bits w 10 2)).backlog = [] →
    Gives (.accrel t) s (fun u => (u.tile t).matrix.held = r
    ∧ (u.tile t).outCount = (s.tile t).outCount + 1024
    ∧ (u.tile t).dq (bits w 10 2) = ((s.tile t).dq (bits w 10 2)).offer (convBank b (bits w 12 4) 0 (descSat (s.tile t).desc) (fun i => descRMode (s.tile t).desc ((s.tile t).outCount + i)) 0).1
    ∧ OnlyAt (s.tile t).dqs (u.tile t).dqs (bits w 10 2) ∧ (u.tile t).xs.pc = (s.tile t).xs.pc + 1
    ∧ OnlyAt s.tiles u.tiles t ∧ Keeps [.tiles, .trace] s u))

/-- ADDI in the descriptor cache writes the sum to its register, x0 discarding it, moves the pc by 4
and counts one retired instruction; ECALL stops the core with cause 11, its address in
TILE_SC_PC, and ends the descriptor with ST_TILE_SC_TRAP. -/
def Obligations.ScalarInstruction : Prop :=
  (∀ (s : State) (t cyc now rd rs imm : Nat) (l : CacheLine), (s.tile t).mode = .running →
    (s.tile t).active = true → (s.tile t).ending = none → (s.tile t).sc.state = 1 →
    (s.tile t).sc.pc = 0x30000000#32 → (s.tile t).cache = [l] → l.addr = byteField (s.tile t).desc 0x50 6 →
    l.tenant = (s.tile t).tenant → rd < 32 → rs < 32 → imm < 2 ^ 11 →
    l.data.toNat % 2 ^ 32 = rvMkI 0x13 0 rd rs imm → Gives (.scInstruction t cyc now) s (fun u => (rd ≠ 0 →
    (u.tile t).sc.reg rd = ((s.tile t).sc.reg rs + imm) % 2 ^ 32) ∧ (u.tile t).sc.reg 0 = 0
    ∧ OnlyAt (s.tile t).sc.regs (u.tile t).sc.regs rd ∧ (u.tile t).sc.pc = 0x30000004#32
    ∧ (u.tile t).sc.instret = (s.tile t).sc.instret + 1 ∧ (u.tile t).sc.state = 1 ∧ OnlyAt s.tiles u.tiles t
    ∧ Keeps [.time, .tiles, .trace] s u)) ∧
  (∀ (s : State) (t cyc now : Nat) (l : CacheLine), (s.tile t).mode = .running → (s.tile t).active = true →
    (s.tile t).ending = none → (s.tile t).dmas = [] → (s.tile t).sigq = [] → (s.tile t).sc.state = 1 →
    (s.tile t).sc.pc = 0x30000000#32 → (s.tile t).cache = [l] → l.addr = byteField (s.tile t).desc 0x50 6 →
    l.tenant = (s.tile t).tenant → l.data.toNat % 2 ^ 32 = 0x73 →
    Gives (.scInstruction t cyc now) s (fun u => (u.tile t).sc.state = 3 ∧ (u.tile t).sc.cause = 11
    ∧ (u.tile t).sc.trapPc = 0x30000000#32 ∧ (u.tile t).sc.regs = (s.tile t).sc.regs
    ∧ (u.tile t).mode = .idle ∧ (u.tile t).doneStatus = ST_TILE_SC_TRAP ∧ OnlyAt s.tiles u.tiles t
    ∧ Keeps [.time, .tiles, .trace, .free] s u))

/-- A doorbell by the queue's own tenant within the ring writes TAIL and no more; one beyond the
ring leaves every queue as it was and raises an event; the engine reads the entry at HEAD of
the queue it turns to, gives it the next SEQ and moves HEAD on; a due shadow in host memory
receives HEAD. -/
def Obligations.QueueCommands : Prop :=
  (∀ (s : State) (f v : Nat) (x : HwQueue), (s.func f).inReset = false → s.logging = false →
    s.tenantLicensed f = true → s.serving.models = [] → s.hwq (bits v 0 13) = some x → x.tenant = f →
    x.enabled = true → (BitVec.ofNat 17 (bits v 13 17) - x.head).toNat ≤ 2 ^ x.sizeLog2 →
    (BitVec.ofNat 17 (bits v 13 17) - x.tail).toNat ≤ 2 ^ x.sizeLog2 →
    Gives (.doorbell f v) s (fun u => u.hwq (bits v 0 13) = some { x with tail := BitVec.ofNat 17 (bits v 13 17) }
    ∧ OnlyAt s.graph.queues u.graph.queues (bits v 0 13)
    ∧ u.graph = { s.graph with queues := u.graph.queues } ∧ Keeps [.graph] s u)) ∧
  (∀ (s : State) (f v : Nat) (x : HwQueue), (s.func f).inReset = false → s.logging = false →
    s.tenantLicensed f = true → s.serving.models = [] → s.hwq (bits v 0 13) = some x → x.tenant = f →
    x.enabled = true → 2 ^ x.sizeLog2 < (BitVec.ofNat 17 (bits v 13 17) - x.head).toNat →
    Gives (.doorbell f v) s (fun u => u.graph = s.graph ∧ s.raised u [ST_Q_DOORBELL_RANGE]
    ∧ Keeps [.events, .trace] s u)) ∧
  (∀ (s : State) (t q e : Nat) (x : HwQueue), s.log.paused = false → s.log.held = false → s.logging = false
    → (s.at t).nextQueue = some (q, x) → ((s.at t).peekEntry x).1.toOption = some e → x.head + 1 ≠ x.tail →
    Gives (.entryRead t) s (fun u => u.graph.seq = s.graph.seq + 1
    ∧ u.graph.entries.map (fun r => (r.seq, r.queue, r.tenant, r.raw)) = s.graph.entries.map (fun r => (r.seq, r.queue, r.tenant, r.raw)) ++ [(s.graph.seq + 1, q, x.tenant, BitVec.ofNat 512 e)]
    ∧ u.hwq q = some { x with head := x.head + 1, shadowDue := some (x.shadowDue.getD u.time) }
    ∧ OnlyAt s.graph.queues u.graph.queues q ∧ u.graph.graphs = s.graph.graphs
    ∧ Keeps [.time, .mem, .quays, .tiers, .events, .trace, .log, .fab, .graph, .pilot, .agent] s u)) ∧
  (∀ (s : State) (q t : Nat) (x : HwQueue), s.hwq q = some x → x.shadowDue.isSome = true → x.shadowLoc = 1 →
    Gives (.shadowWrite q t) s (fun u => Mem.readBytes u.hostMem x.shadowAddr.toNat 4 = some (bytesOfNat 4 x.head.toNat)
    ∧ SameOutside s.hostMem u.hostMem x.shadowAddr.toNat (x.shadowAddr.toNat + 4)
    ∧ u.hwq q = some { x with shadowDue := none } ∧ OnlyAt s.graph.queues u.graph.queues q
    ∧ u.graph = { s.graph with queues := u.graph.queues } ∧ Keeps [.time, .graph, .hostMem] s u))

/-- RUN of a graph that reads well puts its nodes and edges into a graph slot with every node
waiting; LOAD keeps them under the lowest free handle; LAUNCH runs the nodes of a resident
graph of the same tenant; UNLOAD marks it. Each takes the oldest entry and leaves the others. -/
def Obligations.GraphEntries : Prop :=
  (∀ (s : State) (e : ReadEntry) (r : List ReadEntry) (ns : List (BitVec 512)) (es : List (Nat × Nat)) (tag : Nat),
    s.graph.entries = e :: r → entOp e.raw.toNat = 0 → entryOk e.raw.toNat = true →
    ((s.takeEntry e.seq (fun _ => true) (fun _ x => x)).readGraph e.tenant e.raw.toNat).1.toOption = some (ns, es, tag)
    →
    Gives (.run e.seq) s (fun u => (u.graphOf e.seq).map (fun g => (g.op, g.tenant, g.tag)) = some (0, e.tenant, BitVec.ofNat 32 tag)
    ∧ (u.graphOf e.seq).map (fun g => g.nodes.map (fun n => n.2.words)) = some ns
    ∧ (u.graphOf e.seq).map (fun g => g.edges) = some es
    ∧ (u.graphOf e.seq).map (fun g => g.nodes.all (fun n => n.2.phase == .waiting)) = some true
    ∧ u.graph.entries = r
    ∧ OnlyAt (s.graph.graphs.map (fun (p : Nat × GraphRun) => (p.1, p.2.tag))) (u.graph.graphs.map (fun (p : Nat × GraphRun) => (p.1, p.2.tag))) e.seq
    ∧ u.graph.residents = s.graph.residents
    ∧ Keeps [.mem, .quays, .tiers, .events, .trace, .log, .graph, .pilot, .serving, .agent] s u)) ∧
  (∀ (s : State) (e : ReadEntry) (r : List ReadEntry) (ns : List (BitVec 512)) (es : List (Nat × Nat)) (tag h : Nat),
    s.graph.entries = e :: r → entOp e.raw.toNat = 1 → entryOk e.raw.toNat = true →
    ((s.takeEntry e.seq (fun _ => true) (fun _ x => x)).readGraph e.tenant e.raw.toNat).1.toOption = some (ns, es, tag)
    → Table.lowestFree s.graph.residents 4096 = some h →
    (s.graph.residents.filter (fun x => x.2.tenant == e.tenant)).length < s.quotaField e.tenant 2 2 →
    Gives (.graphLoad e.seq) s (fun u => (Table.find u.graph.residents h).map (fun x => (x.tenant, x.tag, x.unloading)) = some (e.tenant, BitVec.ofNat 32 tag, false)
    ∧ (Table.find u.graph.residents h).map (fun x => (x.nodes, x.edges)) = some (ns, es)
    ∧ OnlyAt s.graph.residents u.graph.residents h
    ∧ (u.graphOf e.seq).map (fun g => (g.handle, g.nodes.length)) = some (some h, 0) ∧ u.graph.entries = r
    ∧ Keeps [.mem, .quays, .tiers, .events, .trace, .log, .graph, .pilot, .serving, .agent] s u)) ∧
  (∀ (s : State) (e : ReadEntry) (r : List ReadEntry) (x : ResidentGraph), s.graph.entries = e :: r →
    entOp e.raw.toNat = 2 → entryOk e.raw.toNat = true → s.slotsFit e.tenant (1, 0, 0) false = true →
    s.residentOf e.tenant (entHandle e.raw.toNat) = some x →
    Gives (.launch e.seq) s (fun u => (u.graphOf e.seq).map (fun g => (g.op, g.handle, g.nodes.map (fun n => n.2.words), g.edges)) = some (2, some (entHandle e.raw.toNat), x.nodes, x.edges)
    ∧ u.graph.entries = r ∧ u.graph.residents = s.graph.residents ∧ Keeps [.graph, .serving, .trace] s u)) ∧
  (∀ (s : State) (e : ReadEntry) (r : List ReadEntry) (x : ResidentGraph), s.graph.entries = e :: r →
    entOp e.raw.toNat = 3 → entryOk e.raw.toNat = true →
    s.residentOf e.tenant (entHandle e.raw.toNat) = some x →
    Gives (.unload e.seq) s (fun u => Table.find u.graph.residents (entHandle e.raw.toNat) = some { x with unloading := true }
    ∧ OnlyAt s.graph.residents u.graph.residents (entHandle e.raw.toNat)
    ∧ (u.graphOf e.seq).map (fun g => (g.op, g.handle)) = some (3, some (entHandle e.raw.toNat))
    ∧ u.graph.entries = r ∧ Keeps [.graph, .serving, .trace] s u))

/-- A JOIN node taken up from the ready order ends at once; a SYNC node that signals raises its
object by its value, or by 1 for a value of 0, and runs until its report is taken; the head is
the first node of the ready order that has been ready for 1 ms; a reservation that does not
get through its dispatch in time fails its graph with ST_GRAPH_DISPATCH_TIMEOUT. -/
def Obligations.NodeDispatch : Prop :=
  (∀ (s : State) (seq node t : Nat) (g : GraphRun) (n : NodeSt) (cands : List Placement) (rows : List (Option Nat)),
    s.graphOf seq = some g → s.nodeOf seq node = some n → g.failing = none → n.phase = .waiting →
    ndKind n.w = 6 → (s.readyOrder).contains (seq, node) = true → (s.at t).headAllows seq node 6 = true →
    s.logging = false → s.log.held = false →
    Gives (.nodeDispatch seq node t cands rows) s (fun u => (u.nodeOf seq node).map (fun m => (m.phase, m.held)) = some (.ended, [])
    ∧ (u.graphOf seq).map (fun x => x.failing) = some none ∧ u.graph.entries = s.graph.entries
    ∧ u.graph.residents = s.graph.residents ∧ Keeps [.time, .tiles, .trace, .graph, .stks] s u)) ∧
  (∀ (s : State) (seq node t : Nat) (g : GraphRun) (n : NodeSt) (cands : List Placement) (rows : List (Option Nat)),
    s.graphOf seq = some g → s.nodeOf seq node = some n → g.failing = none → n.phase = .waiting →
    ndKind n.w = 5 → ndSyncOp n.w = 0 → (s.readyOrder).contains (seq, node) = true →
    (s.at t).headAllows seq node 5 = true → s.logging = false → s.log.held = false →
    s.soAllowed g.tenant (ndSo n.w) = true → (s.so (ndSo n.w)).waiters = [] →
    (s.so (ndSo n.w)).irqEn = false → (s.so (ndSo n.w)).count.toNat + max 1 (ndSyncValue n.w) < 2 ^ 32 →
    Gives (.nodeDispatch seq node t cands rows) s (fun u => (u.so (ndSo n.w)).count.toNat = (s.so (ndSo n.w)).count.toNat + max 1 (ndSyncValue n.w)
    ∧ OnlyAt s.sync.objs u.sync.objs (ndSo n.w) ∧ u.sync.woken = s.sync.woken ++ [(.node seq node, 0)]
    ∧ (u.nodeOf seq node).map (fun m => m.phase) = some .running
    ∧ Keeps [.time, .trace, .graph, .sync] s u)) ∧
  (∀ (s : State) (t : Nat),
    Gives (.nodeHead t) s (fun u => u.graph = { s.graph with head := (s.at t).headNode }
    ∧ Keeps [.time, .trace, .graph] s u)) ∧
  (∀ (s : State) (seq node t : Nat) (g : GraphRun) (n : NodeSt), s.graphOf seq = some g →
    s.nodeOf seq node = some n → g.failing = none → n.phase = .reserved → n.held = [] →
    n.reservedAt + usTicks 90 ≤ t →
    Gives (.dispatchTimeout seq node t) s (fun u => (u.graphOf seq).map (fun x => x.failing) = some (some (ST_GRAPH_DISPATCH_TIMEOUT, node, failUnit 4 0))
    ∧ (u.nodeOf seq node).map (fun m => (m.phase, m.memops)) = some (.ended, 0)
    ∧ u.graph.residents = s.graph.residents
    ∧ Keeps [.time, .free, .mem, .hostMem, .quays, .tiles, .tiers, .sync, .dma, .events, .trace, .hif, .log, .fab, .graph, .pilot, .stks, .agent] s u))

/-- A node whose unit has ended with status 0 is released and each successor loses one from its
in-degree per edge; one with another status makes its graph fail with that status, node and
unit; a graph whose nodes have all ended leaves its slot and its completion record holds OP,
status, TAG and SEQ; the wait watchdog makes a stalled graph fail with ST_GRAPH_WATCHDOG. -/
def Obligations.NodeEnds : Prop :=
  (∀ (s : State) (seq node m : Nat) (g : GraphRun) (n k : NodeSt), s.graphOf seq = some g →
    s.nodeOf seq node = some n → s.nodeOf seq m = some k → m ≠ node → g.edges = [(node, m)] →
    g.failing = none → n.phase = .running → ndKind n.w = 5 → s.sync.woken = [(.node seq node, 0)] →
    Gives (.nodeComplete seq node) s (fun u => (u.nodeOf seq node).map (fun x => x.phase) = some .ended
    ∧ (u.nodeOf seq m).map (fun x => (x.indeg, x.phase)) = some (k.indeg - 1, k.phase) ∧ u.sync.woken = []
    ∧ u.sync.objs = s.sync.objs ∧ Keeps [.tiles, .sync, .dma, .trace, .graph, .stks] s u)) ∧
  (∀ (s : State) (seq node : Nat) (g : GraphRun) (n : NodeSt) (st : Status), s.graphOf seq = some g →
    s.nodeOf seq node = some n → g.failing = none → n.phase = .running → ndKind n.w = 5 →
    s.sync.woken = [(.node seq node, st)] → st ≠ 0 →
    Gives (.unitFailure seq node) s (fun u => (u.graphOf seq).map (fun x => x.failing) = some (some (st, node, failUnit 4 0))
    ∧ u.graph.residents = s.graph.residents
    ∧ Keeps [.free, .mem, .hostMem, .quays, .tiles, .tiers, .sync, .dma, .events, .trace, .hif, .log, .fab, .graph, .pilot, .stks, .agent] s u)) ∧
  (∀ (s : State) (seq t : Nat) (g : GraphRun), s.graphOf seq = some g → g.failing = none → g.op = 0 →
    g.nodes.all (fun n => n.2.phase == .ended) = true → entRecEn g.entry.toNat = true →
    entRecHost g.entry.toNat = true → entDoneEn g.entry.toNat = false →
    Gives (.graphComplete seq t) s (fun u => u.graphOf seq = none
    ∧ (Mem.readBytes u.hostMem (entRec g.entry.toNat) 32).map (fun b => (byteField (natOfBytes b) 0 3, byteField (natOfBytes b) 3 1, byteField (natOfBytes b) 4 2, byteField (natOfBytes b) 8 4, byteField (natOfBytes b) 12 2, byteField (natOfBytes b) 16 8)) = some (0x430401, entOp g.entry.toNat % 256, 0, entTag g.entry.toNat, 0xFFFF, seq % 2 ^ 64)
    ∧ SameOutside s.hostMem u.hostMem (entRec g.entry.toNat) (entRec g.entry.toNat + 32)
    ∧ u.graph.residents = s.graph.residents ∧ u.graph.queues = s.graph.queues
    ∧ Keeps [.time, .hostMem, .graph, .serving, .trace] s u)) ∧
  (∀ (s : State) (seq t : Nat) (g : GraphRun), s.graphOf seq = some g → s.graph.graphs = [(seq, g)] →
    s.fw.state = 2 → (s.at t).graphStalled seq g = true →
    (s.at t).stalledSince seq g + msTicks (entWd g.entry.toNat) ≤ t → s.logging = false → s.log.held = false
    →
    Gives (.graphWatchdog seq t) s (fun u => (u.graphOf seq).map (fun x => x.failing) = some (some (ST_GRAPH_WATCHDOG,
    ((s.at t).firstWait seq g).1, ((s.at t).firstWait seq g).2)) ∧ u.graph.residents = s.graph.residents
    ∧ Keeps [.time, .free, .mem, .hostMem, .quays, .tiles, .tiers, .sync, .dma, .events, .trace, .hif, .log, .fab, .graph, .pilot, .stks, .agent] s u))

/-- EADD, EMUL, EACT, EGLU and ESCALE over one vector in the vector buffer of one stack write sum,
product, function, gated product, or product or quotient with the factor of the segment,
converted to the output type. -/
def Obligations.StackElementwise : Prop :=
  (SruOp .eadd 0x18 (fun d => decide (sdFunc d ≤ 9))
    (fun d => sdN d) (fun d => sdN d)
    (fun d x g => (List.range (sdN d)).map (fun i => (fpAdd (x i) (g i)).1))) ∧
  (SruOp .emul 0x19 (fun d => decide (sdFunc d ≤ 9))
    (fun d => sdN d) (fun d => sdN d)
    (fun d x g => (List.range (sdN d)).map (fun i => (fpMul (x i) (g i)).1))) ∧
  (SruOp .eact 0x1A (fun d => decide (sdFunc d ≤ 9))
    (fun d => sdN d) (fun _ => 0)
    (fun d x _ => (List.range (sdN d)).map (fun i => (sdFn (sdFunc d) (x i)).1))) ∧
  (SruOp .eglu 0x1B (fun d => decide (sdFunc d ≤ 9))
    (fun d => sdN d) (fun d => sdN d)
    (fun d x g => (List.range (sdN d)).map (fun i => (fpMul (sdFn (sdFunc d) (x i)).1 (g i)).1))) ∧
  (SruOp .escale 0x1C (fun d => decide (0 < sdN d))
    (fun d => sdN d) (fun d => (sdN d + (if sdParam d = 0 then sdN d else sdParam d) - 1) / (if sdParam d = 0 then sdN d else sdParam d))
    (fun d x g => (List.range (sdN d)).map (fun i => ((if sdFunc d = 1 then fpDiv else fpMul) (x i) (g (i / (if sdParam d = 0 then sdN d else sdParam d)))).1)))

/-- NORM, SMX and REDUCE over one vector in the vector buffer of one stack write what their FUNC
gives: RMS or layer normalisation or its sums; the pair of maximum and sum, a combination of
pairs, or the exponentials with their sum at AUX_ADDR; the partial arrays added in increasing
order. -/
def Obligations.StackVectors : Prop :=
  (SruOp .norm 0x20 (fun d => decide (sdFunc d ≤ 4))
    (fun d => sdN d) (fun d => match sdFunc d with | 0 => sdN d | 1 => 2 * sdN d | 4 => 1 | _ => 0)
    (fun d x g => normValues d x g)) ∧
  (SruOp .smx 0x22 (fun d => sdFunc d == 1)
    (fun d => sdN d) (fun _ => 0)
    (fun d x _ => [vecMax ((List.range (sdN d)).map x), (vecSum ((List.range (sdN d)).map (fun i =>
      fnApply 0x52 (fpSub (x i) (vecMax ((List.range (sdN d)).map x))).1))).1])) ∧
  (SruOp .smx 0x22 (fun d => sdFunc d == 2)
    (fun d => 2 * sdN d) (fun _ => 0)
    (fun d x _ => let r := (smxFold ((List.range (sdN d)).map (fun i => (x (2 * i), x (2 * i + 1))))).1
      [r.1, r.2])) ∧
  (∀ (s : State) (c i d st ox oa oo : Nat) (xs : List Byte), s.runsDesc c i d 0x22 = true →
    vectorForm d st ox oo → sdFunc d = 0 → vbOff (sdAux d) = some oa →
    (oa + 4 ≤ oo ∨ oo + (sdN d * typeBits (sdOutType d) + 7) / 8 ≤ oa) →
    s.vbBytes c st ox ((sdN d * typeBits (sdXType d) + 7) / 8) = some xs →
    Gives (.smx c i) s (fun u => u.vbBytes c st oo ((sdN d * typeBits (sdOutType d) + 7) / 8) = some (vbValues d ((List.range (sdN d)).map (fun k => fnApply 0x52 (fpSub (xValue d xs k) (vecMax ((List.range (sdN d)).map (xValue d xs)))).1)))
    ∧ u.vbBytes c st oa 4 = some (bytesOfNat 4 (vecSum ((List.range (sdN d)).map (fun k => fnApply 0x52 (fpSub (xValue d xs k) (vecMax ((List.range (sdN d)).map (xValue d xs)))).1))).1.toNat)
    ∧ OnlyAt s.stks.chains u.stks.chains c ∧ OnlyAt s.stks.units u.stks.units st
    ∧ Keeps [.free, .stks] s u)) ∧
  (∀ (s : State) (c i d st ox oo : Nat) (xs : List Byte), s.runsDesc c i d 0x30 = true →
    vectorForm d st ox oo → 0 < sdKsplit d →
    s.vbBytes c st ox (4 * ((sdKsplit d - 1) * sdXVs d + sdN d)) = some xs →
    Gives (.reduce c i) s (fun u => u.vbBytes c st oo (vbValues d ((List.range (sdN d)).map (fun k => (List.range (sdKsplit d - 1)).foldl (fun a q => (fpAdd a (fp32At (natOfBytes xs) ((q + 1) * sdXVs d + k))).1) (fp32At (natOfBytes xs) k)))).length = some (vbValues d ((List.range (sdN d)).map (fun k => (List.range (sdKsplit d - 1)).foldl (fun a q => (fpAdd a (fp32At (natOfBytes xs) ((q + 1) * sdXVs d + k))).1) (fp32At (natOfBytes xs) k))))
    ∧ OnlyAt s.stks.chains u.stks.chains c ∧ OnlyAt s.stks.units u.stks.units st
    ∧ Keeps [.free, .stks] s u))

/-- ROWCOPY, ROWNOT, ROWAND, ROWOR, ROWXOR and ROWINIT write, on one row of one near-bank unit, the
copy, the complement, the bitwise combination of the two source rows, or AUX_ADDR repeated;
the row goes to the bank-group offset of M2. -/
def Obligations.RowOperations : Prop :=
  RowOp1 .rowcopy 0x01 (fun a => a) ∧
  RowOp1 .rownot 0x06 (fun a => 2 ^ 8192 - 1 - a) ∧
  RowOp2 .rowand 0x03 (fun a b => a &&& b) ∧
  RowOp2 .rowor 0x04 (fun a b => a ||| b) ∧
  RowOp2 .rowxor 0x05 (fun a b => a ^^^ b) ∧
  (∀ (s : State) (c i d st : Nat), s.runsDesc c i d 2 = true → sdStacks d = [st] → sdNbuCnt d = 1 →
    sdN d = 1 →
    Gives (.rowinit c i) s (fun u => u.mem = (s.nbuWrite st (sdNbuFirst d) (sdOff d 2) (bytesOfNat 1024 (packElems 64 (List.replicate 128 (sdAux d))))).mem
    ∧ u.ranDesc c i 0 = true ∧ OnlyAt s.stks.chains u.stks.chains c
    ∧ Keeps [.mem, .quays, .tiers, .events, .trace, .log, .fab, .pilot, .stks, .agent] s u))

/-- GEMV of one row of at most one group in one stack writes the converted, scaled dot product of
the row and the vector; GEMVT of one page row writes the products of the row with its element,
added to +0; TOPK over one page writes its index and its score. -/
def Obligations.StackMatrix : Prop :=
  (∀ (s : State) (c i d st ox oo : Nat) (xs ws : List Byte), s.runsDesc c i d 0x10 = true →
    sdPaged d = false → sdStacks d = [st] → sdB d = 1 → sdWMode d = 0 → sdXMode d = 0 → sdDest d = 0 →
    sdOutMode d = 0 → vbOff (sdXAddr d) = some ox → vbOff (sdOut d) = some oo → sdN d = 1 → 0 < sdK d →
    sdK d ≤ 32 → sdKsplit d = 1 → sdAccIn d = false →
    s.vbBytes c st ox ((sdK d * typeBits (sdXType d) + 7) / 8) = some xs →
    (s.nbuRead st (sdNbuFirst d) (sdOff d 0) ((sdK d * typeBits (sdWType d) + 7) / 8)).1 = some ws →
    Gives (.gemv c i) s (fun u => u.vbBytes c st oo ((typeBits (sdStoredType d) + 7) / 8) = some (bytesOfNat ((typeBits (sdStoredType d) + 7) / 8) (packElems (typeBits (sdStoredType d)) [(convElem (sdStoredType d) (sdSat d) .rne ((sdScale d (sdInt d) (accumulate ((pairKind (sdWType d) (sdXType d) 0 0).getD .block) 0 ((List.range (sdK d)).map (fun k => (xElem d (natOfBytes xs) 0 k, elemValue (sdWType d) 0 (packedElem (natOfBytes ws) (typeBits (sdWType d)) k)))) { mode := 0, e := 0, s2 := 0 } { mode := 0, e := 0, s2 := 0 }).1).1)).1]))
    ∧ OnlyAt s.stks.chains u.stks.chains c ∧ OnlyAt s.stks.units u.stks.units st
    ∧ Keeps [.free, .mem, .quays, .tiers, .events, .trace, .log, .fab, .pilot, .stks, .agent] s u)) ∧
  (∀ (s v : State) (c i d st ox oo p : Nat) (xs lst ws : List Byte), s.runsDesc c i d 0x11 = true →
    sdPaged d = true → sdStacks d = [st] → sdB d = 1 → sdWMode d = 0 → sdXMode d = 0 → sdDest d = 0 →
    sdOutMode d = 0 → vbOff (sdXAddr d) = some ox → vbOff (sdOut d) = some oo → sdK d = 1 →
    s.logging = false → s.vbBytes c st ox ((typeBits (sdXType d) + 7) / 8) = some xs →
    ((s.asAgent 3 st (sdPageAddr d)).load (sdPageAddr d) 16).1 = some lst →
    pageOf (natOfBytes lst) 0 = some (p, 0) →
    ((s.asAgent 3 st (sdPageAddr d)).load (sdPageAddr d) 16).2.inBankGroup st (pageRows d 1 ((sdN d * typeBits (sdWType d) + 7) / 8) 0 (p, 0)) = true
    →
    ((s.asAgent 3 st (sdPageAddr d)).load (sdPageAddr d) 16).2.pageRead (s.chainTenant c) st p ((sdN d * typeBits (sdWType d) + 7) / 8) = ((none, some ws), v)
    →
    Gives (.gemvt c i) s (fun u => u.vbBytes c st oo ((sdN d * typeBits (sdStoredType d) + 7) / 8) = some (bytesOfNat ((sdN d * typeBits (sdStoredType d) + 7) / 8) (packElems (typeBits (sdStoredType d)) ((List.range (sdN d)).map (fun k => (convElem (sdStoredType d) (sdSat d) .rne (sdScale d false (fpAdd 0 (toFp32 (blockTerm [(xElem d (natOfBytes xs) 0 0, scaledValue (sdWType d) 0 (packedElem (natOfBytes ws) (typeBits (sdWType d)) k) 0 0)] { mode := 0, e := 0, s2 := 0 } { mode := 0, e := 0, s2 := 0 }).1).1).1).1).1))))
    ∧ OnlyAt s.stks.chains u.stks.chains c ∧ OnlyAt s.stks.units u.stks.units st
    ∧ Keeps [.free, .mem, .quays, .tiers, .events, .trace, .log, .fab, .pilot, .stks, .agent] s u)) ∧
  (∀ (s v : State) (c i d st ox oo p q : Nat) (xs lst ws : List Byte), s.runsDesc c i d 0x28 = true →
    sdStacks d = [st] → sdB d = 1 → sdXMode d = 0 → vbOff (sdXAddr d) = some ox → vbOff (sdOut d) = some oo
    → sdN d = 1 → sdParam d = 1 → s.logging = false →
    s.vbBytes c st ox ((sdK d * typeBits (sdXType d) + 7) / 8) = some xs →
    ((s.asAgent 3 st (sdPageAddr d)).load (sdPageAddr d) 16).1 = some lst →
    pageOf (natOfBytes lst) 0 = some (p, q) →
    ((s.asAgent 3 st (sdPageAddr d)).load (sdPageAddr d) 16).2.inBankGroup st [(p, 2 * sdK d * typeBits (sdWType d) / 8)] = true
    →
    ((s.asAgent 3 st (sdPageAddr d)).load (sdPageAddr d) 16).2.pageRead (s.chainTenant c) st p (2 * sdK d * typeBits (sdWType d) / 8) = ((none, some ws), v)
    → fvIsNan (ofFp32 (topkScore d (natOfBytes xs) 0 0 (natOfBytes ws)).1) = false →
    Gives (.topk c i) s (fun u => u.vbBytes c st oo 8 = some (bytesOfNat 4 0 ++ bytesOfNat 4 (topkScore d (natOfBytes xs) 0 0 (natOfBytes ws)).1.toNat)
    ∧ OnlyAt s.stks.chains u.stks.chains c ∧ OnlyAt s.stks.units u.stks.units st
    ∧ Keeps [.free, .mem, .quays, .tiers, .events, .trace, .log, .fab, .pilot, .stks, .agent] s u))

/-- No operation of a stack touches another chain or anything but memory, its accounts and its
stacks; a descriptor starts once its overlap, slots and spacing allow; a finished one
completes with its flags; the first error stops the chain and is kept in STK_ERR_INFO;
SERVE_RSV is written by the scheduler core alone, up to 192. -/
def Obligations.StackChains : Prop :=
  (∀ (s : State) (k : Instr) (c i : Nat), k ∈ [.rowcopy c i, .rowinit c i, .rowand c i, .rowor c i, .rowxor c i, .rownot c i, .gemv c i, .gemvt c i, 
      .eadd c i, .emul c i, .eact c i, .eglu c i, .escale c i, .norm c i, .smx c i, 
      .topk c i, .reduce c i] →
    Gives k s (fun u => OnlyAt s.stks.chains u.stks.chains c ∧ Keeps [.free, .mem, .quays, .tiers, .events, .trace, .log, .fab, .pilot, .stks, .agent] s u)) ∧
  (∀ (s : State) (c t : Nat) (x : StackChain) (w : BitVec 1024), Table.find s.stks.chains c = some x →
    x.stopped = false → x.failed = none → x.descs[x.next]? = some w → x.overlapOk w.toNat = true →
    x.rbFits w.toNat = true → (s.at t).startSpaced w.toNat = true → s.bring.blkBusy = false →
    sdWaitEn w.toNat = false → s.logging = false →
    Gives (.stkDescStart c t) s (fun u => (Table.find u.stks.chains c).map (fun y => (y.next, y.running)) = some (x.next + 1, x.running ++ [{ idx := x.next, done := false, flags := 0, failed := none }])
    ∧ OnlyAt s.stks.chains u.stks.chains c ∧ u.stks.units = s.stks.units
    ∧ Keeps [.time, .trace, .stks] s u)) ∧
  (∀ (s : State) (c i : Nat) (x : StackChain) (w : BitVec 1024) (r : StackRun), Table.find s.stks.chains c = some x
    → x.running = [r] → r.idx = i → r.done = true → x.descs[i]? = some w → sdSigEn w.toNat = false →
    Gives (.stkDescComplete c i) s (fun u => (Table.find u.stks.chains c).map (fun y => (y.running, y.completed, y.flags)) = some ([], x.completed + 1, x.flags ||| r.flags)
    ∧ OnlyAt s.stks.chains u.stks.chains c ∧ Keeps [.trace, .stks] s u)) ∧
  (∀ (s : State) (c st i : Nat) (e : Status) (x : StackChain), Table.find s.stks.chains c = some x →
    x.stopped = false → x.running = [] → x.failed = some (e, st, i) → s.sync = State.reset.sync →
    Gives (.stkChainFail c) s (fun u => (Table.find u.stks.chains c).map (fun y => (y.stopped, y.failed, y.next)) = some (true, some (e, st, i), x.next)
    ∧ (u.stackUnit st).errStatus = e ∧ (u.stackUnit st).errIndex = BitVec.ofNat 12 i
    ∧ OnlyAt s.stks.units u.stks.units st ∧ OnlyAt s.stks.chains u.stks.chains c
    ∧ Keeps [.trace, .stks] s u)) ∧
  (∀ (s : State) (st v : Nat), st < 12 →
    Gives (.stkSlotCfgWrite .scheduler st v) s (fun u => (u.stackUnit st).serveRsv = BitVec.ofNat 8 (min 192 (v % 256))
    ∧ OnlyAt s.stks.units u.stks.units st ∧ u.stks.chains = s.stks.chains ∧ Keeps [.stks] s u)) ∧
  (∀ (s : State) (r : Requester) (st v : Nat), r ≠ .scheduler →
    Gives (.stkSlotCfgWrite r st v) s (fun u => u = s))

/-- An access that the map or isolation refuses is answered with that status and moves no byte; a
read of good bytes of a tile memory or of one tier-1 atom delivers them; a corrected atom is
delivered corrected, counted and queued for write-back; an aligned write of a scratchpad puts
its bytes there and nowhere else. -/
def Obligations.MemoryAccess : Prop :=
  (∀ (s : State) (r : Requester) (a n t : Nat) (e : Status),
    (s.at t).accessCheck (s.requesterTenant r) false a n = some e →
    Gives (.memoryRead r a n [] t) s (fun u => u.resp = { status := e, addr := a, data := [] }
    ∧ (e = ST_ISO_ADDRESS → s.raised u [ST_ISO_ADDRESS]) ∧ Keeps [.time, .events, .trace, .resp] s u)) ∧
  (∀ (s : State) (r : Requester) (a t : Nat) (bs : List Byte) (e : Status),
    (s.at t).accessCheck (s.requesterTenant r) true a bs.length = some e →
    Gives (.memoryWrite r a bs t) s (fun u => u.resp = { status := e, addr := a, data := [] }
    ∧ (e = ST_ISO_ADDRESS → s.raised u [ST_ISO_ADDRESS]) ∧ Keeps [.time, .events, .trace, .resp] s u)) ∧
  (∀ (s : State) (r : Requester) (a n t k : Nat) (bs : List Byte),
    (s.at t).accessCheck (s.requesterTenant r) false a n = none → s.region a = .spad k →
    s.bring.tilesFilled = true → s.logging = false → a % 8 = 0 → n % 8 = 0 → 0 < n → a + n ≤ s.regionEnd a →
    Mem.readBytes s.mem a n = some bs →
    Gives (.memoryRead r a n [] t) s (fun u => u.resp = { status := 0, addr := 0, data := bs }
    ∧ Keeps [.time, .pilot, .agent, .resp] s u)) ∧
  (∀ (s : State) (r : Requester) (a t : Nat) (bs : List Byte),
    (s.at t).accessCheck (s.requesterTenant r) false a 64 = none → s.region a = .tier1 →
    s.memReady true a 64 = true → s.logging = false → a % 64 = 0 → a + 64 ≤ s.t1Top →
    s.unitFenced (s.unitAt a) = false → s.tiers.merge = [] → Mem.readBytes s.mem a 64 = some bs →
    Gives (.memoryRead r a 64 [] t) s (fun u => u.resp = { status := 0, addr := 0, data := bs }
    ∧ Keeps [.time, .pilot, .agent, .resp] s u)) ∧
  (∀ (s : State) (r : Requester) (a t : Nat) (bs : List Byte) (er fix : List (Nat × Nat)),
    (s.at t).accessCheck (s.requesterTenant r) false a 64 = none → s.region a = .tier1 →
    s.memReady true a 64 = true → s.logging = false → a % 64 = 0 → a + 64 ≤ s.t1Top →
    s.unitFenced (s.unitAt a) = false → s.tiers.merge = [] → Mem.readBytes s.mem a 64 = some bs →
    classify 64 false er = .corrected fix →
    Gives (.memoryRead r a 64 (er.map (fun e => (a, e.1, e.2))) t) s (fun u => u.resp.status = 0
    ∧ u.resp.data = xorBytes bs ((er ++ fix).filter (fun e => decide (e.1 < 64))) ∧ u.mem = s.mem
    ∧ (u.integ (integIndex (s.unitAt a))).ceTotal = (s.integ (integIndex (s.unitAt a))).ceTotal + 1
    ∧ Table.find u.tiers.writeBacks a = some (BitVec.ofNat 1024 (natOfBytes u.resp.data))
    ∧ OnlyAt s.tiers.writeBacks u.tiers.writeBacks a
    ∧ Keeps [.time, .tiers, .events, .trace, .pilot, .agent, .resp] s u)) ∧
  (∀ (s : State) (r : Requester) (a t k : Nat) (bs : List Byte),
    (s.at t).accessCheck (s.requesterTenant r) true a bs.length = none → s.region a = .spad k →
    s.pilot.moves = [] → s.logging = false → a % 8 = 0 → bs.length % 8 = 0 → bs ≠ [] →
    a + bs.length ≤ s.regionEnd a →
    Gives (.memoryWrite r a bs t) s (fun u => u.resp = { status := 0, addr := a, data := [] }
    ∧ Mem.readBytes u.mem a bs.length = some bs ∧ SameOutside s.mem u.mem a (a + bs.length)
    ∧ Keeps [.time, .mem, .pilot, .agent, .resp] s u))

/-- A merge entry that has received no write for 1 µs is merged over the bytes of its atom and
leaves the buffer; a queued write-back puts the corrected atom back; refresh changes nothing;
DRAM_HOT is set above 85 °C and cleared at 82 °C or less; a non-zero bucket loses one at its
leak time. -/
def Obligations.MergeAndLeak : Prop :=
  (∀ (s : State) (t : Nat) (e : MergeEntry) (old : List Byte), s.tiers.merge = [e] → e.last + usTicks 1 ≤ t
    → Mem.readBytes s.mem e.atom (atomBytes e.unit) = some old →
    Gives (.mergeRetire e.atom t) s (fun u => Mem.readBytes u.mem e.atom (atomBytes e.unit) = some (mergeBytes old e.mask.toNat e.data.toNat)
    ∧ SameOutside s.mem u.mem e.atom (e.atom + atomBytes e.unit) ∧ u.tiers.merge = []
    ∧ Keeps [.time, .mem, .tiers] s u)) ∧
  (∀ (s : State) (t : Nat) (e : MergeEntry), s.tiers.merge = [e] → s.time < e.last + usTicks 1 →
    t < e.last + usTicks 1 → Gives (.mergeRetire e.atom t) s (fun u => Keeps [.time] s u)) ∧
  (∀ (s : State) (a : Nat) (d : BitVec 1024), Table.find s.tiers.writeBacks a = some d →
    Gives (.ceWriteback a) s (fun u => Mem.readBytes u.mem a (bytesOfNat (s.unitBytes a) d.toNat).length = some (bytesOfNat (s.unitBytes a) d.toNat)
    ∧ Table.find u.tiers.writeBacks a = none ∧ OnlyAt s.tiers.writeBacks u.tiers.writeBacks a
    ∧ SameOutside s.mem u.mem a (a + (bytesOfNat (s.unitBytes a) d.toNat).length)
    ∧ Keeps [.mem, .tiers] s u)) ∧
  (∀ (s : State) (n : Nat), Gives (.refresh n) s (fun u => u = s)) ∧
  (∀ (s : State) (n temp : Nat) (hot : Bool), n < 12 → 85 * 16 < sext 16 temp →
    Gives (.dramHotChange false n temp hot) s (fun u => u.tiers.stkHot.getLsbD n = true
    ∧ (∀ k, k ∈ List.range 12 → k ≠ n → u.tiers.stkHot.getLsbD k = s.tiers.stkHot.getLsbD k)
    ∧ Keeps [.tiers] s u)) ∧
  (∀ (s : State) (n temp : Nat) (hot : Bool), n < 12 → sext 16 temp ≤ 82 * 16 →
    Gives (.dramHotChange false n temp hot) s (fun u => u.tiers.stkHot.getLsbD n = false
    ∧ (∀ k, k ∈ List.range 12 → k ≠ n → u.tiers.stkHot.getLsbD k = s.tiers.stkHot.getLsbD k)
    ∧ Keeps [.tiers] s u)) ∧
  (∀ (s : State) (n temp : Nat) (hot : Bool),
    Gives (.dramHotChange true n temp hot) s (fun u => (u.chan n).hot = hot
    ∧ OnlyAt s.tiers.chans u.tiers.chans n ∧ Keeps [.tiers] s u)) ∧
  (∀ (s : State) (b t : Nat), b < 1024 → 0 < (s.integ (integIndex b)).leakMs.toNat →
    Table.getD s.tiers.leakAt b 0 + msTicks (s.integ (integIndex b)).leakMs.toNat ≤ t →
    Gives (.ceLeak b t false) s (fun u => (Table.getD u.tiers.buckets b CeBucket.reset).level.toNat = (Table.getD s.tiers.buckets b CeBucket.reset).level.toNat - 1
    ∧ OnlyAt s.tiers.buckets u.tiers.buckets b ∧ Keeps [.time, .tiers] s u)) ∧
  (∀ (s : State) (q t : Nat), 0 < (s.quay q).ceLeakMs.toNat →
    Table.getD s.tiers.leakAt (4096 + q) 0 + msTicks (s.quay q).ceLeakMs.toNat ≤ t →
    Gives (.ceLeak (4096 + q) t false) s (fun u => (u.quay q).ceLevel.toNat = (s.quay q).ceLevel.toNat - 1
    ∧ OnlyAt s.quays u.quays q ∧ Keeps [.time, .quays, .tiers] s u))

/-- A working pseudo-channel that loses calibration is noted with the time; past 1 ms it is fenced,
its bytes are unreadable and the fence record keeps it; regained in time it serves on; a
channel with a trigger retrains, returns to service when training checks, counts each failed
attempt, and the third fences it; the scrubber steps on by one atom and leaves good bytes as
they are. -/
def Obligations.MemoryUnits : Prop :=
  (∀ (s : State) (stack pc t : Nat), s.unitFenced (stack * 64 + pc) = false → s.pcWorks stack pc = true →
    Table.find s.tiers.calLost (stack * 64 + pc) = none →
    Gives (.t1CalLoss stack pc t) s (fun u => Table.find u.tiers.calLost (stack * 64 + pc) = some u.time
    ∧ OnlyAt s.tiers.calLost u.tiers.calLost (stack * 64 + pc) ∧ Keeps [.time, .tiers] s u)) ∧
  (∀ (s : State) (stack pc t t0 a : Nat), pc < 64 → stack < 12 → s.unitFenced (stack * 64 + pc) = false →
    Table.find s.tiers.calLost (stack * 64 + pc) = some t0 → t0 + msTicks 1 ≤ t →
    s.unitAt a = stack * 64 + pc →
    Gives (.t1PcFence stack pc t) s (fun u => u.unitFenced (stack * 64 + pc) = true
    ∧ Mem.read u.mem a = none ∧ (Table.getD u.backup.fenceT1 stack 0).getLsbD pc = true
    ∧ Table.find u.tiers.calLost (stack * 64 + pc) = none ∧ u.events.entries ≠ []
    ∧ OnlyAt s.tiers.pcFenced u.tiers.pcFenced stack
    ∧ Keeps [.time, .mem, .quays, .tiers, .events, .trace, .log, .fab, .pilot, .backup, .resp] s u)) ∧
  (∀ (s : State) (stack pc t t0 : Nat), Table.find s.tiers.calLost (stack * 64 + pc) = some t0 →
    s.time ≤ t0 + msTicks 1 → t ≤ t0 + msTicks 1 → s.tiers.held = [] →
    Gives (.calibrationRegained stack pc t) s (fun u => Table.find u.tiers.calLost (stack * 64 + pc) = none
    ∧ OnlyAt s.tiers.calLost u.tiers.calLost (stack * 64 + pc) ∧ Keeps [.time, .tiers] s u)) ∧
  (∀ (s : State) (ch t errs temp : Nat), s.canRetrain ch = true → (s.chan ch).cause = 3 →
    Gives (.t2RetrainStart ch t errs temp) s (fun u => (u.chan ch).state = 2 ∧ (u.chan ch).attempt = 1
    ∧ (u.chan ch).selfRefresh = true ∧ (u.chan ch).cause = 3 ∧ (u.chan ch).since = u.time
    ∧ (u.chan ch).linkErr = (s.chan ch).linkErr + BitVec.ofNat 32 errs
    ∧ Keeps [.time, .mem, .tiers, .events, .trace] s u)) ∧
  (∀ (s : State) (ch t errs temp : Nat), s.canRetrain ch = true → (s.chan ch).cause = 0 →
    (s.chan ch).tempEn = false → 0 < (s.chan ch).errThresh.toNat → (s.chan ch).errThresh.toNat ≤ errs →
    Gives (.t2RetrainStart ch t errs temp) s (fun u => (u.chan ch).state = 2 ∧ (u.chan ch).cause = 1
    ∧ Keeps [.time, .mem, .tiers, .events, .trace] s u)) ∧
  (∀ (s : State) (ch t errs temp : Nat), (s.chan ch).cause = 0 → (s.chan ch).tempEn = false →
    (s.chan ch).errThresh = 0 →
    Gives (.t2RetrainStart ch t errs temp) s (fun u => (u.chan ch).state = (s.chan ch).state
    ∧ (u.chan ch).temp = BitVec.ofNat 16 temp ∧ OnlyAt s.tiers.chans u.tiers.chans ch
    ∧ Keeps [.time, .tiers] s u)) ∧
  (∀ (s : State) (ch t : Nat), (s.chan ch).state = 2 →
    Gives (.t2RetrainDone ch t) s (fun u => (u.chan ch).state = 1 ∧ (u.chan ch).attempt = 0
    ∧ (u.chan ch).selfRefresh = false ∧ (u.chan ch).cntDone = (s.chan ch).cntDone + 1
    ∧ (u.chan ch).lastCause = (s.chan ch).cause
    ∧ Keeps [.time, .mem, .quays, .tiers, .events, .trace, .log, .fab, .pilot, .resp] s u)) ∧
  (∀ (s : State) (ch t : Nat), (s.chan ch).state = 2 → (s.chan ch).attempt.toNat < 3 →
    Gives (.t2RetrainFail ch t) s (fun u => (u.chan ch).state = 2
    ∧ (u.chan ch).attempt = (s.chan ch).attempt + 1 ∧ (u.chan ch).cntFailed = (s.chan ch).cntFailed + 1
    ∧ s.raised u [ST_T2_RETRAIN_FAIL] ∧ OnlyAt s.tiers.chans u.tiers.chans ch
    ∧ Keeps [.time, .tiers, .events, .trace] s u)) ∧
  (∀ (s : State) (ch t : Nat), ch < 16 → (s.chan ch).state = 2 → (s.chan ch).attempt = 3 →
    Gives (.t2RetrainFail ch t) s (fun u => (u.chan ch).state = 3
    ∧ (u.chan ch).cntFailed = (s.chan ch).cntFailed + 1 ∧ u.backup.fenceT2.getLsbD ch = true
    ∧ u.events.entries ≠ []
    ∧ Keeps [.time, .mem, .quays, .tiers, .events, .trace, .log, .fab, .pilot, .backup, .resp] s u)) ∧
  (∀ (s : State) (n : Nat) (bs : List Byte), n < 768 → s.tiers.t1Filled = true →
    s.pcWorks (n / 64) (n % 64) = true → s.unitFenced n = false → s.tiers.scrubPaused = false →
    (s.integ (n / 64)).passH ≠ 0 → s.tiers.merge = [] → s.tiers.writeBacks = [] →
    s.unitAt (s.scrubAddr n (Table.getD s.tiers.scrubPos n 0)) = n →
    Mem.readBytes s.mem (s.scrubAddr n (Table.getD s.tiers.scrubPos n 0)) 64 = some bs →
    Table.getD s.tiers.scrubPos n 0 + 1 < 2 ^ 24 →
    Gives (.scrubRead n []) s (fun u => Table.find u.tiers.scrubPos n = some (Table.getD s.tiers.scrubPos n 0 + 1)
    ∧ OnlyAt s.tiers.scrubPos u.tiers.scrubPos n ∧ Keeps [.tiers] s u))

/-- An atom with no known owner ends its handling with ST_UE_OWNER_UNKNOWN; the paired module's copy
is written whole over an atom that is still poisoned, with ST_MIRROR_REPAIRED, and its
handling ends. -/
def Obligations.UncorrectableAtoms : Prop :=
  (∀ (s : State) (atom t : Nat) (h : UeHandling), s.tiers.ueRunning = [h] → h.atom = atom → h.tag = none →
    s.tiers.ueQueue = [] → s.tiers.resv = [] → s.kv.areas = [] → s.kv.slots = [] → s.pilot.blocks = [] →
    s.events.entries = [] →
    Gives (.ueHandling atom t) s (fun u => (u.events.entries.any (fun e => e.record.status == ST_UE_OWNER_UNKNOWN)) = true
    ∧ u.tiers.ueRunning = [] ∧ Keeps [.time, .tiers, .events, .trace] s u)) ∧
  (∀ (s : State) (t p : Nat) (h : UeHandling) (q : Packet), s.tiers.ueRunning = [h] → h.tag = some q.tag →
    s.tiers.ueQueue = [] → s.fab.inbox = [(p, q)] → q.vc = 3 → q.ptype = 5 → s.tiers.resv = [] →
    s.pilot.moves = [] → s.pilot.blocks = [] → s.logging = false → s.region h.atom = .tier1 →
    h.atom % 64 = 0 → h.atom + 64 ≤ s.t1Top → s.unitAt h.atom < 1024 →
    s.unitFenced (s.unitAt h.atom) = false → q.data.length = 64 → Mem.readBytes s.mem h.atom 64 = none →
    s.events.entries = [] →
    Gives (.mirrorRepairResponse t) s (fun u => Mem.readBytes u.mem h.atom 64 = some q.data
    ∧ SameOutside s.mem u.mem h.atom (h.atom + 64) ∧ u.tiers.ueRunning = [] ∧ u.fab.inbox = []
    ∧ (u.events.entries.any (fun e => e.record.status == ST_MIRROR_REPAIRED)) = true
    ∧ Keeps [.time, .mem, .tiers, .events, .trace, .fab, .pilot] s u))

/-- COPY between ranges of host memory, or of one scratchpad, writes the source bytes to the
destination and no other byte; FILL repeats its 8-byte pattern; ATOMIC replaces the 8 bytes at
its target by the result of its operation and ends; REDADD adds its FP32 element to the one at
its target, with one rounding. -/
def Obligations.DmaOperations : Prop :=
  (∀ (s : State) (c i t : Nat) (x : DmaCtx) (r : DmaRun), s.dma.ctxs = [(c, x)] → x.running = [r] →
    r.index = i → r.stage = .started → r.status = 0 → r.outstanding = 0 → r.sent = 0 → r.source = [] →
    ddOp r.desc.toNat = 0 → ddSrcMode r.desc.toNat = 2 → ddDstMode r.desc.toNat = 2 →
    ddCrc r.desc.toNat = false → s.bring.pcieUp = true → s.logging = false →
    Gives (.copy c i t false) s (fun u => Mem.readBytes u.hostMem (ddDst r.desc.toNat) (ddLength r.desc.toNat) = some (s.hostRead (ddSrc r.desc.toNat) (ddLength r.desc.toNat))
    ∧ SameOutside s.hostMem u.hostMem (ddDst r.desc.toNat) (ddDst r.desc.toNat + ddLength r.desc.toNat)
    ∧ (u.dmaRun c i).map (fun y => (y.stage, y.status)) = some (.written, 0)
    ∧ Keeps [.time, .hostMem, .dma] s u)) ∧
  (∀ (s : State) (c i t : Nat) (x : DmaCtx) (r : DmaRun) (k : Nat) (bs : List Byte), s.dma.ctxs = [(c, x)] →
    x.running = [r] → r.index = i → r.stage = .started → r.status = 0 → r.outstanding = 0 → r.sent = 0 →
    r.source = [] → ddOp r.desc.toNat = 0 → ddSrcMode r.desc.toNat = 0 → ddDstMode r.desc.toNat = 0 →
    ddCrc r.desc.toNat = false → s.logging = false → s.pilot.moves = [] → s.tiers.merge = [] →
    s.bring.tilesFilled = true →
    s.accessCheck x.tenant false (ddSrc r.desc.toNat) (ddLength r.desc.toNat) = none →
    s.accessCheck x.tenant true (ddDst r.desc.toNat) (ddLength r.desc.toNat) = none →
    s.region (ddSrc r.desc.toNat) = .spad k → s.region (ddDst r.desc.toNat) = .spad k →
    ddDst r.desc.toNat % 8 = 0 → ddLength r.desc.toNat % 8 = 0 →
    ddDst r.desc.toNat + ddLength r.desc.toNat ≤ s.regionEnd (ddDst r.desc.toNat) →
    Mem.readBytes s.mem (ddSrc r.desc.toNat) (ddLength r.desc.toNat) = some bs →
    Gives (.copy c i t false) s (fun u => Mem.readBytes u.mem (ddDst r.desc.toNat) (ddLength r.desc.toNat) = some bs
    ∧ SameOutside s.mem u.mem (ddDst r.desc.toNat) (ddDst r.desc.toNat + ddLength r.desc.toNat)
    ∧ (u.dmaRun c i).map (fun y => (y.stage, y.status)) = some (.written, 0)
    ∧ (u.engine r.engine).bytes = (s.engine r.engine).bytes + BitVec.ofNat 64 (ddLength r.desc.toNat)
    ∧ Keeps [.time, .mem, .dma, .pilot, .agent] s u)) ∧
  (∀ (s : State) (c i t : Nat) (x : DmaCtx) (r : DmaRun), s.dma.ctxs = [(c, x)] → x.running = [r] →
    r.index = i → r.stage = .started → r.status = 0 → r.outstanding = 0 → r.sent = 0 → r.source = [] →
    ddOp r.desc.toNat = 1 → ddSrcMode r.desc.toNat = 0 → ddDstMode r.desc.toNat = 2 →
    ddCrc r.desc.toNat = false → s.bring.pcieUp = true →
    Gives (.fill c i t) s (fun u => Mem.readBytes u.hostMem (ddDst r.desc.toNat) (ddLength r.desc.toNat) = some ((List.range (ddLength r.desc.toNat)).map (fun k => BitVec.ofNat 8 (byteField (ddSrcAux r.desc.toNat) (k % 8) 1)))
    ∧ SameOutside s.hostMem u.hostMem (ddDst r.desc.toNat) (ddDst r.desc.toNat + ddLength r.desc.toNat)
    ∧ (u.dmaRun c i).map (fun y => (y.stage, y.status)) = some (.written, 0)
    ∧ Keeps [.time, .hostMem, .dma] s u)) ∧
  (∀ (s : State) (c i t : Nat) (x : DmaCtx) (r : DmaRun) (k : Nat) (bs : List Byte), s.dma.ctxs = [(c, x)] →
    x.running = [r] → r.index = i → r.stage = .started → r.status = 0 → r.outstanding = 0 →
    x.completed + 1 = listCount x.hdr.toNat → listCq x.hdr.toNat = 0 → ddOp r.desc.toNat = 2 →
    ddDstMode r.desc.toNat = 0 → ddAsize r.desc.toNat = 8 → ddSrc r.desc.toNat = 0 →
    ddSig r.desc.toNat = false → ddRec r.desc.toNat = false → s.logging = false → s.pilot.moves = [] →
    s.tiers.merge = [] → s.bring.tilesFilled = true →
    s.accessCheck x.tenant true (ddDst r.desc.toNat) 8 = none → s.region (ddDst r.desc.toNat) = .spad k →
    ddDst r.desc.toNat % 8 = 0 → Mem.readBytes s.mem (ddDst r.desc.toNat) 8 = some bs →
    Gives (.atomic c i t) s (fun u => Mem.readBytes u.mem (ddDst r.desc.toNat) 8 = some (bytesOfNat 8 (atomicNew (ddAtop r.desc.toNat) 8 (natOfBytes bs) (ddSrcAux r.desc.toNat) (ddDstAux r.desc.toNat)))
    ∧ SameOutside s.mem u.mem (ddDst r.desc.toNat) (ddDst r.desc.toNat + 8) ∧ u.dma.ctxs = []
    ∧ u.dma.ended = s.dma.ended ++ [(x.seq, x.node, 0, x.flags ||| r.flags)]
    ∧ (u.engine r.engine).done = (s.engine r.engine).done + 1
    ∧ Keeps [.time, .mem, .trace, .dma, .pilot, .agent] s u)) ∧
  (∀ (s : State) (c i t : Nat) (x : DmaCtx) (r : DmaRun) (bs : List Byte), s.dma.ctxs = [(c, x)] →
    x.running = [r] → r.index = i → r.stage = .started → r.status = 0 → r.outstanding = 0 → r.sent = 0 →
    r.source = [] → ddOp r.desc.toNat = 3 → ddSrcMode r.desc.toNat = 2 → ddDstMode r.desc.toNat = 0 →
    ddBf16 r.desc.toNat = false → ddLength r.desc.toNat = 4 → ddCrc r.desc.toNat = false →
    s.bring.pcieUp = true → s.logging = false → s.pilot.moves = [] → s.tiers.merge = [] →
    s.accessCheck x.tenant true (ddDst r.desc.toNat) 4 = none → s.region (ddDst r.desc.toNat) = .tier1 →
    ddDst r.desc.toNat % 64 = 0 → ddDst r.desc.toNat + 64 ≤ s.t1Top →
    s.memReady true (ddDst r.desc.toNat) 4 = true → s.unitFenced (s.unitAt (ddDst r.desc.toNat)) = false →
    Mem.readBytes s.mem (ddDst r.desc.toNat) 64 = some bs →
    Gives (.redadd c i t false) s (fun u => Mem.readBytes u.mem (ddDst r.desc.toNat) 64 = some (bytesOfNat 4 (fpAdd (BitVec.ofNat 32 (natOfBytes (bs.take 4))) (BitVec.ofNat 32 (natOfBytes (s.hostRead (ddSrc r.desc.toNat) 4)))).1.toNat ++ bs.drop 4)
    ∧ SameOutside s.mem u.mem (ddDst r.desc.toNat) (ddDst r.desc.toNat + 64)
    ∧ u.dma.redaddCnt = s.dma.redaddCnt + 1
    ∧ (u.dmaRun c i).map (fun y => (y.stage, y.status)) = some (.written, 0)
    ∧ Keeps [.time, .mem, .tiers, .dma, .pilot, .agent] s u))

/-- A waiting list takes the engine of the fewest descriptors with a free context; a read-back that
agrees, or that nothing compares, completes the descriptor and with the last one the list; one
that differs fails it with ST_DMA_READBACK_MISMATCH; a record that has waited 100 ms for a
slot fails with ST_DMA_CQ_TIMEOUT; a failed descriptor fails its list; no host completion
within 50 ms ends it with ST_DMA_HOST_ERR. -/
def Obligations.DmaLists : Prop :=
  (∀ (s : State) (t e : Nat) (x : DmaCtx) (rest : List DmaCtx), s.dma.waiting = x :: rest →
    (s.at t).leastEngine (fun e => decide ((s.at t).engineLists e < 8)) = some e →
    Gives (.dmaListStart t) s (fun u => u.dma.waiting = rest ∧ u.dma.nextCtx = s.dma.nextCtx + 1
    ∧ (u.dmaCtx s.dma.nextCtx).map (fun y => (y.engine, y.seq, y.node, y.hdr)) = some (e, x.seq, x.node, x.hdr)
    ∧ u.dma.ended = s.dma.ended
    ∧ Keeps [.time, .mem, .quays, .tiers, .dma, .events, .trace, .log, .pilot, .agent] s u)) ∧
  (∀ (s : State) (c i t : Nat) (x : DmaCtx) (r : DmaRun), s.dma.ctxs = [(c, x)] → x.running = [r] →
    r.index = i → r.stage = .written → r.status = 0 → r.outstanding = 0 →
    x.completed + 1 = listCount x.hdr.toNat → listCq x.hdr.toNat = 0 → ddDstMode r.desc.toNat = 2 →
    0 < ddLength r.desc.toNat → ddOp r.desc.toNat = 0 → ddCrc r.desc.toNat = false →
    ddCmp r.desc.toNat = false → ddSig r.desc.toNat = false → ddRec r.desc.toNat = false →
    s.bring.pcieUp = true → s.logging = false →
    Gives (.dmaReadbackDone c i t false) s (fun u => u.dma.ctxs = []
    ∧ u.dma.ended = s.dma.ended ++ [(x.seq, x.node, 0, x.flags ||| r.flags)]
    ∧ (u.engine r.engine).done = (s.engine r.engine).done + 1 ∧ Keeps [.time, .trace, .dma] s u)) ∧
  (∀ (s : State) (c i t : Nat) (x : DmaCtx) (r : DmaRun) (b : Nat × Byte), s.dma.ctxs = [(c, x)] →
    x.running = [r] → r.index = i → r.stage = .written → r.status = 0 → r.outstanding = 0 →
    listCq x.hdr.toNat = 0 → ddDstMode r.desc.toNat = 2 → 0 < ddLength r.desc.toNat → ddOp r.desc.toNat = 0
    → ddCrc r.desc.toNat = false → ddCmp r.desc.toNat = true → s.bring.pcieUp = true → s.logging = false →
    b ∈ s.windowBytes r →
    (s.hostRead ((ddDst r.desc.toNat + ddLength r.desc.toNat - 1) / 8 * 8) 8)[b.1]? ≠ some b.2 →
    Gives (.dmaReadbackDone c i t false) s (fun u => (u.dmaRun c i).map (fun y => (y.stage, y.status)) = some (.failed, ST_DMA_READBACK_MISMATCH)
    ∧ (u.engine r.engine).err = ST_DMA_READBACK_MISMATCH ∧ Keeps [.time, .trace, .dma] s u)) ∧
  (∀ (s : State) (c i t : Nat) (x : DmaCtx) (r : DmaRun), s.dma.ctxs = [(c, x)] → x.running = [r] →
    r.index = i → r.stage = .cqWait → r.outstanding = 0 → r.since + msTicks 100 ≤ t → s.logging = false →
    Gives (.cqReserveRetry c i t) s (fun u => (u.dmaRun c i).map (fun y => (y.stage, y.status)) = some (.failed, ST_DMA_CQ_TIMEOUT)
    ∧ (u.engine r.engine).err = ST_DMA_CQ_TIMEOUT ∧ u.dma.ended = s.dma.ended
    ∧ Keeps [.time, .trace, .dma] s u)) ∧
  (∀ (s : State) (c i t : Nat) (x : DmaCtx) (r : DmaRun), s.dma.ctxs = [(c, x)] → x.running = [r] →
    r.index = i → r.stage = .failed → r.outstanding = 0 →
    Gives (.dmaDescFail c i t) s (fun u => u.dma.ctxs = []
    ∧ u.dma.ended = s.dma.ended ++ [(x.seq, x.node, r.status, x.flags ||| r.flags)]
    ∧ Keeps [.time, .dma] s u)) ∧
  (∀ (s : State) (c i t : Nat) (x : DmaCtx) (r : DmaRun), s.dma.ctxs = [(c, x)] → x.running = [r] →
    r.index = i → r.stage = .reading → r.status = 0 → r.outstanding = 0 → listCq x.hdr.toNat = 0 →
    ddOp r.desc.toNat = 0 → ddSrcMode r.desc.toNat = 2 → r.since + msTicks 50 ≤ t →
    Gives (.pcieCompletionTimeout none c i t) s (fun u => (u.dmaRun c i).map (fun y => (y.stage, y.status)) = some (.failed, ST_DMA_HOST_ERR)
    ∧ (u.engine r.engine).err = ST_DMA_HOST_ERR ∧ Keeps [.time, .trace, .dma] s u))

/-- SIGNAL adds its value, 0 standing for 1, and stays at the largest COUNT with OVF on overflow;
SET writes COUNT; DEC subtracts, 0 standing for 1, and stops at 0 with UNF; WAIT and WAIT_DEC
go on at once where COUNT has reached the threshold, WAIT_DEC taking it away, and else join
the waiters; an operation on another tenant's object changes no object; SYNC_SOn_COUNT is
written by the scheduler core alone. -/
def Obligations.SyncObjects : Prop :=
  (∀ (s : State) (seq node so v : Nat) (g : GraphRun), s.graphOf seq = some g →
    s.soAllowed g.tenant so = true → (s.so so).waiters = [] → (s.so so).irqEn = false →
    (s.so so).count.toNat + max 1 v < 2 ^ 32 →
    Gives (.soSignal (.node seq node) so v) s (fun u => (u.so so).count.toNat = (s.so so).count.toNat + max 1 v
    ∧ (u.so so).ovf = (s.so so).ovf ∧ u.sync.woken = s.sync.woken ∧ OnlyAt s.sync.objs u.sync.objs so
    ∧ Keeps [.sync, .trace] s u)) ∧
  (∀ (s : State) (seq node so v : Nat) (g : GraphRun), s.graphOf seq = some g →
    s.soAllowed g.tenant so = true → (s.so so).waiters = [] → (s.so so).irqEn = false →
    2 ^ 32 ≤ (s.so so).count.toNat + max 1 v →
    Gives (.soSignal (.node seq node) so v) s (fun u => (u.so so).count = 0xFFFFFFFF#32
    ∧ (u.so so).ovf = true ∧ s.raised u [ST_SO_OVERFLOW] ∧ OnlyAt s.sync.objs u.sync.objs so
    ∧ Keeps [.sync, .events, .trace] s u)) ∧
  (∀ (s : State) (seq node so v : Nat) (g : GraphRun), s.graphOf seq = some g →
    s.soAllowed g.tenant so = true → (s.so so).waiters = [] → (s.so so).irqEn = false →
    Gives (.soSet (.node seq node) so v) s (fun u => (u.so so).count = BitVec.ofNat 32 v
    ∧ OnlyAt s.sync.objs u.sync.objs so ∧ Keeps [.sync, .trace] s u)) ∧
  (∀ (s : State) (seq node so v : Nat) (g : GraphRun), s.graphOf seq = some g →
    s.soAllowed g.tenant so = true → (s.so so).waiters = [] → (s.so so).irqEn = false →
    max 1 v ≤ (s.so so).count.toNat →
    Gives (.soDec (.node seq node) so v) s (fun u => (u.so so).count.toNat = (s.so so).count.toNat - max 1 v
    ∧ (u.so so).unf = (s.so so).unf ∧ OnlyAt s.sync.objs u.sync.objs so ∧ Keeps [.sync, .trace] s u)) ∧
  (∀ (s : State) (seq node so v : Nat) (g : GraphRun), s.graphOf seq = some g →
    s.soAllowed g.tenant so = true → (s.so so).waiters = [] → (s.so so).irqEn = false →
    (s.so so).count.toNat < max 1 v → Gives (.soDec (.node seq node) so v) s (fun u => (u.so so).count = 0
    ∧ (u.so so).unf = true ∧ s.raised u [ST_SO_UNDERFLOW] ∧ OnlyAt s.sync.objs u.sync.objs so
    ∧ Keeps [.sync, .events, .trace] s u)) ∧
  (∀ (s : State) (seq node so v : Nat) (g : GraphRun), s.graphOf seq = some g →
    s.soAllowed g.tenant so = true → (s.so so).threshold v ≤ (s.so so).count.toNat →
    Gives (.soWait (.node seq node) so v) s (fun u => (u.so so).count = (s.so so).count
    ∧ u.sync.woken = s.sync.woken ++ [(.node seq node, 0)] ∧ u.sync.objs = s.sync.objs
    ∧ Keeps [.sync, .trace] s u)) ∧
  (∀ (s : State) (seq node so v : Nat) (g : GraphRun), s.graphOf seq = some g →
    s.soAllowed g.tenant so = true → (s.so so).count.toNat < (s.so so).threshold v → s.waiterCount < 32768 →
    Gives (.soWait (.node seq node) so v) s (fun u => u.so so = { s.so so with waiters := (s.so so).waiters ++ [{ unit := .node seq node, dec := false, t := (s.so so).threshold v }] }
    ∧ u.sync.woken = s.sync.woken ∧ OnlyAt s.sync.objs u.sync.objs so ∧ Keeps [.sync] s u)) ∧
  (∀ (s : State) (seq node so v : Nat) (g : GraphRun), s.graphOf seq = some g →
    s.soAllowed g.tenant so = true → (s.so so).waiters = [] → (s.so so).irqEn = false →
    (s.so so).threshold v ≤ (s.so so).count.toNat →
    Gives (.soWaitDec (.node seq node) so v) s (fun u => (u.so so).count.toNat = (s.so so).count.toNat - (s.so so).threshold v
    ∧ u.sync.woken = s.sync.woken ++ [(.node seq node, 0)] ∧ OnlyAt s.sync.objs u.sync.objs so
    ∧ Keeps [.sync, .trace] s u)) ∧
  (∀ (s : State) (seq node so v : Nat) (g : GraphRun), s.graphOf seq = some g →
    s.soAllowed g.tenant so = false →
    Gives (.soSet (.node seq node) so v) s (fun u => u.sync.objs = s.sync.objs ∧ s.raised u [ST_ISO_SYNC]
    ∧ u.sync.woken = s.sync.woken ++ [(.node seq node, ST_ISO_SYNC)] ∧ Keeps [.sync, .events, .trace] s u)) ∧
  (∀ (s : State) (un : SyncUnit) (r : Retried) (rest : List Retried), s.sync.retried = r :: rest →
    r.waiter.unit = un → isStream un = false → s.soAllowed r.tenant r.so = true →
    (s.so r.so).threshold r.waiter.t ≤ (s.so r.so).count.toNat → r.waiter.dec = false →
    Gives (.waiterRetry un) s (fun u => u.sync.retried = rest ∧ u.sync.woken = s.sync.woken ++ [(un, 0)]
    ∧ u.sync.objs = s.sync.objs ∧ Keeps [.sync, .trace] s u)) ∧
  (∀ (s : State) (n v : Nat), n < 131072 → (s.so n).valid = true → (s.so n).waiters = [] →
    (s.so n).irqEn = false →
    Gives (.soCountWrite .scheduler n v) s (fun u => (u.so n).count = BitVec.ofNat 32 v
    ∧ OnlyAt s.sync.objs u.sync.objs n ∧ Keeps [.sync, .trace] s u)) ∧
  (∀ (s : State) (r : Requester) (n v : Nat), r ≠ .scheduler →
    Gives (.soCountWrite r n v) s (fun u => u = s))

/-- BAR of a member that is not the last raises its wire and holds its stream; of the last one it
releases the group, PHASE toggles, the wires clear and the stream goes on; BAR_ARRIVE raises
the wire and goes on; BAR_WAIT goes on at once where the tile has not arrived since the last
release and else waits. -/
def Obligations.Barriers : Prop :=
  (∀ (s : State) (t w g : Nat) (ex : Bool), s.standsAt t ex 0x06 w → bits w 8 4 = 5 → bits w 24 6 = g →
    ((s.tile t).stream ex).sent = false → s.barCheck g t (s.tile t).tenant = none →
    (s.tile t).coverOf ex = [] → (s.bar g).arrived.length + 1 < (s.bar g).size →
    (s.bar g).arrived.contains t = false →
    Gives (.bar t ex g) s (fun u => (u.bar g).arrived = (s.bar g).arrived ++ [t]
    ∧ (u.bar g).waiting = (s.bar g).waiting ++ [(t, ex)] ∧ (u.bar g).phase = (s.bar g).phase
    ∧ ((u.tile t).stream ex).pc = ((s.tile t).stream ex).pc ∧ ((u.tile t).stream ex).wait ≠ .none
    ∧ u.sync.objs = s.sync.objs ∧ OnlyAt s.sync.bars u.sync.bars g ∧ OnlyAt s.tiles u.tiles t
    ∧ Keeps [.tiles, .sync, .trace] s u)) ∧
  (∀ (s : State) (t w g : Nat) (ex : Bool), s.standsAt t ex 0x06 w → bits w 8 4 = 5 → bits w 24 6 = g →
    ((s.tile t).stream ex).sent = false → s.barCheck g t (s.tile t).tenant = none →
    (s.tile t).coverOf ex = [] → (s.bar g).size = (s.bar g).arrived.length + 1 →
    (s.bar g).arrived.contains t = false → (s.bar g).waiting = [] → (s.bar g).second = [] →
    (s.bar g).sigEn = false → Gives (.bar t ex g) s (fun u => (u.bar g).phase = !(s.bar g).phase
    ∧ (u.bar g).arrived = [] ∧ (u.bar g).releases = (s.bar g).releases + 1
    ∧ ((u.tile t).stream ex).pc = ((s.tile t).stream ex).pc + 1 ∧ u.sync.objs = s.sync.objs
    ∧ OnlyAt s.sync.bars u.sync.bars g ∧ OnlyAt s.tiles u.tiles t ∧ Keeps [.tiles, .sync, .trace] s u)) ∧
  (∀ (s : State) (t w g : Nat) (ex : Bool), s.standsAt t ex 0x06 w → bits w 8 4 = 6 → bits w 24 6 = g →
    ((s.tile t).stream ex).sent = false → s.barCheck g t (s.tile t).tenant = none →
    (s.tile t).coverOf ex = [] → (s.bar g).arrived.length + 1 < (s.bar g).size →
    (s.bar g).arrived.contains t = false →
    Gives (.barArrive t ex g) s (fun u => (u.bar g).arrived = (s.bar g).arrived ++ [t]
    ∧ (u.bar g).waiting = (s.bar g).waiting ∧ ((u.tile t).stream ex).pc = ((s.tile t).stream ex).pc + 1
    ∧ u.sync.objs = s.sync.objs ∧ OnlyAt s.sync.bars u.sync.bars g ∧ OnlyAt s.tiles u.tiles t
    ∧ Keeps [.tiles, .sync, .trace] s u)) ∧
  (∀ (s : State) (t w g : Nat) (ex : Bool), s.standsAt t ex 0x06 w → bits w 8 4 = 7 → bits w 24 6 = g →
    ((s.tile t).stream ex).sent = false → s.barCheck g t (s.tile t).tenant = none →
    (s.bar g).arrived.contains t = false → Gives (.barWait t ex g) s (fun u => u.sync.bars = s.sync.bars
    ∧ ((u.tile t).stream ex).pc = ((s.tile t).stream ex).pc + 1 ∧ OnlyAt s.tiles u.tiles t
    ∧ Keeps [.tiles, .trace] s u)) ∧
  (∀ (s : State) (t w g : Nat) (ex : Bool), s.standsAt t ex 0x06 w → bits w 8 4 = 7 → bits w 24 6 = g →
    ((s.tile t).stream ex).sent = false → s.barCheck g t (s.tile t).tenant = none →
    (s.bar g).arrived.contains t = true →
    Gives (.barWait t ex g) s (fun u => (u.bar g).waiting = (s.bar g).waiting ++ [(t, ex)]
    ∧ (u.bar g).arrived = (s.bar g).arrived ∧ ((u.tile t).stream ex).pc = ((s.tile t).stream ex).pc
    ∧ ((u.tile t).stream ex).wait ≠ .none ∧ u.sync.objs = s.sync.objs ∧ OnlyAt s.sync.bars u.sync.bars g
    ∧ OnlyAt s.tiles u.tiles t ∧ Keeps [.tiles, .sync, .trace] s u))

/-- At the end of a calibration window a class with 16 nodes of each form moves its threshold an
eighth of the way to the measured ratio; a stack busy for more than 1.25 of the mean gives its
most-read block to the least busy stack; a move writes NEXT_HOME and STATE of its entry,
copies the block, holds writes, commits entry and epoch, and frees the old home when no
earlier graph is left; a step past its limit abandons the move; a peer silent for 5 ms is
skipped. -/
def Obligations.PilotEvents : Prop :=
  (∀ (s : State) (t : Nat) (k : CalCounts), s.pilot.frozen = false →
    s.pilot.calAt + msTicks (max 1 s.pilot.winMs.toNat) ≤ t → 16 ≤ k.nS → 16 ≤ k.nT →
    s.pilot.fix.getLsbD 0 = false → 0 < k.timeS * k.weights → s.logging = false →
    Gives (.calWindowEnd [k] t) s (fun u => u.pilThresh 0 = threshClamp (divRne (7 * s.pilThresh 0 * (k.timeS * k.weights) + 256 * k.macs * k.timeT) (8 * (k.timeS * k.weights)))
    ∧ u.pilot.calAt = u.time ∧ u.pilThresh 1 = s.pilThresh 1 ∧ u.pilThresh 2 = s.pilThresh 2
    ∧ u.pilot.dlogHead = s.pilot.dlogHead + 1
    ∧ SameOutside s.mem u.mem (((s.resv 3).1 + 32 * (s.pilot.dlogHead.toNat % 4096)) / 64 * 64) (((s.resv 3).1 + 32 * (s.pilot.dlogHead.toNat % 4096)) / 64 * 64 + 64)
    ∧ u.pilot.blocks = s.pilot.blocks ∧ u.pilot.moves = s.pilot.moves
    ∧ Keeps [.time, .mem, .trace, .pilot] s u)) ∧
  (∀ (s : State) (t : Nat) (ks : List CalCounts), s.pilot.frozen = true →
    Gives (.calWindowEnd ks t) s (fun u => Keeps [.time] s u)) ∧
  (∀ (s : State) (busy : List Nat) (t k c a : Nat) (b : PilBlock), s.pilot.frozen = false →
    (s.at t).coreRuns 66 = true →
    (List.range busy.length).find? (fun k => decide (5 * busy.sum < 4 * busy.length * (busy[k]?).getD 0)) = some k
    →
    leastBy (fun k => [(busy[k]?).getD 0, k]) ((List.range busy.length).filter (fun k => decide (0 < s.pcCount k))) = some c
    → s.pilot.blocks = [b] → s.pilot.moves = [] → b.berth = none → b.tier2 = false → b.unit = k →
    b.pinned = false → (s.at t).unitRange (s.at t).pilTaken c b.size = some a →
    Gives (.rebalance busy t) s (fun u => u.pilot.queue = s.pilot.queue ++ [{ table := b.table, entry := b.entry, home := some (s.ownBerth, a, 4 * c), pin := false, demote := false, issuer := none }]
    ∧ u.pilot.blocks = [{ b with reads := 0 }] ∧ u.pilot.thresh = s.pilot.thresh ∧ u.pilot.moves = []
    ∧ Keeps [.time, .pilot] s u)) ∧
  (∀ (s : State) (table i t a : Nat) (q : PilReq) (b : PilBlock) (loc : Nat) (br : Option Nat),
    s.pilot.queue = [q] → q.table = table → q.entry = i → s.pilot.moves = [] →
    (s.at t).blockOf table i = some b → b.pinned = false → b.berth = none →
    s.region (entryAddr table i) = .tier1 → table % 128 = 0 → entryAddr table i + 64 ≤ s.t1Top →
    s.unitFenced (s.unitAt (entryAddr table i)) = false → s.tiers.merge = [] → s.logging = false →
    Mem.readBytes s.mem (entryAddr table i + 9) 1 = some [1] → s.newHome q b = some (br, a, loc) →
    a < 2 ^ 48 → loc < 64 → Gives (.moveStart table i t) s (fun u => u.pilot.queue = []
    ∧ (u.pilot.moves.map (fun m => (m.table, m.entry))) = [(table, i)]
    ∧ (u.pilot.moves.map (fun m => (m.old, m.new, m.berth))) = [(b.base, a, br)]
    ∧ (u.pilot.moves.map (fun m => (m.size, m.step, m.since))) = [(b.size, .copy 1, u.time)] ∧ u.mem = s.mem
    ∧ u.tiers.merge.map (·.atom) = [entryAddr table i / 64 * 64]
    ∧ u.tiers.merge.map (fun e => (byteField e.data.toNat (entryAddr table i % 64 + 9) 1, byteField e.data.toNat (entryAddr table i % 64 + 0x10) 8, byteField e.data.toNat (entryAddr table i % 64 + 0x18) 1)) = [(2, homeOf (br.getD s.ownBerth) a, loc)]
    ∧ Keeps [.time, .tiers, .pilot] s u)) ∧
  (∀ (s : State) (table i t : Nat) (m : PilMove) (bs : List Byte), s.pilot.moves = [m] → m.table = table →
    m.entry = i → m.step = .copy 1 → m.failed = false → m.berth = none → m.todo = [0] → m.dirty = [] →
    m.send = [] → m.outstanding = 0 → m.size = 64 → s.entryLost table i = false → s.region m.new = .tier1 →
    m.new % 64 = 0 → m.new + 64 ≤ s.t1Top → s.unitFenced (s.unitAt m.new) = false → s.tiers.merge = [] →
    s.logging = false → Mem.readBytes s.mem m.old 64 = some bs →
    Gives (.moveCopyDone table i t) s (fun u => Mem.readBytes u.mem m.new 64 = some bs
    ∧ SameOutside s.mem u.mem m.new (m.new + 64)
    ∧ u.pilot.moves = [{ m with step := .hold, since := u.time, todo := [] }]
    ∧ Keeps [.time, .mem, .tiers, .pilot] s u)) ∧
  (∀ (s : State) (table i t : Nat) (m : PilMove), s.pilot.moves = [m] → m.table = table → m.entry = i →
    m.step = .hold → m.failed = false → m.berth = none → m.todo = [] → m.held = [] → m.send = [] →
    m.outstanding = 0 → m.issuer = none → s.entryLost table i = false → s.twinOn = false →
    m.meets table (160 + 32 * i) = false → s.region (entryAddr table i) = .tier1 → table % 128 = 0 →
    entryAddr table i + 64 ≤ s.t1Top → s.unitFenced (s.unitAt (entryAddr table i)) = false →
    s.tiers.merge = [] → s.logging = false →
    Gives (.moveCopyDone table i t) s (fun u => (u.moveOf table i).map (·.step) = some .forward
    ∧ (u.moveOf table i).map (·.earlier) = some (s.graph.graphs.map Prod.fst)
    ∧ u.pilot.committed = s.pilot.committed + 1 ∧ (∀ b ∈ u.pilot.blocks, b.table = table → b.entry = i →
    b.base = m.new)
    ∧ SameOutside s.mem u.mem (((s.resv 3).1 + 32 * (s.pilot.dlogHead.toNat % 4096)) / 64 * 64) (((s.resv 3).1 + 32 * (s.pilot.dlogHead.toNat % 4096)) / 64 * 64 + 64)
    ∧ Keeps [.time, .mem, .tiers, .trace, .pilot] s u)) ∧
  (∀ (s : State) (table i t : Nat) (m : PilMove), s.pilot.moves = [m] → m.table = table → m.entry = i →
    m.step = .hold → m.since + usTicks 100 < t → m.held = [] → m.issuer = none →
    s.region (entryAddr table i) = .tier1 → table % 128 = 0 → entryAddr table i + 64 ≤ s.t1Top →
    s.unitFenced (s.unitAt (entryAddr table i)) = false → s.tiers.merge = [] → s.logging = false →
    Gives (.moveAbandon table i t) s (fun u => u.pilot.moves = []
    ∧ u.pilot.abandoned = s.pilot.abandoned + 1 ∧ u.pilot.committed = s.pilot.committed
    ∧ (s.events.entries = [] →
    (u.events.entries.any (fun e => e.record.status == ST_PIL_MOVE_FAILED)) = true)
    ∧ SameOutside s.mem u.mem (((s.resv 3).1 + 32 * (s.pilot.dlogHead.toNat % 4096)) / 64 * 64) (((s.resv 3).1 + 32 * (s.pilot.dlogHead.toNat % 4096)) / 64 * 64 + 64)
    ∧ Keeps [.time, .mem, .quays, .tiers, .events, .trace, .pilot] s u)) ∧
  (∀ (s : State) (table i t : Nat) (m : PilMove), s.pilot.moves = [m] → m.table = table → m.entry = i →
    m.step = .hold → s.time ≤ m.since + usTicks 100 → t ≤ m.since + usTicks 100 →
    Gives (.moveAbandon table i t) s (fun u => Keeps [.time] s u)) ∧
  (∀ (s : State) (table i t : Nat) (m : PilMove), s.pilot.moves = [m] → m.table = table → m.entry = i →
    m.step = .forward → m.send = [] → m.outstanding = 0 → ∀ g ∈ m.earlier, s.graphOf g = none →
    Gives (.moveFreeOld table i t) s (fun u => u.pilot.moves = [] ∧ u.pilot.blocks = s.pilot.blocks
    ∧ u.pilot.queue = s.pilot.queue ∧ Keeps [.time, .pilot] s u)) ∧
  (∀ (s : State) (t : Nat) (p : PeerPlace), s.pilot.peerPlace = some p → p.askedAt + msTicks 5 ≤ t →
    p.berths.length ≤ p.refused + 1 →
    Gives (.peerPlaceTimeout t) s (fun u => u.pilot.peerPlace = some { p with berths := p.berths.drop 1 ++ p.berths.take 1, refused := p.refused + 1 }
    ∧ Keeps [.time, .pilot] s u))

/-- The engine takes the command at the head of a queue, moves HEAD past it and writes a result
record. OPEN writes the entry; READY makes it READY at the POS given; CREDIT sets RING_LIMIT
and RING_WAIT, and refuses more room than the ring has; PAUSE of a lazily pausing model,
RESUME of a cache that was not parked and CLOSE set the state; in a step PAUSE and CLOSE leave
a request; SET_PRIO sets PRIO; QUERY writes the entry after the record; REBIND gives a
taken-over entry its new ring and ends its hold. -/
def Obligations.ServingCommands : Prop :=
  (∀ (s : State) (t q i w : Nat) (x : HwQueue) (m : SrvModel) (g : Nat), (s.at t).srvNext = some (q, x, w) →
    s.hwq q = some x → s.log.paused = false → s.logging = false → (s.at t).decisionAllowed 0x603 q = true →
    x.head + 1 ≠ x.tail → x.ringLoc = 1 → cmdOp w = 0 → cmdFormatOk s.fab.twinMode w = true → cmdIndex w = i
    → i < 2 ^ 20 → s.srvModel (byteField w 0x18 2 % 4096) = some m →
    s.kvGeom (byteField w 0x18 2 % 4096) = some g → m.tenant = x.tenant → m.shared = false →
    s.srvOwn i = true → (s.srvE i).state = 0 → s.srvUsed x.tenant < (s.srvTenant x.tenant).quota.toNat →
    4 ≤ byteField w 0x38 8 % 32 → byteField w 0x38 8 % 32 ≤ 16 → byteField w 0x30 8 ≠ 0 →
    (((s.at t).srvTook q x w).srvOpen x.tenant w i g false).toOption.isSome = true → cmdRec w ≠ 0 →
    Gives (.openSeq t) s (fun u => (u.srvE i).w = (openEntry x.tenant w (byteField w 0x30 8) u.time).w
    ∧ Mem.readBytes u.hostMem (cmdRec w + 4) 2 = some (bytesOfNat 2 0)
    ∧ Mem.readBytes u.hostMem (cmdRec w + 12) 4 = some (bytesOfNat 4 i)
    ∧ SameOutside s.hostMem u.hostMem (cmdRec w) (cmdRec w + 32)
    ∧ (u.hwq q).map (·.head) = some (x.head + 1) ∧ OnlyAt s.graph.queues u.graph.queues q
    ∧ u.serving.models = s.serving.models
    ∧ Keeps [.time, .mem, .hostMem, .quays, .tiers, .events, .trace, .fab, .graph, .pilot, .kv, .serving, .agent] s u)) ∧
  (∀ (s : State) (t q i w : Nat) (x : HwQueue) (g : Nat), (s.at t).srvNext = some (q, x, w) →
    s.hwq q = some x → s.log.paused = false → s.logging = false → (s.at t).decisionAllowed 0x603 q = true →
    x.head + 1 ≠ x.tail → x.ringLoc = 1 → cmdOp w = 1 → cmdFormatOk s.fab.twinMode w = true → cmdIndex w = i
    → i < 2 ^ 20 → s.srvOwn i = true → (s.srvE i).tenant = x.tenant → s.srvCached i = true → cmdRec w ≠ 0 →
    (s.srvE i).state = 1 → s.kvGeom (s.srvE i).model = some g →
    s.ptPages (s.srvE i).pt = byteField w 0x20 4 / 32 + 1 →
    s.ptSummed (s.srvE i).pt = byteField w 0x20 4 / 32 → Gives (.ready t) s (fun u => (u.srvE i).state = 2
    ∧ (u.srvE i).pos = byteField w 0x20 4 ∧ (u.srvE i).time = u.time
    ∧ (u.srvE i).f 0x18 4 = byteField w 0x28 4 ∧ (u.srvE i).flag 2 = false ∧ (u.srvE i).flag 5 = false
    ∧ (u.srvE i).pt = (s.srvE i).pt ∧ (u.srvE i).tail = (s.srvE i).tail
    ∧ (u.srvE i).limit = (s.srvE i).limit ∧ Mem.readBytes u.hostMem (cmdRec w + 4) 2 = some (bytesOfNat 2 0)
    ∧ Mem.readBytes u.hostMem (cmdRec w + 12) 4 = some (bytesOfNat 4 i)
    ∧ SameOutside s.hostMem u.hostMem (cmdRec w) (cmdRec w + 32)
    ∧ (u.hwq q).map (·.head) = some (x.head + 1) ∧ OnlyAt s.graph.queues u.graph.queues q
    ∧ OnlyAt s.serving.entries u.serving.entries i ∧ u.serving.outs = s.serving.outs
    ∧ u.serving.models = s.serving.models
    ∧ Keeps [.time, .mem, .hostMem, .quays, .tiers, .trace, .fab, .graph, .pilot, .serving] s u)) ∧
  (∀ (s : State) (t q i w : Nat) (x : HwQueue), (s.at t).srvNext = some (q, x, w) → s.hwq q = some x →
    s.log.paused = false → s.logging = false → (s.at t).decisionAllowed 0x603 q = true → x.head + 1 ≠ x.tail
    → x.ringLoc = 1 → cmdOp w = 2 → cmdFormatOk s.fab.twinMode w = true → cmdIndex w = i → i < 2 ^ 20 →
    s.srvOwn i = true → (s.srvE i).tenant = x.tenant → s.srvCached i = true → cmdRec w ≠ 0 →
    (s.srvE i).state ≠ 0 → (s.srvE i).held = false →
    (cmdArg w + 2 ^ 32 - (s.srvE i).tail) % 2 ^ 32 ≤ 2 ^ (s.srvE i).ringLog →
    Gives (.credit t) s (fun u => (u.srvE i).limit = cmdArg w
    ∧ (u.srvE i).flag 1 = decide ((s.srvE i).tail = cmdArg w) ∧ (u.srvE i).state = (s.srvE i).state
    ∧ (u.srvE i).tail = (s.srvE i).tail ∧ (u.srvE i).pos = (s.srvE i).pos
    ∧ Mem.readBytes u.hostMem (cmdRec w + 4) 2 = some (bytesOfNat 2 0)
    ∧ Mem.readBytes u.hostMem (cmdRec w + 12) 4 = some (bytesOfNat 4 i)
    ∧ SameOutside s.hostMem u.hostMem (cmdRec w) (cmdRec w + 32)
    ∧ (u.hwq q).map (·.head) = some (x.head + 1) ∧ OnlyAt s.graph.queues u.graph.queues q
    ∧ OnlyAt s.serving.entries u.serving.entries i ∧ u.serving.outs = s.serving.outs
    ∧ u.serving.models = s.serving.models ∧ Keeps [.time, .hostMem, .trace, .fab, .graph, .serving] s u)) ∧
  (∀ (s : State) (t q i w : Nat) (x : HwQueue), (s.at t).srvNext = some (q, x, w) → s.hwq q = some x →
    s.log.paused = false → s.logging = false → (s.at t).decisionAllowed 0x603 q = true → x.head + 1 ≠ x.tail
    → x.ringLoc = 1 → cmdOp w = 2 → cmdFormatOk s.fab.twinMode w = true → cmdIndex w = i → i < 2 ^ 20 →
    s.srvOwn i = true → (s.srvE i).tenant = x.tenant → s.srvCached i = true → cmdRec w ≠ 0 →
    (s.srvE i).state ≠ 0 → (s.srvE i).held = false →
    2 ^ (s.srvE i).ringLog < (cmdArg w + 2 ^ 32 - (s.srvE i).tail) % 2 ^ 32 →
    Gives (.credit t) s (fun u => u.serving.entries = s.serving.entries
    ∧ Mem.readBytes u.hostMem (cmdRec w + 4) 2 = some (bytesOfNat 2 ST_SRV_CREDIT.toNat)
    ∧ Mem.readBytes u.hostMem (cmdRec w + 12) 4 = some (bytesOfNat 4 i)
    ∧ SameOutside s.hostMem u.hostMem (cmdRec w) (cmdRec w + 32)
    ∧ (u.hwq q).map (·.head) = some (x.head + 1) ∧ OnlyAt s.graph.queues u.graph.queues q
    ∧ OnlyAt s.serving.entries u.serving.entries i ∧ u.serving.outs = s.serving.outs
    ∧ u.serving.models = s.serving.models ∧ Keeps [.time, .hostMem, .trace, .fab, .graph, .serving] s u)) ∧
  (∀ (s : State) (t q i w : Nat) (x : HwQueue) (g : Nat), (s.at t).srvNext = some (q, x, w) →
    s.hwq q = some x → s.log.paused = false → s.logging = false → (s.at t).decisionAllowed 0x603 q = true →
    x.head + 1 ≠ x.tail → x.ringLoc = 1 → cmdOp w = 3 → cmdFormatOk s.fab.twinMode w = true → cmdIndex w = i
    → i < 2 ^ 20 → s.srvOwn i = true → (s.srvE i).tenant = x.tenant → s.srvCached i = true → cmdRec w ≠ 0 →
    (s.srvE i).state = 2 → s.kvGeom (s.srvE i).model = some g → kvLazy g = true →
    Gives (.pause t) s (fun u => (u.srvE i).state = 4 ∧ (u.srvE i).time = u.time + secTicks (cmdArg w)
    ∧ (u.srvE i).pos = (s.srvE i).pos ∧ u.kv = s.kv
    ∧ Mem.readBytes u.hostMem (cmdRec w + 4) 2 = some (bytesOfNat 2 0)
    ∧ Mem.readBytes u.hostMem (cmdRec w + 12) 4 = some (bytesOfNat 4 i)
    ∧ SameOutside s.hostMem u.hostMem (cmdRec w) (cmdRec w + 32)
    ∧ (u.hwq q).map (·.head) = some (x.head + 1) ∧ OnlyAt s.graph.queues u.graph.queues q
    ∧ OnlyAt s.serving.entries u.serving.entries i ∧ u.serving.outs = s.serving.outs
    ∧ u.serving.models = s.serving.models ∧ Keeps [.time, .hostMem, .trace, .fab, .graph, .serving] s u)) ∧
  (∀ (s : State) (t q i w : Nat) (x : HwQueue), (s.at t).srvNext = some (q, x, w) → s.hwq q = some x →
    s.log.paused = false → s.logging = false → (s.at t).decisionAllowed 0x603 q = true → x.head + 1 ≠ x.tail
    → x.ringLoc = 1 → cmdOp w = 3 → cmdFormatOk s.fab.twinMode w = true → cmdIndex w = i → i < 2 ^ 20 →
    s.srvOwn i = true → (s.srvE i).tenant = x.tenant → s.srvCached i = true → cmdRec w ≠ 0 →
    (s.srvE i).state = 3 → Gives (.pause t) s (fun u => (u.srvE i).state = 3 ∧ (u.srvE i).flag 4 = true
    ∧ (u.srvE i).ttl = cmdArg w ∧ (u.srvE i).flag 3 = (s.srvE i).flag 3
    ∧ Mem.readBytes u.hostMem (cmdRec w + 4) 2 = some (bytesOfNat 2 0)
    ∧ Mem.readBytes u.hostMem (cmdRec w + 12) 4 = some (bytesOfNat 4 i)
    ∧ SameOutside s.hostMem u.hostMem (cmdRec w) (cmdRec w + 32)
    ∧ (u.hwq q).map (·.head) = some (x.head + 1) ∧ OnlyAt s.graph.queues u.graph.queues q
    ∧ OnlyAt s.serving.entries u.serving.entries i ∧ u.serving.outs = s.serving.outs
    ∧ u.serving.models = s.serving.models ∧ Keeps [.time, .hostMem, .trace, .fab, .graph, .serving] s u)) ∧
  (∀ (s : State) (t q i w : Nat) (x : HwQueue) (g : Nat), (s.at t).srvNext = some (q, x, w) →
    s.hwq q = some x → s.log.paused = false → s.logging = false → (s.at t).decisionAllowed 0x603 q = true →
    x.head + 1 ≠ x.tail → x.ringLoc = 1 → cmdOp w = 4 → cmdFormatOk s.fab.twinMode w = true → cmdIndex w = i
    → i < 2 ^ 20 → s.srvOwn i = true → (s.srvE i).tenant = x.tenant → s.srvCached i = true → cmdRec w ≠ 0 →
    (s.srvE i).state = 4 → s.kvGeom (s.srvE i).model = some g → s.ptParked (s.srvE i).pt = false →
    Gives (.resume t) s (fun u => (u.srvE i).state = 2 ∧ (u.srvE i).time = u.time
    ∧ (u.srvE i).pos = (s.srvE i).pos ∧ u.kv = s.kv
    ∧ Mem.readBytes u.hostMem (cmdRec w + 4) 2 = some (bytesOfNat 2 0)
    ∧ Mem.readBytes u.hostMem (cmdRec w + 12) 4 = some (bytesOfNat 4 i)
    ∧ SameOutside s.hostMem u.hostMem (cmdRec w) (cmdRec w + 32)
    ∧ (u.hwq q).map (·.head) = some (x.head + 1) ∧ OnlyAt s.graph.queues u.graph.queues q
    ∧ OnlyAt s.serving.entries u.serving.entries i ∧ u.serving.outs = s.serving.outs
    ∧ u.serving.models = s.serving.models ∧ Keeps [.time, .hostMem, .trace, .fab, .graph, .serving] s u)) ∧
  (∀ (s : State) (t q i w : Nat) (x : HwQueue), (s.at t).srvNext = some (q, x, w) → s.hwq q = some x →
    s.log.paused = false → s.logging = false → (s.at t).decisionAllowed 0x603 q = true → x.head + 1 ≠ x.tail
    → x.ringLoc = 1 → cmdOp w = 5 → cmdFormatOk s.fab.twinMode w = true → cmdIndex w = i → i < 2 ^ 20 →
    s.srvOwn i = true → (s.srvE i).tenant = x.tenant → s.srvCached i = true → cmdRec w ≠ 0 →
    (s.srvE i).state = 2 → Gives (.close t) s (fun u => (u.srvE i).state = 0 ∧ (u.srvE i).flag 3 = false
    ∧ (u.srvE i).held = false ∧ (u.serving.outs.all (fun o => o.entry != i)) = true
    ∧ (s.kvGeom (s.srvE i).model ≠ none → (u.kv.slots.all (fun k => k.entry != i)) = true)
    ∧ Mem.readBytes u.hostMem (cmdRec w + 4) 2 = some (bytesOfNat 2 0)
    ∧ Mem.readBytes u.hostMem (cmdRec w + 12) 4 = some (bytesOfNat 4 i)
    ∧ SameOutside s.hostMem u.hostMem (cmdRec w) (cmdRec w + 32)
    ∧ (u.hwq q).map (·.head) = some (x.head + 1) ∧ OnlyAt s.graph.queues u.graph.queues q
    ∧ OnlyAt s.serving.entries u.serving.entries i ∧ u.serving.models = s.serving.models
    ∧ Keeps [.time, .mem, .hostMem, .quays, .tiers, .events, .trace, .fab, .graph, .pilot, .kv, .serving, .agent] s u)) ∧
  (∀ (s : State) (t q i w : Nat) (x : HwQueue), (s.at t).srvNext = some (q, x, w) → s.hwq q = some x →
    s.log.paused = false → s.logging = false → (s.at t).decisionAllowed 0x603 q = true → x.head + 1 ≠ x.tail
    → x.ringLoc = 1 → cmdOp w = 5 → cmdFormatOk s.fab.twinMode w = true → cmdIndex w = i → i < 2 ^ 20 →
    s.srvOwn i = true → (s.srvE i).tenant = x.tenant → s.srvCached i = true → cmdRec w ≠ 0 →
    (s.srvE i).state = 3 → Gives (.close t) s (fun u => (u.srvE i).state = 3 ∧ (u.srvE i).flag 3 = true
    ∧ u.kv = s.kv ∧ Mem.readBytes u.hostMem (cmdRec w + 4) 2 = some (bytesOfNat 2 0)
    ∧ Mem.readBytes u.hostMem (cmdRec w + 12) 4 = some (bytesOfNat 4 i)
    ∧ SameOutside s.hostMem u.hostMem (cmdRec w) (cmdRec w + 32)
    ∧ (u.hwq q).map (·.head) = some (x.head + 1) ∧ OnlyAt s.graph.queues u.graph.queues q
    ∧ OnlyAt s.serving.entries u.serving.entries i ∧ u.serving.outs = s.serving.outs
    ∧ u.serving.models = s.serving.models ∧ Keeps [.time, .hostMem, .trace, .fab, .graph, .serving] s u)) ∧
  (∀ (s : State) (t q i w : Nat) (x : HwQueue), (s.at t).srvNext = some (q, x, w) → s.hwq q = some x →
    s.log.paused = false → s.logging = false → (s.at t).decisionAllowed 0x603 q = true → x.head + 1 ≠ x.tail
    → x.ringLoc = 1 → cmdOp w = 6 → cmdFormatOk s.fab.twinMode w = true → cmdIndex w = i → i < 2 ^ 20 →
    s.srvOwn i = true → (s.srvE i).tenant = x.tenant → s.srvCached i = true → cmdRec w ≠ 0 →
    Gives (.query t) s (fun u => u.serving.entries = s.serving.entries
    ∧ Mem.readBytes u.hostMem (cmdRec w + 32) 64 = some (bytesOfNat 64 (s.srvE i).w.toNat)
    ∧ SameOutside s.hostMem u.hostMem (cmdRec w) (cmdRec w + 96)
    ∧ Mem.readBytes u.hostMem (cmdRec w + 4) 2 = some [0, 0] ∧ (u.hwq q).map (·.head) = some (x.head + 1)
    ∧ OnlyAt s.graph.queues u.graph.queues q ∧ OnlyAt s.serving.entries u.serving.entries i
    ∧ u.serving.outs = s.serving.outs ∧ u.serving.models = s.serving.models
    ∧ Keeps [.time, .hostMem, .trace, .fab, .graph, .serving] s u)) ∧
  (∀ (s : State) (t q i w : Nat) (x : HwQueue), (s.at t).srvNext = some (q, x, w) → s.hwq q = some x →
    s.log.paused = false → s.logging = false → (s.at t).decisionAllowed 0x603 q = true → x.head + 1 ≠ x.tail
    → x.ringLoc = 1 → cmdOp w = 7 → cmdFormatOk s.fab.twinMode w = true → cmdIndex w = i → i < 2 ^ 20 →
    s.srvOwn i = true → (s.srvE i).tenant = x.tenant → s.srvCached i = true → cmdRec w ≠ 0 →
    (s.srvE i).state ≠ 0 → Gives (.setPrio t) s (fun u => (u.srvE i).prio = cmdArg w % 8
    ∧ (u.srvE i).state = (s.srvE i).state ∧ (u.srvE i).pos = (s.srvE i).pos
    ∧ (u.srvE i).limit = (s.srvE i).limit ∧ Mem.readBytes u.hostMem (cmdRec w + 4) 2 = some (bytesOfNat 2 0)
    ∧ Mem.readBytes u.hostMem (cmdRec w + 12) 4 = some (bytesOfNat 4 i)
    ∧ SameOutside s.hostMem u.hostMem (cmdRec w) (cmdRec w + 32)
    ∧ (u.hwq q).map (·.head) = some (x.head + 1) ∧ OnlyAt s.graph.queues u.graph.queues q
    ∧ OnlyAt s.serving.entries u.serving.entries i ∧ u.serving.outs = s.serving.outs
    ∧ u.serving.models = s.serving.models ∧ Keeps [.time, .hostMem, .trace, .fab, .graph, .serving] s u)) ∧
  (∀ (s : State) (t q i w : Nat) (x : HwQueue), (s.at t).srvNext = some (q, x, w) → s.hwq q = some x →
    s.log.paused = false → s.logging = false → (s.at t).decisionAllowed 0x603 q = true → x.head + 1 ≠ x.tail
    → x.ringLoc = 1 → cmdOp w = 8 → cmdFormatOk s.fab.twinMode w = true → cmdIndex w = i → i < 2 ^ 20 →
    s.srvOwn i = true → (s.srvE i).tenant = x.tenant → s.srvCached i = true → cmdRec w ≠ 0 →
    s.fab.twinMode = true → (s.srvE i).state ≠ 0 → (s.srvE i).held = true → 4 ≤ byteField w 0x38 8 % 32 →
    byteField w 0x38 8 % 32 ≤ 16 → cmdArg w ≤ 2 ^ (byteField w 0x38 8 % 32) →
    Gives (.rebind t) s (fun u => (u.srvE i).held = false ∧ (u.srvE i).tail = 0
    ∧ (u.srvE i).limit = cmdArg w ∧ (u.srvE i).f 0x28 8 = byteField w 0x38 8
    ∧ (u.srvE i).state = (s.srvE i).state ∧ Mem.readBytes u.hostMem (cmdRec w + 4) 2 = some (bytesOfNat 2 0)
    ∧ Mem.readBytes u.hostMem (cmdRec w + 12) 4 = some (bytesOfNat 4 i)
    ∧ SameOutside s.hostMem u.hostMem (cmdRec w) (cmdRec w + 32)
    ∧ (u.hwq q).map (·.head) = some (x.head + 1) ∧ OnlyAt s.graph.queues u.graph.queues q
    ∧ OnlyAt s.serving.entries u.serving.entries i ∧ u.serving.outs = s.serving.outs
    ∧ u.serving.models = s.serving.models ∧ Keeps [.time, .hostMem, .trace, .fab, .graph, .serving] s u)) ∧
  (∀ (s : State) (t q i w : Nat) (x : HwQueue), (s.at t).srvNext = some (q, x, w) → s.hwq q = some x →
    s.log.paused = false → s.logging = false → (s.at t).decisionAllowed 0x603 q = true → x.head + 1 ≠ x.tail
    → x.ringLoc = 1 → cmdOp w = 2 → cmdFormatOk s.fab.twinMode w = false → cmdRec w ≠ 0 →
    Gives (.credit t) s (fun u => u.serving.entries = s.serving.entries
    ∧ Mem.readBytes u.hostMem (cmdRec w + 4) 2 = some (bytesOfNat 2 ST_SRV_CMD_FMT.toNat)
    ∧ Mem.readBytes u.hostMem (cmdRec w + 12) 4 = some (bytesOfNat 4 0xFFFFFFFF)
    ∧ SameOutside s.hostMem u.hostMem (cmdRec w) (cmdRec w + 32)
    ∧ (u.hwq q).map (·.head) = some (x.head + 1) ∧ OnlyAt s.graph.queues u.graph.queues q
    ∧ OnlyAt s.serving.entries u.serving.entries i ∧ u.serving.outs = s.serving.outs
    ∧ u.serving.models = s.serving.models ∧ Keeps [.time, .hostMem, .trace, .fab, .graph, .serving] s u))

/-- A step takes the first ready entries of its group, makes them IN_STEP and puts its LAUNCH entry
in the launch queue; at completion a row of an earlier stage moves to the next one, a failed
row is tried once more, and a token of the last stage advances POS and queues its descriptor;
the oldest descriptor of an entry is written at RING_TAIL; a refused write ends the entry; a
paused entry whose time has passed is freed; a copy that ends sets the state its command asked
for. -/
def Obligations.ServingSteps : Prop :=
  (∀ (s : State) (model stage t slot : Nat) (m : SrvModel) (h : HwQueue), s.serving.inFlight = [] →
    s.srvModel model = some m → (s.at t).srvSlot model stage = some slot →
    (s.at t).srvGroups.contains (model, stage) = true → s.hwq m.queue = some h → s.launchRoom m.queue = true
    → s.logging = false → s.log.held = false →
    Gives (.stepLaunch model stage t) s (fun u => u.serving.steps = s.serving.steps + 1
    ∧ u.serving.inFlight.length = 1
    ∧ u.serving.inFlight.all (fun x => x.model == model && x.stage == stage && x.slot == slot && x.queued && !x.delivered && x.stepNo == BitVec.ofNat 32 (s.serving.steps + 1).toNat && x.rows == ((s.at t).srvReady model stage).take (m.bmax stage (m.vars stage - 1))) = true
    ∧ (((s.at t).srvReady model stage).take (m.bmax stage (m.vars stage - 1))).all (fun r => (u.srvE r).state == 3) = true
    ∧ (u.hwq m.queue).map (·.tail) = some (h.tail + 1) ∧ OnlyAt s.graph.queues u.graph.queues m.queue
    ∧ u.serving.outs = s.serving.outs
    ∧ Keeps [.time, .mem, .quays, .tiers, .trace, .fab, .graph, .pilot, .serving] s u)) ∧
  (∀ (s : State) (model stage t : Nat), Gives (.maxWaitExpiry model stage t) s (fun u => Keeps [.time] s u)) ∧
  (∀ (s : State) (step i t : Nat) (x : SrvStep) (m : SrvModel), s.serving.inFlight = [x] →
    x.stepNo = BitVec.ofNat 32 step → x.delivered = false → x.rows = [i] → x.result = some 0 →
    s.srvModel x.model = some m → (s.srvE i).state = 3 → (s.srvE i).flag 0 = false →
    (s.srvE i).flag 2 = false → (s.srvE i).flag 3 = false → (s.srvE i).flag 4 = false →
    x.stage + 1 < m.stages → Gives (.stepCompletion step t) s (fun u => (u.srvE i).stage = (x.stage + 1) % 8
    ∧ (u.srvE i).state = 2 ∧ (u.srvE i).time = u.time ∧ (u.srvE i).pos = (s.srvE i).pos
    ∧ (u.srvE i).tail = (s.srvE i).tail ∧ u.serving.outs = s.serving.outs
    ∧ OnlyAt s.serving.entries u.serving.entries i ∧ u.kv = s.kv
    ∧ Keeps [.time, .mem, .quays, .events, .trace, .fab, .pilot, .serving] s u)) ∧
  (∀ (s : State) (step i t : Nat) (x : SrvStep) (m : SrvModel) (er : Status), s.serving.inFlight = [x] →
    x.stepNo = BitVec.ofNat 32 step → x.delivered = false → x.rows = [i] → x.result = some er →
    s.srvModel x.model = some m → (s.srvE i).state = 3 → (s.srvE i).flag 0 = false →
    (s.srvE i).flag 2 = false → (s.srvE i).flag 3 = false → (s.srvE i).flag 4 = false → statusClass er ≠ 0 →
    (s.srvE i).flag 5 = false →
    Gives (.stepCompletion step t) s (fun u => (u.srvE i).stage = (s.srvE i).stage ∧ (u.srvE i).state = 2
    ∧ (u.srvE i).flag 5 = true ∧ (u.srvE i).pos = (s.srvE i).pos ∧ u.serving.outs = s.serving.outs
    ∧ OnlyAt s.serving.entries u.serving.entries i ∧ u.kv = s.kv
    ∧ Keeps [.time, .mem, .quays, .events, .trace, .fab, .pilot, .serving] s u)) ∧
  (∀ (s : State) (step i t : Nat) (x : SrvStep) (m : SrvModel) (er : Status), s.serving.inFlight = [x] →
    x.stepNo = BitVec.ofNat 32 step → x.delivered = false → x.rows = [i] → x.result = some er →
    s.srvModel x.model = some m → (s.srvE i).state = 3 → (s.srvE i).flag 0 = false →
    (s.srvE i).flag 2 = false → (s.srvE i).flag 3 = false → (s.srvE i).flag 4 = false → statusClass er ≠ 0 →
    (s.srvE i).flag 5 = true → s.serving.outs = [] →
    Gives (.stepCompletion step t) s (fun u => (u.srvE i).state = 3 ∧ (u.srvE i).pos = (s.srvE i).pos
    ∧ u.serving.outs.map (fun o => (o.entry, o.next, o.words)) = [(i, 6, outWords 0xFFFFFFFF 0 er.toNat (s.srvE i).pos 14 ((s.srvE i).f 8 4))]
    ∧ OnlyAt s.serving.entries u.serving.entries i ∧ u.kv = s.kv
    ∧ Keeps [.time, .mem, .quays, .events, .trace, .fab, .pilot, .serving] s u)) ∧
  (∀ (s : State) (step i t : Nat) (x : SrvStep) (m : SrvModel) (tok lp : Nat), s.serving.inFlight = [x] →
    x.stepNo = BitVec.ofNat 32 step → x.delivered = false → x.rows = [i] → x.result = some 0 →
    s.srvModel x.model = some m → (s.srvE i).state = 3 → (s.srvE i).flag 0 = false →
    (s.srvE i).flag 2 = false → (s.srvE i).flag 3 = false → (s.srvE i).flag 4 = false →
    m.stages = x.stage + 1 → s.serving.outs = [] → s.tiers.merge = [] → s.logging = false → tok < 2 ^ 32 →
    lp < 2 ^ 32 →
    Mem.readBytes s.mem (m.block x.stage x.slot + 0x58) 8 = some (bytesOfNat 4 tok ++ bytesOfNat 4 lp) →
    ((s.srvE i).pos + 1) % 32 ≠ 0 → (s.srvE i).pos + 1 < 2 ^ 32 →
    (s.srvE i).cause tok (((s.srvE i).f 0x10 4 + 1) % 2 ^ 32) = 0 →
    Gives (.stepCompletion step t) s (fun u => (u.srvE i).pos = (s.srvE i).pos + 1
    ∧ (u.srvE i).f 0x18 4 = tok ∧ (u.srvE i).f 0x10 4 = ((s.srvE i).f 0x10 4 + 1) % 2 ^ 32
    ∧ (u.srvE i).stage = 0 ∧ (u.srvE i).state = 3
    ∧ u.serving.outs.map (fun o => (o.entry, o.next, o.words)) = [(i, 2, outWords tok lp 0 ((s.srvE i).pos + 1) 0 ((s.srvE i).f 8 4))]
    ∧ OnlyAt s.serving.entries u.serving.entries i ∧ u.kv = s.kv ∧ u.hostMem = s.hostMem
    ∧ Keeps [.time, .mem, .quays, .tiers, .events, .trace, .fab, .pilot, .serving] s u)) ∧
  (∀ (s : State) (i t : Nat) (o : SrvOut), s.serving.outs = [o] → o.entry = i → o.step = none →
    s.twinOn = false → o.next = 2 → (s.srvE i).tail ≠ (s.srvE i).limit → (s.srvE i).held = false →
    (s.srvE i).flag 3 = false → (s.srvE i).flag 4 = false → (s.srvE i).tail + 1 < 2 ^ 32 →
    Gives (.outputDescriptorWrite i t) s (fun u => u.serving.outs = []
    ∧ (u.srvE i).tail = (s.srvE i).tail + 1 ∧ (u.srvE i).state = 2 ∧ (u.srvE i).pos = (s.srvE i).pos
    ∧ SameOutside s.hostMem u.hostMem ((s.srvE i).ringBase + 32 * ((s.srvE i).tail % 2 ^ (s.srvE i).ringLog)) ((s.srvE i).ringBase + 32 * ((s.srvE i).tail % 2 ^ (s.srvE i).ringLog) + 32)
    ∧ Mem.readBytes u.hostMem ((s.srvE i).ringBase + 32 * ((s.srvE i).tail % 2 ^ (s.srvE i).ringLog) + 0xC) 4 = some (bytesOfNat 4 (s.srvE i).tail)
    ∧ OnlyAt s.serving.entries u.serving.entries i
    ∧ Keeps [.time, .mem, .hostMem, .trace, .fab, .pilot, .serving] s u)) ∧
  (∀ (s : State) (i t : Nat) (o : SrvOut), s.serving.outs = [o] → o.entry = i → o.step = none →
    (s.srvE i).tail = (s.srvE i).limit → Gives (.outputDescriptorWrite i t) s (fun u => Keeps [.time] s u)) ∧
  (∀ (s : State) (i t : Nat) (o : SrvOut), s.serving.outs = [o] → o.entry = i → o.step = none →
    (s.srvE i).flag 3 = false → Gives (.ringWriteError i t) s (fun u => u.serving.outs = []
    ∧ (u.srvE i).state = 6 ∧ (u.srvE i).tail = (s.srvE i).tail
    ∧ u.serving.ringErr.toNat = min (2 ^ 32 - 1) (s.serving.ringErr.toNat + 1)
    ∧ s.raised u [ST_SRV_RING_ERR] ∧ OnlyAt s.serving.entries u.serving.entries i
    ∧ Keeps [.time, .mem, .events, .trace, .fab, .pilot, .serving] s u)) ∧
  (∀ (s : State) (i t : Nat), (s.srvE i).state = 4 → (s.srvE i).time ≤ t → s.srvCopying i = false →
    s.srvOwn i = true → s.logging = false → s.log.held = false →
    Gives (.ttlExpiry i t) s (fun u => (u.srvE i).state = 0 ∧ u.events.entries ≠ []
    ∧ OnlyAt s.serving.entries u.serving.entries i
    ∧ Keeps [.time, .mem, .quays, .tiers, .events, .trace, .fab, .pilot, .kv, .serving] s u)) ∧
  (∀ (s : State) (i t : Nat), (s.srvE i).state = 4 → max s.time t < (s.srvE i).time →
    Gives (.ttlExpiry i t) s (fun u => Keeps [.time] s u)) ∧
  (∀ (s : State) (i t g : Nat) (c : KvCopy), s.kv.copies = [c] → c.entry = i →
    s.kvGeom (s.srvE i).model = some g → kvPeer g = false → c.resume = false → c.failed = false →
    (State.kvCopyOut i c.image ((s.at t).kvParts g i (s.srvE i).pos ((s.at t).ptSummed (s.srvE i).pt)) (s.at t)).1 = true
    → Gives (.parkCopyDone i t) s (fun u => u.kv.copies = [] ∧ (u.srvE i).state = 4
    ∧ (u.srvE i).time = u.time + secTicks c.arg ∧ (u.srvE i).pos = (s.srvE i).pos
    ∧ (u.kv.slots.all (fun k => k.entry != i)) = true ∧ OnlyAt s.serving.entries u.serving.entries i
    ∧ Keeps [.time, .mem, .hostMem, .quays, .tiers, .events, .trace, .fab, .pilot, .kv, .serving] s u)) ∧
  (∀ (s : State) (i t g : Nat) (c : KvCopy), s.kv.copies = [c] → c.entry = i →
    s.kvGeom (s.srvE i).model = some g → kvPeer g = false → c.resume = false → c.failed = true →
    Gives (.parkCopyDone i t) s (fun u => u.kv.copies = [] ∧ (u.srvE i).flag 2 = true
    ∧ (((s.srvE i).state = 1 ∨ (s.srvE i).state = 2 ∨ (s.srvE i).state = 4) → (u.srvE i).state = 5)
    ∧ OnlyAt s.serving.entries u.serving.entries i
    ∧ Keeps [.time, .mem, .hostMem, .quays, .tiers, .events, .trace, .fab, .pilot, .kv, .serving] s u)) ∧
  (∀ (s : State) (t : Nat) (x : SrvTenant), s.serving.slowAt + msTicks (max 1 s.serving.slowWin.toNat) ≤ t →
    s.serving.tenants = [(6, x)] → x.solo ≠ 0 → x.meas ≠ 0 →
    s.serving.slowThresh.toNat ≤ min 0xFFFF (256 * x.meas / x.solo) → x.fired = false →
    max 1 s.serving.slowConsec.toNat ≤ x.consec + 1 →
    Gives (.slowdownWindowEnd t) s (fun u => (u.srvTenant 6).ratio.toNat = min 0xFFFF (256 * x.meas / x.solo)
    ∧ (u.srvTenant 6).fired = true ∧ (u.srvTenant 6).meas = 0 ∧ s.raised u [ST_TENANT_SLOWDOWN]
    ∧ u.serving.slowAt = s.serving.slowAt + msTicks (max 1 s.serving.slowWin.toNat)
    ∧ u.serving.entries = s.serving.entries ∧ Keeps [.time, .events, .trace, .serving] s u))

/-- Where the head could dispatch if nodes of lower priority gave up their tiles, STOP is written to
the tiles of the shortest run of victims; a victim that does not stop in STOP_LIMIT_US is
aborted; stopped victims are spilled into the spill area and their tiles and memory operations
are free; a restored node runs again and its spill space is free. -/
def Obligations.PreemptionAndSpill : Prop :=
  (∀ (s : State) (t : Nat) (cands : List Placement) (rows : List (Option Nat)) (h : Nat × Nat) (g : GraphRun) (n : NodeSt) (es : List Nat) (vs : List (Nat × Nat)),
    (s.at t).headNode = some h → s.graphOf h.1 = some g → s.nodeOf h.1 h.2 = some n → s.graph.preempt = none
    → n.isTile = true → n.phase = .waiting → n.pin ≠ none → n.claim = [] →
    (s.graph.graphs.map (fun g => (g.2.nodes.filter (fun n => n.2.phase == .spilled)).length)).sum < 255 →
    ((s.at t).readTable g.tenant (ndWork n.w) 64 (ndStages n.w)).1.toOption = some es →
    ((s.at t).readTable g.tenant (ndWork n.w) 64 (ndStages n.w)).2.placesWith h.1 h.2 g.tenant n es cands rows [] = false
    →
    enoughVictims (((s.at t).readTable g.tenant (ndWork n.w) 64 (ndStages n.w)).2.placesWith h.1 h.2 g.tenant n es cands rows) [] (s.victims g.prio) = some vs
    →
    Gives (.preemption t cands rows) s (fun u => u.graph.preempt = some { head := h, victims := vs, since := u.time, copying := none }
    ∧ (∀ k ∈ vs.flatMap s.nodeTiles, (s.tile k).mode = .running → (s.tile k).active = true →
    (u.tile k).mode = .stopping) ∧ (u.nodeOf h.1 h.2).map (·.claim) = some (vs.flatMap s.nodeTiles)
    ∧ Keeps [.time, .mem, .quays, .tiles, .tiers, .events, .trace, .graph, .pilot, .agent] s u)) ∧
  (∀ (s : State) (t : Nat) (p : Preemption) (v : Nat × Nat), s.graph.preempt = some p → p.copying = none →
    p.since + usTicks (max 1 s.serving.stopUs.toNat) ≤ t →
    p.victims.all (fun v => s.victimAlive v && !s.victimStopped v) = true → p.victims = [v] →
    s.victimAlive v = true → s.logging = false → s.log.held = false →
    Gives (.preemptTimeout t) s (fun u => u.graph.preempt = none
    ∧ (u.graphOf v.1).map (fun g => g.failing.isSome) = some true ∧ u.serving.aborts = s.serving.aborts + 1
    ∧ u.serving.entries = s.serving.entries
    ∧ Keeps [.time, .free, .mem, .hostMem, .quays, .tiles, .tiers, .sync, .dma, .events, .trace, .fab, .graph, .pilot, .stks, .serving, .agent] s u)) ∧
  (∀ (s : State) (t : Nat) (p : Preemption), s.graph.preempt = some p → p.copying = none →
    p.victims.all (fun v => s.victimAlive v && s.victimStopped v) = true →
    p.victims.all (fun v => (s.nodeTiles v).all (fun k => (s.tile k).job.isNone)) = true → (∀ v ∈ p.victims,
    (s.nodeOf v.1 v.2).map (·.spill) = some []) →
    Gives (.spill t) s (fun u => u.graph.preempt = some { p with copying := some u.time }
    ∧ u.graph.graphs = s.graph.graphs ∧ u.mem = s.mem ∧ u.tiles = s.tiles ∧ Keeps [.time, .graph] s u)) ∧
  (∀ (s : State) (t : Nat) (p : Preemption) (v : Nat × Nat), s.graph.preempt = some p → p.copying ≠ none →
    p.victims = [v] → s.victimAlive v = true → Gives (.spillDone t) s (fun u => u.graph.preempt = none
    ∧ u.serving.preempts = s.serving.preempts + 1
    ∧ (u.nodeOf v.1 v.2).map (fun n => (n.phase, n.held, n.memops)) = some (.spilled, [], 0)
    ∧ (∀ k ∈ s.nodeTiles v, (u.tile k).mode = .idle ∧ (u.tile k).job = none) ∧ s.raised u [ST_PREEMPTED]
    ∧ Keeps [.time, .tiles, .events, .trace, .graph, .serving] s u)) ∧
  (∀ (s : State) (seq node t : Nat) (n : NodeSt), s.nodeOf seq node = some n → n.phase = .restoring →
    n.spill = [] →
    n.held.all (fun k => !(s.quay (k / 64)).parked && !(s.quay (k / 64)).pace.unparking) = true →
    Gives (.restoreDone seq node t) s (fun u => (u.nodeOf seq node).map (fun n => (n.phase, n.spill, n.held)) = some (.running, [], n.held)
    ∧ u.tiles = s.tiles ∧ u.mem = s.mem ∧ Keeps [.time, .trace, .graph] s u))

/-- A flit with a wrong CRC, or out of order, is discarded and asks for a resend; the next flit in
order advances SEQ and delivers its packets in order. A read, a write, an atomic operation and
an addition from another module run at their home under the rights of the tenant they name,
and are answered; one without the right is refused with its status. A response ends the
request of its tag; one without a request is counted as late; an unanswered request ends after
REQ_TIMEOUT_MS. -/
def Obligations.FabricPackets : Prop :=
  (∀ (s : State) (p t : Nat) (f : BitVec 1024), p < 16 → (s.port p).state = 2 → (s.port p).credits ≠ [] →
    crc64 (bytesOfNat 120 f.toNat) ≠ bits f.toNat 960 64 →
    Gives (.flitReceived p f t) s (fun u => u.port p = { s.port p with nak := true }
    ∧ OnlyAt s.fab.ports u.fab.ports p ∧ u.fab.inbox = s.fab.inbox ∧ Keeps [.time, .fab] s u)) ∧
  (∀ (s : State) (p t : Nat) (f : BitVec 1024), p < 16 → (s.port p).state = 2 → (s.port p).credits ≠ [] →
    crc64 (bytesOfNat 120 f.toNat) = bits f.toNat 960 64 → bits f.toNat 0 12 ≠ (s.port p).rxSeq.toNat →
    Gives (.flitReceived p f t) s (fun u => (u.port p).nak = true ∧ (u.port p).rxSeq = (s.port p).rxSeq
    ∧ (u.port p).partialSlots = (s.port p).partialSlots ∧ OnlyAt s.fab.ports u.fab.ports p
    ∧ u.fab.inbox = s.fab.inbox ∧ Keeps [.time, .fab] s u)) ∧
  (∀ (s : State) (p t : Nat) (f : BitVec 1024) (q : Packet), p < 16 → (s.port p).state = 2 →
    (s.port p).credits ≠ [] → crc64 (bytesOfNat 120 f.toNat) = bits f.toNat 960 64 →
    bits f.toNat 0 12 = (s.port p).rxSeq.toNat → bit f.toNat 44 = false → (s.port p).partialSlots = [] →
    (match frontOf (((List.range 14).map (fun i => BitVec.ofNat 64 (bits f.toNat (64 + 64 * i) 64))).drop (bits f.toNat 40 4)) with | .packet x r => decide (x = q) && r.all (fun w => w == 0) | _ => false) = true
    → s.isSelf q.dstH q.dstB = true → s.fab.waitQ = [] → s.logging = false →
    Gives (.flitReceived p f t) s (fun u => u.fab.inbox = s.fab.inbox ++ [(p, q)]
    ∧ (u.port p).rxSeq = (s.port p).rxSeq + 1 ∧ (u.port p).partialSlots = []
    ∧ (u.port p).nak = (s.port p).nak ∧ OnlyAt s.fab.ports u.fab.ports p ∧ Keeps [.time, .fab] s u)) ∧
  (∀ (s : State) (t k : Nat) (q : Packet) (bs : List Byte), s.fab.inbox = [(k, q)] → q.ptype = 1 → q.vc ≠ 3
    → s.logging = false → s.log.held = false → regAt q.loc = none → regAt (q.loc + (q.len + 1) - 1) = none →
    s.accessCheck q.tenant false q.loc (q.len + 1) = none → s.pilot.moves = [] → s.tiers.merge = [] →
    s.memReady true q.loc (q.len + 1) = true → Mem.readBytes s.mem q.loc (q.len + 1) = some bs →
    Gives (.pktRd t) s (fun u => u.fab = s.answered1 k q (s.replyTo q 5 0 bs) ∧ u.mem = s.mem
    ∧ Keeps [.time, .mem, .tiers, .trace, .fab, .pilot, .agent] s u)) ∧
  (∀ (s : State) (t k : Nat) (q : Packet) (e : Status), s.fab.inbox = [(k, q)] → q.ptype = 1 → q.vc ≠ 3 →
    s.logging = false → s.log.held = false → regAt q.loc = none → regAt (q.loc + (q.len + 1) - 1) = none →
    (s.at t).accessCheck q.tenant false q.loc (q.len + 1) = some e →
    s.memReady true q.loc (q.len + 1) = true →
    Gives (.pktRd t) s (fun u => u.fab = s.answered1 k q (s.replyTo q 7 e.toNat []) ∧ u.mem = s.mem
    ∧ Keeps [.time, .events, .trace, .fab, .agent] s u)) ∧
  (∀ (s : State) (t k : Nat) (q : Packet) (j : Nat), s.fab.inbox = [(k, q)] → q.ptype = 2 → q.vc ≠ 3 →
    s.logging = false → s.log.held = false → regAt q.loc = none → regAt (q.loc + q.data.length - 1) = none →
    s.accessCheck q.tenant true q.loc q.data.length = none → s.pilot.moves = [] → s.tiers.merge = [] →
    s.region q.loc = .spad j → q.loc % 8 = 0 → q.data.length % 8 = 0 → q.data ≠ [] →
    q.loc + q.data.length ≤ s.regionEnd q.loc → s.dma.acs = [] →
    Gives (.pktWr t) s (fun u => Mem.readBytes u.mem q.loc q.data.length = some q.data
    ∧ SameOutside s.mem u.mem q.loc (q.loc + q.data.length) ∧ u.fab = s.answered1 k q (s.replyTo q 6 0 [])
    ∧ Keeps [.time, .mem, .quays, .trace, .fab, .pilot, .agent] s u)) ∧
  (∀ (s : State) (t k : Nat) (q : Packet) (e : Status), s.fab.inbox = [(k, q)] → q.ptype = 2 → q.vc ≠ 3 →
    s.logging = false → s.log.held = false → regAt q.loc = none → regAt (q.loc + q.data.length - 1) = none →
    (s.at t).accessCheck q.tenant true q.loc q.data.length = some e →
    Gives (.pktWr t) s (fun u => u.fab = s.answered1 k q (s.replyTo q 7 e.toNat []) ∧ u.mem = s.mem
    ∧ Keeps [.time, .events, .trace, .fab, .agent] s u)) ∧
  (∀ (s : State) (t k : Nat) (q : Packet) (j : Nat) (bs : List Byte), s.fab.inbox = [(k, q)] → q.ptype = 3 →
    q.vc ≠ 3 → s.logging = false → s.log.held = false → regAt q.loc = none → regAt (q.loc + 8 - 1) = none →
    s.accessCheck q.tenant true q.loc 8 = none → s.pilot.moves = [] → s.tiers.merge = [] →
    s.region q.loc = .spad j → s.bring.tilesFilled = true → bit q.aop 4 = true → q.aop % 16 ≤ 9 →
    q.loc % 8 = 0 → Mem.readBytes s.mem q.loc 8 = some bs →
    Gives (.pktAtomic t) s (fun u => Mem.readBytes u.mem q.loc 8 = some (bytesOfNat 8 (atomicNew (q.aop % 16) 8 (natOfBytes bs) (byteField (natOfBytes q.data) 0 8) (byteField (natOfBytes q.data) 8 8)))
    ∧ SameOutside s.mem u.mem q.loc (q.loc + 8)
    ∧ u.fab = s.answered1 k q (s.replyTo q 5 0 (bytesOfNat 8 (natOfBytes bs)))
    ∧ Keeps [.time, .mem, .trace, .fab, .pilot, .agent] s u)) ∧
  (∀ (s : State) (t k : Nat) (q : Packet) (bs : List Byte), s.fab.inbox = [(k, q)] → q.ptype = 4 → q.vc ≠ 3
    → s.logging = false → s.log.held = false → regAt q.loc = none → regAt (q.loc + 4 - 1) = none →
    s.accessCheck q.tenant true q.loc 4 = none → s.pilot.moves = [] → s.tiers.merge = [] →
    bit q.aop 0 = false → q.data.length = 4 → s.region q.loc = .tier1 → q.loc % 64 = 0 →
    q.loc + 64 ≤ s.t1Top → s.memReady true q.loc 4 = true → s.unitFenced (s.unitAt q.loc) = false →
    Mem.readBytes s.mem q.loc 64 = some bs → s.dma.acs = [] →
    Gives (.pktRedadd t) s (fun u => Mem.readBytes u.mem q.loc 64 = some (bytesOfNat 4 (fpAdd (BitVec.ofNat 32 (natOfBytes (bs.take 4))) (BitVec.ofNat 32 (natOfBytes q.data))).1.toNat ++ bs.drop 4)
    ∧ SameOutside s.mem u.mem q.loc (q.loc + 64) ∧ u.fab = s.answered1 k q (s.replyTo q 6 0 [])
    ∧ u.dma.redaddCnt = s.dma.redaddCnt + 1
    ∧ Keeps [.time, .mem, .tiers, .dma, .trace, .fab, .pilot, .agent] s u)) ∧
  (∀ (s : State) (t k : Nat) (q : Packet), s.fab.inbox = [(k, q)] → q.ptype = 5 → q.vc ≠ 3 →
    s.logging = false → s.log.held = false → q.tag ≠ 0 → s.fab.reqs.find? (fun r => r.tag == q.tag) = none →
    Gives (.rspData t) s (fun u => u.fab = { s.took1 k q with late := BitVec.ofNat 32 (satAdd 32 s.fab.late.toNat 1) }
    ∧ Keeps [.time, .fab] s u)) ∧
  (∀ (s : State) (t k : Nat) (q : Packet) (r : RemoteReq) (e : Nat) (o : Nat) (c : KvCopy),
    s.fab.inbox = [(k, q)] → q.ptype = 5 → q.vc ≠ 3 → s.logging = false → s.log.held = false →
    s.fab.reqs = [r] → r.tag = q.tag → r.owner = .kvImage e o → s.kv.copies = [c] → c.entry = e →
    Gives (.rspData t) s (fun u => u.kv.copies = [{ c with outstanding := c.outstanding - 1, got := Table.put c.got o q.data }]
    ∧ u.fab = { s.took1 k q with reqs := [] } ∧ Keeps [.time, .kv, .fab] s u)) ∧
  (∀ (s : State) (t k : Nat) (q : Packet) (r : RemoteReq) (d i o : Nat) (x : DmaRun), s.fab.inbox = [(k, q)]
    → q.ptype = 6 → q.vc ≠ 3 → s.logging = false → s.log.held = false → s.fab.reqs = [r] → r.tag = q.tag →
    r.owner = .dmaDst d i o → s.dmaRun d i = some x → ddOp x.desc.toNat ≠ 3 →
    Gives (.rspAck t) s (fun u => (u.dmaRun d i).map (fun y => (y.acked, y.outstanding)) = some (Table.put x.acked o r.len, x.outstanding - 1)
    ∧ u.fab = { s.took1 k q with reqs := [] } ∧ u.mem = s.mem ∧ Keeps [.time, .dma, .fab] s u)) ∧
  (∀ (s : State) (t k : Nat) (q : Packet) (r : RemoteReq) (m e : Nat) (x : PilMove), s.fab.inbox = [(k, q)]
    → q.ptype = 7 → q.vc ≠ 3 → s.logging = false → s.log.held = false → s.fab.reqs = [r] → r.tag = q.tag →
    r.owner = .pilot m e → s.pilot.moves = [x] → x.table = m → x.entry = e → s.fab.ready = false →
    Gives (.rspErr t) s (fun u => u.pilot.moves = [{ x with outstanding := x.outstanding - 1, failed := true }]
    ∧ u.fab = { s.took1 k q with reqs := [] } ∧ Keeps [.time, .pilot, .fab] s u)) ∧
  (∀ (s : State) (t k : Nat) (q : Packet), s.fab.inbox = [(k, q)] → q.ptype = 8 → isFaultMsg q.data = false
    → byteField (natOfBytes q.data) 2 1 ≠ 0x80 → Gives (.mgt t) s (fun u => u.fab = s.took1 k q
    ∧ Keeps [.time, .fab] s u)) ∧
  (∀ (s : State) (t k : Nat) (q : Packet) (e : Status), s.fab.inbox = [(k, q)] → q.ptype = 8 →
    isFaultMsg q.data = false → byteField (natOfBytes q.data) 2 1 = 0x80 →
    s.msgCheck (.peer q.srcH q.srcB) (natOfBytes q.data) = some e →
    Gives (.mgt t) s (fun u => u.fab = s.took1 k q ∧ u.hif.answers.length = s.hif.answers.length + 1
    ∧ Keeps [.time, .hif, .fab] s u)) ∧
  (∀ (s : State) (tag t : Nat) (r : RemoteReq) (m e : Nat) (x : PilMove), s.fab.reqs = [r] → r.tag = tag →
    r.owner = .pilot m e → s.pilot.moves = [x] → x.table = m → x.entry = e →
    r.sentAt + msTicks (max 1 s.fab.timeoutMs.toNat) ≤ t → s.isSelf s.ownHarbour r.berth = true →
    s.logging = false →
    Gives (.reqTimeout tag t) s (fun u => u.pilot.moves = [{ x with outstanding := x.outstanding - 1, failed := true }]
    ∧ u.fab = { s.fab with reqs := [] } ∧ Keeps [.time, .pilot, .fab] s u))

/-- A port that trains takes its width, full credits and SEQ 0; past its limit it is down. HELLO is
sent when due; the first accepted one names the peer and brings the port up, and one with the
own serial leaves the module unassigned. A silent port, and one with too many errors,
retrains; a retrained port with the same peer keeps its kept flits for replay; the third
failed attempt takes the port down. -/
def Obligations.FabricPorts : Prop :=
  (∀ (s : State) (t p : Nat), p < 16 → (s.port p).state = 2 → (s.port p).helloSent = none →
    (s.helloPacket p).slots ≤ ((s.port p).credits[4]?).getD 0 →
    Gives (.helloSend p t) s (fun u => (u.port p) = { ((s.port p).putPacket (s.helloPacket p)) with helloSent := some u.time }
    ∧ OnlyAt s.fab.ports u.fab.ports p ∧ u.fab.inbox = s.fab.inbox ∧ u.fab.rt = s.fab.rt
    ∧ u.fab.reqs = s.fab.reqs ∧ Keeps [.time, .fab] s u)) ∧
  (∀ (s : State) (t p : Nat) (h : Nat), p < 16 → (s.port p).state = 2 → (s.port p).helloSent = some h →
    max s.time t < h + msTicks (if (s.port p).helloSeen.isNone then 1 else 10) →
    Gives (.helloSend p t) s (fun u => Keeps [.time] s u)) ∧
  (∀ (s : State) (t p : Nat) (q : Packet), p < 14 → s.fab.inbox = [(p, q)] → q.ptype = 0xB →
    helloOk (natOfBytes q.data) q.data.length = true → (s.port p).state = 1 → s.fab.assigned = false →
    s.fab.waitQ = [] →
    Gives (.hello t) s (fun u => (u.port p).peerSn = BitVec.ofNat 64 (byteField (natOfBytes q.data) 8 8)
    ∧ (u.port p).peerBerth = BitVec.ofNat 13 (byteField (natOfBytes q.data) 6 2)
    ∧ (u.port p).peerValid = true ∧ (u.port p).helloSeen = some u.time
    ∧ (BitVec.ofNat 64 (byteField (natOfBytes q.data) 8 8) ≠ Config.serial → (u.port p).state = 2
    ∧ (u.port p).training = false ∧ u.events = s.events)
    ∧ (BitVec.ofNat 64 (byteField (natOfBytes q.data) 8 8) = Config.serial → (u.port p).state = 1
    ∧ s.raised u [ST_FAB_SERIAL_DUP]) ∧ u.fab.assigned = false ∧ u.fab.inbox = []
    ∧ OnlyAt s.fab.ports u.fab.ports p ∧ Keeps [.time, .events, .trace, .fab] s u)) ∧
  (∀ (s : State) (t p : Nat) (q : Packet), p < 16 → s.fab.inbox = [(p, q)] → q.ptype = 0xB →
    helloOk (natOfBytes q.data) q.data.length = false → Gives (.hello t) s (fun u => (u.port p).state = 1
    ∧ (u.port p).training = false ∧ (u.port p).peerSn = (s.port p).peerSn ∧ s.raised u [ST_FAB_PEER_VERSION]
    ∧ OnlyAt s.fab.ports u.fab.ports p ∧ Keeps [.time, .events, .trace, .fab] s u)) ∧
  (∀ (s : State) (t p : Nat) (h : Nat), p < 14 → (s.port p).state = 2 → (s.port p).flitSeen = some h →
    h + msTicks 1 ≤ t →
    Gives (.portLost p t) s (fun u => (u.port p) = { s.port p with state := 3, attempt := 1, since := u.time }
    ∧ OnlyAt s.fab.ports u.fab.ports p ∧ u.fab.inbox = s.fab.inbox ∧ u.fab.rt = s.fab.rt
    ∧ u.fab.reqs = s.fab.reqs ∧ Keeps [.time, .fab] s u)) ∧
  (∀ (s : State) (t p : Nat) (h : Nat), (s.port p).state = 2 → (s.port p).flitSeen = some h →
    max s.time t < h + msTicks 1 → (s.port p).helloSeen = some h →
    Gives (.portLost p t) s (fun u => Keeps [.time] s u)) ∧
  (∀ (s : State) (t p : Nat) (n r : Nat), p < 16 → (s.port p).state = 1 → (s.port p).training = true →
    (s.port p).credits = [] → n = 8 ∨ n = 4 ∨ n = 2 → t ≤ (s.port p).since + msTicks 501 →
    s.time ≤ (s.port p).since + msTicks 501 →
    Gives (.portTrained p n r t) s (fun u => (u.port p).lanes = BitVec.ofNat 4 n
    ∧ (u.port p).rttNs = BitVec.ofNat 16 r ∧ (u.port p).credits = fullCredits ∧ (u.port p).txSeq = 0
    ∧ (u.port p).rxSeq = 0 ∧ (u.port p).state = 1 ∧ (n < 8 → s.raised u [ST_FAB_LANE_DEGRADED]) ∧ (n = 8 →
    u.events = s.events) ∧ OnlyAt s.fab.ports u.fab.ports p ∧ u.fab.inbox = s.fab.inbox
    ∧ u.fab.rt = s.fab.rt ∧ u.fab.reqs = s.fab.reqs ∧ Keeps [.time, .events, .trace, .fab] s u)) ∧
  (∀ (s : State) (t p : Nat), p < 16 → (s.port p).state = 1 → (s.port p).training = true →
    (s.port p).credits = [] → (s.port p).since + msTicks 501 ≤ t →
    Gives (.portTrainTimeout p t) s (fun u => (u.port p) = { s.port p with state := 4, training := false, credits := [] }
    ∧ s.raised u [ST_FAB_TRAIN_TIMEOUT] ∧ OnlyAt s.fab.ports u.fab.ports p ∧ u.fab.inbox = s.fab.inbox
    ∧ u.fab.rt = s.fab.rt ∧ u.fab.reqs = s.fab.reqs ∧ Keeps [.time, .events, .trace, .fab] s u)) ∧
  (∀ (s : State) (t p : Nat) (c w : Nat), p < 16 → (s.port p).state = 2 → (s.port p).ucwThresh.toNat < w →
    Gives (.portRetrainTrigger p c w t) s (fun u => (u.port p).state = 3 ∧ (u.port p).attempt = 1
    ∧ (u.port p).fecUcw = (s.port p).fecUcw + BitVec.ofNat 32 w
    ∧ (u.port p).fecCorr = (s.port p).fecCorr + BitVec.ofNat 32 c ∧ OnlyAt s.fab.ports u.fab.ports p
    ∧ u.fab.inbox = s.fab.inbox ∧ u.fab.rt = s.fab.rt ∧ u.fab.reqs = s.fab.reqs ∧ Keeps [.time, .fab] s u)) ∧
  (∀ (s : State) (t p : Nat) (n r : Nat) (sn : BitVec 64), p < 14 → (s.port p).state = 3 →
    n = 8 ∨ n = 4 ∨ n = 2 → max s.time t ≤ (s.port p).since + usTicks 166101 → (s.port p).peerSn = sn →
    (s.port p).credits.isEmpty = false → s.fab.waitQ = [] →
    Gives (.portRetrainDone p n r sn t) s (fun u => (u.port p).state = 2
    ∧ (u.port p).lanes = BitVec.ofNat 4 n ∧ (u.port p).done = (s.port p).done + 1
    ∧ (u.port p).retry = (s.port p).retry ∧ (u.port p).credits = fullCredits ∧ (u.port p).downSince = none
    ∧ (n < 8 → s.raised u [ST_FAB_RETRAIN, ST_FAB_LANE_DEGRADED]) ∧ (n = 8 → s.raised u [ST_FAB_RETRAIN])
    ∧ OnlyAt s.fab.ports u.fab.ports p ∧ u.fab.inbox = s.fab.inbox ∧ u.fab.rt = s.fab.rt
    ∧ u.fab.reqs = s.fab.reqs ∧ Keeps [.time, .events, .trace, .fab] s u)) ∧
  (∀ (s : State) (t p : Nat) (r : Nat) (sn : BitVec 64), p < 16 → (s.port p).state = 3 →
    (s.port p).attempt.toNat < 3 →
    Gives (.portRetrainDone p 0 r sn t) s (fun u => (u.port p) = { s.port p with failed := (s.port p).failed + 1, attempt := (s.port p).attempt + 1, since := u.time }
    ∧ OnlyAt s.fab.ports u.fab.ports p ∧ u.fab.inbox = s.fab.inbox ∧ u.fab.rt = s.fab.rt
    ∧ u.fab.reqs = s.fab.reqs ∧ Keeps [.time, .fab] s u)) ∧
  (∀ (s : State) (t p : Nat) (r : Nat) (sn : BitVec 64), p < 14 → (s.port p).state = 3 →
    (s.port p).attempt = 3 → (s.port p).peerAssigned = false → s.fab.waitQ = [] →
    Gives (.portRetrainDone p 0 r sn t) s (fun u => (u.port p).state = 4 ∧ (u.port p).attempt = 0
    ∧ (u.port p).retry = [] ∧ (u.port p).credits = [] ∧ (u.port p).failed = (s.port p).failed + 1
    ∧ s.raised u [ST_FAB_PORT_DOWN] ∧ OnlyAt s.fab.ports u.fab.ports p ∧ u.fab.inbox = s.fab.inbox
    ∧ u.fab.rt = s.fab.rt ∧ u.fab.reqs = s.fab.reqs ∧ Keeps [.time, .events, .trace, .hm, .fab] s u))

/-- In TABLE mode the berth is the one the table gives the serial, and without one the module stays
unassigned; in SORTED mode it is the rank of the serial. An assigned module floods its
advertisement; a newer one received is kept, an older one changes nothing. A settled flood,
and one that passes its limit, commit the routes: every berth advertised gets its entry, the
previous table is kept, and the fabric is ready. -/
def Obligations.FabricRoutes : Prop :=
  (∀ (s : State) (t : Nat) (l : List (BitVec 64)),
    (List.range 16).all (fun p => !((s.port p).state == 1 && (s.port p).training)) = true → s.fab.step = 4 →
    s.fab.mode = 0 →
    Gives (.berthAssign l t) s (fun u => u.fab.assigned = (s.fab.berthTable.find? (fun e => e.1 == Config.serial)).isSome
    ∧ u.fab.berth = ((s.fab.berthTable.find? (fun e => e.1 == Config.serial)).map (·.2.2)).getD s.fab.berth
    ∧ u.fab.harbour = ((s.fab.berthTable.find? (fun e => e.1 == Config.serial)).map (·.2.1)).getD s.fab.harbour
    ∧ u.fab.rt = s.fab.rt ∧ Keeps [.time, .events, .trace, .fab] s u)) ∧
  (∀ (s : State) (t : Nat) (l : List (BitVec 64)),
    (List.range 16).all (fun p => !((s.port p).state == 1 && (s.port p).training)) = true → s.fab.step = 4 →
    s.fab.mode = 1 → s.fab.harbour = false → l.contains Config.serial = false →
    max s.time t < s.fab.stepAt + msTicks 2000 → s.fab.stepAt + msTicks 200 ≤ t → l.length < 8192 →
    Gives (.berthAssign l t) s (fun u => u.fab.assigned = true ∧ u.fab.harbour = false
    ∧ u.fab.berth.toNat = (l.eraseDups.filter (fun x => decide (x < Config.serial))).length ∧ u.fab.step = 5
    ∧ u.fab.rt = s.fab.rt ∧ Keeps [.time, .events, .trace, .fab] s u)) ∧
  (∀ (s : State) (t : Nat), s.fab.assigned = true → s.fab.advertAt + msTicks 10000 ≤ t →
    Gives (.lsaSend t) s (fun u => Table.find u.fab.adverts s.ownBerth = some { serial := Config.serial, seq := s.fab.ownSeq + 1, links := s.ownLinks }
    ∧ u.fab.ownSeq = s.fab.ownSeq + 1 ∧ u.fab.advertAt = u.time
    ∧ OnlyAt s.fab.adverts u.fab.adverts s.ownBerth ∧ u.fab.rt = s.fab.rt ∧ Keeps [.time, .free, .fab] s u)) ∧
  (∀ (s : State) (t : Nat) (p b : Nat) (sn : BitVec 64) (sq : BitVec 32) (l : List (Nat × Nat × Nat)), p < 14
    → b < 8192 → b ≠ s.ownBerth → s.fab.assigned = false ∨ sn ≠ Config.serial →
    Table.find s.fab.adverts b = none →
    Gives (.lsaReceived p b sn sq l t) s (fun u => Table.find u.fab.adverts b = some { serial := sn, seq := sq, links := l }
    ∧ u.fab.advertChanged = u.time ∧ OnlyAt s.fab.adverts u.fab.adverts b ∧ u.fab.rt = s.fab.rt
    ∧ Keeps [.time, .free, .fab] s u)) ∧
  (∀ (s : State) (t : Nat) (p b : Nat) (sn : BitVec 64) (sq : BitVec 32) (l : List (Nat × Nat × Nat)) (a : Advert), p < 14
    → b < 8192 → b ≠ s.ownBerth → s.fab.assigned = false ∨ sn ≠ Config.serial →
    Table.find s.fab.adverts b = some a → sq ≤ a.seq →
    Gives (.lsaReceived p b sn sq l t) s (fun u => Keeps [.time] s u)) ∧
  (∀ (s : State) (t : Nat), s.fab.assigned = true → s.fab.step = 5 →
    max s.fab.stepAt s.fab.advertChanged + msTicks 100 ≤ t → s.fab.waitQ = [] →
    Gives (.routeCommit t) s (fun u => u.fab.gen = s.fab.gen + 1 ∧ u.fab.ready = true ∧ u.fab.step = 7
    ∧ u.fab.prevRt = s.fab.rt ∧ u.fab.committedAt = u.time
    ∧ (s.fab.adverts.map Prod.fst).all (fun d => Table.find u.fab.rt d == s.routeEntry s.levels d) = true
    ∧ u.fab.ports = s.fab.ports ∧ Keeps [.time, .fab] s u)) ∧
  (∀ (s : State) (t : Nat), s.fab.step = 5 → s.fab.stepAt + msTicks 1000 ≤ t →
    Gives (.routeFloodTimeout t) s (fun u => u.fab.gen = s.fab.gen + 1 ∧ u.fab.ready = true
    ∧ u.fab.partialRoutes = true ∧ s.raised u [ST_FAB_ROUTE_PARTIAL]
    ∧ (s.fab.adverts.map Prod.fst).all (fun d => Table.find u.fab.rt d == s.routeEntry s.levels d) = true
    ∧ Keeps [.time, .events, .trace, .fab] s u))

/-- The next message in order is applied and acknowledged, so an entry of the paired module is
written; an acknowledgement takes messages out of the replay buffer; one unacknowledged for 1
ms goes again on the other port; a heartbeat takes the next TSEQ every 10 ms. When both twin
ports have been down for HOLD_MS the module serves on with MIRRORED clear, or with AUTO fences
itself and ends the mirrored entries; a takeover begins after TAKEOVER_MS and leaves the
entries taken held for REBIND. -/
def Obligations.TwinStream : Prop :=
  (∀ (s : State) (t k : Nat) (q : Packet) (i w : Nat), s.fab.inbox = [(k, q)] → q.ptype = 9 →
    byteField (natOfBytes q.data) 0 8 = s.fab.twin.applied + 1 → byteField (natOfBytes q.data) 8 8 = 1 →
    s.fab.twin.window = [] → byteField (natOfBytes (q.data.drop 16)) 0 8 = i →
    byteField (natOfBytes (q.data.drop 16)) 8 64 = w → s.srvCached i = true →
    Gives (.twin false t) s (fun u => u.fab.twin.applied = s.fab.twin.applied + 1
    ∧ (u.srvE i).w = BitVec.ofNat 512 w ∧ u.fab.twin.window = []
    ∧ OnlyAt s.serving.entries u.serving.entries i ∧ u.mem = s.mem ∧ Keeps [.time, .fab, .serving] s u)) ∧
  (∀ (s : State) (t k : Nat) (q : Packet), s.fab.inbox = [(k, q)] → q.ptype = 0xA → s.fab.twin.waiting = []
    → s.fab.twin.resyncEnd = none →
    Gives (.twinAck t) s (fun u => u.fab.twin.ack = max s.fab.twin.ack (min (natOfBytes q.data) s.fab.twin.tx)
    ∧ u.fab.twin.buffer = s.fab.twin.buffer.filter (fun m => decide (natOfBytes q.data < m.tseq))
    ∧ u.fab.twin.tx = s.fab.twin.tx ∧ u.fab.inbox = [] ∧ Keeps [.time, .fab] s u)) ∧
  (∀ (s : State) (t : Nat) (m : TwinMsg), s.fab.twin.buffer = [m] → m.port = 14 → m.sentAt + msTicks 1 ≤ t →
    Gives (.twinResend t) s (fun u => u.fab.twin.buffer = [{ m with port := 15, sentAt := u.time }]
    ∧ u.fab.twin.tx = s.fab.twin.tx ∧ u.fab.inbox = s.fab.inbox ∧ u.fab.rt = s.fab.rt
    ∧ Keeps [.time, .fab] s u)) ∧
  (∀ (s : State) (t : Nat) (m : TwinMsg), s.fab.twin.buffer = [m] → max s.time t < m.sentAt + msTicks 1 →
    Gives (.twinResend t) s (fun u => Keeps [.time] s u)) ∧
  (∀ (s : State) (t : Nat) (p : Nat), p = 14 ∨ p = 15 → (s.port p).state = 2 → s.twinOn = true →
    (s.port p).beatAt + msTicks 10 ≤ t → s.fab.twin.waiting = [] → s.fab.twin.used + 16 ≤ 2 ^ 26 →
    ∀ m ∈ s.fab.twin.buffer, m.tseq ≤ s.fab.twin.tx →
    Gives (.twinHeartbeat p t) s (fun u => u.fab.twin.tx = s.fab.twin.tx + 1
    ∧ u.fab.twin.buffer = s.fab.twin.buffer ++ [{ tseq := s.fab.twin.tx + 1, kind := 5, payload := [], port := p, sentAt := u.time }]
    ∧ (u.port p).beatAt = u.time ∧ OnlyAt s.fab.ports u.fab.ports p ∧ Keeps [.time, .fab] s u)) ∧
  (∀ (s : State) (t : Nat) (d : Nat), s.pairDownSince = some d → s.twinOn = true →
    d + msTicks (max 1 s.fab.twin.holdMs.toNat) ≤ t → s.fab.twin.auto = false →
    Gives (.twinPairLost t) s (fun u => u.fab.twin.state = 2
    ∧ (u.serving.entries.all (fun e => !(s.ownHalf e.1 && e.2.flag 0 && e.2.state != 0))) = true
    ∧ s.raised u [ST_TWIN_LOST] ∧ u.fab.ports = s.fab.ports ∧ u.fab.rt = s.fab.rt
    ∧ Keeps [.time, .mem, .events, .trace, .fab, .serving] s u)) ∧
  (∀ (s : State) (t : Nat) (d : Nat), s.pairDownSince = some d → s.twinOn = true →
    d + msTicks (max 1 s.fab.twin.holdMs.toNat) ≤ t → s.fab.twin.auto = true →
    Gives (.twinPairLost t) s (fun u => u.fab.twin.state = 3
    ∧ (s.serving.entries.all (fun e => !(s.ownHalf e.1 && e.2.flag 0 && e.2.state != 0) || (u.srvE e.1).state == 6)) = true
    ∧ s.raised u [ST_TWIN_FENCED] ∧ u.fab.ports = s.fab.ports ∧ u.fab.rt = s.fab.rt
    ∧ Keeps [.time, .mem, .events, .trace, .fab, .serving] s u)) ∧
  (∀ (s : State) (t : Nat) (d : Nat), s.pairDownSince = some d → s.fab.twin.auto = true →
    s.fab.twin.state = 3 → s.fab.twin.takeoverAt = none →
    d + msTicks (max (max 1 s.fab.twin.takeoverMs.toNat) (2 * max 1 s.fab.twin.holdMs.toNat)) ≤ t →
    Gives (.takeoverTimer t) s (fun u => u.fab.twin = { s.fab.twin with takeoverAt := some u.time }
    ∧ u.fab.ports = s.fab.ports ∧ u.fab.rt = s.fab.rt ∧ Keeps [.time, .fab] s u)) ∧
  (∀ (s : State) (t : Nat) (a i : Nat) (e : SrvEntry), s.fab.twin.takeoverAt = some a →
    s.fab.twin.sinceMark = [] → s.serving.entries = [(i, e)] → s.ownHalf i = false → e.state ≠ 0 →
    e.taken = false → Gives (.takeoverDone t) s (fun u => u.fab.twin.state = 4 ∧ u.fab.twin.taken = 1
    ∧ u.fab.twin.takeoverAt = none ∧ (u.srvE i).taken = true ∧ (u.srvE i).held = true
    ∧ (u.srvE i).flag 0 = false ∧ (u.srvE i).state = (if e.state = 3 then 2 else e.state)
    ∧ s.raised u [ST_TWIN_TAKEOVER] ∧ u.fab.ports = s.fab.ports ∧ u.fab.rt = s.fab.rt
    ∧ Keeps [.time, .mem, .quays, .tiers, .events, .trace, .fab, .pilot, .kv, .serving] s u))

/-- A REPORT opens an incident or adds to an open one and is acknowledged; the last ACK without FULL
makes its suspect quiet for 100 ms; an unanswered report ends after 10 ms; the primary records
an incident when its window closes, the secondary when its hold expires, and a SYNC frees it.
A failed tile is replaced by the lowest free spare. A mark waits for a quiescent module, or
fails after 1,000 ms; a full ring without WRAP ends the recording; replay stops where it
diverges, where an input differs, and at its end. -/
def Obligations.FaultsAndLogbook : Prop :=
  (∀ (s : State) (t k : Nat) (q : Packet), s.fab.inbox = [(k, q)] → q.ptype = 8 → isFaultMsg q.data = true →
    byteField (natOfBytes q.data) 3 1 = 1 → 1 ≤ fmFlags (natOfBytes q.data) % 16 →
    fmFlags (natOfBytes q.data) % 16 ≤ 4 → s.hm.incidents = [] →
    Gives (.faultReport t) s (fun u => u.hm.incidents = [{ suspect := (fmSuspect (natOfBytes q.data)), firstTime := u.time, firstReporter := (fmSender (natOfBytes q.data)), reporters := BitVec.ofNat 8192 (2 ^ (fmSender (natOfBytes q.data))), fkinds := BitVec.ofNat 4 (2 ^ (fmFlags (natOfBytes q.data) % 16 - 1)), num := fmNum (natOfBytes q.data), closedAt := none, synced := false }]
    ∧ u.fab = s.answered1 k q { ptype := 8, vc := 2, esc := false, down := false, dstH := s.ownHarbour, dstB := (fmSender (natOfBytes q.data)), srcH := s.ownHarbour, srcB := s.ownBerth, tenant := 0, tag := 0, loc := 0, len := 31, aop := 0, data := faultMsg 2 (fmSuspect (natOfBytes q.data)) s.ownBerth 0 0 0 0 }
    ∧ u.hm.outstanding = s.hm.outstanding ∧ u.hm.quiet = s.hm.quiet ∧ u.hm.queue = s.hm.queue
    ∧ u.hm.serials = s.hm.serials ∧ Keeps [.time, .hm, .fab] s u)) ∧
  (∀ (s : State) (t k : Nat) (q : Packet) (x : Incident), s.fab.inbox = [(k, q)] → q.ptype = 8 →
    isFaultMsg q.data = true → byteField (natOfBytes q.data) 3 1 = 1 → 1 ≤ fmFlags (natOfBytes q.data) % 16
    → fmFlags (natOfBytes q.data) % 16 ≤ 4 → s.hm.incidents = [x] →
    x.suspect = (fmSuspect (natOfBytes q.data)) → x.open_ (max s.time t) = true →
    Gives (.faultReport t) s (fun u => u.hm.incidents = [{ x with reporters := x.reporters ||| BitVec.ofNat 8192 (2 ^ (fmSender (natOfBytes q.data))), fkinds := x.fkinds ||| BitVec.ofNat 4 (2 ^ (fmFlags (natOfBytes q.data) % 16 - 1)), num := satAdd 32 x.num (fmNum (natOfBytes q.data)) }]
    ∧ u.fab = s.answered1 k q { ptype := 8, vc := 2, esc := false, down := false, dstH := s.ownHarbour, dstB := (fmSender (natOfBytes q.data)), srcH := s.ownHarbour, srcB := s.ownBerth, tenant := 0, tag := 0, loc := 0, len := 31, aop := 0, data := faultMsg 2 (fmSuspect (natOfBytes q.data)) s.ownBerth 0 0 0 0 }
    ∧ Keeps [.time, .hm, .fab] s u)) ∧
  (∀ (s : State) (t k : Nat) (q : Packet) (x : Report), s.fab.inbox = [(k, q)] → q.ptype = 8 →
    isFaultMsg q.data = true → byteField (natOfBytes q.data) 3 1 = 2 → s.hm.outstanding = some x →
    x.suspect = (fmSuspect (natOfBytes q.data)) → x.waiting = [(fmSender (natOfBytes q.data))] →
    x.full = false → bit (fmFlags (natOfBytes q.data)) 0 = false → s.hm.queue = [] →
    Gives (.faultAck t) s (fun u => u.hm.outstanding = none
    ∧ Table.find u.hm.quiet (fmSuspect (natOfBytes q.data)) = some (u.time + msTicks 100)
    ∧ OnlyAt s.hm.quiet u.hm.quiet (fmSuspect (natOfBytes q.data)) ∧ u.fab = s.took1 k q
    ∧ u.hm.incidents = s.hm.incidents ∧ u.hm.serials = s.hm.serials ∧ Keeps [.time, .hm, .fab] s u)) ∧
  (∀ (s : State) (t k : Nat) (q : Packet) (x : Incident), s.fab.inbox = [(k, q)] → q.ptype = 8 →
    isFaultMsg q.data = true → byteField (natOfBytes q.data) 3 1 = 3 → s.hm.incidents = [x] →
    x.suspect = (fmSuspect (natOfBytes q.data)) → x.synced = false → x.closedAt = none →
    Gives (.faultSync t) s (fun u => u.hm.incidents = [{ x with synced := true }] ∧ u.fab = s.took1 k q
    ∧ u.hm.outstanding = s.hm.outstanding ∧ u.hm.quiet = s.hm.quiet ∧ u.hm.serials = s.hm.serials
    ∧ Keeps [.time, .hm, .fab] s u)) ∧
  (∀ (s : State) (t k : Nat) (q : Packet) (x : Incident) (c : Nat), s.fab.inbox = [(k, q)] → q.ptype = 8 →
    isFaultMsg q.data = true → byteField (natOfBytes q.data) 3 1 = 3 → s.hm.incidents = [x] →
    x.suspect = (fmSuspect (natOfBytes q.data)) → x.synced = false → x.closedAt = some c →
    Gives (.faultSync t) s (fun u => u.hm.incidents = [] ∧ u.fab = s.took1 k q
    ∧ u.hm.outstanding = s.hm.outstanding ∧ u.hm.quiet = s.hm.quiet ∧ u.hm.serials = s.hm.serials
    ∧ Keeps [.time, .hm, .fab] s u)) ∧
  (∀ (s : State) (t : Nat) (x : Report), s.hm.outstanding = some x → x.sentAt + msTicks 10 ≤ t →
    s.hm.queue = [] → Gives (.reportTimeout t) s (fun u => u.hm = { s.hm with outstanding := none }
    ∧ Keeps [.time, .hm] s u)) ∧
  (∀ (s : State) (t : Nat) (x : Report), s.hm.outstanding = some x → max s.time t < x.sentAt + msTicks 10 →
    Gives (.reportTimeout t) s (fun u => Keeps [.time] s u)) ∧
  (∀ (s : State) (b t : Nat) (x : Incident), s.hm.incidents = [x] → x.suspect = b → x.closedAt = none →
    x.firstTime + msTicks 100 ≤ t → s.primaryOf b = true →
    Gives (.incidentWindowClose b t) s (fun u => u.hm.incidents = []
    ∧ Table.find u.hm.serials b = some (Table.getD s.hm.serials b 0 + 1) ∧ s.raised u [ST_INCIDENT]
    ∧ u.hm.outstanding = s.hm.outstanding ∧ u.hm.quiet = s.hm.quiet ∧ u.hm.queue = s.hm.queue
    ∧ Keeps [.time, .events, .trace, .hm, .fab] s u)) ∧
  (∀ (s : State) (b t : Nat) (x : Incident), s.hm.incidents = [x] → x.suspect = b → x.closedAt = none →
    x.synced = false → x.firstTime + msTicks 100 ≤ t → s.primaryOf b = false →
    Gives (.incidentWindowClose b t) s (fun u => u.hm = { s.hm with incidents := [{ x with closedAt := some (x.firstTime + msTicks 100) }] }
    ∧ Keeps [.time, .hm] s u)) ∧
  (∀ (s : State) (b t : Nat) (x : Incident), s.hm.incidents = [x] → x.suspect = b → x.closedAt = none →
    x.synced = true → x.firstTime + msTicks 100 ≤ t → s.primaryOf b = false →
    Gives (.incidentWindowClose b t) s (fun u => u.hm = { s.hm with incidents := [] }
    ∧ Keeps [.time, .hm] s u)) ∧
  (∀ (s : State) (b t c : Nat) (x : Incident), s.hm.incidents = [x] → x.suspect = b → x.closedAt = some c →
    c + msTicks 20 ≤ t → Gives (.incidentHoldExpiry b t) s (fun u => u.hm.incidents = []
    ∧ Table.find u.hm.serials b = some (Table.getD s.hm.serials b 0 + 1) ∧ s.raised u [ST_INCIDENT]
    ∧ u.hm.outstanding = s.hm.outstanding ∧ u.hm.quiet = s.hm.quiet ∧ u.hm.queue = s.hm.queue
    ∧ Keeps [.time, .events, .trace, .hm] s u)) ∧
  (∀ (s : State) (k t n : Nat), k < 4096 → s.coreRuns (k / 64) = true →
    (s.quay (k / 64)).outOfService = false → (s.at t).tileFailed k = true → s.tileHolder k = none →
    (List.range 4).find? (fun n => !((s.quay (k / 64)).failed ||| BitVec.ofNat 68 (2 ^ (s.quay (k / 64)).physical (k % 64))).getLsbD (64 + n) && !(Table.getD (s.quay (k / 64)).spares n SpareMap.reset).locked) = some n
    →
    Gives (.tileFailure k t) s (fun u => (u.quay (k / 64)).failed = (s.quay (k / 64)).failed ||| BitVec.ofNat 68 (2 ^ (s.quay (k / 64)).physical (k % 64))
    ∧ Table.find (u.quay (k / 64)).spares n = some { inUse := true, replaced := BitVec.ofNat 7 (k % 64), locked := true }
    ∧ (u.quay (k / 64)).outOfService = false ∧ (u.tile k).mode = .idle ∧ (u.tile k).owner = none
    ∧ s.raised u [ST_TILE_REPAIRED] ∧ OnlyAt s.tiles u.tiles k ∧ OnlyAt s.quays u.quays (k / 64)
    ∧ Keeps [.time, .free, .mem, .quays, .tiles, .tiers, .sync, .events, .trace, .graph, .agent] s u)) ∧
  (∀ (s : State) (t : Nat) (m : MarkWait), s.log.mark = some m → m.issuer = none → s.quiescent = false →
    m.since + msTicks 1000 ≤ t →
    Gives (.markTimeout t) s (fun u => u.log = { s.log with mark := none, paused := false }
    ∧ Keeps [.time, .log] s u)) ∧
  (∀ (s : State) (t : Nat) (m : MarkWait), s.log.mark = some m → m.issuer = none → m.start = true →
    s.quiescent = true → 4 < s.logSlots → Gives (.markQuiescent t) s (fun u => u.log.recording = true
    ∧ u.log.mark = none ∧ u.log.paused = false ∧ u.log.first = 0 ∧ u.log.wrap = m.wrap ∧ u.log.lastMark = 0
    ∧ u.log.marks = [0] ∧ u.log.nextRec = 4
    ∧ SameOutside s.mem u.mem ((s.resv 6).1 / 128 * 128) ((s.resv 6).1 + (s.resv 6).2 + 256)
    ∧ Keeps [.time, .mem, .log] s u)) ∧
  (∀ (s : State), s.log.recording = true → s.logSlots ≤ s.log.nextRec - s.log.first → s.log.wrap = false →
    Gives (.logFull) s (fun u => u.log.recording = false ∧ u.log.nextRec = s.log.nextRec
    ∧ s.raised u [ST_LOG_FULL] ∧ u.log.first = s.log.first ∧ u.log.replayFrom = s.log.replayFrom
    ∧ SameOutside s.mem u.mem ((s.resv 6).1 / 128 * 128) ((s.resv 6).1 + 256)
    ∧ Keeps [.mem, .events, .trace, .log] s u)) ∧
  (∀ (s : State) (m : Nat) (r : List Nat), s.log.recording = true → s.logSlots ≤ s.log.nextRec - s.log.first
    → s.log.wrap = true → s.log.marks.filter (fun m => decide (s.log.first < m)) = m :: r →
    Gives (.logFull) s (fun u => u.log.recording = true ∧ u.log.first = (m :: r).foldl min s.log.nextRec
    ∧ u.log.marks = m :: r ∧ u.log.nextRec = s.log.nextRec ∧ u.events = s.events
    ∧ SameOutside s.mem u.mem ((s.resv 6).1 / 128 * 128) ((s.resv 6).1 + 256) ∧ Keeps [.mem, .log] s u)) ∧
  (∀ (s : State) (p c t : Nat), s.replaying = true → s.log.held = false → c + msTicks 1000 ≤ t →
    Gives (.replayDiverged p c t) s (fun u => u.log = { s.log with held := true }
    ∧ s.raised u [ST_REPLAY_DIVERGED] ∧ Keeps [.time, .events, .trace, .log] s u)) ∧
  (∀ (s : State) (p f : Nat), s.log.replayFrom = some f → s.log.held = false →
    (s.logRecords f).any (fun (r : Option Nat) => (r.map (fun v => recKind v == 2 && recPoint v == p && recSeq v == (s.point p).iseq && bits v 64 64 != (s.point p).digest.toNat)).getD false) = true
    → Gives (.replayInputMismatch p) s (fun u => u.log = { s.log with held := true }
    ∧ s.raised u [ST_REPLAY_INPUT_MISMATCH] ∧ Keeps [.events, .trace, .log] s u)) ∧
  (∀ (s : State) (t : Nat) (f : Nat), s.log.replayFrom = some f → s.log.held = false → s.log.nextRec ≤ f →
    Gives (.replayEnd t) s (fun u => u.log = { s.log with held := true, replayPos := s.log.nextRec }
    ∧ s.raised u [ST_REPLAY_END] ∧ (u.graph.queues.all (fun q => !q.2.enabled)) = true
    ∧ u.graph.graphs = s.graph.graphs ∧ Keeps [.time, .events, .trace, .log, .graph] s u))

/-- MBX_GO submits the request of the function: one that fails a check is answered with its status,
a good one enters the queue of its core, and while one is under way the write sets OVERRUN. A
request past its limit is answered ST_MBX_TIMEOUT and its later answer is discarded. The
oldest answer is delivered to its issuer. A reset function leaves its registers, session and
rings as after reset. An enrolment ends at its time. -/
def Obligations.MailboxProtocol : Prop :=
  (∀ (s : State) (f t : Nat) (e : Status), (s.func f).inReset = false → (s.func f).mbxState ≠ 1 →
    s.logging = false → (s.at t).msgCheck (.func f) (s.func f).req.toNat = some e →
    Gives (.mbxGo f t) s (fun u => (u.func f).mbxState = 1
    ∧ u.hif.answers = s.hif.answers ++ [{ issuer := .func f, msg := BitVec.ofNat 2048 (response (s.func f).req.toNat e 0 [] []) }]
    ∧ OnlyAt s.hif.funcs u.hif.funcs f ∧ u.hif.secq = s.hif.secq ∧ u.hif.pwrq = s.hif.pwrq
    ∧ u.hif.schq = s.hif.schq ∧ u.hif.tenants = s.hif.tenants ∧ Keeps [.time, .hif] s u)) ∧
  (∀ (s : State) (f t : Nat) (c : Cmd), (s.func f).inReset = false → (s.func f).mbxState ≠ 1 →
    s.logging = false → (s.at t).msgCheck (.func f) (s.func f).req.toNat = none →
    (cmdOf (msgCode (s.func f).req.toNat)).map (·.core) = some 2 → s.hif.schq.ring = [] →
    s.hif.schq.queue.length < 31 → s.hif.schq.queue.all (fun a => !a.isPeer) = true →
    Gives (.mbxGo f t) s (fun u => (u.func f).mbxState = 1
    ∧ u.hif.schq = { s.hif.schq with queue := s.hif.schq.queue ++ [{ issuer := .func f, msg := BitVec.ofNat 2048 (s.func f).req.toNat, at_ := u.time, started := false, mute := false, lost := false }] }
    ∧ u.hif.answers = s.hif.answers ∧ u.hif.secq = s.hif.secq ∧ u.hif.pwrq = s.hif.pwrq
    ∧ OnlyAt s.hif.funcs u.hif.funcs f ∧ u.hif.tenants = s.hif.tenants ∧ Keeps [.time, .hif] s u)) ∧
  (∀ (s : State) (f t : Nat), (s.func f).inReset = false → (s.func f).mbxState = 1 →
    Gives (.mbxGo f t) s (fun u => u.func f = { s.func f with overrun := true }
    ∧ OnlyAt s.hif.funcs u.hif.funcs f ∧ u.hif.secq = s.hif.secq ∧ u.hif.pwrq = s.hif.pwrq
    ∧ u.hif.schq = s.hif.schq ∧ u.hif.tenants = s.hif.tenants ∧ u.hif.answers = s.hif.answers
    ∧ Keeps [.time, .hif] s u)) ∧
  (∀ (s : State) (iss : Issuer) (t c : Nat) (a : Admitted), (s.at t).pastLimit iss = some (c, a) →
    s.coreRuns (64 + c) = true → a.lost = false → c < 3 →
    Gives (.mbxTimeout iss t) s (fun u => (u.coreQ c).queue = changeFirst (fun x => x == a) (fun x => { x with mute := true }) (s.coreQ c).queue
    ∧ u.hif.answers = s.hif.answers ++ [{ issuer := iss, msg := BitVec.ofNat 2048 (response a.msg.toNat ST_MBX_TIMEOUT 0 [] []) }]
    ∧ s.sameHif u ∧ Keeps [.time, .hif] s u)) ∧
  (∀ (s : State) (f : Nat) (a : Answer) (r : List Answer), s.hif.answers = a :: r → a.issuer = .func f →
    Gives (.mbxResponse) s (fun u => (u.func f).rsp = a.msg ∧ (u.func f).mbxState = 2
    ∧ (u.func f).vec0.raised = (s.func f).vec0.raised + 1 ∧ u.hif.answers = r
    ∧ OnlyAt s.hif.funcs u.hif.funcs f ∧ u.hif.secq = s.hif.secq ∧ u.hif.pwrq = s.hif.pwrq
    ∧ u.hif.schq = s.hif.schq ∧ u.hif.tenants = s.hif.tenants ∧ Keeps [.hif] s u)) ∧
  (∀ (s : State) (a : Answer) (r : List Answer), s.hif.answers = a :: r → a.issuer = .i3c →
    Gives (.mbxResponse) s (fun u => u.i3c.rsp = a.msg ∧ u.i3c.mbxState = 2
    ∧ u.i3c.ibiRsp = (s.i3c.ibiRsp || s.i3c.ibiOn) ∧ u.hif.answers = r ∧ s.sameHif u
    ∧ Keeps [.hif, .i3c] s u)) ∧
  (∀ (s : State) (f t : Nat), 0 < f → f < 1024 → (s.func f).inReset = true → s.tenantQuiet f = true →
    s.serving.entries = [] →
    Gives (.functionLevelReset f t) s (fun u => u.func f = { Func.reset with windowBase := (s.func f).windowBase }
    ∧ OnlyAt s.hif.funcs u.hif.funcs f ∧ u.hif.tenants = s.hif.tenants
    ∧ (u.hif.answers.all (fun a => a.issuer != Issuer.func f)) = true
    ∧ Keeps [.time, .events, .hif, .agent] s u)) ∧
  (∀ (s : State) (c f t : Nat) (e : Enrolment), c < 3 → (s.coreQ c).ring = [e] → e.func = f → e.until_ ≤ t →
    Gives (.mbxEnrolmentEnd c f t) s (fun u => u.coreQ c = { s.coreQ c with ring := [] } ∧ s.sameHif u
    ∧ u.hif.answers = s.hif.answers ∧ Keeps [.time, .hif] s u))

/-- IDENT answers the identity; SESSION_OPEN gives the next session number; SESSION_CLOSE closes the
session; ECHO answers its data; QUOTA_SET writes the record and QUOTA_GET reads it; GRANT
takes the lowest free place and REVOKE frees the one named; GRANT_LIST reads a place;
WINDOW_SET sets the base of a window; EVT_RING_SET and NOTE_RING_SET give the issuer an empty
ring; TENANT_CLEAR clears a quiet tenant. -/
def Obligations.SessionCommands : Prop :=
  (∀ (s : State) (iss : Issuer) (t : Nat) (a : Admitted), s.serves iss 0 0x0001 a →
    Gives (.ident iss t) s (fun u => s.gave u iss 0 0x0001 a 0 [1, Config.steppingEast.toNat, Config.steppingWest.toNat,
    s.fw.state.toNat, 1, issuerFn iss, Config.serial.toNat, s.fwVer, s.licences.toNat] ∧ s.sameHif u
    ∧ Keeps [.time, .hif] s u)) ∧
  (∀ (s : State) (iss : Issuer) (t : Nat) (a : Admitted) (f : Nat), s.serves iss 0 0x0002 a →
    (msgArg a.msg.toNat 0) ≤ 1 → 1 ≤ (msgArg a.msg.toNat 1) → iss = .func f → s.hif.lastSession ≠ 0xFFFF#16
    → Gives (.sessionOpen iss t) s (fun u => (u.func f) = { s.func f with session := s.hif.lastSession + 1 }
    ∧ u.hif.lastSession = s.hif.lastSession + 1 ∧ OnlyAt s.hif.funcs u.hif.funcs f
    ∧ s.gave u iss 0 0x0002 a 0 [1, (s.hif.lastSession + 1).toNat] ∧ u.hif.tenants = s.hif.tenants
    ∧ Keeps [.time, .hif] s u)) ∧
  (∀ (s : State) (iss : Issuer) (t : Nat) (a : Admitted), s.serves iss 0 0x0002 a →
    1 < (msgArg a.msg.toNat 0) ∨ (msgArg a.msg.toNat 1) < 1 →
    Gives (.sessionOpen iss t) s (fun u => s.gave u iss 0 0x0002 a ST_MBX_VERSION [] ∧ s.sameHif u
    ∧ Keeps [.time, .hif] s u)) ∧
  (∀ (s : State) (iss : Issuer) (t : Nat) (a : Admitted) (f : Nat), s.serves iss 0 0x0003 a → iss = .func f
    → Gives (.sessionClose iss t) s (fun u => (u.func f) = { s.func f with session := 0 }
    ∧ OnlyAt s.hif.funcs u.hif.funcs f ∧ s.gave u iss 0 0x0003 a 0 [] ∧ u.hif.tenants = s.hif.tenants
    ∧ u.hif.lastSession = s.hif.lastSession ∧ u.hif.vfEnable = s.hif.vfEnable ∧ Keeps [.time, .hif] s u)) ∧
  (∀ (s : State) (iss : Issuer) (t : Nat) (a : Admitted), s.serves iss 0 0x0004 a →
    Gives (.echo iss t) s (fun u => s.gave u iss 0 0x0004 a 0 [(msgArg a.msg.toNat 0)] ∧ s.sameHif u
    ∧ Keeps [.time, .hif] s u)) ∧
  (∀ (s : State) (iss : Issuer) (t : Nat) (a : Admitted), s.serves iss 2 0x0100 a →
    (msgArg a.msg.toNat 0) < 1024 → byteField (msgArg a.msg.toNat 1) 0x24 12 = 0 →
    byteField (msgArg a.msg.toNat 1) 0x23 1 ≤ 7 →
    Gives (.quotaSet iss t) s (fun u => (u.tenantRec (msgArg a.msg.toNat 0)) = { s.tenantRec (msgArg a.msg.toNat 0) with quota := BitVec.ofNat 384 (msgArg a.msg.toNat 1) }
    ∧ OnlyAt s.hif.tenants u.hif.tenants (msgArg a.msg.toNat 0)
    ∧ (u.srvTenant (msgArg a.msg.toNat 0)).quota = BitVec.ofNat 21 (min (byteField (msgArg a.msg.toNat 1) 0x1C 4) 0x1FFFFF)
    ∧ OnlyAt s.serving.tenants u.serving.tenants (msgArg a.msg.toNat 0)
    ∧ u.serving.entries = s.serving.entries ∧ s.gave u iss 2 0x0100 a 0 [] ∧ u.hif.funcs = s.hif.funcs
    ∧ u.hif.lastSession = s.hif.lastSession ∧ u.hif.vfEnable = s.hif.vfEnable
    ∧ Keeps [.time, .hif, .serving] s u)) ∧
  (∀ (s : State) (iss : Issuer) (t : Nat) (a : Admitted), s.serves iss 2 0x0100 a →
    1024 ≤ (msgArg a.msg.toNat 0) →
    Gives (.quotaSet iss t) s (fun u => s.gave u iss 2 0x0100 a ST_MBX_ARG [] ∧ s.sameHif u
    ∧ Keeps [.time, .hif] s u)) ∧
  (∀ (s : State) (iss : Issuer) (t : Nat) (a : Admitted), s.serves iss 2 0x0101 a →
    ownTenant iss (msgArg a.msg.toNat 0) < 1024 →
    Gives (.quotaGet iss t) s (fun u => s.gave u iss 2 0x0101 a 0 [(s.tenantRec (ownTenant iss (msgArg a.msg.toNat 0))).quota.toNat,
    s.usage (ownTenant iss (msgArg a.msg.toNat 0))] ∧ s.sameHif u ∧ Keeps [.time, .hif] s u)) ∧
  (∀ (s : State) (iss : Issuer) (t : Nat) (a : Admitted) (k : Nat), s.serves iss 2 0x0102 a →
    (msgArg a.msg.toNat 1) = 1 → (msgArg a.msg.toNat 0) < 1024 → (msgArg a.msg.toNat 2) % 4096 = 0 →
    (msgArg a.msg.toNat 3) % 4096 = 0 → (msgArg a.msg.toNat 3) ≠ 0 →
    s.inOneTier (msgArg a.msg.toNat 2) (msgArg a.msg.toNat 3) = true →
    s.resvHit (msgArg a.msg.toNat 2) (msgArg a.msg.toNat 3) = [] →
    Table.lowestFree (s.tenantRec (msgArg a.msg.toNat 0)).grants 64 = some k →
    Gives (.grant iss t) s (fun u => Table.find (u.tenantRec (msgArg a.msg.toNat 0)).grants k = some { base := BitVec.ofNat 64 (msgArg a.msg.toNat 2), size := BitVec.ofNat 64 (msgArg a.msg.toNat 3) }
    ∧ OnlyAt (s.tenantRec (msgArg a.msg.toNat 0)).grants (u.tenantRec (msgArg a.msg.toNat 0)).grants k
    ∧ (u.tenantRec (msgArg a.msg.toNat 0)).quota = (s.tenantRec (msgArg a.msg.toNat 0)).quota
    ∧ OnlyAt s.hif.tenants u.hif.tenants (msgArg a.msg.toNat 0)
    ∧ s.gave u iss 2 0x0102 a 0 [63 - (s.tenantRec (msgArg a.msg.toNat 0)).grants.length]
    ∧ u.hif.funcs = s.hif.funcs ∧ u.hif.lastSession = s.hif.lastSession ∧ u.hif.vfEnable = s.hif.vfEnable
    ∧ Keeps [.time, .hif] s u)) ∧
  (∀ (s : State) (iss : Issuer) (t : Nat) (a : Admitted), s.serves iss 2 0x0102 a →
    (msgArg a.msg.toNat 1) = 1 → (msgArg a.msg.toNat 0) < 1024 → (msgArg a.msg.toNat 2) % 4096 ≠ 0 →
    Gives (.grant iss t) s (fun u => s.gave u iss 2 0x0102 a ST_MBX_ARG [] ∧ s.sameHif u
    ∧ Keeps [.time, .hif] s u)) ∧
  (∀ (s : State) (iss : Issuer) (t : Nat) (a : Admitted) (g : Nat × GrantPlace), s.serves iss 2 0x0102 a →
    (msgArg a.msg.toNat 1) = 0 → (msgArg a.msg.toNat 0) < 1024 →
    (s.tenantRec (msgArg a.msg.toNat 0)).grants.find? (fun g => g.2.base.toNat == (msgArg a.msg.toNat 2) && g.2.size.toNat == (msgArg a.msg.toNat 3)) = some g
    →
    Gives (.revoke iss t) s (fun u => (u.tenantRec (msgArg a.msg.toNat 0)).grants = Table.del (s.tenantRec (msgArg a.msg.toNat 0)).grants g.1
    ∧ (u.tenantRec (msgArg a.msg.toNat 0)).quota = (s.tenantRec (msgArg a.msg.toNat 0)).quota
    ∧ OnlyAt s.hif.tenants u.hif.tenants (msgArg a.msg.toNat 0)
    ∧ s.gave u iss 2 0x0102 a 0 [65 - (s.tenantRec (msgArg a.msg.toNat 0)).grants.length]
    ∧ u.hif.funcs = s.hif.funcs ∧ u.hif.lastSession = s.hif.lastSession ∧ u.hif.vfEnable = s.hif.vfEnable
    ∧ Keeps [.time, .hif] s u)) ∧
  (∀ (s : State) (iss : Issuer) (t : Nat) (a : Admitted) (g : GrantPlace), s.serves iss 2 0x0103 a →
    ownTenant iss (msgArg a.msg.toNat 0) < 1024 → (msgArg a.msg.toNat 1) < 64 →
    Table.find (s.tenantRec (ownTenant iss (msgArg a.msg.toNat 0))).grants (msgArg a.msg.toNat 1) = some g →
    Gives (.grantList iss t) s (fun u => s.gave u iss 2 0x0103 a 0 [g.base.toNat, g.size.toNat]
    ∧ s.sameHif u ∧ Keeps [.time, .hif] s u)) ∧
  (∀ (s : State) (iss : Issuer) (t : Nat) (a : Admitted), s.serves iss 2 0x0104 a →
    0 < (msgArg a.msg.toNat 0) → (msgArg a.msg.toNat 0) < 1024 → (msgArg a.msg.toNat 1) % 2 ^ 34 = 0 →
    (msgArg a.msg.toNat 1) < 2 ^ 48 →
    Gives (.windowSet iss t) s (fun u => u.func (msgArg a.msg.toNat 0) = { s.func (msgArg a.msg.toNat 0) with windowBase := BitVec.ofNat 48 (msgArg a.msg.toNat 1) }
    ∧ OnlyAt s.hif.funcs u.hif.funcs (msgArg a.msg.toNat 0) ∧ s.gave u iss 2 0x0104 a 0 []
    ∧ u.hif.tenants = s.hif.tenants ∧ u.hif.lastSession = s.hif.lastSession
    ∧ u.hif.vfEnable = s.hif.vfEnable ∧ Keeps [.time, .hif] s u)) ∧
  (∀ (s : State) (iss : Issuer) (t : Nat) (a : Admitted), s.serves iss 2 0x0105 a →
    4 ≤ (msgArg a.msg.toNat 1) → (msgArg a.msg.toNat 1) ≤ 16 →
    Gives (.evtRingSet iss t) s (fun u => u.func (issuerFn iss) = { s.func (issuerFn iss) with evtRing := some { base := BitVec.ofNat 64 (msgArg a.msg.toNat 0), sizeLog2 := (msgArg a.msg.toNat 1), coalUs := (msgArg a.msg.toNat 2) }, evtHead := 0, evtTail := 0 }
    ∧ OnlyAt s.hif.funcs u.hif.funcs (issuerFn iss) ∧ s.gave u iss 2 0x0105 a 0 []
    ∧ u.hif.tenants = s.hif.tenants ∧ u.hif.lastSession = s.hif.lastSession
    ∧ u.hif.vfEnable = s.hif.vfEnable ∧ Keeps [.time, .hif] s u)) ∧
  (∀ (s : State) (iss : Issuer) (t : Nat) (a : Admitted), s.serves iss 2 0x0106 a →
    4 ≤ (msgArg a.msg.toNat 1) → (msgArg a.msg.toNat 1) ≤ 16 →
    Gives (.noteRingSet iss t) s (fun u => u.func (issuerFn iss) = { s.func (issuerFn iss) with noteRing := some { base := BitVec.ofNat 64 (msgArg a.msg.toNat 0), sizeLog2 := (msgArg a.msg.toNat 1), coalUs := (msgArg a.msg.toNat 2) }, noteHead := 0, noteTail := 0 }
    ∧ OnlyAt s.hif.funcs u.hif.funcs (issuerFn iss) ∧ s.gave u iss 2 0x0106 a 0 []
    ∧ u.hif.tenants = s.hif.tenants ∧ u.hif.lastSession = s.hif.lastSession
    ∧ u.hif.vfEnable = s.hif.vfEnable ∧ Keeps [.time, .hif] s u)) ∧
  (∀ (s : State) (iss : Issuer) (t : Nat) (a : Admitted), s.serves iss 2 0x0106 a →
    (msgArg a.msg.toNat 1) < 4 ∨ 16 < (msgArg a.msg.toNat 1) →
    Gives (.noteRingSet iss t) s (fun u => s.gave u iss 2 0x0106 a ST_MBX_ARG [] ∧ s.sameHif u
    ∧ Keeps [.time, .hif] s u)) ∧
  (∀ (s : State) (iss : Issuer) (t : Nat) (a : Admitted), s.serves iss 2 0x0107 a →
    (msgArg a.msg.toNat 0) < 1024 → (s.func (msgArg a.msg.toNat 0)).inReset = true →
    s.tenantQuiet (msgArg a.msg.toNat 0) = true → s.serving.entries = [] → iss = .func 0 →
    (msgArg a.msg.toNat 0) ≠ 0 → s.hif.schq.queue = [a] → s.hif.answers = [] →
    Gives (.tenantClear iss t) s (fun u => u.func (msgArg a.msg.toNat 0) = { Func.reset with windowBase := (s.func (msgArg a.msg.toNat 0)).windowBase }
    ∧ OnlyAt s.hif.funcs u.hif.funcs (msgArg a.msg.toNat 0)
    ∧ u.hif.answers = [{ issuer := .func 0, msg := BitVec.ofNat 2048 (response a.msg.toNat 0 0 [] []) }]
    ∧ u.hif.schq.queue = [] ∧ u.hif.tenants = s.hif.tenants ∧ Keeps [.time, .events, .hif, .agent] s u))

/-- Q_CREATE makes an empty enabled queue at the lowest free place; Q_STATE enables or disables one;
Q_DESTROY removes a quiet one and waits for a busy one; Q_QUERY reads one. GRAPH_ABORT
completes once the graph is gone. DC_INVAL drops the lines of a tenant. SO_ALLOC makes fresh
objects, SO_FREE frees them, SO_OP operates without waiting, SO_CFG sets threshold and
interrupt; a barrier group and an arrival counter are bound, set and unbound. -/
def Obligations.WorkCommands : Prop :=
  (∀ (s : State) (iss : Issuer) (t : Nat) (a : Admitted) (k : Nat), s.serves iss 2 0x0200 a →
    (msgArg a.msg.toNat 1) < 1024 → 4 ≤ (msgArg a.msg.toNat 2) → (msgArg a.msg.toNat 2) ≤ 16 →
    (msgArg a.msg.toNat 3) ≤ 7 → (msgArg a.msg.toNat 4) ≤ 1 → (msgArg a.msg.toNat 5) ≤ 1 →
    (msgArg a.msg.toNat 6) ≤ 1 → (msgArg a.msg.toNat 7) % 64 = 0 → (msgArg a.msg.toNat 0) = 0xFFFF →
    Table.lowestFree s.graph.queues 8192 = some k →
    s.queuesOf (msgArg a.msg.toNat 1) < s.quotaField (msgArg a.msg.toNat 1) 0x00 2 →
    Gives (.qCreate iss t) s (fun u => u.hwq k = some { tenant := (msgArg a.msg.toNat 1), ringBase := BitVec.ofNat 64 (msgArg a.msg.toNat 7), ringLoc := BitVec.ofNat 1 (msgArg a.msg.toNat 5), sizeLog2 := (msgArg a.msg.toNat 2), prioMax := BitVec.ofNat 3 (min (msgArg a.msg.toNat 3) (s.quotaField (msgArg a.msg.toNat 1) 0x23 1)), shadowAddr := BitVec.ofNat 64 (msgArg a.msg.toNat 8), shadowLoc := BitVec.ofNat 1 (msgArg a.msg.toNat 6), head := 0, tail := 0, enabled := true, serving := (msgArg a.msg.toNat 4) == 1, shadowDue := none }
    ∧ OnlyAt s.graph.queues u.graph.queues k ∧ u.graph.graphs = s.graph.graphs
    ∧ u.graph.entries = s.graph.entries ∧ s.gave u iss 2 0x0200 a 0 [k] ∧ s.sameHif u
    ∧ Keeps [.time, .hif, .graph] s u)) ∧
  (∀ (s : State) (iss : Issuer) (t : Nat) (a : Admitted) (x : HwQueue), s.serves iss 2 0x0201 a →
    s.hwq (msgArg a.msg.toNat 0) = some x → (msgArg a.msg.toNat 1) ≤ 1 →
    Gives (.qState iss t) s (fun u => u.hwq (msgArg a.msg.toNat 0) = some { x with enabled := (msgArg a.msg.toNat 1) == 1 }
    ∧ OnlyAt s.graph.queues u.graph.queues (msgArg a.msg.toNat 0) ∧ u.graph.graphs = s.graph.graphs
    ∧ u.graph.entries = s.graph.entries ∧ s.gave u iss 2 0x0201 a 0 [] ∧ s.sameHif u
    ∧ Keeps [.time, .hif, .graph] s u)) ∧
  (∀ (s : State) (iss : Issuer) (t : Nat) (a : Admitted) (x : HwQueue), s.serves iss 2 0x0202 a →
    s.hwq (msgArg a.msg.toNat 0) = some x → s.queueQuiet (msgArg a.msg.toNat 0) = true →
    Gives (.qDestroy iss t) s (fun u => u.hwq (msgArg a.msg.toNat 0) = none
    ∧ OnlyAt s.graph.queues u.graph.queues (msgArg a.msg.toNat 0) ∧ u.graph.graphs = s.graph.graphs
    ∧ u.graph.entries = s.graph.entries ∧ s.gave u iss 2 0x0202 a 0 [] ∧ s.sameHif u
    ∧ Keeps [.time, .hif, .graph] s u)) ∧
  (∀ (s : State) (iss : Issuer) (t : Nat) (a : Admitted) (x : HwQueue), s.serves iss 2 0x0202 a →
    s.hwq (msgArg a.msg.toNat 0) = some x → s.queueQuiet (msgArg a.msg.toNat 0) = false → a.started = false
    → Gives (.qDestroy iss t) s (fun u => u.hwq (msgArg a.msg.toNat 0) = some { x with enabled := false }
    ∧ OnlyAt s.graph.queues u.graph.queues (msgArg a.msg.toNat 0) ∧ u.graph.graphs = s.graph.graphs
    ∧ u.graph.entries = s.graph.entries ∧ s.began u 2 a ∧ s.sameHif u ∧ Keeps [.time, .hif, .graph] s u)) ∧
  (∀ (s : State) (iss : Issuer) (t : Nat) (a : Admitted) (x : HwQueue), s.serves iss 2 0x0203 a →
    s.hwq (msgArg a.msg.toNat 0) = some x →
    Gives (.qQuery iss t) s (fun u => s.gave u iss 2 0x0203 a 0 [x.tenant, x.ringBase.toNat, x.ringLoc.toNat, x.sizeLog2, x.prioMax.toNat, x.shadowAddr.toNat, x.shadowLoc.toNat, x.head.toNat, x.tail.toNat, b2n x.enabled]
    ∧ s.sameHif u ∧ Keeps [.time, .hif] s u)) ∧
  (∀ (s : State) (iss : Issuer) (t : Nat) (a : Admitted), s.serves iss 2 0x0204 a →
    s.seqAlive (msgArg a.msg.toNat 0) = false →
    Gives (.graphAbort iss t) s (fun u => s.gave u iss 2 0x0204 a 0 [] ∧ s.sameHif u
    ∧ Keeps [.time, .quays, .hif, .agent] s u)) ∧
  (∀ (s : State) (iss : Issuer) (t : Nat) (a : Admitted) (g : GraphRun), s.serves iss 2 0x0204 a →
    s.graphOf (msgArg a.msg.toNat 0) = some g → g.failing = none → s.graph.entries = [] → a.started = false
    →
    Gives (.graphAbort iss t) s (fun u => ((u.graphOf (msgArg a.msg.toNat 0)).map (fun x => x.failing.isSome)).getD true = true
    ∧ u.hif.tenants = s.hif.tenants ∧ u.hif.lastSession = s.hif.lastSession
    ∧ Keeps [.time, .free, .mem, .hostMem, .quays, .tiles, .tiers, .sync, .dma, .events, .trace, .hif, .log, .fab, .graph, .pilot, .stks, .agent] s u)) ∧
  (∀ (s : State) (iss : Issuer) (t : Nat) (a : Admitted), s.serves iss 2 0x0205 a →
    ownTenant iss (msgArg a.msg.toNat 0) < 1024 → (msgArg a.msg.toNat 0) ≠ 0xFFFE →
    Gives (.dcInval iss t) s (fun u => u.tiles = Table.mapV s.tiles (fun _ x => { x with cache := (x.cache.filter (fun l => l.tenant != ownTenant iss (msgArg a.msg.toNat 0) || l.lockAct || l.lockPend)).map (fun l => if l.tenant = ownTenant iss (msgArg a.msg.toNat 0) then { l with inval := true } else l) })
    ∧ s.gave u iss 2 0x0205 a 0 [] ∧ s.sameHif u ∧ Keeps [.time, .tiles, .hif] s u)) ∧
  (∀ (s : State) (iss : Issuer) (t : Nat) (a : Admitted) (k : Nat), s.serves iss 2 0x0300 a →
    (msgArg a.msg.toNat 0) < 1024 → (msgArg a.msg.toNat 2) ≠ 0 →
    s.sosOf (msgArg a.msg.toNat 0) + (msgArg a.msg.toNat 2) ≤ s.quotaField (msgArg a.msg.toNat 0) 0x18 4 →
    (msgArg a.msg.toNat 1) = 0xFFFFFFFF → s.soRun (msgArg a.msg.toNat 2) = some k →
    Gives (.soAlloc iss t) s (fun u => u.sync.objs = freshObjs k (msgArg a.msg.toNat 2) (msgArg a.msg.toNat 0) s.sync.objs
    ∧ u.sync.bars = s.sync.bars ∧ s.gave u iss 2 0x0300 a 0 [k] ∧ s.sameHif u
    ∧ Keeps [.time, .sync, .hif] s u)) ∧
  (∀ (s : State) (iss : Issuer) (t : Nat) (a : Admitted), s.serves iss 2 0x0300 a →
    (msgArg a.msg.toNat 0) < 1024 → (msgArg a.msg.toNat 2) ≠ 0 →
    s.quotaField (msgArg a.msg.toNat 0) 0x18 4 < s.sosOf (msgArg a.msg.toNat 0) + (msgArg a.msg.toNat 2) →
    Gives (.soAlloc iss t) s (fun u => u.sync = s.sync ∧ s.gave u iss 2 0x0300 a ST_MBX_QUOTA []
    ∧ s.sameHif u ∧ Keeps [.time, .sync, .hif] s u)) ∧
  (∀ (s : State) (iss : Issuer) (t : Nat) (a : Admitted), s.serves iss 2 0x0301 a →
    (msgArg a.msg.toNat 1) = 1 → (msgArg a.msg.toNat 0) < 131072 →
    (s.sync.objs.filter (fun o => o.2.valid && decide ((msgArg a.msg.toNat 0) ≤ o.1) && decide (o.1 < (msgArg a.msg.toNat 0) + 1))).map Prod.fst = [(msgArg a.msg.toNat 0)]
    → (s.so (msgArg a.msg.toNat 0)).waiters = [] →
    Gives (.soFree iss t) s (fun u => Table.find u.sync.objs (msgArg a.msg.toNat 0) = none
    ∧ OnlyAt s.sync.objs u.sync.objs (msgArg a.msg.toNat 0) ∧ u.sync.bars = s.sync.bars
    ∧ s.gave u iss 2 0x0301 a 0 [] ∧ s.sameHif u ∧ Keeps [.time, .sync, .hif] s u)) ∧
  (∀ (s : State) (iss : Issuer) (t : Nat) (a : Admitted), s.serves iss 2 0x0302 a →
    (msgArg a.msg.toNat 0) < 131072 → (msgArg a.msg.toNat 1) = 3 →
    (s.so (msgArg a.msg.toNat 0)).valid = true → (s.so (msgArg a.msg.toNat 0)).waiters = [] →
    (s.so (msgArg a.msg.toNat 0)).irqEn = false →
    Gives (.soOp iss t) s (fun u => (u.so (msgArg a.msg.toNat 0)).count = BitVec.ofNat 32 (msgArg a.msg.toNat 2)
    ∧ OnlyAt s.sync.objs u.sync.objs (msgArg a.msg.toNat 0) ∧ u.sync.bars = s.sync.bars
    ∧ s.gave u iss 2 0x0302 a 0 [(BitVec.ofNat 32 (msgArg a.msg.toNat 2)).toNat] ∧ s.sameHif u
    ∧ Keeps [.time, .sync, .trace, .hif] s u)) ∧
  (∀ (s : State) (iss : Issuer) (t : Nat) (a : Admitted), s.serves iss 2 0x0302 a →
    (msgArg a.msg.toNat 0) < 131072 → (msgArg a.msg.toNat 1) = 1 →
    (s.so (msgArg a.msg.toNat 0)).valid = true →
    (s.so (msgArg a.msg.toNat 0)).count.toNat < (s.so (msgArg a.msg.toNat 0)).threshold (msgArg a.msg.toNat 2)
    → Gives (.soOp iss t) s (fun u => u.sync = s.sync ∧ s.gave u iss 2 0x0302 a ST_SO_NOT_READY []
    ∧ s.sameHif u ∧ Keeps [.time, .sync, .hif] s u)) ∧
  (∀ (s : State) (iss : Issuer) (t : Nat) (a : Admitted), s.serves iss 2 0x0303 a →
    (msgArg a.msg.toNat 0) < 131072 → (msgArg a.msg.toNat 1) ≤ 1 →
    (s.so (msgArg a.msg.toNat 0)).valid = true →
    Gives (.soCfg iss t) s (fun u => u.so (msgArg a.msg.toNat 0) = { s.so (msgArg a.msg.toNat 0) with irqEn := (msgArg a.msg.toNat 1) == 1, thresh := BitVec.ofNat 16 (msgArg a.msg.toNat 2) }
    ∧ OnlyAt s.sync.objs u.sync.objs (msgArg a.msg.toNat 0) ∧ u.sync.bars = s.sync.bars
    ∧ s.gave u iss 2 0x0303 a 0 [] ∧ s.sameHif u ∧ Keeps [.time, .sync, .hif] s u)) ∧
  (∀ (s : State) (iss : Issuer) (t : Nat) (a : Admitted), s.serves iss 2 0x0304 a →
    (msgArg a.msg.toNat 0) < 64 → (msgArg a.msg.toNat 1) < 1024 → (msgArg a.msg.toNat 2) ≤ 1 →
    (msgArg a.msg.toNat 3) < 131072 →
    s.barsOf (msgArg a.msg.toNat 1) (msgArg a.msg.toNat 0) < s.quotaField (msgArg a.msg.toNat 1) 0x22 1 →
    (s.bar (msgArg a.msg.toNat 0)).valid = false →
    Gives (.barBind iss t) s (fun u => u.bar (msgArg a.msg.toNat 0) = { Barrier.reset with tenant := BitVec.ofNat 10 (msgArg a.msg.toNat 1), sigEn := (msgArg a.msg.toNat 2) == 1, valid := true, so := BitVec.ofNat 17 (msgArg a.msg.toNat 3), qmask := BitVec.ofNat 64 (msgArg a.msg.toNat 4), tmask := BitVec.ofNat 64 (msgArg a.msg.toNat 5), phase := (s.bar (msgArg a.msg.toNat 0)).phase }
    ∧ OnlyAt s.sync.bars u.sync.bars (msgArg a.msg.toNat 0) ∧ u.sync.objs = s.sync.objs
    ∧ s.gave u iss 2 0x0304 a 0 [] ∧ s.sameHif u ∧ Keeps [.time, .sync, .hif] s u)) ∧
  (∀ (s : State) (iss : Issuer) (t : Nat) (a : Admitted), s.serves iss 2 0x0305 a →
    (msgArg a.msg.toNat 0) < 64 → (s.bar (msgArg a.msg.toNat 0)).valid = true →
    (s.bar (msgArg a.msg.toNat 0)).waiting = [] → (s.bar (msgArg a.msg.toNat 0)).second = [] →
    Gives (.barUnbind iss t) s (fun u => u.bar (msgArg a.msg.toNat 0) = { s.bar (msgArg a.msg.toNat 0) with valid := false, arrived := [], recorded := [], waiting := [], second := [] }
    ∧ OnlyAt s.sync.bars u.sync.bars (msgArg a.msg.toNat 0) ∧ u.sync.objs = s.sync.objs
    ∧ s.gave u iss 2 0x0305 a 0 [] ∧ s.sameHif u ∧ Keeps [.time, .sync, .hif] s u)) ∧
  (∀ (s : State) (iss : Issuer) (t : Nat) (a : Admitted), s.serves iss 2 0x0306 a →
    (msgArg a.msg.toNat 0) = 0xFFFF → (msgArg a.msg.toNat 1) < 1024 → (msgArg a.msg.toNat 2) < 131072 →
    (msgArg a.msg.toNat 3) ≤ 1 → (msgArg a.msg.toNat 4) % 64 = 0 → (msgArg a.msg.toNat 5) % 64 = 0 →
    (msgArg a.msg.toNat 5) ≠ 0 → (msgArg a.msg.toNat 5) ≤ 2 ^ 38 →
    (msgArg a.msg.toNat 4) + (msgArg a.msg.toNat 5) ≤ 2 ^ 48 → (s.dma.acs.filter (fun x => x.2.valid)) = []
    → 0 < s.quotaField (msgArg a.msg.toNat 1) 0x20 2 →
    Gives (.acBind iss t) s (fun u => u.ac 0 = { tenant := BitVec.ofNat 10 (msgArg a.msg.toNat 1), sigEn := (msgArg a.msg.toNat 3) == 1, sat := false, valid := true, so := BitVec.ofNat 17 (msgArg a.msg.toNat 2), base := BitVec.ofNat 48 (msgArg a.msg.toNat 4), size64 := BitVec.ofNat 33 ((msgArg a.msg.toNat 5) / 64), target := BitVec.ofNat 32 (msgArg a.msg.toNat 6), count := 0 }
    ∧ OnlyAt s.dma.acs u.dma.acs 0 ∧ u.dma.ctxs = s.dma.ctxs ∧ u.dma.waiting = s.dma.waiting
    ∧ s.gave u iss 2 0x0306 a 0 [0] ∧ s.sameHif u ∧ Keeps [.time, .dma, .hif] s u)) ∧
  (∀ (s : State) (iss : Issuer) (t : Nat) (a : Admitted), s.serves iss 2 0x0307 a →
    (msgArg a.msg.toNat 0) < 4096 → (s.ac (msgArg a.msg.toNat 0)).valid = true → (msgArg a.msg.toNat 1) ≤ 1
    → (msgArg a.msg.toNat 3) < 2 ^ 40 →
    Gives (.acSet iss t) s (fun u => u.ac (msgArg a.msg.toNat 0) = { s.ac (msgArg a.msg.toNat 0) with target := BitVec.ofNat 32 (msgArg a.msg.toNat 2), count := if (msgArg a.msg.toNat 1) = 1 then BitVec.ofNat 40 (msgArg a.msg.toNat 3) else (s.ac (msgArg a.msg.toNat 0)).count }
    ∧ OnlyAt s.dma.acs u.dma.acs (msgArg a.msg.toNat 0) ∧ u.dma.ctxs = s.dma.ctxs
    ∧ u.dma.waiting = s.dma.waiting ∧ s.gave u iss 2 0x0307 a 0 [(s.ac (msgArg a.msg.toNat 0)).count.toNat]
    ∧ s.sameHif u ∧ Keeps [.time, .dma, .hif] s u)) ∧
  (∀ (s : State) (iss : Issuer) (t : Nat) (a : Admitted), s.serves iss 2 0x0308 a →
    (msgArg a.msg.toNat 0) < 4096 → (s.ac (msgArg a.msg.toNat 0)).valid = true →
    Gives (.acUnbind iss t) s (fun u => u.ac (msgArg a.msg.toNat 0) = { s.ac (msgArg a.msg.toNat 0) with valid := false, size64 := 0 }
    ∧ OnlyAt s.dma.acs u.dma.acs (msgArg a.msg.toNat 0) ∧ u.dma.ctxs = s.dma.ctxs
    ∧ u.dma.waiting = s.dma.waiting ∧ s.gave u iss 2 0x0308 a 0 [] ∧ s.sameHif u
    ∧ Keeps [.time, .dma, .hif] s u))

/-- PIL_PLACE gives every block its home in turn, writes the owner table and answers its address;
PIL_FREE waits for the graphs alive and then frees blocks and table; PIL_PIN and PIL_UNPIN set
and clear the pin of the named blocks; PIL_MOVE queues a move and completes at its end;
PIL_TABLE, PIL_THRESH and PIL_CAL_CFG answer the table, the previous threshold, nothing;
MODEL_REG and KV_GEOM_REG keep the record they read, MODEL_DEREG drops it; SERVE_RSV sets the
reserve of the named stacks; SERVE_CFG sets the four settings. -/
def Obligations.PlacementCommands : Prop :=
  (∀ (s : State) (iss : Issuer) (t : Nat) (a : Admitted) (answer : Option (Option Nat)) (h tk : List (Nat × Nat)) (tb : Nat),
    s.serves iss 2 0x0400 a → s.plOk a.msg.toNat = true → s.pilot.peerPlace = none →
    s.placeBlocks (plBlockBytes a.msg.toNat) (List.range (plEntries a.msg.toNat)) (s.roundRobin s.pilTaken (s.plUnits a.msg.toNat).1) s.pilTaken = (h, [], tk)
    →
    freeRange 0 s.t1Top (tableBytes (plEntries a.msg.toNat)) 128 (s.pilTaken ++ h.map (fun x => (x.2, plBlockBytes a.msg.toNat))) = some tb
    →
    Gives (.pilPlace iss t answer) s (fun u => u.pilot.tensors = s.pilot.tensors ++ [{ id := BitVec.ofNat 32 (msgArg a.msg.toNat 0), tenant := (msgArg a.msg.toNat 1), cls := (msgArg a.msg.toNat 2), array := (msgArg a.msg.toNat 3), table := tb, entries := plEntries a.msg.toNat, freeing := none }]
    ∧ (u.pilot.blocks.map (fun b => (b.table, b.entry, b.base, b.size, b.berth))).drop s.pilot.blocks.length = h.map (fun x => (tb, x.1, x.2, plBlockBytes a.msg.toNat,
    (none : Option Nat))) ∧ u.pilot.moves = s.pilot.moves ∧ u.pilot.queue = s.pilot.queue
    ∧ u.pilot.ended = s.pilot.ended ∧ u.pilot.thresh = s.pilot.thresh ∧ u.pilot.fix = s.pilot.fix
    ∧ u.pilot.peerPlace = s.pilot.peerPlace ∧ u.pilot.dlogHead = s.pilot.dlogHead + BitVec.ofNat 32 h.length
    ∧ s.gave u iss 2 0x0400 a 0 [tb] ∧ s.sameHif u
    ∧ Keeps [.time, .free, .mem, .quays, .tiers, .events, .trace, .hif, .log, .fab, .pilot, .agent] s u)) ∧
  (∀ (s : State) (iss : Issuer) (t : Nat) (a : Admitted) (answer : Option (Option Nat)),
    s.serves iss 2 0x0400 a → s.plOk a.msg.toNat = false →
    Gives (.pilPlace iss t answer) s (fun u => u.pilot.tensors = s.pilot.tensors
    ∧ u.pilot.blocks = s.pilot.blocks ∧ u.pilot.moves = s.pilot.moves ∧ u.pilot.queue = s.pilot.queue
    ∧ u.pilot.ended = s.pilot.ended ∧ u.pilot.thresh = s.pilot.thresh ∧ u.pilot.fix = s.pilot.fix
    ∧ u.pilot.peerPlace = s.pilot.peerPlace ∧ u.pilot.dlogHead = s.pilot.dlogHead
    ∧ s.gave u iss 2 0x0400 a ST_MBX_ARG [] ∧ s.sameHif u
    ∧ Keeps [.time, .quays, .trace, .hif, .pilot] s u)) ∧
  (∀ (s : State) (iss : Issuer) (t : Nat) (a : Admitted) (x : PilTensor), s.serves iss 2 0x0401 a →
    s.tensorAt (msgArg a.msg.toNat 0) = some x → x.freeing = none → s.pilot.moves = [] →
    Gives (.pilFree iss t) s (fun u => u.pilot.tensors = s.pilot.tensors.map (fun y => if y.table = (msgArg a.msg.toNat 0) then { y with freeing := some (s.graph.graphs.map Prod.fst) } else y)
    ∧ u.pilot.queue = s.pilot.queue.filter (fun q => q.table != (msgArg a.msg.toNat 0))
    ∧ u.pilot.blocks = s.pilot.blocks ∧ u.pilot.moves = s.pilot.moves ∧ u.pilot.ended = s.pilot.ended
    ∧ u.pilot.thresh = s.pilot.thresh ∧ u.pilot.fix = s.pilot.fix ∧ u.pilot.peerPlace = s.pilot.peerPlace
    ∧ s.began u 2 a ∧ s.sameHif u ∧ Keeps [.time, .hif, .pilot] s u)) ∧
  (∀ (s : State) (iss : Issuer) (t : Nat) (a : Admitted) (x : PilTensor) (gs : List Nat),
    s.serves iss 2 0x0401 a → s.tensorAt (msgArg a.msg.toNat 0) = some x → x.freeing = some gs →
    gs.all (fun g => (s.graphOf g).isNone) = true →
    Gives (.pilFree iss t) s (fun u => u.pilot.tensors = s.pilot.tensors.filter (fun y => y.table != (msgArg a.msg.toNat 0))
    ∧ u.pilot.blocks = s.pilot.blocks.filter (fun y => y.table != (msgArg a.msg.toNat 0))
    ∧ u.pilot.queue = s.pilot.queue ∧ u.pilot.ended = s.pilot.ended ∧ u.pilot.thresh = s.pilot.thresh
    ∧ u.pilot.fix = s.pilot.fix ∧ u.pilot.peerPlace = s.pilot.peerPlace ∧ s.gave u iss 2 0x0401 a 0 []
    ∧ s.sameHif u ∧ Keeps [.time, .hif, .pilot] s u)) ∧
  (∀ (s : State) (iss : Issuer) (t : Nat) (a : Admitted), s.serves iss 2 0x0401 a →
    s.tensorAt (msgArg a.msg.toNat 0) = none →
    Gives (.pilFree iss t) s (fun u => u.pilot.tensors = s.pilot.tensors ∧ u.pilot.blocks = s.pilot.blocks
    ∧ u.pilot.moves = s.pilot.moves ∧ u.pilot.queue = s.pilot.queue ∧ u.pilot.ended = s.pilot.ended
    ∧ u.pilot.thresh = s.pilot.thresh ∧ u.pilot.fix = s.pilot.fix ∧ u.pilot.peerPlace = s.pilot.peerPlace
    ∧ s.gave u iss 2 0x0401 a ST_MBX_ARG [] ∧ s.sameHif u ∧ Keeps [.time, .hif] s u)) ∧
  (∀ (s : State) (iss : Issuer) (t : Nat) (a : Admitted) (x : PilTensor), s.serves iss 2 0x0402 a →
    a.started = false → s.tensorAt (msgArg a.msg.toNat 0) = some x →
    (msgArg a.msg.toNat 1) + (msgArg a.msg.toNat 2) ≤ x.entries → (msgArg a.msg.toNat 3) = 0 →
    s.pilot.moves = [] →
    Gives (.pilPin iss t) s (fun u => u.pilot.blocks = s.pilot.blocks.map (fun b => if b.table = (msgArg a.msg.toNat 0)
    ∧ (msgArg a.msg.toNat 1) ≤ b.entry
    ∧ b.entry < (msgArg a.msg.toNat 1) + (msgArg a.msg.toNat 2) then { b with pinned := true } else b)
    ∧ u.pilot.tensors = s.pilot.tensors ∧ u.pilot.moves = s.pilot.moves ∧ u.pilot.queue = s.pilot.queue
    ∧ u.pilot.ended = s.pilot.ended ∧ u.pilot.thresh = s.pilot.thresh ∧ u.pilot.fix = s.pilot.fix
    ∧ u.pilot.peerPlace = s.pilot.peerPlace ∧ s.gave u iss 2 0x0402 a 0 [] ∧ s.sameHif u
    ∧ Keeps [.time, .hif, .pilot] s u)) ∧
  (∀ (s : State) (iss : Issuer) (t : Nat) (a : Admitted) (x : PilTensor), s.serves iss 2 0x0403 a →
    s.tensorAt (msgArg a.msg.toNat 0) = some x → (msgArg a.msg.toNat 1) + (msgArg a.msg.toNat 2) ≤ x.entries
    →
    Gives (.pilUnpin iss t) s (fun u => u.pilot.blocks = s.pilot.blocks.map (fun b => if b.table = (msgArg a.msg.toNat 0)
    ∧ (msgArg a.msg.toNat 1) ≤ b.entry
    ∧ b.entry < (msgArg a.msg.toNat 1) + (msgArg a.msg.toNat 2) then { b with pinned := false } else b)
    ∧ u.pilot.tensors = s.pilot.tensors ∧ u.pilot.moves = s.pilot.moves ∧ u.pilot.queue = s.pilot.queue
    ∧ u.pilot.ended = s.pilot.ended ∧ u.pilot.thresh = s.pilot.thresh ∧ u.pilot.fix = s.pilot.fix
    ∧ u.pilot.peerPlace = s.pilot.peerPlace ∧ s.gave u iss 2 0x0403 a 0 [] ∧ s.sameHif u
    ∧ Keeps [.time, .hif, .pilot] s u)) ∧
  (∀ (s : State) (iss : Issuer) (t : Nat) (a : Admitted) (b : PilBlock), s.serves iss 2 0x0404 a →
    a.started = false → s.blockOf (msgArg a.msg.toNat 0) (msgArg a.msg.toNat 1) = some b → b.pinned = false
    → s.moveOf (msgArg a.msg.toNat 0) (msgArg a.msg.toNat 1) = none →
    s.pilot.moves.length + s.pilot.queue.length < 4096 →
    Gives (.pilMove iss t) s (fun u => u.pilot.queue = s.pilot.queue ++ [{ table := (msgArg a.msg.toNat 0), entry := (msgArg a.msg.toNat 1), home := if (msgArg a.msg.toNat 2) = 0 then none else some (bits (msgArg a.msg.toNat 2) 48 13, bits (msgArg a.msg.toNat 2) 0 48, (msgArg a.msg.toNat 3)), pin := false, demote := false, issuer := some iss }]
    ∧ u.pilot.tensors = s.pilot.tensors ∧ u.pilot.blocks = s.pilot.blocks ∧ u.pilot.moves = s.pilot.moves
    ∧ u.pilot.ended = s.pilot.ended ∧ u.pilot.thresh = s.pilot.thresh ∧ u.pilot.fix = s.pilot.fix
    ∧ u.pilot.peerPlace = s.pilot.peerPlace ∧ s.began u 2 a ∧ s.sameHif u
    ∧ Keeps [.time, .hif, .fab, .pilot] s u)) ∧
  (∀ (s : State) (iss : Issuer) (t : Nat) (a : Admitted) (e : Status), s.serves iss 2 0x0404 a →
    a.started = true → s.pilot.queue = [] → s.pilot.moves = [] → s.pilot.ended = [((msgArg a.msg.toNat 0),
    (msgArg a.msg.toNat 1), e)] → Gives (.pilMove iss t) s (fun u => u.pilot.ended = []
    ∧ u.pilot.tensors = s.pilot.tensors ∧ u.pilot.blocks = s.pilot.blocks ∧ u.pilot.moves = s.pilot.moves
    ∧ u.pilot.queue = s.pilot.queue ∧ u.pilot.thresh = s.pilot.thresh ∧ u.pilot.fix = s.pilot.fix
    ∧ u.pilot.peerPlace = s.pilot.peerPlace ∧ s.gave u iss 2 0x0404 a e [] ∧ s.sameHif u
    ∧ Keeps [.time, .hif, .fab, .pilot] s u)) ∧
  (∀ (s : State) (iss : Issuer) (t : Nat) (a : Admitted) (b : PilBlock), s.serves iss 2 0x0404 a →
    a.started = false → s.blockOf (msgArg a.msg.toNat 0) (msgArg a.msg.toNat 1) = some b →
    b.pinned = true ∨ (s.moveOf (msgArg a.msg.toNat 0) (msgArg a.msg.toNat 1)).isSome = true →
    Gives (.pilMove iss t) s (fun u => u.pilot.tensors = s.pilot.tensors ∧ u.pilot.blocks = s.pilot.blocks
    ∧ u.pilot.moves = s.pilot.moves ∧ u.pilot.queue = s.pilot.queue ∧ u.pilot.ended = s.pilot.ended
    ∧ u.pilot.thresh = s.pilot.thresh ∧ u.pilot.fix = s.pilot.fix ∧ u.pilot.peerPlace = s.pilot.peerPlace
    ∧ s.gave u iss 2 0x0404 a ST_PIL_BUSY [] ∧ s.sameHif u ∧ Keeps [.time, .hif, .fab] s u)) ∧
  (∀ (s : State) (iss : Issuer) (t : Nat) (a : Admitted) (x : PilTensor), s.serves iss 2 0x0405 a →
    s.pilot.tensors.find? (fun x => x.id.toNat == (msgArg a.msg.toNat 0)) = some x →
    Gives (.pilTable iss t) s (fun u => s.gave u iss 2 0x0405 a 0 [x.table] ∧ s.sameHif u
    ∧ Keeps [.time, .hif] s u)) ∧
  (∀ (s : State) (iss : Issuer) (t : Nat) (a : Admitted), s.serves iss 2 0x0405 a →
    s.pilot.tensors.find? (fun x => x.id.toNat == (msgArg a.msg.toNat 0)) = none →
    Gives (.pilTable iss t) s (fun u => s.gave u iss 2 0x0405 a ST_PIL_NO_TENSOR [] ∧ s.sameHif u
    ∧ Keeps [.time, .hif] s u)) ∧
  (∀ (s : State) (iss : Issuer) (t : Nat) (a : Admitted), s.serves iss 2 0x0406 a →
    (msgArg a.msg.toNat 0) ≤ 2 → (msgArg a.msg.toNat 1) ≤ 1 →
    Gives (.pilThresh iss t) s (fun u => u.pilThresh (msgArg a.msg.toNat 0) = max 0x100 (min 0x4000 (msgArg a.msg.toNat 2))
    ∧ OnlyAt s.pilot.thresh u.pilot.thresh (msgArg a.msg.toNat 0)
    ∧ u.pilot.fix.getLsbD (msgArg a.msg.toNat 0) = ((msgArg a.msg.toNat 1) == 1)
    ∧ u.pilot.dlogHead = s.pilot.dlogHead + 1
    ∧ SameOutside s.mem u.mem (((s.resv 3).1 + 32 * (s.pilot.dlogHead.toNat % 4096)) / 64 * 64) (((s.resv 3).1 + 32 * (s.pilot.dlogHead.toNat % 4096)) / 64 * 64 + 64)
    ∧ u.pilot.tensors = s.pilot.tensors ∧ u.pilot.blocks = s.pilot.blocks ∧ u.pilot.moves = s.pilot.moves
    ∧ u.pilot.queue = s.pilot.queue ∧ u.pilot.ended = s.pilot.ended ∧ u.pilot.peerPlace = s.pilot.peerPlace
    ∧ s.gave u iss 2 0x0406 a 0 [s.pilThresh (msgArg a.msg.toNat 0)] ∧ s.sameHif u
    ∧ Keeps [.time, .mem, .events, .trace, .hif, .log, .pilot] s u)) ∧
  (∀ (s : State) (iss : Issuer) (t : Nat) (a : Admitted), s.serves iss 2 0x0407 a →
    Gives (.pilCalCfg iss t) s (fun u => u.pilot = { s.pilot with winMs := BitVec.ofNat 8 (msgArg a.msg.toNat 0) }
    ∧ s.gave u iss 2 0x0407 a 0 [] ∧ s.sameHif u ∧ Keeps [.time, .hif, .pilot] s u)) ∧
  (∀ (s : State) (iss : Issuer) (t : Nat) (a : Admitted) (n k : Nat) (bs : List Byte) (x : HwQueue),
    s.serves iss 2 0x0500 a → n = byteField (natOfBytes bs) 6 1 → 1 ≤ n → n ≤ 8 →
    (s.at t).accessCheck 0 false (msgArg a.msg.toNat 0) (64 + 64 * n) = none →
    s.region (msgArg a.msg.toNat 0) = .spad k → s.bring.tilesFilled = true → s.logging = false →
    (msgArg a.msg.toNat 0) % 8 = 0 →
    (msgArg a.msg.toNat 0) + (64 + 64 * n) ≤ s.regionEnd (msgArg a.msg.toNat 0) →
    Mem.readBytes s.mem (msgArg a.msg.toNat 0) (64 + 64 * n) = some bs →
    modelFormatOk (natOfBytes bs) n = true → s.hwq (byteField (natOfBytes bs) 8 2) = some x →
    s.modelOk { tenant := x.tenant, words := BitVec.ofNat 4608 (natOfBytes bs) } x = true →
    s.srvModel (byteField (natOfBytes bs) 4 2) = none →
    Gives (.modelReg iss t) s (fun u => u.serving = { s.serving with models := Table.put s.serving.models (byteField (natOfBytes bs) 4 2) { tenant := x.tenant, words := BitVec.ofNat 4608 (natOfBytes bs) } }
    ∧ u.mem = s.mem ∧ s.gave u iss 2 0x0500 a 0 [] ∧ s.sameHif u
    ∧ Keeps [.time, .mem, .hif, .pilot, .serving, .agent] s u)) ∧
  (∀ (s : State) (iss : Issuer) (t : Nat) (a : Admitted), s.serves iss 2 0x0501 a →
    (msgArg a.msg.toNat 0) < 4096 → (s.srvModel (msgArg a.msg.toNat 0)).isSome = true →
    s.serving.entries.all (fun e => e.2.state == 0 || e.2.model != (msgArg a.msg.toNat 0)) = true →
    Gives (.modelDereg iss t) s (fun u => u.serving = { s.serving with models := Table.del s.serving.models (msgArg a.msg.toNat 0) }
    ∧ u.kvGeom (msgArg a.msg.toNat 0) = none ∧ OnlyAt s.kv.geoms u.kv.geoms (msgArg a.msg.toNat 0)
    ∧ u.kv.slots = s.kv.slots.filter (fun x => x.model != (msgArg a.msg.toNat 0))
    ∧ u.kv.areas = s.kv.areas.filter (fun x => x.model != (msgArg a.msg.toNat 0))
    ∧ s.gave u iss 2 0x0501 a 0 [] ∧ s.sameHif u ∧ Keeps [.time, .hif, .kv, .serving] s u)) ∧
  (∀ (s : State) (iss : Issuer) (t : Nat) (a : Admitted), s.serves iss 2 0x0501 a →
    (msgArg a.msg.toNat 0) < 4096 → s.srvModel (msgArg a.msg.toNat 0) = none →
    Gives (.modelDereg iss t) s (fun u => u.serving = s.serving ∧ u.kv = s.kv
    ∧ s.gave u iss 2 0x0501 a ST_SRV_MODEL [] ∧ s.sameHif u ∧ Keeps [.time, .hif] s u)) ∧
  (∀ (s : State) (iss : Issuer) (t : Nat) (a : Admitted) (k : Nat) (bs : List Byte) (m : SrvModel),
    s.serves iss 2 0x0502 a → (s.at t).accessCheck 0 false (msgArg a.msg.toNat 0) (64) = none →
    s.region (msgArg a.msg.toNat 0) = .spad k → s.bring.tilesFilled = true → s.logging = false →
    (msgArg a.msg.toNat 0) % 8 = 0 → (msgArg a.msg.toNat 0) + (64) ≤ s.regionEnd (msgArg a.msg.toNat 0) →
    Mem.readBytes s.mem (msgArg a.msg.toNat 0) (64) = some bs → geomFormatOk (natOfBytes bs) = true →
    s.srvModel (kvModel (natOfBytes bs)) = some m → s.tiers.t1Up = true →
    ((List.range 12).filter (fun st => bit (kvMask (natOfBytes bs)) st)).all (fun st => decide (0 < s.pcCount st) && s.pilTaken.all (fun r => decide (s.stackBase st + 65536 * s.pcCount st * kvJ0 (natOfBytes bs) + 65536 * s.pcCount st * kvChunks (natOfBytes bs) ≤ r.1) || decide (r.1 + r.2 ≤ s.stackBase st + 65536 * s.pcCount st * kvJ0 (natOfBytes bs)))) = true
    → kvJ0 (natOfBytes bs) + kvChunks (natOfBytes bs) ≤ (4 - s.tiers.spread) * 4096 →
    s.areaGranted m.tenant .tier1 (kvListAddr (natOfBytes bs)) (kvListBytes (natOfBytes bs)) = true →
    kvPeer (natOfBytes bs) = true ∨ s.areaGranted m.tenant .tier2 (kvParkAddr (natOfBytes bs)) (kvParkBytes (natOfBytes bs)) = true
    → s.kvGeom (kvModel (natOfBytes bs)) = none →
    Gives (.kvGeomReg iss t) s (fun u => u.kv = { s.kv with geoms := Table.put s.kv.geoms (kvModel (natOfBytes bs)) (BitVec.ofNat 512 (natOfBytes bs)) }
    ∧ u.mem = s.mem ∧ s.gave u iss 2 0x0502 a 0 [] ∧ s.sameHif u
    ∧ Keeps [.time, .mem, .hif, .pilot, .kv, .agent] s u)) ∧
  (∀ (s : State) (iss : Issuer) (t : Nat) (a : Admitted), s.serves iss 2 0x0503 a →
    (msgArg a.msg.toNat 0) < 4096 →
    Gives (.serveRsv iss t) s (fun u => ((List.range 12).all (fun st => (u.stackUnit st).serveRsv == if bit (msgArg a.msg.toNat 0) st then BitVec.ofNat 8 (min 192 (msgArg a.msg.toNat 1)) else (s.stackUnit st).serveRsv)) = true
    ∧ s.gave u iss 2 0x0503 a 0 [] ∧ s.sameHif u ∧ Keeps [.time, .tiles, .hif, .graph, .stks] s u)) ∧
  (∀ (s : State) (iss : Issuer) (t : Nat) (a : Admitted), s.serves iss 2 0x0504 a →
    (msgArg a.msg.toNat 3) < 16 →
    Gives (.serveCfg iss t) s (fun u => u.serving = { s.serving with stopUs := BitVec.ofNat 16 (msgArg a.msg.toNat 0), slowThresh := BitVec.ofNat 16 (msgArg a.msg.toNat 1), slowWin := BitVec.ofNat 8 (msgArg a.msg.toNat 2), slowConsec := BitVec.ofNat 4 (msgArg a.msg.toNat 3) }
    ∧ s.gave u iss 2 0x0504 a 0 [] ∧ s.sameHif u ∧ Keeps [.time, .hif, .serving] s u)) ∧
  (∀ (s : State) (iss : Issuer) (t : Nat) (a : Admitted), s.serves iss 2 0x0504 a →
    16 ≤ (msgArg a.msg.toNat 3) → Gives (.serveCfg iss t) s (fun u => u.serving = s.serving
    ∧ s.gave u iss 2 0x0504 a ST_MBX_ARG [] ∧ s.sameHif u ∧ Keeps [.time, .hif] s u))

/-- MEM_MAP answers counts, masks, tops and bases; MEM_RESV answers a reservation; T2_RETRAIN begins
a retraining and answers its duration; T2_RETRAIN_CFG, SCRUB_CFG and CE_CFG set the registers
named; BERTH_TABLE keeps the table read and refuses one with a berth twice; FAB_ENABLE starts
every licensed enabled port; PORT_CFG sets limits and disables a port; PORT_RETRAIN answers
the width at its end; FAB_CFG sets the limit of answers; TWIN_CFG its fields; TWIN_TAKEOVER
begins in STATE 1 and 2 and answers the entries taken; TWIN_RESYNC begins with STATE 5. -/
def Obligations.ModuleCommands : Prop :=
  (∀ (s : State) (iss : Issuer) (t : Nat) (a : Admitted), s.serves iss 2 0x0600 a →
    Gives (.memMap iss t) s (fun u => s.gave u iss 2 0x0600 a 0 ([s.tiers.spread, s.chList.length,
    s.chList.foldl (fun m c => m + 2 ^ c) 0] ++ (List.range 12).map s.pcCount ++ [s.t1Top,
    s.t2Top] ++ (List.range 12).map s.stackBase) ∧ s.sameHif u ∧ Keeps [.time, .hif] s u)) ∧
  (∀ (s : State) (iss : Issuer) (t : Nat) (a : Admitted), s.serves iss 2 0x0601 a →
    (msgArg a.msg.toNat 0) ≤ 6 →
    Gives (.memResv iss t) s (fun u => s.gave u iss 2 0x0601 a 0 [(s.resv (msgArg a.msg.toNat 0)).1,
    (s.resv (msgArg a.msg.toNat 0)).2] ∧ s.sameHif u ∧ Keeps [.time, .hif] s u)) ∧
  (∀ (s : State) (iss : Issuer) (t : Nat) (a : Admitted), s.serves iss 2 0x0601 a →
    6 < (msgArg a.msg.toNat 0) → Gives (.memResv iss t) s (fun u => s.gave u iss 2 0x0601 a ST_MBX_ARG []
    ∧ s.sameHif u ∧ Keeps [.time, .hif] s u)) ∧
  (∀ (s : State) (iss : Issuer) (t : Nat) (a : Admitted), s.serves iss 2 0x0602 a →
    (msgArg a.msg.toNat 0) < 16 → a.started = false → (s.chan (msgArg a.msg.toNat 0)).state = 1 →
    s.tiers.merge = [] →
    (List.range 16).all (fun k => k / 8 != (msgArg a.msg.toNat 0) / 8 || (s.chan k).state != 2) = true →
    Gives (.t2Retrain iss t) s (fun u => (u.chan (msgArg a.msg.toNat 0)) = { s.chan (msgArg a.msg.toNat 0) with state := 2, attempt := 1, selfRefresh := true, cause := 3, since := u.time }
    ∧ OnlyAt s.tiers.chans u.tiers.chans (msgArg a.msg.toNat 0) ∧ u.tiers.merge = s.tiers.merge
    ∧ u.tiers.integ = s.tiers.integ ∧ s.began u 2 a ∧ s.sameHif u
    ∧ Keeps [.time, .tiers, .events, .trace, .hif] s u)) ∧
  (∀ (s : State) (iss : Issuer) (t : Nat) (a : Admitted), s.serves iss 2 0x0602 a →
    (msgArg a.msg.toNat 0) < 16 → a.started = true → (s.chan (msgArg a.msg.toNat 0)).state = 1 →
    (s.chan (msgArg a.msg.toNat 0)).cause ≠ 3 →
    Gives (.t2Retrain iss t) s (fun u => s.gave u iss 2 0x0602 a 0 [(s.chan (msgArg a.msg.toNat 0)).lastUs.toNat]
    ∧ s.sameHif u ∧ Keeps [.time, .events, .trace, .hif] s u)) ∧
  (∀ (s : State) (iss : Issuer) (t : Nat) (a : Admitted), s.serves iss 2 0x0602 a →
    (msgArg a.msg.toNat 0) < 16 → a.started = false → (s.chan (msgArg a.msg.toNat 0)).state = 2 →
    Gives (.t2Retrain iss t) s (fun u => s.gave u iss 2 0x0602 a ST_T2_RETRAIN_BUSY [] ∧ s.sameHif u
    ∧ Keeps [.time, .events, .trace, .hif] s u)) ∧
  (∀ (s : State) (iss : Issuer) (t : Nat) (a : Admitted), s.serves iss 2 0x0602 a →
    (msgArg a.msg.toNat 0) < 16 → (s.chan (msgArg a.msg.toNat 0)).state ≠ 1 →
    (s.chan (msgArg a.msg.toNat 0)).state ≠ 2 →
    Gives (.t2Retrain iss t) s (fun u => s.gave u iss 2 0x0602 a ST_T2_CH_DOWN [] ∧ s.sameHif u
    ∧ Keeps [.time, .events, .trace, .hif] s u)) ∧
  (∀ (s : State) (iss : Issuer) (t : Nat) (a : Admitted), s.serves iss 2 0x0603 a →
    (msgArg a.msg.toNat 0) < 16 → (msgArg a.msg.toNat 1) < 2 →
    Gives (.t2RetrainCfg iss t) s (fun u => (u.chan (msgArg a.msg.toNat 0)) = { s.chan (msgArg a.msg.toNat 0) with tempEn := (msgArg a.msg.toNat 1) == 1, errThresh := BitVec.ofNat 16 (msgArg a.msg.toNat 2) }
    ∧ OnlyAt s.tiers.chans u.tiers.chans (msgArg a.msg.toNat 0) ∧ u.tiers.merge = s.tiers.merge
    ∧ u.tiers.integ = s.tiers.integ ∧ s.gave u iss 2 0x0603 a 0 [] ∧ s.sameHif u
    ∧ Keeps [.time, .tiers, .hif] s u)) ∧
  (∀ (s : State) (iss : Issuer) (t : Nat) (a : Admitted), s.serves iss 2 0x0604 a →
    (msgArg a.msg.toNat 0) = 3 → (msgArg a.msg.toNat 2) < 4096 →
    Gives (.scrubCfg iss t) s (fun u => ((List.range 64).all (fun i => decide (u.integ i = if i < 12 && bit (msgArg a.msg.toNat 2) i then { s.integ i with passH := BitVec.ofNat 8 (msgArg a.msg.toNat 1) } else s.integ i))) = true
    ∧ ((List.range 16).all (fun i => decide (u.integ (64 + i) = s.integ (64 + i)))) = true
    ∧ u.tiers.chans = s.tiers.chans ∧ s.gave u iss 2 0x0604 a 0 [] ∧ s.sameHif u
    ∧ Keeps [.time, .tiers, .hif] s u)) ∧
  (∀ (s : State) (iss : Issuer) (t : Nat) (a : Admitted), s.serves iss 2 0x0604 a →
    (msgArg a.msg.toNat 0) = 4 →
    Gives (.scrubCfg iss t) s (fun u => ((List.range 16).all (fun i => decide (u.integ (64 + i) = if bit (msgArg a.msg.toNat 2) i then { s.integ (64 + i) with passH := BitVec.ofNat 8 (msgArg a.msg.toNat 1) } else s.integ (64 + i)))) = true
    ∧ ((List.range 64).all (fun i => decide (u.integ i = s.integ i))) = true ∧ u.tiers.chans = s.tiers.chans
    ∧ s.gave u iss 2 0x0604 a 0 [] ∧ s.sameHif u ∧ Keeps [.time, .tiers, .hif] s u)) ∧
  (∀ (s : State) (iss : Issuer) (t : Nat) (a : Admitted), s.serves iss 2 0x0605 a →
    (msgArg a.msg.toNat 0) = 1 → (msgArg a.msg.toNat 1) < 64 →
    Gives (.ceCfg iss t) s (fun u => u.quay (msgArg a.msg.toNat 1) = { s.quay (msgArg a.msg.toNat 1) with ceCap := BitVec.ofNat 16 (msgArg a.msg.toNat 2), ceLeakMs := BitVec.ofNat 16 (msgArg a.msg.toNat 3) }
    ∧ ((List.range 64).all (fun q => q == (msgArg a.msg.toNat 1) || decide (u.quay q = s.quay q))) = true
    ∧ s.gave u iss 2 0x0605 a 0 [] ∧ s.sameHif u ∧ Keeps [.time, .quays, .hif] s u)) ∧
  (∀ (s : State) (iss : Issuer) (t : Nat) (a : Admitted) (k : Nat), s.serves iss 2 0x0605 a →
    (msgArg a.msg.toNat 0) = 3 ∧ (msgArg a.msg.toNat 1) < 12
    ∧ k = (msgArg a.msg.toNat 1) ∨ (msgArg a.msg.toNat 0) = 4 ∧ (msgArg a.msg.toNat 1) < 16
    ∧ k = 64 + (msgArg a.msg.toNat 1) →
    Gives (.ceCfg iss t) s (fun u => u.integ k = { s.integ k with cap := BitVec.ofNat 16 (msgArg a.msg.toNat 2), leakMs := BitVec.ofNat 16 (msgArg a.msg.toNat 3) }
    ∧ OnlyAt s.tiers.integ u.tiers.integ k ∧ u.tiers.chans = s.tiers.chans ∧ s.gave u iss 2 0x0605 a 0 []
    ∧ s.sameHif u ∧ Keeps [.time, .tiers, .hif] s u)) ∧
  (∀ (s : State) (iss : Issuer) (t : Nat) (a : Admitted), s.serves iss 2 0x0605 a →
    (msgArg a.msg.toNat 0) ≠ 1 → (msgArg a.msg.toNat 0) ≠ 3 → (msgArg a.msg.toNat 0) ≠ 4 →
    Gives (.ceCfg iss t) s (fun u => s.gave u iss 2 0x0605 a ST_MBX_ARG [] ∧ s.sameHif u
    ∧ Keeps [.time, .hif] s u)) ∧
  (∀ (s : State) (iss : Issuer) (t : Nat) (a : Admitted) (k : Nat) (bs : List Byte) (es : List (BitVec 64 × Bool × BitVec 13)),
    s.serves iss 2 0x0700 a →
    (s.at t).accessCheck 0 false (msgArg a.msg.toNat 0) (16 * (msgArg a.msg.toNat 1)) = none →
    s.region (msgArg a.msg.toNat 0) = .spad k → s.bring.tilesFilled = true → s.logging = false →
    (msgArg a.msg.toNat 0) % 8 = 0 →
    (msgArg a.msg.toNat 0) + (16 * (msgArg a.msg.toNat 1)) ≤ s.regionEnd (msgArg a.msg.toNat 0) →
    Mem.readBytes s.mem (msgArg a.msg.toNat 0) (16 * (msgArg a.msg.toNat 1)) = some bs →
    (msgArg a.msg.toNat 0) < 2 ^ 48 → (msgArg a.msg.toNat 1) ≠ 0 →
    berthEntries (natOfBytes bs) (msgArg a.msg.toNat 1) = some es →
    es.map Prod.fst = (es.map Prod.fst).eraseDups → es.map Prod.snd = (es.map Prod.snd).eraseDups →
    Gives (.berthTable iss t) s (fun u => u.fab = { s.fab with berthTable := es } ∧ u.mem = s.mem
    ∧ s.gave u iss 2 0x0700 a 0 [] ∧ s.sameHif u ∧ Keeps [.time, .mem, .hif, .fab, .pilot, .agent] s u)) ∧
  (∀ (s : State) (iss : Issuer) (t : Nat) (a : Admitted) (k : Nat) (bs : List Byte) (es : List (BitVec 64 × Bool × BitVec 13)),
    s.serves iss 2 0x0700 a →
    (s.at t).accessCheck 0 false (msgArg a.msg.toNat 0) (16 * (msgArg a.msg.toNat 1)) = none →
    s.region (msgArg a.msg.toNat 0) = .spad k → s.bring.tilesFilled = true → s.logging = false →
    (msgArg a.msg.toNat 0) % 8 = 0 →
    (msgArg a.msg.toNat 0) + (16 * (msgArg a.msg.toNat 1)) ≤ s.regionEnd (msgArg a.msg.toNat 0) →
    Mem.readBytes s.mem (msgArg a.msg.toNat 0) (16 * (msgArg a.msg.toNat 1)) = some bs →
    (msgArg a.msg.toNat 0) < 2 ^ 48 → (msgArg a.msg.toNat 1) ≠ 0 →
    berthEntries (natOfBytes bs) (msgArg a.msg.toNat 1) = some es →
    es.map Prod.fst ≠ (es.map Prod.fst).eraseDups ∨ es.map Prod.snd ≠ (es.map Prod.snd).eraseDups →
    Gives (.berthTable iss t) s (fun u => u.fab = s.fab ∧ s.gave u iss 2 0x0700 a ST_FAB_BERTH_TABLE []
    ∧ s.sameHif u ∧ Keeps [.time, .mem, .hif, .fab, .pilot, .agent] s u)) ∧
  (∀ (s : State) (iss : Issuer) (t : Nat) (a : Admitted), s.serves iss 2 0x0701 a → s.fab.step = 0 →
    s.fab.twinMode = false ∨ s.licences.getLsbD 3 = true →
    Gives (.fabEnable iss t) s (fun u => ((List.range 16).all (fun p => decide (u.port p = if !s.portLicensed p then { s.port p with state := 5 } else if !(s.port p).en then { s.port p with state := 0 } else if (s.port p).state == 0 || (s.port p).state == 4 || (s.port p).state == 5 then (s.port p).train u.time else s.port p))) = true
    ∧ u.fab.step = 1 ∧ u.fab.stepAt = u.time ∧ u.fab.rt = s.fab.rt ∧ u.fab.inbox = s.fab.inbox
    ∧ u.fab.adverts = s.fab.adverts ∧ s.gave u iss 2 0x0701 a 0 [] ∧ s.sameHif u
    ∧ Keeps [.time, .hif, .fab] s u)) ∧
  (∀ (s : State) (iss : Issuer) (t : Nat) (a : Admitted), s.serves iss 2 0x0701 a → s.fab.twinMode = true →
    s.licences.getLsbD 3 = false → Gives (.fabEnable iss t) s (fun u => u.fab = s.fab
    ∧ s.gave u iss 2 0x0701 a ST_FAB_UNLICENSED [] ∧ s.sameHif u ∧ Keeps [.time, .hif] s u)) ∧
  (∀ (s : State) (iss : Issuer) (t : Nat) (a : Admitted), s.serves iss 2 0x0702 a →
    (msgArg a.msg.toNat 0) < 16 → (s.port (msgArg a.msg.toNat 0)).en = ((msgArg a.msg.toNat 1) == 1) →
    (msgArg a.msg.toNat 1) < 2 → (msgArg a.msg.toNat 1) = 1 → s.portLicensed (msgArg a.msg.toNat 0) = true →
    Gives (.portCfg iss t) s (fun u => (u.port (msgArg a.msg.toNat 0)) = { s.port (msgArg a.msg.toNat 0) with ucwThresh := BitVec.ofNat 8 (msgArg a.msg.toNat 2), replayThresh := BitVec.ofNat 16 (msgArg a.msg.toNat 3) }
    ∧ OnlyAt s.fab.ports u.fab.ports (msgArg a.msg.toNat 0) ∧ u.fab.rt = s.fab.rt
    ∧ u.fab.inbox = s.fab.inbox ∧ s.gave u iss 2 0x0702 a 0 [] ∧ s.sameHif u
    ∧ Keeps [.time, .hif, .fab] s u)) ∧
  (∀ (s : State) (iss : Issuer) (t : Nat) (a : Admitted), s.serves iss 2 0x0702 a →
    (msgArg a.msg.toNat 0) < 16 → (s.port (msgArg a.msg.toNat 0)).en = true → (msgArg a.msg.toNat 1) = 0 →
    s.fab.waitQ = [] → Gives (.portCfg iss t) s (fun u => (u.port (msgArg a.msg.toNat 0)).en = false
    ∧ (u.port (msgArg a.msg.toNat 0)).state = (if (s.port (msgArg a.msg.toNat 0)).state = 5 then 5 else 0)
    ∧ (u.port (msgArg a.msg.toNat 0)).ucwThresh = BitVec.ofNat 8 (msgArg a.msg.toNat 2)
    ∧ (u.port (msgArg a.msg.toNat 0)).replayThresh = BitVec.ofNat 16 (msgArg a.msg.toNat 3)
    ∧ (u.port (msgArg a.msg.toNat 0)).retry = [] ∧ (u.port (msgArg a.msg.toNat 0)).credits = []
    ∧ u.fab.advertAt = 0 ∧ u.fab.advertChanged = u.time
    ∧ OnlyAt s.fab.ports u.fab.ports (msgArg a.msg.toNat 0) ∧ u.fab.rt = s.fab.rt
    ∧ u.fab.inbox = s.fab.inbox ∧ s.gave u iss 2 0x0702 a 0 [] ∧ s.sameHif u
    ∧ Keeps [.time, .hif, .fab] s u)) ∧
  (∀ (s : State) (iss : Issuer) (t : Nat) (a : Admitted), s.serves iss 2 0x0702 a →
    (msgArg a.msg.toNat 0) < 16 → (msgArg a.msg.toNat 1) = 1 → s.portLicensed (msgArg a.msg.toNat 0) = false
    → Gives (.portCfg iss t) s (fun u => u.fab = s.fab ∧ s.gave u iss 2 0x0702 a ST_FAB_UNLICENSED []
    ∧ s.sameHif u ∧ Keeps [.time, .hif] s u)) ∧
  (∀ (s : State) (iss : Issuer) (t : Nat) (a : Admitted), s.serves iss 2 0x0703 a →
    (msgArg a.msg.toNat 0) < 16 → a.started = false →
    (s.port (msgArg a.msg.toNat 0)).state = 2 ∨ (s.port (msgArg a.msg.toNat 0)).state = 4 →
    Gives (.portRetrain iss t) s (fun u => (u.port (msgArg a.msg.toNat 0)) = { s.port (msgArg a.msg.toNat 0) with state := 3, attempt := 1, since := u.time }
    ∧ OnlyAt s.fab.ports u.fab.ports (msgArg a.msg.toNat 0) ∧ u.fab.rt = s.fab.rt
    ∧ u.fab.inbox = s.fab.inbox ∧ s.began u 2 a ∧ s.sameHif u ∧ Keeps [.time, .hif, .fab] s u)) ∧
  (∀ (s : State) (iss : Issuer) (t : Nat) (a : Admitted), s.serves iss 2 0x0703 a →
    (msgArg a.msg.toNat 0) < 16 → a.started = true → (s.port (msgArg a.msg.toNat 0)).state = 2 →
    Gives (.portRetrain iss t) s (fun u => s.gave u iss 2 0x0703 a 0 [(s.port (msgArg a.msg.toNat 0)).lanes.toNat]
    ∧ s.sameHif u ∧ Keeps [.time, .hif] s u)) ∧
  (∀ (s : State) (iss : Issuer) (t : Nat) (a : Admitted), s.serves iss 2 0x0703 a →
    (msgArg a.msg.toNat 0) < 16 → a.started = false → (s.port (msgArg a.msg.toNat 0)).state ≠ 2 →
    (s.port (msgArg a.msg.toNat 0)).state ≠ 3 → (s.port (msgArg a.msg.toNat 0)).state ≠ 4 →
    s.portLicensed (msgArg a.msg.toNat 0) = true →
    Gives (.portRetrain iss t) s (fun u => s.gave u iss 2 0x0703 a ST_FAB_PORT_DOWN [] ∧ s.sameHif u
    ∧ Keeps [.time, .hif] s u)) ∧
  (∀ (s : State) (iss : Issuer) (t : Nat) (a : Admitted), s.serves iss 2 0x0704 a →
    Gives (.fabCfg iss t) s (fun u => u.fab = { s.fab with timeoutMs := BitVec.ofNat 16 (msgArg a.msg.toNat 0) }
    ∧ s.gave u iss 2 0x0704 a 0 [] ∧ s.sameHif u ∧ Keeps [.time, .hif, .fab] s u)) ∧
  (∀ (s : State) (iss : Issuer) (t : Nat) (a : Admitted), s.serves iss 2 0x0705 a →
    (msgArg a.msg.toNat 0) < 2 → (msgArg a.msg.toNat 1) < 4096 → (msgArg a.msg.toNat 2) < 4096 →
    Gives (.twinCfg iss t) s (fun u => u.fab = { s.fab with twin := { s.fab.twin with auto := (msgArg a.msg.toNat 0) == 1, holdMs := BitVec.ofNat 12 (msgArg a.msg.toNat 1), takeoverMs := BitVec.ofNat 12 (msgArg a.msg.toNat 2) } }
    ∧ s.gave u iss 2 0x0705 a 0 [] ∧ s.sameHif u ∧ Keeps [.time, .hif, .fab] s u)) ∧
  (∀ (s : State) (iss : Issuer) (t : Nat) (a : Admitted), s.serves iss 2 0x0705 a →
    2 ≤ (msgArg a.msg.toNat 0) ∨ 4096 ≤ (msgArg a.msg.toNat 1) ∨ 4096 ≤ (msgArg a.msg.toNat 2) →
    Gives (.twinCfg iss t) s (fun u => u.fab = s.fab ∧ s.gave u iss 2 0x0705 a ST_MBX_ARG [] ∧ s.sameHif u
    ∧ Keeps [.time, .hif] s u)) ∧
  (∀ (s : State) (iss : Issuer) (t : Nat) (a : Admitted), s.serves iss 2 0x0706 a → a.started = false →
    s.fab.twinMode = true → s.fab.twin.state = 1 ∨ s.fab.twin.state = 2 →
    Gives (.twinTakeover iss t) s (fun u => u.fab = { s.fab with twin := { s.fab.twin with takeoverAt := some u.time } }
    ∧ s.began u 2 a ∧ s.sameHif u ∧ Keeps [.time, .hif, .fab] s u)) ∧
  (∀ (s : State) (iss : Issuer) (t : Nat) (a : Admitted), s.serves iss 2 0x0706 a → a.started = true →
    s.fab.twin.takeoverAt = none → Gives (.twinTakeover iss t) s (fun u => u.fab = s.fab
    ∧ s.gave u iss 2 0x0706 a 0 [s.fab.twin.taken] ∧ s.sameHif u ∧ Keeps [.time, .hif, .fab] s u)) ∧
  (∀ (s : State) (iss : Issuer) (t : Nat) (a : Admitted), s.serves iss 2 0x0706 a → a.started = false →
    s.fab.twin.state ≠ 1 → s.fab.twin.state ≠ 2 → Gives (.twinTakeover iss t) s (fun u => u.fab = s.fab
    ∧ s.gave u iss 2 0x0706 a ST_MBX_ARG [] ∧ s.sameHif u ∧ Keeps [.time, .hif, .fab] s u)) ∧
  (∀ (s : State) (iss : Issuer) (t : Nat) (a : Admitted), s.serves iss 2 0x0707 a → s.fab.twinMode = true →
    (s.port 14).state = 2 ∨ (s.port 15).state = 2 → s.serving.entries = [] →
    Gives (.twinResync iss t) s (fun u => u.fab = { s.fab with twin := { s.fab.twin with state := 5, resyncEnd := some s.fab.twin.tx } }
    ∧ s.gave u iss 2 0x0707 a 0 [] ∧ s.sameHif u ∧ Keeps [.time, .hif, .fab, .pilot] s u)) ∧
  (∀ (s : State) (iss : Issuer) (t : Nat) (a : Admitted), s.serves iss 2 0x0707 a → s.fab.twinMode = true →
    (s.port 14).state = 2 ∨ (s.port 15).state = 2 →
    Gives (.twinResync iss t) s (fun u => u.fab.twin.state = 5 ∧ u.fab.twin.resyncEnd = some u.fab.twin.tx
    ∧ (s.serving.entries.all (fun e => e.2.state == 0 || !s.srvOwn e.1 || decide (u.srvE e.1 = (s.srvE e.1).setFlag 0 true))) = true
    ∧ u.serving.models = s.serving.models ∧ u.serving.cache = s.serving.cache
    ∧ u.serving.outs = s.serving.outs ∧ s.gave u iss 2 0x0707 a 0 [] ∧ s.sameHif u
    ∧ Keeps [.time, .mem, .quays, .tiers, .events, .trace, .hif, .log, .fab, .pilot, .serving] s u)) ∧
  (∀ (s : State) (iss : Issuer) (t : Nat) (a : Admitted), s.serves iss 2 0x0707 a → s.fab.twinMode = false →
    Gives (.twinResync iss t) s (fun u => u.fab = s.fab ∧ s.gave u iss 2 0x0707 a ST_MBX_ARG []
    ∧ s.sameHif u ∧ Keeps [.time, .hif, .pilot] s u))

/-- LOG_START and LOG_MARK begin a mark: queue reading stops until it ends; LOG_STOP ends recording
and answers NEXT; REPLAY_START judges the header of the ring and then replays from the MARK
named; REPLAY_STOP ends replay, disables the hardware queues and keeps the state; TRC_CFG sets
EN and MODE of the 65 units, and with SNAP copies every counter at once; TRC_SINK divides the
sink into 65 parts and refuses while a unit is enabled. -/
def Obligations.RecordCommands : Prop :=
  (∀ (s : State) (iss : Issuer) (t : Nat) (a : Admitted), s.serves iss 2 0x0800 a → s.log.mark = none →
    (msgArg a.msg.toNat 0) < 2 → (msgArg a.msg.toNat 1) = 0 → (s.resv 6).2 ≠ 0 → s.log.replayFrom = none →
    Gives (.logStart iss t) s (fun u => u.log = { s.log with mark := some { start := true, since := u.time, wrap := (msgArg a.msg.toNat 0) == 1, issuer := some iss }, paused := true }
    ∧ s.began u 2 a ∧ s.sameHif u ∧ Keeps [.time, .hif, .log] s u)) ∧
  (∀ (s : State) (iss : Issuer) (t : Nat) (a : Admitted), s.serves iss 2 0x0800 a → s.log.mark = none →
    (msgArg a.msg.toNat 0) < 2 → (msgArg a.msg.toNat 1) = 1 → (s.resv 6).2 ≠ 0 → s.log.replayFrom = none →
    s.fab.rt = [] → s.fab.adverts = [] → s.logging = false →
    Gives (.logStart iss t) s (fun u => u.log = { s.log with mark := some { start := true, since := u.time, wrap := (msgArg a.msg.toNat 0) == 1, issuer := some iss }, paused := true }
    ∧ s.began u 2 a ∧ s.sameHif u ∧ Keeps [.time, .hif, .log, .fab] s u)) ∧
  (∀ (s : State) (iss : Issuer) (t : Nat) (a : Admitted), s.serves iss 2 0x0800 a → s.log.mark = none →
    2 ≤ (msgArg a.msg.toNat 0) ∨ 2 ≤ (msgArg a.msg.toNat 1) ∨ (s.resv 6).2 = 0 ∨ s.log.replayFrom.isSome = true
    → Gives (.logStart iss t) s (fun u => u.log = s.log ∧ s.gave u iss 2 0x0800 a ST_MBX_ARG []
    ∧ s.sameHif u ∧ Keeps [.time, .hif] s u)) ∧
  (∀ (s : State) (iss : Issuer) (t : Nat) (a : Admitted), s.serves iss 2 0x0802 a → s.log.mark = none →
    (msgArg a.msg.toNat 0) = 0 → s.log.recording = true →
    Gives (.logMark iss t) s (fun u => u.log = { s.log with mark := some { start := false, since := u.time, wrap := false, issuer := some iss }, paused := true }
    ∧ s.began u 2 a ∧ s.sameHif u ∧ Keeps [.time, .hif, .log] s u)) ∧
  (∀ (s : State) (iss : Issuer) (t : Nat) (a : Admitted), s.serves iss 2 0x0802 a → s.log.mark = none →
    s.log.recording = false → Gives (.logMark iss t) s (fun u => u.log = s.log
    ∧ s.gave u iss 2 0x0802 a ST_MBX_ARG [] ∧ s.sameHif u ∧ Keeps [.time, .hif] s u)) ∧
  (∀ (s : State) (iss : Issuer) (t : Nat) (a : Admitted), s.serves iss 2 0x0801 a → s.log.recording = true →
    s.log.points = [] → Gives (.logStop iss t) s (fun u => u.log = { s.log with recording := false }
    ∧ SameOutside s.mem u.mem ((s.resv 6).1 / 128 * 128) ((s.resv 6).1 + 256)
    ∧ s.gave u iss 2 0x0801 a 0 [s.log.nextRec] ∧ s.sameHif u
    ∧ Keeps [.time, .mem, .events, .trace, .hif, .log] s u)) ∧
  (∀ (s : State) (iss : Issuer) (t : Nat) (a : Admitted), s.serves iss 2 0x0801 a → s.log.recording = false
    → Gives (.logStop iss t) s (fun u => u.log = s.log ∧ s.gave u iss 2 0x0801 a 0 [s.log.nextRec]
    ∧ s.sameHif u ∧ Keeps [.time, .hif] s u)) ∧
  (∀ (s : State) (iss : Issuer) (t : Nat) (a : Admitted) (bs : List Byte) (rs : List (Option Nat)) (r : Nat),
    s.serves iss 2 0x0803 a → s.readMem (s.resv 6).1 64 = some bs → (s.resv 6).2 ≠ 0 →
    s.log.recording = false → s.log.replayFrom = none → byteField (natOfBytes bs) 0 3 = 0x720801 →
    ({ s with log := { s.log with first := byteField (natOfBytes bs) 0x20 8, nextRec := byteField (natOfBytes bs) 0x28 8 } } : State).logRecords (msgArg a.msg.toNat 0) = rs
    → byteField (natOfBytes bs) 0x20 8 ≤ (msgArg a.msg.toNat 0) →
    (msgArg a.msg.toNat 0) < byteField (natOfBytes bs) 0x28 8 →
    (rs.all (fun r => (r.map (fun x => recKind x != 5)).getD false)) = true → rs.head? = some (some r) →
    recKind r = 4 → bit r 20 = true →
    Gives (.replayStart iss t) s (fun u => ((byteField (natOfBytes bs) 0x18 8 = s.mapSum
    ∧ byteField (natOfBytes bs) 0x10 8 = s.configSum ∧ byteField (natOfBytes bs) 4 4 = s.fwVer) →
    s.gave u iss 2 0x0803 a 0 [] ∧ u.log.replayFrom = some (msgArg a.msg.toNat 0) ∧ u.log.held = false
    ∧ u.log.nextRec = byteField (natOfBytes bs) 0x28 8 ∧ u.log.points = replayPoints rs [])
    ∧ ((byteField (natOfBytes bs) 0x18 8 ≠ s.mapSum ∨ byteField (natOfBytes bs) 0x10 8 ≠ s.configSum ∨ byteField (natOfBytes bs) 4 4 ≠ s.fwVer)
    → s.gave u iss 2 0x0803 a ST_REPLAY_CONFIG [] ∧ u.log = s.log) ∧ s.sameHif u
    ∧ Keeps [.time, .hif, .log] s u)) ∧
  (∀ (s : State) (iss : Issuer) (t : Nat) (a : Admitted), s.serves iss 2 0x0803 a →
    s.log.replayFrom.isSome = true ∨ s.log.recording = true →
    Gives (.replayStart iss t) s (fun u => u.log = s.log ∧ s.gave u iss 2 0x0803 a ST_MBX_ARG []
    ∧ s.sameHif u ∧ Keeps [.time, .hif] s u)) ∧
  (∀ (s : State) (iss : Issuer) (t : Nat) (a : Admitted), s.serves iss 2 0x0804 a →
    s.log.replayFrom.isSome = true → s.log.held = false →
    Gives (.replayStop iss t) s (fun u => u.log = { s.log with held := true, replayPos := s.log.nextRec }
    ∧ (u.graph.queues.all (fun q => !q.2.enabled)) = true ∧ u.graph.graphs = s.graph.graphs
    ∧ u.graph.entries = s.graph.entries ∧ s.raised u [ST_REPLAY_END] ∧ s.gave u iss 2 0x0804 a 0 []
    ∧ s.sameHif u ∧ Keeps [.time, .events, .trace, .hif, .log, .graph] s u)) ∧
  (∀ (s : State) (iss : Issuer) (t : Nat) (a : Admitted), s.serves iss 2 0x0804 a → s.log.replayFrom = none
    → Gives (.replayStop iss t) s (fun u => u.log = s.log ∧ u.graph = s.graph
    ∧ s.gave u iss 2 0x0804 a ST_MBX_ARG [] ∧ s.sameHif u ∧ Keeps [.time, .hif] s u)) ∧
  (∀ (s : State) (iss : Issuer) (t : Nat) (a : Admitted), s.serves iss 2 0x0B00 a →
    bits (msgArg a.msg.toNat 1) 4 3 = 0 → bit (msgArg a.msg.toNat 1) 7 = false →
    s.trace.sinkPages ≠ 0 ∨ ((msgArg a.msg.toNat 0) = 0 ∧ bit (msgArg a.msg.toNat 1) 3 = false) →
    Gives (.trcCfg iss t) s (fun u => ((List.range 65).all (fun k => decide (u.unit k = if k < 64 then { s.unit k with en := bit (msgArg a.msg.toNat 0) k, mode := BitVec.ofNat 3 (msgArg a.msg.toNat 1) } else { s.unit 64 with en := bit (msgArg a.msg.toNat 1) 3, mode := BitVec.ofNat 3 ((msgArg a.msg.toNat 1) % 4) }))) = true
    ∧ u.trace.sinkAddr = s.trace.sinkAddr ∧ u.trace.sinkPages = s.trace.sinkPages
    ∧ u.trace.quayCnt = s.trace.quayCnt ∧ u.trace.tenCnt = s.trace.tenCnt ∧ u.trace.modCnt = s.trace.modCnt
    ∧ u.trace.quayShadow = s.trace.quayShadow ∧ u.trace.modShadow = s.trace.modShadow
    ∧ u.trace.tenShadow = s.trace.tenShadow ∧ u.trace.snapTime = s.trace.snapTime
    ∧ u.trace.snapSeq = s.trace.snapSeq ∧ s.gave u iss 2 0x0B00 a 0 [] ∧ s.sameHif u
    ∧ Keeps [.time, .free, .trace, .hif] s u)) ∧
  (∀ (s : State) (iss : Issuer) (t : Nat) (a : Admitted), s.serves iss 2 0x0B00 a →
    bits (msgArg a.msg.toNat 1) 4 3 = 0 → bit (msgArg a.msg.toNat 1) 7 = false → s.trace.sinkPages = 0 →
    (msgArg a.msg.toNat 0) ≠ 0 ∨ bit (msgArg a.msg.toNat 1) 3 = true →
    Gives (.trcCfg iss t) s (fun u => u.trace = s.trace ∧ s.gave u iss 2 0x0B00 a ST_TRC_NO_SINK []
    ∧ s.sameHif u ∧ Keeps [.time, .free, .hif] s u)) ∧
  (∀ (s : State) (iss : Issuer) (t : Nat) (a : Admitted), s.serves iss 2 0x0B00 a →
    bits (msgArg a.msg.toNat 1) 4 3 = 0 → bit (msgArg a.msg.toNat 1) 7 = true →
    s.trace.sinkPages ≠ 0 ∨ ((msgArg a.msg.toNat 0) = 0 ∧ bit (msgArg a.msg.toNat 1) 3 = false) →
    Gives (.counterSnapshot iss t) s (fun u => ((List.range 65).all (fun k => decide (u.unit k = if k < 64 then { s.unit k with en := bit (msgArg a.msg.toNat 0) k, mode := BitVec.ofNat 3 (msgArg a.msg.toNat 1) } else { s.unit 64 with en := bit (msgArg a.msg.toNat 1) 3, mode := BitVec.ofNat 3 ((msgArg a.msg.toNat 1) % 4) }))) = true
    ∧ u.trace.sinkAddr = s.trace.sinkAddr ∧ u.trace.sinkPages = s.trace.sinkPages
    ∧ u.trace.quayShadow = s.trace.quayCnt ∧ u.trace.modShadow = s.trace.modCnt
    ∧ u.trace.tenShadow = s.trace.tenCnt ∧ u.trace.snapTime = BitVec.ofNat 64 u.time
    ∧ u.trace.snapSeq = s.trace.snapSeq + 1 ∧ u.trace.quayCnt = s.trace.quayCnt
    ∧ u.trace.tenCnt = s.trace.tenCnt ∧ s.gave u iss 2 0x0B00 a 0 [] ∧ s.sameHif u
    ∧ Keeps [.time, .free, .trace, .hif] s u)) ∧
  (∀ (s : State) (iss : Issuer) (t : Nat) (a : Admitted), s.serves iss 2 0x0B01 a →
    ((List.range 65).all (fun k => !(s.unit k).en)) = true → (msgArg a.msg.toNat 0) % 4096 = 0 →
    (msgArg a.msg.toNat 1) % 4096 = 0 → 266240 ≤ (msgArg a.msg.toNat 1) → (msgArg a.msg.toNat 1) ≤ 2 ^ 36 →
    (msgArg a.msg.toNat 0) + (msgArg a.msg.toNat 1) ≤ s.t1Top ∨ (tier2Base ≤ (msgArg a.msg.toNat 0)
    ∧ (msgArg a.msg.toNat 0) + (msgArg a.msg.toNat 1) ≤ s.t2Top) →
    s.resvHit (msgArg a.msg.toNat 0) (msgArg a.msg.toNat 1) = [] →
    Gives (.trcSink iss t) s (fun u => u.trace.sinkAddr = BitVec.ofNat 48 (msgArg a.msg.toNat 0)
    ∧ u.trace.sinkPages = BitVec.ofNat 32 ((msgArg a.msg.toNat 1) / 4096)
    ∧ ((List.range 65).all (fun k => decide (u.unit k = { s.unit k with partBase := BitVec.ofNat 48 ((msgArg a.msg.toNat 0) + k * ((msgArg a.msg.toNat 1) / 266240 * 4096)), partRecs := BitVec.ofNat 32 ((msgArg a.msg.toNat 1) / 266240 * 4096 / 32) }))) = true
    ∧ u.trace.quayCnt = s.trace.quayCnt ∧ u.trace.tenCnt = s.trace.tenCnt ∧ u.trace.modCnt = s.trace.modCnt
    ∧ u.trace.quayShadow = s.trace.quayShadow ∧ u.trace.modShadow = s.trace.modShadow
    ∧ u.trace.tenShadow = s.trace.tenShadow ∧ u.trace.snapTime = s.trace.snapTime
    ∧ u.trace.snapSeq = s.trace.snapSeq ∧ s.gave u iss 2 0x0B01 a 0 [] ∧ s.sameHif u
    ∧ Keeps [.time, .trace, .hif] s u)) ∧
  (∀ (s : State) (iss : Issuer) (t : Nat) (a : Admitted) (k : Nat), s.serves iss 2 0x0B01 a →
    (s.unit k).en = true → k < 65 → Gives (.trcSink iss t) s (fun u => u.trace = s.trace
    ∧ s.gave u iss 2 0x0B01 a ST_TRC_ACTIVE [] ∧ s.sameHif u ∧ Keeps [.time, .hif] s u))

/-- PACE_SET requests a step and an issue limit for the quays of a mask and answers what applies;
PWR_LIMIT clamps and sets the soft limit; THM_READ answers the readings; VALVE_SET sets mode
and position. FW_LOAD checks state and image, loads, and ends running or stopped; FW_UPDATE
goes core group by core group and commits or rolls back; CRASH_DUMP writes the captures or
answers their length; LIC_INSTALL adds the features of valid records. RESET answers before a
module reset, and starts the reset of an idle block, which ends at BLOCK_RESET_DONE. -/
def Obligations.ManagementCommands : Prop :=
  (∀ (s : State) (iss : Issuer) (t : Nat) (a : Admitted), s.serves iss 1 0x0900 a →
    10 ≤ (msgArg a.msg.toNat 1) → (msgArg a.msg.toNat 1) ≤ 70 → 1 ≤ (msgArg a.msg.toNat 2) →
    (msgArg a.msg.toNat 2) ≤ 64 →
    Gives (.paceSet iss t) s (fun u => ((List.range 64).all (fun q => if bit (msgArg a.msg.toNat 0) q then (u.quay q).limits.reqIssue == (msgArg a.msg.toNat 2) && (decide ((msgArg a.msg.toNat 1) < (s.quay q).limits.reqStep) || ((u.quay q).limits.reqStep == (msgArg a.msg.toNat 1) && (u.quay q).pace.stageTarget == none)) && (u.quay q).limits.pwrStep == (s.quay q).limits.pwrStep && (u.quay q).limits.thmStep == (s.quay q).limits.thmStep else decide (u.quay q = s.quay q))) = true
    ∧ s.gave u iss 1 0x0900 a 0 [(((List.range 64).filter (fun q => bit (msgArg a.msg.toNat 0) q)).map (fun q => min (s.quay q).limits.pwrStep (s.quay q).limits.thmStep)).foldl min (msgArg a.msg.toNat 1),
    (((List.range 64).filter (fun q => bit (msgArg a.msg.toNat 0) q)).map (fun q => min (s.quay q).limits.pwrIssue (s.quay q).limits.thmIssue)).foldl min (msgArg a.msg.toNat 2)]
    ∧ s.sameHif u ∧ Keeps [.time, .quays, .events, .trace, .hif] s u)) ∧
  (∀ (s : State) (iss : Issuer) (t : Nat) (a : Admitted) (q : Nat), s.serves iss 1 0x0900 a →
    70 < (msgArg a.msg.toNat 1) → (msgArg a.msg.toNat 0) = 2 ^ q → q < 64 →
    Gives (.paceSet iss t) s (fun u => (u.quay q).limits.reqStep = 70 ∧ (u.quay q).pace.vsetClamped = true
    ∧ OnlyAt s.quays u.quays q ∧ s.raised u [ST_VSET_CLAMPED] ∧ s.sameHif u
    ∧ Keeps [.time, .quays, .events, .trace, .hif] s u)) ∧
  (∀ (s : State) (iss : Issuer) (t : Nat) (a : Admitted), s.serves iss 1 0x0901 a →
    Gives (.pwrLimit iss t) s (fun u => u.power = { s.power with softLimit := BitVec.ofNat 11 (max 300 (min s.power.hwLimit.toNat (msgArg a.msg.toNat 0))) }
    ∧ s.gave u iss 1 0x0901 a 0 [max 300 (min s.power.hwLimit.toNat (msgArg a.msg.toNat 0))] ∧ s.sameHif u
    ∧ Keeps [.time, .hif, .power] s u)) ∧
  (∀ (s : State) (iss : Issuer) (t : Nat) (a : Admitted), s.serves iss 1 0x0902 a →
    Gives (.thmRead iss t) s (fun u => s.gave u iss 1 0x0902 a 0 [sixteenths (s.thermNode s.hotNode).temp,
    s.thermal.inlet.toNat, s.thermal.outlet.toNat, s.power.pin.toNat / 10, s.thermal.fb.toNat, s.thermLevel]
    ∧ s.sameHif u ∧ Keeps [.time, .hif] s u)) ∧
  (∀ (s : State) (iss : Issuer) (t : Nat) (a : Admitted), s.serves iss 1 0x0903 a →
    (msgArg a.msg.toNat 0) < 2 →
    Gives (.valveSet iss t) s (fun u => u.thermal = { s.thermal with mode := (msgArg a.msg.toNat 0) == 1, position := BitVec.ofNat 7 (min 100 (msgArg a.msg.toNat 1)) }
    ∧ s.gave u iss 1 0x0903 a 0 [] ∧ s.sameHif u ∧ Keeps [.time, .hif, .thermal] s u)) ∧
  (∀ (s : State) (iss : Issuer) (t : Nat) (a : Admitted), s.serves iss 1 0x0903 a →
    2 ≤ (msgArg a.msg.toNat 0) → Gives (.valveSet iss t) s (fun u => u.thermal = s.thermal
    ∧ s.gave u iss 1 0x0903 a ST_MBX_ARG [] ∧ s.sameHif u ∧ Keeps [.time, .hif] s u)) ∧
  (∀ (s : State) (iss : Issuer) (t : Nat) (a : Admitted) (err down : Bool) (bad : BitVec 64),
    s.serves iss 0 0x0A00 a → a.started = false → s.fw.state ≠ 0 → s.fw.state ≠ 4 →
    Gives (.fwLoad iss t err bad down) s (fun u => u.fw = s.fw ∧ s.gave u iss 0 0x0A00 a ST_FW_STATE []
    ∧ s.sameHif u ∧ Keeps [.time, .hif] s u)) ∧
  (∀ (s : State) (iss : Issuer) (t : Nat) (a : Admitted) (down : Bool) (bad : BitVec 64),
    s.serves iss 0 0x0A00 a → a.started = false → s.fw.state = 0 →
    Gives (.fwLoad iss t true bad down) s (fun u => u.fw = s.fw ∧ s.gave u iss 0 0x0A00 a ST_DMA_HOST_ERR []
    ∧ s.sameHif u ∧ Keeps [.time, .hif] s u)) ∧
  (∀ (s : State) (iss : Issuer) (t : Nat) (a : Admitted) (down : Bool) (bad : BitVec 64) (h : Nat),
    s.serves iss 0 0x0A00 a → a.started = false → s.fw.state = 0 → s.logging = false →
    Gives (.fwLoad iss t false bad down) s (fun u => ((s.readImage (msgArg a.msg.toNat 0) (msgArg a.msg.toNat 1) false).1.toOption = some h
    → u.fw = { s.fw with state := 1, step := 6, staged := some (BitVec.ofNat 2048 h), switching := 0 }
    ∧ ((List.range 64).all (fun q => (u.quay q).ccState == 1)) = true ∧ s.began u 0 a)
    ∧ (∀ e ∈ [ST_FW_IMAGE_FMT, ST_FW_SIGNATURE, ST_FW_ROLLBACK, ST_FW_SEG_CRC],
    (s.readImage (msgArg a.msg.toNat 0) (msgArg a.msg.toNat 1) false).1.toOption = none →
    (match (s.readImage (msgArg a.msg.toNat 0) (msgArg a.msg.toNat 1) false).1 with | .error x => x == e | .ok _ => false) = true
    → u.fw = s.fw ∧ s.gave u iss 0 0x0A00 a e []) ∧ s.sameHif u
    ∧ Keeps [.time, .free, .mem, .hostMem, .quays, .tiles, .tiers, .sync, .dma, .events, .trace, .hif, .log, .fab, .graph, .pilot, .stks, .fw, .agent] s u)) ∧
  (∀ (s : State) (iss : Issuer) (t : Nat) (a : Admitted) (err : Bool) (bad : BitVec 64),
    s.serves iss 0 0x0A00 a → a.started = true → s.fw.step = 6 → s.fw.state = 1 → s.bring.tileTest = true →
    Gives (.fwLoad iss t err bad false) s (fun u => u.fw.image = s.fw.staged ∧ u.fw.staged = none
    ∧ u.fw.state = 2 ∧ u.fw.step = 0 ∧ u.fw.stopped = bad.zeroExtend 67 ∧ u.fw.captures = s.fw.captures
    ∧ u.pilot.frozen = false
    ∧ ((List.range 64).all (fun q => (u.quay q).ccState == if bad.getLsbD q then 0 else 2)) = true
    ∧ (bad = 0 → u.events = s.events) ∧ s.gave u iss 0 0x0A00 a 0 [] ∧ s.sameHif u
    ∧ Keeps [.time, .free, .mem, .hostMem, .quays, .tiles, .tiers, .sync, .dma, .events, .trace, .hif, .log, .fab, .graph, .pilot, .stks, .fw, .agent] s u)) ∧
  (∀ (s : State) (iss : Issuer) (t : Nat) (a : Admitted) (err : Bool) (bad : BitVec 64),
    s.serves iss 0 0x0A00 a → a.started = true → s.fw.step = 6 → s.fw.state = 1 → s.bring.tileTest = true →
    Gives (.fwLoad iss t err bad true) s (fun u => u.fw.state = 0 ∧ u.fw.staged = none
    ∧ u.fw.image = s.fw.image ∧ u.fw.step = 0
    ∧ (u.fw.captures.getLast?).map (fun c => (c.cause, c.core)) = some (3, 0xFF)
    ∧ ((List.range 64).all (fun q => (u.quay q).ccState == 0)) = true
    ∧ s.gave u iss 0 0x0A00 a ST_FW_START_TIMEOUT [] ∧ s.sameHif u
    ∧ Keeps [.time, .free, .mem, .hostMem, .quays, .tiles, .tiers, .sync, .dma, .events, .trace, .hif, .log, .fab, .graph, .pilot, .stks, .fw, .agent] s u)) ∧
  (∀ (s : State) (iss : Issuer) (t : Nat) (a : Admitted) (err ready : Bool) (dead : BitVec 67),
    s.serves iss 0 0x0A01 a → a.started = false → s.fw.state ≠ 2 → s.fw.state ≠ 3 →
    Gives (.fwUpdate iss t err ready dead) s (fun u => u.fw = s.fw ∧ s.gave u iss 0 0x0A01 a ST_FW_STATE []
    ∧ s.sameHif u ∧ Keeps [.time, .hif] s u)) ∧
  (∀ (s : State) (iss : Issuer) (t : Nat) (a : Admitted) (ready : Bool) (dead : BitVec 67) (h : Nat) (run : BitVec 2048),
    s.serves iss 0 0x0A01 a → a.started = false → s.fw.state = 2 → s.fw.image = some run → s.logging = false
    →
    Gives (.fwUpdate iss t false ready dead) s (fun u => (s.readImage (msgArg a.msg.toNat 0) (msgArg a.msg.toNat 1) false).1.toOption = some h
    → (imHoMin h ≤ imHoVer run.toNat ∧ imHoVer run.toNat ≤ imHoVer h → s.began u 0 a ∧ u.fw.state = 3
    ∧ u.fw.staged = some (BitVec.ofNat 2048 h) ∧ u.fw.step = 1
    ∧ u.fw.switching = updateCores 1 &&& ~~~s.fw.stopped ∧ u.fw.image = s.fw.image)
    ∧ (imHoVer run.toNat < imHoMin h ∨ imHoVer h < imHoVer run.toNat → u.fw = s.fw
    ∧ s.gave u iss 0 0x0A01 a ST_FW_HANDOVER []) ∧ s.sameHif u
    ∧ Keeps [.time, .free, .mem, .quays, .tiles, .tiers, .events, .trace, .hif, .log, .graph, .pilot, .fw, .agent] s u)) ∧
  (∀ (s : State) (iss : Issuer) (t : Nat) (err : Bool) (dead : BitVec 67), s.fw.state = 3 → s.fw.step ≠ 0 →
    s.fw.step < 7 → Gives (.fwUpdate iss t err true dead) s (fun u => u.fw.state = 3
    ∧ u.fw.step = s.fw.step + 1 ∧ u.fw.switching = updateCores (s.fw.step + 1) &&& ~~~s.fw.stopped
    ∧ u.fw.stopped = s.fw.stopped ∧ u.fw.image = s.fw.image ∧ u.fw.staged = s.fw.staged
    ∧ u.pilot.frozen = (s.fw.step == 5 || (s.pilot.frozen && s.fw.step != 6))
    ∧ ((List.range 64).all (fun q => (u.quay q).ccState == if u.fw.switching.getLsbD q then 3 else if s.fw.switching.getLsbD q then 2 else (s.quay q).ccState)) = true
    ∧ u.hif = s.hif
    ∧ Keeps [.time, .free, .mem, .quays, .tiles, .tiers, .events, .trace, .hif, .log, .graph, .pilot, .fw, .agent] s u)) ∧
  (∀ (s : State) (iss : Issuer) (t : Nat) (err : Bool) (dead : BitVec 67) (a : Admitted), s.fw.state = 3 →
    s.fw.step = 7 → s.hif.secq.queue = [a] → a.started = true → msgCode a.msg.toNat = 0xA01 → a.mute = false
    →
    Gives (.fwUpdate iss t err true dead) s (fun u => u.fw = { s.fw with image := s.fw.staged, staged := none, state := 2, step := 0, switching := 0 }
    ∧ u.hif.answers = s.hif.answers ++ [{ issuer := a.issuer, msg := BitVec.ofNat 2048 (response a.msg.toNat 0 0 [] []) }]
    ∧ s.raised u [ST_FW_UPDATED]
    ∧ Keeps [.time, .free, .mem, .quays, .tiles, .tiers, .events, .trace, .hif, .log, .graph, .pilot, .fw, .agent] s u)) ∧
  (∀ (s : State) (iss : Issuer) (t : Nat) (err : Bool) (dead : BitVec 67) (a : Admitted), s.fw.state = 3 →
    s.fw.step ≠ 0 → s.hif.secq.queue = [a] → a.started = true → msgCode a.msg.toNat = 0xA01 → a.mute = false
    → Gives (.fwUpdate iss t err false dead) s (fun u => u.fw.image = s.fw.image ∧ u.fw.staged = none
    ∧ u.fw.step = 0 ∧ u.fw.switching = 0
    ∧ u.fw.stopped = ((s.fw.stopped &&& ~~~(updateReached s.fw.step)) ||| (dead &&& updateReached s.fw.step))
    ∧ (u.fw.stopped = 0 → u.fw.state = 2) ∧ ((List.range 64).all (fun q => (s.quay q).ccState != 0) = true →
    u.fw.stopped ≠ 0 → u.fw.state = 4)
    ∧ (u.fw.captures.getLast?).map (fun c => (c.cause, c.core, c.status)) = some (4, 0xFF, ST_FW_UPDATE_ROLLBACK)
    ∧ u.hif.answers = s.hif.answers ++ [{ issuer := a.issuer, msg := BitVec.ofNat 2048 (response a.msg.toNat ST_FW_UPDATE_ROLLBACK 0 [] []) }]
    ∧ Keeps [.time, .free, .mem, .quays, .tiles, .tiers, .events, .trace, .hif, .log, .graph, .pilot, .fw, .agent] s u)) ∧
  (∀ (s : State) (iss : Issuer) (t : Nat) (a : Admitted), s.serves iss 0 0x0A02 a →
    Gives (.crashDump iss t false) s (fun u => ((msgArg a.msg.toNat 1) < (s.fw.captures.flatMap Capture.bytes).length
    → s.gave u iss 0 0x0A02 a ST_FW_DUMP_SIZE [(s.fw.captures.flatMap Capture.bytes).length]
    ∧ u.hostMem = s.hostMem) ∧ ((s.fw.captures.flatMap Capture.bytes).length ≤ (msgArg a.msg.toNat 1) →
    s.gave u iss 0 0x0A02 a 0 [(s.fw.captures.flatMap Capture.bytes).length]
    ∧ u.hostMem = Mem.writeBytes s.hostMem (msgArg a.msg.toNat 0) (s.fw.captures.flatMap Capture.bytes))
    ∧ u.fw = s.fw ∧ s.sameHif u ∧ Keeps [.time, .hostMem, .hif] s u)) ∧
  (∀ (s : State) (iss : Issuer) (t : Nat) (a : Admitted) (err : Bool), s.serves iss 0 0x0A03 a →
    (msgArg a.msg.toNat 1) % 128 ≠ 0 ∨ (msgArg a.msg.toNat 1) = 0 ∨ 4096 < (msgArg a.msg.toNat 1) →
    Gives (.licInstall iss t err) s (fun u => u.licences = s.licences ∧ u.fab = s.fab
    ∧ s.gave u iss 0 0x0A03 a ST_LIC_FMT [] ∧ s.sameHif u ∧ Keeps [.time, .hif] s u)) ∧
  (∀ (s : State) (iss : Issuer) (t : Nat) (a : Admitted) (bs : List Byte) (e : Status),
    s.serves iss 0 0x0A03 a → (msgArg a.msg.toNat 1) = 128 → s.logging = false →
    s.hostRead (msgArg a.msg.toNat 0) 128 = bs →
    Gives (.licInstall iss t false) s (fun u => (licCheck bs = none →
    u.licences = s.licences ||| BitVec.ofNat 5 (byteField (natOfBytes bs) 4 4)
    ∧ s.gave u iss 0 0x0A03 a 0 [u.licences.toNat]) ∧ (licCheck bs = some e → u.licences = s.licences
    ∧ u.fab = s.fab ∧ s.gave u iss 0 0x0A03 a e []) ∧ s.sameHif u
    ∧ Keeps [.time, .mem, .events, .trace, .hif, .log, .fab, .licences] s u)) ∧
  (∀ (s : State) (iss : Issuer) (t : Nat) (a : Admitted), s.serves iss 2 0x0A04 a → s.bring.mbxAt = none →
    (msgArg a.msg.toNat 0) = 0 →
    Gives (.resetModule iss t) s (fun u => u.bring = { s.bring with mbxAt := some u.time }
    ∧ s.gave u iss 2 0x0A04 a 0 [] ∧ s.sameHif u
    ∧ Keeps [.pending, .time, .onRing, .free, .mem, .hostMem, .quays, .tiles, .tiers, .events, .trace, .hif, .log, .graph, .pilot, .fw, .power, .thermal, .bring, .backup, .i3c] s u)) ∧
  (∀ (s : State) (iss : Issuer) (t : Nat) (a : Admitted), s.serves iss 2 0x0A04 a → s.bring.mbxAt = none →
    2 ≤ (msgArg a.msg.toNat 0) → Gives (.resetModule iss t) s (fun u => u.bring = s.bring
    ∧ s.gave u iss 2 0x0A04 a ST_MBX_ARG [] ∧ s.sameHif u
    ∧ Keeps [.pending, .time, .onRing, .free, .mem, .hostMem, .quays, .tiles, .tiers, .events, .trace, .hif, .log, .graph, .pilot, .fw, .power, .thermal, .bring, .backup, .i3c] s u)) ∧
  (∀ (s : State) (iss : Issuer) (t m : Nat), s.bring.mbxAt = some m → m + msTicks 1 ≤ t →
    s.thermal.shutAt = none → s.bring.vaux = true → s.bring.stretch = none → s.bring.ready = true →
    s.bring.waking = false → s.bring.failed = false → s.power.pgood = true →
    Gives (.resetModule iss t) s (fun u => u.bring.stretch = some u.time ∧ u.bring.sources = 16
    ∧ u.backup.cause = 5 ∧ u.backup.sources = 16 ∧ u.bring.waking = true ∧ u.bring.ready = false
    ∧ u.mem = [] ∧ u.graph = State.reset.graph ∧ u.hif = State.reset.hif
    ∧ u.fw = { Firmware.reset with captures := s.fw.captures } ∧ u.backup.cfg = s.backup.cfg
    ∧ u.hostMem = s.hostMem ∧ u.pending = s.pending)) ∧
  (∀ (s : State) (iss : Issuer) (t m : Nat), s.bring.mbxAt = some m → max s.time t < m + msTicks 1 →
    Gives (.resetModule iss t) s (fun u => Keeps [.time] s u)) ∧
  (∀ (s : State) (iss : Issuer) (t : Nat) (a : Admitted) (n : Nat), s.serves iss 2 0x0A04 a →
    (msgArg a.msg.toNat 0) = 1 → blockOf (msgArg a.msg.toNat 1) = some (.quay n) → s.bring.blkBusy = false →
    s.blockIdle (.quay n) = true → Gives (.resetBlock iss t) s (fun u => (u.quay n).inService = false
    ∧ (u.quay n).spares = [] ∧ (u.quay n).failed = 0 ∧ (u.quay n).ccState = 0
    ∧ u.fw.stopped = s.fw.stopped ||| BitVec.ofNat 67 (2 ^ n)
    ∧ ((List.range 64).all (fun i => decide (u.tile (64 * n + i) = Tile.reset))) = true
    ∧ ((List.range 64).all (fun q => q == n || decide (u.quay q = s.quay q))) = true
    ∧ u.bring = { s.bring with blk := BitVec.ofNat 12 (msgArg a.msg.toNat 1), blkBusy := true, blkAt := u.time }
    ∧ s.gave u iss 2 0x0A04 a 0 [] ∧ s.sameHif u
    ∧ Keeps [.time, .mem, .quays, .tiles, .events, .trace, .hif, .graph, .fw, .bring] s u)) ∧
  (∀ (s : State) (iss : Issuer) (t : Nat) (a : Admitted) (n : Nat), s.serves iss 2 0x0A04 a →
    (msgArg a.msg.toNat 0) = 1 → blockOf (msgArg a.msg.toNat 1) = some (.stack n) → s.bring.blkBusy = false
    → s.blockIdle (.stack n) = true → s.tiers.merge = [] →
    Gives (.resetBlock iss t) s (fun u => u.stackUnit n = { StackUnit.reset with serveRsv := (s.stackUnit n).serveRsv, reserveNow := (s.stackUnit n).reserveNow }
    ∧ OnlyAt s.stks.units u.stks.units n
    ∧ u.bring = { s.bring with blk := BitVec.ofNat 12 (msgArg a.msg.toNat 1), blkBusy := true, blkAt := u.time }
    ∧ s.gave u iss 2 0x0A04 a 0 [] ∧ s.sameHif u
    ∧ Keeps [.time, .events, .trace, .hif, .graph, .stks, .bring] s u)) ∧
  (∀ (s : State) (iss : Issuer) (t : Nat) (a : Admitted) (n : Nat), s.serves iss 2 0x0A04 a →
    (msgArg a.msg.toNat 0) = 1 → blockOf (msgArg a.msg.toNat 1) = some (.chan n) → s.bring.blkBusy = false →
    s.blockIdle (.chan n) = true → s.tiers.merge = [] → (s.chan n).state = 1 →
    Gives (.resetBlock iss t) s (fun u => (u.chan n).state = 2 ∧ (u.chan n).attempt = 1
    ∧ (u.chan n).selfRefresh = true ∧ (u.chan n).temp = (s.chan n).temp ∧ (u.chan n).cntDone = 0
    ∧ OnlyAt s.tiers.chans u.tiers.chans n
    ∧ u.bring = { s.bring with blk := BitVec.ofNat 12 (msgArg a.msg.toNat 1), blkBusy := true, blkAt := u.time }
    ∧ s.gave u iss 2 0x0A04 a 0 [] ∧ s.sameHif u
    ∧ Keeps [.time, .tiers, .events, .trace, .hif, .graph, .bring] s u)) ∧
  (∀ (s : State) (iss : Issuer) (t : Nat) (a : Admitted) (n : Nat), s.serves iss 2 0x0A04 a →
    (msgArg a.msg.toNat 0) = 1 → blockOf (msgArg a.msg.toNat 1) = some (.port n) → s.bring.blkBusy = false →
    s.blockIdle (.port n) = true →
    Gives (.resetBlock iss t) s (fun u => u.port n = { s.port n with retry := [], partialSlots := [], credits := [], owed := [], txSeq := 0, rxSeq := 0, nak := false }
    ∧ OnlyAt s.fab.ports u.fab.ports n ∧ u.fab.rt = s.fab.rt
    ∧ u.bring = { s.bring with blk := BitVec.ofNat 12 (msgArg a.msg.toNat 1), blkBusy := true, blkAt := u.time }
    ∧ s.gave u iss 2 0x0A04 a 0 [] ∧ s.sameHif u
    ∧ Keeps [.time, .events, .trace, .hif, .fab, .graph, .bring] s u)) ∧
  (∀ (s : State) (iss : Issuer) (t : Nat) (a : Admitted) (n : Nat), s.serves iss 2 0x0A04 a →
    (msgArg a.msg.toNat 0) = 1 → blockOf (msgArg a.msg.toNat 1) = some (.engine n) → s.bring.blkBusy = false
    → s.blockIdle (.engine n) = true →
    Gives (.resetBlock iss t) s (fun u => (Table.find u.dma.engines n).map (fun e => (e.done, e.err, e.bytes)) = some (0, 0, 0)
    ∧ OnlyAt s.dma.engines u.dma.engines n ∧ u.dma.ctxs = s.dma.ctxs
    ∧ u.bring = { s.bring with blk := BitVec.ofNat 12 (msgArg a.msg.toNat 1), blkBusy := true, blkAt := u.time }
    ∧ s.gave u iss 2 0x0A04 a 0 [] ∧ s.sameHif u
    ∧ Keeps [.time, .dma, .events, .trace, .hif, .graph, .bring] s u)) ∧
  (∀ (s : State) (iss : Issuer) (t : Nat) (a : Admitted) (b : Block), s.serves iss 2 0x0A04 a →
    (msgArg a.msg.toNat 0) = 1 → blockOf (msgArg a.msg.toNat 1) = some b →
    s.bring.blkBusy = true ∨ s.blockIdle b = false → Gives (.resetBlock iss t) s (fun u => u.bring = s.bring
    ∧ s.gave u iss 2 0x0A04 a ST_RST_BLOCK_BUSY [] ∧ s.sameHif u
    ∧ Keeps [.time, .events, .trace, .hif, .graph] s u)) ∧
  (∀ (s : State) (iss : Issuer) (t : Nat) (a : Admitted), s.serves iss 2 0x0A04 a →
    (msgArg a.msg.toNat 0) = 1 → blockOf (msgArg a.msg.toNat 1) = none →
    Gives (.resetBlock iss t) s (fun u => u.bring = s.bring ∧ s.gave u iss 2 0x0A04 a ST_MBX_ARG []
    ∧ s.sameHif u ∧ Keeps [.time, .events, .trace, .hif, .graph] s u)) ∧
  (∀ (s : State) (bad : BitVec 68) (t q : Nat) (m : Table SpareMap), s.bring.blkBusy = true →
    blockOf s.bring.blk.toNat = some (.quay q) → mapSpares bad = some m → s.fw.image = none →
    Gives (.blockResetDone bad t) s (fun u => u.bring = { s.bring with blkBusy := false }
    ∧ u.quay q = { s.quay q with failed := bad, inService := true, spares := m, sparesUsed := BitVec.ofNat 3 m.length }
    ∧ OnlyAt s.quays u.quays q ∧ Keeps [.time, .quays, .bring] s u)) ∧
  (∀ (s : State) (bad : BitVec 68) (t n : Nat), s.bring.blkBusy = true →
    blockOf s.bring.blk.toNat = some (.stack n) ∨ blockOf s.bring.blk.toNat = some (.port n) ∨ blockOf s.bring.blk.toNat = some (.engine n) ∨ (blockOf s.bring.blk.toNat = some (.chan n)
    ∧ (s.chan n).state ≠ 2) →
    Gives (.blockResetDone bad t) s (fun u => u.bring = { s.bring with blkBusy := false }
    ∧ Keeps [.time, .bring] s u)) ∧
  (∀ (s : State) (bad : BitVec 68) (t : Nat), s.bring.blkBusy = false →
    Gives (.blockResetDone bad t) s (fun u => Keeps [.time] s u))

/-- The oldest record of a trace unit goes to the next slot of its part and the write pointer
advances; the oldest pending entry of a function goes to its event ring, frees its place and
raises vector 1, and a full ring is not written; a held vector is raised when its coalescing
time ends; MBX_EVT_HEAD takes the value written; a host access reads or writes behind its BAR,
and one beyond it does nothing. -/
def Obligations.Observation : Prop :=
  (∀ (s : State) (k t : Nat) (x : TraceUnit) (r : BitVec 256) (rest : List (BitVec 256)) (z : Nat),
    (s.unit k) = x → x.buffer = r :: rest → x.partRecs ≠ 0 → x.discarding = false →
    s.region (x.partBase.toNat + 32 * (x.wptr.toNat % x.partRecs.toNat)) = .spad z → s.pilot.moves = [] →
    (x.partBase.toNat + 32 * (x.wptr.toNat % x.partRecs.toNat)) % 8 = 0 →
    x.partBase.toNat + 32 * (x.wptr.toNat % x.partRecs.toNat) + 32 ≤ s.regionEnd (x.partBase.toNat + 32 * (x.wptr.toNat % x.partRecs.toNat))
    →
    Gives (.traceRecordWrite k t) s (fun u => (u.unit k) = { x with buffer := rest, ordinary := x.ordinary - b2n (traceOrdinary r), wptr := x.wptr + 1 }
    ∧ Mem.readBytes u.mem (x.partBase.toNat + 32 * (x.wptr.toNat % x.partRecs.toNat)) 32 = some (bytesOfNat 32 r.toNat)
    ∧ SameOutside s.mem u.mem (x.partBase.toNat + 32 * (x.wptr.toNat % x.partRecs.toNat)) (x.partBase.toNat + 32 * (x.wptr.toNat % x.partRecs.toNat) + 32)
    ∧ OnlyAt s.trace.units u.trace.units k ∧ u.log = s.log ∧ u.trace.sinkAddr = s.trace.sinkAddr
    ∧ Keeps [.time, .mem, .trace, .pilot] s u)) ∧
  (∀ (s : State) (k t : Nat), (s.unit k).buffer = [] ∨ (s.unit k).partRecs = 0 →
    Gives (.traceRecordWrite k t) s (fun u => Keeps [.time] s u)) ∧
  (∀ (s : State) (f t : Nat) (r : HostRing) (e : EventEntry), (s.func f).evtRing = some r →
    s.events.entries = [e] → s.events.lane = [] → e.for_ f = true →
    ((s.func f).evtTail - (s.func f).evtHead).toNat ≠ 2 ^ r.sizeLog2 → f = 0 ∧ e.toTenant = none ∨ f ≠ 0
    ∧ e.toPf = false →
    Gives (.eventRecordWrite f t true) s (fun u => Mem.readBytes u.hostMem (r.base.toNat + 32 * ((s.func f).evtTail.toNat % 2 ^ r.sizeLog2)) 32 = some e.record.bytes
    ∧ SameOutside s.hostMem u.hostMem (r.base.toNat + 32 * ((s.func f).evtTail.toNat % 2 ^ r.sizeLog2)) (r.base.toNat + 32 * ((s.func f).evtTail.toNat % 2 ^ r.sizeLog2) + 32)
    ∧ u.events = { s.events with entries := [] }
    ∧ (u.func f) = { s.func f with evtTail := (s.func f).evtTail + 1, vec1 := (s.func f).vec1.arise u.time r.coalUs }
    ∧ OnlyAt s.hif.funcs u.hif.funcs f ∧ u.hif.answers = s.hif.answers
    ∧ Keeps [.time, .hostMem, .events, .trace, .hif] s u)) ∧
  (∀ (s : State) (f t : Nat) (ok : Bool) (r : HostRing), (s.func f).evtRing = some r →
    ((s.func f).evtTail - (s.func f).evtHead).toNat = 2 ^ r.sizeLog2 →
    Gives (.eventRecordWrite f t ok) s (fun u => Keeps [.time] s u)) ∧
  (∀ (s : State) (f t : Nat), (s.func f).vec1.held = true → (s.func f).vec1.quietUntil ≤ t →
    Gives (.msixCoalesceExpiry f 1 t) s (fun u => (u.func f) = { s.func f with vec1 := (s.func f).vec1.arise u.time (((s.func f).evtRing.map (·.coalUs)).getD 0) }
    ∧ (u.func f).vec1.raised = (s.func f).vec1.raised + 1 ∧ OnlyAt s.hif.funcs u.hif.funcs f
    ∧ u.hif.tenants = s.hif.tenants ∧ Keeps [.time, .hif] s u)) ∧
  (∀ (s : State) (f t : Nat), (s.func f).vec2.held = true → (s.func f).vec2.quietUntil ≤ t →
    Gives (.msixCoalesceExpiry f 2 t) s (fun u => (u.func f) = { s.func f with vec2 := (s.func f).vec2.arise u.time (((s.func f).noteRing.map (·.coalUs)).getD 0) }
    ∧ (u.func f).vec2.raised = (s.func f).vec2.raised + 1 ∧ OnlyAt s.hif.funcs u.hif.funcs f
    ∧ u.hif.tenants = s.hif.tenants ∧ Keeps [.time, .hif] s u)) ∧
  (∀ (s : State) (f v t : Nat), (s.func f).vec1.held = false → (s.func f).vec2.held = false →
    Gives (.msixCoalesceExpiry f v t) s (fun u => Keeps [.time] s u)) ∧
  (∀ (s : State) (f v : Nat), (s.func f).inReset = false →
    Gives (.mbxEvtHeadWrite f v) s (fun u => (u.func f) = { s.func f with evtHead := BitVec.ofNat 32 v }
    ∧ OnlyAt s.hif.funcs u.hif.funcs f ∧ u.hif.answers = s.hif.answers ∧ u.hif.tenants = s.hif.tenants
    ∧ Keeps [.hif] s u)) ∧
  (∀ (s : State) (f v : Nat), (s.func f).inReset = true →
    Gives (.mbxEvtHeadWrite f v) s (fun u => Keeps [] s u)) ∧
  (∀ (s : State) (off n t k : Nat) (bs : List Byte), off < 2 ^ 30 → s.logging = false →
    s.region (tileWindows + off) = .spad k → (s.at t).accessCheck 0 false (tileWindows + off) n = none →
    s.bring.tilesFilled = true → off % 8 = 0 → n % 8 = 0 → 0 < n →
    tileWindows + off + n ≤ s.regionEnd (tileWindows + off) →
    Mem.readBytes s.mem (tileWindows + off) n = some bs → s.tenantLicensed 0 = true →
    Gives (.hostBarAccess 0 4 false off n [] [] t) s (fun u => u.resp = { status := 0, addr := 0, data := bs }
    ∧ u.mem = s.mem ∧ Keeps [.time, .pilot, .agent, .resp] s u)) ∧
  (∀ (s : State) (f off n t : Nat) (write : Bool) (bs : List Byte), 0 < f → f < 1024 → 2 ^ 34 ≤ off →
    s.logging = false → Gives (.hostBarAccess f 2 write off n bs [] t) s (fun u => Keeps [.time] s u)) ∧
  (∀ (s : State) (f off t : Nat), 0 < f → f < 1024 → off % 4 = 0 → 0x80000 ≤ off → off < 2 ^ 20 →
    s.tenantLicensed f = true → s.logging = false → (s.so ((off - 0x80000) / 4)).valid = true →
    (s.so ((off - 0x80000) / 4)).tenant.toNat = f →
    Gives (.hostBarAccess f 0 false off 4 [] [] t) s (fun u => u.resp = { status := 0, addr := 0, data := bytesOfNat 4 (s.so ((off - 0x80000) / 4)).count.toNat }
    ∧ Keeps [.time, .resp] s u))

/-- I3C_MBX_REQ submits a message of 16 to 256 bytes whose LEN fits, and while the rails are off
answers ST_I3C_NO_MAIN; I3C_REG_READ and I3C_REG_WRITE keep the status and value of one
register operation, with ST_I3C_FMT for a bad length or offset; I3C_MBX_POLL selects the
mailbox; a private read gives the selected result and takes a ready response. ENTDAA and
RSTDAA set and clear the address; the GET commands answer their bytes; SETMWL and SETMRL stop
at 264; ENEC and DISEC turn interrupts on and off; IBI_SEND sends a pending one. A target
without address does not answer. -/
def Obligations.SidebandCommands : Prop :=
  (∀ (s : State) (bs : List Byte) (t : Nat), s.bring.vaux = true → s.i3c.addr.isSome = true →
    s.i3c.mbxState ≠ 1 → bs.length < 16 ∨ 256 < bs.length ∨ bs.length ≠ 8 * byteField (natOfBytes bs) 1 1 →
    Gives (.i3cMbxReq bs t) s (fun u => u.i3c = { s.i3c with mailbox := false, regStatus := ST_I3C_FMT, regValue := 0 }
    ∧ Keeps [.time, .i3c] s u)) ∧
  (∀ (s : State) (bs : List Byte) (t : Nat), s.bring.vaux = true → s.i3c.addr.isSome = true →
    s.i3c.mbxState ≠ 1 → 16 ≤ bs.length → bs.length ≤ 256 → bs.length = 8 * byteField (natOfBytes bs) 1 1 →
    s.bring.wakeStep ≠ 8 →
    Gives (.i3cMbxReq bs t) s (fun u => u.i3c = { s.i3c with mailbox := true, mbxState := 2, ibiRsp := s.i3c.ibiRsp || s.i3c.ibiOn, rsp := BitVec.ofNat 2048 (response (natOfBytes bs) ST_I3C_NO_MAIN 0 [] []) }
    ∧ Keeps [.time, .i3c] s u)) ∧
  (∀ (s : State) (bs : List Byte) (t : Nat) (e : Status), s.bring.vaux = true → s.i3c.addr.isSome = true →
    s.i3c.mbxState ≠ 1 → 16 ≤ bs.length → bs.length ≤ 256 → bs.length = 8 * byteField (natOfBytes bs) 1 1 →
    s.bring.wakeStep = 8 → s.logging = false → (s.at t).msgCheck .i3c (natOfBytes bs) = some e →
    Gives (.i3cMbxReq bs t) s (fun u => u.i3c = { s.i3c with mailbox := true, mbxState := 1 }
    ∧ u.hif.answers = s.hif.answers ++ [{ issuer := .i3c, msg := BitVec.ofNat 2048 (response (natOfBytes bs) e 0 [] []) }]
    ∧ u.hif.funcs = s.hif.funcs
    ∧ Keeps [.pending, .time, .onRing, .hostMem, .quays, .tiles, .tiers, .hif, .graph, .pilot, .fw, .power, .thermal, .bring, .backup, .i3c] s u)) ∧
  (∀ (s : State) (bs : List Byte) (t : Nat), s.bring.vaux = true → s.i3c.addr.isSome = true →
    s.i3c.mbxState ≠ 1 → bs.length = 16 → byteField (natOfBytes bs) 1 1 = 2 → s.bring.wakeStep = 8 →
    s.logging = false → (s.at t).msgCheck .i3c (natOfBytes bs) = none → msgCode (natOfBytes bs) = 1 →
    s.hif.secq.queue = [] → s.hif.secq.ring = [] →
    Gives (.i3cMbxReq bs t) s (fun u => u.i3c = { s.i3c with mailbox := true, mbxState := 1 }
    ∧ u.hif.secq.queue.map (fun a => (a.issuer, a.msg.toNat)) = [(Issuer.i3c, natOfBytes bs)]
    ∧ u.hif.answers = s.hif.answers ∧ u.hif.funcs = s.hif.funcs
    ∧ Keeps [.pending, .time, .onRing, .free, .hostMem, .quays, .tiles, .tiers, .hif, .graph, .pilot, .fw, .power, .thermal, .bring, .backup, .i3c] s u)) ∧
  (∀ (s : State) (bs : List Byte) (t : Nat), s.i3c.mbxState = 1 →
    Gives (.i3cMbxReq bs t) s (fun u => Keeps [.time] s u)) ∧
  (∀ (s : State) (bs : List Byte) (t : Nat), s.bring.vaux = true → s.i3c.addr.isSome = true →
    bs.length ≠ 4 ∨ natOfBytes bs % 4 ≠ 0 ∨ regAt (registerBase + natOfBytes bs) = none →
    Gives (.i3cRegRead bs t) s (fun u => u.i3c = { s.i3c with mailbox := false, regStatus := ST_I3C_FMT, regValue := 0 }
    ∧ Keeps [.time, .i3c] s u)) ∧
  (∀ (s : State) (bs : List Byte) (t : Nat) (x : RegBlock × Nat × Nat), s.bring.vaux = true →
    s.i3c.addr.isSome = true → bs.length = 4 → natOfBytes bs % 4 = 0 →
    regAt (registerBase + natOfBytes bs) = some x →
    auxRegister (registerBase + natOfBytes bs) = true ∨ s.bring.wakeStep = 8 →
    s.regIsolated x.1 x.2.1 = false → Gives (.i3cRegRead bs t) s (fun u => u.i3c.mailbox = false
    ∧ u.i3c.regStatus = 0 ∧ u.i3c.regValue = ((s.at t).readReg (registerBase + natOfBytes bs)).1
    ∧ u.i3c.addr = s.i3c.addr ∧ u.i3c.mwl = s.i3c.mwl ∧ u.i3c.mrl = s.i3c.mrl ∧ u.i3c.ibiOn = s.i3c.ibiOn
    ∧ u.i3c.mbxState = s.i3c.mbxState ∧ u.i3c.rsp = s.i3c.rsp ∧ u.mem = s.mem
    ∧ Keeps [.pending, .time, .onRing, .free, .hostMem, .quays, .tiles, .tiers, .events, .trace, .log, .graph, .pilot, .fw, .power, .thermal, .bring, .backup, .i3c] s u)) ∧
  (∀ (s : State) (bs : List Byte) (t : Nat), s.bring.vaux = true → s.i3c.addr.isSome = true → bs.length = 4
    → natOfBytes bs % 4 = 0 → (regAt (registerBase + natOfBytes bs)).isSome = true →
    auxRegister (registerBase + natOfBytes bs) = false → s.bring.wakeStep ≠ 8 →
    Gives (.i3cRegRead bs t) s (fun u => u.i3c = { s.i3c with mailbox := false, regStatus := ST_I3C_NO_MAIN, regValue := 0 }
    ∧ Keeps [.time, .i3c] s u)) ∧
  (∀ (s : State) (bs : List Byte) (t : Nat), s.bring.vaux = true → s.i3c.addr.isSome = true →
    bs.length ≠ 8 ∨ natOfBytes (bs.take 4) % 4 ≠ 0 ∨ regAt (registerBase + natOfBytes (bs.take 4)) = none →
    Gives (.i3cRegWrite bs t) s (fun u => u.i3c = { s.i3c with mailbox := false, regStatus := ST_I3C_FMT, regValue := 0 }
    ∧ Keeps [.time, .i3c] s u)) ∧
  (∀ (s : State) (bs : List Byte) (t : Nat), s.bring.vaux = true → s.i3c.addr.isSome = true → bs.length = 8
    → registerBase + natOfBytes (bs.take 4) = 0x7F00090200C4 → s.bring.blkBusy = false →
    Gives (.i3cRegWrite bs t) s (fun u => u.i3c.mailbox = false ∧ u.i3c.regStatus = 0 ∧ u.i3c.regValue = 0
    ∧ (natOfBytes (bs.drop 4) = 0x4B1D → u.bring = { s.bring with wdogAt := u.time })
    ∧ (natOfBytes (bs.drop 4) ≠ 0x4B1D → u.bring = s.bring) ∧ u.i3c.addr = s.i3c.addr
    ∧ u.i3c.mwl = s.i3c.mwl ∧ u.i3c.mrl = s.i3c.mrl ∧ u.i3c.ibiOn = s.i3c.ibiOn
    ∧ u.i3c.mbxState = s.i3c.mbxState ∧ u.i3c.rsp = s.i3c.rsp ∧ u.mem = s.mem ∧ u.hif = s.hif)) ∧
  (∀ (s : State) (bs : List Byte), s.bring.vaux = true → s.i3c.addr.isSome = true →
    Gives (.i3cMbxPoll bs) s (fun u => (bs = [] → u.i3c = { s.i3c with mailbox := true }) ∧ (bs ≠ [] →
    u.i3c = { s.i3c with mailbox := false, regStatus := ST_I3C_FMT, regValue := 0 }) ∧ Keeps [.i3c] s u)) ∧
  (∀ (s : State), s.bring.vaux = true → s.i3c.addr.isSome = true → s.i3c.mailbox = true → s.i3c.mbxState = 2
    →
    Gives (.i3cPrivateRead) s (fun u => u.resp = { status := 0, addr := 0, data := [1, 2] ++ bytesOfNat (8 * byteField s.i3c.rsp.toNat 1 1) s.i3c.rsp.toNat }
    ∧ u.i3c = { s.i3c with mbxState := 0 } ∧ Keeps [.i3c, .resp] s u)) ∧
  (∀ (s : State), s.bring.vaux = true → s.i3c.addr.isSome = true → s.i3c.mailbox = true → s.i3c.mbxState ≠ 2
    →
    Gives (.i3cPrivateRead) s (fun u => u.resp = { status := 0, addr := 0, data := [1] ++ bytesOfNat 1 s.i3c.mbxState.toNat }
    ∧ Keeps [.resp] s u)) ∧
  (∀ (s : State), s.bring.vaux = true → s.i3c.addr.isSome = true → s.i3c.mailbox = false →
    Gives (.i3cPrivateRead) s (fun u => u.resp = { status := 0, addr := 0, data := [2, 0] ++ bytesOfNat 2 s.i3c.regStatus.toNat ++ bytesOfNat 4 s.i3c.regValue.toNat }
    ∧ Keeps [.resp] s u)) ∧
  (∀ (s : State) (x : BitVec 7), s.bring.vaux = true → s.i3c.addr = none →
    Gives (.entdaa x) s (fun u => u.i3c = { s.i3c with addr := some x } ∧ Keeps [.i3c] s u)) ∧
  (∀ (s : State) (x : BitVec 7), s.i3c.addr.isSome = true → Gives (.entdaa x) s (fun u => Keeps [] s u)) ∧
  (∀ (s : State), Gives (.rstdaa) s (fun u => u.i3c = { s.i3c with addr := none } ∧ Keeps [.i3c] s u)) ∧
  (∀ (s : State), s.bring.vaux = true → s.i3c.addr.isSome = true →
    Gives (.getpid) s (fun u => u.resp = { status := 0, addr := 0, data := (bytesOfNat 6 (0x0F5 * 2 ^ 33 + 2 ^ 32 + Config.serial.toNat % 2 ^ 32)).reverse }
    ∧ Keeps [.resp] s u)) ∧
  (∀ (s : State), s.bring.vaux = true → s.i3c.addr.isSome = true →
    Gives (.getbcr) s (fun u => u.resp = { status := 0, addr := 0, data := [6] } ∧ Keeps [.resp] s u)) ∧
  (∀ (s : State), s.bring.vaux = true → s.i3c.addr.isSome = true →
    Gives (.getdcr) s (fun u => u.resp = { status := 0, addr := 0, data := [0] } ∧ Keeps [.resp] s u)) ∧
  (∀ (s : State), s.bring.vaux = true → s.i3c.addr.isSome = true →
    Gives (.getstatus) s (fun u => u.resp.status = 0 ∧ u.resp.data.length = 2 ∧ Keeps [.free, .resp] s u)) ∧
  (∀ (s : State), s.bring.vaux = true → s.i3c.addr.isSome = true →
    Gives (.getmwl) s (fun u => u.resp = { status := 0, addr := 0, data := (bytesOfNat 2 s.i3c.mwl.toNat).reverse }
    ∧ Keeps [.resp] s u)) ∧
  (∀ (s : State), s.bring.vaux = true → s.i3c.addr.isSome = true →
    Gives (.getmrl) s (fun u => u.resp = { status := 0, addr := 0, data := (bytesOfNat 2 s.i3c.mrl.toNat).reverse ++ [1] }
    ∧ Keeps [.resp] s u)) ∧
  (∀ (s : State) (v : Nat), s.bring.vaux = true → s.i3c.addr.isSome = true →
    Gives (.setmwl v) s (fun u => u.i3c = { s.i3c with mwl := BitVec.ofNat 16 (min 264 (v % 65536)) }
    ∧ Keeps [.i3c] s u)) ∧
  (∀ (s : State) (v : Nat), s.bring.vaux = true → s.i3c.addr.isSome = true →
    Gives (.setmrl v) s (fun u => u.i3c = { s.i3c with mrl := BitVec.ofNat 16 (min 264 (v % 65536)) }
    ∧ Keeps [.i3c] s u)) ∧
  (∀ (s : State) (v : Nat), s.bring.vaux = true → s.i3c.addr.isSome = true → bit v 0 = true →
    s.i3c.ibiOn = false →
    Gives (.enec v) s (fun u => u.i3c = { s.i3c with ibiOn := true, alarmSeen := s.events.alarmCnt }
    ∧ Keeps [.i3c] s u)) ∧
  (∀ (s : State) (v : Nat), s.bring.vaux = true → s.i3c.addr.isSome = true → bit v 0 = true →
    Gives (.disec v) s (fun u => u.i3c.ibiOn = false ∧ u.i3c.ibiRsp = s.i3c.ibiRsp ∧ u.alarmIbi = s.alarmIbi
    ∧ u.i3c.mwl = s.i3c.mwl ∧ Keeps [.i3c] s u)) ∧
  (∀ (s : State), s.bring.vaux = true → s.i3c.addr.isSome = true → s.i3c.ibiOn = true → s.i3c.ibiRsp = true
    → Gives (.ibiSend 1) s (fun u => u.resp = { status := 0, addr := 0, data := [1] }
    ∧ u.i3c = { s.i3c with ibiRsp := false } ∧ Keeps [.i3c, .resp] s u)) ∧
  (∀ (s : State), s.bring.vaux = true → s.i3c.addr.isSome = true → s.i3c.ibiOn = true →
    s.i3c.ibiAlarm = true ∨ s.events.alarmCnt ≠ s.i3c.alarmSeen →
    Gives (.ibiSend 2) s (fun u => u.resp = { status := 0, addr := 0, data := [2] } ∧ u.alarmIbi = false
    ∧ u.i3c.ibiRsp = s.i3c.ibiRsp ∧ Keeps [.i3c, .resp] s u)) ∧
  (∀ (s : State), s.i3c.addr = none → Gives (.getpid) s (fun u => Keeps [] s u)) ∧
  (∀ (s : State), s.i3c.addr = none → Gives (.getstatus) s (fun u => Keeps [.free] s u)) ∧
  (∀ (s : State), s.i3c.addr = none → Gives (.getmwl) s (fun u => Keeps [] s u)) ∧
  (∀ (s : State) (v : Nat), s.i3c.addr = none → Gives (.setmwl v) s (fun u => Keeps [] s u)) ∧
  (∀ (s : State) (v : Nat), s.i3c.addr = none → Gives (.enec v) s (fun u => Keeps [] s u)) ∧
  (∀ (s : State) (v : Nat), s.i3c.addr = none → Gives (.ibiSend v) s (fun u => Keeps [] s u)) ∧
  (∀ (s : State), s.i3c.addr = none → Gives (.i3cPrivateRead) s (fun u => Keeps [] s u))

/-- The gate ramps after GATE_ON, and PGOOD starts a wake; a short, an unfinished ramp and VIN out
of range turn the gate off and everything on the rails is lost; a retry follows after 1 s, and
the fourth short latches; 10 s of PGOOD clear the retries. The power clamp halves and then
quarters the issue rate and is released; the input-current flag comes and goes. The estimator
follows its two states; a node at 110 °C shuts down, and 30 s later, below 80 °C, a wake
begins. Each millisecond the soft limit and the throttle move the limits of every quay, and
the valve moves to its target, or is stuck. -/
def Obligations.PowerEvents : Prop :=
  (∀ (s : State) (v t : Nat), s.bring.vaux = true → s.power.gateOn = false → s.power.latched = false →
    s.power.retryAt = none → 39000 ≤ v → s.power.hsCause ≠ 4 ∨ v ≤ 60000 →
    Gives (.gateOn v t) s (fun u => u.power = { s.power with vinOk := true, vin := BitVec.ofNat 16 v, gateOn := true, ramping := true, pgood := false, rampAt := u.time, pgoodAt := none }
    ∧ Keeps [.time, .power] s u)) ∧
  (∀ (s : State) (v t : Nat), s.bring.vaux = true →
    s.power.gateOn = true ∨ s.power.latched = true ∨ s.power.retryAt.isSome = true → 39000 ≤ v →
    s.power.hsCause ≠ 4 ∨ v ≤ 60000 →
    Gives (.gateOn v t) s (fun u => u.power = { s.power with vinOk := true, vin := BitVec.ofNat 16 v }
    ∧ Keeps [.time, .power] s u)) ∧
  (∀ (s : State) (v t : Nat), v < 39000 → Gives (.gateOn v t) s (fun u => Keeps [.time] s u)) ∧
  (∀ (s : State) (t : Nat), s.power.ramping = true → s.thermal.shutAt = none → s.bring.failed = false →
    Gives (.pgood t) s (fun u => u.power = { s.power with ramping := false, pgood := true, pgoodAt := some u.time }
    ∧ u.bring.waking = true ∧ u.bring.wakeStep = 0 ∧ u.bring.stepAt = u.time
    ∧ u.backup.count = BitVec.ofNat 32 (satAdd 32 s.backup.count.toNat 1) ∧ u.backup.cfg = s.backup.cfg
    ∧ u.backup.cause = BitVec.ofNat 4 s.bring.cause ∧ Keeps [.time, .power, .bring, .backup] s u)) ∧
  (∀ (s : State) (t : Nat), s.power.ramping = true → s.thermal.shutAt.isSome = true ∨ s.bring.failed = true
    →
    Gives (.pgood t) s (fun u => u.power = { s.power with ramping := false, pgood := true, pgoodAt := some u.time }
    ∧ Keeps [.time, .power] s u)) ∧
  (∀ (s : State) (t : Nat), s.power.ramping = true → s.power.rampAt + msTicks 23 ≤ t → s.power.retries ≠ 3 →
    Gives (.rampTimeout t) s (fun u => u.power.gateOn = false ∧ u.power.pgood = false
    ∧ u.power.ramping = false ∧ u.power.hsCause = 2 ∧ u.bring.cause = 7 ∧ u.bring.ready = false
    ∧ u.bring.wakeStep = 0 ∧ u.mem = [] ∧ u.tiers = State.reset.tiers ∧ u.hif = State.reset.hif
    ∧ u.fw = Firmware.reset ∧ u.backup.cfg = s.backup.cfg ∧ u.hostMem = s.hostMem ∧ u.pending = s.pending
    ∧ u.thermal.nodes = s.thermal.nodes ∧ u.power.retryAt = some u.time ∧ u.power.latched = s.power.latched
    ∧ u.power.retries = s.power.retries
    ∧ u.backup.shorts = BitVec.ofNat 3 (min 4 (s.backup.shorts.toNat + 1)))) ∧
  (∀ (s : State) (t : Nat), s.power.ramping = false ∨ max s.time t < s.power.rampAt + msTicks 23 →
    Gives (.rampTimeout t) s (fun u => Keeps [.time] s u)) ∧
  (∀ (s : State) (c t : Nat), s.power.ramping = true ∧ (c = 1 ∨ c = 2) ∨ s.power.pgood = true ∧ c = 3 →
    s.power.retries = 3 → Gives (.hsShort c t) s (fun u => u.power.gateOn = false ∧ u.power.pgood = false
    ∧ u.power.ramping = false ∧ u.power.hsCause = BitVec.ofNat 3 c ∧ u.bring.cause = 7
    ∧ u.bring.ready = false ∧ u.bring.wakeStep = 0 ∧ u.mem = [] ∧ u.tiers = State.reset.tiers
    ∧ u.hif = State.reset.hif ∧ u.fw = Firmware.reset ∧ u.backup.cfg = s.backup.cfg ∧ u.hostMem = s.hostMem
    ∧ u.pending = s.pending ∧ u.thermal.nodes = s.thermal.nodes ∧ u.power.retryAt = none
    ∧ u.power.latched = true ∧ u.backup.latch = true
    ∧ u.backup.shorts = BitVec.ofNat 3 (min 4 (s.backup.shorts.toNat + 1)))) ∧
  (∀ (s : State) (c t : Nat), s.power.ramping = true ∧ (c = 1 ∨ c = 2) ∨ s.power.pgood = true ∧ c = 3 →
    s.power.retries ≠ 3 → Gives (.hsShort c t) s (fun u => u.power.gateOn = false ∧ u.power.pgood = false
    ∧ u.power.ramping = false ∧ u.power.hsCause = BitVec.ofNat 3 c ∧ u.bring.cause = 7
    ∧ u.bring.ready = false ∧ u.bring.wakeStep = 0 ∧ u.mem = [] ∧ u.tiers = State.reset.tiers
    ∧ u.hif = State.reset.hif ∧ u.fw = Firmware.reset ∧ u.backup.cfg = s.backup.cfg ∧ u.hostMem = s.hostMem
    ∧ u.pending = s.pending ∧ u.thermal.nodes = s.thermal.nodes ∧ u.power.retryAt = some u.time
    ∧ u.power.latched = s.power.latched)) ∧
  (∀ (s : State) (r t : Nat), s.power.retryAt = some r → s.power.latched = false → s.power.vinOk = true →
    r + msTicks 1000 ≤ t →
    Gives (.hsRetry t) s (fun u => u.power = { s.power with retries := s.power.retries + 1, retryAt := none, gateOn := true, ramping := true, pgood := false, rampAt := u.time, pgoodAt := none }
    ∧ Keeps [.time, .power] s u)) ∧
  (∀ (s : State) (t : Nat), s.power.retryAt = none ∨ s.power.latched = true ∨ s.power.vinOk = false →
    Gives (.hsRetry t) s (fun u => Keeps [.time] s u)) ∧
  (∀ (s : State) (g t : Nat), s.power.pgoodAt = some g → g + msTicks 10000 ≤ t →
    Gives (.retriesClear t) s (fun u => u.power = { s.power with retries := 0 }
    ∧ Keeps [.time, .power] s u)) ∧
  (∀ (s : State) (v t : Nat), v < 37500 → s.power.gateOn = true →
    Gives (.vinUndervoltage v t) s (fun u => u.power.gateOn = false ∧ u.power.pgood = false
    ∧ u.power.ramping = false ∧ u.power.hsCause = 5 ∧ u.bring.cause = 9 ∧ u.bring.ready = false
    ∧ u.bring.wakeStep = 0 ∧ u.mem = [] ∧ u.tiers = State.reset.tiers ∧ u.hif = State.reset.hif
    ∧ u.fw = Firmware.reset ∧ u.backup.cfg = s.backup.cfg ∧ u.hostMem = s.hostMem ∧ u.pending = s.pending
    ∧ u.thermal.nodes = s.thermal.nodes ∧ u.power.vinOk = false)) ∧
  (∀ (s : State) (v t : Nat), v < 37500 → s.power.gateOn = false →
    Gives (.vinUndervoltage v t) s (fun u => u.power = { s.power with vinOk := false, vin := BitVec.ofNat 16 v }
    ∧ Keeps [.time, .power] s u)) ∧
  (∀ (s : State) (v t : Nat), 63000 < v → s.power.gateOn = true →
    Gives (.vinOvervoltage v t) s (fun u => u.power.gateOn = false ∧ u.power.pgood = false
    ∧ u.power.ramping = false ∧ u.power.hsCause = 4 ∧ u.bring.cause = 9 ∧ u.bring.ready = false
    ∧ u.bring.wakeStep = 0 ∧ u.mem = [] ∧ u.tiers = State.reset.tiers ∧ u.hif = State.reset.hif
    ∧ u.fw = Firmware.reset ∧ u.backup.cfg = s.backup.cfg ∧ u.hostMem = s.hostMem ∧ u.pending = s.pending
    ∧ u.thermal.nodes = s.thermal.nodes ∧ u.power.vinOk = false)) ∧
  (∀ (s : State) (v t : Nat), 63000 < v → s.power.gateOn = false →
    Gives (.vinOvervoltage v t) s (fun u => u.power = { s.power with vinOk := false, vin := BitVec.ofNat 16 v }
    ∧ Keeps [.time, .power] s u)) ∧
  (∀ (s : State) (v t : Nat), s.power.pgood = true → 10 * s.power.hwLimit.toNat < v → s.power.clamp = 64 →
    Gives (.hwPowerClamp v t) s (fun u => u.power = { s.power with clamp := 32, clampAt := u.time }
    ∧ s.raised u [ST_PWR_LIMIT_HW] ∧ Keeps [.time, .events, .trace, .power] s u)) ∧
  (∀ (s : State) (v t : Nat), s.power.pgood = true → 10 * s.power.hwLimit.toNat < v → s.power.clamp = 32 →
    s.power.clampAt + msTicks 1 ≤ t →
    Gives (.hwPowerClamp v t) s (fun u => u.power = { s.power with clamp := 16 }
    ∧ Keeps [.time, .power] s u)) ∧
  (∀ (s : State) (v t : Nat), s.power.pgood = false ∨ v ≤ 10 * s.power.hwLimit.toNat →
    Gives (.hwPowerClamp v t) s (fun u => Keeps [.time] s u)) ∧
  (∀ (s : State) (v t : Nat), 100 * v < 950 * s.power.hwLimit.toNat →
    Gives (.hwPowerClampRelease v t) s (fun u => u.power = { s.power with clamp := 64 }
    ∧ Keeps [.time, .power] s u)) ∧
  (∀ (s : State) (v t : Nat), 950 * s.power.hwLimit.toNat ≤ 100 * v →
    Gives (.hwPowerClampRelease v t) s (fun u => Keeps [.time] s u)) ∧
  (∀ (s : State) (v t : Nat), s.power.pgood = true → s.power.icur = false → 10 * s.power.ilim.toNat < v →
    Gives (.inputCurrentEmergency v t) s (fun u => u.power = { s.power with icur := true, icurAt := u.time }
    ∧ s.raised u [ST_PWR_INPUT_CURRENT] ∧ Keeps [.time, .events, .trace, .power] s u)) ∧
  (∀ (s : State) (v t : Nat), v < 9 * s.power.ilim.toNat →
    Gives (.inputCurrentRelease v t) s (fun u => u.power = { s.power with icur := false }
    ∧ Keeps [.time, .power] s u)) ∧
  (∀ (s : State) (t i : Nat) (m : Measured), s.thermal.shutAt = none → s.thermal.warn = false →
    (s.thermal.nodes.all (fun n => !n.2.throttled && !n.2.backstop)) = true →
    ((((s.at t).measure m).estimate m).thermal.nodes.all (fun n => decide (n.2.temp < celsius 95))) = true →
    i < 64 →
    Gives (.estimatorUpdate m t) s (fun u => (u.thermNode i).fast = thermStep (s.thermNode i).fast (14000 * (1000 * ((m.quays[i]?).getD 0 : Nat))) 48770575499
    ∧ (u.thermNode i).slow = thermStep (s.thermNode i).slow (9000 * (1000 * ((m.quays[i]?).getD 0 : Nat))) 666444494
    ∧ (u.thermNode i).temp = u.coolant + (u.thermNode i).fast + (u.thermNode i).slow + (if i < 32 then u.thermal.dieE else u.thermal.dieW)
    ∧ u.power.vin = BitVec.ofNat 16 m.vin ∧ u.power.pin = BitVec.ofNat 16 m.pin
    ∧ u.power.energy = s.power.energy + BitVec.ofNat 64 m.energy ∧ u.power.gateOn = s.power.gateOn
    ∧ u.power.softLimit = s.power.softLimit ∧ u.thermal.warn = false ∧ u.thermal.shutAt = none
    ∧ Keeps [.time, .power, .thermal] s u)) ∧
  (∀ (s : State) (t : Nat) (m : Measured), s.thermal.shutAt = none →
    ((((s.at t).measure m).estimate m).thermal.nodes.any (fun n => decide (celsius 110 ≤ n.2.temp))) = true
    → Gives (.estimatorUpdate m t) s (fun u => u.thermal.shutAt = some u.time
    ∧ u.thermal.shutdowns = BitVec.ofNat 16 (satAdd 16 s.thermal.shutdowns.toNat 1) ∧ u.power.thmOff = true
    ∧ u.power.gateOn = s.power.gateOn ∧ u.backup.cause = 6 ∧ u.bring.cause = 6 ∧ u.bring.ready = false
    ∧ u.mem = [] ∧ u.graph = State.reset.graph ∧ u.hostMem = s.hostMem)) ∧
  (∀ (s : State) (t : Nat) (m : Measured), s.thermal.shutAt = none → s.thermal.warn = false →
    (s.thermal.nodes.all (fun n => !n.2.throttled && !n.2.backstop)) = true →
    ((((s.at t).measure m).estimate m).thermal.nodes.all (fun n => decide (n.2.temp < celsius 100))) = true
    → ((((s.at t).measure m).estimate m).thermal.nodes.any (fun n => decide (celsius 95 ≤ n.2.temp))) = true
    → Gives (.estimatorUpdate m t) s (fun u => u.thermal.warn = true ∧ u.thermal.shutAt = none
    ∧ s.raised u [ST_THM_WARN] ∧ Keeps [.time, .events, .trace, .power, .thermal] s u)) ∧
  (∀ (s : State) (a t : Nat), s.thermal.shutAt = some a →
    (s.thermal.nodes.all (fun n => decide (n.2.temp < celsius 80))) = true → a + msTicks 30000 ≤ t →
    s.power.pgood = true → Gives (.thmRestart t) s (fun u => u.thermal = { s.thermal with shutAt := none }
    ∧ u.power = { s.power with thmOff := false } ∧ u.bring.waking = true ∧ u.bring.wakeStep = 0
    ∧ u.bring.stepAt = u.time ∧ u.backup.count = BitVec.ofNat 32 (satAdd 32 s.backup.count.toNat 1)
    ∧ u.backup.cfg = s.backup.cfg ∧ u.backup.cause = 6 ∧ u.bring.thmRestart = true
    ∧ Keeps [.time, .power, .thermal, .bring, .backup] s u)) ∧
  (∀ (s : State) (a t : Nat), s.thermal.shutAt = some a → max s.time t < a + msTicks 30000 →
    Gives (.thmRestart t) s (fun u => Keeps [.time] s u)) ∧
  (∀ (s : State) (a b : Int) (t : Nat), -160 ≤ a → a ≤ 1600 → -160 ≤ b → b ≤ 1600 →
    Gives (.coolantSensorRead a b t) s (fun u => u.thermal = { s.thermal with inlet := BitVec.ofInt 16 a, outlet := BitVec.ofInt 16 b, inFail := false, outFail := false }
    ∧ Keeps [.time, .thermal] s u)) ∧
  (∀ (s : State) (a b : Int) (t : Nat), a < -160 ∨ 1600 < a → s.thermal.inFail = false → -160 ≤ b → b ≤ 1600
    →
    Gives (.coolantSensorRead a b t) s (fun u => u.thermal = { s.thermal with inlet := BitVec.ofInt 16 a, outlet := BitVec.ofInt 16 b, inFail := true, outFail := false }
    ∧ s.raised u [ST_COOL_SENSOR] ∧ Keeps [.time, .events, .trace, .thermal] s u)) ∧
  (∀ (s : State) (t q : Nat), s.coreRuns 65 = true → 10 * s.power.softLimit.toNat < s.power.pin.toNat →
    s.livePace = [q] → Gives (.softLimitTick t) s (fun u => u.power = { s.power with lowMs := 0 }
    ∧ (u.quay q).limits = (s.quay q).limits.lower ∧ (u.quay q).pace.step.toNat ≤ 70
    ∧ OnlyAt s.quays u.quays q ∧ Keeps [.time, .quays, .trace, .power] s u)) ∧
  (∀ (s : State) (t q : Nat), s.coreRuns 65 = true → s.power.pin.toNat ≤ 10 * s.power.softLimit.toNat →
    100 * s.power.pin.toNat < 970 * s.power.softLimit.toNat → 9 ≤ s.power.lowMs → s.livePace = [q] →
    Gives (.softLimitTick t) s (fun u => u.power = { s.power with lowMs := s.power.lowMs + 1 }
    ∧ (u.quay q).limits = (s.quay q).limits.restore ∧ OnlyAt s.quays u.quays q
    ∧ Keeps [.time, .quays, .trace, .power] s u)) ∧
  (∀ (s : State) (t : Nat), s.coreRuns 65 = true → s.power.pin.toNat ≤ 10 * s.power.softLimit.toNat →
    970 * s.power.softLimit.toNat ≤ 100 * s.power.pin.toNat →
    Gives (.softLimitTick t) s (fun u => u.power = { s.power with lowMs := 0 } ∧ Keeps [.time, .power] s u)) ∧
  (∀ (s : State) (t q : Nat), s.coreRuns 65 = true → q < 64 → (s.thermNode 64).throttled = false →
    (s.thermNode q).throttled = true →
    Gives (.throttleTick t) s (fun u => (u.quay q).limits.thmStep = riseTo (s.quay q).limits.thmStep (thermalLimits (throttleFactor (s.thermNode q).temp) (s.quay q).limits.reqStep).1
    ∧ (u.quay q).limits.thmIssue = riseTo (s.quay q).limits.thmIssue (thermalLimits (throttleFactor (s.thermNode q).temp) (s.quay q).limits.reqStep).2
    ∧ (u.quay q).limits.reqStep = (s.quay q).limits.reqStep ∧ u.thermal.nodes = s.thermal.nodes
    ∧ Keeps [.time, .quays, .trace, .thermal] s u)) ∧
  (∀ (s : State) (t n : Nat), s.coreRuns 65 = true → n < 12 →
    Gives (.throttleTick t) s (fun u => (Table.find u.thermal.duty n).map (·.toNat) = some ((if (s.thermNode (65 + n)).throttled then max 1 (64 * throttleFactor (s.thermNode (65 + n)).temp / 10000000000).toNat else riseTo (min 64 (Table.getD s.thermal.duty n 0x40#7).toNat) 64) % 128)
    ∧ u.thermal.nodes = s.thermal.nodes ∧ u.thermal.cmd = s.thermal.cmd
    ∧ Keeps [.time, .quays, .trace, .thermal] s u)) ∧
  (∀ (s : State) (t : Nat), s.coreRuns 65 = false → Gives (.throttleTick t) s (fun u => Keeps [.time] s u)) ∧
  (∀ (s : State) (fb t : Nat), s.valveForced = true → s.thermal.cmd = 100 → 95 ≤ fb → fb ≤ 100 →
    s.thermal.nearSince = none → s.thermal.offSince = none →
    Gives (.valveTick fb t) s (fun u => u.thermal.cmd = 100 ∧ u.thermal.fb = BitVec.ofNat 7 fb
    ∧ u.thermal.fbLost = false ∧ u.thermal.nearSince = some u.time ∧ u.thermal.offSince = none
    ∧ u.thermal.valveAt = u.time ∧ u.thermal.nodes = s.thermal.nodes ∧ Keeps [.time, .thermal] s u)) ∧
  (∀ (s : State) (fb n t : Nat), s.valveForced = false → s.thermal.mode = true →
    s.thermal.position.toNat ≤ 100 → s.thermal.cmd.toNat ≤ 100 → s.thermal.position < s.thermal.cmd →
    n * msTicks 50 ≤ max s.time t - s.thermal.valveAt →
    max s.time t - s.thermal.valveAt < (n + 1) * msTicks 50 →
    Gives (.valveTick fb t) s (fun u => u.thermal.cmd.toNat = max s.thermal.position.toNat (s.thermal.cmd.toNat - n)
    ∧ u.thermal.fb = BitVec.ofNat 7 (min 100 fb) ∧ u.thermal.fbLost = false
    ∧ u.thermal.position = s.thermal.position ∧ u.thermal.mode = true ∧ Keeps [.time, .thermal] s u)) ∧
  (∀ (s : State) (t : Nat), s.thermal.stuck = false →
    Gives (.valveFbLost t) s (fun u => u.thermal = { s.thermal with stuck := true, fbLost := true, nearSince := none }
    ∧ s.raised u [ST_VALVE_STUCK] ∧ Keeps [.time, .events, .trace, .thermal] s u)) ∧
  (∀ (s : State) (t : Nat), s.thermal.stuck = true →
    Gives (.valveFbLost t) s (fun u => u.thermal = { s.thermal with fbLost := true, nearSince := none }
    ∧ Keeps [.time, .thermal] s u)) ∧
  (∀ (s : State) (a t : Nat), s.thermal.offSince = some a → a + msTicks 8000 ≤ t → s.thermal.stuck = false →
    Gives (.valveStuck t) s (fun u => u.thermal = { s.thermal with stuck := true }
    ∧ s.raised u [ST_VALVE_STUCK] ∧ Keeps [.time, .events, .trace, .thermal] s u)) ∧
  (∀ (s : State) (a t : Nat), s.thermal.offSince = some a → max s.time t < a + msTicks 8000 →
    Gives (.valveStuck t) s (fun u => Keeps [.time] s u))

/-- A stopped core makes a capture and raises its event; a source of reset loses what a reset loses,
keeps the backup domain and starts a wake, or joins the stretch that runs; the watchdog is
armed, kicked and expires; each wake step completes or is retried and then gives up its rails
or fails; after the wake the tests and trainings build the map, fills poison, firmware
initialisation places the reservations, and READY raises the record of the wake; a task past
its limit is taken as ended; the loss of AUX power loses all but the backup domain, and its
return restarts the time base. -/
def Obligations.ResetEvents : Prop :=
  (∀ (s : State) (core c t : Nat), core < 67 → s.coreRuns core = true → core = 64 ∨ core = 65 →
    s.fw.state = 2 →
    Gives (.coreWatchdog core c t) s (fun u => u.fw.stopped = s.fw.stopped ||| BitVec.ofNat 67 (2 ^ core)
    ∧ u.fw.state = 4
    ∧ (u.fw.captures.getLast?).map (fun x => (x.cause, x.core, x.time)) = some (if c = 1 then 1 else 2, core, u.time)
    ∧ u.fw.captures.length = min 8 (s.fw.captures.length + 1) ∧ s.raised u [ST_FW_CORE_STOPPED]
    ∧ Keeps [.time, .free, .events, .trace, .fw] s u)) ∧
  (∀ (s : State) (core c t : Nat), core < 67 → s.coreRuns core = true → core < 64 → s.fw.state = 2 →
    s.graph.graphs = [] →
    Gives (.coreWatchdog core c t) s (fun u => u.fw.stopped = s.fw.stopped ||| BitVec.ofNat 67 (2 ^ core)
    ∧ u.fw.state = 4 ∧ u.quay core = { s.quay core with ccState := 4 } ∧ OnlyAt s.quays u.quays core
    ∧ s.raised u [ST_FW_CORE_STOPPED] ∧ Keeps [.time, .free, .events, .trace, .fw, .quays] s u)) ∧
  (∀ (s : State) (c t : Nat), s.coreRuns 66 = true → s.fw.state = 2 →
    Gives (.coreWatchdog 66 c t) s (fun u => u.fw.stopped = s.fw.stopped ||| BitVec.ofNat 67 (2 ^ 66)
    ∧ u.fw.state = 4 ∧ u.pilot = { s.pilot with frozen := true } ∧ s.raised u [ST_FW_CORE_STOPPED]
    ∧ Keeps [.time, .free, .events, .trace, .fw, .pilot] s u)) ∧
  (∀ (s : State) (core c t : Nat), 67 ≤ core ∨ s.coreRuns core = false →
    Gives (.coreWatchdog core c t) s (fun u => Keeps [.time] s u)) ∧
  (∀ (s : State), Gives (.auxPowerOn) s (fun u => u.time = 0 ∧ u.backup = s.backup
    ∧ u.bring = { Bring.reset with vbat := s.bring.vbat, perstN := s.bring.perstN, resetN := s.bring.resetN }
    ∧ u.power = Power.reset ∧ u.thermal = Thermal.reset ∧ u.i3c = I3c.reset ∧ u.fw = Firmware.reset
    ∧ u.mem = [] ∧ u.hif = State.reset.hif ∧ u.hostMem = s.hostMem ∧ u.pending = s.pending
    ∧ u.free = s.free)) ∧
  (∀ (s : State) (t : Nat), s.thermal.shutAt = none → s.bring.vaux = true → s.bring.stretch = none →
    s.bring.ready = true → s.bring.waking = false → s.bring.failed = false → s.power.pgood = true →
    Gives (.perstNAssert t) s (fun u => u.bring.stretch = some u.time ∧ u.bring.sources = 2
    ∧ u.bring.waking = true ∧ u.bring.wakeStep = 0 ∧ u.bring.ready = false ∧ u.backup.cause = 2
    ∧ u.backup.sources = 2 ∧ u.backup.count = BitVec.ofNat 32 (satAdd 32 s.backup.count.toNat 1)
    ∧ u.fw = { Firmware.reset with captures := s.fw.captures } ∧ u.mem = [] ∧ u.graph = State.reset.graph
    ∧ u.hif = State.reset.hif ∧ u.tiers = State.reset.tiers ∧ u.quays = State.reset.quays
    ∧ u.events = State.reset.events ∧ u.backup.cfg = s.backup.cfg ∧ u.backup.fenceT1 = s.backup.fenceT1
    ∧ u.hostMem = s.hostMem ∧ u.pending = s.pending ∧ u.thermal.nodes = s.thermal.nodes
    ∧ u.power.gateOn = s.power.gateOn ∧ u.i3c.addr = s.i3c.addr ∧ u.bring.perstN = false)) ∧
  (∀ (s : State) (t : Nat), s.thermal.shutAt = none → s.bring.vaux = true → s.bring.stretch = none →
    s.bring.ready = true → s.bring.waking = false → s.bring.failed = false → s.power.pgood = true →
    Gives (.resetNAssert t) s (fun u => u.bring.stretch = some u.time ∧ u.bring.sources = 4
    ∧ u.bring.waking = true ∧ u.bring.wakeStep = 0 ∧ u.bring.ready = false ∧ u.backup.cause = 3
    ∧ u.backup.sources = 4 ∧ u.backup.count = BitVec.ofNat 32 (satAdd 32 s.backup.count.toNat 1)
    ∧ u.fw = { Firmware.reset with captures := s.fw.captures } ∧ u.mem = [] ∧ u.graph = State.reset.graph
    ∧ u.hif = State.reset.hif ∧ u.tiers = State.reset.tiers ∧ u.quays = State.reset.quays
    ∧ u.events = State.reset.events ∧ u.backup.cfg = s.backup.cfg ∧ u.backup.fenceT1 = s.backup.fenceT1
    ∧ u.hostMem = s.hostMem ∧ u.pending = s.pending ∧ u.thermal.nodes = s.thermal.nodes
    ∧ u.power.gateOn = s.power.gateOn ∧ u.i3c.addr = s.i3c.addr ∧ u.bring.resetN = false)) ∧
  (∀ (s : State) (t : Nat), s.thermal.shutAt = none → s.bring.vaux = true → s.bring.stretch.isSome = true →
    s.bring.failed = false → s.bring.waking = false →
    Gives (.resetNAssert t) s (fun u => u.bring = { s.bring with resetN := false, stretch := some u.time, sources := s.bring.sources ||| 4, cause := causeOf s.bring.cause (s.bring.sources ||| 4) }
    ∧ Keeps [.time, .bring] s u)) ∧
  (∀ (s : State) (t : Nat), s.thermal.shutAt.isSome = true ∨ s.bring.vaux = false →
    Gives (.perstNAssert t) s (fun u => u.bring = { s.bring with perstN := false }
    ∧ Keeps [.time, .bring] s u)) ∧
  (∀ (s : State) (l t : Nat), s.bring.stretch = some l → s.bring.vaux = true → l + msTicks 10 ≤ t →
    s.bring.waking = true ∨ s.bring.wakeStep ≠ 0 →
    Gives (.resetStretchEnd true true t) s (fun u => u.bring = { s.bring with perstN := true, resetN := true, stretch := none }
    ∧ Keeps [.time, .bring] s u)) ∧
  (∀ (s : State) (l t : Nat), s.bring.stretch = some l → s.bring.vaux = true → l + msTicks 10 ≤ t →
    s.bring.waking = false → s.bring.wakeStep = 0 → s.bring.failed = false → s.power.pgood = true →
    s.thermal.shutAt = none → Gives (.resetStretchEnd true true t) s (fun u => u.bring.waking = true
    ∧ u.bring.wakeStep = 0 ∧ u.bring.tries = 0 ∧ u.bring.stepAt = u.time
    ∧ u.backup.cause = BitVec.ofNat 4 s.bring.cause ∧ u.backup.sources = s.bring.sources
    ∧ u.bring.stretch = none ∧ u.bring.resetN = true ∧ Keeps [.time, .bring, .backup] s u)) ∧
  (∀ (s : State) (l t : Nat) (rn : Bool), s.bring.stretch = some l → max s.time t < l + msTicks 10 →
    Gives (.resetStretchEnd true rn t) s (fun u => u.bring = { s.bring with perstN := true }
    ∧ Keeps [.time, .bring] s u)) ∧
  (∀ (s : State) (t : Nat) (rn : Bool), s.bring.stretch = none →
    Gives (.resetStretchEnd true rn t) s (fun u => u.bring = { s.bring with perstN := true }
    ∧ Keeps [.time, .bring] s u)) ∧
  (∀ (s : State) (t : Nat), s.thermal.shutAt = none → s.bring.vaux = true → s.bring.stretch = none →
    s.bring.ready = true → s.bring.waking = false → s.bring.failed = false → s.power.pgood = true →
    s.bring.wdogMs ≠ 0 → s.bring.wdogAt + msTicks s.bring.wdogMs.toNat ≤ t →
    Gives (.moduleWatchdogExpiry t) s (fun u => u.bring.stretch = some u.time ∧ u.bring.sources = 8
    ∧ u.bring.waking = true ∧ u.bring.wakeStep = 0 ∧ u.bring.ready = false ∧ u.backup.cause = 4
    ∧ u.backup.sources = 8 ∧ u.backup.count = BitVec.ofNat 32 (satAdd 32 s.backup.count.toNat 1)
    ∧ u.fw = { Firmware.reset with captures := s.fw.captures } ∧ u.mem = [] ∧ u.graph = State.reset.graph
    ∧ u.hif = State.reset.hif ∧ u.tiers = State.reset.tiers ∧ u.quays = State.reset.quays
    ∧ u.events = State.reset.events ∧ u.backup.cfg = s.backup.cfg ∧ u.backup.fenceT1 = s.backup.fenceT1
    ∧ u.hostMem = s.hostMem ∧ u.pending = s.pending ∧ u.thermal.nodes = s.thermal.nodes
    ∧ u.power.gateOn = s.power.gateOn ∧ u.i3c.addr = s.i3c.addr)) ∧
  (∀ (s : State) (t : Nat),
    s.bring.wdogMs = 0 ∨ max s.time t < s.bring.wdogAt + msTicks s.bring.wdogMs.toNat →
    Gives (.moduleWatchdogExpiry t) s (fun u => Keeps [.time] s u)) ∧
  (∀ (s : State) (r : Requester) (v t : Nat), r = .host 0 ∨ r = .i3c ∨ r = .security →
    Gives (.rstWdogKick r v t) s (fun u => (v = 0x4B1D → u.bring = { s.bring with wdogAt := u.time })
    ∧ (v ≠ 0x4B1D → u.bring = s.bring) ∧ Keeps [.time, .bring] s u)) ∧
  (∀ (s : State) (r : Requester) (v t : Nat), r ≠ .host 0 → r ≠ .i3c → r ≠ .security →
    Gives (.rstWdogKick r v t) s (fun u => Keeps [.time] s u)) ∧
  (∀ (s : State) (r : Requester) (v t : Nat), r = .host 0 ∨ r = .i3c ∨ r = .security →
    Gives (.rstWdogCtrlWrite r v t) s (fun u => u.bring = { s.bring with wdogMs := BitVec.ofNat 16 v, wdogAt := u.time }
    ∧ Keeps [.time, .bring] s u)) ∧
  (∀ (s : State) (r : Requester) (v t : Nat), r ≠ .host 0 → r ≠ .i3c → r ≠ .security →
    Gives (.rstWdogCtrlWrite r v t) s (fun u => Keeps [.time] s u)) ∧
  (∀ (s : State) (t : Nat), s.bring.waking = true → s.power.pgood = true → s.bring.wakeStep < 7 →
    Gives (.wakeStepDone t) s (fun u => u.bring = { s.bring with wakeStep := s.bring.wakeStep + 1, tries := 0, stepAt := u.time }
    ∧ Keeps [.time, .bring] s u)) ∧
  (∀ (s : State) (t : Nat), s.bring.waking = true → s.power.pgood = true → s.bring.wakeStep = 7 →
    s.bring.stretch = none → s.bring.thmRestart = false →
    Gives (.wakeStepDone t) s (fun u => u.bring.wakeStep = 8 ∧ u.bring.waking = false
    ∧ u.bring.tasksAt = u.time ∧ u.bring.cfg = s.backup.cfg
    ∧ u.power.hwLimit = BitVec.ofNat 11 (hwLimitOf (bits (Table.getD s.backup.cfg 1 0).toNat 0 11))
    ∧ u.power.softLimit = u.power.hwLimit ∧ u.power.hwWritten = true ∧ u.thermal.cmd = 100
    ∧ u.fab.harbour = bit (Table.getD s.backup.cfg 0 0).toNat 9
    ∧ u.fab.twinMode = bit (Table.getD s.backup.cfg 0 0).toNat 10
    ∧ u.mapMode = bit (Table.getD s.backup.cfg 0 0).toNat 4
    ∧ Keeps [.time, .fab, .power, .thermal, .bring, .mapMode] s u)) ∧
  (∀ (s : State) (t : Nat), s.bring.waking = false ∨ s.power.pgood = false →
    Gives (.wakeStepDone t) s (fun u => Keeps [.time] s u)) ∧
  (∀ (s : State) (l : List Nat) (r t : Nat), s.bring.waking = true → s.bring.wakeStep < 6 →
    ((stepRails (s.bring.wakeStep + 1)).filter (fun r => l.contains r)).head? = some r →
    s.bring.stepAt + msTicks 50 ≤ t → s.bring.tries < 3 →
    Gives (.wakeStepTimeout l t) s (fun u => u.bring = { s.bring with tries := s.bring.tries + 1, stepAt := u.time + msTicks 1 }
    ∧ Keeps [.time, .bring] s u)) ∧
  (∀ (s : State) (l : List Nat) (r t : Nat), s.bring.waking = true →
    s.bring.wakeStep = 0 ∨ s.bring.wakeStep = 1 ∨ s.bring.wakeStep = 4 →
    ((stepRails (s.bring.wakeStep + 1)).filter (fun r => l.contains r)).head? = some r →
    s.bring.stepAt + msTicks 50 ≤ t → 3 ≤ s.bring.tries →
    Gives (.wakeStepTimeout l t) s (fun u => u.bring.failed = true ∧ u.bring.waking = false
    ∧ u.bring.ready = false ∧ u.backup.wakeFailed = true
    ∧ u.backup.failStep = BitVec.ofNat 4 (s.bring.wakeStep + 1) ∧ u.backup.failRail = BitVec.ofNat 8 r
    ∧ u.backup.cfg = s.backup.cfg ∧ u.mem = [] ∧ u.graph = State.reset.graph ∧ u.hif = State.reset.hif
    ∧ u.tiers = State.reset.tiers ∧ u.quays = State.reset.quays ∧ u.events = State.reset.events)) ∧
  (∀ (s : State) (l : List Nat) (t : Nat), s.bring.waking = true →
    s.bring.wakeStep = 2 ∨ s.bring.wakeStep = 5 →
    (stepRails (s.bring.wakeStep + 1)).filter (fun r => l.contains r) ≠ [] → s.bring.stepAt + msTicks 50 ≤ t
    → 3 ≤ s.bring.tries →
    (railsStacks (s.bring.outRails ++ (stepRails (s.bring.wakeStep + 1)).filter (fun r => l.contains r))).length ≠ 12
    →
    Gives (.wakeStepTimeout l t) s (fun u => u.bring = { s.bring with wakeStep := s.bring.wakeStep + 1, tries := 0, stepAt := u.time, outRails := s.bring.outRails ++ (stepRails (s.bring.wakeStep + 1)).filter (fun r => l.contains r) }
    ∧ Keeps [.time, .bring] s u)) ∧
  (∀ (s : State) (l : List Nat) (t : Nat), s.bring.waking = true → s.bring.wakeStep = 6 →
    s.bring.stepAt + msTicks 50 ≤ t → 3 ≤ s.bring.tries →
    Gives (.wakeStepTimeout l t) s (fun u => u.onRing = true ∧ u.refclkFailSeen = true
    ∧ u.bring = { s.bring with wakeStep := 7, tries := 0, stepAt := u.time, refLost := true }
    ∧ Keeps [.time, .onRing, .refclkFailSeen, .bring] s u)) ∧
  (∀ (s : State) (t : Nat), s.bring.wakeStep = 8 → s.bring.waking = false →
    Gives (.pcieLinkUp t) s (fun u => u.bring = { s.bring with pcieUp := true }
    ∧ Keeps [.time, .bring] s u)) ∧
  (∀ (s : State) (t : Nat), s.bring.waking = true ∨ s.bring.wakeStep ≠ 8 →
    Gives (.pcieLinkUp t) s (fun u => Keeps [.time] s u)) ∧
  (∀ (s : State) (bad : Table (BitVec 68)) (t : Nat), s.bring.wakeStep = 8 → s.bring.waking = false →
    s.bring.tileTest = false → s.bring.outRails = [] →
    ((List.range 64).all (fun q => (mapSpares (Table.getD bad q 0)).isSome)) = true →
    Gives (.tileTestDone bad t) s (fun u => u.bring = { s.bring with tileTest := true }
    ∧ ((List.range 64).all (fun q => (u.quay q).inService && (u.quay q).failed == Table.getD bad q 0 && some (u.quay q).spares == mapSpares (Table.getD bad q 0))) = true
    ∧ Keeps [.time, .quays, .bring] s u)) ∧
  (∀ (s : State) (bad : Table (BitVec 68)) (t : Nat), s.bring.tileTest = true ∨ s.bring.wakeStep ≠ 8 →
    Gives (.tileTestDone bad t) s (fun u => Keeps [.time] s u)) ∧
  (∀ (s : State) (bad : BitVec 768) (t n : Nat), s.bring.wakeStep = 8 → s.bring.waking = false →
    s.bring.t1Trained = false → s.bring.t2Trained = false → n < 12 →
    Gives (.t1TrainingDone bad t) s (fun u => u.bring = { s.bring with t1Trained := true }
    ∧ Table.getD u.tiers.pcOut n 0 = (if (railsStacks s.bring.outRails).contains n then BitVec.allOnes 64 else BitVec.ofNat 64 (bits bad.toNat (64 * n) 64) ||| Table.getD s.backup.fenceT1 n 0)
    ∧ u.tiers.pcFenced = [] ∧ u.tiers.t1Up = s.tiers.t1Up ∧ u.tiers.chans = s.tiers.chans
    ∧ Keeps [.time, .tiers, .bring] s u)) ∧
  (∀ (s : State) (bad : BitVec 16) (t : Nat), s.bring.wakeStep = 8 → s.bring.waking = false →
    s.bring.t1Trained = false → s.bring.t2Trained = false →
    Gives (.t2TrainingDone bad t) s (fun u => u.bring = { s.bring with t2Trained := true }
    ∧ ((List.range 16).all (fun n => (u.chan n).state == if bad.getLsbD n || s.backup.fenceT2.getLsbD n || s.bring.outRails.contains (81 + n / 8) then 4 else 1)) = true
    ∧ ((List.range 16).all (fun n => u.tiers.chIn.getLsbD n == !(bad.getLsbD n || s.backup.fenceT2.getLsbD n || s.bring.outRails.contains (81 + n / 8)))) = true
    ∧ u.tiers.pcOut = s.tiers.pcOut ∧ Keeps [.time, .tiers, .bring] s u)) ∧
  (∀ (s : State) (bad : BitVec 16) (t : Nat), s.bring.wakeStep = 8 → s.bring.waking = false →
    s.bring.t1Trained = true → s.bring.t2Trained = false → s.tiers.t1Up = false →
    bits (Table.getD s.bring.cfg 0 0).toNat 0 3 ≤ 4 → s.pcTotal ≠ 0 →
    Gives (.t2TrainingDone bad t) s (fun u => u.tiers.t1Up = true ∧ u.tiers.t2Up = true
    ∧ u.tiers.spread = bits (Table.getD s.bring.cfg 0 0).toNat 0 3 ∧ u.t1Top = s.pcTotal * 2 ^ 30
    ∧ u.bring.t2Trained = true
    ∧ ((List.range 16).all (fun n => (u.chan n).state == if bad.getLsbD n || s.backup.fenceT2.getLsbD n || s.bring.outRails.contains (81 + n / 8) then 4 else 1)) = true
    ∧ ((List.range 16).all (fun n => u.tiers.chIn.getLsbD n == !(bad.getLsbD n || s.backup.fenceT2.getLsbD n || s.bring.outRails.contains (81 + n / 8)))) = true
    ∧ Keeps [.time, .tiers, .bring] s u)) ∧
  (∀ (s : State) (t : Nat), s.tiers.t1Up = true → s.tiers.t1Filled = false → s.tiers.held = [] →
    Gives (.fillDone 0 t) s (fun u => u.tiers = { s.tiers with t1Filled := true }
    ∧ SameOutside s.mem u.mem 0 s.t1Top ∧ Keeps [.time, .free, .mem, .tiers] s u)) ∧
  (∀ (s : State) (t : Nat), s.tiers.t2Up = true → s.tiers.t2Filled = false → s.tiers.held = [] →
    (s.resv 6).2 = 0 → Gives (.fillDone 1 t) s (fun u => u.tiers = { s.tiers with t2Filled := true }
    ∧ SameOutside s.mem u.mem tier2Base s.t2Top ∧ Keeps [.time, .free, .mem, .tiers] s u)) ∧
  (∀ (s : State) (t : Nat), s.bring.tileTest = true → s.bring.tilesFilled = false →
    Gives (.fillDone 2 t) s (fun u => u.bring = { s.bring with tilesFilled := true }
    ∧ SameOutside s.mem u.mem tileWindows (tileWindows + 0x40000000)
    ∧ Keeps [.time, .free, .mem, .bring] s u)) ∧
  (∀ (s : State) (w t : Nat), 3 ≤ w → Gives (.fillDone w t) s (fun u => Keeps [.time] s u)) ∧
  (∀ (s : State) (t : Nat), s.fw.state = 2 → s.tiers.t1Filled = true → s.bring.fwInit = false → s.t1Top = 0
    → s.logGib = 0 → bits (Table.getD s.bring.cfg 0 0).toNat 16 10 = 0 →
    (Table.getD s.bring.cfg 0 0).getLsbD 11 = false → s.tiers.resv = [] →
    Gives (.fwInitDone t) s (fun u => u.bring = { s.bring with fwInit := true }
    ∧ u.power = { s.power with ilim := BitVec.ofNat 9 (max 100 (min 450 (bits (Table.getD s.bring.cfg 1 0).toNat 16 9))) }
    ∧ u.mem = s.mem ∧ u.events = s.events ∧ u.fab = s.fab
    ∧ Keeps [.time, .free, .mem, .tiers, .events, .trace, .fab, .power, .bring] s u)) ∧
  (∀ (s : State) (t : Nat), s.fw.state ≠ 2 ∨ s.tiers.t1Filled = false ∨ s.bring.fwInit = true →
    Gives (.fwInitDone t) s (fun u => Keeps [.time] s u)) ∧
  (∀ (s : State) (t : Nat), s.bring.ready = false → s.bring.fwInit = true → s.tiers.t1Filled = true →
    s.tiers.t2Filled = true → s.bring.tilesFilled = true → s.backup.shorts = 0 → s.backup.latch = false →
    s.backup.cause ≠ 9 → s.backup.wakeFailed = true → s.bring.refLost = false → s.bring.outRails = [] →
    Gives (.bringupReady t) s (fun u => u.bring = { s.bring with ready := true }
    ∧ s.raised u [ST_RESET_CAUSE, ST_WAKE_FAILED]
    ∧ u.backup = { s.backup with shorts := 0, wakeFailed := false }
    ∧ Keeps [.time, .events, .trace, .bring, .backup] s u)) ∧
  (∀ (s : State) (t : Nat),
    s.bring.ready = true ∨ s.bring.fwInit = false ∨ s.tiers.t1Filled = false ∨ s.tiers.t2Filled = false ∨ s.bring.tilesFilled = false
    → Gives (.bringupReady t) s (fun u => Keeps [.time] s u)) ∧
  (∀ (s : State) (r t : Nat) (a : Table (BitVec 68)) (b : BitVec 768) (c : BitVec 16), s.bring.wakeStep = 8
    → s.bring.waking = false → msTicks 100 ≤ r → s.bring.tasksAt + r ≤ t → s.bring.pcieUp = false →
    Gives (.bringupTimeout 0 r a b c t) s (fun u => s.raised u [ST_BRINGUP_TIMEOUT] ∧ u.bring = s.bring
    ∧ Keeps [.time, .events, .trace] s u)) ∧
  (∀ (s : State) (r t : Nat) (a : Table (BitVec 68)) (b : BitVec 768) (c : BitVec 16), s.bring.wakeStep = 8
    → s.bring.waking = false → msTicks 200 ≤ r → s.bring.tasksAt + r ≤ t → s.fw.state = 2 →
    s.tiers.t1Filled = true → s.bring.fwInit = false →
    Gives (.bringupTimeout 6 r a b c t) s (fun u => s.raised u [ST_BRINGUP_TIMEOUT]
    ∧ u.fw = { s.fw with state := 4 } ∧ u.bring = s.bring ∧ Keeps [.time, .events, .trace, .fw] s u)) ∧
  (∀ (s : State) (task r t : Nat) (a : Table (BitVec 68)) (b : BitVec 768) (c : BitVec 16), r < msTicks (taskLimit task)
    → Gives (.bringupTimeout task r a b c t) s (fun u => Keeps [.time] s u)) ∧
  (∀ (s : State) (vb : Bool) (t : Nat),
    Gives (.auxPowerLoss vb t) s (fun u => u.bring = { Bring.reset with vaux := false, vbat := vb, perstN := s.bring.perstN, resetN := s.bring.resetN, stretch := none, sources := 0 }
    ∧ u.backup = (if vb then s.backup else Backup.reset) ∧ u.power = Power.reset ∧ u.thermal = Thermal.reset
    ∧ u.i3c = I3c.reset ∧ u.fw = Firmware.reset ∧ u.hostMem = s.hostMem ∧ u.pending = s.pending ∧ u.mem = []
    ∧ u.graph = State.reset.graph ∧ u.hif = State.reset.hif ∧ u.tiers = State.reset.tiers
    ∧ u.quays = State.reset.quays ∧ u.events = State.reset.events))

/-- CRASH_DUMP writes every capture held, oldest first, contiguously from the host address of its
first argument, and answers their total length; with no capture it answers 0; if its second
argument is less than the total it writes nothing and fails with ST_FW_DUMP_SIZE, the total in
its answer. The store is not cleared. -/
def Obligations.CrashDump : Prop :=
  (∀ (s : State) (iss : Issuer) (t : Nat) (a : Admitted), s.serves iss 0 0x0A02 a →
    (s.fw.captures.flatMap Capture.bytes).length ≤ (msgArg a.msg.toNat 1) →
    Gives (.crashDump iss t false) s (fun u => u.hostMem = Mem.writeBytes s.hostMem (msgArg a.msg.toNat 0) (s.fw.captures.flatMap Capture.bytes)
    ∧ u.fw = s.fw ∧ s.gave u iss 0 0x0A02 a 0 [(s.fw.captures.flatMap Capture.bytes).length] ∧ s.sameHif u
    ∧ Keeps [.time, .hostMem, .hif] s u)) ∧
  (∀ (s : State) (iss : Issuer) (t : Nat) (a : Admitted), s.serves iss 0 0x0A02 a → s.fw.captures = [] →
    Gives (.crashDump iss t false) s (fun u => u.hostMem = s.hostMem ∧ u.fw = s.fw
    ∧ s.gave u iss 0 0x0A02 a 0 [0] ∧ s.sameHif u ∧ Keeps [.time, .hostMem, .hif] s u)) ∧
  (∀ (s : State) (iss : Issuer) (t : Nat) (a : Admitted), s.serves iss 0 0x0A02 a →
    (msgArg a.msg.toNat 1) < (s.fw.captures.flatMap Capture.bytes).length →
    Gives (.crashDump iss t false) s (fun u => u.hostMem = s.hostMem ∧ u.fw = s.fw
    ∧ s.gave u iss 0 0x0A02 a ST_FW_DUMP_SIZE [(s.fw.captures.flatMap Capture.bytes).length] ∧ s.sameHif u
    ∧ Keeps [.time, .hostMem, .hif] s u))

/-- QUAY_PMAPn of a quay, at offset 0x80 + 4 n of its block, reads the physical tiles behind logical
tiles 4 n to 4 n + 3, one a byte, in floor-plan mode while the quay is in service, and 0x7F in
every byte in logical mode or when the quay is out of service, so at reset; bit 7 of every
byte reads 0; a write changes nothing but the answer. -/
def Obligations.PhysicalTiles : Prop :=
  (∀ (s : State) (r : Requester) (q n t : Nat), q < 64 → n < 16 → s.underReset q = false → s.mapMode = true
    → (s.quay q).inService = true → (s.quay q).outOfService = false →
    Gives (.memoryRead r (0x7F0000100080 + q * 0x10000 + 4 * n) 4 [] t) s (fun u => u.resp = { status := 0, addr := 0, data := [BitVec.ofNat 8 ((s.quay q).physical (4 * n + 0)), BitVec.ofNat 8 ((s.quay q).physical (4 * n + 1)), BitVec.ofNat 8 ((s.quay q).physical (4 * n + 2)), BitVec.ofNat 8 ((s.quay q).physical (4 * n + 3))] }
    ∧ (u.resp.data.all (fun b => !b.getLsbD 7)) = true
    ∧ Keeps [.pending, .time, .onRing, .tiles, .fw, .power, .thermal, .bring, .backup, .i3c, .agent, .resp] s u)) ∧
  (∀ (s : State) (r : Requester) (q n t : Nat), q < 64 → n < 16 → s.underReset q = false →
    s.mapMode = false ∨ (s.quay q).outOfService = true →
    Gives (.memoryRead r (0x7F0000100080 + q * 0x10000 + 4 * n) 4 [] t) s (fun u => u.resp = { status := 0, addr := 0, data := [0x7F, 0x7F, 0x7F, 0x7F] }
    ∧ Keeps [.pending, .time, .onRing, .tiles, .fw, .power, .thermal, .bring, .backup, .i3c, .agent, .resp] s u)) ∧
  (∀ (r : Requester) (q n t : Nat), q < 64 → n < 16 →
    Gives (.memoryRead r (0x7F0000100080 + q * 0x10000 + 4 * n) 4 [] t) State.reset (fun u => u.resp = { status := 0, addr := 0, data := [0x7F, 0x7F, 0x7F, 0x7F] })) ∧
  (∀ (s : State) (r : Requester) (q n v t : Nat), q < 64 → n < 16 → s.underReset q = false →
    Gives (.registerWrite r (0x7F0000100080 + q * 0x10000 + 4 * n) v t) s (fun u => u.resp = { status := 0, addr := 0, data := [] }
    ∧ Keeps [.time, .resp] s u))
end

