-- ==== Sys2Proof/Laws/Table.lean ====
section
/-! SUPPORT. Laws of sparse tables: what stands at an index after a write, a removal or a
change. -/

namespace Sys2Proof.Machine

variable {α : Type}

@[simp] theorem Table.find_nil (k : Nat) : Table.find ([] : Table α) k = none := rfl

@[simp] theorem Table.find_put_self (t : Table α) (k : Nat) (v : α) : Table.find (Table.put t k v) k = some v := by
  induction t with
  | nil => simp [Table.put, Table.find]
  | cons p r ih =>
    obtain ⟨a, x⟩ := p
    simp only [Table.put]
    split
    · simp [Table.find]
    · split
      · simp [Table.find]
      · rename_i h1 h2
        have : a ≠ k := fun h => h2 h.symm
        simp [Table.find, this, ih]

theorem Table.find_put_ne (t : Table α) {k j : Nat} (v : α) (h : j ≠ k) :
    Table.find (Table.put t k v) j = Table.find t j := by
  induction t with
  | nil => simp [Table.put, Table.find, Ne.symm h]
  | cons p r ih =>
    obtain ⟨a, x⟩ := p
    simp only [Table.put]
    split
    · simp [Table.find, Ne.symm h]
    · split
      · rename_i h1 h2
        subst h2
        simp [Table.find, Ne.symm h]
      · simp only [Table.find, ih]

@[simp] theorem Table.getD_put_self (t : Table α) (k : Nat) (v d : α) : Table.getD (Table.put t k v) k d = v := by
  simp [Table.getD]

theorem Table.getD_put_ne (t : Table α) {k j : Nat} (v d : α) (h : j ≠ k) :
    Table.getD (Table.put t k v) j d = Table.getD t j d := by
  simp [Table.getD, Table.find_put_ne t v h]

theorem Table.getD_put (t : Table α) (k j : Nat) (v d : α) :
    Table.getD (Table.put t k v) j d = if j = k then v else Table.getD t j d := by
  split
  · rename_i h; subst h; simp
  · rename_i h; exact Table.getD_put_ne t v d h

@[simp] theorem Table.find_del_self (t : Table α) (k : Nat) : Table.find (Table.del t k) k = none := by
  induction t with
  | nil => rfl
  | cons p r ih =>
    obtain ⟨a, x⟩ := p
    simp only [Table.del]
    split
    · exact ih
    · rename_i h; simp [Table.find, h, ih]

theorem Table.find_del_ne (t : Table α) {k j : Nat} (h : j ≠ k) :
    Table.find (Table.del t k) j = Table.find t j := by
  induction t with
  | nil => rfl
  | cons p r ih =>
    obtain ⟨a, x⟩ := p
    simp only [Table.del]
    split
    · rename_i ha; subst ha; simp [Table.find, Ne.symm h, ih]
    · simp only [Table.find, ih]

@[simp] theorem Table.getD_upd_self (t : Table α) (k : Nat) (d : α) (f : α → α) :
    Table.getD (Table.upd t k d f) k d = f (Table.getD t k d) := by
  simp [Table.upd]

theorem Table.getD_upd_ne (t : Table α) {k j : Nat} (d : α) (f : α → α) (h : j ≠ k) :
    Table.getD (Table.upd t k d f) j d = Table.getD t j d := Table.getD_put_ne t _ d h

end Sys2Proof.Machine
end

