-- ==== Sys2Proof/Laws/Mem.lean ====
section
/-! SUPPORT. Laws of byte memories: reads after writes, and the canonical form under
every operation. -/

namespace Sys2Proof.Machine

/-! ### Reads after writes -/

@[simp] theorem Mem.read_write_self (m : Mem) (a : Nat) (b : Byte) : Mem.read (Mem.write m a b) a = some b :=
  Table.find_put_self m a b

theorem Mem.read_write_ne (m : Mem) {a x : Nat} (b : Byte) (h : x ≠ a) :
    Mem.read (Mem.write m a b) x = Mem.read m x := Table.find_put_ne m b h

/-- Writing bytes leaves every other address alone. -/
theorem Mem.read_writeBytes_outside (bs : List Byte) : ∀ (m : Mem) (a x : Nat), (x < a ∨ a + bs.length ≤ x) →
    Mem.read (Mem.writeBytes m a bs) x = Mem.read m x := by
  induction bs with
  | nil => intro m a x _; rfl
  | cons b r ih =>
    intro m a x h
    simp only [Mem.writeBytes]
    simp only [List.length_cons] at h
    rw [ih _ _ _ (by omega), Mem.read_write_ne _ _ (by omega)]

/-- Reading back what was written. -/
theorem Mem.readBytes_writeBytes (bs : List Byte) : ∀ (m : Mem) (a : Nat),
    Mem.readBytes (Mem.writeBytes m a bs) a bs.length = some bs := by
  induction bs with
  | nil => intro m a; rfl
  | cons b r ih =>
    intro m a
    simp only [List.length_cons, Mem.writeBytes, Mem.readBytes]
    rw [Mem.read_writeBytes_outside r _ _ _ (by omega), Mem.read_write_self, ih]

/-- Reading outside what a filter drops, and inside it. -/
theorem Mem.read_filter (m : Mem) (p : Nat → Bool) (x : Nat) :
    Mem.read (m.filter (fun c => p c.1)) x = if p x then Mem.read m x else none := by
  induction m with
  | nil => simp [Mem.read]
  | cons c r ih =>
    obtain ⟨a, b⟩ := c
    simp only [Mem.read] at ih ⊢
    by_cases ha : a = x
    · subst ha
      by_cases hp : p a
      · simp [List.filter, hp, Table.find]
      · simp [List.filter, hp, ih]
    · by_cases hp : p a
      · simp [List.filter, hp, Table.find, ha, ih]
      · simp [List.filter, hp, Table.find, ha, ih]

theorem Mem.read_drop (m : Mem) (a n x : Nat) :
    Mem.read (Mem.drop m a n) x = if a ≤ x ∧ x < a + n then none else Mem.read m x := by
  have h := Mem.read_filter m (fun y => !(decide (a ≤ y) && decide (y < a + n))) x
  simp only [Mem.drop]
  rw [h]
  by_cases h1 : a ≤ x <;> by_cases h2 : x < a + n <;> simp [h1, h2]

/-! ### The canonical form -/

theorem Mem.wf_iff (m : Mem) : Mem.wf m = true ↔ m.Pairwise (fun a b => a.1 < b.1) := by
  simp [Mem.wf]

/-- A write keeps the addresses rising. -/
theorem Mem.wf_write (m : Mem) (a : Nat) (b : Byte) (h : Mem.wf m = true) : Mem.wf (Mem.write m a b) = true := by
  rw [Mem.wf_iff] at *
  simp only [Mem.write]
  induction m with
  | nil => simp [Table.put]
  | cons c r ih =>
    obtain ⟨k, x⟩ := c
    have h' := List.pairwise_cons.mp h
    simp only [Table.put]
    split
    · rename_i hlt
      refine List.pairwise_cons.mpr ⟨?_, h⟩
      intro y hy
      rcases List.mem_cons.mp hy with rfl | hy
      · exact hlt
      · exact Nat.lt_trans hlt (h'.1 y hy)
    · split
      · rename_i heq
        refine List.pairwise_cons.mpr ⟨?_, h'.2⟩
        intro y hy
        rw [heq]; exact h'.1 y hy
      · rename_i h1 h2
        refine List.pairwise_cons.mpr ⟨?_, ih h'.2⟩
        intro y hy
        have hm : ∀ (t : Mem) (y : Host.Cell), y ∈ Table.put t a b → y = (a, b) ∨ y ∈ t := by
          intro t
          induction t with
          | nil => intro y hy; simpa [Table.put] using hy
          | cons q u ihu =>
            obtain ⟨w, z⟩ := q
            intro y hy
            simp only [Table.put] at hy
            split at hy
            · simpa using hy
            · split at hy
              · rcases List.mem_cons.mp hy with h | h
                · exact .inl h
                · exact .inr (List.mem_cons_of_mem _ h)
              · rcases List.mem_cons.mp hy with h | h
                · exact .inr (by rw [h]; exact List.mem_cons_self)
                · rcases ihu y h with h | h
                  · exact .inl h
                  · exact .inr (List.mem_cons_of_mem _ h)
        rcases hm r y hy with rfl | hy
        · show k < a
          omega
        · exact h'.1 y hy

theorem Mem.wf_writeBytes (bs : List Byte) : ∀ (m : Mem) (a : Nat), Mem.wf m = true →
    Mem.wf (Mem.writeBytes m a bs) = true := by
  induction bs with
  | nil => intro m a h; exact h
  | cons b r ih => intro m a h; exact ih _ _ (Mem.wf_write m a b h)

/-- Taking entries away keeps the form. -/
theorem Mem.wf_filter (m : Mem) (p : Host.Cell → Bool) (h : Mem.wf m = true) : Mem.wf (m.filter p) = true := by
  rw [Mem.wf_iff] at *
  exact List.Pairwise.filter p h

theorem Mem.wf_drop (m : Mem) (a n : Nat) (h : Mem.wf m = true) : Mem.wf (Mem.drop m a n) = true :=
  Mem.wf_filter m _ h

theorem Mem.wf_fillZero (m : Mem) (a n : Nat) (h : Mem.wf m = true) : Mem.wf (Mem.fillZero m a n) = true := by
  rw [Mem.wf_iff] at *
  simp only [Mem.fillZero, List.append_assoc]
  refine List.pairwise_append.mpr ⟨List.Pairwise.filter _ h, List.pairwise_append.mpr ⟨?_, List.Pairwise.filter _ h, ?_⟩, ?_⟩
  · rw [List.pairwise_map]
    exact List.Pairwise.imp (fun hlt => by simpa using hlt) List.pairwise_lt_range
  · intro x hx y hy
    obtain ⟨i, hi, rfl⟩ := List.mem_map.mp hx
    have h1 := (List.mem_filter.mp hy).2
    simp only [decide_eq_true_eq] at h1
    have := List.mem_range.mp hi
    simp only
    omega
  · intro x hx y hy
    have h1 := (List.mem_filter.mp hx).2
    simp only [decide_eq_true_eq] at h1
    rcases List.mem_append.mp hy with hy | hy
    · obtain ⟨i, _, rfl⟩ := List.mem_map.mp hy
      simp only
      omega
    · have h2 := (List.mem_filter.mp hy).2
      simp only [decide_eq_true_eq] at h2
      omega

theorem Mem.wf_writeUnits (m : Mem) (u a : Nat) (bs : List Byte) (h : Mem.wf m = true) :
    Mem.wf (Mem.writeUnits m u a bs) = true := by
  simp only [Mem.writeUnits]
  generalize (List.range _) = l
  induction l generalizing m with
  | nil => exact h
  | cons i r ih =>
    simp only [List.foldl_cons]
    apply ih
    split
    · exact Mem.wf_writeBytes _ _ _ h
    · exact Mem.wf_drop _ _ _ h

end Sys2Proof.Machine
end

