-- ==== Sys2Proof/Laws/Access.lean ====
section
/-! SUPPORT. What reading memory does where nothing waits in a merge buffer: the bytes that
stand there are answered, and memory stays as it is. -/

namespace Sys2Proof.Machine

theorem State.retireAll_empty (s : State) (p : MergeEntry → Bool) (h : s.tiers.merge = []) :
    s.retireAll p = s := by
  simp [State.retireAll, h]

theorem State.touch_keeps (s : State) (a n : Nat) (r : Bool) :
    (s.touch a n r).mem = s.mem ∧ (s.touch a n r).tiers = s.tiers ∧ (s.touch a n r).log = s.log := by
  unfold State.touch
  split <;> exact ⟨rfl, rfl, rfl⟩

theorem State.logging_touch (s : State) (a n : Nat) (r : Bool) : (s.touch a n r).logging = s.logging := by
  unfold State.logging State.replaying
  rw [(s.touch_keeps a n r).2.2]

/-- Reading good bytes answers them. -/
theorem State.load_good (s : State) (a n : Nat) (bs : List Byte) (hm : s.tiers.merge = [])
    (hl : s.logging = false) (h : Mem.readBytes s.mem a n = some bs) : (s.load a n).1 = some bs := by
  unfold State.load
  rw [State.retireAll_empty s _ hm]
  have hl' : (s.touch a n true).logging = false := by rw [State.logging_touch, hl]
  simp only [hl', Bool.false_eq_true, ↓reduceIte, (s.touch_keeps a n true).1, h]
  split <;> rfl

theorem State.foldl_updChan_mem (l : List Nat) (f : State → Nat → Nat × (T2Chan → T2Chan)) :
    ∀ s : State, (l.foldl (fun s x => s.updChan (f s x).1 (f s x).2) s).mem = s.mem := by
  induction l with
  | nil => intro s; rfl
  | cons x r ih => intro s; rw [List.foldl_cons, ih]; rfl

theorem State.foldl_updChan_merge (l : List Nat) (f : State → Nat → Nat × (T2Chan → T2Chan)) :
    ∀ s : State, (l.foldl (fun s x => s.updChan (f s x).1 (f s x).2) s).tiers.merge = s.tiers.merge := by
  induction l with
  | nil => intro s; rfl
  | cons x r ih => intro s; rw [List.foldl_cons, ih]; rfl

theorem State.foldl_updChan_log (l : List Nat) (f : State → Nat → Nat × (T2Chan → T2Chan)) :
    ∀ s : State, (l.foldl (fun s x => s.updChan (f s x).1 (f s x).2) s).log = s.log := by
  induction l with
  | nil => intro s; rfl
  | cons x r ih => intro s; rw [List.foldl_cons, ih]; rfl

/-- Reading good bytes leaves memory, the merge buffers and the logbook as they are. -/
theorem State.load_good_keeps (s : State) (a n : Nat) (bs : List Byte) (hm : s.tiers.merge = [])
    (hl : s.logging = false) (h : Mem.readBytes s.mem a n = some bs) :
    (s.load a n).2.mem = s.mem ∧ (s.load a n).2.tiers.merge = [] ∧ (s.load a n).2.log = s.log := by
  unfold State.load
  rw [State.retireAll_empty s _ hm]
  have hl' : (s.touch a n true).logging = false := by rw [State.logging_touch, hl]
  obtain ⟨h1, h2, h3⟩ := s.touch_keeps a n true
  simp only [hl', Bool.false_eq_true, ↓reduceIte, h1, h]
  split
  · refine ⟨?_, ?_, ?_⟩
    · exact (State.foldl_updChan_mem _ (fun s x => (s.unitAt x - 1024, fun c =>
        { c with rd := c.rd + BitVec.ofNat 64 (min (a + n) (x + 128) - max a x) })) _).trans h1
    · exact (State.foldl_updChan_merge _ (fun s x => (s.unitAt x - 1024, fun c =>
        { c with rd := c.rd + BitVec.ofNat 64 (min (a + n) (x + 128) - max a x) })) _).trans (by rw [h2, hm])
    · exact (State.foldl_updChan_log _ (fun s x => (s.unitAt x - 1024, fun c =>
        { c with rd := c.rd + BitVec.ofNat 64 (min (a + n) (x + 128) - max a x) })) _).trans h3
  · exact ⟨h1, by rw [h2, hm], h3⟩

theorem State.logArb_off (s : State) (p : Nat) (w : BitVec 16) (h : s.logging = false) : s.logArb p w = s := by
  simp [State.logArb, h]

/-- Becoming the agent of an access changes the agent alone while nothing is logged. -/
theorem State.asAgent_keeps (s : State) (k u a : Nat) (h : s.logging = false) :
    s.asAgent k u a = { s with agent := agentOf k u } := by
  have hl (w : BitVec 16) : ({ s with agent := w } : State).logging = false := h
  unfold State.asAgent
  simp only
  split <;> (simp only [State.logArb_off _ _ _ (hl _)]; split <;> first | rfl | exact State.logArb_off _ _ _ (hl _))

/-- Reading a row of one near-bank unit that lies in one chunk of its bank group. -/
theorem State.nbuRead_good (s : State) (st nbu o n a : Nat) (bs : List Byte) (hm : s.tiers.merge = [])
    (hl : s.logging = false) (hp : s.nbuPieces st nbu o n = [(0, a, n)])
    (h : Mem.readBytes s.mem a n = some bs) :
    (s.nbuRead st nbu o n).1 = some bs ∧ (s.nbuRead st nbu o n).2.mem = s.mem
      ∧ (s.nbuRead st nbu o n).2.tiers.merge = [] ∧ (s.nbuRead st nbu o n).2.log = s.log := by
  unfold State.nbuRead
  rw [hp, State.asAgent_keeps _ _ _ _ hl]
  generalize hs : ({ s with agent := agentOf 3 st } : State) = s1
  have e1 : s1.mem = s.mem := by rw [← hs]
  have e2 : s1.tiers = s.tiers := by rw [← hs]
  have e3 : s1.log = s.log := by rw [← hs]
  have hl1 : s1.logging = false := by rw [← hs]; exact hl
  have hm1 : s1.tiers.merge = [] := by rw [e2, hm]
  have h1 : Mem.readBytes s1.mem a n = some bs := by rw [e1, h]
  have g1 := State.load_good s1 a n bs hm1 hl1 h1
  have g2 := State.load_good_keeps s1 a n bs hm1 hl1 h1
  simp only [List.foldl_cons, List.foldl_nil]
  generalize hx : s1.load a n = r at g1 g2
  obtain ⟨r1, r2⟩ := r
  simp only at g1 g2
  subst g1
  exact ⟨by simp, g2.1.trans e1, g2.2.1, g2.2.2.trans e3⟩

/-- Where a near-bank unit's offsets lie is a matter of the maps alone. -/
theorem State.nbuPieces_congr (s s' : State) (h : s'.tiers = s.tiers) (st nbu o n : Nat) :
    s'.nbuPieces st nbu o n = s.nbuPieces st nbu o n := by
  have h0 : s'.pcOut = s.pcOut := by funext k; simp only [State.pcOut, h]
  have h1 : s'.pcCount = s.pcCount := by funext k; simp only [State.pcCount, h0]
  have h2 : s'.pcTotal = s.pcTotal := by simp only [State.pcTotal, h1]
  have h3 : s'.pcWorks = s.pcWorks := by funext a b; simp only [State.pcWorks, h0]
  have h4 : s'.spreadList = s.spreadList := by simp only [State.spreadList, h3]
  have h5 : s'.pcList = s.pcList := by funext k; simp only [State.pcList, h3]
  have h6 : s'.stackBase = s.stackBase := by
    funext k; simp only [State.stackBase, State.spreadSize, h, h1, h2]
  have h7 : s'.nbuLocal = s.nbuLocal := by
    funext a b c d; simp only [State.nbuLocal, h, h1, h2, h4, h5, h6]
  simp only [State.nbuPieces, h7]

/-- A row of tier 1 that is read leaves the maps as they are too. -/
theorem State.nbuRead_tiers (s : State) (st nbu o n a : Nat) (bs : List Byte) (hm : s.tiers.merge = [])
    (hl : s.logging = false) (hp : s.nbuPieces st nbu o n = [(0, a, n)]) (hr : s.region a = .tier1)
    (h : Mem.readBytes s.mem a n = some bs) : (s.nbuRead st nbu o n).2.tiers = s.tiers := by
  unfold State.nbuRead
  rw [hp, State.asAgent_keeps _ _ _ _ hl]
  generalize hs : ({ s with agent := agentOf 3 st } : State) = s1
  have e1 : s1.mem = s.mem := by rw [← hs]
  have e2 : s1.tiers = s.tiers := by rw [← hs]
  have e4 : ∀ r, (s1.touch a n r).region a = s.region a := by
    intro r; rw [← hs]; unfold State.touch; split <;> rfl
  have hl1 : s1.logging = false := by rw [← hs]; exact hl
  have hm1 : s1.tiers.merge = [] := by rw [e2, hm]
  have hl' : (s1.touch a n true).logging = false := by rw [State.logging_touch, hl1]
  have e5 : (s1.load a n) = (some bs, s1.touch a n true) := by
    unfold State.load
    rw [State.retireAll_empty s1 _ hm1]
    simp only [hl', Bool.false_eq_true, ↓reduceIte, (s1.touch_keeps a n true).1, e1, h, e4, hr]
  simp only [List.foldl_cons, List.foldl_nil, e5]
  exact ((s1.touch_keeps a n true).2.1).trans e2

end Sys2Proof.Machine
end

