-- ==== Sys2Proof/Laws/State.lean ====
section
/-! SUPPORT. What each plain update of the state leaves of every field, and what it puts
where it writes: one lemma per field per update. -/

namespace Sys2Proof.Machine

variable (s : State)

/-! ### setQuay -/

@[simp] theorem State.setQuay_pending (q : Nat) (x : Quay) : (s.setQuay q x).pending = s.pending := rfl
@[simp] theorem State.setQuay_time (q : Nat) (x : Quay) : (s.setQuay q x).time = s.time := rfl
@[simp] theorem State.setQuay_onRing (q : Nat) (x : Quay) : (s.setQuay q x).onRing = s.onRing := rfl
@[simp] theorem State.setQuay_refclkFailSeen (q : Nat) (x : Quay) : (s.setQuay q x).refclkFailSeen = s.refclkFailSeen := rfl
@[simp] theorem State.setQuay_free (q : Nat) (x : Quay) : (s.setQuay q x).free = s.free := rfl
@[simp] theorem State.setQuay_mem (q : Nat) (x : Quay) : (s.setQuay q x).mem = s.mem := rfl
@[simp] theorem State.setQuay_hostMem (q : Nat) (x : Quay) : (s.setQuay q x).hostMem = s.hostMem := rfl
@[simp] theorem State.setQuay_central (q : Nat) (x : Quay) : (s.setQuay q x).central = s.central := rfl
@[simp] theorem State.setQuay_tiles (q : Nat) (x : Quay) : (s.setQuay q x).tiles = s.tiles := rfl
@[simp] theorem State.setQuay_tiers (q : Nat) (x : Quay) : (s.setQuay q x).tiers = s.tiers := rfl
@[simp] theorem State.setQuay_sync (q : Nat) (x : Quay) : (s.setQuay q x).sync = s.sync := rfl
@[simp] theorem State.setQuay_dma (q : Nat) (x : Quay) : (s.setQuay q x).dma = s.dma := rfl
@[simp] theorem State.setQuay_events (q : Nat) (x : Quay) : (s.setQuay q x).events = s.events := rfl
@[simp] theorem State.setQuay_trace (q : Nat) (x : Quay) : (s.setQuay q x).trace = s.trace := rfl
@[simp] theorem State.setQuay_hif (q : Nat) (x : Quay) : (s.setQuay q x).hif = s.hif := rfl
@[simp] theorem State.setQuay_hm (q : Nat) (x : Quay) : (s.setQuay q x).hm = s.hm := rfl
@[simp] theorem State.setQuay_log (q : Nat) (x : Quay) : (s.setQuay q x).log = s.log := rfl
@[simp] theorem State.setQuay_fab (q : Nat) (x : Quay) : (s.setQuay q x).fab = s.fab := rfl
@[simp] theorem State.setQuay_graph (q : Nat) (x : Quay) : (s.setQuay q x).graph = s.graph := rfl
@[simp] theorem State.setQuay_pilot (q : Nat) (x : Quay) : (s.setQuay q x).pilot = s.pilot := rfl
@[simp] theorem State.setQuay_stacks (q : Nat) (x : Quay) : (s.setQuay q x).stks = s.stks := rfl
@[simp] theorem State.setQuay_kv (q : Nat) (x : Quay) : (s.setQuay q x).kv = s.kv := rfl
@[simp] theorem State.setQuay_serving (q : Nat) (x : Quay) : (s.setQuay q x).serving = s.serving := rfl
@[simp] theorem State.setQuay_fw (q : Nat) (x : Quay) : (s.setQuay q x).fw = s.fw := rfl
@[simp] theorem State.setQuay_power (q : Nat) (x : Quay) : (s.setQuay q x).power = s.power := rfl
@[simp] theorem State.setQuay_thermal (q : Nat) (x : Quay) : (s.setQuay q x).thermal = s.thermal := rfl
@[simp] theorem State.setQuay_bring (q : Nat) (x : Quay) : (s.setQuay q x).bring = s.bring := rfl
@[simp] theorem State.setQuay_backup (q : Nat) (x : Quay) : (s.setQuay q x).backup = s.backup := rfl
@[simp] theorem State.setQuay_i3c (q : Nat) (x : Quay) : (s.setQuay q x).i3c = s.i3c := rfl
@[simp] theorem State.setQuay_agent (q : Nat) (x : Quay) : (s.setQuay q x).agent = s.agent := rfl
@[simp] theorem State.setQuay_resp (q : Nat) (x : Quay) : (s.setQuay q x).resp = s.resp := rfl
@[simp] theorem State.setQuay_licences (q : Nat) (x : Quay) : (s.setQuay q x).licences = s.licences := rfl
@[simp] theorem State.setQuay_mapMode (q : Nat) (x : Quay) : (s.setQuay q x).mapMode = s.mapMode := rfl

/-! ### setTile -/

@[simp] theorem State.setTile_pending (t : Nat) (x : Tile) : (s.setTile t x).pending = s.pending := rfl
@[simp] theorem State.setTile_time (t : Nat) (x : Tile) : (s.setTile t x).time = s.time := rfl
@[simp] theorem State.setTile_onRing (t : Nat) (x : Tile) : (s.setTile t x).onRing = s.onRing := rfl
@[simp] theorem State.setTile_refclkFailSeen (t : Nat) (x : Tile) : (s.setTile t x).refclkFailSeen = s.refclkFailSeen := rfl
@[simp] theorem State.setTile_free (t : Nat) (x : Tile) : (s.setTile t x).free = s.free := rfl
@[simp] theorem State.setTile_mem (t : Nat) (x : Tile) : (s.setTile t x).mem = s.mem := rfl
@[simp] theorem State.setTile_hostMem (t : Nat) (x : Tile) : (s.setTile t x).hostMem = s.hostMem := rfl
@[simp] theorem State.setTile_quays (t : Nat) (x : Tile) : (s.setTile t x).quays = s.quays := rfl
@[simp] theorem State.setTile_central (t : Nat) (x : Tile) : (s.setTile t x).central = s.central := rfl
@[simp] theorem State.setTile_tiers (t : Nat) (x : Tile) : (s.setTile t x).tiers = s.tiers := rfl
@[simp] theorem State.setTile_sync (t : Nat) (x : Tile) : (s.setTile t x).sync = s.sync := rfl
@[simp] theorem State.setTile_dma (t : Nat) (x : Tile) : (s.setTile t x).dma = s.dma := rfl
@[simp] theorem State.setTile_events (t : Nat) (x : Tile) : (s.setTile t x).events = s.events := rfl
@[simp] theorem State.setTile_trace (t : Nat) (x : Tile) : (s.setTile t x).trace = s.trace := rfl
@[simp] theorem State.setTile_hif (t : Nat) (x : Tile) : (s.setTile t x).hif = s.hif := rfl
@[simp] theorem State.setTile_hm (t : Nat) (x : Tile) : (s.setTile t x).hm = s.hm := rfl
@[simp] theorem State.setTile_log (t : Nat) (x : Tile) : (s.setTile t x).log = s.log := rfl
@[simp] theorem State.setTile_fab (t : Nat) (x : Tile) : (s.setTile t x).fab = s.fab := rfl
@[simp] theorem State.setTile_graph (t : Nat) (x : Tile) : (s.setTile t x).graph = s.graph := rfl
@[simp] theorem State.setTile_pilot (t : Nat) (x : Tile) : (s.setTile t x).pilot = s.pilot := rfl
@[simp] theorem State.setTile_stacks (t : Nat) (x : Tile) : (s.setTile t x).stks = s.stks := rfl
@[simp] theorem State.setTile_kv (t : Nat) (x : Tile) : (s.setTile t x).kv = s.kv := rfl
@[simp] theorem State.setTile_serving (t : Nat) (x : Tile) : (s.setTile t x).serving = s.serving := rfl
@[simp] theorem State.setTile_fw (t : Nat) (x : Tile) : (s.setTile t x).fw = s.fw := rfl
@[simp] theorem State.setTile_power (t : Nat) (x : Tile) : (s.setTile t x).power = s.power := rfl
@[simp] theorem State.setTile_thermal (t : Nat) (x : Tile) : (s.setTile t x).thermal = s.thermal := rfl
@[simp] theorem State.setTile_bring (t : Nat) (x : Tile) : (s.setTile t x).bring = s.bring := rfl
@[simp] theorem State.setTile_backup (t : Nat) (x : Tile) : (s.setTile t x).backup = s.backup := rfl
@[simp] theorem State.setTile_i3c (t : Nat) (x : Tile) : (s.setTile t x).i3c = s.i3c := rfl
@[simp] theorem State.setTile_agent (t : Nat) (x : Tile) : (s.setTile t x).agent = s.agent := rfl
@[simp] theorem State.setTile_resp (t : Nat) (x : Tile) : (s.setTile t x).resp = s.resp := rfl
@[simp] theorem State.setTile_licences (t : Nat) (x : Tile) : (s.setTile t x).licences = s.licences := rfl
@[simp] theorem State.setTile_mapMode (t : Nat) (x : Tile) : (s.setTile t x).mapMode = s.mapMode := rfl

/-! ### setFunc -/

@[simp] theorem State.setFunc_pending (f : Nat) (x : Func) : (s.setFunc f x).pending = s.pending := rfl
@[simp] theorem State.setFunc_time (f : Nat) (x : Func) : (s.setFunc f x).time = s.time := rfl
@[simp] theorem State.setFunc_onRing (f : Nat) (x : Func) : (s.setFunc f x).onRing = s.onRing := rfl
@[simp] theorem State.setFunc_refclkFailSeen (f : Nat) (x : Func) : (s.setFunc f x).refclkFailSeen = s.refclkFailSeen := rfl
@[simp] theorem State.setFunc_free (f : Nat) (x : Func) : (s.setFunc f x).free = s.free := rfl
@[simp] theorem State.setFunc_mem (f : Nat) (x : Func) : (s.setFunc f x).mem = s.mem := rfl
@[simp] theorem State.setFunc_hostMem (f : Nat) (x : Func) : (s.setFunc f x).hostMem = s.hostMem := rfl
@[simp] theorem State.setFunc_quays (f : Nat) (x : Func) : (s.setFunc f x).quays = s.quays := rfl
@[simp] theorem State.setFunc_central (f : Nat) (x : Func) : (s.setFunc f x).central = s.central := rfl
@[simp] theorem State.setFunc_tiles (f : Nat) (x : Func) : (s.setFunc f x).tiles = s.tiles := rfl
@[simp] theorem State.setFunc_tiers (f : Nat) (x : Func) : (s.setFunc f x).tiers = s.tiers := rfl
@[simp] theorem State.setFunc_sync (f : Nat) (x : Func) : (s.setFunc f x).sync = s.sync := rfl
@[simp] theorem State.setFunc_dma (f : Nat) (x : Func) : (s.setFunc f x).dma = s.dma := rfl
@[simp] theorem State.setFunc_events (f : Nat) (x : Func) : (s.setFunc f x).events = s.events := rfl
@[simp] theorem State.setFunc_trace (f : Nat) (x : Func) : (s.setFunc f x).trace = s.trace := rfl
@[simp] theorem State.setFunc_hm (f : Nat) (x : Func) : (s.setFunc f x).hm = s.hm := rfl
@[simp] theorem State.setFunc_log (f : Nat) (x : Func) : (s.setFunc f x).log = s.log := rfl
@[simp] theorem State.setFunc_fab (f : Nat) (x : Func) : (s.setFunc f x).fab = s.fab := rfl
@[simp] theorem State.setFunc_graph (f : Nat) (x : Func) : (s.setFunc f x).graph = s.graph := rfl
@[simp] theorem State.setFunc_pilot (f : Nat) (x : Func) : (s.setFunc f x).pilot = s.pilot := rfl
@[simp] theorem State.setFunc_stacks (f : Nat) (x : Func) : (s.setFunc f x).stks = s.stks := rfl
@[simp] theorem State.setFunc_kv (f : Nat) (x : Func) : (s.setFunc f x).kv = s.kv := rfl
@[simp] theorem State.setFunc_serving (f : Nat) (x : Func) : (s.setFunc f x).serving = s.serving := rfl
@[simp] theorem State.setFunc_fw (f : Nat) (x : Func) : (s.setFunc f x).fw = s.fw := rfl
@[simp] theorem State.setFunc_power (f : Nat) (x : Func) : (s.setFunc f x).power = s.power := rfl
@[simp] theorem State.setFunc_thermal (f : Nat) (x : Func) : (s.setFunc f x).thermal = s.thermal := rfl
@[simp] theorem State.setFunc_bring (f : Nat) (x : Func) : (s.setFunc f x).bring = s.bring := rfl
@[simp] theorem State.setFunc_backup (f : Nat) (x : Func) : (s.setFunc f x).backup = s.backup := rfl
@[simp] theorem State.setFunc_i3c (f : Nat) (x : Func) : (s.setFunc f x).i3c = s.i3c := rfl
@[simp] theorem State.setFunc_agent (f : Nat) (x : Func) : (s.setFunc f x).agent = s.agent := rfl
@[simp] theorem State.setFunc_resp (f : Nat) (x : Func) : (s.setFunc f x).resp = s.resp := rfl
@[simp] theorem State.setFunc_licences (f : Nat) (x : Func) : (s.setFunc f x).licences = s.licences := rfl
@[simp] theorem State.setFunc_mapMode (f : Nat) (x : Func) : (s.setFunc f x).mapMode = s.mapMode := rfl

/-! ### setSo -/

@[simp] theorem State.setSo_pending (n : Nat) (x : SyncObj) : (s.setSo n x).pending = s.pending := rfl
@[simp] theorem State.setSo_time (n : Nat) (x : SyncObj) : (s.setSo n x).time = s.time := rfl
@[simp] theorem State.setSo_onRing (n : Nat) (x : SyncObj) : (s.setSo n x).onRing = s.onRing := rfl
@[simp] theorem State.setSo_refclkFailSeen (n : Nat) (x : SyncObj) : (s.setSo n x).refclkFailSeen = s.refclkFailSeen := rfl
@[simp] theorem State.setSo_free (n : Nat) (x : SyncObj) : (s.setSo n x).free = s.free := rfl
@[simp] theorem State.setSo_mem (n : Nat) (x : SyncObj) : (s.setSo n x).mem = s.mem := rfl
@[simp] theorem State.setSo_hostMem (n : Nat) (x : SyncObj) : (s.setSo n x).hostMem = s.hostMem := rfl
@[simp] theorem State.setSo_quays (n : Nat) (x : SyncObj) : (s.setSo n x).quays = s.quays := rfl
@[simp] theorem State.setSo_central (n : Nat) (x : SyncObj) : (s.setSo n x).central = s.central := rfl
@[simp] theorem State.setSo_tiles (n : Nat) (x : SyncObj) : (s.setSo n x).tiles = s.tiles := rfl
@[simp] theorem State.setSo_tiers (n : Nat) (x : SyncObj) : (s.setSo n x).tiers = s.tiers := rfl
@[simp] theorem State.setSo_dma (n : Nat) (x : SyncObj) : (s.setSo n x).dma = s.dma := rfl
@[simp] theorem State.setSo_events (n : Nat) (x : SyncObj) : (s.setSo n x).events = s.events := rfl
@[simp] theorem State.setSo_trace (n : Nat) (x : SyncObj) : (s.setSo n x).trace = s.trace := rfl
@[simp] theorem State.setSo_hif (n : Nat) (x : SyncObj) : (s.setSo n x).hif = s.hif := rfl
@[simp] theorem State.setSo_hm (n : Nat) (x : SyncObj) : (s.setSo n x).hm = s.hm := rfl
@[simp] theorem State.setSo_log (n : Nat) (x : SyncObj) : (s.setSo n x).log = s.log := rfl
@[simp] theorem State.setSo_fab (n : Nat) (x : SyncObj) : (s.setSo n x).fab = s.fab := rfl
@[simp] theorem State.setSo_graph (n : Nat) (x : SyncObj) : (s.setSo n x).graph = s.graph := rfl
@[simp] theorem State.setSo_pilot (n : Nat) (x : SyncObj) : (s.setSo n x).pilot = s.pilot := rfl
@[simp] theorem State.setSo_stacks (n : Nat) (x : SyncObj) : (s.setSo n x).stks = s.stks := rfl
@[simp] theorem State.setSo_kv (n : Nat) (x : SyncObj) : (s.setSo n x).kv = s.kv := rfl
@[simp] theorem State.setSo_serving (n : Nat) (x : SyncObj) : (s.setSo n x).serving = s.serving := rfl
@[simp] theorem State.setSo_fw (n : Nat) (x : SyncObj) : (s.setSo n x).fw = s.fw := rfl
@[simp] theorem State.setSo_power (n : Nat) (x : SyncObj) : (s.setSo n x).power = s.power := rfl
@[simp] theorem State.setSo_thermal (n : Nat) (x : SyncObj) : (s.setSo n x).thermal = s.thermal := rfl
@[simp] theorem State.setSo_bring (n : Nat) (x : SyncObj) : (s.setSo n x).bring = s.bring := rfl
@[simp] theorem State.setSo_backup (n : Nat) (x : SyncObj) : (s.setSo n x).backup = s.backup := rfl
@[simp] theorem State.setSo_i3c (n : Nat) (x : SyncObj) : (s.setSo n x).i3c = s.i3c := rfl
@[simp] theorem State.setSo_agent (n : Nat) (x : SyncObj) : (s.setSo n x).agent = s.agent := rfl
@[simp] theorem State.setSo_resp (n : Nat) (x : SyncObj) : (s.setSo n x).resp = s.resp := rfl
@[simp] theorem State.setSo_licences (n : Nat) (x : SyncObj) : (s.setSo n x).licences = s.licences := rfl
@[simp] theorem State.setSo_mapMode (n : Nat) (x : SyncObj) : (s.setSo n x).mapMode = s.mapMode := rfl

/-! ### setBar -/

@[simp] theorem State.setBar_pending (g : Nat) (x : Barrier) : (s.setBar g x).pending = s.pending := rfl
@[simp] theorem State.setBar_time (g : Nat) (x : Barrier) : (s.setBar g x).time = s.time := rfl
@[simp] theorem State.setBar_onRing (g : Nat) (x : Barrier) : (s.setBar g x).onRing = s.onRing := rfl
@[simp] theorem State.setBar_refclkFailSeen (g : Nat) (x : Barrier) : (s.setBar g x).refclkFailSeen = s.refclkFailSeen := rfl
@[simp] theorem State.setBar_free (g : Nat) (x : Barrier) : (s.setBar g x).free = s.free := rfl
@[simp] theorem State.setBar_mem (g : Nat) (x : Barrier) : (s.setBar g x).mem = s.mem := rfl
@[simp] theorem State.setBar_hostMem (g : Nat) (x : Barrier) : (s.setBar g x).hostMem = s.hostMem := rfl
@[simp] theorem State.setBar_quays (g : Nat) (x : Barrier) : (s.setBar g x).quays = s.quays := rfl
@[simp] theorem State.setBar_central (g : Nat) (x : Barrier) : (s.setBar g x).central = s.central := rfl
@[simp] theorem State.setBar_tiles (g : Nat) (x : Barrier) : (s.setBar g x).tiles = s.tiles := rfl
@[simp] theorem State.setBar_tiers (g : Nat) (x : Barrier) : (s.setBar g x).tiers = s.tiers := rfl
@[simp] theorem State.setBar_dma (g : Nat) (x : Barrier) : (s.setBar g x).dma = s.dma := rfl
@[simp] theorem State.setBar_events (g : Nat) (x : Barrier) : (s.setBar g x).events = s.events := rfl
@[simp] theorem State.setBar_trace (g : Nat) (x : Barrier) : (s.setBar g x).trace = s.trace := rfl
@[simp] theorem State.setBar_hif (g : Nat) (x : Barrier) : (s.setBar g x).hif = s.hif := rfl
@[simp] theorem State.setBar_hm (g : Nat) (x : Barrier) : (s.setBar g x).hm = s.hm := rfl
@[simp] theorem State.setBar_log (g : Nat) (x : Barrier) : (s.setBar g x).log = s.log := rfl
@[simp] theorem State.setBar_fab (g : Nat) (x : Barrier) : (s.setBar g x).fab = s.fab := rfl
@[simp] theorem State.setBar_graph (g : Nat) (x : Barrier) : (s.setBar g x).graph = s.graph := rfl
@[simp] theorem State.setBar_pilot (g : Nat) (x : Barrier) : (s.setBar g x).pilot = s.pilot := rfl
@[simp] theorem State.setBar_stacks (g : Nat) (x : Barrier) : (s.setBar g x).stks = s.stks := rfl
@[simp] theorem State.setBar_kv (g : Nat) (x : Barrier) : (s.setBar g x).kv = s.kv := rfl
@[simp] theorem State.setBar_serving (g : Nat) (x : Barrier) : (s.setBar g x).serving = s.serving := rfl
@[simp] theorem State.setBar_fw (g : Nat) (x : Barrier) : (s.setBar g x).fw = s.fw := rfl
@[simp] theorem State.setBar_power (g : Nat) (x : Barrier) : (s.setBar g x).power = s.power := rfl
@[simp] theorem State.setBar_thermal (g : Nat) (x : Barrier) : (s.setBar g x).thermal = s.thermal := rfl
@[simp] theorem State.setBar_bring (g : Nat) (x : Barrier) : (s.setBar g x).bring = s.bring := rfl
@[simp] theorem State.setBar_backup (g : Nat) (x : Barrier) : (s.setBar g x).backup = s.backup := rfl
@[simp] theorem State.setBar_i3c (g : Nat) (x : Barrier) : (s.setBar g x).i3c = s.i3c := rfl
@[simp] theorem State.setBar_agent (g : Nat) (x : Barrier) : (s.setBar g x).agent = s.agent := rfl
@[simp] theorem State.setBar_resp (g : Nat) (x : Barrier) : (s.setBar g x).resp = s.resp := rfl
@[simp] theorem State.setBar_licences (g : Nat) (x : Barrier) : (s.setBar g x).licences = s.licences := rfl
@[simp] theorem State.setBar_mapMode (g : Nat) (x : Barrier) : (s.setBar g x).mapMode = s.mapMode := rfl

/-! ### setUnit -/

@[simp] theorem State.setUnit_pending (u : Nat) (x : TraceUnit) : (s.setUnit u x).pending = s.pending := rfl
@[simp] theorem State.setUnit_time (u : Nat) (x : TraceUnit) : (s.setUnit u x).time = s.time := rfl
@[simp] theorem State.setUnit_onRing (u : Nat) (x : TraceUnit) : (s.setUnit u x).onRing = s.onRing := rfl
@[simp] theorem State.setUnit_refclkFailSeen (u : Nat) (x : TraceUnit) : (s.setUnit u x).refclkFailSeen = s.refclkFailSeen := rfl
@[simp] theorem State.setUnit_free (u : Nat) (x : TraceUnit) : (s.setUnit u x).free = s.free := rfl
@[simp] theorem State.setUnit_mem (u : Nat) (x : TraceUnit) : (s.setUnit u x).mem = s.mem := rfl
@[simp] theorem State.setUnit_hostMem (u : Nat) (x : TraceUnit) : (s.setUnit u x).hostMem = s.hostMem := rfl
@[simp] theorem State.setUnit_quays (u : Nat) (x : TraceUnit) : (s.setUnit u x).quays = s.quays := rfl
@[simp] theorem State.setUnit_central (u : Nat) (x : TraceUnit) : (s.setUnit u x).central = s.central := rfl
@[simp] theorem State.setUnit_tiles (u : Nat) (x : TraceUnit) : (s.setUnit u x).tiles = s.tiles := rfl
@[simp] theorem State.setUnit_tiers (u : Nat) (x : TraceUnit) : (s.setUnit u x).tiers = s.tiers := rfl
@[simp] theorem State.setUnit_sync (u : Nat) (x : TraceUnit) : (s.setUnit u x).sync = s.sync := rfl
@[simp] theorem State.setUnit_dma (u : Nat) (x : TraceUnit) : (s.setUnit u x).dma = s.dma := rfl
@[simp] theorem State.setUnit_events (u : Nat) (x : TraceUnit) : (s.setUnit u x).events = s.events := rfl
@[simp] theorem State.setUnit_hif (u : Nat) (x : TraceUnit) : (s.setUnit u x).hif = s.hif := rfl
@[simp] theorem State.setUnit_hm (u : Nat) (x : TraceUnit) : (s.setUnit u x).hm = s.hm := rfl
@[simp] theorem State.setUnit_log (u : Nat) (x : TraceUnit) : (s.setUnit u x).log = s.log := rfl
@[simp] theorem State.setUnit_fab (u : Nat) (x : TraceUnit) : (s.setUnit u x).fab = s.fab := rfl
@[simp] theorem State.setUnit_graph (u : Nat) (x : TraceUnit) : (s.setUnit u x).graph = s.graph := rfl
@[simp] theorem State.setUnit_pilot (u : Nat) (x : TraceUnit) : (s.setUnit u x).pilot = s.pilot := rfl
@[simp] theorem State.setUnit_stacks (u : Nat) (x : TraceUnit) : (s.setUnit u x).stks = s.stks := rfl
@[simp] theorem State.setUnit_kv (u : Nat) (x : TraceUnit) : (s.setUnit u x).kv = s.kv := rfl
@[simp] theorem State.setUnit_serving (u : Nat) (x : TraceUnit) : (s.setUnit u x).serving = s.serving := rfl
@[simp] theorem State.setUnit_fw (u : Nat) (x : TraceUnit) : (s.setUnit u x).fw = s.fw := rfl
@[simp] theorem State.setUnit_power (u : Nat) (x : TraceUnit) : (s.setUnit u x).power = s.power := rfl
@[simp] theorem State.setUnit_thermal (u : Nat) (x : TraceUnit) : (s.setUnit u x).thermal = s.thermal := rfl
@[simp] theorem State.setUnit_bring (u : Nat) (x : TraceUnit) : (s.setUnit u x).bring = s.bring := rfl
@[simp] theorem State.setUnit_backup (u : Nat) (x : TraceUnit) : (s.setUnit u x).backup = s.backup := rfl
@[simp] theorem State.setUnit_i3c (u : Nat) (x : TraceUnit) : (s.setUnit u x).i3c = s.i3c := rfl
@[simp] theorem State.setUnit_agent (u : Nat) (x : TraceUnit) : (s.setUnit u x).agent = s.agent := rfl
@[simp] theorem State.setUnit_resp (u : Nat) (x : TraceUnit) : (s.setUnit u x).resp = s.resp := rfl
@[simp] theorem State.setUnit_licences (u : Nat) (x : TraceUnit) : (s.setUnit u x).licences = s.licences := rfl
@[simp] theorem State.setUnit_mapMode (u : Nat) (x : TraceUnit) : (s.setUnit u x).mapMode = s.mapMode := rfl

/-! ### at -/

@[simp] theorem State.at_pending (t : Nat) : (s.at t).pending = s.pending := rfl
@[simp] theorem State.at_onRing (t : Nat) : (s.at t).onRing = s.onRing := rfl
@[simp] theorem State.at_refclkFailSeen (t : Nat) : (s.at t).refclkFailSeen = s.refclkFailSeen := rfl
@[simp] theorem State.at_free (t : Nat) : (s.at t).free = s.free := rfl
@[simp] theorem State.at_mem (t : Nat) : (s.at t).mem = s.mem := rfl
@[simp] theorem State.at_hostMem (t : Nat) : (s.at t).hostMem = s.hostMem := rfl
@[simp] theorem State.at_quays (t : Nat) : (s.at t).quays = s.quays := rfl
@[simp] theorem State.at_central (t : Nat) : (s.at t).central = s.central := rfl
@[simp] theorem State.at_tiles (t : Nat) : (s.at t).tiles = s.tiles := rfl
@[simp] theorem State.at_tiers (t : Nat) : (s.at t).tiers = s.tiers := rfl
@[simp] theorem State.at_sync (t : Nat) : (s.at t).sync = s.sync := rfl
@[simp] theorem State.at_dma (t : Nat) : (s.at t).dma = s.dma := rfl
@[simp] theorem State.at_events (t : Nat) : (s.at t).events = s.events := rfl
@[simp] theorem State.at_trace (t : Nat) : (s.at t).trace = s.trace := rfl
@[simp] theorem State.at_hif (t : Nat) : (s.at t).hif = s.hif := rfl
@[simp] theorem State.at_hm (t : Nat) : (s.at t).hm = s.hm := rfl
@[simp] theorem State.at_log (t : Nat) : (s.at t).log = s.log := rfl
@[simp] theorem State.at_fab (t : Nat) : (s.at t).fab = s.fab := rfl
@[simp] theorem State.at_graph (t : Nat) : (s.at t).graph = s.graph := rfl
@[simp] theorem State.at_pilot (t : Nat) : (s.at t).pilot = s.pilot := rfl
@[simp] theorem State.at_stacks (t : Nat) : (s.at t).stks = s.stks := rfl
@[simp] theorem State.at_kv (t : Nat) : (s.at t).kv = s.kv := rfl
@[simp] theorem State.at_serving (t : Nat) : (s.at t).serving = s.serving := rfl
@[simp] theorem State.at_fw (t : Nat) : (s.at t).fw = s.fw := rfl
@[simp] theorem State.at_power (t : Nat) : (s.at t).power = s.power := rfl
@[simp] theorem State.at_thermal (t : Nat) : (s.at t).thermal = s.thermal := rfl
@[simp] theorem State.at_bring (t : Nat) : (s.at t).bring = s.bring := rfl
@[simp] theorem State.at_backup (t : Nat) : (s.at t).backup = s.backup := rfl
@[simp] theorem State.at_i3c (t : Nat) : (s.at t).i3c = s.i3c := rfl
@[simp] theorem State.at_agent (t : Nat) : (s.at t).agent = s.agent := rfl
@[simp] theorem State.at_resp (t : Nat) : (s.at t).resp = s.resp := rfl
@[simp] theorem State.at_licences (t : Nat) : (s.at t).licences = s.licences := rfl
@[simp] theorem State.at_mapMode (t : Nat) : (s.at t).mapMode = s.mapMode := rfl

/-! ### cntQuay -/

@[simp] theorem State.cntQuay_pending (q i n : Nat) : (s.cntQuay q i n).pending = s.pending := rfl
@[simp] theorem State.cntQuay_time (q i n : Nat) : (s.cntQuay q i n).time = s.time := rfl
@[simp] theorem State.cntQuay_onRing (q i n : Nat) : (s.cntQuay q i n).onRing = s.onRing := rfl
@[simp] theorem State.cntQuay_refclkFailSeen (q i n : Nat) : (s.cntQuay q i n).refclkFailSeen = s.refclkFailSeen := rfl
@[simp] theorem State.cntQuay_free (q i n : Nat) : (s.cntQuay q i n).free = s.free := rfl
@[simp] theorem State.cntQuay_mem (q i n : Nat) : (s.cntQuay q i n).mem = s.mem := rfl
@[simp] theorem State.cntQuay_hostMem (q i n : Nat) : (s.cntQuay q i n).hostMem = s.hostMem := rfl
@[simp] theorem State.cntQuay_quays (q i n : Nat) : (s.cntQuay q i n).quays = s.quays := rfl
@[simp] theorem State.cntQuay_central (q i n : Nat) : (s.cntQuay q i n).central = s.central := rfl
@[simp] theorem State.cntQuay_tiles (q i n : Nat) : (s.cntQuay q i n).tiles = s.tiles := rfl
@[simp] theorem State.cntQuay_tiers (q i n : Nat) : (s.cntQuay q i n).tiers = s.tiers := rfl
@[simp] theorem State.cntQuay_sync (q i n : Nat) : (s.cntQuay q i n).sync = s.sync := rfl
@[simp] theorem State.cntQuay_dma (q i n : Nat) : (s.cntQuay q i n).dma = s.dma := rfl
@[simp] theorem State.cntQuay_events (q i n : Nat) : (s.cntQuay q i n).events = s.events := rfl
@[simp] theorem State.cntQuay_hif (q i n : Nat) : (s.cntQuay q i n).hif = s.hif := rfl
@[simp] theorem State.cntQuay_hm (q i n : Nat) : (s.cntQuay q i n).hm = s.hm := rfl
@[simp] theorem State.cntQuay_log (q i n : Nat) : (s.cntQuay q i n).log = s.log := rfl
@[simp] theorem State.cntQuay_fab (q i n : Nat) : (s.cntQuay q i n).fab = s.fab := rfl
@[simp] theorem State.cntQuay_graph (q i n : Nat) : (s.cntQuay q i n).graph = s.graph := rfl
@[simp] theorem State.cntQuay_pilot (q i n : Nat) : (s.cntQuay q i n).pilot = s.pilot := rfl
@[simp] theorem State.cntQuay_stacks (q i n : Nat) : (s.cntQuay q i n).stks = s.stks := rfl
@[simp] theorem State.cntQuay_kv (q i n : Nat) : (s.cntQuay q i n).kv = s.kv := rfl
@[simp] theorem State.cntQuay_serving (q i n : Nat) : (s.cntQuay q i n).serving = s.serving := rfl
@[simp] theorem State.cntQuay_fw (q i n : Nat) : (s.cntQuay q i n).fw = s.fw := rfl
@[simp] theorem State.cntQuay_power (q i n : Nat) : (s.cntQuay q i n).power = s.power := rfl
@[simp] theorem State.cntQuay_thermal (q i n : Nat) : (s.cntQuay q i n).thermal = s.thermal := rfl
@[simp] theorem State.cntQuay_bring (q i n : Nat) : (s.cntQuay q i n).bring = s.bring := rfl
@[simp] theorem State.cntQuay_backup (q i n : Nat) : (s.cntQuay q i n).backup = s.backup := rfl
@[simp] theorem State.cntQuay_i3c (q i n : Nat) : (s.cntQuay q i n).i3c = s.i3c := rfl
@[simp] theorem State.cntQuay_agent (q i n : Nat) : (s.cntQuay q i n).agent = s.agent := rfl
@[simp] theorem State.cntQuay_resp (q i n : Nat) : (s.cntQuay q i n).resp = s.resp := rfl
@[simp] theorem State.cntQuay_licences (q i n : Nat) : (s.cntQuay q i n).licences = s.licences := rfl
@[simp] theorem State.cntQuay_mapMode (q i n : Nat) : (s.cntQuay q i n).mapMode = s.mapMode := rfl

/-! ### cntMod -/

@[simp] theorem State.cntMod_pending (i n : Nat) : (s.cntMod i n).pending = s.pending := rfl
@[simp] theorem State.cntMod_time (i n : Nat) : (s.cntMod i n).time = s.time := rfl
@[simp] theorem State.cntMod_onRing (i n : Nat) : (s.cntMod i n).onRing = s.onRing := rfl
@[simp] theorem State.cntMod_refclkFailSeen (i n : Nat) : (s.cntMod i n).refclkFailSeen = s.refclkFailSeen := rfl
@[simp] theorem State.cntMod_free (i n : Nat) : (s.cntMod i n).free = s.free := rfl
@[simp] theorem State.cntMod_mem (i n : Nat) : (s.cntMod i n).mem = s.mem := rfl
@[simp] theorem State.cntMod_hostMem (i n : Nat) : (s.cntMod i n).hostMem = s.hostMem := rfl
@[simp] theorem State.cntMod_quays (i n : Nat) : (s.cntMod i n).quays = s.quays := rfl
@[simp] theorem State.cntMod_central (i n : Nat) : (s.cntMod i n).central = s.central := rfl
@[simp] theorem State.cntMod_tiles (i n : Nat) : (s.cntMod i n).tiles = s.tiles := rfl
@[simp] theorem State.cntMod_tiers (i n : Nat) : (s.cntMod i n).tiers = s.tiers := rfl
@[simp] theorem State.cntMod_sync (i n : Nat) : (s.cntMod i n).sync = s.sync := rfl
@[simp] theorem State.cntMod_dma (i n : Nat) : (s.cntMod i n).dma = s.dma := rfl
@[simp] theorem State.cntMod_events (i n : Nat) : (s.cntMod i n).events = s.events := rfl
@[simp] theorem State.cntMod_hif (i n : Nat) : (s.cntMod i n).hif = s.hif := rfl
@[simp] theorem State.cntMod_hm (i n : Nat) : (s.cntMod i n).hm = s.hm := rfl
@[simp] theorem State.cntMod_log (i n : Nat) : (s.cntMod i n).log = s.log := rfl
@[simp] theorem State.cntMod_fab (i n : Nat) : (s.cntMod i n).fab = s.fab := rfl
@[simp] theorem State.cntMod_graph (i n : Nat) : (s.cntMod i n).graph = s.graph := rfl
@[simp] theorem State.cntMod_pilot (i n : Nat) : (s.cntMod i n).pilot = s.pilot := rfl
@[simp] theorem State.cntMod_stacks (i n : Nat) : (s.cntMod i n).stks = s.stks := rfl
@[simp] theorem State.cntMod_kv (i n : Nat) : (s.cntMod i n).kv = s.kv := rfl
@[simp] theorem State.cntMod_serving (i n : Nat) : (s.cntMod i n).serving = s.serving := rfl
@[simp] theorem State.cntMod_fw (i n : Nat) : (s.cntMod i n).fw = s.fw := rfl
@[simp] theorem State.cntMod_power (i n : Nat) : (s.cntMod i n).power = s.power := rfl
@[simp] theorem State.cntMod_thermal (i n : Nat) : (s.cntMod i n).thermal = s.thermal := rfl
@[simp] theorem State.cntMod_bring (i n : Nat) : (s.cntMod i n).bring = s.bring := rfl
@[simp] theorem State.cntMod_backup (i n : Nat) : (s.cntMod i n).backup = s.backup := rfl
@[simp] theorem State.cntMod_i3c (i n : Nat) : (s.cntMod i n).i3c = s.i3c := rfl
@[simp] theorem State.cntMod_agent (i n : Nat) : (s.cntMod i n).agent = s.agent := rfl
@[simp] theorem State.cntMod_resp (i n : Nat) : (s.cntMod i n).resp = s.resp := rfl
@[simp] theorem State.cntMod_licences (i n : Nat) : (s.cntMod i n).licences = s.licences := rfl
@[simp] theorem State.cntMod_mapMode (i n : Nat) : (s.cntMod i n).mapMode = s.mapMode := rfl

/-! ### cntTen -/

@[simp] theorem State.cntTen_pending (n i k : Nat) : (s.cntTen n i k).pending = s.pending := rfl
@[simp] theorem State.cntTen_time (n i k : Nat) : (s.cntTen n i k).time = s.time := rfl
@[simp] theorem State.cntTen_onRing (n i k : Nat) : (s.cntTen n i k).onRing = s.onRing := rfl
@[simp] theorem State.cntTen_refclkFailSeen (n i k : Nat) : (s.cntTen n i k).refclkFailSeen = s.refclkFailSeen := rfl
@[simp] theorem State.cntTen_free (n i k : Nat) : (s.cntTen n i k).free = s.free := rfl
@[simp] theorem State.cntTen_mem (n i k : Nat) : (s.cntTen n i k).mem = s.mem := rfl
@[simp] theorem State.cntTen_hostMem (n i k : Nat) : (s.cntTen n i k).hostMem = s.hostMem := rfl
@[simp] theorem State.cntTen_quays (n i k : Nat) : (s.cntTen n i k).quays = s.quays := rfl
@[simp] theorem State.cntTen_central (n i k : Nat) : (s.cntTen n i k).central = s.central := rfl
@[simp] theorem State.cntTen_tiles (n i k : Nat) : (s.cntTen n i k).tiles = s.tiles := rfl
@[simp] theorem State.cntTen_tiers (n i k : Nat) : (s.cntTen n i k).tiers = s.tiers := rfl
@[simp] theorem State.cntTen_sync (n i k : Nat) : (s.cntTen n i k).sync = s.sync := rfl
@[simp] theorem State.cntTen_dma (n i k : Nat) : (s.cntTen n i k).dma = s.dma := rfl
@[simp] theorem State.cntTen_events (n i k : Nat) : (s.cntTen n i k).events = s.events := rfl
@[simp] theorem State.cntTen_hif (n i k : Nat) : (s.cntTen n i k).hif = s.hif := rfl
@[simp] theorem State.cntTen_hm (n i k : Nat) : (s.cntTen n i k).hm = s.hm := rfl
@[simp] theorem State.cntTen_log (n i k : Nat) : (s.cntTen n i k).log = s.log := rfl
@[simp] theorem State.cntTen_fab (n i k : Nat) : (s.cntTen n i k).fab = s.fab := rfl
@[simp] theorem State.cntTen_graph (n i k : Nat) : (s.cntTen n i k).graph = s.graph := rfl
@[simp] theorem State.cntTen_pilot (n i k : Nat) : (s.cntTen n i k).pilot = s.pilot := rfl
@[simp] theorem State.cntTen_stacks (n i k : Nat) : (s.cntTen n i k).stks = s.stks := rfl
@[simp] theorem State.cntTen_kv (n i k : Nat) : (s.cntTen n i k).kv = s.kv := rfl
@[simp] theorem State.cntTen_serving (n i k : Nat) : (s.cntTen n i k).serving = s.serving := rfl
@[simp] theorem State.cntTen_fw (n i k : Nat) : (s.cntTen n i k).fw = s.fw := rfl
@[simp] theorem State.cntTen_power (n i k : Nat) : (s.cntTen n i k).power = s.power := rfl
@[simp] theorem State.cntTen_thermal (n i k : Nat) : (s.cntTen n i k).thermal = s.thermal := rfl
@[simp] theorem State.cntTen_bring (n i k : Nat) : (s.cntTen n i k).bring = s.bring := rfl
@[simp] theorem State.cntTen_backup (n i k : Nat) : (s.cntTen n i k).backup = s.backup := rfl
@[simp] theorem State.cntTen_i3c (n i k : Nat) : (s.cntTen n i k).i3c = s.i3c := rfl
@[simp] theorem State.cntTen_agent (n i k : Nat) : (s.cntTen n i k).agent = s.agent := rfl
@[simp] theorem State.cntTen_resp (n i k : Nat) : (s.cntTen n i k).resp = s.resp := rfl
@[simp] theorem State.cntTen_licences (n i k : Nat) : (s.cntTen n i k).licences = s.licences := rfl
@[simp] theorem State.cntTen_mapMode (n i k : Nat) : (s.cntTen n i k).mapMode = s.mapMode := rfl

/-! ### Updates by a function -/

@[simp] theorem State.updQuay_eq (k : Nat) (f : Quay → Quay) :
    s.updQuay k f = s.setQuay k (f (s.quay k)) := rfl
@[simp] theorem State.updTile_eq (k : Nat) (f : Tile → Tile) :
    s.updTile k f = s.setTile k (f (s.tile k)) := rfl
@[simp] theorem State.updFunc_eq (k : Nat) (f : Func → Func) :
    s.updFunc k f = s.setFunc k (f (s.func k)) := rfl
@[simp] theorem State.updPace_eq (k : Nat) (f : Pace → Pace) :
    s.updPace k f = s.updQuay k (fun x => { x with pace := f x.pace }) := rfl

/-! ### What is read where an update wrote -/

@[simp] theorem State.quay_setQuay (k : Nat) (x : Quay) : (s.setQuay k x).quay k = x := Table.getD_put_self _ _ _ _
theorem State.quay_setQuay_ne {k j : Nat} (x : Quay) (h : j ≠ k) : (s.setQuay k x).quay j = s.quay j := Table.getD_put_ne _ _ _ h
@[simp] theorem State.tile_setTile (k : Nat) (x : Tile) : (s.setTile k x).tile k = x := Table.getD_put_self _ _ _ _
theorem State.tile_setTile_ne {k j : Nat} (x : Tile) (h : j ≠ k) : (s.setTile k x).tile j = s.tile j := Table.getD_put_ne _ _ _ h
@[simp] theorem State.func_setFunc (k : Nat) (x : Func) : (s.setFunc k x).func k = x := Table.getD_put_self _ _ _ _
theorem State.func_setFunc_ne {k j : Nat} (x : Func) (h : j ≠ k) : (s.setFunc k x).func j = s.func j := Table.getD_put_ne _ _ _ h
@[simp] theorem State.so_setSo (k : Nat) (x : SyncObj) : (s.setSo k x).so k = x := Table.getD_put_self _ _ _ _
theorem State.so_setSo_ne {k j : Nat} (x : SyncObj) (h : j ≠ k) : (s.setSo k x).so j = s.so j := Table.getD_put_ne _ _ _ h
@[simp] theorem State.bar_setBar (k : Nat) (x : Barrier) : (s.setBar k x).bar k = x := Table.getD_put_self _ _ _ _
theorem State.bar_setBar_ne {k j : Nat} (x : Barrier) (h : j ≠ k) : (s.setBar k x).bar j = s.bar j := Table.getD_put_ne _ _ _ h
@[simp] theorem State.unit_setUnit (k : Nat) (x : TraceUnit) : (s.setUnit k x).unit k = x := Table.getD_put_self _ _ _ _
theorem State.unit_setUnit_ne {k j : Nat} (x : TraceUnit) (h : j ≠ k) : (s.setUnit k x).unit j = s.unit j := Table.getD_put_ne _ _ _ h
@[simp] theorem State.time_at (t : Nat) : (s.at t).time = max s.time t := rfl

/-! ### What a unit reads after an update of something else -/

@[simp] theorem State.setQuay_tile_of (q : Nat) (x : Quay) (j : Nat) : (s.setQuay q x).tile j = s.tile j := rfl
@[simp] theorem State.setQuay_func_of (q : Nat) (x : Quay) (j : Nat) : (s.setQuay q x).func j = s.func j := rfl
@[simp] theorem State.setQuay_so_of (q : Nat) (x : Quay) (j : Nat) : (s.setQuay q x).so j = s.so j := rfl
@[simp] theorem State.setQuay_bar_of (q : Nat) (x : Quay) (j : Nat) : (s.setQuay q x).bar j = s.bar j := rfl
@[simp] theorem State.setQuay_unit_of (q : Nat) (x : Quay) (j : Nat) : (s.setQuay q x).unit j = s.unit j := rfl
@[simp] theorem State.setQuay_coreRuns_of (q : Nat) (x : Quay) (j : Nat) : (s.setQuay q x).coreRuns j = s.coreRuns j := rfl
@[simp] theorem State.setQuay_replaying_of (q : Nat) (x : Quay) : (s.setQuay q x).replaying = s.replaying := rfl
@[simp] theorem State.setTile_quay_of (t : Nat) (x : Tile) (j : Nat) : (s.setTile t x).quay j = s.quay j := rfl
@[simp] theorem State.setTile_func_of (t : Nat) (x : Tile) (j : Nat) : (s.setTile t x).func j = s.func j := rfl
@[simp] theorem State.setTile_so_of (t : Nat) (x : Tile) (j : Nat) : (s.setTile t x).so j = s.so j := rfl
@[simp] theorem State.setTile_bar_of (t : Nat) (x : Tile) (j : Nat) : (s.setTile t x).bar j = s.bar j := rfl
@[simp] theorem State.setTile_unit_of (t : Nat) (x : Tile) (j : Nat) : (s.setTile t x).unit j = s.unit j := rfl
@[simp] theorem State.setTile_coreRuns_of (t : Nat) (x : Tile) (j : Nat) : (s.setTile t x).coreRuns j = s.coreRuns j := rfl
@[simp] theorem State.setTile_replaying_of (t : Nat) (x : Tile) : (s.setTile t x).replaying = s.replaying := rfl
@[simp] theorem State.setFunc_quay_of (f : Nat) (x : Func) (j : Nat) : (s.setFunc f x).quay j = s.quay j := rfl
@[simp] theorem State.setFunc_tile_of (f : Nat) (x : Func) (j : Nat) : (s.setFunc f x).tile j = s.tile j := rfl
@[simp] theorem State.setFunc_so_of (f : Nat) (x : Func) (j : Nat) : (s.setFunc f x).so j = s.so j := rfl
@[simp] theorem State.setFunc_bar_of (f : Nat) (x : Func) (j : Nat) : (s.setFunc f x).bar j = s.bar j := rfl
@[simp] theorem State.setFunc_unit_of (f : Nat) (x : Func) (j : Nat) : (s.setFunc f x).unit j = s.unit j := rfl
@[simp] theorem State.setFunc_coreRuns_of (f : Nat) (x : Func) (j : Nat) : (s.setFunc f x).coreRuns j = s.coreRuns j := rfl
@[simp] theorem State.setFunc_replaying_of (f : Nat) (x : Func) : (s.setFunc f x).replaying = s.replaying := rfl
@[simp] theorem State.setSo_quay_of (n : Nat) (x : SyncObj) (j : Nat) : (s.setSo n x).quay j = s.quay j := rfl
@[simp] theorem State.setSo_tile_of (n : Nat) (x : SyncObj) (j : Nat) : (s.setSo n x).tile j = s.tile j := rfl
@[simp] theorem State.setSo_func_of (n : Nat) (x : SyncObj) (j : Nat) : (s.setSo n x).func j = s.func j := rfl
@[simp] theorem State.setSo_bar_of (n : Nat) (x : SyncObj) (j : Nat) : (s.setSo n x).bar j = s.bar j := rfl
@[simp] theorem State.setSo_unit_of (n : Nat) (x : SyncObj) (j : Nat) : (s.setSo n x).unit j = s.unit j := rfl
@[simp] theorem State.setSo_coreRuns_of (n : Nat) (x : SyncObj) (j : Nat) : (s.setSo n x).coreRuns j = s.coreRuns j := rfl
@[simp] theorem State.setSo_replaying_of (n : Nat) (x : SyncObj) : (s.setSo n x).replaying = s.replaying := rfl
@[simp] theorem State.setBar_quay_of (g : Nat) (x : Barrier) (j : Nat) : (s.setBar g x).quay j = s.quay j := rfl
@[simp] theorem State.setBar_tile_of (g : Nat) (x : Barrier) (j : Nat) : (s.setBar g x).tile j = s.tile j := rfl
@[simp] theorem State.setBar_func_of (g : Nat) (x : Barrier) (j : Nat) : (s.setBar g x).func j = s.func j := rfl
@[simp] theorem State.setBar_so_of (g : Nat) (x : Barrier) (j : Nat) : (s.setBar g x).so j = s.so j := rfl
@[simp] theorem State.setBar_unit_of (g : Nat) (x : Barrier) (j : Nat) : (s.setBar g x).unit j = s.unit j := rfl
@[simp] theorem State.setBar_coreRuns_of (g : Nat) (x : Barrier) (j : Nat) : (s.setBar g x).coreRuns j = s.coreRuns j := rfl
@[simp] theorem State.setBar_replaying_of (g : Nat) (x : Barrier) : (s.setBar g x).replaying = s.replaying := rfl
@[simp] theorem State.setUnit_quay_of (u : Nat) (x : TraceUnit) (j : Nat) : (s.setUnit u x).quay j = s.quay j := rfl
@[simp] theorem State.setUnit_tile_of (u : Nat) (x : TraceUnit) (j : Nat) : (s.setUnit u x).tile j = s.tile j := rfl
@[simp] theorem State.setUnit_func_of (u : Nat) (x : TraceUnit) (j : Nat) : (s.setUnit u x).func j = s.func j := rfl
@[simp] theorem State.setUnit_so_of (u : Nat) (x : TraceUnit) (j : Nat) : (s.setUnit u x).so j = s.so j := rfl
@[simp] theorem State.setUnit_bar_of (u : Nat) (x : TraceUnit) (j : Nat) : (s.setUnit u x).bar j = s.bar j := rfl
@[simp] theorem State.setUnit_coreRuns_of (u : Nat) (x : TraceUnit) (j : Nat) : (s.setUnit u x).coreRuns j = s.coreRuns j := rfl
@[simp] theorem State.setUnit_replaying_of (u : Nat) (x : TraceUnit) : (s.setUnit u x).replaying = s.replaying := rfl
@[simp] theorem State.at_quay_of (t : Nat) (j : Nat) : (s.at t).quay j = s.quay j := rfl
@[simp] theorem State.at_tile_of (t : Nat) (j : Nat) : (s.at t).tile j = s.tile j := rfl
@[simp] theorem State.at_func_of (t : Nat) (j : Nat) : (s.at t).func j = s.func j := rfl
@[simp] theorem State.at_so_of (t : Nat) (j : Nat) : (s.at t).so j = s.so j := rfl
@[simp] theorem State.at_bar_of (t : Nat) (j : Nat) : (s.at t).bar j = s.bar j := rfl
@[simp] theorem State.at_unit_of (t : Nat) (j : Nat) : (s.at t).unit j = s.unit j := rfl
@[simp] theorem State.at_coreRuns_of (t : Nat) (j : Nat) : (s.at t).coreRuns j = s.coreRuns j := rfl
@[simp] theorem State.at_replaying_of (t : Nat) : (s.at t).replaying = s.replaying := rfl
@[simp] theorem State.cntQuay_quay_of (q i n : Nat) (j : Nat) : (s.cntQuay q i n).quay j = s.quay j := rfl
@[simp] theorem State.cntQuay_tile_of (q i n : Nat) (j : Nat) : (s.cntQuay q i n).tile j = s.tile j := rfl
@[simp] theorem State.cntQuay_func_of (q i n : Nat) (j : Nat) : (s.cntQuay q i n).func j = s.func j := rfl
@[simp] theorem State.cntQuay_so_of (q i n : Nat) (j : Nat) : (s.cntQuay q i n).so j = s.so j := rfl
@[simp] theorem State.cntQuay_bar_of (q i n : Nat) (j : Nat) : (s.cntQuay q i n).bar j = s.bar j := rfl
@[simp] theorem State.cntQuay_unit_of (q i n : Nat) (j : Nat) : (s.cntQuay q i n).unit j = s.unit j := rfl
@[simp] theorem State.cntQuay_coreRuns_of (q i n : Nat) (j : Nat) : (s.cntQuay q i n).coreRuns j = s.coreRuns j := rfl
@[simp] theorem State.cntQuay_replaying_of (q i n : Nat) : (s.cntQuay q i n).replaying = s.replaying := rfl
@[simp] theorem State.cntMod_quay_of (i n : Nat) (j : Nat) : (s.cntMod i n).quay j = s.quay j := rfl
@[simp] theorem State.cntMod_tile_of (i n : Nat) (j : Nat) : (s.cntMod i n).tile j = s.tile j := rfl
@[simp] theorem State.cntMod_func_of (i n : Nat) (j : Nat) : (s.cntMod i n).func j = s.func j := rfl
@[simp] theorem State.cntMod_so_of (i n : Nat) (j : Nat) : (s.cntMod i n).so j = s.so j := rfl
@[simp] theorem State.cntMod_bar_of (i n : Nat) (j : Nat) : (s.cntMod i n).bar j = s.bar j := rfl
@[simp] theorem State.cntMod_unit_of (i n : Nat) (j : Nat) : (s.cntMod i n).unit j = s.unit j := rfl
@[simp] theorem State.cntMod_coreRuns_of (i n : Nat) (j : Nat) : (s.cntMod i n).coreRuns j = s.coreRuns j := rfl
@[simp] theorem State.cntMod_replaying_of (i n : Nat) : (s.cntMod i n).replaying = s.replaying := rfl
@[simp] theorem State.cntTen_quay_of (n i k : Nat) (j : Nat) : (s.cntTen n i k).quay j = s.quay j := rfl
@[simp] theorem State.cntTen_tile_of (n i k : Nat) (j : Nat) : (s.cntTen n i k).tile j = s.tile j := rfl
@[simp] theorem State.cntTen_func_of (n i k : Nat) (j : Nat) : (s.cntTen n i k).func j = s.func j := rfl
@[simp] theorem State.cntTen_so_of (n i k : Nat) (j : Nat) : (s.cntTen n i k).so j = s.so j := rfl
@[simp] theorem State.cntTen_bar_of (n i k : Nat) (j : Nat) : (s.cntTen n i k).bar j = s.bar j := rfl
@[simp] theorem State.cntTen_unit_of (n i k : Nat) (j : Nat) : (s.cntTen n i k).unit j = s.unit j := rfl
@[simp] theorem State.cntTen_coreRuns_of (n i k : Nat) (j : Nat) : (s.cntTen n i k).coreRuns j = s.coreRuns j := rfl
@[simp] theorem State.cntTen_replaying_of (n i k : Nat) : (s.cntTen n i k).replaying = s.replaying := rfl

/-! ### Raising an event -/

@[simp] theorem State.raise_pending (st : Status) (k u : Nat) (tn : Option Nat) (a : Nat) :
    (s.raise st k u tn a).pending = s.pending := by
  simp only [State.raise, State.placeEntry]; split <;> rfl
@[simp] theorem State.raise_time (st : Status) (k u : Nat) (tn : Option Nat) (a : Nat) :
    (s.raise st k u tn a).time = s.time := by
  simp only [State.raise, State.placeEntry]; split <;> rfl
@[simp] theorem State.raise_onRing (st : Status) (k u : Nat) (tn : Option Nat) (a : Nat) :
    (s.raise st k u tn a).onRing = s.onRing := by
  simp only [State.raise, State.placeEntry]; split <;> rfl
@[simp] theorem State.raise_refclkFailSeen (st : Status) (k u : Nat) (tn : Option Nat) (a : Nat) :
    (s.raise st k u tn a).refclkFailSeen = s.refclkFailSeen := by
  simp only [State.raise, State.placeEntry]; split <;> rfl
@[simp] theorem State.raise_free (st : Status) (k u : Nat) (tn : Option Nat) (a : Nat) :
    (s.raise st k u tn a).free = s.free := by
  simp only [State.raise, State.placeEntry]; split <;> rfl
@[simp] theorem State.raise_mem (st : Status) (k u : Nat) (tn : Option Nat) (a : Nat) :
    (s.raise st k u tn a).mem = s.mem := by
  simp only [State.raise, State.placeEntry]; split <;> rfl
@[simp] theorem State.raise_hostMem (st : Status) (k u : Nat) (tn : Option Nat) (a : Nat) :
    (s.raise st k u tn a).hostMem = s.hostMem := by
  simp only [State.raise, State.placeEntry]; split <;> rfl
@[simp] theorem State.raise_quays (st : Status) (k u : Nat) (tn : Option Nat) (a : Nat) :
    (s.raise st k u tn a).quays = s.quays := by
  simp only [State.raise, State.placeEntry]; split <;> rfl
@[simp] theorem State.raise_central (st : Status) (k u : Nat) (tn : Option Nat) (a : Nat) :
    (s.raise st k u tn a).central = s.central := by
  simp only [State.raise, State.placeEntry]; split <;> rfl
@[simp] theorem State.raise_tiles (st : Status) (k u : Nat) (tn : Option Nat) (a : Nat) :
    (s.raise st k u tn a).tiles = s.tiles := by
  simp only [State.raise, State.placeEntry]; split <;> rfl
@[simp] theorem State.raise_tiers (st : Status) (k u : Nat) (tn : Option Nat) (a : Nat) :
    (s.raise st k u tn a).tiers = s.tiers := by
  simp only [State.raise, State.placeEntry]; split <;> rfl
@[simp] theorem State.raise_sync (st : Status) (k u : Nat) (tn : Option Nat) (a : Nat) :
    (s.raise st k u tn a).sync = s.sync := by
  simp only [State.raise, State.placeEntry]; split <;> rfl
@[simp] theorem State.raise_dma (st : Status) (k u : Nat) (tn : Option Nat) (a : Nat) :
    (s.raise st k u tn a).dma = s.dma := by
  simp only [State.raise, State.placeEntry]; split <;> rfl
@[simp] theorem State.raise_hif (st : Status) (k u : Nat) (tn : Option Nat) (a : Nat) :
    (s.raise st k u tn a).hif = s.hif := by
  simp only [State.raise, State.placeEntry]; split <;> rfl
@[simp] theorem State.raise_hm (st : Status) (k u : Nat) (tn : Option Nat) (a : Nat) :
    (s.raise st k u tn a).hm = s.hm := by
  simp only [State.raise, State.placeEntry]; split <;> rfl
@[simp] theorem State.raise_log (st : Status) (k u : Nat) (tn : Option Nat) (a : Nat) :
    (s.raise st k u tn a).log = s.log := by
  simp only [State.raise, State.placeEntry]; split <;> rfl
@[simp] theorem State.raise_fab (st : Status) (k u : Nat) (tn : Option Nat) (a : Nat) :
    (s.raise st k u tn a).fab = s.fab := by
  simp only [State.raise, State.placeEntry]; split <;> rfl
@[simp] theorem State.raise_graph (st : Status) (k u : Nat) (tn : Option Nat) (a : Nat) :
    (s.raise st k u tn a).graph = s.graph := by
  simp only [State.raise, State.placeEntry]; split <;> rfl
@[simp] theorem State.raise_pilot (st : Status) (k u : Nat) (tn : Option Nat) (a : Nat) :
    (s.raise st k u tn a).pilot = s.pilot := by
  simp only [State.raise, State.placeEntry]; split <;> rfl
@[simp] theorem State.raise_stacks (st : Status) (k u : Nat) (tn : Option Nat) (a : Nat) :
    (s.raise st k u tn a).stks = s.stks := by
  simp only [State.raise, State.placeEntry]; split <;> rfl
@[simp] theorem State.raise_kv (st : Status) (k u : Nat) (tn : Option Nat) (a : Nat) :
    (s.raise st k u tn a).kv = s.kv := by
  simp only [State.raise, State.placeEntry]; split <;> rfl
@[simp] theorem State.raise_serving (st : Status) (k u : Nat) (tn : Option Nat) (a : Nat) :
    (s.raise st k u tn a).serving = s.serving := by
  simp only [State.raise, State.placeEntry]; split <;> rfl
@[simp] theorem State.raise_fw (st : Status) (k u : Nat) (tn : Option Nat) (a : Nat) :
    (s.raise st k u tn a).fw = s.fw := by
  simp only [State.raise, State.placeEntry]; split <;> rfl
@[simp] theorem State.raise_power (st : Status) (k u : Nat) (tn : Option Nat) (a : Nat) :
    (s.raise st k u tn a).power = s.power := by
  simp only [State.raise, State.placeEntry]; split <;> rfl
@[simp] theorem State.raise_thermal (st : Status) (k u : Nat) (tn : Option Nat) (a : Nat) :
    (s.raise st k u tn a).thermal = s.thermal := by
  simp only [State.raise, State.placeEntry]; split <;> rfl
@[simp] theorem State.raise_bring (st : Status) (k u : Nat) (tn : Option Nat) (a : Nat) :
    (s.raise st k u tn a).bring = s.bring := by
  simp only [State.raise, State.placeEntry]; split <;> rfl
@[simp] theorem State.raise_backup (st : Status) (k u : Nat) (tn : Option Nat) (a : Nat) :
    (s.raise st k u tn a).backup = s.backup := by
  simp only [State.raise, State.placeEntry]; split <;> rfl
@[simp] theorem State.raise_i3c (st : Status) (k u : Nat) (tn : Option Nat) (a : Nat) :
    (s.raise st k u tn a).i3c = s.i3c := by
  simp only [State.raise, State.placeEntry]; split <;> rfl
@[simp] theorem State.raise_agent (st : Status) (k u : Nat) (tn : Option Nat) (a : Nat) :
    (s.raise st k u tn a).agent = s.agent := by
  simp only [State.raise, State.placeEntry]; split <;> rfl
@[simp] theorem State.raise_resp (st : Status) (k u : Nat) (tn : Option Nat) (a : Nat) :
    (s.raise st k u tn a).resp = s.resp := by
  simp only [State.raise, State.placeEntry]; split <;> rfl
@[simp] theorem State.raise_licences (st : Status) (k u : Nat) (tn : Option Nat) (a : Nat) :
    (s.raise st k u tn a).licences = s.licences := by
  simp only [State.raise, State.placeEntry]; split <;> rfl
@[simp] theorem State.raise_mapMode (st : Status) (k u : Nat) (tn : Option Nat) (a : Nat) :
    (s.raise st k u tn a).mapMode = s.mapMode := by
  simp only [State.raise, State.placeEntry]; split <;> rfl
@[simp] theorem State.raise_quay_of (st : Status) (k u : Nat) (tn : Option Nat) (a : Nat) (j : Nat) :
    (s.raise st k u tn a).quay j = s.quay j := by
  simp only [State.raise, State.placeEntry]; split <;> rfl
@[simp] theorem State.raise_tile_of (st : Status) (k u : Nat) (tn : Option Nat) (a : Nat) (j : Nat) :
    (s.raise st k u tn a).tile j = s.tile j := by
  simp only [State.raise, State.placeEntry]; split <;> rfl
@[simp] theorem State.raise_func_of (st : Status) (k u : Nat) (tn : Option Nat) (a : Nat) (j : Nat) :
    (s.raise st k u tn a).func j = s.func j := by
  simp only [State.raise, State.placeEntry]; split <;> rfl
@[simp] theorem State.raise_so_of (st : Status) (k u : Nat) (tn : Option Nat) (a : Nat) (j : Nat) :
    (s.raise st k u tn a).so j = s.so j := by
  simp only [State.raise, State.placeEntry]; split <;> rfl
@[simp] theorem State.raise_bar_of (st : Status) (k u : Nat) (tn : Option Nat) (a : Nat) (j : Nat) :
    (s.raise st k u tn a).bar j = s.bar j := by
  simp only [State.raise, State.placeEntry]; split <;> rfl
@[simp] theorem State.raise_coreRuns_of (st : Status) (k u : Nat) (tn : Option Nat) (a : Nat) (j : Nat) :
    (s.raise st k u tn a).coreRuns j = s.coreRuns j := by
  simp only [State.raise, State.placeEntry]; split <;> rfl
@[simp] theorem State.raise_replaying_of (st : Status) (k u : Nat) (tn : Option Nat) (a : Nat) :
    (s.raise st k u tn a).replaying = s.replaying := by
  simp only [State.raise, State.placeEntry]; split <;> rfl

theorem State.isolation_eq (st : Status) (k u tn a : Nat) : s.isolation st k u tn a = s.raise st k u (some tn) a := rfl
theorem State.raiseUnit_eq (st : Status) (k u a : Nat) : s.raiseUnit st k u a = s.raise st k u none a := rfl

end Sys2Proof.Machine
end

