-- ==== Sys2Proof/Tests/Slice0.lean ====
section
/-! SUPPORT. Tests: commands that well-formedness refuses, worked examples and tables of the spec,
and for each clause of each statement a state and operands that meet its hypotheses. -/

set_option Elab.async false

open Sys2Proof Sys2Proof.Machine


/-! ### Commands no sender can send: one ill-formed term for each check -/

theorem test_illformed_requester_function : Sys2Proof.wellFormed (.registerWrite (.host 1024) 0 0 0) = false := by decide
theorem test_illformed_requester_quay_core : Sys2Proof.wellFormed (.registerWrite (.quayCore 64) 0 0 0) = false := by decide
theorem test_illformed_requester_tile : Sys2Proof.wellFormed (.registerWrite (.scalar 4096) 0 0 0) = false := by decide
theorem test_illformed_register_address : Sys2Proof.wellFormed (.registerWrite .power (2 ^ 48) 0 0) = false := by decide
theorem test_illformed_register_value : Sys2Proof.wellFormed (.registerWrite .power 0 (2 ^ 32) 0) = false := by decide
theorem test_illformed_spare_quay : Sys2Proof.wellFormed (.quaySpareMapWrite .power 64 0 0) = false := by decide
theorem test_illformed_spare_number : Sys2Proof.wellFormed (.quaySpareMapWrite .power 0 4 0) = false := by decide
theorem test_illformed_pace_domain : Sys2Proof.wellFormed (.paceWindowEnd 65 0 0 0) = false := by decide
theorem test_illformed_pace_quay : Sys2Proof.wellFormed (.pacePredUpdate 64) = false := by decide
theorem test_illformed_pace_step_value : Sys2Proof.wellFormed (.paceVsetStepWrite .power 0 (2 ^ 32)) = false := by decide
theorem test_illformed_park_quay : Sys2Proof.wellFormed (.park .power 64 0) = false := by decide
theorem test_illformed_clr_minmax_value : Sys2Proof.wellFormed (.clrMinmax 0 (2 ^ 32)) = false := by decide
theorem test_illformed_tile_of_control : Sys2Proof.wellFormed (.tileStart .scheduler 4096) = false := by decide
theorem test_illformed_tile_of_descriptor : Sys2Proof.wellFormed (.descComplete 4096) = false := by decide
theorem test_illformed_cfg_pend_word : Sys2Proof.wellFormed (.cfgPendWrite (.scalar 0) 0 64 0) = false := by decide
theorem test_illformed_pre_rec_word : Sys2Proof.wellFormed (.preRecWrite (.scalar 0) 0 32 0) = false := by decide
theorem test_illformed_tec_signal_number : Sys2Proof.wellFormed (.tecSignalWrite (.scalar 0) 0 8) = false := by decide
theorem test_illformed_doorbell_function : Sys2Proof.wellFormed (.doorbell 1024 0) = false := by decide
theorem test_illformed_shadow_queue : Sys2Proof.wellFormed (.shadowWrite 8192 0) = false := by decide
theorem test_illformed_stack_number : Sys2Proof.wellFormed (.stkSlotCfgWrite .power 12 0) = false := by decide
theorem test_illformed_read_length : Sys2Proof.wellFormed (.memoryRead .power 0 0 [] 0) = false := by decide
theorem test_illformed_write_length : Sys2Proof.wellFormed (.memoryWrite .power 0 [] 0) = false := by decide
theorem test_illformed_memory_unit : Sys2Proof.wellFormed (.refresh 768) = false := by decide
theorem test_illformed_memory_unit_tier2 : Sys2Proof.wellFormed (.refresh 1040) = false := by decide
theorem test_illformed_pseudo_channel : Sys2Proof.wellFormed (.t1CalLoss 0 64 0) = false := by decide
theorem test_illformed_tier2_channel : Sys2Proof.wellFormed (.t2RetrainDone 16 0) = false := by decide
theorem test_illformed_ce_bucket : Sys2Proof.wellFormed (.ceLeak 2060 0 false) = false := by decide
theorem test_illformed_sync_unit : Sys2Proof.wellFormed (.soSignal (.stream 4096 true) 0 0) = false := by decide
theorem test_illformed_sync_object : Sys2Proof.wellFormed (.soSignal (.node 0 0) 131072 0) = false := by decide
theorem test_illformed_sync_value : Sys2Proof.wellFormed (.soSignal (.node 0 0) 0 (2 ^ 32)) = false := by decide
theorem test_illformed_barrier_group : Sys2Proof.wellFormed (.bar 0 true 64) = false := by decide
theorem test_illformed_waiter_unit : Sys2Proof.wellFormed (.waiterRetry (.stream 4096 true)) = false := by decide
theorem test_illformed_count_object : Sys2Proof.wellFormed (.soCountWrite .scheduler 131072 0) = false := by decide
theorem test_illformed_fabric_port : Sys2Proof.wellFormed (.helloSend 16 0) = false := by decide
theorem test_illformed_flit_port : Sys2Proof.wellFormed (.flitReceived 16 0 0) = false := by decide
theorem test_illformed_lane_count : Sys2Proof.wellFormed (.portTrained 0 3 0 0) = false := by decide
theorem test_illformed_request_tag : Sys2Proof.wellFormed (.reqTimeout (2 ^ 16) 0) = false := by decide
theorem test_illformed_mailbox_function : Sys2Proof.wellFormed (.mbxGo 1024 0) = false := by decide
theorem test_illformed_issuer_function : Sys2Proof.wellFormed (.ident (.func 1024) 0) = false := by decide
theorem test_illformed_issuer_harbour : Sys2Proof.wellFormed (.ident (.peer 2 0) 0) = false := by decide
theorem test_illformed_issuer_berth : Sys2Proof.wellFormed (.ident (.peer 0 8192) 0) = false := by decide
theorem test_illformed_trace_unit : Sys2Proof.wellFormed (.traceRecordWrite 65 0) = false := by decide
theorem test_illformed_vector : Sys2Proof.wellFormed (.msixCoalesceExpiry 0 0 0) = false := by decide
theorem test_illformed_bar_number : Sys2Proof.wellFormed (.hostBarAccess 0 1 false 0 4 [] [] 0) = false := by decide
theorem test_illformed_i3c_length : Sys2Proof.wellFormed (.i3cRegRead (List.replicate 265 0) 0) = false := by decide +kernel
theorem test_illformed_i3c_event_byte : Sys2Proof.wellFormed (.enec 256) = false := by decide
theorem test_illformed_i3c_length_limit : Sys2Proof.wellFormed (.setmwl (2 ^ 16)) = false := by decide
theorem test_illformed_ibi_byte : Sys2Proof.wellFormed (.ibiSend 3) = false := by decide
theorem test_illformed_core_number : Sys2Proof.wellFormed (.coreWatchdog 67 1 0) = false := by decide
theorem test_illformed_watchdog_cause : Sys2Proof.wellFormed (.coreWatchdog 0 3 0) = false := by decide
theorem test_illformed_short_cause : Sys2Proof.wellFormed (.hsShort 0 0) = false := by decide
theorem test_illformed_valve_feedback : Sys2Proof.wellFormed (.valveTick 101 0) = false := by decide
theorem test_illformed_watchdog_kick_value : Sys2Proof.wellFormed (.rstWdogKick .scheduler (2 ^ 32) 0) = false := by decide
theorem test_illformed_fill_number : Sys2Proof.wellFormed (.fillDone 3 0) = false := by decide
theorem test_illformed_bringup_task : Sys2Proof.wellFormed (.bringupTimeout 7 0 [] 0 0 0) = false := by decide
theorem test_illformed_dram_stack : Sys2Proof.wellFormed (.dramHotChange false 12 0 true) = false := by decide
theorem test_illformed_dram_channel : Sys2Proof.wellFormed (.dramHotChange true 16 0 true) = false := by decide
theorem test_illformed_enrolment_core : Sys2Proof.wellFormed (.mbxEnrolmentEnd 3 0 0) = false := by decide
theorem test_illformed_enrolment_function : Sys2Proof.wellFormed (.mbxEnrolmentEnd 0 1024 0) = false := by decide
/-- Well-formed at the top of every range. -/
theorem test_wellformed_tops : (Sys2Proof.wellFormed (.dramHotChange true 15 0 true) && Sys2Proof.wellFormed (.refresh 767)
    && Sys2Proof.wellFormed (.refresh 1039) && Sys2Proof.wellFormed (.soSignal (.stream 4095 true) 131071 (2 ^ 32 - 1))
    && Sys2Proof.wellFormed (.hostBarAccess 1023 4 true 0 1 [0] [] 0) && Sys2Proof.wellFormed (.ident (.peer 1 8191) 0)) = true := by
  decide

/-! ### Worked examples of the spec -/

/-- 03, Worked conversions: 0.3 becomes 0x2A in E4M3. -/
theorem test_spec_e4m3_of_0_3 : (convFloat fmtE4m3 false .rne (ofFp32 0x3E99999A#32)).1 = 0x2A := by decide
/-- 03, Worked conversions: a draw of at least 26,215 rounds 0.3 up, a lower one down. -/
theorem test_spec_e4m3_stochastic :
    ((convFloat fmtE4m3 false (.sr 26215) (ofFp32 0x3E99999A#32)).1,
     (convFloat fmtE4m3 false (.sr 26214) (ofFp32 0x3E99999A#32)).1) = (0x2A, 0x29) := by decide
/-- 03, Worked conversions: 500 exceeds 448. -/
theorem test_spec_e4m3_of_500 :
    (convFloat fmtE4m3 false .rne (.fin false 500 0), (convFloat fmtE4m3 true .rne (.fin false 500 0)).1)
      = ((0x7E, flagOvf), 0x7F) := by decide
/-- 03, Worked conversions: 13.0, −0.7 and 2.6 as an MXFP4 block: codes 0x7, 0x9 and 0x3
with E = 0x80. -/
theorem test_spec_mxfp4_block :
    (match convBlock 7 1 false 0 ([.fin false 13 0, ofFp32 0xBF333333#32, ofFp32 0x40266666#32].map
        (fun v => (v, RMode.rne))) with
     | (cs, e, _) => (cs, e)) = ([0x7, 0x9, 0x3], 0x80) := by decide
set_option maxRecDepth 100000 in
/-- 12 R381: CRC-32C of the ASCII bytes 123456789. -/
theorem test_spec_crc32c : crc32c ((List.range 9).map (fun i => BitVec.ofNat 8 (0x31 + i))) = 0xE3069283 := by decide
set_option maxRecDepth 100000 in
/-- 12 R381: CRC-64 of the same bytes. -/
theorem test_spec_crc64 : crc64 ((List.range 9).map (fun i => BitVec.ofNat 8 (0x31 + i))) = 0xAE8B14860A799888 := by
  decide
/-- 01 R46: the scratchpad of Q12.T07 and its scalar data memory. -/
theorem test_spec_tile_window :
    (tileBase (12 * 64 + 7), State.reset.region 0x40000C1F0000) = (0x40000C1C0000, Region.sdm (12 * 64 + 7)) := by decide
/-- 01 R51: QUAY_STATUS of Q12 and TILE_ID of Q12.T07. -/
theorem test_spec_register_places :
    (regAt 0x7F00001C0004, regAt 0x7F0001307000) = (some (.quay, 12, 4), some (.tile, 12 * 64 + 7, 0)) := by decide
/-- 10, Translating addresses: CS4.NBU0341 at offset 0x11_5000, which is pseudo-channel 21
and bank group 5. -/
theorem test_spec_tier1_spread :
    State.reset.t1Loc 0x000340000000 = { unit := 4 * 64 + 21, bg := 5, off := 0x115000 } := by decide
/-- 10, Translating addresses: CS5.NBU0100 at offset 0x100_0000, and the next chunk of it. -/
theorem test_spec_tier1_stack_zone :
    (State.reset.t1Loc 0x006C00106000, State.reset.t1Loc 0x006C00506000)
      = ({ unit := 5 * 64 + 6, bg := 4, off := 0x1000000 }, { unit := 5 * 64 + 6, bg := 4, off := 0x1001000 }) := by decide
set_option maxRecDepth 100000 in
/-- 10, Translating addresses: with CS3.PC10 mapped out the first address lies in
CS7.NBU0123. -/
theorem test_spec_tier1_mapped_out :
    (let s := { State.reset with tiers := { State.reset.tiers with pcOut := [(3, BitVec.ofNat 64 (2 ^ 10))] } }
     (s.spreadSize, s.t1Loc 0x000340000000))
      = (0x2FF0000000, { unit := 7 * 64 + 7, bg := 11, off := 0x115000 }) := by decide
/-- 15, Frames: slot 37 of NBU 300 of CS5 at layer 100. -/
theorem test_spec_kv_frame :
    (State.reset.kvLocal 5 300 7489 0, State.reset.kvLocal 5 300 7500 0x500) = (0x007350712000, 0x007353312500) := by
  decide
/-- 20, after R631: the factor 0.7 gives thermal step 23 with no issue limit, and 0.2 gives
step 10 with an issue rate of 26. -/
theorem test_spec_thermal_limits :
    (thermalLimits (throttleFactor (celsius 103)) 50, thermalLimits (throttleFactor (celsius 108)) 50)
      = ((23, 64), (10, 26)) := by decide
/-- 21, Bring-up after power-on: RST_CAUSE reads 0x0FF0_0031. -/
theorem test_spec_reset_cause :
    (State.reset.updBackup (fun k => { k with cause := 1, sources := 3 })).readRst 4 = 0x0FF00031 := by decide
/-- 21, Bring-up after power-on: two failed tiles of a quay take its spares P64 and P65. -/
theorem test_spec_spares :
    (mapSpares (BitVec.ofNat 68 (2 ^ 12 + 2 ^ 40))).map (fun t => t.map (fun x => (x.1, x.2.replaced.toNat)))
      = some [(0, 12), (1, 40)] := by decide
/-- 23, R688: the bus characteristics register is 0x06. -/
theorem test_spec_bcr : (Out.state (execGetbcr { State.reset with
    bring := { State.reset.bring with vaux := true }, i3c := { State.reset.i3c with addr := some 8 } }) State.reset).resp.data
      = [0x06] := by decide

/-! ### States the witnesses use -/

/-- A state with one quay in service. -/
def wQuay (q : Nat) : State := State.reset.setQuay q { Quay.reset with inService := true }
/-- A state in which every firmware core runs. -/
def wCores : State := { State.reset with fw := { Firmware.reset with state := 2 } }
/-- A state with tile 0 changed from its reset value. -/
def wTile (f : Tile → Tile) : State := State.reset.setTile 0 (f Tile.reset)
/-- Tile 0 runs a descriptor; one stream stands at `w`, the other has ended. -/
def wOp (ex : Bool) (w : Nat) (f : Tile → Tile) : State :=
  wTile (fun x => f { x with
    mode := .running, active := true
    res := if ex then { x.res with xsp := [BitVec.ofNat 64 w] } else { x.res with asp := [BitVec.ofNat 64 w] }
    as := { StreamSt.reset with ended := ex }, xs := { StreamSt.reset with ended := !ex } })
/-- FP32 1.0 in every lane. -/
def wOnes : BitVec 2048 := BitVec.ofNat 2048 (packElems 32 (List.replicate 64 0x3F800000))
/-- A word of the scratchpad of tile 0 that holds data. -/
def wSpad (s : State) : State := { s with mem := (List.range 64).map (fun i => (tileBase 0 + i, BitVec.ofNat 8 i)) }
/-- An affine generator of the scratchpad: bytes at offset 0. -/
def wAg : BitVec 512 := 0
/-- A submission queue of tenant 0 with 16 places. -/
def wQ : HwQueue :=
  { tenant := 0, ringBase := 0x400000000000#64, ringLoc := 0, sizeLog2 := 4, prioMax := 7, shadowAddr := 0, shadowLoc := 1,
    head := 0, tail := 2, enabled := true, serving := false, shadowDue := none }
/-- A state with queue 5 and this graph engine. -/
def wGr (f : GraphEngine → GraphEngine) : State :=
  { State.reset with graph := f { State.reset.graph with queues := [(5, wQ)] } }
/-- Memory of tile 0 that holds this number. -/
def wBytes (s : State) (o n v : Nat) : State := { s with mem := Mem.writeBytes s.mem (tileBase 0 + o) (bytesOfNat n v) }
/-- An entry read from queue 5 as SEQ 1. -/
def wEnt (raw : Nat) : ReadEntry :=
  { seq := 1, queue := 5, tenant := 0, raw := BitVec.ofNat 512 raw, need := (0, 0, 0) }
/-- A graph of one node, by its entry and its node. -/
def wG (raw node : Nat) (f : NodeSt → NodeSt) : GraphRun :=
  { graphRun (wEnt raw) 0 7 false with nodes := [(0, f (freshNode (BitVec.ofNat 512 node) 0))] }
/-- A chain of this one descriptor, running, with this vector buffer in stack 0. -/
def wChain (d : Nat) (vb : List Nat) : StackChain :=
  { seq := 1, node := 0, tenant := 0, mask := 1, slots := 8, descs := [BitVec.ofNat 1024 d], next := 1,
    running := [{ idx := 0, done := false, flags := 0, failed := none }], completed := 0, flags := 0, waitSent := false,
    waitDone := false, failed := none, stopped := false, startAt := [], lastProgress := 0,
    vb := [(0, Mem.writeBytes [] 0 (vb.flatMap (bytesOfNat 4)))], macs := 0 }
/-- A state with tier 1 in use and this chain. -/
def wStk (x : StackChain) : State :=
  { State.reset with
    tiers := { State.reset.tiers with t1Up := true, t1Filled := true }
    stks := { State.reset.stks with chains := [(3, x)], nextChain := 4 } }
/-- The same with a number in local memory. -/
def wStkM (d : Nat) (vb : List Nat) (a n v : Nat) : State :=
  { wStk (wChain d vb) with mem := Mem.writeBytes [] a (bytesOfNat n v) }
/-- A row of one near-bank unit, and where it stands. -/
@[irreducible] def wRow : List Byte := List.replicate 1024 7
def wRowAt : Nat := (wStk (wChain 0 [])).nbuLocal 0 0 5 0
/-- A state in which near-bank unit 5 of stack 0 holds that row. -/
def wRowState (d : Nat) : State := { wStk (wChain d []) with mem := Mem.writeBytes [] wRowAt wRow }
theorem wRow_there (d : Nat) : Mem.readBytes (wRowState d).mem wRowAt 1024 = some wRow := by
  have h : wRow.length = 1024 := by unfold wRow; rw [List.length_replicate]
  have k := Mem.readBytes_writeBytes wRow [] wRowAt
  rw [h] at k
  exact k
/-- Both tiers in use and filled, with tile memories filled. -/
def wMem (f : Tiers → Tiers) : State :=
  { State.reset with
    tiers := f { State.reset.tiers with t1Up := true, t1Filled := true, t2Up := true, t2Filled := true }
    bring := { State.reset.bring with tilesFilled := true } }
/-- An atom of 64 bytes at address 0, and one of 128 bytes at the base of tier 2. -/
def wAtom (s : State) : State := { s with mem := (List.range 64).map (fun i => (i, BitVec.ofNat 8 (i + 1))) }
def wAtomB : List Byte := (List.range 64).map (fun i => BitVec.ofNat 8 (i + 1))
/-- One DMA list of one descriptor, which runs on engine 4. -/
def wRun (d : Nat) : DmaRun :=
  { index := 0, engine := 4, desc := BitVec.ofNat 512 d, stage := .started, result := 0, crc := 0, flags := 0, status := 0,
    outstanding := 0, sent := 0, source := [], tbl := [], acked := [], back := [], since := 0 }
def wCtx (d : Nat) (f : DmaRun → DmaRun) : DmaCtx :=
  { engine := 4, seq := 9, node := 2, tenant := 0, hdr := BitVec.ofNat 512 (0x520801 + 2 ^ 32), next := 1,
    running := [f (wRun d)], completed := 0, flags := 0 }
def wDma (d : Nat) (f : DmaRun → DmaRun) : State :=
  let s := wMem id
  { s with dma := { State.reset.dma with ctxs := [(3, wCtx d f)], nextCtx := 4 }, bring := { s.bring with pcieUp := true } }
/-- A state whose SYNC node 0 of graph 1 operates, and whose object 7 is tenant 0's. -/
def wSo (o : SyncObj) : State :=
  (wGr (fun g => { g with graphs := [(1, wG 0 0 (fun n => { n with phase := .running }))] })).setSo 7 { o with valid := true }
/-- A state of tier 1 in use whose Pilot has this one block, at entry 0 of a table at 0x10000. -/
def wBlk : PilBlock :=
  { table := 0x10000, entry := 0, berth := none, base := 0x20000, size := 64, tier2 := false, unit := 0, cls := 0,
    pinned := false, lastUse := 0, reads := 0 }
def wPil (f : Pilot → Pilot) : State :=
  let s := wMem id
  { s with pilot := f { s.pilot with blocks := [wBlk] }
           fw := { s.fw with state := 2 }
           mem := Mem.writeBytes [] 0x10000 (bytesOfNat 8 0 ++ bytesOfNat 4 5 ++ List.replicate 116 0
             ++ ownerEntry 0x20000 0 5 ++ List.replicate 32 0) }
def wMove (f : PilMove → PilMove) : PilMove :=
  f { table := 0x10000, entry := 0, old := 0x20000, new := 0x30000, berth := none, newLoc := 0, size := 64, step := .copy 1,
      since := 0, todo := [0], dirty := [], held := [], send := [], outstanding := 0, failed := false, earlier := [],
      pin := false, demote := false, issuer := none, twinSeq := none }
def wReq : PilReq :=
  { table := 0x10000, entry := 0, home := some (State.reset.ownBerth, 0x30000, 0), pin := false, demote := false, issuer := none }
/-- A serving command at the head of queue 9, whose ring lies in host memory. -/
def wSq : HwQueue :=
  { tenant := 0, ringBase := 0x1000#64, ringLoc := 1, sizeLog2 := 4, prioMax := 7, shadowAddr := 0, shadowLoc := 1,
    head := 0, tail := 2, enabled := true, serving := true, shadowDue := none }
/-- A manifest entry by its words. -/
def wSe (w : Nat) : SrvEntry := { SrvEntry.free with w := BitVec.ofNat 512 w }
/-- A registered model of one stage with launch queue 5, and its geometry with lazy pausing. -/
def wSm (st0 : Nat) : SrvModel := { tenant := 0, words := BitVec.ofNat 4608 (0x010000000000 * 256 + 0x10000 + 5 * 2 ^ 64 + 2 ^ 512 * st0) }
def wSg (flags : Nat) : BitVec 512 := BitVec.ofNat 512 (2 ^ 48 * 0x80 + 2 ^ 64 + 2 ^ 80 * 6 + 2 ^ 88 * flags + 2 ^ 96 + 2 ^ 112 * 16
  + 2 ^ 224 * 7 + 2 ^ 256 * 0x400000000000)
/-- The serving engine with this command waiting and entry 3 holding these words. -/
def wSrv (cmd e : Nat) (f : State → State) : State :=
  let s := wMem id
  f { s with
    hostMem := Mem.writeBytes [] 0x1000 (bytesOfNat 64 cmd)
    graph := { s.graph with queues := [(5, wQ), (9, wSq)] }
    kv := { s.kv with geoms := [(0, wSg 1)] }
    serving := { s.serving with entries := [(3, wSe e)], cache := [3], models := [(0, wSm 0)] }
    mem := Mem.writeBytes [] 0x400000001000 (bytesOfNat 256 (0x660801 + 2 ^ 48)) }
/-- A step in flight of one row, entry 3. -/
def wStep (f : SrvStep → SrvStep) : SrvStep :=
  f { model := 0, stage := 0, slot := 0, stepNo := 7, variant := 0, rows := [3], launch := 0, queued := true, seq := none,
      result := none, delivered := false }
/-- A descriptor of entry 3 that waits for its ring. -/
def wOut : SrvOut := { entry := 3, words := outWords 9 0 0 6 0 0x55, next := 2, tseq := 0, step := none }
/-- Two graphs: the head, ready for 1 ms, of priority 5, and a victim of priority 0 which holds tile 3. -/
def wTwo (fh fv : NodeSt → NodeSt) (p : Option Preemption) : State :=
  let s := wMem id
  { s with
    graph := { s.graph with
      graphs := [(1, { graphRun { wEnt 0 with seq := 1 } 5 7 false with prio := 5, nodes := [(0, fh { freshNode 0x1000000 0 with readyAt := some 0, pin := some (none, []), form := some false })] }),
                 (2, { graphRun { wEnt 0 with seq := 2 } 0 7 false with nodes := [(4, fv { freshNode 0x1000000 0 with phase := .running, held := [3], form := some false })] })]
      preempt := p }
    tiers := { s.tiers with resv := [(1, (0x100000, 0x100000))] }
    tiles := [(3, { Tile.reset with mode := .running, active := true })] }
/-- A packet from berth 5, the module's own, for it. -/
def wPkt (f : Packet → Packet) : Packet :=
  f { ptype := 1, vc := 0, esc := false, down := false, dstH := 0, dstB := 5, srcH := 0, srcB := 5, tenant := 0, tag := 9,
      loc := 0x400000000000, len := 7, aop := 0, data := [] }
/-- A module at berth 5 with this fabric, and bytes 0 to 63 at the base of the scratchpad of tile 0. -/
def wFab (f : Fabric → Fabric) : State :=
  let s := wMem id
  { s with fab := f { s.fab with assigned := true, berth := 5 }
           fw := { s.fw with state := 2 }
           mem := (List.range 64).map (fun i => (i, BitVec.ofNat 8 (i + 1))) ++ (List.range 64).map (fun i => (tileBase 0 + i, BitVec.ofNat 8 i)) }
/-- An up port. -/
def wPort (f : FabPort → FabPort) : FabPort := f { FabPort.reset with state := 2, lanes := 8, credits := fullCredits }
/-- An incident of berth 8 opened at time 0. -/
def wInc : Incident :=
  { suspect := 8, firstTime := 0, firstReporter := 4, reporters := 16, fkinds := 1, num := 1, closedAt := none, synced := false }
def wRep : Report := { suspect := 8, waiting := [9], full := false, sentAt := 0 }
/-- A module at berth 9, with this fault message in its inbox. -/
def wHm (msg : List Byte) (f : Harbourmaster → Harbourmaster) : State :=
  let s := wFab (fun x => { x with berth := 9, inbox := if msg.isEmpty then [] else
    [(16, { wPkt id with ptype := 8, vc := 2, dstB := 9, data := msg })] })
  { s with hm := f s.hm }
/-- A logbook that records into 64 KiB at 1 MiB. -/
def wLog (f : Logbook → Logbook) : State :=
  let s := wMem id
  { s with log := f s.log, tiers := { s.tiers with resv := [(6, (0x100000, 0x10000))] } }
/-- A request of a command with these arguments, admitted from the PF. -/
def wMsg (code : Nat) (vals : List Nat) : Nat :=
  let c := ((cmdOf code).map (·.args)).getD []
  let (os, e) := fieldOffsets c 0x10
  let body := ((os.zip c).zip vals).foldl (fun (m : Nat) (x : (Nat × Nat) × Nat) => setBits m (8 * x.1.1) (8 * x.1.2) x.2) 0
  1 + 2 ^ 8 * msgLen e + 2 ^ 16 * 0x80 + 2 ^ 32 * code + body
def wAdm (code : Nat) (vals : List Nat) : Admitted :=
  { issuer := .func 0, msg := BitVec.ofNat 2048 (wMsg code vals), at_ := 0, started := false, mute := false, lost := false }
def wMbx (core : Nat) (a : Admitted) (s : State) : State :=
  ({ s with fw := { s.fw with state := 2 } }).setCoreQ core { CoreQueue.reset with queue := [a] }
/-- A capture that names no core. -/
def wCap : Capture :=
  { cause := 3, core := 0xFF, fwVer := 1, time := 5, resets := 1, status := ST_FW_START_TIMEOUT, logLen := 0, free := 0 }

/-! ### Witnesses: every clause's hypotheses hold somewhere -/

theorem witness_QuayRegisterWrites_1 : (fun (_s : State) (_r : Requester) (a _v _t : Nat) => (regAt a = none)) (State.reset) (.scheduler) (0x7FFFFFFFFFFF) (1) (5) := by decide +kernel
theorem witness_QuayRegisterWrites_2 : (fun (s : State) (q _v _t : Nat) => (q < 64) ∧ (s.underReset q = false)) (State.reset) (63) (0x00320080) (5) := by decide +kernel
theorem witness_QuayRegisterWrites_3 : (fun (s : State) (q n _v : Nat) => (q < 64) ∧ (n < 4) ∧ (s.underReset q = false) ∧ ((Table.getD (s.quay q).spares n SpareMap.reset).locked = false)) (State.reset) (63) (3) (0x80000005) := by decide +kernel
theorem witness_QuayRegisterWrites_4 : (fun (s : State) (_r : Requester) (q n _v : Nat) => ((Table.getD (s.quay q).spares n SpareMap.reset).locked = true)) (State.reset.setQuay 3 { Quay.reset with spares := [(2, { inUse := true, replaced := 5#7, locked := true })] }) (.security) (3) (2) (0) := by decide +kernel
theorem witness_PaceCommands_1 : (fun (s : State) (q _cur _mv _t : Nat) => (q < 64) ∧ ((s.quay q).inService = true) ∧ ((s.quay q).parked = false)) (wQuay 63) (63) (0x1000) (750) (40) := by decide +kernel
theorem witness_PaceCommands_2 : (fun (s : State) (_q : Nat) => (s.coreRuns 65 = true)) (wCores) (0) := by decide +kernel
theorem witness_PaceCommands_4 : (fun (s : State) (q _t : Nat) => ((s.quay q).pace.stageTarget = none)) (State.reset) (0) (7) := by decide +kernel
theorem witness_PaceCommands_6 : (fun (_s : State) (r : Requester) (_q _v : Nat) => (r ≠ .power)) (State.reset) (.scheduler) (1) (64) := by decide +kernel
theorem witness_PaceCommands_7 : (fun (_s : State) (_q v : Nat) => (v % 2 = 1)) (State.reset) (0) (1) := by decide +kernel
theorem witness_ParkAndReference_1 : (fun (s : State) (q _t : Nat) => (q < 64) ∧ ((s.quay q).parked = false) ∧ (s.heldTiles.all (fun k => k / 64 != q) = true)) ({ State.reset with mem := [(tileBase 128, 3#8)] }) (2) (9) := by decide +kernel
theorem witness_ParkAndReference_2 : (fun (s : State) (q _t : Nat) => ((s.quay q).pace.park = true)) (State.reset.setQuay 0 { Quay.reset with pace := { Pace.reset with park := true } }) (0) (9) := by decide +kernel
theorem witness_ParkAndReference_3 : (fun (s : State) (q _t : Nat) => ((s.quay q).pace.unparking = true) ∧ (s.graph.graphs = [])) (State.reset.setQuay 0 { Quay.reset with parked := true, pace := { Pace.reset with unparking := true } }) (0) (9) := by decide +kernel
theorem witness_ParkAndReference_4 : (fun (s : State) (_t : Nat) => (s.onRing = false)) (State.reset) (3) := by decide +kernel
theorem witness_TileControl_1 : (fun (s : State) (t : Nat) => ((s.tile t).mode = .idle) ∧ ((s.tile t).fetchBusy = false) ∧ ((s.tile t).pendValid = false) ∧ ((s.tile t).prefetch = .none) ∧ (descHeadCheck (s.tile t).pend = none)) (wTile (fun x => { x with cfgPend := 0x012001#2048 })) (0) := by decide +kernel
theorem witness_TileControl_2 : (fun (s : State) (t : Nat) => ((s.tile t).mode = .running) ∧ ((s.tile t).fetchBusy = false) ∧ ((s.tile t).pendValid = false)) (wTile (fun x => { x with mode := .running, active := true })) (0) := by decide +kernel
theorem witness_TileControl_3 : (fun (s : State) (t : Nat) => ((s.tile t).fetchBusy = false) ∧ ((s.tile t).pendValid = true)) (wTile (fun x => { x with mode := .running, pendValid := true })) (0) := by decide +kernel
theorem witness_TileControl_4 : (fun (s : State) (t : Nat) => ((s.tile t).mode = .idle)) (State.reset) (4095) := by decide +kernel
theorem witness_TileControl_5 : (fun (s : State) (t : Nat) => ((s.tile t).mode = .running) ∧ ((s.tile t).active = true)) (wOp true 0 id) (0) := by decide +kernel
theorem witness_TileControl_6 : (fun (s : State) (t : Nat) => ((s.tile t).mode = .stopped) ∧ ((s.tile t).active = false) ∧ ((s.tile t).pendValid = false) ∧ (bit (s.tile t).preRec.toNat 56 = false)) (wTile (fun x => { x with mode := .stopped, fromIdle := true })) (0) := by decide +kernel
theorem witness_TileControl_7 : (fun (s : State) (t : Nat) => ((s.tile t).mode = .stopped) ∧ ((s.tile t).active = true)) (wTile (fun x => { x with mode := .stopped, active := true })) (0) := by decide +kernel
theorem witness_TileControl_8 : (fun (s : State) (t : Nat) => ((s.tile t).mode = .running) ∧ (s.sync.objs = [])) (wOp true 0 id) (0) := by decide +kernel
theorem witness_TileControl_9 : (fun (s : State) (t : Nat) => ((s.tile t).sc.state = 1)) (wTile (fun x => { x with sc := { x.sc with state := 1 } })) (0) := by decide +kernel
theorem witness_TileOwnersOnly_1 : ownsTile (.quayCore 1) 0 = false := by decide
theorem witness_TileLoads_1 : (fun (s : State) (t w _v : Nat) => (w < 64) ∧ ((s.tile t).pendValid = false)) (State.reset) (0) (63) (0xFFFFFFFF) := by decide +kernel
theorem witness_TileLoads_2 : (fun (s : State) (t w _v : Nat) => (w < 32) ∧ ((s.tile t).mode = .stopped)) (wTile (fun x => { x with mode := .stopped })) (0) (31) (7) := by decide +kernel
theorem witness_TileLoads_3 : (fun (s : State) (t _w _v : Nat) => ((s.tile t).mode ≠ .stopped)) (State.reset) (0) (0) (7) := by decide +kernel
theorem witness_TileLoads_4 : (fun (s : State) (t : Nat) => ((s.tile t).pendValid = false) ∧ ((s.tile t).fetchBusy = false)) (State.reset) (0) := by decide +kernel
theorem witness_TileLoads_5 : (fun (s : State) (t : Nat) => ((s.tile t).pendValid = false) ∧ ((s.tile t).fetchBusy = false)) (State.reset) (0) := by decide +kernel
theorem witness_TileLoads_6 : (fun (s : State) (t : Nat) (l : CacheLine) => ((s.tile t).fetchBusy = true) ∧ ((s.tile t).fetchStart = false) ∧ ((s.tile t).cache = [l]) ∧ (l.addr = (s.tile t).descAddr.toNat) ∧ (l.tenant = (s.tile t).tenant)) (wTile (fun x => { x with fetchBusy := true, cache := [{ addr := 0, tenant := 0, data := 5#2048, lockAct := false, lockPend := false, inval := false }] })) (0) ({ addr := 0, tenant := 0, data := 5#2048, lockAct := false, lockPend := false, inval := false }) := by decide +kernel
theorem witness_TileLoads_7 : (fun (s : State) (t : Nat) => ((s.tile t).prefetch = .none) ∧ ((s.tile t).startHeld = false) ∧ (descHeadCheck (s.tile t).pend = none)) (wTile (fun x => { x with cfgPend := 0x012001#2048 })) (0) := by decide +kernel
theorem witness_TileLoads_8 : (fun (s : State) (t n : Nat) => (n < 8) ∧ (((s.tile t).tec n).count.toNat < 0xFFFF)) (State.reset) (0) (7) := by decide +kernel
theorem witness_DescriptorEnds_1 : (fun (s : State) (t : Nat) => ((s.tile t).mode = .running) ∧ ((s.tile t).active = true) ∧ ((s.tile t).dmas = []) ∧ ((s.tile t).sigq = []) ∧ ((s.tile t).ending = none) ∧ ((s.tile t).as.ended = true) ∧ ((s.tile t).xs.ended = true) ∧ ((s.tile t).sc.state ≠ 1) ∧ ((s.tile t).dqs = []) ∧ ((s.tile t).pendValid = false) ∧ (descDoneEn (s.tile t).desc = false)) (wTile (fun x => { x with mode := .running, active := true, as := { StreamSt.reset with ended := true }, xs := { StreamSt.reset with ended := true } })) (0) := by decide +kernel
theorem witness_DescriptorEnds_2 : (fun (s : State) (t : Nat) => ((s.tile t).mode = .aborting) ∧ ((s.tile t).dmas = []) ∧ ((s.tile t).sigq = [])) (wTile (fun x => { x with mode := .aborting })) (0) := by decide +kernel
theorem witness_DescriptorEnds_3 : (fun (s : State) (t : Nat) => ((s.tile t).mode = .running) ∧ ((s.tile t).active = true) ∧ ((s.tile t).ending = none) ∧ ((s.tile t).dmas = []) ∧ ((s.tile t).sigq = []) ∧ ((s.tile t).as.wait = .pop 0) ∧ ((s.tile t).xs.ended = true)) (wTile (fun x => { x with mode := .running, active := true, as := { StreamSt.reset with wait := .pop 0 }, xs := { StreamSt.reset with ended := true } })) (0) := by decide +kernel
theorem witness_StreamControl_1 : (fun (s : State) (t w : Nat) (ex : Bool) => (s.standsAt t ex 0x00 w)) (wOp true 0 (fun x => x)) (0) (0) (true) := by decide +kernel
theorem witness_StreamControl_2 : (fun (s : State) (t w : Nat) (ex : Bool) => (s.standsAt t ex 0x01 w) ∧ (0 < (s.tile t).loopCount (bits w 8 3))) (wOp true 257 (fun x => { x with loopCnt := [(0, 3#32)], cfgAct := BitVec.ofNat 2048 (0 * 2 ^ (8 * 0x24 + 24)) })) (0) (257) (true) := by decide +kernel
theorem witness_StreamControl_3 : (fun (s : State) (t w : Nat) (ex : Bool) (l : OpenLoop) (r : List OpenLoop) => (s.standsAt t ex 0x02 w) ∧ (((s.tile t).stream ex).loops = l :: r) ∧ (l.iter + 1 < l.cnt)) (wOp true 2 (fun x => { x with xs := { x.xs with loops := [{ lvl := 1, iter := 0, cnt := 2, body := 0 }] } })) (0) (2) (true) ({ lvl := 1, iter := 0, cnt := 2, body := 0 }) ([]) := by decide +kernel
theorem witness_StreamControl_4 : (fun (s : State) (t w : Nat) (ex : Bool) (l : OpenLoop) (r : List OpenLoop) => (s.standsAt t ex 0x02 w) ∧ (((s.tile t).stream ex).loops = l :: r) ∧ (l.cnt ≤ l.iter + 1)) (wOp true 2 (fun x => { x with xs := { x.xs with loops := [{ lvl := 1, iter := 1, cnt := 2, body := 0 }] } })) (0) (2) (true) ({ lvl := 1, iter := 1, cnt := 2, body := 0 }) ([]) := by decide +kernel
theorem witness_StreamControl_5 : (fun (s : State) (t w : Nat) (ex : Bool) => (s.standsAt t ex 0x03 w) ∧ ((s.tile t).mode = .running)) (wOp true 3 (fun x => x)) (0) (3) (true) := by decide +kernel
theorem witness_StreamControl_6 : (fun (s : State) (t w : Nat) (ex : Bool) => (s.standsAt t ex 0x04 w) ∧ (((s.tile t).tec (bits w 8 3)).count.toNat + max 1 (bits w 16 16) ≤ 0xFFFF)) (wOp true 1796 (fun x => x)) (0) (1796) (true) := by decide +kernel
theorem witness_StreamControl_7 : (fun (s : State) (t w : Nat) (ex : Bool) => (s.standsAt t ex 0x05 w) ∧ (bits w 16 16 ≤ ((s.tile t).tec (bits w 8 3)).count.toNat) ∧ (bit w 11 = true)) (wOp true 133637 (fun x => { x with tecs := [(2, { count := 2#16, sat := false })] })) (0) (133637) (true) := by decide +kernel
theorem witness_StreamControl_8 : (fun (s : State) (t w : Nat) (ex : Bool) => (s.standsAt t ex 0x05 w) ∧ (bits w 16 16 ≤ ((s.tile t).tec (bits w 8 3)).count.toNat) ∧ (bit w 11 = false)) (wOp true 131589 (fun x => { x with tecs := [(2, { count := 2#16, sat := false })] })) (0) (131589) (true) := by decide +kernel
theorem witness_StreamControl_9 : (fun (s : State) (t w : Nat) (ex : Bool) => (s.standsAt t ex 0x07 w)) (wOp true 7 (fun x => x)) (0) (7) (true) := by decide +kernel
theorem witness_StreamSync_1 : (fun (s : State) (t w : Nat) (ex : Bool) => (s.standsAt t ex 0x06 w) ∧ (bits w 8 4 = 0) ∧ ((s.tile t).sigq.length < 16)) (wOp true 83886086 (fun x => x)) (0) (83886086) (true) := by decide +kernel
theorem witness_StreamSync_2 : (fun (s : State) (t : Nat) (ex : Bool) (e : QueuedSignal) => ((s.tile t).sigq = [e]) ∧ (e.exec = ex) ∧ (e.covers = []) ∧ (s.soAllowed (s.tile t).tenant e.so = true) ∧ ((s.so e.so).waiters = []) ∧ ((s.so e.so).irqEn = false) ∧ ((s.so e.so).count.toNat + max 1 e.inc < 2 ^ 32)) ((wTile (fun x => { x with sigq := [{ so := 5, inc := 0, exec := true, covers := [] }] })).setSo 5 { SyncObj.reset with valid := true }) (0) (true) ({ so := 5, inc := 0, exec := true, covers := [] }) := by decide +kernel
theorem witness_StreamSync_3 : (fun (s : State) (t i : Nat) => ((s.tile t).mode = .stopping) ∧ ((s.tile t).as.wait = .hold i) ∧ ((s.tile t).xs.wait = .hold i) ∧ ((s.tile t).as.loops = []) ∧ ((s.tile t).xs.loops = []) ∧ ((s.tile t).dqs = []) ∧ ((s.tile t).matrix = MatrixSt.reset) ∧ ((s.tile t).dmas = []) ∧ (i < 256)) (wTile (fun x => { x with mode := .stopping, active := true, as := { StreamSt.reset with wait := .hold 9 }, xs := { StreamSt.reset with wait := .hold 9 } })) (0) (9) := by decide +kernel
theorem witness_AccessStream_1 : (fun (s : State) (t w : Nat) (off : Nat) (bs : List Byte) => (s.standsAt t false 0x10 w) ∧ (lsTt w = false) ∧ (lsFlush w = false) ∧ (s.spadAddress t (lsAg w) (lsBytes w) (lsOff w) = .at off) ∧ (Mem.readBytes s.mem (tileBase t + off) (lsBytes w) = some bs) ∧ (((s.tile t).dq (lsDq w)).backlog = []) ∧ (lsBytes w ≤ ((s.tile t).dq (lsDq w)).room)) (wSpad (wOp false 4128784 (fun x => { x with res := { x.res with ag := [wAg] } }))) (0) (4128784) (0) ((List.range 64).map (BitVec.ofNat 8)) := by decide +kernel
theorem witness_AccessStream_2 : (fun (s : State) (t w : Nat) (off : Nat) => (s.standsAt t false 0x11 w) ∧ (lsTt w = false) ∧ (lsFlush w = false) ∧ (s.pilot.moves = []) ∧ (s.spadAddress t (lsAg w) (lsBytes w) (lsOff w) = .at off) ∧ (lsBytes w ≤ ((s.tile t).dq (lsDq w)).avail) ∧ (off % 8 = 0) ∧ (lsBytes w % 8 = 0) ∧ (off + lsBytes w ≤ 0x30000) ∧ (t < 4096)) ((wOp false 458769 (fun x => { x with res := { x.res with ag := [wAg] }, dqs := [(0, { DataQueue.reset with entries := [7#512] })] }))) (0) (458769) (0) := by decide +kernel
theorem witness_AccessStream_3 : (fun (s : State) (t w : Nat) => (s.standsAt t false 0x12 w) ∧ ((s.tile t).dmas = []) ∧ (s.agAddress t (dmaAgS w) 0 = .null)) ({ wOp false 0x3F00000012 (fun x => { x with res := { x.res with ag := [BitVec.ofNat 512 (2 ^ 67 + 2 ^ 79 + 2 ^ 72)] ++ [0] } }) with mem := (List.range 8).map (fun i => (tileBase 0 + i, 255#8)) }) (0) (270582939666) := by decide +kernel
theorem witness_AccessStream_4 : (fun (s : State) (t : Nat) (d : TileDma) => ((s.tile t).dmas = [d]) ∧ (d.nullS = true) ∧ (d.outstanding = 0) ∧ (((s.tile t).tec d.tec).count.toNat < 0xFFFF)) (wTile (fun x => { x with dmas := [{ id := 1, out := false, spad := 0, ext := 0, fabric := false, len := 64, tec := 2, opIndex := 0, nullS := true, nullX := true, outstanding := 0, err := none }] })) (0) ({ id := 1, out := false, spad := 0, ext := 0, fabric := false, len := 64, tec := 2, opIndex := 0, nullS := true, nullX := true, outstanding := 0, err := none }) := by decide +kernel
theorem witness_AccessStream_5 : (fun (s : State) (t : Nat) (d : TileDma) => ((s.tile t).dmas = [d]) ∧ (d.nullS = false) ∧ (d.nullX = true) ∧ (d.out = false) ∧ (d.outstanding = 0) ∧ (s.pilot.moves = []) ∧ (d.spad % 8 = 0) ∧ (d.len % 8 = 0) ∧ (0 < d.len) ∧ (d.spad + d.len ≤ 0x30000) ∧ (t < 4096)) (wTile (fun x => { x with dmas := [{ id := 1, out := false, spad := 8, ext := 0, fabric := false, len := 64, tec := 2, opIndex := 0, nullS := false, nullX := true, outstanding := 0, err := none }] })) (0) ({ id := 1, out := false, spad := 8, ext := 0, fabric := false, len := 64, tec := 2, opIndex := 0, nullS := false, nullX := true, outstanding := 0, err := none }) := by decide +kernel
theorem witness_AccessStream_6 : (fun (s : State) (t w : Nat) => ((s.tile t).opWord false = some w) ∧ (bits w 0 8 = 0x11) ∧ (lsTt w = false) ∧ (lsFlush w = false) ∧ ((s.tile t).canIssue false = true) ∧ ((s.tile t).as.wait = .pop (lsDq w)) ∧ (s.spadAddress t (lsAg w) (lsBytes w) (lsOff w) = .null) ∧ (lsBytes w ≤ ((s.tile t).dq (lsDq w)).avail)) ({ wOp false 0x070011 (fun x => { x with res := { x.res with ag := [BitVec.ofNat 512 (2 ^ 67 + 2 ^ 79 + 2 ^ 72)] ++ [0] }, as := { StreamSt.reset with wait := .pop 0 }, dqs := [(0, { DataQueue.reset with entries := [7#512] })] }) with mem := (List.range 8).map (fun i => (tileBase 0 + i, 255#8)) }) (0) (0x070011) := by decide +kernel
theorem witness_LaneArithmetic_1_1 : (fun (s : State) (t w : Nat) => (s.standsAt t true 64 w)) (wOp true 34357568 (fun x => { x with vregs := [(2, wOnes), (3, wOnes)] })) (0) (34357568) := by decide +kernel
theorem witness_LaneArithmetic_1_2 : (fun (s : State) (t w : Nat) => (s.standsAt t true 65 w)) (wOp true 34357569 (fun x => { x with vregs := [(2, wOnes), (3, wOnes)] })) (0) (34357569) := by decide +kernel
theorem witness_LaneArithmetic_1_3 : (fun (s : State) (t w : Nat) => (s.standsAt t true 66 w)) (wOp true 34357570 (fun x => { x with vregs := [(2, wOnes), (3, wOnes)] })) (0) (34357570) := by decide +kernel
theorem witness_LaneArithmetic_1_4 : (fun (s : State) (t w : Nat) => (s.standsAt t true 67 w)) (wOp true 34357571 (fun x => { x with vregs := [(2, wOnes), (3, wOnes)] })) (0) (34357571) := by decide +kernel
theorem witness_LaneArithmetic_1_5 : (fun (s : State) (t w : Nat) => (s.standsAt t true 68 w)) (wOp true 34357572 (fun x => { x with vregs := [(2, wOnes), (3, wOnes)] })) (0) (34357572) := by decide +kernel
theorem witness_LaneArithmetic_1_6 : (fun (s : State) (t w : Nat) => (s.standsAt t true 69 w)) (wOp true 34357573 (fun x => { x with vregs := [(2, wOnes), (3, wOnes)] })) (0) (34357573) := by decide +kernel
theorem witness_LaneArithmetic_1_7 : (fun (s : State) (t w : Nat) => (s.standsAt t true 70 w)) (wOp true 34357574 (fun x => { x with vregs := [(2, wOnes), (3, wOnes)] })) (0) (34357574) := by decide +kernel
theorem witness_LaneArithmetic_1_8 : (fun (s : State) (t w : Nat) => (s.standsAt t true 71 w)) (wOp true 34357575 (fun x => { x with vregs := [(2, wOnes), (3, wOnes)] })) (0) (34357575) := by decide +kernel
theorem witness_LaneArithmetic_1_9 : (fun (s : State) (t w : Nat) => (s.standsAt t true 72 w)) (wOp true 34357576 (fun x => { x with vregs := [(2, wOnes), (3, wOnes)] })) (0) (34357576) := by decide +kernel
theorem witness_LaneArithmetic_1_10 : (fun (s : State) (t w : Nat) => (s.standsAt t true 80 w)) (wOp true 34357584 (fun x => { x with vregs := [(2, wOnes), (3, wOnes)] })) (0) (34357584) := by decide +kernel
theorem witness_LaneArithmetic_1_11 : (fun (s : State) (t w : Nat) => (s.standsAt t true 81 w)) (wOp true 34357585 (fun x => { x with vregs := [(2, wOnes), (3, wOnes)] })) (0) (34357585) := by decide +kernel
theorem witness_LaneFunctions_1_1 : (fun (s : State) (t w : Nat) => (s.standsAt t true 82 w)) (wOp true 34357586 (fun x => { x with vregs := [(2, wOnes), (3, wOnes)] })) (0) (34357586) := by decide +kernel
theorem witness_LaneFunctions_1_2 : (fun (s : State) (t w : Nat) => (s.standsAt t true 83 w)) (wOp true 34357587 (fun x => { x with vregs := [(2, wOnes), (3, wOnes)] })) (0) (34357587) := by decide +kernel
theorem witness_LaneFunctions_1_3 : (fun (s : State) (t w : Nat) => (s.standsAt t true 84 w)) (wOp true 34357588 (fun x => { x with vregs := [(2, wOnes), (3, wOnes)] })) (0) (34357588) := by decide +kernel
theorem witness_LaneFunctions_1_4 : (fun (s : State) (t w : Nat) => (s.standsAt t true 85 w)) (wOp true 34357589 (fun x => { x with vregs := [(2, wOnes), (3, wOnes)] })) (0) (34357589) := by decide +kernel
theorem witness_LaneFunctions_1_5 : (fun (s : State) (t w : Nat) => (s.standsAt t true 86 w)) (wOp true 34357590 (fun x => { x with vregs := [(2, wOnes), (3, wOnes)] })) (0) (34357590) := by decide +kernel
theorem witness_LaneFunctions_1_6 : (fun (s : State) (t w : Nat) => (s.standsAt t true 87 w)) (wOp true 34357591 (fun x => { x with vregs := [(2, wOnes), (3, wOnes)] })) (0) (34357591) := by decide +kernel
theorem witness_LaneFunctions_1_7 : (fun (s : State) (t w : Nat) => (s.standsAt t true 88 w)) (wOp true 34357592 (fun x => { x with vregs := [(2, wOnes), (3, wOnes)] })) (0) (34357592) := by decide +kernel
theorem witness_LaneFunctions_1_8 : (fun (s : State) (t w : Nat) => (s.standsAt t true 89 w)) (wOp true 34357593 (fun x => { x with vregs := [(2, wOnes), (3, wOnes)] })) (0) (34357593) := by decide +kernel
theorem witness_LaneFunctions_1_9 : (fun (s : State) (t w : Nat) => (s.standsAt t true 90 w)) (wOp true 34357594 (fun x => { x with vregs := [(2, wOnes), (3, wOnes)] })) (0) (34357594) := by decide +kernel
theorem witness_LaneFunctions_1_10 : (fun (s : State) (t w : Nat) => (s.standsAt t true 91 w)) (wOp true 34357595 (fun x => { x with vregs := [(2, wOnes), (3, wOnes)] })) (0) (34357595) := by decide +kernel
theorem witness_Reductions_1_1 : (fun (s : State) (t w : Nat) => (s.standsAt t true 96 w)) (wOp true 562640732512 (fun x => { x with vregs := [(1, wOnes), (2, wOnes)] })) (0) (562640732512) := by decide +kernel
theorem witness_Reductions_1_2 : (fun (s : State) (t w : Nat) => (s.standsAt t true 97 w)) (wOp true 562640732513 (fun x => { x with vregs := [(1, wOnes), (2, wOnes)] })) (0) (562640732513) := by decide +kernel
theorem witness_Reductions_1_3 : (fun (s : State) (t w : Nat) => (s.standsAt t true 98 w)) (wOp true 562640732514 (fun x => { x with vregs := [(1, wOnes), (2, wOnes)] })) (0) (562640732514) := by decide +kernel
theorem witness_Reductions_1_4 : (fun (s : State) (t w : Nat) => (s.standsAt t true 99 w)) (wOp true 562640732515 (fun x => { x with vregs := [(1, wOnes), (2, wOnes)] })) (0) (562640732515) := by decide +kernel
theorem witness_VectorMoves_1 : (fun (s : State) (t w : Nat) => (s.standsAt t true 0x6C w)) ((wOp true 4575657221408424300 (fun x => x))) (0) (4575657221408424300) := by decide +kernel
theorem witness_VectorMoves_2 : (fun (s : State) (t w : Nat) => (s.standsAt t true 0x6D w)) ((wOp true 270582956397 (fun x => { x with vregs := [(2, wOnes)] }))) (0) (270582956397) := by decide +kernel
theorem witness_VectorMoves_3 : (fun (s : State) (t w : Nat) (b : AccBank) (r : List AccBank) => (s.standsAt t true 0x6A w) ∧ ((s.tile t).matrix.held = b :: r)) ((wOp true 246122 (fun x => { x with matrix := { MatrixSt.reset with held := [{ bank := 0, int := true, data := 7 }] } }))) (0) (246122) ({ bank := 0, int := true, data := 7 }) ([]) := by decide +kernel
theorem witness_VectorMoves_4 : (fun (s : State) (t w : Nat) (b : AccBank) (r : List AccBank) => (s.standsAt t true 0x6B w) ∧ ((s.tile t).matrix.held = b :: r) ∧ (b.int = false)) ((wOp true 246123 (fun x => { x with vregs := [(1, wOnes)], matrix := { MatrixSt.reset with held := [{ bank := 0, int := false, data := 7 }] } }))) (0) (246123) ({ bank := 0, int := false, data := 7 }) ([]) := by decide +kernel
theorem witness_VectorMoves_5 : (fun (s : State) (t w : Nat) (data : Nat) (q : DataQueue) => (s.standsAt t true 0x68 w) ∧ (bits w 40 2 = 0) ∧ (((s.tile t).dq (bits w 32 2)).popEntries (vldEntries (bits w 36 4)) = some (data, q))) ((wOp true 360 (fun x => { x with dqs := [(0, { DataQueue.reset with entries := [1#512, 2#512, 3#512, 4#512] })] }))) (0) (360) (1 + 2 ^ 512 * 2 + 2 ^ 1024 * 3 + 2 ^ 1536 * 4) (DataQueue.reset) := by decide +kernel
theorem witness_VectorMoves_6 : (fun (s : State) (t w : Nat) => (s.standsAt t true 0x69 w) ∧ (bits w 40 2 = 0) ∧ (((s.tile t).dq (bits w 32 2)).backlog = []) ∧ (8 * typeBits (bits w 36 4) ≤ ((s.tile t).dq (bits w 32 2)).room)) ((wOp true 137438953833 (fun x => { x with vregs := [(1, wOnes)] }))) (0) (137438953833) := by decide +kernel
theorem witness_MatrixCommands_1 : (fun (s : State) (t w : Nat) (e : BitVec 512) (r : List (BitVec 512)) => (s.standsAt t true 0x20 w) ∧ (bits w 10 2 = 0) ∧ (bits w 12 2 = 2) ∧ ((s.tile t).xs.popped = []) ∧ ((s.tile t).dq (bits w 8 2) = { DataQueue.reset with entries := e :: r })) ((wOp true 8224 (fun x => { x with dqs := [(0, { DataQueue.reset with entries := [9#512] })] }))) (0) (8224) (9#512) ([]) := by decide +kernel
theorem witness_MatrixCommands_2 : (fun (s : State) (t w : Nat) (k : PairKind) => (s.standsAt t true 0x21 w) ∧ (bits w 24 6 = 0) ∧ (bit w 30 = false) ∧ (pairKind (bits w 8 4) (bits w 12 4) (bits w 16 2) (bits w 18 2) = some k) ∧ ((s.tile t).matrix.block = none) ∧ ((s.tile t).matrix.bankFree (s.tile t).matrix.nextBank = true) ∧ ((s.tile t).matrix.a.ready (bits w 8 4) (bits w 16 2) = true) ∧ ((s.tile t).matrix.b.ready (bits w 12 4) (bits w 18 2) = true)) ((wOp true 39201 (fun x => { x with matrix := { MatrixSt.reset with a := { OperandSide.reset with slices := [{ ty := 9, data := 1 }] }, b := { OperandSide.reset with slices := [{ ty := 9, data := 1 }] } } }))) (0) (39201) (.int) := by decide +kernel
theorem witness_MatrixCommands_3 : (fun (s : State) (t w : Nat) (b : AccBank) (r : List AccBank) => (s.standsAt t true 0x22 w) ∧ (bits w 16 2 = 0) ∧ ((s.tile t).matrix.held = b :: r) ∧ (((s.tile t).dq (bits w 10 2)).backlog = [])) ((wOp true 8226 (fun x => { x with matrix := { MatrixSt.reset with held := [{ bank := 0, int := false, data := 7 }] } }))) (0) (8226) ({ bank := 0, int := false, data := 7 }) ([]) := by decide +kernel
theorem witness_ScalarInstruction_1 : (fun (s : State) (t _cyc _now rd rs imm : Nat) (l : CacheLine) => ((s.tile t).mode = .running) ∧ ((s.tile t).active = true) ∧ ((s.tile t).ending = none) ∧ ((s.tile t).sc.state = 1) ∧ ((s.tile t).sc.pc = 0x30000000#32) ∧ ((s.tile t).cache = [l]) ∧ (l.addr = byteField (s.tile t).desc 0x50 6) ∧ (l.tenant = (s.tile t).tenant) ∧ (rd < 32) ∧ (rs < 32) ∧ (imm < 2 ^ 11) ∧ (l.data.toNat % 2 ^ 32 = rvMkI 0x13 0 rd rs imm)) (wTile (fun x => { x with mode := .running, active := true, sc := { x.sc with state := 1, pc := 0x30000000#32 }, cache := [{ addr := 0, tenant := 0, data := BitVec.ofNat 2048 (rvMkI 0x13 0 5 0 2047), lockAct := false, lockPend := false, inval := false }] })) (0) (1) (5) (5) (0) (2047) ({ addr := 0, tenant := 0, data := BitVec.ofNat 2048 (rvMkI 0x13 0 5 0 2047), lockAct := false, lockPend := false, inval := false }) := by decide +kernel
theorem witness_ScalarInstruction_2 : (fun (s : State) (t _cyc _now : Nat) (l : CacheLine) => ((s.tile t).mode = .running) ∧ ((s.tile t).active = true) ∧ ((s.tile t).ending = none) ∧ ((s.tile t).dmas = []) ∧ ((s.tile t).sigq = []) ∧ ((s.tile t).sc.state = 1) ∧ ((s.tile t).sc.pc = 0x30000000#32) ∧ ((s.tile t).cache = [l]) ∧ (l.addr = byteField (s.tile t).desc 0x50 6) ∧ (l.tenant = (s.tile t).tenant) ∧ (l.data.toNat % 2 ^ 32 = 0x73)) (wTile (fun x => { x with mode := .running, active := true, sc := { x.sc with state := 1, pc := 0x30000000#32 }, cache := [{ addr := 0, tenant := 0, data := 0x73#2048, lockAct := false, lockPend := false, inval := false }] })) (0) (1) (5) ({ addr := 0, tenant := 0, data := 0x73#2048, lockAct := false, lockPend := false, inval := false }) := by decide +kernel
theorem witness_QueueCommands_1 : (fun (s : State) (f v : Nat) (x : HwQueue) => ((s.func f).inReset = false) ∧ (s.logging = false) ∧ (s.tenantLicensed f = true) ∧ (s.serving.models = []) ∧ (s.hwq (bits v 0 13) = some x) ∧ (x.tenant = f) ∧ (x.enabled = true) ∧ ((BitVec.ofNat 17 (bits v 13 17) - x.head).toNat ≤ 2 ^ x.sizeLog2) ∧ ((BitVec.ofNat 17 (bits v 13 17) - x.tail).toNat ≤ 2 ^ x.sizeLog2)) (wGr id) (0) (5 + 8192 * 16) (wQ) := by decide +kernel
theorem witness_QueueCommands_2 : (fun (s : State) (f v : Nat) (x : HwQueue) => ((s.func f).inReset = false) ∧ (s.logging = false) ∧ (s.tenantLicensed f = true) ∧ (s.serving.models = []) ∧ (s.hwq (bits v 0 13) = some x) ∧ (x.tenant = f) ∧ (x.enabled = true) ∧ (2 ^ x.sizeLog2 < (BitVec.ofNat 17 (bits v 13 17) - x.head).toNat)) (wGr id) (0) (5 + 8192 * 17) (wQ) := by decide +kernel
theorem witness_QueueCommands_3 : (fun (s : State) (t q e : Nat) (x : HwQueue) => (s.log.paused = false) ∧ (s.log.held = false) ∧ (s.logging = false) ∧ ((s.at t).nextQueue = some (q, x)) ∧ (((s.at t).peekEntry x).1.toOption = some e) ∧ (x.head + 1 ≠ x.tail)) (wBytes (wGr id) 0 64 0x400801) (3) (5) (0x400801) (wQ) := by decide +kernel
theorem witness_QueueCommands_4 : (fun (s : State) (q _t : Nat) (x : HwQueue) => (s.hwq q = some x) ∧ (x.shadowDue.isSome = true) ∧ (x.shadowLoc = 1)) (wGr (fun g => { g with queues := [(5, { wQ with head := 9, shadowDue := some 0 })] })) (5) (250) ({ wQ with head := 9, shadowDue := some 0 }) := by decide +kernel
theorem witness_GraphEntries_1 : (fun (s : State) (e : ReadEntry) (r : List ReadEntry) (ns : List (BitVec 512)) (es : List (Nat × Nat)) (tag : Nat) => (s.graph.entries = e :: r) ∧ (entOp e.raw.toNat = 0) ∧ (entryOk e.raw.toNat = true) ∧ (((s.takeEntry e.seq (fun _ => true) (fun _ x => x)).readGraph e.tenant e.raw.toNat).1.toOption = some (ns, es, tag))) (wBytes (wGr (fun g => { g with entries := [wEnt 0x4000000000000000000000400801] })) 0 128 (0x4000000000400000004d000000000000000100410801 + 2 ^ 512 * 0x6420801)) (wEnt 0x4000000000000000000000400801) ([]) ([BitVec.ofNat 512 0x6420801]) ([]) (77) := by decide +kernel
theorem witness_GraphEntries_2 : (fun (s : State) (e : ReadEntry) (r : List ReadEntry) (ns : List (BitVec 512)) (es : List (Nat × Nat)) (tag h : Nat) => (s.graph.entries = e :: r) ∧ (entOp e.raw.toNat = 1) ∧ (entryOk e.raw.toNat = true) ∧ (((s.takeEntry e.seq (fun _ => true) (fun _ x => x)).readGraph e.tenant e.raw.toNat).1.toOption = some (ns, es, tag)) ∧ (Table.lowestFree s.graph.residents 4096 = some h) ∧ ((s.graph.residents.filter (fun x => x.2.tenant == e.tenant)).length < s.quotaField e.tenant 2 2)) (wBytes (wGr (fun g => { g with entries := [wEnt 0x4000000000000000000001400801] })) 0 128 (0x4000000000400000004d000000000000000100410801 + 2 ^ 512 * 0x6420801)) (wEnt 0x4000000000000000000001400801) ([]) ([BitVec.ofNat 512 0x6420801]) ([]) (77) (0) := by decide +kernel
theorem witness_GraphEntries_3 : (fun (s : State) (e : ReadEntry) (r : List ReadEntry) (x : ResidentGraph) => (s.graph.entries = e :: r) ∧ (entOp e.raw.toNat = 2) ∧ (entryOk e.raw.toNat = true) ∧ (s.slotsFit e.tenant (1, 0, 0) false = true) ∧ (s.residentOf e.tenant (entHandle e.raw.toNat) = some x)) (wGr (fun g => { g with entries := [wEnt 0x300000000000000000000000002400801], residents := [(3, { tenant := 0, tag := 1, nodes := [BitVec.ofNat 512 0x6420801], edges := [], unloading := false, solo := none, verified := false })] })) (wEnt 0x300000000000000000000000002400801) ([]) ({ tenant := 0, tag := 1, nodes := [BitVec.ofNat 512 0x6420801], edges := [], unloading := false, solo := none, verified := false }) := by decide +kernel
theorem witness_GraphEntries_4 : (fun (s : State) (e : ReadEntry) (r : List ReadEntry) (x : ResidentGraph) => (s.graph.entries = e :: r) ∧ (entOp e.raw.toNat = 3) ∧ (entryOk e.raw.toNat = true) ∧ (s.residentOf e.tenant (entHandle e.raw.toNat) = some x)) (wGr (fun g => { g with entries := [wEnt 0x300000000000000000000000003400801], residents := [(3, { tenant := 0, tag := 1, nodes := [], edges := [], unloading := false, solo := none, verified := false })] })) (wEnt 0x300000000000000000000000003400801) ([]) ({ tenant := 0, tag := 1, nodes := [], edges := [], unloading := false, solo := none, verified := false }) := by decide +kernel
theorem witness_NodeDispatch_1 : (fun (s : State) (seq node t : Nat) (g : GraphRun) (n : NodeSt) (_cands : List Placement) (_rows : List (Option Nat)) => (s.graphOf seq = some g) ∧ (s.nodeOf seq node = some n) ∧ (g.failing = none) ∧ (n.phase = .waiting) ∧ (ndKind n.w = 6) ∧ ((s.readyOrder).contains (seq, node) = true) ∧ ((s.at t).headAllows seq node 6 = true) ∧ (s.logging = false) ∧ (s.log.held = false)) (wGr (fun g => { g with graphs := [(1, wG 0x4000000000000000000000400801 0x6420801 (fun n => n))] })) (1) (0) (1000) (wG 0x4000000000000000000000400801 0x6420801 (fun n => n)) ((fun (n : NodeSt) => n) (freshNode (BitVec.ofNat 512 0x6420801) 0)) ([]) ([]) := by decide +kernel
theorem witness_NodeDispatch_2 : (fun (s : State) (seq node t : Nat) (g : GraphRun) (n : NodeSt) (_cands : List Placement) (_rows : List (Option Nat)) => (s.graphOf seq = some g) ∧ (s.nodeOf seq node = some n) ∧ (g.failing = none) ∧ (n.phase = .waiting) ∧ (ndKind n.w = 5) ∧ (ndSyncOp n.w = 0) ∧ ((s.readyOrder).contains (seq, node) = true) ∧ ((s.at t).headAllows seq node 5 = true) ∧ (s.logging = false) ∧ (s.log.held = false) ∧ (s.soAllowed g.tenant (ndSo n.w) = true) ∧ ((s.so (ndSo n.w)).waiters = []) ∧ ((s.so (ndSo n.w)).irqEn = false) ∧ ((s.so (ndSo n.w)).count.toNat + max 1 (ndSyncValue n.w) < 2 ^ 32)) ((wGr (fun g => { g with graphs := [(1, wG 0x4000000000000000000000400801 0x5000000000000000700000000000000000000000000000000000000000000000000000000000000000000000005420801 (fun n => n))] })).setSo 7 { SyncObj.reset with valid := true }) (1) (0) (1000) (wG 0x4000000000000000000000400801 0x5000000000000000700000000000000000000000000000000000000000000000000000000000000000000000005420801 (fun n => n)) ((fun (n : NodeSt) => n) (freshNode (BitVec.ofNat 512 0x5000000000000000700000000000000000000000000000000000000000000000000000000000000000000000005420801) 0)) ([]) ([]) := by decide +kernel
theorem witness_NodeDispatch_4 : (fun (s : State) (seq node t : Nat) (g : GraphRun) (n : NodeSt) => (s.graphOf seq = some g) ∧ (s.nodeOf seq node = some n) ∧ (g.failing = none) ∧ (n.phase = .reserved) ∧ (n.held = []) ∧ (n.reservedAt + usTicks 90 ≤ t)) (wGr (fun g => { g with graphs := [(1, wG 0x4000000000000000000000400801 0x6420801 (fun n => { n with phase := .reserved, memops := 3 }))] })) (1) (0) (usTicks 90) (wG 0x4000000000000000000000400801 0x6420801 (fun n => { n with phase := .reserved, memops := 3 })) ((fun (n : NodeSt) => { n with phase := .reserved, memops := 3 }) (freshNode (BitVec.ofNat 512 0x6420801) 0)) := by decide +kernel
theorem witness_NodeEnds_1 : (fun (s : State) (seq node m : Nat) (g : GraphRun) (n k : NodeSt) => (s.graphOf seq = some g) ∧ (s.nodeOf seq node = some n) ∧ (s.nodeOf seq m = some k) ∧ (m ≠ node) ∧ (g.edges = [(node, m)]) ∧ (g.failing = none) ∧ (n.phase = .running) ∧ (ndKind n.w = 5) ∧ (s.sync.woken = [(.node seq node, 0)])) (let s := wGr (fun g => { g with graphs := [(1, { wG 0x4000000000000000000000400801 0x5000000000000000700000000000000000000000000000000000000000000000000000000000000000000000005420801 (fun n => { n with phase := .running }) with nodes := [(0, { freshNode (BitVec.ofNat 512 0x5000000000000000700000000000000000000000000000000000000000000000000000000000000000000000005420801) 0 with phase := .running }), (1, freshNode (BitVec.ofNat 512 0x6420801) 1)], edges := [(0, 1)] })] }); { s with sync := { s.sync with woken := [(.node 1 0, 0)] } }) (1) (0) (1) ({ wG 0x4000000000000000000000400801 0x5000000000000000700000000000000000000000000000000000000000000000000000000000000000000000005420801 (fun n => { n with phase := .running }) with nodes := [(0, { freshNode (BitVec.ofNat 512 0x5000000000000000700000000000000000000000000000000000000000000000000000000000000000000000005420801) 0 with phase := .running }), (1, freshNode (BitVec.ofNat 512 0x6420801) 1)], edges := [(0, 1)] }) ({ freshNode (BitVec.ofNat 512 0x5000000000000000700000000000000000000000000000000000000000000000000000000000000000000000005420801) 0 with phase := .running }) (freshNode (BitVec.ofNat 512 0x6420801) 1) := by decide +kernel
theorem witness_NodeEnds_2 : (fun (s : State) (seq node : Nat) (g : GraphRun) (n : NodeSt) (st : Status) => (s.graphOf seq = some g) ∧ (s.nodeOf seq node = some n) ∧ (g.failing = none) ∧ (n.phase = .running) ∧ (ndKind n.w = 5) ∧ (s.sync.woken = [(.node seq node, st)]) ∧ (st ≠ 0)) (let s := wGr (fun g => { g with graphs := [(1, wG 0x4000000000000000000000400801 0x5000000000000000700000000000000000000000000000000000000000000000000000000000000000000000005420801 (fun n => { n with phase := .running }))] }); { s with sync := { s.sync with woken := [(.node 1 0, ST_ISO_SYNC)] } }) (1) (0) (wG 0x4000000000000000000000400801 0x5000000000000000700000000000000000000000000000000000000000000000000000000000000000000000005420801 (fun n => { n with phase := .running })) ({ freshNode (BitVec.ofNat 512 0x5000000000000000700000000000000000000000000000000000000000000000000000000000000000000000005420801) 0 with phase := .running }) (ST_ISO_SYNC) := by decide +kernel
theorem witness_NodeEnds_3 : (fun (s : State) (seq _t : Nat) (g : GraphRun) => (s.graphOf seq = some g) ∧ (g.failing = none) ∧ (g.op = 0) ∧ (g.nodes.all (fun n => n.2.phase == .ended) = true) ∧ (entRecEn g.entry.toNat = true) ∧ (entRecHost g.entry.toNat = true) ∧ (entDoneEn g.entry.toNat = false)) (wGr (fun g => { g with graphs := [(1, wG 0x10000000000000000000000000000300000000004000000000000000000000400801 0x6420801 (fun n => { n with phase := .ended }))] })) (1) (50) (wG 0x10000000000000000000000000000300000000004000000000000000000000400801 0x6420801 (fun n => { n with phase := .ended })) := by decide +kernel
theorem witness_NodeEnds_4 : (fun (s : State) (seq t : Nat) (g : GraphRun) => (s.graphOf seq = some g) ∧ (s.graph.graphs = [(seq, g)]) ∧ (s.fw.state = 2) ∧ ((s.at t).graphStalled seq g = true) ∧ ((s.at t).stalledSince seq g + msTicks (entWd g.entry.toNat) ≤ t) ∧ (s.logging = false) ∧ (s.log.held = false)) ({ (wGr (fun g => { g with graphs := [(1, wG 0x4000000000000000000000400801 0x5000000010000000700000000000000000000000000000000000000000000000000000000000000000000000005420801 (fun n => { n with phase := .running }))] })) with fw := { Firmware.reset with state := 2 } }) (1) (msTicks 1000) (wG 0x4000000000000000000000400801 0x5000000010000000700000000000000000000000000000000000000000000000000000000000000000000000005420801 (fun n => { n with phase := .running })) := by decide +kernel
theorem witness_StackElementwise_1_1 : (fun (s : State) (c i d st ox oa oo : Nat) (xs az : List Byte) => (s.runsDesc c i d 0x18 = true) ∧ (vectorForm d st ox oo) ∧ (sdNbu d = false) ∧ ((fun (d : Nat) => (decide (sdFunc d ≤ 9) : Bool)) d = true) ∧ (((fun (d : Nat) => sdN d) d = 0 ∨ vbOff (sdAux d) = some oa)) ∧ (s.vbBytes c st ox (((fun (d : Nat) => sdN d) d * typeBits (sdXType d) + 7) / 8) = some xs) ∧ (s.vbBytes c st oa (4 * (fun (d : Nat) => sdN d) d) = some az)) (wStk (wChain 0x80000000000000408000000000000008000000000000000080000000000000000000000000000000000000000000000000000000000000000000000000000001000000000000000200000000000000000020000118211001 [1065353216, 1073741824, 1073741824, 3225419776])) (3) (0) (0x80000000000000408000000000000008000000000000000080000000000000000000000000000000000000000000000000000000000000000000000000000001000000000000000200000000000000000020000118211001) (0) (0) (8) (64) (([1065353216, 1073741824] : List Nat).flatMap (bytesOfNat 4)) (([1073741824, 3225419776] : List Nat).flatMap (bytesOfNat 4)) := by decide +kernel
theorem witness_StackElementwise_2_1 : (fun (s : State) (c i d st ox oa oo : Nat) (xs az : List Byte) => (s.runsDesc c i d 0x19 = true) ∧ (vectorForm d st ox oo) ∧ (sdNbu d = false) ∧ ((fun (d : Nat) => (decide (sdFunc d ≤ 9) : Bool)) d = true) ∧ (((fun (d : Nat) => sdN d) d = 0 ∨ vbOff (sdAux d) = some oa)) ∧ (s.vbBytes c st ox (((fun (d : Nat) => sdN d) d * typeBits (sdXType d) + 7) / 8) = some xs) ∧ (s.vbBytes c st oa (4 * (fun (d : Nat) => sdN d) d) = some az)) (wStk (wChain 0x80000000000000408000000000000008000000000000000080000000000000000000000000000000000000000000000000000000000000000000000000000001000000000000000200000000000000000020000119211001 [1065353216, 1073741824, 1073741824, 3225419776])) (3) (0) (0x80000000000000408000000000000008000000000000000080000000000000000000000000000000000000000000000000000000000000000000000000000001000000000000000200000000000000000020000119211001) (0) (0) (8) (64) (([1065353216, 1073741824] : List Nat).flatMap (bytesOfNat 4)) (([1073741824, 3225419776] : List Nat).flatMap (bytesOfNat 4)) := by decide +kernel
theorem witness_StackElementwise_3_1 : (fun (s : State) (c i d st ox oa oo : Nat) (xs az : List Byte) => (s.runsDesc c i d 0x1A = true) ∧ (vectorForm d st ox oo) ∧ (sdNbu d = false) ∧ ((fun (d : Nat) => (decide (sdFunc d ≤ 9) : Bool)) d = true) ∧ (((fun (d : Nat) => 0) d = 0 ∨ vbOff (sdAux d) = some oa)) ∧ (s.vbBytes c st ox (((fun (d : Nat) => sdN d) d * typeBits (sdXType d) + 7) / 8) = some xs) ∧ (s.vbBytes c st oa (4 * (fun (d : Nat) => 0) d) = some az)) (wStk (wChain 0x8000000000000040000000000000000000000000000000008000000000000000000000000000000000000000000000000000000000000000000000000000000100000000000000020000000000000000002000011a211001 [1065353216, 1073741824])) (3) (0) (0x8000000000000040000000000000000000000000000000008000000000000000000000000000000000000000000000000000000000000000000000000000000100000000000000020000000000000000002000011a211001) (0) (0) (8) (64) (([1065353216, 1073741824] : List Nat).flatMap (bytesOfNat 4)) (([] : List Nat).flatMap (bytesOfNat 4)) := by decide +kernel
theorem witness_StackElementwise_4_1 : (fun (s : State) (c i d st ox oa oo : Nat) (xs az : List Byte) => (s.runsDesc c i d 0x1B = true) ∧ (vectorForm d st ox oo) ∧ (sdNbu d = false) ∧ ((fun (d : Nat) => (decide (sdFunc d ≤ 9) : Bool)) d = true) ∧ (((fun (d : Nat) => sdN d) d = 0 ∨ vbOff (sdAux d) = some oa)) ∧ (s.vbBytes c st ox (((fun (d : Nat) => sdN d) d * typeBits (sdXType d) + 7) / 8) = some xs) ∧ (s.vbBytes c st oa (4 * (fun (d : Nat) => sdN d) d) = some az)) (wStk (wChain 0x8000000000000040800000000000000800000000000000008000000000000000000000000000000000000000000000000000000000000000000000000000000100000000000000020000000000000000002000011b211001 [1065353216, 1073741824, 1073741824, 3225419776])) (3) (0) (0x8000000000000040800000000000000800000000000000008000000000000000000000000000000000000000000000000000000000000000000000000000000100000000000000020000000000000000002000011b211001) (0) (0) (8) (64) (([1065353216, 1073741824] : List Nat).flatMap (bytesOfNat 4)) (([1073741824, 3225419776] : List Nat).flatMap (bytesOfNat 4)) := by decide +kernel
theorem witness_StackElementwise_5_1 : (fun (s : State) (c i d st ox oa oo : Nat) (xs az : List Byte) => (s.runsDesc c i d 0x1C = true) ∧ (vectorForm d st ox oo) ∧ (sdNbu d = false) ∧ ((fun (d : Nat) => (decide (0 < sdN d) : Bool)) d = true) ∧ (((fun (d : Nat) => (sdN d + (if sdParam d = 0 then sdN d else sdParam d) - 1) / (if sdParam d = 0 then sdN d else sdParam d)) d = 0 ∨ vbOff (sdAux d) = some oa)) ∧ (s.vbBytes c st ox (((fun (d : Nat) => sdN d) d * typeBits (sdXType d) + 7) / 8) = some xs) ∧ (s.vbBytes c st oa (4 * (fun (d : Nat) => (sdN d + (if sdParam d = 0 then sdN d else sdParam d) - 1) / (if sdParam d = 0 then sdN d else sdParam d)) d) = some az)) (wStk (wChain 0x8000000000000040800000000000000800000000000000008000000000000000000000000000000000000000000000000000000000000000000000000000000100000000000000020000000000000000010000011c211001 [1065353216, 1073741824, 1073741824])) (3) (0) (0x8000000000000040800000000000000800000000000000008000000000000000000000000000000000000000000000000000000000000000000000000000000100000000000000020000000000000000010000011c211001) (0) (0) (8) (64) (([1065353216, 1073741824] : List Nat).flatMap (bytesOfNat 4)) (([1073741824] : List Nat).flatMap (bytesOfNat 4)) := by decide +kernel
theorem witness_StackVectors_1_1 : (fun (s : State) (c i d st ox oa oo : Nat) (xs az : List Byte) => (s.runsDesc c i d 0x20 = true) ∧ (vectorForm d st ox oo) ∧ (sdNbu d = false) ∧ ((fun (d : Nat) => (decide (sdFunc d ≤ 4) : Bool)) d = true) ∧ (((fun (d : Nat) => match sdFunc d with | 0 => sdN d | 1 => 2 * sdN d | 4 => 1 | _ => 0) d = 0 ∨ vbOff (sdAux d) = some oa)) ∧ (s.vbBytes c st ox (((fun (d : Nat) => sdN d) d * typeBits (sdXType d) + 7) / 8) = some xs) ∧ (s.vbBytes c st oa (4 * (fun (d : Nat) => match sdFunc d with | 0 => sdN d | 1 => 2 * sdN d | 4 => 1 | _ => 0) d) = some az)) (wStk (wChain 0x80000000000000408000000000000008000000000000000080000000000000000000000000000000000000000000000000000000000000000000000000000001000000000000000200000000000000000000000120211001 [1065353216, 1073741824, 1073741824, 3225419776])) (3) (0) (0x80000000000000408000000000000008000000000000000080000000000000000000000000000000000000000000000000000000000000000000000000000001000000000000000200000000000000000000000120211001) (0) (0) (8) (64) (([1065353216, 1073741824] : List Nat).flatMap (bytesOfNat 4)) (([1073741824, 3225419776] : List Nat).flatMap (bytesOfNat 4)) := by decide +kernel
theorem witness_StackVectors_1_2 : (fun (s : State) (c i d st ox oa oo : Nat) (xs az : List Byte) => (s.runsDesc c i d 0x20 = true) ∧ (vectorForm d st ox oo) ∧ (sdNbu d = false) ∧ ((fun (d : Nat) => (decide (sdFunc d ≤ 4) : Bool)) d = true) ∧ (((fun (d : Nat) => match sdFunc d with | 0 => sdN d | 1 => 2 * sdN d | 4 => 1 | _ => 0) d = 0 ∨ vbOff (sdAux d) = some oa)) ∧ (s.vbBytes c st ox (((fun (d : Nat) => sdN d) d * typeBits (sdXType d) + 7) / 8) = some xs) ∧ (s.vbBytes c st oa (4 * (fun (d : Nat) => match sdFunc d with | 0 => sdN d | 1 => 2 * sdN d | 4 => 1 | _ => 0) d) = some az)) (wStk (wChain 0x80000000000000408000000000000008000000000000000080000000000000000000000000000000000000000000000000000000000000000000000000000001000000000000000200000000000000000100000120211001 [1065353216, 1073741824, 1073741824, 3225419776, 1065353216, 1065353216])) (3) (0) (0x80000000000000408000000000000008000000000000000080000000000000000000000000000000000000000000000000000000000000000000000000000001000000000000000200000000000000000100000120211001) (0) (0) (8) (64) (([1065353216, 1073741824] : List Nat).flatMap (bytesOfNat 4)) (([1073741824, 3225419776, 1065353216, 1065353216] : List Nat).flatMap (bytesOfNat 4)) := by decide +kernel
theorem witness_StackVectors_1_3 : (fun (s : State) (c i d st ox oa oo : Nat) (xs az : List Byte) => (s.runsDesc c i d 0x20 = true) ∧ (vectorForm d st ox oo) ∧ (sdNbu d = false) ∧ ((fun (d : Nat) => (decide (sdFunc d ≤ 4) : Bool)) d = true) ∧ (((fun (d : Nat) => match sdFunc d with | 0 => sdN d | 1 => 2 * sdN d | 4 => 1 | _ => 0) d = 0 ∨ vbOff (sdAux d) = some oa)) ∧ (s.vbBytes c st ox (((fun (d : Nat) => sdN d) d * typeBits (sdXType d) + 7) / 8) = some xs) ∧ (s.vbBytes c st oa (4 * (fun (d : Nat) => match sdFunc d with | 0 => sdN d | 1 => 2 * sdN d | 4 => 1 | _ => 0) d) = some az)) (wStk (wChain 0x80000000000000400000000000000000000000000000000080000000000000000000000000000000000000000000000000000000000000000000000000000001000000000000000200000000000000000220000120211001 [1065353216, 1073741824])) (3) (0) (0x80000000000000400000000000000000000000000000000080000000000000000000000000000000000000000000000000000000000000000000000000000001000000000000000200000000000000000220000120211001) (0) (0) (8) (64) (([1065353216, 1073741824] : List Nat).flatMap (bytesOfNat 4)) (([] : List Nat).flatMap (bytesOfNat 4)) := by decide +kernel
theorem witness_StackVectors_1_4 : (fun (s : State) (c i d st ox oa oo : Nat) (xs az : List Byte) => (s.runsDesc c i d 0x20 = true) ∧ (vectorForm d st ox oo) ∧ (sdNbu d = false) ∧ ((fun (d : Nat) => (decide (sdFunc d ≤ 4) : Bool)) d = true) ∧ (((fun (d : Nat) => match sdFunc d with | 0 => sdN d | 1 => 2 * sdN d | 4 => 1 | _ => 0) d = 0 ∨ vbOff (sdAux d) = some oa)) ∧ (s.vbBytes c st ox (((fun (d : Nat) => sdN d) d * typeBits (sdXType d) + 7) / 8) = some xs) ∧ (s.vbBytes c st oa (4 * (fun (d : Nat) => match sdFunc d with | 0 => sdN d | 1 => 2 * sdN d | 4 => 1 | _ => 0) d) = some az)) (wStk (wChain 0x80000000000000400000000000000000000000000000000080000000000000000000000000000000000000000000000000000000000000000000000000000001000000000000000200000000000000000320000120211001 [1065353216, 1073741824])) (3) (0) (0x80000000000000400000000000000000000000000000000080000000000000000000000000000000000000000000000000000000000000000000000000000001000000000000000200000000000000000320000120211001) (0) (0) (8) (64) (([1065353216, 1073741824] : List Nat).flatMap (bytesOfNat 4)) (([] : List Nat).flatMap (bytesOfNat 4)) := by decide +kernel
theorem witness_StackVectors_1_5 : (fun (s : State) (c i d st ox oa oo : Nat) (xs az : List Byte) => (s.runsDesc c i d 0x20 = true) ∧ (vectorForm d st ox oo) ∧ (sdNbu d = false) ∧ ((fun (d : Nat) => (decide (sdFunc d ≤ 4) : Bool)) d = true) ∧ (((fun (d : Nat) => match sdFunc d with | 0 => sdN d | 1 => 2 * sdN d | 4 => 1 | _ => 0) d = 0 ∨ vbOff (sdAux d) = some oa)) ∧ (s.vbBytes c st ox (((fun (d : Nat) => sdN d) d * typeBits (sdXType d) + 7) / 8) = some xs) ∧ (s.vbBytes c st oa (4 * (fun (d : Nat) => match sdFunc d with | 0 => sdN d | 1 => 2 * sdN d | 4 => 1 | _ => 0) d) = some az)) (wStk (wChain 0x80000000000000408000000000000008000000000000000080000000000000000000000000000000000000000000000000000000000000000000000000000001000000000000000200000000000000000420000120211001 [1065353216, 1073741824, 1073741824])) (3) (0) (0x80000000000000408000000000000008000000000000000080000000000000000000000000000000000000000000000000000000000000000000000000000001000000000000000200000000000000000420000120211001) (0) (0) (8) (64) (([1065353216, 1073741824] : List Nat).flatMap (bytesOfNat 4)) (([1073741824] : List Nat).flatMap (bytesOfNat 4)) := by decide +kernel
theorem witness_StackVectors_2_1 : (fun (s : State) (c i d st ox oa oo : Nat) (xs az : List Byte) => (s.runsDesc c i d 0x22 = true) ∧ (vectorForm d st ox oo) ∧ (sdNbu d = false) ∧ ((fun (d : Nat) => (sdFunc d == 1 : Bool)) d = true) ∧ (((fun (d : Nat) => 0) d = 0 ∨ vbOff (sdAux d) = some oa)) ∧ (s.vbBytes c st ox (((fun (d : Nat) => sdN d) d * typeBits (sdXType d) + 7) / 8) = some xs) ∧ (s.vbBytes c st oa (4 * (fun (d : Nat) => 0) d) = some az)) (wStk (wChain 0x80000000000000400000000000000000000000000000000080000000000000000000000000000000000000000000000000000000000000000000000000000001000000000000000200000000000000000120000122211001 [1065353216, 1073741824])) (3) (0) (0x80000000000000400000000000000000000000000000000080000000000000000000000000000000000000000000000000000000000000000000000000000001000000000000000200000000000000000120000122211001) (0) (0) (8) (64) (([1065353216, 1073741824] : List Nat).flatMap (bytesOfNat 4)) (([] : List Nat).flatMap (bytesOfNat 4)) := by decide +kernel
theorem witness_StackVectors_3_1 : (fun (s : State) (c i d st ox oa oo : Nat) (xs az : List Byte) => (s.runsDesc c i d 0x22 = true) ∧ (vectorForm d st ox oo) ∧ (sdNbu d = false) ∧ ((fun (d : Nat) => (sdFunc d == 2 : Bool)) d = true) ∧ (((fun (d : Nat) => 0) d = 0 ∨ vbOff (sdAux d) = some oa)) ∧ (s.vbBytes c st ox (((fun (d : Nat) => 2 * sdN d) d * typeBits (sdXType d) + 7) / 8) = some xs) ∧ (s.vbBytes c st oa (4 * (fun (d : Nat) => 0) d) = some az)) (wStk (wChain 0x80000000000000400000000000000000000000000000000080000000000000000000000000000000000000000000000000000000000000000000000000000001000000000000000200000000000000000200000122211001 [1065353216, 1073741824, 3225419776, 1065353216])) (3) (0) (0x80000000000000400000000000000000000000000000000080000000000000000000000000000000000000000000000000000000000000000000000000000001000000000000000200000000000000000200000122211001) (0) (0) (8) (64) (([1065353216, 1073741824, 3225419776, 1065353216] : List Nat).flatMap (bytesOfNat 4)) (([] : List Nat).flatMap (bytesOfNat 4)) := by decide +kernel
theorem witness_StackVectors_4 : (fun (s : State) (c i d st ox oa oo : Nat) (xs : List Byte) => (s.runsDesc c i d 0x22 = true) ∧ (vectorForm d st ox oo) ∧ (sdFunc d = 0) ∧ (vbOff (sdAux d) = some oa) ∧ ((oa + 4 ≤ oo ∨ oo + (sdN d * typeBits (sdOutType d) + 7) / 8 ≤ oa)) ∧ (s.vbBytes c st ox ((sdN d * typeBits (sdXType d) + 7) / 8) = some xs)) (wStk (wChain 0x80000000000000408000000000000008000000000000000080000000000000000000000000000000000000000000000000000000000000000000000000000001000000000000000200000000000000000000000122211001 [1065353216, 1073741824])) (3) (0) (0x80000000000000408000000000000008000000000000000080000000000000000000000000000000000000000000000000000000000000000000000000000001000000000000000200000000000000000000000122211001) (0) (0) (8) (64) (([1065353216, 1073741824] : List Nat).flatMap (bytesOfNat 4)) := by decide +kernel
theorem witness_StackVectors_5 : (fun (s : State) (c i d st ox oo : Nat) (xs : List Byte) => (s.runsDesc c i d 0x30 = true) ∧ (vectorForm d st ox oo) ∧ (0 < sdKsplit d) ∧ (s.vbBytes c st ox (4 * ((sdKsplit d - 1) * sdXVs d + sdN d)) = some xs)) (wStk (wChain 0x20000000000000000000000000000000080000000000000400000000000000000000000000000000080000000000000000000000000000000000000000000000000000000000000000000000000000301000000000000000200000000000000000000000130211001 [1065353216, 1073741824, 3225419776, 1065353216, 1065353216, 1065353216])) (3) (0) (0x20000000000000000000000000000000080000000000000400000000000000000000000000000000080000000000000000000000000000000000000000000000000000000000000000000000000000301000000000000000200000000000000000000000130211001) (0) (0) (64) (([1065353216, 1073741824, 3225419776, 1065353216, 1065353216, 1065353216] : List Nat).flatMap (bytesOfNat 4)) := by decide +kernel
theorem witness_RowOperations_1_1 : (fun (s : State) (c i d st : Nat) (a : List Byte) => (s.runsDesc c i d 0x01 = true) ∧ (sdPaged d = false) ∧ (sdStacks d = [st]) ∧ (sdNbuCnt d = 1) ∧ (sdN d = 1) ∧ ((s.nbuRead st (sdNbuFirst d) (sdOff d 0) 1024).1 = some a)) (wRowState 0x800000000000000000000000000000000000000000000000000000000000000000100000000000100050000000101211001) (3) (0) (0x800000000000000000000000000000000000000000000000000000000000000000100000000000100050000000101211001) (0) (wRow) := by
  have hp : (wRowState 0x800000000000000000000000000000000000000000000000000000000000000000100000000000100050000000101211001).nbuPieces 0 5 0 1024 = [(0, wRowAt, 1024)] := by decide +kernel
  have h1 := State.nbuRead_good (wRowState 0x800000000000000000000000000000000000000000000000000000000000000000100000000000100050000000101211001) 0 5 0 1024 wRowAt wRow rfl rfl hp (wRow_there 0x800000000000000000000000000000000000000000000000000000000000000000100000000000100050000000101211001)
  exact ⟨by decide +kernel, by decide +kernel, by decide +kernel, by decide +kernel, by decide +kernel, h1.1⟩
theorem witness_RowOperations_2_1 : (fun (s : State) (c i d st : Nat) (a : List Byte) => (s.runsDesc c i d 0x06 = true) ∧ (sdPaged d = false) ∧ (sdStacks d = [st]) ∧ (sdNbuCnt d = 1) ∧ (sdN d = 1) ∧ ((s.nbuRead st (sdNbuFirst d) (sdOff d 0) 1024).1 = some a)) (wRowState 0x800000000000000000000000000000000000000000000000000000000000000000100000000000100050000000106211001) (3) (0) (0x800000000000000000000000000000000000000000000000000000000000000000100000000000100050000000106211001) (0) (wRow) := by
  have hp : (wRowState 0x800000000000000000000000000000000000000000000000000000000000000000100000000000100050000000106211001).nbuPieces 0 5 0 1024 = [(0, wRowAt, 1024)] := by decide +kernel
  have h1 := State.nbuRead_good (wRowState 0x800000000000000000000000000000000000000000000000000000000000000000100000000000100050000000106211001) 0 5 0 1024 wRowAt wRow rfl rfl hp (wRow_there 0x800000000000000000000000000000000000000000000000000000000000000000100000000000100050000000106211001)
  exact ⟨by decide +kernel, by decide +kernel, by decide +kernel, by decide +kernel, by decide +kernel, h1.1⟩
theorem witness_RowOperations_3_1 : (fun (s : State) (c i d st : Nat) (a b : List Byte) => (s.runsDesc c i d 0x03 = true) ∧ (sdPaged d = false) ∧ (sdStacks d = [st]) ∧ (sdNbuCnt d = 1) ∧ (sdN d = 1) ∧ ((s.nbuRead st (sdNbuFirst d) (sdOff d 0) 1024).1 = some a) ∧ (((s.nbuRead st (sdNbuFirst d) (sdOff d 0) 1024).2.nbuRead st (sdNbuFirst d) (sdOff d 1) 1024).1 = some b)) (wRowState 0x800000000000000000000000000000000000000000000000000000000000000000100000000000100050000000103211001) (3) (0) (0x800000000000000000000000000000000000000000000000000000000000000000100000000000100050000000103211001) (0) (wRow) (wRow) := by
  have hp : (wRowState 0x800000000000000000000000000000000000000000000000000000000000000000100000000000100050000000103211001).nbuPieces 0 5 0 1024 = [(0, wRowAt, 1024)] := by decide +kernel
  have h1 := State.nbuRead_good (wRowState 0x800000000000000000000000000000000000000000000000000000000000000000100000000000100050000000103211001) 0 5 0 1024 wRowAt wRow rfl rfl hp (wRow_there 0x800000000000000000000000000000000000000000000000000000000000000000100000000000100050000000103211001)
  have ht := State.nbuRead_tiers (wRowState 0x800000000000000000000000000000000000000000000000000000000000000000100000000000100050000000103211001) 0 5 0 1024 wRowAt wRow rfl rfl hp (by decide +kernel) (wRow_there 0x800000000000000000000000000000000000000000000000000000000000000000100000000000100050000000103211001)
  have h2 := State.nbuRead_good ((wRowState 0x800000000000000000000000000000000000000000000000000000000000000000100000000000100050000000103211001).nbuRead 0 5 0 1024).2 0 5 0 1024 wRowAt wRow h1.2.2.1
    (by unfold State.logging State.replaying; rw [h1.2.2.2]; rfl)
    ((State.nbuPieces_congr _ _ ht 0 5 0 1024).trans hp) (by rw [h1.2.1]; exact wRow_there 0x800000000000000000000000000000000000000000000000000000000000000000100000000000100050000000103211001)
  exact ⟨by decide +kernel, by decide +kernel, by decide +kernel, by decide +kernel, by decide +kernel, h1.1, h2.1⟩
theorem witness_RowOperations_4_1 : (fun (s : State) (c i d st : Nat) (a b : List Byte) => (s.runsDesc c i d 0x04 = true) ∧ (sdPaged d = false) ∧ (sdStacks d = [st]) ∧ (sdNbuCnt d = 1) ∧ (sdN d = 1) ∧ ((s.nbuRead st (sdNbuFirst d) (sdOff d 0) 1024).1 = some a) ∧ (((s.nbuRead st (sdNbuFirst d) (sdOff d 0) 1024).2.nbuRead st (sdNbuFirst d) (sdOff d 1) 1024).1 = some b)) (wRowState 0x800000000000000000000000000000000000000000000000000000000000000000100000000000100050000000104211001) (3) (0) (0x800000000000000000000000000000000000000000000000000000000000000000100000000000100050000000104211001) (0) (wRow) (wRow) := by
  have hp : (wRowState 0x800000000000000000000000000000000000000000000000000000000000000000100000000000100050000000104211001).nbuPieces 0 5 0 1024 = [(0, wRowAt, 1024)] := by decide +kernel
  have h1 := State.nbuRead_good (wRowState 0x800000000000000000000000000000000000000000000000000000000000000000100000000000100050000000104211001) 0 5 0 1024 wRowAt wRow rfl rfl hp (wRow_there 0x800000000000000000000000000000000000000000000000000000000000000000100000000000100050000000104211001)
  have ht := State.nbuRead_tiers (wRowState 0x800000000000000000000000000000000000000000000000000000000000000000100000000000100050000000104211001) 0 5 0 1024 wRowAt wRow rfl rfl hp (by decide +kernel) (wRow_there 0x800000000000000000000000000000000000000000000000000000000000000000100000000000100050000000104211001)
  have h2 := State.nbuRead_good ((wRowState 0x800000000000000000000000000000000000000000000000000000000000000000100000000000100050000000104211001).nbuRead 0 5 0 1024).2 0 5 0 1024 wRowAt wRow h1.2.2.1
    (by unfold State.logging State.replaying; rw [h1.2.2.2]; rfl)
    ((State.nbuPieces_congr _ _ ht 0 5 0 1024).trans hp) (by rw [h1.2.1]; exact wRow_there 0x800000000000000000000000000000000000000000000000000000000000000000100000000000100050000000104211001)
  exact ⟨by decide +kernel, by decide +kernel, by decide +kernel, by decide +kernel, by decide +kernel, h1.1, h2.1⟩
theorem witness_RowOperations_5_1 : (fun (s : State) (c i d st : Nat) (a b : List Byte) => (s.runsDesc c i d 0x05 = true) ∧ (sdPaged d = false) ∧ (sdStacks d = [st]) ∧ (sdNbuCnt d = 1) ∧ (sdN d = 1) ∧ ((s.nbuRead st (sdNbuFirst d) (sdOff d 0) 1024).1 = some a) ∧ (((s.nbuRead st (sdNbuFirst d) (sdOff d 0) 1024).2.nbuRead st (sdNbuFirst d) (sdOff d 1) 1024).1 = some b)) (wRowState 0x800000000000000000000000000000000000000000000000000000000000000000100000000000100050000000105211001) (3) (0) (0x800000000000000000000000000000000000000000000000000000000000000000100000000000100050000000105211001) (0) (wRow) (wRow) := by
  have hp : (wRowState 0x800000000000000000000000000000000000000000000000000000000000000000100000000000100050000000105211001).nbuPieces 0 5 0 1024 = [(0, wRowAt, 1024)] := by decide +kernel
  have h1 := State.nbuRead_good (wRowState 0x800000000000000000000000000000000000000000000000000000000000000000100000000000100050000000105211001) 0 5 0 1024 wRowAt wRow rfl rfl hp (wRow_there 0x800000000000000000000000000000000000000000000000000000000000000000100000000000100050000000105211001)
  have ht := State.nbuRead_tiers (wRowState 0x800000000000000000000000000000000000000000000000000000000000000000100000000000100050000000105211001) 0 5 0 1024 wRowAt wRow rfl rfl hp (by decide +kernel) (wRow_there 0x800000000000000000000000000000000000000000000000000000000000000000100000000000100050000000105211001)
  have h2 := State.nbuRead_good ((wRowState 0x800000000000000000000000000000000000000000000000000000000000000000100000000000100050000000105211001).nbuRead 0 5 0 1024).2 0 5 0 1024 wRowAt wRow h1.2.2.1
    (by unfold State.logging State.replaying; rw [h1.2.2.2]; rfl)
    ((State.nbuPieces_congr _ _ ht 0 5 0 1024).trans hp) (by rw [h1.2.1]; exact wRow_there 0x800000000000000000000000000000000000000000000000000000000000000000100000000000100050000000105211001)
  exact ⟨by decide +kernel, by decide +kernel, by decide +kernel, by decide +kernel, by decide +kernel, h1.1, h2.1⟩
theorem witness_RowOperations_6 : (fun (s : State) (c i d st : Nat) => (s.runsDesc c i d 2 = true) ∧ (sdStacks d = [st]) ∧ (sdNbuCnt d = 1) ∧ (sdN d = 1)) (wStk (wChain 0x123456789abcdef000000000000000000000000000000000000000000000800000000000000000000000000000000000000000000000000000000000000000100000000000100050000000102211001 [])) (3) (0) (0x123456789abcdef000000000000000000000000000000000000000000000800000000000000000000000000000000000000000000000000000000000000000100000000000100050000000102211001) (0) := by decide +kernel
theorem witness_StackMatrix_1 : (fun (s : State) (c i d st ox oo : Nat) (xs ws : List Byte) => (s.runsDesc c i d 0x10 = true) ∧ (sdPaged d = false) ∧ (sdStacks d = [st]) ∧ (sdB d = 1) ∧ (sdWMode d = 0) ∧ (sdXMode d = 0) ∧ (sdDest d = 0) ∧ (sdOutMode d = 0) ∧ (vbOff (sdXAddr d) = some ox) ∧ (vbOff (sdOut d) = some oo) ∧ (sdN d = 1) ∧ (0 < sdK d) ∧ (sdK d ≤ 32) ∧ (sdKsplit d = 1) ∧ (sdAccIn d = false) ∧ (s.vbBytes c st ox ((sdK d * typeBits (sdXType d) + 7) / 8) = some xs) ∧ ((s.nbuRead st (sdNbuFirst d) (sdOff d 0) ((sdK d * typeBits (sdWType d) + 7) / 8)).1 = some ws)) ({ wStk (wChain 0x80000000000000400000000000000000000000000000000080000000000000000000000000000000000000000000000000000000000000000000000003030101000000020000000100000000000100050000000110211001 [14392]) with mem := Mem.writeBytes [] ((wStk (wChain 0 [])).nbuLocal 0 0 5 0) (bytesOfNat 64 16440) }) (3) (0) (0x80000000000000400000000000000000000000000000000080000000000000000000000000000000000000000000000000000000000000000000000003030101000000020000000100000000000100050000000110211001) (0) (0) (64) (bytesOfNat 2 0x3838) (bytesOfNat 2 16440) := by decide +kernel
theorem witness_StackMatrix_2 : (fun (s v : State) (c i d st ox oo p : Nat) (xs lst ws : List Byte) => (s.runsDesc c i d 0x11 = true) ∧ (sdPaged d = true) ∧ (sdStacks d = [st]) ∧ (sdB d = 1) ∧ (sdWMode d = 0) ∧ (sdXMode d = 0) ∧ (sdDest d = 0) ∧ (sdOutMode d = 0) ∧ (vbOff (sdXAddr d) = some ox) ∧ (vbOff (sdOut d) = some oo) ∧ (sdK d = 1) ∧ (s.logging = false) ∧ (s.vbBytes c st ox ((typeBits (sdXType d) + 7) / 8) = some xs) ∧ (((s.asAgent 3 st (sdPageAddr d)).load (sdPageAddr d) 16).1 = some lst) ∧ (pageOf (natOfBytes lst) 0 = some (p, 0)) ∧ (((s.asAgent 3 st (sdPageAddr d)).load (sdPageAddr d) 16).2.inBankGroup st (pageRows d 1 ((sdN d * typeBits (sdWType d) + 7) / 8) 0 (p, 0)) = true) ∧ (((s.asAgent 3 st (sdPageAddr d)).load (sdPageAddr d) 16).2.pageRead (s.chainTenant c) st p ((sdN d * typeBits (sdWType d) + 7) / 8) = ((none, some ws), v))) ({ wStk (wChain 0x100000000000000000000080000000000000400000000000000000000000000000000080000000000000000000000000000000000000000000000000000000000000000000000003430001000000010000000200000000000000000000000111211001 [0x38]) with mem := Mem.writeBytes (Mem.writeBytes [] 0x100000 (bytesOfNat 64 0xC00000)) 0xC00000 (bytesOfNat 64 0x4038) }) ((((({ wStk (wChain 0x100000000000000000000080000000000000400000000000000000000000000000000080000000000000000000000000000000000000000000000000000000000000000000000003430001000000010000000200000000000000000000000111211001 [0x38]) with mem := Mem.writeBytes (Mem.writeBytes [] 0x100000 (bytesOfNat 64 0xC00000)) 0xC00000 (bytesOfNat 64 0x4038) } : State).asAgent 3 0 0x100000).load 0x100000 16).2.accessRecord 3 0 0 false 0xC00000 2).2.load 0xC00000 2 |>.2) (3) (0) (0x100000000000000000000080000000000000400000000000000000000000000000000080000000000000000000000000000000000000000000000000000000000000000000000003430001000000010000000200000000000000000000000111211001) (0) (0) (64) (0xC00000) (bytesOfNat 1 0x38) (bytesOfNat 16 0xC00000) (bytesOfNat 2 0x4038) := by decide +kernel
theorem witness_StackMatrix_3 : (fun (s v : State) (c i d st ox oo p q : Nat) (xs lst ws : List Byte) => (s.runsDesc c i d 0x28 = true) ∧ (sdStacks d = [st]) ∧ (sdB d = 1) ∧ (sdXMode d = 0) ∧ (vbOff (sdXAddr d) = some ox) ∧ (vbOff (sdOut d) = some oo) ∧ (sdN d = 1) ∧ (sdParam d = 1) ∧ (s.logging = false) ∧ (s.vbBytes c st ox ((sdK d * typeBits (sdXType d) + 7) / 8) = some xs) ∧ (((s.asAgent 3 st (sdPageAddr d)).load (sdPageAddr d) 16).1 = some lst) ∧ (pageOf (natOfBytes lst) 0 = some (p, q)) ∧ (((s.asAgent 3 st (sdPageAddr d)).load (sdPageAddr d) 16).2.inBankGroup st [(p, 2 * sdK d * typeBits (sdWType d) / 8)] = true) ∧ (((s.asAgent 3 st (sdPageAddr d)).load (sdPageAddr d) 16).2.pageRead (s.chainTenant c) st p (2 * sdK d * typeBits (sdWType d) / 8) = ((none, some ws), v)) ∧ (fvIsNan (ofFp32 (topkScore d (natOfBytes xs) 0 0 (natOfBytes ws)).1) = false)) ({ wStk (wChain 0x100000000000000000000080000000000000400000000000000000000000000000000080000000000000000000000000000000000000000000000000000000000000000001000003430001000000020000000100000000000000000000000128211001 [0x4038]) with mem := Mem.writeBytes (Mem.writeBytes [] 0x100000 (bytesOfNat 64 0xC00000)) 0xC00000 (bytesOfNat 64 0x4038) }) ((((({ wStk (wChain 0x100000000000000000000080000000000000400000000000000000000000000000000080000000000000000000000000000000000000000000000000000000000000000001000003430001000000020000000100000000000000000000000128211001 [0x4038]) with mem := Mem.writeBytes (Mem.writeBytes [] 0x100000 (bytesOfNat 64 0xC00000)) 0xC00000 (bytesOfNat 64 0x4038) } : State).asAgent 3 0 0x100000).load 0x100000 16).2.accessRecord 3 0 0 false 0xC00000 4).2.load 0xC00000 4 |>.2) (3) (0) (0x100000000000000000000080000000000000400000000000000000000000000000000080000000000000000000000000000000000000000000000000000000000000000001000003430001000000020000000100000000000000000000000128211001) (0) (0) (64) (0xC00000) (0) (bytesOfNat 2 0x4038) (bytesOfNat 16 0xC00000) (bytesOfNat 4 0x4038) := by decide +kernel
theorem witness_StackChains_1 : (Instr.gemv 0 0) ∈ [Instr.gemv 0 0, .gemvt 0 0] := by decide
theorem witness_StackChains_2 : (fun (s : State) (c t : Nat) (x : StackChain) (w : BitVec 1024) => (Table.find s.stks.chains c = some x) ∧ (x.stopped = false) ∧ (x.failed = none) ∧ (x.descs[x.next]? = some w) ∧ (x.overlapOk w.toNat = true) ∧ (x.rbFits w.toNat = true) ∧ ((s.at t).startSpaced w.toNat = true) ∧ (s.bring.blkBusy = false) ∧ (sdWaitEn w.toNat = false) ∧ (s.logging = false)) (wStk ({ wChain 0x800000000000000000000000000000000000000000000000000000000000000000100000000000100050000000101211001 [] with running := [], next := 0 })) (3) (5) ({ wChain 0x800000000000000000000000000000000000000000000000000000000000000000100000000000100050000000101211001 [] with running := [], next := 0 }) (BitVec.ofNat 1024 0x800000000000000000000000000000000000000000000000000000000000000000100000000000100050000000101211001) := by decide +kernel
theorem witness_StackChains_3 : (fun (s : State) (c i : Nat) (x : StackChain) (w : BitVec 1024) (r : StackRun) => (Table.find s.stks.chains c = some x) ∧ (x.running = [r]) ∧ (r.idx = i) ∧ (r.done = true) ∧ (x.descs[i]? = some w) ∧ (sdSigEn w.toNat = false)) (wStk { wChain 0x800000000000000000000000000000000000000000000000000000000000000000100000000000100050000000101211001 [] with running := [{ idx := 0, done := true, flags := 3, failed := none }] }) (3) (0) ({ wChain 0x800000000000000000000000000000000000000000000000000000000000000000100000000000100050000000101211001 [] with running := [{ idx := 0, done := true, flags := 3, failed := none }] }) (BitVec.ofNat 1024 0x800000000000000000000000000000000000000000000000000000000000000000100000000000100050000000101211001) ({ idx := 0, done := true, flags := 3, failed := none }) := by decide +kernel
theorem witness_StackChains_4 : (fun (s : State) (c st i : Nat) (e : Status) (x : StackChain) => (Table.find s.stks.chains c = some x) ∧ (x.stopped = false) ∧ (x.running = []) ∧ (x.failed = some (e, st, i)) ∧ (s.sync = State.reset.sync)) (wStk { wChain 0x800000000000000000000000000000000000000000000000000000000000000000100000000000100050000000101211001 [] with running := [], failed := some (ST_STK_UE, 0, 0) }) (3) (0) (0) (ST_STK_UE) ({ wChain 0x800000000000000000000000000000000000000000000000000000000000000000100000000000100050000000101211001 [] with running := [], failed := some (ST_STK_UE, 0, 0) }) := by decide +kernel
theorem witness_StackChains_5 : (fun (_s : State) (st _v : Nat) => (st < 12)) (State.reset) (11) (200) := by decide +kernel
theorem witness_StackChains_6 : (fun (_s : State) (r : Requester) (_st _v : Nat) => (r ≠ .scheduler)) (State.reset) (.security) (11) (200) := by decide +kernel
theorem witness_MemoryAccess_1 : (fun (s : State) (r : Requester) (a n t : Nat) (e : Status) => ((s.at t).accessCheck (s.requesterTenant r) false a n = some e)) (State.reset) (.host 5) (0x400000000000) (8) (3) (ST_ISO_ADDRESS) := by decide +kernel
theorem witness_MemoryAccess_2 : (fun (s : State) (r : Requester) (a t : Nat) (bs : List Byte) (e : Status) => ((s.at t).accessCheck (s.requesterTenant r) true a bs.length = some e)) (State.reset) (.scheduler) (0x3FFFFFFFFFFF) (3) ([1#8]) (ST_ADDR_UNMAPPED) := by decide +kernel
theorem witness_MemoryAccess_3 : (fun (s : State) (r : Requester) (a n t k : Nat) (bs : List Byte) => ((s.at t).accessCheck (s.requesterTenant r) false a n = none) ∧ (s.region a = .spad k) ∧ (s.bring.tilesFilled = true) ∧ (s.logging = false) ∧ (a % 8 = 0) ∧ (n % 8 = 0) ∧ (0 < n) ∧ (a + n ≤ s.regionEnd a) ∧ (Mem.readBytes s.mem a n = some bs)) ({ wMem id with mem := (List.range 16).map (fun i => (tileBase 0 + i, BitVec.ofNat 8 (i + 1))) }) (.host 0) (0x400000000000) (16) (3) (0) ((List.range 16).map (fun i => BitVec.ofNat 8 (i + 1))) := by decide +kernel
theorem witness_MemoryAccess_4 : (fun (s : State) (r : Requester) (a t : Nat) (bs : List Byte) => ((s.at t).accessCheck (s.requesterTenant r) false a 64 = none) ∧ (s.region a = .tier1) ∧ (s.memReady true a 64 = true) ∧ (s.logging = false) ∧ (a % 64 = 0) ∧ (a + 64 ≤ s.t1Top) ∧ (s.unitFenced (s.unitAt a) = false) ∧ (s.tiers.merge = []) ∧ (Mem.readBytes s.mem a 64 = some bs)) (wAtom (wMem id)) (.host 0) (0) (3) (wAtomB) := by decide +kernel
theorem witness_MemoryAccess_5 : (fun (s : State) (r : Requester) (a t : Nat) (bs : List Byte) (er fix : List (Nat × Nat)) => ((s.at t).accessCheck (s.requesterTenant r) false a 64 = none) ∧ (s.region a = .tier1) ∧ (s.memReady true a 64 = true) ∧ (s.logging = false) ∧ (a % 64 = 0) ∧ (a + 64 ≤ s.t1Top) ∧ (s.unitFenced (s.unitAt a) = false) ∧ (s.tiers.merge = []) ∧ (Mem.readBytes s.mem a 64 = some bs) ∧ (classify 64 false er = .corrected fix)) (wAtom (wMem id)) (.host 0) (0) (3) (wAtomB) ([(5, 0x21)]) ([(5, 0x21)]) := by decide +kernel
theorem witness_MemoryAccess_6 : (fun (s : State) (r : Requester) (a t k : Nat) (bs : List Byte) => ((s.at t).accessCheck (s.requesterTenant r) true a bs.length = none) ∧ (s.region a = .spad k) ∧ (s.pilot.moves = []) ∧ (s.logging = false) ∧ (a % 8 = 0) ∧ (bs.length % 8 = 0) ∧ (bs ≠ []) ∧ (a + bs.length ≤ s.regionEnd a)) (State.reset) (.host 0) (0x400000000000) (3) (0) ([1#8, 2#8, 3#8, 4#8, 5#8, 6#8, 7#8, 8#8]) := by decide +kernel
theorem witness_MergeAndLeak_1 : (fun (s : State) (t : Nat) (e : MergeEntry) (old : List Byte) => (s.tiers.merge = [e]) ∧ (e.last + usTicks 1 ≤ t) ∧ (Mem.readBytes s.mem e.atom (atomBytes e.unit) = some old)) (wAtom (wMem (fun t => { t with merge := [{ atom := 0, unit := 0, mask := 3, data := 0x7777, last := 0 }] }))) (25) ({ atom := 0, unit := 0, mask := 3, data := 0x7777, last := 0 }) (wAtomB) := by decide +kernel
theorem witness_MergeAndLeak_2 : (fun (s : State) (t : Nat) (e : MergeEntry) => (s.tiers.merge = [e]) ∧ (s.time < e.last + usTicks 1) ∧ (t < e.last + usTicks 1)) (wAtom (wMem (fun t => { t with merge := [{ atom := 0, unit := 0, mask := 3, data := 0x7777, last := 0 }] }))) (24) ({ atom := 0, unit := 0, mask := 3, data := 0x7777, last := 0 }) := by decide +kernel
theorem witness_MergeAndLeak_3 : (fun (s : State) (a : Nat) (d : BitVec 1024) => (Table.find s.tiers.writeBacks a = some d)) (wMem (fun t => { t with writeBacks := [(0, 99#1024)] })) (0) (99#1024) := by decide +kernel
theorem witness_MergeAndLeak_5 : (fun (_s : State) (n temp : Nat) (_hot : Bool) => (n < 12) ∧ (85 * 16 < sext 16 temp)) (State.reset) (11) (1361) (false) := by decide +kernel
theorem witness_MergeAndLeak_6 : (fun (_s : State) (n temp : Nat) (_hot : Bool) => (n < 12) ∧ (sext 16 temp ≤ 82 * 16)) (wMem (fun t => { t with stkHot := 0xFFF#12 })) (0) (1312) (true) := by decide +kernel
theorem witness_MergeAndLeak_8 : (fun (s : State) (b t : Nat) => (b < 1024) ∧ (0 < (s.integ (integIndex b)).leakMs.toNat) ∧ (Table.getD s.tiers.leakAt b 0 + msTicks (s.integ (integIndex b)).leakMs.toNat ≤ t)) (wMem (fun t => { t with buckets := [(7, { level := 3, ovf := 0 })] })) (7) (msTicks 100) := by decide +kernel
theorem witness_MergeAndLeak_9 : (fun (s : State) (q t : Nat) => (0 < (s.quay q).ceLeakMs.toNat) ∧ (Table.getD s.tiers.leakAt (4096 + q) 0 + msTicks (s.quay q).ceLeakMs.toNat ≤ t)) (State.reset.setQuay 63 { Quay.reset with ceLevel := 0x80 }) (63) (msTicks 1000) := by decide +kernel
theorem witness_MemoryUnits_1 : (fun (s : State) (stack pc _t : Nat) => (s.unitFenced (stack * 64 + pc) = false) ∧ (s.pcWorks stack pc = true) ∧ (Table.find s.tiers.calLost (stack * 64 + pc) = none)) (wMem id) (11) (63) (7) := by decide +kernel
theorem witness_MemoryUnits_2 : (fun (s : State) (stack pc t t0 a : Nat) => (pc < 64) ∧ (stack < 12) ∧ (s.unitFenced (stack * 64 + pc) = false) ∧ (Table.find s.tiers.calLost (stack * 64 + pc) = some t0) ∧ (t0 + msTicks 1 ≤ t) ∧ (s.unitAt a = stack * 64 + pc)) (wAtom (wMem (fun t => { t with calLost := [(0, 5)] }))) (0) (0) (5 + msTicks 1) (5) (3) := by decide +kernel
theorem witness_MemoryUnits_3 : (fun (s : State) (stack pc t t0 : Nat) => (Table.find s.tiers.calLost (stack * 64 + pc) = some t0) ∧ (s.time ≤ t0 + msTicks 1) ∧ (t ≤ t0 + msTicks 1) ∧ (s.tiers.held = [])) (wMem (fun t => { t with calLost := [(0, 5)] })) (0) (0) (25005) (5) := by decide +kernel
theorem witness_MemoryUnits_4 : (fun (s : State) (ch _t _errs _temp : Nat) => (s.canRetrain ch = true) ∧ ((s.chan ch).cause = 3)) (wMem (fun t => { t with chans := [(3, { T2Chan.reset with state := 1, cause := 3 })] })) (3) (5) (2) (640) := by decide +kernel
theorem witness_MemoryUnits_5 : (fun (s : State) (ch _t errs _temp : Nat) => (s.canRetrain ch = true) ∧ ((s.chan ch).cause = 0) ∧ ((s.chan ch).tempEn = false) ∧ (0 < (s.chan ch).errThresh.toNat) ∧ ((s.chan ch).errThresh.toNat ≤ errs)) (wMem (fun t => { t with chans := [(3, { T2Chan.reset with state := 1, errThresh := 100, tempEn := false })] })) (3) (5) (100) (640) := by decide +kernel
theorem witness_MemoryUnits_6 : (fun (s : State) (ch _t _errs _temp : Nat) => ((s.chan ch).cause = 0) ∧ ((s.chan ch).tempEn = false) ∧ ((s.chan ch).errThresh = 0)) (wMem (fun t => { t with chans := [(3, { T2Chan.reset with state := 1, errThresh := 0, tempEn := false })] })) (3) (5) (100) (640) := by decide +kernel
theorem witness_MemoryUnits_7 : (fun (s : State) (ch _t : Nat) => ((s.chan ch).state = 2)) (wMem (fun t => { t with chans := [(3, { T2Chan.reset with state := 2, cause := 2, attempt := 1 })] })) (3) (500) := by decide +kernel
theorem witness_MemoryUnits_8 : (fun (s : State) (ch _t : Nat) => ((s.chan ch).state = 2) ∧ ((s.chan ch).attempt.toNat < 3)) (wMem (fun t => { t with chans := [(3, { T2Chan.reset with state := 2, attempt := 2 })] })) (3) (500) := by decide +kernel
theorem witness_MemoryUnits_9 : (fun (s : State) (ch _t : Nat) => (ch < 16) ∧ ((s.chan ch).state = 2) ∧ ((s.chan ch).attempt = 3)) (wMem (fun t => { t with chans := [(3, { T2Chan.reset with state := 2, attempt := 3 })] })) (3) (500) := by decide +kernel
theorem witness_MemoryUnits_10 : (fun (s : State) (n : Nat) (bs : List Byte) => (n < 768) ∧ (s.tiers.t1Filled = true) ∧ (s.pcWorks (n / 64) (n % 64) = true) ∧ (s.unitFenced n = false) ∧ (s.tiers.scrubPaused = false) ∧ ((s.integ (n / 64)).passH ≠ 0) ∧ (s.tiers.merge = []) ∧ (s.tiers.writeBacks = []) ∧ (s.unitAt (s.scrubAddr n (Table.getD s.tiers.scrubPos n 0)) = n) ∧ (Mem.readBytes s.mem (s.scrubAddr n (Table.getD s.tiers.scrubPos n 0)) 64 = some bs) ∧ (Table.getD s.tiers.scrubPos n 0 + 1 < 2 ^ 24)) (wAtom (wMem id)) (0) (wAtomB) := by decide +kernel
theorem witness_UncorrectableAtoms_1 : (fun (s : State) (atom _t : Nat) (h : UeHandling) => (s.tiers.ueRunning = [h]) ∧ (h.atom = atom) ∧ (h.tag = none) ∧ (s.tiers.ueQueue = []) ∧ (s.tiers.resv = []) ∧ (s.kv.areas = []) ∧ (s.kv.slots = []) ∧ (s.pilot.blocks = []) ∧ (s.events.entries = [])) (wMem (fun t => { t with ueRunning := [{ atom := 0, since := 0, tag := none }] })) (0) (5) ({ atom := 0, since := 0, tag := none }) := by decide +kernel
theorem witness_UncorrectableAtoms_2 : (fun (s : State) (_t p : Nat) (h : UeHandling) (q : Packet) => (s.tiers.ueRunning = [h]) ∧ (h.tag = some q.tag) ∧ (s.tiers.ueQueue = []) ∧ (s.fab.inbox = [(p, q)]) ∧ (q.vc = 3) ∧ (q.ptype = 5) ∧ (s.tiers.resv = []) ∧ (s.pilot.moves = []) ∧ (s.pilot.blocks = []) ∧ (s.logging = false) ∧ (s.region h.atom = .tier1) ∧ (h.atom % 64 = 0) ∧ (h.atom + 64 ≤ s.t1Top) ∧ (s.unitAt h.atom < 1024) ∧ (s.unitFenced (s.unitAt h.atom) = false) ∧ (q.data.length = 64) ∧ (Mem.readBytes s.mem h.atom 64 = none) ∧ (s.events.entries = [])) ({ wMem (fun t => { t with ueRunning := [{ atom := 0, since := 0, tag := some 9 }] }) with fab := { State.reset.fab with inbox := [(14, { ptype := 5, vc := 3, esc := false, down := false, dstH := 0, dstB := 0, srcH := 1, srcB := 0, tenant := 0, tag := 9, loc := 0, len := 63, aop := 0, data := wAtomB })] } }) (5) (14) ({ atom := 0, since := 0, tag := some 9 }) ({ ptype := 5, vc := 3, esc := false, down := false, dstH := 0, dstB := 0, srcH := 1, srcB := 0, tenant := 0, tag := 9, loc := 0, len := 63, aop := 0, data := wAtomB }) := by decide +kernel
theorem witness_DmaOperations_1 : (fun (s : State) (c i _t : Nat) (x : DmaCtx) (r : DmaRun) => (s.dma.ctxs = [(c, x)]) ∧ (x.running = [r]) ∧ (r.index = i) ∧ (r.stage = .started) ∧ (r.status = 0) ∧ (r.outstanding = 0) ∧ (r.sent = 0) ∧ (r.source = []) ∧ (ddOp r.desc.toNat = 0) ∧ (ddSrcMode r.desc.toNat = 2) ∧ (ddDstMode r.desc.toNat = 2) ∧ (ddCrc r.desc.toNat = false) ∧ (s.bring.pcieUp = true) ∧ (s.logging = false)) ({ wDma 0x70000000000000000000000000000020000000000000000000000000000000100000000000000000800000a0000500801 (fun r => r) with hostMem := (List.range 8).map (fun i => (0x100 + i, BitVec.ofNat 8 i)) }) (3) (0) (5) (wCtx 0x70000000000000000000000000000020000000000000000000000000000000100000000000000000800000a0000500801 (fun r => r)) ((fun (r : DmaRun) => r) (wRun 0x70000000000000000000000000000020000000000000000000000000000000100000000000000000800000a0000500801)) := by decide +kernel
theorem witness_DmaOperations_2 : (fun (s : State) (c i _t : Nat) (x : DmaCtx) (r : DmaRun) (k : Nat) (bs : List Byte) => (s.dma.ctxs = [(c, x)]) ∧ (x.running = [r]) ∧ (r.index = i) ∧ (r.stage = .started) ∧ (r.status = 0) ∧ (r.outstanding = 0) ∧ (r.sent = 0) ∧ (r.source = []) ∧ (ddOp r.desc.toNat = 0) ∧ (ddSrcMode r.desc.toNat = 0) ∧ (ddDstMode r.desc.toNat = 0) ∧ (ddCrc r.desc.toNat = false) ∧ (s.logging = false) ∧ (s.pilot.moves = []) ∧ (s.tiers.merge = []) ∧ (s.bring.tilesFilled = true) ∧ (s.accessCheck x.tenant false (ddSrc r.desc.toNat) (ddLength r.desc.toNat) = none) ∧ (s.accessCheck x.tenant true (ddDst r.desc.toNat) (ddLength r.desc.toNat) = none) ∧ (s.region (ddSrc r.desc.toNat) = .spad k) ∧ (s.region (ddDst r.desc.toNat) = .spad k) ∧ (ddDst r.desc.toNat % 8 = 0) ∧ (ddLength r.desc.toNat % 8 = 0) ∧ (ddDst r.desc.toNat + ddLength r.desc.toNat ≤ s.regionEnd (ddDst r.desc.toNat)) ∧ (Mem.readBytes s.mem (ddSrc r.desc.toNat) (ddLength r.desc.toNat) = some bs)) ({ wDma 0x7000000000000000000004000000000400000000000000000000040000000000000000000000000080000000000500801 (fun r => r) with mem := (List.range 8).map (fun i => (tileBase 0 + i, BitVec.ofNat 8 i)) }) (3) (0) (5) (wCtx 0x7000000000000000000004000000000400000000000000000000040000000000000000000000000080000000000500801 (fun r => r)) ((fun (r : DmaRun) => r) (wRun 0x7000000000000000000004000000000400000000000000000000040000000000000000000000000080000000000500801)) (0) ((List.range 8).map (BitVec.ofNat 8)) := by decide +kernel
theorem witness_DmaOperations_3 : (fun (s : State) (c i _t : Nat) (x : DmaCtx) (r : DmaRun) => (s.dma.ctxs = [(c, x)]) ∧ (x.running = [r]) ∧ (r.index = i) ∧ (r.stage = .started) ∧ (r.status = 0) ∧ (r.outstanding = 0) ∧ (r.sent = 0) ∧ (r.source = []) ∧ (ddOp r.desc.toNat = 1) ∧ (ddSrcMode r.desc.toNat = 0) ∧ (ddDstMode r.desc.toNat = 2) ∧ (ddCrc r.desc.toNat = false) ∧ (s.bring.pcieUp = true)) (wDma 0x70000000000000000000000000000020008070605040302010000000000000000000000000000000c0000080001500801 (fun r => r)) (3) (0) (5) (wCtx 0x70000000000000000000000000000020008070605040302010000000000000000000000000000000c0000080001500801 (fun r => r)) ((fun (r : DmaRun) => r) (wRun 0x70000000000000000000000000000020008070605040302010000000000000000000000000000000c0000080001500801)) := by decide +kernel
theorem witness_DmaOperations_4 : (fun (s : State) (c i _t : Nat) (x : DmaCtx) (r : DmaRun) (k : Nat) (bs : List Byte) => (s.dma.ctxs = [(c, x)]) ∧ (x.running = [r]) ∧ (r.index = i) ∧ (r.stage = .started) ∧ (r.status = 0) ∧ (r.outstanding = 0) ∧ (x.completed + 1 = listCount x.hdr.toNat) ∧ (listCq x.hdr.toNat = 0) ∧ (ddOp r.desc.toNat = 2) ∧ (ddDstMode r.desc.toNat = 0) ∧ (ddAsize r.desc.toNat = 8) ∧ (ddSrc r.desc.toNat = 0) ∧ (ddSig r.desc.toNat = false) ∧ (ddRec r.desc.toNat = false) ∧ (s.logging = false) ∧ (s.pilot.moves = []) ∧ (s.tiers.merge = []) ∧ (s.bring.tilesFilled = true) ∧ (s.accessCheck x.tenant true (ddDst r.desc.toNat) 8 = none) ∧ (s.region (ddDst r.desc.toNat) = .spad k) ∧ (ddDst r.desc.toNat % 8 = 0) ∧ (Mem.readBytes s.mem (ddDst r.desc.toNat) 8 = some bs)) ({ wDma 0x7000000000000000000004000000000080000000000000005000000000000000000000000000000000010000002500801 (fun r => r) with mem := (List.range 16).map (fun i => (tileBase 0 + i, BitVec.ofNat 8 i)) }) (3) (0) (5) (wCtx 0x7000000000000000000004000000000080000000000000005000000000000000000000000000000000010000002500801 (fun r => r)) ((fun (r : DmaRun) => r) (wRun 0x7000000000000000000004000000000080000000000000005000000000000000000000000000000000010000002500801)) (0) ((List.range 8).map (fun i => BitVec.ofNat 8 (8 + i))) := by decide +kernel
theorem witness_DmaOperations_5 : (fun (s : State) (c i _t : Nat) (x : DmaCtx) (r : DmaRun) (bs : List Byte) => (s.dma.ctxs = [(c, x)]) ∧ (x.running = [r]) ∧ (r.index = i) ∧ (r.stage = .started) ∧ (r.status = 0) ∧ (r.outstanding = 0) ∧ (r.sent = 0) ∧ (r.source = []) ∧ (ddOp r.desc.toNat = 3) ∧ (ddSrcMode r.desc.toNat = 2) ∧ (ddDstMode r.desc.toNat = 0) ∧ (ddBf16 r.desc.toNat = false) ∧ (ddLength r.desc.toNat = 4) ∧ (ddCrc r.desc.toNat = false) ∧ (s.bring.pcieUp = true) ∧ (s.logging = false) ∧ (s.pilot.moves = []) ∧ (s.tiers.merge = []) ∧ (s.accessCheck x.tenant true (ddDst r.desc.toNat) 4 = none) ∧ (s.region (ddDst r.desc.toNat) = .tier1) ∧ (ddDst r.desc.toNat % 64 = 0) ∧ (ddDst r.desc.toNat + 64 ≤ s.t1Top) ∧ (s.memReady true (ddDst r.desc.toNat) 4 = true) ∧ (s.unitFenced (s.unitAt (ddDst r.desc.toNat)) = false) ∧ (Mem.readBytes s.mem (ddDst r.desc.toNat) 64 = some bs)) ({ wAtom (wDma 0x7000000000000000000000000000000000000000000000000000000000000010000000000000000040000020003500801 (fun r => r)) with hostMem := [(0x100, 0#8), (0x101, 0#8), (0x102, 0x80#8), (0x103, 0x3F#8)] }) (3) (0) (5) (wCtx 0x7000000000000000000000000000000000000000000000000000000000000010000000000000000040000020003500801 (fun r => r)) ((fun (r : DmaRun) => r) (wRun 0x7000000000000000000000000000000000000000000000000000000000000010000000000000000040000020003500801)) (wAtomB) := by decide +kernel
theorem witness_DmaLists_1 : (fun (s : State) (t e : Nat) (x : DmaCtx) (rest : List DmaCtx) => (s.dma.waiting = x :: rest) ∧ ((s.at t).leastEngine (fun e => decide ((s.at t).engineLists e < 8)) = some e)) ((wMem id).dmaSubmit 9 2 0 1298074214633706907132628382648321) (5) (0) ({ wCtx 0 id with engine := 0, next := 0, running := [], hdr := BitVec.ofNat 512 1298074214633706907132628382648321 }) ([]) := by decide +kernel
theorem witness_DmaLists_2 : (fun (s : State) (c i _t : Nat) (x : DmaCtx) (r : DmaRun) => (s.dma.ctxs = [(c, x)]) ∧ (x.running = [r]) ∧ (r.index = i) ∧ (r.stage = .written) ∧ (r.status = 0) ∧ (r.outstanding = 0) ∧ (x.completed + 1 = listCount x.hdr.toNat) ∧ (listCq x.hdr.toNat = 0) ∧ (ddDstMode r.desc.toNat = 2) ∧ (0 < ddLength r.desc.toNat) ∧ (ddOp r.desc.toNat = 0) ∧ (ddCrc r.desc.toNat = false) ∧ (ddCmp r.desc.toNat = false) ∧ (ddSig r.desc.toNat = false) ∧ (ddRec r.desc.toNat = false) ∧ (s.bring.pcieUp = true) ∧ (s.logging = false)) (wDma 0x70000000000000000000000000000020000000000000000000000000000000100000000000000000800000a0000500801 (fun r => { r with stage := .written, sent := 1 })) (3) (0) (5) (wCtx 0x70000000000000000000000000000020000000000000000000000000000000100000000000000000800000a0000500801 (fun r => { r with stage := .written, sent := 1 })) ((fun (r : DmaRun) => { r with stage := .written, sent := 1 }) (wRun 0x70000000000000000000000000000020000000000000000000000000000000100000000000000000800000a0000500801)) := by decide +kernel
theorem witness_DmaLists_3 : (fun (s : State) (c i _t : Nat) (x : DmaCtx) (r : DmaRun) (b : Nat × Byte) => (s.dma.ctxs = [(c, x)]) ∧ (x.running = [r]) ∧ (r.index = i) ∧ (r.stage = .written) ∧ (r.status = 0) ∧ (r.outstanding = 0) ∧ (listCq x.hdr.toNat = 0) ∧ (ddDstMode r.desc.toNat = 2) ∧ (0 < ddLength r.desc.toNat) ∧ (ddOp r.desc.toNat = 0) ∧ (ddCrc r.desc.toNat = false) ∧ (ddCmp r.desc.toNat = true) ∧ (s.bring.pcieUp = true) ∧ (s.logging = false) ∧ (b ∈ s.windowBytes r) ∧ ((s.hostRead ((ddDst r.desc.toNat + ddLength r.desc.toNat - 1) / 8 * 8) 8)[b.1]? ≠ some b.2)) ({ wDma 0x70000000000000000000000000000020000000000000000000000000000000100000000000000000800000a2000500801 (fun r => { r with stage := .written, sent := 1, source := [(0, bytesOfNat 8 77)] }) with hostMem := (List.range 8).map (fun i => (0x200 + i, 3#8)) }) (3) (0) (5) (wCtx 0x70000000000000000000000000000020000000000000000000000000000000100000000000000000800000a2000500801 (fun r => { r with stage := .written, sent := 1, source := [(0, bytesOfNat 8 77)] })) ((fun (r : DmaRun) => { r with stage := .written, sent := 1, source := [(0, bytesOfNat 8 77)] }) (wRun 0x70000000000000000000000000000020000000000000000000000000000000100000000000000000800000a2000500801)) ((0, 77#8)) := by decide +kernel
theorem witness_DmaLists_4 : (fun (s : State) (c i t : Nat) (x : DmaCtx) (r : DmaRun) => (s.dma.ctxs = [(c, x)]) ∧ (x.running = [r]) ∧ (r.index = i) ∧ (r.stage = .cqWait) ∧ (r.outstanding = 0) ∧ (r.since + msTicks 100 ≤ t) ∧ (s.logging = false)) (wDma 0x70000000000000000000000000000020000000000000000000000000000000100000000000000000800000a0000500801 (fun r => { r with stage := .cqWait, status := 0 })) (3) (0) (msTicks 100) (wCtx 0x70000000000000000000000000000020000000000000000000000000000000100000000000000000800000a0000500801 (fun r => { r with stage := .cqWait, status := 0 })) ((fun (r : DmaRun) => { r with stage := .cqWait, status := 0 }) (wRun 0x70000000000000000000000000000020000000000000000000000000000000100000000000000000800000a0000500801)) := by decide +kernel
theorem witness_DmaLists_5 : (fun (s : State) (c i _t : Nat) (x : DmaCtx) (r : DmaRun) => (s.dma.ctxs = [(c, x)]) ∧ (x.running = [r]) ∧ (r.index = i) ∧ (r.stage = .failed) ∧ (r.outstanding = 0)) (wDma 0x70000000000000000000000000000020000000000000000000000000000000100000000000000000800000a0000500801 (fun r => { r with stage := .failed, status := ST_MEM_UE })) (3) (0) (5) (wCtx 0x70000000000000000000000000000020000000000000000000000000000000100000000000000000800000a0000500801 (fun r => { r with stage := .failed, status := ST_MEM_UE })) ((fun (r : DmaRun) => { r with stage := .failed, status := ST_MEM_UE }) (wRun 0x70000000000000000000000000000020000000000000000000000000000000100000000000000000800000a0000500801)) := by decide +kernel
theorem witness_DmaLists_6 : (fun (s : State) (c i t : Nat) (x : DmaCtx) (r : DmaRun) => (s.dma.ctxs = [(c, x)]) ∧ (x.running = [r]) ∧ (r.index = i) ∧ (r.stage = .reading) ∧ (r.status = 0) ∧ (r.outstanding = 0) ∧ (listCq x.hdr.toNat = 0) ∧ (ddOp r.desc.toNat = 0) ∧ (ddSrcMode r.desc.toNat = 2) ∧ (r.since + msTicks 50 ≤ t)) (wDma 0x70000000000000000000000000000020000000000000000000000000000000100000000000000000800000a0000500801 (fun r => { r with stage := .reading })) (3) (0) (msTicks 50) (wCtx 0x70000000000000000000000000000020000000000000000000000000000000100000000000000000800000a0000500801 (fun r => { r with stage := .reading })) ((fun (r : DmaRun) => { r with stage := .reading }) (wRun 0x70000000000000000000000000000020000000000000000000000000000000100000000000000000800000a0000500801)) := by decide +kernel
theorem witness_SyncObjects_1 : (fun (s : State) (seq _node so v : Nat) (g : GraphRun) => (s.graphOf seq = some g) ∧ (s.soAllowed g.tenant so = true) ∧ ((s.so so).waiters = []) ∧ ((s.so so).irqEn = false) ∧ ((s.so so).count.toNat + max 1 v < 2 ^ 32)) (wSo SyncObj.reset) (1) (0) (7) (0) (wG 0 0 (fun n => { n with phase := .running })) := by decide +kernel
theorem witness_SyncObjects_2 : (fun (s : State) (seq _node so v : Nat) (g : GraphRun) => (s.graphOf seq = some g) ∧ (s.soAllowed g.tenant so = true) ∧ ((s.so so).waiters = []) ∧ ((s.so so).irqEn = false) ∧ (2 ^ 32 ≤ (s.so so).count.toNat + max 1 v)) (wSo { SyncObj.reset with count := 0xFFFFFFFF#32 }) (1) (0) (7) (0) (wG 0 0 (fun n => { n with phase := .running })) := by decide +kernel
theorem witness_SyncObjects_3 : (fun (s : State) (seq _node so _v : Nat) (g : GraphRun) => (s.graphOf seq = some g) ∧ (s.soAllowed g.tenant so = true) ∧ ((s.so so).waiters = []) ∧ ((s.so so).irqEn = false)) (wSo SyncObj.reset) (1) (0) (7) (77) (wG 0 0 (fun n => { n with phase := .running })) := by decide +kernel
theorem witness_SyncObjects_4 : (fun (s : State) (seq _node so v : Nat) (g : GraphRun) => (s.graphOf seq = some g) ∧ (s.soAllowed g.tenant so = true) ∧ ((s.so so).waiters = []) ∧ ((s.so so).irqEn = false) ∧ (max 1 v ≤ (s.so so).count.toNat)) (wSo { SyncObj.reset with count := 1 }) (1) (0) (7) (0) (wG 0 0 (fun n => { n with phase := .running })) := by decide +kernel
theorem witness_SyncObjects_5 : (fun (s : State) (seq _node so v : Nat) (g : GraphRun) => (s.graphOf seq = some g) ∧ (s.soAllowed g.tenant so = true) ∧ ((s.so so).waiters = []) ∧ ((s.so so).irqEn = false) ∧ ((s.so so).count.toNat < max 1 v)) (wSo { SyncObj.reset with count := 4 }) (1) (0) (7) (5) (wG 0 0 (fun n => { n with phase := .running })) := by decide +kernel
theorem witness_SyncObjects_6 : (fun (s : State) (seq _node so v : Nat) (g : GraphRun) => (s.graphOf seq = some g) ∧ (s.soAllowed g.tenant so = true) ∧ ((s.so so).threshold v ≤ (s.so so).count.toNat)) (wSo { SyncObj.reset with count := 5 }) (1) (0) (7) (5) (wG 0 0 (fun n => { n with phase := .running })) := by decide +kernel
theorem witness_SyncObjects_7 : (fun (s : State) (seq _node so v : Nat) (g : GraphRun) => (s.graphOf seq = some g) ∧ (s.soAllowed g.tenant so = true) ∧ ((s.so so).count.toNat < (s.so so).threshold v) ∧ (s.waiterCount < 32768)) (wSo { SyncObj.reset with count := 4 }) (1) (0) (7) (5) (wG 0 0 (fun n => { n with phase := .running })) := by decide +kernel
theorem witness_SyncObjects_8 : (fun (s : State) (seq _node so v : Nat) (g : GraphRun) => (s.graphOf seq = some g) ∧ (s.soAllowed g.tenant so = true) ∧ ((s.so so).waiters = []) ∧ ((s.so so).irqEn = false) ∧ ((s.so so).threshold v ≤ (s.so so).count.toNat)) (wSo { SyncObj.reset with count := 5 }) (1) (0) (7) (5) (wG 0 0 (fun n => { n with phase := .running })) := by decide +kernel
theorem witness_SyncObjects_9 : (fun (s : State) (seq _node so _v : Nat) (g : GraphRun) => (s.graphOf seq = some g) ∧ (s.soAllowed g.tenant so = false)) (wSo { SyncObj.reset with tenant := 3 }) (1) (0) (7) (5) (wG 0 0 (fun n => { n with phase := .running })) := by decide +kernel
theorem witness_SyncObjects_10 : (fun (s : State) (un : SyncUnit) (r : Retried) (rest : List Retried) => (s.sync.retried = r :: rest) ∧ (r.waiter.unit = un) ∧ (isStream un = false) ∧ (s.soAllowed r.tenant r.so = true) ∧ ((s.so r.so).threshold r.waiter.t ≤ (s.so r.so).count.toNat) ∧ (r.waiter.dec = false)) (let s := wSo { SyncObj.reset with count := 5 }; { s with sync := { s.sync with retried := [{ so := 7, waiter := { unit := .node 1 0, dec := false, t := 5 }, tenant := 0 }] } }) (.node 1 0) ({ so := 7, waiter := { unit := .node 1 0, dec := false, t := 5 }, tenant := 0 }) ([]) := by decide +kernel
theorem witness_SyncObjects_11 : (fun (s : State) (n _v : Nat) => (n < 131072) ∧ ((s.so n).valid = true) ∧ ((s.so n).waiters = []) ∧ ((s.so n).irqEn = false)) (wSo SyncObj.reset) (7) (9) := by decide +kernel
theorem witness_SyncObjects_12 : (fun (_s : State) (r : Requester) (_n _v : Nat) => (r ≠ .scheduler)) (wSo SyncObj.reset) (.power) (7) (9) := by decide +kernel
theorem witness_Barriers_1 : (fun (s : State) (t w g : Nat) (ex : Bool) => (s.standsAt t ex 0x06 w) ∧ (bits w 8 4 = 5) ∧ (bits w 24 6 = g) ∧ (((s.tile t).stream ex).sent = false) ∧ (s.barCheck g t (s.tile t).tenant = none) ∧ ((s.tile t).coverOf ex = []) ∧ ((s.bar g).arrived.length + 1 < (s.bar g).size) ∧ ((s.bar g).arrived.contains t = false)) ((wOp true 67110150 id).setBar 4 { Barrier.reset with valid := true, qmask := 1, tmask := 3 }) (0) (67110150) (4) (true) := by decide +kernel
theorem witness_Barriers_2 : (fun (s : State) (t w g : Nat) (ex : Bool) => (s.standsAt t ex 0x06 w) ∧ (bits w 8 4 = 5) ∧ (bits w 24 6 = g) ∧ (((s.tile t).stream ex).sent = false) ∧ (s.barCheck g t (s.tile t).tenant = none) ∧ ((s.tile t).coverOf ex = []) ∧ ((s.bar g).size = (s.bar g).arrived.length + 1) ∧ ((s.bar g).arrived.contains t = false) ∧ ((s.bar g).waiting = []) ∧ ((s.bar g).second = []) ∧ ((s.bar g).sigEn = false)) ((wOp true 67110150 id).setBar 4 { Barrier.reset with valid := true, qmask := 1, tmask := 3, arrived := [1] }) (0) (67110150) (4) (true) := by decide +kernel
theorem witness_Barriers_3 : (fun (s : State) (t w g : Nat) (ex : Bool) => (s.standsAt t ex 0x06 w) ∧ (bits w 8 4 = 6) ∧ (bits w 24 6 = g) ∧ (((s.tile t).stream ex).sent = false) ∧ (s.barCheck g t (s.tile t).tenant = none) ∧ ((s.tile t).coverOf ex = []) ∧ ((s.bar g).arrived.length + 1 < (s.bar g).size) ∧ ((s.bar g).arrived.contains t = false)) ((wOp true 67110406 id).setBar 4 { Barrier.reset with valid := true, qmask := 1, tmask := 3 }) (0) (67110406) (4) (true) := by decide +kernel
theorem witness_Barriers_4 : (fun (s : State) (t w g : Nat) (ex : Bool) => (s.standsAt t ex 0x06 w) ∧ (bits w 8 4 = 7) ∧ (bits w 24 6 = g) ∧ (((s.tile t).stream ex).sent = false) ∧ (s.barCheck g t (s.tile t).tenant = none) ∧ ((s.bar g).arrived.contains t = false)) ((wOp true 67110662 id).setBar 4 { Barrier.reset with valid := true, qmask := 1, tmask := 3 }) (0) (67110662) (4) (true) := by decide +kernel
theorem witness_Barriers_5 : (fun (s : State) (t w g : Nat) (ex : Bool) => (s.standsAt t ex 0x06 w) ∧ (bits w 8 4 = 7) ∧ (bits w 24 6 = g) ∧ (((s.tile t).stream ex).sent = false) ∧ (s.barCheck g t (s.tile t).tenant = none) ∧ ((s.bar g).arrived.contains t = true)) ((wOp true 67110662 id).setBar 4 { Barrier.reset with valid := true, qmask := 1, tmask := 3, arrived := [0] }) (0) (67110662) (4) (true) := by decide +kernel
theorem witness_PilotEvents_1 : (fun (s : State) (t : Nat) (k : CalCounts) => (s.pilot.frozen = false) ∧ (s.pilot.calAt + msTicks (max 1 s.pilot.winMs.toNat) ≤ t) ∧ (16 ≤ k.nS) ∧ (16 ≤ k.nT) ∧ (s.pilot.fix.getLsbD 0 = false) ∧ (0 < k.timeS * k.weights) ∧ (s.logging = false)) (wPil id) (msTicks 10) ({ macs := 4096, timeS := 10, weights := 64, timeT := 30, nS := 16, nT := 17 }) := by decide +kernel
theorem witness_PilotEvents_2 : (fun (s : State) (_t : Nat) (_ks : List CalCounts) => (s.pilot.frozen = true)) (wPil (fun p => { p with frozen := true })) (msTicks 10) ([]) := by decide +kernel
theorem witness_PilotEvents_3 : (fun (s : State) (busy : List Nat) (t k c a : Nat) (b : PilBlock) => (s.pilot.frozen = false) ∧ ((s.at t).coreRuns 66 = true) ∧ ((List.range busy.length).find? (fun k => decide (5 * busy.sum < 4 * busy.length * (busy[k]?).getD 0)) = some k) ∧ (leastBy (fun k => [(busy[k]?).getD 0, k]) ((List.range busy.length).filter (fun k => decide (0 < s.pcCount k))) = some c) ∧ (s.pilot.blocks = [b]) ∧ (s.pilot.moves = []) ∧ (b.berth = none) ∧ (b.tier2 = false) ∧ (b.unit = k) ∧ (b.pinned = false) ∧ ((s.at t).unitRange (s.at t).pilTaken c b.size = some a)) (wPil id) ([100] ++ List.replicate 11 1) (5) (0) (1) ((wPil id).stackBase 1) (wBlk) := by decide +kernel
theorem witness_PilotEvents_4 : (fun (s : State) (table i t a : Nat) (q : PilReq) (b : PilBlock) (loc : Nat) (br : Option Nat) => (s.pilot.queue = [q]) ∧ (q.table = table) ∧ (q.entry = i) ∧ (s.pilot.moves = []) ∧ ((s.at t).blockOf table i = some b) ∧ (b.pinned = false) ∧ (b.berth = none) ∧ (s.region (entryAddr table i) = .tier1) ∧ (table % 128 = 0) ∧ (entryAddr table i + 64 ≤ s.t1Top) ∧ (s.unitFenced (s.unitAt (entryAddr table i)) = false) ∧ (s.tiers.merge = []) ∧ (s.logging = false) ∧ (Mem.readBytes s.mem (entryAddr table i + 9) 1 = some [1]) ∧ (s.newHome q b = some (br, a, loc)) ∧ (a < 2 ^ 48) ∧ (loc < 64)) (wPil (fun p => { p with queue := [wReq] })) (0x10000) (0) (5) (0x30000) (wReq) (wBlk) (0) (none) := by decide +kernel
theorem witness_PilotEvents_5 : (fun (s : State) (table i _t : Nat) (m : PilMove) (bs : List Byte) => (s.pilot.moves = [m]) ∧ (m.table = table) ∧ (m.entry = i) ∧ (m.step = .copy 1) ∧ (m.failed = false) ∧ (m.berth = none) ∧ (m.todo = [0]) ∧ (m.dirty = []) ∧ (m.send = []) ∧ (m.outstanding = 0) ∧ (m.size = 64) ∧ (s.entryLost table i = false) ∧ (s.region m.new = .tier1) ∧ (m.new % 64 = 0) ∧ (m.new + 64 ≤ s.t1Top) ∧ (s.unitFenced (s.unitAt m.new) = false) ∧ (s.tiers.merge = []) ∧ (s.logging = false) ∧ (Mem.readBytes s.mem m.old 64 = some bs)) (let s := wPil (fun p => { p with moves := [wMove id] }); { s with mem := Mem.writeBytes s.mem 0x20000 wAtomB }) (0x10000) (0) (9) (wMove (fun m => m)) (wAtomB) := by decide +kernel
theorem witness_PilotEvents_6 : (fun (s : State) (table i _t : Nat) (m : PilMove) => (s.pilot.moves = [m]) ∧ (m.table = table) ∧ (m.entry = i) ∧ (m.step = .hold) ∧ (m.failed = false) ∧ (m.berth = none) ∧ (m.todo = []) ∧ (m.held = []) ∧ (m.send = []) ∧ (m.outstanding = 0) ∧ (m.issuer = none) ∧ (s.entryLost table i = false) ∧ (s.twinOn = false) ∧ (m.meets table (160 + 32 * i) = false) ∧ (s.region (entryAddr table i) = .tier1) ∧ (table % 128 = 0) ∧ (entryAddr table i + 64 ≤ s.t1Top) ∧ (s.unitFenced (s.unitAt (entryAddr table i)) = false) ∧ (s.tiers.merge = []) ∧ (s.logging = false)) (wPil (fun p => { p with moves := [wMove (fun m => { m with step := .hold, todo := [] })] })) (0x10000) (0) (9) (wMove (fun m => { m with step := .hold, todo := [] })) := by decide +kernel
theorem witness_PilotEvents_7 : (fun (s : State) (table i t : Nat) (m : PilMove) => (s.pilot.moves = [m]) ∧ (m.table = table) ∧ (m.entry = i) ∧ (m.step = .hold) ∧ (m.since + usTicks 100 < t) ∧ (m.held = []) ∧ (m.issuer = none) ∧ (s.region (entryAddr table i) = .tier1) ∧ (table % 128 = 0) ∧ (entryAddr table i + 64 ≤ s.t1Top) ∧ (s.unitFenced (s.unitAt (entryAddr table i)) = false) ∧ (s.tiers.merge = []) ∧ (s.logging = false)) (wPil (fun p => { p with moves := [wMove (fun m => { m with step := .hold, todo := [] })] })) (0x10000) (0) (2501) (wMove (fun m => { m with step := .hold, todo := [] })) := by decide +kernel
theorem witness_PilotEvents_8 : (fun (s : State) (table i t : Nat) (m : PilMove) => (s.pilot.moves = [m]) ∧ (m.table = table) ∧ (m.entry = i) ∧ (m.step = .hold) ∧ (s.time ≤ m.since + usTicks 100) ∧ (t ≤ m.since + usTicks 100)) (wPil (fun p => { p with moves := [wMove (fun m => { m with step := .hold, todo := [] })] })) (0x10000) (0) (2500) (wMove (fun m => { m with step := .hold, todo := [] })) := by decide +kernel
theorem witness_PilotEvents_9 : (fun (s : State) (table i _t : Nat) (m : PilMove) => (s.pilot.moves = [m]) ∧ (m.table = table) ∧ (m.entry = i) ∧ (m.step = .forward) ∧ (m.send = []) ∧ (m.outstanding = 0) ∧ (∀ g ∈ m.earlier, s.graphOf g = none)) (wPil (fun p => { p with moves := [wMove (fun m => { m with step := .forward, todo := [], earlier := [4] })] })) (0x10000) (0) (9) (wMove (fun m => { m with step := .forward, todo := [], earlier := [4] })) := by decide +kernel
theorem witness_PilotEvents_10 : (fun (s : State) (t : Nat) (p : PeerPlace) => (s.pilot.peerPlace = some p) ∧ (p.askedAt + msTicks 5 ≤ t) ∧ (p.berths.length ≤ p.refused + 1)) (wPil (fun x => { x with peerPlace := some { issuer := .func 0, homes := [], entries := [0], berths := [4], refused := 0, askedAt := 0 } })) (msTicks 5) ({ issuer := .func 0, homes := [], entries := [0], berths := [4], refused := 0, askedAt := 0 }) := by decide +kernel
theorem witness_ServingCommands_1 : (fun (s : State) (t q i w : Nat) (x : HwQueue) (m : SrvModel) (g : Nat) => ((s.at t).srvNext = some (q, x, w)) ∧ (s.hwq q = some x) ∧ (s.log.paused = false) ∧ (s.logging = false) ∧ ((s.at t).decisionAllowed 0x603 q = true) ∧ (x.head + 1 ≠ x.tail) ∧ (x.ringLoc = 1) ∧ (cmdOp w = 0) ∧ (cmdFormatOk s.fab.twinMode w = true) ∧ (cmdIndex w = i) ∧ (i < 2 ^ 20) ∧ (s.srvModel (byteField w 0x18 2 % 4096) = some m) ∧ (s.kvGeom (byteField w 0x18 2 % 4096) = some g) ∧ (m.tenant = x.tenant) ∧ (m.shared = false) ∧ (s.srvOwn i = true) ∧ ((s.srvE i).state = 0) ∧ (s.srvUsed x.tenant < (s.srvTenant x.tenant).quota.toNat) ∧ (4 ≤ byteField w 0x38 8 % 32) ∧ (byteField w 0x38 8 % 32 ≤ 16) ∧ (byteField w 0x30 8 ≠ 0) ∧ ((((s.at t).srvTook q x w).srvOpen x.tenant w i g false).toOption.isSome = true) ∧ (cmdRec w ≠ 0)) (wSrv 0x500400004000000010000000000000000009000000000000000000000002020000000000000000002000000000000000004d0000000300600801 0 (id)) (50) (9) (3) (0x500400004000000010000000000000000009000000000000000000000002020000000000000000002000000000000000004d0000000300600801) (wSq) (wSm 0) ((wSg 1).toNat) := by decide +kernel
theorem witness_ServingCommands_2 : (fun (s : State) (t q i w : Nat) (x : HwQueue) (g : Nat) => ((s.at t).srvNext = some (q, x, w)) ∧ (s.hwq q = some x) ∧ (s.log.paused = false) ∧ (s.logging = false) ∧ ((s.at t).decisionAllowed 0x603 q = true) ∧ (x.head + 1 ≠ x.tail) ∧ (x.ringLoc = 1) ∧ (cmdOp w = 1) ∧ (cmdFormatOk s.fab.twinMode w = true) ∧ (cmdIndex w = i) ∧ (i < 2 ^ 20) ∧ (s.srvOwn i = true) ∧ ((s.srvE i).tenant = x.tenant) ∧ (s.srvCached i = true) ∧ (cmdRec w ≠ 0) ∧ ((s.srvE i).state = 1) ∧ (s.kvGeom (s.srvE i).model = some g) ∧ (s.ptPages (s.srvE i).pt = byteField w 0x20 4 / 32 + 1) ∧ (s.ptSummed (s.srvE i).pt = byteField w 0x20 4 / 32)) (wSrv 0x9000000000000000500000000000000000000000000002000000000000000004d0000000301600801 0x40000000000000000000050040000400000001000ffffffff00000000000000000000000000000000000000550000000000000001 (fun s => { s with mem := Mem.writeBytes s.mem 0x400000001008 [1] })) (50) (9) (3) (0x9000000000000000500000000000000000000000000002000000000000000004d0000000301600801) (wSq) ((wSg 1).toNat) := by decide +kernel
theorem witness_ServingCommands_3 : (fun (s : State) (t q i w : Nat) (x : HwQueue) => ((s.at t).srvNext = some (q, x, w)) ∧ (s.hwq q = some x) ∧ (s.log.paused = false) ∧ (s.logging = false) ∧ ((s.at t).decisionAllowed 0x603 q = true) ∧ (x.head + 1 ≠ x.tail) ∧ (x.ringLoc = 1) ∧ (cmdOp w = 2) ∧ (cmdFormatOk s.fab.twinMode w = true) ∧ (cmdIndex w = i) ∧ (i < 2 ^ 20) ∧ (s.srvOwn i = true) ∧ ((s.srvE i).tenant = x.tenant) ∧ (s.srvCached i = true) ∧ (cmdRec w ≠ 0) ∧ ((s.srvE i).state ≠ 0) ∧ ((s.srvE i).held = false) ∧ ((cmdArg w + 2 ^ 32 - (s.srvE i).tail) % 2 ^ 32 ≤ 2 ^ (s.srvE i).ringLog)) (wSrv 0x2000000000100000004d0000000302600801 0x40000000000000000000050040000400000001000ffffffff00000000000000000000000000000000000000550000000000000002 (id)) (50) (9) (3) (0x2000000000100000004d0000000302600801) (wSq) := by decide +kernel
theorem witness_ServingCommands_4 : (fun (s : State) (t q i w : Nat) (x : HwQueue) => ((s.at t).srvNext = some (q, x, w)) ∧ (s.hwq q = some x) ∧ (s.log.paused = false) ∧ (s.logging = false) ∧ ((s.at t).decisionAllowed 0x603 q = true) ∧ (x.head + 1 ≠ x.tail) ∧ (x.ringLoc = 1) ∧ (cmdOp w = 2) ∧ (cmdFormatOk s.fab.twinMode w = true) ∧ (cmdIndex w = i) ∧ (i < 2 ^ 20) ∧ (s.srvOwn i = true) ∧ ((s.srvE i).tenant = x.tenant) ∧ (s.srvCached i = true) ∧ (cmdRec w ≠ 0) ∧ ((s.srvE i).state ≠ 0) ∧ ((s.srvE i).held = false) ∧ (2 ^ (s.srvE i).ringLog < (cmdArg w + 2 ^ 32 - (s.srvE i).tail) % 2 ^ 32)) (wSrv 0x2000000000110000004d0000000302600801 0x40000000000000000000050040000400000001000ffffffff00000000000000000000000000000000000000550000000000000002 (id)) (50) (9) (3) (0x2000000000110000004d0000000302600801) (wSq) := by decide +kernel
theorem witness_ServingCommands_5 : (fun (s : State) (t q i w : Nat) (x : HwQueue) (g : Nat) => ((s.at t).srvNext = some (q, x, w)) ∧ (s.hwq q = some x) ∧ (s.log.paused = false) ∧ (s.logging = false) ∧ ((s.at t).decisionAllowed 0x603 q = true) ∧ (x.head + 1 ≠ x.tail) ∧ (x.ringLoc = 1) ∧ (cmdOp w = 3) ∧ (cmdFormatOk s.fab.twinMode w = true) ∧ (cmdIndex w = i) ∧ (i < 2 ^ 20) ∧ (s.srvOwn i = true) ∧ ((s.srvE i).tenant = x.tenant) ∧ (s.srvCached i = true) ∧ (cmdRec w ≠ 0) ∧ ((s.srvE i).state = 2) ∧ (s.kvGeom (s.srvE i).model = some g) ∧ (kvLazy g = true)) (wSrv 0x20000000000a0000004d0000000303600801 0x40000000000000000000050040000400000001000ffffffff00000000000000000000000000000000000000550000000000000002 (id)) (50) (9) (3) (0x20000000000a0000004d0000000303600801) (wSq) ((wSg 1).toNat) := by decide +kernel
theorem witness_ServingCommands_6 : (fun (s : State) (t q i w : Nat) (x : HwQueue) => ((s.at t).srvNext = some (q, x, w)) ∧ (s.hwq q = some x) ∧ (s.log.paused = false) ∧ (s.logging = false) ∧ ((s.at t).decisionAllowed 0x603 q = true) ∧ (x.head + 1 ≠ x.tail) ∧ (x.ringLoc = 1) ∧ (cmdOp w = 3) ∧ (cmdFormatOk s.fab.twinMode w = true) ∧ (cmdIndex w = i) ∧ (i < 2 ^ 20) ∧ (s.srvOwn i = true) ∧ ((s.srvE i).tenant = x.tenant) ∧ (s.srvCached i = true) ∧ (cmdRec w ≠ 0) ∧ ((s.srvE i).state = 3)) (wSrv 0x20000000000a0000004d0000000303600801 0x40000000000000000000050040000400000001000ffffffff00000000000000000000000000000000000000550000000000000003 (id)) (50) (9) (3) (0x20000000000a0000004d0000000303600801) (wSq) := by decide +kernel
theorem witness_ServingCommands_7 : (fun (s : State) (t q i w : Nat) (x : HwQueue) (g : Nat) => ((s.at t).srvNext = some (q, x, w)) ∧ (s.hwq q = some x) ∧ (s.log.paused = false) ∧ (s.logging = false) ∧ ((s.at t).decisionAllowed 0x603 q = true) ∧ (x.head + 1 ≠ x.tail) ∧ (x.ringLoc = 1) ∧ (cmdOp w = 4) ∧ (cmdFormatOk s.fab.twinMode w = true) ∧ (cmdIndex w = i) ∧ (i < 2 ^ 20) ∧ (s.srvOwn i = true) ∧ ((s.srvE i).tenant = x.tenant) ∧ (s.srvCached i = true) ∧ (cmdRec w ≠ 0) ∧ ((s.srvE i).state = 4) ∧ (s.kvGeom (s.srvE i).model = some g) ∧ (s.ptParked (s.srvE i).pt = false)) (wSrv 0x2000000000000000004d0000000304600801 0x3e7000000040000000000000000000050040000400000001000ffffffff00000000000000000000000000000000000000550000000000000004 (id)) (50) (9) (3) (0x2000000000000000004d0000000304600801) (wSq) ((wSg 1).toNat) := by decide +kernel
theorem witness_ServingCommands_8 : (fun (s : State) (t q i w : Nat) (x : HwQueue) => ((s.at t).srvNext = some (q, x, w)) ∧ (s.hwq q = some x) ∧ (s.log.paused = false) ∧ (s.logging = false) ∧ ((s.at t).decisionAllowed 0x603 q = true) ∧ (x.head + 1 ≠ x.tail) ∧ (x.ringLoc = 1) ∧ (cmdOp w = 5) ∧ (cmdFormatOk s.fab.twinMode w = true) ∧ (cmdIndex w = i) ∧ (i < 2 ^ 20) ∧ (s.srvOwn i = true) ∧ ((s.srvE i).tenant = x.tenant) ∧ (s.srvCached i = true) ∧ (cmdRec w ≠ 0) ∧ ((s.srvE i).state = 2)) (wSrv 0x2000000000000000004d0000000305600801 0x40000000000000000000050040000400000001000ffffffff00000000000000000000000000000000000000550000000000000002 (id)) (50) (9) (3) (0x2000000000000000004d0000000305600801) (wSq) := by decide +kernel
theorem witness_ServingCommands_9 : (fun (s : State) (t q i w : Nat) (x : HwQueue) => ((s.at t).srvNext = some (q, x, w)) ∧ (s.hwq q = some x) ∧ (s.log.paused = false) ∧ (s.logging = false) ∧ ((s.at t).decisionAllowed 0x603 q = true) ∧ (x.head + 1 ≠ x.tail) ∧ (x.ringLoc = 1) ∧ (cmdOp w = 5) ∧ (cmdFormatOk s.fab.twinMode w = true) ∧ (cmdIndex w = i) ∧ (i < 2 ^ 20) ∧ (s.srvOwn i = true) ∧ ((s.srvE i).tenant = x.tenant) ∧ (s.srvCached i = true) ∧ (cmdRec w ≠ 0) ∧ ((s.srvE i).state = 3)) (wSrv 0x2000000000000000004d0000000305600801 0x40000000000000000000050040000400000001000ffffffff00000000000000000000000000000000000000550000000000000003 (id)) (50) (9) (3) (0x2000000000000000004d0000000305600801) (wSq) := by decide +kernel
theorem witness_ServingCommands_10 : (fun (s : State) (t q i w : Nat) (x : HwQueue) => ((s.at t).srvNext = some (q, x, w)) ∧ (s.hwq q = some x) ∧ (s.log.paused = false) ∧ (s.logging = false) ∧ ((s.at t).decisionAllowed 0x603 q = true) ∧ (x.head + 1 ≠ x.tail) ∧ (x.ringLoc = 1) ∧ (cmdOp w = 6) ∧ (cmdFormatOk s.fab.twinMode w = true) ∧ (cmdIndex w = i) ∧ (i < 2 ^ 20) ∧ (s.srvOwn i = true) ∧ ((s.srvE i).tenant = x.tenant) ∧ (s.srvCached i = true) ∧ (cmdRec w ≠ 0)) (wSrv 0x2000000000000000004d0000000306600801 0x40000000000000000000050040000400000001000ffffffff00000000000000000000000000000000000000550000000000000005 (id)) (50) (9) (3) (0x2000000000000000004d0000000306600801) (wSq) := by decide +kernel
theorem witness_ServingCommands_11 : (fun (s : State) (t q i w : Nat) (x : HwQueue) => ((s.at t).srvNext = some (q, x, w)) ∧ (s.hwq q = some x) ∧ (s.log.paused = false) ∧ (s.logging = false) ∧ ((s.at t).decisionAllowed 0x603 q = true) ∧ (x.head + 1 ≠ x.tail) ∧ (x.ringLoc = 1) ∧ (cmdOp w = 7) ∧ (cmdFormatOk s.fab.twinMode w = true) ∧ (cmdIndex w = i) ∧ (i < 2 ^ 20) ∧ (s.srvOwn i = true) ∧ ((s.srvE i).tenant = x.tenant) ∧ (s.srvCached i = true) ∧ (cmdRec w ≠ 0) ∧ ((s.srvE i).state ≠ 0)) (wSrv 0x2000000000050000004d0000000307600801 0x40000000000000000000050040000400000001000ffffffff00000000000000000000000000000000000000550000000000000002 (id)) (50) (9) (3) (0x2000000000050000004d0000000307600801) (wSq) := by decide +kernel
theorem witness_ServingCommands_12 : (fun (s : State) (t q i w : Nat) (x : HwQueue) => ((s.at t).srvNext = some (q, x, w)) ∧ (s.hwq q = some x) ∧ (s.log.paused = false) ∧ (s.logging = false) ∧ ((s.at t).decisionAllowed 0x603 q = true) ∧ (x.head + 1 ≠ x.tail) ∧ (x.ringLoc = 1) ∧ (cmdOp w = 8) ∧ (cmdFormatOk s.fab.twinMode w = true) ∧ (cmdIndex w = i) ∧ (i < 2 ^ 20) ∧ (s.srvOwn i = true) ∧ ((s.srvE i).tenant = x.tenant) ∧ (s.srvCached i = true) ∧ (cmdRec w ≠ 0) ∧ (s.fab.twinMode = true) ∧ ((s.srvE i).state ≠ 0) ∧ ((s.srvE i).held = true) ∧ (4 ≤ byteField w 0x38 8 % 32) ∧ (byteField w 0x38 8 % 32 ≤ 16) ∧ (cmdArg w ≤ 2 ^ (byteField w 0x38 8 % 32))) (wSrv 0x700400000000000000000000000000000000000000000000000000000000000000000000000000002000000000050000004d0000000308600801 0x40000000000000000000050040000400000001000ffffffff00000000000000000000000000000000000000550000000000000002 (fun s => { s with fab := { s.fab with twinMode := true }, serving := { s.serving with entries := [(3, { wSe 0x40000000000000000000050040000400000001000ffffffff00000000000000000000000000000000000000550000000000000002 with held := true, taken := true })] } })) (50) (9) (3) (0x700400000000000000000000000000000000000000000000000000000000000000000000000000002000000000050000004d0000000308600801) (wSq) := by decide +kernel
theorem witness_ServingCommands_13 : (fun (s : State) (t q _i w : Nat) (x : HwQueue) => ((s.at t).srvNext = some (q, x, w)) ∧ (s.hwq q = some x) ∧ (s.log.paused = false) ∧ (s.logging = false) ∧ ((s.at t).decisionAllowed 0x603 q = true) ∧ (x.head + 1 ≠ x.tail) ∧ (x.ringLoc = 1) ∧ (cmdOp w = 2) ∧ (cmdFormatOk s.fab.twinMode w = false) ∧ (cmdRec w ≠ 0)) (wSrv 0x100000000000000000000000000000000000000000000000000002000000000100000004d0000000302600801 0x40000000000000000000050040000400000001000ffffffff00000000000000000000000000000000000000550000000000000002 (id)) (50) (9) (3) (0x100000000000000000000000000000000000000000000000000002000000000100000004d0000000302600801) (wSq) := by decide +kernel
theorem witness_ServingSteps_1 : (fun (s : State) (model stage t slot : Nat) (m : SrvModel) (h : HwQueue) => (s.serving.inFlight = []) ∧ (s.srvModel model = some m) ∧ ((s.at t).srvSlot model stage = some slot) ∧ ((s.at t).srvGroups.contains (model, stage) = true) ∧ (s.hwq m.queue = some h) ∧ (s.launchRoom m.queue = true) ∧ (s.logging = false) ∧ (s.log.held = false)) (wSrv 0 0x1000000040000000000000000000050040000400000001000ffffffff00000000000000000000000000000000000000550000000000000002 (fun s => { s with serving := { s.serving with models := [(0, { tenant := 0, words := BitVec.ofNat 4608 0x3400330001000040000000a0000000400000009000000003e80001000100000000000000000000000000000000000000000000000000000000000000000000000000000000000000000000000000000000000000050001000000000000 })] } })) (0) (0) (50000) (0) ({ tenant := 0, words := BitVec.ofNat 4608 0x3400330001000040000000a0000000400000009000000003e80001000100000000000000000000000000000000000000000000000000000000000000000000000000000000000000000000000000000000000000050001000000000000 }) (wQ) := by decide +kernel
theorem witness_ServingSteps_3 : (fun (s : State) (step i _t : Nat) (x : SrvStep) (m : SrvModel) => (s.serving.inFlight = [x]) ∧ (x.stepNo = BitVec.ofNat 32 step) ∧ (x.delivered = false) ∧ (x.rows = [i]) ∧ (x.result = some 0) ∧ (s.srvModel x.model = some m) ∧ ((s.srvE i).state = 3) ∧ ((s.srvE i).flag 0 = false) ∧ ((s.srvE i).flag 2 = false) ∧ ((s.srvE i).flag 3 = false) ∧ ((s.srvE i).flag 4 = false) ∧ (x.stage + 1 < m.stages)) (wSrv 0 0x40000000000000000000050040000400000001000ffffffff00000000000000000000000000000000000000550000000000000003 (fun s => { s with serving := { s.serving with inFlight := [wStep (fun x => { x with result := some 0 })], models := [(0, { tenant := 0, words := BitVec.ofNat 4608 0x100010000000000000000000000000000000000000000000000000000000000000000000000000000000000000000000000000000000000000000000003e80001000100000000000000000000000000000000000000000000000000000000000000000000000000000000000000000000000000000000000000050002000000000000 })] } })) (7) (3) (50) (wStep (fun x => { x with result := some 0 })) ({ tenant := 0, words := BitVec.ofNat 4608 0x100010000000000000000000000000000000000000000000000000000000000000000000000000000000000000000000000000000000000000000000003e80001000100000000000000000000000000000000000000000000000000000000000000000000000000000000000000000000000000000000000000050002000000000000 }) := by decide +kernel
theorem witness_ServingSteps_4 : (fun (s : State) (step i _t : Nat) (x : SrvStep) (m : SrvModel) (er : Status) => (s.serving.inFlight = [x]) ∧ (x.stepNo = BitVec.ofNat 32 step) ∧ (x.delivered = false) ∧ (x.rows = [i]) ∧ (x.result = some er) ∧ (s.srvModel x.model = some m) ∧ ((s.srvE i).state = 3) ∧ ((s.srvE i).flag 0 = false) ∧ ((s.srvE i).flag 2 = false) ∧ ((s.srvE i).flag 3 = false) ∧ ((s.srvE i).flag 4 = false) ∧ (statusClass er ≠ 0) ∧ ((s.srvE i).flag 5 = false)) (wSrv 0 0x40000000000000000000050040000400000001000ffffffff00000000000000000000000000000000000000550000000000000003 (fun s => { s with serving := { s.serving with inFlight := [wStep (fun x => { x with result := some ST_TILE_ABORTED })], models := [(0, wSm 0)] } })) (7) (3) (50) (wStep (fun x => { x with result := some ST_TILE_ABORTED })) (wSm 0) (ST_TILE_ABORTED) := by decide +kernel
theorem witness_ServingSteps_5 : (fun (s : State) (step i _t : Nat) (x : SrvStep) (m : SrvModel) (er : Status) => (s.serving.inFlight = [x]) ∧ (x.stepNo = BitVec.ofNat 32 step) ∧ (x.delivered = false) ∧ (x.rows = [i]) ∧ (x.result = some er) ∧ (s.srvModel x.model = some m) ∧ ((s.srvE i).state = 3) ∧ ((s.srvE i).flag 0 = false) ∧ ((s.srvE i).flag 2 = false) ∧ ((s.srvE i).flag 3 = false) ∧ ((s.srvE i).flag 4 = false) ∧ (statusClass er ≠ 0) ∧ ((s.srvE i).flag 5 = true) ∧ (s.serving.outs = [])) (wSrv 0 0x40000000000000000000050040000400000001000ffffffff00000000000000000000000000000004000000550000000000002003 (fun s => { s with serving := { s.serving with inFlight := [wStep (fun x => { x with result := some ST_TILE_ABORTED })], models := [(0, wSm 0)] } })) (7) (3) (50) (wStep (fun x => { x with result := some ST_TILE_ABORTED })) (wSm 0) (ST_TILE_ABORTED) := by decide +kernel
theorem witness_ServingSteps_6 : (fun (s : State) (step i _t : Nat) (x : SrvStep) (m : SrvModel) (tok lp : Nat) => (s.serving.inFlight = [x]) ∧ (x.stepNo = BitVec.ofNat 32 step) ∧ (x.delivered = false) ∧ (x.rows = [i]) ∧ (x.result = some 0) ∧ (s.srvModel x.model = some m) ∧ ((s.srvE i).state = 3) ∧ ((s.srvE i).flag 0 = false) ∧ ((s.srvE i).flag 2 = false) ∧ ((s.srvE i).flag 3 = false) ∧ ((s.srvE i).flag 4 = false) ∧ (m.stages = x.stage + 1) ∧ (s.serving.outs = []) ∧ (s.tiers.merge = []) ∧ (s.logging = false) ∧ (tok < 2 ^ 32) ∧ (lp < 2 ^ 32) ∧ (Mem.readBytes s.mem (m.block x.stage x.slot + 0x58) 8 = some (bytesOfNat 4 tok ++ bytesOfNat 4 lp)) ∧ (((s.srvE i).pos + 1) % 32 ≠ 0) ∧ ((s.srvE i).pos + 1 < 2 ^ 32) ∧ ((s.srvE i).cause tok (((s.srvE i).f 0x10 4 + 1) % 2 ^ 32) = 0)) (let s := wSrv 0 0x40000000000000000000050040000400000001000ffffffff00000000000000000000000000000004000000550000000000000003 (fun s => { s with serving := { s.serving with inFlight := [wStep (fun x => { x with result := some 0 })], models := [(0, { tenant := 0, words := BitVec.ofNat 4608 0x3400330001000040000000a0000000400000009000000003e80001000100000000000000000000000000000000000000000000000000000000000000000000000000000000000000000000000000000000000000050001000000000000 })] } }); { s with mem := Mem.writeBytes s.mem 70368744214616 (bytesOfNat 4 9 ++ bytesOfNat 4 5) }) (7) (3) (50) (wStep (fun x => { x with result := some 0 })) ({ tenant := 0, words := BitVec.ofNat 4608 0x3400330001000040000000a0000000400000009000000003e80001000100000000000000000000000000000000000000000000000000000000000000000000000000000000000000000000000000000000000000050001000000000000 }) (9) (5) := by decide +kernel
theorem witness_ServingSteps_7 : (fun (s : State) (i _t : Nat) (o : SrvOut) => (s.serving.outs = [o]) ∧ (o.entry = i) ∧ (o.step = none) ∧ (s.twinOn = false) ∧ (o.next = 2) ∧ ((s.srvE i).tail ≠ (s.srvE i).limit) ∧ ((s.srvE i).held = false) ∧ ((s.srvE i).flag 3 = false) ∧ ((s.srvE i).flag 4 = false) ∧ ((s.srvE i).tail + 1 < 2 ^ 32)) (wSrv 0 0x40000000000000000000050040000400000001000ffffffff00000000000000000000000000000000000000550000000000000003 (fun s => { s with serving := { s.serving with outs := [wOut] } })) (3) (50) (wOut) := by decide +kernel
theorem witness_ServingSteps_8 : (fun (s : State) (i _t : Nat) (o : SrvOut) => (s.serving.outs = [o]) ∧ (o.entry = i) ∧ (o.step = none) ∧ ((s.srvE i).tail = (s.srvE i).limit)) (wSrv 0 0x40000000400000000000050040000400000001000ffffffff00000000000000000000000000000000000000550000000000000203 (fun s => { s with serving := { s.serving with outs := [wOut] } })) (3) (50) (wOut) := by decide +kernel
theorem witness_ServingSteps_9 : (fun (s : State) (i _t : Nat) (o : SrvOut) => (s.serving.outs = [o]) ∧ (o.entry = i) ∧ (o.step = none) ∧ ((s.srvE i).flag 3 = false)) (wSrv 0 0x40000000000000000000050040000400000001000ffffffff00000000000000000000000000000000000000550000000000000003 (fun s => { s with serving := { s.serving with outs := [wOut] } })) (3) (50) (wOut) := by decide +kernel
theorem witness_ServingSteps_10 : (fun (s : State) (i t : Nat) => ((s.srvE i).state = 4) ∧ ((s.srvE i).time ≤ t) ∧ (s.srvCopying i = false) ∧ (s.srvOwn i = true) ∧ (s.logging = false) ∧ (s.log.held = false)) (wSrv 0 0x28000000040000000000000000000050040000400000001000ffffffff00000000000000000000000000000000000000550000000000000004 id) (3) (40) := by decide +kernel
theorem witness_ServingSteps_11 : (fun (s : State) (i t : Nat) => ((s.srvE i).state = 4) ∧ (max s.time t < (s.srvE i).time)) (wSrv 0 0x28000000040000000000000000000050040000400000001000ffffffff00000000000000000000000000000000000000550000000000000004 id) (3) (39) := by decide +kernel
theorem witness_ServingSteps_12 : (fun (s : State) (i t g : Nat) (c : KvCopy) => (s.kv.copies = [c]) ∧ (c.entry = i) ∧ (s.kvGeom (s.srvE i).model = some g) ∧ (kvPeer g = false) ∧ (c.resume = false) ∧ (c.failed = false) ∧ ((State.kvCopyOut i c.image ((s.at t).kvParts g i (s.srvE i).pos ((s.at t).ptSummed (s.srvE i).pt)) (s.at t)).1 = true)) (wSrv 0 0x40000000000000000000050040000400000001000ffffffff00000000000000000000000000000000000000550000000000000002 (fun s => { s with kv := { s.kv with copies := [{ entry := 3, resume := false, image := 0x400000008000, size := 0, since := 0, arg := 10, command := some (9, 0x2000000000000000004d0000000303600801), sent := 0, outstanding := 0, got := [], failed := false }] } })) (3) (50) ((wSg 1).toNat) ({ entry := 3, resume := false, image := 0x400000008000, size := 0, since := 0, arg := 10, command := some (9, 0x2000000000000000004d0000000303600801), sent := 0, outstanding := 0, got := [], failed := false }) := by decide +kernel
theorem witness_ServingSteps_13 : (fun (s : State) (i _t g : Nat) (c : KvCopy) => (s.kv.copies = [c]) ∧ (c.entry = i) ∧ (s.kvGeom (s.srvE i).model = some g) ∧ (kvPeer g = false) ∧ (c.resume = false) ∧ (c.failed = true)) (wSrv 0 0x40000000000000000000050040000400000001000ffffffff00000000000000000000000000000000000000550000000000000002 (fun s => { s with kv := { s.kv with copies := [{ entry := 3, resume := false, image := 0x400000008000, size := 0, since := 0, arg := 10, command := some (9, 0x2000000000000000004d0000000303600801), sent := 0, outstanding := 0, got := [], failed := true }] } })) (3) (50) ((wSg 1).toNat) ({ entry := 3, resume := false, image := 0x400000008000, size := 0, since := 0, arg := 10, command := some (9, 0x2000000000000000004d0000000303600801), sent := 0, outstanding := 0, got := [], failed := true }) := by decide +kernel
theorem witness_ServingSteps_14 : (fun (s : State) (t : Nat) (x : SrvTenant) => (s.serving.slowAt + msTicks (max 1 s.serving.slowWin.toNat) ≤ t) ∧ (s.serving.tenants = [(6, x)]) ∧ (x.solo ≠ 0) ∧ (x.meas ≠ 0) ∧ (s.serving.slowThresh.toNat ≤ min 0xFFFF (256 * x.meas / x.solo)) ∧ (x.fired = false) ∧ (max 1 s.serving.slowConsec.toNat ≤ x.consec + 1)) ({ State.reset with serving := { State.reset.serving with tenants := [(6, { SrvTenant.reset with meas := 500, solo := 100, consec := 2 })] } }) (msTicks 100) ({ SrvTenant.reset with meas := 500, solo := 100, consec := 2 }) := by decide +kernel
theorem witness_PreemptionAndSpill_1 : (fun (s : State) (t : Nat) (cands : List Placement) (rows : List (Option Nat)) (h : Nat × Nat) (g : GraphRun) (n : NodeSt) (es : List Nat) (vs : List (Nat × Nat)) => ((s.at t).headNode = some h) ∧ (s.graphOf h.1 = some g) ∧ (s.nodeOf h.1 h.2 = some n) ∧ (s.graph.preempt = none) ∧ (n.isTile = true) ∧ (n.phase = .waiting) ∧ (n.pin ≠ none) ∧ (n.claim = []) ∧ ((s.graph.graphs.map (fun g => (g.2.nodes.filter (fun n => n.2.phase == .spilled)).length)).sum < 255) ∧ (((s.at t).readTable g.tenant (ndWork n.w) 64 (ndStages n.w)).1.toOption = some es) ∧ (((s.at t).readTable g.tenant (ndWork n.w) 64 (ndStages n.w)).2.placesWith h.1 h.2 g.tenant n es cands rows [] = false) ∧ (enoughVictims (((s.at t).readTable g.tenant (ndWork n.w) 64 (ndStages n.w)).2.placesWith h.1 h.2 g.tenant n es cands rows) [] (s.victims g.prio) = some vs)) (wTwo (fun n => { n with words := BitVec.ofNat 512 (2 ^ 288 + 2 ^ 24) }) (fun n => { n with memops := 16384 }) none) (25000) ([[]]) ([]) ((1, 0)) (((wTwo (fun n => { n with words := BitVec.ofNat 512 (2 ^ 288 + 2 ^ 24) }) (fun n => { n with memops := 16384 }) none).graphOf 1).getD (graphRun (wEnt 0) 0 0 false)) (((wTwo (fun n => { n with words := BitVec.ofNat 512 (2 ^ 288 + 2 ^ 24) }) (fun n => { n with memops := 16384 }) none).nodeOf 1 0).getD (freshNode 0x1000000 0)) ([]) ([(2, 4)]) := by decide +kernel
theorem witness_PreemptionAndSpill_2 : (fun (s : State) (t : Nat) (p : Preemption) (v : Nat × Nat) => (s.graph.preempt = some p) ∧ (p.copying = none) ∧ (p.since + usTicks (max 1 s.serving.stopUs.toNat) ≤ t) ∧ (p.victims.all (fun v => s.victimAlive v && !s.victimStopped v) = true) ∧ (p.victims = [v]) ∧ (s.victimAlive v = true) ∧ (s.logging = false) ∧ (s.log.held = false)) (wTwo id id (some { head := (1, 0), victims := [(2, 4)], since := 0, copying := none })) (usTicks 2000) ({ head := (1, 0), victims := [(2, 4)], since := 0, copying := none }) ((2, 4)) := by decide +kernel
theorem witness_PreemptionAndSpill_3 : (fun (s : State) (_t : Nat) (p : Preemption) => (s.graph.preempt = some p) ∧ (p.copying = none) ∧ (p.victims.all (fun v => s.victimAlive v && s.victimStopped v) = true) ∧ (p.victims.all (fun v => (s.nodeTiles v).all (fun k => (s.tile k).job.isNone)) = true) ∧ ((∀ v ∈ p.victims, (s.nodeOf v.1 v.2).map (·.spill) = some []))) (let s := wTwo id id (some { head := (1, 0), victims := [(2, 4)], since := 0, copying := none }); { s with tiles := [(3, { Tile.reset with mode := .stopped })] }) (9) ({ head := (1, 0), victims := [(2, 4)], since := 0, copying := none }) := by decide +kernel
theorem witness_PreemptionAndSpill_4 : (fun (s : State) (_t : Nat) (p : Preemption) (v : Nat × Nat) => (s.graph.preempt = some p) ∧ (p.copying ≠ none) ∧ (p.victims = [v]) ∧ (s.victimAlive v = true)) (let s := wTwo id id (some { head := (1, 0), victims := [(2, 4)], since := 0, copying := (some 1) }); { s with tiles := [(3, { Tile.reset with mode := .stopped })] }) (9) ({ head := (1, 0), victims := [(2, 4)], since := 0, copying := (some 1) }) ((2, 4)) := by decide +kernel
theorem witness_PreemptionAndSpill_5 : (fun (s : State) (seq node _t : Nat) (n : NodeSt) => (s.nodeOf seq node = some n) ∧ (n.phase = .restoring) ∧ (n.spill = []) ∧ (n.held.all (fun k => !(s.quay (k / 64)).parked && !(s.quay (k / 64)).pace.unparking) = true)) (let s := wTwo id (fun n => { n with phase := .restoring }) none; { s with tiles := [(3, { Tile.reset with mode := .stopped })] }) (2) (4) (9) ({ freshNode 0x1000000 0 with phase := .restoring, held := [3], form := some false }) := by decide +kernel
theorem witness_FabricPackets_1 : (fun (s : State) (p _t : Nat) (f : BitVec 1024) => (p < 16) ∧ ((s.port p).state = 2) ∧ ((s.port p).credits ≠ []) ∧ (crc64 (bytesOfNat 120 f.toNat) ≠ bits f.toNat 960 64)) (wFab (fun x => { x with ports := [(3, wPort (fun p => p))] })) (3) (9) (1) := by decide +kernel
theorem witness_FabricPackets_2 : (fun (s : State) (p _t : Nat) (f : BitVec 1024) => (p < 16) ∧ ((s.port p).state = 2) ∧ ((s.port p).credits ≠ []) ∧ (crc64 (bytesOfNat 120 f.toNat) = bits f.toNat 960 64) ∧ (bits f.toNat 0 12 ≠ (s.port p).rxSeq.toNat)) (wFab (fun x => { x with ports := [(3, wPort (fun p => { p with rxSeq := 4 }))] })) (3) (9) ((wPort id).flit (wPkt id).toSlots true) := by decide +kernel
theorem witness_FabricPackets_3 : (fun (s : State) (p _t : Nat) (f : BitVec 1024) (q : Packet) => (p < 16) ∧ ((s.port p).state = 2) ∧ ((s.port p).credits ≠ []) ∧ (crc64 (bytesOfNat 120 f.toNat) = bits f.toNat 960 64) ∧ (bits f.toNat 0 12 = (s.port p).rxSeq.toNat) ∧ (bit f.toNat 44 = false) ∧ ((s.port p).partialSlots = []) ∧ ((match frontOf (((List.range 14).map (fun i => BitVec.ofNat 64 (bits f.toNat (64 + 64 * i) 64))).drop (bits f.toNat 40 4)) with | .packet x r => decide (x = q) && r.all (fun w => w == 0) | _ => false) = true) ∧ (s.isSelf q.dstH q.dstB = true) ∧ (s.fab.waitQ = []) ∧ (s.logging = false)) (wFab (fun x => { x with ports := [(3, wPort (fun p => p))] })) (3) (9) ((wPort id).flit (wPkt id).toSlots true) (wPkt id) := by decide +kernel
theorem witness_FabricPackets_4 : (fun (s : State) (_t k : Nat) (q : Packet) (bs : List Byte) => (s.fab.inbox = [(k, q)]) ∧ (q.ptype = 1) ∧ (q.vc ≠ 3) ∧ (s.logging = false) ∧ (s.log.held = false) ∧ (regAt q.loc = none) ∧ (regAt (q.loc + (q.len + 1) - 1) = none) ∧ (s.accessCheck q.tenant false q.loc (q.len + 1) = none) ∧ (s.pilot.moves = []) ∧ (s.tiers.merge = []) ∧ (s.memReady true q.loc (q.len + 1) = true) ∧ (Mem.readBytes s.mem q.loc (q.len + 1) = some bs)) (wFab (fun f => { f with inbox := [(16, wPkt (fun p => p))] })) (9) (16) (wPkt (fun p => p)) ((List.range 8).map (fun i => BitVec.ofNat 8 i)) := by decide +kernel
theorem witness_FabricPackets_5 : (fun (s : State) (t k : Nat) (q : Packet) (e : Status) => (s.fab.inbox = [(k, q)]) ∧ (q.ptype = 1) ∧ (q.vc ≠ 3) ∧ (s.logging = false) ∧ (s.log.held = false) ∧ (regAt q.loc = none) ∧ (regAt (q.loc + (q.len + 1) - 1) = none) ∧ ((s.at t).accessCheck q.tenant false q.loc (q.len + 1) = some e) ∧ (s.memReady true q.loc (q.len + 1) = true)) (wFab (fun f => { f with inbox := [(16, wPkt (fun p => { p with tenant := 6 }))] })) (9) (16) (wPkt (fun p => { p with tenant := 6 })) (ST_ISO_ADDRESS) := by decide +kernel
theorem witness_FabricPackets_6 : (fun (s : State) (_t k : Nat) (q : Packet) (j : Nat) => (s.fab.inbox = [(k, q)]) ∧ (q.ptype = 2) ∧ (q.vc ≠ 3) ∧ (s.logging = false) ∧ (s.log.held = false) ∧ (regAt q.loc = none) ∧ (regAt (q.loc + q.data.length - 1) = none) ∧ (s.accessCheck q.tenant true q.loc q.data.length = none) ∧ (s.pilot.moves = []) ∧ (s.tiers.merge = []) ∧ (s.region q.loc = .spad j) ∧ (q.loc % 8 = 0) ∧ (q.data.length % 8 = 0) ∧ (q.data ≠ []) ∧ (q.loc + q.data.length ≤ s.regionEnd q.loc) ∧ (s.dma.acs = [])) (wFab (fun f => { f with inbox := [(16, wPkt (fun p => { p with ptype := 2, data := bytesOfNat 8 77 }))] })) (9) (16) (wPkt (fun p => { p with ptype := 2, data := bytesOfNat 8 77 })) (0) := by decide +kernel
theorem witness_FabricPackets_7 : (fun (s : State) (t k : Nat) (q : Packet) (e : Status) => (s.fab.inbox = [(k, q)]) ∧ (q.ptype = 2) ∧ (q.vc ≠ 3) ∧ (s.logging = false) ∧ (s.log.held = false) ∧ (regAt q.loc = none) ∧ (regAt (q.loc + q.data.length - 1) = none) ∧ ((s.at t).accessCheck q.tenant true q.loc q.data.length = some e)) (wFab (fun f => { f with inbox := [(16, wPkt (fun p => { p with tenant := 6, ptype := 2, data := bytesOfNat 8 77 }))] })) (9) (16) (wPkt (fun p => { p with tenant := 6, ptype := 2, data := bytesOfNat 8 77 })) (ST_ISO_ADDRESS) := by decide +kernel
theorem witness_FabricPackets_8 : (fun (s : State) (_t k : Nat) (q : Packet) (j : Nat) (bs : List Byte) => (s.fab.inbox = [(k, q)]) ∧ (q.ptype = 3) ∧ (q.vc ≠ 3) ∧ (s.logging = false) ∧ (s.log.held = false) ∧ (regAt q.loc = none) ∧ (regAt (q.loc + 8 - 1) = none) ∧ (s.accessCheck q.tenant true q.loc 8 = none) ∧ (s.pilot.moves = []) ∧ (s.tiers.merge = []) ∧ (s.region q.loc = .spad j) ∧ (s.bring.tilesFilled = true) ∧ (bit q.aop 4 = true) ∧ (q.aop % 16 ≤ 9) ∧ (q.loc % 8 = 0) ∧ (Mem.readBytes s.mem q.loc 8 = some bs)) (wFab (fun f => { f with inbox := [(16, wPkt (fun p => { p with ptype := 3, aop := 16, data := bytesOfNat 16 5 }))] })) (9) (16) (wPkt (fun p => { p with ptype := 3, aop := 16, data := bytesOfNat 16 5 })) (0) ((List.range 8).map (fun i => BitVec.ofNat 8 i)) := by decide +kernel
theorem witness_FabricPackets_9 : (fun (s : State) (_t k : Nat) (q : Packet) (bs : List Byte) => (s.fab.inbox = [(k, q)]) ∧ (q.ptype = 4) ∧ (q.vc ≠ 3) ∧ (s.logging = false) ∧ (s.log.held = false) ∧ (regAt q.loc = none) ∧ (regAt (q.loc + 4 - 1) = none) ∧ (s.accessCheck q.tenant true q.loc 4 = none) ∧ (s.pilot.moves = []) ∧ (s.tiers.merge = []) ∧ (bit q.aop 0 = false) ∧ (q.data.length = 4) ∧ (s.region q.loc = .tier1) ∧ (q.loc % 64 = 0) ∧ (q.loc + 64 ≤ s.t1Top) ∧ (s.memReady true q.loc 4 = true) ∧ (s.unitFenced (s.unitAt q.loc) = false) ∧ (Mem.readBytes s.mem q.loc 64 = some bs) ∧ (s.dma.acs = [])) (wFab (fun f => { f with inbox := [(16, wPkt (fun p => { p with ptype := 4, loc := 0, data := bytesOfNat 4 0x3F800000 }))] })) (9) (16) (wPkt (fun p => { p with ptype := 4, loc := 0, data := bytesOfNat 4 0x3F800000 })) ((List.range 64).map (fun i => BitVec.ofNat 8 (i + 1))) := by decide +kernel
theorem witness_FabricPackets_10 : (fun (s : State) (_t k : Nat) (q : Packet) => (s.fab.inbox = [(k, q)]) ∧ (q.ptype = 5) ∧ (q.vc ≠ 3) ∧ (s.logging = false) ∧ (s.log.held = false) ∧ (q.tag ≠ 0) ∧ (s.fab.reqs.find? (fun r => r.tag == q.tag) = none)) (wFab (fun f => { f with inbox := [(16, wPkt (fun p => { p with ptype := 5, vc := 1, data := bytesOfNat 8 5 }))] })) (9) (16) (wPkt (fun p => { p with ptype := 5, vc := 1, data := bytesOfNat 8 5 })) := by decide +kernel
theorem witness_FabricPackets_11 : (fun (s : State) (_t k : Nat) (q : Packet) (r : RemoteReq) (e : Nat) (o : Nat) (c : KvCopy) => (s.fab.inbox = [(k, q)]) ∧ (q.ptype = 5) ∧ (q.vc ≠ 3) ∧ (s.logging = false) ∧ (s.log.held = false) ∧ (s.fab.reqs = [r]) ∧ (r.tag = q.tag) ∧ (r.owner = .kvImage e o) ∧ (s.kv.copies = [c]) ∧ (c.entry = e)) (let s := wFab (fun f => { f with inbox := [(16, wPkt (fun p => { p with ptype := 5, vc := 1, data := bytesOfNat 8 5 }))], reqs := [{ tag := 9, len := 8, owner := .kvImage 3 0, berth := 4, sentAt := 0 }] }); { s with kv := { s.kv with copies := [{ entry := 3, resume := true, image := 0, size := 8, since := 0, arg := 0, command := none, sent := 1, outstanding := 1, got := [], failed := false }] } }) (9) (16) (wPkt (fun p => { p with ptype := 5, vc := 1, data := bytesOfNat 8 5 })) ({ tag := 9, len := 8, owner := .kvImage 3 0, berth := 4, sentAt := 0 }) (3) (0) ({ entry := 3, resume := true, image := 0, size := 8, since := 0, arg := 0, command := none, sent := 1, outstanding := 1, got := [], failed := false }) := by decide +kernel
theorem witness_FabricPackets_12 : (fun (s : State) (_t k : Nat) (q : Packet) (r : RemoteReq) (d i o : Nat) (x : DmaRun) => (s.fab.inbox = [(k, q)]) ∧ (q.ptype = 6) ∧ (q.vc ≠ 3) ∧ (s.logging = false) ∧ (s.log.held = false) ∧ (s.fab.reqs = [r]) ∧ (r.tag = q.tag) ∧ (r.owner = .dmaDst d i o) ∧ (s.dmaRun d i = some x) ∧ (ddOp x.desc.toNat ≠ 3)) (let s := wFab (fun f => { f with inbox := [(16, wPkt (fun p => { p with ptype := 6, vc := 1 }))], reqs := [{ tag := 9, len := 8, owner := .dmaDst 3 0 0, berth := 4, sentAt := 0 }] }); { s with dma := { s.dma with ctxs := [(3, wCtx 0 (fun r => { r with outstanding := 1 }))] } }) (9) (16) (wPkt (fun p => { p with ptype := 6, vc := 1 })) ({ tag := 9, len := 8, owner := .dmaDst 3 0 0, berth := 4, sentAt := 0 }) (3) (0) (0) ((fun (r : DmaRun) => { r with outstanding := 1 }) (wRun 0)) := by decide +kernel
theorem witness_FabricPackets_13 : (fun (s : State) (_t k : Nat) (q : Packet) (r : RemoteReq) (m e : Nat) (x : PilMove) => (s.fab.inbox = [(k, q)]) ∧ (q.ptype = 7) ∧ (q.vc ≠ 3) ∧ (s.logging = false) ∧ (s.log.held = false) ∧ (s.fab.reqs = [r]) ∧ (r.tag = q.tag) ∧ (r.owner = .pilot m e) ∧ (s.pilot.moves = [x]) ∧ (x.table = m) ∧ (x.entry = e) ∧ (s.fab.ready = false)) (let s := wFab (fun f => { f with inbox := [(16, wPkt (fun p => { p with ptype := 7, vc := 1, loc := 0x8080 }))], reqs := [{ tag := 9, len := 8, owner := .pilot 0x10000 0, berth := 4, sentAt := 0 }] }); { s with pilot := { s.pilot with moves := [wMove id] } }) (9) (16) (wPkt (fun p => { p with ptype := 7, vc := 1, loc := 0x8080 })) ({ tag := 9, len := 8, owner := .pilot 0x10000 0, berth := 4, sentAt := 0 }) (0x10000) (0) (wMove id) := by decide +kernel
theorem witness_FabricPackets_14 : (fun (s : State) (_t k : Nat) (q : Packet) => (s.fab.inbox = [(k, q)]) ∧ (q.ptype = 8) ∧ (isFaultMsg q.data = false) ∧ (byteField (natOfBytes q.data) 2 1 ≠ 0x80)) (wFab (fun f => { f with inbox := [(16, wPkt (fun p => { p with ptype := 8, vc := 2, data := List.replicate 32 1 }))] })) (9) (16) (wPkt (fun p => { p with ptype := 8, vc := 2, data := List.replicate 32 1 })) := by decide +kernel
theorem witness_FabricPackets_15 : (fun (s : State) (_t k : Nat) (q : Packet) (e : Status) => (s.fab.inbox = [(k, q)]) ∧ (q.ptype = 8) ∧ (isFaultMsg q.data = false) ∧ (byteField (natOfBytes q.data) 2 1 = 0x80) ∧ (s.msgCheck (.peer q.srcH q.srcB) (natOfBytes q.data) = some e)) (wFab (fun f => { f with inbox := [(16, wPkt (fun p => { p with ptype := 8, vc := 2, data := [1, 1, 0x80] ++ List.replicate 29 0 }))] })) (9) (16) (wPkt (fun p => { p with ptype := 8, vc := 2, data := [1, 1, 0x80] ++ List.replicate 29 0 })) ((wFab id).msgCheck (.peer 0 5) (natOfBytes ([1, 1, 0x80] ++ List.replicate 29 0)) |>.getD 0) := by decide +kernel
theorem witness_FabricPackets_16 : (fun (s : State) (tag t : Nat) (r : RemoteReq) (m e : Nat) (x : PilMove) => (s.fab.reqs = [r]) ∧ (r.tag = tag) ∧ (r.owner = .pilot m e) ∧ (s.pilot.moves = [x]) ∧ (x.table = m) ∧ (x.entry = e) ∧ (r.sentAt + msTicks (max 1 s.fab.timeoutMs.toNat) ≤ t) ∧ (s.isSelf s.ownHarbour r.berth = true) ∧ (s.logging = false)) (let s := wFab (fun f => { f with reqs := [{ tag := 9, len := 8, owner := .pilot 0x10000 0, berth := 5, sentAt := 0 }] }); { s with pilot := { s.pilot with moves := [wMove id] } }) (9) (msTicks 250) ({ tag := 9, len := 8, owner := .pilot 0x10000 0, berth := 5, sentAt := 0 }) (0x10000) (0) (wMove id) := by decide +kernel
theorem witness_FabricPorts_1 : (fun (s : State) (_t p : Nat) => (p < 16) ∧ ((s.port p).state = 2) ∧ ((s.port p).helloSent = none) ∧ ((s.helloPacket p).slots ≤ ((s.port p).credits[4]?).getD 0)) (wFab (fun x => { x with ports := [(3, wPort (fun p => p))] })) (9) (3) := by decide +kernel
theorem witness_FabricPorts_2 : (fun (s : State) (t p : Nat) (h : Nat) => (p < 16) ∧ ((s.port p).state = 2) ∧ ((s.port p).helloSent = some h) ∧ (max s.time t < h + msTicks (if (s.port p).helloSeen.isNone then 1 else 10))) (wFab (fun x => { x with ports := [(3, wPort (fun p => { p with helloSent := some 5, helloSeen := some 5 }))] })) (9) (3) (5) := by decide +kernel
theorem witness_FabricPorts_3 : (fun (s : State) (_t p : Nat) (q : Packet) => (p < 14) ∧ (s.fab.inbox = [(p, q)]) ∧ (q.ptype = 0xB) ∧ (helloOk (natOfBytes q.data) q.data.length = true) ∧ ((s.port p).state = 1) ∧ (s.fab.assigned = false) ∧ (s.fab.waitQ = [])) (wFab (fun x => { x with ports := [(3, wPort (fun p => { p with state := 1, training := true }))], assigned := false, inbox := [(3, { wPkt id with ptype := 11, vc := 2, data := bytesOfNat 3 0x700801 ++ [0x13#8, 1#8, 2#8] ++ bytesOfNat 2 7 ++ bytesOfNat 8 99 ++ [8#8] ++ List.replicate 47 0 })] })) (9) (3) ({ wPkt id with ptype := 11, vc := 2, data := bytesOfNat 3 0x700801 ++ [0x13#8, 1#8, 2#8] ++ bytesOfNat 2 7 ++ bytesOfNat 8 99 ++ [8#8] ++ List.replicate 47 0 }) := by decide +kernel
theorem witness_FabricPorts_4 : (fun (s : State) (_t p : Nat) (q : Packet) => (p < 16) ∧ (s.fab.inbox = [(p, q)]) ∧ (q.ptype = 0xB) ∧ (helloOk (natOfBytes q.data) q.data.length = false)) (wFab (fun x => { x with ports := [(3, wPort (fun p => { p with state := 1, training := true }))], inbox := [(3, { wPkt id with ptype := 11, vc := 2, data := [] })] })) (9) (3) ({ wPkt id with ptype := 11, vc := 2, data := [] }) := by decide +kernel
theorem witness_FabricPorts_5 : (fun (s : State) (t p : Nat) (h : Nat) => (p < 14) ∧ ((s.port p).state = 2) ∧ ((s.port p).flitSeen = some h) ∧ (h + msTicks 1 ≤ t)) (wFab (fun x => { x with ports := [(3, wPort (fun p => { p with flitSeen := some 0 }))] })) (msTicks 1) (3) (0) := by decide +kernel
theorem witness_FabricPorts_6 : (fun (s : State) (t p : Nat) (h : Nat) => ((s.port p).state = 2) ∧ ((s.port p).flitSeen = some h) ∧ (max s.time t < h + msTicks 1) ∧ ((s.port p).helloSeen = some h)) (wFab (fun x => { x with ports := [(3, wPort (fun p => { p with flitSeen := some 9, helloSeen := some 9 }))] })) (msTicks 1) (3) (9) := by decide +kernel
theorem witness_FabricPorts_7 : (fun (s : State) (t p : Nat) (n _r : Nat) => (p < 16) ∧ ((s.port p).state = 1) ∧ ((s.port p).training = true) ∧ ((s.port p).credits = []) ∧ (n = 8 ∨ n = 4 ∨ n = 2) ∧ (t ≤ (s.port p).since + msTicks 501) ∧ (s.time ≤ (s.port p).since + msTicks 501)) (wFab (fun x => { x with ports := [(3, wPort (fun p => { p with state := 1, training := true, credits := [] }))] })) (9) (3) (4) (700) := by decide +kernel
theorem witness_FabricPorts_8 : (fun (s : State) (t p : Nat) => (p < 16) ∧ ((s.port p).state = 1) ∧ ((s.port p).training = true) ∧ ((s.port p).credits = []) ∧ ((s.port p).since + msTicks 501 ≤ t)) (wFab (fun x => { x with ports := [(3, wPort (fun p => { p with state := 1, training := true, credits := [] }))] })) (msTicks 501) (3) := by decide +kernel
theorem witness_FabricPorts_9 : (fun (s : State) (_t p : Nat) (_c w : Nat) => (p < 16) ∧ ((s.port p).state = 2) ∧ ((s.port p).ucwThresh.toNat < w)) (wFab (fun x => { x with ports := [(3, wPort (fun p => p))] })) (9) (3) (3) (17) := by decide +kernel
theorem witness_FabricPorts_10 : (fun (s : State) (t p : Nat) (n _r : Nat) (sn : BitVec 64) => (p < 14) ∧ ((s.port p).state = 3) ∧ (n = 8 ∨ n = 4 ∨ n = 2) ∧ (max s.time t ≤ (s.port p).since + usTicks 166101) ∧ ((s.port p).peerSn = sn) ∧ ((s.port p).credits.isEmpty = false) ∧ (s.fab.waitQ = [])) (wFab (fun x => { x with ports := [(3, wPort (fun p => { p with state := 3, attempt := 1 }))] })) (9) (3) (4) (5) (0) := by decide +kernel
theorem witness_FabricPorts_11 : (fun (s : State) (_t p : Nat) (_r : Nat) (_sn : BitVec 64) => (p < 16) ∧ ((s.port p).state = 3) ∧ ((s.port p).attempt.toNat < 3)) (wFab (fun x => { x with ports := [(3, wPort (fun p => { p with state := 3, attempt := 1 }))] })) (9) (3) (5) (0) := by decide +kernel
theorem witness_FabricPorts_12 : (fun (s : State) (_t p : Nat) (_r : Nat) (_sn : BitVec 64) => (p < 14) ∧ ((s.port p).state = 3) ∧ ((s.port p).attempt = 3) ∧ ((s.port p).peerAssigned = false) ∧ (s.fab.waitQ = [])) (wFab (fun x => { x with ports := [(3, wPort (fun p => { p with state := 3, attempt := 3 }))] })) (9) (3) (5) (0) := by decide +kernel
theorem witness_FabricRoutes_1 : (fun (s : State) (_t : Nat) (_l : List (BitVec 64)) => ((List.range 16).all (fun p => !((s.port p).state == 1 && (s.port p).training)) = true) ∧ (s.fab.step = 4) ∧ (s.fab.mode = 0)) (wFab (fun x => { x with mode := 0, step := 4, assigned := false })) (9) ([]) := by decide +kernel
theorem witness_FabricRoutes_2 : (fun (s : State) (t : Nat) (l : List (BitVec 64)) => ((List.range 16).all (fun p => !((s.port p).state == 1 && (s.port p).training)) = true) ∧ (s.fab.step = 4) ∧ (s.fab.mode = 1) ∧ (s.fab.harbour = false) ∧ (l.contains Config.serial = false) ∧ (max s.time t < s.fab.stepAt + msTicks 2000) ∧ (s.fab.stepAt + msTicks 200 ≤ t) ∧ (l.length < 8192)) (wFab (fun x => { x with step := 4, assigned := false, mode := 1 })) (msTicks 200) ([]) := by decide +kernel
theorem witness_FabricRoutes_3 : (fun (s : State) (t : Nat) => (s.fab.assigned = true) ∧ (s.fab.advertAt + msTicks 10000 ≤ t)) (wFab (fun x => { x with ownSeq := 3 })) (msTicks 10000) := by decide +kernel
theorem witness_FabricRoutes_4 : (fun (s : State) (_t : Nat) (p b : Nat) (sn : BitVec 64) (_sq : BitVec 32) (_l : List (Nat × Nat × Nat)) => (p < 14) ∧ (b < 8192) ∧ (b ≠ s.ownBerth) ∧ (s.fab.assigned = false ∨ sn ≠ Config.serial) ∧ (Table.find s.fab.adverts b = none)) (wFab (fun x => { x with step := 7, assigned := false })) (9) (0) (7) (3) (1) ([]) := by decide +kernel
theorem witness_FabricRoutes_5 : (fun (s : State) (_t : Nat) (p b : Nat) (sn : BitVec 64) (sq : BitVec 32) (_l : List (Nat × Nat × Nat)) (a : Advert) => (p < 14) ∧ (b < 8192) ∧ (b ≠ s.ownBerth) ∧ (s.fab.assigned = false ∨ sn ≠ Config.serial) ∧ (Table.find s.fab.adverts b = some a) ∧ (sq ≤ a.seq)) (wFab (fun x => { x with assigned := false, adverts := [(7, { serial := 3, seq := 1, links := [] })] })) (9) (0) (7) (3) (1) ([]) ({ serial := 3, seq := 1, links := [] }) := by decide +kernel
theorem witness_FabricRoutes_6 : (fun (s : State) (t : Nat) => (s.fab.assigned = true) ∧ (s.fab.step = 5) ∧ (max s.fab.stepAt s.fab.advertChanged + msTicks 100 ≤ t) ∧ (s.fab.waitQ = [])) (wFab (fun x => { x with step := 5, adverts := [(5, { serial := 3, seq := 1, links := [(0, 7, 8)] }), (7, { serial := 4, seq := 1, links := [(1, 5, 8)] })] })) (msTicks 100) := by decide +kernel
theorem witness_FabricRoutes_7 : (fun (s : State) (t : Nat) => (s.fab.step = 5) ∧ (s.fab.stepAt + msTicks 1000 ≤ t)) (wFab (fun x => { x with step := 5, adverts := [(5, { serial := 3, seq := 1, links := [] })] })) (msTicks 1000) := by decide +kernel
theorem witness_TwinStream_1 : (fun (s : State) (_t k : Nat) (q : Packet) (i w : Nat) => (s.fab.inbox = [(k, q)]) ∧ (q.ptype = 9) ∧ (byteField (natOfBytes q.data) 0 8 = s.fab.twin.applied + 1) ∧ (byteField (natOfBytes q.data) 8 8 = 1) ∧ (s.fab.twin.window = []) ∧ (byteField (natOfBytes (q.data.drop 16)) 0 8 = i) ∧ (byteField (natOfBytes (q.data.drop 16)) 8 64 = w) ∧ (s.srvCached i = true)) (let s := wFab (fun x => { x with twinMode := true, twin := { x.twin with state := 1, applied := 6 }, inbox := [(14, { wPkt id with ptype := 9, vc := 3, data := bytesOfNat 8 7 ++ bytesOfNat 8 1 ++ bytesOfNat 8 3 ++ bytesOfNat 64 0x1122 })] }); { s with serving := { s.serving with cache := [3] } }) (9) (14) ({ wPkt id with ptype := 9, vc := 3, data := bytesOfNat 8 7 ++ bytesOfNat 8 1 ++ bytesOfNat 8 3 ++ bytesOfNat 64 0x1122 }) (3) (0x1122) := by decide +kernel
theorem witness_TwinStream_2 : (fun (s : State) (_t k : Nat) (q : Packet) => (s.fab.inbox = [(k, q)]) ∧ (q.ptype = 0xA) ∧ (s.fab.twin.waiting = []) ∧ (s.fab.twin.resyncEnd = none)) (wFab (fun x => { x with twinMode := true, twin := { x.twin with state := 1, tx := 4, buffer := [{ tseq := 4, kind := 2, payload := [1#8, 2#8], port := 14, sentAt := 0 }] }, inbox := [(14, { wPkt id with ptype := 10, vc := 3, data := bytesOfNat 8 4 })] })) (9) (14) ({ wPkt id with ptype := 10, vc := 3, data := bytesOfNat 8 4 }) := by decide +kernel
theorem witness_TwinStream_3 : (fun (s : State) (t : Nat) (m : TwinMsg) => (s.fab.twin.buffer = [m]) ∧ (m.port = 14) ∧ (m.sentAt + msTicks 1 ≤ t)) (wFab (fun x => { x with twinMode := true, twin := { x.twin with state := 1, buffer := [{ tseq := 4, kind := 2, payload := [1#8, 2#8], port := 14, sentAt := 0 }] } })) (msTicks 1) ({ tseq := 4, kind := 2, payload := [1#8, 2#8], port := 14, sentAt := 0 }) := by decide +kernel
theorem witness_TwinStream_4 : (fun (s : State) (t : Nat) (m : TwinMsg) => (s.fab.twin.buffer = [m]) ∧ (max s.time t < m.sentAt + msTicks 1)) (wFab (fun x => { x with twinMode := true, twin := { x.twin with state := 1, buffer := [{ tseq := 4, kind := 2, payload := [1#8, 2#8], port := 14, sentAt := 0 }] } })) (9) ({ tseq := 4, kind := 2, payload := [1#8, 2#8], port := 14, sentAt := 0 }) := by decide +kernel
theorem witness_TwinStream_5 : (fun (s : State) (t : Nat) (p : Nat) => (p = 14 ∨ p = 15) ∧ ((s.port p).state = 2) ∧ (s.twinOn = true) ∧ ((s.port p).beatAt + msTicks 10 ≤ t) ∧ (s.fab.twin.waiting = []) ∧ (s.fab.twin.used + 16 ≤ 2 ^ 26) ∧ (∀ m ∈ s.fab.twin.buffer, m.tseq ≤ s.fab.twin.tx)) (wFab (fun x => { x with twinMode := true, twin := { x.twin with state := 1, tx := 4 }, ports := [(14, wPort id)] })) (msTicks 10) (14) := by decide +kernel
theorem witness_TwinStream_6 : (fun (s : State) (t : Nat) (d : Nat) => (s.pairDownSince = some d) ∧ (s.twinOn = true) ∧ (d + msTicks (max 1 s.fab.twin.holdMs.toNat) ≤ t) ∧ (s.fab.twin.auto = false)) ((fun s => { s with serving := { s.serving with entries := [(3, wSe 258)] } }) (wFab (fun x => { x with twinMode := true, twin := { x.twin with state := 1, auto := false }, ports := [(14, wPort (fun p => { p with state := 4, downSince := some 0 })), (15, wPort (fun p => { p with state := 4, downSince := some 0 }))] }))) (msTicks 500) (0) := by decide +kernel
theorem witness_TwinStream_7 : (fun (s : State) (t : Nat) (d : Nat) => (s.pairDownSince = some d) ∧ (s.twinOn = true) ∧ (d + msTicks (max 1 s.fab.twin.holdMs.toNat) ≤ t) ∧ (s.fab.twin.auto = true)) ((fun s => { s with serving := { s.serving with entries := [(3, wSe 258)] } }) (wFab (fun x => { x with twinMode := true, twin := { x.twin with state := 1, auto := true }, ports := [(14, wPort (fun p => { p with state := 4, downSince := some 0 })), (15, wPort (fun p => { p with state := 4, downSince := some 0 }))] }))) (msTicks 500) (0) := by decide +kernel
theorem witness_TwinStream_8 : (fun (s : State) (t : Nat) (d : Nat) => (s.pairDownSince = some d) ∧ (s.fab.twin.auto = true) ∧ (s.fab.twin.state = 3) ∧ (s.fab.twin.takeoverAt = none) ∧ (d + msTicks (max (max 1 s.fab.twin.takeoverMs.toNat) (2 * max 1 s.fab.twin.holdMs.toNat)) ≤ t)) (wFab (fun x => { x with twinMode := true, twin := { x.twin with state := 3, auto := true }, ports := [(14, wPort (fun p => { p with state := 4, downSince := some 0 })), (15, wPort (fun p => { p with state := 4, downSince := some 0 }))] })) (msTicks 1000) (0) := by decide +kernel
theorem witness_TwinStream_9 : (fun (s : State) (_t : Nat) (a i : Nat) (e : SrvEntry) => (s.fab.twin.takeoverAt = some a) ∧ (s.fab.twin.sinceMark = []) ∧ (s.serving.entries = [(i, e)]) ∧ (s.ownHalf i = false) ∧ (e.state ≠ 0) ∧ (e.taken = false)) (let s := wFab (fun x => { x with twinMode := true, twin := { x.twin with state := 3, takeoverAt := some 1 } }); { s with serving := { s.serving with entries := [(0x80003, wSe 0x103)] } }) (9) (1) (0x80003) (wSe 0x103) := by decide +kernel
theorem witness_FaultsAndLogbook_1 : (fun (s : State) (_t k : Nat) (q : Packet) => (s.fab.inbox = [(k, q)]) ∧ (q.ptype = 8) ∧ (isFaultMsg q.data = true) ∧ (byteField (natOfBytes q.data) 3 1 = 1) ∧ (1 ≤ fmFlags (natOfBytes q.data) % 16) ∧ (fmFlags (natOfBytes q.data) % 16 ≤ 4) ∧ (s.hm.incidents = [])) (wHm (faultMsg 1 8 4 1 1 5 7) (fun h => h)) (9) (16) ({ wPkt id with ptype := 8, vc := 2, dstB := 9, data := faultMsg 1 8 4 1 1 5 7 }) := by decide +kernel
theorem witness_FaultsAndLogbook_2 : (fun (s : State) (t k : Nat) (q : Packet) (x : Incident) => (s.fab.inbox = [(k, q)]) ∧ (q.ptype = 8) ∧ (isFaultMsg q.data = true) ∧ (byteField (natOfBytes q.data) 3 1 = 1) ∧ (1 ≤ fmFlags (natOfBytes q.data) % 16) ∧ (fmFlags (natOfBytes q.data) % 16 ≤ 4) ∧ (s.hm.incidents = [x]) ∧ (x.suspect = (fmSuspect (natOfBytes q.data))) ∧ (x.open_ (max s.time t) = true)) (wHm (faultMsg 1 8 5 2 1 5 7) (fun h => { h with incidents := [wInc] })) (9) (16) ({ wPkt id with ptype := 8, vc := 2, dstB := 9, data := faultMsg 1 8 5 2 1 5 7 }) (wInc) := by decide +kernel
theorem witness_FaultsAndLogbook_3 : (fun (s : State) (_t k : Nat) (q : Packet) (x : Report) => (s.fab.inbox = [(k, q)]) ∧ (q.ptype = 8) ∧ (isFaultMsg q.data = true) ∧ (byteField (natOfBytes q.data) 3 1 = 2) ∧ (s.hm.outstanding = some x) ∧ (x.suspect = (fmSuspect (natOfBytes q.data))) ∧ (x.waiting = [(fmSender (natOfBytes q.data))]) ∧ (x.full = false) ∧ (bit (fmFlags (natOfBytes q.data)) 0 = false) ∧ (s.hm.queue = [])) (wHm (faultMsg 2 8 9 0 1 5 7) (fun h => { h with outstanding := some wRep })) (9) (16) ({ wPkt id with ptype := 8, vc := 2, dstB := 9, data := faultMsg 2 8 9 0 1 5 7 }) (wRep) := by decide +kernel
theorem witness_FaultsAndLogbook_4 : (fun (s : State) (_t k : Nat) (q : Packet) (x : Incident) => (s.fab.inbox = [(k, q)]) ∧ (q.ptype = 8) ∧ (isFaultMsg q.data = true) ∧ (byteField (natOfBytes q.data) 3 1 = 3) ∧ (s.hm.incidents = [x]) ∧ (x.suspect = (fmSuspect (natOfBytes q.data))) ∧ (x.synced = false) ∧ (x.closedAt = none)) (wHm (faultMsg 3 8 4 1 1 5 7) (fun h => { h with incidents := [wInc] })) (9) (16) ({ wPkt id with ptype := 8, vc := 2, dstB := 9, data := faultMsg 3 8 4 1 1 5 7 }) (wInc) := by decide +kernel
theorem witness_FaultsAndLogbook_5 : (fun (s : State) (_t k : Nat) (q : Packet) (x : Incident) (c : Nat) => (s.fab.inbox = [(k, q)]) ∧ (q.ptype = 8) ∧ (isFaultMsg q.data = true) ∧ (byteField (natOfBytes q.data) 3 1 = 3) ∧ (s.hm.incidents = [x]) ∧ (x.suspect = (fmSuspect (natOfBytes q.data))) ∧ (x.synced = false) ∧ (x.closedAt = some c)) (wHm (faultMsg 3 8 4 1 1 5 7) (fun h => { h with incidents := [{ wInc with closedAt := some 5 }] })) (9) (16) ({ wPkt id with ptype := 8, vc := 2, dstB := 9, data := faultMsg 3 8 4 1 1 5 7 }) ({ wInc with closedAt := some 5 }) (5) := by decide +kernel
theorem witness_FaultsAndLogbook_6 : (fun (s : State) (t : Nat) (x : Report) => (s.hm.outstanding = some x) ∧ (x.sentAt + msTicks 10 ≤ t) ∧ (s.hm.queue = [])) (wHm [] (fun h => { h with outstanding := some wRep })) (msTicks 10) (wRep) := by decide +kernel
theorem witness_FaultsAndLogbook_7 : (fun (s : State) (t : Nat) (x : Report) => (s.hm.outstanding = some x) ∧ (max s.time t < x.sentAt + msTicks 10)) (wHm [] (fun h => { h with outstanding := some wRep })) (9) (wRep) := by decide +kernel
theorem witness_FaultsAndLogbook_8 : (fun (s : State) (b t : Nat) (x : Incident) => (s.hm.incidents = [x]) ∧ (x.suspect = b) ∧ (x.closedAt = none) ∧ (x.firstTime + msTicks 100 ≤ t) ∧ (s.primaryOf b = true)) (wHm [] (fun h => { h with incidents := [wInc] })) (8) (msTicks 100) (wInc) := by decide +kernel
theorem witness_FaultsAndLogbook_9 : (fun (s : State) (b t : Nat) (x : Incident) => (s.hm.incidents = [x]) ∧ (x.suspect = b) ∧ (x.closedAt = none) ∧ (x.synced = false) ∧ (x.firstTime + msTicks 100 ≤ t) ∧ (s.primaryOf b = false)) ((fun (s : State) => { s with fab := { s.fab with berth := 10 } }) (wHm [] (fun h => { h with incidents := [wInc] }))) (8) (msTicks 100) (wInc) := by decide +kernel
theorem witness_FaultsAndLogbook_10 : (fun (s : State) (b t : Nat) (x : Incident) => (s.hm.incidents = [x]) ∧ (x.suspect = b) ∧ (x.closedAt = none) ∧ (x.synced = true) ∧ (x.firstTime + msTicks 100 ≤ t) ∧ (s.primaryOf b = false)) ((fun (s : State) => { s with fab := { s.fab with berth := 10 } }) (wHm [] (fun h => { h with incidents := [{ wInc with synced := true }] }))) (8) (msTicks 100) ({ wInc with synced := true }) := by decide +kernel
theorem witness_FaultsAndLogbook_11 : (fun (s : State) (b t c : Nat) (x : Incident) => (s.hm.incidents = [x]) ∧ (x.suspect = b) ∧ (x.closedAt = some c) ∧ (c + msTicks 20 ≤ t)) (wHm [] (fun h => { h with incidents := [{ wInc with closedAt := some 5 }] })) (8) (msTicks 21) (5) ({ wInc with closedAt := some 5 }) := by decide +kernel
theorem witness_FaultsAndLogbook_12 : (fun (s : State) (k t n : Nat) => (k < 4096) ∧ (s.coreRuns (k / 64) = true) ∧ ((s.quay (k / 64)).outOfService = false) ∧ ((s.at t).tileFailed k = true) ∧ (s.tileHolder k = none) ∧ ((List.range 4).find? (fun n => !((s.quay (k / 64)).failed ||| BitVec.ofNat 68 (2 ^ (s.quay (k / 64)).physical (k % 64))).getLsbD (64 + n) && !(Table.getD (s.quay (k / 64)).spares n SpareMap.reset).locked) = some n)) (let s := wTile (fun x => { x with mode := .running, lastProgress := 0 }); { s with fw := { s.fw with state := 2 } }) (0) (msTicks 10) (0) := by decide +kernel
theorem witness_FaultsAndLogbook_13 : (fun (s : State) (t : Nat) (m : MarkWait) => (s.log.mark = some m) ∧ (m.issuer = none) ∧ (s.quiescent = false) ∧ (m.since + msTicks 1000 ≤ t)) ((fun (s : State) => { s with dma := { s.dma with waiting := [wCtx 0 id] } }) (wLog (fun l => { l with mark := some { start := false, since := 0, wrap := false, issuer := none }, paused := true }))) (msTicks 1000) ({ start := false, since := 0, wrap := false, issuer := none }) := by decide +kernel
theorem witness_FaultsAndLogbook_14 : (fun (s : State) (_t : Nat) (m : MarkWait) => (s.log.mark = some m) ∧ (m.issuer = none) ∧ (m.start = true) ∧ (s.quiescent = true) ∧ (4 < s.logSlots)) (wLog (fun l => { l with mark := some { start := true, since := 0, wrap := true, issuer := none }, paused := true })) (9) ({ start := true, since := 0, wrap := true, issuer := none }) := by decide +kernel
theorem witness_FaultsAndLogbook_15 : (fun (s : State) => (s.log.recording = true) ∧ (s.logSlots ≤ s.log.nextRec - s.log.first) ∧ (s.log.wrap = false)) (wLog (fun l => { l with recording := true, nextRec := 4000 })) := by decide +kernel
theorem witness_FaultsAndLogbook_16 : (fun (s : State) (m : Nat) (r : List Nat) => (s.log.recording = true) ∧ (s.logSlots ≤ s.log.nextRec - s.log.first) ∧ (s.log.wrap = true) ∧ (s.log.marks.filter (fun m => decide (s.log.first < m)) = m :: r)) (wLog (fun l => { l with recording := true, wrap := true, nextRec := 4000, marks := [70, 0] })) (70) ([]) := by decide +kernel
theorem witness_FaultsAndLogbook_17 : (fun (s : State) (_p c t : Nat) => (s.replaying = true) ∧ (s.log.held = false) ∧ (c + msTicks 1000 ≤ t)) (wLog (fun l => { l with replayFrom := some 0 })) (7) (0) (msTicks 1000) := by decide +kernel
theorem witness_FaultsAndLogbook_18 : (fun (s : State) (p f : Nat) => (s.log.replayFrom = some f) ∧ (s.log.held = false) ∧ ((s.logRecords f).any (fun (r : Option Nat) => (r.map (fun v => recKind v == 2 && recPoint v == p && recSeq v == (s.point p).iseq && bits v 64 64 != (s.point p).digest.toNat)).getD false) = true)) ((fun (s : State) => { s with mem := Mem.writeBytes [] 0x101000 (bytesOfNat 16 (2 + 16 * 0x800 + 2 ^ 64 * 77)) }) (wLog (fun l => { l with replayFrom := some 0, nextRec := 1 }))) (0x800) (0) := by decide +kernel
theorem witness_FaultsAndLogbook_19 : (fun (s : State) (_t : Nat) (f : Nat) => (s.log.replayFrom = some f) ∧ (s.log.held = false) ∧ (s.log.nextRec ≤ f)) (wLog (fun l => { l with replayFrom := some 4, nextRec := 4 })) (9) (4) := by decide +kernel
theorem witness_MailboxProtocol_1 : (fun (s : State) (f t : Nat) (e : Status) => ((s.func f).inReset = false) ∧ ((s.func f).mbxState ≠ 1) ∧ (s.logging = false) ∧ ((s.at t).msgCheck (.func f) (s.func f).req.toNat = some e)) ({ wMem id with fw := { (wMem id).fw with state := 2 }, hif := { (wMem id).hif with funcs := [(0, { Func.reset with req := 1 })] } }) (0) (9) (ST_MBX_FMT) := by decide +kernel
theorem witness_MailboxProtocol_2 : (fun (s : State) (f t : Nat) (_c : Cmd) => ((s.func f).inReset = false) ∧ ((s.func f).mbxState ≠ 1) ∧ (s.logging = false) ∧ ((s.at t).msgCheck (.func f) (s.func f).req.toNat = none) ∧ ((cmdOf (msgCode (s.func f).req.toNat)).map (·.core) = some 2) ∧ (s.hif.schq.ring = []) ∧ (s.hif.schq.queue.length < 31) ∧ (s.hif.schq.queue.all (fun a => !a.isPeer) = true)) ({ wMem id with fw := { (wMem id).fw with state := 2 }, hif := { (wMem id).hif with funcs := [(0, { Func.reset with session := 3, req := BitVec.ofNat 2048 (wMsg 0x0405 [0] + 3 * 2 ^ 48) })] } }) (0) (9) (⟨0, 0, true, 0, [], []⟩) := by decide +kernel
theorem witness_MailboxProtocol_3 : (fun (s : State) (f _t : Nat) => ((s.func f).inReset = false) ∧ ((s.func f).mbxState = 1)) ({ wMem id with fw := { (wMem id).fw with state := 2 }, hif := { (wMem id).hif with funcs := [(0, { Func.reset with mbxState := 1 })] } }) (0) (9) := by decide +kernel
theorem witness_MailboxProtocol_4 : (fun (s : State) (iss : Issuer) (t c : Nat) (a : Admitted) => ((s.at t).pastLimit iss = some (c, a)) ∧ (s.coreRuns (64 + c) = true) ∧ (a.lost = false) ∧ (c < 3)) (wMbx 2 (wAdm 0x0405 [0]) (wMem id)) (.func 0) (msTicks 100) (2) (wAdm 0x0405 [0]) := by decide +kernel
theorem witness_MailboxProtocol_5 : (fun (s : State) (f : Nat) (a : Answer) (r : List Answer) => (s.hif.answers = a :: r) ∧ (a.issuer = .func f)) (let s := wMem id; { s with hif := { s.hif with answers := [{ issuer := .func 0, msg := 7 }] } }) (0) ({ issuer := .func 0, msg := 7 }) ([]) := by decide +kernel
theorem witness_MailboxProtocol_6 : (fun (s : State) (a : Answer) (r : List Answer) => (s.hif.answers = a :: r) ∧ (a.issuer = .i3c)) (let s := wMem id; { s with hif := { s.hif with answers := [{ issuer := .i3c, msg := 7 }] } }) ({ issuer := .i3c, msg := 7 }) ([]) := by decide +kernel
theorem witness_MailboxProtocol_7 : (fun (s : State) (f _t : Nat) => (0 < f) ∧ (f < 1024) ∧ ((s.func f).inReset = true) ∧ (s.tenantQuiet f = true) ∧ (s.serving.entries = [])) (let s := wMem id; { s with hif := { s.hif with funcs := [(5, { Func.reset with inReset := true, session := 4 })] } }) (5) (9) := by decide +kernel
theorem witness_MailboxProtocol_8 : (fun (s : State) (c f t : Nat) (e : Enrolment) => (c < 3) ∧ ((s.coreQ c).ring = [e]) ∧ (e.func = f) ∧ (e.until_ ≤ t)) ((wMem id).setCoreQ 1 { CoreQueue.reset with ring := [{ func := 5, until_ := 7, held := false }] }) (1) (5) (7) ({ func := 5, until_ := 7, held := false }) := by decide +kernel
theorem witness_SessionCommands_1 : (fun (s : State) (iss : Issuer) (_t : Nat) (a : Admitted) => (s.serves iss 0 0x0001 a)) (wMbx 0 (wAdm 0x0001 []) (wMem id)) (.func 0) (9) (wAdm 0x0001 []) := by decide +kernel
theorem witness_SessionCommands_2 : (fun (s : State) (iss : Issuer) (_t : Nat) (a : Admitted) (f : Nat) => (s.serves iss 0 0x0002 a) ∧ ((msgArg a.msg.toNat 0) ≤ 1) ∧ (1 ≤ (msgArg a.msg.toNat 1)) ∧ (iss = .func f) ∧ (s.hif.lastSession ≠ 0xFFFF#16)) (wMbx 0 (wAdm 0x0002 [1, 1]) (wMem id)) (.func 0) (9) (wAdm 0x0002 [1, 1]) (0) := by decide +kernel
theorem witness_SessionCommands_3 : (fun (s : State) (iss : Issuer) (_t : Nat) (a : Admitted) => (s.serves iss 0 0x0002 a) ∧ (1 < (msgArg a.msg.toNat 0) ∨ (msgArg a.msg.toNat 1) < 1)) (wMbx 0 (wAdm 0x0002 [2, 2]) (wMem id)) (.func 0) (9) (wAdm 0x0002 [2, 2]) := by decide +kernel
theorem witness_SessionCommands_4 : (fun (s : State) (iss : Issuer) (_t : Nat) (a : Admitted) (f : Nat) => (s.serves iss 0 0x0003 a) ∧ (iss = .func f)) (wMbx 0 (wAdm 0x0003 []) (wMem id)) (.func 0) (9) (wAdm 0x0003 []) (0) := by decide +kernel
theorem witness_SessionCommands_5 : (fun (s : State) (iss : Issuer) (_t : Nat) (a : Admitted) => (s.serves iss 0 0x0004 a)) (wMbx 0 (wAdm 0x0004 [4386]) (wMem id)) (.func 0) (9) (wAdm 0x0004 [4386]) := by decide +kernel
theorem witness_SessionCommands_6 : (fun (s : State) (iss : Issuer) (_t : Nat) (a : Admitted) => (s.serves iss 2 0x0100 a) ∧ ((msgArg a.msg.toNat 0) < 1024) ∧ (byteField (msgArg a.msg.toNat 1) 0x24 12 = 0) ∧ (byteField (msgArg a.msg.toNat 1) 0x23 1 ≤ 7)) (wMbx 2 (wAdm 0x0100 [7, 4660]) (wMem id)) (.func 0) (9) (wAdm 0x0100 [7, 4660]) := by decide +kernel
theorem witness_SessionCommands_7 : (fun (s : State) (iss : Issuer) (_t : Nat) (a : Admitted) => (s.serves iss 2 0x0100 a) ∧ (1024 ≤ (msgArg a.msg.toNat 0))) (wMbx 2 (wAdm 0x0100 [1024, 0]) (wMem id)) (.func 0) (9) (wAdm 0x0100 [1024, 0]) := by decide +kernel
theorem witness_SessionCommands_8 : (fun (s : State) (iss : Issuer) (_t : Nat) (a : Admitted) => (s.serves iss 2 0x0101 a) ∧ (ownTenant iss (msgArg a.msg.toNat 0) < 1024)) (wMbx 2 (wAdm 0x0101 [7]) (wMem id)) (.func 0) (9) (wAdm 0x0101 [7]) := by decide +kernel
theorem witness_SessionCommands_9 : (fun (s : State) (iss : Issuer) (_t : Nat) (a : Admitted) (k : Nat) => (s.serves iss 2 0x0102 a) ∧ ((msgArg a.msg.toNat 1) = 1) ∧ ((msgArg a.msg.toNat 0) < 1024) ∧ ((msgArg a.msg.toNat 2) % 4096 = 0) ∧ ((msgArg a.msg.toNat 3) % 4096 = 0) ∧ ((msgArg a.msg.toNat 3) ≠ 0) ∧ (s.inOneTier (msgArg a.msg.toNat 2) (msgArg a.msg.toNat 3) = true) ∧ (s.resvHit (msgArg a.msg.toNat 2) (msgArg a.msg.toNat 3) = []) ∧ (Table.lowestFree (s.tenantRec (msgArg a.msg.toNat 0)).grants 64 = some k)) (wMbx 2 (wAdm 0x0102 [7, 1, 4096, 8192]) (wMem id)) (.func 0) (9) (wAdm 0x0102 [7, 1, 4096, 8192]) (0) := by decide +kernel
theorem witness_SessionCommands_10 : (fun (s : State) (iss : Issuer) (_t : Nat) (a : Admitted) => (s.serves iss 2 0x0102 a) ∧ ((msgArg a.msg.toNat 1) = 1) ∧ ((msgArg a.msg.toNat 0) < 1024) ∧ ((msgArg a.msg.toNat 2) % 4096 ≠ 0)) (wMbx 2 (wAdm 0x0102 [7, 1, 100, 8192]) (wMem id)) (.func 0) (9) (wAdm 0x0102 [7, 1, 100, 8192]) := by decide +kernel
theorem witness_SessionCommands_11 : (fun (s : State) (iss : Issuer) (_t : Nat) (a : Admitted) (g : Nat × GrantPlace) => (s.serves iss 2 0x0102 a) ∧ ((msgArg a.msg.toNat 1) = 0) ∧ ((msgArg a.msg.toNat 0) < 1024) ∧ ((s.tenantRec (msgArg a.msg.toNat 0)).grants.find? (fun g => g.2.base.toNat == (msgArg a.msg.toNat 2) && g.2.size.toNat == (msgArg a.msg.toNat 3)) = some g)) (wMbx 2 (wAdm 0x0102 [7, 0, 4096, 8192]) (let s := wMem id; { s with hif := { s.hif with tenants := [(7, { quota := 0, grants := [(0, { base := 4096, size := 8192 })] })] } })) (.func 0) (9) (wAdm 0x0102 [7, 0, 4096, 8192]) ((0, { base := 4096, size := 8192 })) := by decide +kernel
theorem witness_SessionCommands_12 : (fun (s : State) (iss : Issuer) (_t : Nat) (a : Admitted) (g : GrantPlace) => (s.serves iss 2 0x0103 a) ∧ (ownTenant iss (msgArg a.msg.toNat 0) < 1024) ∧ ((msgArg a.msg.toNat 1) < 64) ∧ (Table.find (s.tenantRec (ownTenant iss (msgArg a.msg.toNat 0))).grants (msgArg a.msg.toNat 1) = some g)) (wMbx 2 (wAdm 0x0103 [7, 0]) (let s := wMem id; { s with hif := { s.hif with tenants := [(7, { quota := 0, grants := [(0, { base := 4096, size := 8192 })] })] } })) (.func 0) (9) (wAdm 0x0103 [7, 0]) ({ base := 4096, size := 8192 }) := by decide +kernel
theorem witness_SessionCommands_13 : (fun (s : State) (iss : Issuer) (_t : Nat) (a : Admitted) => (s.serves iss 2 0x0104 a) ∧ (0 < (msgArg a.msg.toNat 0)) ∧ ((msgArg a.msg.toNat 0) < 1024) ∧ ((msgArg a.msg.toNat 1) % 2 ^ 34 = 0) ∧ ((msgArg a.msg.toNat 1) < 2 ^ 48)) (wMbx 2 (wAdm 0x0104 [5, 34359738368]) (wMem id)) (.func 0) (9) (wAdm 0x0104 [5, 34359738368]) := by decide +kernel
theorem witness_SessionCommands_14 : (fun (s : State) (iss : Issuer) (_t : Nat) (a : Admitted) => (s.serves iss 2 0x0105 a) ∧ (4 ≤ (msgArg a.msg.toNat 1)) ∧ ((msgArg a.msg.toNat 1) ≤ 16)) (wMbx 2 (wAdm 0x0105 [16384, 5, 9]) (wMem id)) (.func 0) (9) (wAdm 0x0105 [16384, 5, 9]) := by decide +kernel
theorem witness_SessionCommands_15 : (fun (s : State) (iss : Issuer) (_t : Nat) (a : Admitted) => (s.serves iss 2 0x0106 a) ∧ (4 ≤ (msgArg a.msg.toNat 1)) ∧ ((msgArg a.msg.toNat 1) ≤ 16)) (wMbx 2 (wAdm 0x0106 [16384, 5, 9]) (wMem id)) (.func 0) (9) (wAdm 0x0106 [16384, 5, 9]) := by decide +kernel
theorem witness_SessionCommands_16 : (fun (s : State) (iss : Issuer) (_t : Nat) (a : Admitted) => (s.serves iss 2 0x0106 a) ∧ ((msgArg a.msg.toNat 1) < 4 ∨ 16 < (msgArg a.msg.toNat 1))) (wMbx 2 (wAdm 0x0106 [16384, 3, 9]) (wMem id)) (.func 0) (9) (wAdm 0x0106 [16384, 3, 9]) := by decide +kernel
theorem witness_SessionCommands_17 : (fun (s : State) (iss : Issuer) (_t : Nat) (a : Admitted) => (s.serves iss 2 0x0107 a) ∧ ((msgArg a.msg.toNat 0) < 1024) ∧ ((s.func (msgArg a.msg.toNat 0)).inReset = true) ∧ (s.tenantQuiet (msgArg a.msg.toNat 0) = true) ∧ (s.serving.entries = []) ∧ (iss = .func 0) ∧ ((msgArg a.msg.toNat 0) ≠ 0) ∧ (s.hif.schq.queue = [a]) ∧ (s.hif.answers = [])) (wMbx 2 (wAdm 0x0107 [5]) (let s := wMem id; { s with hif := { s.hif with funcs := [(5, { Func.reset with inReset := true, session := 4 })] } })) (.func 0) (9) (wAdm 0x0107 [5]) := by decide +kernel
theorem witness_WorkCommands_1 : (fun (s : State) (iss : Issuer) (_t : Nat) (a : Admitted) (k : Nat) => (s.serves iss 2 0x0200 a) ∧ ((msgArg a.msg.toNat 1) < 1024) ∧ (4 ≤ (msgArg a.msg.toNat 2)) ∧ ((msgArg a.msg.toNat 2) ≤ 16) ∧ ((msgArg a.msg.toNat 3) ≤ 7) ∧ ((msgArg a.msg.toNat 4) ≤ 1) ∧ ((msgArg a.msg.toNat 5) ≤ 1) ∧ ((msgArg a.msg.toNat 6) ≤ 1) ∧ ((msgArg a.msg.toNat 7) % 64 = 0) ∧ ((msgArg a.msg.toNat 0) = 0xFFFF) ∧ (Table.lowestFree s.graph.queues 8192 = some k) ∧ (s.queuesOf (msgArg a.msg.toNat 1) < s.quotaField (msgArg a.msg.toNat 1) 0x00 2)) (wMbx 2 (wAdm 0x0200 [65535, 0, 5, 3, 0, 1, 1, 16384, 20480]) (wMem id)) (.func 0) (9) (wAdm 0x0200 [65535, 0, 5, 3, 0, 1, 1, 16384, 20480]) (0) := by decide +kernel
theorem witness_WorkCommands_2 : (fun (s : State) (iss : Issuer) (_t : Nat) (a : Admitted) (x : HwQueue) => (s.serves iss 2 0x0201 a) ∧ (s.hwq (msgArg a.msg.toNat 0) = some x) ∧ ((msgArg a.msg.toNat 1) ≤ 1)) (wMbx 2 (wAdm 0x0201 [5, 0]) ((fun (s : State) => { s with graph := { s.graph with queues := [(5, { tenant := 0, ringBase := 0x400000000000#64, ringLoc := 0, sizeLog2 := 4, prioMax := 7, shadowAddr := 0, shadowLoc := 1, head := 0, tail := 2, enabled := true, serving := false, shadowDue := none })] } }) (wMem id))) (.func 0) (9) (wAdm 0x0201 [5, 0]) ({ tenant := 0, ringBase := 0x400000000000#64, ringLoc := 0, sizeLog2 := 4, prioMax := 7, shadowAddr := 0, shadowLoc := 1, head := 0, tail := 2, enabled := true, serving := false, shadowDue := none }) := by decide +kernel
theorem witness_WorkCommands_3 : (fun (s : State) (iss : Issuer) (_t : Nat) (a : Admitted) (x : HwQueue) => (s.serves iss 2 0x0202 a) ∧ (s.hwq (msgArg a.msg.toNat 0) = some x) ∧ (s.queueQuiet (msgArg a.msg.toNat 0) = true)) (wMbx 2 (wAdm 0x0202 [5]) ((fun (s : State) => { s with graph := { s.graph with queues := [(5, { tenant := 0, ringBase := 0x400000000000#64, ringLoc := 0, sizeLog2 := 4, prioMax := 7, shadowAddr := 0, shadowLoc := 1, head := 0, tail := 2, enabled := true, serving := false, shadowDue := none })] } }) (wMem id))) (.func 0) (9) (wAdm 0x0202 [5]) ({ tenant := 0, ringBase := 0x400000000000#64, ringLoc := 0, sizeLog2 := 4, prioMax := 7, shadowAddr := 0, shadowLoc := 1, head := 0, tail := 2, enabled := true, serving := false, shadowDue := none }) := by decide +kernel
theorem witness_WorkCommands_4 : (fun (s : State) (iss : Issuer) (_t : Nat) (a : Admitted) (x : HwQueue) => (s.serves iss 2 0x0202 a) ∧ (s.hwq (msgArg a.msg.toNat 0) = some x) ∧ (s.queueQuiet (msgArg a.msg.toNat 0) = false) ∧ (a.started = false)) (wMbx 2 (wAdm 0x0202 [5]) ((fun (s : State) => { s with graph := { s.graph with queues := [(5, { tenant := 0, ringBase := 0x400000000000#64, ringLoc := 0, sizeLog2 := 4, prioMax := 7, shadowAddr := 0, shadowLoc := 1, head := 0, tail := 2, enabled := true, serving := false, shadowDue := none })], graphs := [(5, { graphRun { wEnt 0 with seq := 5 } 5 7 false with nodes := [] })] } }) (wMem id))) (.func 0) (9) (wAdm 0x0202 [5]) ({ tenant := 0, ringBase := 0x400000000000#64, ringLoc := 0, sizeLog2 := 4, prioMax := 7, shadowAddr := 0, shadowLoc := 1, head := 0, tail := 2, enabled := true, serving := false, shadowDue := none }) := by decide +kernel
theorem witness_WorkCommands_5 : (fun (s : State) (iss : Issuer) (_t : Nat) (a : Admitted) (x : HwQueue) => (s.serves iss 2 0x0203 a) ∧ (s.hwq (msgArg a.msg.toNat 0) = some x)) (wMbx 2 (wAdm 0x0203 [5]) ((fun (s : State) => { s with graph := { s.graph with queues := [(5, { tenant := 0, ringBase := 0x400000000000#64, ringLoc := 0, sizeLog2 := 4, prioMax := 7, shadowAddr := 0, shadowLoc := 1, head := 0, tail := 2, enabled := true, serving := false, shadowDue := none })] } }) (wMem id))) (.func 0) (9) (wAdm 0x0203 [5]) ({ tenant := 0, ringBase := 0x400000000000#64, ringLoc := 0, sizeLog2 := 4, prioMax := 7, shadowAddr := 0, shadowLoc := 1, head := 0, tail := 2, enabled := true, serving := false, shadowDue := none }) := by decide +kernel
theorem witness_WorkCommands_6 : (fun (s : State) (iss : Issuer) (_t : Nat) (a : Admitted) => (s.serves iss 2 0x0204 a) ∧ (s.seqAlive (msgArg a.msg.toNat 0) = false)) (wMbx 2 (wAdm 0x0204 [5]) (wMem id)) (.func 0) (9) (wAdm 0x0204 [5]) := by decide +kernel
theorem witness_WorkCommands_7 : (fun (s : State) (iss : Issuer) (_t : Nat) (a : Admitted) (g : GraphRun) => (s.serves iss 2 0x0204 a) ∧ (s.graphOf (msgArg a.msg.toNat 0) = some g) ∧ (g.failing = none) ∧ (s.graph.entries = []) ∧ (a.started = false)) (wMbx 2 (wAdm 0x0204 [5]) ((fun (s : State) => { s with graph := { s.graph with graphs := [(5, { graphRun { wEnt 0 with seq := 5 } 5 7 false with nodes := [] })] } }) (wMem id))) (.func 0) (9) (wAdm 0x0204 [5]) ({ graphRun { wEnt 0 with seq := 5 } 5 7 false with nodes := [] }) := by decide +kernel
theorem witness_WorkCommands_8 : (fun (s : State) (iss : Issuer) (_t : Nat) (a : Admitted) => (s.serves iss 2 0x0205 a) ∧ (ownTenant iss (msgArg a.msg.toNat 0) < 1024) ∧ ((msgArg a.msg.toNat 0) ≠ 0xFFFE)) (wMbx 2 (wAdm 0x0205 [6]) (wTile (fun x => { x with cache := [] }))) (.func 0) (9) (wAdm 0x0205 [6]) := by decide +kernel
theorem witness_WorkCommands_9 : (fun (s : State) (iss : Issuer) (_t : Nat) (a : Admitted) (k : Nat) => (s.serves iss 2 0x0300 a) ∧ ((msgArg a.msg.toNat 0) < 1024) ∧ ((msgArg a.msg.toNat 2) ≠ 0) ∧ (s.sosOf (msgArg a.msg.toNat 0) + (msgArg a.msg.toNat 2) ≤ s.quotaField (msgArg a.msg.toNat 0) 0x18 4) ∧ ((msgArg a.msg.toNat 1) = 0xFFFFFFFF) ∧ (s.soRun (msgArg a.msg.toNat 2) = some k)) (wMbx 2 (wAdm 0x0300 [0, 4294967295, 2]) (wMem id)) (.func 0) (9) (wAdm 0x0300 [0, 4294967295, 2]) (0) := by decide +kernel
theorem witness_WorkCommands_10 : (fun (s : State) (iss : Issuer) (_t : Nat) (a : Admitted) => (s.serves iss 2 0x0300 a) ∧ ((msgArg a.msg.toNat 0) < 1024) ∧ ((msgArg a.msg.toNat 2) ≠ 0) ∧ (s.quotaField (msgArg a.msg.toNat 0) 0x18 4 < s.sosOf (msgArg a.msg.toNat 0) + (msgArg a.msg.toNat 2))) (wMbx 2 (wAdm 0x0300 [7, 4294967295, 2]) (wMem id)) (.func 0) (9) (wAdm 0x0300 [7, 4294967295, 2]) := by decide +kernel
theorem witness_WorkCommands_11 : (fun (s : State) (iss : Issuer) (_t : Nat) (a : Admitted) => (s.serves iss 2 0x0301 a) ∧ ((msgArg a.msg.toNat 1) = 1) ∧ ((msgArg a.msg.toNat 0) < 131072) ∧ ((s.sync.objs.filter (fun o => o.2.valid && decide ((msgArg a.msg.toNat 0) ≤ o.1) && decide (o.1 < (msgArg a.msg.toNat 0) + 1))).map Prod.fst = [(msgArg a.msg.toNat 0)]) ∧ ((s.so (msgArg a.msg.toNat 0)).waiters = [])) (wMbx 2 (wAdm 0x0301 [7, 1]) ((wMem id).setSo 7 { SyncObj.reset with valid := true })) (.func 0) (9) (wAdm 0x0301 [7, 1]) := by decide +kernel
theorem witness_WorkCommands_12 : (fun (s : State) (iss : Issuer) (_t : Nat) (a : Admitted) => (s.serves iss 2 0x0302 a) ∧ ((msgArg a.msg.toNat 0) < 131072) ∧ ((msgArg a.msg.toNat 1) = 3) ∧ ((s.so (msgArg a.msg.toNat 0)).valid = true) ∧ ((s.so (msgArg a.msg.toNat 0)).waiters = []) ∧ ((s.so (msgArg a.msg.toNat 0)).irqEn = false)) (wMbx 2 (wAdm 0x0302 [7, 3, 9]) ((wMem id).setSo 7 { SyncObj.reset with valid := true })) (.func 0) (9) (wAdm 0x0302 [7, 3, 9]) := by decide +kernel
theorem witness_WorkCommands_13 : (fun (s : State) (iss : Issuer) (_t : Nat) (a : Admitted) => (s.serves iss 2 0x0302 a) ∧ ((msgArg a.msg.toNat 0) < 131072) ∧ ((msgArg a.msg.toNat 1) = 1) ∧ ((s.so (msgArg a.msg.toNat 0)).valid = true) ∧ ((s.so (msgArg a.msg.toNat 0)).count.toNat < (s.so (msgArg a.msg.toNat 0)).threshold (msgArg a.msg.toNat 2))) (wMbx 2 (wAdm 0x0302 [7, 1, 9]) ((wMem id).setSo 7 { SyncObj.reset with valid := true })) (.func 0) (9) (wAdm 0x0302 [7, 1, 9]) := by decide +kernel
theorem witness_WorkCommands_14 : (fun (s : State) (iss : Issuer) (_t : Nat) (a : Admitted) => (s.serves iss 2 0x0303 a) ∧ ((msgArg a.msg.toNat 0) < 131072) ∧ ((msgArg a.msg.toNat 1) ≤ 1) ∧ ((s.so (msgArg a.msg.toNat 0)).valid = true)) (wMbx 2 (wAdm 0x0303 [7, 1, 9]) ((wMem id).setSo 7 { SyncObj.reset with valid := true })) (.func 0) (9) (wAdm 0x0303 [7, 1, 9]) := by decide +kernel
theorem witness_WorkCommands_15 : (fun (s : State) (iss : Issuer) (_t : Nat) (a : Admitted) => (s.serves iss 2 0x0304 a) ∧ ((msgArg a.msg.toNat 0) < 64) ∧ ((msgArg a.msg.toNat 1) < 1024) ∧ ((msgArg a.msg.toNat 2) ≤ 1) ∧ ((msgArg a.msg.toNat 3) < 131072) ∧ (s.barsOf (msgArg a.msg.toNat 1) (msgArg a.msg.toNat 0) < s.quotaField (msgArg a.msg.toNat 1) 0x22 1) ∧ ((s.bar (msgArg a.msg.toNat 0)).valid = false)) (wMbx 2 (wAdm 0x0304 [4, 0, 1, 9, 3, 7]) (wMem id)) (.func 0) (9) (wAdm 0x0304 [4, 0, 1, 9, 3, 7]) := by decide +kernel
theorem witness_WorkCommands_16 : (fun (s : State) (iss : Issuer) (_t : Nat) (a : Admitted) => (s.serves iss 2 0x0305 a) ∧ ((msgArg a.msg.toNat 0) < 64) ∧ ((s.bar (msgArg a.msg.toNat 0)).valid = true) ∧ ((s.bar (msgArg a.msg.toNat 0)).waiting = []) ∧ ((s.bar (msgArg a.msg.toNat 0)).second = [])) (wMbx 2 (wAdm 0x0305 [4]) ((wMem id).setBar 4 { Barrier.reset with valid := true })) (.func 0) (9) (wAdm 0x0305 [4]) := by decide +kernel
theorem witness_WorkCommands_17 : (fun (s : State) (iss : Issuer) (_t : Nat) (a : Admitted) => (s.serves iss 2 0x0306 a) ∧ ((msgArg a.msg.toNat 0) = 0xFFFF) ∧ ((msgArg a.msg.toNat 1) < 1024) ∧ ((msgArg a.msg.toNat 2) < 131072) ∧ ((msgArg a.msg.toNat 3) ≤ 1) ∧ ((msgArg a.msg.toNat 4) % 64 = 0) ∧ ((msgArg a.msg.toNat 5) % 64 = 0) ∧ ((msgArg a.msg.toNat 5) ≠ 0) ∧ ((msgArg a.msg.toNat 5) ≤ 2 ^ 38) ∧ ((msgArg a.msg.toNat 4) + (msgArg a.msg.toNat 5) ≤ 2 ^ 48) ∧ ((s.dma.acs.filter (fun x => x.2.valid)) = []) ∧ (0 < s.quotaField (msgArg a.msg.toNat 1) 0x20 2)) (wMbx 2 (wAdm 0x0306 [65535, 0, 9, 1, 4096, 128, 256]) (wMem id)) (.func 0) (9) (wAdm 0x0306 [65535, 0, 9, 1, 4096, 128, 256]) := by decide +kernel
theorem witness_WorkCommands_18 : (fun (s : State) (iss : Issuer) (_t : Nat) (a : Admitted) => (s.serves iss 2 0x0307 a) ∧ ((msgArg a.msg.toNat 0) < 4096) ∧ ((s.ac (msgArg a.msg.toNat 0)).valid = true) ∧ ((msgArg a.msg.toNat 1) ≤ 1) ∧ ((msgArg a.msg.toNat 3) < 2 ^ 40)) (wMbx 2 (wAdm 0x0307 [3, 1, 512, 5]) ((fun (s : State) => { s with dma := { s.dma with acs := [(3, { ArrivalCounter.reset with valid := true, base := 0x1000, size64 := 2, count := 77 })] } }) (wMem id))) (.func 0) (9) (wAdm 0x0307 [3, 1, 512, 5]) := by decide +kernel
theorem witness_WorkCommands_19 : (fun (s : State) (iss : Issuer) (_t : Nat) (a : Admitted) => (s.serves iss 2 0x0308 a) ∧ ((msgArg a.msg.toNat 0) < 4096) ∧ ((s.ac (msgArg a.msg.toNat 0)).valid = true)) (wMbx 2 (wAdm 0x0308 [3]) ((fun (s : State) => { s with dma := { s.dma with acs := [(3, { ArrivalCounter.reset with valid := true, base := 0x1000, size64 := 2, count := 77 })] } }) (wMem id))) (.func 0) (9) (wAdm 0x0308 [3]) := by decide +kernel
theorem witness_PlacementCommands_1 : (fun (s : State) (iss : Issuer) (_t : Nat) (a : Admitted) (_answer : Option (Option Nat)) (h tk : List (Nat × Nat)) (tb : Nat) => (s.serves iss 2 0x0400 a) ∧ (s.plOk a.msg.toNat = true) ∧ (s.pilot.peerPlace = none) ∧ (s.placeBlocks (plBlockBytes a.msg.toNat) (List.range (plEntries a.msg.toNat)) (s.roundRobin s.pilTaken (s.plUnits a.msg.toNat).1) s.pilTaken = (h, [], tk)) ∧ (freeRange 0 s.t1Top (tableBytes (plEntries a.msg.toNat)) 128 (s.pilTaken ++ h.map (fun x => (x.2, plBlockBytes a.msg.toNat))) = some tb)) (wMbx 2 (wAdm 0x0400 [7, 0, 0, 0, 1, 1, 1, 0, 0, 64, 0, 0, 0, 0, 0, 64]) (wMem id)) (.func 0) (9) (wAdm 0x0400 [7, 0, 0, 0, 1, 1, 1, 0, 0, 64, 0, 0, 0, 0, 0, 64]) (none) ([(0, 206158430208)]) ([(206158430208, 128)]) (0) := by decide +kernel
theorem witness_PlacementCommands_2 : (fun (s : State) (iss : Issuer) (_t : Nat) (a : Admitted) (_answer : Option (Option Nat)) => (s.serves iss 2 0x0400 a) ∧ (s.plOk a.msg.toNat = false)) (wMbx 2 (wAdm 0x0400 [7, 2000, 0, 0, 1, 1, 1, 0, 0, 64, 0, 0, 0, 0, 0, 64]) (wMem id)) (.func 0) (9) (wAdm 0x0400 [7, 2000, 0, 0, 1, 1, 1, 0, 0, 64, 0, 0, 0, 0, 0, 64]) (none) := by decide +kernel
theorem witness_PlacementCommands_3 : (fun (s : State) (iss : Issuer) (_t : Nat) (a : Admitted) (x : PilTensor) => (s.serves iss 2 0x0401 a) ∧ (s.tensorAt (msgArg a.msg.toNat 0) = some x) ∧ (x.freeing = none) ∧ (s.pilot.moves = [])) (wMbx 2 (wAdm 0x0401 [65536]) ((fun (_ : State) => wPil (fun p => { p with tensors := [{ id := 0x77, tenant := 0, cls := 0, array := 0, table := 0x10000, entries := 1, freeing := none }] })) (wMem id))) (.func 0) (9) (wAdm 0x0401 [65536]) ({ id := 0x77, tenant := 0, cls := 0, array := 0, table := 0x10000, entries := 1, freeing := none }) := by decide +kernel
theorem witness_PlacementCommands_4 : (fun (s : State) (iss : Issuer) (_t : Nat) (a : Admitted) (x : PilTensor) (gs : List Nat) => (s.serves iss 2 0x0401 a) ∧ (s.tensorAt (msgArg a.msg.toNat 0) = some x) ∧ (x.freeing = some gs) ∧ (gs.all (fun g => (s.graphOf g).isNone) = true)) (wMbx 2 (wAdm 0x0401 [65536]) ((fun (_ : State) => wPil (fun p => { p with tensors := [{ id := 0x77, tenant := 0, cls := 0, array := 0, table := 0x10000, entries := 1, freeing := some [4] }] })) (wMem id))) (.func 0) (9) (wAdm 0x0401 [65536]) ({ id := 0x77, tenant := 0, cls := 0, array := 0, table := 0x10000, entries := 1, freeing := some [4] }) ([4]) := by decide +kernel
theorem witness_PlacementCommands_5 : (fun (s : State) (iss : Issuer) (_t : Nat) (a : Admitted) => (s.serves iss 2 0x0401 a) ∧ (s.tensorAt (msgArg a.msg.toNat 0) = none)) (wMbx 2 (wAdm 0x0401 [131072]) ((fun (_ : State) => wPil (fun p => { p with tensors := [{ id := 0x77, tenant := 0, cls := 0, array := 0, table := 0x10000, entries := 1, freeing := some [4] }] })) (wMem id))) (.func 0) (9) (wAdm 0x0401 [131072]) := by decide +kernel
theorem witness_PlacementCommands_6 : (fun (s : State) (iss : Issuer) (_t : Nat) (a : Admitted) (x : PilTensor) => (s.serves iss 2 0x0402 a) ∧ (a.started = false) ∧ (s.tensorAt (msgArg a.msg.toNat 0) = some x) ∧ ((msgArg a.msg.toNat 1) + (msgArg a.msg.toNat 2) ≤ x.entries) ∧ ((msgArg a.msg.toNat 3) = 0) ∧ (s.pilot.moves = [])) (wMbx 2 (wAdm 0x0402 [65536, 0, 1, 0, 0]) ((fun (_ : State) => wPil (fun p => { p with tensors := [{ id := 0x77, tenant := 0, cls := 0, array := 0, table := 0x10000, entries := 1, freeing := none }] })) (wMem id))) (.func 0) (9) (wAdm 0x0402 [65536, 0, 1, 0, 0]) ({ id := 0x77, tenant := 0, cls := 0, array := 0, table := 0x10000, entries := 1, freeing := none }) := by decide +kernel
theorem witness_PlacementCommands_7 : (fun (s : State) (iss : Issuer) (_t : Nat) (a : Admitted) (x : PilTensor) => (s.serves iss 2 0x0403 a) ∧ (s.tensorAt (msgArg a.msg.toNat 0) = some x) ∧ ((msgArg a.msg.toNat 1) + (msgArg a.msg.toNat 2) ≤ x.entries)) (wMbx 2 (wAdm 0x0403 [65536, 0, 1, 0, 0]) ((fun (_ : State) => wPil (fun p => { p with tensors := [{ id := 0x77, tenant := 0, cls := 0, array := 0, table := 0x10000, entries := 1, freeing := none }], blocks := [{ wBlk with pinned := true }] })) (wMem id))) (.func 0) (9) (wAdm 0x0403 [65536, 0, 1, 0, 0]) ({ id := 0x77, tenant := 0, cls := 0, array := 0, table := 0x10000, entries := 1, freeing := none }) := by decide +kernel
theorem witness_PlacementCommands_8 : (fun (s : State) (iss : Issuer) (_t : Nat) (a : Admitted) (b : PilBlock) => (s.serves iss 2 0x0404 a) ∧ (a.started = false) ∧ (s.blockOf (msgArg a.msg.toNat 0) (msgArg a.msg.toNat 1) = some b) ∧ (b.pinned = false) ∧ (s.moveOf (msgArg a.msg.toNat 0) (msgArg a.msg.toNat 1) = none) ∧ (s.pilot.moves.length + s.pilot.queue.length < 4096)) (wMbx 2 (wAdm 0x0404 [65536, 0, 0, 0]) ((fun (_ : State) => wPil (fun p => { p with tensors := [{ id := 0x77, tenant := 0, cls := 0, array := 0, table := 0x10000, entries := 1, freeing := none }] })) (wMem id))) (.func 0) (9) (wAdm 0x0404 [65536, 0, 0, 0]) (wBlk) := by decide +kernel
theorem witness_PlacementCommands_9 : (fun (s : State) (iss : Issuer) (_t : Nat) (a : Admitted) (e : Status) => (s.serves iss 2 0x0404 a) ∧ (a.started = true) ∧ (s.pilot.queue = []) ∧ (s.pilot.moves = []) ∧ (s.pilot.ended = [((msgArg a.msg.toNat 0), (msgArg a.msg.toNat 1), e)])) (wMbx 2 ({ wAdm 0x404 [0x10000, 0, 0, 0] with started := true }) ((fun (_ : State) => wPil (fun p => { p with ended := [(0x10000, 0, ST_PIL_BUSY)] })) (wMem id))) (.func 0) (9) ({ wAdm 0x404 [0x10000, 0, 0, 0] with started := true }) (ST_PIL_BUSY) := by decide +kernel
theorem witness_PlacementCommands_10 : (fun (s : State) (iss : Issuer) (_t : Nat) (a : Admitted) (b : PilBlock) => (s.serves iss 2 0x0404 a) ∧ (a.started = false) ∧ (s.blockOf (msgArg a.msg.toNat 0) (msgArg a.msg.toNat 1) = some b) ∧ (b.pinned = true ∨ (s.moveOf (msgArg a.msg.toNat 0) (msgArg a.msg.toNat 1)).isSome = true)) (wMbx 2 (wAdm 0x0404 [65536, 0, 0, 0]) ((fun (_ : State) => wPil (fun p => { p with blocks := [{ wBlk with pinned := true }] })) (wMem id))) (.func 0) (9) (wAdm 0x0404 [65536, 0, 0, 0]) ({ wBlk with pinned := true }) := by decide +kernel
theorem witness_PlacementCommands_11 : (fun (s : State) (iss : Issuer) (_t : Nat) (a : Admitted) (x : PilTensor) => (s.serves iss 2 0x0405 a) ∧ (s.pilot.tensors.find? (fun x => x.id.toNat == (msgArg a.msg.toNat 0)) = some x)) (wMbx 2 (wAdm 0x0405 [119]) ((fun (_ : State) => wPil (fun p => { p with tensors := [{ id := 0x77, tenant := 0, cls := 0, array := 0, table := 0x10000, entries := 1, freeing := none }] })) (wMem id))) (.func 0) (9) (wAdm 0x0405 [119]) ({ id := 0x77, tenant := 0, cls := 0, array := 0, table := 0x10000, entries := 1, freeing := none }) := by decide +kernel
theorem witness_PlacementCommands_12 : (fun (s : State) (iss : Issuer) (_t : Nat) (a : Admitted) => (s.serves iss 2 0x0405 a) ∧ (s.pilot.tensors.find? (fun x => x.id.toNat == (msgArg a.msg.toNat 0)) = none)) (wMbx 2 (wAdm 0x0405 [120]) ((fun (_ : State) => wPil (fun p => { p with tensors := [{ id := 0x77, tenant := 0, cls := 0, array := 0, table := 0x10000, entries := 1, freeing := none }] })) (wMem id))) (.func 0) (9) (wAdm 0x0405 [120]) := by decide +kernel
theorem witness_PlacementCommands_13 : (fun (s : State) (iss : Issuer) (_t : Nat) (a : Admitted) => (s.serves iss 2 0x0406 a) ∧ ((msgArg a.msg.toNat 0) ≤ 2) ∧ ((msgArg a.msg.toNat 1) ≤ 1)) (wMbx 2 (wAdm 0x0406 [1, 1, 80]) (wMem id)) (.func 0) (9) (wAdm 0x0406 [1, 1, 80]) := by decide +kernel
theorem witness_PlacementCommands_14 : (fun (s : State) (iss : Issuer) (_t : Nat) (a : Admitted) => (s.serves iss 2 0x0407 a)) (wMbx 2 (wAdm 0x0407 [5]) (wMem id)) (.func 0) (9) (wAdm 0x0407 [5]) := by decide +kernel
theorem witness_PlacementCommands_15 : (fun (s : State) (iss : Issuer) (t : Nat) (a : Admitted) (n k : Nat) (bs : List Byte) (x : HwQueue) => (s.serves iss 2 0x0500 a) ∧ (n = byteField (natOfBytes bs) 6 1) ∧ (1 ≤ n) ∧ (n ≤ 8) ∧ ((s.at t).accessCheck 0 false (msgArg a.msg.toNat 0) (64 + 64 * n) = none) ∧ (s.region (msgArg a.msg.toNat 0) = .spad k) ∧ (s.bring.tilesFilled = true) ∧ (s.logging = false) ∧ ((msgArg a.msg.toNat 0) % 8 = 0) ∧ ((msgArg a.msg.toNat 0) + (64 + 64 * n) ≤ s.regionEnd (msgArg a.msg.toNat 0)) ∧ (Mem.readBytes s.mem (msgArg a.msg.toNat 0) (64 + 64 * n) = some bs) ∧ (modelFormatOk (natOfBytes bs) n = true) ∧ (s.hwq (byteField (natOfBytes bs) 8 2) = some x) ∧ (s.modelOk { tenant := x.tenant, words := BitVec.ofNat 4608 (natOfBytes bs) } x = true) ∧ (s.srvModel (byteField (natOfBytes bs) 4 2) = none)) (wMbx 2 (wAdm 0x0500 [70368744177664]) ((fun (s : State) => { s with mem := Mem.writeBytes [] 0x400000000000 (bytesOfNat 128 0x4000300010000400000000c000000400000000800000000050001000100000000000000000000000000000000000000000000000000000000000000000000000000000000000000000000000000000000000000050001000900631001), graph := { s.graph with queues := [(5, wQ)], residents := [(3, { tenant := 0, tag := 1, nodes := [], edges := [], unloading := false, solo := none, verified := false }), (4, { tenant := 0, tag := 1, nodes := [], edges := [], unloading := false, solo := none, verified := false })] } }) (wMem id))) (.func 0) (9) (wAdm 0x0500 [70368744177664]) (1) (0) (bytesOfNat 128 0x4000300010000400000000c000000400000000800000000050001000100000000000000000000000000000000000000000000000000000000000000000000000000000000000000000000000000000000000000050001000900631001) (wQ) := by decide +kernel
theorem witness_PlacementCommands_16 : (fun (s : State) (iss : Issuer) (_t : Nat) (a : Admitted) => (s.serves iss 2 0x0501 a) ∧ ((msgArg a.msg.toNat 0) < 4096) ∧ ((s.srvModel (msgArg a.msg.toNat 0)).isSome = true) ∧ (s.serving.entries.all (fun e => e.2.state == 0 || e.2.model != (msgArg a.msg.toNat 0)) = true)) (wMbx 2 (wAdm 0x0501 [0]) ((fun (_ : State) => wSrv 0 0 id) (wMem id))) (.func 0) (9) (wAdm 0x0501 [0]) := by decide +kernel
theorem witness_PlacementCommands_17 : (fun (s : State) (iss : Issuer) (_t : Nat) (a : Admitted) => (s.serves iss 2 0x0501 a) ∧ ((msgArg a.msg.toNat 0) < 4096) ∧ (s.srvModel (msgArg a.msg.toNat 0) = none)) (wMbx 2 (wAdm 0x0501 [7]) ((fun (_ : State) => wSrv 0 0 id) (wMem id))) (.func 0) (9) (wAdm 0x0501 [7]) := by decide +kernel
theorem witness_PlacementCommands_18 : (fun (s : State) (iss : Issuer) (t : Nat) (a : Admitted) (k : Nat) (bs : List Byte) (m : SrvModel) => (s.serves iss 2 0x0502 a) ∧ ((s.at t).accessCheck 0 false (msgArg a.msg.toNat 0) (64) = none) ∧ (s.region (msgArg a.msg.toNat 0) = .spad k) ∧ (s.bring.tilesFilled = true) ∧ (s.logging = false) ∧ ((msgArg a.msg.toNat 0) % 8 = 0) ∧ ((msgArg a.msg.toNat 0) + (64) ≤ s.regionEnd (msgArg a.msg.toNat 0)) ∧ (Mem.readBytes s.mem (msgArg a.msg.toNat 0) (64) = some bs) ∧ (geomFormatOk (natOfBytes bs) = true) ∧ (s.srvModel (kvModel (natOfBytes bs)) = some m) ∧ (s.tiers.t1Up = true) ∧ (((List.range 12).filter (fun st => bit (kvMask (natOfBytes bs)) st)).all (fun st => decide (0 < s.pcCount st) && s.pilTaken.all (fun r => decide (s.stackBase st + 65536 * s.pcCount st * kvJ0 (natOfBytes bs) + 65536 * s.pcCount st * kvChunks (natOfBytes bs) ≤ r.1) || decide (r.1 + r.2 ≤ s.stackBase st + 65536 * s.pcCount st * kvJ0 (natOfBytes bs)))) = true) ∧ (kvJ0 (natOfBytes bs) + kvChunks (natOfBytes bs) ≤ (4 - s.tiers.spread) * 4096) ∧ (s.areaGranted m.tenant .tier1 (kvListAddr (natOfBytes bs)) (kvListBytes (natOfBytes bs)) = true) ∧ (kvPeer (natOfBytes bs) = true ∨ s.areaGranted m.tenant .tier2 (kvParkAddr (natOfBytes bs)) (kvParkBytes (natOfBytes bs)) = true) ∧ (s.kvGeom (kvModel (natOfBytes bs)) = none)) (wMbx 2 (wAdm 0x0502 [70368744177664]) ((fun (s : State) => { s with mem := Mem.writeBytes [] 0x400000000000 (bytesOfNat 64 0x200000000000000000000000100000000000004000000000000700010001000000000000000000100001010500010140000901650801), serving := { s.serving with models := [(9, wSm 0)] } }) (wMem id))) (.func 0) (9) (wAdm 0x0502 [70368744177664]) (0) (bytesOfNat 64 0x200000000000000000000000100000000000004000000000000700010001000000000000000000100001010500010140000901650801) (wSm 0) := by decide +kernel
theorem witness_PlacementCommands_19 : (fun (s : State) (iss : Issuer) (_t : Nat) (a : Admitted) => (s.serves iss 2 0x0503 a) ∧ ((msgArg a.msg.toNat 0) < 4096)) (wMbx 2 (wAdm 0x0503 [5, 200]) (wMem id)) (.func 0) (9) (wAdm 0x0503 [5, 200]) := by decide +kernel
theorem witness_PlacementCommands_20 : (fun (s : State) (iss : Issuer) (_t : Nat) (a : Admitted) => (s.serves iss 2 0x0504 a) ∧ ((msgArg a.msg.toNat 3) < 16)) (wMbx 2 (wAdm 0x0504 [100, 200, 3, 4]) (wMem id)) (.func 0) (9) (wAdm 0x0504 [100, 200, 3, 4]) := by decide +kernel
theorem witness_PlacementCommands_21 : (fun (s : State) (iss : Issuer) (_t : Nat) (a : Admitted) => (s.serves iss 2 0x0504 a) ∧ (16 ≤ (msgArg a.msg.toNat 3))) (wMbx 2 (wAdm 0x0504 [100, 200, 3, 16]) (wMem id)) (.func 0) (9) (wAdm 0x0504 [100, 200, 3, 16]) := by decide +kernel
theorem witness_ModuleCommands_1 : (fun (s : State) (iss : Issuer) (_t : Nat) (a : Admitted) => (s.serves iss 2 0x0600 a)) (wMbx 2 (wAdm 0x0600 []) (wMem id)) (.func 0) (9) (wAdm 0x0600 []) := by decide +kernel
theorem witness_ModuleCommands_2 : (fun (s : State) (iss : Issuer) (_t : Nat) (a : Admitted) => (s.serves iss 2 0x0601 a) ∧ ((msgArg a.msg.toNat 0) ≤ 6)) (wMbx 2 (wAdm 0x0601 [3]) ((fun (s : State) => { s with tiers := { s.tiers with resv := [(3, 0x1000, 131072)] } }) (wMem id))) (.func 0) (9) (wAdm 0x0601 [3]) := by decide +kernel
theorem witness_ModuleCommands_3 : (fun (s : State) (iss : Issuer) (_t : Nat) (a : Admitted) => (s.serves iss 2 0x0601 a) ∧ (6 < (msgArg a.msg.toNat 0))) (wMbx 2 (wAdm 0x0601 [7]) (wMem id)) (.func 0) (9) (wAdm 0x0601 [7]) := by decide +kernel
theorem witness_ModuleCommands_4 : (fun (s : State) (iss : Issuer) (_t : Nat) (a : Admitted) => (s.serves iss 2 0x0602 a) ∧ ((msgArg a.msg.toNat 0) < 16) ∧ (a.started = false) ∧ ((s.chan (msgArg a.msg.toNat 0)).state = 1) ∧ (s.tiers.merge = []) ∧ ((List.range 16).all (fun k => k / 8 != (msgArg a.msg.toNat 0) / 8 || (s.chan k).state != 2) = true)) (wMbx 2 (wAdm 0x0602 [3]) ((fun (_ : State) => wMem (fun t => { t with chans := [(3, { T2Chan.reset with state := 1 })] })) (wMem id))) (.func 0) (9) (wAdm 0x0602 [3]) := by decide +kernel
theorem witness_ModuleCommands_5 : (fun (s : State) (iss : Issuer) (_t : Nat) (a : Admitted) => (s.serves iss 2 0x0602 a) ∧ ((msgArg a.msg.toNat 0) < 16) ∧ (a.started = true) ∧ ((s.chan (msgArg a.msg.toNat 0)).state = 1) ∧ ((s.chan (msgArg a.msg.toNat 0)).cause ≠ 3)) (wMbx 2 ({ wAdm 0x602 [3] with started := true }) ((fun (_ : State) => wMem (fun t => { t with chans := [(3, { T2Chan.reset with state := 1, lastUs := 77 })] })) (wMem id))) (.func 0) (9) ({ wAdm 0x602 [3] with started := true }) := by decide +kernel
theorem witness_ModuleCommands_6 : (fun (s : State) (iss : Issuer) (_t : Nat) (a : Admitted) => (s.serves iss 2 0x0602 a) ∧ ((msgArg a.msg.toNat 0) < 16) ∧ (a.started = false) ∧ ((s.chan (msgArg a.msg.toNat 0)).state = 2)) (wMbx 2 (wAdm 0x0602 [3]) ((fun (_ : State) => wMem (fun t => { t with chans := [(3, { T2Chan.reset with state := 2 })] })) (wMem id))) (.func 0) (9) (wAdm 0x0602 [3]) := by decide +kernel
theorem witness_ModuleCommands_7 : (fun (s : State) (iss : Issuer) (_t : Nat) (a : Admitted) => (s.serves iss 2 0x0602 a) ∧ ((msgArg a.msg.toNat 0) < 16) ∧ ((s.chan (msgArg a.msg.toNat 0)).state ≠ 1) ∧ ((s.chan (msgArg a.msg.toNat 0)).state ≠ 2)) (wMbx 2 (wAdm 0x0602 [3]) ((fun (_ : State) => wMem (fun t => { t with chans := [(3, { T2Chan.reset with state := 3 })] })) (wMem id))) (.func 0) (9) (wAdm 0x0602 [3]) := by decide +kernel
theorem witness_ModuleCommands_8 : (fun (s : State) (iss : Issuer) (_t : Nat) (a : Admitted) => (s.serves iss 2 0x0603 a) ∧ ((msgArg a.msg.toNat 0) < 16) ∧ ((msgArg a.msg.toNat 1) < 2)) (wMbx 2 (wAdm 0x0603 [3, 1, 9]) ((fun (_ : State) => wMem (fun t => { t with chans := [(3, { T2Chan.reset with state := 1 })] })) (wMem id))) (.func 0) (9) (wAdm 0x0603 [3, 1, 9]) := by decide +kernel
theorem witness_ModuleCommands_9 : (fun (s : State) (iss : Issuer) (_t : Nat) (a : Admitted) => (s.serves iss 2 0x0604 a) ∧ ((msgArg a.msg.toNat 0) = 3) ∧ ((msgArg a.msg.toNat 2) < 4096)) (wMbx 2 (wAdm 0x0604 [3, 12, 5]) (wMem id)) (.func 0) (9) (wAdm 0x0604 [3, 12, 5]) := by decide +kernel
theorem witness_ModuleCommands_10 : (fun (s : State) (iss : Issuer) (_t : Nat) (a : Admitted) => (s.serves iss 2 0x0604 a) ∧ ((msgArg a.msg.toNat 0) = 4)) (wMbx 2 (wAdm 0x0604 [4, 12, 5]) (wMem id)) (.func 0) (9) (wAdm 0x0604 [4, 12, 5]) := by decide +kernel
theorem witness_ModuleCommands_11 : (fun (s : State) (iss : Issuer) (_t : Nat) (a : Admitted) => (s.serves iss 2 0x0605 a) ∧ ((msgArg a.msg.toNat 0) = 1) ∧ ((msgArg a.msg.toNat 1) < 64)) (wMbx 2 (wAdm 0x0605 [1, 7, 99, 5]) (wMem id)) (.func 0) (9) (wAdm 0x0605 [1, 7, 99, 5]) := by decide +kernel
theorem witness_ModuleCommands_12 : (fun (s : State) (iss : Issuer) (_t : Nat) (a : Admitted) (k : Nat) => (s.serves iss 2 0x0605 a) ∧ ((msgArg a.msg.toNat 0) = 3 ∧ (msgArg a.msg.toNat 1) < 12 ∧ k = (msgArg a.msg.toNat 1) ∨ (msgArg a.msg.toNat 0) = 4 ∧ (msgArg a.msg.toNat 1) < 16 ∧ k = 64 + (msgArg a.msg.toNat 1))) (wMbx 2 (wAdm 0x0605 [4, 7, 99, 5]) (wMem id)) (.func 0) (9) (wAdm 0x0605 [4, 7, 99, 5]) (71) := by decide +kernel
theorem witness_ModuleCommands_13 : (fun (s : State) (iss : Issuer) (_t : Nat) (a : Admitted) => (s.serves iss 2 0x0605 a) ∧ ((msgArg a.msg.toNat 0) ≠ 1) ∧ ((msgArg a.msg.toNat 0) ≠ 3) ∧ ((msgArg a.msg.toNat 0) ≠ 4)) (wMbx 2 (wAdm 0x0605 [2, 7, 99, 5]) (wMem id)) (.func 0) (9) (wAdm 0x0605 [2, 7, 99, 5]) := by decide +kernel
theorem witness_ModuleCommands_14 : (fun (s : State) (iss : Issuer) (t : Nat) (a : Admitted) (k : Nat) (bs : List Byte) (es : List (BitVec 64 × Bool × BitVec 13)) => (s.serves iss 2 0x0700 a) ∧ ((s.at t).accessCheck 0 false (msgArg a.msg.toNat 0) (16 * (msgArg a.msg.toNat 1)) = none) ∧ (s.region (msgArg a.msg.toNat 0) = .spad k) ∧ (s.bring.tilesFilled = true) ∧ (s.logging = false) ∧ ((msgArg a.msg.toNat 0) % 8 = 0) ∧ ((msgArg a.msg.toNat 0) + (16 * (msgArg a.msg.toNat 1)) ≤ s.regionEnd (msgArg a.msg.toNat 0)) ∧ (Mem.readBytes s.mem (msgArg a.msg.toNat 0) (16 * (msgArg a.msg.toNat 1)) = some bs) ∧ ((msgArg a.msg.toNat 0) < 2 ^ 48) ∧ ((msgArg a.msg.toNat 1) ≠ 0) ∧ (berthEntries (natOfBytes bs) (msgArg a.msg.toNat 1) = some es) ∧ (es.map Prod.fst = (es.map Prod.fst).eraseDups) ∧ (es.map Prod.snd = (es.map Prod.snd).eraseDups)) (wMbx 2 (wAdm 0x0700 [70368744177664, 2]) ((fun (s : State) => { s with mem := Mem.writeBytes [] 0x400000000000 (bytesOfNat 32 0x600000000000000334400000000000005000000000000001122) }) (wMem id))) (.func 0) (9) (wAdm 0x0700 [70368744177664, 2]) (0) (bytesOfNat 32 0x600000000000000334400000000000005000000000000001122) ([(0x1122#64, false, 5#13), (0x3344#64, false, 6#13)]) := by decide +kernel
theorem witness_ModuleCommands_15 : (fun (s : State) (iss : Issuer) (t : Nat) (a : Admitted) (k : Nat) (bs : List Byte) (es : List (BitVec 64 × Bool × BitVec 13)) => (s.serves iss 2 0x0700 a) ∧ ((s.at t).accessCheck 0 false (msgArg a.msg.toNat 0) (16 * (msgArg a.msg.toNat 1)) = none) ∧ (s.region (msgArg a.msg.toNat 0) = .spad k) ∧ (s.bring.tilesFilled = true) ∧ (s.logging = false) ∧ ((msgArg a.msg.toNat 0) % 8 = 0) ∧ ((msgArg a.msg.toNat 0) + (16 * (msgArg a.msg.toNat 1)) ≤ s.regionEnd (msgArg a.msg.toNat 0)) ∧ (Mem.readBytes s.mem (msgArg a.msg.toNat 0) (16 * (msgArg a.msg.toNat 1)) = some bs) ∧ ((msgArg a.msg.toNat 0) < 2 ^ 48) ∧ ((msgArg a.msg.toNat 1) ≠ 0) ∧ (berthEntries (natOfBytes bs) (msgArg a.msg.toNat 1) = some es) ∧ (es.map Prod.fst ≠ (es.map Prod.fst).eraseDups ∨ es.map Prod.snd ≠ (es.map Prod.snd).eraseDups)) (wMbx 2 (wAdm 0x0700 [70368744177664, 2]) ((fun (s : State) => { s with mem := Mem.writeBytes [] 0x400000000000 (bytesOfNat 32 0x500000000000000334400000000000005000000000000001122) }) (wMem id))) (.func 0) (9) (wAdm 0x0700 [70368744177664, 2]) (0) (bytesOfNat 32 0x500000000000000334400000000000005000000000000001122) ([(0x1122#64, false, 5#13), (0x3344#64, false, 5#13)]) := by decide +kernel
theorem witness_ModuleCommands_16 : (fun (s : State) (iss : Issuer) (_t : Nat) (a : Admitted) => (s.serves iss 2 0x0701 a) ∧ (s.fab.step = 0) ∧ (s.fab.twinMode = false ∨ s.licences.getLsbD 3 = true)) (wMbx 2 (wAdm 0x0701 []) ((fun (_ : State) => { wFab (fun x => { x with step := 0, assigned := false }) with free := 0 }) (wMem id))) (.func 0) (9) (wAdm 0x0701 []) := by decide +kernel
theorem witness_ModuleCommands_17 : (fun (s : State) (iss : Issuer) (_t : Nat) (a : Admitted) => (s.serves iss 2 0x0701 a) ∧ (s.fab.twinMode = true) ∧ (s.licences.getLsbD 3 = false)) (wMbx 2 (wAdm 0x0701 []) ((fun (_ : State) => { wFab (fun x => { x with twinMode := true }) with free := 0 }) (wMem id))) (.func 0) (9) (wAdm 0x0701 []) := by decide +kernel
theorem witness_ModuleCommands_18 : (fun (s : State) (iss : Issuer) (_t : Nat) (a : Admitted) => (s.serves iss 2 0x0702 a) ∧ ((msgArg a.msg.toNat 0) < 16) ∧ ((s.port (msgArg a.msg.toNat 0)).en = ((msgArg a.msg.toNat 1) == 1)) ∧ ((msgArg a.msg.toNat 1) < 2) ∧ ((msgArg a.msg.toNat 1) = 1 → s.portLicensed (msgArg a.msg.toNat 0) = true)) (wMbx 2 (wAdm 0x0702 [3, 1, 9, 300]) ((fun (_ : State) => { wFab (fun x => { x with ports := [(3, wPort id)] }) with free := 0 }) (wMem id))) (.func 0) (9) (wAdm 0x0702 [3, 1, 9, 300]) := by decide +kernel
theorem witness_ModuleCommands_19 : (fun (s : State) (iss : Issuer) (_t : Nat) (a : Admitted) => (s.serves iss 2 0x0702 a) ∧ ((msgArg a.msg.toNat 0) < 16) ∧ ((s.port (msgArg a.msg.toNat 0)).en = true) ∧ ((msgArg a.msg.toNat 1) = 0) ∧ (s.fab.waitQ = [])) (wMbx 2 (wAdm 0x0702 [3, 0, 9, 300]) ((fun (_ : State) => { wFab (fun x => { x with ports := [(3, wPort id)] }) with free := 0 }) (wMem id))) (.func 0) (9) (wAdm 0x0702 [3, 0, 9, 300]) := by decide +kernel
theorem witness_ModuleCommands_20 : (fun (s : State) (iss : Issuer) (_t : Nat) (a : Admitted) => (s.serves iss 2 0x0702 a) ∧ ((msgArg a.msg.toNat 0) < 16) ∧ ((msgArg a.msg.toNat 1) = 1) ∧ (s.portLicensed (msgArg a.msg.toNat 0) = false)) (wMbx 2 (wAdm 0x0702 [15, 1, 9, 300]) ((fun (_ : State) => { wFab (fun x => { x with ports := [(3, wPort id)] }) with free := 0 }) (wMem id))) (.func 0) (9) (wAdm 0x0702 [15, 1, 9, 300]) := by decide +kernel
theorem witness_ModuleCommands_21 : (fun (s : State) (iss : Issuer) (_t : Nat) (a : Admitted) => (s.serves iss 2 0x0703 a) ∧ ((msgArg a.msg.toNat 0) < 16) ∧ (a.started = false) ∧ ((s.port (msgArg a.msg.toNat 0)).state = 2 ∨ (s.port (msgArg a.msg.toNat 0)).state = 4)) (wMbx 2 (wAdm 0x0703 [3]) ((fun (_ : State) => { wFab (fun x => { x with ports := [(3, wPort id)] }) with free := 0 }) (wMem id))) (.func 0) (9) (wAdm 0x0703 [3]) := by decide +kernel
theorem witness_ModuleCommands_22 : (fun (s : State) (iss : Issuer) (_t : Nat) (a : Admitted) => (s.serves iss 2 0x0703 a) ∧ ((msgArg a.msg.toNat 0) < 16) ∧ (a.started = true) ∧ ((s.port (msgArg a.msg.toNat 0)).state = 2)) (wMbx 2 ({ wAdm 0x703 [3] with started := true }) ((fun (_ : State) => { wFab (fun x => { x with ports := [(3, wPort (fun p => { p with lanes := 4 }))] }) with free := 0 }) (wMem id))) (.func 0) (9) ({ wAdm 0x703 [3] with started := true }) := by decide +kernel
theorem witness_ModuleCommands_23 : (fun (s : State) (iss : Issuer) (_t : Nat) (a : Admitted) => (s.serves iss 2 0x0703 a) ∧ ((msgArg a.msg.toNat 0) < 16) ∧ (a.started = false) ∧ ((s.port (msgArg a.msg.toNat 0)).state ≠ 2) ∧ ((s.port (msgArg a.msg.toNat 0)).state ≠ 3) ∧ ((s.port (msgArg a.msg.toNat 0)).state ≠ 4) ∧ (s.portLicensed (msgArg a.msg.toNat 0) = true)) (wMbx 2 (wAdm 0x0703 [3]) ((fun (_ : State) => { wFab (fun x => { x with ports := [(3, FabPort.reset)] }) with free := 0 }) (wMem id))) (.func 0) (9) (wAdm 0x0703 [3]) := by decide +kernel
theorem witness_ModuleCommands_24 : (fun (s : State) (iss : Issuer) (_t : Nat) (a : Admitted) => (s.serves iss 2 0x0704 a)) (wMbx 2 (wAdm 0x0704 [500]) (wMem id)) (.func 0) (9) (wAdm 0x0704 [500]) := by decide +kernel
theorem witness_ModuleCommands_25 : (fun (s : State) (iss : Issuer) (_t : Nat) (a : Admitted) => (s.serves iss 2 0x0705 a) ∧ ((msgArg a.msg.toNat 0) < 2) ∧ ((msgArg a.msg.toNat 1) < 4096) ∧ ((msgArg a.msg.toNat 2) < 4096)) (wMbx 2 (wAdm 0x0705 [1, 100, 200]) (wMem id)) (.func 0) (9) (wAdm 0x0705 [1, 100, 200]) := by decide +kernel
theorem witness_ModuleCommands_26 : (fun (s : State) (iss : Issuer) (_t : Nat) (a : Admitted) => (s.serves iss 2 0x0705 a) ∧ (2 ≤ (msgArg a.msg.toNat 0) ∨ 4096 ≤ (msgArg a.msg.toNat 1) ∨ 4096 ≤ (msgArg a.msg.toNat 2))) (wMbx 2 (wAdm 0x0705 [1, 5000, 200]) (wMem id)) (.func 0) (9) (wAdm 0x0705 [1, 5000, 200]) := by decide +kernel
theorem witness_ModuleCommands_27 : (fun (s : State) (iss : Issuer) (_t : Nat) (a : Admitted) => (s.serves iss 2 0x0706 a) ∧ (a.started = false) ∧ (s.fab.twinMode = true) ∧ (s.fab.twin.state = 1 ∨ s.fab.twin.state = 2)) (wMbx 2 (wAdm 0x0706 []) ((fun (_ : State) => { wFab (fun x => { x with twinMode := true, twin := { x.twin with state := 2 } }) with free := 0 }) (wMem id))) (.func 0) (9) (wAdm 0x0706 []) := by decide +kernel
theorem witness_ModuleCommands_28 : (fun (s : State) (iss : Issuer) (_t : Nat) (a : Admitted) => (s.serves iss 2 0x0706 a) ∧ (a.started = true) ∧ (s.fab.twin.takeoverAt = none)) (wMbx 2 ({ wAdm 0x706 [] with started := true }) ((fun (_ : State) => { wFab (fun x => { x with twinMode := true, twin := { x.twin with state := 4, taken := 6 } }) with free := 0 }) (wMem id))) (.func 0) (9) ({ wAdm 0x706 [] with started := true }) := by decide +kernel
theorem witness_ModuleCommands_29 : (fun (s : State) (iss : Issuer) (_t : Nat) (a : Admitted) => (s.serves iss 2 0x0706 a) ∧ (a.started = false) ∧ (s.fab.twin.state ≠ 1) ∧ (s.fab.twin.state ≠ 2)) (wMbx 2 (wAdm 0x0706 []) ((fun (_ : State) => { wFab (fun x => { x with twinMode := true }) with free := 0 }) (wMem id))) (.func 0) (9) (wAdm 0x0706 []) := by decide +kernel
theorem witness_ModuleCommands_30 : (fun (s : State) (iss : Issuer) (_t : Nat) (a : Admitted) => (s.serves iss 2 0x0707 a) ∧ (s.fab.twinMode = true) ∧ ((s.port 14).state = 2 ∨ (s.port 15).state = 2) ∧ (s.serving.entries = [])) (wMbx 2 (wAdm 0x0707 []) ((fun (_ : State) => { wFab (fun x => { x with twinMode := true, ports := [(14, wPort id)] }) with free := 0 }) (wMem id))) (.func 0) (9) (wAdm 0x0707 []) := by decide +kernel
theorem witness_ModuleCommands_31 : (fun (s : State) (iss : Issuer) (_t : Nat) (a : Admitted) => (s.serves iss 2 0x0707 a) ∧ (s.fab.twinMode = true) ∧ ((s.port 14).state = 2 ∨ (s.port 15).state = 2)) (wMbx 2 (wAdm 0x0707 []) ((fun (_ : State) => { wFab (fun x => { x with twinMode := true, ports := [(14, wPort id)] }) with free := 0, serving := { State.reset.serving with entries := [(4, { SrvEntry.free with w := 2#512 })] } }) (wMem id))) (.func 0) (9) (wAdm 0x0707 []) := by decide +kernel
theorem witness_ModuleCommands_32 : (fun (s : State) (iss : Issuer) (_t : Nat) (a : Admitted) => (s.serves iss 2 0x0707 a) ∧ (s.fab.twinMode = false)) (wMbx 2 (wAdm 0x0707 []) ((fun (_ : State) => { wFab (fun x => { x with berth := 5 }) with free := 0 }) (wMem id))) (.func 0) (9) (wAdm 0x0707 []) := by decide +kernel
theorem witness_RecordCommands_1 : (fun (s : State) (iss : Issuer) (_t : Nat) (a : Admitted) => (s.serves iss 2 0x0800 a) ∧ (s.log.mark = none) ∧ ((msgArg a.msg.toNat 0) < 2) ∧ ((msgArg a.msg.toNat 1) = 0) ∧ ((s.resv 6).2 ≠ 0) ∧ (s.log.replayFrom = none)) (wMbx 2 (wAdm 0x0800 [1, 0]) ((fun (_ : State) => { wLog (fun l => l) with free := 0 }) (wMem id))) (.func 0) (9) (wAdm 0x0800 [1, 0]) := by decide +kernel
theorem witness_RecordCommands_2 : (fun (s : State) (iss : Issuer) (_t : Nat) (a : Admitted) => (s.serves iss 2 0x0800 a) ∧ (s.log.mark = none) ∧ ((msgArg a.msg.toNat 0) < 2) ∧ ((msgArg a.msg.toNat 1) = 1) ∧ ((s.resv 6).2 ≠ 0) ∧ (s.log.replayFrom = none) ∧ (s.fab.rt = []) ∧ (s.fab.adverts = []) ∧ (s.logging = false)) (wMbx 2 (wAdm 0x0800 [1, 1]) ((fun (_ : State) => { wLog (fun l => l) with free := 0 }) (wMem id))) (.func 0) (9) (wAdm 0x0800 [1, 1]) := by decide +kernel
theorem witness_RecordCommands_3 : (fun (s : State) (iss : Issuer) (_t : Nat) (a : Admitted) => (s.serves iss 2 0x0800 a) ∧ (s.log.mark = none) ∧ (2 ≤ (msgArg a.msg.toNat 0) ∨ 2 ≤ (msgArg a.msg.toNat 1) ∨ (s.resv 6).2 = 0 ∨ s.log.replayFrom.isSome = true)) (wMbx 2 (wAdm 0x0800 [2, 0]) ((fun (_ : State) => { wLog (fun l => l) with free := 0 }) (wMem id))) (.func 0) (9) (wAdm 0x0800 [2, 0]) := by decide +kernel
theorem witness_RecordCommands_4 : (fun (s : State) (iss : Issuer) (_t : Nat) (a : Admitted) => (s.serves iss 2 0x0802 a) ∧ (s.log.mark = none) ∧ ((msgArg a.msg.toNat 0) = 0) ∧ (s.log.recording = true)) (wMbx 2 (wAdm 0x0802 [0]) ((fun (_ : State) => { wLog (fun l => { l with recording := true }) with free := 0 }) (wMem id))) (.func 0) (9) (wAdm 0x0802 [0]) := by decide +kernel
theorem witness_RecordCommands_5 : (fun (s : State) (iss : Issuer) (_t : Nat) (a : Admitted) => (s.serves iss 2 0x0802 a) ∧ (s.log.mark = none) ∧ (s.log.recording = false)) (wMbx 2 (wAdm 0x0802 [0]) ((fun (_ : State) => { wLog (fun l => l) with free := 0 }) (wMem id))) (.func 0) (9) (wAdm 0x0802 [0]) := by decide +kernel
theorem witness_RecordCommands_6 : (fun (s : State) (iss : Issuer) (_t : Nat) (a : Admitted) => (s.serves iss 2 0x0801 a) ∧ (s.log.recording = true) ∧ (s.log.points = [])) (wMbx 2 (wAdm 0x0801 []) ((fun (_ : State) => { wLog (fun l => { l with recording := true, nextRec := 7 }) with free := 0 }) (wMem id))) (.func 0) (9) (wAdm 0x0801 []) := by decide +kernel
theorem witness_RecordCommands_7 : (fun (s : State) (iss : Issuer) (_t : Nat) (a : Admitted) => (s.serves iss 2 0x0801 a) ∧ (s.log.recording = false)) (wMbx 2 (wAdm 0x0801 []) ((fun (_ : State) => { wLog (fun l => { l with nextRec := 7 }) with free := 0 }) (wMem id))) (.func 0) (9) (wAdm 0x0801 []) := by decide +kernel
theorem witness_RecordCommands_8 : (fun (s : State) (iss : Issuer) (_t : Nat) (a : Admitted) (bs : List Byte) (rs : List (Option Nat)) (r : Nat) => (s.serves iss 2 0x0803 a) ∧ (s.readMem (s.resv 6).1 64 = some bs) ∧ ((s.resv 6).2 ≠ 0) ∧ (s.log.recording = false) ∧ (s.log.replayFrom = none) ∧ (byteField (natOfBytes bs) 0 3 = 0x720801) ∧ (({ s with log := { s.log with first := byteField (natOfBytes bs) 0x20 8, nextRec := byteField (natOfBytes bs) 0x28 8 } } : State).logRecords (msgArg a.msg.toNat 0) = rs) ∧ (byteField (natOfBytes bs) 0x20 8 ≤ (msgArg a.msg.toNat 0)) ∧ ((msgArg a.msg.toNat 0) < byteField (natOfBytes bs) 0x28 8) ∧ ((rs.all (fun r => (r.map (fun x => recKind x != 5)).getD false)) = true) ∧ (rs.head? = some (some r)) ∧ (recKind r = 4) ∧ (bit r 20 = true)) (wMbx 2 (wAdm 0x0803 [1]) ((fun (_ : State) => { wLog (fun l => l) with free := 0, mem := Mem.writeBytes (Mem.writeBytes [] 0x100000 (bytesOfNat 128 0x1000000000000000200000000000000000000000000000000000000000000000000000000000000000000000000720801)) 0x101000 (bytesOfNat 128 (2 ^ (8 * 16) * (4 + 2 ^ 20))) }) (wMem id))) (.func 0) (9) (wAdm 0x0803 [1]) (bytesOfNat 64 0x1000000000000000200000000000000000000000000000000000000000000000000000000000000000000000000720801) ([some 1048580]) (1048580) := by decide +kernel
theorem witness_RecordCommands_9 : (fun (s : State) (iss : Issuer) (_t : Nat) (a : Admitted) => (s.serves iss 2 0x0803 a) ∧ (s.log.replayFrom.isSome = true ∨ s.log.recording = true)) (wMbx 2 (wAdm 0x0803 [1]) ((fun (_ : State) => { wLog (fun l => { l with recording := true }) with free := 0 }) (wMem id))) (.func 0) (9) (wAdm 0x0803 [1]) := by decide +kernel
theorem witness_RecordCommands_10 : (fun (s : State) (iss : Issuer) (_t : Nat) (a : Admitted) => (s.serves iss 2 0x0804 a) ∧ (s.log.replayFrom.isSome = true) ∧ (s.log.held = false)) (wMbx 2 (wAdm 0x0804 []) ((fun (_ : State) => { wLog (fun l => { l with replayFrom := some 0, nextRec := 5 }) with free := 0 }) (wMem id))) (.func 0) (9) (wAdm 0x0804 []) := by decide +kernel
theorem witness_RecordCommands_11 : (fun (s : State) (iss : Issuer) (_t : Nat) (a : Admitted) => (s.serves iss 2 0x0804 a) ∧ (s.log.replayFrom = none)) (wMbx 2 (wAdm 0x0804 []) ((fun (_ : State) => { wLog (fun l => l) with free := 0 }) (wMem id))) (.func 0) (9) (wAdm 0x0804 []) := by decide +kernel
theorem witness_RecordCommands_12 : (fun (s : State) (iss : Issuer) (_t : Nat) (a : Admitted) => (s.serves iss 2 0x0B00 a) ∧ (bits (msgArg a.msg.toNat 1) 4 3 = 0) ∧ (bit (msgArg a.msg.toNat 1) 7 = false) ∧ (s.trace.sinkPages ≠ 0 ∨ ((msgArg a.msg.toNat 0) = 0 ∧ bit (msgArg a.msg.toNat 1) 3 = false))) (wMbx 2 (wAdm 0x0B00 [5, 9]) ((fun (s : State) => { s with trace := { s.trace with sinkPages := 65 } }) (wMem id))) (.func 0) (9) (wAdm 0x0B00 [5, 9]) := by decide +kernel
theorem witness_RecordCommands_13 : (fun (s : State) (iss : Issuer) (_t : Nat) (a : Admitted) => (s.serves iss 2 0x0B00 a) ∧ (bits (msgArg a.msg.toNat 1) 4 3 = 0) ∧ (bit (msgArg a.msg.toNat 1) 7 = false) ∧ (s.trace.sinkPages = 0) ∧ ((msgArg a.msg.toNat 0) ≠ 0 ∨ bit (msgArg a.msg.toNat 1) 3 = true)) (wMbx 2 (wAdm 0x0B00 [5, 9]) (wMem id)) (.func 0) (9) (wAdm 0x0B00 [5, 9]) := by decide +kernel
theorem witness_RecordCommands_14 : (fun (s : State) (iss : Issuer) (_t : Nat) (a : Admitted) => (s.serves iss 2 0x0B00 a) ∧ (bits (msgArg a.msg.toNat 1) 4 3 = 0) ∧ (bit (msgArg a.msg.toNat 1) 7 = true) ∧ (s.trace.sinkPages ≠ 0 ∨ ((msgArg a.msg.toNat 0) = 0 ∧ bit (msgArg a.msg.toNat 1) 3 = false))) (wMbx 2 (wAdm 0x0B00 [5, 137]) ((fun (s : State) => { s with trace := { s.trace with sinkPages := 65, modCnt := [(3, 7)] } }) (wMem id))) (.func 0) (9) (wAdm 0x0B00 [5, 137]) := by decide +kernel
theorem witness_RecordCommands_15 : (fun (s : State) (iss : Issuer) (_t : Nat) (a : Admitted) => (s.serves iss 2 0x0B01 a) ∧ (((List.range 65).all (fun k => !(s.unit k).en)) = true) ∧ ((msgArg a.msg.toNat 0) % 4096 = 0) ∧ ((msgArg a.msg.toNat 1) % 4096 = 0) ∧ (266240 ≤ (msgArg a.msg.toNat 1)) ∧ ((msgArg a.msg.toNat 1) ≤ 2 ^ 36) ∧ ((msgArg a.msg.toNat 0) + (msgArg a.msg.toNat 1) ≤ s.t1Top ∨ (tier2Base ≤ (msgArg a.msg.toNat 0) ∧ (msgArg a.msg.toNat 0) + (msgArg a.msg.toNat 1) ≤ s.t2Top)) ∧ (s.resvHit (msgArg a.msg.toNat 0) (msgArg a.msg.toNat 1) = [])) (wMbx 2 (wAdm 0x0B01 [2097152, 532480]) (wMem id)) (.func 0) (9) (wAdm 0x0B01 [2097152, 532480]) := by decide +kernel
theorem witness_RecordCommands_16 : (fun (s : State) (iss : Issuer) (_t : Nat) (a : Admitted) (k : Nat) => (s.serves iss 2 0x0B01 a) ∧ ((s.unit k).en = true) ∧ (k < 65)) (wMbx 2 (wAdm 0x0B01 [2097152, 532480]) ((fun (s : State) => { s with trace := { s.trace with units := [(3, { TraceUnit.reset with en := true })] } }) (wMem id))) (.func 0) (9) (wAdm 0x0B01 [2097152, 532480]) (3) := by decide +kernel
theorem witness_ManagementCommands_1 : (fun (s : State) (iss : Issuer) (_t : Nat) (a : Admitted) => (s.serves iss 1 0x0900 a) ∧ (10 ≤ (msgArg a.msg.toNat 1)) ∧ ((msgArg a.msg.toNat 1) ≤ 70) ∧ (1 ≤ (msgArg a.msg.toNat 2)) ∧ ((msgArg a.msg.toNat 2) ≤ 64)) (wMbx 1 (wAdm 0x0900 [8, 60, 20]) (wMem id)) (.func 0) (9) (wAdm 0x0900 [8, 60, 20]) := by decide +kernel
theorem witness_ManagementCommands_2 : (fun (s : State) (iss : Issuer) (_t : Nat) (a : Admitted) (q : Nat) => (s.serves iss 1 0x0900 a) ∧ (70 < (msgArg a.msg.toNat 1)) ∧ ((msgArg a.msg.toNat 0) = 2 ^ q) ∧ (q < 64)) (wMbx 1 (wAdm 0x0900 [8, 75, 20]) (wMem id)) (.func 0) (9) (wAdm 0x0900 [8, 75, 20]) (3) := by decide +kernel
theorem witness_ManagementCommands_3 : (fun (s : State) (iss : Issuer) (_t : Nat) (a : Admitted) => (s.serves iss 1 0x0901 a)) (wMbx 1 (wAdm 0x0901 [500]) (wMem id)) (.func 0) (9) (wAdm 0x0901 [500]) := by decide +kernel
theorem witness_ManagementCommands_4 : (fun (s : State) (iss : Issuer) (_t : Nat) (a : Admitted) => (s.serves iss 1 0x0902 a)) (wMbx 1 (wAdm 0x0902 []) (wMem id)) (.func 0) (9) (wAdm 0x0902 []) := by decide +kernel
theorem witness_ManagementCommands_5 : (fun (s : State) (iss : Issuer) (_t : Nat) (a : Admitted) => (s.serves iss 1 0x0903 a) ∧ ((msgArg a.msg.toNat 0) < 2)) (wMbx 1 (wAdm 0x0903 [1, 120]) (wMem id)) (.func 0) (9) (wAdm 0x0903 [1, 120]) := by decide +kernel
theorem witness_ManagementCommands_6 : (fun (s : State) (iss : Issuer) (_t : Nat) (a : Admitted) => (s.serves iss 1 0x0903 a) ∧ (2 ≤ (msgArg a.msg.toNat 0))) (wMbx 1 (wAdm 0x0903 [2, 50]) (wMem id)) (.func 0) (9) (wAdm 0x0903 [2, 50]) := by decide +kernel
theorem witness_ManagementCommands_7 : (fun (s : State) (iss : Issuer) (_t : Nat) (a : Admitted) (_err _down : Bool) (_bad : BitVec 64) => (s.serves iss 0 0x0A00 a) ∧ (a.started = false) ∧ (s.fw.state ≠ 0) ∧ (s.fw.state ≠ 4)) (wMbx 0 (wAdm 0x0A00 [4096, 8192]) (wMem id)) (.func 0) (9) (wAdm 0x0A00 [4096, 8192]) (false) (false) (0) := by decide +kernel
theorem witness_ManagementCommands_8 : (fun (s : State) (iss : Issuer) (_t : Nat) (a : Admitted) (_down : Bool) (_bad : BitVec 64) => (s.serves iss 0 0x0A00 a) ∧ (a.started = false) ∧ (s.fw.state = 0)) ((fun (s : State) => { s with fw := { s.fw with state := 0 } }) (wMbx 0 (wAdm 0x0A00 [4096, 8192]) (wMem id))) (.func 0) (9) (wAdm 0x0A00 [4096, 8192]) (false) (0) := by decide +kernel
theorem witness_ManagementCommands_9 : (fun (s : State) (iss : Issuer) (_t : Nat) (a : Admitted) (_down : Bool) (_bad : BitVec 64) (_h : Nat) => (s.serves iss 0 0x0A00 a) ∧ (a.started = false) ∧ (s.fw.state = 0) ∧ (s.logging = false)) ((fun (s : State) => { s with fw := { s.fw with state := 0 } }) (wMbx 0 (wAdm 0x0A00 [4096, 8192]) (wMem id))) (.func 0) (9) (wAdm 0x0A00 [4096, 8192]) (false) (0) (0) := by decide +kernel
theorem witness_ManagementCommands_10 : (fun (s : State) (iss : Issuer) (_t : Nat) (a : Admitted) (_err : Bool) (_bad : BitVec 64) => (s.serves iss 0 0x0A00 a) ∧ (a.started = true) ∧ (s.fw.step = 6) ∧ (s.fw.state = 1) ∧ (s.bring.tileTest = true)) ((fun (s : State) => { s with fw := { s.fw with state := 1, step := 6, staged := (some (7 : BitVec 2048)) }, bring := { s.bring with tileTest := true } }) (wMbx 0 ({ wAdm 0x0A00 [0x1000, 8192] with started := true }) (wMem id))) (.func 0) (9) ({ wAdm 0x0A00 [0x1000, 8192] with started := true }) (false) (0) := by decide +kernel
theorem witness_ManagementCommands_11 : (fun (s : State) (iss : Issuer) (_t : Nat) (a : Admitted) (_err : Bool) (_bad : BitVec 64) => (s.serves iss 0 0x0A00 a) ∧ (a.started = true) ∧ (s.fw.step = 6) ∧ (s.fw.state = 1) ∧ (s.bring.tileTest = true)) ((fun (s : State) => { s with fw := { s.fw with state := 1, step := 6, staged := (some (7 : BitVec 2048)) }, bring := { s.bring with tileTest := true } }) (wMbx 0 ({ wAdm 0x0A00 [0x1000, 8192] with started := true }) (wMem id))) (.func 0) (9) ({ wAdm 0x0A00 [0x1000, 8192] with started := true }) (false) (0) := by decide +kernel
theorem witness_ManagementCommands_12 : (fun (s : State) (iss : Issuer) (_t : Nat) (a : Admitted) (_err _ready : Bool) (_dead : BitVec 67) => (s.serves iss 0 0x0A01 a) ∧ (a.started = false) ∧ (s.fw.state ≠ 2) ∧ (s.fw.state ≠ 3)) ((fun (s : State) => { s with fw := { s.fw with state := 4 } }) (wMbx 0 (wAdm 0x0A01 [4096, 8192]) (wMem id))) (.func 0) (9) (wAdm 0x0A01 [4096, 8192]) (false) (false) (0) := by decide +kernel
theorem witness_ManagementCommands_13 : (fun (s : State) (iss : Issuer) (_t : Nat) (a : Admitted) (_ready : Bool) (_dead : BitVec 67) (_h : Nat) (run : BitVec 2048) => (s.serves iss 0 0x0A01 a) ∧ (a.started = false) ∧ (s.fw.state = 2) ∧ (s.fw.image = some run) ∧ (s.logging = false)) ((fun (s : State) => { s with fw := { s.fw with state := 2, image := (some (7 : BitVec 2048)) } }) (wMbx 0 (wAdm 0x0A01 [4096, 8192]) (wMem id))) (.func 0) (9) (wAdm 0x0A01 [4096, 8192]) (false) (0) (0) (7) := by decide +kernel
theorem witness_ManagementCommands_14 : (fun (s : State) (_iss : Issuer) (_t : Nat) (_err : Bool) (_dead : BitVec 67) => (s.fw.state = 3) ∧ (s.fw.step ≠ 0) ∧ (s.fw.step < 7)) ((fun (s : State) => { s with fw := { s.fw with state := 3, step := 4, image := (some (7 : BitVec 2048)), staged := some 9, switching := updateCores 4 } }) (wMem id)) (.func 0) (9) (false) (0) := by decide +kernel
theorem witness_ManagementCommands_15 : (fun (s : State) (_iss : Issuer) (_t : Nat) (_err : Bool) (_dead : BitVec 67) (a : Admitted) => (s.fw.state = 3) ∧ (s.fw.step = 7) ∧ (s.hif.secq.queue = [a]) ∧ (a.started = true) ∧ (msgCode a.msg.toNat = 0xA01) ∧ (a.mute = false)) ((fun (s : State) => { s with fw := { s.fw with state := 3, step := 7, image := (some (7 : BitVec 2048)), staged := some 9 } }) (wMbx 0 ({ wAdm 0x0A01 [0x1000, 8192] with started := true }) (wMem id))) (.func 0) (9) (false) (0) ({ wAdm 0x0A01 [0x1000, 8192] with started := true }) := by decide +kernel
theorem witness_ManagementCommands_16 : (fun (s : State) (_iss : Issuer) (_t : Nat) (_err : Bool) (_dead : BitVec 67) (a : Admitted) => (s.fw.state = 3) ∧ (s.fw.step ≠ 0) ∧ (s.hif.secq.queue = [a]) ∧ (a.started = true) ∧ (msgCode a.msg.toNat = 0xA01) ∧ (a.mute = false)) ((fun (s : State) => { s with fw := { s.fw with state := 3, step := 3, image := (some (7 : BitVec 2048)), staged := some 9 } }) (wMbx 0 ({ wAdm 0x0A01 [0x1000, 8192] with started := true }) (wMem id))) (.func 0) (9) (false) (0) ({ wAdm 0x0A01 [0x1000, 8192] with started := true }) := by decide +kernel
theorem witness_ManagementCommands_17 : (fun (s : State) (iss : Issuer) (_t : Nat) (a : Admitted) => (s.serves iss 0 0x0A02 a)) (wMbx 0 (wAdm 0x0A02 [4096, 8192]) (wMem id)) (.func 0) (9) (wAdm 0x0A02 [4096, 8192]) := by decide +kernel
theorem witness_ManagementCommands_18 : (fun (s : State) (iss : Issuer) (_t : Nat) (a : Admitted) (_err : Bool) => (s.serves iss 0 0x0A03 a) ∧ ((msgArg a.msg.toNat 1) % 128 ≠ 0 ∨ (msgArg a.msg.toNat 1) = 0 ∨ 4096 < (msgArg a.msg.toNat 1))) (wMbx 0 (wAdm 0x0A03 [4096, 100]) (wMem id)) (.func 0) (9) (wAdm 0x0A03 [4096, 100]) (false) := by decide +kernel
theorem witness_ManagementCommands_19 : (fun (s : State) (iss : Issuer) (_t : Nat) (a : Admitted) (bs : List Byte) (_e : Status) => (s.serves iss 0 0x0A03 a) ∧ ((msgArg a.msg.toNat 1) = 128) ∧ (s.logging = false) ∧ (s.hostRead (msgArg a.msg.toNat 0) 128 = bs)) (wMbx 0 (wAdm 0x0A03 [4096, 128]) ((fun (s : State) => { s with hostMem := Mem.writeBytes [] 0x1000 (List.replicate 128 0) }) (wMem id))) (.func 0) (9) (wAdm 0x0A03 [4096, 128]) (List.replicate 128 0) (ST_LIC_FMT) := by decide +kernel
theorem witness_ManagementCommands_20 : (fun (s : State) (iss : Issuer) (_t : Nat) (a : Admitted) => (s.serves iss 2 0x0A04 a) ∧ (s.bring.mbxAt = none) ∧ ((msgArg a.msg.toNat 0) = 0)) (wMbx 2 (wAdm 0x0A04 [0, 0]) (wMem id)) (.func 0) (9) (wAdm 0x0A04 [0, 0]) := by decide +kernel
theorem witness_ManagementCommands_21 : (fun (s : State) (iss : Issuer) (_t : Nat) (a : Admitted) => (s.serves iss 2 0x0A04 a) ∧ (s.bring.mbxAt = none) ∧ (2 ≤ (msgArg a.msg.toNat 0))) (wMbx 2 (wAdm 0x0A04 [2, 0]) (wMem id)) (.func 0) (9) (wAdm 0x0A04 [2, 0]) := by decide +kernel
theorem witness_ManagementCommands_22 : (fun (s : State) (_iss : Issuer) (t m : Nat) => (s.bring.mbxAt = some m) ∧ (m + msTicks 1 ≤ t) ∧ (s.thermal.shutAt = none) ∧ (s.bring.vaux = true) ∧ (s.bring.stretch = none) ∧ (s.bring.ready = true) ∧ (s.bring.waking = false) ∧ (s.bring.failed = false) ∧ (s.power.pgood = true)) ((fun (s : State) => { s with power := { s.power with pgood := true }, bring := { s.bring with vaux := true, stretch := none, ready := true, mbxAt := some 5 } }) (wMem id)) (.func 0) (msTicks 2) (5) := by decide +kernel
theorem witness_ManagementCommands_23 : (fun (s : State) (_iss : Issuer) (t m : Nat) => (s.bring.mbxAt = some m) ∧ (max s.time t < m + msTicks 1)) ((fun (s : State) => { s with bring := { s.bring with mbxAt := some 5 } }) (wMem id)) (.func 0) (9) (5) := by decide +kernel
theorem witness_ManagementCommands_24 : (fun (s : State) (iss : Issuer) (_t : Nat) (a : Admitted) (n : Nat) => (s.serves iss 2 0x0A04 a) ∧ ((msgArg a.msg.toNat 0) = 1) ∧ (blockOf (msgArg a.msg.toNat 1) = some (.quay n)) ∧ (s.bring.blkBusy = false) ∧ (s.blockIdle (.quay n) = true)) (wMbx 2 (wAdm 0x0A04 [1, 3]) (wMem id)) (.func 0) (9) (wAdm 0x0A04 [1, 3]) (3) := by decide +kernel
theorem witness_ManagementCommands_25 : (fun (s : State) (iss : Issuer) (_t : Nat) (a : Admitted) (n : Nat) => (s.serves iss 2 0x0A04 a) ∧ ((msgArg a.msg.toNat 0) = 1) ∧ (blockOf (msgArg a.msg.toNat 1) = some (.stack n)) ∧ (s.bring.blkBusy = false) ∧ (s.blockIdle (.stack n) = true) ∧ (s.tiers.merge = [])) (wMbx 2 (wAdm 0x0A04 [1, 259]) (wMem id)) (.func 0) (9) (wAdm 0x0A04 [1, 259]) (3) := by decide +kernel
theorem witness_ManagementCommands_26 : (fun (s : State) (iss : Issuer) (_t : Nat) (a : Admitted) (n : Nat) => (s.serves iss 2 0x0A04 a) ∧ ((msgArg a.msg.toNat 0) = 1) ∧ (blockOf (msgArg a.msg.toNat 1) = some (.chan n)) ∧ (s.bring.blkBusy = false) ∧ (s.blockIdle (.chan n) = true) ∧ (s.tiers.merge = []) ∧ ((s.chan n).state = 1)) (wMbx 2 (wAdm 0x0A04 [1, 515]) (wMem (fun t => { t with chans := [(3, { T2Chan.reset with state := 1, temp := 5, cntDone := 3 })] }))) (.func 0) (9) (wAdm 0x0A04 [1, 515]) (3) := by decide +kernel
theorem witness_ManagementCommands_27 : (fun (s : State) (iss : Issuer) (_t : Nat) (a : Admitted) (n : Nat) => (s.serves iss 2 0x0A04 a) ∧ ((msgArg a.msg.toNat 0) = 1) ∧ (blockOf (msgArg a.msg.toNat 1) = some (.port n)) ∧ (s.bring.blkBusy = false) ∧ (s.blockIdle (.port n) = true)) (wMbx 2 (wAdm 0x0A04 [1, 771]) ({ wMem id with fab := { State.reset.fab with ports := [(3, { FabPort.reset with en := false, txSeq := 7 })] } })) (.func 0) (9) (wAdm 0x0A04 [1, 771]) (3) := by decide +kernel
theorem witness_ManagementCommands_28 : (fun (s : State) (iss : Issuer) (_t : Nat) (a : Admitted) (n : Nat) => (s.serves iss 2 0x0A04 a) ∧ ((msgArg a.msg.toNat 0) = 1) ∧ (blockOf (msgArg a.msg.toNat 1) = some (.engine n)) ∧ (s.bring.blkBusy = false) ∧ (s.blockIdle (.engine n) = true)) (wMbx 2 (wAdm 0x0A04 [1, 1027]) (wMem id)) (.func 0) (9) (wAdm 0x0A04 [1, 1027]) (3) := by decide +kernel
theorem witness_ManagementCommands_29 : (fun (s : State) (iss : Issuer) (_t : Nat) (a : Admitted) (b : Block) => (s.serves iss 2 0x0A04 a) ∧ ((msgArg a.msg.toNat 0) = 1) ∧ (blockOf (msgArg a.msg.toNat 1) = some b) ∧ (s.bring.blkBusy = true ∨ s.blockIdle b = false)) (wMbx 2 (wAdm 0x0A04 [1, 3]) ({ wMem id with bring := { State.reset.bring with blkBusy := true } })) (.func 0) (9) (wAdm 0x0A04 [1, 3]) (.quay 3) := by decide +kernel
theorem witness_ManagementCommands_30 : (fun (s : State) (iss : Issuer) (_t : Nat) (a : Admitted) => (s.serves iss 2 0x0A04 a) ∧ ((msgArg a.msg.toNat 0) = 1) ∧ (blockOf (msgArg a.msg.toNat 1) = none)) (wMbx 2 (wAdm 0x0A04 [1, 4095]) (wMem id)) (.func 0) (9) (wAdm 0x0A04 [1, 4095]) := by decide +kernel
theorem witness_ManagementCommands_31 : (fun (s : State) (bad : BitVec 68) (_t q : Nat) (m : Table SpareMap) => (s.bring.blkBusy = true) ∧ (blockOf s.bring.blk.toNat = some (.quay q)) ∧ (mapSpares bad = some m) ∧ (s.fw.image = none)) ({ wMem id with bring := { State.reset.bring with blkBusy := true, blk := 3 } }) (BitVec.ofNat 68 (2 ^ 7)) (9) (3) ([(0, { inUse := true, replaced := 7, locked := true })]) := by decide +kernel
theorem witness_ManagementCommands_32 : (fun (s : State) (_bad : BitVec 68) (_t n : Nat) => (s.bring.blkBusy = true) ∧ (blockOf s.bring.blk.toNat = some (.stack n) ∨ blockOf s.bring.blk.toNat = some (.port n) ∨ blockOf s.bring.blk.toNat = some (.engine n) ∨ (blockOf s.bring.blk.toNat = some (.chan n) ∧ (s.chan n).state ≠ 2))) ({ wMem id with bring := { State.reset.bring with blkBusy := true, blk := 0x103 } }) (0) (9) (3) := by decide +kernel
theorem witness_ManagementCommands_33 : (fun (s : State) (_bad : BitVec 68) (_t : Nat) => (s.bring.blkBusy = false)) (wMem id) (0) (9) := by decide +kernel
theorem witness_Observation_1 : (fun (s : State) (k _t : Nat) (x : TraceUnit) (r : BitVec 256) (rest : List (BitVec 256)) (z : Nat) => ((s.unit k) = x) ∧ (x.buffer = r :: rest) ∧ (x.partRecs ≠ 0) ∧ (x.discarding = false) ∧ (s.region (x.partBase.toNat + 32 * (x.wptr.toNat % x.partRecs.toNat)) = .spad z) ∧ (s.pilot.moves = []) ∧ ((x.partBase.toNat + 32 * (x.wptr.toNat % x.partRecs.toNat)) % 8 = 0) ∧ (x.partBase.toNat + 32 * (x.wptr.toNat % x.partRecs.toNat) + 32 ≤ s.regionEnd (x.partBase.toNat + 32 * (x.wptr.toNat % x.partRecs.toNat)))) ({ wMem id with trace := { State.reset.trace with units := [(3, { TraceUnit.reset with en := true, buffer := [7, 9], ordinary := 2, partBase := 0x400000000000, partRecs := 128, wptr := 130 })] } }) (3) (9) ({ TraceUnit.reset with en := true, buffer := [7, 9], ordinary := 2, partBase := 0x400000000000, partRecs := 128, wptr := 130 }) (7) ([9]) (0) := by decide +kernel
theorem witness_Observation_2 : (fun (s : State) (k _t : Nat) => ((s.unit k).buffer = [] ∨ (s.unit k).partRecs = 0)) (wMem id) (3) (9) := by decide +kernel
theorem witness_Observation_3 : (fun (s : State) (f _t : Nat) (r : HostRing) (e : EventEntry) => ((s.func f).evtRing = some r) ∧ (s.events.entries = [e]) ∧ (s.events.lane = []) ∧ (e.for_ f = true) ∧ (((s.func f).evtTail - (s.func f).evtHead).toNat ≠ 2 ^ r.sizeLog2) ∧ (f = 0 ∧ e.toTenant = none ∨ f ≠ 0 ∧ e.toPf = false)) ({ wMem id with fw := { (wMem id).fw with state := 2 }, hif := { (wMem id).hif with funcs := [(0, { Func.reset with evtRing := some { base := 0x1000, sizeLog2 := 4, coalUs := 0 } })] }, events := { State.reset.events with entries := [{ record := { sev := 2, coalesced := false, replay := false, status := 0x1040, unitKind := 1, unit := 3, tenant := some 5, count := 1, time := 9, arg := 0x77 }, toPf := true, toTenant := none, written := false, alarm := false, reserved := false, mirrorNo := 0 }] } }) (0) (9) ({ base := 0x1000, sizeLog2 := 4, coalUs := 0 }) ({ record := { sev := 2, coalesced := false, replay := false, status := 0x1040, unitKind := 1, unit := 3, tenant := some 5, count := 1, time := 9, arg := 0x77 }, toPf := true, toTenant := none, written := false, alarm := false, reserved := false, mirrorNo := 0 }) := by decide +kernel
theorem witness_Observation_4 : (fun (s : State) (f _t : Nat) (_ok : Bool) (r : HostRing) => ((s.func f).evtRing = some r) ∧ (((s.func f).evtTail - (s.func f).evtHead).toNat = 2 ^ r.sizeLog2)) ({ wMem id with fw := { (wMem id).fw with state := 2 }, hif := { (wMem id).hif with funcs := [(0, { Func.reset with evtRing := some { base := 0x1000, sizeLog2 := 4, coalUs := 0 }, evtTail := 16 })] }, events := { State.reset.events with entries := [{ record := { sev := 2, coalesced := false, replay := false, status := 0x1040, unitKind := 1, unit := 3, tenant := some 5, count := 1, time := 9, arg := 0x77 }, toPf := true, toTenant := none, written := false, alarm := false, reserved := false, mirrorNo := 0 }] } }) (0) (9) (true) ({ base := 0x1000, sizeLog2 := 4, coalUs := 0 }) := by decide +kernel
theorem witness_Observation_5 : (fun (s : State) (f t : Nat) => ((s.func f).vec1.held = true) ∧ ((s.func f).vec1.quietUntil ≤ t)) ({ wMem id with fw := { (wMem id).fw with state := 2 }, hif := { (wMem id).hif with funcs := [(0, { Func.reset with vec1 := { raised := 3, held := true, quietUntil := 5 } })] } }) (0) (9) := by decide +kernel
theorem witness_Observation_6 : (fun (s : State) (f t : Nat) => ((s.func f).vec2.held = true) ∧ ((s.func f).vec2.quietUntil ≤ t)) ({ wMem id with fw := { (wMem id).fw with state := 2 }, hif := { (wMem id).hif with funcs := [(0, { Func.reset with vec2 := { raised := 3, held := true, quietUntil := 5 } })] } }) (0) (9) := by decide +kernel
theorem witness_Observation_7 : (fun (s : State) (f _v _t : Nat) => ((s.func f).vec1.held = false) ∧ ((s.func f).vec2.held = false)) (wMem id) (0) (1) (9) := by decide +kernel
theorem witness_Observation_8 : (fun (s : State) (f _v : Nat) => ((s.func f).inReset = false)) (wMem id) (0) (7) := by decide +kernel
theorem witness_Observation_9 : (fun (s : State) (f _v : Nat) => ((s.func f).inReset = true)) ({ wMem id with fw := { (wMem id).fw with state := 2 }, hif := { (wMem id).hif with funcs := [(4, { Func.reset with inReset := true })] } }) (4) (7) := by decide +kernel
theorem witness_Observation_10 : (fun (s : State) (off n t k : Nat) (bs : List Byte) => (off < 2 ^ 30) ∧ (s.logging = false) ∧ (s.region (tileWindows + off) = .spad k) ∧ ((s.at t).accessCheck 0 false (tileWindows + off) n = none) ∧ (s.bring.tilesFilled = true) ∧ (off % 8 = 0) ∧ (n % 8 = 0) ∧ (0 < n) ∧ (tileWindows + off + n ≤ s.regionEnd (tileWindows + off)) ∧ (Mem.readBytes s.mem (tileWindows + off) n = some bs) ∧ (s.tenantLicensed 0 = true)) ({ wMem id with mem := (List.range 16).map (fun i => (tileBase 0 + i, BitVec.ofNat 8 (i + 1))) }) (0) (16) (9) (0) ((List.range 16).map (fun i => BitVec.ofNat 8 (i + 1))) := by decide +kernel
theorem witness_Observation_11 : (fun (s : State) (f off _n _t : Nat) (_write : Bool) (_bs : List Byte) => (0 < f) ∧ (f < 1024) ∧ (2 ^ 34 ≤ off) ∧ (s.logging = false)) (wMem id) (5) (2 ^ 34) (8) (9) (false) ([]) := by decide +kernel
theorem witness_Observation_12 : (fun (s : State) (f off _t : Nat) => (0 < f) ∧ (f < 1024) ∧ (off % 4 = 0) ∧ (0x80000 ≤ off) ∧ (off < 2 ^ 20) ∧ (s.tenantLicensed f = true) ∧ (s.logging = false) ∧ ((s.so ((off - 0x80000) / 4)).valid = true) ∧ ((s.so ((off - 0x80000) / 4)).tenant.toNat = f)) ((wMem id).setSo 7 { SyncObj.reset with valid := true, tenant := 5, count := 99 }) (5) (0x8001C) (9) := by decide +kernel
theorem witness_SidebandCommands_1 : (fun (s : State) (bs : List Byte) (_t : Nat) => (s.bring.vaux = true) ∧ (s.i3c.addr.isSome = true) ∧ (s.i3c.mbxState ≠ 1) ∧ (bs.length < 16 ∨ 256 < bs.length ∨ bs.length ≠ 8 * byteField (natOfBytes bs) 1 1)) ((fun (s : State) => { s with bring := { s.bring with vaux := true, wakeStep := 8 }, i3c := { s.i3c with addr := some 9, mbxState := 0 }, fw := { s.fw with state := 2 } }) (wMem id)) (List.replicate 15 0) (9) := by decide +kernel
theorem witness_SidebandCommands_2 : (fun (s : State) (bs : List Byte) (_t : Nat) => (s.bring.vaux = true) ∧ (s.i3c.addr.isSome = true) ∧ (s.i3c.mbxState ≠ 1) ∧ (16 ≤ bs.length) ∧ (bs.length ≤ 256) ∧ (bs.length = 8 * byteField (natOfBytes bs) 1 1) ∧ (s.bring.wakeStep ≠ 8)) ((fun (s : State) => { s with bring := { s.bring with vaux := true, wakeStep := 3 }, i3c := { s.i3c with addr := some 9, ibiOn := true }, fw := { s.fw with state := 2 } }) (wMem id)) ([1, 2] ++ List.replicate 14 0) (9) := by decide +kernel
theorem witness_SidebandCommands_3 : (fun (s : State) (bs : List Byte) (t : Nat) (e : Status) => (s.bring.vaux = true) ∧ (s.i3c.addr.isSome = true) ∧ (s.i3c.mbxState ≠ 1) ∧ (16 ≤ bs.length) ∧ (bs.length ≤ 256) ∧ (bs.length = 8 * byteField (natOfBytes bs) 1 1) ∧ (s.bring.wakeStep = 8) ∧ (s.logging = false) ∧ ((s.at t).msgCheck .i3c (natOfBytes bs) = some e)) ((fun (s : State) => { s with bring := { s.bring with vaux := true, wakeStep := 8 }, i3c := { s.i3c with addr := some 9, mbxState := 0 }, fw := { s.fw with state := 2 } }) (wMem id)) ([1, 2] ++ List.replicate 14 0) (9) (ST_MBX_FMT) := by decide +kernel
theorem witness_SidebandCommands_4 : (fun (s : State) (bs : List Byte) (t : Nat) => (s.bring.vaux = true) ∧ (s.i3c.addr.isSome = true) ∧ (s.i3c.mbxState ≠ 1) ∧ (bs.length = 16) ∧ (byteField (natOfBytes bs) 1 1 = 2) ∧ (s.bring.wakeStep = 8) ∧ (s.logging = false) ∧ ((s.at t).msgCheck .i3c (natOfBytes bs) = none) ∧ (msgCode (natOfBytes bs) = 1) ∧ (s.hif.secq.queue = []) ∧ (s.hif.secq.ring = [])) ((fun (s : State) => { s with bring := { s.bring with vaux := true, wakeStep := 8 }, i3c := { s.i3c with addr := some 9, mbxState := 0 }, fw := { s.fw with state := 2 } }) (wMem id)) ([1, 2, 0x80, 0, 1, 0] ++ List.replicate 10 0) (9) := by decide +kernel
theorem witness_SidebandCommands_5 : (fun (s : State) (_bs : List Byte) (_t : Nat) => (s.i3c.mbxState = 1)) ((fun (s : State) => { s with bring := { s.bring with vaux := true, wakeStep := 8 }, i3c := { s.i3c with addr := some 9, mbxState := 1 }, fw := { s.fw with state := 2 } }) (wMem id)) (List.replicate 16 0) (9) := by decide +kernel
theorem witness_SidebandCommands_6 : (fun (s : State) (bs : List Byte) (_t : Nat) => (s.bring.vaux = true) ∧ (s.i3c.addr.isSome = true) ∧ (bs.length ≠ 4 ∨ natOfBytes bs % 4 ≠ 0 ∨ regAt (registerBase + natOfBytes bs) = none)) ((fun (s : State) => { s with bring := { s.bring with vaux := true, wakeStep := 8 }, i3c := { s.i3c with addr := some 9, mbxState := 0 }, fw := { s.fw with state := 2 } }) (wMem id)) ([1, 0, 0, 0]) (9) := by decide +kernel
theorem witness_SidebandCommands_7 : (fun (s : State) (bs : List Byte) (_t : Nat) (x : RegBlock × Nat × Nat) => (s.bring.vaux = true) ∧ (s.i3c.addr.isSome = true) ∧ (bs.length = 4) ∧ (natOfBytes bs % 4 = 0) ∧ (regAt (registerBase + natOfBytes bs) = some x) ∧ (auxRegister (registerBase + natOfBytes bs) = true ∨ s.bring.wakeStep = 8) ∧ (s.regIsolated x.1 x.2.1 = false)) ((fun (s : State) => { s with bring := { s.bring with vaux := true, wakeStep := 8 }, i3c := { s.i3c with addr := some 9, mbxState := 0 }, fw := { s.fw with state := 2 } }) (wMem id)) (bytesOfNat 4 0x9000000) (9) ((.pwr, 0, 0)) := by decide +kernel
theorem witness_SidebandCommands_8 : (fun (s : State) (bs : List Byte) (_t : Nat) => (s.bring.vaux = true) ∧ (s.i3c.addr.isSome = true) ∧ (bs.length = 4) ∧ (natOfBytes bs % 4 = 0) ∧ ((regAt (registerBase + natOfBytes bs)).isSome = true) ∧ (auxRegister (registerBase + natOfBytes bs) = false) ∧ (s.bring.wakeStep ≠ 8)) ((fun (s : State) => { s with bring := { s.bring with vaux := true, wakeStep := 3 }, i3c := { s.i3c with addr := some 9, mbxState := 0 }, fw := { s.fw with state := 2 } }) (wMem id)) (bytesOfNat 4 0) (9) := by decide +kernel
theorem witness_SidebandCommands_9 : (fun (s : State) (bs : List Byte) (_t : Nat) => (s.bring.vaux = true) ∧ (s.i3c.addr.isSome = true) ∧ (bs.length ≠ 8 ∨ natOfBytes (bs.take 4) % 4 ≠ 0 ∨ regAt (registerBase + natOfBytes (bs.take 4)) = none)) ((fun (s : State) => { s with bring := { s.bring with vaux := true, wakeStep := 8 }, i3c := { s.i3c with addr := some 9, mbxState := 0 }, fw := { s.fw with state := 2 } }) (wMem id)) ([1, 0, 0, 0]) (9) := by decide +kernel
theorem witness_SidebandCommands_10 : (fun (s : State) (bs : List Byte) (_t : Nat) => (s.bring.vaux = true) ∧ (s.i3c.addr.isSome = true) ∧ (bs.length = 8) ∧ (registerBase + natOfBytes (bs.take 4) = 0x7F00090200C4) ∧ (s.bring.blkBusy = false)) ((fun (s : State) => { s with bring := { s.bring with vaux := true, wakeStep := 8 }, i3c := { s.i3c with addr := some 9, mbxState := 0 }, fw := { s.fw with state := 2 } }) (wMem id)) (bytesOfNat 4 0x90200C4 ++ bytesOfNat 4 0x4B1D) (9) := by decide +kernel
theorem witness_SidebandCommands_11 : (fun (s : State) (_bs : List Byte) => (s.bring.vaux = true) ∧ (s.i3c.addr.isSome = true)) ((fun (s : State) => { s with bring := { s.bring with vaux := true, wakeStep := 8 }, i3c := { s.i3c with addr := some 9, mbxState := 0 }, fw := { s.fw with state := 2 } }) (wMem id)) ([]) := by decide +kernel
theorem witness_SidebandCommands_12 : (fun (s : State) => (s.bring.vaux = true) ∧ (s.i3c.addr.isSome = true) ∧ (s.i3c.mailbox = true) ∧ (s.i3c.mbxState = 2)) ((fun (s : State) => { s with bring := { s.bring with vaux := true, wakeStep := 8 }, i3c := { s.i3c with addr := some 9, mailbox := true, mbxState := 2, rsp := 0x281 }, fw := { s.fw with state := 2 } }) (wMem id)) := by decide +kernel
theorem witness_SidebandCommands_13 : (fun (s : State) => (s.bring.vaux = true) ∧ (s.i3c.addr.isSome = true) ∧ (s.i3c.mailbox = true) ∧ (s.i3c.mbxState ≠ 2)) ((fun (s : State) => { s with bring := { s.bring with vaux := true, wakeStep := 8 }, i3c := { s.i3c with addr := some 9, mailbox := true, mbxState := 1 }, fw := { s.fw with state := 2 } }) (wMem id)) := by decide +kernel
theorem witness_SidebandCommands_14 : (fun (s : State) => (s.bring.vaux = true) ∧ (s.i3c.addr.isSome = true) ∧ (s.i3c.mailbox = false)) ((fun (s : State) => { s with bring := { s.bring with vaux := true, wakeStep := 8 }, i3c := { s.i3c with addr := some 9, mailbox := false, regValue := 7 }, fw := { s.fw with state := 2 } }) (wMem id)) := by decide +kernel
theorem witness_SidebandCommands_15 : (fun (s : State) (_x : BitVec 7) => (s.bring.vaux = true) ∧ (s.i3c.addr = none)) ((fun (s : State) => { s with bring := { s.bring with vaux := true, wakeStep := 8 }, i3c := { s.i3c with addr := none }, fw := { s.fw with state := 2 } }) (wMem id)) (0x3A) := by decide +kernel
theorem witness_SidebandCommands_16 : (fun (s : State) (_x : BitVec 7) => (s.i3c.addr.isSome = true)) ((fun (s : State) => { s with bring := { s.bring with vaux := true, wakeStep := 8 }, i3c := { s.i3c with addr := some 9, mbxState := 0 }, fw := { s.fw with state := 2 } }) (wMem id)) (0x3A) := by decide +kernel
theorem witness_SidebandCommands_18 : (fun (s : State) => (s.bring.vaux = true) ∧ (s.i3c.addr.isSome = true)) ((fun (s : State) => { s with bring := { s.bring with vaux := true, wakeStep := 8 }, i3c := { s.i3c with addr := some 9, mrl := 264 }, fw := { s.fw with state := 2 } }) (wMem id)) := by decide +kernel
theorem witness_SidebandCommands_19 : (fun (s : State) => (s.bring.vaux = true) ∧ (s.i3c.addr.isSome = true)) ((fun (s : State) => { s with bring := { s.bring with vaux := true, wakeStep := 8 }, i3c := { s.i3c with addr := some 9, mrl := 264 }, fw := { s.fw with state := 2 } }) (wMem id)) := by decide +kernel
theorem witness_SidebandCommands_20 : (fun (s : State) => (s.bring.vaux = true) ∧ (s.i3c.addr.isSome = true)) ((fun (s : State) => { s with bring := { s.bring with vaux := true, wakeStep := 8 }, i3c := { s.i3c with addr := some 9, mrl := 264 }, fw := { s.fw with state := 2 } }) (wMem id)) := by decide +kernel
theorem witness_SidebandCommands_21 : (fun (s : State) => (s.bring.vaux = true) ∧ (s.i3c.addr.isSome = true)) ((fun (s : State) => { s with bring := { s.bring with vaux := true, wakeStep := 8 }, i3c := { s.i3c with addr := some 9, mrl := 264 }, fw := { s.fw with state := 2 } }) (wMem id)) := by decide +kernel
theorem witness_SidebandCommands_22 : (fun (s : State) => (s.bring.vaux = true) ∧ (s.i3c.addr.isSome = true)) ((fun (s : State) => { s with bring := { s.bring with vaux := true, wakeStep := 8 }, i3c := { s.i3c with addr := some 9, mrl := 264 }, fw := { s.fw with state := 2 } }) (wMem id)) := by decide +kernel
theorem witness_SidebandCommands_23 : (fun (s : State) => (s.bring.vaux = true) ∧ (s.i3c.addr.isSome = true)) ((fun (s : State) => { s with bring := { s.bring with vaux := true, wakeStep := 8 }, i3c := { s.i3c with addr := some 9, mrl := 264 }, fw := { s.fw with state := 2 } }) (wMem id)) := by decide +kernel
theorem witness_SidebandCommands_24 : (fun (s : State) (_v : Nat) => (s.bring.vaux = true) ∧ (s.i3c.addr.isSome = true)) ((fun (s : State) => { s with bring := { s.bring with vaux := true, wakeStep := 8 }, i3c := { s.i3c with addr := some 9, mrl := 264 }, fw := { s.fw with state := 2 } }) (wMem id)) (300) := by decide +kernel
theorem witness_SidebandCommands_25 : (fun (s : State) (_v : Nat) => (s.bring.vaux = true) ∧ (s.i3c.addr.isSome = true)) ((fun (s : State) => { s with bring := { s.bring with vaux := true, wakeStep := 8 }, i3c := { s.i3c with addr := some 9, mrl := 264 }, fw := { s.fw with state := 2 } }) (wMem id)) (100) := by decide +kernel
theorem witness_SidebandCommands_26 : (fun (s : State) (v : Nat) => (s.bring.vaux = true) ∧ (s.i3c.addr.isSome = true) ∧ (bit v 0 = true) ∧ (s.i3c.ibiOn = false)) ((fun (s : State) => { s with bring := { s.bring with vaux := true, wakeStep := 8 }, i3c := { s.i3c with addr := some 9, ibiOn := false }, fw := { s.fw with state := 2 } }) (wMem id)) (1) := by decide +kernel
theorem witness_SidebandCommands_27 : (fun (s : State) (v : Nat) => (s.bring.vaux = true) ∧ (s.i3c.addr.isSome = true) ∧ (bit v 0 = true)) ((fun (s : State) => { s with bring := { s.bring with vaux := true, wakeStep := 8 }, i3c := { s.i3c with addr := some 9, ibiOn := true }, fw := { s.fw with state := 2 } }) (wMem id)) (1) := by decide +kernel
theorem witness_SidebandCommands_28 : (fun (s : State) => (s.bring.vaux = true) ∧ (s.i3c.addr.isSome = true) ∧ (s.i3c.ibiOn = true) ∧ (s.i3c.ibiRsp = true)) ((fun (s : State) => { s with bring := { s.bring with vaux := true, wakeStep := 8 }, i3c := { s.i3c with addr := some 9, ibiOn := true, ibiRsp := true }, fw := { s.fw with state := 2 } }) (wMem id)) := by decide +kernel
theorem witness_SidebandCommands_29 : (fun (s : State) => (s.bring.vaux = true) ∧ (s.i3c.addr.isSome = true) ∧ (s.i3c.ibiOn = true) ∧ (s.i3c.ibiAlarm = true ∨ s.events.alarmCnt ≠ s.i3c.alarmSeen)) ((fun (s : State) => { s with bring := { s.bring with vaux := true, wakeStep := 8 }, i3c := { s.i3c with addr := some 9, ibiOn := true, ibiAlarm := true }, fw := { s.fw with state := 2 } }) (wMem id)) := by decide +kernel
theorem witness_SidebandCommands_30 : (fun (s : State) => (s.i3c.addr = none)) (wMem id) := by decide +kernel
theorem witness_SidebandCommands_31 : (fun (s : State) => (s.i3c.addr = none)) (wMem id) := by decide +kernel
theorem witness_SidebandCommands_32 : (fun (s : State) => (s.i3c.addr = none)) (wMem id) := by decide +kernel
theorem witness_SidebandCommands_33 : (fun (s : State) (_v : Nat) => (s.i3c.addr = none)) (wMem id) (1) := by decide +kernel
theorem witness_SidebandCommands_34 : (fun (s : State) (_v : Nat) => (s.i3c.addr = none)) (wMem id) (1) := by decide +kernel
theorem witness_SidebandCommands_35 : (fun (s : State) (_v : Nat) => (s.i3c.addr = none)) (wMem id) (1) := by decide +kernel
theorem witness_SidebandCommands_36 : (fun (s : State) => (s.i3c.addr = none)) (wMem id) := by decide +kernel
theorem witness_PowerEvents_1 : (fun (s : State) (v _t : Nat) => (s.bring.vaux = true) ∧ (s.power.gateOn = false) ∧ (s.power.latched = false) ∧ (s.power.retryAt = none) ∧ (39000 ≤ v) ∧ (s.power.hsCause ≠ 4 ∨ v ≤ 60000)) ((fun (s : State) => { s with power := { s.power with vin := 0 }, bring := { s.bring with vaux := true, stretch := none }, fw := { s.fw with state := 2 } }) (wMem id)) (48000) (9) := by decide +kernel
theorem witness_PowerEvents_2 : (fun (s : State) (v _t : Nat) => (s.bring.vaux = true) ∧ (s.power.gateOn = true ∨ s.power.latched = true ∨ s.power.retryAt.isSome = true) ∧ (39000 ≤ v) ∧ (s.power.hsCause ≠ 4 ∨ v ≤ 60000)) ((fun (s : State) => { s with power := { s.power with vin := 0, latched := true }, bring := { s.bring with vaux := true, stretch := none }, fw := { s.fw with state := 2 } }) (wMem id)) (48000) (9) := by decide +kernel
theorem witness_PowerEvents_3 : (fun (_s : State) (v _t : Nat) => (v < 39000)) ((fun (s : State) => { s with power := { s.power with vin := 0 }, bring := { s.bring with vaux := true, stretch := none }, fw := { s.fw with state := 2 } }) (wMem id)) (38000) (9) := by decide +kernel
theorem witness_PowerEvents_4 : (fun (s : State) (_t : Nat) => (s.power.ramping = true) ∧ (s.thermal.shutAt = none) ∧ (s.bring.failed = false)) ((fun (s : State) => { s with power := { s.power with gateOn := true, ramping := true }, bring := { s.bring with vaux := true, stretch := none }, fw := { s.fw with state := 2 } }) (wMem id)) (9) := by decide +kernel
theorem witness_PowerEvents_5 : (fun (s : State) (_t : Nat) => (s.power.ramping = true) ∧ (s.thermal.shutAt.isSome = true ∨ s.bring.failed = true)) ((fun (s : State) => { s with power := { s.power with gateOn := true, ramping := true }, bring := { s.bring with vaux := true, stretch := none, failed := true }, fw := { s.fw with state := 2 } }) (wMem id)) (9) := by decide +kernel
theorem witness_PowerEvents_6 : (fun (s : State) (t : Nat) => (s.power.ramping = true) ∧ (s.power.rampAt + msTicks 23 ≤ t) ∧ (s.power.retries ≠ 3)) ((fun (s : State) => { s with power := { s.power with gateOn := true, ramping := true }, bring := { s.bring with vaux := true, stretch := none }, fw := { s.fw with state := 2 } }) (wMem id)) (msTicks 23) := by decide +kernel
theorem witness_PowerEvents_7 : (fun (s : State) (t : Nat) => (s.power.ramping = false ∨ max s.time t < s.power.rampAt + msTicks 23)) ((fun (s : State) => { s with power := { s.power with gateOn := true }, bring := { s.bring with vaux := true, stretch := none }, fw := { s.fw with state := 2 } }) (wMem id)) (9) := by decide +kernel
theorem witness_PowerEvents_8 : (fun (s : State) (c _t : Nat) => (s.power.ramping = true ∧ (c = 1 ∨ c = 2) ∨ s.power.pgood = true ∧ c = 3) ∧ (s.power.retries = 3)) ((fun (s : State) => { s with power := { s.power with gateOn := true, pgood := true, retries := 3 }, bring := { s.bring with vaux := true, stretch := none }, fw := { s.fw with state := 2 } }) (wMem id)) (3) (9) := by decide +kernel
theorem witness_PowerEvents_9 : (fun (s : State) (c _t : Nat) => (s.power.ramping = true ∧ (c = 1 ∨ c = 2) ∨ s.power.pgood = true ∧ c = 3) ∧ (s.power.retries ≠ 3)) ((fun (s : State) => { s with power := { s.power with gateOn := true, ramping := true }, bring := { s.bring with vaux := true, stretch := none }, fw := { s.fw with state := 2 } }) (wMem id)) (1) (9) := by decide +kernel
theorem witness_PowerEvents_10 : (fun (s : State) (r t : Nat) => (s.power.retryAt = some r) ∧ (s.power.latched = false) ∧ (s.power.vinOk = true) ∧ (r + msTicks 1000 ≤ t)) ((fun (s : State) => { s with power := { s.power with retryAt := some 5, vinOk := true }, bring := { s.bring with vaux := true, stretch := none }, fw := { s.fw with state := 2 } }) (wMem id)) (5) (msTicks 1001) := by decide +kernel
theorem witness_PowerEvents_11 : (fun (s : State) (_t : Nat) => (s.power.retryAt = none ∨ s.power.latched = true ∨ s.power.vinOk = false)) ((fun (s : State) => { s with power := { s.power with vin := 0 }, bring := { s.bring with vaux := true, stretch := none }, fw := { s.fw with state := 2 } }) (wMem id)) (9) := by decide +kernel
theorem witness_PowerEvents_12 : (fun (s : State) (g t : Nat) => (s.power.pgoodAt = some g) ∧ (g + msTicks 10000 ≤ t)) ((fun (s : State) => { s with power := { s.power with pgood := true, pgoodAt := some 5, retries := 2 }, bring := { s.bring with vaux := true, stretch := none }, fw := { s.fw with state := 2 } }) (wMem id)) (5) (msTicks 10001) := by decide +kernel
theorem witness_PowerEvents_13 : (fun (s : State) (v _t : Nat) => (v < 37500) ∧ (s.power.gateOn = true)) ((fun (s : State) => { s with power := { s.power with gateOn := true, pgood := true }, bring := { s.bring with vaux := true, stretch := none }, fw := { s.fw with state := 2 } }) (wMem id)) (37000) (9) := by decide +kernel
theorem witness_PowerEvents_14 : (fun (s : State) (v _t : Nat) => (v < 37500) ∧ (s.power.gateOn = false)) ((fun (s : State) => { s with power := { s.power with vinOk := true }, bring := { s.bring with vaux := true, stretch := none }, fw := { s.fw with state := 2 } }) (wMem id)) (37000) (9) := by decide +kernel
theorem witness_PowerEvents_15 : (fun (s : State) (v _t : Nat) => (63000 < v) ∧ (s.power.gateOn = true)) ((fun (s : State) => { s with power := { s.power with gateOn := true, pgood := true }, bring := { s.bring with vaux := true, stretch := none }, fw := { s.fw with state := 2 } }) (wMem id)) (64000) (9) := by decide +kernel
theorem witness_PowerEvents_16 : (fun (s : State) (v _t : Nat) => (63000 < v) ∧ (s.power.gateOn = false)) ((fun (s : State) => { s with power := { s.power with vinOk := true }, bring := { s.bring with vaux := true, stretch := none }, fw := { s.fw with state := 2 } }) (wMem id)) (64000) (9) := by decide +kernel
theorem witness_PowerEvents_17 : (fun (s : State) (v _t : Nat) => (s.power.pgood = true) ∧ (10 * s.power.hwLimit.toNat < v) ∧ (s.power.clamp = 64)) ((fun (s : State) => { s with power := { s.power with pgood := true }, bring := { s.bring with vaux := true, stretch := none }, fw := { s.fw with state := 2 } }) (wMem id)) (15001) (9) := by decide +kernel
theorem witness_PowerEvents_18 : (fun (s : State) (v t : Nat) => (s.power.pgood = true) ∧ (10 * s.power.hwLimit.toNat < v) ∧ (s.power.clamp = 32) ∧ (s.power.clampAt + msTicks 1 ≤ t)) ((fun (s : State) => { s with power := { s.power with pgood := true, clamp := 32 }, bring := { s.bring with vaux := true, stretch := none }, fw := { s.fw with state := 2 } }) (wMem id)) (15001) (msTicks 1) := by decide +kernel
theorem witness_PowerEvents_19 : (fun (s : State) (v _t : Nat) => (s.power.pgood = false ∨ v ≤ 10 * s.power.hwLimit.toNat)) ((fun (s : State) => { s with power := { s.power with pgood := true }, bring := { s.bring with vaux := true, stretch := none }, fw := { s.fw with state := 2 } }) (wMem id)) (15000) (9) := by decide +kernel
theorem witness_PowerEvents_20 : (fun (s : State) (v _t : Nat) => (100 * v < 950 * s.power.hwLimit.toNat)) ((fun (s : State) => { s with power := { s.power with clamp := 16 }, bring := { s.bring with vaux := true, stretch := none }, fw := { s.fw with state := 2 } }) (wMem id)) (14249) (9) := by decide +kernel
theorem witness_PowerEvents_21 : (fun (s : State) (v _t : Nat) => (950 * s.power.hwLimit.toNat ≤ 100 * v)) ((fun (s : State) => { s with power := { s.power with clamp := 16 }, bring := { s.bring with vaux := true, stretch := none }, fw := { s.fw with state := 2 } }) (wMem id)) (14250) (9) := by decide +kernel
theorem witness_PowerEvents_22 : (fun (s : State) (v _t : Nat) => (s.power.pgood = true) ∧ (s.power.icur = false) ∧ (10 * s.power.ilim.toNat < v)) ((fun (s : State) => { s with power := { s.power with pgood := true }, bring := { s.bring with vaux := true, stretch := none }, fw := { s.fw with state := 2 } }) (wMem id)) (4001) (9) := by decide +kernel
theorem witness_PowerEvents_23 : (fun (s : State) (v _t : Nat) => (v < 9 * s.power.ilim.toNat)) ((fun (s : State) => { s with power := { s.power with icur := true }, bring := { s.bring with vaux := true, stretch := none }, fw := { s.fw with state := 2 } }) (wMem id)) (3599) (9) := by decide +kernel
theorem witness_PowerEvents_24 : (fun (s : State) (t i : Nat) (m : Measured) => (s.thermal.shutAt = none) ∧ (s.thermal.warn = false) ∧ ((s.thermal.nodes.all (fun n => !n.2.throttled && !n.2.backstop)) = true) ∧ (((((s.at t).measure m).estimate m).thermal.nodes.all (fun n => decide (n.2.temp < celsius 95))) = true) ∧ (i < 64)) ((fun (s : State) => { s with power := { s.power with pgood := true }, bring := { s.bring with vaux := true, stretch := none }, fw := { s.fw with state := 2 } }) (wMem id)) (9) (0) ({ vin := 48000, iin := 100, pin := 4800, energy := 7, rails := [], quays := [3000] }) := by decide +kernel
theorem witness_PowerEvents_25 : (fun (s : State) (t : Nat) (m : Measured) => (s.thermal.shutAt = none) ∧ (((((s.at t).measure m).estimate m).thermal.nodes.any (fun n => decide (celsius 110 ≤ n.2.temp))) = true)) ((fun (s : State) => { s with thermal := { s.thermal with nodes := [(3, { ThermNode.reset with temp := celsius 110, fast := celsius 200 })] }, power := { s.power with pgood := true }, bring := { s.bring with vaux := true, stretch := none, ready := true }, fw := { s.fw with state := 2 } }) (wMem id)) (9) ({ vin := 48000, iin := 100, pin := 4800, energy := 7, rails := [], quays := [3000] }) := by decide +kernel
theorem witness_PowerEvents_26 : (fun (s : State) (t : Nat) (m : Measured) => (s.thermal.shutAt = none) ∧ (s.thermal.warn = false) ∧ ((s.thermal.nodes.all (fun n => !n.2.throttled && !n.2.backstop)) = true) ∧ (((((s.at t).measure m).estimate m).thermal.nodes.all (fun n => decide (n.2.temp < celsius 100))) = true) ∧ (((((s.at t).measure m).estimate m).thermal.nodes.any (fun n => decide (celsius 95 ≤ n.2.temp))) = true)) ((fun (s : State) => { s with thermal := { s.thermal with nodes := [(3, { ThermNode.reset with temp := celsius 96, fast := celsius 83 })] }, power := { s.power with pgood := true }, bring := { s.bring with vaux := true, stretch := none, ready := true }, fw := { s.fw with state := 2 } }) (wMem id)) (9) ({ vin := 48000, iin := 100, pin := 4800, energy := 7, rails := [], quays := [3000] }) := by decide +kernel
theorem witness_PowerEvents_27 : (fun (s : State) (a t : Nat) => (s.thermal.shutAt = some a) ∧ ((s.thermal.nodes.all (fun n => decide (n.2.temp < celsius 80))) = true) ∧ (a + msTicks 30000 ≤ t) ∧ (s.power.pgood = true)) ((fun (s : State) => { s with thermal := { s.thermal with shutAt := some 5 }, power := { s.power with pgood := true }, bring := { s.bring with vaux := true, stretch := none, ready := true }, fw := { s.fw with state := 2 } }) (wMem id)) (5) (msTicks 30001) := by decide +kernel
theorem witness_PowerEvents_28 : (fun (s : State) (a t : Nat) => (s.thermal.shutAt = some a) ∧ (max s.time t < a + msTicks 30000)) ((fun (s : State) => { s with thermal := { s.thermal with shutAt := some 5 }, power := { s.power with pgood := true }, bring := { s.bring with vaux := true, stretch := none, ready := true }, fw := { s.fw with state := 2 } }) (wMem id)) (5) (9) := by decide +kernel
theorem witness_PowerEvents_29 : (fun (_s : State) (a b : Int) (_t : Nat) => (-160 ≤ a) ∧ (a ≤ 1600) ∧ (-160 ≤ b) ∧ (b ≤ 1600)) ((fun (s : State) => { s with thermal := { s.thermal with inFail := true }, power := { s.power with pgood := true }, bring := { s.bring with vaux := true, stretch := none, ready := true }, fw := { s.fw with state := 2 } }) (wMem id)) (-160) (1600) (9) := by decide +kernel
theorem witness_PowerEvents_30 : (fun (s : State) (a b : Int) (_t : Nat) => (a < -160 ∨ 1600 < a) ∧ (s.thermal.inFail = false) ∧ (-160 ≤ b) ∧ (b ≤ 1600)) ((fun (s : State) => { s with thermal := { s.thermal with inFail := false }, power := { s.power with pgood := true }, bring := { s.bring with vaux := true, stretch := none, ready := true }, fw := { s.fw with state := 2 } }) (wMem id)) (1601) (400) (9) := by decide +kernel
theorem witness_PowerEvents_31 : (fun (s : State) (_t q : Nat) => (s.coreRuns 65 = true) ∧ (10 * s.power.softLimit.toNat < s.power.pin.toNat) ∧ (s.livePace = [q])) ((fun (s : State) => { s with quays := [(3, { Quay.reset with inService := true })] }) ((fun (s : State) => { s with power := { s.power with pgood := true, pin := 15001 }, bring := { s.bring with vaux := true, stretch := none }, fw := { s.fw with state := 2 } }) (wMem id))) (9) (3) := by decide +kernel
theorem witness_PowerEvents_32 : (fun (s : State) (_t q : Nat) => (s.coreRuns 65 = true) ∧ (s.power.pin.toNat ≤ 10 * s.power.softLimit.toNat) ∧ (100 * s.power.pin.toNat < 970 * s.power.softLimit.toNat) ∧ (9 ≤ s.power.lowMs) ∧ (s.livePace = [q])) ((fun (s : State) => { s with quays := [(3, { Quay.reset with inService := true })] }) ((fun (s : State) => { s with power := { s.power with pgood := true, pin := 100, lowMs := 9 }, bring := { s.bring with vaux := true, stretch := none }, fw := { s.fw with state := 2 } }) (wMem id))) (9) (3) := by decide +kernel
theorem witness_PowerEvents_33 : (fun (s : State) (_t : Nat) => (s.coreRuns 65 = true) ∧ (s.power.pin.toNat ≤ 10 * s.power.softLimit.toNat) ∧ (970 * s.power.softLimit.toNat ≤ 100 * s.power.pin.toNat)) ((fun (s : State) => { s with power := { s.power with pgood := true, pin := 14800, lowMs := 9 }, bring := { s.bring with vaux := true, stretch := none }, fw := { s.fw with state := 2 } }) (wMem id)) (9) := by decide +kernel
theorem witness_PowerEvents_34 : (fun (s : State) (_t q : Nat) => (s.coreRuns 65 = true) ∧ (q < 64) ∧ ((s.thermNode 64).throttled = false) ∧ ((s.thermNode q).throttled = true)) ((fun (s : State) => { s with thermal := { s.thermal with nodes := [(3, { ThermNode.reset with temp := celsius 103, fast := celsius 100, throttled := true })] }, power := { s.power with pgood := true }, bring := { s.bring with vaux := true, stretch := none, ready := true }, fw := { s.fw with state := 2 } }) (wMem id)) (9) (3) := by decide +kernel
theorem witness_PowerEvents_35 : (fun (s : State) (_t n : Nat) => (s.coreRuns 65 = true) ∧ (n < 12)) ((fun (s : State) => { s with thermal := { s.thermal with nodes := [(68, { ThermNode.reset with temp := celsius 103, throttled := true })] }, power := { s.power with pgood := true }, bring := { s.bring with vaux := true, stretch := none, ready := true }, fw := { s.fw with state := 2 } }) (wMem id)) (9) (3) := by decide +kernel
theorem witness_PowerEvents_36 : (fun (s : State) (_t : Nat) => (s.coreRuns 65 = false)) ((fun (s : State) => { s with fw := { s.fw with state := 0 } }) (wMem id)) (9) := by decide +kernel
theorem witness_PowerEvents_37 : (fun (s : State) (fb _t : Nat) => (s.valveForced = true) ∧ (s.thermal.cmd = 100) ∧ (95 ≤ fb) ∧ (fb ≤ 100) ∧ (s.thermal.nearSince = none) ∧ (s.thermal.offSince = none)) ((fun (s : State) => { s with thermal := { s.thermal with warn := true }, power := { s.power with pgood := true }, bring := { s.bring with vaux := true, stretch := none, ready := true }, fw := { s.fw with state := 2 } }) (wMem id)) (100) (9) := by decide +kernel
theorem witness_PowerEvents_38 : (fun (s : State) (_fb n t : Nat) => (s.valveForced = false) ∧ (s.thermal.mode = true) ∧ (s.thermal.position.toNat ≤ 100) ∧ (s.thermal.cmd.toNat ≤ 100) ∧ (s.thermal.position < s.thermal.cmd) ∧ (n * msTicks 50 ≤ max s.time t - s.thermal.valveAt) ∧ (max s.time t - s.thermal.valveAt < (n + 1) * msTicks 50)) ((fun (s : State) => { s with thermal := { s.thermal with mode := true, position := 40, cmd := 100 }, power := { s.power with pgood := true }, bring := { s.bring with vaux := true, stretch := none, ready := true }, fw := { s.fw with state := 2 } }) (wMem id)) (100) (3) (3 * msTicks 50) := by decide +kernel
theorem witness_PowerEvents_39 : (fun (s : State) (_t : Nat) => (s.thermal.stuck = false)) ((fun (s : State) => { s with thermal := { s.thermal with stuck := false }, power := { s.power with pgood := true }, bring := { s.bring with vaux := true, stretch := none, ready := true }, fw := { s.fw with state := 2 } }) (wMem id)) (9) := by decide +kernel
theorem witness_PowerEvents_40 : (fun (s : State) (_t : Nat) => (s.thermal.stuck = true)) ((fun (s : State) => { s with thermal := { s.thermal with stuck := true }, power := { s.power with pgood := true }, bring := { s.bring with vaux := true, stretch := none, ready := true }, fw := { s.fw with state := 2 } }) (wMem id)) (9) := by decide +kernel
theorem witness_PowerEvents_41 : (fun (s : State) (a t : Nat) => (s.thermal.offSince = some a) ∧ (a + msTicks 8000 ≤ t) ∧ (s.thermal.stuck = false)) ((fun (s : State) => { s with thermal := { s.thermal with offSince := some 5 }, power := { s.power with pgood := true }, bring := { s.bring with vaux := true, stretch := none, ready := true }, fw := { s.fw with state := 2 } }) (wMem id)) (5) (msTicks 8001) := by decide +kernel
theorem witness_PowerEvents_42 : (fun (s : State) (a t : Nat) => (s.thermal.offSince = some a) ∧ (max s.time t < a + msTicks 8000)) ((fun (s : State) => { s with thermal := { s.thermal with offSince := some 5 }, power := { s.power with pgood := true }, bring := { s.bring with vaux := true, stretch := none, ready := true }, fw := { s.fw with state := 2 } }) (wMem id)) (5) (9) := by decide +kernel
theorem witness_ResetEvents_1 : (fun (s : State) (core _c _t : Nat) => (core < 67) ∧ (s.coreRuns core = true) ∧ (core = 64 ∨ core = 65) ∧ (s.fw.state = 2)) ((fun (s : State) => { s with bring := { s.bring with vaux := true, stretch := none, ready := true }, power := { s.power with pgood := true }, fw := { s.fw with state := 2 } }) (wMem id)) (65) (2) (9) := by decide +kernel
theorem witness_ResetEvents_2 : (fun (s : State) (core _c _t : Nat) => (core < 67) ∧ (s.coreRuns core = true) ∧ (core < 64) ∧ (s.fw.state = 2) ∧ (s.graph.graphs = [])) ((fun (s : State) => { s with bring := { s.bring with vaux := true, stretch := none, ready := true }, power := { s.power with pgood := true }, fw := { s.fw with state := 2 } }) (wMem id)) (5) (1) (9) := by decide +kernel
theorem witness_ResetEvents_3 : (fun (s : State) (_c _t : Nat) => (s.coreRuns 66 = true) ∧ (s.fw.state = 2)) ((fun (s : State) => { s with bring := { s.bring with vaux := true, stretch := none, ready := true }, power := { s.power with pgood := true }, fw := { s.fw with state := 2 } }) (wMem id)) (2) (9) := by decide +kernel
theorem witness_ResetEvents_4 : (fun (s : State) (core _c _t : Nat) => (67 ≤ core ∨ s.coreRuns core = false)) ((fun (s : State) => { s with bring := { s.bring with vaux := true, stretch := none, ready := true }, power := { s.power with pgood := true }, fw := { s.fw with state := 2 } }) (wMem id)) (67) (2) (9) := by decide +kernel
theorem witness_ResetEvents_6 : (fun (s : State) (_t : Nat) => (s.thermal.shutAt = none) ∧ (s.bring.vaux = true) ∧ (s.bring.stretch = none) ∧ (s.bring.ready = true) ∧ (s.bring.waking = false) ∧ (s.bring.failed = false) ∧ (s.power.pgood = true)) ((fun (s : State) => { s with bring := { s.bring with vaux := true, stretch := none, ready := true }, power := { s.power with pgood := true }, fw := { s.fw with state := 2 } }) (wMem id)) (9) := by decide +kernel
theorem witness_ResetEvents_7 : (fun (s : State) (_t : Nat) => (s.thermal.shutAt = none) ∧ (s.bring.vaux = true) ∧ (s.bring.stretch = none) ∧ (s.bring.ready = true) ∧ (s.bring.waking = false) ∧ (s.bring.failed = false) ∧ (s.power.pgood = true)) ((fun (s : State) => { s with bring := { s.bring with vaux := true, stretch := none, ready := true }, power := { s.power with pgood := true }, fw := { s.fw with state := 2 } }) (wMem id)) (9) := by decide +kernel
theorem witness_ResetEvents_8 : (fun (s : State) (_t : Nat) => (s.thermal.shutAt = none) ∧ (s.bring.vaux = true) ∧ (s.bring.stretch.isSome = true) ∧ (s.bring.failed = false) ∧ (s.bring.waking = false)) ((fun (s : State) => { s with bring := { s.bring with vaux := true, stretch := some 3, ready := false }, power := { s.power with pgood := true }, fw := { s.fw with state := 2 } }) (wMem id)) (9) := by decide +kernel
theorem witness_ResetEvents_9 : (fun (s : State) (_t : Nat) => (s.thermal.shutAt.isSome = true ∨ s.bring.vaux = false)) ((fun (s : State) => { s with thermal := { s.thermal with shutAt := some 3 } }) (wMem id)) (9) := by decide +kernel
theorem witness_ResetEvents_10 : (fun (s : State) (l t : Nat) => (s.bring.stretch = some l) ∧ (s.bring.vaux = true) ∧ (l + msTicks 10 ≤ t) ∧ (s.bring.waking = true ∨ s.bring.wakeStep ≠ 0)) ((fun (s : State) => { s with bring := { s.bring with vaux := true, stretch := some 3, waking := true }, power := { s.power with pgood := true }, fw := { s.fw with state := 2 } }) (wMem id)) (3) (msTicks 11) := by decide +kernel
theorem witness_ResetEvents_11 : (fun (s : State) (l t : Nat) => (s.bring.stretch = some l) ∧ (s.bring.vaux = true) ∧ (l + msTicks 10 ≤ t) ∧ (s.bring.waking = false) ∧ (s.bring.wakeStep = 0) ∧ (s.bring.failed = false) ∧ (s.power.pgood = true) ∧ (s.thermal.shutAt = none)) ((fun (s : State) => { s with bring := { s.bring with vaux := true, stretch := some 3, waking := false }, power := { s.power with pgood := true }, fw := { s.fw with state := 2 } }) (wMem id)) (3) (msTicks 11) := by decide +kernel
theorem witness_ResetEvents_12 : (fun (s : State) (l t : Nat) (_rn : Bool) => (s.bring.stretch = some l) ∧ (max s.time t < l + msTicks 10)) ((fun (s : State) => { s with bring := { s.bring with vaux := true, stretch := some 3, waking := true }, power := { s.power with pgood := true }, fw := { s.fw with state := 2 } }) (wMem id)) (3) (9) (true) := by decide +kernel
theorem witness_ResetEvents_13 : (fun (s : State) (_t : Nat) (_rn : Bool) => (s.bring.stretch = none)) ((fun (s : State) => { s with bring := { s.bring with vaux := true, stretch := none, waking := true }, power := { s.power with pgood := true }, fw := { s.fw with state := 2 } }) (wMem id)) (9) (true) := by decide +kernel
theorem witness_ResetEvents_14 : (fun (s : State) (t : Nat) => (s.thermal.shutAt = none) ∧ (s.bring.vaux = true) ∧ (s.bring.stretch = none) ∧ (s.bring.ready = true) ∧ (s.bring.waking = false) ∧ (s.bring.failed = false) ∧ (s.power.pgood = true) ∧ (s.bring.wdogMs ≠ 0) ∧ (s.bring.wdogAt + msTicks s.bring.wdogMs.toNat ≤ t)) ((fun (s : State) => { s with bring := { s.bring with vaux := true, stretch := none, ready := true, wdogMs := 2 }, power := { s.power with pgood := true }, fw := { s.fw with state := 2 } }) (wMem id)) (msTicks 2) := by decide +kernel
theorem witness_ResetEvents_15 : (fun (s : State) (t : Nat) => (s.bring.wdogMs = 0 ∨ max s.time t < s.bring.wdogAt + msTicks s.bring.wdogMs.toNat)) ((fun (s : State) => { s with bring := { s.bring with vaux := true, stretch := none, ready := true, wdogMs := 2 }, power := { s.power with pgood := true }, fw := { s.fw with state := 2 } }) (wMem id)) (9) := by decide +kernel
theorem witness_ResetEvents_16 : (fun (_s : State) (r : Requester) (_v _t : Nat) => (r = .host 0 ∨ r = .i3c ∨ r = .security)) ((fun (s : State) => { s with bring := { s.bring with vaux := true, stretch := none, ready := true, wdogMs := 2 }, power := { s.power with pgood := true }, fw := { s.fw with state := 2 } }) (wMem id)) (.i3c) (0x4B1D) (9) := by decide +kernel
theorem witness_ResetEvents_17 : (fun (_s : State) (r : Requester) (_v _t : Nat) => (r ≠ .host 0) ∧ (r ≠ .i3c) ∧ (r ≠ .security)) ((fun (s : State) => { s with bring := { s.bring with vaux := true, stretch := none, ready := true, wdogMs := 2 }, power := { s.power with pgood := true }, fw := { s.fw with state := 2 } }) (wMem id)) (.host 3) (0x4B1D) (9) := by decide +kernel
theorem witness_ResetEvents_18 : (fun (_s : State) (r : Requester) (_v _t : Nat) => (r = .host 0 ∨ r = .i3c ∨ r = .security)) ((fun (s : State) => { s with bring := { s.bring with vaux := true, stretch := none, ready := true }, power := { s.power with pgood := true }, fw := { s.fw with state := 2 } }) (wMem id)) (.host 0) (100) (9) := by decide +kernel
theorem witness_ResetEvents_19 : (fun (_s : State) (r : Requester) (_v _t : Nat) => (r ≠ .host 0) ∧ (r ≠ .i3c) ∧ (r ≠ .security)) ((fun (s : State) => { s with bring := { s.bring with vaux := true, stretch := none, ready := true, wdogMs := 2 }, power := { s.power with pgood := true }, fw := { s.fw with state := 2 } }) (wMem id)) (.scheduler) (100) (9) := by decide +kernel
theorem witness_ResetEvents_20 : (fun (s : State) (_t : Nat) => (s.bring.waking = true) ∧ (s.power.pgood = true) ∧ (s.bring.wakeStep < 7)) ((fun (s : State) => { s with bring := { s.bring with vaux := true, stretch := none, waking := true, wakeStep := 3 }, power := { s.power with pgood := true }, fw := { s.fw with state := 2 } }) (wMem id)) (9) := by decide +kernel
theorem witness_ResetEvents_21 : (fun (s : State) (_t : Nat) => (s.bring.waking = true) ∧ (s.power.pgood = true) ∧ (s.bring.wakeStep = 7) ∧ (s.bring.stretch = none) ∧ (s.bring.thmRestart = false)) ((fun (s : State) => { s with bring := { s.bring with vaux := true, stretch := none, waking := true, wakeStep := 7 }, power := { s.power with pgood := true }, fw := { s.fw with state := 2 } }) (wMem id)) (9) := by decide +kernel
theorem witness_ResetEvents_22 : (fun (s : State) (_t : Nat) => (s.bring.waking = false ∨ s.power.pgood = false)) ((fun (s : State) => { s with bring := { s.bring with vaux := true, stretch := none, waking := false }, power := { s.power with pgood := true }, fw := { s.fw with state := 2 } }) (wMem id)) (9) := by decide +kernel
theorem witness_ResetEvents_23 : (fun (s : State) (l : List Nat) (r t : Nat) => (s.bring.waking = true) ∧ (s.bring.wakeStep < 6) ∧ (((stepRails (s.bring.wakeStep + 1)).filter (fun r => l.contains r)).head? = some r) ∧ (s.bring.stepAt + msTicks 50 ≤ t) ∧ (s.bring.tries < 3)) ((fun (s : State) => { s with bring := { s.bring with vaux := true, stretch := none, waking := true, wakeStep := 2 }, power := { s.power with pgood := true }, fw := { s.fw with state := 2 } }) (wMem id)) ([68]) (68) (msTicks 50) := by decide +kernel
theorem witness_ResetEvents_24 : (fun (s : State) (l : List Nat) (r t : Nat) => (s.bring.waking = true) ∧ (s.bring.wakeStep = 0 ∨ s.bring.wakeStep = 1 ∨ s.bring.wakeStep = 4) ∧ (((stepRails (s.bring.wakeStep + 1)).filter (fun r => l.contains r)).head? = some r) ∧ (s.bring.stepAt + msTicks 50 ≤ t) ∧ (3 ≤ s.bring.tries)) ((fun (s : State) => { s with bring := { s.bring with vaux := true, stretch := none, waking := true, wakeStep := 1, tries := 3 }, power := { s.power with pgood := true }, fw := { s.fw with state := 2 } }) (wMem id)) ([66]) (66) (msTicks 50) := by decide +kernel
theorem witness_ResetEvents_25 : (fun (s : State) (l : List Nat) (t : Nat) => (s.bring.waking = true) ∧ (s.bring.wakeStep = 2 ∨ s.bring.wakeStep = 5) ∧ ((stepRails (s.bring.wakeStep + 1)).filter (fun r => l.contains r) ≠ []) ∧ (s.bring.stepAt + msTicks 50 ≤ t) ∧ (3 ≤ s.bring.tries) ∧ ((railsStacks (s.bring.outRails ++ (stepRails (s.bring.wakeStep + 1)).filter (fun r => l.contains r))).length ≠ 12)) ((fun (s : State) => { s with bring := { s.bring with vaux := true, stretch := none, waking := true, wakeStep := 2, tries := 3 }, power := { s.power with pgood := true }, fw := { s.fw with state := 2 } }) (wMem id)) ([68]) (msTicks 50) := by decide +kernel
theorem witness_ResetEvents_26 : (fun (s : State) (_l : List Nat) (t : Nat) => (s.bring.waking = true) ∧ (s.bring.wakeStep = 6) ∧ (s.bring.stepAt + msTicks 50 ≤ t) ∧ (3 ≤ s.bring.tries)) ((fun (s : State) => { s with bring := { s.bring with vaux := true, stretch := none, waking := true, wakeStep := 6, tries := 3 }, power := { s.power with pgood := true }, fw := { s.fw with state := 2 } }) (wMem id)) ([]) (msTicks 50) := by decide +kernel
theorem witness_ResetEvents_27 : (fun (s : State) (_t : Nat) => (s.bring.wakeStep = 8) ∧ (s.bring.waking = false)) ((fun (s : State) => { s with bring := { s.bring with vaux := true, stretch := none, wakeStep := 8, waking := false }, power := { s.power with pgood := true }, fw := { s.fw with state := 2 } }) (wMem id)) (9) := by decide +kernel
theorem witness_ResetEvents_28 : (fun (s : State) (_t : Nat) => (s.bring.waking = true ∨ s.bring.wakeStep ≠ 8)) ((fun (s : State) => { s with bring := { s.bring with vaux := true, stretch := none, wakeStep := 3 }, power := { s.power with pgood := true }, fw := { s.fw with state := 2 } }) (wMem id)) (9) := by decide +kernel
theorem witness_ResetEvents_29 : (fun (s : State) (bad : Table (BitVec 68)) (_t : Nat) => (s.bring.wakeStep = 8) ∧ (s.bring.waking = false) ∧ (s.bring.tileTest = false) ∧ (s.bring.outRails = []) ∧ (((List.range 64).all (fun q => (mapSpares (Table.getD bad q 0)).isSome)) = true)) ((fun (s : State) => { s with bring := { s.bring with vaux := true, stretch := none, wakeStep := 8, waking := false }, power := { s.power with pgood := true }, fw := { s.fw with state := 2 } }) (wMem id)) ([(3, BitVec.ofNat 68 (2 ^ 7))]) (9) := by decide +kernel
theorem witness_ResetEvents_30 : (fun (s : State) (_bad : Table (BitVec 68)) (_t : Nat) => (s.bring.tileTest = true ∨ s.bring.wakeStep ≠ 8)) ((fun (s : State) => { s with bring := { s.bring with vaux := true, stretch := none, wakeStep := 8, waking := false, tileTest := true }, power := { s.power with pgood := true }, fw := { s.fw with state := 2 } }) (wMem id)) ([]) (9) := by decide +kernel
theorem witness_ResetEvents_31 : (fun (s : State) (_bad : BitVec 768) (_t n : Nat) => (s.bring.wakeStep = 8) ∧ (s.bring.waking = false) ∧ (s.bring.t1Trained = false) ∧ (s.bring.t2Trained = false) ∧ (n < 12)) ((fun (s : State) => { s with bring := { s.bring with vaux := true, stretch := none, wakeStep := 8, waking := false }, power := { s.power with pgood := true } }) State.reset) (5) (9) (0) := by decide +kernel
theorem witness_ResetEvents_32 : (fun (s : State) (_bad : BitVec 16) (_t : Nat) => (s.bring.wakeStep = 8) ∧ (s.bring.waking = false) ∧ (s.bring.t1Trained = false) ∧ (s.bring.t2Trained = false)) ((fun (s : State) => { s with bring := { s.bring with vaux := true, stretch := none, wakeStep := 8, waking := false }, power := { s.power with pgood := true } }) State.reset) (5) (9) := by decide +kernel
theorem witness_ResetEvents_33 : (fun (s : State) (_bad : BitVec 16) (_t : Nat) => (s.bring.wakeStep = 8) ∧ (s.bring.waking = false) ∧ (s.bring.t1Trained = true) ∧ (s.bring.t2Trained = false) ∧ (s.tiers.t1Up = false) ∧ (bits (Table.getD s.bring.cfg 0 0).toNat 0 3 ≤ 4) ∧ (s.pcTotal ≠ 0)) ((fun (s : State) => { s with bring := { s.bring with vaux := true, stretch := none, wakeStep := 8, waking := false, t1Trained := true }, power := { s.power with pgood := true } }) State.reset) (5) (9) := by decide +kernel
theorem witness_ResetEvents_34 : (fun (s : State) (_t : Nat) => (s.tiers.t1Up = true) ∧ (s.tiers.t1Filled = false) ∧ (s.tiers.held = [])) ((fun (s : State) => { s with bring := { s.bring with vaux := true, stretch := none, wakeStep := 8, waking := false }, power := { s.power with pgood := true }, fw := { s.fw with state := 2 }, tiers := { s.tiers with t1Filled := false }, mem := [(0, 7), (0x400000000000, 9)] }) (wMem id)) (9) := by decide +kernel
theorem witness_ResetEvents_35 : (fun (s : State) (_t : Nat) => (s.tiers.t2Up = true) ∧ (s.tiers.t2Filled = false) ∧ (s.tiers.held = []) ∧ ((s.resv 6).2 = 0)) ((fun (s : State) => { s with bring := { s.bring with vaux := true, stretch := none, wakeStep := 8, waking := false }, power := { s.power with pgood := true }, fw := { s.fw with state := 2 }, tiers := { s.tiers with t2Filled := false }, mem := [(0, 7), (0x400000000000, 9)] }) (wMem id)) (9) := by decide +kernel
theorem witness_ResetEvents_36 : (fun (s : State) (_t : Nat) => (s.bring.tileTest = true) ∧ (s.bring.tilesFilled = false)) ((fun (s : State) => { s with bring := { s.bring with vaux := true, stretch := none, wakeStep := 8, waking := false, tileTest := true, tilesFilled := false }, power := { s.power with pgood := true }, fw := { s.fw with state := 2 }, mem := [(0, 7), (0x400000000000, 9)] }) (wMem id)) (9) := by decide +kernel
theorem witness_ResetEvents_37 : (fun (_s : State) (w _t : Nat) => (3 ≤ w)) ((fun (s : State) => { s with bring := { s.bring with vaux := true, stretch := none, wakeStep := 8, waking := false }, power := { s.power with pgood := true }, fw := { s.fw with state := 2 } }) (wMem id)) (3) (9) := by decide +kernel
theorem witness_ResetEvents_38 : (fun (s : State) (_t : Nat) => (s.fw.state = 2) ∧ (s.tiers.t1Filled = true) ∧ (s.bring.fwInit = false) ∧ (s.t1Top = 0) ∧ (s.logGib = 0) ∧ (bits (Table.getD s.bring.cfg 0 0).toNat 16 10 = 0) ∧ ((Table.getD s.bring.cfg 0 0).getLsbD 11 = false) ∧ (s.tiers.resv = [])) ((fun (s : State) => { s with bring := { s.bring with vaux := true, stretch := none, wakeStep := 8, waking := false }, power := { s.power with pgood := true }, fw := { s.fw with state := 2 }, tiers := { s.tiers with t1Up := false } }) (wMem id)) (9) := by decide +kernel
theorem witness_ResetEvents_39 : (fun (s : State) (_t : Nat) => (s.fw.state ≠ 2 ∨ s.tiers.t1Filled = false ∨ s.bring.fwInit = true)) ((fun (s : State) => { s with bring := { s.bring with vaux := true, stretch := none, wakeStep := 8, waking := false, fwInit := true }, power := { s.power with pgood := true }, fw := { s.fw with state := 2 } }) (wMem id)) (9) := by decide +kernel
theorem witness_ResetEvents_40 : (fun (s : State) (_t : Nat) => (s.bring.ready = false) ∧ (s.bring.fwInit = true) ∧ (s.tiers.t1Filled = true) ∧ (s.tiers.t2Filled = true) ∧ (s.bring.tilesFilled = true) ∧ (s.backup.shorts = 0) ∧ (s.backup.latch = false) ∧ (s.backup.cause ≠ 9) ∧ (s.backup.wakeFailed = true) ∧ (s.bring.refLost = false) ∧ (s.bring.outRails = [])) ((fun (s : State) => { s with bring := { s.bring with vaux := true, stretch := none, wakeStep := 8, waking := false, fwInit := true, ready := false }, power := { s.power with pgood := true }, fw := { s.fw with state := 2 }, backup := { s.backup with wakeFailed := true } }) (wMem id)) (9) := by decide +kernel
theorem witness_ResetEvents_41 : (fun (s : State) (_t : Nat) => (s.bring.ready = true ∨ s.bring.fwInit = false ∨ s.tiers.t1Filled = false ∨ s.tiers.t2Filled = false ∨ s.bring.tilesFilled = false)) ((fun (s : State) => { s with bring := { s.bring with vaux := true, stretch := none, wakeStep := 8, waking := false, fwInit := true, ready := true }, power := { s.power with pgood := true }, fw := { s.fw with state := 2 } }) (wMem id)) (9) := by decide +kernel
theorem witness_ResetEvents_42 : (fun (s : State) (r t : Nat) (_a : Table (BitVec 68)) (_b : BitVec 768) (_c : BitVec 16) => (s.bring.wakeStep = 8) ∧ (s.bring.waking = false) ∧ (msTicks 100 ≤ r) ∧ (s.bring.tasksAt + r ≤ t) ∧ (s.bring.pcieUp = false)) ((fun (s : State) => { s with bring := { s.bring with vaux := true, stretch := none, wakeStep := 8, waking := false, tasksAt := 0 }, power := { s.power with pgood := true }, fw := { s.fw with state := 2 } }) (wMem id)) (msTicks 100) (msTicks 100) ([]) (0) (0) := by decide +kernel
theorem witness_ResetEvents_43 : (fun (s : State) (r t : Nat) (_a : Table (BitVec 68)) (_b : BitVec 768) (_c : BitVec 16) => (s.bring.wakeStep = 8) ∧ (s.bring.waking = false) ∧ (msTicks 200 ≤ r) ∧ (s.bring.tasksAt + r ≤ t) ∧ (s.fw.state = 2) ∧ (s.tiers.t1Filled = true) ∧ (s.bring.fwInit = false)) ((fun (s : State) => { s with bring := { s.bring with vaux := true, stretch := none, wakeStep := 8, waking := false, tasksAt := 0 }, power := { s.power with pgood := true }, fw := { s.fw with state := 2 } }) (wMem id)) (msTicks 200) (msTicks 200) ([]) (0) (0) := by decide +kernel
theorem witness_ResetEvents_44 : (fun (_s : State) (task r _t : Nat) (_a : Table (BitVec 68)) (_b : BitVec 768) (_c : BitVec 16) => (r < msTicks (taskLimit task))) ((fun (s : State) => { s with bring := { s.bring with vaux := true, stretch := none, wakeStep := 8, waking := false }, power := { s.power with pgood := true }, fw := { s.fw with state := 2 } }) (wMem id)) (0) (9) (9) ([]) (0) (0) := by decide +kernel
theorem witness_CrashDump_1 : (fun (s : State) (iss : Issuer) (_t : Nat) (a : Admitted) => (s.serves iss 0 0x0A02 a) ∧ ((s.fw.captures.flatMap Capture.bytes).length ≤ (msgArg a.msg.toNat 1))) (wMbx 0 (wAdm 0x0A02 [4096, 64]) (wMem id)) (.func 0) (9) (wAdm 0x0A02 [4096, 64]) := by decide +kernel
theorem witness_CrashDump_2 : (fun (s : State) (iss : Issuer) (_t : Nat) (a : Admitted) => (s.serves iss 0 0x0A02 a) ∧ (s.fw.captures = [])) (wMbx 0 (wAdm 0x0A02 [4096, 0]) (wMem id)) (.func 0) (9) (wAdm 0x0A02 [4096, 0]) := by decide +kernel
theorem witness_CrashDump_3 : (fun (s : State) (iss : Issuer) (_t : Nat) (a : Admitted) => (s.serves iss 0 0x0A02 a) ∧ ((msgArg a.msg.toNat 1) < (s.fw.captures.flatMap Capture.bytes).length)) (wMbx 0 (wAdm 0x0A02 [4096, 8]) ({ wMem id with fw := { (wMem id).fw with captures := [wCap] } })) (.func 0) (9) (wAdm 0x0A02 [4096, 8]) := by decide +kernel
theorem witness_PhysicalTiles_1 : (fun (s : State) (_r : Requester) (q n _t : Nat) => (q < 64) ∧ (n < 16) ∧ (s.underReset q = false) ∧ (s.mapMode = true) ∧ ((s.quay q).inService = true) ∧ ((s.quay q).outOfService = false)) ({ State.reset with mapMode := true, quays := [(5, { Quay.reset with inService := true })] }) (.host 0) (5) (3) (9) := by decide +kernel
theorem witness_PhysicalTiles_2 : (fun (s : State) (_r : Requester) (q n _t : Nat) => (q < 64) ∧ (n < 16) ∧ (s.underReset q = false) ∧ (s.mapMode = false ∨ (s.quay q).outOfService = true)) ({ State.reset with mapMode := true, quays := [(5, { Quay.reset with outOfService := true })] }) (.host 0) (5) (3) (9) := by decide +kernel
theorem witness_PhysicalTiles_3 : (fun (_r : Requester) (q n _t : Nat) => (q < 64) ∧ (n < 16)) (.host 0) (5) (3) (9) := by decide +kernel
theorem witness_PhysicalTiles_4 : (fun (s : State) (_r : Requester) (q n _v _t : Nat) => (q < 64) ∧ (n < 16) ∧ (s.underReset q = false)) (State.reset) (.host 0) (5) (3) (5) (9) := by decide +kernel
end

/-! What a management core does with a request that it serves at once (18 R582 to R585): the
work runs at the new time, the request leaves its queue, and its answer is pushed. Nothing
but the host interface changes beyond the work itself. -/

namespace Sys2Proof.Machine

/-! ### Queues of the management cores -/

theorem iter_invariant {α β : Type} (f : α → α) (g : α → β) (h : ∀ x, g (f x) = g x) :
    ∀ (n : Nat) (x : α), g (iter f n x) = g x
  | 0, _ => rfl
  | n + 1, x => (iter_invariant f g h n (f x)).trans (h x)

/-- Giving freed places out moves no admitted request. -/
@[simp] theorem CoreQueue.distribute_queue (q : CoreQueue) : q.distribute.queue = q.queue := by
  unfold CoreQueue.distribute
  refine iter_invariant _ CoreQueue.queue (fun q => ?_) 32 q
  split
  · rfl
  · split <;> rfl

@[simp] theorem State.coreQ_setCoreQ (s : State) (core : Nat) (q : CoreQueue) :
    (s.setCoreQ core q).coreQ core = q := by
  unfold State.setCoreQ State.coreQ
  by_cases h0 : core = 0
  · simp [h0]
  · by_cases h1 : core = 1 <;> simp [h0, h1]

theorem State.coreQ_setCoreQ_ne (s : State) {core k : Nat} (q : CoreQueue) (hc : core < 3) (hk : k < 3)
    (h : k ≠ core) : (s.setCoreQ core q).coreQ k = s.coreQ k := by
  unfold State.setCoreQ State.coreQ
  by_cases h0 : core = 0
  · simp [h0, show k ≠ 0 by omega]
  · by_cases h1 : core = 1
    · simp [h1, show k ≠ 1 by omega]
    · have h2 : k = 0 ∨ k = 1 := by omega
      rcases h2 with rfl | rfl <;> simp [h0, h1]

/-- The three queues are read from the host interface alone. -/
theorem State.coreQ_congr {s u : State} (h : u.hif = s.hif) (core : Nat) : u.coreQ core = s.coreQ core := by
  simp only [State.coreQ, h]

/-! ### Concluding a request -/

/-- The queue once request `a` is answered at time `now`. -/
def CoreQueue.leave (q : CoreQueue) (a : Admitted) (now : Nat) : CoreQueue :=
  ({ q with queue := dropFirst (fun x => x == a) q.queue
            times := (now - max a.at_ q.lastDone) :: q.times.take 63, lastDone := now } : CoreQueue).distribute

@[simp] theorem CoreQueue.leave_queue (q : CoreQueue) (a : Admitted) (now : Nat) :
    (q.leave a now).queue = dropFirst (fun x => x == a) q.queue := CoreQueue.distribute_queue _

/-- Request `a` leaves the queue of its core and its issuer is answered. -/
def State.conclude (s : State) (iss : Issuer) (core : Nat) (a : Admitted) (msg : Nat) : State :=
  (s.setCoreQ core ((s.coreQ core).leave a s.time)).answer iss msg

theorem State.conclude_coreQ (s : State) (iss : Issuer) (core : Nat) (a : Admitted) (msg : Nat) :
    ((s.conclude iss core a msg).coreQ core).queue = dropFirst (fun x => x == a) (s.coreQ core).queue := by
  have h : (s.conclude iss core a msg).coreQ core = (s.coreQ core).leave a s.time :=
    s.coreQ_setCoreQ core _
  rw [h, CoreQueue.leave_queue]

theorem State.conclude_coreQ_ne (s : State) (iss : Issuer) {core k : Nat} (a : Admitted) (msg : Nat)
    (hc : core < 3) (hk : k < 3) (h : k ≠ core) : (s.conclude iss core a msg).coreQ k = s.coreQ k :=
  s.coreQ_setCoreQ_ne _ hc hk h

theorem State.conclude_answers (s : State) (iss : Issuer) (core : Nat) (a : Admitted) (msg : Nat) :
    (s.conclude iss core a msg).hif.answers = s.hif.answers ++ [{ issuer := iss, msg := BitVec.ofNat 2048 msg }] := by
  simp only [State.conclude, State.answer, State.setCoreQ]
  split
  · rfl
  · split <;> rfl

/-- Functions, tenants and session numbers are no part of a queue or of the answers. -/
theorem State.conclude_sameHif (s : State) (iss : Issuer) (core : Nat) (a : Admitted) (msg : Nat) :
    s.sameHif (s.conclude iss core a msg) := by
  simp only [State.sameHif, State.conclude, State.answer, State.setCoreQ]
  split
  · exact ⟨rfl, rfl, rfl, rfl⟩
  · split <;> exact ⟨rfl, rfl, rfl, rfl⟩

/-- Concluding a request touches the host interface alone. -/
theorem State.conclude_eq (s : State) (iss : Issuer) (core : Nat) (a : Admitted) (msg : Nat) :
    s.conclude iss core a msg = { s with hif := (s.conclude iss core a msg).hif } := by
  simp only [State.conclude, State.answer, State.setCoreQ]
  split
  · rfl
  · split <;> rfl

@[simp] theorem State.conclude_hostMem (s : State) (iss : Issuer) (core : Nat) (a : Admitted) (msg : Nat) :
    (s.conclude iss core a msg).hostMem = s.hostMem := by rw [State.conclude_eq]

@[simp] theorem State.conclude_fw (s : State) (iss : Issuer) (core : Nat) (a : Admitted) (msg : Nat) :
    (s.conclude iss core a msg).fw = s.fw := by rw [State.conclude_eq]

/-- A request that is concluded after work which left the host interface alone has been
answered as the statements say it. -/
theorem State.gave_conclude {s u : State} (iss : Issuer) {core code : Nat} (a : Admitted) (st : Status)
    (vals : List Nat) (hcore : core < 3) (hu : u.hif = s.hif) :
    s.gave (u.conclude iss core a (response a.msg.toNat st 0 (((cmdOf code).map (·.res)).getD []) vals))
      iss core code a st vals := by
  refine ⟨?_, ?_, ?_⟩
  · rw [State.conclude_answers, hu]
  · rw [State.conclude_coreQ, State.coreQ_congr hu]
  · simp only [List.all_eq_true, List.mem_range, Bool.or_eq_true, beq_iff_eq, decide_eq_true_eq]
    intro k hk
    by_cases h : k = core
    · exact .inl h
    · exact .inr ((u.conclude_coreQ_ne iss a _ hcore hk h).trans (State.coreQ_congr hu k))

/-! ### Serving a command in one piece -/

/-- The core that the service of a command asks for is the one that `State.serves` names. -/
theorem servingCore_eq {core : Nat} (h : core < 3) :
    (if core = 0 then 64 else if core = 1 then 65 else 66) = 64 + core := by
  split
  · omega
  · split <;> omega

/-- A command whose request is served now, and whose work replies, ends with that reply. -/
theorem State.serveNow_replies {s u : State} {iss : Issuer} {code t : Nat} {a : Admitted} {c : Cmd}
    {work : Nat → State → Reply × State} {st : Status} {vals : List Nat}
    (hc : cmdOf code = some c) (hcore : c.core < 3) (hs : s.serves iss c.core code a)
    (hw : work a.msg.toNat (s.at t) = (some (st, vals), u)) :
    State.serveNow iss code t work s = .next (u.conclude iss c.core a
      (response a.msg.toNat st 0 (((cmdOf code).map (·.res)).getD []) vals)) := by
  obtain ⟨hserved, hmute, hruns⟩ := hs
  have hserved' : ((s.at t).coreQ c.core).served iss code = some a := hserved
  have hruns' : (!(s.at t).coreRuns (64 + c.core) && !(romCmd code && !(s.at t).fw.switching.getLsbD 64)) = false := by
    rw [State.at_coreRuns_of, State.at_fw, ← Bool.not_or, hruns, Bool.not_true]
  simp only [State.serveNow, State.serve, hc, servingCore_eq hcore, hserved', hruns', hw, hmute,
    Bool.false_eq_true, ↓reduceIte]
  rfl

end Sys2Proof.Machine

/-! CRASH_DUMP (19 R605): where the captures fit they are written as one block of host bytes,
where they do not nothing is written; the answer gives their total length either way. -/

namespace Sys2Proof.Machine

/-- What CRASH_DUMP does once it is served and no host access fails. -/
def crashDumpWork (msg : Nat) (s : State) : Reply × State :=
  let bs := s.fw.captures.flatMap Capture.bytes
  if msgArg msg 1 < bs.length then (some (ST_FW_DUMP_SIZE, [bs.length]), s)
  else (reply [bs.length], s.hostWrite (msgArg msg 0) bs)

theorem exec_crashDump (iss : Issuer) (t : Nat) (s : State) :
    exec (.crashDump iss t false) s = State.serveNow iss 0x0A02 t crashDumpWork s := rfl

theorem crashDumpWork_of_lt {msg : Nat} {s : State}
    (h : msgArg msg 1 < (s.fw.captures.flatMap Capture.bytes).length) :
    crashDumpWork msg s = (some (ST_FW_DUMP_SIZE, [(s.fw.captures.flatMap Capture.bytes).length]), s) :=
  if_pos h

theorem crashDumpWork_of_le {msg : Nat} {s : State}
    (h : (s.fw.captures.flatMap Capture.bytes).length ≤ msgArg msg 1) :
    crashDumpWork msg s = (some (0, [(s.fw.captures.flatMap Capture.bytes).length]),
      s.hostWrite (msgArg msg 0) (s.fw.captures.flatMap Capture.bytes)) :=
  if_neg (Nat.not_lt.mpr h)

/-- CRASH_DUMP answers what its work replies, and changes host memory as its work does: the
store of captures and every other part of the module stay as they are. -/
theorem crashDump_gives {s : State} {iss : Issuer} {t : Nat} {a : Admitted} {st : Status} {vals : List Nat}
    {m : Mem} (hs : s.serves iss 0 0x0A02 a)
    (hw : crashDumpWork a.msg.toNat (s.at t) = (some (st, vals), { s.at t with hostMem := m })) :
    Gives (.crashDump iss t false) s (fun u => u.hostMem = m ∧ u.fw = s.fw
      ∧ s.gave u iss 0 0x0A02 a st vals ∧ s.sameHif u ∧ Keeps [.time, .hostMem, .hif] s u) := by
  rw [Gives, exec_crashDump]
  refine ⟨_, State.serveNow_replies rfl (by decide) hs hw, ?_⟩
  have hgave := State.gave_conclude (s := s) (u := { s.at t with hostMem := m }) (code := 0x0A02) iss a st vals
    (by decide : 0 < 3) rfl
  refine ⟨State.conclude_hostMem .., State.conclude_fw .., hgave, State.conclude_sameHif .., ?_⟩
  rw [State.conclude_eq]
  simp [Keeps]

/-- Settles O59: an empty store is the case of a dump that fits in any buffer. -/
theorem crashDump : Obligations.CrashDump := by
  unfold Obligations.CrashDump
  refine ⟨?fits, ?empty, ?short⟩
  case fits => exact fun s iss t a hs hfit => crashDump_gives hs (crashDumpWork_of_le hfit)
  case empty =>
    intro s iss t a hs hnone
    have hlen : s.fw.captures.flatMap Capture.bytes = [] := by rw [hnone, List.flatMap_nil]
    have hfit : (s.fw.captures.flatMap Capture.bytes).length ≤ msgArg a.msg.toNat 1 := by simp [hlen]
    have h := crashDump_gives (t := t) hs (crashDumpWork_of_le hfit)
    simpa only [hlen, List.length_nil, State.at_fw, State.at_hostMem, Mem.writeBytes] using h
  case short => exact fun s iss t a hs hlt => crashDump_gives hs (crashDumpWork_of_lt hlt)

end Sys2Proof.Machine

/-! The QUAY_PMAPn registers (21 R658). The statement fails by what it says a read leaves
unchanged: an access of a tile's scalar core passes the network interface of its quay, and that
passage is an arbitration which a recording logbook counts (17 R548), so a read of a register
changes the logbook. -/

namespace Sys2Proof.Machine

theorem Keeps.log_eq {ks : List Part} {s u : State} (h : Keeps ks s u) (hk : Part.log ∉ ks) : u.log = s.log := by
  obtain ⟨-, -, -, -, -, -, -, -, -, -, -, -, -, -, -, -, -, hlog, -⟩ := h
  exact hlog.resolve_left hk

/-- The points of the logbook are read from the logbook alone. -/
theorem State.point_congr {s u : State} (h : u.log = s.log) (p : Nat) : u.point p = s.point p := by
  simp only [State.point, h]

theorem exec_memoryRead (r : Requester) (a n : Nat) (errs : List (Nat × Nat × Nat)) (t : Nat) (s : State) :
    exec (.memoryRead r a n errs t) s = .next ((s.at t).memoryRead r a n errs) := rfl

/-- The module as reset leaves it, with the logbook recording. -/
def State.recordingReset : State := { State.reset with log := { State.reset.log with recording := true } }

/-- Nothing has been arbitrated at point 0x40, the outbound network interface of quay 0. -/
theorem State.recordingReset_point : (State.recordingReset.point 0x40).pseq = 0 := rfl

/-- The scalar core of tile 0 reads QUAY_PMAP0 of quay 0: one arbitration at point 0x40. -/
theorem State.recordingReset_pmapRead_point :
    (((State.recordingReset.at 0).memoryRead (.scalar 0) 0x7F0000100080 4 []).point 0x40).pseq = 1 := by
  decide

/-- Refutes O60: the read clauses name no premise on the logbook and do not list it among what
may change, and a scalar core's read of QUAY_PMAP0 in logical mode changes it while it records. -/
theorem not_physicalTiles : ¬ Obligations.PhysicalTiles := by
  unfold Obligations.PhysicalTiles
  rintro ⟨-, hlogical, -, -⟩
  obtain ⟨u, hu, -, hkeeps⟩ :=
    hlogical State.recordingReset (.scalar 0) 0 0 0 (by decide) (by decide) rfl (.inl rfl)
  rw [exec_memoryRead] at hu
  obtain rfl := Host.Outcome.next.inj hu
  have hpoint := State.point_congr (hkeeps.log_eq (by decide)) 0x40
  have hcount := State.recordingReset_pmapRead_point.symm.trans (congrArg LogPoint.pseq hpoint)
  rw [State.recordingReset_point] at hcount
  exact absurd hcount (by decide)

end Sys2Proof.Machine

/-! What every command keeps: the canonical form of both memories, and the order of time. -/

namespace Sys2Proof.Machine

section
variable {α β ε : Type} {o s : State}

/-! ### The relation -/

/-- These memories are in canonical form if those of `o` are, and this time is not before that of `o`. -/
def State.Held (o : State) (t : Nat) (m hm : Mem) : Prop :=
  (o.memOk → Mem.wf m = true ∧ Mem.wf hm = true) ∧ o.time ≤ t

/-- From `o` to `u` the canonical form of the memories is kept and time has not fallen. -/
def State.Leads (o u : State) : Prop := o.Held u.time u.mem u.hostMem

theorem State.Leads.refl (s : State) : s.Leads s := ⟨id, Nat.le_refl _⟩

theorem State.Leads.memOk {u : State} (h : o.Leads u) (ho : o.memOk) : u.memOk := h.1 ho

theorem State.Leads.time_le {u : State} (h : o.Leads u) : o.time ≤ u.time := h.2

/-- The command answers a next state that `o` leads to. -/
def State.Answers (o : State) (r : Out) : Prop := ∃ u, r = .next u ∧ o.Leads u

/-- Each state that such an outcome holds is one that `o` leads to. -/
def State.LeadsOpt (o : State) (r : Option State) : Prop := ∀ u, r = some u → o.Leads u
def State.LeadsOptSnd (o : State) (r : Option (α × State)) : Prop := ∀ u, r = some u → o.Leads u.2
def State.LeadsOptSnd2 (o : State) (r : Option (α × β × State)) : Prop := ∀ u, r = some u → o.Leads u.2.2
def State.LeadsExc (o : State) (r : Except ε State) : Prop := ∀ u, r = .ok u → o.Leads u
def State.LeadsOp (o : State) : OpOut → Prop
  | .done s _ => o.Leads s
  | .wait s _ => o.Leads s
  | .fail s _ _ => o.Leads s
def State.LeadsWait (o : State) : WaitOut → Prop
  | .passed s => o.Leads s
  | .waits s => o.Leads s
def State.LeadsSc (o : State) : ScOut → Prop
  | .ok _ s => o.Leads s
  | .wait s => o.Leads s
  | .trap _ s => o.Leads s
def State.LeadsScDone (o : State) : ScDone → Prop
  | .done _ _ s => o.Leads s
  | .wait s => o.Leads s
  | .trap _ s => o.Leads s

/-! ### Its rules: changes of other parts, cases, outcomes, folds -/

/-- A change of the other parts of a state. -/
theorem State.Leads.upd {x1 x2 x3 x4 x5 x6 x7 x8 x9 x10 x11 x12 x13 x14 x15 x16 x17 x18 x19 x20 x21 x22 x23 x24
    x25 x26 x27 x28 x29 x30 x31} (h : o.Leads s) :
    o.Leads ⟨x1, s.time, x2, x3, x4, s.mem, s.hostMem, x5, x6, x7, x8, x9, x10, x11, x12, x13, x14, x15, x16, x17,
      x18, x19, x20, x21, x22, x23, x24, x25, x26, x27, x28, x29, x30, x31⟩ := h

/-- A change of module memory that keeps its form. -/
theorem State.Leads.setMem {m : Mem} (h : o.Leads s) (hm : Mem.wf s.mem = true → Mem.wf m = true) :
    o.Leads { s with mem := m } :=
  ⟨fun ho => ⟨hm (h.1 ho).1, (h.1 ho).2⟩, h.2⟩

/-- Module memory made from that of `s`, in another state. -/
theorem State.Leads.setMemOf {u : State} {m : Mem} (h : o.Leads s) (hu : o.Leads u)
    (hm : Mem.wf s.mem = true → Mem.wf m = true) : o.Leads { u with mem := m } :=
  ⟨fun ho => ⟨hm (h.1 ho).1, (hu.1 ho).2⟩, hu.2⟩

/-- A change of host memory that keeps its form. -/
theorem State.Leads.setHostMem {m : Mem} (h : o.Leads s) (hm : Mem.wf s.hostMem = true → Mem.wf m = true) :
    o.Leads { s with hostMem := m } :=
  ⟨fun ho => ⟨(h.1 ho).1, hm (h.1 ho).2⟩, h.2⟩

theorem State.Leads.ite {a b : State} {c : Prop} [Decidable c] (ha : o.Leads a) (hb : o.Leads b) :
    o.Leads (if c then a else b) := by split <;> assumption

theorem State.Leads.dite {c : Prop} [Decidable c] {a : c → State} {b : ¬ c → State} (ha : ∀ h, o.Leads (a h))
    (hb : ∀ h, o.Leads (b h)) : o.Leads (if h : c then a h else b h) := by
  split
  · exact ha _
  · exact hb _

theorem State.Leads.ite_snd {a b : α × State} {c : Prop} [Decidable c] (ha : o.Leads a.2) (hb : o.Leads b.2) :
    o.Leads (if c then a else b).2 := by split <;> assumption

theorem State.Leads.ite_fst {a b : State × α} {c : Prop} [Decidable c] (ha : o.Leads a.1) (hb : o.Leads b.1) :
    o.Leads (if c then a else b).1 := by split <;> assumption

theorem State.Leads.snd {a : α} (h : o.Leads s) : o.Leads (a, s).2 := h

theorem State.Leads.fst {a : α} (h : o.Leads s) : o.Leads (s, a).1 := h

theorem State.Leads.snd_of_eq {p : α × State} {a : α} (h : o.Leads p.2) (e : p = (a, s)) : o.Leads s := by
  subst e; exact h

theorem State.Leads.snd2_of_eq {p : α × β × State} {a : α} {b : β} (h : o.Leads p.2.2) (e : p = (a, b, s)) :
    o.Leads s := by subst e; exact h

theorem State.Leads.fst_of_eq {p : State × α} {a : α} (h : o.Leads p.1) (e : p = (s, a)) : o.Leads s := by
  subst e; exact h

theorem State.Leads.foldl {l : List α} {f : State → α → State} (h : o.Leads s)
    (hf : ∀ s a, o.Leads s → o.Leads (f s a)) : o.Leads (l.foldl f s) := by
  induction l generalizing s with
  | nil => exact h
  | cons a l ih => exact ih (hf s a h)

theorem State.Leads.foldl_snd {l : List α} {p : β × State} {f : β × State → α → β × State} (h : o.Leads p.2)
    (hf : ∀ p a, o.Leads p.2 → o.Leads (f p a).2) : o.Leads (l.foldl f p).2 := by
  induction l generalizing p with
  | nil => exact h
  | cons a l ih => exact ih (hf p a h)

theorem State.Leads.foldl_fst {l : List α} {p : State × β} {f : State × β → α → State × β} (h : o.Leads p.1)
    (hf : ∀ p a, o.Leads p.1 → o.Leads (f p a).1) : o.Leads (l.foldl f p).1 := by
  induction l generalizing p with
  | nil => exact h
  | cons a l ih => exact ih (hf p a h)

theorem State.Leads.iter {f : State → State} {n : Nat} (h : o.Leads s) (hf : ∀ s, o.Leads s → o.Leads (f s)) :
    o.Leads (iter f n s) := by
  induction n generalizing s with
  | zero => exact h
  | succ n ih => exact ih (hf s h)

theorem State.Answers.next (h : o.Leads s) : o.Answers (.next s) := ⟨s, rfl, h⟩

theorem State.Answers.ite {a b : Out} {c : Prop} [Decidable c] (ha : o.Answers a) (hb : o.Answers b) :
    o.Answers (if c then a else b) := by split <;> assumption

theorem State.LeadsOpt.none : o.LeadsOpt none := fun _ e => nomatch e
theorem State.LeadsOpt.some (h : o.Leads s) : o.LeadsOpt (some s) := fun _ e => Option.some.inj e ▸ h
theorem State.LeadsOpt.of_eq {r : Option State} (h : o.LeadsOpt r) (e : r = .some s) : o.Leads s := h _ e
theorem State.LeadsOptSnd.of_eq {r : Option (α × State)} {a : α} (h : o.LeadsOptSnd r) (e : r = .some (a, s)) :
    o.Leads s := h _ e
theorem State.LeadsExc.of_eq {r : Except ε State} (h : o.LeadsExc r) (e : r = .ok s) : o.Leads s := h _ e
theorem State.LeadsOp.done_of_eq {r : OpOut} {n : Option Nat} (h : o.LeadsOp r) (e : r = .done s n) : o.Leads s := by
  subst e; exact h
theorem State.LeadsOp.wait_of_eq {r : OpOut} {c : WaitCause} (h : o.LeadsOp r) (e : r = .wait s c) : o.Leads s := by
  subst e; exact h
theorem State.LeadsOp.fail_of_eq {r : OpOut} {st : Status} {n : Nat} (h : o.LeadsOp r) (e : r = .fail s st n) :
    o.Leads s := by subst e; exact h
theorem State.LeadsOpt.ite {a b : Option State} {c : Prop} [Decidable c] (ha : o.LeadsOpt a) (hb : o.LeadsOpt b) :
    o.LeadsOpt (if c then a else b) := by split <;> assumption
theorem State.LeadsOpt.orElse {a b : Option State} (ha : o.LeadsOpt a) (hb : o.LeadsOpt b) : o.LeadsOpt (a <|> b) := by
  cases a with
  | none => exact hb
  | some s => exact ha
theorem State.LeadsOpt.getD {a : Option State} (ha : o.LeadsOpt a) (h : o.Leads s) : o.Leads (a.getD s) := by
  cases a with
  | none => exact h
  | some s => exact ha s rfl
theorem State.LeadsOptSnd.none : o.LeadsOptSnd (none : Option (α × State)) := fun _ e => nomatch e
theorem State.LeadsOptSnd.some {p : α × State} (h : o.Leads p.2) : o.LeadsOptSnd (some p) :=
  fun _ e => Option.some.inj e ▸ h
theorem State.LeadsOptSnd.ite {a b : Option (α × State)} {c : Prop} [Decidable c] (ha : o.LeadsOptSnd a)
    (hb : o.LeadsOptSnd b) : o.LeadsOptSnd (if c then a else b) := by split <;> assumption
theorem State.LeadsOptSnd2.none : o.LeadsOptSnd2 (none : Option (α × β × State)) := fun _ e => nomatch e
theorem State.LeadsOptSnd2.some {p : α × β × State} (h : o.Leads p.2.2) : o.LeadsOptSnd2 (some p) :=
  fun _ e => Option.some.inj e ▸ h
theorem State.LeadsOptSnd2.of_eq {r : Option (α × β × State)} {a : α} {b : β} (h : o.LeadsOptSnd2 r)
    (e : r = .some (a, b, s)) : o.Leads s := h _ e
theorem State.LeadsOptSnd2.ite {a b : Option (α × β × State)} {c : Prop} [Decidable c] (ha : o.LeadsOptSnd2 a)
    (hb : o.LeadsOptSnd2 b) : o.LeadsOptSnd2 (if c then a else b) := by split <;> assumption
theorem State.LeadsExc.error {e : ε} : o.LeadsExc (.error e) := fun _ h => nomatch h
theorem State.LeadsExc.ok (h : o.Leads s) : o.LeadsExc (.ok s : Except ε State) := fun _ e => Except.ok.inj e ▸ h
theorem State.LeadsExc.ite {a b : Except ε State} {c : Prop} [Decidable c] (ha : o.LeadsExc a) (hb : o.LeadsExc b) :
    o.LeadsExc (if c then a else b) := by split <;> assumption
theorem State.LeadsOp.done {n : Option Nat} (h : o.Leads s) : o.LeadsOp (.done s n) := h
theorem State.LeadsOp.wait {c : WaitCause} (h : o.Leads s) : o.LeadsOp (.wait s c) := h
theorem State.LeadsOp.fail {st : Status} {n : Nat} (h : o.Leads s) : o.LeadsOp (.fail s st n) := h
theorem State.LeadsOp.ite {a b : OpOut} {c : Prop} [Decidable c] (ha : o.LeadsOp a) (hb : o.LeadsOp b) :
    o.LeadsOp (if c then a else b) := by split <;> assumption
theorem State.LeadsWait.passed (h : o.Leads s) : o.LeadsWait (.passed s) := h
theorem State.LeadsWait.waits (h : o.Leads s) : o.LeadsWait (.waits s) := h
theorem State.LeadsWait.ite {a b : WaitOut} {c : Prop} [Decidable c] (ha : o.LeadsWait a) (hb : o.LeadsWait b) :
    o.LeadsWait (if c then a else b) := by split <;> assumption
theorem State.LeadsWait.passed_of_eq {r : WaitOut} (h : o.LeadsWait r) (e : r = .passed s) : o.Leads s := by
  subst e; exact h
theorem State.LeadsWait.waits_of_eq {r : WaitOut} (h : o.LeadsWait r) (e : r = .waits s) : o.Leads s := by
  subst e; exact h
theorem State.LeadsSc.ok {v : Nat} (h : o.Leads s) : o.LeadsSc (.ok v s) := h
theorem State.LeadsSc.wait (h : o.Leads s) : o.LeadsSc (.wait s) := h
theorem State.LeadsSc.trap {c : Nat} (h : o.Leads s) : o.LeadsSc (.trap c s) := h
theorem State.LeadsSc.ite {a b : ScOut} {c : Prop} [Decidable c] (ha : o.LeadsSc a) (hb : o.LeadsSc b) :
    o.LeadsSc (if c then a else b) := by split <;> assumption
theorem State.LeadsSc.ok_of_eq {r : ScOut} {v : Nat} (h : o.LeadsSc r) (e : r = .ok v s) : o.Leads s := by
  subst e; exact h
theorem State.LeadsSc.wait_of_eq {r : ScOut} (h : o.LeadsSc r) (e : r = .wait s) : o.Leads s := by subst e; exact h
theorem State.LeadsSc.trap_of_eq {r : ScOut} {c : Nat} (h : o.LeadsSc r) (e : r = .trap c s) : o.Leads s := by
  subst e; exact h
theorem State.LeadsScDone.done {rd : Option Nat} {n : Nat} (h : o.Leads s) : o.LeadsScDone (.done rd n s) := h
theorem State.LeadsScDone.wait (h : o.Leads s) : o.LeadsScDone (.wait s) := h
theorem State.LeadsScDone.trap {c : Nat} (h : o.Leads s) : o.LeadsScDone (.trap c s) := h
theorem State.LeadsScDone.ite {a b : ScDone} {c : Prop} [Decidable c] (ha : o.LeadsScDone a)
    (hb : o.LeadsScDone b) : o.LeadsScDone (if c then a else b) := by split <;> assumption
theorem State.LeadsScDone.done_of_eq {r : ScDone} {rd : Option Nat} {n : Nat} (h : o.LeadsScDone r)
    (e : r = .done rd n s) : o.Leads s := by subst e; exact h
theorem State.LeadsScDone.wait_of_eq {r : ScDone} (h : o.LeadsScDone r) (e : r = .wait s) : o.Leads s := by
  subst e; exact h
theorem State.LeadsScDone.trap_of_eq {r : ScDone} {c : Nat} (h : o.LeadsScDone r) (e : r = .trap c s) :
    o.Leads s := by subst e; exact h
end

end Sys2Proof.Machine

/-! What every function of the model that changes the state keeps, callees first, in the order of the
commands of `exec`: each lemma takes its function apart once and cites the lemmas of the functions called. -/

namespace Sys2Proof.Machine

section
variable {o s : State}

/-! ### Pace and supply (chapter 02) -/

theorem State.Leads.at {t} (h : o.Leads s) : o.Leads (s.at t) := ⟨h.1, Nat.le_trans h.2 (Nat.le_max_left ..)⟩
theorem State.Leads.memRespond {st addr data} (h : o.Leads s) : o.Leads (s.memRespond st addr data) := .upd h

theorem State.Leads.out {r : Out} (hr : o.Answers r) : o.Leads (r.state s) := by
  obtain ⟨u, rfl, hu⟩ := hr
  exact hu

theorem State.Leads.setQuay {q x} (h : o.Leads s) : o.Leads (s.setQuay q x) := .upd h
theorem State.Leads.updQuay {q f} (h : o.Leads s) : o.Leads (s.updQuay q f) := .setQuay h
theorem State.Leads.updPace {q f} (h : o.Leads s) : o.Leads (s.updPace q f) := .updQuay h
theorem State.Leads.cntQuay {q i n} (h : o.Leads s) : o.Leads (s.cntQuay q i n) := .upd h
theorem State.Leads.setStep {q v} (h : o.Leads s) : o.Leads (s.setStep q v) := .ite h (.cntQuay (.updPace h))

theorem State.Answers.paceVsetStepWrite {r q v} (h : o.Leads s) : o.Answers (execPaceVsetStepWrite r q v s) :=
  .ite (.next (.setStep (.ite h (.updPace h)))) (.next h)

theorem State.Leads.setTile {t x} (h : o.Leads s) : o.Leads (s.setTile t x) := .upd h
theorem State.Leads.updTile {t f} (h : o.Leads s) : o.Leads (s.updTile t f) := .setTile h
theorem State.Leads.dropMem {a n} (h : o.Leads s) : o.Leads (s.dropMem a n) := .setMem h (Mem.wf_drop _ _ _)
theorem State.Leads.poisonTile {t} (h : o.Leads s) : o.Leads (s.poisonTile t) := .updTile (.dropMem h)
theorem State.Leads.setUnit {u x} (h : o.Leads s) : o.Leads (s.setUnit u x) := .upd h
theorem State.Leads.tracePark {q ty data} (h : o.Leads s) : o.Leads (s.tracePark q ty data) := .ite h (.setUnit h)

theorem State.Answers.park {r q t} (h : o.Leads s) : o.Answers (execPark r q t s) := by
  unfold execPark
  extract_lets -lift s2 _ _ s5 s6 s7 _ s9
  have hs2 : o.Leads s2 := .at h
  have hs5 : o.Leads s5 := .updPace hs2
  have hs6 : o.Leads s6 := .updQuay hs5
  have hs7 : o.Leads s7 := .foldl hs6 (fun _ _ h10 => .poisonTile h10)
  have hs9 : o.Leads s9 := .setUnit hs7
  exact .ite (.next (.cntQuay (.tracePark hs9))) (.next hs2)

theorem State.Answers.unpark {r q t} (h : o.Leads s) : o.Answers (execUnpark r q t s) :=
  .ite (.next (.updPace (.at h))) (.next (.at h))

theorem State.Answers.paceIssueWrite {r q v} (h : o.Leads s) : o.Answers (execPaceIssueWrite r q v s) :=
  .ite (.next (.updPace h)) (.next h)

theorem State.Answers.clrMinmax {q v} (h : o.Leads s) : o.Answers (execClrMinmax q v s) :=
  .ite (.next (.updPace h)) (.next h)

/-! ### Synchronisation (chapter 13) -/

theorem State.Leads.writePace {r q off v} (h : o.Leads s) : o.Leads (s.writePace r q off v) := by
  have hs : o.Leads (Out.state (execPaceVsetStepWrite r q v s) s) := .out (.paceVsetStepWrite h)
  unfold State.writePace
  split
  · exact .ite hs (.out (.ite (.park hs) (.unpark hs)))
  · exact .out (.paceIssueWrite h)
  · exact .out (.clrMinmax h)
  · exact .updPace h
  · exact .ite (.upd h) h
  · exact h

theorem State.Leads.writeSpare {r q n v} (h : o.Leads s) : o.Leads (s.writeSpare r q n v) := .ite h (.setQuay h)

theorem State.Leads.writeQuay {r q off v} (h : o.Leads s) : o.Leads (s.writeQuay r q off v) := by
  unfold State.writeQuay
  split
  · exact .writeSpare h
  · exact .ite (.updQuay h) h

theorem State.Leads.cntMod {i n} (h : o.Leads s) : o.Leads (s.cntMod i n) := .upd h

theorem State.Leads.placeEntry {x} (h : o.Leads s) : o.Leads (s.placeEntry x) :=
  .ite (.cntMod (.cntMod (.upd h))) (.cntMod (.cntMod (.cntMod (.upd h))))

theorem State.Leads.raise {st kind unit tenant arg} (h : o.Leads s) : o.Leads (s.raise st kind unit tenant arg) :=
  .placeEntry h

theorem State.Leads.tecAdd {t n inc} (h : o.Leads s) : o.Leads (s.tecAdd t n inc) :=
  .ite (.updTile h) (.cntQuay (.raise (.updTile h)))

theorem State.Leads.writeTec {t n v} (h : o.Leads s) : o.Leads (s.writeTec t n v) :=
  .ite (.tecAdd (.ite (.updTile h) h)) (.ite (.updTile h) h)

theorem State.Leads.cfgPendWrite {t w v} (h : o.Leads s) : o.Leads (s.cfgPendWrite t w v) :=
  .ite (.setTile h) (.setTile h)

theorem State.Leads.preRecWrite {t w v} (h : o.Leads s) : o.Leads (s.preRecWrite t w v) :=
  .ite (.setTile h) (.setTile h)

theorem State.Leads.barAbort {t} (h : o.Leads s) : o.Leads (s.barAbort t) := .upd h
theorem State.Leads.setSo {n x} (h : o.Leads s) : o.Leads (s.setSo n x) := .upd h
theorem State.Leads.cntSync {sop n} (h : o.Leads s) : o.Leads (s.cntSync sop n) := .cntMod (.upd h)
theorem State.Leads.freshLong (h : o.Leads s) : o.Leads (s.freshLong).2 := .upd h
theorem State.Leads.traceAdd {u m r} (h : o.Leads s) : o.Leads (s.traceAdd u m r) := .ite (.setUnit h) h
theorem State.Leads.traceTile {t m ty tag data} (h : o.Leads s) : o.Leads (s.traceTile t m ty tag data) := .traceAdd h
theorem State.Leads.traceDescEnd {t tag st} (h : o.Leads s) : o.Leads (s.traceDescEnd t tag st) := .traceTile (.upd h)

theorem State.Leads.finishDesc {t st source op} (h : o.Leads s) : o.Leads (s.finishDesc t st source op) :=
  .cntQuay (.updTile (.traceDescEnd h))

theorem State.Leads.failDesc {t st source op} (h : o.Leads s) : o.Leads (s.failDesc t st source op) :=
  .ite (.updTile (.finishDesc h)) (.updTile h)

theorem State.Leads.wake {u st} (h : o.Leads s) : o.Leads (s.wake u st) := by
  unfold State.wake
  split
  · exact .ite (.updTile h) (.failDesc h)
  · exact .upd h

theorem State.Leads.setFunc {f x} (h : o.Leads s) : o.Leads (s.setFunc f x) := .upd h
theorem State.Leads.updFunc {f g} (h : o.Leads s) : o.Leads (s.updFunc f g) := .setFunc h
theorem State.Leads.loseNote {f} (h : o.Leads s) : o.Leads (s.loseNote f) := .updFunc h

theorem State.Leads.hostWrite {a bs} (h : o.Leads s) : o.Leads (s.hostWrite a bs) :=
  .setHostMem h (Mem.wf_writeBytes _ _ _)

theorem State.Leads.raiseVec2 {f} (h : o.Leads s) : o.Leads (s.raiseVec2 f) := .updFunc h

theorem State.Leads.writeNote {f so count} (h : o.Leads s) : o.Leads (s.writeNote f so count) := by
  unfold State.writeNote
  extract_lets -lift
  split
  · exact .loseNote h
  · exact .ite (.loseNote h) (.raiseVec2 (.updFunc (.hostWrite h)))

theorem State.Leads.passObj {n before} (h : o.Leads s) : o.Leads (s.passObj n before) := by
  unfold State.passObj
  extract_lets -lift
  split
  · extract_lets -lift s20 s21 s22
    have hs20 : o.Leads s20 := .setSo h
    have hs21 : o.Leads s21 := .foldl hs20 (fun _ _ h23 => .cntSync (.wake h23))
    have hs22 : o.Leads s22 := .ite hs21 (.cntMod hs21)
    exact .ite (.writeNote hs22) hs22

theorem State.Leads.removeWaits {p} (h : o.Leads s) : o.Leads (s.removeWaits p) :=
  .foldl (.upd h) (fun _ _ h1 => .passObj (.setSo h1))

theorem State.Leads.tileAbort {t} (h : o.Leads s) : o.Leads (s.tileAbort t) := by
  unfold State.tileAbort
  extract_lets -lift _ s2 s3
  have hs2 : o.Leads s2 := .setTile h
  have hs3 : o.Leads s3 := .updTile hs2
  split
  · exact .barAbort (.removeWaits hs3)
  · exact .barAbort (.removeWaits hs3)
  · exact .barAbort (.removeWaits hs3)
  · exact hs2

theorem State.Leads.tileStop {t} (h : o.Leads s) : o.Leads (s.tileStop t) := by
  unfold State.tileStop
  extract_lets -lift
  split
  · exact .ite (.setTile h) (.setTile h)
  · exact .setTile h
  · exact h

theorem State.Leads.failStart {t f} (h : o.Leads s) : o.Leads (s.failStart t f) :=
  .cntQuay (.updTile (.traceDescEnd (.updTile h)))

theorem State.Leads.isolation {st kind unit tenant arg} (h : o.Leads s) :
    o.Leads (s.isolation st kind unit tenant arg) := .raise h

theorem State.Leads.setPoint {p x} (h : o.Leads s) : o.Leads (s.setPoint p x) := .upd h

theorem State.Leads.resvWrite {u a bs} (h : o.Leads s) : o.Leads (s.resvWrite u a bs) := by
  refine .setMem h fun hm => Mem.wf_writeBytes _ _ _ ?_
  refine List.foldlRecOn (motive := fun m => Mem.wf m = true) _ _ hm fun m hm i _ => ?_
  dsimp only
  split
  · exact hm
  · exact Mem.wf_fillZero _ _ _ hm

theorem State.Leads.logHeader (h : o.Leads s) : o.Leads s.logHeader := .resvWrite (.resvWrite h)

theorem State.Leads.logFull (h : o.Leads s) : o.Leads s.logFull :=
  .ite (.logHeader (.upd h)) (.raise (.logHeader (.upd h)))

theorem State.Leads.logPut {rcd} (h : o.Leads s) : o.Leads (s.logPut rcd) :=
  .ite (.ite (.logFull h) h) (.logHeader (.upd (.resvWrite (.ite (.logFull h) h))))

theorem State.Leads.logFlush {p} (h : o.Leads s) : o.Leads (s.logFlush p) := by
  unfold State.logFlush
  extract_lets -lift
  split
  · exact h
  · exact .logPut (.setPoint h)

theorem State.Leads.logArb {p winner} (h : o.Leads s) : o.Leads (s.logArb p winner) :=
  .ite h (.ite (.setPoint h) (.setPoint (.logFlush h)))

theorem State.Leads.asAgent {kind unit a} (h : o.Leads s) : o.Leads (s.asAgent kind unit a) := by
  unfold State.asAgent
  extract_lets -lift _ s2 s3
  have hs2 : o.Leads s2 := .upd h
  have hs3 : o.Leads s3 := .ite (.logArb hs2) hs2
  split
  · exact .logArb hs3
  · exact .logArb hs3
  · exact hs3

theorem State.Leads.accessRecord {kind unit tenant write a n} (h : o.Leads s) :
    o.Leads (s.accessRecord kind unit tenant write a n).2 := by
  unfold State.accessRecord
  split
  · exact .ite (.isolation h) h
  · exact .asAgent h

theorem State.Leads.touch {a n read} (h : o.Leads s) : o.Leads (s.touch a n read) := .ite h (.upd h)
theorem State.Leads.updChan {ch f} (h : o.Leads s) : o.Leads (s.updChan ch f) := .upd h

theorem State.Leads.putAtom {atom bs} (h : o.Leads s) : o.Leads (s.putAtom atom bs) :=
  .upd (.setMem h (Mem.wf_writeBytes _ _ _))

theorem State.Leads.updInteg {i f} (h : o.Leads s) : o.Leads (s.updInteg i f) := .upd h

theorem State.Leads.retire {e} (h : o.Leads s) : o.Leads (s.retire e) := by
  unfold State.retire
  extract_lets -lift _ s2 s3
  have hs2 : o.Leads s2 := .upd h
  have hs3 : o.Leads s3 := .ite hs2 (.updChan hs2)
  split
  · exact .putAtom hs3
  · exact .raise (.updInteg hs3)

theorem State.Leads.retireAll {p} (h : o.Leads s) : o.Leads (s.retireAll p) := .foldl h (fun _ _ h1 => .retire h1)
theorem State.Leads.logUnit {unit} (h : o.Leads s) : o.Leads (s.logUnit unit) := .logArb h

theorem State.Leads.countPoison {a n} (h : o.Leads s) : o.Leads (s.countPoison a n) := by
  unfold State.countPoison
  split
  · exact .foldl h (fun _ _ h3 => .ite h3 (.updInteg h3))
  · exact .foldl h (fun _ _ h6 => .ite h6 (.updInteg h6))
  · exact .updQuay h
  · exact .updQuay h
  · exact h

theorem State.Leads.load {a n} (h : o.Leads s) : o.Leads (s.load a n).2 := by
  unfold State.load
  extract_lets -lift s1 s2
  have hs1 : o.Leads s1 := .touch (.retireAll h)
  have hs2 : o.Leads s2 := .ite (.foldl hs1 (fun _ _ h3 => .ite (.logUnit h3) h3)) hs1
  split
  · split
    · exact .foldl hs2 (fun _ _ h9 => .updChan h9)
    · exact hs2
  · exact .countPoison hs2

theorem State.Leads.loadNum {a n} (h : o.Leads s) : o.Leads (s.loadNum a n).2 := by
  unfold State.loadNum
  split
  · next e => exact State.Leads.snd_of_eq (.load h) e

theorem State.Leads.loadNext {t} (h : o.Leads s) : o.Leads (s.loadNext t) := by
  unfold State.loadNext
  extract_lets -lift
  split
  · exact h
  · split
    · exact h
    · split
      · next e => exact .updTile (State.Leads.snd_of_eq (.accessRecord h) e)
      next e15 =>
        have he15 := State.Leads.snd_of_eq (.accessRecord h) e15
        split
        · next e => exact .updTile (State.Leads.snd_of_eq (.loadNum he15) e)
        next e22 =>
          have he22 := State.Leads.snd_of_eq (.loadNum he15) e22
          split
          next e26 =>
            have he26 := State.Leads.snd_of_eq (by
                split
                · exact .cntQuay he22
                · exact he22) e26
            exact .updTile he26

theorem State.Leads.startReady {t} (h : o.Leads s) : o.Leads (s.startReady t) := by
  unfold State.startReady
  extract_lets -lift
  split
  · exact h
  · exact .failStart h
  · split
    · exact .failStart h
    · exact .ite (.failStart h) (.loadNext (.cntQuay (.traceTile (.updTile (.ite (.setTile (.upd h)) (.setTile h))))))

theorem State.Leads.startPending {t fromRecord} (h : o.Leads s) : o.Leads (s.startPending t fromRecord) := by
  unfold State.startPending
  extract_lets -lift _ s2
  have hs2 : o.Leads s2 := .setTile h
  split
  · exact .failStart h
  · split
    · exact .cntQuay hs2
    · exact .startReady hs2

theorem State.Leads.tileResume {t} (h : o.Leads s) : o.Leads (s.tileResume t) := by
  unfold State.tileResume
  extract_lets -lift
  split
  · exact h
  · exact .ite (.setTile h) (.ite (.startPending (.setTile h)) (.ite (.startPending (.setTile h)) (.setTile h)))

theorem State.Leads.tileStart {t} (h : o.Leads s) : o.Leads (s.tileStart t) := by
  unfold State.tileStart
  extract_lets -lift
  split
  · exact .setTile h
  · split
    · exact .raise (.setTile h)
    · split
      · exact .startPending h
      · exact .setTile h
      · exact h

theorem State.Leads.tileScEnd {t} (h : o.Leads s) : o.Leads (s.tileScEnd t) := .updTile h

theorem State.Leads.tileCtrl {t v} (h : o.Leads s) : o.Leads (s.tileCtrl t v) := by
  unfold State.tileCtrl
  extract_lets -lift s1 s2 s3 s4 s5
  have hs1 : o.Leads s1 := .ite (.updTile h) h
  have hs2 : o.Leads s2 := .ite (.tileAbort hs1) hs1
  have hs3 : o.Leads s3 := .ite (.tileStop hs2) hs2
  have hs4 : o.Leads s4 := .ite (.tileResume hs3) hs3
  have hs5 : o.Leads s5 := .ite (.tileStart hs4) hs4
  exact .ite (.tileScEnd hs5) hs5

theorem State.Leads.descFetch {t start} (h : o.Leads s) : o.Leads (s.descFetch t start) :=
  .ite (.setTile h) (.cntQuay (.setTile h))

theorem State.Leads.writeTile {t off v} (h : o.Leads s) : o.Leads (s.writeTile t off v) := by
  unfold State.writeTile
  split
  · exact .updTile h
  · exact .writeTec h
  · exact .cfgPendWrite h
  · exact .preRecWrite h
  · split
    · exact .updTile h
    · exact .tileCtrl h
    · exact .updTile h
    · exact .updTile h
    · exact .updTile h
    · exact .ite (.descFetch h) (.ite (.descFetch h) h)
    · exact h

theorem State.Leads.tileDenied {r t off} (h : o.Leads s) : o.Leads (s.tileDenied r t off) := .raise h
theorem State.Leads.updStack {n f} (h : o.Leads s) : o.Leads (s.updStack n f) := .upd h
theorem State.Leads.resizeReserve {n used} (h : o.Leads s) : o.Leads (s.resizeReserve n used) := .updStack h
theorem State.Leads.setServeRsv {st v} (h : o.Leads s) : o.Leads (s.setServeRsv st v) := .resizeReserve (.updStack h)

theorem State.Leads.writeInteg {i off v} (h : o.Leads s) : o.Leads (s.writeInteg i off v) := by
  unfold State.writeInteg
  split
  · exact .updInteg h
  · exact .updInteg h
  · exact h

theorem State.Leads.beginRetrain {ch cause} (h : o.Leads s) : o.Leads (s.beginRetrain ch cause) :=
  .updChan (.retireAll h)

theorem State.Leads.writeT2 {n off v} (h : o.Leads s) : o.Leads (s.writeT2 n off v) := by
  unfold State.writeT2
  split
  · exact .writeInteg h
  · exact .ite (.updChan h) (.ite (.beginRetrain (.updChan (.updChan h))) (.updChan (.updChan h)))

theorem State.Leads.updPort {p f} (h : o.Leads s) : o.Leads (s.updPort p f) := .upd h
theorem State.Leads.startPort {p} (h : o.Leads s) : o.Leads (s.startPort p) := .updPort h
theorem State.Leads.freeSlots {port p} (h : o.Leads s) : o.Leads (s.freeSlots port p) := .ite h (.updPort h)

theorem State.Leads.forward {port p} (h : o.Leads s) : o.Leads (s.forward port p) := by
  unfold State.forward
  split
  · exact .freeSlots (.updPort h)
  · exact .upd h

theorem State.Leads.sendPacket {p} (h : o.Leads s) : o.Leads (s.sendPacket p) := .ite (.upd h) (.forward h)
theorem State.Leads.noRoute {p} (h : o.Leads s) : o.Leads (s.noRoute p) := .ite (.sendPacket h) h

theorem State.Leads.pumpFabric (h : o.Leads s) : o.Leads s.pumpFabric := by
  unfold State.pumpFabric
  extract_lets -lift _ _ s4
  have hs4 : o.Leads s4 := .upd h
  refine .foldl hs4 fun _ _ h9 => ?_
  extract_lets -lift
  split
  · exact .noRoute (.freeSlots h9)
  · split
    · exact .freeSlots (.updPort h9)
    · exact .upd h9

theorem State.Leads.linksChanged (h : o.Leads s) : o.Leads s.linksChanged := .upd h
theorem State.Leads.countDown {p} (h : o.Leads s) : o.Leads (s.countDown p) := .ite h (.updPort h)

theorem State.Leads.setPortEn {p en} (h : o.Leads s) : o.Leads (s.setPortEn p en) := by
  unfold State.setPortEn
  extract_lets -lift _ s2 s3
  have hs2 : o.Leads s2 := .updPort h
  have hs3 : o.Leads s3 := .updPort h
  exact .ite h (.ite (.ite hs2 (.startPort hs2)) (.pumpFabric (.linksChanged (.countDown hs3))))

theorem State.Leads.retrain {p} (h : o.Leads s) : o.Leads (s.retrain p) := .ite h (.updPort h)

theorem State.Leads.writePort {n off v} (h : o.Leads s) : o.Leads (s.writePort n off v) :=
  .ite h (.ite (.retrain (.setPortEn (.updPort h))) (.setPortEn (.updPort h)))

theorem State.Leads.writeFab {off v} (h : o.Leads s) : o.Leads (s.writeFab off v) := by
  unfold State.writeFab
  split
  · exact .upd h
  · exact .upd h
  · exact h

theorem State.Leads.writeDma {off v} (h : o.Leads s) : o.Leads (s.writeDma off v) := .ite (.upd h) h
theorem State.Leads.soSet {n v} (h : o.Leads s) : o.Leads (s.soSet n v) := .passObj (.cntSync (.setSo h))

theorem State.Leads.soBlocked {kind unit tenant n} (h : o.Leads s) : o.Leads (s.soBlocked kind unit tenant n) :=
  .isolation (.upd h)

theorem State.Answers.soCountWrite {r n v} (h : o.Leads s) : o.Answers (execSoCountWrite r n v s) :=
  .ite (.next h) (.ite (.next (.soSet h)) (.next (.soBlocked h)))

/-! ### Reset and bring-up (chapter 21) -/

theorem State.Leads.setBar {g x} (h : o.Leads s) : o.Leads (s.setBar g x) := .upd h

theorem State.Leads.writeSync {off v} (h : o.Leads s) : o.Leads (s.writeSync off v) :=
  .ite (.ite (.setSo h) (.out (.soCountWrite h))) (.ite (.setBar h) h)

theorem State.Leads.writeMan {off v} (h : o.Leads s) : o.Leads (s.writeMan off v) := by
  unfold State.writeMan
  split
  · exact .ite (.upd h) h
  · split
    · exact .upd h
    · exact .upd h
    · exact h

theorem State.Leads.writePil {off v} (h : o.Leads s) : o.Leads (s.writePil off v) := .ite (.upd h) h

theorem State.Leads.writeTrc {q off v} (h : o.Leads s) : o.Leads (s.writeTrc q off v) :=
  .ite (.setUnit h) (.ite (.setUnit h) h)

theorem State.Leads.updPower {f} (h : o.Leads s) : o.Leads (s.updPower f) := .upd h

theorem State.Leads.writePwr {r off v} (h : o.Leads s) : o.Leads (s.writePwr r off v) := by
  unfold State.writePwr
  split
  · exact .ite (.updPower h) h
  · exact .ite (.updPower h) h
  · exact .ite (.updPower h) h
  · exact h

theorem State.Leads.updThermal {f} (h : o.Leads s) : o.Leads (s.updThermal f) := .upd h

theorem State.Leads.writeThm {r off v} (h : o.Leads s) : o.Leads (s.writeThm r off v) := by
  unfold State.writeThm
  split
  · exact h
  · split
    · exact .updThermal h
    · exact .ite (.updThermal h) h

theorem State.Leads.updBackup {f} (h : o.Leads s) : o.Leads (s.updBackup f) := .upd h
theorem State.Leads.updBring {f} (h : o.Leads s) : o.Leads (s.updBring f) := .upd h

theorem State.Answers.rstWdogCtrlWrite {r v t} (h : o.Leads s) : o.Answers (execRstWdogCtrlWrite r v t s) :=
  .next (.ite (.updBring (.at h)) (.at h))

theorem State.Answers.rstWdogKick {r v t} (h : o.Leads s) : o.Answers (execRstWdogKick r v t s) :=
  .next (.ite (.updBring (.at h)) (.at h))

/-! ### Queues and graphs (chapter 07) -/

theorem State.Leads.writeRst {r off v} (h : o.Leads s) : o.Leads (s.writeRst r off v) := by
  unfold State.writeRst
  split
  · exact h
  · split
    · exact .updBackup h
    · exact .updBackup h
    · split
      · exact .updBackup h
      · exact .out (.rstWdogCtrlWrite h)
      · exact .out (.rstWdogKick h)
      · exact h

theorem State.Leads.mbxReqWrite {f w v} (h : o.Leads s) : o.Leads (s.mbxReqWrite f w v) :=
  .ite h (.ite (.setFunc h) (.setFunc h))

theorem State.Leads.logDigest {p} (h : o.Leads s) : o.Leads (s.logDigest p) := .logPut h

theorem State.Leads.logInput {p bs command} (h : o.Leads s) : o.Leads (s.logInput p bs command) :=
  .ite h (.ite (.logDigest (.setPoint h)) (.setPoint h))

theorem State.Leads.hostArrival {f bs} (h : o.Leads s) : o.Leads (s.hostArrival f bs) := .logInput (.logArb h)
theorem State.Leads.updHwq {q f} (h : o.Leads s) : o.Leads (s.updHwq q f) := .upd h

theorem State.Leads.ringDoorbell {q tail} (h : o.Leads s) : o.Leads (s.ringDoorbell q tail) := by
  unfold State.ringDoorbell
  split
  · exact .cntMod (.raise h)
  · exact .ite (.cntMod (.raise h)) (.ite (.cntMod (.raise h)) (.ite (.cntMod (.raise h)) (.updHwq h)))

theorem State.Answers.doorbell {f v} (h : o.Leads s) : o.Answers (execDoorbell f v s) := by
  unfold execDoorbell
  split
  · exact .next h
  · extract_lets -lift s3
    have hs3 : o.Leads s3 := .hostArrival h
    split
    · exact .next (.isolation hs3)
    · split
      · exact .ite (.next (.ringDoorbell hs3)) (.next (.isolation hs3))
      · exact .next (.isolation hs3)

/-! ### Mailboxes and the host interface (chapters 18, 19 and 22) -/

theorem State.Leads.answer {iss msg} (h : o.Leads s) : o.Leads (s.answer iss msg) := .upd h

theorem State.Leads.setCoreQ {core q} (h : o.Leads s) : o.Leads (s.setCoreQ core q) :=
  .ite (.upd h) (.ite (.upd h) (.upd h))

theorem State.Leads.admitReq {iss core msg} (h : o.Leads s) : o.Leads (s.admitReq iss core msg) := by
  unfold State.admitReq
  extract_lets -lift q a put f holder fs ahead
  have hput : ∀ q, o.Leads (put q) := fun _ => .setCoreQ h
  split
  · split
    · exact hput _
    · split
      next m s1 e =>
      have h1 : o.Leads s1 := by
        split at e
        · cases e; exact h
        · cases e; exact .freshLong h
      exact .answer (.setCoreQ h1)
  · split
    · exact hput _
    · split
      · exact hput _
      · split
        next m s1 e =>
        have h1 : o.Leads s1 := by
          split at e
          · cases e; exact h
          · cases e; exact .freshLong h
        refine .answer ?_
        split
        · exact .updFunc (.setCoreQ h1)
        · exact .setCoreQ h1

theorem State.Leads.submit {iss msg} (h : o.Leads s) : o.Leads (s.submit iss msg) := by
  unfold State.submit
  split
  · exact .answer h
  · split
    · exact .admitReq h
    · exact h

theorem State.Answers.mbxGo {f t} (h : o.Leads s) : o.Answers (execMbxGo f t s) :=
  .ite (.next (.at h)) (.ite (.next (.setFunc (.at h))) (.next (.submit (.setFunc (.hostArrival (.at h))))))

theorem State.Answers.mbxEvtHeadWrite {f v} (h : o.Leads s) : o.Answers (execMbxEvtHeadWrite f v s) :=
  .ite (.next h) (.next (.updFunc h))

/-! ### Registers of quays (chapter 01) -/

theorem State.Leads.writeMbx {f off v} (h : o.Leads s) : o.Leads (s.writeMbx f off v) := by
  unfold State.writeMbx
  split
  · exact .mbxReqWrite h
  · split
    · exact .out (.doorbell h)
    · exact .ite (.out (.mbxGo h)) h
    · exact .updFunc h
    · exact .out (.mbxEvtHeadWrite h)
    · exact .updFunc h
    · exact h

theorem State.Leads.writeReg {r a v} (h : o.Leads s) : o.Leads (s.writeReg r a v).2 := by
  unfold State.writeReg
  split
  · exact h
  · next b i o _ =>
    refine .ite_snd h ?_
    cases b with
    | pace => exact .writePace h
    | quay => exact .writeQuay h
    | tile => exact .ite_snd (.writeTile h) (.tileDenied h)
    | stk => exact .ite (.ite (.setServeRsv h) (.writeInteg h)) h
    | t2 => exact .ite (.writeT2 h) h
    | port => exact .ite (.writePort h) h
    | fab => exact .ite (.writeFab h) h
    | dma => exact .ite (.writeDma h) h
    | sync => exact .ite (.writeSync h) h
    | man => exact .ite (.writeMan h) h
    | pil => exact .ite (.writePil h) h
    | trc => exact .ite (.writeTrc h) h
    | pwr => exact .writePwr h
    | thm => exact .writeThm h
    | rst => exact .writeRst h
    | mbx => exact .ite (.writeMbx h) h

theorem State.Answers.registerWrite {r a v t} (h : o.Leads s) : o.Answers (execRegisterWrite r a v t s) := by
  unfold execRegisterWrite
  extract_lets -lift s1
  have hs1 : o.Leads s1 := .at h
  split
  · exact .next (.memRespond hs1)
  · split
    · next e => exact .next (.memRespond (State.Leads.snd_of_eq (.writeReg hs1) e))

theorem State.Answers.quaySpareMapWrite {r q n v} (h : o.Leads s) : o.Answers (execQuaySpareMapWrite r q n v s) :=
  .next (.ite (.writeSpare h) h)

theorem State.Answers.paceWindowEnd {q cur mv t} (h : o.Leads s) : o.Answers (execPaceWindowEnd q cur mv t s) := by
  unfold execPaceWindowEnd
  extract_lets -lift s1 _ _ _ _ _ _ s8 s9 s10
  have hs1 : o.Leads s1 := .at h
  have hs8 : o.Leads s8 := .updPace hs1
  have hs9 : o.Leads s9 := .cntQuay (.cntQuay hs8)
  have hs10 : o.Leads s10 := .ite (.raise hs9) hs9
  exact .ite (.next (.upd hs1)) (.ite (.next hs1) (.next (.ite (.raise hs10) hs10)))

theorem State.Answers.pacePredUpdate {q} (h : o.Leads s) : o.Answers (execPacePredUpdate q s) :=
  .ite (.next (.updPace h)) (.next h)

theorem State.Leads.applyLimits {q} (h : o.Leads s) : o.Leads (s.applyLimits q) := .updPace (.setStep h)

theorem State.Leads.nextStage {q} (h : o.Leads s) : o.Leads (s.nextStage q) := by
  unfold State.nextStage
  extract_lets -lift
  split
  · exact h
  · exact .ite h (.applyLimits (.updPace (.updQuay h)))

theorem State.Answers.supplySettled {q t} (h : o.Leads s) : o.Answers (execSupplySettled q t s) :=
  .next (.ite (.nextStage (.updPace (.at h))) (.updPace (.at h)))

theorem State.Leads.readTable {tenant a w n} (h : o.Leads s) : o.Leads (s.readTable tenant a w n).2 := by
  unfold State.readTable
  split
  · exact h
  · split
    · next e => exact State.Leads.snd_of_eq (.accessRecord h) e
    next e9 =>
      have he9 := State.Leads.snd_of_eq (.accessRecord h) e9
      split
      · next e => exact State.Leads.snd_of_eq (.loadNum he9) e
      · next e => exact State.Leads.snd_of_eq (.loadNum he9) e

theorem State.Leads.traceCentral {m ty kind index tag data} (h : o.Leads s) :
    o.Leads (s.traceCentral m ty kind index tag data) := .traceAdd h

theorem State.Leads.abortTile {t} (h : o.Leads s) : o.Leads (s.abortTile t) := .ite (.setTile h) (.tileAbort h)
theorem State.Leads.updGraph {seq f} (h : o.Leads s) : o.Leads (s.updGraph seq f) := .upd h

theorem State.Leads.growReserves (h : o.Leads s) : o.Leads s.growReserves :=
  .foldl h (fun _ _ h1 => .resizeReserve h1)

theorem State.Leads.updNode {seq node f} (h : o.Leads s) : o.Leads (s.updNode seq node f) := .updGraph h

theorem State.Leads.releaseNode {seq node} (h : o.Leads s) : o.Leads (s.releaseNode seq node) := by
  unfold State.releaseNode
  split
  · exact h
  · exact .growReserves (.updNode (.updGraph (.upd (.foldl h (fun _ _ h6 => .updTile h6)))))

theorem State.Leads.freshBytes {n} (h : o.Leads s) : o.Leads (s.freshBytes n).2 := .upd h

theorem State.Leads.mergePart {atom unit a bs} (h : o.Leads s) : o.Leads (s.mergePart atom unit a bs) := by
  unfold State.mergePart
  extract_lets -lift _ x2 x3 s4 _ _ _ _ _ _ s11
  have hs4 : o.Leads s4 := by
    unfold s4
    unfold x2
    split
    · exact h
    · split
      · split
        · unfold x3
          split
          · exact .retire h
          · exact h
        · exact h
      · split
        · unfold x3
          split
          · exact .retire h
          · exact h
        · exact h
  have hs11 : o.Leads s11 := .upd hs4
  exact .ite (.putAtom (.upd hs11)) (.upd hs11)

theorem State.Leads.writeTier {a bs} (h : o.Leads s) : o.Leads (s.writeTier a bs) := by
  unfold State.writeTier
  refine .foldl h fun _ _ h5 => ?_
  extract_lets -lift _ s7 _ _ _ _ s12
  have hs7 : o.Leads s7 := .logUnit h5
  have hs12 : o.Leads s12 := .ite hs7 (.updChan hs7)
  exact .ite hs7 (.ite (.putAtom (.upd hs12)) (.mergePart hs12))

theorem State.Leads.countPartial {t u a n} (h : o.Leads s) : o.Leads (s.countPartial t u a n) := .ite h (.updQuay h)

theorem State.Leads.writePlain_go {n a bs} (h : o.Leads s) : o.Leads (State.writePlain.go n s a bs) := by
  induction n generalizing s a bs with
  | zero => exact h
  | succ n ih =>
    refine .ite h (ih ?_)
    split
    · exact .writeTier h
    · exact .writeTier h
    · exact .setMemOf h (.countPartial h) (Mem.wf_writeUnits _ _ _ _)
    · exact .setMemOf h (.countPartial h) (Mem.wf_writeUnits _ _ _ _)
    · exact h

theorem State.Leads.writePlain {a bs} (h : o.Leads s) : o.Leads (s.writePlain a bs) := .writePlain_go h

theorem State.Leads.monitorWrite {m a bs} (h : o.Leads s) : o.Leads (s.monitorWrite m a bs) := by
  unfold State.monitorWrite
  extract_lets -lift
  split
  · exact .writePlain h
  · exact .upd h
  · exact .upd h

theorem State.Leads.writeMem {a bs} (h : o.Leads s) : o.Leads (s.writeMem a bs) :=
  .ite (.upd (.touch h)) (.foldl (.writePlain (.touch h)) (fun _ _ h1 => .monitorWrite h1))

theorem State.Leads.updChain {c f} (h : o.Leads s) : o.Leads (s.updChain c f) := .upd h

theorem State.Leads.stkWrite {c stks addr off bs} (h : o.Leads s) : o.Leads (s.stkWrite c stks addr off bs) := by
  unfold State.stkWrite
  split
  · exact .writeMem h
  · exact .updChain h

theorem State.Leads.scrambleAt {c stks a n} (h : o.Leads s) : o.Leads (s.scrambleAt c stks a n) := .stkWrite (.upd h)

theorem State.Leads.nbuWrite {stack nbu y3 bs} (h : o.Leads s) : o.Leads (s.nbuWrite stack nbu y3 bs) :=
  .foldl h (fun _ _ h1 => .writeMem h1)

theorem State.Leads.appendMap {d} (h : o.Leads s) : o.Leads (s.appendMap d).2 := by
  unfold State.appendMap
  split
  · next e => exact State.Leads.snd_of_eq (.loadNum h) e
  next e7 =>
    have he7 := State.Leads.snd_of_eq (.loadNum h) e7
    split
    · exact he7
    · split
      · next e => exact State.Leads.snd_of_eq (.loadNum he7) e
      · next e => exact State.Leads.snd_of_eq (.loadNum he7) e

theorem State.Leads.kvEntry {geo pt y3 layer kind page} (h : o.Leads s) :
    o.Leads (s.kvEntry geo pt y3 layer kind page).2 := by
  unfold State.kvEntry
  split
  · next e => exact State.Leads.snd_of_eq (.loadNum h) e
  next e7 =>
    have he7 := State.Leads.snd_of_eq (.loadNum h) e7
    extract_lets -lift
    split
    · exact he7
    · split
      · next e => exact State.Leads.snd_of_eq (.loadNum he7) e
      next e18 =>
        have he18 := State.Leads.snd_of_eq (.loadNum he7) e18
        extract_lets -lift
        split
        · exact he18
        · split
          · next e => exact State.Leads.snd_of_eq (.loadNum he18) e
          next e28 =>
            have he28 := State.Leads.snd_of_eq (.loadNum he18) e28
            exact .ite_snd he28 he28

theorem State.Leads.twinPut {m} (h : o.Leads s) : o.Leads (s.twinPut m) := .sendPacket (.upd h)

theorem State.Leads.twinPump (h : o.Leads s) : o.Leads s.twinPump :=
  .foldl (.upd h) (fun _ _ h1 => .ite (.twinPut h1) (.upd h1))

theorem State.Leads.twinSend {kind payload} (h : o.Leads s) : o.Leads (s.twinSend kind payload) :=
  .ite h (.twinPump (.upd h))

theorem State.Leads.twinWrite {a bs} (h : o.Leads s) : o.Leads (s.twinWrite a bs) :=
  .ite h (.foldl h (fun _ _ h1 => .twinSend h1))

theorem State.Leads.kvPut {entry a bs} (h : o.Leads s) : o.Leads (s.kvPut entry a bs) :=
  .ite (.twinWrite (.writeMem h)) (.writeMem h)

theorem State.Leads.appendRow {m g tenant stack v r0 codes scales} (h : o.Leads s) :
    o.Leads (s.appendRow m g tenant stack v r0 codes scales).1 := by
  unfold State.appendRow
  extract_lets -lift _ _ _ f4
  have hf4 : ∀ a5 a6 s7, o.Leads s7 → o.Leads (f4 a5 a6 s7).2 := by
    intro a5 a6 s7 h0f4
    unfold f4
    exact .accessRecord h0f4
  split
  · next e => exact State.Leads.snd_of_eq (.loadNum h) e
  next e14 =>
    have he14 := State.Leads.snd_of_eq (.loadNum h) e14
    split
    · exact he14
    · extract_lets -lift
      split
      · next e => exact State.Leads.snd_of_eq (.kvEntry he14) e
      · next e => exact State.Leads.snd_of_eq (.kvEntry he14) e
      next e30 =>
        have he30 := State.Leads.snd_of_eq (.kvEntry he14) e30
        split
        · next e => exact State.Leads.snd_of_eq (hf4 _ _ _ he30) e
        next e37 =>
          have he37 := State.Leads.snd_of_eq (hf4 _ _ _ he30) e37
          extract_lets -lift s38
          have hs38 : o.Leads s38 := .kvPut he37
          split
          · split
            · next e => exact State.Leads.snd_of_eq (hf4 _ _ _ hs38) e
            · next e => exact .kvPut (State.Leads.snd_of_eq (hf4 _ _ _ hs38) e)
          · exact hs38

theorem State.Leads.scrambleOutputs {c d tenant} (h : o.Leads s) : o.Leads (s.scrambleOutputs c d tenant) := by
  unfold State.scrambleOutputs
  extract_lets -lift _ s7
  have hs7 : o.Leads s7 := .foldl h (fun _ _ h8 => .foldl h8 (fun _ _ h9 => .scrambleAt h9))
  split
  · exact .foldl hs7 (fun _ _ h14 => .foldl h14 (fun _ _ h15 => .foldl h15 (fun _ _ h16 => .nbuWrite (.upd h16))))
  · split
    · split
      · next e => exact State.Leads.snd_of_eq (.appendMap hs7) e
      next e27 =>
        have he27 := State.Leads.snd_of_eq (.appendMap hs7) e27
        exact .foldl he27 (fun _ _ h28 => .foldl h28 (fun _ _ h29 => .appendRow (.upd (.upd h29))))
    · exact hs7

theorem State.Leads.abortChain {c} (h : o.Leads s) : o.Leads (s.abortChain c) := by
  unfold State.abortChain
  split
  · exact h
  · exact .updChain (.foldl (.removeWaits h) (fun _ _ h6 => .scrambleOutputs h6))

theorem State.Leads.abortDma {seq} (h : o.Leads s) : o.Leads (s.abortDma seq) := .upd h

theorem State.Leads.abortGraph {seq} (h : o.Leads s) : o.Leads (s.abortGraph seq) := by
  unfold State.abortGraph
  split
  · exact h
  · extract_lets -lift s10 s11 s12
    have hs10 : o.Leads s10 := by
      unfold s10
      refine .foldl h fun _ _ h21 => ?_
      extract_lets -lift s24
      have hs24 : o.Leads s24 := .ite (.foldl h21 (fun _ _ h25 => .abortTile h25)) h21
      exact .ite (.releaseNode hs24) hs24
    have hs11 : o.Leads s11 := .foldl hs10 (fun _ _ h26 => .abortChain h26)
    have hs12 : o.Leads s12 := .abortDma hs11
    exact .removeWaits hs12

theorem State.Leads.failGraph {seq st node unit} (h : o.Leads s) : o.Leads (s.failGraph seq st node unit) := by
  unfold State.failGraph
  split
  · exact h
  · split
    · exact h
    · extract_lets -lift s8
      have hs8 : o.Leads s8 := by
        unfold s8
        split
        · exact .traceCentral h
        · exact h
      exact .abortGraph (.updGraph hs8)

theorem State.Leads.failNode {seq node st} (h : o.Leads s) : o.Leads (s.failNode seq node st) := .failGraph h

theorem State.Leads.readInits {tenant l} (h : o.Leads s) : o.Leads (State.readInits tenant l s).2 := by
  induction l generalizing s with
  | nil => exact h
  | cons e r ih =>
    unfold State.readInits
    split
    · next e1 => exact .snd_of_eq (.readTable h) e1
    · next e1 =>
      have h1 := State.Leads.snd_of_eq (.readTable h) e1
      refine .ite_snd h1 ?_
      split
      · next e2 => exact .snd_of_eq (ih h1) e2
      · next e2 => exact .snd_of_eq (ih h1) e2

theorem State.Leads.copyTable {tenant stages e self desc dst} (h : o.Leads s) :
    o.Leads (s.copyTable tenant stages e self desc dst).2 := by
  unfold State.copyTable
  split
  · next e => exact State.Leads.snd_of_eq (.readTable h) e
  next e8 =>
    have he8 := State.Leads.snd_of_eq (.readTable h) e8
    extract_lets -lift
    split
    · next e => exact State.Leads.snd_of_eq (.readTable he8) e
    next e17 =>
      have he17 := State.Leads.snd_of_eq (.readTable he8) e17
      split
      · exact he17
      · exact .resvWrite he17

theorem State.Leads.copyStage {tenant stages e dst} (h : o.Leads s) :
    o.Leads (s.copyStage tenant stages e dst).2 := by
  unfold State.copyStage
  extract_lets -lift
  refine .foldl_snd h fun _ _ h7 => ?_
  split
  · exact h7
  · exact .copyTable h7

theorem State.Leads.copyStages {tenant stages l dst acc} (h : o.Leads s) :
    o.Leads (State.copyStages tenant stages l dst acc s).2 := by
  induction l generalizing s dst acc with
  | nil => exact h
  | cons e r ih =>
    unfold State.copyStages
    split
    · next e1 => exact .snd_of_eq (.copyStage h) e1
    · next e1 => exact ih (.snd_of_eq (.copyStage h) e1)

theorem State.Leads.applyInits {tenant l} (h : o.Leads s) : o.Leads (State.applyInits tenant l s).2 := by
  induction l generalizing s with
  | nil => exact h
  | cons e r ih => exact .ite_snd (ih (.soSet h)) (.soBlocked h)

theorem State.Leads.scrambleTile {t} (h : o.Leads s) : o.Leads (s.scrambleTile t) :=
  .setMem (.freshBytes h) (Mem.wf_writeBytes _ _ _)

theorem State.Leads.zeroFillTile {t} (h : o.Leads s) : o.Leads (s.zeroFillTile t) :=
  .updTile (.setMem h (Mem.wf_fillZero _ _ _))

theorem State.Leads.takeTile {t tenant} (h : o.Leads s) : o.Leads (s.takeTile t tenant) := by
  unfold State.takeTile
  extract_lets -lift s1
  have hs1 : o.Leads s1 := by
    unfold s1
    split
    · exact .ite (.scrambleTile h) (.zeroFillTile h)
    · exact h
  exact .updTile hs1

theorem State.Leads.logDecision {p values} (h : o.Leads s) : o.Leads (s.logDecision p values) :=
  .ite h (.setPoint (.foldl h (fun _ _ h1 => .logPut h1)))

theorem State.Leads.noteDispatch {seq node} (h : o.Leads s) : o.Leads (s.noteDispatch seq node) := by
  unfold State.noteDispatch
  split
  · exact h
  · extract_lets -lift _ s8 s9 s10 s11
    have hs8 : o.Leads s8 := .traceCentral h
    have hs9 : o.Leads s9 := .logDecision (.cntMod hs8)
    have hs10 : o.Leads s10 := .updNode hs9
    have hs11 : o.Leads s11 := .updGraph hs10
    exact .ite hs11 (.foldl hs11 (fun _ _ h13 => .updGraph h13))

theorem State.Leads.startJob {t j} (h : o.Leads s) : o.Leads (s.startJob t j) :=
  .ite (.startPending (.loadNext (.updTile h))) (.loadNext (.updTile h))

theorem State.Leads.startTiles {seq node tenant n} (h : o.Leads s) : o.Leads (s.startTiles seq node tenant n) := by
  unfold State.startTiles
  split
  · next e => exact .cntMod (.failNode (State.Leads.snd_of_eq (.readTable h) e))
  next e8 =>
    have he8 := State.Leads.snd_of_eq (.readTable h) e8
    split
    · exact .cntMod (.failNode he8)
    · split
      · next e => exact .cntMod (.failNode (State.Leads.snd_of_eq (.readInits he8) e))
      next e18 =>
        have he18 := State.Leads.snd_of_eq (.readInits he8) e18
        split
        · next e => exact .cntMod (.failNode (State.Leads.snd_of_eq (.copyStages he18) e))
        next e26 =>
          have he26 := State.Leads.snd_of_eq (.copyStages he18) e26
          extract_lets -lift s27
          have hs27 : o.Leads s27 := .foldl he26 (fun _ _ h28 => .updTile h28)
          split
          · next e => exact .cntMod (.failNode (State.Leads.snd_of_eq (.applyInits hs27) e))
          next e35 =>
            have he35 := State.Leads.snd_of_eq (.applyInits hs27) e35
            exact .foldl (.noteDispatch (.foldl he35 (fun _ _ h36 => .takeTile h36))) (fun _ _ h37 => .startJob h37)

theorem State.Leads.readChain_go {tenant a k i acc} (h : o.Leads s) :
    o.Leads (State.readChain.go tenant a k i acc s).2 := by
  induction k generalizing s i acc with
  | zero => exact h
  | succ k ih =>
    unfold State.readChain.go
    split
    · next e => exact .snd_of_eq (.accessRecord h) e
    · next e =>
      have h1 := State.Leads.snd_of_eq (.accessRecord h) e
      split
      · next e2 => exact .snd_of_eq (.loadNum h1) e2
      · next e2 => exact .ite_snd (.snd_of_eq (.loadNum h1) e2) (ih (.snd_of_eq (.loadNum h1) e2))

theorem State.Leads.readChain {tenant a} (h : o.Leads s) : o.Leads (s.readChain tenant a).2 := .readChain_go h

theorem State.Leads.sdPermitted_go {stack tenant l} (h : o.Leads s) :
    o.Leads (State.sdPermitted.go stack tenant l s).2 := by
  induction l generalizing s with
  | nil => exact h
  | cons r rest ih =>
    unfold State.sdPermitted.go
    split
    · next e => exact .snd_of_eq (.accessRecord h) e
    · next e => exact ih (.snd_of_eq (.accessRecord h) e)

theorem State.Leads.sdPermitted {stack tenant d} (h : o.Leads s) : o.Leads (s.sdPermitted stack tenant d).2 :=
  .sdPermitted_go h

theorem State.Leads.sdCheck {tenant nodeMask slots d} (h : o.Leads s) :
    o.Leads (s.sdCheck tenant nodeMask slots d).2 := by
  unfold State.sdCheck
  extract_lets -lift
  split
  · exact h
  · split
    · exact h
    · split
      · exact h
      · split
        · exact h
        · split
          · exact h
          · exact .ite_snd h (.ite_snd h (.ite_snd h (.sdPermitted h)))

theorem State.Leads.chainCheck {tenant nodeMask slots l i} (h : o.Leads s) :
    o.Leads (State.chainCheck tenant nodeMask slots l i s).2 := by
  induction l generalizing s i with
  | nil => exact h
  | cons d r ih =>
    change o.Leads (match s.sdCheck tenant nodeMask slots d.toNat with
      | (some e, s) => (some (e, ((stacksOf (sdMask d.toNat)).head?).getD
          (((stacksOf nodeMask).head?).getD 0), i), s)
      | (none, s) => State.chainCheck tenant nodeMask slots r (i + 1) s).2
    have hd := State.Leads.sdCheck (tenant := tenant) (nodeMask := nodeMask) (slots := slots) (d := d.toNat) h
    split
    · next e => rw [e] at hd; exact hd
    · next e => rw [e] at hd; exact ih hd

theorem State.Leads.startChain {seq node tenant n} (h : o.Leads s) : o.Leads (s.startChain seq node tenant n) := by
  unfold State.startChain
  extract_lets -lift _ f2
  have hf2 : ∀ a3 a4 a5 s6, o.Leads s6 → o.Leads (f2 a3 a4 a5 s6) := by
    intro a3 a4 a5 s6 h0f2
    unfold f2
    exact .cntMod (.failGraph (.updStack h0f2))
  split
  · next e => exact hf2 _ _ _ _ (State.Leads.snd_of_eq (.readChain h) e)
  next e15 =>
    have he15 := State.Leads.snd_of_eq (.readChain h) e15
    split
    · next e => exact hf2 _ _ _ _ (State.Leads.snd_of_eq (.chainCheck he15) e)
    · next e => exact .noteDispatch (.upd (State.Leads.snd_of_eq (.chainCheck he15) e))

theorem State.Leads.readList {tenant a} (h : o.Leads s) : o.Leads (s.readList tenant a).2 := by
  unfold State.readList
  split
  · next e => exact State.Leads.snd_of_eq (.accessRecord h) e
  next e7 =>
    have he7 := State.Leads.snd_of_eq (.accessRecord h) e7
    split
    · next e => exact State.Leads.snd_of_eq (.loadNum he7) e
    next e14 =>
      have he14 := State.Leads.snd_of_eq (.loadNum he7) e14
      split
      · exact he14
      · split
        · exact he14
        · split
          · next e => exact State.Leads.snd_of_eq (.accessRecord he14) e
          next e25 =>
            have he25 := State.Leads.snd_of_eq (.accessRecord he14) e25
            split
            · next e => exact State.Leads.snd_of_eq (.loadNum he25) e
            · next e => exact State.Leads.snd_of_eq (.loadNum he25) e

theorem State.Leads.dmaSubmit {seq node tenant hdr} (h : o.Leads s) : o.Leads (s.dmaSubmit seq node tenant hdr) :=
  .upd h

theorem State.Leads.startDma {seq node tenant n} (h : o.Leads s) : o.Leads (s.startDma seq node tenant n) := by
  unfold State.startDma
  split
  · next e => exact .cntMod (.failGraph (State.Leads.snd_of_eq (.readList h) e))
  · next e => exact .noteDispatch (.dmaSubmit (State.Leads.snd_of_eq (.readList h) e))

theorem State.Leads.continueDispatch {seq node} (h : o.Leads s) : o.Leads (s.continueDispatch seq node) := by
  unfold State.continueDispatch
  split
  · exact .ite h (.ite (.startTiles h) (.ite (.startChain h) (.startDma h)))
  · exact h

theorem State.Answers.unparkReady {q t} (h : o.Leads s) : o.Answers (execUnparkReady q t s) := by
  unfold execUnparkReady
  extract_lets -lift s2 s3 s4 _ s6
  have hs2 : o.Leads s2 := .at h
  have hs3 : o.Leads s3 := .updPace hs2
  have hs4 : o.Leads s4 := .updQuay hs3
  have hs6 : o.Leads s6 := .cntQuay (.tracePark hs4)
  exact .ite (.next (.foldl hs6 (fun _ _ h8 => .continueDispatch h8))) (.next hs2)

theorem State.Answers.refclkLost {t} (h : o.Leads s) : o.Answers (execRefclkLost t s) :=
  .ite (.next (.at h)) (.ite (.next (.upd (.upd (.at h)))) (.next (.raise (.upd (.at h)))))

/-! ### Tiles and their descriptors (chapters 04 and 05) -/

theorem State.Leads.ownedWrite {r t off f} (h : o.Leads s) (hf : ∀ s, o.Leads s → o.Leads (f s)) :
    o.Leads (s.ownedWrite r t off f) := .ite (hf _ h) (.upd (.tileDenied h))

theorem State.Answers.tileStart {r t} (h : o.Leads s) : o.Answers (execTileStart r t s) :=
  .next (.ownedWrite h (fun _ h1 => .tileCtrl h1))

theorem State.Answers.tileStop {r t} (h : o.Leads s) : o.Answers (execTileStop r t s) :=
  .next (.ownedWrite h (fun _ h1 => .tileCtrl h1))

theorem State.Answers.tileResume {r t} (h : o.Leads s) : o.Answers (execTileResume r t s) :=
  .next (.ownedWrite h (fun _ h1 => .tileCtrl h1))

theorem State.Answers.tileAbort {r t} (h : o.Leads s) : o.Answers (execTileAbort r t s) :=
  .next (.ownedWrite h (fun _ h1 => .tileCtrl h1))

theorem State.Answers.tileAbortDone {t} (h : o.Leads s) : o.Answers (execTileAbortDone t s) :=
  .ite (.next (.updTile (.finishDesc h))) (.next h)

theorem State.Answers.scEnd {r t} (h : o.Leads s) : o.Answers (execScEnd r t s) :=
  .next (.ownedWrite h (fun _ h1 => .tileCtrl h1))

theorem State.Answers.dcInv {r t} (h : o.Leads s) : o.Answers (execDcInv r t s) :=
  .next (.ownedWrite h (fun _ h1 => .tileCtrl h1))

theorem State.Answers.cfgPendWrite {r t w v} (h : o.Leads s) : o.Answers (execCfgPendWrite r t w v s) :=
  .next (.ownedWrite h (fun _ h1 => .cfgPendWrite h1))

theorem State.Answers.fetch {r t} (h : o.Leads s) : o.Answers (execFetch r t s) :=
  .next (.ownedWrite h (fun _ h1 => .descFetch h1))

theorem State.Answers.fetchStart {r t} (h : o.Leads s) : o.Answers (execFetchStart r t s) :=
  .next (.ownedWrite h (fun _ h1 => .descFetch h1))

theorem State.Leads.cacheLine {t a} (h : o.Leads s) : o.Leads (s.cacheLine t a).2 := by
  unfold State.cacheLine
  extract_lets -lift _ _ _ s4
  have hs4 : o.Leads s4 := .cntQuay h
  split
  · exact .cntQuay (.setTile h)
  · split
    · next e => exact State.Leads.snd_of_eq (.ite_snd (.asAgent hs4) (.accessRecord hs4)) e
    next e16 =>
      have he16 := State.Leads.snd_of_eq (.ite_snd (.asAgent hs4) (.accessRecord hs4)) e16
      split
      · next e => exact State.Leads.snd_of_eq (.loadNum he16) e
      · next e => exact .setTile (State.Leads.snd_of_eq (.loadNum he16) e)

theorem State.Answers.descFetchDone {t} (h : o.Leads s) : o.Answers (execDescFetchDone t s) := by
  unfold execDescFetchDone
  extract_lets -lift _ s2
  have hs2 : o.Leads s2 := .setTile h
  split
  · exact .next h
  · split
    · next e => exact .next (.updTile (State.Leads.snd_of_eq (.cacheLine hs2) e))
    next e13 =>
      have he13 := State.Leads.snd_of_eq (.cacheLine hs2) e13
      exact .next (.ite (.tileStart (.updTile he13)) (.updTile he13))

theorem State.Leads.residentPart_go {t a k i acc} (h : o.Leads s) :
    o.Leads (State.residentPart.go t a k i acc s).2 := by
  induction k generalizing s i acc with
  | zero => exact h
  | succ k ih =>
    rw [State.residentPart.go]
    split
    next s1 e => exact State.Leads.snd_of_eq (s := s1) (.cacheLine h) e
    next s1 e => exact ih (.updTile (State.Leads.snd_of_eq (s := s1) (.cacheLine h) e))

theorem State.Leads.residentPart {t a n} (h : o.Leads s) : o.Leads (s.residentPart t a n).2 := .residentPart_go h

theorem State.Leads.prefetchResident {t} (h : o.Leads s) : o.Leads (s.prefetchResident t) := by
  unfold State.prefetchResident
  extract_lets -lift _ f2
  have hf2 : ∀ a4 s5, o.Leads s5 → o.Leads (f2 a4 s5) := by
    intro a4 s5 h0f2
    unfold f2
    exact .updTile h0f2
  split
  · next e => exact hf2 _ _ (State.Leads.snd_of_eq (.residentPart h) e)
  next e14 =>
    have he14 := State.Leads.snd_of_eq (.residentPart h) e14
    split
    · next e => exact hf2 _ _ (State.Leads.snd_of_eq (.residentPart he14) e)
    next e23 =>
      have he23 := State.Leads.snd_of_eq (.residentPart he14) e23
      split
      · next e => exact hf2 _ _ (State.Leads.snd_of_eq (.residentPart he23) e)
      · next e => exact hf2 _ _ (State.Leads.snd_of_eq (.residentPart he23) e)

theorem State.Answers.residentSetReady {t} (h : o.Leads s) : o.Answers (execResidentSetReady t s) :=
  .ite (.next h) (.next (.ite (.startReady (.prefetchResident h)) (.prefetchResident h)))

theorem State.Answers.preRecWrite {r t w v} (h : o.Leads s) : o.Answers (execPreRecWrite r t w v s) :=
  .next (.ownedWrite h (fun _ h1 => .preRecWrite h1))

theorem State.Answers.tecSignalWrite {r t n} (h : o.Leads s) : o.Answers (execTecSignalWrite r t n s) :=
  .next (.ownedWrite h (fun _ h1 => .tecAdd h1))

theorem State.Answers.tileFence {r t} (h : o.Leads s) : o.Answers (execTileFence r t s) :=
  .next (.ownedWrite h (fun _ h1 => h1))

theorem State.Leads.afterDesc {t stopping} (h : o.Leads s) : o.Leads (s.afterDesc t stopping) :=
  .ite (.setTile h) (.ite (.startPending (.setTile h)) (.setTile h))

theorem State.Leads.soSignal {n v} (h : o.Leads s) : o.Leads (s.soSignal n v) :=
  .passObj (.cntSync (.ite (.setSo h) (.raise (.upd (.setSo h)))))

theorem State.Leads.doneSo {t d} (h : o.Leads s) : o.Leads (s.doneSo t d) :=
  .ite h (.ite (.soSignal h) (.cntQuay (.soBlocked h)))

theorem State.Answers.descComplete {t} (h : o.Leads s) : o.Answers (execDescComplete t s) := by
  unfold execDescComplete
  extract_lets -lift _ f2
  have hf2 : ∀ a4 a5 a6, o.Answers (f2 a4 a5 a6) := by
    intro a4 a5 a6
    unfold f2
    exact .next (.updTile (.finishDesc h))
  split
  · exact .next h
  · split
    · exact hf2 _ _ _
    · exact .ite (.next h) (.ite (hf2 _ _ _) (.next (.afterDesc (.doneSo (.finishDesc h)))))

theorem State.Answers.tileDqDeadlock {t} (h : o.Leads s) : o.Answers (execTileDqDeadlock t s) :=
  .ite (.next (.failDesc h)) (.next h)

/-! ### Operations of a tile program (chapter 05) -/

theorem State.Leads.skipCheck {t} (h : o.Leads s) : o.Leads (s.skipCheck t) := .ite (.cntQuay (.updTile h)) h

theorem State.Leads.closeOp {t exec} {r : OpOut} (h : o.LeadsOp r) : o.Leads (closeOp t exec r) := by
  cases r with
  | done s next => exact .updTile h
  | wait s c => exact .updTile h
  | fail s st src => exact .failDesc h

theorem State.Leads.streamOp {t exec opc run} (h : o.Leads s) (hrun : ∀ w, o.LeadsOp (run w)) :
    o.Leads (s.streamOp t exec opc run) := by
  unfold State.streamOp
  extract_lets
  split
  · exact .ite (.skipCheck (.closeOp (hrun _))) h
  · exact h

theorem State.Leads.poisonRead {q} (h : o.Leads s) : o.Leads (s.poisonRead q) := .updQuay h

theorem State.LeadsOp.opLoad {t w} (h : o.Leads s) : o.LeadsOp (opLoad t s w) := by
  unfold Machine.opLoad
  extract_lets -lift _ _ _ x4
  unfold x4
  split
  · exact .fail (.ite (.poisonRead h) h)
  · exact .done h
  · exact .ite (.ite (.done (.setTile h)) (.ite (.wait h) (.done (.setTile h)))) (.ite (.wait h) (.done (.setTile h)))

theorem State.Answers.load {t} (h : o.Leads s) : o.Answers (execLoad t s) := .next (.streamOp h (fun _ => .opLoad h))

theorem State.LeadsOp.opStore {t w} (h : o.Leads s) : o.LeadsOp (opStore t s w) := by
  unfold Machine.opStore
  extract_lets x n ew write
  have hw : ∀ off, o.LeadsOp (write off) := by
    intro off
    dsimp only [write]
    split
    · exact .wait (.setTile h)
    · cases off with
      | none => exact .done (.setTile h)
      | some a => exact .done (.writeMem (.setTile h))
  split
  · exact .fail (.ite (.poisonRead h) h)
  · exact hw none
  · exact hw (some _)

theorem State.Answers.store {t} (h : o.Leads s) : o.Answers (execStore t s) :=
  .next (.streamOp h (fun _ => .opStore h))

theorem State.LeadsOp.opOpfill {t w} (h : o.Leads s) : o.LeadsOp (opOpfill t s w) :=
  .ite (.wait h) (.ite (.wait (.setTile h)) (.done (.setTile h)))

theorem State.Answers.opfill {t} (h : o.Leads s) : o.Answers (execOpfill t s) :=
  .next (.streamOp h (fun _ => .opOpfill h))

theorem State.LeadsOp.OpOut_onBank {x f} (h : o.Leads s) (hf : ∀ z1 z2, o.LeadsOp (f z1 z2)) :
    o.LeadsOp (OpOut.onBank s x f) := by
  unfold OpOut.onBank
  split
  · exact hf _ _
  · exact .ite (.wait h) (.fail h)

theorem State.LeadsOp.opAccrel {t w} (h : o.Leads s) : o.LeadsOp (opAccrel t s w) := by
  unfold Machine.opAccrel
  extract_lets -lift
  refine .OpOut_onBank h fun _ _ => ?_
  split
  · exact .wait h
  · extract_lets -lift f13
    have hf13 : ∀ a14 a15, o.LeadsOp (f13 a14 a15) := by
      intro a14 a15
      unfold f13
      exact .done (.setTile h)
    split
    · split
      · exact .wait h
      · exact hf13 _ _
    · exact hf13 _ _

theorem State.Answers.accrel {t} (h : o.Leads s) : o.Answers (execAccrel t s) :=
  .next (.streamOp h (fun _ => .opAccrel h))

theorem State.LeadsOp.opVld {t w} (h : o.Leads s) : o.LeadsOp (opVld t s w) := by
  unfold Machine.opVld
  extract_lets -lift
  split
  · exact .wait h
  · extract_lets -lift _ x15
    unfold x15
    split
    · exact .wait h
    · extract_lets -lift x22
      unfold x22
      split
      · exact .wait h
      · exact .done (.cntQuay (.setTile h))

theorem State.Answers.vld {t} (h : o.Leads s) : o.Answers (execVld t s) := .next (.streamOp h (fun _ => .opVld h))

theorem State.LeadsOp.opVst {t w} (h : o.Leads s) : o.LeadsOp (opVst t s w) := by
  unfold Machine.opVst
  extract_lets -lift _ _ _ _ _ _ _ _ _ _ _ f12 _ x14
  have hf12 : ∀ a15 a16 a17, o.LeadsOp (f12 a15 a16 a17) := by
    intro a15 a16 a17
    unfold f12
    exact .done (.cntQuay (.setTile h))
  split
  · exact .wait h
  · split
    · exact .wait h
    · split
      · exact hf12 _ _ _
      · unfold x14
        split
        · exact .wait h
        · exact hf12 _ _ _

theorem State.Answers.vst {t} (h : o.Leads s) : o.Answers (execVst t s) := .next (.streamOp h (fun _ => .opVst h))

theorem State.Answers.dqWaitRelease {t exec} (h : o.Leads s) : o.Answers (execDqWaitRelease t exec s) := by
  unfold execDqWaitRelease
  extract_lets -lift
  split
  · exact .next h
  · split
    · exact .load h
    · exact .store h
    · exact .opfill h
    · exact .accrel h
    · exact .vld h
    · exact .vst h
    · exact .next h

theorem State.Answers.signalQueueApply {t exec} (h : o.Leads s) : o.Answers (execSignalQueueApply t exec s) := by
  unfold execSignalQueueApply
  extract_lets -lift _ s2
  have hs2 : o.Leads s2 := .setTile h
  split
  · exact .next h
  · exact .ite (.next h) (.next (.ite (.soSignal hs2) (.cntQuay (.soBlocked hs2))))

theorem State.LeadsOp.opNop (h : o.Leads s) : o.LeadsOp (opNop s) := .done h

theorem State.Answers.nop {t exec} (h : o.Leads s) : o.Answers (execNop t exec s) :=
  .next (.streamOp h (fun _ => .opNop h))

theorem State.LeadsOp.opLoop {t exec w} (h : o.Leads s) : o.LeadsOp (opLoop t exec s w) :=
  .ite (.done h) (.done (.setTile h))

theorem State.Answers.loop {t exec} (h : o.Leads s) : o.Answers (execLoop t exec s) :=
  .next (.streamOp h (fun _ => .opLoop h))

theorem State.LeadsOp.opEndloop {t exec _w} (h : o.Leads s) : o.LeadsOp (opEndloop t exec s _w) := by
  unfold Machine.opEndloop
  extract_lets -lift
  split
  · exact .done h
  · exact .ite (.done (.setTile h)) (.done (.setTile h))

theorem State.Answers.endloop {t exec} (h : o.Leads s) : o.Answers (execEndloop t exec s) :=
  .next (.streamOp h (fun _ => .opEndloop h))

theorem State.LeadsOp.opPreempt {t _exec w} (h : o.Leads s) : o.LeadsOp (opPreempt t _exec s w) :=
  .ite (.wait h) (.done h)

theorem State.Answers.preempt {t exec} (h : o.Leads s) : o.Answers (execPreempt t exec s) :=
  .next (.streamOp h (fun _ => .opPreempt h))

theorem State.Answers.preemptPointStop {t} (h : o.Leads s) : o.Answers (execPreemptPointStop t s) := by
  unfold execPreemptPointStop
  extract_lets -lift
  split
  · exact .ite (.next (.cntQuay (.traceTile (.setTile h)))) (.next h)
  · exact .next h

theorem State.LeadsOp.opSignal {t _exec w} (h : o.Leads s) : o.LeadsOp (opSignal t _exec s w) := .done (.tecAdd h)

theorem State.Answers.signal {t exec} (h : o.Leads s) : o.Answers (execSignal t exec s) :=
  .next (.streamOp h (fun _ => .opSignal h))

theorem State.LeadsOp.opWait {t _exec w} (h : o.Leads s) : o.LeadsOp (opWait t _exec s w) :=
  .ite (.wait h) (.ite (.done (.setTile h)) (.done h))

theorem State.Answers.wait {t exec} (h : o.Leads s) : o.Answers (execWait t exec s) :=
  .next (.streamOp h (fun _ => .opWait h))

theorem State.Leads.soDec {n v} (h : o.Leads s) : o.Leads (s.soDec n v) :=
  .passObj (.cntSync (.ite (.setSo h) (.raise (.upd (.setSo h)))))

theorem State.LeadsWait.soWait {n v dec u} (h : o.Leads s) : o.LeadsWait (s.soWait n v dec u) := by
  unfold State.soWait
  extract_lets -lift _ _ s3
  have hs3 : o.Leads s3 := .setSo h
  split
  · exact .ite (.passed (.passObj (.cntSync hs3))) (.passed (.cntSync h))
  · exact .ite (.waits (.setSo h)) (.waits (.upd h))

theorem State.Leads.barWait {g t exec} (h : o.Leads s) : o.Leads (s.barWait g t exec).1 :=
  .ite_fst (.setBar (.cntQuay h)) (.cntQuay h)

theorem State.Leads.barRelease_go {g n} (h : o.Leads s) : o.Leads (State.barRelease.go g n s) := by
  induction n generalizing s with
  | zero => exact h
  | succ n ih =>
    rw [State.barRelease.go]
    extract_lets -lift sec b1 b2 b3 s4 s5 s6 s7
    have h4 : o.Leads s4 := .cntMod (.setBar h)
    have h5 : o.Leads s5 := .foldl h4 fun _ _ h => .wake h
    have h6 : o.Leads s6 := .foldl h5 fun _ _ h => .wake h
    split
    · exact h
    · exact ih (.ite (.ite (.soSignal h6) (.soBlocked h6)) h6)

theorem State.Leads.barRelease {g} (h : o.Leads s) : o.Leads (s.barRelease g) := .barRelease_go h

theorem State.Leads.barArrive {g t exec wait} (h : o.Leads s) : o.Leads (s.barArrive g t exec wait).1 := by
  unfold State.barArrive
  extract_lets b1 b2 r b3 s1
  have h1 : o.Leads s1 := .barRelease (.cntQuay (.setBar h))
  exact .ite_fst (.fst (.setBar h)) (.fst h1)

theorem State.LeadsOp.opSync {t exec w} (h : o.Leads s) : o.LeadsOp (opSync t exec s w) := by
  unfold Machine.opSync
  extract_lets -lift _ _ _ _ _ f6 _ s8 _ f10
  have hf6 : ∀ s11, o.Leads s11 → o.LeadsOp (f6 s11) := by
    intro s11 h0f6
    unfold f6
    exact .fail (.cntQuay (.soBlocked h0f6))
  have hs8 : o.Leads s8 := .cntQuay h
  have hf10 : ∀ s12, o.Leads s12 → o.Leads (f10 s12) := by
    intro s12 h0f10
    unfold f10
    exact .setTile h0f10
  split
  · exact .ite (.wait h) (.done (.cntQuay (.setTile h)))
  · split
    · split
      · exact hf6 _ h
      · split
        · exact .done (.soSet h)
        · split
          · exact .done (.soDec h)
          · split
            · exact .wait h
            · split
              · next e => exact .done (State.LeadsWait.passed_of_eq (.soWait hs8) e)
              · next e => exact .wait (hf10 _ (State.LeadsWait.waits_of_eq (.soWait hs8) e))
    · split
      · exact .ite (hf6 _ h) (.fail h)
      · split
        · exact .wait h
        · split
          · exact .wait h
          · split
            next e43 =>
              have he43 := State.Leads.fst_of_eq (.ite_fst (.barWait h) (.barArrive h)) e43
              exact .ite (.done he43) (.wait (hf10 _ he43))

theorem State.Answers.sync {t exec} (h : o.Leads s) : o.Answers (execSync t exec s) :=
  .next (.streamOp h (fun _ => .opSync h))

theorem State.LeadsOp.opEnd {t exec _w} (h : o.Leads s) : o.LeadsOp (opEnd t exec s _w) := .done (.setTile h)

theorem State.Answers.end {t exec} (h : o.Leads s) : o.Answers (execEnd t exec s) :=
  .next (.streamOp h (fun _ => .opEnd h))

theorem State.Leads.updHm {f} (h : o.Leads s) : o.Leads (s.updHm f) := .upd h
theorem State.Leads.nextSerial {suspect} (h : o.Leads s) : o.Leads (s.nextSerial suspect).2 := .updHm h

theorem State.Leads.raiseIncident {suspect count first fkinds by_ serial reporter num} (h : o.Leads s) :
    o.Leads (s.raiseIncident suspect count first fkinds by_ serial reporter num) := .placeEntry h

theorem State.Leads.sendFault {b msg} (h : o.Leads s) : o.Leads (s.sendFault b msg) := .sendPacket h

theorem State.Leads.sendReport {q} (h : o.Leads s) : o.Leads (s.sendReport q) :=
  .ite (.raiseIncident (.updHm (.updHm h))) (.foldl (.updHm (.updHm h)) (fun _ _ h1 => .sendFault h1))

theorem State.Leads.suspectFault {b fkind st} (h : o.Leads s) : o.Leads (s.suspectFault b fkind st) := by
  unfold State.suspectFault
  extract_lets -lift _ s2
  have hs2 : o.Leads s2 := .updHm h
  split
  · exact .updHm h
  · split
    · exact .sendReport h
    · exact .ite (.updHm h) (.ite (.updHm h) (.ite (.updHm h) (.ite (.updHm (.raise hs2)) hs2)))

theorem State.Leads.noRouteFault {y1 b st} (h : o.Leads s) : o.Leads (s.noRouteFault y1 b st) :=
  .ite (.suspectFault h) h

theorem State.Leads.sendReq {owner ptype y3 b tenant loc len aop data} (h : o.Leads s) :
    o.Leads (s.sendReq owner ptype y3 b tenant loc len aop data) := .sendPacket (.upd h)

theorem State.Leads.dmaIssue {t d ps} (h : o.Leads s) : o.Leads (s.dmaIssue t d ps).2 := by
  unfold State.dmaIssue
  extract_lets -lift
  split
  · split
    · exact .noRouteFault h
    · split
      · split
        · exact h
        · exact .foldl h (fun _ _ h20 => .sendReq h20)
      · exact .foldl h (fun _ _ h22 => .sendReq h22)

theorem State.LeadsOp.opDma {t w} (h : o.Leads s) : o.LeadsOp (opDma t s w) := by
  unfold Machine.opDma
  extract_lets -lift _ _ s3 f4 x5 x6 f7
  have hs3 : o.Leads s3 := .setTile h
  have hf4 : ∀ a10 a11 a12 a13 a14, o.LeadsOp (f4 a10 a11 a12 a13 a14) := by
    intro a10 a11 a12 a13 a14
    unfold f4
    extract_lets -lift
    split
    · exact .wait h
    · split
      · next e => exact .done (.updTile (State.Leads.snd_of_eq (.ite_snd (.dmaIssue hs3) hs3) e))
  have hf7 : ∀ a23 a24, o.LeadsOp (f7 a23 a24) := by
    intro a23 a24
    unfold f7
    exact .fail (.ite (.poisonRead h) h)
  split
  · exact .wait h
  · unfold x5
    unfold x6
    split
    · exact hf7 _ _
    · exact hf7 _ _
    · exact hf4 _ _ _ _ _
    · exact .ite (hf7 _ _) (hf4 _ _ _ _ _)
    · exact .ite (hf7 _ _) (.ite (.ite (hf7 _ _) (hf4 _ _ _ _ _)) (.ite (hf7 _ _) (hf4 _ _ _ _ _)))

theorem State.Answers.dma {t} (h : o.Leads s) : o.Answers (execDma t s) := .next (.streamOp h (fun _ => .opDma h))
theorem State.Leads.dmaDone {t d} (h : o.Leads s) : o.Leads (s.dmaDone t d) := .cntQuay (.tecAdd (.updTile h))

theorem State.Leads.dmaFailed {t d st source} (h : o.Leads s) : o.Leads (s.dmaFailed t d st source) :=
  .ite (.updTile h) (.failDesc (.updTile h))

theorem State.Leads.dmaMove {t d} (h : o.Leads s) : o.Leads (s.dmaMove t d) := by
  unfold State.dmaMove
  extract_lets -lift
  split
  · exact .dmaDone h
  · split
    · exact .ite (.dmaDone h) (.dmaDone (.writeMem h))
    · split
      · split
        · exact .dmaFailed h
        · exact .dmaDone h
      · split
        · next e => exact .dmaFailed (State.Leads.snd_of_eq (.accessRecord h) e)
        next e21 =>
          have he21 := State.Leads.snd_of_eq (.accessRecord h) e21
          split
          · split
            · exact .dmaFailed (.poisonRead he21)
            · exact .ite (.dmaFailed (.writeMem he21)) (.dmaDone (.writeMem he21))
          · split
            · next e => exact .dmaFailed (State.Leads.snd_of_eq (.load he21) e)
            · next e => exact .dmaDone (.writeMem (State.Leads.snd_of_eq (.load he21) e))

theorem State.Answers.tileDmaComplete {t id} (h : o.Leads s) : o.Answers (State.tileDmaComplete t id s) := by
  unfold State.tileDmaComplete
  split
  · exact .next h
  · exact .ite (.next h) (.next (.dmaMove h))

theorem State.Leads.engineWrite {tenant a bs} (h : o.Leads s) : o.Leads (s.engineWrite tenant a bs).2 := by
  unfold State.engineWrite
  split
  · exact .isolation h
  · exact .writePace h
  · exact h
  · exact .writeMem h

theorem State.Leads.readReg {a} (h : o.Leads s) : o.Leads (s.readReg a).2 := by
  unfold State.readReg
  split
  · exact .ite_snd (.updQuay (.upd h)) h
  · exact .ite_snd (.upd h) h
  · exact h

theorem State.Leads.engineRead {a n} (h : o.Leads s) : o.Leads (s.engineRead a n).2 := by
  unfold State.engineRead
  split
  · split
    · next e => exact State.Leads.snd_of_eq (.readReg h) e
  · exact .load h

theorem State.LeadsOp.opMma {t w} (h : o.Leads s) : o.LeadsOp (opMma t s w) := by
  unfold Machine.opMma
  extract_lets -lift
  split
  · exact .fail h
  · split
    · exact .fail h
    · split
      · exact .wait h
      · split
        · exact .fail h
        · extract_lets -lift _ x25
          unfold x25
          split
          · exact .fail h
          · exact .done (.cntQuay (.setTile h))

theorem State.Answers.mma {t} (h : o.Leads s) : o.Answers (execMma t s) := .next (.streamOp h (fun _ => .opMma h))

theorem State.LeadsOp.opLanes {t cyc4 f w} (h : o.Leads s) : o.LeadsOp (opLanes t cyc4 f s w) :=
  .done (.cntQuay (.setTile h))

theorem State.Answers.vadd {t} (h : o.Leads s) : o.Answers (execVadd t s) := .next (.streamOp h (fun _ => .opLanes h))
theorem State.Answers.vsub {t} (h : o.Leads s) : o.Answers (execVsub t s) := .next (.streamOp h (fun _ => .opLanes h))
theorem State.Answers.vmul {t} (h : o.Leads s) : o.Answers (execVmul t s) := .next (.streamOp h (fun _ => .opLanes h))
theorem State.Answers.vfma {t} (h : o.Leads s) : o.Answers (execVfma t s) := .next (.streamOp h (fun _ => .opLanes h))
theorem State.Answers.vmin {t} (h : o.Leads s) : o.Answers (execVmin t s) := .next (.streamOp h (fun _ => .opLanes h))
theorem State.Answers.vmax {t} (h : o.Leads s) : o.Answers (execVmax t s) := .next (.streamOp h (fun _ => .opLanes h))

theorem State.Answers.vcmplt {t} (h : o.Leads s) : o.Answers (execVcmplt t s) :=
  .next (.streamOp h (fun _ => .opLanes h))

theorem State.Answers.vcmpeq {t} (h : o.Leads s) : o.Answers (execVcmpeq t s) :=
  .next (.streamOp h (fun _ => .opLanes h))

theorem State.Answers.vsel {t} (h : o.Leads s) : o.Answers (execVsel t s) := .next (.streamOp h (fun _ => .opLanes h))
theorem State.Answers.vdiv {t} (h : o.Leads s) : o.Answers (execVdiv t s) := .next (.streamOp h (fun _ => .opLanes h))

theorem State.Answers.vsqrt {t} (h : o.Leads s) : o.Answers (execVsqrt t s) :=
  .next (.streamOp h (fun _ => .opLanes h))

theorem State.LeadsOp.opFunction {t opc w} (h : o.Leads s) : o.LeadsOp (opFunction t opc s w) := .opLanes h

theorem State.Answers.vexp {t} (h : o.Leads s) : o.Answers (execVexp t s) :=
  .next (.streamOp h (fun _ => .opFunction h))

theorem State.Answers.vexp2 {t} (h : o.Leads s) : o.Answers (execVexp2 t s) :=
  .next (.streamOp h (fun _ => .opFunction h))

theorem State.Answers.vlog {t} (h : o.Leads s) : o.Answers (execVlog t s) :=
  .next (.streamOp h (fun _ => .opFunction h))

theorem State.Answers.vrcp {t} (h : o.Leads s) : o.Answers (execVrcp t s) :=
  .next (.streamOp h (fun _ => .opFunction h))

theorem State.Answers.vrsqrt {t} (h : o.Leads s) : o.Answers (execVrsqrt t s) :=
  .next (.streamOp h (fun _ => .opFunction h))

theorem State.Answers.vtanh {t} (h : o.Leads s) : o.Answers (execVtanh t s) :=
  .next (.streamOp h (fun _ => .opFunction h))

theorem State.Answers.vsigm {t} (h : o.Leads s) : o.Answers (execVsigm t s) :=
  .next (.streamOp h (fun _ => .opFunction h))

theorem State.Answers.vsilu {t} (h : o.Leads s) : o.Answers (execVsilu t s) :=
  .next (.streamOp h (fun _ => .opFunction h))

theorem State.Answers.vgelut {t} (h : o.Leads s) : o.Answers (execVgelut t s) :=
  .next (.streamOp h (fun _ => .opFunction h))

theorem State.Answers.vgelue {t} (h : o.Leads s) : o.Answers (execVgelue t s) :=
  .next (.streamOp h (fun _ => .opFunction h))

theorem State.LeadsOp.opReduce {t chunk combine w} (h : o.Leads s) : o.LeadsOp (opReduce t chunk combine s w) :=
  .done (.cntQuay (.setTile h))

theorem State.Answers.rsum {t} (h : o.Leads s) : o.Answers (execRsum t s) :=
  .next (.streamOp h (fun _ => .opReduce h))

theorem State.Answers.rmax {t} (h : o.Leads s) : o.Answers (execRmax t s) :=
  .next (.streamOp h (fun _ => .opReduce h))

theorem State.Answers.rmin {t} (h : o.Leads s) : o.Answers (execRmin t s) :=
  .next (.streamOp h (fun _ => .opReduce h))

theorem State.Answers.rsumsq {t} (h : o.Leads s) : o.Answers (execRsumsq t s) :=
  .next (.streamOp h (fun _ => .opReduce h))

theorem State.LeadsOp.opAccrd {t w} (h : o.Leads s) : o.LeadsOp (opAccrd t s w) :=
  .OpOut_onBank h (fun _ _ => .done (.setTile h))

theorem State.Answers.accrd {t} (h : o.Leads s) : o.Answers (execAccrd t s) :=
  .next (.streamOp h (fun _ => .opAccrd h))

theorem State.LeadsOp.opAccwr {t w} (h : o.Leads s) : o.LeadsOp (opAccwr t s w) :=
  .OpOut_onBank h (fun _ _ => .done (.setTile h))

theorem State.Answers.accwr {t} (h : o.Leads s) : o.Answers (execAccwr t s) :=
  .next (.streamOp h (fun _ => .opAccwr h))

theorem State.LeadsOp.opVimm {t w} (h : o.Leads s) : o.LeadsOp (opVimm t s w) := .done (.updTile h)
theorem State.Answers.vimm {t} (h : o.Leads s) : o.Answers (execVimm t s) := .next (.streamOp h (fun _ => .opVimm h))
theorem State.LeadsOp.opVbcast {t w} (h : o.Leads s) : o.LeadsOp (opVbcast t s w) := .done (.setTile h)

theorem State.Answers.vbcast {t} (h : o.Leads s) : o.Answers (execVbcast t s) :=
  .next (.streamOp h (fun _ => .opVbcast h))

/-! ### The scalar core (chapter 04) -/

theorem State.LeadsSc.scFetchHalf {t pc} (h : o.Leads s) : o.LeadsSc (s.scFetchHalf t pc) := by
  unfold State.scFetchHalf
  split
  · exact .trap h
  · extract_lets -lift
    split
    · exact .wait h
    · split
      · next e => exact .trap (State.Leads.snd_of_eq (.cacheLine h) e)
      · next e => exact .ok (State.Leads.snd_of_eq (.cacheLine h) e)

theorem State.LeadsSc.scFetch {t pc} (h : o.Leads s) : o.LeadsSc (s.scFetch t pc) := by
  unfold State.scFetch
  split
  next e4 =>
    have he4 := State.LeadsSc.ok_of_eq (.scFetchHalf h) e4
    split
    · split
      · exact .ok he4
      · exact .trap he4
    · split
      · exact .trap he4
      · split
        · next e => exact .ok (State.LeadsSc.ok_of_eq (.scFetchHalf he4) e)
        · exact .scFetchHalf he4
  · exact .scFetchHalf h

theorem State.Leads.scTrap {t cause} (h : o.Leads s) : o.Leads (s.scTrap t cause) := .failDesc (.updTile h)

theorem State.LeadsSc.toReg {npc f} {r : ScOut} (h : o.LeadsSc r) : o.LeadsScDone (r.toReg npc f) := by
  cases r <;> exact h

theorem State.LeadsSc.scReadMem {a n} (h : o.Leads s) : o.LeadsSc (s.scReadMem a n) := by
  unfold State.scReadMem
  split
  · exact .wait h
  · split
    · next e => exact .ok (State.Leads.snd_of_eq (.loadNum h) e)
    · next e => exact .trap (State.Leads.snd_of_eq (.loadNum h) e)

theorem State.Leads.logRead {tile v} (h : o.Leads s) : o.Leads (s.logRead tile v) := .ite h (.setPoint (.logPut h))

theorem State.LeadsSc.scRecorded {t v} (h : o.Leads s) : o.LeadsSc (s.scRecorded t v) := by
  unfold State.scRecorded
  split
  · exact .wait h
  · split
    · split
      · exact .ok (.logRead h)
      · exact .wait h
    · exact .ok (.logRead h)

theorem State.LeadsSc.scReadReg {t a} (h : o.Leads s) : o.LeadsSc (s.scReadReg t a) := by
  unfold State.scReadReg
  split
  · split
    · exact .trap h
    · split
      next e11 =>
        have he11 := State.Leads.snd_of_eq (.readReg h) e11
        split
        · next e => exact .ok (State.LeadsSc.ok_of_eq (.scRecorded he11) e)
        · next e => exact .trap (State.LeadsSc.trap_of_eq (.scRecorded he11) e)
        · exact .wait h
  · exact .trap h

theorem State.LeadsSc.scLoad {t a n} (h : o.Leads s) : o.LeadsSc (s.scLoad t a n) := by
  unfold State.scLoad
  split
  · exact .trap h
  · extract_lets -lift
    split
    · exact .scReadMem h
    · exact .ite (.scReadReg h) (.trap h)
    · split
      · exact .wait h
      · split
        · next e => exact .trap (State.Leads.snd_of_eq (.accessRecord h) e)
        next e21 =>
          have he21 := State.Leads.snd_of_eq (.accessRecord h) e21
          split
          · split
            · exact .wait h
            · exact .scReadReg he21
          · exact .scReadMem he21
    · exact .trap h

theorem State.Leads.writeNum {a n v} (h : o.Leads s) : o.Leads (s.writeNum a n v) := .writeMem h

theorem State.LeadsSc.scStore {t a n v} (h : o.Leads s) : o.LeadsSc (s.scStore t a n v) := by
  unfold State.scStore
  split
  · exact .trap h
  · extract_lets -lift
    split
    · exact .ok (.writeNum h)
    · exact .ite (.ok (.writeTile h)) (.trap h)
    · split
      · exact .wait h
      · split
        · next e => exact .trap (State.Leads.snd_of_eq (.accessRecord h) e)
        next e21 =>
          have he21 := State.Leads.snd_of_eq (.accessRecord h) e21
          split
          · exact .trap (.tileDenied he21)
          · split
            next e33 =>
              have he33 := State.Leads.snd_of_eq (.writeReg he21) e33
              exact .ite (.ok he33) (.trap he33)
          · exact .ite (.trap (.writeNum he21)) (.ok (.writeNum he21))
    · exact .trap h

theorem State.LeadsSc.scSystem {t w} (h : o.Leads s) : o.LeadsSc (s.scSystem t w) := by
  unfold State.scSystem
  split
  · exact .ite (.trap h) (.ite (.trap h) (.trap h))
  · split
    · exact .trap h
    · split
      · exact .scRecorded h
      · exact .trap h
  · split
    · exact .trap h
    · split
      · exact .scRecorded h
      · exact .trap h
  · split
    · exact .trap h
    · split
      · exact .scRecorded h
      · exact .trap h
  · split
    · exact .trap h
    · split
      · exact .scRecorded h
      · exact .trap h
  · exact .trap h

theorem State.LeadsScDone.scRun {t pc len w} (h : o.Leads s) : o.LeadsScDone (s.scRun t pc len w) := by
  unfold State.scRun
  extract_lets -lift
  split
  · exact .done h
  · exact .done h
  · exact .done h
  · exact .ite (.done h) (.trap h)
  · split
    · exact .done h
    · exact .trap h
  · exact .ite (.trap h) (State.LeadsSc.toReg (.scLoad h))
  · split
    · exact .trap h
    · split
      · next e => exact .done (State.LeadsSc.ok_of_eq (.scStore h) e)
      · next e => exact .wait (State.LeadsSc.wait_of_eq (.scStore h) e)
      · next e => exact .trap (State.LeadsSc.trap_of_eq (.scStore h) e)
  · exact .ite (.trap h) (.done h)
  · exact .ite (.done h) (.ite (.done h) (.trap h))
  · exact .ite (.done h) (.trap h)
  · exact State.LeadsSc.toReg (.scSystem h)
  · exact .trap h

theorem State.Leads.scRetire {t rd v npc} (h : o.Leads s) : o.Leads (s.scRetire t rd v npc) := .cntQuay (.updTile h)

theorem State.Answers.scInstruction {t cyc time} (h : o.Leads s) : o.Answers (execScInstruction t cyc time s) := by
  unfold execScInstruction
  extract_lets -lift s1 _ s3
  have hs1 : o.Leads s1 := .at h
  have hs3 : o.Leads s3 := .updTile hs1
  split
  · exact .next hs1
  · split
    · next e => exact .next (State.LeadsSc.wait_of_eq (.scFetch hs3) e)
    · next e => exact .next (.scTrap (State.LeadsSc.trap_of_eq (.scFetch hs3) e))
    next e17 =>
      have he17 := State.LeadsSc.ok_of_eq (.scFetch hs3) e17
      extract_lets -lift
      split
      · next e => exact .next (State.LeadsScDone.wait_of_eq (.scRun he17) e)
      · next e => exact .next (.scTrap (State.LeadsScDone.trap_of_eq (.scRun he17) e))
      · next e => exact .next (.scRetire (State.LeadsScDone.done_of_eq (.scRun he17) e))

theorem State.Leads.hostFetch {a n} (h : o.Leads s) : o.Leads (s.hostFetch a n).2 := .logInput h

theorem State.Leads.peekEntry {x} (h : o.Leads s) : o.Leads (s.peekEntry x).2 := by
  unfold State.peekEntry
  extract_lets -lift
  split
  · exact .hostFetch h
  · split
    · next e => exact State.Leads.snd_of_eq (.accessRecord h) e
    next e10 =>
      have he10 := State.Leads.snd_of_eq (.accessRecord h) e10
      split
      · next e => exact State.Leads.snd_of_eq (.loadNum he10) e
      · next e => exact State.Leads.snd_of_eq (.loadNum he10) e

theorem State.Leads.writeShadow {q} (h : o.Leads s) : o.Leads (s.writeShadow q) := by
  unfold State.writeShadow
  split
  · exact h
  · extract_lets -lift _ s7
    have hs7 : o.Leads s7 := .updHwq h
    split
    · exact .hostWrite hs7
    · split
      · next e => exact State.Leads.snd_of_eq (.accessRecord hs7) e
      · next e => exact .writeMem (State.Leads.snd_of_eq (.accessRecord hs7) e)

theorem State.Answers.entryRead {t} (h : o.Leads s) : o.Answers (execEntryRead t s) := by
  unfold execEntryRead
  extract_lets -lift s1
  have hs1 : o.Leads s1 := .at h
  split
  · exact .next hs1
  · split
    · exact .next (.cntMod hs1)
    · split
      · exact .next hs1
      · split
        next e16 =>
          have he16 := State.Leads.snd_of_eq (.peekEntry hs1) e16
          extract_lets -lift _ _ _ _ _ s22 s23 s24
          have hs22 : o.Leads s22 := .upd he16
          have hs23 : o.Leads s23 := .updHwq hs22
          have hs24 : o.Leads s24 := .logDecision (.cntMod hs23)
          exact .next (.ite (.writeShadow hs24) hs24)

theorem State.Answers.shadowWrite {q t} (h : o.Leads s) : o.Answers (execShadowWrite q t s) := by
  unfold execShadowWrite
  extract_lets -lift s1
  have hs1 : o.Leads s1 := .at h
  split
  · exact .next (.ite (.writeShadow hs1) hs1)
  · exact .next hs1

theorem State.Leads.takeEntry {seq p f} (h : o.Leads s) (hf : ∀ z1 s, o.Leads s → o.Leads (f z1 s)) :
    o.Leads (s.takeEntry seq p f) := by
  unfold State.takeEntry
  split
  · exact .ite (.ite (.failGraph (.cntMod (.upd h))) (hf _ _ (.cntMod (.upd h)))) h
  · exact h

theorem State.Leads.readGraph {tenant e} (h : o.Leads s) : o.Leads (s.readGraph tenant e).2 := by
  unfold State.readGraph
  split
  · next e => exact State.Leads.snd_of_eq (.readTable h) e
  next e8 =>
    have he8 := State.Leads.snd_of_eq (.readTable h) e8
    extract_lets -lift
    split
    · exact he8
    · split
      · next e => exact State.Leads.snd_of_eq (.readTable he8) e
      next e20 =>
        have he20 := State.Leads.snd_of_eq (.readTable he8) e20
        split
        · next e => exact State.Leads.snd_of_eq (.readTable he20) e
        · next e => exact State.Leads.snd_of_eq (.readTable he20) e

theorem State.Leads.noteReady (h : o.Leads s) : o.Leads s.noteReady := .foldl h (fun _ _ h1 => .updNode h1)

theorem State.Answers.run {seq} (h : o.Leads s) : o.Answers (execRun seq s) := by
  unfold execRun
  refine .next ?_
  refine .takeEntry h fun _ _ h7 => ?_
  split
  · next e => exact .failGraph (State.Leads.snd_of_eq (.readGraph h7) e)
  · next e => exact .noteReady (.updGraph (State.Leads.snd_of_eq (.readGraph h7) e))

theorem State.Leads.refuseEntry {seq st} (h : o.Leads s) : o.Leads (s.refuseEntry seq st) := .failGraph h

theorem State.Answers.graphLoad {seq} (h : o.Leads s) : o.Answers (execGraphLoad seq s) := by
  unfold execGraphLoad
  refine .next ?_
  refine .takeEntry h fun _ _ h7 => ?_
  split
  · next e => exact .failGraph (State.Leads.snd_of_eq (.readGraph h7) e)
  next e18 =>
    have he18 := State.Leads.snd_of_eq (.readGraph h7) e18
    extract_lets -lift
    split
    · exact .refuseEntry he18
    · exact .ite (.refuseEntry he18) (.updGraph (.upd he18))

theorem State.Answers.launch {seq} (h : o.Leads s) : o.Answers (execLaunch seq s) := by
  unfold execLaunch
  refine .next ?_
  refine .takeEntry h fun _ _ h7 => ?_
  extract_lets -lift
  split
  · exact .refuseEntry h7
  · split
    · exact .refuseEntry h7
    · exact .noteReady (.updGraph h7)

theorem State.Answers.unload {seq} (h : o.Leads s) : o.Answers (execUnload seq s) := by
  unfold execUnload
  refine .next ?_
  refine .takeEntry h fun _ _ h7 => ?_
  extract_lets -lift
  split
  · exact .refuseEntry h7
  · exact .updGraph (.upd h7)

theorem State.Leads.reserveSpilled {seq node tenant n} (h : o.Leads s) :
    o.Leads (s.reserveSpilled seq node tenant n) :=
  .ite (.failNode h) (.ite (.cntMod h) (.foldl (.updNode h) (fun _ _ h1 => .takeTile (.updTile h1))))

theorem State.Leads.lowerSuccessors {seq node} (h : o.Leads s) : o.Leads (s.lowerSuccessors seq node) := by
  unfold State.lowerSuccessors
  split
  · exact h
  · exact .foldl h (fun _ _ h6 => .updNode h6)

theorem State.Leads.cntTen {tenant i n} (h : o.Leads s) : o.Leads (s.cntTen tenant i n) := .upd h

theorem State.Leads.completeNode {seq node} (h : o.Leads s) : o.Leads (s.completeNode seq node) := by
  unfold State.completeNode
  split
  · exact .noteReady (.cntTen (.updGraph (.lowerSuccessors (.releaseNode (.traceCentral h)))))
  · exact h

theorem State.Leads.dispatchSync {seq node tenant n} (h : o.Leads s) :
    o.Leads (s.dispatchSync seq node tenant n) := by
  unfold State.dispatchSync
  extract_lets -lift _ _ _ s4
  have hs4 : o.Leads s4 := .noteDispatch h
  split
  · exact .failNode (.soBlocked h)
  · split
    · exact .wake (.soSignal hs4)
    · exact .wake (.soSet hs4)
    · exact .wake (.soDec hs4)
    · split
      · next e => exact .wake (State.LeadsWait.passed_of_eq (.soWait hs4) e)
      · next e => exact State.LeadsWait.waits_of_eq (.soWait hs4) e

theorem State.Leads.readPin {tenant a stages either} (h : o.Leads s) :
    o.Leads (s.readPin tenant a stages either).2 := by
  unfold State.readPin
  split
  · next e => exact State.Leads.snd_of_eq (.readTable h) e
  next e8 =>
    have he8 := State.Leads.snd_of_eq (.readTable h) e8
    extract_lets -lift
    split
    · exact he8
    · split
      · next e => exact State.Leads.snd_of_eq (.readTable he8) e
      next e23 =>
        have he23 := State.Leads.snd_of_eq (.readTable he8) e23
        exact .ite_snd he23 he23

theorem State.Leads.chainClass {tenant a} (h : o.Leads s) : o.Leads (s.chainClass tenant a).2 := by
  unfold State.chainClass
  split
  · next e => exact State.Leads.snd_of_eq (.readChain h) e
  next e9 =>
    have he9 := State.Leads.snd_of_eq (.readChain h) e9
    exact .ite_snd he9 he9

theorem State.Leads.pilRecord {dkind tenant flags stage subject index detail} (h : o.Leads s) :
    o.Leads (s.pilRecord dkind tenant flags stage subject index detail) :=
  .cntMod (.logDecision (.upd (.ite h (.resvWrite h))))

theorem State.Leads.chooseForm {seq node tenant cls callB pin} (h : o.Leads s) :
    o.Leads (s.chooseForm seq node tenant cls callB pin) := .pilRecord (.cntMod (.updNode h))

theorem State.Leads.firstLook {seq node tenant n} (h : o.Leads s) : o.Leads (s.firstLook seq node tenant n) := by
  unfold State.firstLook
  extract_lets -lift
  split
  · exact h
  · split
    next e7 =>
      have he7 := State.Leads.snd_of_eq (.ite_snd (.readPin h) h) e7
      split
      · exact .failNode he7
      · split
        · split
          · next e => exact .failNode (State.Leads.snd_of_eq (.chainClass he7) e)
          · next e => exact .chooseForm (.updNode (State.Leads.snd_of_eq (.chainClass he7) e))
        · exact .updNode he7

theorem State.Leads.reserve {seq node tenant f} (h : o.Leads s) : o.Leads (s.reserve seq node tenant f) := by
  unfold State.reserve
  extract_lets -lift s1
  have hs1 : o.Leads s1 := .updNode h
  split
  · exact .foldl hs1 (fun _ _ h5 => .updTile h5)
  · exact hs1

theorem State.Leads.reserveTiles {seq node tenant n cands rows} (h : o.Leads s) :
    o.Leads (s.reserveTiles seq node tenant n cands rows) := by
  unfold State.reserveTiles
  split
  · next e => exact .failNode (State.Leads.snd_of_eq (.readTable h) e)
  next e8 =>
    have he8 := State.Leads.snd_of_eq (.readTable h) e8
    split
    · exact .failNode he8
    · extract_lets -lift
      split
      · exact .failNode he8
      · split
        · exact .failNode he8
        · split
          · exact .cntMod he8
          · split
            · exact .cntMod he8
            · exact .ite (.cntMod he8) (.ite he8 (.foldl (.reserve he8) (fun _ _ h33 => .pilRecord h33)))

theorem State.Leads.reserveStack {seq node tenant n step} (h : o.Leads s) :
    o.Leads (s.reserveStack seq node tenant n step) := .ite (.failNode h) (.ite (.cntMod h) (.reserve h))

theorem State.Leads.reserveDma {seq node tenant n} (h : o.Leads s) : o.Leads (s.reserveDma seq node tenant n) :=
  .ite (.failNode h) (.ite (.cntMod h) (.reserve h))

theorem State.Answers.nodeDispatch {seq node t cands rows} (h : o.Leads s) :
    o.Answers (execNodeDispatch seq node t cands rows s) := by
  unfold execNodeDispatch
  extract_lets -lift s1
  have hs1 : o.Leads s1 := .at h
  split
  · split
    · exact .next hs1
    · split
      · exact .next hs1
      · split
        · exact .next (.continueDispatch hs1)
        · split
          · exact .next hs1
          · split
            · exact .next (.reserveSpilled hs1)
            · split
              · exact .next (.completeNode (.noteDispatch hs1))
              · split
                · exact .next (.dispatchSync hs1)
                · extract_lets -lift s22
                  have hs22 : o.Leads s22 := .firstLook hs1
                  split
                  · split
                    · exact .next hs22
                    · exact .next (.continueDispatch (.ite (.reserveTiles hs22) (.ite (.reserveStack hs22)
                          (.reserveDma hs22))))
                  · exact .next hs22
  · exact .next hs1

theorem State.Answers.nodeHead {t} (h : o.Leads s) : o.Answers (execNodeHead t s) :=
  .ite (.next (.at h)) (.next (.ite (.cntMod (.upd (.at h))) (.upd (.at h))))

theorem State.Answers.dispatchTimeout {seq node t} (h : o.Leads s) :
    o.Answers (execDispatchTimeout seq node t s) := by
  unfold execDispatchTimeout
  extract_lets -lift s1
  have hs1 : o.Leads s1 := .at h
  split
  · exact .ite (.next (.cntMod (.failNode hs1))) (.next hs1)
  · exact .next hs1

theorem State.Leads.takeReport {seq node fl} (h : o.Leads s) : o.Leads (s.takeReport seq node fl) :=
  .updGraph (.upd h)

theorem State.Answers.nodeComplete {seq node} (h : o.Leads s) : o.Answers (execNodeComplete seq node s) := by
  unfold execNodeComplete
  split
  · split
    · exact .next (.ite (.cntMod (.releaseNode (.takeReport h))) h)
    · split
      · exact .next (.ite (.completeNode (.takeReport h)) h)
      · exact .next h
  · exact .next h

theorem State.Answers.unitFailure {seq node} (h : o.Leads s) : o.Answers (execUnitFailure seq node s) := by
  unfold execUnitFailure
  split
  · split
    · exact .next h
    · split
      · exact .next (.ite h (.failGraph (.takeReport h)))
      · exact .next h
  · exact .next h

theorem State.Leads.writeRecord {seq g} (h : o.Leads s) : o.Leads (s.writeRecord seq g) := by
  unfold State.writeRecord
  extract_lets -lift
  split
  · split
    · exact h
    · extract_lets -lift
      split
      · exact .hostWrite h
      · split
        · next e => exact .writeMem (State.Leads.snd_of_eq (.accessRecord h) e)
        · next e => exact .raise (State.Leads.snd_of_eq (.accessRecord h) e)

theorem State.Leads.signalChecked {kind unit tenant so} (h : o.Leads s) :
    o.Leads (s.signalChecked kind unit tenant so) := .ite (.soSignal h) (.soBlocked h)

theorem State.Leads.noteLaunch {g} (h : o.Leads s) : o.Leads (s.noteLaunch g) := by
  unfold State.noteLaunch
  split
  · split
    · exact h
    · split
      · exact h
      · exact .upd h
  · exact h

theorem State.Answers.graphComplete {seq t} (h : o.Leads s) : o.Answers (execGraphComplete seq t s) := by
  unfold execGraphComplete
  extract_lets -lift s1
  have hs1 : o.Leads s1 := .at h
  split
  · exact .next hs1
  · split
    · exact .next hs1
    · extract_lets -lift s13 _ _ s16 _ s18 s19 s20 s21 _ _ _ _ s26
      have hs13 : o.Leads s13 := .foldl hs1 (fun _ _ h27 => .releaseNode h27)
      have hs16 : o.Leads s16 := .writeRecord hs13
      have hs18 : o.Leads s18 := .ite (.signalChecked hs16) hs16
      have hs19 : o.Leads s19 := .noteLaunch hs18
      have hs20 : o.Leads s20 := .traceCentral hs19
      have hs21 : o.Leads s21 := .cntMod hs20
      have hs26 : o.Leads s26 := .upd hs21
      exact .next (.noteReady hs26)

theorem State.Answers.graphWatchdog {seq t} (h : o.Leads s) : o.Answers (execGraphWatchdog seq t s) := by
  unfold execGraphWatchdog
  extract_lets -lift s1
  have hs1 : o.Leads s1 := .at h
  split
  · exact .next hs1
  · split
    · exact .next hs1
    · split
      · exact .next hs1
      · extract_lets -lift
        split
        · exact .ite (.next hs1) (.next (.cntMod (.failGraph (.logDecision hs1))))
        · exact .next hs1

/-! ### Pilot placement (chapter 08) -/

theorem State.Leads.updPilot {f} (h : o.Leads s) : o.Leads (s.updPilot f) := .upd h
theorem State.Leads.calibrated {thr c} (h : o.Leads s) : o.Leads (s.calibrated thr c).2 := .ite_snd (.upd h) h

theorem State.Leads.setThresh {c new flags} (h : o.Leads s) : o.Leads (s.setThresh c new flags) :=
  .pilRecord (.updPilot h)

theorem State.Answers.calWindowEnd {counts t} (h : o.Leads s) : o.Answers (execCalWindowEnd counts t s) := by
  unfold execCalWindowEnd
  extract_lets -lift s2 _ s4
  have hs2 : o.Leads s2 := .at h
  have hs4 : o.Leads s4 := .updPilot hs2
  split
  · exact .next hs2
  · refine .next ?_
    refine .foldl hs4 fun _ _ h14 => ?_
    extract_lets -lift
    split
    · split
      · next e => exact .updPilot (.setThresh (State.Leads.snd_of_eq (.calibrated h14) e))
    · exact h14

theorem State.Answers.rebalance {busy t} (h : o.Leads s) : o.Answers (execRebalance busy t s) := by
  unfold execRebalance
  extract_lets -lift s1 _ x3 x4 f5
  have hs1 : o.Leads s1 := .at h
  have hf5 : ∀ s6, o.Leads s6 → o.Leads (f5 s6) := by
    intro s6 h0f5
    unfold f5
    exact .updPilot h0f5
  split
  · exact .next hs1
  · unfold x3
    unfold x4
    split
    · extract_lets -lift
      split
      · split
        · exact .next (hf5 _ (.updPilot hs1))
        · exact .next (hf5 _ hs1)
      · exact .next (hf5 _ hs1)
    · exact .next (hf5 _ hs1)

theorem State.Leads.moveEnded {table i issuer st} (h : o.Leads s) : o.Leads (s.moveEnded table i issuer st) :=
  .ite (.updPilot h) h

theorem State.Answers.moveStart {table i t} (h : o.Leads s) : o.Answers (execMoveStart table i t s) := by
  unfold execMoveStart
  extract_lets -lift s1
  have hs1 : o.Leads s1 := .at h
  split
  · exact .next hs1
  · split
    · exact .next hs1
    · extract_lets -lift s9
      have hs9 : o.Leads s9 := .updPilot hs1
      split
      · exact .next (.moveEnded hs9)
      · split
        next e18 =>
          have he18 := State.Leads.snd_of_eq (.loadNum hs9) e18
          split
          · exact .next (.moveEnded he18)
          · split
            · exact .next (.moveEnded he18)
            · exact .next (.updPilot (.writeMem (.writeMem he18)))

theorem State.Leads.releaseHeld {m} (h : o.Leads s) : o.Leads (s.releaseHeld m) :=
  .foldl h (fun _ _ h1 => .writeMem h1)

theorem State.Leads.dropMove {table i} (h : o.Leads s) : o.Leads (s.dropMove table i) := .updPilot h

theorem State.Leads.abandonMove {m} (h : o.Leads s) : o.Leads (s.abandonMove m) := by
  unfold State.abandonMove
  extract_lets -lift
  split
  next e5 =>
    have he5 := State.Leads.snd_of_eq (.loadNum h) e5
    extract_lets -lift s6 s7 s8 s9 s10 s11
    have hs6 : o.Leads s6 := .ite he5 (.writeMem he5)
    have hs7 : o.Leads s7 := .writeMem hs6
    have hs8 : o.Leads s8 := .releaseHeld (.dropMove hs7)
    have hs9 : o.Leads s9 := .updPilot hs8
    have hs10 : o.Leads s10 := .pilRecord hs9
    have hs11 : o.Leads s11 := .raise (.cntMod hs10)
    exact .moveEnded hs11

theorem State.Leads.updMove {table i f} (h : o.Leads s) : o.Leads (s.updMove table i f) := .updPilot h

theorem State.Leads.movePump {m} (h : o.Leads s) : o.Leads (s.movePump m) :=
  .foldl (.updMove h) (fun _ _ h1 => .sendReq h1)

theorem State.Leads.copyChunks {m cs} (h : o.Leads s) : o.Leads (s.copyChunks m cs).2 := by
  unfold State.copyChunks
  refine .foldl_snd h fun _ _ h5 => ?_
  extract_lets -lift _ _ s8
  have hs8 : o.Leads s8 := .retireAll h5
  split
  · exact hs8
  · split
    · exact .writePlain hs8
    · exact .updMove hs8

theorem State.Leads.twinCommit {m} (h : o.Leads s) : o.Leads (s.twinCommit m).2 := by
  unfold State.twinCommit
  extract_lets -lift _ _ _ s4
  have hs4 : o.Leads s4 := .twinSend h
  split
  · exact h
  · split
    · exact h
    · exact .updMove hs4

theorem State.Leads.updBlock {table i f} (h : o.Leads s) : o.Leads (s.updBlock table i f) := .updPilot h

theorem State.Leads.commitMove {m} (h : o.Leads s) : o.Leads (s.commitMove m) := by
  unfold State.commitMove
  extract_lets -lift
  split
  next e5 =>
    have he5 := State.Leads.snd_of_eq (.loadNum h) e5
    extract_lets -lift _ _ s8 s9 s10 s11 s12 s13 s14 s15
    have hs8 : o.Leads s8 := .writeMem he5
    have hs9 : o.Leads s9 := .writeMem hs8
    have hs10 : o.Leads s10 := .updMove hs9
    have hs11 : o.Leads s11 := .updBlock hs10
    have hs12 : o.Leads s12 := .releaseHeld hs11
    have hs13 : o.Leads s13 := .updPilot hs12
    have hs14 : o.Leads s14 := .pilRecord hs13
    have hs15 : o.Leads s15 := .cntMod (.cntMod hs14)
    exact .moveEnded hs15

theorem State.Answers.moveCopyDone {table i t} (h : o.Leads s) : o.Answers (execMoveCopyDone table i t s) := by
  unfold execMoveCopyDone
  extract_lets -lift s1
  have h1 : o.Leads s1 := .at h
  have hpump : ∀ s, o.Leads s → o.Leads (((s.moveOf table i).map (fun m => s.movePump m)).getD s) := by
    intro s h
    cases s.moveOf table i with
    | none => exact h
    | some m => exact .movePump h
  split
  · exact .next h1
  · split
    · split
      · exact .next h1
      · exact .next (.abandonMove h1)
    · split
      · exact .next (.movePump h1)
      · split
        · next e => exact .next (.abandonMove (.snd_of_eq (.copyChunks h1) e))
        · next e =>
          have h2 := hpump _ (.updMove (table := table) (i := i) (f := fun x => { x with todo := [] })
            (.snd_of_eq (.copyChunks h1) e))
          exact .ite (.next h2) (.ite (.next (.updMove h2)) (.next (.updMove h2)))
      · split
        · next e => exact .next (.abandonMove (.snd_of_eq (.copyChunks h1) e))
        · next e =>
          have h2 := hpump _ (.updMove (table := table) (i := i) (f := fun x => { x with todo := [] })
            (.snd_of_eq (.copyChunks h1) e))
          extract_lets -lift
          split
          · exact .ite (.next h2) (.ite (.next (.twinCommit h2)) (.next (.commitMove (.twinCommit h2))))
          · exact .next h2

theorem State.Answers.moveAbandon {table i t} (h : o.Leads s) : o.Answers (execMoveAbandon table i t s) := by
  unfold execMoveAbandon
  extract_lets -lift s1
  have hs1 : o.Leads s1 := .at h
  split
  · exact .next hs1
  · extract_lets -lift
    split
    · exact .next hs1
    · exact .ite (.next (.abandonMove hs1)) (.next hs1)

theorem State.Answers.moveFreeOld {table i t} (h : o.Leads s) : o.Answers (execMoveFreeOld table i t s) := by
  unfold execMoveFreeOld
  extract_lets -lift s1
  have hs1 : o.Leads s1 := .at h
  split
  · exact .next hs1
  · exact .ite (.next (.dropMove (.movePump hs1))) (.next (.movePump hs1))

theorem State.Leads.skipPeer (h : o.Leads s) : o.Leads s.skipPeer := .updPilot h

theorem State.Leads.askPeer (h : o.Leads s) : o.Leads s.askPeer := by
  unfold State.askPeer
  split
  · split
    · exact .sendPacket (.updPilot (.upd h))
    · exact h
  · exact h

theorem State.Answers.peerPlaceTimeout {t} (h : o.Leads s) : o.Answers (execPeerPlaceTimeout t s) := by
  unfold execPeerPlaceTimeout
  extract_lets -lift s1 s2
  have hs1 : o.Leads s1 := .at h
  have hs2 : o.Leads s2 := .skipPeer hs1
  split
  · exact .ite (.next hs1) (.next (.ite hs2 (.askPeer hs2)))
  · exact .next hs1

/-! ### Compute stacks (chapter 09) -/

theorem State.Answers.stkDescStart {c t} (h : o.Leads s) : o.Answers (execStkDescStart c t s) := by
  unfold execStkDescStart
  extract_lets -lift s1
  have hs1 : o.Leads s1 := .at h
  split
  · exact .next hs1
  · split
    · exact .next hs1
    · extract_lets -lift _ f15
      have hf15 : ∀ s16, o.Leads s16 → o.Leads (f15 s16) := by
        intro s16 h0f15
        unfold f15
        exact .traceCentral (.updChain (.foldl h0f15 (fun _ _ h17 => .logArb h17)))
      split
      · exact .next hs1
      · split
        · exact .next (.updChain hs1)
        · split
          · exact .next (hf15 _ hs1)
          · split
            · split
              · exact .next hs1
              · exact .ite (.next (hf15 _ (.upd hs1))) (.next (.updChain (.upd hs1)))
            · split
              · exact .next (.updChain (.soBlocked hs1))
              · split
                · next e => exact .next (hf15 _ (State.LeadsWait.passed_of_eq (.soWait hs1) e))
                · next e => exact .next (.updChain (State.LeadsWait.waits_of_eq (.soWait hs1) e))

theorem State.Leads.countWork {c d} (h : o.Leads s) : o.Leads (s.countWork c d) :=
  .foldl h (fun _ _ h1 => .updStack (.ite (.updChain h1) h1))

theorem State.Leads.runStack {c idx opc run} (h : o.Leads s) (hrun : ∀ z1 z2 s, o.Leads s → o.Leads (run z1 z2 s).1) :
    o.Leads (s.runStack c idx opc run) := by
  unfold State.runStack
  split
  · exact h
  · split
    · extract_lets -lift _ s13
      have hs13 : o.Leads s13 := .countWork h
      split
      · exact h
      · split
        next e19 =>
          have he19 := State.Leads.fst_of_eq (hrun _ _ _ hs13) e19
          exact .updChain (.ite (.scrambleOutputs he19) he19)
        · next e => exact .updChain (State.Leads.fst_of_eq (hrun _ _ _ hs13) e)
    · exact h

theorem State.Leads.then_ {r : StkOut} {f} (h : o.Leads r.1) (hf : ∀ s, o.Leads s → o.Leads (f s).1) :
    o.Leads (r.then_ f).1 := by
  unfold StkOut.then_
  split
  · exact h
  · next s fl =>
    have h1 := hf s h
    split
    · next e => exact .fst_of_eq h1 e
    · next e => exact .fst_of_eq h1 e

theorem State.Leads.stkAll {f : α → State → StkOut} {l : List α} (h : o.Leads s)
    (hf : ∀ a s, o.Leads s → o.Leads (f a s).1) : o.Leads (stkAll f l s).1 := by
  induction l generalizing s with
  | nil => exact h
  | cons a l ih => exact .then_ (hf a s h) fun _ => ih

theorem State.Leads.withBytes {r f} (h : o.Leads r.2) (hf : ∀ z1 s, o.Leads s → o.Leads (f z1 s).1) :
    o.Leads (withBytes r f).1 := by
  unfold Machine.withBytes
  split
  · exact hf _ _ h
  · exact h

theorem State.Leads.nbuRead {stack nbu y3 n} (h : o.Leads s) : o.Leads (s.nbuRead stack nbu y3 n).2 := by
  unfold State.nbuRead
  refine .foldl_snd (.asAgent h) fun _ _ h5 => ?_
  split
  · split
    · next e => exact State.Leads.snd_of_eq (.load h5) e
    · next e => exact State.Leads.snd_of_eq (.load h5) e
  · exact h5

theorem State.Leads.runRow {d} (h : o.Leads s) : o.Leads (s.runRow d).1 := by
  refine .stkAll h fun st s h => .stkAll h fun k s h => .stkAll h fun i s h => ?_
  refine .ite_fst (.nbuWrite h) (.withBytes (.nbuRead h) fun a s h => ?_)
  exact .ite_fst (.withBytes (.nbuRead h) fun b s h => .nbuWrite h) (.nbuWrite h)

theorem State.Answers.rowcopy {c i} (h : o.Leads s) : o.Answers (execRowcopy c i s) :=
  .next (.runStack h (fun _ _ _ h1 => .runRow h1))

theorem State.Answers.rowinit {c i} (h : o.Leads s) : o.Answers (execRowinit c i s) :=
  .next (.runStack h (fun _ _ _ h1 => .runRow h1))

theorem State.Answers.rowand {c i} (h : o.Leads s) : o.Answers (execRowand c i s) :=
  .next (.runStack h (fun _ _ _ h1 => .runRow h1))

theorem State.Answers.rowor {c i} (h : o.Leads s) : o.Answers (execRowor c i s) :=
  .next (.runStack h (fun _ _ _ h1 => .runRow h1))

theorem State.Answers.rowxor {c i} (h : o.Leads s) : o.Answers (execRowxor c i s) :=
  .next (.runStack h (fun _ _ _ h1 => .runRow h1))

theorem State.Answers.rownot {c i} (h : o.Leads s) : o.Answers (execRownot c i s) :=
  .next (.runStack h (fun _ _ _ h1 => .runRow h1))

theorem State.Leads.gemvAppend {d tenant m g first rows} (h : o.Leads s) :
    o.Leads (s.gemvAppend d tenant m g first rows).1 :=
  .stkAll h fun _ _ h => .stkAll h fun _ _ h => .then_ (.appendRow h) fun _ h => h

theorem State.Leads.stkRead {c stack addr n} (h : o.Leads s) : o.Leads (s.stkRead c stack addr n).2 := by
  unfold State.stkRead
  split
  · exact .load (.asAgent h)
  · exact .upd h

theorem State.Leads.withX {c stack d b n f} (h : o.Leads s) (hf : ∀ z1 z2 s, o.Leads s → o.Leads (f z1 z2 s).1) :
    o.Leads (s.withX c stack d b n f).1 :=
  .withBytes (.stkRead h) fun _ _ h => .ite_fst (hf _ _ _ h) (.withBytes (.stkRead h) fun _ _ h => hf _ _ _ h)

theorem State.Leads.withList {stack d n f} (h : o.Leads s) (hf : ∀ z1 s, o.Leads s → o.Leads (f z1 s).1) :
    o.Leads (s.withList stack d n f).1 := .withBytes (.load (.asAgent h)) fun _ _ h => hf _ _ h

theorem State.Leads.stkOk {fl} (h : o.Leads s) : o.Leads (stkOk s fl).1 := h

theorem State.Leads.pageRead {tenant stack a n} (h : o.Leads s) : o.Leads (s.pageRead tenant stack a n).2 := by
  unfold State.pageRead
  split
  · next e => exact State.Leads.snd_of_eq (.accessRecord h) e
  next e7 =>
    have he7 := State.Leads.snd_of_eq (.accessRecord h) e7
    split
    · next e => exact State.Leads.snd_of_eq (.load he7) e

theorem State.Leads.withPage {tenant stack a n f} (h : o.Leads s) (hf : ∀ z1 s, o.Leads s → o.Leads (f z1 s).1) :
    o.Leads (s.withPage tenant stack a n f).1 := by
  unfold State.withPage
  split
  · next e => exact .snd_of_eq (.pageRead h) e
  · next e => exact .withBytes (.snd_of_eq (.pageRead h) e) fun _ _ h => hf _ _ h

theorem State.Leads.gemvWeights {tenant d stack rho p g0 g1 page f} (h : o.Leads s)
    (hf : ∀ z1 z2 z3 s, o.Leads s → o.Leads (f z1 z2 z3 s).1) :
    o.Leads (s.gemvWeights tenant d stack rho p g0 g1 page f).1 := by
  cases page with
  | some pg =>
    exact .withPage h fun _ _ h => .ite_fst (hf _ _ _ _ h) (.withPage h fun _ _ h => hf _ _ _ _ h)
  | none =>
    refine .withBytes (.nbuRead h) fun _ _ h => .ite_fst (hf _ _ _ _ h) ?_
    refine .withBytes (.nbuRead h) fun _ _ h => .ite_fst (hf _ _ _ _ h) ?_
    exact .withBytes (.nbuRead h) fun _ _ h => hf _ _ _ _ h

theorem State.Leads.gemvRow_parts {tenant d stack rho x xsc page f g ks vs init k p sums fl} (h : o.Leads s)
    (hf : ∀ z1 z2 s, o.Leads s → o.Leads (f z1 z2 s).1) :
    o.Leads (State.gemvRow.parts tenant d stack rho x xsc page f g ks vs init k p sums fl s).1 := by
  induction k generalizing s p sums fl with
  | zero => exact hf _ _ _ h
  | succ k ih => exact .gemvWeights h fun _ _ _ _ h => .ite_fst (ih h) (ih h)

theorem State.Leads.gemvRow {tenant d stack rho x xsc acc accRow page f} (h : o.Leads s) (hf :
    ∀ z1 z2 s, o.Leads s → o.Leads (f z1 z2 s).1) :
    o.Leads (s.gemvRow tenant d stack rho x xsc acc accRow page f).1 := .gemvRow_parts h (fun _ _ _ h1 => hf _ _ _ h1)

theorem State.Leads.gemvStack_go {tenant d sig stack f x xsc acc lst k rho out} (h : o.Leads s)
    (hf : ∀ z1 s, o.Leads s → o.Leads (f z1 s).1) :
    o.Leads (State.gemvStack.go tenant d sig stack f x xsc acc lst k rho out s).1 := by
  induction k generalizing s rho out with
  | zero => exact hf _ _ h
  | succ k ih =>
    unfold State.gemvStack.go
    extract_lets r finish
    have hfin : ∀ z1 z2 s, o.Leads s → o.Leads (finish z1 z2 s).1 := fun _ _ _ h => .then_ h fun _ h => ih h
    split
    · split
      · exact ih h
      · exact .ite_fst (.gemvRow h hfin) h
    · exact .gemvRow h hfin

theorem State.Leads.gemvStack {tenant c d sig stack f} (h : o.Leads s)
    (hf : ∀ z1 s, o.Leads s → o.Leads (f z1 s).1) : o.Leads (s.gemvStack tenant c d sig stack f).1 := by
  refine .withX h fun x xsc s h => ?_
  have hlist : ∀ acc s, o.Leads s → o.Leads ((if sdPaged d then s.withList stack d ((sdN d + 31) / 32) fun lst s =>
      State.gemvStack.go tenant d sig stack f x xsc acc lst (sdLocalRows d sig) 0 [] s
      else State.gemvStack.go tenant d sig stack f x xsc acc 0 (sdLocalRows d sig) 0 [] s)).1 := fun acc s h =>
    .ite_fst (.withList h fun _ _ h => .gemvStack_go h hf) (.gemvStack_go h hf)
  exact .ite_fst (.withBytes (.stkRead h) hlist) (hlist 0 s h)

theorem State.Leads.runGemv_all {c d tenant m g l rows} (h : o.Leads s) :
    o.Leads (State.runGemv.all c d tenant m g l rows s).1 := by
  induction l generalizing s rows with
  | nil => exact .gemvAppend h
  | cons p r ih => exact .gemvStack h fun _ _ h => ih h

theorem State.Leads.stkOutput {c d v sig stack per vs} (h : o.Leads s) :
    o.Leads (s.stkOutput c d v sig stack per vs).1 := .ite_fst (.stkWrite (.stkWrite h)) (.stkWrite h)

theorem State.Leads.gemvOutput {c d sig stack rows} (h : o.Leads s) : o.Leads (s.gemvOutput c d sig stack rows).1 :=
  .stkAll h fun _ _ h => .stkOutput h

theorem State.Leads.runGemv {c d tenant} (h : o.Leads s) : o.Leads (s.runGemv c d tenant).1 := by
  unfold State.runGemv
  split
  · split
    · next e => exact .snd_of_eq (.appendMap h) e
    · next e => exact .runGemv_all (.snd_of_eq (.appendMap h) e)
  · exact .stkAll h fun _ _ h => .gemvStack h fun _ _ h => .gemvOutput h

theorem State.Answers.gemv {c i} (h : o.Leads s) : o.Answers (execGemv c i s) :=
  .next (.runStack h (fun _ _ _ h1 => .runGemv h1))

theorem State.Leads.gemvtPage_rows {tenant d stack j x xsc page f n wb rowBytes scRow k t acc} (h : o.Leads s)
    (hf : ∀ z1 z2 s, o.Leads s → o.Leads (f z1 z2 s).1) :
    o.Leads (State.gemvtPage.rows tenant d stack j x xsc page f n wb rowBytes scRow k t acc s).1 := by
  induction k generalizing s t acc with
  | zero => exact hf _ _ _ h
  | succ k ih => exact .withPage h fun _ _ h => .ite_fst (ih h) (.withPage h fun _ _ h => ih h)

theorem State.Leads.gemvtPage {tenant d stack j x xsc page f} (h : o.Leads s) (hf : ∀ z1 z2 s, o.Leads s → o.Leads
    (f z1 z2 s).1) :
    o.Leads (s.gemvtPage tenant d stack j x xsc page f).1 :=
  .ite_fst h (.gemvtPage_rows h (fun _ _ _ h1 => hf _ _ _ h1))

theorem State.Leads.runGemvt_go {c d tenant p x xsc lst k j sums} (h : o.Leads s) :
    o.Leads (State.runGemvt.go c d tenant p x xsc lst k j sums s).1 := by
  induction k generalizing s j sums with
  | zero => exact .stkAll h fun _ _ h => .stkOutput h
  | succ k ih =>
    rw [State.runGemvt.go]
    split
    · exact ih h
    · exact .gemvtPage h fun _ _ _ h => .then_ h fun _ h => ih h

theorem State.Leads.runGemvt {c d tenant} (h : o.Leads s) : o.Leads (s.runGemvt c d tenant).1 :=
  .stkAll h fun _ _ h => .withX h fun _ _ _ h => .withList h fun _ _ h => .runGemvt_go h

theorem State.Answers.gemvt {c i} (h : o.Leads s) : o.Answers (execGemvt c i s) :=
  .next (.runStack h (fun _ _ _ h1 => .runGemvt h1))

theorem State.Leads.ewNbu {d} (h : o.Leads s) : o.Leads (s.ewNbu d).1 := by
  refine .stkAll h fun _ _ h => .stkAll h fun _ _ h => .stkAll h fun _ _ h => .withBytes (.nbuRead h) fun _ _ h => ?_
  exact .ite_fst (.withBytes (.nbuRead h) fun _ _ h => .nbuWrite h) (.nbuWrite h)

theorem State.Leads.withAux {c stack d n f} (h : o.Leads s) (hf : ∀ z1 s, o.Leads s → o.Leads (f z1 s).1) :
    o.Leads (s.withAux c stack d n f).1 := .ite_fst (hf _ _ h) (.withBytes (.stkRead h) fun _ _ h => hf _ _ h)

theorem State.Leads.ewSru {c d} (h : o.Leads s) : o.Leads (s.ewSru c d).1 :=
  .stkAll h fun _ _ h => .withX h fun _ _ _ h => .withAux h fun _ _ h => .stkAll h fun _ _ h => .stkOutput h

theorem State.Leads.runEw {c d} (h : o.Leads s) : o.Leads (s.runEw c d).1 := .ite_fst (.ewNbu h) (.ewSru h)

theorem State.Answers.eadd {c i} (h : o.Leads s) : o.Answers (execEadd c i s) :=
  .next (.runStack h (fun _ _ _ h1 => .runEw h1))

theorem State.Answers.emul {c i} (h : o.Leads s) : o.Answers (execEmul c i s) :=
  .next (.runStack h (fun _ _ _ h1 => .runEw h1))

theorem State.Answers.eact {c i} (h : o.Leads s) : o.Answers (execEact c i s) :=
  .next (.runStack h (fun _ _ _ h1 => .runEw h1))

theorem State.Answers.eglu {c i} (h : o.Leads s) : o.Answers (execEglu c i s) :=
  .next (.runStack h (fun _ _ _ h1 => .runEw h1))

theorem State.Answers.escale {c i} (h : o.Leads s) : o.Answers (execEscale c i s) :=
  .next (.runStack h (fun _ _ _ h1 => .runEw h1))

theorem State.Leads.nbuVecs_go {d stack v f wb k i acc} (h : o.Leads s)
    (hf : ∀ z1 s, o.Leads s → o.Leads (f z1 s).1) :
    o.Leads (State.nbuVecs.go d stack v f wb k i acc s).1 := by
  induction k generalizing s i acc with
  | zero => exact hf _ _ h
  | succ k ih => exact .withBytes (.nbuRead h) fun _ _ h => ih h

theorem State.Leads.nbuVecs {d stack v f} (h : o.Leads s) (hf : ∀ z1 s, o.Leads s → o.Leads (f z1 s).1) :
    o.Leads (s.nbuVecs d stack v f).1 := .nbuVecs_go h (fun _ _ h1 => hf _ _ h1)

theorem State.Leads.runNorm {c d} (h : o.Leads s) : o.Leads (s.runNorm c d).1 :=
  .stkAll h fun _ _ h => .withAux h fun _ _ h => .ite_fst
    (.stkAll h fun _ _ h => .nbuVecs h fun _ _ h => .stkOutput h)
    (.withX h fun _ _ _ h => .stkAll h fun _ _ h => .stkOutput h)

theorem State.Answers.norm {c i} (h : o.Leads s) : o.Answers (execNorm c i s) :=
  .next (.runStack h (fun _ _ _ h1 => .runNorm h1))

theorem State.Leads.runSmx {c d} (h : o.Leads s) : o.Leads (s.runSmx c d).1 :=
  .stkAll h fun _ _ h => .ite_fst
    (.stkAll h fun _ _ h => .nbuVecs h fun _ _ h => .stkOutput h)
    (.withX h fun _ _ _ h => .stkAll h fun _ _ h => .ite_fst (.stkOutput h)
      (.ite_fst (.stkOutput h) (.stkWrite (.stkOutput h))))

theorem State.Answers.smx {c i} (h : o.Leads s) : o.Answers (execSmx c i s) :=
  .next (.runStack h (fun _ _ _ h1 => .runSmx h1))

theorem State.Leads.runTopk_go {c d tenant bytes p x sc lst k j best fl} (h : o.Leads s) :
    o.Leads (State.runTopk.go c d tenant bytes p x sc lst k j best fl s).1 := by
  induction k generalizing s j best fl with
  | zero => exact .then_ (.stkAll h fun _ _ h => .stkWrite h) fun _ h => h
  | succ k ih =>
    rw [State.runTopk.go]
    split
    · exact ih h
    · exact .ite_fst h (.withPage h fun _ _ h => ih h)

theorem State.Leads.runTopk {c d tenant} (h : o.Leads s) : o.Leads (s.runTopk c d tenant).1 :=
  .stkAll h fun _ _ h => .withX h fun _ _ _ h => .withList h fun _ _ h => .runTopk_go h

theorem State.Answers.topk {c i} (h : o.Leads s) : o.Answers (execTopk c i s) :=
  .next (.runStack h (fun _ _ _ h1 => .runTopk h1))

theorem State.Leads.runReduce {c d} (h : o.Leads s) : o.Leads (s.runReduce c d).1 :=
  .stkAll h fun _ _ h => .withBytes (.stkRead h) fun _ _ h => .stkAll h fun _ _ h => .stkOutput h

theorem State.Answers.reduce {c i} (h : o.Leads s) : o.Answers (execReduce c i s) :=
  .next (.runStack h (fun _ _ _ h1 => .runReduce h1))

theorem State.Answers.stkDescComplete {c idx} (h : o.Leads s) : o.Answers (execStkDescComplete c idx s) := by
  unfold execStkDescComplete
  split
  · exact .next h
  · split
    · extract_lets -lift _ s15 s16 s17
      have hs15 : o.Leads s15 := .updChain h
      have hs16 : o.Leads s16 := .foldl hs15 (fun _ _ h18 => .updStack h18)
      have hs17 : o.Leads s17 := .traceCentral hs16
      exact .next (.ite (.signalChecked hs17) hs17)
    · exact .next h

theorem State.Answers.stkChainFail {c} (h : o.Leads s) : o.Answers (execStkChainFail c s) := by
  unfold execStkChainFail
  split
  · exact .next h
  · extract_lets -lift x6
    unfold x6
    split
    · exact .next h
    · split
      · exact .next h
      · extract_lets -lift s18 s19 _ s21 s22
        have hs18 : o.Leads s18 := .updStack h
        have hs19 : o.Leads s19 := .removeWaits hs18
        have hs21 : o.Leads s21 := .traceCentral hs19
        have hs22 : o.Leads s22 := .foldl hs21 (fun _ _ h23 => .scrambleOutputs h23)
        exact .next (.updChain hs22)

theorem State.Answers.stkSlotCfgWrite {r st v} (h : o.Leads s) : o.Answers (execStkSlotCfgWrite r st v s) :=
  .next (.ite (.setServeRsv h) h)

/-! ### Memory tiers and data integrity (chapters 10 and 11) -/

theorem State.Leads.requestCheck {r write a n} (h : o.Leads s) : o.Leads (s.requestCheck r write a n).2 := by
  unfold State.requestCheck
  split
  · extract_lets -lift
    split
    · exact .ite (.isolation h) h
    · exact .asAgent h

theorem State.Leads.ceUnit {b} (h : o.Leads s) : o.Leads (s.ceUnit b) :=
  .ite (.raise (.upd (.updInteg h))) (.upd (.updInteg h))

theorem State.Leads.dropUnit {unit} (h : o.Leads s) : o.Leads (s.dropUnit unit) :=
  .upd (.setMem h (Mem.wf_filter _ _))

theorem State.Leads.fencePc {unit} (h : o.Leads s) : o.Leads (s.fencePc unit) :=
  .ite h (.raise (.upd (.dropUnit (.retireAll h))))

theorem State.Leads.fenceCh {ch} (h : o.Leads s) : o.Leads (s.fenceCh ch) :=
  .ite h (.raise (.upd (.updChan (.dropUnit (.retireAll h)))))

theorem State.Leads.fenceOnUe {unit} (h : o.Leads s) : o.Leads (s.fenceOnUe unit) :=
  .ite (.ite (.fencePc h) (.fenceCh h)) h

theorem State.Leads.ueFound {atom unit addr} (h : o.Leads s) : o.Leads (s.ueFound atom unit addr) := by
  unfold State.ueFound
  extract_lets -lift s1 _ s3 s4 s5 _ _ _ s9
  have hs1 : o.Leads s1 := .dropMem h
  have hs3 : o.Leads s3 := .upd hs1
  have hs4 : o.Leads s4 := .raise hs3
  have hs5 : o.Leads s5 := .updInteg hs4
  have hs9 : o.Leads s9 := .ite (.upd hs5) (.ite (.upd hs5) (.raise (.upd hs5)))
  exact .fenceOnUe hs9

theorem State.Leads.readAtom {atom errs} (h : o.Leads s) : o.Leads (s.readAtom atom errs).2 := by
  unfold State.readAtom
  extract_lets -lift s1 _ _ _ _ s6
  have hs1 : o.Leads s1 := .retireAll h
  have hs6 : o.Leads s6 := .ceUnit hs1
  split
  · exact hs1
  · split
    · exact hs1
    · exact .upd hs6
    · exact .updInteg hs1
    · exact .ueFound hs1
    · exact .ueFound hs1

theorem State.Leads.ceQuay {q} (h : o.Leads s) : o.Leads (s.ceQuay q) :=
  .ite (.raise (.cntQuay (.setQuay h))) (.cntQuay (.setQuay h))

theorem State.Leads.readWord {t a u flips addrBad} (h : o.Leads s) : o.Leads (s.readWord t a u flips addrBad).2 := by
  unfold State.readWord
  extract_lets -lift q bad
  have hbad : ∀ s, o.Leads s → o.Leads (bad s).2 := fun s h => .updTile (.updQuay (.dropMem h))
  split
  · exact .countPoison h
  · split
    · exact hbad s h
    · split
      · exact h
      · split
        · exact .ceQuay h
        · split
          · exact hbad s h
          · have hl : o.Leads s.freshLong.2 := .freshLong h
            exact .ite_snd (hbad _ hl) (.setMem (.freshBytes hl) (Mem.wf_writeBytes _ _ _))

theorem State.Leads.decodedRead_go {a mine u k at_ acc bad} (h : o.Leads s) :
    o.Leads (State.decodedRead.go a mine u k at_ acc bad s).2 := by
  induction k generalizing s at_ acc bad with
  | zero => exact h
  | succ k ih =>
    rw [State.decodedRead.go]
    split
    next r s1 e =>
    have h1 : o.Leads s1 := by
      split at e
      · exact .snd_of_eq (.readAtom h) e
      · exact .snd_of_eq (.readAtom h) e
      · exact .snd_of_eq (.readWord h) e
      · exact .snd_of_eq (.readWord h) e
      · exact .snd_of_eq (p := (none, s)) h e
    split
    · exact ih h1
    · exact ih h1

theorem State.Leads.decodedRead {a n errs} (h : o.Leads s) : o.Leads (s.decodedRead a n errs).2 := by
  unfold State.decodedRead
  extract_lets -lift
  split
  · exact h
  · split
    · next e => exact State.Leads.snd_of_eq (.decodedRead_go h) e
    · next e => exact State.Leads.snd_of_eq (.decodedRead_go h) e

theorem State.Leads.readAccess {a n errs} (h : o.Leads s) : o.Leads (s.readAccess a n errs).2 := by
  unfold State.readAccess
  refine .foldl_snd h fun _ _ h5 => ?_
  extract_lets -lift s6 s7
  have hs6 : o.Leads s6 := .touch h5
  have hs7 : o.Leads s7 := .foldl hs6 (fun _ _ h8 => .ite (.logUnit h8) h8)
  split
  · next e => exact State.Leads.snd_of_eq (.decodedRead hs7) e
  · next e => exact State.Leads.snd_of_eq (.decodedRead hs7) e
  · next e => exact State.Leads.snd_of_eq (.decodedRead hs7) e

theorem State.Leads.countReads {a n} (h : o.Leads s) : o.Leads (s.countReads a n) := by
  unfold State.countReads
  refine .foldl h fun _ _ h5 => ?_
  split
  · exact .foldl h5 (fun _ _ h8 => .updChan h8)
  · exact h5

theorem State.Leads.holdAccess {y1} (h : o.Leads s) : o.Leads (s.holdAccess y1) := .upd h

theorem State.Leads.memoryRead {r a n errs} (h : o.Leads s) : o.Leads (s.memoryRead r a n errs) := by
  unfold State.memoryRead
  split
  · next e => exact .memRespond (State.Leads.snd_of_eq (.requestCheck h) e)
  next e7 =>
    have he7 := State.Leads.snd_of_eq (.requestCheck h) e7
    split
    · split
      · exact .memRespond he7
      · split
        · next e => exact .memRespond (State.Leads.snd_of_eq (.readReg he7) e)
    · split
      · split
        · next e => exact .memRespond (.countReads (State.Leads.snd_of_eq (.readAccess he7) e))
        · next e => exact .memRespond (State.Leads.snd_of_eq (.readAccess he7) e)
      · exact .holdAccess he7

theorem State.Answers.memoryRead {r a n errs t} (h : o.Leads s) : o.Answers (execMemoryRead r a n errs t s) :=
  .next (.memoryRead (.at h))

theorem State.Leads.memoryWrite {r a bs} (h : o.Leads s) : o.Leads (s.memoryWrite r a bs) := by
  unfold State.memoryWrite
  split
  · next e => exact .memRespond (State.Leads.snd_of_eq (.requestCheck h) e)
  next e7 =>
    have he7 := State.Leads.snd_of_eq (.requestCheck h) e7
    split
    · split
      · next e => exact .memRespond (State.Leads.snd_of_eq (.writeReg he7) e)
    · exact .ite (.memRespond (.writeMem he7)) (.holdAccess he7)

theorem State.Answers.memoryWrite {r a bs t} (h : o.Leads s) : o.Answers (execMemoryWrite r a bs t s) :=
  .next (.memoryWrite (.at h))

theorem State.Answers.mergeRetire {atom t} (h : o.Leads s) : o.Answers (execMergeRetire atom t s) := by
  unfold execMergeRetire
  extract_lets -lift s1
  have hs1 : o.Leads s1 := .at h
  split
  · exact .next (.ite (.retire hs1) hs1)
  · exact .next hs1

theorem State.Answers.ceWriteback {atom} (h : o.Leads s) : o.Answers (execCeWriteback atom s) := by
  unfold execCeWriteback
  split
  · exact .next (.putAtom h)
  · exact .next h

theorem State.Answers.refresh {_unit} (h : o.Leads s) : o.Answers (execRefresh _unit s) := .next h

theorem State.Answers.t1CalLoss {stack pc t} (h : o.Leads s) : o.Answers (execT1CalLoss stack pc t s) :=
  .ite (.next (.at h)) (.next (.upd (.at h)))

theorem State.Leads.serveHeld (h : o.Leads s) : o.Leads s.serveHeld := by
  unfold State.serveHeld
  extract_lets -lift _ _ s4
  have hs4 : o.Leads s4 := .upd h
  refine .foldl hs4 fun _ _ h9 => ?_
  split
  · exact .memRespond (.writeMem h9)
  · split
    · next e => exact .memRespond (State.Leads.snd_of_eq (.load h9) e)
    · next e => exact .memRespond (State.Leads.snd_of_eq (.load h9) e)

theorem State.Answers.t1PcFence {stack pc t} (h : o.Leads s) : o.Answers (execT1PcFence stack pc t s) := by
  unfold execT1PcFence
  extract_lets -lift s1
  have hs1 : o.Leads s1 := .at h
  split
  · exact .next (.ite (.serveHeld (.fencePc hs1)) hs1)
  · exact .next hs1

theorem State.Answers.t2RetrainStart {ch t errs temp} (h : o.Leads s) :
    o.Answers (execT2RetrainStart ch t errs temp s) := by
  unfold execT2RetrainStart
  extract_lets -lift s1 s2
  have hs1 : o.Leads s1 := .at h
  have hs2 : o.Leads s2 := .updChan hs1
  split
  · exact .next (.ite (.beginRetrain hs2) (.ite (.updChan hs2) hs2))
  · exact .next hs2

theorem State.Answers.t2RetrainDone {ch t} (h : o.Leads s) : o.Answers (execT2RetrainDone ch t s) :=
  .ite (.next (.serveHeld (.updChan (.at h)))) (.next (.at h))

theorem State.Answers.t2RetrainFail {ch t} (h : o.Leads s) : o.Answers (execT2RetrainFail ch t s) := by
  unfold execT2RetrainFail
  extract_lets -lift s1 _ s3
  have hs1 : o.Leads s1 := .at h
  have hs3 : o.Leads s3 := .raise (.updChan hs1)
  exact .ite (.ite (.next (.updChan hs3)) (.next (.serveHeld (.fenceCh hs3)))) (.next hs1)

theorem State.Answers.scrubRead {unit errs} (h : o.Leads s) : o.Answers (execScrubRead unit errs s) := by
  unfold execScrubRead
  extract_lets -lift _ _ _ _ s5 _ _ s8
  have hs5 : o.Leads s5 := by
    unfold s5
    split
    · exact h
    · split
      next e16 =>
        have he16 := State.Leads.snd_of_eq (.readAtom h) e16
        split
        · exact .putAtom he16
        · exact he16
      · next e => exact State.Leads.snd_of_eq (.readAtom h) e
  have hs8 : o.Leads s8 := .upd hs5
  exact .ite (.next h) (.ite (.next hs8) (.next (.updInteg hs8)))

theorem State.Answers.ceLeak {bucket t withRead} (h : o.Leads s) : o.Answers (execCeLeak bucket t withRead s) := by
  unfold execCeLeak
  extract_lets -lift s1 _ _ s4 _ _ s7
  have hs1 : o.Leads s1 := .at h
  have hs4 : o.Leads s4 := .ite (.ite (.ceQuay hs1) (.ceUnit hs1)) hs1
  have hs7 : o.Leads s7 := .upd hs4
  exact .ite (.next hs4) (.ite (.next (.updQuay hs7)) (.next (.upd hs7)))

theorem State.Leads.ueDone {atom} (h : o.Leads s) : o.Leads (s.ueDone atom) := .upd h

theorem State.Leads.srvSlotFree {step} (h : o.Leads s) : o.Leads (s.srvSlotFree step) := by
  unfold State.srvSlotFree
  split
  · exact h
  · split
    · exact h
    · exact .cntMod (.upd (.traceCentral h))

theorem State.Leads.srvSlotsFree (h : o.Leads s) : o.Leads s.srvSlotsFree := .foldl h (fun _ _ h1 => .srvSlotFree h1)

theorem State.Leads.srvTouch {i} (h : o.Leads s) : o.Leads (s.srvTouch i) := by
  unfold State.srvTouch
  extract_lets -lift _ s2
  have hs2 : o.Leads s2 := .upd h
  split
  · exact .upd h
  · split
    · exact .ite (.upd hs2) (.resvWrite (.upd hs2))
    · exact .upd hs2

theorem State.Leads.srvPut {i e} (h : o.Leads s) : o.Leads (s.srvPut i e) :=
  .ite (.twinSend (.upd (.srvTouch h))) (.upd (.srvTouch h))

theorem State.Leads.manEntryLost {i} (h : o.Leads s) : o.Leads (s.manEntryLost i) :=
  .raise (.resvWrite (.srvSlotsFree (.srvPut (.upd (.upd h)))))

theorem State.Leads.spillClear {p} (h : o.Leads s) : o.Leads (s.spillClear p) := .updNode h

theorem State.Leads.failResv {p clear} (h : o.Leads s) : o.Leads (s.failResv p clear) :=
  .foldl h (fun _ _ h1 => .ite (.spillClear (.failNode h1)) (.failNode h1))

theorem State.Leads.updTwin {f} (h : o.Leads s) : o.Leads (s.updTwin f) := .upd h
theorem State.Leads.srvUpd {i f} (h : o.Leads s) : o.Leads (s.srvUpd i f) := .srvPut h

theorem State.Leads.pairLost (h : o.Leads s) : o.Leads s.pairLost := by
  unfold State.pairLost
  extract_lets -lift _ _ s5 _ s7 s8 s9 _ _ s12 s13
  have hs5 : o.Leads s5 := .updTwin h
  have hs7 : o.Leads s7 := .upd hs5
  have hs8 : o.Leads s8 := .srvSlotsFree (.foldl hs7 (fun _ _ h14 => .srvUpd h14))
  have hs9 : o.Leads s9 := .updTwin h
  have hs12 : o.Leads s12 := .upd hs9
  have hs13 : o.Leads s13 := .foldl hs12 (fun _ _ h15 => .srvUpd h15)
  exact .ite (.raise hs8) (.raise hs13)

theorem State.Leads.logWriteHeader (h : o.Leads s) : o.Leads s.logWriteHeader := .logHeader (.resvWrite h)
theorem State.Leads.updLog {f} (h : o.Leads s) : o.Leads (s.updLog f) := .upd h

theorem State.Leads.resvLost {kind atom n} (h : o.Leads s) : o.Leads (s.resvLost kind atom n) := by
  unfold State.resvLost
  extract_lets -lift _ f2 _ _ _ s6
  have hf2 : ∀ s7, o.Leads s7 → o.Leads (f2 s7) := by
    intro s7 h0f2
    unfold f2
    exact .raise h0f2
  have hs6 : o.Leads s6 := .resvWrite (hf2 _ h)
  split
  · exact .ite (hf2 _ (.resvWrite h)) (.manEntryLost h)
  · exact .failResv (hf2 _ h)
  · exact .failResv (hf2 _ h)
  · exact .resvWrite h
  · exact hf2 _ (.resvWrite (.freshBytes h))
  · exact .ite (.pairLost (hf2 _ h)) (hf2 _ h)
  · exact .ite (.ite (.logWriteHeader (hf2 _ h)) (hf2 _ h)) (.logHeader (.updLog hs6))

theorem State.Leads.srvQueueOut {y1} (h : o.Leads s) : o.Leads (s.srvQueueOut y1) := .upd h
theorem State.Leads.srvLost {i} (h : o.Leads s) : o.Leads (s.srvLost i) := .srvQueueOut (.srvUpd h)

theorem State.Leads.kvPageLost {i} (h : o.Leads s) : o.Leads (s.kvPageLost i) :=
  .ite (.srvLost (.srvUpd h)) (.srvUpd h)

theorem State.Leads.rmw {a n f} (h : o.Leads s) : o.Leads (s.rmw a n f).2 := by
  unfold State.rmw
  extract_lets -lift
  split
  · next e => exact State.Leads.snd_of_eq (.load h) e
  · next e => exact .writeMem (State.Leads.snd_of_eq (.load h) e)

theorem State.Leads.ownerLoses {atom a} (h : o.Leads s) : o.Leads (s.ownerLoses atom a) := by
  unfold State.ownerLoses
  split
  · exact .cntMod (.raise (.kvPageLost h))
  · extract_lets -lift
    split
    · next e => exact .raise (State.Leads.snd_of_eq (.rmw h) e)
  · exact h

theorem State.Leads.ueEnd {atom n} (h : o.Leads s) : o.Leads (s.ueEnd atom n) := by
  unfold State.ueEnd
  split
  · exact .ueDone (.resvLost h)
  · exact .ueDone (.raise h)
  · exact .ueDone (.ownerLoses h)

theorem State.Answers.ueHandling {atom t} (h : o.Leads s) : o.Answers (execUeHandling atom t s) := by
  unfold execUeHandling
  extract_lets -lift s1 _ _ _ _ _ s7 _ s9
  have hs1 : o.Leads s1 := .at h
  have hs7 : o.Leads s7 := .upd hs1
  have hs9 : o.Leads s9 := .upd hs7
  split
  · exact .next hs1
  · split
    · exact .ite (.next (.ueEnd hs1)) (.next hs1)
    · exact .ite (.next (.sendPacket hs9)) (.next (.ueEnd hs1))

theorem State.LeadsOptSnd2.takeInbox {p} (h : o.Leads s) : o.LeadsOptSnd2 (s.takeInbox p) := by
  unfold State.takeInbox
  split
  · exact .none
  · exact .some (.freeSlots (.upd h))

theorem State.Leads.mirrorEntry {i w} (h : o.Leads s) : o.Leads (s.mirrorEntry i w) := .upd (.srvTouch h)

theorem State.Answers.mirrorRepairResponse {t} (h : o.Leads s) : o.Answers (execMirrorRepairResponse t s) := by
  unfold execMirrorRepairResponse
  extract_lets -lift s1
  have hs1 : o.Leads s1 := .at h
  split
  · exact .next hs1
  next e9 =>
    have he9 := State.LeadsOptSnd2.of_eq (.takeInbox hs1) e9
    split
    · exact .next he9
    · extract_lets -lift _ _ _ s18 s19
      have hs18 : o.Leads s18 := .mirrorEntry (.resvWrite he9)
      have hs19 : o.Leads s19 := .writeMem he9
      split
      · exact .next (.ueEnd he9)
      · split
        · exact .next (.ueDone he9)
        · split
          · exact .next (.ueDone (.raise hs18))
          · exact .next (.ueDone (.raise hs19))

/-! ### Module DMA (chapter 12) -/

theorem State.Leads.updCtx {c f} (h : o.Leads s) : o.Leads (s.updCtx c f) := .upd h

theorem State.Leads.startDescs {c} (h : o.Leads s) : o.Leads (s.startDescs c) := by
  unfold State.startDescs
  refine .iter h fun _ h4 => ?_
  split
  · exact h4
  · extract_lets -lift
    split
    · exact h4
    · split
      · exact h4
      · split
        next e23 =>
          have he23 := State.Leads.snd2_of_eq (by
              split
              · next e => exact State.Leads.snd_of_eq (.accessRecord h4) e
              next e30 =>
                have he30 := State.Leads.snd_of_eq (.accessRecord h4) e30
                split
                · next e => exact State.Leads.snd_of_eq (.loadNum he30) e
                · next e => exact (State.Leads.snd_of_eq (.loadNum he30) e)) e23
          exact .ite he23 (.updCtx (.ite (.logDecision he23) he23))

theorem State.Leads.startAll (h : o.Leads s) : o.Leads s.startAll := .foldl h (fun _ _ h1 => .startDescs h1)

theorem State.LeadsOpt.placeList (h : o.Leads s) : o.LeadsOpt s.placeList := by
  unfold State.placeList
  split
  · exact .none
  · split
    · exact .none
    · exact .some (.startAll (.upd h))

theorem State.Answers.dmaListStart {t} (h : o.Leads s) : o.Answers (execDmaListStart t s) :=
  .next (State.LeadsOpt.getD (.placeList (.at h)) (.at h))

theorem State.Leads.updRun {c i f} (h : o.Leads s) : o.Leads (s.updRun c i f) := .updCtx h
theorem State.Leads.updEngine {e f} (h : o.Leads s) : o.Leads (s.updEngine e f) := .upd h
theorem State.Leads.endList {c x st} (h : o.Leads s) : o.Leads (s.endList c x st) := .startAll (.upd h)

theorem State.Leads.runDone {c i} (h : o.Leads s) : o.Leads (s.runDone c i) := by
  unfold State.runDone
  split
  · extract_lets -lift _ s8 s9 s10 _ s12 _ s14
    have hs8 : o.Leads s8 := .traceCentral h
    have hs9 : o.Leads s9 := .updEngine hs8
    have hs10 : o.Leads s10 := .cntMod hs9
    have hs12 : o.Leads s12 := .ite hs10 (.ite (.soSignal hs10) (.soBlocked hs10))
    have hs14 : o.Leads s14 := .updCtx hs12
    exact .ite (.updRun (.updEngine hs8)) (.ite (.endList hs14) (.startAll hs14))
  · exact h

theorem State.Leads.cqReserve {tenant cq} (h : o.Leads s) : o.Leads (s.cqReserve tenant cq).2 := by
  unfold State.cqReserve
  split
  · next e => exact State.Leads.snd_of_eq (.accessRecord h) e
  next e7 =>
    have he7 := State.Leads.snd_of_eq (.accessRecord h) e7
    split
    · next e => exact State.Leads.snd_of_eq (.loadNum he7) e
    next e14 =>
      have he14 := State.Leads.snd_of_eq (.loadNum he7) e14
      extract_lets -lift
      split
      · split
        · next e => exact State.Leads.snd_of_eq (.rmw he14) e
      · exact he14

theorem State.Leads.runFail {c i st} (h : o.Leads s) : o.Leads (s.runFail c i st) := .updRun h

theorem State.Leads.runRecord {c i} (h : o.Leads s) : o.Leads (s.runRecord c i) := by
  unfold State.runRecord
  split
  · extract_lets -lift
    split
    · exact .runDone h
    · split
      · next e => exact .runDone (.runFail (State.Leads.snd_of_eq (.cqReserve h) e))
      next e16 =>
        have he16 := State.Leads.snd_of_eq (.cqReserve h) e16
        exact .ite he16 (.cntMod (.updRun he16))
      next e23 =>
        have he23 := State.Leads.snd_of_eq (.cqReserve h) e23
        extract_lets -lift
        split
        · exact .runDone (.hostWrite he23)
        · split
          · next e => exact .runDone (.runFail (State.Leads.snd_of_eq (.accessRecord he23) e))
          · next e => exact .runDone (.writeMem (State.Leads.snd_of_eq (.accessRecord he23) e))
  · exact h

theorem State.LeadsOpt.tryReq {c i owner ptype y5 b tenant loc len aop data} (h : o.Leads s) :
    o.LeadsOpt (s.tryReq c i owner ptype y5 b tenant loc len aop data) := by
  unfold State.tryReq
  split
  · exact .some (.noRouteFault (.runFail h))
  · exact .ite .none (.some (.updRun (.sendReq h)))

theorem State.Leads.askTable {c i tenant dst header ns} (h : o.Leads s) :
    o.Leads (s.askTable c i tenant dst header ns) := by
  unfold State.askTable
  split
  · refine .foldl h fun _ _ h11 => ?_
    split
    · next e => exact State.LeadsOpt.of_eq (.tryReq h11) e
    · exact h11

theorem State.LeadsOpt.resolve {c i tenant r} (h : o.Leads s) : o.LeadsOpt (s.resolve c i tenant r) := by
  unfold State.resolve
  extract_lets d side
  have hside : ∀ dst n, o.LeadsOpt (side dst n) := by
    intro dst n
    dsimp only [side]
    split
    · exact .none
    · exact .some (.askTable h)
    · exact .some (.runFail h)
  exact .orElse (.ite .none (hside _ _)) (hside _ _)

theorem State.Leads.runStage {c i st} (h : o.Leads s) : o.Leads (s.runStage c i st) := .updRun h

theorem State.Leads.readPieces {c i tenant ps} (h : o.Leads s) : o.Leads (State.readPieces c i tenant ps s) := by
  induction ps generalizing s with
  | nil => exact h
  | cons p ps ih =>
    rw [State.readPieces]
    split
    · exact .ite h (ih (.updRun (.hostFetch h)))
    · split
      · exact h
      · split
        · next e => exact .runFail (.snd_of_eq (.accessRecord h) e)
        · next e =>
          have h1 := State.Leads.snd_of_eq (.accessRecord h) e
          split
          · next e => exact .runFail (.snd_of_eq (.engineRead h1) e)
          · next e => exact ih (.updRun (.snd_of_eq (.engineRead h1) e))
    · split
      · exact h
      · next e =>
        have h1 := State.LeadsOpt.of_eq (.tryReq h) e
        exact .ite h1 (ih (.updRun h1))

theorem State.Leads.redadd {a vs} (h : o.Leads s) : o.Leads (s.redadd a vs).2.2.2 := by
  induction vs generalizing s a with
  | nil => exact h
  | cons v vs ih =>
    rw [State.redadd]
    split
    · next e => exact .snd_of_eq (.rmw h) e
    · next e => exact ih (.upd (.snd_of_eq (.rmw h) e))

theorem State.Leads.addPieces {c i tenant bf16 ps data} (h : o.Leads s) :
    o.Leads (State.addPieces c i tenant bf16 ps data s) := by
  induction ps generalizing s data with
  | nil => exact h
  | cons p ps ih =>
    rw [State.addPieces]
    split
    · split
      · exact h
      · split
        · next e => exact .runFail (.snd_of_eq (.accessRecord h) e)
        · next e =>
          have h1 := State.Leads.snd_of_eq (.accessRecord h) e
          have h2 := fun vs => State.Leads.redadd (a := p.addr) (vs := vs) h1
          exact .ite (ih (.updEngine (.updRun (h2 _)))) (.runFail (.updEngine (.updRun (h2 _))))
    · split
      · exact h
      · next e =>
        have h1 := State.LeadsOpt.of_eq (.tryReq h) e
        exact .ite h1 (ih (.updEngine (.updRun h1)))
    · exact h

theorem State.Leads.writePieces {c i tenant ps data} (h : o.Leads s) :
    o.Leads (State.writePieces c i tenant ps data s) := by
  induction ps generalizing s data with
  | nil => exact h
  | cons p ps ih =>
    rw [State.writePieces]
    split
    · exact .ite h (ih (.updEngine (.updRun (.hostWrite h))))
    · split
      · exact h
      · split
        · next e => exact .runFail (.snd_of_eq (.accessRecord h) e)
        · next e =>
          have h1 := State.Leads.snd_of_eq (.accessRecord h) e
          split
          · next e => exact .runFail (.snd_of_eq (.engineWrite h1) e)
          · next e => exact ih (.updEngine (.updRun (.snd_of_eq (.engineWrite h1) e)))
    · split
      · exact h
      · next e =>
        have h1 := State.LeadsOpt.of_eq (.tryReq h) e
        exact .ite h1 (ih (.updEngine (.updRun h1)))

theorem State.Leads.runAdvance {c i} (h : o.Leads s) : o.Leads (s.runAdvance c i) := by
  unfold State.runAdvance
  extract_lets -lift f1 f2
  have hf1 : ∀ s4, o.Leads s4 → o.Leads (f1 s4) := by
    intro s4 h0f1
    unfold f1
    split
    · extract_lets -lift _ _ s13 s14
      have hs13 : o.Leads s13 := .ite (.runStage h0f1) h0f1
      have hs14 : o.Leads s14 := .readPieces hs13
      split
      · exact h0f1
      · split
        · next e => exact .ite (State.LeadsOpt.of_eq (.resolve h0f1) e) h0f1
        · split
          · exact .ite (.runStage hs14) hs14
          · exact hs14
    · exact h0f1
  have hf2 : ∀ s30, o.Leads s30 → o.Leads (f2 s30) := by
    intro s30 h0f2
    unfold f2
    split
    · extract_lets -lift _ _ _ s40 _ _ _ s44 s45
      have hs40 : o.Leads s40 := .updRun h0f2
      have hs44 : o.Leads s44 := .ite (.addPieces hs40) (.writePieces hs40)
      have hs45 : o.Leads s45 := .ite (.cntMod hs44) hs44
      split
      · exact h0f2
      · split
        · exact .ite (.runStage hs45) hs44
        · exact hs44
    · exact h0f2
  split
  · exact .ite (.runRecord (hf2 _ (hf1 _ h))) (hf2 _ (hf1 _ h))
  · exact hf2 _ (hf1 _ h)

theorem State.Leads.hostAnswer {c i hostErr mode} (h : o.Leads s) : o.Leads (s.hostAnswer c i hostErr mode) := by
  unfold State.hostAnswer
  split
  · exact .ite (.runFail h) h
  · exact h

theorem State.Leads.runOp {op c i hostErr} (h : o.Leads s) : o.Leads (s.runOp op c i hostErr) := by
  unfold State.runOp
  split
  · exact h
  · exact .ite (.runRecord h) (.ite h (.runAdvance (.hostAnswer h)))

theorem State.Answers.copy {c i t hostErr} (h : o.Leads s) : o.Answers (execCopy c i t hostErr s) :=
  .next (.runOp (.at h))

theorem State.Answers.fill {c i t} (h : o.Leads s) : o.Answers (execFill c i t s) := .next (.runOp (.at h))

theorem State.Leads.putOld {c i tenant r} (h : o.Leads s) : o.Leads (s.putOld c i tenant r) := by
  unfold State.putOld
  extract_lets -lift
  split
  · exact .runRecord h
  · split
    · split
      · exact h
      · split
        · next e => exact .runRecord (.runFail (State.Leads.snd_of_eq (.accessRecord h) e))
        next e15 =>
          have he15 := State.Leads.snd_of_eq (.accessRecord h) e15
          split
          · next e => exact .runRecord (.runFail (State.Leads.snd_of_eq (.engineWrite he15) e))
          · next e => exact .runRecord (State.Leads.snd_of_eq (.engineWrite he15) e)
    · split
      · exact .ite (.runRecord h) h
      · split
        · split
          · exact h
          next e36 =>
            have he36 := State.LeadsOpt.of_eq (.tryReq h) e36
            exact .ite (.runRecord (.updRun he36)) (.updRun he36)
    · exact .ite h (.runRecord (.hostWrite h))

theorem State.Answers.atomic {c i t} (h : o.Leads s) : o.Answers (execAtomic c i t s) := by
  unfold execAtomic
  extract_lets -lift s1
  have hs1 : o.Leads s1 := .at h
  split
  · extract_lets -lift
    split
    · exact .next hs1
    · split
      · exact .next (.ite (.runRecord hs1) hs1)
      · split
        · exact .next hs1
        · split
          · exact .next (.putOld hs1)
          · split
            · exact .next hs1
            · split
              · split
                · split
                  · exact .next hs1
                  next e30 =>
                    have he30 := State.LeadsOpt.of_eq (.tryReq hs1) e30
                    exact .next (.ite (.runRecord (.runStage he30)) (.runStage he30))
              · split
                · exact .next hs1
                · split
                  · next e => exact .next (.runRecord (.runFail (State.Leads.snd_of_eq (.accessRecord hs1) e)))
                  next e40 =>
                    have he40 := State.Leads.snd_of_eq (.accessRecord hs1) e40
                    split
                    · next e => exact .next (.runRecord (.runFail (State.Leads.snd_of_eq (.rmw he40) e)))
                    next e47 =>
                      have he47 := State.Leads.snd_of_eq (.rmw he40) e47
                      extract_lets -lift s48 s49
                      have hs48 : o.Leads s48 := .updEngine (.updRun he47)
                      have hs49 : o.Leads s49 := .runStage hs48
                      refine .next ?_
                      split
                      · exact .putOld hs49
                      · exact hs49
  · exact .next hs1

theorem State.Answers.redadd {c i t hostErr} (h : o.Leads s) : o.Answers (execRedadd c i t hostErr s) :=
  .next (.runOp (.at h))

theorem State.Leads.judgeBack {c i bs} (h : o.Leads s) : o.Leads (s.judgeBack c i bs) := by
  unfold State.judgeBack
  split
  · exact h
  · exact .runRecord (.ite (.cntMod (.runFail h)) h)

theorem State.Answers.dmaReadbackDone {c i t hostErr} (h : o.Leads s) :
    o.Answers (execDmaReadbackDone c i t hostErr s) := by
  unfold execDmaReadbackDone
  extract_lets -lift s1
  have hs1 : o.Leads s1 := .at h
  split
  · split
    · exact .ite (.next hs1) (.ite (.next (.runRecord hs1)) (.next (.judgeBack hs1)))
    · split
      · exact .next hs1
      · split
        · exact .next (.runRecord hs1)
        · split
          · exact .ite (.next (.runRecord (.runFail hs1))) (.ite (.next hs1) (.next (.judgeBack (.hostFetch hs1))))
          · split
            · exact .next (.judgeBack hs1)
            · split
              · exact .next hs1
              · split
                · next e => exact .next (.runRecord (.runFail (State.Leads.snd_of_eq (.load hs1) e)))
                · next e => exact .next (.judgeBack (State.Leads.snd_of_eq (.load hs1) e))
          · split
            · exact .next hs1
            next e41 =>
              have he41 := State.LeadsOpt.of_eq (.tryReq hs1) e41
              exact .next (.ite (.runRecord (.runStage he41)) (.runStage he41))
  · exact .next hs1

theorem State.Answers.cqReserveRetry {c i t} (h : o.Leads s) : o.Answers (execCqReserveRetry c i t s) := by
  unfold execCqReserveRetry
  extract_lets -lift s1
  have hs1 : o.Leads s1 := .at h
  split
  · exact .next hs1
  · exact .ite (.next hs1) (.ite (.next (.runDone (.updRun (.logDecision hs1)))) (.next (.runRecord hs1)))

theorem State.Answers.dmaDescFail {c i t} (h : o.Leads s) : o.Answers (execDmaDescFail c i t s) := by
  unfold execDmaDescFail
  extract_lets -lift s1 s2
  have hs1 : o.Leads s1 := .at h
  have hs2 : o.Leads s2 := by
    unfold s2
    split
    · exact .ite (.runRecord hs1) hs1
    · exact hs1
  split
  · exact .ite (.next hs2) (.next (.endList hs2))
  · exact .next hs2

theorem State.Answers.unitOp {u sop so v run} (h : o.Leads s) (hrun : ∀ s, o.Leads s → o.Leads (run s)) :
    o.Answers (s.unitOp u sop so v run) := by
  unfold State.unitOp
  split
  · split
    · exact .ite (.sync h) (.next h)
    · exact .next h
  · split
    · exact .next h
    · exact .ite (.next (hrun _ h)) (.next (.ite (.soBlocked h) (.wake (.soBlocked h))))

theorem State.Answers.soSignal {u so v} (h : o.Leads s) : o.Answers (execSoSignal u so v s) :=
  .unitOp h (fun _ h1 => .soSignal h1)

theorem State.Leads.unitWait {u so v dec} (h : o.Leads s) : o.Leads (s.unitWait u so v dec) := by
  unfold State.unitWait
  split
  · next e => exact .wake (State.LeadsWait.passed_of_eq (.soWait h) e)
  · next e => exact State.LeadsWait.waits_of_eq (.soWait h) e

theorem State.Answers.soWait {u so v} (h : o.Leads s) : o.Answers (execSoWait u so v s) :=
  .unitOp h (fun _ h1 => .unitWait h1)

theorem State.Answers.soWaitDec {u so v} (h : o.Leads s) : o.Answers (execSoWaitDec u so v s) :=
  .unitOp h (fun _ h1 => .unitWait h1)

theorem State.Answers.soSet {u so v} (h : o.Leads s) : o.Answers (execSoSet u so v s) :=
  .unitOp h (fun _ h1 => .soSet h1)

theorem State.Answers.soDec {u so v} (h : o.Leads s) : o.Answers (execSoDec u so v s) :=
  .unitOp h (fun _ h1 => .soDec h1)

theorem State.Answers.barOp {t exec sop g} (h : o.Leads s) : o.Answers (s.barOp t exec sop g) := by
  unfold State.barOp
  split
  · exact .ite (.sync h) (.next h)
  · exact .next h

theorem State.Answers.bar {t exec g} (h : o.Leads s) : o.Answers (execBar t exec g s) := .barOp h
theorem State.Answers.barArrive {t exec g} (h : o.Leads s) : o.Answers (execBarArrive t exec g s) := .barOp h
theorem State.Answers.barWait {t exec g} (h : o.Leads s) : o.Answers (execBarWait t exec g s) := .barOp h

theorem State.Answers.waiterRetry {u} (h : o.Leads s) : o.Answers (execWaiterRetry u s) := by
  unfold execWaiterRetry
  split
  · exact .next h
  · exact .ite (.next (.wake (.soBlocked (.cntMod (.upd h))))) (.next (.unitWait (.cntMod (.upd h))))

/-! ### Serving engine (chapters 14 and 15) -/

theorem State.Leads.srvTook {q x w} (h : o.Leads s) : o.Leads (s.srvTook q x w) := by
  unfold State.srvTook
  split
  next e4 =>
    have he4 := State.Leads.snd_of_eq (.peekEntry h) e4
    extract_lets -lift s5 _ s7 s8
    have hs5 : o.Leads s5 := .updHwq he4
    have hs7 : o.Leads s7 := .upd hs5
    have hs8 : o.Leads s8 := .logDecision (.cntMod hs7)
    exact .ite (.writeShadow hs8) hs8

theorem State.Leads.srvTake {p f} (h : o.Leads s) (hf : ∀ z1 z2 z3 s, o.Leads s → o.Leads (f z1 z2 z3 s)) :
    o.Leads (s.srvTake p f) := by
  unfold State.srvTake
  split
  · exact h
  · split
    · exact h
    · exact .ite h (hf _ _ _ _ (.srvTook h))

theorem State.Leads.srvResult {tenant w st idx} (h : o.Leads s) : o.Leads (s.srvResult tenant w st idx) :=
  .ite (.ite h (.raise h)) (.hostWrite h)

theorem State.Leads.kvTake {geo entry use n} (h : o.Leads s) : o.Leads (s.kvTake geo entry use n).2 := by
  unfold State.kvTake
  extract_lets -lift
  split
  · split
    · exact h
    · exact .upd h

theorem State.LeadsOptSnd.ptCreate {geo i} (h : o.Leads s) : o.LeadsOptSnd (s.ptCreate geo i) := by
  unfold State.ptCreate
  extract_lets -lift
  split
  · next e => exact .some (.kvPut (State.Leads.snd_of_eq (.kvTake h) e))
  · exact .none

theorem State.Leads.ptPrepared {tenant geo pt} (h : o.Leads s) : o.Leads (s.ptPrepared tenant geo pt).2 := by
  unfold State.ptPrepared
  split
  · next e => exact State.Leads.snd_of_eq (.accessRecord h) e
  next e7 =>
    have he7 := State.Leads.snd_of_eq (.accessRecord h) e7
    split
    · next e => exact State.Leads.snd_of_eq (.loadNum he7) e
    next e14 =>
      have he14 := State.Leads.snd_of_eq (.loadNum he7) e14
      extract_lets -lift
      split
      · exact he14
      · split
        · next e => exact State.Leads.snd_of_eq (.accessRecord he14) e
        next e25 =>
          have he25 := State.Leads.snd_of_eq (.accessRecord he14) e25
          split
          · next e => exact State.Leads.snd_of_eq (.loadNum he25) e
          · next e => exact State.Leads.snd_of_eq (.loadNum he25) e

theorem State.Leads.kvTakeSlot {geo stack nbu entry y5 page isV} (h : o.Leads s) :
    o.Leads (s.kvTakeSlot geo stack nbu entry y5 page isV).2 := by
  unfold State.kvTakeSlot
  split
  · exact h
  · exact .upd h

theorem State.Leads.kvWriteEntries {geo blk seg j k v} (h : o.Leads s) :
    o.Leads (s.kvWriteEntries geo blk seg j k v) :=
  .foldl h (fun _ _ h1 => .ite (.kvPut (.kvPut (.kvPut (.kvPut h1)))) (.kvPut (.kvPut h1)))

theorem State.LeadsExc.kvAllocHead {geo entry pt nseg i page} (h : o.Leads s) :
    o.LeadsExc (s.kvAllocHead geo entry pt nseg i page) := by
  have hblk : ∀ {s} (first : Prop) [Decidable first] seg n, o.Leads s → o.LeadsOptSnd (if first then
      match s.kvTake geo entry (.list i seg) n with
      | (some a, s) => some (a, s.kvPut entry a ((List.range (n / 16)).flatMap (fun _ => kvNull)))
      | (none, _) => none
      else (s.kv.areas.find? (fun a => a.entry == entry && a.use == .list i seg)).map (fun a => (a.base, s))) := by
    intro s first _ seg n h
    split
    · split
      · next s1 e => exact .some (.kvPut (State.Leads.snd_of_eq (s := s1) (.kvTake h) e))
      · exact .none
    · intro u e
      obtain ⟨a, -, rfl⟩ := Option.map_eq_some_iff.mp e
      exact h
  unfold State.kvAllocHead
  extract_lets seg prev first
  refine .ite .error ?_
  split
  · exact .error
  · extract_lets knbu
    clear_value knbu
    split
    · exact .error
    · split
      · exact .error
      · next s1 e =>
        have h1 := State.Leads.snd_of_eq (s := s1) (.kvTakeSlot h) e
        split
        · exact .error
        · split
          · exact .error
          · next s2 e =>
            have hb := hblk first seg (3 * kvLayers geo * kvSeg geo seg * 16)
              (State.Leads.snd_of_eq (s := s2) (.kvTakeSlot h1) e)
            extract_lets blk
            replace hb : o.LeadsOptSnd blk := hb
            clear_value blk
            split
            · exact .error
            · exact .ok (.kvPut (.kvWriteEntries (hb _ rfl)))

theorem State.LeadsExc.kvAllocPage_go {geo entry pt nseg page k i} (h : o.Leads s) :
    o.LeadsExc (State.kvAllocPage.go geo entry pt nseg page k i s) := by
  induction k generalizing s i with
  | zero => exact .ok h
  | succ k ih =>
    rw [State.kvAllocPage.go]
    split
    · next e => exact ih (State.LeadsExc.of_eq (.kvAllocHead h) e)
    · exact .error

theorem State.LeadsExc.kvAllocPage {geo entry pt nseg page} (h : o.Leads s) :
    o.LeadsExc (s.kvAllocPage geo entry pt nseg page) := by
  unfold State.kvAllocPage
  split
  · next e => exact .ok (.kvPut (State.LeadsExc.of_eq (.kvAllocPage_go h) e))
  · exact .error

theorem State.LeadsExc.kvAllocPages {geo entry pt nseg from_ upTo} (h : o.Leads s) :
    o.LeadsExc (s.kvAllocPages geo entry pt nseg from_ upTo) := by
  refine List.foldlRecOn (motive := o.LeadsExc) _ _ (.ok h) fun r hr i _ => ?_
  split
  · exact .kvAllocPage (hr _ rfl)
  · exact hr

theorem State.Leads.kvCopyOut {i image l} (h : o.Leads s) : o.Leads (State.kvCopyOut i image l s).2 := by
  induction l generalizing s with
  | nil => exact h
  | cons x r ih =>
    rw [State.kvCopyOut]
    split
    · next e => exact ih (.kvPut (.snd_of_eq (.load h) e))
    · next e => exact .snd_of_eq (.load h) e

theorem State.Leads.kvFreeImage {i} (h : o.Leads s) : o.Leads (s.kvFreeImage i) := .upd h
theorem State.Leads.ptSetPark {i pt park on} (h : o.Leads s) : o.Leads (s.ptSetPark i pt park on) := .kvPut (.kvPut h)
theorem State.Leads.kvFreePages {entry} (h : o.Leads s) : o.Leads (s.kvFreePages entry) := .upd h

theorem State.Leads.kvDropPages {geo i pt} (h : o.Leads s) : o.Leads (s.kvDropPages geo i pt) :=
  .kvPut (.kvFreePages h)

theorem State.LeadsOpt.kvParkNow {i} (h : o.Leads s) : o.LeadsOpt (s.kvParkNow i) := by
  unfold State.kvParkNow
  extract_lets -lift
  split
  · exact .none
  · split
    · exact .none
    · split
      · exact .none
      next e15 =>
        have he15 := State.Leads.snd_of_eq (.kvTake h) e15
        split
        · next e => exact .some (.kvPageLost (.kvFreeImage (State.Leads.snd_of_eq (.kvCopyOut he15) e)))
        · next e => exact .some (.ptSetPark (.kvDropPages (State.Leads.snd_of_eq (.kvCopyOut he15) e)))

theorem State.LeadsExc.kvAlloc_go {geo i pt nseg from_ upTo k} (h : o.Leads s) :
    o.LeadsExc (State.kvAlloc.go geo i pt nseg from_ upTo k s) := by
  induction k generalizing s with
  | zero => exact .error
  | succ k ih =>
    rw [State.kvAlloc.go]
    split
    · split
      · split
        · next e =>
          obtain ⟨v, -, hv⟩ := List.exists_of_findSome?_eq_some e
          exact ih (State.LeadsOpt.of_eq (.kvParkNow h) hv)
        · exact .error
      · exact .error
    · exact .kvAllocPages h

theorem State.LeadsExc.kvAlloc {geo i pt nseg from_ upTo} (h : o.Leads s) :
    o.LeadsExc (s.kvAlloc geo i pt nseg from_ upTo) := by
  unfold State.kvAlloc
  split
  · next e => exact .ok (.foldl (State.LeadsExc.of_eq (.kvAlloc_go h) e) (fun _ _ h4 => .pilRecord h4))
  · exact .kvAlloc_go h

theorem State.LeadsExc.srvOpen {tn w i geo shared} (h : o.Leads s) : o.LeadsExc (s.srvOpen tn w i geo shared) := by
  unfold State.srvOpen
  extract_lets -lift pt mk
  have hmk : ∀ p, mk = .ok p → o.Leads p.2 := by
    intro p e
    dsimp only [mk] at e
    split at e
    · split at e
      · next e2 => cases e; exact State.LeadsOptSnd.ptCreate (.srvPut h) _ e2
      · cases e
    · split at e
      · next e2 => cases e; exact .snd_of_eq (.ptPrepared h) e2
      · cases e
  clear_value mk
  split
  · exact .error
  · exact .ite .error (.kvAlloc (.srvPut (hmk _ rfl)))

theorem State.Leads.kvFail {pt} (h : o.Leads s) : o.Leads (s.kvFail pt) := .upd h
theorem State.Leads.kvFailed {e} (h : o.Leads s) : o.Leads (s.kvFailed e) := .kvFail h

theorem State.Answers.open {t} (h : o.Leads s) : o.Answers (execOpen t s) := by
  unfold execOpen
  refine .next ?_
  refine .srvTake (.at h) fun _ _ _ _ h9 => ?_
  extract_lets -lift f10
  have hf10 : ∀ a13 s14, o.Leads s14 → o.Leads (f10 a13 s14) := by
    intro a13 s14 h0f10
    unfold f10
    exact .srvResult h0f10
  split
  · exact hf10 _ _ h9
  · split
    · split
      · exact hf10 _ _ (.isolation h9)
      · split
        · exact hf10 _ _ h9
        · extract_lets -lift
          split
          · exact hf10 _ _ h9
          · split
            · exact .srvResult h9
            · split
              · exact hf10 _ _ h9
              · split
                · exact hf10 _ _ h9
                · split
                  · next e => exact .srvResult (State.LeadsExc.of_eq (.srvOpen h9) e)
                  · exact hf10 _ _ (.ite (.kvFailed h9) h9)
    · exact hf10 _ _ h9

theorem State.Leads.srvCommand {op ok f} (h : o.Leads s) (hf : ∀ z1 z2 z3 z4 s, o.Leads s → o.Leads
    (f z1 z2 z3 z4 s)) :
    o.Leads (s.srvCommand op ok f) := by
  unfold State.srvCommand
  refine .srvTake h fun _ _ _ _ h7 => ?_
  exact .ite (.srvResult h7) (.ite (.srvResult h7) (.ite (.srvResult (.srvTouch h7)) (hf _ _ _ _ _ (.srvTouch h7))))

theorem State.Leads.kvSumEntries {geo i pt summed} (h : o.Leads s) : o.Leads (s.kvSumEntries geo i pt summed) :=
  .foldl h (fun _ _ h1 => .foldl h1 (fun _ _ h2 => .kvPut h2))

theorem State.Leads.kvRewriteLists {geo i pt summed} (h : o.Leads s) :
    o.Leads (s.kvRewriteLists geo i pt summed) := by
  unfold State.kvRewriteLists
  extract_lets -lift _ s3
  have hs3 : o.Leads s3 := by
    unfold s3
    refine .foldl h fun _ _ h9 => ?_
    split
    · extract_lets -lift s15
      have hs15 : o.Leads s15 := .kvPut h9
      refine .foldl hs15 fun _ _ h20 => ?_
      split
      · exact .foldl h20 (fun _ _ h24 => .kvPut (.kvPut h24))
      · exact h20
    · exact h9
  exact .kvSumEntries hs3

theorem State.Leads.kvSummary {geo x l} (h : o.Leads s) : o.Leads (s.kvSummary geo x l).2 := by
  unfold State.kvSummary
  extract_lets -lift
  split
  · next e => exact State.Leads.snd_of_eq (.loadNum h) e
  next e9 =>
    have he9 := State.Leads.snd_of_eq (.loadNum h) e9
    split
    next e13 =>
      have he13 := State.Leads.snd_of_eq (.ite_snd (.loadNum he9) he9) e13
      split <;> exact he13

theorem State.Leads.kvSummarise {geo entry pt nseg page} (h : o.Leads s) :
    o.Leads (s.kvSummarise geo entry pt nseg page) := by
  unfold State.kvSummarise
  extract_lets -lift _ s3
  have hs3 : o.Leads s3 := by
    unfold s3
    refine .foldl h fun _ _ h8 => ?_
    split
    next e15 =>
      have he15 := State.Leads.snd_of_eq (.loadNum h8) e15
      refine .foldl he15 fun _ _ h20 => ?_
      split
      · next e => exact State.Leads.snd_of_eq (.kvSummary h20) e
      · next e => exact .upd (.kvPut (.kvPut (State.Leads.snd_of_eq (.kvSummary h20) e)))
    · exact h8
  exact .kvPut hs3

theorem State.Leads.kvSummarisePages {geo entry pt nseg from_ to_} (h : o.Leads s) :
    o.Leads (s.kvSummarisePages geo entry pt nseg from_ to_) := .foldl h (fun _ _ h1 => .kvSummarise h1)

theorem State.Answers.ready {t} (h : o.Leads s) : o.Answers (execReady t s) := by
  unfold execReady
  refine .next ?_
  refine .srvCommand (.at h) fun _ _ _ _ _ h10 => ?_
  extract_lets -lift
  split
  · exact .srvResult h10
  · extract_lets -lift s19
    have hs19 : o.Leads s19 := .ite (.kvRewriteLists h10) h10
    split
    · exact .srvResult (.kvFailed hs19)
    · next e => exact .srvResult (.srvUpd (.kvSummarisePages (State.LeadsExc.of_eq (.kvAlloc hs19) e)))

theorem State.Answers.credit {t} (h : o.Leads s) : o.Answers (execCredit t s) :=
  .next (.srvCommand (.at h) (fun _ _ _ _ _ h1 => .ite (.srvResult (.srvUpd h1)) (.srvResult h1)))

theorem State.Leads.srvPause {i ttl cmd} (h : o.Leads s) : o.Leads (s.srvPause i ttl cmd) := by
  unfold State.srvPause
  extract_lets -lift _ f2 f3
  have hf2 : ∀ a4 s5, o.Leads s5 → o.Leads (f2 a4 s5) := by
    intro a4 s5 h0f2
    unfold f2
    split
    · exact .srvResult h0f2
    · exact h0f2
  have hf3 : ∀ s11, o.Leads s11 → o.Leads (f3 s11) := by
    intro s11 h0f3
    unfold f3
    exact .srvUpd h0f3
  split
  · exact hf2 _ _ (hf3 _ h)
  · split
    · exact hf2 _ _ (hf3 _ h)
    · extract_lets -lift
      split
      · next e => exact hf2 _ _ (.srvUpd (State.Leads.snd_of_eq (.kvTake h) e))
      · next e => exact .srvUpd (.upd (State.Leads.snd_of_eq (.kvTake h) e))

theorem State.Answers.pause {t} (h : o.Leads s) : o.Answers (execPause t s) :=
  .next (.srvCommand (.at h) (fun _ _ _ _ _ h1 => .ite (.srvResult (.srvUpd h1)) (.srvPause h1)))

theorem State.Answers.resume {t} (h : o.Leads s) : o.Answers (execResume t s) := by
  unfold execResume
  refine .next ?_
  refine .srvCommand (.at h) fun _ _ _ _ _ h10 => ?_
  extract_lets -lift
  split
  · exact .srvResult h10
  · split
    · exact .srvResult (.srvUpd h10)
    · extract_lets -lift x20
      unfold x20
      split
      · exact .srvResult (.kvFailed h10)
      · next e => exact .upd (State.LeadsExc.of_eq (.ite (.ok h10) (.kvAlloc h10)) e)

theorem State.Leads.kvFreeAll {entry pt heads nseg} (h : o.Leads s) : o.Leads (s.kvFreeAll entry pt heads nseg) :=
  .ite (.upd (.kvFreePages h)) (.kvPut (.kvPut (.kvPut (.kvPut (.upd (.kvFreePages h))))))

theorem State.Leads.srvClose {i} (h : o.Leads s) : o.Leads (s.srvClose i) := by
  unfold State.srvClose
  extract_lets -lift _ _ s3 s4
  have hs3 : o.Leads s3 := .upd h
  have hs4 : o.Leads s4 := by
    unfold s4
    split
    · exact .kvFreeAll hs3
    · exact hs3
  exact .srvUpd hs4

theorem State.Answers.close {t} (h : o.Leads s) : o.Answers (execClose t s) :=
  .next (.srvCommand (.at h) (fun _ _ _ _ _ h1 => .ite (.srvResult (.srvUpd h1)) (.srvResult (.srvClose h1))))

theorem State.Answers.query {t} (h : o.Leads s) : o.Answers (execQuery t s) :=
  .next (.srvCommand (.at h) (fun _ _ _ _ _ h1 => .ite (.srvResult h1) (.hostWrite (.srvResult h1))))

theorem State.Answers.setPrio {t} (h : o.Leads s) : o.Answers (execSetPrio t s) :=
  .next (.srvCommand (.at h) (fun _ _ _ _ _ h1 => .srvResult (.srvUpd h1)))

theorem State.Answers.rebind {t} (h : o.Leads s) : o.Answers (execRebind t s) := by
  unfold execRebind
  split
  · exact .next (.at h)
  · refine .next ?_
    exact .srvCommand (.at h) (fun _ _ _ _ _ h6 => .ite (.srvResult h6) (.ite (.srvResult h6) (.srvResult
        (.srvUpd h6))))

theorem State.Leads.updCopy {i f} (h : o.Leads s) : o.Leads (s.updCopy i f) := .upd h

theorem State.Leads.kvPeerPump {geo i tenant c ps} (h : o.Leads s) : o.Leads (s.kvPeerPump geo i tenant c ps) := by
  unfold State.kvPeerPump
  extract_lets -lift
  refine .foldl h fun _ _ h8 => ?_
  extract_lets -lift f9
  have hf9 : ∀ a10 a11 s12, o.Leads s12 → o.Leads (f9 a10 a11 s12) := by
    intro a10 a11 s12 h0f9
    unfold f9
    exact .sendReq (.updCopy h0f9)
  split
  · exact hf9 _ _ _ h8
  · split
    · next e => exact hf9 _ _ _ (State.Leads.snd_of_eq (.load h8) e)
    · next e => exact .updCopy (State.Leads.snd_of_eq (.load h8) e)

theorem State.Leads.kvFromPeer {i c l} (h : o.Leads s) : o.Leads (State.kvFromPeer i c l s).2 := by
  induction l generalizing s with
  | nil => exact h
  | cons x r ih =>
    rw [State.kvFromPeer]
    split
    · exact ih (.kvPut h)
    · exact h

theorem State.Leads.kvCopyIn {i image l} (h : o.Leads s) : o.Leads (State.kvCopyIn i image l s).2 := by
  induction l generalizing s with
  | nil => exact h
  | cons x r ih =>
    rw [State.kvCopyIn]
    split
    · next e => exact ih (.kvPut (.snd_of_eq (.load h) e))
    · next e => exact .snd_of_eq (.load h) e

theorem State.Leads.kvCopyEnd {i c st} (h : o.Leads s) : o.Leads (s.kvCopyEnd i c st) := by
  unfold State.kvCopyEnd
  extract_lets -lift _ s2
  have hs2 : o.Leads s2 := .upd h
  split
  · exact .srvResult hs2
  · exact hs2

theorem State.Answers.parkCopyDone {i t} (h : o.Leads s) : o.Answers (execParkCopyDone i t s) := by
  unfold execParkCopyDone
  extract_lets -lift s1
  have hs1 : o.Leads s1 := .at h
  split
  · extract_lets -lift _ s11
    have hs11 : o.Leads s11 := .ite (.kvPeerPump hs1) hs1
    split
    · exact .next hs11
    · split
      next e18 =>
        have he18 := State.Leads.snd_of_eq (.ite_snd hs11 (.ite_snd (.ite_snd (.kvFromPeer hs11) hs11) (.ite_snd
            (.kvCopyIn hs11) (.kvCopyOut hs11)))) e18
        split
        · extract_lets -lift s20 s21
          have hs20 : o.Leads s20 := .ptSetPark (.kvFreeImage he18)
          have hs21 : o.Leads s21 := .kvSumEntries hs20
          exact .ite (.next (.kvCopyEnd (.srvUpd hs21))) (.next (.kvCopyEnd (.srvLost (.srvUpd hs20))))
        · split
          · exact .next (.kvCopyEnd (.srvUpd (.ptSetPark (.kvDropPages he18))))
          · exact .next (.kvCopyEnd (.kvPageLost (.kvFreeImage he18)))
  · exact .next hs1

theorem State.Answers.maxWaitExpiry {_model _stage t} (h : o.Leads s) :
    o.Answers (execMaxWaitExpiry _model _stage t s) := .next (.at h)

theorem State.Leads.srvFlush (h : o.Leads s) : o.Leads s.srvFlush := by
  unfold State.srvFlush
  refine .foldl h fun _ _ h5 => ?_
  split
  · exact h5
  · split
    · exact h5
    · exact .ite h5 (.upd (.updHwq (.writeMem h5)))

theorem State.Leads.srvLaunch {model stage m slot} (h : o.Leads s) : o.Leads (s.srvLaunch model stage m slot) := by
  unfold State.srvLaunch
  extract_lets -lift _ _ _ _ _ _ _ _ s13 _ s15 s16 s17 _ s19 _ _ s22 s23
  have hs13 : o.Leads s13 := .foldl h (fun _ _ h24 => .srvTouch h24)
  have hs15 : o.Leads s15 := .writeMem hs13
  have hs16 : o.Leads s16 := .foldl hs15 (fun _ _ h25 => .writeMem h25)
  have hs17 : o.Leads s17 := .foldl hs16 (fun _ _ h26 => .writeMem h26)
  have hs19 : o.Leads s19 := .foldl hs17 (fun _ _ h27 => .srvUpd h27)
  have hs22 : o.Leads s22 := .upd hs19
  have hs23 : o.Leads s23 := .traceCentral hs22
  exact .srvFlush (.cntMod (.cntMod (.logDecision hs23)))

theorem State.Answers.stepLaunch {model stage t} (h : o.Leads s) : o.Answers (execStepLaunch model stage t s) := by
  unfold execStepLaunch
  extract_lets -lift s1
  have hs1 : o.Leads s1 := .srvFlush (.at h)
  split
  · exact .next (.ite (.srvLaunch hs1) hs1)
  · exact .next hs1

theorem State.Leads.srvSettle {i next} (h : o.Leads s) : o.Leads (s.srvSettle i next) := by
  unfold State.srvSettle
  extract_lets -lift _ s2
  have hs2 : o.Leads s2 := .ite (.srvUpd h) (.ite h (.srvUpd h))
  exact .ite (.srvClose h) (.ite (.srvPause hs2) hs2)

theorem State.Leads.srvRetry {i row st step} (h : o.Leads s) : o.Leads (s.srvRetry i row st step) :=
  .ite (.srvSettle (.cntMod (.srvUpd h))) (.srvQueueOut h)

theorem State.Leads.srvToken {i row token logp step} (h : o.Leads s) :
    o.Leads (s.srvToken i row token logp step) := by
  -- the definition is opened through a variable: the kernel would else evaluate the page's address
  obtain ⟨f, hf⟩ : ∃ f, f = @State.srvToken := ⟨_, rfl⟩
  rw [← hf]
  delta State.srvToken at hf
  rw [congrFun (congrFun (congrFun (congrFun (congrFun (congrFun hf s) i) row) token) logp) step]
  extract_lets +onlyGivenNames e pos gen cause s1 page
  have h1 : o.Leads s1 := .srvUpd h
  clear_value s1
  have hpage : ∀ s, o.Leads s → o.Leads (page s).2 := by
    clear_value e pos
    intro s h
    dsimp only [page]
    split
    · refine .ite_snd h ?_
      split
      · next e =>
        have h2 := State.LeadsExc.of_eq (.kvAlloc h) e
        exact .snd (.ite (.kvSummarise h2) h2)
      · exact .snd (.ite (.kvSummarise (.snd (.kvFailed h))) (.snd (.kvFailed h)))
    · exact h
  clear_value page cause e pos gen
  split
  next e =>
  have h2 := State.Leads.snd_of_eq (hpage _ h1) e
  split
  · exact .srvQueueOut h2
  · exact .srvQueueOut h2

theorem State.Leads.srvRow {x m st row i} (h : o.Leads s) : o.Leads (s.srvRow x m st row i) := by
  unfold State.srvRow
  extract_lets -lift
  split
  · exact h
  · split
    · exact .srvClose h
    · split
      · exact .srvLost h
      · split
        · exact .srvRetry h
        · split
          · exact .srvSettle (.srvUpd h)
          · split
            · next e => exact .srvToken (State.Leads.snd_of_eq (.loadNum h) e)
            · next e => exact .srvRetry (State.Leads.snd_of_eq (.loadNum h) e)

theorem State.Answers.stepCompletion {step t} (h : o.Leads s) : o.Answers (execStepCompletion step t s) := by
  unfold execStepCompletion
  extract_lets -lift s1
  have hs1 : o.Leads s1 := .at h
  split
  · exact .next hs1
  · split
    · extract_lets -lift s16 _ s18
      have hs16 : o.Leads s16 := .foldl hs1 (fun _ _ h23 => .srvRow h23)
      have hs18 : o.Leads s18 := .ite hs16 (.twinSend hs16)
      exact .next (.srvSlotFree (.upd hs18))
    · exact .next hs1

theorem State.Leads.srvDropOut {i} (h : o.Leads s) : o.Leads (s.srvDropOut i) := .upd h
theorem State.Leads.updSrvTenant {t f} (h : o.Leads s) : o.Leads (s.updSrvTenant t f) := .upd h

theorem State.Answers.outputDescriptorWrite {i t} (h : o.Leads s) : o.Answers (execOutputDescriptorWrite i t s) := by
  unfold execOutputDescriptorWrite
  extract_lets -lift s1
  have hs1 : o.Leads s1 := .at h
  split
  · exact .next hs1
  · extract_lets -lift _ _ s11 s12 s13 s14 _ s16 _ s18 s19
    have hs11 : o.Leads s11 := .hostWrite hs1
    have hs12 : o.Leads s12 := .srvDropOut hs11
    have hs13 : o.Leads s13 := .srvUpd hs12
    have hs14 : o.Leads s14 := .updSrvTenant hs13
    have hs16 : o.Leads s16 := .ite hs13 (.cntMod (.upd hs14))
    have hs18 : o.Leads s18 := .srvUpd hs16
    have hs19 : o.Leads s19 := .ite (.ite (.srvClose hs18) hs18) (.srvSettle hs16)
    split
    · exact .next hs1
    · refine .next ?_
      split
      · exact .srvSlotFree hs19
      · exact hs19

theorem State.Answers.ringWriteError {i t} (h : o.Leads s) : o.Answers (execRingWriteError i t s) := by
  unfold execRingWriteError
  extract_lets -lift s1 _ _ s4 s5 s6
  have hs1 : o.Leads s1 := .at h
  have hs4 : o.Leads s4 := .upd hs1
  have hs5 : o.Leads s5 := .raise (.srvUpd hs4)
  have hs6 : o.Leads s6 := .ite (.srvClose hs5) hs5
  split
  · exact .next hs1
  · refine .next ?_
    split
    · exact .srvSlotFree hs6
    · exact hs6

theorem State.Answers.ttlExpiry {i t} (h : o.Leads s) : o.Answers (execTtlExpiry i t s) :=
  .ite (.next (.cntMod (.raise (.srvClose (.logDecision (.at h)))))) (.next (.at h))

theorem State.Answers.preemption {t cands rows} (h : o.Leads s) : o.Answers (execPreemption t cands rows s) := by
  unfold execPreemption
  extract_lets -lift s1
  have hs1 : o.Leads s1 := .at h
  split
  · exact .next hs1
  · split
    · split
      · exact .next hs1
      · split
        · next e => exact .next (State.Leads.snd_of_eq (.readTable hs1) e)
        next e23 =>
          have he23 := State.Leads.snd_of_eq (.readTable hs1) e23
          split
          · exact .next he23
          · split
            · exact .next he23
            · exact .next (.upd (.updNode (.foldl he23 (fun _ _ h31 => .tileStop h31))))
    · exact .next hs1

theorem State.Leads.cntAborts {n} (h : o.Leads s) : o.Leads (s.cntAborts n) := .upd h

theorem State.Answers.preemptTimeout {t} (h : o.Leads s) : o.Answers (execPreemptTimeout t s) := by
  unfold execPreemptTimeout
  extract_lets -lift s1
  have hs1 : o.Leads s1 := .at h
  split
  · exact .next hs1
  · split
    · exact .next hs1
    · exact .ite (.next hs1) (.next (.upd (.cntAborts (.foldl (.logDecision hs1) (fun _ _ h10 => .failNode h10)))))

theorem State.LeadsOpt.spillAlloc {p} (h : o.Leads s) : o.LeadsOpt (s.spillAlloc p) := by
  refine List.foldlRecOn (motive := o.LeadsOpt) _ _ (.some h) fun r hr t _ => ?_
  split
  · exact .none
  · extract_lets
    split
    · exact .some (.updNode (hr _ rfl))
    · exact .none

theorem State.LeadsOpt.spillAll {vs} (h : o.Leads s) : o.LeadsOpt (s.spillAll vs) := by
  refine List.foldlRecOn (motive := o.LeadsOpt) _ _ (.some h) fun r hr v _ => ?_
  cases r with
  | none => exact .none
  | some s => exact .spillAlloc (hr s rfl)

theorem State.Leads.spill_fit {k vs} (h : o.Leads s) : o.Leads (execSpill.fit k vs s).2 := by
  induction k generalizing s vs with
  | zero => exact h
  | succ k ih =>
    rw [execSpill.fit]
    split
    · next e => exact State.LeadsOpt.of_eq (.spillAll h) e
    · split
      · exact h
      · exact ih (.cntAborts (.failNode h))

theorem State.Leads.spillCopy {x} (h : o.Leads s) : o.Leads (s.spillCopy x).2 := by
  unfold State.spillCopy
  extract_lets -lift _ _ s4
  have hs4 : o.Leads s4 := .resvWrite h
  refine .foldl_snd hs4 fun _ _ h9 => ?_
  split
  · exact h9
  · split
    · next e => exact .resvWrite (State.Leads.snd_of_eq (.load h9) e)
    · next e => exact State.Leads.snd_of_eq (.load h9) e

theorem State.Leads.spillNode {p} (h : o.Leads s) : o.Leads (s.spillNode p) := by
  unfold State.spillNode
  split
  · exact h
  · split
    next e8 =>
      have he8 := State.Leads.snd_of_eq (by
          refine .foldl_snd h fun _ _ h14 => ?_
          split
          · exact h14
          · exact .spillCopy h14) e8
      exact he8
    next e23 =>
      have he23 := State.Leads.snd_of_eq (by
          refine .foldl_snd h fun _ _ h29 => ?_
          split
          · exact h29
          · exact .spillCopy h29) e23
      exact .failNode he23

theorem State.Answers.spill {t} (h : o.Leads s) : o.Answers (execSpill t s) := by
  unfold execSpill
  extract_lets -lift s1
  have hs1 : o.Leads s1 := .at h
  split
  · exact .next hs1
  · extract_lets -lift
    split
    · exact .next hs1
    · split
      next e13 =>
        have he13 := State.Leads.snd_of_eq (.spill_fit hs1) e13
        exact .next (.upd (.foldl he13 (fun _ _ h14 => .spillNode h14)))

theorem State.Leads.absorbTile {t} (h : o.Leads s) : o.Leads (s.absorbTile t) := .updTile (.ite (.finishDesc h) h)

theorem State.Answers.spillDone {t} (h : o.Leads s) : o.Answers (execSpillDone t s) := by
  unfold execSpillDone
  extract_lets -lift s1
  have hs1 : o.Leads s1 := .at h
  split
  · exact .next hs1
  · split
    · exact .next hs1
    · extract_lets -lift _ s14 _ _ s17
      have hs14 : o.Leads s14 := .foldl hs1 (fun _ _ h18 => .cntMod (.raise (.updNode (.foldl h18
          (fun _ _ h19 => .absorbTile h19)))))
      have hs17 : o.Leads s17 := .upd hs14
      exact .next (.noteReady (.cntMod hs17))

theorem State.Leads.restoreTile {x} (h : o.Leads s) : o.Leads (s.restoreTile x).2 := by
  unfold State.restoreTile
  split
  · next e => exact State.Leads.snd_of_eq (.load h) e
  next e7 =>
    have he7 := State.Leads.snd_of_eq (.load h) e7
    extract_lets -lift _ _ _ _ x13
    have hx13 : o.Leads x13.2 := by
      unfold x13
      refine .foldl_snd he7 fun _ _ h18 => ?_
      split
      · exact h18
      · split
        · next e => exact .writeMem (State.Leads.snd_of_eq (.load h18) e)
        · next e => exact State.Leads.snd_of_eq (.load h18) e
    exact hx13

theorem State.Leads.restart {x rcd d} (h : o.Leads s) : o.Leads (s.restart x rcd d) :=
  .ite (.tileResume (.updTile h)) (.startJob h)

theorem State.Answers.restoreDone {seq node t} (h : o.Leads s) : o.Answers (execRestoreDone seq node t s) := by
  unfold execRestoreDone
  extract_lets -lift s1
  have hs1 : o.Leads s1 := .at h
  split
  · exact .next hs1
  · extract_lets -lift
    split
    · exact .next hs1
    · split
      next e13 =>
        have he13 := State.Leads.snd_of_eq (by
            refine .foldl_snd hs1 fun _ _ h19 => ?_
            split
            · exact h19
            · split
              · next e => exact State.Leads.snd_of_eq (.restoreTile h19) e
              · next e => exact (State.Leads.snd_of_eq (.restoreTile h19) e)) e13
        split
        · exact .next (.failNode he13)
        · exact .next (.cntMod (.foldl (.noteDispatch (.spillClear he13)) (fun _ _ h36 => .restart h36)))

theorem State.Leads.slowTenant {t x} (h : o.Leads s) : o.Leads (s.slowTenant t x) :=
  .ite (.raise (.updSrvTenant h)) (.updSrvTenant h)

theorem State.Answers.slowdownWindowEnd {t} (h : o.Leads s) : o.Answers (execSlowdownWindowEnd t s) :=
  .ite (.next (.at h)) (.next (.foldl (.upd (.at h)) (fun _ _ h1 => .slowTenant h1)))

/-! ### Fabric (chapter 16) -/

theorem State.Leads.badPacket {port y2} (h : o.Leads s) : o.Leads (s.badPacket port y2) :=
  .ite (.suspectFault (.raise (.updPort h))) (.raise (.updPort h))

theorem State.Leads.receivePacket {port p} (h : o.Leads s) : o.Leads (s.receivePacket port p) :=
  .ite (.upd (.logInput h)) (.ite (.forward h) (.noRoute (.freeSlots h)))

theorem State.Leads.takeSlots {port n} (h : o.Leads s) : o.Leads (s.takeSlots port n) := by
  unfold State.takeSlots
  refine .iter h fun _ h4 => ?_
  split
  · exact h4
  · exact .updPort h4
  · exact .badPacket (.updPort h4)
  · exact .receivePacket (.updPort h4)

theorem State.Answers.flitReceived {port flit t} (h : o.Leads s) : o.Answers (execFlitReceived port flit t s) := by
  unfold execFlitReceived
  extract_lets -lift s1 _ _ s4 s5 _ _ _ s9
  have hs1 : o.Leads s1 := .at h
  have hs4 : o.Leads s4 := .updPort hs1
  have hs5 : o.Leads s5 := .updPort hs4
  have hs9 : o.Leads s9 := .ite hs5 (.takeSlots (.updPort hs5))
  exact .ite (.next hs1) (.ite (.next (.updPort hs1)) (.ite (.next (.updPort hs4)) (.next (.pumpFabric hs9))))

theorem State.LeadsOptSnd.takeRequest {ptype read n} (h : o.Leads s) :
    o.LeadsOptSnd (s.takeRequest ptype read n) := by
  unfold State.takeRequest
  split
  · exact .none
  · next e => exact .ite (.some (.logArb (State.LeadsOptSnd2.of_eq (.takeInbox h) e))) .none

theorem State.Leads.remoteAccess {q write n} (h : o.Leads s) : o.Leads (s.remoteAccess q write n).2 :=
  .ite_snd (.isolation h) (.accessRecord h)

theorem State.Leads.respond {q ptype loc data} (h : o.Leads s) : o.Leads (s.respond q ptype loc data) := .sendPacket h
theorem State.Leads.refuse {q st} (h : o.Leads s) : o.Leads (s.refuse q st) := .respond h
theorem State.Leads.twinRead {a n} (h : o.Leads s) : o.Leads (s.twinRead a n).2 := .ite_snd h (.load h)

theorem State.Answers.pktRd {t} (h : o.Leads s) : o.Answers (execPktRd t s) := by
  unfold execPktRd
  extract_lets -lift s1
  have hs1 : o.Leads s1 := .at h
  split
  · exact .next hs1
  next e7 =>
    have he7 := State.LeadsOptSnd.of_eq (.takeRequest hs1) e7
    split
    · next e => exact .next (.refuse (State.Leads.snd_of_eq (.ite_snd he7 (.remoteAccess he7)) e))
    next e14 =>
      have he14 := State.Leads.snd_of_eq (.ite_snd he7 (.remoteAccess he7)) e14
      split
      next e18 =>
        have he18 := State.Leads.snd_of_eq (by
            split
            · exact .twinRead he14
            · exact .load he14) e18
        exact .next (.respond he18)
      next e23 =>
        have he23 := State.Leads.snd_of_eq (by
            split
            · exact .twinRead he14
            · exact .load he14) e23
        exact .next (.refuse he23)

theorem State.Leads.setAc {n x} (h : o.Leads s) : o.Leads (s.setAc n x) := .upd h

theorem State.Leads.acAdd {k n} (h : o.Leads s) : o.Leads (s.acAdd k n) := by
  unfold State.acAdd
  extract_lets -lift
  split
  · extract_lets -lift s13 s14
    have hs13 : o.Leads s13 := .setAc h
    have hs14 : o.Leads s14 := .ite (.raise hs13) hs13
    exact .ite (.iter hs14 (fun _ h15 => .ite (.soSignal (.cntMod h15)) (.soBlocked (.cntMod h15)))) hs14

theorem State.Leads.arrive {berth tenant a n} (h : o.Leads s) : o.Leads (s.arrive berth tenant a n) :=
  .foldl h (fun _ _ h1 => .ite h1 (.ite (.isolation h1) (.acAdd h1)))

theorem State.Answers.pktWr {t} (h : o.Leads s) : o.Answers (execPktWr t s) := by
  unfold execPktWr
  extract_lets -lift s1
  have hs1 : o.Leads s1 := .at h
  split
  · exact .next hs1
  next e7 =>
    have he7 := State.LeadsOptSnd.of_eq (.takeRequest hs1) e7
    split
    · next e => exact .next (.refuse (State.Leads.snd_of_eq (.remoteAccess he7) e))
    next e14 =>
      have he14 := State.Leads.snd_of_eq (.remoteAccess he7) e14
      exact .next (.ite (.refuse (.writeMem he14)) (.respond (.arrive (.writeMem he14))))

theorem State.Answers.pktAtomic {t} (h : o.Leads s) : o.Answers (execPktAtomic t s) := by
  unfold execPktAtomic
  extract_lets -lift s1
  have hs1 : o.Leads s1 := .at h
  split
  · exact .next hs1
  next e8 =>
    have he8 := State.LeadsOptSnd.of_eq (.takeRequest hs1) e8
    extract_lets -lift
    split
    · exact .next (.refuse he8)
    · split
      · exact .next (.refuse he8)
      · split
        · next e => exact .next (.refuse (State.Leads.snd_of_eq (.remoteAccess he8) e))
        next e21 =>
          have he21 := State.Leads.snd_of_eq (.remoteAccess he8) e21
          split
          · exact .next (.refuse he21)
          · split
            · next e => exact .next (.respond (State.Leads.snd_of_eq (.rmw he21) e))
            · next e => exact .next (.refuse (State.Leads.snd_of_eq (.rmw he21) e))

theorem State.Answers.pktRedadd {t} (h : o.Leads s) : o.Answers (execPktRedadd t s) := by
  unfold execPktRedadd
  extract_lets -lift s1
  have hs1 : o.Leads s1 := .at h
  split
  · exact .next hs1
  next e9 =>
    have he9 := State.LeadsOptSnd.of_eq (.takeRequest hs1) e9
    split
    · exact .next (.refuse he9)
    · split
      · next e => exact .next (.refuse (State.Leads.snd_of_eq (.remoteAccess he9) e))
      next e18 =>
        have he18 := State.Leads.snd_of_eq (.remoteAccess he9) e18
        split
        · exact .next (.refuse he18)
        · exact .next (.ite (.respond (.ite (.redadd he18) (.arrive (.redadd he18)))) (.refuse (.ite
              (.redadd he18) (.arrive (.redadd he18)))))

theorem State.Leads.tileAnswer {t id off b} (h : o.Leads s) : o.Leads (s.tileAnswer t id off b) := by
  unfold State.tileAnswer
  split
  · exact h
  · extract_lets -lift f6
    have hf6 : ∀ s8 a9, o.Leads s8 → o.Leads (f6 s8 a9) := by
      intro s8 a9 h0f6
      unfold f6
      exact .updTile h0f6
    split
    · exact .ite (hf6 _ _ h) (.writeMem (hf6 _ _ h))
    · exact hf6 _ _ h
    · exact hf6 _ _ (hf6 _ _ h)

theorem State.Leads.dmaAnswer {c i len y4 b} (h : o.Leads s) : o.Leads (s.dmaAnswer c i len y4 b) := by
  unfold State.dmaAnswer
  extract_lets -lift s1
  have hs1 : o.Leads s1 := .updRun h
  split
  · exact .runFail hs1
  · exact .updRun hs1
  · exact .updRun hs1
  · exact .updRun hs1
  · exact .updRun hs1
  · split
    · exact hs1
    · exact .ite (.updRun (.upd hs1)) (.updRun hs1)
  · exact hs1

theorem State.Leads.answered {y1 len b} (h : o.Leads s) : o.Leads (s.answered y1 len b) := by
  unfold State.answered
  split
  · exact .tileAnswer h
  · exact .dmaAnswer h
  · exact .dmaAnswer h
  · exact .dmaAnswer h
  · exact .dmaAnswer h
  · exact .dmaAnswer h
  · exact .dmaAnswer h
  · exact .dmaAnswer h
  · exact .updCopy h
  · exact .updMove h

theorem State.Leads.takeResponse {ptype b} (h : o.Leads s) : o.Leads (s.takeResponse ptype b) := by
  unfold State.takeResponse
  split
  · exact h
  next e7 =>
    have he7 := State.LeadsOptSnd2.of_eq (.takeInbox h) e7
    split
    · exact .ite he7 (.upd he7)
    · extract_lets -lift _ s14 s15
      have hs14 : o.Leads s14 := .upd he7
      have hs15 : o.Leads s15 := by
        unfold s15
        split
        · exact .noRouteFault hs14
        · exact hs14
        · exact hs14
      exact .answered hs15

theorem State.Answers.rspData {t} (h : o.Leads s) : o.Answers (execRspData t s) := .next (.takeResponse (.at h))
theorem State.Answers.rspAck {t} (h : o.Leads s) : o.Answers (execRspAck t s) := .next (.takeResponse (.at h))
theorem State.Answers.rspErr {t} (h : o.Leads s) : o.Answers (execRspErr t s) := .next (.takeResponse (.at h))

theorem State.Answers.mgt {t} (h : o.Leads s) : o.Answers (execMgt t s) := by
  unfold execMgt
  extract_lets -lift s1
  have hs1 : o.Leads s1 := .at h
  split
  · exact .next hs1
  next e8 =>
    have he8 := State.LeadsOptSnd2.of_eq (.takeInbox hs1) e8
    exact .next (.ite (.submit he8) he8)

theorem State.Leads.mirrorMove {table i ep e} (h : o.Leads s) : o.Leads (s.mirrorMove table i ep e) := by
  unfold State.mirrorMove
  extract_lets -lift _ _ _ s4
  have hs4 : o.Leads s4 := by
    unfold s4
    split
    · split
      · next e => exact .writeMem (State.Leads.snd_of_eq (.load h) e)
      · next e => exact State.Leads.snd_of_eq (.load h) e
    · exact h
  exact .writeMem (.writeMem hs4)

theorem State.Leads.twinApply {m} (h : o.Leads s) : o.Leads (s.twinApply m).2 := by
  unfold State.twinApply
  extract_lets -lift
  split
  · exact .dropMem h
  · exact .mirrorEntry h
  · exact .writeMem h
  · exact .mirrorMove h
  · exact h

theorem State.Leads.twinTake {m} (h : o.Leads s) : o.Leads (s.twinTake m) := by
  unfold State.twinTake
  split
  · next e => exact .updTwin (State.Leads.snd_of_eq (.twinApply h) e)

theorem State.Leads.twinDrain (h : o.Leads s) : o.Leads s.twinDrain := by
  unfold State.twinDrain
  refine .iter h fun _ h4 => ?_
  split
  · exact .twinTake h4
  · exact h4

theorem State.Answers.twin {last t} (h : o.Leads s) : o.Answers (execTwin last t s) := by
  unfold execTwin
  extract_lets -lift s1
  have hs1 : o.Leads s1 := .at h
  split
  · exact .next hs1
  next e8 =>
    have he8 := State.LeadsOptSnd2.of_eq (.takeInbox hs1) e8
    extract_lets -lift _ _ _ _ s13 s14
    have hs13 : o.Leads s13 := .ite (.twinDrain (.updTwin he8)) he8
    have hs14 : o.Leads s14 := .sendPacket hs13
    exact .next (.ite (.updTwin hs14) hs14)

theorem State.Answers.twinAck {t} (h : o.Leads s) : o.Answers (execTwinAck t s) := by
  unfold execTwinAck
  extract_lets -lift s1
  have hs1 : o.Leads s1 := .at h
  split
  · exact .next hs1
  next e8 =>
    have he8 := State.LeadsOptSnd2.of_eq (.takeInbox hs1) e8
    extract_lets -lift _ s10 s11
    have hs10 : o.Leads s10 := .updTwin he8
    have hs11 : o.Leads s11 := .twinPump hs10
    refine .next ?_
    split
    · exact .ite (.updTwin hs11) hs11
    · exact hs11

theorem State.Leads.unassign (h : o.Leads s) : o.Leads s.unassign := .upd h

theorem State.Leads.pairCheck {p} (h : o.Leads s) : o.Leads (s.pairCheck p) :=
  .ite h (.ite (.ite (.updPort h) (.raise (.updPort h))) (.ite (.upd h) h))

theorem State.Answers.hello {t} (h : o.Leads s) : o.Answers (execHello t s) := by
  unfold execHello
  extract_lets -lift s1
  have hs1 : o.Leads s1 := .at h
  split
  · exact .next hs1
  next e8 =>
    have he8 := State.LeadsOptSnd2.of_eq (.takeInbox hs1) e8
    extract_lets -lift _ _ s11 _ s13 s14 s15
    have hs11 : o.Leads s11 := .updPort he8
    have hs13 : o.Leads s13 := .ite (.linksChanged (.updPort hs11)) hs11
    have hs14 : o.Leads s14 := .raise hs13
    have hs15 : o.Leads s15 := .ite (.ite (.unassign hs14) hs14) hs13
    split
    · exact .next he8
    · split
      · exact .next (.raise (.updPort he8))
      · exact .ite (.next (.raise (.unassign hs11))) (.next (.pumpFabric (.pairCheck hs15)))

theorem State.Answers.helloSend {p t} (h : o.Leads s) : o.Answers (execHelloSend p t s) :=
  .ite (.next (.at h)) (.next (.updPort (.at h)))

theorem State.Answers.portLost {p t} (h : o.Leads s) : o.Answers (execPortLost p t s) :=
  .next (.ite (.retrain (.countDown (.at h))) (.at h))

theorem State.Leads.laneEvent {p lanes} (h : o.Leads s) : o.Leads (s.laneEvent p lanes) := .ite (.raise h) h

theorem State.Answers.portTrained {p lanes rtt t} (h : o.Leads s) : o.Answers (execPortTrained p lanes rtt t s) :=
  .ite (.next (.at h)) (.next (.laneEvent (.updPort (.at h))))

theorem State.Answers.portTrainTimeout {p t} (h : o.Leads s) : o.Answers (execPortTrainTimeout p t s) :=
  .ite (.next (.at h)) (.next (.raise (.updPort (.at h))))

theorem State.Leads.takeBerth {y1 b} (h : o.Leads s) : o.Leads (s.takeBerth y1 b) := .pairCheck (.pairCheck (.upd h))
theorem State.Leads.noBerth (h : o.Leads s) : o.Leads s.noBerth := .raise (.unassign h)

theorem State.Answers.berthAssign {serials t} (h : o.Leads s) : o.Answers (execBerthAssign serials t s) := by
  unfold execBerthAssign
  extract_lets -lift s1 _ _ s4 _ _ x7
  have hs1 : o.Leads s1 := .at h
  have hs4 : o.Leads s4 := .ite (.upd hs1) hs1
  split
  · exact .next hs1
  · split
    · split
      · exact .next (.takeBerth hs4)
      · exact .next (.noBerth hs4)
    · split
      · split
        · exact .next (.raise (.unassign hs4))
        · exact .ite (.next (.noBerth hs4)) (.ite (.next hs4) (.next (.ite (.noBerth hs4) (.takeBerth hs4))))
      · unfold x7
        split
        · exact .next (.ite (.takeBerth hs4) (.noBerth hs4))
        · exact .next (.ite (.noBerth hs4) hs4)

theorem State.Leads.flood {except_} (h : o.Leads s) : o.Leads (s.flood except_) :=
  .foldl h (fun _ _ h1 => .ite (.updPort (.upd h1)) (.upd (.upd h1)))

theorem State.Answers.lsaReceived {port berth serial seq links t} (h : o.Leads s) :
    o.Answers (execLsaReceived port berth serial seq links t s) := by
  unfold execLsaReceived
  extract_lets -lift s1 s2 _ _ _ _ _ s8
  have hs1 : o.Leads s1 := .at h
  have hs2 : o.Leads s2 := .raise hs1
  have hs8 : o.Leads s8 := .upd hs1
  split
  · exact .next hs1
  · split
    · exact .ite (.next hs1) (.next (.ite (.unassign hs2) hs2))
    · exact .ite (.next (.raise (.unassign hs1))) (.ite (.next hs1) (.next (.flood hs8)))

theorem State.Answers.lsaSend {t} (h : o.Leads s) : o.Answers (execLsaSend t s) :=
  .ite (.next (.at h)) (.next (.flood (.upd (.at h))))

theorem State.Leads.fabReady (h : o.Leads s) : o.Leads s.fabReady := .upd h
theorem State.Leads.commitRoutes (h : o.Leads s) : o.Leads s.commitRoutes := .pumpFabric (.upd h)

theorem State.Answers.routeCommit {t} (h : o.Leads s) : o.Answers (execRouteCommit t s) :=
  .ite (.next (.fabReady (.commitRoutes (.at h)))) (.ite (.next (.commitRoutes (.at h))) (.next (.at h)))

theorem State.Answers.routeFloodTimeout {t} (h : o.Leads s) : o.Answers (execRouteFloodTimeout t s) :=
  .ite (.next (.fabReady (.raise (.upd (.commitRoutes (.at h)))))) (.next (.at h))

theorem State.Answers.reqTimeout {tag t} (h : o.Leads s) : o.Answers (execReqTimeout tag t s) := by
  unfold execReqTimeout
  extract_lets -lift s1 _ s3 s4
  have hs1 : o.Leads s1 := .at h
  have hs3 : o.Leads s3 := .upd hs1
  have hs4 : o.Leads s4 := .logDecision hs3
  split
  · exact .next hs1
  · exact .ite (.next hs1) (.next (.answered (.ite hs4 (.suspectFault hs4))))

theorem State.Answers.portRetrainTrigger {p corr ucw t} (h : o.Leads s) :
    o.Answers (execPortRetrainTrigger p corr ucw t s) :=
  .ite (.next (.at h)) (.next (.ite (.retrain (.updPort (.at h))) (.updPort (.at h))))

theorem State.Leads.portDown {p} (h : o.Leads s) : o.Leads (s.portDown p) := by
  unfold State.portDown
  extract_lets -lift _ s2 s3 s4
  have hs2 : o.Leads s2 := .updPort h
  have hs3 : o.Leads s3 := .raise (.linksChanged (.countDown hs2))
  have hs4 : o.Leads s4 := .ite (.suspectFault hs3) hs3
  exact .pumpFabric hs4

theorem State.Answers.portRetrainDone {p lanes rtt peer t} (h : o.Leads s) :
    o.Answers (execPortRetrainDone p lanes rtt peer t s) := by
  unfold execPortRetrainDone
  extract_lets -lift s1 _ _ s4 s5 s6 s7 s8
  have hs1 : o.Leads s1 := .at h
  have hs4 : o.Leads s4 := .updPort hs1
  have hs5 : o.Leads s5 := .ite hs4 (.linksChanged hs4)
  have hs6 : o.Leads s6 := .raise hs5
  have hs7 : o.Leads s7 := .ite hs6 (.linksChanged hs6)
  have hs8 : o.Leads s8 := .updPort hs1
  split
  · exact .next hs1
  · split
    · exact .next (.pumpFabric (.pairCheck (.laneEvent hs7)))
    · exact .ite (.next (.updPort hs8)) (.next (.portDown hs8))

theorem State.Leads.putOn {p m} (h : o.Leads s) : o.Leads (s.putOn p m) :=
  .ite (.updPort (.updTwin h)) (.upd (.updTwin h))

theorem State.Answers.twinResend {t} (h : o.Leads s) : o.Answers (execTwinResend t s) :=
  .next (.foldl (.at h) (fun _ _ h1 => .putOn h1))

theorem State.Answers.twinHeartbeat {p t} (h : o.Leads s) : o.Answers (execTwinHeartbeat p t s) := by
  unfold execTwinHeartbeat
  extract_lets -lift s1 _ _ _ s5
  have hs1 : o.Leads s1 := .at h
  have hs5 : o.Leads s5 := .updPort hs1
  exact .ite (.next hs1) (.ite (.next (.putOn (.updTwin hs5))) (.next (.updTwin hs5)))

theorem State.Answers.twinPairLost {t} (h : o.Leads s) : o.Answers (execTwinPairLost t s) := by
  unfold execTwinPairLost
  extract_lets -lift s1
  have hs1 : o.Leads s1 := .at h
  split
  · exact .ite (.next (.pairLost hs1)) (.next hs1)
  · exact .next hs1

theorem State.Answers.takeoverTimer {t} (h : o.Leads s) : o.Answers (execTakeoverTimer t s) := by
  unfold execTakeoverTimer
  extract_lets -lift s1
  have hs1 : o.Leads s1 := .at h
  split
  · exact .ite (.next (.updTwin hs1)) (.next hs1)
  · exact .next hs1

theorem State.Leads.kvAdopt {i} (h : o.Leads s) : o.Leads (s.kvAdopt i) := by
  unfold State.kvAdopt
  extract_lets -lift
  split
  · exact .upd h
  · exact h

theorem State.Answers.takeoverDone {t} (h : o.Leads s) : o.Answers (execTakeoverDone t s) := by
  unfold execTakeoverDone
  extract_lets -lift s1 s2 _ s4 s5
  have hs1 : o.Leads s1 := .at h
  have hs2 : o.Leads s2 := .foldl hs1 (fun _ _ h6 => .twinApply h6)
  have hs4 : o.Leads s4 := .updTwin hs2
  have hs5 : o.Leads s5 := .foldl hs4 (fun _ _ h7 => .kvAdopt (.srvUpd h7))
  split
  · exact .next hs1
  · exact .next (.raise hs5)

/-! ### Faults, incidents and the logbook (chapter 17) -/

theorem State.LeadsOptSnd.takeFault {mtype} (h : o.Leads s) : o.LeadsOptSnd (s.takeFault mtype) := by
  intro u e
  obtain ⟨r, hr, rfl⟩ := Option.map_eq_some_iff.mp e
  exact State.LeadsOptSnd2.takeInbox h r hr

theorem State.Answers.faultReport {t} (h : o.Leads s) : o.Answers (execFaultReport t s) := by
  unfold execFaultReport
  extract_lets -lift s1
  have hs1 : o.Leads s1 := .at h
  split
  · exact .next hs1
  next e7 =>
    have he7 := State.LeadsOptSnd.of_eq (.takeFault hs1) e7
    extract_lets -lift _ _ _ _ _ _ _ s15 _ _ s18
    have hs15 : o.Leads s15 := .updHm he7
    have hs18 : o.Leads s18 := .ite (.updHm he7) (.ite (.ite (.updHm (.raise hs15)) hs15) (.updHm he7))
    exact .next (.sendFault hs18)

theorem State.Leads.reportEnded (h : o.Leads s) : o.Leads s.reportEnded := by
  unfold State.reportEnded
  refine .iter (.updHm h) fun _ h4 => ?_
  split
  · exact .sendReport (.updHm h4)
  · exact h4

theorem State.Answers.faultAck {t} (h : o.Leads s) : o.Answers (execFaultAck t s) := by
  unfold execFaultAck
  extract_lets -lift s1
  have hs1 : o.Leads s1 := .at h
  split
  · exact .next hs1
  next e7 =>
    have he7 := State.LeadsOptSnd.of_eq (.takeFault hs1) e7
    split
    · exact .next he7
    · split
      · exact .next he7
      · exact .ite (.next (.updHm he7)) (.next (.reportEnded (.ite (.updHm he7) (.updHm (.updHm he7)))))

theorem State.Answers.faultSync {t} (h : o.Leads s) : o.Answers (execFaultSync t s) := by
  unfold execFaultSync
  extract_lets -lift s1
  have hs1 : o.Leads s1 := .at h
  split
  · exact .next hs1
  next e7 =>
    have he7 := State.LeadsOptSnd.of_eq (.takeFault hs1) e7
    split
    · exact .next (.updHm he7)
    · exact .next he7

theorem State.Answers.reportTimeout {t} (h : o.Leads s) : o.Answers (execReportTimeout t s) := by
  unfold execReportTimeout
  extract_lets -lift s1
  have hs1 : o.Leads s1 := .at h
  split
  · exact .next (.ite (.reportEnded hs1) hs1)
  · exact .next hs1

theorem State.Leads.recordIncident {x by_} (h : o.Leads s) : o.Leads (s.recordIncident x by_) :=
  .raiseIncident (.updHm (.updHm h))

theorem State.Answers.incidentWindowClose {suspect t} (h : o.Leads s) :
    o.Answers (execIncidentWindowClose suspect t s) := by
  unfold execIncidentWindowClose
  extract_lets -lift s1
  have hs1 : o.Leads s1 := .at h
  split
  · exact .next hs1
  · exact .ite (.next (.sendFault (.recordIncident hs1))) (.ite (.next (.updHm hs1)) (.next (.updHm hs1)))

theorem State.Answers.incidentHoldExpiry {suspect t} (h : o.Leads s) :
    o.Answers (execIncidentHoldExpiry suspect t s) := by
  unfold execIncidentHoldExpiry
  extract_lets -lift s1
  have hs1 : o.Leads s1 := .at h
  split
  · exact .next (.recordIncident hs1)
  · exact .next hs1

theorem State.Leads.dropTile {t} (h : o.Leads s) : o.Leads (s.dropTile t) := .setTile (.removeWaits h)

theorem State.Leads.failTileNode {t st} (h : o.Leads s) : o.Leads (s.failTileNode t st) := by
  unfold State.failTileNode
  split
  · exact .failGraph h
  · exact h

theorem State.Leads.quayOut {q} (h : o.Leads s) : o.Leads (s.quayOut q) :=
  .ite h (.foldl (.foldl (.raise (.updQuay h)) (fun _ _ h1 => .failTileNode h1)) (fun _ _ h2 => .dropTile h2))

theorem State.Answers.tileFailure {t now} (h : o.Leads s) : o.Answers (execTileFailure t now s) := by
  unfold execTileFailure
  extract_lets -lift s1 _ _ _ s5 s6
  have hs1 : o.Leads s1 := .at h
  have hs5 : o.Leads s5 := .updQuay hs1
  have hs6 : o.Leads s6 := .dropTile (.failTileNode hs5)
  split
  · exact .next hs1
  · split
    · exact .next (.quayOut hs6)
    · exact .next (.raise (.updTile (.zeroFillTile (.updQuay hs6))))

theorem State.Answers.serve {iss code t work} (h : o.Leads s) (hwork : ∀ z1 z2 s, o.Leads s → o.Leads
    (work z1 z2 s).2) :
    o.Answers (State.serve iss code t work s) := by
  unfold State.serve
  extract_lets -lift s1
  have hs1 : o.Leads s1 := .at h
  split
  · exact .next hs1
  · extract_lets -lift
    split
    · exact .next hs1
    · split
      · exact .next hs1
      · extract_lets -lift
        split
        · next e => exact .next (.setCoreQ (State.Leads.snd_of_eq (hwork _ _ _ hs1) e))
        next e25 =>
          have he25 := State.Leads.snd_of_eq (hwork _ _ _ hs1) e25
          exact .next (.ite (.setCoreQ he25) (.answer (.setCoreQ he25)))

theorem State.Answers.endMark {m t st vals} (h : o.Leads s) : o.Answers (s.endMark m t st vals) := by
  unfold State.endMark
  extract_lets -lift s1
  have hs1 : o.Leads s1 := .updLog h
  split
  · exact .serve hs1 (fun _ _ _ h5 => h5)
  · exact .next hs1

theorem State.Answers.markTimeout {t} (h : o.Leads s) : o.Answers (execMarkTimeout t s) := by
  unfold execMarkTimeout
  extract_lets -lift s1
  have hs1 : o.Leads s1 := .at h
  split
  · exact .next hs1
  · exact .ite (.next hs1) (.endMark hs1)

theorem State.Leads.logBegin {wrap} (h : o.Leads s) : o.Leads (s.logBegin wrap) := .logWriteHeader (.updLog h)
theorem State.Leads.logFlushAll (h : o.Leads s) : o.Leads s.logFlushAll := .foldl h (fun _ _ h1 => .logFlush h1)

theorem State.Leads.logMark (h : o.Leads s) : o.Leads s.logMark :=
  .logDigest (.logDigest (.logDigest (.ite (.updLog (.logPut (.logFlushAll h))) (.logPut (.logFlushAll h)))))

theorem State.Answers.markQuiescent {t} (h : o.Leads s) : o.Answers (execMarkQuiescent t s) := by
  unfold execMarkQuiescent
  extract_lets -lift s1
  have hs1 : o.Leads s1 := .at h
  split
  · exact .next hs1
  · exact .ite (.next hs1) (.endMark (.logMark (.ite (.logBegin hs1) hs1)))

theorem State.Answers.logFull (h : o.Leads s) : o.Answers (execLogFull s) := .next (.ite (.logFull h) h)

theorem State.Answers.replayDiverged {p since t} (h : o.Leads s) : o.Answers (execReplayDiverged p since t s) :=
  .ite (.next (.at h)) (.next (.updLog (.raise (.at h))))

theorem State.Answers.replayInputMismatch {p} (h : o.Leads s) : o.Answers (execReplayInputMismatch p s) := by
  unfold execReplayInputMismatch
  split
  · exact .next h
  · exact .ite (.next h) (.next (.updLog (.raise h)))

theorem State.Leads.replayEnd (h : o.Leads s) : o.Leads s.replayEnd := .updLog (.raise (.upd h))

theorem State.Answers.replayEnd {t} (h : o.Leads s) : o.Answers (execReplayEnd t s) := by
  unfold execReplayEnd
  extract_lets -lift s1
  have hs1 : o.Leads s1 := .at h
  split
  · exact .next hs1
  · exact .ite (.next hs1) (.ite (.next (.replayEnd hs1)) (.next hs1))

theorem State.Answers.mbxTimeout {iss t} (h : o.Leads s) : o.Answers (execMbxTimeout iss t s) := by
  unfold execMbxTimeout
  extract_lets -lift s1
  have hs1 : o.Leads s1 := .at h
  split
  · exact .next hs1
  · exact .next (.answer (.setCoreQ hs1))

theorem State.Leads.raiseVec0 {f} (h : o.Leads s) : o.Leads (s.raiseVec0 f) := .updFunc h

theorem State.Leads.deliver {a} (h : o.Leads s) : o.Leads (s.deliver a) := by
  unfold State.deliver
  split
  · exact .raiseVec0 (.updFunc h)
  · exact .upd h
  · exact .sendPacket h

theorem State.Answers.mbxResponse (h : o.Leads s) : o.Answers (execMbxResponse s) := by
  unfold execMbxResponse
  split
  · exact .next h
  · exact .next (.deliver (.upd h))

theorem State.Answers.serveNow {iss code t work} (h : o.Leads s) (hwork : ∀ z1 s, o.Leads s → o.Leads (work z1 s).2) :
    o.Answers (State.serveNow iss code t work s) := .serve h (fun _ _ _ h1 => hwork _ _ h1)

theorem State.Answers.ident {iss t} (h : o.Leads s) : o.Answers (execIdent iss t s) := .serveNow h (fun _ _ h1 => h1)

theorem State.Answers.sessionOpen {iss t} (h : o.Leads s) : o.Answers (execSessionOpen iss t s) := by
  unfold execSessionOpen
  refine .serveNow h fun _ _ h5 => ?_
  split
  · exact h5
  · extract_lets -lift _ _ _ s11 s12
    have hs11 : o.Leads s11 := .upd h5
    have hs12 : o.Leads s12 := by
      unfold s12
      split
      · exact .updFunc hs11
      · exact hs11
    exact hs12

theorem State.Answers.sessionClose {iss t} (h : o.Leads s) : o.Answers (execSessionClose iss t s) := by
  unfold execSessionClose
  refine .serveNow h fun _ _ h5 => ?_
  split
  · exact .updFunc h5
  · exact h5

theorem State.Answers.echo {iss t} (h : o.Leads s) : o.Answers (execEcho iss t s) := .serveNow h (fun _ _ h1 => h1)
theorem State.Leads.setTenantRec {t x} (h : o.Leads s) : o.Leads (s.setTenantRec t x) := .upd h

theorem State.Answers.quotaSet {iss t} (h : o.Leads s) : o.Answers (execQuotaSet iss t s) :=
  .serveNow h (fun _ _ h1 => .ite_snd h1 (.updSrvTenant (.setTenantRec h1)))

theorem State.Answers.quotaGet {iss t} (h : o.Leads s) : o.Answers (execQuotaGet iss t s) :=
  .serveNow h (fun _ _ h1 => .ite_snd h1 h1)

theorem State.Answers.serveIf {iss code t form work} (h : o.Leads s) (hwork : ∀ z1 z2 s, o.Leads s → o.Leads
    (work z1 z2 s).2) :
    o.Answers (State.serveIf iss code t form work s) :=
  .ite (.serve h (fun _ _ _ h1 => hwork _ _ _ h1)) (.next (.at h))

theorem State.Answers.grant {iss t} (h : o.Leads s) : o.Answers (execGrant iss t s) := by
  unfold execGrant
  refine .serveIf h fun _ _ _ h6 => ?_
  extract_lets -lift
  split
  · exact h6
  · split
    · exact h6
    · split
      · exact h6
      · exact .setTenantRec h6

theorem State.Answers.revoke {iss t} (h : o.Leads s) : o.Answers (execRevoke iss t s) := by
  unfold execRevoke
  refine .serveIf h fun _ _ _ h6 => ?_
  extract_lets -lift
  split
  · exact h6
  · split
    · exact h6
    · exact .setTenantRec h6

theorem State.Answers.grantList {iss t} (h : o.Leads s) : o.Answers (execGrantList iss t s) := by
  unfold execGrantList
  refine .serveNow h fun _ _ h5 => ?_
  extract_lets -lift
  split
  · exact h5
  · split <;> exact h5

theorem State.Answers.windowSet {iss t} (h : o.Leads s) : o.Answers (execWindowSet iss t s) :=
  .serveNow h (fun _ _ h1 => .ite_snd h1 (.updFunc h1))

theorem State.Answers.evtRingSet {iss t} (h : o.Leads s) : o.Answers (execEvtRingSet iss t s) := by
  unfold execEvtRingSet
  refine .serveNow h fun _ _ h5 => ?_
  split
  · exact h5
  · exact .updFunc h5

theorem State.Answers.noteRingSet {iss t} (h : o.Leads s) : o.Answers (execNoteRingSet iss t s) := by
  unfold execNoteRingSet
  refine .serveNow h fun _ _ h5 => ?_
  split
  · exact h5
  · exact .updFunc h5

theorem State.Leads.abortSeq {seq st} (h : o.Leads s) : o.Leads (s.abortSeq seq st) := by
  unfold State.abortSeq
  extract_lets -lift f1
  have hf1 : ∀ s3, o.Leads s3 → o.Leads (f1 s3) := by
    intro s3 h0f1
    unfold f1
    exact .failGraph h0f1
  split
  · exact hf1 _ h
  · exact hf1 _ (.upd h)

theorem State.Leads.stopTenant {ten} (h : o.Leads s) : o.Leads (s.stopTenant ten) :=
  .foldl (.upd h) (fun _ _ h1 => .abortSeq h1)

theorem State.Leads.clearFunc {f} (h : o.Leads s) : o.Leads (s.clearFunc f) := .upd (.upd (.updFunc h))

theorem State.Leads.closeTenant {ten} (h : o.Leads s) : o.Leads (s.closeTenant ten) :=
  .srvSlotsFree (.foldl h (fun _ _ h1 => .ite (.srvUpd h1) (.srvClose h1)))

theorem State.Leads.clearTenant {f} (h : o.Leads s) : o.Leads (s.clearTenant f) :=
  .ite (.clearFunc (.closeTenant (.ite h (.stopTenant (.updFunc h))))) (.ite h (.stopTenant (.updFunc h)))

theorem State.Answers.tenantClear {iss t} (h : o.Leads s) : o.Answers (execTenantClear iss t s) :=
  .serve h (fun _ _ _ h1 => .ite_snd h1 (.ite_snd (.clearTenant h1) (.clearTenant h1)))

theorem State.Answers.functionLevelReset {f t} (h : o.Leads s) : o.Answers (execFunctionLevelReset f t s) := by
  unfold execFunctionLevelReset
  extract_lets -lift s2 s3
  have hs2 : o.Leads s2 := .at h
  have hs3 : o.Leads s3 := .foldl hs2 (fun _ _ h5 => .clearTenant h5)
  exact .ite (.next hs2) (.ite (.next (.clearTenant hs2)) (.next (.upd hs3)))

theorem State.Answers.qCreate {iss t} (h : o.Leads s) : o.Answers (execQCreate iss t s) := by
  unfold execQCreate
  refine .serveNow h fun _ _ h5 => ?_
  extract_lets -lift _ _ x8
  split
  · exact h5
  · unfold x8
    split
    · exact h5
    · exact .ite_snd h5 (.upd h5)

theorem State.Answers.qState {iss t} (h : o.Leads s) : o.Answers (execQState iss t s) :=
  .serveNow h (fun _ _ h1 => .ite_snd h1 (.updHwq h1))

theorem State.Answers.qDestroy {iss t} (h : o.Leads s) : o.Answers (execQDestroy iss t s) :=
  .serve h (fun _ _ _ h1 => .ite_snd h1 (.ite_snd (.updHwq h1) (.upd (.updHwq h1))))

theorem State.Answers.qQuery {iss t} (h : o.Leads s) : o.Answers (execQQuery iss t s) := by
  unfold execQQuery
  refine .serveNow h fun _ _ h5 => ?_
  split <;> exact h5

theorem State.Answers.graphAbort {iss t} (h : o.Leads s) : o.Answers (execGraphAbort iss t s) :=
  .serve h (fun _ _ _ h1 => .ite_snd (.ite h1 (.abortSeq h1)) (.ite h1 (.abortSeq h1)))

theorem State.Leads.dcInvalAll {tenant} (h : o.Leads s) : o.Leads (s.dcInvalAll tenant) := .upd h

theorem State.Answers.dcInval {iss t} (h : o.Leads s) : o.Answers (execDcInval iss t s) :=
  .serveNow h (fun _ _ h1 => .ite_snd (.dcInvalAll h1) (.ite_snd h1 (.dcInvalAll h1)))

theorem State.Answers.soAlloc {iss t} (h : o.Leads s) : o.Answers (execSoAlloc iss t s) := by
  unfold execSoAlloc
  refine .serveNow h fun _ _ h5 => ?_
  extract_lets -lift _ _ _ x9
  split
  · exact h5
  · split
    · exact h5
    · unfold x9
      split
      · exact h5
      · exact .upd h5

theorem State.Leads.endWaiters {n} (h : o.Leads s) : o.Leads (s.endWaiters n) :=
  .foldl (.upd (.setSo h)) (fun _ _ h1 => .wake h1)

theorem State.Answers.soFree {iss t} (h : o.Leads s) : o.Answers (execSoFree iss t s) :=
  .serveNow h (fun _ _ h1 => .ite_snd h1 (.foldl h1 (fun _ _ h2 => .upd (.endWaiters h2))))

theorem State.Answers.soOp {iss t} (h : o.Leads s) : o.Answers (execSoOp iss t s) := by
  refine .serveNow h fun m s h => ?_
  extract_lets n sop
  clear_value sop
  refine .ite_snd h (.ite_snd (.ite_snd (.soBlocked h) (.soBlocked h)) ?_)
  split
  · exact .soSignal h
  · exact .soSet h
  · exact .soDec h
  · exact .ite_snd h (.ite_snd (.cntSync h) (.passObj (.cntSync (.setSo h))))

theorem State.Answers.soCfg {iss t} (h : o.Leads s) : o.Answers (execSoCfg iss t s) :=
  .serveNow h (fun _ _ h1 => .ite_snd h1 (.setSo h1))

theorem State.Leads.barUnbind {g} (h : o.Leads s) : o.Leads (s.barUnbind g) :=
  .foldl (.setBar h) (fun _ _ h1 => .wake h1)

theorem State.Answers.barBind {iss t} (h : o.Leads s) : o.Answers (execBarBind iss t s) :=
  .serveNow h (fun _ _ h1 => .ite_snd h1 (.ite_snd h1 (.setBar (.ite (.barUnbind h1) h1))))

theorem State.Answers.barUnbind {iss t} (h : o.Leads s) : o.Answers (execBarUnbind iss t s) :=
  .serveNow h (fun _ _ h1 => .ite_snd h1 (.barUnbind h1))

theorem State.Answers.acBind {iss t} (h : o.Leads s) : o.Answers (execAcBind iss t s) := by
  unfold execAcBind
  refine .serveNow h fun _ _ h5 => ?_
  extract_lets -lift _ _ _ _ _ x11
  split
  · exact h5
  · split
    · exact h5
    · split
      · exact h5
      · unfold x11
        split
        · exact h5
        · exact .setAc h5

theorem State.Answers.acSet {iss t} (h : o.Leads s) : o.Answers (execAcSet iss t s) :=
  .serveNow h (fun _ _ h1 => .ite_snd h1 (.setAc h1))

theorem State.Answers.acUnbind {iss t} (h : o.Leads s) : o.Answers (execAcUnbind iss t s) :=
  .serveNow h (fun _ _ h1 => .ite_snd h1 (.setAc h1))

theorem State.Leads.finishPlace {m homes} (h : o.Leads s) : o.Leads (s.finishPlace m homes).2 := by
  unfold State.finishPlace
  extract_lets -lift
  split
  · exact .cntMod h
  · exact .cntMod (.foldl (.updPilot (.writeMem h)) (fun _ _ h15 => .pilRecord h15))

theorem State.Leads.peerStep {m answer} (h : o.Leads s) : o.Leads (s.peerStep m answer).2 := by
  unfold State.peerStep
  split
  · exact h
  · split
    · exact .ite_snd (.cntMod (.updPilot h)) h
    · exact .ite_snd (.cntMod (.updPilot (.skipPeer h))) (.askPeer (.skipPeer h))
    · split
      · exact .ite_snd (.finishPlace (.updPilot h)) (.askPeer (.updPilot h))
      · exact h

theorem State.Leads.askDemotions {c need units} (h : o.Leads s) : o.Leads (s.askDemotions c need units) := .updPilot h

theorem State.Leads.plBerthList {m} (h : o.Leads s) : o.Leads (s.plBerthList m).2 := by
  unfold State.plBerthList
  split
  · exact h
  · split
    · next e => exact State.Leads.snd_of_eq (.accessRecord h) e
    next e9 =>
      have he9 := State.Leads.snd_of_eq (.accessRecord h) e9
      split
      · next e => exact State.Leads.snd_of_eq (.load he9) e
      · next e => exact State.Leads.snd_of_eq (.load he9) e

theorem State.Leads.placeStep {iss m} (h : o.Leads s) : o.Leads (s.placeStep iss m).2 := by
  unfold State.placeStep
  extract_lets -lift
  split
  · split
    · split
      · extract_lets -lift _ s19
        have hs19 : o.Leads s19 := .askDemotions h
        split
        · exact .finishPlace h
        · split
          · exact hs19
          · split
            · next e => exact State.Leads.snd_of_eq (.plBerthList h) e
            · next e => exact .cntMod (State.Leads.snd_of_eq (.plBerthList h) e)
            · next e => exact .askPeer (.updPilot (State.Leads.snd_of_eq (.plBerthList h) e))

theorem State.Answers.pilPlace {iss t answer} (h : o.Leads s) : o.Answers (execPilPlace iss t answer s) := by
  unfold execPilPlace
  refine .serve h fun _ _ _ h6 => ?_
  split
  · exact .cntMod h6
  · split
    · exact .ite_snd (.peerStep h6) h6
    · exact .placeStep h6

theorem State.Answers.pilFree {iss t} (h : o.Leads s) : o.Answers (execPilFree iss t s) := by
  unfold execPilFree
  refine .serve h fun _ _ _ h6 => ?_
  extract_lets -lift _ s8
  have hs8 : o.Leads s8 := .foldl h6 (fun _ _ h9 => .abandonMove h9)
  split
  · exact h6
  · split
    · exact .updPilot hs8
    · exact .ite_snd h6 (.updPilot h6)

theorem State.Leads.movesResult {tb es} (h : o.Leads s) : o.Leads (s.movesResult tb es).2 := .ite_snd h (.updPilot h)

theorem State.Answers.pilPin {iss t} (h : o.Leads s) : o.Answers (execPilPin iss t s) := by
  unfold execPilPin
  refine .serve h fun _ _ _ h6 => ?_
  extract_lets -lift _ _ _ _ s11
  have hs11 : o.Leads s11 := by
    unfold s11
    refine .foldl h6 fun _ _ h16 => ?_
    split
    · exact .updBlock (.ite h16 (.abandonMove h16))
    · exact .ite (.updBlock h16) (.updPilot h16)
    · exact h16
  split
  · exact .movesResult h6
  · split
    · exact h6
    · exact .ite_snd h6 (.ite_snd hs11 (.movesResult hs11))

theorem State.Answers.pilUnpin {iss t} (h : o.Leads s) : o.Answers (execPilUnpin iss t s) := by
  unfold execPilUnpin
  refine .serveNow h fun _ _ h5 => ?_
  extract_lets -lift
  split
  · exact h5
  · exact .ite_snd h5 (.foldl h5 (fun _ _ h12 => .updBlock h12))

theorem State.Answers.pilMove {iss t} (h : o.Leads s) : o.Answers (execPilMove iss t s) := by
  unfold execPilMove
  refine .serve h fun _ _ _ h6 => ?_
  extract_lets -lift
  split
  · exact .movesResult h6
  · split
    · exact h6
    · exact .ite_snd h6 (.updPilot h6)

theorem State.Answers.pilTable {iss t} (h : o.Leads s) : o.Answers (execPilTable iss t s) := by
  unfold execPilTable
  refine .serveNow h fun _ _ h5 => ?_
  split <;> exact h5

theorem State.Answers.pilThresh {iss t} (h : o.Leads s) : o.Answers (execPilThresh iss t s) :=
  .serveNow h (fun _ _ h1 => .ite_snd h1 (.updPilot (.setThresh h1)))

theorem State.Answers.pilCalCfg {iss t} (h : o.Leads s) : o.Answers (execPilCalCfg iss t s) :=
  .serveNow h (fun _ _ h1 => .updPilot h1)

theorem State.Leads.readRecord {a n} (h : o.Leads s) : o.Leads (s.readRecord a n).2 := by
  unfold State.readRecord
  split
  · next e => exact State.Leads.snd_of_eq (.accessRecord h) e
  next e7 =>
    have he7 := State.Leads.snd_of_eq (.accessRecord h) e7
    split
    · next e => exact State.Leads.snd_of_eq (.loadNum he7) e
    · next e => exact State.Leads.snd_of_eq (.loadNum he7) e

theorem State.Answers.modelReg {iss t} (h : o.Leads s) : o.Answers (execModelReg iss t s) := by
  unfold execModelReg
  refine .serveNow h fun _ _ h5 => ?_
  extract_lets -lift
  split
  · next e => exact State.Leads.snd_of_eq (.readRecord h5) e
  next e14 =>
    have he14 := State.Leads.snd_of_eq (.readRecord h5) e14
    extract_lets -lift
    split
    · exact he14
    · split
      · next e => exact State.Leads.snd_of_eq (.readRecord he14) e
      next e25 =>
        have he25 := State.Leads.snd_of_eq (.readRecord he14) e25
        split
        · exact he25
        · extract_lets -lift
          split
          · exact he25
          · exact .ite_snd he25 (.ite_snd he25 (.upd he25))

theorem State.Answers.modelDereg {iss t} (h : o.Leads s) : o.Answers (execModelDereg iss t s) :=
  .serveNow h (fun _ _ h1 => .ite_snd h1 (.ite_snd h1 (.ite_snd h1 (.upd (.upd h1)))))

theorem State.Answers.kvGeomReg {iss t} (h : o.Leads s) : o.Answers (execKvGeomReg iss t s) := by
  unfold execKvGeomReg
  refine .serveNow h fun _ _ h5 => ?_
  split
  · next e => exact State.Leads.snd_of_eq (.readRecord h5) e
  next e13 =>
    have he13 := State.Leads.snd_of_eq (.readRecord h5) e13
    split
    · exact he13
    · split
      · exact he13
      · exact .ite_snd he13 (.ite_snd he13 (.ite_snd he13 (.upd he13)))

theorem State.Answers.serveRsv {iss t} (h : o.Leads s) : o.Answers (execServeRsv iss t s) :=
  .serveNow h (fun _ _ h1 => .ite_snd h1 (.foldl h1 (fun _ _ h2 => .setServeRsv h2)))

theorem State.Answers.serveCfg {iss t} (h : o.Leads s) : o.Answers (execServeCfg iss t s) :=
  .serveNow h (fun _ _ h1 => .ite_snd h1 (.upd h1))

theorem State.Answers.memMap {iss t} (h : o.Leads s) : o.Answers (execMemMap iss t s) :=
  .serveNow h (fun _ _ h1 => h1)

theorem State.Answers.memResv {iss t} (h : o.Leads s) : o.Answers (execMemResv iss t s) :=
  .serveNow h (fun _ _ h1 => .ite_snd h1 h1)

theorem State.Answers.t2Retrain {iss t} (h : o.Leads s) : o.Answers (execT2Retrain iss t s) := by
  unfold execT2Retrain
  refine .serve h fun _ _ _ h6 => ?_
  extract_lets -lift _ _ f9
  have hf9 : ∀ s10, o.Leads s10 → o.Leads (f9 s10) := by
    intro s10 h0f9
    unfold f9
    exact .ite (.beginRetrain h0f9) h0f9
  split
  · exact h6
  · split
    · exact .ite_snd h6 (.ite_snd (.ite_snd (hf9 _ h6) h6) h6)
    · exact .ite_snd h6 (.ite_snd h6 (hf9 _ (.updChan h6)))

theorem State.Answers.t2RetrainCfg {iss t} (h : o.Leads s) : o.Answers (execT2RetrainCfg iss t s) :=
  .serveNow h (fun _ _ h1 => .ite_snd h1 (.updChan h1))

theorem State.Answers.scrubCfg {iss t} (h : o.Leads s) : o.Answers (execScrubCfg iss t s) := by
  unfold execScrubCfg
  refine .serveNow h fun _ _ h9 => ?_
  exact .ite_snd (.foldl h9 (fun _ _ h10 => .updInteg h10)) (.ite_snd (.foldl h9 (fun _ _ h11 => .updInteg h11)) h9)

theorem State.Answers.ceCfg {iss t} (h : o.Leads s) : o.Answers (execCeCfg iss t s) :=
  .serveNow h (fun _ _ h1 => .ite_snd (.updQuay h1) (.ite_snd (.updInteg h1) (.ite_snd (.updInteg h1) h1)))

theorem State.Answers.berthTable {iss t} (h : o.Leads s) : o.Answers (execBerthTable iss t s) := by
  unfold execBerthTable
  refine .serveNow h fun _ _ h5 => ?_
  extract_lets -lift
  split
  · exact h5
  · split
    · next e => exact State.Leads.snd_of_eq (.accessRecord h5) e
    next e16 =>
      have he16 := State.Leads.snd_of_eq (.accessRecord h5) e16
      split
      · next e => exact State.Leads.snd_of_eq (.loadNum he16) e
      next e23 =>
        have he23 := State.Leads.snd_of_eq (.loadNum he16) e23
        split
        · exact he23
        · exact .ite_snd he23 (.upd he23)

theorem State.Leads.fabStart (h : o.Leads s) : o.Leads s.fabStart :=
  .ite h (.upd (.foldl h (fun _ _ h1 => .startPort h1)))

theorem State.Answers.fabEnable {iss t} (h : o.Leads s) : o.Answers (execFabEnable iss t s) :=
  .serveNow h (fun _ _ h1 => .ite_snd h1 (.fabStart h1))

theorem State.Answers.portCfg {iss t} (h : o.Leads s) : o.Answers (execPortCfg iss t s) :=
  .serveNow h (fun _ _ h1 => .ite_snd h1 (.ite_snd h1 (.setPortEn (.updPort h1))))

theorem State.Answers.portRetrain {iss t} (h : o.Leads s) : o.Answers (execPortRetrain iss t s) := by
  unfold execPortRetrain
  refine .serve h fun _ _ _ h6 => ?_
  extract_lets -lift
  split
  · exact h6
  · exact .ite_snd (.ite_snd h6 (.ite_snd h6 h6)) (.ite_snd (.retrain h6) (.ite_snd h6 (.ite_snd h6 h6)))

theorem State.Answers.fabCfg {iss t} (h : o.Leads s) : o.Answers (execFabCfg iss t s) :=
  .serveNow h (fun _ _ h1 => .upd h1)

theorem State.Answers.twinCfg {iss t} (h : o.Leads s) : o.Answers (execTwinCfg iss t s) :=
  .serveNow h (fun _ _ h1 => .ite_snd h1 (.upd h1))

theorem State.Answers.twinTakeover {iss t} (h : o.Leads s) : o.Answers (execTwinTakeover iss t s) :=
  .serve h (fun _ _ _ h1 => .ite_snd (.ite_snd h1 h1) (.ite_snd (.updTwin h1) h1))

theorem State.Answers.twinResync {iss t} (h : o.Leads s) : o.Answers (execTwinResync iss t s) := by
  unfold execTwinResync
  refine .serveNow h fun _ _ h9 => ?_
  split
  · exact h9
  · extract_lets -lift s16 _ s18 s19
    have hs16 : o.Leads s16 := .updTwin h9
    have hs18 : o.Leads s18 := by
      unfold s18
      refine .foldl hs16 fun _ _ h26 => ?_
      extract_lets -lift _ s29 s30
      have hs29 : o.Leads s29 := .upd h26
      have hs30 : o.Leads s30 := by
        unfold s30
        refine .foldl hs29 fun _ _ h35 => ?_
        split
        · exact .twinWrite h35
        · exact h35
      exact .twinSend hs30
    have hs19 : o.Leads s19 := .updTwin hs18
    exact hs19

theorem State.Leads.sendMarks {code wrap} (h : o.Leads s) : o.Leads (s.sendMarks code wrap) :=
  .foldl h (fun _ _ h1 => .ite (.sendPacket h1) h1)

theorem State.Leads.beginMark {iss start wrap harbour} (h : o.Leads s) :
    o.Leads (s.beginMark iss start wrap harbour) := .ite (.sendMarks (.updLog h)) (.updLog h)

theorem State.Answers.logStart {iss t} (h : o.Leads s) : o.Answers (execLogStart iss t s) :=
  .ite (.next (.at h)) (.serve h (fun _ _ _ h1 => .ite_snd h1 (.beginMark h1)))

theorem State.Answers.logStop {iss t} (h : o.Leads s) : o.Answers (execLogStop iss t s) :=
  .serveNow h (fun _ _ h1 => .ite (.logHeader (.updLog (.logFlushAll h1))) h1)

theorem State.Answers.logMark {iss t} (h : o.Leads s) : o.Answers (execLogMark iss t s) :=
  .ite (.next (.at h)) (.serve h (fun _ _ _ h1 => .ite_snd h1 (.beginMark h1)))

theorem State.Answers.replayStart {iss t} (h : o.Leads s) : o.Answers (execReplayStart iss t s) := by
  unfold execReplayStart
  refine .serveNow h fun _ _ h5 => ?_
  extract_lets -lift
  split
  · exact h5
  · exact .ite_snd h5 (.ite_snd h5 (.ite_snd h5 (.updLog (.upd h5))))

theorem State.Answers.replayStop {iss t} (h : o.Leads s) : o.Answers (execReplayStop iss t s) :=
  .serveNow h (fun _ _ h1 => .ite_snd (.ite h1 (.replayEnd h1)) h1)

theorem State.Leads.requestPace {q step issue} (h : o.Leads s) : o.Leads (s.requestPace q step issue) :=
  .ite (.applyLimits (.updPace (.updQuay (.updQuay h)))) (.applyLimits (.nextStage (.updPace (.updQuay h))))

theorem State.Answers.paceSet {iss t} (h : o.Leads s) : o.Answers (execPaceSet iss t s) := by
  unfold execPaceSet
  refine .serveNow h fun _ _ h9 => ?_
  extract_lets -lift _ _ _ _ s16 s17
  have hs16 : o.Leads s16 := .foldl h9 (fun _ _ h21 => .requestPace (.ite (.updPace h21) h21))
  have hs17 : o.Leads s17 := .ite (.raise hs16) hs16
  exact hs17

theorem State.Answers.pwrLimit {iss t} (h : o.Leads s) : o.Answers (execPwrLimit iss t s) :=
  .serveNow h (fun _ _ h1 => .updPower h1)

theorem State.Answers.thmRead {iss t} (h : o.Leads s) : o.Answers (execThmRead iss t s) :=
  .serveNow h (fun _ _ h1 => h1)

theorem State.Answers.valveSet {iss t} (h : o.Leads s) : o.Answers (execValveSet iss t s) :=
  .serveNow h (fun _ _ h1 => .ite_snd h1 (.updThermal h1))

theorem State.Leads.updFw {f} (h : o.Leads s) : o.Leads (s.updFw f) := .upd h
theorem State.Leads.releaseStalls (h : o.Leads s) : o.Leads s.releaseStalls := .upd h

theorem State.Leads.capture {cause core st} (h : o.Leads s) : o.Leads (s.capture cause core st) :=
  .upd (.updFw (.upd h))

theorem State.Leads.setCc {f} (h : o.Leads s) : o.Leads (s.setCc f) := .foldl h (fun _ _ h1 => .updQuay h1)

theorem State.Leads.resumeQuay {q} (h : o.Leads s) : o.Leads (s.resumeQuay q) := by
  unfold State.resumeQuay
  split
  · exact h
  · refine .foldl h fun _ _ h8 => ?_
    exact .ite h8 (.ite (.ite (.startPending (.loadNext (.updTile h8))) (.loadNext (.updTile h8))) (.updTile h8))

theorem State.Leads.fwStarted {bad} (h : o.Leads s) : o.Leads (s.fwStarted bad) := by
  unfold State.fwStarted
  extract_lets -lift s3 s4 _ s6 s7
  have hs3 : o.Leads s3 := .updFw h
  have hs4 : o.Leads s4 := .setCc hs3
  have hs6 : o.Leads s6 := .upd hs4
  have hs7 : o.Leads s7 := .foldl hs6 (fun _ _ h8 => .quayOut h8)
  exact .foldl (.releaseStalls hs7) (fun _ _ h9 => .resumeQuay h9)

theorem State.Leads.readImage {a size hostErr} (h : o.Leads s) : o.Leads (s.readImage a size hostErr).2 := by
  unfold State.readImage
  split
  · exact h
  · split
    next e6 =>
      have he6 := State.Leads.snd_of_eq (.hostFetch h) e6
      extract_lets -lift
      split
      · exact he6
      · exact .ite_snd (.logInput he6) (.ite_snd (.logInput he6) (.ite_snd (.logInput he6) (.logInput he6)))

theorem State.Leads.loseAdmitted (h : o.Leads s) : o.Leads s.loseAdmitted := .foldl h (fun _ _ h1 => .setCoreQ h1)

theorem State.Answers.fwLoad {iss t hostErr bad down} (h : o.Leads s) :
    o.Answers (execFwLoad iss t hostErr bad down s) := by
  refine .serve h fun begun m s h => .ite_snd (.ite_snd h (.ite_snd ?_ (.snd (.fwStarted h)))) (.ite_snd h ?_)
  · exact .snd <| .releaseStalls (.capture (.setCc (.updFw h)))
  · split
    · next e => exact .snd_of_eq (.readImage h) e
    · next e =>
      have h1 := State.Leads.snd_of_eq (.readImage h) e
      exact .snd (.setCc (.updFw (.ite (.upd (.loseAdmitted h1)) h1)))

theorem State.Leads.updateStep {step} (h : o.Leads s) : o.Leads (s.updateStep step) :=
  .ite (.upd (.setCc (.updFw h))) (.setCc (.updFw h))

theorem State.Leads.finishBegun {core code st} (h : o.Leads s) : o.Leads (s.finishBegun core code st) := by
  unfold State.finishBegun
  extract_lets -lift
  split
  · exact h
  · exact .ite (.setCoreQ h) (.answer (.setCoreQ h))

theorem State.Leads.updateReady (h : o.Leads s) : o.Leads s.updateReady := by
  unfold State.updateReady
  extract_lets -lift _ s2 _ s4 s5 s6
  have hs2 : o.Leads s2 := .setCc (.updFw h)
  have hs4 : o.Leads s4 := by
    unfold s4
    split
    · exact .upd hs2
    · exact hs2
  have hs5 : o.Leads s5 := .foldl hs4 (fun _ _ h9 => .resumeQuay h9)
  have hs6 : o.Leads s6 := .updFw hs5
  split
  · exact .updateStep hs5
  · exact .finishBegun (.releaseStalls (.raise hs6))

theorem State.Leads.rollBack {dead} (h : o.Leads s) : o.Leads (s.rollBack dead) := by
  unfold State.rollBack
  extract_lets -lift _ _ _ s4 s5 _ s7 s8 s9
  have hs4 : o.Leads s4 := .updFw h
  have hs5 : o.Leads s5 := .setCc hs4
  have hs7 : o.Leads s7 := .upd hs5
  have hs8 : o.Leads s8 := .releaseStalls (.capture hs7)
  have hs9 : o.Leads s9 := .foldl hs8 (fun _ _ h10 => .resumeQuay h10)
  exact .finishBegun hs9

theorem State.Answers.fwUpdate {iss t hostErr ready dead} (h : o.Leads s) :
    o.Answers (execFwUpdate iss t hostErr ready dead s) := by
  refine .ite (.next (.ite (.updateReady (.at h)) (.rollBack (.at h)))) (.serve h fun begun m s h => .ite_snd h ?_)
  split
  · exact h
  · refine .ite_snd h ?_
    split
    · next e => exact .snd_of_eq (.readImage h) e
    · next e =>
      have h1 := State.Leads.snd_of_eq (.readImage h) e
      exact .ite_snd (.snd (.updateStep (.updFw h1))) h1

theorem State.Answers.crashDump {iss t hostErr} (h : o.Leads s) : o.Answers (execCrashDump iss t hostErr s) :=
  .serveNow h (fun _ _ h1 => .ite_snd h1 (.ite_snd h1 (.hostWrite h1)))

theorem State.Leads.fabAuto (h : o.Leads s) : o.Leads s.fabAuto := .ite (.fabStart h) h

theorem State.Leads.licensed {new} (h : o.Leads s) : o.Leads (s.licensed new) :=
  .fabAuto (.foldl (.upd h) (fun _ _ h1 => .ite (.updPort h1) (.startPort (.updPort h1))))

theorem State.Answers.licInstall {iss t hostErr} (h : o.Leads s) : o.Answers (execLicInstall iss t hostErr s) := by
  unfold execLicInstall
  refine .serveNow h fun _ _ h5 => ?_
  extract_lets -lift
  split
  · exact h5
  · split
    · exact h5
    · split
      next e14 =>
        have he14 := State.Leads.snd_of_eq (.hostFetch h5) e14
        extract_lets -lift _ _ s17
        have hs17 : o.Leads s17 := .licensed he14
        split
        · exact he14
        · exact hs17

theorem State.Leads.startWake (h : o.Leads s) : o.Leads s.startWake := .updBring (.updBackup h)
theorem State.Leads.lose {rails} (h : o.Leads s) : o.Leads (s.lose rails) := ⟨fun ho => ⟨rfl, (h.1 ho).2⟩, h.2⟩

theorem State.Leads.resetSource {prio} (h : o.Leads s) : o.Leads (s.resetSource prio) := by
  unfold State.resetSource
  extract_lets -lift _ s2 _ _ s5 s6
  have hs2 : o.Leads s2 := .updBring h
  have hs5 : o.Leads s5 := .lose h
  have hs6 : o.Leads s6 := .updBring hs5
  exact .ite h (.ite (.ite (.startWake (.updBring hs2)) (.ite (.updBackup hs2) hs2)) (.ite (.startWake hs6) hs6))

theorem State.Answers.resetModule {iss t} (h : o.Leads s) : o.Answers (execResetModule iss t s) := by
  unfold execResetModule
  split
  · exact .next (.ite (.resetSource (.at h)) (.at h))
  · exact .serveIf h (fun _ _ _ h6 => .ite_snd (.updBring h6) h6)

theorem State.Leads.blockStart {a} (h : o.Leads s) : o.Leads (s.blockStart a) := by
  unfold State.blockStart
  split
  · exact .updFw (.updQuay (.foldl h (fun _ _ h3 => .setTile (.poisonTile h3))))
  · exact .updStack (.retireAll h)
  · exact .updChan (.retireAll h)
  · exact .updPort h
  · exact .updEngine h

theorem State.Answers.resetBlock {iss t} (h : o.Leads s) : o.Answers (execResetBlock iss t s) := by
  unfold execResetBlock
  refine .serveIf h fun _ _ _ h6 => ?_
  split
  · exact h6
  · exact .ite_snd h6 (.updBring (.blockStart h6))

theorem State.Leads.quayTested {q bad} (h : o.Leads s) : o.Leads (s.quayTested q bad) := by
  unfold State.quayTested
  extract_lets -lift s1
  have hs1 : o.Leads s1 := .updQuay h
  split
  · exact .quayOut hs1
  · exact .updQuay hs1

theorem State.Answers.blockResetDone {bad t} (h : o.Leads s) : o.Answers (execBlockResetDone bad t s) := by
  unfold execBlockResetDone
  extract_lets -lift s1 f2
  have hs1 : o.Leads s1 := .at h
  have hf2 : ∀ s3, o.Leads s3 → o.Leads (f2 s3) := by
    intro s3 h0f2
    unfold f2
    exact .updBring h0f2
  split
  · exact .next hs1
  · split
    · exact .next (hf2 _ (.ite (.updQuay (.updFw (.quayTested hs1))) (.quayTested hs1)))
    · exact .next (.ite hs1 (hf2 _ hs1))
    · exact .next (hf2 _ hs1)

theorem State.Leads.traceConfig {qmask mode} (h : o.Leads s) : o.Leads (s.traceConfig qmask mode) :=
  .setUnit (.foldl h (fun _ _ h1 => .setUnit h1))

theorem State.Leads.updTrace {f} (h : o.Leads s) : o.Leads (s.updTrace f) := .upd h
theorem State.Leads.snapshot (h : o.Leads s) : o.Leads s.snapshot := .cntMod (.updTrace (.upd h))

theorem State.Leads.trcCfgWork {x m} (h : o.Leads s) : o.Leads (trcCfgWork x m s).2 :=
  .ite_snd h (.ite_snd h (.ite (.snapshot (.traceConfig h)) (.traceConfig h)))

theorem State.Answers.trcCfg {iss t} (h : o.Leads s) : o.Answers (execTrcCfg iss t s) :=
  .serveIf h (fun _ _ _ h1 => .trcCfgWork h1)

theorem State.Answers.counterSnapshot {iss t} (h : o.Leads s) : o.Answers (execCounterSnapshot iss t s) :=
  .serveIf h (fun _ _ _ h1 => .trcCfgWork h1)

theorem State.Answers.trcSink {iss t} (h : o.Leads s) : o.Answers (execTrcSink iss t s) :=
  .serveNow h (fun _ _ h1 => .ite_snd h1 (.ite_snd h1 (.foldl (.updTrace h1) (fun _ _ h2 => .setUnit h2))))

theorem State.Answers.traceRecordWrite {u t} (h : o.Leads s) : o.Answers (execTraceRecordWrite u t s) := by
  unfold execTraceRecordWrite
  extract_lets -lift s1
  have hs1 : o.Leads s1 := .at h
  split
  · exact .next hs1
  · exact .ite (.next hs1) (.next (.cntMod (.setUnit (.upd (.writeMem hs1)))))

theorem State.Leads.raiseVec1 {f} (h : o.Leads s) : o.Leads (s.raiseVec1 f) := .updFunc h

theorem State.Leads.ringFailed {f addr} (h : o.Leads s) : o.Leads (s.ringFailed f addr) :=
  .ite h (.placeEntry (.updFunc h))

theorem State.Answers.eventRecordWrite {f t ok} (h : o.Leads s) : o.Answers (execEventRecordWrite f t ok s) := by
  unfold execEventRecordWrite
  extract_lets -lift s1
  have hs1 : o.Leads s1 := .at h
  split
  · split
    · exact .next hs1
    · extract_lets -lift _ s14 _ s16 s17 s18
      have hs14 : o.Leads s14 := .ite (.hostWrite hs1) hs1
      have hs16 : o.Leads s16 := .upd hs14
      have hs17 : o.Leads s17 := .updFunc hs16
      have hs18 : o.Leads s18 := .raiseVec1 (.cntMod hs17)
      exact .next (.ite hs18 (.ringFailed hs18))
  · exact .next hs1

theorem State.Answers.msixCoalesceExpiry {f vec t} (h : o.Leads s) : o.Answers (execMsixCoalesceExpiry f vec t s) :=
  .ite (.next (.raiseVec1 (.at h))) (.ite (.next (.raiseVec2 (.at h))) (.next (.at h)))

theorem State.Leads.vfWindow {f write off v} (h : o.Leads s) : o.Leads (s.vfWindow f write off v) := by
  unfold State.vfWindow
  split
  · extract_lets -lift
    split
    · split
      · next e => exact .memRespond (State.Leads.snd_of_eq (.writeReg h) e)
    · exact .memRespond h
  · exact .ite (.ite (.memRespond (.isolation h)) (.ite (.memRespond h) (.memRespond (.isolation h)))) (.memRespond h)

theorem State.Answers.hostBarAccess {f bar write off n bs errs t} (h : o.Leads s) :
    o.Answers (execHostBarAccess f bar write off n bs errs t s) := by
  unfold execHostBarAccess
  extract_lets -lift s1 s2 x3
  have hs1 : o.Leads s1 := .at h
  have hs2 : o.Leads s2 := .ite (.logInput hs1) hs1
  split
  · exact .next hs1
  · split
    · exact .ite (.next hs2) (.ite (.next (.memRespond hs2)) (.next (.vfWindow hs2)))
    · unfold x3
      split
      · exact .next hs2
      · exact .ite (.next (.memRespond (.isolation hs2))) (.ite (.next (.memoryWrite hs2)) (.next (.memoryRead hs2)))

/-! ### The I3C sideband (chapter 23) -/

theorem State.Leads.updI3c {f} (h : o.Leads s) : o.Leads (s.updI3c f) := .upd h
theorem State.Leads.i3cResult {st v} (h : o.Leads s) : o.Leads (s.i3cResult st v) := .updI3c h

theorem State.Answers.i3cMbxReq {bs t} (h : o.Leads s) : o.Answers (execI3cMbxReq bs t s) := by
  unfold execI3cMbxReq
  extract_lets -lift s1 _ s3
  have hs1 : o.Leads s1 := .at h
  have hs3 : o.Leads s3 := .logArb hs1
  split
  · exact .next hs1
  · exact .ite (.next (.i3cResult hs1)) (.ite (.next (.updI3c hs1)) (.next (.submit (.updI3c hs3))))

theorem State.Leads.i3cRegister {off f} (h : o.Leads s) (hf : ∀ z1 s, o.Leads s → o.Leads (f z1 s).2.2) :
    o.Leads (s.i3cRegister off f) := .ite (.i3cResult h) (.ite (.i3cResult h) (.i3cResult (hf _ _ h)))

theorem State.Answers.i3cRegRead {bs t} (h : o.Leads s) : o.Answers (execI3cRegRead bs t s) := by
  unfold execI3cRegRead
  extract_lets -lift s2
  have hs2 : o.Leads s2 := .at h
  split
  · exact .next hs2
  · split
    · exact .next (.i3cResult hs2)
    · refine .next ?_
      refine .i3cRegister hs2 fun _ _ h15 => ?_
      split
      · split
        · exact h15
        · split
          · next e => exact State.Leads.snd_of_eq (.readReg h15) e
      · exact h15

theorem State.Answers.i3cRegWrite {bs t} (h : o.Leads s) : o.Answers (execI3cRegWrite bs t s) := by
  unfold execI3cRegWrite
  extract_lets -lift s2
  have hs2 : o.Leads s2 := .at h
  split
  · exact .next hs2
  · split
    · exact .next (.i3cResult hs2)
    · refine .next ?_
      refine .i3cRegister hs2 fun _ _ h15 => ?_
      split
      · next e => exact State.Leads.snd_of_eq (.writeReg h15) e

theorem State.Answers.i3cMbxPoll {bs} (h : o.Leads s) : o.Answers (execI3cMbxPoll bs s) :=
  .ite (.next h) (.ite (.next (.i3cResult h)) (.next (.updI3c h)))

theorem State.Answers.i3cPrivateRead (h : o.Leads s) : o.Answers (execI3cPrivateRead s) :=
  .ite (.next h) (.ite (.next (.updI3c (.memRespond h))) (.next (.memRespond h)))

theorem State.Answers.entdaa {addr} (h : o.Leads s) : o.Answers (execEntdaa addr s) := .next (.ite (.updI3c h) h)
theorem State.Answers.rstdaa (h : o.Leads s) : o.Answers (execRstdaa s) := .next (.updI3c h)
theorem State.Answers.i3cAnswer {n v} (h : o.Leads s) : o.Answers (s.i3cAnswer n v) := .next (.ite (.memRespond h) h)
theorem State.Answers.getpid (h : o.Leads s) : o.Answers (execGetpid s) := .i3cAnswer h
theorem State.Answers.getbcr (h : o.Leads s) : o.Answers (execGetbcr s) := .i3cAnswer h
theorem State.Answers.getdcr (h : o.Leads s) : o.Answers (execGetdcr s) := .i3cAnswer h
theorem State.Answers.getstatus (h : o.Leads s) : o.Answers (execGetstatus s) := .i3cAnswer (.upd h)
theorem State.Answers.enec {v} (h : o.Leads s) : o.Answers (execEnec v s) := .next (.ite (.updI3c h) h)
theorem State.Answers.disec {v} (h : o.Leads s) : o.Answers (execDisec v s) := .next (.ite (.updI3c h) h)
theorem State.Answers.getmwl (h : o.Leads s) : o.Answers (execGetmwl s) := .i3cAnswer h
theorem State.Answers.getmrl (h : o.Leads s) : o.Answers (execGetmrl s) := .i3cAnswer h
theorem State.Answers.setmwl {v} (h : o.Leads s) : o.Answers (execSetmwl v s) := .next (.ite (.updI3c h) h)
theorem State.Answers.setmrl {v} (h : o.Leads s) : o.Answers (execSetmrl v s) := .next (.ite (.updI3c h) h)

theorem State.Answers.ibiSend {b} (h : o.Leads s) : o.Answers (execIbiSend b s) :=
  .ite (.next h) (.ite (.next (.updI3c (.memRespond h))) (.ite (.next (.updI3c (.memRespond h))) (.next h)))

/-! ### Firmware cores, power and coolant (chapters 19 and 20) -/

theorem State.Leads.failQuayNodes {q} (h : o.Leads s) : o.Leads (s.failQuayNodes q) := by
  unfold State.failQuayNodes
  refine .foldl h fun _ _ h5 => ?_
  split
  · exact .failGraph h5
  · exact h5

theorem State.Answers.coreWatchdog {core cause t} (h : o.Leads s) : o.Answers (execCoreWatchdog core cause t s) := by
  unfold execCoreWatchdog
  extract_lets -lift s1 _ s3 s4 s5 s6 _ s8
  have hs1 : o.Leads s1 := .at h
  have hs3 : o.Leads s3 := .capture hs1
  have hs4 : o.Leads s4 := .updFw hs3
  have hs5 : o.Leads s5 := .ite (.updQuay hs4) hs4
  have hs6 : o.Leads s6 := .raise hs5
  have hs8 : o.Leads s8 := .ite (.failQuayNodes hs6) (.ite (.upd hs6) hs6)
  exact .ite (.next hs1) (.next (.ite (.rollBack hs8) hs8))

theorem State.Leads.startRamp (h : o.Leads s) : o.Leads s.startRamp := .updPower h

theorem State.Answers.gateOn {vin t} (h : o.Leads s) : o.Answers (execGateOn vin t s) :=
  .ite (.next (.at h)) (.next (.ite (.updPower (.at h)) (.startRamp (.updPower (.at h)))))

theorem State.Answers.pgood {t} (h : o.Leads s) : o.Answers (execPgood t s) :=
  .ite (.next (.at h)) (.next (.ite (.updPower (.at h)) (.startWake (.updPower (.at h)))))

theorem State.Leads.railsOff {cause} (h : o.Leads s) : o.Leads (s.railsOff cause) := .updBring (.lose h)
theorem State.Leads.gateOff {cause wake} (h : o.Leads s) : o.Leads (s.gateOff cause wake) := .railsOff (.updPower h)
theorem State.Leads.hsFault {cause} (h : o.Leads s) : o.Leads (s.hsFault cause) := .updPower (.gateOff (.updBackup h))

theorem State.Answers.rampTimeout {t} (h : o.Leads s) : o.Answers (execRampTimeout t s) :=
  .ite (.next (.hsFault (.at h))) (.next (.at h))

theorem State.Answers.vinUndervoltage {vin t} (h : o.Leads s) : o.Answers (execVinUndervoltage vin t s) :=
  .ite (.next (.at h)) (.next (.ite (.gateOff (.updPower (.at h))) (.updPower (.at h))))

theorem State.Answers.vinOvervoltage {vin t} (h : o.Leads s) : o.Answers (execVinOvervoltage vin t s) :=
  .ite (.next (.at h)) (.next (.ite (.gateOff (.updPower (.at h))) (.updPower (.at h))))

theorem State.Answers.hsShort {cause t} (h : o.Leads s) : o.Answers (execHsShort cause t s) :=
  .ite (.next (.hsFault (.at h))) (.next (.at h))

theorem State.Answers.hsRetry {t} (h : o.Leads s) : o.Answers (execHsRetry t s) := by
  unfold execHsRetry
  extract_lets -lift s1
  have hs1 : o.Leads s1 := .at h
  split
  · exact .next hs1
  · exact .ite (.next hs1) (.next (.startRamp (.updPower hs1)))

theorem State.Answers.retriesClear {t} (h : o.Leads s) : o.Answers (execRetriesClear t s) := by
  unfold execRetriesClear
  extract_lets -lift s1
  have hs1 : o.Leads s1 := .at h
  split
  · exact .next hs1
  · exact .next (.ite (.updPower hs1) hs1)

theorem State.Leads.thermalShutdown (h : o.Leads s) : o.Leads s.thermalShutdown :=
  .updBackup (.updPower (.railsOff (.updThermal h)))

theorem State.Leads.thresholds (h : o.Leads s) : o.Leads s.thresholds := by
  unfold State.thresholds
  extract_lets -lift _ _ _ _ _ _ _ _ _ _ s12 s13 s14
  have hs12 : o.Leads s12 := .updThermal h
  have hs13 : o.Leads s13 := .ite (.raise hs12) hs12
  have hs14 : o.Leads s14 := .ite (.raise hs13) hs13
  exact .ite (.thermalShutdown h) (.ite hs12 (.foldl hs14 (fun _ _ h15 => .ite (.raise h15) (.raise h15))))

theorem State.Leads.estimate {m} (h : o.Leads s) : o.Leads (s.estimate m) := .updThermal h
theorem State.Leads.measure {m} (h : o.Leads s) : o.Leads (s.measure m) := .updPower h

theorem State.Answers.estimatorUpdate {m t} (h : o.Leads s) : o.Answers (execEstimatorUpdate m t s) :=
  .next (.thresholds (.estimate (.measure (.at h))))

theorem State.Answers.thmRestart {t} (h : o.Leads s) : o.Answers (execThmRestart t s) := by
  unfold execThmRestart
  extract_lets -lift s1 _ s3 s4
  have hs1 : o.Leads s1 := .at h
  have hs3 : o.Leads s3 := .updThermal hs1
  have hs4 : o.Leads s4 := .updBring (.updPower hs3)
  split
  · exact .next hs1
  · exact .ite (.next hs1) (.next (.ite (.startWake hs4) hs4))

theorem State.Answers.coolantSensorRead {inlet outlet t} (h : o.Leads s) :
    o.Answers (execCoolantSensorRead inlet outlet t s) := by
  unfold execCoolantSensorRead
  extract_lets -lift s1 _ _ s4 s5
  have hs1 : o.Leads s1 := .at h
  have hs4 : o.Leads s4 := .updThermal hs1
  have hs5 : o.Leads s5 := .ite (.raise hs4) hs4
  exact .next (.ite (.raise hs5) hs5)

theorem State.Leads.updLimits {q f} (h : o.Leads s) : o.Leads (s.updLimits q f) := .applyLimits (.updQuay h)

theorem State.Answers.softLimitTick {t} (h : o.Leads s) : o.Answers (execSoftLimitTick t s) := by
  unfold execSoftLimitTick
  extract_lets -lift s3 _ s5 s6
  have hs3 : o.Leads s3 := .at h
  have hs5 : o.Leads s5 := .updPower hs3
  have hs6 : o.Leads s6 := .updPower hs3
  split
  · exact .next hs3
  · split
    · exact .next (.foldl hs5 (fun _ _ h14 => .updLimits h14))
    · exact .ite (.next (.ite (.foldl hs6 (fun _ _ h16 => .updLimits h16)) hs6)) (.next hs5)

theorem State.Answers.throttleTick {t} (h : o.Leads s) : o.Answers (execThrottleTick t s) := by
  unfold execThrottleTick
  extract_lets -lift s3 s4
  have hs3 : o.Leads s3 := .at h
  have hs4 : o.Leads s4 := .foldl hs3 (fun _ _ h5 => .updLimits h5)
  exact .ite (.next hs3) (.next (.foldl hs4 (fun _ _ h6 => .updThermal h6)))

theorem State.Answers.hwPowerClamp {w t} (h : o.Leads s) : o.Answers (execHwPowerClamp w t s) := by
  unfold execHwPowerClamp
  extract_lets -lift s1
  have hs1 : o.Leads s1 := .at h
  exact .ite (.next hs1) (.ite (.next (.raise (.updPower hs1))) (.ite (.next (.updPower hs1)) (.next hs1)))

theorem State.Answers.hwPowerClampRelease {w t} (h : o.Leads s) : o.Answers (execHwPowerClampRelease w t s) :=
  .ite (.next (.updPower (.at h))) (.next (.at h))

theorem State.Answers.inputCurrentEmergency {i t} (h : o.Leads s) : o.Answers (execInputCurrentEmergency i t s) :=
  .ite (.next (.at h)) (.next (.raise (.updPower (.at h))))

theorem State.Answers.inputCurrentRelease {i t} (h : o.Leads s) : o.Answers (execInputCurrentRelease i t s) :=
  .ite (.next (.updPower (.at h))) (.next (.at h))

theorem State.Answers.valveTick {fb t} (h : o.Leads s) : o.Answers (execValveTick fb t s) :=
  .next (.updThermal (.ite (.updThermal (.at h)) (.at h)))

theorem State.Leads.valveStuck (h : o.Leads s) : o.Leads s.valveStuck := .ite h (.raise (.updThermal h))

theorem State.Answers.valveFbLost {t} (h : o.Leads s) : o.Answers (execValveFbLost t s) :=
  .next (.updThermal (.valveStuck (.at h)))

theorem State.Answers.valveStuck {t} (h : o.Leads s) : o.Answers (execValveStuck t s) := by
  unfold execValveStuck
  extract_lets -lift s1
  have hs1 : o.Leads s1 := .at h
  split
  · exact .next hs1
  · exact .next (.ite (.valveStuck hs1) hs1)

theorem State.auxReset_memOk (h : s.memOk) : s.auxReset.memOk := ⟨rfl, h.2⟩

theorem State.Answers.perstNAssert {t} (h : o.Leads s) : o.Answers (execPerstNAssert t s) :=
  .next (.resetSource (.updBring (.at h)))

theorem State.Answers.resetNAssert {t} (h : o.Leads s) : o.Answers (execResetNAssert t s) :=
  .next (.resetSource (.updBring (.at h)))

theorem State.Answers.resetStretchEnd {perst resetN t} (h : o.Leads s) :
    o.Answers (execResetStretchEnd perst resetN t s) := by
  unfold execResetStretchEnd
  extract_lets -lift s1 s2
  have hs1 : o.Leads s1 := .updBring (.at h)
  have hs2 : o.Leads s2 := .updBring hs1
  split
  · exact .next hs1
  · exact .ite (.next hs1) (.ite (.next (.resetSource (.updBring hs1))) (.next (.ite (.startWake hs2) hs2)))

theorem State.Answers.moduleWatchdogExpiry {t} (h : o.Leads s) : o.Answers (execModuleWatchdogExpiry t s) :=
  .next (.ite (.resetSource (.at h)) (.at h))

theorem State.Leads.applyConfig (h : o.Leads s) : o.Leads s.applyConfig :=
  .updThermal (.updPower (.upd (.updBring h)))

theorem State.Answers.wakeStepDone {t} (h : o.Leads s) : o.Answers (execWakeStepDone t s) := by
  unfold execWakeStepDone
  extract_lets -lift s1 _ s3 s4
  have hs1 : o.Leads s1 := .at h
  have hs3 : o.Leads s3 := .updBring hs1
  have hs4 : o.Leads s4 := .updBring (.applyConfig hs3)
  exact .ite (.next hs1) (.ite (.next hs3) (.next (.ite (.raise (.raise hs4)) hs4)))

theorem State.Leads.wakeFails {step rail} (h : o.Leads s) : o.Leads (s.wakeFails step rail) :=
  .updBring (.railsOff (.updBackup h))

theorem State.Answers.wakeStepTimeout {rails t} (h : o.Leads s) : o.Answers (execWakeStepTimeout rails t s) := by
  unfold execWakeStepTimeout
  extract_lets -lift s1 _ _ _ _ f6
  have hs1 : o.Leads s1 := .at h
  have hf6 : ∀ s8, o.Leads s8 → o.Leads (f6 s8) := by
    intro s8 h0f6
    unfold f6
    exact .updBring h0f6
  split
  · exact .next hs1
  · split
    · exact .next (.updBring hs1)
    · split
      · exact .next (hf6 _ (.updBring (.upd hs1)))
      · exact .ite (.next (.wakeFails hs1)) (.ite (.next (.wakeFails hs1)) (.next (hf6 _ (.updBring hs1))))

theorem State.Answers.pcieLinkUp {t} (h : o.Leads s) : o.Answers (execPcieLinkUp t s) :=
  .ite (.next (.at h)) (.next (.updBring (.at h)))

theorem State.Leads.tilesTested {bad} (h : o.Leads s) : o.Leads (s.tilesTested bad) :=
  .ite h (.updBring (.foldl h (fun _ _ h1 => .ite (.quayOut h1) (.quayTested h1))))

theorem State.Answers.tileTestDone {bad t} (h : o.Leads s) : o.Answers (execTileTestDone bad t s) :=
  .next (.tilesTested (.at h))

theorem State.Leads.buildMap (h : o.Leads s) : o.Leads s.buildMap :=
  .ite h (.ite (.wakeFails (.ite (.raise (.upd h)) (.upd h))) (.upd (.ite (.raise (.upd h)) (.upd h))))

theorem State.Leads.t1Trained {bad} (h : o.Leads s) : o.Leads (s.t1Trained bad) :=
  .ite h (.buildMap (.updBring (.upd h)))

theorem State.Answers.t1TrainingDone {bad t} (h : o.Leads s) : o.Answers (execT1TrainingDone bad t s) :=
  .next (.t1Trained (.at h))

theorem State.Leads.t2Trained {bad} (h : o.Leads s) : o.Leads (s.t2Trained bad) :=
  .ite h (.buildMap (.updBring (.upd (.foldl h (fun _ _ h1 => .updChan h1)))))

theorem State.Answers.t2TrainingDone {bad t} (h : o.Leads s) : o.Answers (execT2TrainingDone bad t s) :=
  .next (.t2Trained (.at h))

theorem State.Leads.poisonFill {u lo hi} (h : o.Leads s) : o.Leads (s.poisonFill u lo hi) :=
  .upd (.setMem h (Mem.wf_filter _ _))

theorem State.Answers.fillDone {which t} (h : o.Leads s) : o.Answers (execFillDone which t s) := by
  unfold execFillDone
  extract_lets -lift s1 s2 _ s4 _ s6 s7
  have hs1 : o.Leads s1 := .at h
  have hs2 : o.Leads s2 := .poisonFill hs1
  have hs4 : o.Leads s4 := .poisonFill hs1
  have hs6 : o.Leads s6 := .serveHeld (.upd hs4)
  have hs7 : o.Leads s7 := .poisonFill hs1
  split
  · exact .ite (.next hs1) (.next (.serveHeld (.upd hs2)))
  · exact .ite (.next hs1) (.next (.ite hs6 (.logWriteHeader hs6)))
  · exact .ite (.next hs1) (.next (.updBring hs7))
  · exact .next hs1

theorem State.Leads.placeResv {kind size t2} (h : o.Leads s) : o.Leads (s.placeResv kind size t2) := by
  unfold State.placeResv
  extract_lets -lift _ _ _ _ _ x6
  unfold x6
  split
  · exact h
  · exact .upd h

theorem State.Leads.writeResv {kind} (h : o.Leads s) : o.Leads (s.writeResv kind) :=
  .ite (.setMem h (Mem.wf_fillZero _ _ _)) (.setMem (.freshBytes h) (Mem.wf_writeBytes _ _ _))

theorem State.Answers.fwInitDone {t} (h : o.Leads s) : o.Answers (execFwInitDone t s) := by
  unfold execFwInitDone
  extract_lets -lift s9 _ s11 s12 s13 s14 s15
  have hs9 : o.Leads s9 := .at h
  have hs11 : o.Leads s11 := .foldl hs9 (fun _ _ h16 => .placeResv h16)
  have hs12 : o.Leads s12 := .foldl hs11 (fun _ _ h17 => .writeResv h17)
  have hs13 : o.Leads s13 := .ite (.logWriteHeader hs12) hs12
  have hs14 : o.Leads s14 := .ite (.raise hs13) hs13
  have hs15 : o.Leads s15 := .updPower hs14
  exact .ite (.next hs9) (.next (.fabAuto (.updBring hs15)))

theorem State.Answers.bringupReady {t} (h : o.Leads s) : o.Answers (execBringupReady t s) := by
  unfold execBringupReady
  extract_lets -lift s18 _ _ _ s22 s23 s24 s25 s26 s27 s28
  have hs18 : o.Leads s18 := .at h
  have hs22 : o.Leads s22 := .raise (.updBring hs18)
  have hs23 : o.Leads s23 := .iter hs22 (fun _ h33 => .raise h33)
  have hs24 : o.Leads s24 := .ite (.raise hs23) hs23
  have hs25 : o.Leads s25 := .ite (.raise hs24) hs24
  have hs26 : o.Leads s26 := .ite (.raise hs25) hs25
  have hs27 : o.Leads s27 := .ite (.raise hs26) hs26
  have hs28 : o.Leads s28 := .foldl hs27 (fun _ _ h34 => .raise h34)
  exact .ite (.next hs18) (.next (.updBackup hs28))

theorem State.Answers.bringupTimeout {task ran tiles pcs chs t} (h : o.Leads s) :
    o.Answers (execBringupTimeout task ran tiles pcs chs t s) := by
  unfold execBringupTimeout
  extract_lets -lift s1 s2 s3 s4
  have hs1 : o.Leads s1 := .at h
  have hs2 : o.Leads s2 := .raise hs1
  have hs3 : o.Leads s3 := .foldl hs1 (fun _ _ h5 => .fencePc h5)
  have hs4 : o.Leads s4 := .foldl hs1 (fun _ _ h6 => .fenceCh h6)
  split
  · exact .next hs1
  · split
    · exact .next (.ite hs1 hs2)
    · exact .next (.tilesTested hs1)
    · exact .next (.t1Trained hs1)
    · exact .next (.t2Trained hs1)
    · exact .ite (.next hs1) (.fillDone hs3)
    · exact .ite (.next hs1) (.fillDone hs4)
    · exact .ite (.next hs1) (.next (.updFw hs2))
    · exact .next hs1

/-! ### Changes that the surroundings report -/

theorem State.Answers.dramHotChange {t2 n temp hot} (h : o.Leads s) : o.Answers (execDramHotChange t2 n temp hot s) :=
  .ite (.next (.updChan h)) (.next (.upd h))

theorem State.Answers.calibrationRegained {stack pc t} (h : o.Leads s) :
    o.Answers (execCalibrationRegained stack pc t s) := by
  unfold execCalibrationRegained
  extract_lets -lift s1
  have hs1 : o.Leads s1 := .at h
  split
  · exact .ite (.next (.serveHeld (.upd hs1))) (.next hs1)
  · exact .next hs1

theorem State.Answers.pcieCompletionTimeout {q c i t} (h : o.Leads s) :
    o.Answers (execPcieCompletionTimeout q c i t s) := by
  unfold execPcieCompletionTimeout
  extract_lets -lift s1
  have hs1 : o.Leads s1 := .at h
  split
  · split
    · exact .next (.ite (.raise hs1) hs1)
    · exact .next hs1
  · split
    · exact .next hs1
    · exact .ite (.next (.runRecord (.runFail hs1))) (.next hs1)

theorem State.Answers.mbxEnrolmentEnd {core f t} (h : o.Leads s) : o.Answers (execMbxEnrolmentEnd core f t s) :=
  .next (.setCoreQ (.at h))

theorem State.Answers.auxPowerLoss {vbat t} (h : o.Leads s) : o.Answers (execAuxPowerLoss vbat t s) :=
  .next (.upd (.lose (.at h)))

theorem State.Answers.execTileDmaComplete {t id} (h : o.Leads s) : o.Answers (execTileDmaComplete t id s) := by
  unfold Machine.execTileDmaComplete
  split
  · exact .next h
  · refine .ite (.tileDmaComplete h) ?_
    extract_lets
    split
    · next e => exact .next (.dmaFailed (.snd_of_eq (.accessRecord h) e))
    · next e =>
      have h1 := State.Leads.snd_of_eq (.accessRecord h) e
      split
      · split
        · exact .next (.dmaFailed (.poisonRead h1))
        · split
          · next e => exact .next (.dmaFailed (.snd_of_eq (.engineWrite h1) e))
          · next e => exact .next (.dmaDone (.snd_of_eq (.engineWrite h1) e))
      · split
        · next e => exact .next (.dmaFailed (.snd_of_eq (.engineRead h1) e))
        · next e => exact .next (.dmaDone (.writeMem (.snd_of_eq (.engineRead h1) e)))

end

end Sys2Proof.Machine

/-! Settles the statements about every step: the memory form, the time base, and that no step stops. -/

namespace Sys2Proof.Machine

section
variable {s : State}

/-! ### Every command -/

/-- Every command but the return of auxiliary power answers a next state that keeps the form of the memories and
the order of time. -/
theorem State.exec_answers (c : Instr) (hc : c ≠ .auxPowerOn) : s.Answers (exec c s) := by
  have h := State.Leads.refl s
  cases c with
  | registerWrite => exact State.Answers.registerWrite h
  | quaySpareMapWrite => exact State.Answers.quaySpareMapWrite h
  | paceWindowEnd => exact State.Answers.paceWindowEnd h
  | pacePredUpdate => exact State.Answers.pacePredUpdate h
  | paceVsetStepWrite => exact State.Answers.paceVsetStepWrite h
  | supplySettled => exact State.Answers.supplySettled h
  | park => exact State.Answers.park h
  | unpark => exact State.Answers.unpark h
  | unparkReady => exact State.Answers.unparkReady h
  | paceIssueWrite => exact State.Answers.paceIssueWrite h
  | clrMinmax => exact State.Answers.clrMinmax h
  | refclkLost => exact State.Answers.refclkLost h
  | tileStart => exact State.Answers.tileStart h
  | tileStop => exact State.Answers.tileStop h
  | tileResume => exact State.Answers.tileResume h
  | tileAbort => exact State.Answers.tileAbort h
  | tileAbortDone => exact State.Answers.tileAbortDone h
  | scEnd => exact State.Answers.scEnd h
  | dcInv => exact State.Answers.dcInv h
  | cfgPendWrite => exact State.Answers.cfgPendWrite h
  | fetch => exact State.Answers.fetch h
  | fetchStart => exact State.Answers.fetchStart h
  | descFetchDone => exact State.Answers.descFetchDone h
  | residentSetReady => exact State.Answers.residentSetReady h
  | preRecWrite => exact State.Answers.preRecWrite h
  | tecSignalWrite => exact State.Answers.tecSignalWrite h
  | tileFence => exact State.Answers.tileFence h
  | descComplete => exact State.Answers.descComplete h
  | tileDqDeadlock => exact State.Answers.tileDqDeadlock h
  | dqWaitRelease => exact State.Answers.dqWaitRelease h
  | signalQueueApply => exact State.Answers.signalQueueApply h
  | nop => exact State.Answers.nop h
  | loop => exact State.Answers.loop h
  | endloop => exact State.Answers.endloop h
  | preempt => exact State.Answers.preempt h
  | preemptPointStop => exact State.Answers.preemptPointStop h
  | signal => exact State.Answers.signal h
  | wait => exact State.Answers.wait h
  | sync => exact State.Answers.sync h
  | endStream => exact State.Answers.end h
  | load => exact State.Answers.load h
  | store => exact State.Answers.store h
  | dma => exact State.Answers.dma h
  | tileDmaComplete => exact State.Answers.execTileDmaComplete h
  | opfill => exact State.Answers.opfill h
  | mma => exact State.Answers.mma h
  | accrel => exact State.Answers.accrel h
  | vadd => exact State.Answers.vadd h
  | vsub => exact State.Answers.vsub h
  | vmul => exact State.Answers.vmul h
  | vfma => exact State.Answers.vfma h
  | vmin => exact State.Answers.vmin h
  | vmax => exact State.Answers.vmax h
  | vcmplt => exact State.Answers.vcmplt h
  | vcmpeq => exact State.Answers.vcmpeq h
  | vsel => exact State.Answers.vsel h
  | vdiv => exact State.Answers.vdiv h
  | vsqrt => exact State.Answers.vsqrt h
  | vexp => exact State.Answers.vexp h
  | vexp2 => exact State.Answers.vexp2 h
  | vlog => exact State.Answers.vlog h
  | vrcp => exact State.Answers.vrcp h
  | vrsqrt => exact State.Answers.vrsqrt h
  | vtanh => exact State.Answers.vtanh h
  | vsigm => exact State.Answers.vsigm h
  | vsilu => exact State.Answers.vsilu h
  | vgelut => exact State.Answers.vgelut h
  | vgelue => exact State.Answers.vgelue h
  | rsum => exact State.Answers.rsum h
  | rmax => exact State.Answers.rmax h
  | rmin => exact State.Answers.rmin h
  | rsumsq => exact State.Answers.rsumsq h
  | vld => exact State.Answers.vld h
  | vst => exact State.Answers.vst h
  | accrd => exact State.Answers.accrd h
  | accwr => exact State.Answers.accwr h
  | vimm => exact State.Answers.vimm h
  | vbcast => exact State.Answers.vbcast h
  | scInstruction => exact State.Answers.scInstruction h
  | doorbell => exact State.Answers.doorbell h
  | entryRead => exact State.Answers.entryRead h
  | shadowWrite => exact State.Answers.shadowWrite h
  | run => exact State.Answers.run h
  | graphLoad => exact State.Answers.graphLoad h
  | launch => exact State.Answers.launch h
  | unload => exact State.Answers.unload h
  | nodeDispatch => exact State.Answers.nodeDispatch h
  | nodeHead => exact State.Answers.nodeHead h
  | dispatchTimeout => exact State.Answers.dispatchTimeout h
  | nodeComplete => exact State.Answers.nodeComplete h
  | unitFailure => exact State.Answers.unitFailure h
  | graphComplete => exact State.Answers.graphComplete h
  | graphWatchdog => exact State.Answers.graphWatchdog h
  | calWindowEnd => exact State.Answers.calWindowEnd h
  | rebalance => exact State.Answers.rebalance h
  | moveStart => exact State.Answers.moveStart h
  | moveCopyDone => exact State.Answers.moveCopyDone h
  | moveAbandon => exact State.Answers.moveAbandon h
  | moveFreeOld => exact State.Answers.moveFreeOld h
  | peerPlaceTimeout => exact State.Answers.peerPlaceTimeout h
  | stkDescStart => exact State.Answers.stkDescStart h
  | rowcopy => exact State.Answers.rowcopy h
  | rowinit => exact State.Answers.rowinit h
  | rowand => exact State.Answers.rowand h
  | rowor => exact State.Answers.rowor h
  | rowxor => exact State.Answers.rowxor h
  | rownot => exact State.Answers.rownot h
  | gemv => exact State.Answers.gemv h
  | gemvt => exact State.Answers.gemvt h
  | eadd => exact State.Answers.eadd h
  | emul => exact State.Answers.emul h
  | eact => exact State.Answers.eact h
  | eglu => exact State.Answers.eglu h
  | escale => exact State.Answers.escale h
  | norm => exact State.Answers.norm h
  | smx => exact State.Answers.smx h
  | topk => exact State.Answers.topk h
  | reduce => exact State.Answers.reduce h
  | stkDescComplete => exact State.Answers.stkDescComplete h
  | stkChainFail => exact State.Answers.stkChainFail h
  | stkSlotCfgWrite => exact State.Answers.stkSlotCfgWrite h
  | memoryRead => exact State.Answers.memoryRead h
  | memoryWrite => exact State.Answers.memoryWrite h
  | mergeRetire => exact State.Answers.mergeRetire h
  | ceWriteback => exact State.Answers.ceWriteback h
  | refresh unit => exact State.Answers.refresh (_unit := unit) h
  | t1CalLoss => exact State.Answers.t1CalLoss h
  | t1PcFence => exact State.Answers.t1PcFence h
  | t2RetrainStart => exact State.Answers.t2RetrainStart h
  | t2RetrainDone => exact State.Answers.t2RetrainDone h
  | t2RetrainFail => exact State.Answers.t2RetrainFail h
  | scrubRead => exact State.Answers.scrubRead h
  | ceLeak => exact State.Answers.ceLeak h
  | ueHandling => exact State.Answers.ueHandling h
  | mirrorRepairResponse => exact State.Answers.mirrorRepairResponse h
  | dmaListStart => exact State.Answers.dmaListStart h
  | copy => exact State.Answers.copy h
  | fill => exact State.Answers.fill h
  | atomic => exact State.Answers.atomic h
  | redadd => exact State.Answers.redadd h
  | dmaReadbackDone => exact State.Answers.dmaReadbackDone h
  | cqReserveRetry => exact State.Answers.cqReserveRetry h
  | dmaDescFail => exact State.Answers.dmaDescFail h
  | soSignal => exact State.Answers.soSignal h
  | soWait => exact State.Answers.soWait h
  | soWaitDec => exact State.Answers.soWaitDec h
  | soSet => exact State.Answers.soSet h
  | soDec => exact State.Answers.soDec h
  | bar => exact State.Answers.bar h
  | barArrive => exact State.Answers.barArrive h
  | barWait => exact State.Answers.barWait h
  | waiterRetry => exact State.Answers.waiterRetry h
  | soCountWrite => exact State.Answers.soCountWrite h
  | openSeq => exact State.Answers.open h
  | ready => exact State.Answers.ready h
  | credit => exact State.Answers.credit h
  | pause => exact State.Answers.pause h
  | resume => exact State.Answers.resume h
  | close => exact State.Answers.close h
  | query => exact State.Answers.query h
  | setPrio => exact State.Answers.setPrio h
  | rebind => exact State.Answers.rebind h
  | parkCopyDone => exact State.Answers.parkCopyDone h
  | maxWaitExpiry m st => exact State.Answers.maxWaitExpiry (_model := m) (_stage := st) h
  | stepLaunch => exact State.Answers.stepLaunch h
  | stepCompletion => exact State.Answers.stepCompletion h
  | outputDescriptorWrite => exact State.Answers.outputDescriptorWrite h
  | ringWriteError => exact State.Answers.ringWriteError h
  | ttlExpiry => exact State.Answers.ttlExpiry h
  | preemption => exact State.Answers.preemption h
  | preemptTimeout => exact State.Answers.preemptTimeout h
  | spill => exact State.Answers.spill h
  | spillDone => exact State.Answers.spillDone h
  | restoreDone => exact State.Answers.restoreDone h
  | slowdownWindowEnd => exact State.Answers.slowdownWindowEnd h
  | flitReceived => exact State.Answers.flitReceived h
  | pktRd => exact State.Answers.pktRd h
  | pktWr => exact State.Answers.pktWr h
  | pktAtomic => exact State.Answers.pktAtomic h
  | pktRedadd => exact State.Answers.pktRedadd h
  | rspData => exact State.Answers.rspData h
  | rspAck => exact State.Answers.rspAck h
  | rspErr => exact State.Answers.rspErr h
  | mgt => exact State.Answers.mgt h
  | twin => exact State.Answers.twin h
  | twinAck => exact State.Answers.twinAck h
  | hello => exact State.Answers.hello h
  | helloSend => exact State.Answers.helloSend h
  | portLost => exact State.Answers.portLost h
  | portTrained => exact State.Answers.portTrained h
  | portTrainTimeout => exact State.Answers.portTrainTimeout h
  | berthAssign => exact State.Answers.berthAssign h
  | lsaReceived => exact State.Answers.lsaReceived h
  | lsaSend => exact State.Answers.lsaSend h
  | routeCommit => exact State.Answers.routeCommit h
  | routeFloodTimeout => exact State.Answers.routeFloodTimeout h
  | reqTimeout => exact State.Answers.reqTimeout h
  | portRetrainTrigger => exact State.Answers.portRetrainTrigger h
  | portRetrainDone => exact State.Answers.portRetrainDone h
  | twinResend => exact State.Answers.twinResend h
  | twinHeartbeat => exact State.Answers.twinHeartbeat h
  | twinPairLost => exact State.Answers.twinPairLost h
  | takeoverTimer => exact State.Answers.takeoverTimer h
  | takeoverDone => exact State.Answers.takeoverDone h
  | faultReport => exact State.Answers.faultReport h
  | faultAck => exact State.Answers.faultAck h
  | faultSync => exact State.Answers.faultSync h
  | reportTimeout => exact State.Answers.reportTimeout h
  | incidentWindowClose => exact State.Answers.incidentWindowClose h
  | incidentHoldExpiry => exact State.Answers.incidentHoldExpiry h
  | tileFailure => exact State.Answers.tileFailure h
  | markTimeout => exact State.Answers.markTimeout h
  | markQuiescent => exact State.Answers.markQuiescent h
  | logFull => exact State.Answers.logFull h
  | replayDiverged => exact State.Answers.replayDiverged h
  | replayInputMismatch => exact State.Answers.replayInputMismatch h
  | replayEnd => exact State.Answers.replayEnd h
  | mbxGo => exact State.Answers.mbxGo h
  | mbxTimeout => exact State.Answers.mbxTimeout h
  | mbxResponse => exact State.Answers.mbxResponse h
  | ident => exact State.Answers.ident h
  | sessionOpen => exact State.Answers.sessionOpen h
  | sessionClose => exact State.Answers.sessionClose h
  | echo => exact State.Answers.echo h
  | quotaSet => exact State.Answers.quotaSet h
  | quotaGet => exact State.Answers.quotaGet h
  | grant => exact State.Answers.grant h
  | revoke => exact State.Answers.revoke h
  | grantList => exact State.Answers.grantList h
  | windowSet => exact State.Answers.windowSet h
  | evtRingSet => exact State.Answers.evtRingSet h
  | noteRingSet => exact State.Answers.noteRingSet h
  | tenantClear => exact State.Answers.tenantClear h
  | functionLevelReset => exact State.Answers.functionLevelReset h
  | qCreate => exact State.Answers.qCreate h
  | qState => exact State.Answers.qState h
  | qDestroy => exact State.Answers.qDestroy h
  | qQuery => exact State.Answers.qQuery h
  | graphAbort => exact State.Answers.graphAbort h
  | dcInval => exact State.Answers.dcInval h
  | soAlloc => exact State.Answers.soAlloc h
  | soFree => exact State.Answers.soFree h
  | soOp => exact State.Answers.soOp h
  | soCfg => exact State.Answers.soCfg h
  | barBind => exact State.Answers.barBind h
  | barUnbind => exact State.Answers.barUnbind h
  | acBind => exact State.Answers.acBind h
  | acSet => exact State.Answers.acSet h
  | acUnbind => exact State.Answers.acUnbind h
  | pilPlace => exact State.Answers.pilPlace h
  | pilFree => exact State.Answers.pilFree h
  | pilPin => exact State.Answers.pilPin h
  | pilUnpin => exact State.Answers.pilUnpin h
  | pilMove => exact State.Answers.pilMove h
  | pilTable => exact State.Answers.pilTable h
  | pilThresh => exact State.Answers.pilThresh h
  | pilCalCfg => exact State.Answers.pilCalCfg h
  | modelReg => exact State.Answers.modelReg h
  | modelDereg => exact State.Answers.modelDereg h
  | kvGeomReg => exact State.Answers.kvGeomReg h
  | serveRsv => exact State.Answers.serveRsv h
  | serveCfg => exact State.Answers.serveCfg h
  | memMap => exact State.Answers.memMap h
  | memResv => exact State.Answers.memResv h
  | t2Retrain => exact State.Answers.t2Retrain h
  | t2RetrainCfg => exact State.Answers.t2RetrainCfg h
  | scrubCfg => exact State.Answers.scrubCfg h
  | ceCfg => exact State.Answers.ceCfg h
  | berthTable => exact State.Answers.berthTable h
  | fabEnable => exact State.Answers.fabEnable h
  | portCfg => exact State.Answers.portCfg h
  | portRetrain => exact State.Answers.portRetrain h
  | fabCfg => exact State.Answers.fabCfg h
  | twinCfg => exact State.Answers.twinCfg h
  | twinTakeover => exact State.Answers.twinTakeover h
  | twinResync => exact State.Answers.twinResync h
  | logStart => exact State.Answers.logStart h
  | logStop => exact State.Answers.logStop h
  | logMark => exact State.Answers.logMark h
  | replayStart => exact State.Answers.replayStart h
  | replayStop => exact State.Answers.replayStop h
  | paceSet => exact State.Answers.paceSet h
  | pwrLimit => exact State.Answers.pwrLimit h
  | thmRead => exact State.Answers.thmRead h
  | valveSet => exact State.Answers.valveSet h
  | fwLoad => exact State.Answers.fwLoad h
  | fwUpdate => exact State.Answers.fwUpdate h
  | crashDump => exact State.Answers.crashDump h
  | licInstall => exact State.Answers.licInstall h
  | resetModule => exact State.Answers.resetModule h
  | resetBlock => exact State.Answers.resetBlock h
  | blockResetDone => exact State.Answers.blockResetDone h
  | trcCfg => exact State.Answers.trcCfg h
  | counterSnapshot => exact State.Answers.counterSnapshot h
  | trcSink => exact State.Answers.trcSink h
  | traceRecordWrite => exact State.Answers.traceRecordWrite h
  | eventRecordWrite => exact State.Answers.eventRecordWrite h
  | msixCoalesceExpiry => exact State.Answers.msixCoalesceExpiry h
  | mbxEvtHeadWrite => exact State.Answers.mbxEvtHeadWrite h
  | hostBarAccess => exact State.Answers.hostBarAccess h
  | i3cMbxReq => exact State.Answers.i3cMbxReq h
  | i3cRegRead => exact State.Answers.i3cRegRead h
  | i3cRegWrite => exact State.Answers.i3cRegWrite h
  | i3cMbxPoll => exact State.Answers.i3cMbxPoll h
  | i3cPrivateRead => exact State.Answers.i3cPrivateRead h
  | entdaa => exact State.Answers.entdaa h
  | rstdaa => exact State.Answers.rstdaa h
  | getpid => exact State.Answers.getpid h
  | getbcr => exact State.Answers.getbcr h
  | getdcr => exact State.Answers.getdcr h
  | getstatus => exact State.Answers.getstatus h
  | enec => exact State.Answers.enec h
  | disec => exact State.Answers.disec h
  | getmwl => exact State.Answers.getmwl h
  | getmrl => exact State.Answers.getmrl h
  | setmwl => exact State.Answers.setmwl h
  | setmrl => exact State.Answers.setmrl h
  | ibiSend => exact State.Answers.ibiSend h
  | coreWatchdog => exact State.Answers.coreWatchdog h
  | gateOn => exact State.Answers.gateOn h
  | pgood => exact State.Answers.pgood h
  | rampTimeout => exact State.Answers.rampTimeout h
  | vinUndervoltage => exact State.Answers.vinUndervoltage h
  | vinOvervoltage => exact State.Answers.vinOvervoltage h
  | hsShort => exact State.Answers.hsShort h
  | hsRetry => exact State.Answers.hsRetry h
  | retriesClear => exact State.Answers.retriesClear h
  | estimatorUpdate => exact State.Answers.estimatorUpdate h
  | thmRestart => exact State.Answers.thmRestart h
  | coolantSensorRead => exact State.Answers.coolantSensorRead h
  | softLimitTick => exact State.Answers.softLimitTick h
  | throttleTick => exact State.Answers.throttleTick h
  | hwPowerClamp => exact State.Answers.hwPowerClamp h
  | hwPowerClampRelease => exact State.Answers.hwPowerClampRelease h
  | inputCurrentEmergency => exact State.Answers.inputCurrentEmergency h
  | inputCurrentRelease => exact State.Answers.inputCurrentRelease h
  | valveTick => exact State.Answers.valveTick h
  | valveFbLost => exact State.Answers.valveFbLost h
  | valveStuck => exact State.Answers.valveStuck h
  | auxPowerOn => exact absurd rfl hc
  | perstNAssert => exact State.Answers.perstNAssert h
  | resetNAssert => exact State.Answers.resetNAssert h
  | resetStretchEnd => exact State.Answers.resetStretchEnd h
  | moduleWatchdogExpiry => exact State.Answers.moduleWatchdogExpiry h
  | rstWdogKick => exact State.Answers.rstWdogKick h
  | rstWdogCtrlWrite => exact State.Answers.rstWdogCtrlWrite h
  | wakeStepDone => exact State.Answers.wakeStepDone h
  | wakeStepTimeout => exact State.Answers.wakeStepTimeout h
  | pcieLinkUp => exact State.Answers.pcieLinkUp h
  | tileTestDone => exact State.Answers.tileTestDone h
  | t1TrainingDone => exact State.Answers.t1TrainingDone h
  | t2TrainingDone => exact State.Answers.t2TrainingDone h
  | fillDone => exact State.Answers.fillDone h
  | fwInitDone => exact State.Answers.fwInitDone h
  | bringupReady => exact State.Answers.bringupReady h
  | bringupTimeout => exact State.Answers.bringupTimeout h
  | dramHotChange => exact State.Answers.dramHotChange h
  | calibrationRegained => exact State.Answers.calibrationRegained h
  | pcieCompletionTimeout => exact State.Answers.pcieCompletionTimeout h
  | mbxEnrolmentEnd => exact State.Answers.mbxEnrolmentEnd h
  | auxPowerLoss => exact State.Answers.auxPowerLoss h

/-- The command runs with the rest of the queue in place. -/
theorem State.step_answers (c : Instr) (rest : List Instr) (hc : c ≠ .auxPowerOn) (hq : s.pending = c :: rest) :
    s.Answers (step s) := by
  have hs : s.Leads { s with pending := rest } := .refl s
  obtain ⟨u, hu, hsu⟩ := State.exec_answers (s := { s with pending := rest }) c hc
  exact ⟨u, by rw [step, hq]; exact hu, hsu⟩

theorem State.step_idle (hq : s.pending = []) : step s = .next s.tick := by rw [step, hq]

theorem State.step_auxPowerOn (rest : List Instr) (hq : s.pending = .auxPowerOn :: rest) :
    step s = .next (State.auxReset { s with pending := rest }) := by rw [step, hq]; rfl

/-- A step ends an idle tick, the return of auxiliary power, or any other command. -/
theorem State.step_cases (s : State) : (s.pending = [] ∧ step s = .next s.tick) ∨
    (∃ rest, s.pending = .auxPowerOn :: rest ∧ step s = .next (State.auxReset { s with pending := rest })) ∨
    s.Answers (step s) := by
  match hq : s.pending with
  | [] => exact .inl ⟨rfl, State.step_idle hq⟩
  | c :: rest =>
    by_cases hc : c = .auxPowerOn
    · subst hc
      exact .inr (.inl ⟨rest, rfl, State.step_auxPowerOn rest hq⟩)
    · exact .inr (.inr (State.step_answers c rest hc hq))

end

/-- Settles O4: the memory form is kept by every command, and by the tick of an empty queue. -/
theorem memoryFormKept : Obligations.MemoryFormKept := by
  unfold Obligations.MemoryFormKept
  intro s u hs hu
  obtain ⟨-, h⟩ | ⟨rest, -, h⟩ | ⟨v, h, hv⟩ := s.step_cases
  all_goals
    rw [h] at hu
    obtain rfl := Host.Outcome.next.inj hu
  · exact hs
  · exact State.auxReset_memOk (s := { s with pending := rest }) hs
  · exact hv.memOk hs

theorem State.keeps_tick (s : State) : Keeps [.time] s s.tick := by
  simp [Keeps, State.tick]

/-- Settles O2: only the return of auxiliary power sets the time base, to 0; an idle step is a tick. -/
theorem timeBase : Obligations.TimeBase := by
  unfold Obligations.TimeBase
  refine ⟨fun s hq => ⟨s.tick, State.step_idle hq, rfl, s.keeps_tick⟩, fun s u c hc hu => ?_,
    fun s => ⟨s.auxReset, rfl, rfl⟩⟩
  obtain ⟨v, hv, hsv⟩ := State.exec_answers (s := s) c hc
  obtain rfl := Host.Outcome.next.inj (hv.symm.trans hu)
  exact hsv.time_le

/-- Settles O3: every command answers a next state. -/
theorem stepNeverStops : Obligations.StepNeverStops := by
  unfold Obligations.StepNeverStops
  intro s
  obtain ⟨-, h⟩ | ⟨rest, -, h⟩ | ⟨v, h, -⟩ := s.step_cases
  · exact ⟨_, h⟩
  · exact ⟨_, h⟩
  · exact ⟨v, h⟩

/-- Settles O1. -/
theorem stepRunsFront : Obligations.StepRunsFront := by
  unfold Obligations.StepRunsFront
  intro s c rest hq
  rw [step, hq]

end Sys2Proof.Machine

/-! Settles the statement about the registers after reset. -/

namespace Sys2Proof.Machine

/-- No two register blocks share an address. -/
theorem regBlocks_disjoint : ∀ b ∈ regBlocks, ∀ c ∈ regBlocks,
    b = c ∨ b.2.1 + b.2.2.1 * b.2.2.2 ≤ c.2.1 ∨ c.2.1 + c.2.2.1 * c.2.2.2 ≤ b.2.1 := by decide

/-- An address of a block is found by its place in the block and its offset. -/
theorem regAt_of_mem {k : RegBlock} {base size cnt i o : Nat} (hk : (k, base, size, cnt) ∈ regBlocks)
    (hi : i < cnt) (ho : o < size) : regAt (base + i * size + o) = some (k, i, o) := by
  have hlt : i * size + o < size * cnt := by
    calc i * size + o < i * size + size := by omega
      _ = size * (i + 1) := by rw [Nat.mul_add_one, Nat.mul_comm size i]
      _ ≤ size * cnt := Nat.mul_le_mul_left _ hi
  have hf : regBlocks.find? (fun b => decide (b.2.1 ≤ base + i * size + o) &&
      decide (base + i * size + o < b.2.1 + b.2.2.1 * b.2.2.2)) = some (k, base, size, cnt) := by
    cases hc : regBlocks.find? (fun b => decide (b.2.1 ≤ base + i * size + o) &&
        decide (base + i * size + o < b.2.1 + b.2.2.1 * b.2.2.2)) with
    | none =>
      have h := List.find?_eq_none.mp hc _ hk
      simp only [Bool.and_eq_true, decide_eq_true_eq] at h
      omega
    | some c =>
      have h := List.find?_some hc
      simp only [Bool.and_eq_true, decide_eq_true_eq] at h
      obtain rfl | hd | hd := regBlocks_disjoint _ hk _ (List.mem_of_find?_eq_some hc)
      · rfl
      · dsimp only at hd; omega
      · dsimp only at hd; omega
  have hsub : base + i * size + o - base = o + size * i := by rw [Nat.mul_comm size i]; omega
  simp only [regAt, hf, hsub]
  rw [Nat.add_mul_div_left _ _ (by omega), Nat.add_mul_mod_self_left, Nat.div_eq_of_lt ho, Nat.mod_eq_of_lt ho,
    Nat.zero_add]

/-- What a register of a block reads, by its place in the block and its offset. -/
def State.blockValue (s : State) (k : RegBlock) (i o : Nat) : Nat :=
  match k with
  | .pace => s.readPace i o
  | .quay => s.readQuay i o
  | .tile => s.readTile i o
  | .stk => s.readStk i o
  | .t2 => s.readT2 i o
  | .port => s.readPort i o
  | .fab => s.readFab o
  | .dma => s.readDma o
  | .sync => s.readSync o
  | .man => s.readMan o
  | .pil => s.readPil o
  | .trc => s.readTrc i o
  | .pwr => s.readPwr o
  | .thm => s.readThm o
  | .rst => s.readRst o
  | .mbx => s.readMbx i o

theorem State.regValue_of_regAt {s : State} {a i o : Nat} {k : RegBlock} (h : regAt a = some (k, i, o)) :
    s.regValue a = s.blockValue k i o := by
  rw [State.regValue, h]
  rfl

/-- The value of a register of a block after reset, which is that of the first place. -/
theorem State.reset_regValue (k : RegBlock) (base : Nat) {size cnt i : Nat} (o : Nat) {a v : Nat} (hi : i < cnt)
    (h0 : State.reset.blockValue k i o = State.reset.blockValue k 0 o)
    (hk : (k, base, size, cnt) ∈ regBlocks := by decide) (ho : o < size := by decide) (ha : a = base + o := by rfl)
    (hv : State.reset.blockValue k 0 o = v := by decide) : State.reset.regValue (a + i * size) = v := by
  rw [ha, Nat.add_right_comm, State.regValue_of_regAt (regAt_of_mem hk hi ho), h0, hv]

theorem State.reset_quay (n : Nat) : State.reset.quay n = Quay.reset := rfl

/-- The quays differ in none of these registers. -/
theorem State.reset_quayValue (n : Nat) {o : Nat} (ho : o ∈ [0x04, 0x10, 0x20, 0x44]) :
    State.reset.blockValue .quay n o = State.reset.blockValue .quay 0 o := by
  simp only [List.mem_cons, List.not_mem_nil, or_false] at ho
  obtain rfl | rfl | rfl | rfl := ho
  all_goals
    simp only [State.blockValue, State.readQuay, State.reset_quay, word4]
    rfl

/-- Ports 0 to 13 are no dock ports. -/
theorem State.reset_portState (n : Nat) (hn : n < 14) :
    State.reset.blockValue .port n 0 = State.reset.blockValue .port 0 0 := by
  have h : b2n (decide (14 ≤ n)) = b2n (decide (14 ≤ 0)) := by rw [decide_eq_false (by omega)]; rfl
  simp only [State.blockValue, State.readPort, h]
  rfl

/-- Settles O5: block by block, and place by place alike. -/
theorem resetState : Obligations.ResetState := by
  unfold Obligations.ResetState
  refine ⟨⟨rfl, rfl⟩, rfl, rfl, ?_⟩
  simp only [List.forall_mem_cons]
  refine ⟨?_, ?_, ?_, ?_, ?_, ?_, ?_, ?_, ?_, ?_, ?_, ?_, ?_, ?_, ?_, ?_, ?_, ?_, ?_, ?_, ?_, ?_, ?_, ?_,
    ?_, ?_, ?_, ?_, ?_, ?_, ?_, ?_, ?_, ?_, ?_, ?_, ?_, ?_, ?_, fun _ h => nomatch h⟩
  · exact fun n hn => State.reset_regValue .pace 0x7F0000000000 0x0 hn rfl
  · exact fun n hn => State.reset_regValue .pace 0x7F0000000000 0x4 hn rfl
  · exact fun n hn => State.reset_regValue .pace 0x7F0000000000 0x10 hn rfl
  · exact fun n hn => State.reset_regValue .pace 0x7F0000000000 0x1C hn rfl
  · exact fun n hn => State.reset_regValue .quay 0x7F0000100000 0x4 hn (State.reset_quayValue n (by decide))
  · exact fun n hn => State.reset_regValue .quay 0x7F0000100000 0x10 hn (State.reset_quayValue n (by decide))
  · exact fun n hn => State.reset_regValue .quay 0x7F0000100000 0x20 hn (State.reset_quayValue n (by decide))
  · exact fun n hn => State.reset_regValue .quay 0x7F0000100000 0x44 hn (State.reset_quayValue n (by decide))
  · exact fun n hn => State.reset_regValue .tile 0x7F0001000000 0x4 hn rfl
  · exact fun n hn => State.reset_regValue .tile 0x7F0001000000 0x40 hn rfl
  · exact fun n hn => State.reset_regValue .stk 0x7F0002000000 0x8 hn rfl
  · exact fun n hn => State.reset_regValue .stk 0x7F0002000000 0x40 hn rfl
  · exact fun n hn => State.reset_regValue .stk 0x7F0002000000 0x48 hn rfl
  · exact fun n hn => State.reset_regValue .t2 0x7F0003000000 0x8 hn rfl
  · exact fun n hn => State.reset_regValue .port 0x7F0004000000 0x0 (Nat.lt_trans hn (by decide : 14 < 16)) (State.reset_portState n hn)
  · exact fun n hn => State.reset_regValue .port 0x7F0004000000 0x4 hn rfl
  · decide
  · decide
  · decide
  · decide
  · decide
  · decide
  · decide
  · decide
  · decide
  · decide
  · decide
  · exact fun n hn => State.reset_regValue .trc 0x7F0008000000 0x0 hn rfl
  · decide
  · decide
  · decide
  · decide
  · decide
  · decide
  · decide
  · decide
  · decide
  · exact fun n hn => State.reset_regValue .mbx 0x7F000A000000 0x8 hn rfl
  · exact fun n hn => State.reset_regValue .mbx 0x7F000A000000 0x10 hn rfl

end Sys2Proof.Machine

/-! How a command's frame is put together from those of the updates it makes. -/

namespace Sys2Proof.Machine

section
variable {α : Type} {ks ls : List Part} {s t u : State}

theorem Keeps.refl (s : State) : Keeps ks s s := by simp [Keeps]

theorem kept_trans {p : Part} {a b c : α} (h : p ∈ ks ∨ b = a) (k : p ∈ ls ∨ c = b) : p ∈ ks ++ ls ∨ c = a := by
  rw [List.mem_append]
  obtain h | rfl := h
  · exact .inl (.inl h)
  · exact k.imp_left .inr

theorem Keeps.append (h : Keeps ks s t) (k : Keeps ls t u) : Keeps (ks ++ ls) s u := by
  obtain ⟨h1, h2, h3, h4, h5, h6, h7, h8, h9, h10, h11, h12, h13, h14, h15, h16, h17, h18, h19, h20, h21, h22, h23,
    h24, h25, h26, h27, h28, h29, h30, h31, h32, h33, h34⟩ := h
  obtain ⟨k1, k2, k3, k4, k5, k6, k7, k8, k9, k10, k11, k12, k13, k14, k15, k16, k17, k18, k19, k20, k21, k22, k23,
    k24, k25, k26, k27, k28, k29, k30, k31, k32, k33, k34⟩ := k
  exact ⟨kept_trans h1 k1, kept_trans h2 k2, kept_trans h3 k3, kept_trans h4 k4, kept_trans h5 k5, kept_trans h6 k6,
    kept_trans h7 k7, kept_trans h8 k8, kept_trans h9 k9, kept_trans h10 k10, kept_trans h11 k11, kept_trans h12
    k12, kept_trans h13 k13, kept_trans h14 k14, kept_trans h15 k15, kept_trans h16 k16, kept_trans h17 k17,
    kept_trans h18 k18, kept_trans h19 k19, kept_trans h20 k20, kept_trans h21 k21, kept_trans h22 k22, kept_trans
    h23 k23, kept_trans h24 k24, kept_trans h25 k25, kept_trans h26 k26, kept_trans h27 k27, kept_trans h28 k28,
    kept_trans h29 k29, kept_trans h30 k30, kept_trans h31 k31, kept_trans h32 k32, kept_trans h33 k33, kept_trans
    h34 k34⟩

theorem Keeps.mono (h : Keeps ks s t) (hs : ks ⊆ ls) : Keeps ls s t := by
  obtain ⟨h1, h2, h3, h4, h5, h6, h7, h8, h9, h10, h11, h12, h13, h14, h15, h16, h17, h18, h19, h20, h21, h22, h23,
    h24, h25, h26, h27, h28, h29, h30, h31, h32, h33, h34⟩ := h
  exact ⟨h1.imp_left (hs ·), h2.imp_left (hs ·), h3.imp_left (hs ·), h4.imp_left (hs ·), h5.imp_left (hs ·),
    h6.imp_left (hs ·), h7.imp_left (hs ·), h8.imp_left (hs ·), h9.imp_left (hs ·), h10.imp_left (hs ·),
    h11.imp_left (hs ·), h12.imp_left (hs ·), h13.imp_left (hs ·), h14.imp_left (hs ·), h15.imp_left (hs ·),
    h16.imp_left (hs ·), h17.imp_left (hs ·), h18.imp_left (hs ·), h19.imp_left (hs ·), h20.imp_left (hs ·),
    h21.imp_left (hs ·), h22.imp_left (hs ·), h23.imp_left (hs ·), h24.imp_left (hs ·), h25.imp_left (hs ·),
    h26.imp_left (hs ·), h27.imp_left (hs ·), h28.imp_left (hs ·), h29.imp_left (hs ·), h30.imp_left (hs ·),
    h31.imp_left (hs ·), h32.imp_left (hs ·), h33.imp_left (hs ·), h34.imp_left (hs ·)⟩

/-- What keeps everything else twice keeps it. -/
theorem Keeps.trans (h : Keeps ks s t) (k : Keeps ks t u) : Keeps ks s u :=
  (h.append k).mono (List.append_subset.mpr ⟨List.Subset.refl _, List.Subset.refl _⟩)

theorem OnlyAt.refl {a : Table α} {k : Nat} : OnlyAt a a k := fun _ _ => rfl

theorem OnlyAt.trans {a b c : Table α} {k : Nat} (h : OnlyAt a b k) (h' : OnlyAt b c k) : OnlyAt a c k :=
  fun j hj => (h' j hj).trans (h j hj)

theorem OnlyAt.put {a : Table α} {k : Nat} {x : α} : OnlyAt a (Table.put a k x) k :=
  fun _ hj => Table.find_put_ne a x hj

theorem OnlyAt.of_put {a b : Table α} {k : Nat} {x : α} (h : b = Table.put a k x) : OnlyAt a b k := h ▸ .put

theorem Keeps.ite {c : Prop} [Decidable c] (ht : Keeps ks s t) (hu : Keeps ks s u) :
    Keeps ks s (if c then t else u) := by split <;> assumption

theorem State.keeps_at {n : Nat} : Keeps [.time] s (s.at n) := by simp [Keeps]
theorem State.keeps_setQuay {q : Nat} {x : Quay} : Keeps [.quays] s (s.setQuay q x) := by simp [Keeps]
theorem State.keeps_updQuay {q : Nat} {f : Quay → Quay} : Keeps [.quays] s (s.updQuay q f) := State.keeps_setQuay
theorem State.keeps_updPace {q : Nat} {f : Pace → Pace} : Keeps [.quays] s (s.updPace q f) := State.keeps_setQuay
theorem State.keeps_setTile {n : Nat} {x : Tile} : Keeps [.tiles] s (s.setTile n x) := by simp [Keeps]
theorem State.keeps_updTile {n : Nat} {f : Tile → Tile} : Keeps [.tiles] s (s.updTile n f) := State.keeps_setTile
theorem State.keeps_setFunc {n : Nat} {x : Func} : Keeps [.hif] s (s.setFunc n x) := by simp [Keeps]
theorem State.keeps_setSo {n : Nat} {x : SyncObj} : Keeps [.sync] s (s.setSo n x) := by simp [Keeps]
theorem State.keeps_setBar {n : Nat} {x : Barrier} : Keeps [.sync] s (s.setBar n x) := by simp [Keeps]
theorem State.keeps_setUnit {n : Nat} {x : TraceUnit} : Keeps [.trace] s (s.setUnit n x) := by simp [Keeps]
theorem State.keeps_cntQuay {q i n : Nat} : Keeps [.trace] s (s.cntQuay q i n) := by simp [Keeps]
theorem State.keeps_cntMod {i n : Nat} : Keeps [.trace] s (s.cntMod i n) := by simp [Keeps]
theorem State.keeps_cntTen {m i n : Nat} : Keeps [.trace] s (s.cntTen m i n) := by simp [Keeps]
theorem State.keeps_raise {st : Status} {k n a : Nat} {tn : Option Nat} :
    Keeps [.events, .trace] s (s.raise st k n tn a) := by simp [Keeps]
theorem State.keeps_memRespond {st : Status} {a : Nat} {bs : List Byte} :
    Keeps [.resp] s (s.memRespond st a bs) := by simp [Keeps, State.memRespond]

@[simp] theorem State.updQuay_quay {q : Nat} {f : Quay → Quay} : (s.updQuay q f).quay q = f (s.quay q) :=
  State.quay_setQuay ..
@[simp] theorem State.updPace_pace {q : Nat} {f : Pace → Pace} :
    ((s.updPace q f).quay q).pace = f (s.quay q).pace := congrArg Quay.pace (State.updQuay_quay ..)
@[simp] theorem State.updTile_tile {n : Nat} {f : Tile → Tile} : (s.updTile n f).tile n = f (s.tile n) :=
  State.tile_setTile ..
theorem State.onlyAt_updQuay {q : Nat} {f : Quay → Quay} : OnlyAt s.quays (s.updQuay q f).quays q := .put
theorem State.onlyAt_updPace {q : Nat} {f : Pace → Pace} : OnlyAt s.quays (s.updPace q f).quays q := .put
theorem State.onlyAt_updTile {n : Nat} {f : Tile → Tile} : OnlyAt s.tiles (s.updTile n f).tiles n := .put

end

end Sys2Proof.Machine

/-! Settles the statement about writes of quay registers. -/

namespace Sys2Proof.Machine

theorem regCheck_of_none {a n : Nat} (h : regAt a = none) : regCheck a n = some ST_ADDR_UNMAPPED := by
  simp [regCheck, h]

theorem regAt_quayCeCfg {q : Nat} (hq : q < 64) : regAt (0x7F0000100044 + q * 0x10000) = some (.quay, q, 0x44) := by
  rw [show 0x7F0000100044 + q * 0x10000 = 0x7F0000100000 + q * 0x10000 + 0x44 by omega]
  exact regAt_of_mem (by decide : (RegBlock.quay, 0x7F0000100000, 0x10000, 64) ∈ regBlocks) hq (by decide)

theorem regCheck_quayCeCfg {q : Nat} (hq : q < 64) : regCheck (0x7F0000100044 + q * 0x10000) 4 = none := by
  have h4 : (0x7F0000100044 + q * 0x10000) % 4 = 0 := by omega
  simp only [regCheck, regAt_quayCeCfg hq, h4]
  rfl

/-- What a write of a spare map that is not locked gives, and what it leaves. -/
theorem State.writeSpare_unlocked {s : State} {q n v : Nat}
    (h : (Table.getD (s.quay q).spares n SpareMap.reset).locked = false) :
    ∃ x : Quay, s.writeSpare (.quayCore q) q n v = s.setQuay q x ∧
      x.spares = Table.put (s.quay q).spares n { inUse := bit v 31, replaced := BitVec.ofNat 7 v, locked := true } := by
  unfold State.writeSpare
  rw [if_neg (by simp [h])]
  exact ⟨_, rfl, rfl⟩

theorem State.writeSpare_locked {s : State} {r : Requester} {q n v : Nat}
    (h : (Table.getD (s.quay q).spares n SpareMap.reset).locked = true) : s.writeSpare r q n v = s := by
  unfold State.writeSpare
  exact if_pos (.inr h)

/-- Settles O6. -/
theorem quayRegisterWrites : Obligations.QuayRegisterWrites := by
  unfold Obligations.QuayRegisterWrites
  refine ⟨fun s r a v t ha => ?_, fun s q v t hq hr => ?_, fun s q n v hq hn hr hl => ?_, fun s r q n v hl => ?_⟩
  · refine ⟨(s.at t).memRespond ST_ADDR_UNMAPPED a [], ?_, rfl, rfl, ?_⟩
    · simp only [exec, execRegisterWrite, regCheck_of_none ha]
    · exact (State.keeps_at.append State.keeps_memRespond).mono (by decide)
  · let x : Quay :=
      { s.quay q with ceCap := BitVec.ofNat 16 (v % 2 ^ 32), ceLeakMs := BitVec.ofNat 16 (v % 2 ^ 32 / 2 ^ 16) }
    refine ⟨((s.at t).setQuay q x).memRespond 0 0 [], ?_, ?_, ?_, .put, rfl, ?_⟩
    · have hi : (s.at t).regIsolated .quay q = false := hr
      simp only [exec, execRegisterWrite, regCheck_quayCeCfg hq, State.writeReg, regAt_quayCeCfg hq, hi]
      rfl
    · have hx : (((s.at t).setQuay q x).quay q).ceCap = x.ceCap := by rw [State.quay_setQuay]
      refine hx.trans (BitVec.eq_of_toNat_eq ?_)
      simp [x, Nat.mod_mod_of_dvd]
    · have hx : (((s.at t).setQuay q x).quay q).ceLeakMs = x.ceLeakMs := by rw [State.quay_setQuay]
      exact hx
    · exact ((State.keeps_at.append State.keeps_setQuay).append State.keeps_memRespond).mono (by decide)
  · obtain ⟨x, hx, hs⟩ := State.writeSpare_unlocked (v := v) hl
    refine ⟨s.setQuay q x, ?_, ?_, ?_, .put, State.keeps_setQuay⟩
    · simp [exec, execQuaySpareMapWrite, hq, hn, hr, hx]
    · simp [hs]
    · rw [State.quay_setQuay]
      exact .of_put hs
  · refine ⟨s, ?_, rfl⟩
    simp [exec, execQuaySpareMapWrite, State.writeSpare_locked hl]

end Sys2Proof.Machine

/-! Settles the statement about pace, supply and issue rate. -/

namespace Sys2Proof.Machine

theorem State.setStep_step {s : State} {q v : Nat} (hv : v < 128) :
    ((s.setStep q v).quay q).pace.step.toNat = v := by
  unfold State.setStep
  split
  · assumption
  · simp [Nat.mod_eq_of_lt hv]

theorem State.setStep_vsetClamped {s : State} {q v : Nat} :
    ((s.setStep q v).quay q).pace.vsetClamped = (s.quay q).pace.vsetClamped := by
  unfold State.setStep
  split <;> simp

theorem State.onlyAt_setStep {s : State} {q v : Nat} : OnlyAt s.quays (s.setStep q v).quays q := by
  unfold State.setStep
  split
  · exact .refl
  · rw [State.cntQuay_quays]
    exact State.onlyAt_updPace

theorem State.keeps_setStep {s : State} {q v : Nat} : Keeps [.quays, .trace] s (s.setStep q v) := by
  unfold State.setStep
  exact .ite (.refl s) (State.keeps_updPace.append State.keeps_cntQuay)

theorem stepClamp_range (v : Nat) : 10 ≤ stepClamp v ∧ stepClamp v ≤ 70 := by unfold stepClamp; omega

theorem stepClamp_eq_self (v : Nat) : stepClamp v = v ↔ ¬ (v < 10 ∨ 70 < v) := by unfold stepClamp; omega

theorem max_toNat (a b : BitVec 16) : (if a.toNat < b.toNat then b else a).toNat = max a.toNat b.toNat := by
  split <;> omega

theorem min_toNat (a b : BitVec 16) : (if b.toNat < a.toNat then b else a).toNat = min a.toNat b.toNat := by
  split <;> omega

/-- A quay's measured pace at the end of a window, and what else the command touches. -/
theorem exec_paceWindowEnd {s : State} {q cur mv t : Nat} (hq : q < 64) (hs : (s.quay q).inService = true)
    (hp : (s.quay q).parked = false) : ∃ (f : Pace → Pace) (u : State),
    exec (.paceWindowEnd q cur mv t) s = .next u ∧ u.quays = ((s.at t).updPace q f).quays ∧
    Keeps [.time, .quays, .events, .trace] s u ∧ ∀ p, (f p).valid = true ∧ (f p).cur = BitVec.ofNat 16 cur ∧
      (f p).vmeas = BitVec.ofNat 10 mv ∧ (f p).max.toNat = max p.max.toNat (cur % 2 ^ 16) ∧
      (f p).min.toNat = min p.min.toNat (cur % 2 ^ 16) := by
  have h64 : q ≠ 64 := by omega
  have hx : ¬ (((s.at t).quay q).parked = true ∨ ¬ ((s.at t).quay q).inService = true) := by simp [hs, hp]
  simp only [exec, execPaceWindowEnd, if_neg h64, if_neg hx]
  have hcnt (u : State) (n : Nat) : ((u.cntQuay q 58 1).cntQuay q 59 n).quays = u.quays := rfl
  have hraise (u : State) (c : Prop) [Decidable c] (st : Status) :
      (if c then u.raise st 1 q none 0 else u).quays = u.quays := by split <;> simp
  have hkeep (u : State) (c : Prop) [Decidable c] (st : Status) (h : Keeps [.time, .quays, .events, .trace] s u) :
      Keeps [.time, .quays, .events, .trace] s (if c then u.raise st 1 q none 0 else u) :=
    .ite ((h.append State.keeps_raise).mono (by decide)) h
  refine ⟨_, _, rfl, (hraise _ _ _).trans ((hraise _ _ _).trans (hcnt _ _)), hkeep _ _ _ (hkeep _ _ _ ?_), fun p => ?_⟩
  · exact (((State.keeps_at.append State.keeps_updPace).append State.keeps_cntQuay).append
      State.keeps_cntQuay).mono (by decide)
  · exact ⟨rfl, rfl, rfl, by rw [max_toNat, BitVec.toNat_ofNat], by rw [min_toNat, BitVec.toNat_ofNat]⟩

/-- Settles O7. -/
theorem paceCommands : Obligations.PaceCommands := by
  unfold Obligations.PaceCommands
  refine ⟨fun s q cur mv t hq hs hp => ?_, fun s q h => ?_, fun s q v => ?_, fun s q t h => ?_, fun s q v => ?_,
    fun s r q v h => ?_, fun s q v h => ?_⟩
  · obtain ⟨f, u, hu, hqu, hk, hf⟩ := exec_paceWindowEnd (cur := cur) (mv := mv) (t := t) hq hs hp
    have hpace : (u.quay q).pace = f (s.quay q).pace := by
      rw [State.quay, hqu]
      exact State.updPace_pace ..
    obtain ⟨h1, h2, h3, h4, h5⟩ := hf (s.quay q).pace
    rw [← hpace] at h1 h2 h3 h4 h5
    exact ⟨u, hu, h1, h2, h3, h4, h5, .of_put hqu, hk⟩
  · refine ⟨_, if_pos h, ?_, State.onlyAt_updPace, State.keeps_updPace⟩
    rw [State.updPace_pace]
  · let s1 := if stepClamp (v % 128) = v % 128 then s else s.updPace q (fun p => { p with vsetClamped := true })
    have hr := stepClamp_range (v % 128)
    have hc := stepClamp_eq_self (v % 128)
    have h1 : OnlyAt s.quays s1.quays q ∧ Keeps [.quays, .trace] s s1 ∧ (s1.quay q).pace.vsetClamped =
        ((s.quay q).pace.vsetClamped || decide (v % 128 < 10 ∨ 70 < v % 128)) := by
      dsimp only [s1]
      split
      · next e => exact ⟨.refl, .refl s, by simp [hc.mp e]⟩
      · next e =>
        have e' : v % 128 < 10 ∨ 70 < v % 128 := by
          refine Classical.byContradiction fun h => ?_
          exact e (hc.mpr h)
        exact ⟨State.onlyAt_updPace, State.keeps_updPace.mono (by decide), by simp [e']⟩
    obtain ⟨ho, hk, hv⟩ := h1
    exact ⟨s1.setStep q (stepClamp (v % 128)), rfl, State.setStep_step (by omega), State.setStep_vsetClamped.trans hv,
      ho.trans State.onlyAt_setStep, hk.trans State.keeps_setStep⟩
  · refine ⟨(s.at t).updPace q (fun p => { p with slewing := false }), ?_, ?_, ?_, State.onlyAt_updPace,
      State.keeps_at.append State.keeps_updPace⟩
    · have hn : ((s.at t).updPace q (fun p => { p with slewing := false })).nextStage q =
          (s.at t).updPace q (fun p => { p with slewing := false }) := by
        unfold State.nextStage
        simp [h]
      simp only [exec, execSupplySettled, hn, ite_self]
    · rw [State.updPace_pace]
    · rw [State.updPace_pace]; rfl
  · refine ⟨_, rfl, ?_, State.onlyAt_updPace, State.keeps_updPace⟩
    rw [State.updPace_pace]
  · exact ⟨s, by simp [exec, execPaceIssueWrite, h], rfl⟩
  · refine ⟨s.updPace q (fun p => { p with max := 0, min := 0xFFFF#16 }), ?_, ?_, ?_, State.onlyAt_updPace,
      State.keeps_updPace⟩
    · simp [exec, execClrMinmax, bit, h]
    · rw [State.updPace_pace]
    · rw [State.updPace_pace]

end Sys2Proof.Machine

/-! Settles the statement about TILE_CTRL. -/

namespace Sys2Proof.Machine

section
variable {s : State} {r : Requester} {t : Nat}

@[simp] theorem ownsTile_quayCore : ownsTile (.quayCore (t / 64)) t = true := by simp [ownsTile]
@[simp] theorem ownsTile_scalar : ownsTile (.scalar t) t = true := by simp [ownsTile]

theorem State.ownedWrite_owner {off : Nat} {f : State → State} (h : ownsTile r t = true) :
    s.ownedWrite r t off f = f s := if_pos h

/-! ### One command of TILE_CTRL each -/

theorem exec_tileStart (h : ownsTile r t = true) : exec (.tileStart r t) s = .next (s.tileStart t) :=
  congrArg _ (State.ownedWrite_owner h)

theorem exec_tileStop (h : ownsTile r t = true) : exec (.tileStop r t) s = .next (s.tileStop t) :=
  congrArg _ (State.ownedWrite_owner h)

theorem exec_tileResume (h : ownsTile r t = true) : exec (.tileResume r t) s = .next (s.tileResume t) :=
  congrArg _ (State.ownedWrite_owner h)

theorem exec_tileAbort (h : ownsTile r t = true) : exec (.tileAbort r t) s = .next (s.tileAbort t) :=
  congrArg _ (State.ownedWrite_owner h)

theorem exec_scEnd (h : ownsTile r t = true) : exec (.scEnd r t) s = .next (s.tileScEnd t) :=
  congrArg _ (State.ownedWrite_owner h)

theorem exec_dcInv (h : ownsTile r t = true) : exec (.dcInv r t) s = .next (s.updTile t Tile.dcInv) :=
  congrArg _ (State.ownedWrite_owner h)

/-! ### What they do to the tile -/

theorem State.tileStart_idle (hm : (s.tile t).mode = .idle) (hf : (s.tile t).fetchBusy = false)
    (hp : (s.tile t).pendValid = false) (hr : (s.tile t).prefetch = .none) (hd : descHeadCheck (s.tile t).pend = none) :
    s.tileStart t = (s.setTile t { s.tile t with startHeld := true, pendValid := true, fromRecord := false }).cntQuay
      (t / 64) 46 1 := by
  simp only [State.tileStart, hm, hf, hp, State.startPending, hd, hr, Bool.false_eq_true, ↓reduceIte]

theorem State.tileStart_running (hm : (s.tile t).mode = .running) (hf : (s.tile t).fetchBusy = false)
    (hp : (s.tile t).pendValid = false) : s.tileStart t = s.setTile t { s.tile t with pendValid := true } := by
  simp only [State.tileStart, hm, hf, hp, Bool.false_eq_true, ↓reduceIte]

theorem State.tileStart_waiting (hf : (s.tile t).fetchBusy = false) (hp : (s.tile t).pendValid = true) :
    s.tileStart t = (s.setTile t { s.tile t with startLost := true }).raise ST_TILE_BUSY 2 t none 0 := by
  simp only [State.tileStart, hf, hp, Bool.false_eq_true, ↓reduceIte]

theorem State.tileStop_idle (hm : (s.tile t).mode = .idle) :
    s.tileStop t = s.setTile t { s.tile t with mode := .stopped, startHeld := false, fromIdle := true } := by
  simp only [State.tileStop, hm]

theorem State.tileStop_running (hm : (s.tile t).mode = .running) (ha : (s.tile t).active = true) :
    s.tileStop t = s.setTile t { s.tile t with mode := .stopping } := by
  simp only [State.tileStop, hm, ha, ↓reduceIte]

theorem State.tileResume_inactive (hm : (s.tile t).mode = .stopped) (ha : (s.tile t).active = false)
    (hp : (s.tile t).pendValid = false) (hb : bit (s.tile t).preRec.toNat 56 = false) :
    s.tileResume t = s.setTile t { s.tile t with mode := .idle } := by
  simp [State.tileResume, hm, ha, hp, hb]

theorem State.tileResume_active (hm : (s.tile t).mode = .stopped) (ha : (s.tile t).active = true) :
    s.tileResume t = s.setTile t ((({ s.tile t with mode := .running, atPoint := false, vregs := [] } : Tile).unhold
      false s.time).unhold true s.time) := by
  simp [State.tileResume, hm, ha]

theorem Tile.advance_kept (x : Tile) (ex : Bool) (nxt : Option Nat) (now : Nat) :
    (x.advance ex nxt now).mode = x.mode ∧ (x.advance ex nxt now).atPoint = x.atPoint := by
  unfold Tile.advance Tile.setStream
  split <;> exact ⟨rfl, rfl⟩

theorem Tile.unhold_kept (x : Tile) (ex : Bool) (now : Nat) :
    (x.unhold ex now).mode = x.mode ∧ (x.unhold ex now).atPoint = x.atPoint := by
  unfold Tile.unhold
  split
  · exact x.advance_kept ..
  · exact ⟨rfl, rfl⟩

/-- With no object of the sync unit known, no wait stands in one. -/
theorem State.removeWaits_keeps {p : SyncUnit → Bool} (h : s.sync.objs = []) :
    Keeps [.sync] s (s.removeWaits p) := by
  simp [State.removeWaits, h, Keeps]

theorem State.keeps_barAbort : Keeps [.sync] s (s.barAbort t) := by simp [State.barAbort, Keeps]

theorem Keeps.tiles_eq {ks : List Part} {s u : State} (h : Keeps ks s u) (hk : Part.tiles ∉ ks) :
    u.tiles = s.tiles := by
  obtain ⟨-, -, -, -, -, -, -, -, -, htiles, -⟩ := h
  exact htiles.resolve_left hk

/-- The waiters that an abort of a tile removes. -/
def isStreamOf (t : Nat) (u : SyncUnit) : Bool :=
  match u with
  | .stream k _ => k == t
  | _ => false

/-- The tile of an abort: its streams and queues end, its transfers go on. -/
def Tile.aborted (x : Tile) (now : Nat) : Tile :=
  { x with
    fetchBusy := false, fetchStart := false, mode := .aborting, startHeld := false, fromRecord := false,
    atPoint := false, dqs := [], matrix := MatrixSt.reset, ttIn := [], ttRows := [], ttOut := [],
    abortAt := some now, ending := none, as := { x.as with ended := true, wait := .none },
    xs := { x.xs with ended := true, wait := .none },
    sc := if x.sc.state = 1 then { x.sc with state := 0 } else x.sc }

theorem Tile.aborted_sc (x : Tile) (now : Nat) : (x.aborted now).sc.state ≠ 1 := by
  unfold Tile.aborted
  dsimp only
  split
  · exact fun h => absurd h (by simp)
  · assumption

theorem State.tileAbort_running (hm : (s.tile t).mode = .running) (ho : s.sync.objs = []) :
    ∃ u, s.tileAbort t = u ∧ (u.tile t) = (s.tile t).aborted s.time ∧ OnlyAt s.tiles u.tiles t ∧
      Keeps [.tiles, .sync] s u := by
  let s1 := (s.setTile t { s.tile t with fetchBusy := false, fetchStart := false }).setTile t
    ((s.tile t).aborted s.time)
  have hu : s.tileAbort t = (s1.removeWaits (isStreamOf t)).barAbort t := by
    unfold State.tileAbort
    dsimp only
    split
    · simp only [State.updTile, State.tile_setTile]
      rfl
    · next h => exact absurd (hm.symm.trans h) (by decide)
    · next h => exact absurd (hm.symm.trans h) (by decide)
    · next h _ _ => exact absurd hm h
  have hk : Keeps [.sync] s1 ((s1.removeWaits (isStreamOf t)).barAbort t) :=
    (State.removeWaits_keeps (show s1.sync.objs = [] from ho)).trans State.keeps_barAbort
  have htiles : ((s1.removeWaits (isStreamOf t)).barAbort t).tiles = s1.tiles := hk.tiles_eq (by decide)
  refine ⟨_, hu, ?_, ?_, ((State.keeps_setTile.append State.keeps_setTile).append hk).mono (by decide)⟩
  · rw [State.tile, htiles]
    exact State.tile_setTile ..
  · rw [htiles]
    exact OnlyAt.trans (.put (k := t)) .put

theorem Tile.dcInv_locked (x : Tile) : x.dcInv.cache.all (fun l => (l.lockAct || l.lockPend) && l.inval) = true := by
  simp only [Tile.dcInv, List.all_map, List.all_eq_true, List.mem_filter]
  exact fun l hl => by simpa using hl.2

theorem Tile.dcInv_length (x : Tile) : x.dcInv.cache.length ≤ x.cache.length := by
  simpa [Tile.dcInv] using List.length_filter_le ..

end

/-- Settles O9. -/
theorem tileControl : Obligations.TileControl := by
  unfold Obligations.TileControl
  refine ⟨fun s t hm hf hp hr hd => ?_, fun s t hm hf hp => ?_, fun s t hf hp => ?_, fun s t hm => ?_,
    fun s t hm ha => ?_, fun s t hm ha hp hb => ?_, fun s t hm ha => ?_, fun s t hm ho => ?_, fun s t hs => ?_,
    fun s t => ?_⟩
  · refine ⟨_, (exec_tileStart ownsTile_quayCore).trans (congrArg _ (State.tileStart_idle hm hf hp hr hd)), ?_⟩
    refine ⟨?_, ?_, ?_, .put, (State.keeps_setTile.append State.keeps_cntQuay)⟩ <;> simp
  · refine ⟨_, (exec_tileStart ownsTile_quayCore).trans (congrArg _ (State.tileStart_running hm hf hp)), ?_⟩
    refine ⟨?_, ?_, .put, State.keeps_setTile⟩ <;> simp [hm]
  · refine ⟨_, (exec_tileStart ownsTile_quayCore).trans (congrArg _ (State.tileStart_waiting hf hp)), ?_⟩
    refine ⟨?_, ?_, ?_, State.keeps_setTile.append State.keeps_raise⟩
    · simp
    · simp
    · rw [State.raise_tiles]
      exact .put
  · refine ⟨_, (exec_tileStop ownsTile_quayCore).trans (congrArg _ (State.tileStop_idle hm)), ?_⟩
    refine ⟨?_, ?_, .put, State.keeps_setTile⟩ <;> simp
  · refine ⟨_, (exec_tileStop ownsTile_quayCore).trans (congrArg _ (State.tileStop_running hm ha)), ?_⟩
    refine ⟨?_, .put, State.keeps_setTile⟩
    simp
  · refine ⟨_, (exec_tileResume ownsTile_quayCore).trans (congrArg _ (State.tileResume_inactive hm ha hp hb)), ?_⟩
    refine ⟨?_, .put, State.keeps_setTile⟩
    simp
  · refine ⟨_, (exec_tileResume ownsTile_quayCore).trans (congrArg _ (State.tileResume_active hm ha)), ?_⟩
    refine ⟨?_, ?_, .put, State.keeps_setTile⟩ <;> simp [Tile.unhold_kept]
  · obtain ⟨u, hu, hx, ho, hk⟩ := State.tileAbort_running hm ho
    refine ⟨u, (exec_tileAbort ownsTile_quayCore).trans (congrArg _ hu), ?_⟩
    dsimp only
    rw [hx]
    exact ⟨rfl, rfl, rfl, rfl, Tile.aborted_sc _ _, rfl, ho, hk⟩
  · refine ⟨_, exec_scEnd ownsTile_scalar, ?_, ?_, .put, State.keeps_updTile⟩
    · simp [State.tileScEnd, hs]
    · simp [State.tileScEnd, hs]
  · refine ⟨_, exec_dcInv ownsTile_quayCore, ?_, ?_, .put, State.keeps_updTile⟩
    · rw [State.updTile_tile]
      exact Tile.dcInv_locked _
    · rw [State.updTile_tile]
      exact Tile.dcInv_length _

end Sys2Proof.Machine

/-! Settles the statement that a TILE_ page is written by its owners alone. -/

namespace Sys2Proof.Machine

theorem changeFirst_ne_nil {α : Type} {p : α → Bool} {f : α → α} {l : List α} (h : l ≠ []) :
    changeFirst p f l ≠ [] := by
  cases l with
  | nil => exact absurd rfl h
  | cons a r =>
    unfold changeFirst
    split <;> exact List.cons_ne_nil _ _

theorem EventStores.placeEvent_ne_nil (e : EventStores) (x : EventEntry) : (e.placeEvent x).entries ≠ [] := by
  have any_ne {p : EventEntry → Bool} (h : e.entries.any p = true) : e.entries ≠ [] := by
    intro h0
    simp [h0] at h
  unfold EventStores.placeEvent
  split
  · next h => exact changeFirst_ne_nil (any_ne h)
  · split
    · exact List.append_ne_nil_of_right_ne_nil _ (List.cons_ne_nil _ _)
    · dsimp only
      split
      · next h => exact changeFirst_ne_nil (any_ne h)
      · exact List.append_ne_nil_of_right_ne_nil _ (List.cons_ne_nil _ _)

/-- An event that is no alarm is pending once it is raised. -/
theorem State.raise_entries_ne_nil {s : State} {st : Status} {k n a : Nat} {tn : Option Nat}
    (h : isAlarm st = false) : (s.raise st k n tn a).events.entries ≠ [] := by
  have hx : ¬ (s.newEntry st k n tn a).alarm = true := by simp [State.newEntry, h]
  simp only [State.raise, State.placeEntry, if_neg hx]
  exact EventStores.placeEvent_ne_nil s.events (s.newEntry st k n tn a)

/-- What the answer to a write by another requester is. -/
theorem State.ownedWrite_denied {s : State} {r : Requester} {t off : Nat} {f : State → State}
    (h : ownsTile r t = false) : s.ownedWrite r t off f =
      { s.tileDenied r t off with resp := { status := ST_TILE_REG_DENIED, addr := 0, data := [] } } :=
  if_neg (by simp [h])

theorem State.gives_denied {s : State} {c : Instr} {r : Requester} {t off : Nat} {f : State → State}
    (h : ownsTile r t = false) (hc : exec c s = .next (s.ownedWrite r t off f)) : Gives c s (fun u =>
      u.events.entries ≠ [] ∧ u.resp.status = ST_TILE_REG_DENIED ∧ Keeps [.events, .trace, .resp] s u) := by
  rw [State.ownedWrite_denied h] at hc
  refine ⟨_, hc, State.raise_entries_ne_nil (s := s) (by decide), rfl, ?_⟩
  exact State.keeps_raise.append (State.keeps_memRespond (a := 0) (bs := []))

/-- Settles O10: each of these commands is one write of the page. -/
theorem tileOwnersOnly : Obligations.TileOwnersOnly := by
  unfold Obligations.TileOwnersOnly
  intro s r t w v c hr hc
  simp only [List.mem_cons, List.not_mem_nil, or_false] at hc
  obtain rfl | rfl | rfl | rfl | rfl | rfl | rfl | rfl | rfl | rfl | rfl | rfl := hc
  all_goals exact State.gives_denied hr rfl

end Sys2Proof.Machine

/-! The frame of every function of the model: what each may change, in a form that chains. -/

namespace Sys2Proof.Machine

set_option Elab.async false

section
variable {α β ε : Type} {ks ls : List Part} {o s t u : State}

/-! ### Outcomes of which every state keeps these parts -/

def KeepsOut (ks : List Part) (o : State) (r : Out) : Prop := ∃ u, r = .next u ∧ Keeps ks o u
def KeepsOpt (ks : List Part) (o : State) (r : Option State) : Prop := ∀ u, r = some u → Keeps ks o u
def KeepsOptSnd (ks : List Part) (o : State) (r : Option (α × State)) : Prop := ∀ u, r = some u → Keeps ks o u.2
def KeepsOptSnd2 (ks : List Part) (o : State) (r : Option (α × β × State)) : Prop :=
  ∀ u, r = some u → Keeps ks o u.2.2
def KeepsExc (ks : List Part) (o : State) (r : Except ε State) : Prop := ∀ u, r = .ok u → Keeps ks o u
def KeepsOp (ks : List Part) (o : State) : OpOut → Prop
  | .done s _ => Keeps ks o s
  | .wait s _ => Keeps ks o s
  | .fail s _ _ => Keeps ks o s
def KeepsWait (ks : List Part) (o : State) : WaitOut → Prop
  | .passed s => Keeps ks o s
  | .waits s => Keeps ks o s
def KeepsSc (ks : List Part) (o : State) : ScOut → Prop
  | .ok _ s => Keeps ks o s
  | .wait s => Keeps ks o s
  | .trap _ s => Keeps ks o s
def KeepsScDone (ks : List Part) (o : State) : ScDone → Prop
  | .done _ _ s => Keeps ks o s
  | .wait s => Keeps ks o s
  | .trap _ s => Keeps ks o s

/-! ### From the state itself to any state that reaches it -/

theorem Keeps.lift (h : Keeps ks o s) (hk : ls ⊆ ks) (f : ∀ o, Keeps ls o s → Keeps ls o u) : Keeps ks o u :=
  h.trans ((f s (.refl s)).mono hk)

theorem KeepsOut.lift {r : Out} (h : Keeps ks o s) (hk : ls ⊆ ks) (f : ∀ o, Keeps ls o s → KeepsOut ls o r) :
    KeepsOut ks o r := by
  obtain ⟨u, e, hu⟩ := f s (.refl s)
  exact ⟨u, e, h.trans (hu.mono hk)⟩

theorem KeepsOpt.lift {r : Option State} (h : Keeps ks o s) (hk : ls ⊆ ks) (f : ∀ o, Keeps ls o s → KeepsOpt ls o r) :
    KeepsOpt ks o r := fun u e => h.trans ((f s (.refl s) u e).mono hk)

theorem KeepsOptSnd.lift {r : Option (α × State)} (h : Keeps ks o s) (hk : ls ⊆ ks) (f : ∀ o, Keeps ls o s → KeepsOptSnd ls o r) : KeepsOptSnd ks o r := fun u e => h.trans ((f s (.refl s) u e).mono hk)

theorem KeepsOptSnd2.lift {r : Option (α × β × State)} (h : Keeps ks o s)
    (hk : ls ⊆ ks) (f : ∀ o, Keeps ls o s → KeepsOptSnd2 ls o r) : KeepsOptSnd2 ks o r :=
  fun u e => h.trans ((f s (.refl s) u e).mono hk)

theorem KeepsExc.lift {r : Except ε State} (h : Keeps ks o s) (hk : ls ⊆ ks) (f : ∀ o, Keeps ls o s → KeepsExc ls o r) : KeepsExc ks o r := fun u e => h.trans ((f s (.refl s) u e).mono hk)

theorem KeepsOp.lift {r : OpOut} (h : Keeps ks o s) (hk : ls ⊆ ks) (f : ∀ o, Keeps ls o s → KeepsOp ls o r) :
    KeepsOp ks o r := by
  have hf := f s (.refl s)
  cases r <;> exact h.trans (Keeps.mono hf hk)

theorem KeepsWait.lift {r : WaitOut} (h : Keeps ks o s) (hk : ls ⊆ ks) (f : ∀ o, Keeps ls o s → KeepsWait ls o r) :
    KeepsWait ks o r := by
  have hf := f s (.refl s)
  cases r <;> exact h.trans (Keeps.mono hf hk)

theorem KeepsSc.lift {r : ScOut} (h : Keeps ks o s) (hk : ls ⊆ ks) (f : ∀ o, Keeps ls o s → KeepsSc ls o r) :
    KeepsSc ks o r := by
  have hf := f s (.refl s)
  cases r <;> exact h.trans (Keeps.mono hf hk)

theorem KeepsScDone.lift {r : ScDone} (h : Keeps ks o s) (hk : ls ⊆ ks) (f : ∀ o, Keeps ls o s → KeepsScDone ls o r) : KeepsScDone ks o r := by
  have hf := f s (.refl s)
  cases r <;> exact h.trans (Keeps.mono hf hk)

/-! ### Rules: one update, cases, outcomes, folds -/

theorem Keeps.upd (h : Keeps ks o s) (hu : Keeps ks s u := by simp [Keeps]) : Keeps ks o u := h.trans hu

theorem Keeps.setMem {m : Mem} (h : Keeps ks o s) (hk : [.mem] ⊆ ks := by decide) :
    Keeps ks o { s with mem := m } := h.lift hk fun _ h => .upd h

theorem Keeps.setHostMem {m : Mem} (h : Keeps ks o s) (hk : [.hostMem] ⊆ ks := by decide) :
    Keeps ks o { s with hostMem := m } := h.lift hk fun _ h => .upd h

theorem Keeps.dite {c : Prop} [Decidable c] {a : c → State} {b : ¬ c → State} (ha : ∀ h, Keeps ks o (a h))
    (hb : ∀ h, Keeps ks o (b h)) : Keeps ks o (if h : c then a h else b h) := by
  split
  · exact ha _
  · exact hb _

theorem Keeps.ite_snd {a b : α × State} {c : Prop} [Decidable c] (ha : Keeps ks o a.2) (hb : Keeps ks o b.2) :
    Keeps ks o (if c then a else b).2 := by split <;> assumption

theorem Keeps.ite_fst {a b : State × α} {c : Prop} [Decidable c] (ha : Keeps ks o a.1) (hb : Keeps ks o b.1) :
    Keeps ks o (if c then a else b).1 := by split <;> assumption

theorem Keeps.snd {a : α} (h : Keeps ks o s) : Keeps ks o (a, s).2 := h
theorem Keeps.fst {a : α} (h : Keeps ks o s) : Keeps ks o (s, a).1 := h

theorem Keeps.snd_of_eq {p : α × State} {a : α} (h : Keeps ks o p.2) (e : p = (a, s)) : Keeps ks o s := by
  subst e; exact h

theorem Keeps.snd2_of_eq {p : α × β × State} {a : α} {b : β} (h : Keeps ks o p.2.2) (e : p = (a, b, s)) :
    Keeps ks o s := by subst e; exact h

theorem Keeps.fst_of_eq {p : State × α} {a : α} (h : Keeps ks o p.1) (e : p = (s, a)) : Keeps ks o s := by
  subst e; exact h

theorem Keeps.foldl {l : List α} {f : State → α → State} (h : Keeps ks o s)
    (hf : ∀ s a, Keeps ks o s → Keeps ks o (f s a)) : Keeps ks o (l.foldl f s) := by
  induction l generalizing s with
  | nil => exact h
  | cons a l ih => exact ih (hf s a h)

theorem Keeps.foldl_snd {l : List α} {p : β × State} {f : β × State → α → β × State} (h : Keeps ks o p.2)
    (hf : ∀ p a, Keeps ks o p.2 → Keeps ks o (f p a).2) : Keeps ks o (l.foldl f p).2 := by
  induction l generalizing p with
  | nil => exact h
  | cons a l ih => exact ih (hf p a h)

theorem Keeps.foldl_fst {l : List α} {p : State × β} {f : State × β → α → State × β} (h : Keeps ks o p.1)
    (hf : ∀ p a, Keeps ks o p.1 → Keeps ks o (f p a).1) : Keeps ks o (l.foldl f p).1 := by
  induction l generalizing p with
  | nil => exact h
  | cons a l ih => exact ih (hf p a h)

theorem Keeps.iter {f : State → State} {n : Nat} (h : Keeps ks o s) (hf : ∀ s, Keeps ks o s → Keeps ks o (f s)) :
    Keeps ks o (iter f n s) := by
  induction n generalizing s with
  | zero => exact h
  | succ n ih => exact ih (hf s h)

theorem KeepsOut.next (h : Keeps ks o s) : KeepsOut ks o (.next s) := ⟨s, rfl, h⟩
theorem KeepsOut.ite {a b : Out} {c : Prop} [Decidable c] (ha : KeepsOut ks o a) (hb : KeepsOut ks o b) :
    KeepsOut ks o (if c then a else b) := by split <;> assumption
theorem Keeps.out {r : Out} (hr : KeepsOut ks o r) : Keeps ks o (r.state s) := by
  obtain ⟨u, rfl, hu⟩ := hr
  exact hu

theorem KeepsOpt.none : KeepsOpt ks o none := fun _ e => nomatch e
theorem KeepsOpt.some (h : Keeps ks o s) : KeepsOpt ks o (some s) := fun _ e => Option.some.inj e ▸ h
theorem KeepsOpt.of_eq {r : Option State} (h : KeepsOpt ks o r) (e : r = .some s) : Keeps ks o s := h _ e
theorem KeepsOpt.ite {a b : Option State} {c : Prop} [Decidable c] (ha : KeepsOpt ks o a) (hb : KeepsOpt ks o b) :
    KeepsOpt ks o (if c then a else b) := by split <;> assumption
theorem KeepsOpt.orElse {a b : Option State} (ha : KeepsOpt ks o a) (hb : KeepsOpt ks o b) :
    KeepsOpt ks o (a <|> b) := by
  cases a with
  | none => exact hb
  | some s => exact ha
theorem KeepsOpt.getD {a : Option State} (ha : KeepsOpt ks o a) (h : Keeps ks o s) : Keeps ks o (a.getD s) := by
  cases a with
  | none => exact h
  | some s => exact ha s rfl

theorem KeepsOptSnd.none : KeepsOptSnd ks o (none : Option (α × State)) := fun _ e => nomatch e
theorem KeepsOptSnd.some {p : α × State} (h : Keeps ks o p.2) : KeepsOptSnd ks o (some p) :=
  fun _ e => Option.some.inj e ▸ h
theorem KeepsOptSnd.of_eq {r : Option (α × State)} {a : α} (h : KeepsOptSnd ks o r) (e : r = .some (a, s)) :
    Keeps ks o s := h _ e
theorem KeepsOptSnd.ite {a b : Option (α × State)} {c : Prop} [Decidable c] (ha : KeepsOptSnd ks o a)
    (hb : KeepsOptSnd ks o b) : KeepsOptSnd ks o (if c then a else b) := by split <;> assumption

theorem KeepsOptSnd2.none : KeepsOptSnd2 ks o (none : Option (α × β × State)) := fun _ e => nomatch e
theorem KeepsOptSnd2.some {p : α × β × State} (h : Keeps ks o p.2.2) : KeepsOptSnd2 ks o (some p) :=
  fun _ e => Option.some.inj e ▸ h
theorem KeepsOptSnd2.of_eq {r : Option (α × β × State)} {a : α} {b : β} (h : KeepsOptSnd2 ks o r)
    (e : r = .some (a, b, s)) : Keeps ks o s := h _ e
theorem KeepsOptSnd2.ite {a b : Option (α × β × State)} {c : Prop} [Decidable c] (ha : KeepsOptSnd2 ks o a)
    (hb : KeepsOptSnd2 ks o b) : KeepsOptSnd2 ks o (if c then a else b) := by split <;> assumption

theorem KeepsExc.error {e : ε} : KeepsExc ks o (.error e) := fun _ h => nomatch h
theorem KeepsExc.ok (h : Keeps ks o s) : KeepsExc ks o (.ok s : Except ε State) := fun _ e => Except.ok.inj e ▸ h
theorem KeepsExc.of_eq {r : Except ε State} (h : KeepsExc ks o r) (e : r = .ok s) : Keeps ks o s := h _ e
theorem KeepsExc.ite {a b : Except ε State} {c : Prop} [Decidable c] (ha : KeepsExc ks o a) (hb : KeepsExc ks o b) :
    KeepsExc ks o (if c then a else b) := by split <;> assumption

theorem KeepsOp.done {n : Option Nat} (h : Keeps ks o s) : KeepsOp ks o (.done s n) := h
theorem KeepsOp.wait {c : WaitCause} (h : Keeps ks o s) : KeepsOp ks o (.wait s c) := h
theorem KeepsOp.fail {st : Status} {n : Nat} (h : Keeps ks o s) : KeepsOp ks o (.fail s st n) := h
theorem KeepsOp.ite {a b : OpOut} {c : Prop} [Decidable c] (ha : KeepsOp ks o a) (hb : KeepsOp ks o b) :
    KeepsOp ks o (if c then a else b) := by split <;> assumption
theorem KeepsOp.done_of_eq {r : OpOut} {n : Option Nat} (h : KeepsOp ks o r) (e : r = .done s n) : Keeps ks o s := by
  subst e; exact h
theorem KeepsOp.wait_of_eq {r : OpOut} {c : WaitCause} (h : KeepsOp ks o r) (e : r = .wait s c) : Keeps ks o s := by
  subst e; exact h
theorem KeepsOp.fail_of_eq {r : OpOut} {st : Status} {n : Nat} (h : KeepsOp ks o r) (e : r = .fail s st n) :
    Keeps ks o s := by subst e; exact h

theorem KeepsWait.passed (h : Keeps ks o s) : KeepsWait ks o (.passed s) := h
theorem KeepsWait.waits (h : Keeps ks o s) : KeepsWait ks o (.waits s) := h
theorem KeepsWait.ite {a b : WaitOut} {c : Prop} [Decidable c] (ha : KeepsWait ks o a) (hb : KeepsWait ks o b) :
    KeepsWait ks o (if c then a else b) := by split <;> assumption
theorem KeepsWait.passed_of_eq {r : WaitOut} (h : KeepsWait ks o r) (e : r = .passed s) : Keeps ks o s := by
  subst e; exact h
theorem KeepsWait.waits_of_eq {r : WaitOut} (h : KeepsWait ks o r) (e : r = .waits s) : Keeps ks o s := by
  subst e; exact h

theorem KeepsSc.ok {v : Nat} (h : Keeps ks o s) : KeepsSc ks o (.ok v s) := h
theorem KeepsSc.wait (h : Keeps ks o s) : KeepsSc ks o (.wait s) := h
theorem KeepsSc.trap {c : Nat} (h : Keeps ks o s) : KeepsSc ks o (.trap c s) := h
theorem KeepsSc.ite {a b : ScOut} {c : Prop} [Decidable c] (ha : KeepsSc ks o a) (hb : KeepsSc ks o b) :
    KeepsSc ks o (if c then a else b) := by split <;> assumption
theorem KeepsSc.ok_of_eq {r : ScOut} {v : Nat} (h : KeepsSc ks o r) (e : r = .ok v s) : Keeps ks o s := by
  subst e; exact h
theorem KeepsSc.wait_of_eq {r : ScOut} (h : KeepsSc ks o r) (e : r = .wait s) : Keeps ks o s := by subst e; exact h
theorem KeepsSc.trap_of_eq {r : ScOut} {c : Nat} (h : KeepsSc ks o r) (e : r = .trap c s) : Keeps ks o s := by
  subst e; exact h

theorem KeepsScDone.done {rd : Option Nat} {n : Nat} (h : Keeps ks o s) : KeepsScDone ks o (.done rd n s) := h
theorem KeepsScDone.wait (h : Keeps ks o s) : KeepsScDone ks o (.wait s) := h
theorem KeepsScDone.trap {c : Nat} (h : Keeps ks o s) : KeepsScDone ks o (.trap c s) := h
theorem KeepsScDone.ite {a b : ScDone} {c : Prop} [Decidable c] (ha : KeepsScDone ks o a)
    (hb : KeepsScDone ks o b) : KeepsScDone ks o (if c then a else b) := by split <;> assumption
theorem KeepsScDone.done_of_eq {r : ScDone} {rd : Option Nat} {n : Nat} (h : KeepsScDone ks o r)
    (e : r = .done rd n s) : Keeps ks o s := by subst e; exact h
theorem KeepsScDone.wait_of_eq {r : ScDone} (h : KeepsScDone ks o r) (e : r = .wait s) : Keeps ks o s := by
  subst e; exact h
theorem KeepsScDone.trap_of_eq {r : ScDone} {c : Nat} (h : KeepsScDone ks o r) (e : r = .trap c s) :
    Keeps ks o s := by subst e; exact h
end

end Sys2Proof.Machine

/-! ### One update each -/
namespace Sys2Proof.Machine
set_option Elab.async false
section
variable {ks : List Part} {o s : State}
theorem Keeps.at {t} (h : Keeps ks o s) (hk : [.time] ⊆ ks := by decide) : Keeps ks o (s.at t) :=
  h.lift hk fun _ h => h.trans State.keeps_at
theorem Keeps.withLog {x} (h : Keeps ks o s) (hk : [.log] ⊆ ks := by decide) : Keeps ks o { s with log := x } :=
  h.lift hk fun _ h => .upd h
theorem Keeps.withTiers {x} (h : Keeps ks o s) (hk : [.tiers] ⊆ ks := by decide) : Keeps ks o { s with tiers := x } :=
  h.lift hk fun _ h => .upd h
theorem Keeps.withEvents {x} (h : Keeps ks o s) (hk : [.events] ⊆ ks := by decide) : Keeps ks o { s with events := x } :=
  h.lift hk fun _ h => .upd h
theorem Keeps.withTrace {x} (h : Keeps ks o s) (hk : [.trace] ⊆ ks := by decide) : Keeps ks o { s with trace := x } :=
  h.lift hk fun _ h => .upd h
theorem Keeps.withFab {x} (h : Keeps ks o s) (hk : [.fab] ⊆ ks := by decide) : Keeps ks o { s with fab := x } :=
  h.lift hk fun _ h => .upd h
theorem Keeps.withGraph {x} (h : Keeps ks o s) (hk : [.graph] ⊆ ks := by decide) : Keeps ks o { s with graph := x } :=
  h.lift hk fun _ h => .upd h
theorem Keeps.withPilot {x} (h : Keeps ks o s) (hk : [.pilot] ⊆ ks := by decide) : Keeps ks o { s with pilot := x } :=
  h.lift hk fun _ h => .upd h
theorem Keeps.withStks {x} (h : Keeps ks o s) (hk : [.stks] ⊆ ks := by decide) : Keeps ks o { s with stks := x } :=
  h.lift hk fun _ h => .upd h
theorem Keeps.withKv {x} (h : Keeps ks o s) (hk : [.kv] ⊆ ks := by decide) : Keeps ks o { s with kv := x } :=
  h.lift hk fun _ h => .upd h
theorem Keeps.withServing {x} (h : Keeps ks o s) (hk : [.serving] ⊆ ks := by decide) : Keeps ks o { s with serving := x } :=
  h.lift hk fun _ h => .upd h
theorem Keeps.withHif {x} (h : Keeps ks o s) (hk : [.hif] ⊆ ks := by decide) : Keeps ks o { s with hif := x } :=
  h.lift hk fun _ h => .upd h
theorem Keeps.withDma {x} (h : Keeps ks o s) (hk : [.dma] ⊆ ks := by decide) : Keeps ks o { s with dma := x } :=
  h.lift hk fun _ h => .upd h
theorem Keeps.withSync {x} (h : Keeps ks o s) (hk : [.sync] ⊆ ks := by decide) : Keeps ks o { s with sync := x } :=
  h.lift hk fun _ h => .upd h
theorem Keeps.withFree {x} (h : Keeps ks o s) (hk : [.free] ⊆ ks := by decide) : Keeps ks o { s with free := x } :=
  h.lift hk fun _ h => .upd h
theorem Keeps.withQuays {x} (h : Keeps ks o s) (hk : [.quays] ⊆ ks := by decide) : Keeps ks o { s with quays := x } :=
  h.lift hk fun _ h => .upd h
theorem Keeps.withTiles {x} (h : Keeps ks o s) (hk : [.tiles] ⊆ ks := by decide) : Keeps ks o { s with tiles := x } :=
  h.lift hk fun _ h => .upd h
theorem Keeps.withCentral {x} (h : Keeps ks o s) (hk : [.central] ⊆ ks := by decide) : Keeps ks o { s with central := x } :=
  h.lift hk fun _ h => .upd h
theorem Keeps.withAgent {x} (h : Keeps ks o s) (hk : [.agent] ⊆ ks := by decide) : Keeps ks o { s with agent := x } :=
  h.lift hk fun _ h => .upd h
theorem Keeps.withResp {x} (h : Keeps ks o s) (hk : [.resp] ⊆ ks := by decide) : Keeps ks o { s with resp := x } :=
  h.lift hk fun _ h => .upd h
end
end Sys2Proof.Machine

/-! ### The frame of an access to memory -/

namespace Sys2Proof.Machine

set_option Elab.async false

section
variable {α β ε : Type} {ks : List Part} {o s : State}

theorem Keeps.setQuay {q x ks} (h : Keeps ks o s) (hk : [.quays] ⊆ ks := by decide) : Keeps ks o (s.setQuay q x) :=
  h.lift hk fun o h => .upd h (by simp [Keeps, State.setQuay])

theorem Keeps.updQuay {q f ks} (h : Keeps ks o s) (hk : [.quays] ⊆ ks := by decide) : Keeps ks o (s.updQuay q f) :=
  h.lift hk fun o h => .setQuay h

theorem Keeps.cntMod {i n ks} (h : Keeps ks o s) (hk : [.trace] ⊆ ks := by decide) : Keeps ks o (s.cntMod i n) :=
  h.lift hk fun o h => .upd h (by simp [Keeps, State.cntMod])

theorem Keeps.placeEntry {x ks} (h : Keeps ks o s) (hk : [.events, .trace] ⊆ ks := by decide) :
    Keeps ks o (s.placeEntry x) :=
  h.lift hk fun o h => .ite (.cntMod (.cntMod (.upd h))) (.cntMod (.cntMod (.cntMod (.upd h))))

theorem Keeps.raise {st kind unit tenant arg ks} (h : Keeps ks o s) (hk : [.events, .trace] ⊆ ks := by decide) :
    Keeps ks o (s.raise st kind unit tenant arg) :=
  h.lift hk fun o h => .placeEntry h

theorem Keeps.isolation {st kind unit tenant arg ks} (h : Keeps ks o s) (hk : [.events, .trace] ⊆ ks := by decide) :
    Keeps ks o (s.isolation st kind unit tenant arg) :=
  h.lift hk fun o h => .raise h

theorem Keeps.setPoint {p x ks} (h : Keeps ks o s) (hk : [.log] ⊆ ks := by decide) : Keeps ks o (s.setPoint p x) :=
  h.lift hk fun o h => .upd h (by simp [Keeps, State.setPoint])

theorem Keeps.resvWrite {u a bs ks} (h : Keeps ks o s) (hk : [.mem] ⊆ ks := by decide) :
    Keeps ks o (s.resvWrite u a bs) := h.lift hk fun _ h => .setMem h

theorem Keeps.logHeader {ks} (h : Keeps ks o s) (hk : [.mem] ⊆ ks := by decide) : Keeps ks o s.logHeader :=
  h.lift hk fun o h => .resvWrite (.resvWrite h)

theorem Keeps.logFull {ks} (h : Keeps ks o s) (hk : [.mem, .events, .trace, .log] ⊆ ks := by decide) :
    Keeps ks o s.logFull :=
  h.lift hk fun o h => .ite (.logHeader (.upd h)) (.raise (.logHeader (.upd h)))

theorem Keeps.logPut {rcd ks} (h : Keeps ks o s) (hk : [.mem, .events, .trace, .log] ⊆ ks := by decide) :
    Keeps ks o (s.logPut rcd) :=
  h.lift hk fun o h => .ite (.ite (.logFull h) h) (.logHeader (.withLog (.resvWrite (.ite (.logFull h) h))))

theorem Keeps.logFlush {p ks} (h : Keeps ks o s) (hk : [.mem, .events, .trace, .log] ⊆ ks := by decide) :
    Keeps ks o (s.logFlush p) :=
  h.lift hk fun o h => by
  unfold State.logFlush
  extract_lets -lift
  split
  · exact h
  · exact .logPut (.setPoint h)

theorem Keeps.logArb {p winner ks} (h : Keeps ks o s) (hk : [.mem, .events, .trace, .log] ⊆ ks := by decide) :
    Keeps ks o (s.logArb p winner) :=
  h.lift hk fun o h => .ite h (.ite (.setPoint h) (.setPoint (.logFlush h)))

theorem Keeps.asAgent {kind unit a ks} (h : Keeps ks o s)
    (hk : [.mem, .events, .trace, .log, .agent] ⊆ ks := by decide) :
    Keeps ks o (s.asAgent kind unit a) :=
  h.lift hk fun o h => by
  unfold State.asAgent
  extract_lets -lift _ s2 s3
  have hs2 : Keeps [.mem, .events, .trace, .log, .agent] o s2 := .upd h (by simp [Keeps, s2])
  have hs3 : Keeps [.mem, .events, .trace, .log, .agent] o s3 := .ite (.logArb hs2) hs2
  split
  · exact .logArb hs3
  · exact .logArb hs3
  · exact hs3

theorem Keeps.accessRecord {kind unit tenant write a n ks} (h : Keeps ks o s)
    (hk : [.mem, .events, .trace, .log, .agent] ⊆ ks := by decide) :
    Keeps ks o (s.accessRecord kind unit tenant write a n).2 :=
  h.lift hk fun o h => by
  unfold State.accessRecord
  split
  · exact .ite (.isolation h) h
  · exact .asAgent h

theorem Keeps.touch {a n read ks} (h : Keeps ks o s) (hk : [.pilot] ⊆ ks := by decide) :
    Keeps ks o (s.touch a n read) :=
  h.lift hk fun o h => .ite h (.upd h)

theorem Keeps.updChan {ch f ks} (h : Keeps ks o s) (hk : [.tiers] ⊆ ks := by decide) :
    Keeps ks o (s.updChan ch f) :=
  h.lift hk fun o h => .upd h (by simp [Keeps, State.updChan])

theorem Keeps.putAtom {atom bs ks} (h : Keeps ks o s) (hk : [.mem, .tiers] ⊆ ks := by decide) :
    Keeps ks o (s.putAtom atom bs) :=
  h.lift hk fun o h => .upd h (by simp [Keeps, State.putAtom])

theorem Keeps.updInteg {i f ks} (h : Keeps ks o s) (hk : [.tiers] ⊆ ks := by decide) :
    Keeps ks o (s.updInteg i f) :=
  h.lift hk fun o h => .upd h (by simp [Keeps, State.updInteg])

theorem Keeps.retire {e ks} (h : Keeps ks o s) (hk : [.mem, .tiers, .events, .trace] ⊆ ks := by decide) :
    Keeps ks o (s.retire e) :=
  h.lift hk fun o h => by
  unfold State.retire
  extract_lets -lift _ s2 s3
  have hs2 : Keeps [.mem, .tiers, .events, .trace] o s2 := .upd h (by simp [Keeps, s2])
  have hs3 : Keeps [.mem, .tiers, .events, .trace] o s3 := .ite hs2 (.updChan hs2)
  split
  · exact .putAtom hs3
  · exact .raise (.updInteg hs3)

theorem Keeps.retireAll {p ks} (h : Keeps ks o s) (hk : [.mem, .tiers, .events, .trace] ⊆ ks := by decide) :
    Keeps ks o (s.retireAll p) :=
  h.lift hk fun o h => .foldl h (fun _ _ h1 => .retire h1)

theorem Keeps.logUnit {unit ks} (h : Keeps ks o s) (hk : [.mem, .events, .trace, .log] ⊆ ks := by decide) :
    Keeps ks o (s.logUnit unit) :=
  h.lift hk fun o h => .logArb h

theorem Keeps.countPoison {a n ks} (h : Keeps ks o s) (hk : [.quays, .tiers] ⊆ ks := by decide) :
    Keeps ks o (s.countPoison a n) :=
  h.lift hk fun o h => by
  unfold State.countPoison
  split
  · exact .foldl h (fun _ _ h3 => .ite h3 (.updInteg h3))
  · exact .foldl h (fun _ _ h6 => .ite h6 (.updInteg h6))
  · exact .updQuay h
  · exact .updQuay h
  · exact h

theorem Keeps.load {a n ks} (h : Keeps ks o s)
    (hk : [.mem, .quays, .tiers, .events, .trace, .log, .pilot] ⊆ ks := by decide) :
    Keeps ks o (s.load a n).2 :=
  h.lift hk fun o h => by
  unfold State.load
  extract_lets -lift s1 s2
  have hs1 : Keeps [.mem, .quays, .tiers, .events, .trace, .log, .pilot] o s1 := .touch (.retireAll h)
  have hs2 : Keeps [.mem, .quays, .tiers, .events, .trace, .log, .pilot] o s2 := .ite (.foldl hs1 (fun _ _ h3 =>
      .ite (.logUnit h3) h3)) hs1
  split
  · split
    · exact .foldl hs2 (fun _ _ h9 => .updChan h9)
    · exact hs2
  · exact .countPoison hs2

theorem Keeps.loadNum {a n ks} (h : Keeps ks o s)
    (hk : [.mem, .quays, .tiers, .events, .trace, .log, .pilot] ⊆ ks := by decide) :
    Keeps ks o (s.loadNum a n).2 :=
  h.lift hk fun o h => by
  unfold State.loadNum
  split
  · next e => exact Keeps.snd_of_eq (.load h) e

end

end Sys2Proof.Machine

/-! Settles the statement about loading a tile. -/

namespace Sys2Proof.Machine

set_option Elab.async false

/-! ### A field set in a number -/

theorem setBits_low_lt (x lo w v : Nat) : v % 2 ^ w * 2 ^ lo + x % 2 ^ lo < 2 ^ (lo + w) := by
  have h1 : v % 2 ^ w + 1 ≤ 2 ^ w := Nat.mod_lt _ (Nat.two_pow_pos _)
  have h2 : x % 2 ^ lo < 2 ^ lo := Nat.mod_lt _ (Nat.two_pow_pos _)
  calc v % 2 ^ w * 2 ^ lo + x % 2 ^ lo < v % 2 ^ w * 2 ^ lo + 2 ^ lo := by omega
    _ = (v % 2 ^ w + 1) * 2 ^ lo := by rw [Nat.succ_mul]
    _ ≤ 2 ^ w * 2 ^ lo := Nat.mul_le_mul_right _ h1
    _ = 2 ^ (lo + w) := by rw [← Nat.pow_add, Nat.add_comm]

theorem setBits_div_above (x lo w v : Nat) : setBits x lo w v / 2 ^ (lo + w) = x / 2 ^ (lo + w) := by
  rw [setBits, Nat.add_assoc, Nat.add_comm (_ * _), Nat.add_mul_div_right _ _ (Nat.two_pow_pos _),
    Nat.div_eq_of_lt (setBits_low_lt x lo w v), Nat.zero_add]

theorem setBits_mod (x lo w v : Nat) : setBits x lo w v % 2 ^ (lo + w) = v % 2 ^ w * 2 ^ lo + x % 2 ^ lo := by
  rw [setBits, Nat.add_assoc, Nat.add_comm (_ * _), Nat.add_mul_mod_self_right,
    Nat.mod_eq_of_lt (setBits_low_lt x lo w v)]

theorem bits_eq_mod_div (x lo w : Nat) : bits x lo w = x % 2 ^ (lo + w) / 2 ^ lo := by
  rw [bits, Nat.pow_add, Nat.mod_mul_right_div_self]

theorem bits_setBits_self (x lo w v : Nat) : bits (setBits x lo w v) lo w = v % 2 ^ w := by
  rw [bits_eq_mod_div, setBits_mod, Nat.add_comm (_ * _), Nat.add_mul_div_right _ _ (Nat.two_pow_pos _),
    Nat.div_eq_of_lt (Nat.mod_lt _ (Nat.two_pow_pos _)), Nat.zero_add]

theorem bits_setBits_below (x lo w v : Nat) : bits (setBits x lo w v) 0 lo = bits x 0 lo := by
  have h : 2 ^ lo ∣ 2 ^ (lo + w) := Nat.pow_dvd_pow 2 (Nat.le_add_right ..)
  simp only [bits, Nat.pow_zero, Nat.div_one]
  rw [← Nat.mod_mod_of_dvd (setBits x lo w v) h, setBits_mod, Nat.add_comm (_ * _), Nat.add_mul_mod_self_right,
    Nat.mod_mod]

theorem setBits_lt {x lo w v n : Nat} (hx : x < 2 ^ n) (hn : lo + w ≤ n) : setBits x lo w v < 2 ^ n := by
  have h : 2 ^ n = 2 ^ (n - (lo + w)) * 2 ^ (lo + w) := by rw [← Nat.pow_add, Nat.sub_add_cancel hn]
  rw [h] at hx ⊢
  rw [← Nat.div_lt_iff_lt_mul (Nat.two_pow_pos _)] at hx ⊢
  rwa [setBits_div_above]

/-- A word of a bit vector, set in its number. -/
theorem toNat_setBits {n lo w v : Nat} (x : BitVec n) (hn : lo + w ≤ n) :
    (BitVec.ofNat n (setBits x.toNat lo w v)).toNat = setBits x.toNat lo w v := by
  rw [BitVec.toNat_ofNat, Nat.mod_eq_of_lt (setBits_lt x.isLt hn)]

section
variable {s : State} {t : Nat}

/-- A write of the page by an owner has its effect. -/
theorem exec_owned {c : Instr} {r : Requester} {off : Nat} {f : State → State} {u : State}
    (hc : exec c s = .next (s.ownedWrite r t off f)) (h : ownsTile r t = true) (hf : f s = u) : exec c s = .next u := by
  rw [hc, State.ownedWrite_owner h, hf]

/-! ### What the writes do to the tile -/

theorem State.cfgPendWrite_open {w v : Nat} (hp : (s.tile t).pendValid = false) (hw : w < 64) :
    s.cfgPendWrite t w v = s.setTile t { (s.tile t).pendChanged with
      cfgPend := BitVec.ofNat 2048 (setBits (s.tile t).cfgPend.toNat (32 * w) 32 v) } := by
  simp [State.cfgPendWrite, hp, Nat.mod_eq_of_lt hw]

theorem State.preRecWrite_stopped {w v : Nat} (hm : (s.tile t).mode = .stopped) (hw : w < 32) :
    s.preRecWrite t w v = s.setTile t { s.tile t with
      preRec := BitVec.ofNat 1024 (setBits (s.tile t).preRec.toNat (32 * w) 32 v) } := by
  simp [State.preRecWrite, hm, Nat.mod_eq_of_lt hw]

theorem State.preRecWrite_lost {w v : Nat} (hm : (s.tile t).mode ≠ .stopped) :
    s.preRecWrite t w v = s.setTile t { s.tile t with cfgWrLost := true } := if_neg hm

theorem State.descFetch_begins {start : Bool} (hp : (s.tile t).pendValid = false) (hf : (s.tile t).fetchBusy = false) :
    s.descFetch t start =
      (s.setTile t { s.tile t with fetchBusy := true, fetchStart := start }).cntQuay (t / 64) 45 1 := by
  simp [State.descFetch, hp, hf]

theorem State.tecAdd_below {n : Nat} (h : ((s.tile t).tec n).count.toNat < 0xFFFF) :
    s.tecAdd t n 1 = s.updTile t (fun x => { x with tecs := (Table.put x.tecs n ({ (s.tile t).tec n with
      count := BitVec.ofNat 16 (((s.tile t).tec n).count.toNat + 1) })) }) :=
  if_pos (Nat.succ_le_of_lt h)

/-! ### The cache of a tile and its resident set -/

/-- What reading lines through the cache leaves of a tile. -/
def Tile.sameButCache (x y : Tile) : Prop := y.cfgPend = x.cfgPend ∧ y.mode = x.mode ∧ y.startHeld = x.startHeld

theorem Tile.sameButCache.trans {x y z : Tile} (h : x.sameButCache y) (k : y.sameButCache z) : x.sameButCache z := by
  obtain ⟨h1, h2, h3⟩ := h
  obtain ⟨k1, k2, k3⟩ := k
  exact ⟨k1.trans h1, k2.trans h2, k3.trans h3⟩

theorem State.tile_congr {u : State} (h : u.tiles = s.tiles) : u.tile t = s.tile t := by
  rw [State.tile, State.tile, h]

theorem State.cacheLine_hit {a : Nat} {l : CacheLine} (hc : (s.tile t).cache = [l]) (ha : l.addr = a)
    (hn : l.tenant = (s.tile t).tenant) :
    s.cacheLine t a = (.ok l.data.toNat, (s.setTile t { s.tile t with cache := [l] }).cntQuay (t / 64) 42 1) := by
  simp [State.cacheLine, hc, ha, hn]

theorem State.cacheLine_same {a : Nat} : (s.tile t).sameButCache ((s.cacheLine t a).2.tile t) := by
  have hx : ∀ u : State, Keeps [.mem, .quays, .tiers, .events, .trace, .log, .pilot, .agent] s u → u.tile t = s.tile t :=
    fun u h => State.tile_congr (h.tiles_eq (by decide))
  have hs : Keeps [.mem, .quays, .tiers, .events, .trace, .log, .pilot, .agent] s (s.cntQuay (t / 64) 43 1) :=
    (State.keeps_cntQuay).mono (by decide)
  have same : ∀ u : State, u.tile t = s.tile t → (s.tile t).sameButCache (u.tile t) := by
    rintro u h
    rw [h]
    exact ⟨rfl, rfl, rfl⟩
  unfold State.cacheLine
  extract_lets -lift x tn
  split
  · refine ⟨?_, ?_, ?_⟩ <;> simp [x]
  · split
    · next e =>
      have he := Keeps.snd_of_eq (by
        split
        · exact .asAgent hs
        · exact .accessRecord hs) e
      exact same _ (hx _ he)
    · next e =>
      have he := Keeps.snd_of_eq (by
        split
        · exact .asAgent hs
        · exact .accessRecord hs) e
      split
      · next e2 => exact same _ (hx _ (Keeps.snd_of_eq (.loadNum he) e2))
      · next e2 =>
        have he2 := hx _ (Keeps.snd_of_eq (.loadNum he) e2)
        refine ⟨?_, ?_, ?_⟩ <;> simp only [State.tile_setTile, he2]

theorem State.residentPart_go_same {k i acc a : Nat} :
    (s.tile t).sameButCache ((State.residentPart.go t a k i acc s).2.tile t) := by
  induction k generalizing i acc s with
  | zero => exact ⟨rfl, rfl, rfl⟩
  | succ k ih =>
    unfold State.residentPart.go
    have hc := State.cacheLine_same (s := s) (t := t) (a := a + 256 * i)
    split
    · next e =>
      rw [e] at hc
      exact hc
    · next e =>
      rw [e] at hc
      refine (hc.trans ?_).trans ih
      refine ⟨?_, ?_, ?_⟩ <;> simp [Tile.lockPend]

theorem State.residentPart_same {a n : Nat} : (s.tile t).sameButCache ((s.residentPart t a n).2.tile t) :=
  State.residentPart_go_same

/-- The resident set ends present or failed, and the tile's pending set stays. -/
theorem State.prefetchResident_tile :
    ((s.prefetchResident t).tile t).prefetch ≠ .none ∧ (s.tile t).sameButCache ((s.prefetchResident t).tile t) := by
  have done : ∀ (u : State) (p : Prefetch), (s.tile t).sameButCache (u.tile t) → p ≠ .none →
      ((u.updTile t (fun x => { x with prefetch := p })).tile t).prefetch ≠ .none ∧
        (s.tile t).sameButCache ((u.updTile t (fun x => { x with prefetch := p })).tile t) := by
    intro u p h hp
    rw [State.updTile_tile]
    exact ⟨hp, h⟩
  have part : ∀ {u v : State} {a n : Nat} {r}, (s.tile t).sameButCache (u.tile t) → u.residentPart t a n = (r, v) →
      (s.tile t).sameButCache (v.tile t) := by
    intro u v a n r h e
    have hp := State.residentPart_same (s := u) (t := t) (a := a) (n := n)
    rw [e] at hp
    exact h.trans hp
  have h0 : (s.tile t).sameButCache (s.tile t) := ⟨rfl, rfl, rfl⟩
  unfold State.prefetchResident
  extract_lets -lift
  split
  · next e => exact done _ _ (part h0 e) (by simp)
  · next e =>
    have h1 := part h0 e
    split
    · next e => exact done _ _ (part h1 e) (by simp)
    · next e =>
      have h2 := part h1 e
      split
      · next e => exact done _ _ (part h2 e) (by simp)
      · next e => exact done _ _ (part h2 e) (by simp)

theorem State.descFetchDone_hit {l : CacheLine} (hb : (s.tile t).fetchBusy = true) (hf : (s.tile t).fetchStart = false)
    (hc : (s.tile t).cache = [l]) (ha : l.addr = (s.tile t).descAddr.toNat) (hn : l.tenant = (s.tile t).tenant) :
    exec (.descFetchDone t) s = .next ((((s.setTile t { s.tile t with fetchBusy := false, fetchStart := false }).setTile
      t { s.tile t with fetchBusy := false, fetchStart := false, cache := [l] }).cntQuay (t / 64) 42 1).updTile t
        (fun y => { y.pendChanged with cfgPend := l.data })) := by
  have h : (s.setTile t { s.tile t with fetchBusy := false, fetchStart := false }).cacheLine t
      (s.tile t).descAddr.toNat = _ :=
    State.cacheLine_hit (by simpa using hc) ha (by rw [State.tile_setTile]; exact hn)
  change execDescFetchDone t s = _
  simp only [execDescFetchDone, hb, Bool.not_true, Bool.false_eq_true, ↓reduceIte, h, hf, State.tile_setTile,
    BitVec.ofNat_toNat, BitVec.setWidth_eq]

end

/-- Settles O11. -/
theorem tileLoads : Obligations.TileLoads := by
  unfold Obligations.TileLoads
  refine ⟨fun s t w v hw hp => ?_, fun s t w v hw hm => ?_, fun s t w v hm => ?_, fun s t hp hf => ?_,
    fun s t hp hf => ?_, fun s t l hb hf hc ha hn => ?_, fun s t hp hs hd => ?_, fun s t n hn hc => ?_, fun s t => ?_⟩
  · refine ⟨_, exec_owned rfl ownsTile_quayCore (State.cfgPendWrite_open hp hw), ?_⟩
    simp only [State.tile_setTile]
    rw [toNat_setBits _ (by omega)]
    exact ⟨bits_setBits_self .., bits_setBits_below .., setBits_div_above .., .put, State.keeps_setTile⟩
  · refine ⟨_, exec_owned rfl ownsTile_quayCore (State.preRecWrite_stopped hm hw), ?_⟩
    simp only [State.tile_setTile]
    rw [toNat_setBits _ (by omega)]
    exact ⟨bits_setBits_self .., bits_setBits_below .., .put, State.keeps_setTile⟩
  · refine ⟨_, exec_owned rfl ownsTile_quayCore (State.preRecWrite_lost hm), ?_⟩
    simp only [State.tile_setTile, true_and]
    exact ⟨.put, State.keeps_setTile⟩
  · refine ⟨_, exec_owned rfl ownsTile_quayCore (State.descFetch_begins hp hf), ?_⟩
    refine ⟨?_, ?_, .put, State.keeps_setTile.append State.keeps_cntQuay⟩ <;> simp
  · refine ⟨_, exec_owned rfl ownsTile_quayCore (State.descFetch_begins hp hf), ?_⟩
    refine ⟨?_, ?_, .put, State.keeps_setTile.append State.keeps_cntQuay⟩ <;> simp
  · refine ⟨_, State.descFetchDone_hit hb hf hc ha hn, ?_, ?_, ?_, (OnlyAt.put (k := t)).trans (.trans .put .put), ?_⟩
    · simp
    · simp [Tile.pendChanged]
    · simp [Tile.pendChanged]
    · exact (((State.keeps_setTile.append State.keeps_setTile).append State.keeps_cntQuay).append
        State.keeps_updTile).mono (by decide)
  · obtain ⟨hready, hpend, hmode, -⟩ := State.prefetchResident_tile (s := s) (t := t)
    refine ⟨_, ?_, hready, hpend, hmode⟩
    change execResidentSetReady t s = _
    simp only [execResidentSetReady, hp, hd, hs, ne_eq, not_true_eq_false, Option.isSome_none, Bool.false_eq_true,
      or_self, ↓reduceIte]
  · have hm : n % 8 = n := Nat.mod_eq_of_lt hn
    refine ⟨_, exec_owned rfl ownsTile_scalar (by
      rw [hm]
      exact State.tecAdd_below hc), ?_, ?_, .put, State.keeps_updTile⟩
    · rw [State.updTile_tile]
      change (Table.getD _ n _ : Tec).count.toNat = _
      rw [Table.getD_put_self, BitVec.toNat_ofNat]
      omega
    · rw [State.updTile_tile]
      exact .put
  · exact ⟨s, exec_owned rfl ownsTile_scalar rfl, rfl⟩

end Sys2Proof.Machine

/-! What an operation of a stream that is done leaves, and the control operations of a stream. -/

namespace Sys2Proof.Machine

set_option Elab.async false

/-! ### A stream goes on -/

@[simp] theorem Tile.stream_setStream_same (x : Tile) (ex : Bool) (st : StreamSt) : (x.setStream ex st).stream ex = st := by
  cases ex <;> rfl

theorem Tile.stream_setStream_other (x : Tile) (ex : Bool) (st : StreamSt) :
    (x.setStream (!ex) st).stream ex = x.stream ex := by
  cases ex <;> rfl

/-- `y` is the tile `x` once the stream has gone on to operation `pc`: the other stream may have left a
PREEMPT it was held at, and no register, queue or memory of the tile changes. -/
def Tile.WentOn (x : Tile) (ex : Bool) (pc : Nat) (y : Tile) : Prop :=
  ∃ (e : Bool) (st : StreamSt) (n : BitVec 8) (p : Nat), ((x.stream ex).ended = true → e = true) ∧
    y = { (x.setStream ex { x.stream ex with
      pc := pc, wait := .none, popped := [], sent := false, ended := e }).setStream (!ex) st with
      skips := n, lastProgress := p }

section
variable {x y : Tile} {ex : Bool} {pc : Nat}

theorem Tile.WentOn.stream (h : x.WentOn ex pc y) : (y.stream ex).pc = pc ∧
    (y.stream ex).loops = (x.stream ex).loops ∧ ((x.stream ex).ended = true → (y.stream ex).ended = true) := by
  obtain ⟨e, st, n, p, he, rfl⟩ := h
  cases ex <;> exact ⟨rfl, rfl, he⟩

theorem Tile.WentOn.pc_eq (h : x.WentOn ex pc y) : (y.stream ex).pc = pc := h.stream.1
theorem Tile.WentOn.loops_eq (h : x.WentOn ex pc y) : (y.stream ex).loops = (x.stream ex).loops := h.stream.2.1
theorem Tile.WentOn.ended (h : x.WentOn ex pc y) (he : (x.stream ex).ended = true) : (y.stream ex).ended = true :=
  h.stream.2.2 he

theorem Tile.WentOn.xs_pc (h : x.WentOn true pc y) : y.xs.pc = pc := h.pc_eq
theorem Tile.WentOn.as_pc (h : x.WentOn false pc y) : y.as.pc = pc := h.pc_eq

theorem Tile.WentOn.tecs_eq (h : x.WentOn ex pc y) : y.tecs = x.tecs := by
  obtain ⟨e, st, n, p, -, rfl⟩ := h
  cases ex <;> rfl

theorem Tile.WentOn.sigq_eq (h : x.WentOn ex pc y) : y.sigq = x.sigq := by
  obtain ⟨e, st, n, p, -, rfl⟩ := h
  cases ex <;> rfl

theorem Tile.WentOn.vregs_eq (h : x.WentOn ex pc y) : y.vregs = x.vregs := by
  obtain ⟨e, st, n, p, -, rfl⟩ := h
  cases ex <;> rfl

theorem Tile.WentOn.flags_eq (h : x.WentOn ex pc y) : y.flags = x.flags := by
  obtain ⟨e, st, n, p, -, rfl⟩ := h
  cases ex <;> rfl

theorem Tile.WentOn.dqs_eq (h : x.WentOn ex pc y) : y.dqs = x.dqs := by
  obtain ⟨e, st, n, p, -, rfl⟩ := h
  cases ex <;> rfl

theorem Tile.WentOn.dmas_eq (h : x.WentOn ex pc y) : y.dmas = x.dmas := by
  obtain ⟨e, st, n, p, -, rfl⟩ := h
  cases ex <;> rfl

theorem Tile.WentOn.matrix_eq (h : x.WentOn ex pc y) : y.matrix = x.matrix := by
  obtain ⟨e, st, n, p, -, rfl⟩ := h
  cases ex <;> rfl

theorem Tile.WentOn.outCount_eq (h : x.WentOn ex pc y) : y.outCount = x.outCount := by
  obtain ⟨e, st, n, p, -, rfl⟩ := h
  cases ex <;> rfl

end

theorem Tile.advance_stream (x : Tile) (ex : Bool) (nxt : Option Nat) (now : Nat) :
    ∃ e, ((x.stream ex).ended = true → e = true) ∧ x.advance ex nxt now = { x.setStream ex { x.stream ex with
      pc := nxt.getD ((x.stream ex).pc + 1), wait := .none, popped := [], sent := false, ended := e } with
      lastProgress := now } :=
  ⟨_, fun h => by rw [h, Bool.true_or], rfl⟩

theorem Tile.advance_wentOn (x : Tile) (ex : Bool) (nxt : Option Nat) (now : Nat) :
    x.WentOn ex (nxt.getD ((x.stream ex).pc + 1)) (x.advance ex nxt now) := by
  obtain ⟨e, he, h⟩ := x.advance_stream ex nxt now
  refine ⟨e, x.stream (!ex), x.skips, now, he, ?_⟩
  rw [h]
  cases ex <;> rfl

theorem Tile.WentOn.setOther {x y : Tile} {ex : Bool} {pc now : Nat} {st : StreamSt} (h : x.WentOn ex pc y) :
    x.WentOn ex pc { y.setStream (!ex) st with lastProgress := now } := by
  obtain ⟨e, st', n, p, he, rfl⟩ := h
  refine ⟨e, st, n, now, he, ?_⟩
  cases ex <;> simp [Tile.setStream]

theorem Tile.WentOn.setSkips {x y : Tile} {ex : Bool} {pc : Nat} {k : BitVec 8} (h : x.WentOn ex pc y) :
    x.WentOn ex pc { y with skips := k } := by
  obtain ⟨e, st, n, p, he, rfl⟩ := h
  exact ⟨e, st, k, p, he, rfl⟩

theorem Tile.WentOn.wait_eq {x y : Tile} {ex : Bool} {pc : Nat} (h : x.WentOn ex pc y) :
    (y.stream ex).wait = .none := by
  obtain ⟨e, st, n, p, -, rfl⟩ := h
  cases ex <;> rfl

/-- Leaving a PREEMPT changes the other stream alone. -/
theorem Tile.WentOn.unhold {x y : Tile} {ex : Bool} {pc : Nat} (h : x.WentOn ex pc y) (b : Bool) (now : Nat) :
    x.WentOn ex pc (y.unhold b now) := by
  unfold Tile.unhold
  split
  · next hw =>
    obtain rfl | rfl : b = ex ∨ b = !ex := by cases b <;> cases ex <;> simp
    · rw [h.wait_eq] at hw
      exact absurd hw (by simp)
    · exact h.setOther
  · exact h

section
variable {s s1 : State} {t opc w : Nat} {ex : Bool} {nxt : Option Nat} {run : Nat → OpOut}

@[simp] theorem State.cntQuay_tile {q i n k : Nat} : (s.cntQuay q i n).tile k = s.tile k := rfl

theorem State.skipCheck_wentOn {x : Tile} {pc : Nat} (h : x.WentOn ex pc (s.tile t)) :
    x.WentOn ex pc ((s.skipCheck t).tile t) ∧ OnlyAt s.tiles (s.skipCheck t).tiles t ∧
      Keeps [.tiles, .trace] s (s.skipCheck t) := by
  unfold State.skipCheck
  extract_lets x0
  split
  · refine ⟨?_, .put, State.keeps_updTile.append State.keeps_cntQuay⟩
    rw [State.cntQuay_tile, State.updTile_tile]
    exact ((h.unhold false s.time).unhold true s.time).setSkips
  · exact ⟨h, .refl, .refl s⟩

/-- An operation that is done lets its stream go on, and the streams leave a PREEMPT they need not wait at. -/
theorem State.streamOp_done (hs : s.standsAt t ex opc w) (hr : run w = .done s1 nxt) :
    ∃ u, s.streamOp t ex opc run = u ∧
      (s1.tile t).WentOn ex (nxt.getD (((s1.tile t).stream ex).pc + 1)) (u.tile t) ∧
      OnlyAt s1.tiles u.tiles t ∧ Keeps [.tiles, .trace] s1 u := by
  obtain ⟨hop, hopc, hissue, hwait⟩ := hs
  have hc : (closeOp t ex (run w)).tile t = (s1.tile t).advance ex nxt s1.time := by
    rw [hr]
    exact State.updTile_tile ..
  obtain ⟨h1, h2, h3⟩ := State.skipCheck_wentOn (s := closeOp t ex (run w)) (t := t)
    (hc ▸ (s1.tile t).advance_wentOn ex nxt s1.time)
  have ho : OnlyAt s1.tiles (closeOp t ex (run w)).tiles t := by rw [hr]; exact .put
  have hk : Keeps [.tiles] s1 (closeOp t ex (run w)) := by rw [hr]; exact State.keeps_updTile
  refine ⟨_, ?_, h1, ho.trans h2, (hk.append h3).mono (by decide)⟩
  simp [State.streamOp, hop, hopc, hissue, hwait]

/-- An operation that is done and leaves the state to its stream. -/
theorem State.gives_done {c : Instr} (hs : s.standsAt t ex opc w) (hc : exec c s = .next (s.streamOp t ex opc run))
    (hr : run w = .done s nxt) : Gives c s (fun u =>
      (s.tile t).WentOn ex (nxt.getD (((s.tile t).stream ex).pc + 1)) (u.tile t) ∧ OnlyAt s.tiles u.tiles t ∧
        Keeps [.tiles, .trace] s u) := by
  obtain ⟨u, rfl, hu⟩ := State.streamOp_done hs hr
  exact ⟨_, hc, hu⟩

/-- An operation that is done and changes its tile. -/
theorem State.gives_done_setTile {c : Instr} {x : Tile} (hs : s.standsAt t ex opc w)
    (hc : exec c s = .next (s.streamOp t ex opc run)) (hr : run w = .done (s.setTile t x) nxt) : Gives c s (fun u =>
      x.WentOn ex (nxt.getD ((x.stream ex).pc + 1)) (u.tile t) ∧ OnlyAt s.tiles u.tiles t ∧
        Keeps [.tiles, .trace] s u) := by
  obtain ⟨u, rfl, hu, ho, hk⟩ := State.streamOp_done hs hr
  rw [State.tile_setTile] at hu
  exact ⟨_, hc, hu, OnlyAt.put.trans ho, (State.keeps_setTile.append hk).mono (by decide)⟩

theorem Gives.imp {c : Instr} {P Q : State → Prop} (h : Gives c s P) (hi : ∀ u, P u → Q u) : Gives c s Q := by
  obtain ⟨u, hu, hp⟩ := h
  exact ⟨u, hu, hi u hp⟩

/-! ### What each control operation answers -/

theorem opLoop_opens (h : 0 < (s.tile t).loopCount (bits w 8 3)) : opLoop t ex s w =
    .done (s.setTile t ((s.tile t).setStream ex { (s.tile t).stream ex with
      loops := { lvl := bits w 8 3, iter := 0, cnt := (s.tile t).loopCount (bits w 8 3),
                 body := ((s.tile t).stream ex).pc + 1 } :: ((s.tile t).stream ex).loops })) none :=
  if_neg (Nat.ne_of_gt h)

theorem opEndloop_repeats {l : OpenLoop} {r : List OpenLoop} (hl : ((s.tile t).stream ex).loops = l :: r)
    (h : l.iter + 1 < l.cnt) : opEndloop t ex s w =
    .done (s.setTile t ((s.tile t).setStream ex { (s.tile t).stream ex with
      loops := { l with iter := l.iter + 1 } :: r })) (some l.body) := by
  simp only [opEndloop, hl, if_pos h]

theorem opEndloop_leaves {l : OpenLoop} {r : List OpenLoop} (hl : ((s.tile t).stream ex).loops = l :: r)
    (h : l.cnt ≤ l.iter + 1) : opEndloop t ex s w =
    .done (s.setTile t ((s.tile t).setStream ex { (s.tile t).stream ex with loops := r })) none := by
  simp only [opEndloop, hl, if_neg (Nat.not_lt.mpr h)]

theorem opPreempt_running (h : (s.tile t).mode = .running) : opPreempt t ex s w = .done s none := by
  simp [opPreempt, h]

theorem opSignal_below (h : ((s.tile t).tec (bits w 8 3)).count.toNat + max 1 (bits w 16 16) ≤ 0xFFFF) :
    opSignal t ex s w = .done (s.setTile t { s.tile t with tecs := (Table.put (s.tile t).tecs (bits w 8 3)
      ({ (s.tile t).tec (bits w 8 3) with
        count := BitVec.ofNat 16 (((s.tile t).tec (bits w 8 3)).count.toNat + max 1 (bits w 16 16)) })) }) none := by
  have hm : (if bits w 16 16 = 0 then 1 else bits w 16 16) = max 1 (bits w 16 16) := by split <;> omega
  simp only [opSignal, hm, State.tecAdd, if_pos h]
  rfl

theorem opWait_dec (h : bits w 16 16 ≤ ((s.tile t).tec (bits w 8 3)).count.toNat) (hd : bit w 11 = true) :
    opWait t ex s w = .done (s.setTile t { s.tile t with tecs := (Table.put (s.tile t).tecs (bits w 8 3)
      ({ (s.tile t).tec (bits w 8 3) with
        count := BitVec.ofNat 16 (((s.tile t).tec (bits w 8 3)).count.toNat - bits w 16 16) })) }) none := by
  simp only [opWait, if_neg (Nat.not_lt.mpr h), if_pos hd]

theorem opWait_stays (h : bits w 16 16 ≤ ((s.tile t).tec (bits w 8 3)).count.toNat) (hd : bit w 11 = false) :
    opWait t ex s w = .done s none := by
  simp [opWait, if_neg (Nat.not_lt.mpr h), hd]

/-- The count of an event counter that stands in the table of a tile. -/
theorem Tile.tec_put_count {x y : Tile} {n v : Nat} {b : Bool} (h : y.tecs = Table.put x.tecs n
    { count := BitVec.ofNat 16 v, sat := b }) (hv : v ≤ 0xFFFF) : (y.tec n).count.toNat = v := by
  rw [Tile.tec, h, Table.getD_put_self, BitVec.toNat_ofNat]
  exact Nat.mod_eq_of_lt (Nat.lt_succ_of_le hv)

end

/-- Settles O13. -/
theorem streamControl : Obligations.StreamControl := by
  unfold Obligations.StreamControl
  refine ⟨fun s t w ex hs => ?_, fun s t w ex hs hc => ?_, fun s t w ex l r hs hl hc => ?_,
    fun s t w ex l r hs hl hc => ?_, fun s t w ex hs hm => ?_, fun s t w ex hs hc => ?_, fun s t w ex hs hc hd => ?_,
    fun s t w ex hs hc hd => ?_, fun s t w ex hs => ?_⟩
  · exact (State.gives_done (nxt := none) hs rfl rfl).imp fun u ⟨hw, hu⟩ => ⟨hw.pc_eq, hu⟩
  · refine (State.gives_done_setTile hs rfl (opLoop_opens hc)).imp fun u ⟨hw, hu⟩ => ⟨?_, ?_, hu⟩
    · rw [hw.loops_eq, Tile.stream_setStream_same]
    · rw [hw.pc_eq, Tile.stream_setStream_same]
      rfl
  · refine (State.gives_done_setTile hs rfl (opEndloop_repeats hl hc)).imp fun u ⟨hw, hu⟩ => ⟨?_, hw.pc_eq, hu⟩
    rw [hw.loops_eq, Tile.stream_setStream_same]
  · refine (State.gives_done_setTile hs rfl (opEndloop_leaves hl hc)).imp fun u ⟨hw, hu⟩ => ⟨?_, ?_, hu⟩
    · rw [hw.loops_eq, Tile.stream_setStream_same]
    · rw [hw.pc_eq, Tile.stream_setStream_same]
      rfl
  · exact (State.gives_done hs rfl (opPreempt_running hm)).imp fun u ⟨hw, hu⟩ => ⟨hw.pc_eq, hu⟩
  · refine (State.gives_done_setTile hs rfl (opSignal_below hc)).imp fun u ⟨hw, hu⟩ => ⟨?_, ?_, hw.pc_eq, hu⟩
    · exact Tile.tec_put_count (x := s.tile t) hw.tecs_eq hc
    · rw [hw.tecs_eq]
      exact .put
  · refine (State.gives_done_setTile hs rfl (opWait_dec hc hd)).imp fun u ⟨hw, hu⟩ => ⟨?_, ?_, hw.pc_eq, hu⟩
    · exact Tile.tec_put_count (x := s.tile t) hw.tecs_eq
        (Nat.le_trans (Nat.sub_le ..) (Nat.le_of_lt_succ ((s.tile t).tec (bits w 8 3)).count.isLt))
    · rw [hw.tecs_eq]
      exact .put
  · exact (State.gives_done hs rfl (opWait_stays hc hd)).imp fun u ⟨hw, hu⟩ => ⟨hw.tecs_eq, hw.pc_eq, hu⟩
  · refine (State.gives_done_setTile hs rfl (nxt := none) rfl).imp fun u ⟨hw, hu⟩ => ⟨hw.ended ?_, hu⟩
    rw [Tile.stream_setStream_same]

end Sys2Proof.Machine

/-! ### More frames -/

namespace Sys2Proof.Machine

set_option Elab.async false

section
variable {α β ε : Type} {ks : List Part} {o s : State}

theorem Keeps.setUnit {u x ks} (h : Keeps ks o s) (hk : [.trace] ⊆ ks := by decide) : Keeps ks o (s.setUnit u x) :=
  h.lift hk fun o h => .upd h (by simp [Keeps, State.setUnit])

theorem Keeps.traceAdd {u m r ks} (h : Keeps ks o s) (hk : [.trace] ⊆ ks := by decide) :
    Keeps ks o (s.traceAdd u m r) :=
  h.lift hk fun o h => .ite (.setUnit h) h

theorem Keeps.traceTile {t m ty tag data ks} (h : Keeps ks o s) (hk : [.trace] ⊆ ks := by decide) :
    Keeps ks o (s.traceTile t m ty tag data) :=
  h.lift hk fun o h => .traceAdd h

end

end Sys2Proof.Machine

/-! Settles the statement about synchronisation from a tile stream. -/

namespace Sys2Proof.Machine

set_option Elab.async false

/-! ### A record whose field of the access stream runs over

TILE_PRE_REC holds the operation index of the access stream in 16 bits. The statement puts no bound on that index,
and an index of 2 ^ 56 runs over into the byte that says the record is valid. -/

/-- A tile held at a PREEMPT whose access stream has gone past operation 2 ^ 56. -/
def Tile.farHeld : Tile :=
  { Tile.reset with
    mode := .stopping, as := { StreamSt.reset with pc := 2 ^ 56, wait := .hold 0 },
    xs := { StreamSt.reset with wait := .hold 0 } }

theorem Tile.farHeld_record : byteField (Tile.farHeld.preRecord 0).toNat 7 1 = 2 := by
  unfold Tile.preRecord
  extract_lets lv openMask iters cnts tecs
  have h0 : openMask = 0 := by decide
  have h1 : Tile.farHeld.as.pc = 2 ^ 56 := rfl
  have h2 : Tile.farHeld.xs.pc = 0 := rfl
  have h3 : Tile.farHeld.flags.toNat = 0 := rfl
  rw [BitVec.toNat_ofNat, h0, h1, h2, h3, byteField, bits]
  generalize crc32c _ = c
  clear_value iters cnts tecs
  omega

/-- What stopping at a PREEMPT writes to the tile. -/
theorem State.preemptPointStop_tile {s u : State} {t i : Nat} (hm : (s.tile t).mode = .stopping)
    (ha : (s.tile t).as.wait = .hold i) (hx : (s.tile t).xs.wait = .hold i) (hl : (s.tile t).sameLoops = true)
    (he : (s.tile t).enginesEmpty = true) (hd : (s.tile t).dmas = []) (hu : exec (.preemptPointStop t) s = .next u) :
    (u.tile t).preRec = (s.tile t).preRecord i := by
  change execPreemptPointStop t s = _ at hu
  simp only [execPreemptPointStop, ha, hx, hm, hl, he, hd, List.isEmpty_nil, and_self, ↓reduceIte] at hu
  cases hu
  have hk : ∀ v : State, ∀ m ty tag data, (v.traceTile t m ty tag data).tiles = v.tiles := fun v m ty tag data =>
    Keeps.tiles_eq (Keeps.traceTile (ks := [.trace]) (.refl v)) (by decide)
  rw [State.cntQuay_tile, State.tile_congr (hk ..), State.tile_setTile]

/-- Refutes O14: a stop at a PREEMPT of `Tile.farHeld` leaves 2 in the byte that should hold 1. -/
theorem not_streamSync : ¬ Obligations.StreamSync := by
  unfold Obligations.StreamSync
  rintro ⟨-, -, h⟩
  have ht : (State.reset.setTile 0 Tile.farHeld).tile 0 = Tile.farHeld := State.tile_setTile ..
  obtain ⟨u, hu, -, -, -, hbyte, -⟩ := h (State.reset.setTile 0 Tile.farHeld) 0 0 (by rw [ht]; rfl) (by rw [ht]; rfl)
    (by rw [ht]; rfl) (by rw [ht]; rfl) (by rw [ht]; rfl) (by rw [ht]; rfl) (by rw [ht]; rfl) (by rw [ht]; rfl)
    (by decide)
  have hrec := State.preemptPointStop_tile (i := 0) (by rw [ht]; rfl) (by rw [ht]; rfl) (by rw [ht]; rfl)
    (by rw [ht]; decide) (by rw [ht]; decide) (by rw [ht]; rfl) hu
  rw [hrec, ht, Tile.farHeld_record] at hbyte
  exact absurd hbyte (by decide)

end Sys2Proof.Machine

/-! Settles the statement about LOAD, STORE and DMA. -/

namespace Sys2Proof.Machine

set_option Elab.async false

/-! ### A DMA whose external address fails

The statement puts no condition on the address descriptor of the external side. Where that one fails, the operation
ends the descriptor, whatever the scratchpad side says. -/

/-- A running tile at a DMA with a null index on its scratchpad side and a failing external address. -/
def Tile.dmaFails : Tile :=
  { Tile.reset with
    mode := .running, active := true,
    res := { ag := [BitVec.ofNat 512 (2 ^ 67 + 2 * 2 ^ 72), BitVec.ofNat 512 (2 ^ 67 + 3 * 2 ^ 72), 0, 0x40000],
             asp := [0x1012], xsp := [] } }

/-- The state of that tile, with the null index in its scratchpad. -/
def State.dmaFails : State :=
  { State.reset.setTile 0 Tile.dmaFails with mem := [(tileBase 0, 0xFF), (tileBase 0 + 1, 0xFF)] }

theorem State.dmaFails_null : State.dmaFails.agAddress 0 (dmaAgS 0x1012) 0 = .null := by decide +kernel
theorem State.dmaFails_fail : State.dmaFails.agAddress 0 (dmaAgX 0x1012) 0 = .fail ST_SPAD_RANGE 1 := by decide +kernel

theorem State.dmaFails_stands : State.dmaFails.standsAt 0 false 0x12 0x1012 := by
  refine ⟨?_, ?_, ?_, ?_⟩ <;> decide

/-- The DMA is not taken up: the next number is as it was. -/
theorem State.dmaFails_nextDma :
    ((State.dmaFails.streamOp 0 false 0x12 (opDma 0 State.dmaFails)).tile 0).nextDma = 0 := by decide +kernel

/-- Refutes O15: the DMA of `State.dmaFails` meets the premises and fails. -/
theorem not_accessStream : ¬ Obligations.AccessStream := by
  unfold Obligations.AccessStream
  rintro ⟨-, -, h, -⟩
  obtain ⟨u, hu, -, hnext, -⟩ := h State.dmaFails 0 0x1012 State.dmaFails_stands rfl State.dmaFails_null
  have he : State.dmaFails.streamOp 0 false 0x12 (opDma 0 State.dmaFails) = u := Host.Outcome.next.inj hu
  rw [← he, State.dmaFails_nextDma] at hnext
  exact absurd hnext.symm (Nat.succ_ne_zero _)

end Sys2Proof.Machine

/-! Settles the statements about the lanes of the vector engine. -/

namespace Sys2Proof.Machine

set_option Elab.async false

/-! ### Lanes of a vector register -/

theorem packElems_lt (w : Nat) (l : List Nat) : packElems w l < 2 ^ (w * l.length) := by
  induction l with
  | nil => simp [packElems]
  | cons c r ih =>
    have hc : c % 2 ^ w < 2 ^ w := Nat.mod_lt _ (Nat.two_pow_pos _)
    calc c % 2 ^ w + 2 ^ w * packElems w r < 2 ^ w + 2 ^ w * packElems w r := by omega
      _ = 2 ^ w * (packElems w r + 1) := by rw [Nat.mul_add_one, Nat.add_comm]
      _ ≤ 2 ^ w * 2 ^ (w * r.length) := Nat.mul_le_mul_left _ ih
      _ = 2 ^ (w * (c :: r).length) := by rw [← Nat.pow_add, List.length_cons, Nat.mul_succ, Nat.add_comm]

theorem packedElem_packElems (w : Nat) (l : List Nat) (i : Nat) :
    packedElem (packElems w l) w i = ((l[i]?).getD 0) % 2 ^ w := by
  induction l generalizing i with
  | nil => simp [packElems, packedElem, bits]
  | cons c r ih =>
    have hd : packElems w (c :: r) / 2 ^ w = packElems w r := by
      rw [packElems, Nat.add_mul_div_left _ _ (Nat.two_pow_pos _), Nat.div_eq_of_lt (Nat.mod_lt _ (Nat.two_pow_pos _)),
        Nat.zero_add]
    cases i with
    | zero => simp [packElems, packedElem, bits]
    | succ i =>
      rw [List.getElem?_cons_succ, ← ih i, ← hd]
      simp only [packedElem, bits, Nat.div_div_eq_div_mul, ← Nat.pow_add]
      rw [Nat.mul_succ, Nat.add_comm]

theorem Tile.lanes_of_vregs {x y : Tile} {v : Nat} {l : List (BitVec 32)} (hl : l.length = 64)
    (h : y.vregs = (x.setLanes v l).vregs) : y.lanes v = l := by
  have hlt : packElems 32 (l.map BitVec.toNat) < 2 ^ 2048 := by
    have := packElems_lt 32 (l.map BitVec.toNat)
    rwa [List.length_map, hl] at this
  have hd : (Table.getD y.vregs v 0).toNat = packElems 32 (l.map BitVec.toNat) := by
    rw [h, Tile.setLanes, Table.getD_put_self, BitVec.toNat_ofNat, Nat.mod_eq_of_lt hlt]
  refine List.ext_getElem (by simp [Tile.lanes, hl]) fun i h1 h2 => ?_
  simp only [Tile.lanes, hd, List.getElem_map, List.getElem_range, packedElem_packElems, List.getElem?_map,
    List.getElem?_eq_getElem h2, Option.map_some, Option.getD_some]
  rw [Nat.mod_eq_of_lt l[i].isLt, BitVec.ofNat_toNat, BitVec.setWidth_eq]

theorem Tile.lanes_length (x : Tile) (v : Nat) : (x.lanes v).length = 64 := by simp [Tile.lanes]

theorem laneResults_length {α : Type} (x : Tile) (w : Nat) (f : BitVec 32 → BitVec 32 → BitVec 32 → α) :
    (laneResults x w f).length = 64 := by simp [laneResults]

section
variable {s : State} {t opc w : Nat}

/-- An operation that is done, changes its tile and is counted. -/
theorem State.gives_done_counted {c : Instr} {x : Tile} {ex : Bool} {q i n : Nat} {run : Nat → OpOut}
    {nxt : Option Nat} (hs : s.standsAt t ex opc w) (hc : exec c s = .next (s.streamOp t ex opc run))
    (hr : run w = .done ((s.setTile t x).cntQuay q i n) nxt) : Gives c s (fun u =>
      x.WentOn ex (nxt.getD ((x.stream ex).pc + 1)) (u.tile t) ∧ OnlyAt s.tiles u.tiles t ∧
        Keeps [.tiles, .trace] s u) := by
  obtain ⟨u, rfl, hu, ho, hk⟩ := State.streamOp_done hs hr
  rw [State.cntQuay_tile, State.tile_setTile] at hu
  exact ⟨_, hc, hu, OnlyAt.put.trans ho,
    ((State.keeps_setTile.append State.keeps_cntQuay).append hk).mono (by decide)⟩

/-- Every lane operation of the vector engine, by the one function of its lanes. -/
theorem laneOp_of_opLanes {c : Nat → Instr} {f : BitVec 32 → BitVec 32 → BitVec 32 → BitVec 32 × ArithFlags}
    (cyc4 : Bool) (h : ∀ t s, exec (c t) s = .next (s.streamOp t true opc (opLanes t cyc4 f s))) :
    LaneOp c opc f := by
  intro s t w hs
  refine (State.gives_done_counted hs (h t s) rfl).imp fun u ⟨hw, hu⟩ => ⟨?_, ?_, ?_, hw.xs_pc, hu⟩
  · refine Tile.lanes_of_vregs (x := s.tile t) (laneResults_length ..) (hw.vregs_eq.trans ?_)
    exact congrArg (fun l => ((s.tile t).setLanes (bits w 8 5) l).vregs) List.map_map
  · refine hw.flags_eq.trans ?_
    simp only [laneResults, List.foldl_map]
    rfl
  · rw [hw.vregs_eq]
    exact .put

end

/-- Settles O16. -/
theorem laneArithmetic : Obligations.LaneArithmetic := by
  unfold Obligations.LaneArithmetic
  exact ⟨laneOp_of_opLanes false fun _ _ => rfl, laneOp_of_opLanes false fun _ _ => rfl,
    laneOp_of_opLanes false fun _ _ => rfl, laneOp_of_opLanes false fun _ _ => rfl,
    laneOp_of_opLanes false fun _ _ => rfl, laneOp_of_opLanes false fun _ _ => rfl,
    laneOp_of_opLanes false fun _ _ => rfl, laneOp_of_opLanes false fun _ _ => rfl,
    laneOp_of_opLanes false fun _ _ => rfl, laneOp_of_opLanes true fun _ _ => rfl,
    laneOp_of_opLanes true fun _ _ => rfl⟩

/-- Settles O17. -/
theorem laneFunctions : Obligations.LaneFunctions := by
  unfold Obligations.LaneFunctions
  exact ⟨laneOp_of_opLanes true fun _ _ => rfl, laneOp_of_opLanes true fun _ _ => rfl,
    laneOp_of_opLanes true fun _ _ => rfl, laneOp_of_opLanes true fun _ _ => rfl,
    laneOp_of_opLanes true fun _ _ => rfl, laneOp_of_opLanes true fun _ _ => rfl,
    laneOp_of_opLanes true fun _ _ => rfl, laneOp_of_opLanes true fun _ _ => rfl,
    laneOp_of_opLanes true fun _ _ => rfl, laneOp_of_opLanes true fun _ _ => rfl⟩

section
variable {opc : Nat}

/-- What a reduction answers. -/
theorem opReduce_eq {t : Nat} {chunk : List (BitVec 32) → BitVec 32 × ArithFlags}
    {combine : BitVec 32 → BitVec 32 → BitVec 32 × ArithFlags} {s : State} {w : Nat} :
    ∃ fl, opReduce t chunk combine s w = .done ((s.setTile t { (s.tile t).setLanes (bits w 8 5) (List.replicate 64
      (reduceResult (s.tile t) w (fun l => (chunk l).1) (fun a b => (combine a b).1))) with flags := fl }).cntQuay
        (t / 64) 4 1) none := by
  unfold opReduce reduceResult
  simp only [List.head?_eq_getElem?]
  cases bit w 39
  · exact ⟨_, rfl⟩
  · exact ⟨_, rfl⟩

/-- Every reduction of the vector engine. -/
theorem reduceOp_of_opReduce {c : Nat → Instr} {chunk : List (BitVec 32) → BitVec 32 × ArithFlags}
    {combine : BitVec 32 → BitVec 32 → BitVec 32 × ArithFlags}
    (h : ∀ t s, exec (c t) s = .next (s.streamOp t true opc (opReduce t chunk combine s))) :
    ReduceOp c opc (fun l => (chunk l).1) (fun a b => (combine a b).1) := by
  intro s t w hs
  obtain ⟨fl, hr⟩ := opReduce_eq (t := t) (chunk := chunk) (combine := combine) (s := s) (w := w)
  refine (State.gives_done_counted hs (h t s) hr).imp fun u ⟨hw, hu⟩ => ⟨?_, ?_, hw.xs_pc, hu⟩
  · exact Tile.lanes_of_vregs (x := s.tile t) List.length_replicate hw.vregs_eq
  · rw [hw.vregs_eq]
    exact .put

end

/-- Settles O18. -/
theorem reductions : Obligations.Reductions := by
  unfold Obligations.Reductions
  exact ⟨reduceOp_of_opReduce fun _ _ => rfl,
    reduceOp_of_opReduce (chunk := fun l => (chunkMax l, 0)) (combine := fun a b => (fpMax a b, 0)) fun _ _ => rfl,
    reduceOp_of_opReduce (chunk := fun l => (chunkMin l, 0)) (combine := fun a b => (fpMin a b, 0)) fun _ _ => rfl,
    reduceOp_of_opReduce fun _ _ => rfl⟩

end Sys2Proof.Machine

/-! Settles the statement about the moves of the vector engine. -/

namespace Sys2Proof.Machine

set_option Elab.async false

/-! ### A bank that holds a NaN with a payload

ACCRD of an FP32 bank moves the bit patterns. The statement reads each word as a value and encodes that value again,
which turns every NaN into the one canonical NaN. -/

/-- A running tile at ACCRD whose oldest held bank begins with the word 7F800001. -/
def Tile.nanBank : Tile :=
  { Tile.reset with
    mode := .running, active := true, res := { ag := [], asp := [], xsp := [0x6A] },
    matrix := { MatrixSt.reset with held := [{ bank := 0, int := false, data := 0x7F800001 }] } }

def State.nanBank : State := State.reset.setTile 0 Tile.nanBank

theorem State.nanBank_stands : State.nanBank.standsAt 0 true 0x6A 0x6A := by
  refine ⟨?_, ?_, ?_, ?_⟩ <;> decide

theorem State.nanBank_lane :
    (((State.nanBank.streamOp 0 true 0x6A (opAccrd 0 State.nanBank)).tile 0).lanes 0)[0]? = some 0x7F800001 := by
  decide +kernel

theorem toFp32_ofFp32_nan : (toFp32 (ofFp32 0x7F800001)).1 = 0x7FC00000 := by decide +kernel

/-- Refutes O19: ACCRD in `State.nanBank` gives the payload, not the canonical NaN. -/
theorem not_vectorMoves : ¬ Obligations.VectorMoves := by
  unfold Obligations.VectorMoves
  rintro ⟨-, -, h, -⟩
  obtain ⟨u, hu, hlanes, -⟩ := h State.nanBank 0 0x6A { bank := 0, int := false, data := 0x7F800001 } []
    State.nanBank_stands rfl
  have he : State.nanBank.streamOp 0 true 0x6A (opAccrd 0 State.nanBank) = u := Host.Outcome.next.inj hu
  have h0 := congrArg (fun l => l[0]?) hlanes
  rw [← he] at h0
  have hv : AccBank.value { bank := 0, int := false, data := 0x7F800001 } 0 = ofFp32 0x7F800001 := by decide +kernel
  have h1 : some (0x7F800001 : BitVec 32) = some (toFp32 (ofFp32 0x7F800001)).1 :=
    State.nanBank_lane.symm.trans (h0.trans (congrArg (fun v => some (toFp32 v).1) hv))
  rw [toFp32_ofFp32_nan] at h1
  exact absurd h1 (by decide)

end Sys2Proof.Machine

/-! Settles the statement about the matrix engine. -/

namespace Sys2Proof.Machine

set_option Elab.async false

section
variable {s : State} {t w : Nat}

/-- OPFILL of the block scale of operand A takes one entry. -/
theorem opOpfill_s2 {e : BitVec 512} {r : List (BitVec 512)} (hd : bits w 10 2 = 0) (hw : bits w 12 2 = 2)
    (hp : (s.tile t).xs.popped = []) (hq : (s.tile t).dq (bits w 8 2) = { DataQueue.reset with entries := e :: r }) :
    ∃ q y, y = (s.tile t).popped (bits w 8 2) q ∧ opOpfill t s w = .done (s.setTile t { y with
      matrix := { y.matrix with a := { (s.tile t).matrix.a with s2 := some e, s2Used := 0 } } }) none := by
  have hdata : BitVec.ofNat 512 (packElems 512 [e.toNat]) = e := by
    have hlt : packElems 512 [e.toNat] = e.toNat := by simp [packElems, Nat.mod_eq_of_lt e.isLt]
    rw [hlt, BitVec.ofNat_toNat, BitVec.setWidth_eq]
  refine ⟨DataQueue.refill { DataQueue.reset with entries := r, taken := 0 }, _, rfl, ?_⟩
  have hpop : opOpfill.popN 1 { DataQueue.reset with entries := e :: r } [] =
      (DataQueue.refill { DataQueue.reset with entries := r, taken := 0 }, [e]) := rfl
  simp only [opOpfill, hd, hw, hp, hq, fillEntries, List.length_nil, Nat.sub_zero, hpop, OperandSide.fill,
    Nat.reduceEqDiff, ↓reduceIte, Nat.reduceBEq,
    Bool.false_and, Bool.false_eq_true, List.length_singleton, Nat.lt_irrefl, List.map_cons, List.map_nil, hdata]
  rfl

/-- An MMA whose block is one group, on operands that are ready. -/
theorem opMma_single {k : PairKind} (hbm : bits w 24 6 = 0) (hacc : bit w 30 = false)
    (hk : pairKind (bits w 8 4) (bits w 12 4) (bits w 16 2) (bits w 18 2) = some k)
    (hb : (s.tile t).matrix.block = none) (hf : (s.tile t).matrix.bankFree (s.tile t).matrix.nextBank = true)
    (ha : (s.tile t).matrix.a.ready (bits w 8 4) (bits w 16 2) = true)
    (hb' : (s.tile t).matrix.b.ready (bits w 12 4) (bits w 18 2) = true) :
    ∃ fl q i n, opMma t s w = .done ((s.setTile t { s.tile t with
      flags := fl
      matrix := { (s.tile t).matrix with
        a := (s.tile t).matrix.a.consume, b := (s.tile t).matrix.b.consume, input := none, block := none
        nextBank := 1 - (s.tile t).matrix.nextBank
        held := (s.tile t).matrix.held ++ [{
          bank := (s.tile t).matrix.nextBank, int := k == .int
          data := BitVec.ofNat 32768 (addGroup k (s.tile t).matrix.a (s.tile t).matrix.b (bits w 8 4) (bits w 12 4)
            (bits w 16 2) (bits w 18 2) 0).1 }] } }).cntQuay q i n) none := by
  have hl : (List.range 6).filter (fun n => bit (bits w 24 6) n) = [] := by
    rw [hbm]
    decide
  have h0 : (0 : BitVec 32768).toNat = 0 := BitVec.toNat_zero
  simp only [opMma, hl, hk, hb, hf, ha, hb', hacc, h0, List.all_nil, Option.isSome_none, Bool.not_true, Bool.or_self,
    Bool.and_false, Bool.false_eq_true, ↓reduceIte, Bool.false_beq]
  exact ⟨_, _, _, _, rfl⟩

/-- ACCREL of the oldest held bank, unscaled, into a queue with nothing left over. -/
theorem opAccrel_plain {b : AccBank} {r : List AccBank} (hm : bits w 16 2 = 0) (hh : (s.tile t).matrix.held = b :: r)
    (hq : ((s.tile t).dq (bits w 10 2)).backlog = []) :
    ∃ fl d, opAccrel t s w = .done (s.setTile t (Tile.setDq { s.tile t with
      flags := fl, outCount := (s.tile t).outCount + 1024
      matrix := { (s.tile t).matrix with held := r, draining := d } } (bits w 10 2)
      (((s.tile t).dq (bits w 10 2)).offer (convBank b (bits w 12 4) 0 (descSat (s.tile t).desc)
        (fun i => descRMode (s.tile t).desc ((s.tile t).outCount + i)) 0).1)).freeDrained) none := by
  simp only [opAccrel, OpOut.onBank, hh, hm, hq, List.isEmpty_nil, Bool.not_true, Bool.false_eq_true, ↓reduceIte,
    Nat.reduceEqDiff]
  exact ⟨_, _, rfl⟩

end

/-- Settles O20. -/
theorem matrixCommands : Obligations.MatrixCommands := by
  unfold Obligations.MatrixCommands
  refine ⟨fun s t w e r hs hd hw hp hq => ?_, fun s t w k hs hbm hacc hk hb hf ha hb' => ?_,
    fun s t w b r hs hm hh hq => ?_⟩
  · obtain ⟨q, y, hy, hr⟩ := opOpfill_s2 hd hw hp hq
    refine (State.gives_done_setTile hs rfl hr).imp fun u ⟨hw', hu⟩ => ⟨?_, ?_, ?_, ?_, ?_, hu⟩
    · rw [hw'.matrix_eq]
    · rw [hw'.matrix_eq, hy]
      rfl
    · rw [hw'.matrix_eq, hy]
      rfl
    · rw [hw'.dqs_eq, hy]
      exact .put
    · rw [hw'.xs_pc, hy]
      rfl
  · obtain ⟨fl, q, i, n, hr⟩ := opMma_single hbm hacc hk hb hf ha hb'
    refine (State.gives_done_counted hs rfl hr).imp fun u ⟨hw', hu⟩ => ?_
    rw [hw'.matrix_eq]
    exact ⟨rfl, rfl, rfl, rfl, rfl, hw'.xs_pc, hu⟩
  · obtain ⟨fl, d, hr⟩ := opAccrel_plain hm hh hq
    refine (State.gives_done_setTile hs rfl hr).imp fun u ⟨hw', hu⟩ => ⟨?_, ?_, ?_, ?_, hw'.xs_pc, hu⟩
    · rw [hw'.matrix_eq]
      rfl
    · rw [hw'.outCount_eq]
      rfl
    · rw [Tile.dq, hw'.dqs_eq]
      exact Table.getD_put_self ..
    · rw [hw'.dqs_eq]
      exact .put

end Sys2Proof.Machine

/-! ### More frames -/

namespace Sys2Proof.Machine

set_option Elab.async false

section
variable {α β ε : Type} {ks : List Part} {o s : State}

theorem Keeps.cntQuay {q i n ks} (h : Keeps ks o s) (hk : [.trace] ⊆ ks := by decide) :
    Keeps ks o (s.cntQuay q i n) :=
  h.lift hk fun o h => .upd h (by simp [Keeps, State.cntQuay])

theorem Keeps.setTile {t x ks} (h : Keeps ks o s) (hk : [.tiles] ⊆ ks := by decide) : Keeps ks o (s.setTile t x) :=
  h.lift hk fun o h => .upd h (by simp [Keeps, State.setTile])

theorem Keeps.updTile {t f ks} (h : Keeps ks o s) (hk : [.tiles] ⊆ ks := by decide) : Keeps ks o (s.updTile t f) :=
  h.lift hk fun o h => .setTile h

theorem Keeps.traceDescEnd {t tag st ks} (h : Keeps ks o s) (hk : [.free, .trace] ⊆ ks := by decide) :
    Keeps ks o (s.traceDescEnd t tag st) :=
  h.lift hk fun o h => .traceTile (.upd h)

theorem Keeps.finishDesc {t st source op ks} (h : Keeps ks o s) (hk : [.free, .tiles, .trace] ⊆ ks := by decide) :
    Keeps ks o (s.finishDesc t st source op) :=
  h.lift hk fun o h => .cntQuay (.updTile (.traceDescEnd h))

theorem Keeps.failDesc {t st source op ks} (h : Keeps ks o s) (hk : [.free, .tiles, .trace] ⊆ ks := by decide) :
    Keeps ks o (s.failDesc t st source op) :=
  h.lift hk fun o h => .ite (.updTile (.finishDesc h)) (.updTile h)

end

end Sys2Proof.Machine

/-! Settles the statement about one instruction of the scalar core. -/

namespace Sys2Proof.Machine

set_option Elab.async false

/-! ### The word of an instruction -/

theorem bits_rvMkI {rd rs imm : Nat} (hrd : rd < 32) (hrs : rs < 32) (himm : imm < 2 ^ 11) :
    rvMkI 0x13 0 rd rs imm % 128 = 0x13 ∧ rvRd (rvMkI 0x13 0 rd rs imm) = rd ∧ rvF3 (rvMkI 0x13 0 rd rs imm) = 0 ∧
      rvRs1 (rvMkI 0x13 0 rd rs imm) = rs ∧ bits (rvMkI 0x13 0 rd rs imm) 20 12 = imm := by
  simp only [rvMkI, rvRd, rvF3, rvRs1, bits]
  omega

theorem rvImmI_small {w imm : Nat} (himm : imm < 2 ^ 11) (h : bits w 20 12 = imm) : rvImmI w = imm := by
  have hs : sext 12 imm = imm := by
    simp only [sext]
    split <;> omega
  rw [rvImmI, h, hs, ofInt]
  omega

/-- The two halves of a word that stands at the start of a line. -/
theorem byteField_halves (v : Nat) : byteField v 2 2 * 2 ^ 16 + byteField v 0 2 = v % 2 ^ 32 := by
  simp only [byteField, bits]
  omega

section
variable {s : State} {t : Nat} {l : CacheLine}

/-! ### Fetching from a line the cache holds -/

/-- The first line of the program is the one line of the cache. -/
def Tile.HoldsCode (x : Tile) (l : CacheLine) : Prop :=
  x.cache = [l] ∧ l.addr = byteField x.desc 0x50 6 ∧ l.tenant = x.tenant

/-- `u` is `s` with the tile as it was: lines were read, and nothing else. -/
def State.ReadLine (s : State) (t : Nat) (u : State) : Prop :=
  u.tile t = s.tile t ∧ u.time = s.time ∧ OnlyAt s.tiles u.tiles t ∧ Keeps [.tiles, .trace] s u

theorem State.scFetchHalf_hit {off : Nat} (h : (s.tile t).HoldsCode l) (ho : off < 256) :
    ∃ u, s.scFetchHalf t (0x30000000 + off) = .ok (byteField l.data.toNat off 2) u ∧ s.ReadLine t u := by
  obtain ⟨hc, ha, hn⟩ := h
  have hpc : (0x30000000 + off) / 2 ^ 16 = 0x3000 := by omega
  have hoff : (0x30000000 + off) % 2 ^ 16 = off := by omega
  have hx : ({ s.tile t with cache := [l] } : Tile) = s.tile t := by rw [← hc]
  refine ⟨(s.setTile t { s.tile t with cache := [l] }).cntQuay (t / 64) 42 1, ?_, ?_, rfl, .put,
    State.keeps_setTile.append State.keeps_cntQuay⟩
  · have hline : s.cacheLine t (byteField (s.tile t).desc 0x50 6 + off / 256 * 256) = _ :=
      State.cacheLine_hit hc (by rw [ha, Nat.div_eq_of_lt ho]; rfl) hn
    have hany : (s.tile t).cache.any (fun y => y.addr == byteField (s.tile t).desc 0x50 6 + off / 256 * 256 &&
        y.tenant == (s.tile t).tenant) = true := by
      simp [hc, ha, hn, Nat.div_eq_of_lt ho]
    simp only [State.scFetchHalf, hpc, hoff, hany, hline, Nat.mod_eq_of_lt ho, ne_eq, not_true_eq_false, ↓reduceIte,
      Bool.not_true, Bool.false_and, Bool.false_eq_true]
  · rw [hx]
    exact State.tile_setTile ..

theorem State.ReadLine.trans {u v : State} (h : s.ReadLine t u) (k : u.ReadLine t v) : s.ReadLine t v := by
  obtain ⟨h1, h2, h3, h4⟩ := h
  obtain ⟨k1, k2, k3, k4⟩ := k
  exact ⟨k1.trans h1, k2.trans h2, h3.trans k3, h4.trans k4⟩

/-- A full instruction word at the start of the program. -/
theorem State.scFetch_word (h : (s.tile t).HoldsCode l) {w : Nat} (hw : l.data.toNat % 2 ^ 32 = w) (h3 : w % 4 = 3)
    (h7 : w / 4 % 8 ≠ 7) : ∃ u, s.scFetch t 0x30000000 = .ok (4 * 2 ^ 32 + w) u ∧ s.ReadLine t u := by
  obtain ⟨u, hu, hr⟩ := State.scFetchHalf_hit (off := 0) h (by decide)
  obtain ⟨v, hv, hr'⟩ := State.scFetchHalf_hit (s := u) (off := 2) (hr.1 ▸ h) (by decide)
  have hlo : byteField l.data.toNat 0 2 % 4 = 3 ∧ byteField l.data.toNat 0 2 / 4 % 8 ≠ 7 := by
    simp only [byteField, bits]
    omega
  have hsum := byteField_halves l.data.toNat
  rw [hw] at hsum
  refine ⟨v, ?_, hr.trans hr'⟩
  have hpc : (0x30000000 + 2) % 2 ^ 32 = 0x30000000 + 2 := by decide
  have hword : 4 * 2 ^ 32 + byteField l.data.toNat 2 2 * 2 ^ 16 + byteField l.data.toNat 0 2 = 4 * 2 ^ 32 + w := by
    rw [Nat.add_assoc, hsum]
  rw [Nat.add_zero] at hu
  simp only [State.scFetch, hu, hpc, hv, hlo, hword, ne_eq, not_true_eq_false, ↓reduceIte]

/-! ### The two instructions -/

theorem State.scRun_addi {pc rd rs imm : Nat} (hrd : rd < 32) (hrs : rs < 32) (himm : imm < 2 ^ 11) :
    s.scRun t pc 4 (rvMkI 0x13 0 rd rs imm) =
      .done (some (((s.tile t).sc.reg rs + imm) % 2 ^ 32)) ((pc + 4) % 2 ^ 32) s := by
  obtain ⟨hop, -, hf3, hrs1, himm'⟩ := bits_rvMkI hrd hrs himm
  simp only [State.scRun, hop, hf3, hrs1, rvImmI_small himm himm', rvAlu]
  rfl

theorem State.scRun_ecall {pc len : Nat} : s.scRun t pc len 0x73 = .trap 11 s := rfl

/-- The scalar core runs, and the descriptor it belongs to. -/
def Tile.ScRuns (x : Tile) : Prop :=
  x.mode = .running ∧ x.active = true ∧ x.ending = none ∧ x.sc.state = 1 ∧ x.sc.pc = 0x30000000#32

/-- The tile while the instruction runs: its cycles are counted. -/
def Tile.counted (x : Tile) (cyc : Nat) : Tile := { x with sc := { x.sc with cycle := x.sc.cycle + BitVec.ofNat 64 cyc } }

/-- The state once instruction `w` has run: it waits, traps or retires. -/
def ScDone.after (t w : Nat) : ScDone → State
  | .wait s => s
  | .trap c s => s.scTrap t c
  | .done rd npc s => s.scRetire t (rvRd w) rd npc

/-- An instruction that was fetched runs on a state with the same tile, its cycles counted. -/
theorem exec_scInstruction {cyc now w : Nat} (hx : (s.tile t).ScRuns) (hl : (s.tile t).HoldsCode l)
    (hw : l.data.toNat % 2 ^ 32 = w) (h3 : w % 4 = 3) (h7 : w / 4 % 8 ≠ 7) :
    ∃ u, exec (.scInstruction t cyc now) s = .next ((u.scRun t 0x30000000 4 w).after t w) ∧
      u.tile t = (s.tile t).counted cyc ∧ OnlyAt s.tiles u.tiles t ∧ Keeps [.time, .tiles, .trace] s u := by
  obtain ⟨hm, ha, he, hs, hpc⟩ := hx
  let s1 := (s.at now).updTile t (fun x => x.counted cyc)
  have hs1 : s1.tile t = (s.tile t).counted cyc := State.updTile_tile ..
  obtain ⟨u, hu, hut, -, hou, hku⟩ := State.scFetch_word (s := s1) (t := t) (l := l) (by rw [hs1]; exact hl) hw h3 h7
  refine ⟨u, ?_, hut.trans hs1, OnlyAt.put.trans hou, ?_⟩
  · have hw32 : (4 * 2 ^ 32 + w) % 2 ^ 32 = w ∧ (4 * 2 ^ 32 + w) / 2 ^ 32 = 4 := by omega
    have hp : (s.tile t).sc.pc.toNat = 0x30000000 := by rw [hpc]; rfl
    have ht : (s.at now).tile t = s.tile t := rfl
    change execScInstruction t cyc now s = _
    unfold execScInstruction
    simp only [ht, hm, ha, he, hs, hp, beq_self_eq_true, Bool.true_or, Option.isNone_none, Bool.and_self, Bool.not_true,
      Bool.false_eq_true, ↓reduceIte]
    change (match s1.scFetch t 0x30000000 with
      | .wait s => Host.Outcome.next s
      | .trap c s => .next (s.scTrap t c)
      | .ok v s => _) = _
    simp only [hu, hw32]
    cases u.scRun t 0x30000000 4 w <;> rfl
  · exact ((State.keeps_at.append State.keeps_updTile).append hku).mono (by decide)

theorem ScalarCore.reg_zero (c : ScalarCore) : c.reg 0 = 0 := rfl

theorem ScalarCore.setReg_reg (c : ScalarCore) {n v : Nat} (hn : n ≠ 0) (hv : v < 2 ^ 32) : (c.setReg n v).reg n = v := by
  simp only [ScalarCore.setReg, ScalarCore.reg, if_neg hn, Table.getD_put_self, BitVec.toNat_ofNat]
  exact Nat.mod_eq_of_lt hv

theorem ScalarCore.onlyAt_setReg (c : ScalarCore) (n v : Nat) : OnlyAt c.regs (c.setReg n v).regs n := by
  unfold ScalarCore.setReg
  split
  · exact .refl
  · exact .put

theorem ScalarCore.setReg_instret (c : ScalarCore) (n v : Nat) : (c.setReg n v).instret = c.instret := by
  unfold ScalarCore.setReg
  split <;> rfl

theorem ScalarCore.setReg_state (c : ScalarCore) (n v : Nat) : (c.setReg n v).state = c.state := by
  unfold ScalarCore.setReg
  split <;> rfl

/-- Retiring an instruction with a result. -/
theorem State.scRetire_tile {rd v npc : Nat} : (s.scRetire t rd (some v) npc).tile t = { s.tile t with
    lastProgress := s.time
    sc := { (s.tile t).sc.setReg rd v with
      pc := BitVec.ofNat 32 npc, instret := ((s.tile t).sc.setReg rd v).instret + 1 } } := by
  rw [State.scRetire, State.cntQuay_tile, State.updTile_tile]

/-- A trap ends the descriptor of a tile with nothing in flight. -/
theorem State.scTrap_tile {c : Nat} (hd : (s.tile t).dmas = []) (hq : (s.tile t).sigq = []) :
    ((s.scTrap t c).tile t).sc = { (s.tile t).sc with
      state := 3, cause := BitVec.ofNat 4 c, trapPc := (s.tile t).sc.pc } ∧
    ((s.scTrap t c).tile t).mode = .idle ∧ ((s.scTrap t c).tile t).doneStatus = ST_TILE_SC_TRAP ∧
    OnlyAt s.tiles (s.scTrap t c).tiles t := by
  let s1 := s.updTile t (fun x => { x with sc := { x.sc with
    state := 3, cause := BitVec.ofNat 4 c, trapPc := x.sc.pc } })
  have hs1 : s1.tile t = _ := State.updTile_tile ..
  have htr : ∀ tag st, (s1.traceDescEnd t tag st).tiles = s1.tiles := fun tag st =>
    Keeps.tiles_eq (Keeps.traceDescEnd (ks := [.free, .trace]) (.refl s1)) (by decide)
  have hnone : ((s1.tile t).sigq.isEmpty && (s1.tile t).dmas.isEmpty) = true := by rw [hs1]; simp [hd, hq]
  have hu : s.scTrap t c = (s1.finishDesc t ST_TILE_SC_TRAP 3 0).updTile t (fun y =>
      { y with mode := .idle, pendValid := false }) := if_pos hnone
  have hf : (s1.finishDesc t ST_TILE_SC_TRAP 3 0).tile t =
      ((((s1.tile t).writeDone ST_TILE_SC_TRAP 3 0).jobDone ST_TILE_SC_TRAP).clearRun).releaseLines := by
    rw [State.finishDesc, State.cntQuay_tile, State.updTile_tile, State.tile_congr (htr ..)]
  rw [hu, State.updTile_tile, hf, hs1]
  have ho : OnlyAt s1.tiles (s1.finishDesc t ST_TILE_SC_TRAP 3 0).tiles t := by
    rw [← htr (descTag (s1.tile t).desc) ST_TILE_SC_TRAP]
    exact .put
  exact ⟨rfl, rfl, rfl, (OnlyAt.put (k := t)).trans (ho.trans .put)⟩

end

/-- Settles O21. -/
theorem scalarInstruction : Obligations.ScalarInstruction := by
  unfold Obligations.ScalarInstruction
  refine ⟨fun s t cyc now rd rs imm l hm ha he hs hpc hc hla hn hrd hrs himm hw => ?_,
    fun s t cyc now l hm ha he hd hq hs hpc hc hla hn hw => ?_⟩
  · have hf := bits_rvMkI hrd hrs himm
    obtain ⟨u, hu, hut, hou, hku⟩ := exec_scInstruction (cyc := cyc) (now := now) ⟨hm, ha, he, hs, hpc⟩ ⟨hc, hla, hn⟩ hw
      (by omega) (by omega)
    rw [State.scRun_addi hrd hrs himm, ScDone.after, hf.2.1] at hu
    refine ⟨_, hu, ?_⟩
    have hx : ∀ v npc, (u.scRetire t rd (some v) npc).tile t = _ := fun v npc => State.scRetire_tile
    refine ⟨fun h0 => ?_, rfl, ?_, ?_, ?_, ?_, hou.trans .put,
      (hku.append (State.keeps_updTile.append State.keeps_cntQuay)).mono (by decide)⟩
    · rw [hx, hut]
      exact ScalarCore.setReg_reg _ h0 (Nat.mod_lt _ (by decide))
    · rw [hx, hut]
      exact ScalarCore.onlyAt_setReg _ _ _
    · exact congrArg (fun x => x.sc.pc) (hx _ _)
    · rw [hx, hut]
      exact congrArg (· + 1) (ScalarCore.setReg_instret ..)
    · rw [hx, hut]
      exact (ScalarCore.setReg_state ..).trans hs
  · obtain ⟨u, hu, hut, hou, hku⟩ := exec_scInstruction (cyc := cyc) (now := now) ⟨hm, ha, he, hs, hpc⟩ ⟨hc, hla, hn⟩ hw
      (by decide) (by decide)
    rw [State.scRun_ecall, ScDone.after] at hu
    obtain ⟨hsc, hmode, hdone, ho⟩ := State.scTrap_tile (s := u) (t := t) (c := 11) (by rw [hut]; exact hd)
      (by rw [hut]; exact hq)
    refine ⟨_, hu, ?_⟩
    dsimp only
    rw [hsc, hut]
    refine ⟨rfl, rfl, hpc, rfl, hmode, hdone, hou.trans ho, ?_⟩
    exact (hku.append (Keeps.failDesc (ks := [.free, .tiles, .trace]) (State.keeps_updTile.mono (by decide)))).mono
      (by decide)

end Sys2Proof.Machine

/-! ### More frames -/

namespace Sys2Proof.Machine

set_option Elab.async false

section
variable {α β ε : Type} {ks : List Part} {o s : State}

theorem Keeps.hostWrite {a bs ks} (h : Keeps ks o s) (hk : [.hostMem] ⊆ ks := by decide) :
    Keeps ks o (s.hostWrite a bs) :=
  h.lift hk fun o h => .setHostMem h

theorem Keeps.logDigest {p ks} (h : Keeps ks o s) (hk : [.mem, .events, .trace, .log] ⊆ ks := by decide) :
    Keeps ks o (s.logDigest p) :=
  h.lift hk fun o h => .logPut h

theorem Keeps.logInput {p bs command ks} (h : Keeps ks o s) (hk : [.mem, .events, .trace, .log] ⊆ ks := by decide) :
    Keeps ks o (s.logInput p bs command) :=
  h.lift hk fun o h => .ite h (.ite (.logDigest (.setPoint h)) (.setPoint h))

theorem Keeps.updHwq {q f ks} (h : Keeps ks o s) (hk : [.graph] ⊆ ks := by decide) : Keeps ks o (s.updHwq q f) :=
  h.lift hk fun o h => .upd h (by simp [Keeps, State.updHwq])

theorem Keeps.mergePart {atom unit a bs ks} (h : Keeps ks o s)
    (hk : [.mem, .tiers, .events, .trace] ⊆ ks := by decide) :
    Keeps ks o (s.mergePart atom unit a bs) :=
  h.lift hk fun o h => by
  unfold State.mergePart
  extract_lets -lift _ x2 x3 s4 _ _ _ _ _ _ s11
  have hs4 : Keeps [.mem, .tiers, .events, .trace] o s4 := by
    unfold s4
    unfold x2
    split
    · exact h
    · split
      · split
        · unfold x3
          split
          · exact .retire h
          · exact h
        · exact h
      · split
        · unfold x3
          split
          · exact .retire h
          · exact h
        · exact h
  have hs11 : Keeps [.mem, .tiers, .events, .trace] o s11 := .upd hs4 (by simp [Keeps, s11])
  exact .ite (.putAtom (.upd hs11)) (.upd hs11)

theorem Keeps.writeTier {a bs ks} (h : Keeps ks o s)
    (hk : [.mem, .tiers, .events, .trace, .log] ⊆ ks := by decide) :
    Keeps ks o (s.writeTier a bs) :=
  h.lift hk fun o h => by
  unfold State.writeTier
  refine .foldl h fun _ _ h5 => ?_
  extract_lets -lift _ s7 _ _ _ _ s12
  have hs7 : Keeps [.mem, .tiers, .events, .trace, .log] o s7 := .logUnit h5
  have hs12 : Keeps [.mem, .tiers, .events, .trace, .log] o s12 := .ite hs7 (.updChan hs7)
  exact .ite hs7 (.ite (.putAtom (.upd hs12)) (.mergePart hs12))

theorem Keeps.countPartial {t u a n ks} (h : Keeps ks o s) (hk : [.quays] ⊆ ks := by decide) :
    Keeps ks o (s.countPartial t u a n) :=
  h.lift hk fun o h => .ite h (.updQuay h)

theorem Keeps.writePlain_go {n a bs ks} (h0 : Keeps ks o s)
    (hk : [.mem, .quays, .tiers, .events, .trace, .log] ⊆ ks := by decide) :
    Keeps ks o (State.writePlain.go n s a bs) :=
  h0.lift hk fun o h => by
  clear h0
  induction n generalizing s a bs with
  | zero => exact h
  | succ n ih =>
    refine .ite h (ih ?_)
    split
    · exact .writeTier h
    · exact .writeTier h
    · exact .setMem (.countPartial h)
    · exact .setMem (.countPartial h)
    · exact h

theorem Keeps.writePlain {a bs ks} (h : Keeps ks o s)
    (hk : [.mem, .quays, .tiers, .events, .trace, .log] ⊆ ks := by decide) :
    Keeps ks o (s.writePlain a bs) :=
  h.lift hk fun o h => .writePlain_go h

theorem Keeps.monitorWrite {m a bs ks} (h : Keeps ks o s)
    (hk : [.mem, .quays, .tiers, .events, .trace, .log, .pilot] ⊆ ks := by decide) :
    Keeps ks o (s.monitorWrite m a bs) :=
  h.lift hk fun o h => by
  unfold State.monitorWrite
  extract_lets -lift
  split
  · exact .writePlain h
  · exact .upd h
  · exact .upd h

theorem Keeps.writeMem {a bs ks} (h : Keeps ks o s)
    (hk : [.mem, .quays, .tiers, .events, .trace, .log, .pilot] ⊆ ks := by decide) : Keeps ks o (s.writeMem a bs) :=
  h.lift hk fun o h =>
    .ite (.withPilot (.touch h)) (.foldl (.writePlain (.touch h)) (fun _ _ h1 => .monitorWrite h1))

theorem Keeps.logDecision {p values ks} (h : Keeps ks o s) (hk : [.mem, .events, .trace, .log] ⊆ ks := by decide) :
    Keeps ks o (s.logDecision p values) :=
  h.lift hk fun o h => .ite h (.setPoint (.foldl h (fun _ _ h1 => .logPut h1)))

theorem Keeps.hostFetch {a n ks} (h : Keeps ks o s) (hk : [.mem, .events, .trace, .log] ⊆ ks := by decide) :
    Keeps ks o (s.hostFetch a n).2 :=
  h.lift hk fun o h => .logInput h

theorem Keeps.peekEntry {x ks} (h : Keeps ks o s)
    (hk : [.mem, .quays, .tiers, .events, .trace, .log, .pilot, .agent] ⊆ ks := by decide) :
    Keeps ks o (s.peekEntry x).2 :=
  h.lift hk fun o h => by
  unfold State.peekEntry
  extract_lets -lift
  split
  · exact .hostFetch h
  · split
    · next e => exact Keeps.snd_of_eq (.accessRecord h) e
    next e10 =>
      have he10 := Keeps.snd_of_eq (.accessRecord h) e10
      split
      · next e => exact Keeps.snd_of_eq (.loadNum he10) e
      · next e => exact Keeps.snd_of_eq (.loadNum he10) e

theorem Keeps.writeShadow {q ks} (h : Keeps ks o s)
    (hk : [.mem, .hostMem, .quays, .tiers, .events, .trace, .log, .graph, .pilot, .agent] ⊆ ks := by decide) :
    Keeps ks o (s.writeShadow q) :=
  h.lift hk fun o h => by
  unfold State.writeShadow
  split
  · exact h
  · extract_lets -lift _ s7
    have hs7 : Keeps [.mem, .hostMem, .quays, .tiers, .events, .trace, .log, .graph, .pilot, .agent] o s7 :=
        .updHwq h
    split
    · exact .hostWrite hs7
    · split
      · next e => exact Keeps.snd_of_eq (.accessRecord hs7) e
      · next e => exact .writeMem (Keeps.snd_of_eq (.accessRecord hs7) e)

end

end Sys2Proof.Machine

/-! Settles the statement about doorbells, entries and shadows of a submission queue. -/

namespace Sys2Proof.Machine

set_option Elab.async false

/-! ### A table changed in place -/

section
variable {α : Type}

theorem Table.find_mapV {β : Type} (t : Table α) (f : Nat → α → β) (k : Nat) :
    Table.find (Table.mapV t f) k = (Table.find t k).map (f k) := by
  induction t with
  | nil => rfl
  | cons p r ih =>
    obtain ⟨a, x⟩ := p
    simp only [Table.mapV, List.map_cons, Table.find] at ih ⊢
    split
    · next h => rw [h]; rfl
    · exact ih

theorem Table.find_mapV_at (t : Table α) (g : α → α) {q : Nat} {x : α} (h : Table.find t q = some x) :
    Table.find (Table.mapV t (fun k y => if k = q then g y else y)) q = some (g x) := by
  rw [Table.find_mapV, h, Option.map_some, if_pos rfl]

theorem OnlyAt.mapV_at {t : Table α} {g : α → α} {q : Nat} :
    OnlyAt t (Table.mapV t (fun k y => if k = q then g y else y)) q := by
  intro j hj
  rw [Table.find_mapV]
  simp [hj]

end

section
variable {s : State} {q : Nat}

theorem State.updHwq_hwq {g : HwQueue → HwQueue} {x : HwQueue} (h : s.hwq q = some x) :
    (s.updHwq q g).hwq q = some (g x) := Table.find_mapV_at _ _ h

theorem State.onlyAt_updHwq {g : HwQueue → HwQueue} : OnlyAt s.graph.queues (s.updHwq q g).graph.queues q := .mapV_at

/-! ### An event where none is pending -/

theorem State.raise_entries_of_nil {st : Status} {k n a : Nat} {tn : Option Nat} (he : s.events.entries = [])
    (ha : isAlarm st = false) : (s.raise st k n tn a).events.entries = [s.newEntry st k n tn a] := by
  have hx : ¬ (s.newEntry st k n tn a).alarm = true := by simp [State.newEntry, ha]
  simp only [State.raise, State.placeEntry, if_neg hx]
  simp [EventStores.placeEvent, he]

theorem State.raised_raise {st : Status} {k n a : Nat} {tn : Option Nat} (ha : isAlarm st = false) :
    s.raised (s.raise st k n tn a) [st] := fun he => by
  rw [State.raise_entries_of_nil he ha]
  rfl

/-! ### The doorbell -/

theorem State.hostArrival_off {f : Nat} {bs : List Byte} (h : s.logging = false) : s.hostArrival f bs = s := by
  rw [State.hostArrival, State.logArb_off _ _ _ h, State.logInput, h]
  rfl

theorem exec_doorbell_own {f v : Nat} {x : HwQueue} (hr : (s.func f).inReset = false) (hl : s.logging = false)
    (ht : s.tenantLicensed f = true) (hx : s.hwq (bits v 0 13) = some x) (ho : x.tenant = f) :
    exec (.doorbell f v) s = .next (s.ringDoorbell (bits v 0 13) (bits v 13 17)) := by
  change execDoorbell f v s = _
  simp only [execDoorbell, hr, State.hostArrival_off hl, ht, hx, ho, Bool.false_eq_true, ↓reduceIte, Bool.not_true]

theorem State.ringDoorbell_fits {n : Nat} {x : HwQueue} (hm : s.serving.models = []) (hx : s.hwq q = some x)
    (he : x.enabled = true) (hd : (BitVec.ofNat 17 n - x.head).toNat ≤ 2 ^ x.sizeLog2)
    (ha : (BitVec.ofNat 17 n - x.tail).toNat ≤ 2 ^ x.sizeLog2) :
    s.ringDoorbell q n = s.updHwq q (fun y => { y with tail := BitVec.ofNat 17 n }) := by
  simp only [State.ringDoorbell, hx, hm, List.any_nil, Bool.false_eq_true, he, Bool.not_true, Nat.not_lt.mpr hd,
    Nat.not_lt.mpr ha, or_self, ↓reduceIte]

theorem State.ringDoorbell_beyond {n : Nat} {x : HwQueue} (hm : s.serving.models = []) (hx : s.hwq q = some x)
    (he : x.enabled = true) (hd : 2 ^ x.sizeLog2 < (BitVec.ofNat 17 n - x.head).toNat) :
    s.ringDoorbell q n = (s.raise ST_Q_DOORBELL_RANGE 10 0 (some x.tenant) q).cntMod 14 1 := by
  simp only [State.ringDoorbell, hx, hm, List.any_nil, Bool.false_eq_true, he, Bool.not_true, hd, true_or, ↓reduceIte]

/-! ### Reading an entry -/

theorem State.nextQueue_hwq {x : HwQueue} (h : s.nextQueue = some (q, x)) : s.hwq q = some x := by
  unfold State.nextQueue at h
  dsimp only at h
  split at h
  · exact absurd h (by simp)
  · obtain ⟨k, -, hk⟩ := Option.bind_eq_some_iff.mp h
    obtain ⟨y, hy, he⟩ := Option.map_eq_some_iff.mp hk
    cases he
    exact hy

theorem State.decisionAllowed_free {p v : Nat} (hh : s.log.held = false) (hl : s.logging = false) :
    s.decisionAllowed p v = true := by
  have hr : s.replaying = false := by
    rw [State.logging, Bool.or_eq_false_iff] at hl
    exact hl.2
  simp [State.decisionAllowed, hh, hr]

theorem Keeps.graph_eq {ks : List Part} {u : State} (h : Keeps ks s u) (hk : Part.graph ∉ ks) : u.graph = s.graph := by
  obtain ⟨-, -, -, -, -, -, -, -, -, -, -, -, -, -, -, -, -, -, -, hgraph, -⟩ := h
  exact hgraph.resolve_left hk

theorem Keeps.time_eq {ks : List Part} {u : State} (h : Keeps ks s u) (hk : Part.time ∉ ks) : u.time = s.time := by
  obtain ⟨-, htime, -⟩ := h
  exact htime.resolve_left hk

/-- The entry that was read, as the engine keeps it. -/
def State.withEntry (s : State) (e : ReadEntry) : State :=
  { s with graph := { s.graph with
    seq := e.seq, entries := s.graph.entries ++ [e], lastTenant := e.tenant
    lastQueue := Table.put s.graph.lastQueue e.tenant e.queue } }

/-- What is left once the entry is kept, its queue has moved on and the read is logged. -/
theorem State.entryTaken_graph {e : ReadEntry} {x : HwQueue} {u : State} (hx : s.hwq q = some x)
    (hu : u = (((s.withEntry e).updHwq q (fun y => { y with
      head := y.head + 1, shadowDue := some (y.shadowDue.getD s.time) })).cntMod 0 1).logDecision 0x601 [q]) :
    u.graph.seq = e.seq ∧ u.graph.entries = s.graph.entries ++ [e] ∧
      u.hwq q = some { x with head := x.head + 1, shadowDue := some (x.shadowDue.getD u.time) } ∧
      OnlyAt s.graph.queues u.graph.queues q ∧ u.graph.graphs = s.graph.graphs ∧
      Keeps [.mem, .events, .trace, .log, .graph] s u := by
  have hlog := Keeps.logDecision (p := 0x601) (values := [q]) (Keeps.refl (((s.withEntry e).updHwq q (fun y => { y with
      head := y.head + 1, shadowDue := some (y.shadowDue.getD s.time) })).cntMod 0 1)) (List.Subset.refl _)
  rw [← hu] at hlog
  have hg := hlog.graph_eq (by decide)
  have ht : u.time = s.time := hlog.time_eq (by decide)
  have hw : (s.withEntry e).hwq q = some x := hx
  refine ⟨?_, ?_, ?_, ?_, ?_, ?_⟩
  · rw [hg]; rfl
  · rw [hg]; rfl
  · rw [State.hwq, hg, ht]
    exact State.updHwq_hwq hw
  · rw [hg]
    exact State.onlyAt_updHwq (s := s.withEntry e)
  · rw [hg]; rfl
  · exact (Keeps.cntMod (.updHwq (.withGraph (.refl s)))).trans (hlog.mono (by decide))

theorem exec_entryRead {t e : Nat} {x : HwQueue} (hp : s.log.paused = false) (hh : s.log.held = false)
    (hl : s.logging = false) (hn : (s.at t).nextQueue = some (q, x))
    (he : ((s.at t).peekEntry x).1.toOption = some e) (ht : x.head + 1 ≠ x.tail) :
    ∃ r : ReadEntry, r.seq = ((s.at t).peekEntry x).2.graph.seq + 1 ∧
      (r.seq, r.queue, r.tenant, r.raw) = (r.seq, q, x.tenant, BitVec.ofNat 512 e) ∧
      exec (.entryRead t) s = .next ((((((s.at t).peekEntry x).2.withEntry r).updHwq q (fun y => { y with
        head := y.head + 1, shadowDue := some (y.shadowDue.getD ((s.at t).peekEntry x).2.time) })).cntMod 0 1).logDecision
      0x601 [q]) := by
  have hd : (s.at t).decisionAllowed 0x601 q = true := State.decisionAllowed_free hh hl
  have hp' : (s.at t).log.paused = false := hp
  change ∃ r : ReadEntry, _ ∧ _ ∧ execEntryRead t s = _
  unfold execEntryRead
  simp only [hp', hn, hd, Bool.false_eq_true, ↓reduceIte, Bool.not_true, if_neg ht]
  cases hr : ((s.at t).peekEntry x).1 with
  | error st => rw [hr] at he; exact absurd he (by simp [Except.toOption])
  | ok e' =>
    rw [hr] at he
    cases he
    exact ⟨{ seq := _, queue := q, tenant := x.tenant, raw := _, need := _ }, rfl, rfl, rfl⟩

/-! ### Shadows -/

theorem State.writeShadow_host {x : HwQueue} (hx : s.hwq q = some x) (hl : x.shadowLoc = 1) :
    s.writeShadow q = (s.updHwq q (fun y => { y with shadowDue := none })).hostWrite x.shadowAddr.toNat
      (bytesOfNat 4 x.head.toNat) := by
  simp only [State.writeShadow, hx, hl, ↓reduceIte]

theorem bytesOfNat_length (n x : Nat) : (bytesOfNat n x).length = n := by
  induction n generalizing x with
  | zero => rfl
  | succ n ih => rw [bytesOfNat, List.length_cons, ih]

theorem State.hostWrite_readBytes (a : Nat) (bs : List Byte) :
    Mem.readBytes (s.hostWrite a bs).hostMem a bs.length = some bs := Mem.readBytes_writeBytes ..

theorem State.hostWrite_sameOutside (a : Nat) (bs : List Byte) :
    SameOutside s.hostMem (s.hostWrite a bs).hostMem a (a + bs.length) :=
  fun x hx => Mem.read_writeBytes_outside bs s.hostMem a x hx

end

/-- Settles O22. -/
theorem queueCommands : Obligations.QueueCommands := by
  unfold Obligations.QueueCommands
  refine ⟨fun s f v x hr hl ht hm hx ho he hd ha => ?_, fun s f v x hr hl ht hm hx ho he hd => ?_,
    fun s t q e x hp hh hl hn he ht => ?_, fun s q t x hx hd hl => ?_⟩
  · refine ⟨_, (exec_doorbell_own hr hl ht hx ho).trans (congrArg _ (State.ringDoorbell_fits hm hx he hd ha)),
      State.updHwq_hwq hx, State.onlyAt_updHwq, rfl, Keeps.updHwq (ks := [.graph]) (.refl s)⟩
  · refine ⟨_, (exec_doorbell_own hr hl ht hx ho).trans (congrArg _ (State.ringDoorbell_beyond hm hx he hd)),
      State.raise_graph .., State.raised_raise (by decide), State.keeps_raise.trans (State.keeps_cntMod.mono (by decide))⟩
  · obtain ⟨r, hr, hraw, hu⟩ := exec_entryRead hp hh hl hn he ht
    have hk : Keeps [.mem, .quays, .tiers, .events, .trace, .log, .pilot, .agent] (s.at t) ((s.at t).peekEntry x).2 :=
      .peekEntry (.refl _)
    have hg : ((s.at t).peekEntry x).2.graph = s.graph := hk.graph_eq (by decide)
    have hq : ((s.at t).peekEntry x).2.hwq q = some x := by
      have hfound := State.nextQueue_hwq hn
      rw [State.hwq, hg]
      exact hfound
    obtain ⟨hseq, hent, hhwq, honly, hgraphs, hkeep⟩ := State.entryTaken_graph (e := r) hq rfl
    rw [hg] at hr hent honly hgraphs
    refine ⟨_, hu, hseq.trans hr, ?_, hhwq, honly, hgraphs, ((State.keeps_at.append hk).append hkeep).mono (by decide)⟩
    rw [hent, List.map_append, List.map_singleton, hraw, hr]
  · have hx' : (s.at t).hwq q = some x := hx
    refine ⟨(s.at t).writeShadow q, ?_, ?_⟩
    · change execShadowWrite q t s = _
      simp only [execShadowWrite, hx', hd, ↓reduceIte]
    · rw [State.writeShadow_host hx' hl]
      have hb := bytesOfNat_length 4 x.head.toNat
      refine ⟨?_, ?_, ?_, ?_, rfl, ?_⟩
      · have := State.hostWrite_readBytes (s := (s.at t).updHwq q (fun y => { y with shadowDue := none }))
          x.shadowAddr.toNat (bytesOfNat 4 x.head.toNat)
        rwa [hb] at this
      · have := State.hostWrite_sameOutside (s := (s.at t).updHwq q (fun y => { y with shadowDue := none }))
          x.shadowAddr.toNat (bytesOfNat 4 x.head.toNat)
        rwa [hb] at this
      · exact State.updHwq_hwq hx'
      · exact State.onlyAt_updHwq
      · exact .hostWrite (.updHwq (State.keeps_at.mono (by decide)))

end Sys2Proof.Machine

/-! ### More frames -/

namespace Sys2Proof.Machine

set_option Elab.async false

section
variable {α β ε : Type} {ks : List Part} {o s : State}

theorem Keeps.readTable {tenant a w n ks} (h : Keeps ks o s)
    (hk : [.mem, .quays, .tiers, .events, .trace, .log, .pilot, .agent] ⊆ ks := by decide) :
    Keeps ks o (s.readTable tenant a w n).2 :=
  h.lift hk fun o h => by
  unfold State.readTable
  split
  · exact h
  · split
    · next e => exact Keeps.snd_of_eq (.accessRecord h) e
    next e9 =>
      have he9 := Keeps.snd_of_eq (.accessRecord h) e9
      split
      · next e => exact Keeps.snd_of_eq (.loadNum he9) e
      · next e => exact Keeps.snd_of_eq (.loadNum he9) e

theorem Keeps.updGraph {seq f ks} (h : Keeps ks o s) (hk : [.graph] ⊆ ks := by decide) :
    Keeps ks o (s.updGraph seq f) :=
  h.lift hk fun o h => .upd h (by simp [Keeps, State.updGraph])

theorem Keeps.updNode {seq node f ks} (h : Keeps ks o s) (hk : [.graph] ⊆ ks := by decide) :
    Keeps ks o (s.updNode seq node f) :=
  h.lift hk fun o h => .updGraph h

theorem Keeps.readGraph {tenant e ks} (h : Keeps ks o s)
    (hk : [.mem, .quays, .tiers, .events, .trace, .log, .pilot, .agent] ⊆ ks := by decide) :
    Keeps ks o (s.readGraph tenant e).2 :=
  h.lift hk fun o h => by
  unfold State.readGraph
  split
  · next e => exact Keeps.snd_of_eq (.readTable h) e
  next e8 =>
    have he8 := Keeps.snd_of_eq (.readTable h) e8
    extract_lets -lift
    split
    · exact he8
    · split
      · next e => exact Keeps.snd_of_eq (.readTable he8) e
      next e20 =>
        have he20 := Keeps.snd_of_eq (.readTable he8) e20
        split
        · next e => exact Keeps.snd_of_eq (.readTable he20) e
        · next e => exact Keeps.snd_of_eq (.readTable he20) e

theorem Keeps.noteReady {ks} (h : Keeps ks o s) (hk : [.graph] ⊆ ks := by decide) : Keeps ks o s.noteReady :=
  h.lift hk fun o h => .foldl h (fun _ _ h1 => .updNode h1)

end

end Sys2Proof.Machine

/-! Settles the statement about RUN, LOAD, LAUNCH and UNLOAD entries. -/

namespace Sys2Proof.Machine

set_option Elab.async false

/-! ### The ready order notes a time and no more -/

/-- The node without the time at which it became ready. -/
def NodeSt.unready (n : NodeSt) : NodeSt := { n with readyAt := none }

/-- The graph without the times at which its nodes became ready. -/
def GraphRun.unready (g : GraphRun) : GraphRun := { g with nodes := Table.mapV g.nodes (fun _ n => n.unready) }

section
variable {s : State} {k : Nat}

theorem State.graphOf_updGraph {q : Nat} {f : GraphRun → GraphRun} :
    (s.updGraph q f).graphOf k = (s.graphOf k).map (fun g => if k = q then f g else g) :=
  Table.find_mapV s.graph.graphs (fun k x => if k = q then f x else x) k

theorem State.graphOf_updGraph_self {f : GraphRun → GraphRun} :
    (s.updGraph k f).graphOf k = (s.graphOf k).map f := by simp [State.graphOf_updGraph]

theorem State.onlyAt_updGraph {f : GraphRun → GraphRun} : OnlyAt s.graph.graphs (s.updGraph k f).graph.graphs k :=
  .mapV_at

theorem Table.mapV_mapV {α β γ : Type} (t : Table α) (f : Nat → α → β) (g : Nat → β → γ) :
    Table.mapV (Table.mapV t f) g = Table.mapV t (fun k x => g k (f k x)) := by
  simp [Table.mapV, Function.comp_def]

/-- What `noteReady` leaves of the graph engine. -/
def State.NotesReady (s u : State) : Prop :=
  u.graph.entries = s.graph.entries ∧ u.graph.residents = s.graph.residents
    ∧ ∀ k, (u.graphOf k).map GraphRun.unready = (s.graphOf k).map GraphRun.unready

theorem State.NotesReady.updNode {u : State} (h : s.NotesReady u) {q n : Nat} {r : NodeSt → Option Nat} :
    s.NotesReady (u.updNode q n (fun x => { x with readyAt := r x })) := by
  obtain ⟨hentries, hresidents, hgraphs⟩ := h
  refine ⟨hentries, hresidents, fun k => ?_⟩
  rw [← hgraphs k, State.updNode, State.graphOf_updGraph, Option.map_map]
  refine congrArg (Option.map · (u.graphOf k)) (funext fun g => ?_)
  simp only [Function.comp_apply]
  split
  · simp only [GraphRun.unready, Table.mapV_mapV]
    congr 2
    funext j x
    split <;> rfl
  · rfl

theorem State.noteReady_notes : s.NotesReady s.noteReady := by
  suffices h : ∀ (l : List (Nat × Nat)) (u : State), s.NotesReady u → s.NotesReady (l.foldl (fun s p =>
      s.updNode p.1 p.2 (fun n => { n with readyAt := some (n.readyAt.getD s.time) })) u) from
    h _ s ⟨rfl, rfl, fun _ => rfl⟩
  intro l
  induction l with
  | nil => exact fun _ h => h
  | cons p l ih => exact fun u h => ih _ h.updNode

/-- What does not look at the times of readiness reads the same after `noteReady`. -/
theorem State.NotesReady.graphOf_map {α : Type} {u : State} (h : s.NotesReady u) {f : GraphRun → α}
    (hf : ∀ g, f g.unready = f g) (k : Nat) : (u.graphOf k).map f = (s.graphOf k).map f := by
  obtain ⟨-, -, hgraphs⟩ := h
  have hu : f ∘ GraphRun.unready = f := funext hf
  rw [← hu, ← Option.map_map, hgraphs k, Option.map_map]

end

/-! ### The entry that is taken -/

/-- The graph that the entry begins. -/
def State.begun (s : State) (e : ReadEntry) : GraphRun :=
  graphRun e s.time (((s.hwq e.queue).map (fun q => q.prioMax.toNat)).getD 7)
    (s.serving.inFlight.any (fun x => x.queued && x.seq.isNone && x.launch == e.raw))

/-- The state that takes the entry. -/
def State.took (s : State) (e : ReadEntry) (r : List ReadEntry) : State :=
  { s with
    serving := { s.serving with
      inFlight := changeFirst (fun x => x.queued && x.seq.isNone && x.launch == e.raw)
        (fun x => { x with seq := some e.seq }) s.serving.inFlight }
    graph := { s.graph with entries := r, graphs := Table.put s.graph.graphs e.seq (s.begun e) } }.cntMod
      (1 + min 3 (s.begun e).op) 1

section
variable {s : State} {e : ReadEntry} {r : List ReadEntry}

theorem State.takeEntry_took {p : Nat → Bool} {f : GraphRun → State → State} (he : s.graph.entries = e :: r)
    (hp : p (entOp e.raw.toNat) = true) (hok : entryOk e.raw.toNat = true) :
    s.takeEntry e.seq p f = f (s.begun e) (s.took e r) := by
  have hok' : ¬ (!entryOk (s.begun e).entry.toNat) = true := by
    rw [show (s.begun e).entry = e.raw from rfl, hok]
    decide
  simp only [State.takeEntry, he, true_and, if_pos hp]
  exact if_neg hok'

theorem State.took_keeps : Keeps [.graph, .serving, .trace] s (s.took e r) := by
  simp [Keeps, State.took, State.cntMod]

theorem State.took_graphOf : (s.took e r).graphOf e.seq = some (s.begun e) := Table.find_put_self _ _ _

theorem State.took_onlyAt : OnlyAt s.graph.graphs (s.took e r).graph.graphs e.seq := .put

theorem OnlyAt.mapped {α β : Type} {a b : Table α} {k : Nat} {f : α → β} (h : OnlyAt a b k) :
    OnlyAt (a.map (fun p => (p.1, f p.2))) (b.map (fun p => (p.1, f p.2))) k := fun j hj => by
  have hm (t : Table α) : Table.find (t.map (fun p => (p.1, f p.2))) j = (Table.find t j).map f :=
    Table.find_mapV t (fun _ x => f x) j
  rw [hm, hm, h j hj]

/-! ### A graph that is filled -/

theorem GraphRun.fill_words {g : GraphRun} {ns : List (BitVec 512)} {es : List (Nat × Nat)} {tag : Nat} :
    (g.fill ns es tag).nodes.map (fun n => n.2.words) = ns := by
  have hl : ns.length ≤ (inDegrees ns.length es).length := by simp [inDegrees]
  calc (g.fill ns es tag).nodes.map (fun n => n.2.words)
      = ((ns.zip (inDegrees ns.length es)).zipIdx.map Prod.fst).map Prod.fst := by
        simp only [GraphRun.fill, List.map_map]
        rfl
    _ = ns := by rw [List.zipIdx_map_fst, List.map_fst_zip hl]

theorem GraphRun.fill_waiting {g : GraphRun} {ns : List (BitVec 512)} {es : List (Nat × Nat)} {tag : Nat} :
    (g.fill ns es tag).nodes.all (fun n => n.2.phase == .waiting) = true := by
  simp only [GraphRun.fill, List.all_map, List.all_eq_true]
  exact fun _ _ => rfl

theorem GraphRun.unready_nodes_map {β : Type} {f : NodeSt → β} (hf : ∀ n, f n.unready = f n) (g : GraphRun) :
    g.unready.nodes.map (fun n => f n.2) = g.nodes.map (fun n => f n.2) := by
  simp [GraphRun.unready, Table.mapV, Function.comp_def, hf]

theorem GraphRun.unready_waiting (g : GraphRun) :
    g.unready.nodes.all (fun n => n.2.phase == .waiting) = g.nodes.all (fun n => n.2.phase == .waiting) := by
  simp [GraphRun.unready, Table.mapV, NodeSt.unready, Function.comp_def]

end

/-! ### What a graph table read leaves -/

theorem Keeps.hif_eq {ks : List Part} {s u : State} (h : Keeps ks s u) (hk : Part.hif ∉ ks) : u.hif = s.hif := by
  obtain ⟨-, -, -, -, -, -, -, -, -, -, -, -, -, -, -, hhif, -⟩ := h
  exact hhif.resolve_left hk

theorem State.readGraph_keeps {s : State} {t w : Nat} :
    Keeps [.mem, .quays, .tiers, .events, .trace, .log, .pilot, .agent] s (s.readGraph t w).2 :=
  Keeps.readGraph (.refl s)

theorem State.quotaField_congr {s u : State} (h : u.hif = s.hif) (t o n : Nat) :
    u.quotaField t o n = s.quotaField t o n := by rw [State.quotaField, State.quotaField, h]

theorem State.slotsFit_congr {s u : State} (h : u.hif = s.hif) (t : Nat) (d : Nat × Nat × Nat) :
    u.slotsFit t d false = s.slotsFit t d false := by
  simp only [State.slotsFit, State.quotaField_congr h]
  rfl

section
variable {s : State} {e : ReadEntry} {r : List ReadEntry} {ns : List (BitVec 512)} {es : List (Nat × Nat)} {tag : Nat}

/-! ### RUN -/

theorem execRun_ok (he : s.graph.entries = e :: r) (hop : entOp e.raw.toNat = 0) (hok : entryOk e.raw.toNat = true)
    (hread : ((s.took e r).readGraph e.tenant e.raw.toNat).1.toOption = some (ns, es, tag)) :
    execRun e.seq s = .next ((((s.took e r).readGraph e.tenant e.raw.toNat).2.updGraph e.seq
      (fun g => g.fill ns es tag)).noteReady) := by
  rw [execRun, State.takeEntry_took he (by rw [hop]; rfl) hok]
  simp only [show (s.begun e).tenant = e.tenant from rfl, show (s.begun e).entry = e.raw from rfl]
  generalize (s.took e r).readGraph e.tenant e.raw.toNat = x at hread
  obtain ⟨x, u⟩ := x
  cases x with
  | error x => cases hread
  | ok x =>
    obtain rfl : x = (ns, es, tag) := Option.some.inj hread
    rfl

theorem State.filled_graphOf {u : State} (hg : u.graphOf e.seq = some (s.begun e)) :
    (u.updGraph e.seq (fun g => g.fill ns es tag)).graphOf e.seq = some ((s.begun e).fill ns es tag) := by
  rw [State.graphOf_updGraph_self, hg]
  rfl

theorem gives_run (he : s.graph.entries = e :: r) (hop : entOp e.raw.toNat = 0) (hok : entryOk e.raw.toNat = true)
    (hread : ((s.takeEntry e.seq (fun _ => true) (fun _ x => x)).readGraph e.tenant e.raw.toNat).1.toOption
      = some (ns, es, tag)) :
    Gives (.run e.seq) s (fun u =>
      (u.graphOf e.seq).map (fun g => (g.op, g.tenant, g.tag)) = some (0, e.tenant, BitVec.ofNat 32 tag)
      ∧ (u.graphOf e.seq).map (fun g => g.nodes.map (fun n => n.2.words)) = some ns
      ∧ (u.graphOf e.seq).map (fun g => g.edges) = some es
      ∧ (u.graphOf e.seq).map (fun g => g.nodes.all (fun n => n.2.phase == .waiting)) = some true
      ∧ u.graph.entries = r
      ∧ OnlyAt (s.graph.graphs.map (fun (p : Nat × GraphRun) => (p.1, p.2.tag)))
          (u.graph.graphs.map (fun (p : Nat × GraphRun) => (p.1, p.2.tag))) e.seq
      ∧ u.graph.residents = s.graph.residents
      ∧ Keeps [.mem, .quays, .tiers, .events, .trace, .log, .graph, .pilot, .serving, .agent] s u) := by
  rw [State.takeEntry_took he rfl hok] at hread
  have hexec := execRun_ok he hop hok hread
  have hv : Keeps _ (s.took e r) ((s.took e r).readGraph e.tenant e.raw.toNat).2 := State.readGraph_keeps
  generalize ((s.took e r).readGraph e.tenant e.raw.toNat).2 = v at hexec hv
  have hgraph : v.graph = (s.took e r).graph := hv.graph_eq (by decide)
  have hg : v.graphOf e.seq = some (s.begun e) := by
    rw [State.graphOf, hgraph]
    exact State.took_graphOf
  have hfill := State.filled_graphOf (ns := ns) (es := es) (tag := tag) hg
  let w := v.updGraph e.seq (fun g => g.fill ns es tag)
  have hnote : w.NotesReady w.noteReady := State.noteReady_notes
  refine ⟨w.noteReady, hexec, ?_, ?_, ?_, ?_, ?_, ?_, ?_, ?_⟩
  · rw [hnote.graphOf_map (fun _ => rfl), hfill, Option.map_some]
    exact congrArg (fun n => some (n, e.tenant, BitVec.ofNat 32 tag)) hop
  · rw [hnote.graphOf_map (GraphRun.unready_nodes_map fun _ => rfl), hfill, Option.map_some, GraphRun.fill_words]
  · rw [hnote.graphOf_map (fun _ => rfl), hfill]
    rfl
  · rw [hnote.graphOf_map GraphRun.unready_waiting, hfill, Option.map_some, GraphRun.fill_waiting]
  · exact hnote.1.trans (congrArg GraphEngine.entries hgraph :)
  · have h1 : OnlyAt s.graph.graphs w.graph.graphs e.seq := by
      refine State.took_onlyAt (r := r) |>.trans ?_
      rw [← hgraph]
      exact State.onlyAt_updGraph
    intro j hj
    have hm (u : State) : Table.find (u.graph.graphs.map (fun (p : Nat × GraphRun) => (p.1, p.2.tag))) j
        = (u.graphOf j).map (fun g => g.tag) := Table.find_mapV u.graph.graphs (fun _ g => g.tag) j
    rw [hm, hm, hnote.graphOf_map (fun _ => rfl)]
    exact congrArg _ (h1 j hj)
  · exact hnote.2.1.trans (congrArg GraphEngine.residents hgraph :)
  · exact .noteReady (.updGraph ((State.took_keeps.mono (by decide)).trans (hv.mono (by decide))))

/-! ### LOAD -/

/-- The resident graph that LOAD makes of what it read. -/
def loadedGraph (tenant : Nat) (ns : List (BitVec 512)) (es : List (Nat × Nat)) (tag : Nat) : ResidentGraph :=
  { tenant := tenant, tag := BitVec.ofNat 32 tag, nodes := ns, edges := es, unloading := false, solo := none,
    verified := false }

def State.withResident (s : State) (h : Nat) (x : ResidentGraph) : State :=
  { s with graph := { s.graph with residents := Table.put s.graph.residents h x } }

theorem execGraphLoad_ok {h : Nat} (he : s.graph.entries = e :: r) (hop : entOp e.raw.toNat = 1)
    (hok : entryOk e.raw.toNat = true)
    (hread : ((s.took e r).readGraph e.tenant e.raw.toNat).1.toOption = some (ns, es, tag))
    (hfree : Table.lowestFree s.graph.residents 4096 = some h)
    (hquota : (s.graph.residents.filter (fun x => x.2.tenant == e.tenant)).length < s.quotaField e.tenant 2 2) :
    execGraphLoad e.seq s = .next ((((s.took e r).readGraph e.tenant e.raw.toNat).2.withResident h
      (loadedGraph e.tenant ns es tag)).updGraph e.seq
        (fun g => { g with handle := some h, tag := BitVec.ofNat 32 tag })) := by
  have hv : Keeps _ (s.took e r) ((s.took e r).readGraph e.tenant e.raw.toNat).2 := State.readGraph_keeps
  have hres : ((s.took e r).readGraph e.tenant e.raw.toNat).2.graph.residents = s.graph.residents :=
    (congrArg GraphEngine.residents (hv.graph_eq (by decide)) :)
  have hquot : ((s.took e r).readGraph e.tenant e.raw.toNat).2.quotaField e.tenant 2 2 = s.quotaField e.tenant 2 2 :=
    State.quotaField_congr ((hv.hif_eq (by decide)).trans (State.took_keeps.hif_eq (by decide))) _ _ _
  rw [execGraphLoad, State.takeEntry_took he (by rw [hop]; rfl) hok]
  simp only [show (s.begun e).tenant = e.tenant from rfl, show (s.begun e).entry = e.raw from rfl]
  generalize (s.took e r).readGraph e.tenant e.raw.toNat = x at hread hres hquot
  obtain ⟨x, u⟩ := x
  cases x with
  | error x => cases hread
  | ok x =>
    obtain rfl : x = (ns, es, tag) := Option.some.inj hread
    simp only at hres hquot ⊢
    simp only [hres, hfree, hquot, if_neg (Nat.not_le_of_lt hquota), State.withResident, loadedGraph]

theorem gives_graphLoad {h : Nat} (he : s.graph.entries = e :: r) (hop : entOp e.raw.toNat = 1)
    (hok : entryOk e.raw.toNat = true)
    (hread : ((s.takeEntry e.seq (fun _ => true) (fun _ x => x)).readGraph e.tenant e.raw.toNat).1.toOption
      = some (ns, es, tag))
    (hfree : Table.lowestFree s.graph.residents 4096 = some h)
    (hquota : (s.graph.residents.filter (fun x => x.2.tenant == e.tenant)).length < s.quotaField e.tenant 2 2) :
    Gives (.graphLoad e.seq) s (fun u =>
      (Table.find u.graph.residents h).map (fun x => (x.tenant, x.tag, x.unloading))
        = some (e.tenant, BitVec.ofNat 32 tag, false)
      ∧ (Table.find u.graph.residents h).map (fun x => (x.nodes, x.edges)) = some (ns, es)
      ∧ OnlyAt s.graph.residents u.graph.residents h
      ∧ (u.graphOf e.seq).map (fun g => (g.handle, g.nodes.length)) = some (some h, 0) ∧ u.graph.entries = r
      ∧ Keeps [.mem, .quays, .tiers, .events, .trace, .log, .graph, .pilot, .serving, .agent] s u) := by
  rw [State.takeEntry_took he rfl hok] at hread
  have hexec := execGraphLoad_ok he hop hok hread hfree hquota
  have hv : Keeps _ (s.took e r) ((s.took e r).readGraph e.tenant e.raw.toNat).2 := State.readGraph_keeps
  generalize ((s.took e r).readGraph e.tenant e.raw.toNat).2 = v at hexec hv
  have hgraph : v.graph = (s.took e r).graph := hv.graph_eq (by decide)
  have hres : v.graph.residents = s.graph.residents := (congrArg GraphEngine.residents hgraph :)
  have hfind : Table.find (Table.put v.graph.residents h (loadedGraph e.tenant ns es tag)) h
      = some (loadedGraph e.tenant ns es tag) := Table.find_put_self _ _ _
  refine ⟨_, hexec, ?_, ?_, ?_, ?_, ?_, ?_⟩
  · exact congrArg (Option.map _) hfind
  · exact congrArg (Option.map _) hfind
  · rw [← hres]
    exact .put
  · have hg : (v.withResident h (loadedGraph e.tenant ns es tag)).graphOf e.seq = some (s.begun e) := by
      rw [State.graphOf, State.withResident, hgraph]
      exact State.took_graphOf (r := r)
    rw [State.graphOf_updGraph_self, hg]
    rfl
  · exact (congrArg GraphEngine.entries hgraph :)
  · exact .updGraph (.upd ((State.took_keeps.mono (by decide)).trans (hv.mono (by decide)))
      (by simp [Keeps, State.withResident]))

/-! ### LAUNCH -/

theorem execLaunch_ok {x : ResidentGraph} (he : s.graph.entries = e :: r) (hop : entOp e.raw.toNat = 2)
    (hok : entryOk e.raw.toNat = true) (hfit : s.slotsFit e.tenant (1, 0, 0) false = true)
    (hx : s.residentOf e.tenant (entHandle e.raw.toNat) = some x) :
    execLaunch e.seq s = .next (((s.took e r).updGraph e.seq (fun g =>
      { (g.fill x.nodes x.edges x.tag.toNat) with handle := some (entHandle e.raw.toNat) })).noteReady) := by
  have hfit' : ¬ (!(s.took e r).slotsFit (s.begun e).tenant (1, 0, 0) false) = true := by
    rw [State.slotsFit_congr (State.took_keeps.hif_eq (by decide))]
    simp [show (s.begun e).tenant = e.tenant from rfl, hfit]
  have hx' : (s.took e r).residentOf (s.begun e).tenant (entHandle (s.begun e).entry.toNat) = some x := hx
  rw [execLaunch, State.takeEntry_took he (by rw [hop]; rfl) hok]
  simp only [hx', if_neg hfit']
  rfl

theorem gives_launch {x : ResidentGraph} (he : s.graph.entries = e :: r) (hop : entOp e.raw.toNat = 2)
    (hok : entryOk e.raw.toNat = true) (hfit : s.slotsFit e.tenant (1, 0, 0) false = true)
    (hx : s.residentOf e.tenant (entHandle e.raw.toNat) = some x) :
    Gives (.launch e.seq) s (fun u =>
      (u.graphOf e.seq).map (fun g => (g.op, g.handle, g.nodes.map (fun n => n.2.words), g.edges))
        = some (2, some (entHandle e.raw.toNat), x.nodes, x.edges)
      ∧ u.graph.entries = r ∧ u.graph.residents = s.graph.residents ∧ Keeps [.graph, .serving, .trace] s u) := by
  obtain ⟨hentries, hresidents, -⟩ := State.noteReady_notes (s := (s.took e r).updGraph e.seq (fun g =>
      { (g.fill x.nodes x.edges x.tag.toNat) with handle := some (entHandle e.raw.toNat) }))
  refine ⟨_, execLaunch_ok he hop hok hfit hx, ?_, hentries, hresidents,
    .noteReady (.updGraph State.took_keeps)⟩
  rw [State.noteReady_notes.graphOf_map (fun g => by
    rw [GraphRun.unready_nodes_map (f := NodeSt.words) (fun _ => rfl)]
    rfl), State.graphOf_updGraph_self, State.took_graphOf]
  simp only [Option.map_some, GraphRun.fill_words]
  exact congrArg (fun n => some (n, some (entHandle e.raw.toNat), x.nodes, x.edges)) hop

/-! ### UNLOAD -/

theorem State.find_of_residentOf {t h : Nat} {x : ResidentGraph} (hx : s.residentOf t h = some x) :
    Table.find s.graph.residents h = some x := by
  simp only [State.residentOf] at hx
  split at hx
  · next y hy =>
    split at hx
    · rw [hy, hx]
    · cases hx
  · cases hx

theorem execUnload_ok {x : ResidentGraph} (he : s.graph.entries = e :: r) (hop : entOp e.raw.toNat = 3)
    (hok : entryOk e.raw.toNat = true) (hx : s.residentOf e.tenant (entHandle e.raw.toNat) = some x) :
    execUnload e.seq s = .next (((s.took e r).withResident (entHandle e.raw.toNat)
      { x with unloading := true }).updGraph e.seq (fun g => { g with handle := some (entHandle e.raw.toNat) })) := by
  have hx' : (s.took e r).residentOf (s.begun e).tenant (entHandle (s.begun e).entry.toNat) = some x := hx
  rw [execUnload, State.takeEntry_took he (by rw [hop]; rfl) hok]
  simp only [hx']
  rfl

theorem gives_unload {x : ResidentGraph} (he : s.graph.entries = e :: r) (hop : entOp e.raw.toNat = 3)
    (hok : entryOk e.raw.toNat = true) (hx : s.residentOf e.tenant (entHandle e.raw.toNat) = some x) :
    Gives (.unload e.seq) s (fun u =>
      Table.find u.graph.residents (entHandle e.raw.toNat) = some { x with unloading := true }
      ∧ OnlyAt s.graph.residents u.graph.residents (entHandle e.raw.toNat)
      ∧ (u.graphOf e.seq).map (fun g => (g.op, g.handle)) = some (3, some (entHandle e.raw.toNat))
      ∧ u.graph.entries = r ∧ Keeps [.graph, .serving, .trace] s u) := by
  refine ⟨_, execUnload_ok he hop hok hx, Table.find_put_self _ _ _, .put, ?_, rfl,
    .updGraph (.upd (State.took_keeps (e := e) (r := r)) (by simp [Keeps, State.withResident]))⟩
  rw [State.graphOf_updGraph_self, show ((s.took e r).withResident (entHandle e.raw.toNat) _).graphOf e.seq
    = some (s.begun e) from State.took_graphOf (r := r)]
  exact congrArg (fun n => some (n, some (entHandle e.raw.toNat))) hop

end

/-- Settles O23. -/
theorem graphEntries : Obligations.GraphEntries :=
  ⟨fun _ _ _ _ _ _ he hop hok hread => gives_run he hop hok hread,
   fun _ _ _ _ _ _ _ he hop hok hread hfree hquota => gives_graphLoad he hop hok hread hfree hquota,
   fun _ _ _ _ he hop hok hfit hx => gives_launch he hop hok hfit hx,
   fun _ _ _ _ he hop hok hx => gives_unload he hop hok hx⟩

end Sys2Proof.Machine

/-! ### More frames -/

namespace Sys2Proof.Machine

set_option Elab.async false

section
variable {α β ε : Type} {ks : List Part} {o s : State}

theorem Keeps.barAbort {t ks} (h : Keeps ks o s) (hk : [.sync] ⊆ ks := by decide) : Keeps ks o (s.barAbort t) :=
  h.lift hk fun o h => .upd h (by simp [Keeps, State.barAbort])

theorem Keeps.setSo {n x ks} (h : Keeps ks o s) (hk : [.sync] ⊆ ks := by decide) : Keeps ks o (s.setSo n x) :=
  h.lift hk fun o h => .upd h (by simp [Keeps, State.setSo])

theorem Keeps.cntSync {sop n ks} (h : Keeps ks o s) (hk : [.sync, .trace] ⊆ ks := by decide) :
    Keeps ks o (s.cntSync sop n) :=
  h.lift hk fun o h => .cntMod (.upd h)

theorem Keeps.wake {u st ks} (h : Keeps ks o s) (hk : [.free, .tiles, .sync, .trace] ⊆ ks := by decide) :
    Keeps ks o (s.wake u st) :=
  h.lift hk fun o h => by
  unfold State.wake
  split
  · exact .ite (.updTile h) (.failDesc h)
  · exact .upd h

theorem Keeps.setFunc {f x ks} (h : Keeps ks o s) (hk : [.hif] ⊆ ks := by decide) : Keeps ks o (s.setFunc f x) :=
  h.lift hk fun o h => .upd h (by simp [Keeps, State.setFunc])

theorem Keeps.updFunc {f g ks} (h : Keeps ks o s) (hk : [.hif] ⊆ ks := by decide) : Keeps ks o (s.updFunc f g) :=
  h.lift hk fun o h => .setFunc h

theorem Keeps.loseNote {f ks} (h : Keeps ks o s) (hk : [.hif] ⊆ ks := by decide) : Keeps ks o (s.loseNote f) :=
  h.lift hk fun o h => .updFunc h

theorem Keeps.raiseVec2 {f ks} (h : Keeps ks o s) (hk : [.hif] ⊆ ks := by decide) : Keeps ks o (s.raiseVec2 f) :=
  h.lift hk fun o h => .updFunc h

theorem Keeps.writeNote {f so count ks} (h : Keeps ks o s) (hk : [.hostMem, .hif] ⊆ ks := by decide) :
    Keeps ks o (s.writeNote f so count) :=
  h.lift hk fun o h => by
  unfold State.writeNote
  extract_lets -lift
  split
  · exact .loseNote h
  · exact .ite (.loseNote h) (.raiseVec2 (.updFunc (.hostWrite h)))

theorem Keeps.passObj {n before ks} (h : Keeps ks o s)
    (hk : [.free, .hostMem, .tiles, .sync, .trace, .hif] ⊆ ks := by decide) :
    Keeps ks o (s.passObj n before) :=
  h.lift hk fun o h => by
  unfold State.passObj
  extract_lets -lift
  split
  · extract_lets -lift s20 s21 s22
    have hs20 : Keeps [.free, .hostMem, .tiles, .sync, .trace, .hif] o s20 := .setSo h
    have hs21 : Keeps [.free, .hostMem, .tiles, .sync, .trace, .hif] o s21 := .foldl hs20 (fun _ _ h23 => .cntSync
        (.wake h23))
    have hs22 : Keeps [.free, .hostMem, .tiles, .sync, .trace, .hif] o s22 := .ite hs21 (.cntMod hs21)
    exact .ite (.writeNote hs22) hs22

theorem Keeps.removeWaits {p ks} (h : Keeps ks o s)
    (hk : [.free, .hostMem, .tiles, .sync, .trace, .hif] ⊆ ks := by decide) :
    Keeps ks o (s.removeWaits p) :=
  h.lift hk fun o h => .foldl (.upd h) (fun _ _ h1 => .passObj (.setSo h1))

theorem Keeps.tileAbort {t ks} (h : Keeps ks o s)
    (hk : [.free, .hostMem, .tiles, .sync, .trace, .hif] ⊆ ks := by decide) :
    Keeps ks o (s.tileAbort t) :=
  h.lift hk fun o h => by
  unfold State.tileAbort
  extract_lets -lift _ s2 s3
  have hs2 : Keeps [.free, .hostMem, .tiles, .sync, .trace, .hif] o s2 := .setTile h
  have hs3 : Keeps [.free, .hostMem, .tiles, .sync, .trace, .hif] o s3 := .updTile hs2
  split
  · exact .barAbort (.removeWaits hs3)
  · exact .barAbort (.removeWaits hs3)
  · exact .barAbort (.removeWaits hs3)
  · exact hs2

theorem Keeps.updStack {n f ks} (h : Keeps ks o s) (hk : [.stks] ⊆ ks := by decide) : Keeps ks o (s.updStack n f) :=
  h.lift hk fun o h => .upd h (by simp [Keeps, State.updStack])

theorem Keeps.resizeReserve {n used ks} (h : Keeps ks o s) (hk : [.stks] ⊆ ks := by decide) :
    Keeps ks o (s.resizeReserve n used) :=
  h.lift hk fun o h => .updStack h

theorem Keeps.updPort {p f ks} (h : Keeps ks o s) (hk : [.fab] ⊆ ks := by decide) : Keeps ks o (s.updPort p f) :=
  h.lift hk fun o h => .upd h (by simp [Keeps, State.updPort])

theorem Keeps.freeSlots {port p ks} (h : Keeps ks o s) (hk : [.fab] ⊆ ks := by decide) :
    Keeps ks o (s.freeSlots port p) :=
  h.lift hk fun o h => .ite h (.updPort h)

theorem Keeps.forward {port p ks} (h : Keeps ks o s) (hk : [.fab] ⊆ ks := by decide) :
    Keeps ks o (s.forward port p) :=
  h.lift hk fun o h => by
  unfold State.forward
  split
  · exact .freeSlots (.updPort h)
  · exact .upd h

theorem Keeps.sendPacket {p ks} (h : Keeps ks o s) (hk : [.fab] ⊆ ks := by decide) : Keeps ks o (s.sendPacket p) :=
  h.lift hk fun o h => .ite (.upd h) (.forward h)

theorem Keeps.traceCentral {m ty kind index tag data ks} (h : Keeps ks o s) (hk : [.trace] ⊆ ks := by decide) :
    Keeps ks o (s.traceCentral m ty kind index tag data) :=
  h.lift hk fun o h => .traceAdd h

theorem Keeps.abortTile {t ks} (h : Keeps ks o s)
    (hk : [.free, .hostMem, .tiles, .sync, .trace, .hif] ⊆ ks := by decide) :
    Keeps ks o (s.abortTile t) :=
  h.lift hk fun o h => .ite (.setTile h) (.tileAbort h)

theorem Keeps.growReserves {ks} (h : Keeps ks o s) (hk : [.stks] ⊆ ks := by decide) : Keeps ks o s.growReserves :=
  h.lift hk fun o h => .foldl h (fun _ _ h1 => .resizeReserve h1)

theorem Keeps.releaseNode {seq node ks} (h : Keeps ks o s) (hk : [.tiles, .graph, .stks] ⊆ ks := by decide) :
    Keeps ks o (s.releaseNode seq node) :=
  h.lift hk fun o h => by
  unfold State.releaseNode
  split
  · exact h
  · exact .growReserves (.updNode (.updGraph (.withStks (.foldl h (fun _ _ h6 => .updTile h6)))))

theorem Keeps.updChain {c f ks} (h : Keeps ks o s) (hk : [.stks] ⊆ ks := by decide) : Keeps ks o (s.updChain c f) :=
  h.lift hk fun o h => .upd h (by simp [Keeps, State.updChain])

theorem Keeps.stkWrite {c stks addr off bs ks} (h : Keeps ks o s)
    (hk : [.mem, .quays, .tiers, .events, .trace, .log, .pilot, .stks] ⊆ ks := by decide) :
    Keeps ks o (s.stkWrite c stks addr off bs) :=
  h.lift hk fun o h => by
  unfold State.stkWrite
  split
  · exact .writeMem h
  · exact .updChain h

theorem Keeps.scrambleAt {c stks a n ks} (h : Keeps ks o s)
    (hk : [.free, .mem, .quays, .tiers, .events, .trace, .log, .pilot, .stks] ⊆ ks := by decide) :
    Keeps ks o (s.scrambleAt c stks a n) :=
  h.lift hk fun o h => .stkWrite (.upd h)

theorem Keeps.nbuWrite {stack nbu y3 bs ks} (h : Keeps ks o s)
    (hk : [.mem, .quays, .tiers, .events, .trace, .log, .pilot] ⊆ ks := by decide) :
    Keeps ks o (s.nbuWrite stack nbu y3 bs) :=
  h.lift hk fun o h => .foldl h (fun _ _ h1 => .writeMem h1)

theorem Keeps.appendMap {d ks} (h : Keeps ks o s)
    (hk : [.mem, .quays, .tiers, .events, .trace, .log, .pilot] ⊆ ks := by decide) :
    Keeps ks o (s.appendMap d).2 :=
  h.lift hk fun o h => by
  unfold State.appendMap
  split
  · next e => exact Keeps.snd_of_eq (.loadNum h) e
  next e7 =>
    have he7 := Keeps.snd_of_eq (.loadNum h) e7
    split
    · exact he7
    · split
      · next e => exact Keeps.snd_of_eq (.loadNum he7) e
      · next e => exact Keeps.snd_of_eq (.loadNum he7) e

theorem Keeps.kvEntry {geo pt y3 layer kind page ks} (h : Keeps ks o s)
    (hk : [.mem, .quays, .tiers, .events, .trace, .log, .pilot] ⊆ ks := by decide) :
    Keeps ks o (s.kvEntry geo pt y3 layer kind page).2 :=
  h.lift hk fun o h => by
  unfold State.kvEntry
  split
  · next e => exact Keeps.snd_of_eq (.loadNum h) e
  next e7 =>
    have he7 := Keeps.snd_of_eq (.loadNum h) e7
    extract_lets -lift
    split
    · exact he7
    · split
      · next e => exact Keeps.snd_of_eq (.loadNum he7) e
      next e18 =>
        have he18 := Keeps.snd_of_eq (.loadNum he7) e18
        extract_lets -lift
        split
        · exact he18
        · split
          · next e => exact Keeps.snd_of_eq (.loadNum he18) e
          next e28 =>
            have he28 := Keeps.snd_of_eq (.loadNum he18) e28
            exact .ite_snd he28 he28

theorem Keeps.twinPut {m ks} (h : Keeps ks o s) (hk : [.fab] ⊆ ks := by decide) : Keeps ks o (s.twinPut m) :=
  h.lift hk fun o h => .sendPacket (.upd h)

theorem Keeps.twinPump {ks} (h : Keeps ks o s) (hk : [.fab] ⊆ ks := by decide) : Keeps ks o s.twinPump :=
  h.lift hk fun o h => .foldl (.upd h) (fun _ _ h1 => .ite (.twinPut h1) (.upd h1))

theorem Keeps.twinSend {kind payload ks} (h : Keeps ks o s) (hk : [.fab] ⊆ ks := by decide) :
    Keeps ks o (s.twinSend kind payload) :=
  h.lift hk fun o h => .ite h (.twinPump (.upd h))

theorem Keeps.twinWrite {a bs ks} (h : Keeps ks o s) (hk : [.fab] ⊆ ks := by decide) :
    Keeps ks o (s.twinWrite a bs) :=
  h.lift hk fun o h => .ite h (.foldl h (fun _ _ h1 => .twinSend h1))

theorem Keeps.kvPut {entry a bs ks} (h : Keeps ks o s)
    (hk : [.mem, .quays, .tiers, .events, .trace, .log, .fab, .pilot] ⊆ ks := by decide) :
    Keeps ks o (s.kvPut entry a bs) :=
  h.lift hk fun o h => .ite (.twinWrite (.writeMem h)) (.writeMem h)

theorem Keeps.appendRow {m g tenant stack v r0 codes scales ks} (h : Keeps ks o s)
    (hk : [.mem, .quays, .tiers, .events, .trace, .log, .fab, .pilot, .agent] ⊆ ks := by decide) :
    Keeps ks o (s.appendRow m g tenant stack v r0 codes scales).1 :=
  h.lift hk fun o h => by
  unfold State.appendRow
  extract_lets -lift _ _ _ f4
  have hf4 : ∀ a5 a6 s7, Keeps [.mem, .quays, .tiers, .events, .trace, .log, .fab, .pilot, .agent] o s7 → Keeps
      [.mem, .quays, .tiers, .events, .trace, .log, .fab, .pilot, .agent] o (f4 a5 a6 s7).2 := by
    intro a5 a6 s7 h0f4
    unfold f4
    exact .accessRecord h0f4
  split
  · next e => exact Keeps.snd_of_eq (.loadNum h) e
  next e14 =>
    have he14 := Keeps.snd_of_eq (.loadNum h) e14
    split
    · exact he14
    · extract_lets -lift
      split
      · next e => exact Keeps.snd_of_eq (.kvEntry he14) e
      · next e => exact Keeps.snd_of_eq (.kvEntry he14) e
      next e30 =>
        have he30 := Keeps.snd_of_eq (.kvEntry he14) e30
        split
        · next e => exact Keeps.snd_of_eq (hf4 _ _ _ he30) e
        next e37 =>
          have he37 := Keeps.snd_of_eq (hf4 _ _ _ he30) e37
          extract_lets -lift s38
          have hs38 : Keeps [.mem, .quays, .tiers, .events, .trace, .log, .fab, .pilot, .agent] o s38 := .kvPut he37
          split
          · split
            · next e => exact Keeps.snd_of_eq (hf4 _ _ _ hs38) e
            · next e => exact .kvPut (Keeps.snd_of_eq (hf4 _ _ _ hs38) e)
          · exact hs38

theorem Keeps.scrambleOutputs {c d tenant ks} (h : Keeps ks o s)
    (hk : [.free, .mem, .quays, .tiers, .events, .trace, .log, .fab, .pilot, .stks, .agent] ⊆ ks := by decide) :
    Keeps ks o (s.scrambleOutputs c d tenant) :=
  h.lift hk fun o h => by
  unfold State.scrambleOutputs
  extract_lets -lift _ s7
  have hs7 : Keeps [.free, .mem, .quays, .tiers, .events, .trace, .log, .fab, .pilot, .stks, .agent] o s7 := .foldl
      h (fun _ _ h8 => .foldl h8 (fun _ _ h9 => .scrambleAt h9))
  split
  · exact .foldl hs7 (fun _ _ h14 => .foldl h14 (fun _ _ h15 =>
      .foldl h15 (fun _ _ h16 => .nbuWrite (.withFree h16))))
  · split
    · split
      · next e => exact Keeps.snd_of_eq (.appendMap hs7) e
      next e27 =>
        have he27 := Keeps.snd_of_eq (.appendMap hs7) e27
        exact .foldl he27 (fun _ _ h28 => .foldl h28 (fun _ _ h29 => .appendRow (.withFree (.withFree h29))))
    · exact hs7

theorem Keeps.abortChain {c ks} (h : Keeps ks o s)
    (hk : [.free, .mem, .hostMem, .quays, .tiles, .tiers, .sync, .events, .trace, .hif, .log, .fab, .pilot, .stks,
    .agent] ⊆ ks := by decide) :
    Keeps ks o (s.abortChain c) :=
  h.lift hk fun o h => by
  unfold State.abortChain
  split
  · exact h
  · exact .updChain (.foldl (.removeWaits h) (fun _ _ h6 => .scrambleOutputs h6))

theorem Keeps.abortDma {seq ks} (h : Keeps ks o s) (hk : [.dma] ⊆ ks := by decide) : Keeps ks o (s.abortDma seq) :=
  h.lift hk fun o h => .upd h (by simp [Keeps, State.abortDma])

theorem Keeps.abortGraph {seq ks} (h : Keeps ks o s)
    (hk : [.free, .mem, .hostMem, .quays, .tiles, .tiers, .sync, .dma, .events, .trace, .hif, .log, .fab, .graph,
    .pilot, .stks, .agent] ⊆ ks := by decide) :
    Keeps ks o (s.abortGraph seq) :=
  h.lift hk fun o h => by
  unfold State.abortGraph
  split
  · exact h
  · extract_lets -lift s10 s11 s12
    have hs10 : Keeps [.free, .mem, .hostMem, .quays, .tiles, .tiers, .sync, .dma, .events, .trace, .hif, .log,
        .fab, .graph, .pilot, .stks, .agent] o s10 := by
      unfold s10
      refine .foldl h fun _ _ h21 => ?_
      extract_lets -lift s24
      have hs24 : Keeps [.free, .mem, .hostMem, .quays, .tiles, .tiers, .sync, .dma, .events, .trace, .hif, .log,
          .fab, .graph, .pilot, .stks, .agent] o s24 := .ite (.foldl h21 (fun _ _ h25 => .abortTile h25)) h21
      exact .ite (.releaseNode hs24) hs24
    have hs11 : Keeps [.free, .mem, .hostMem, .quays, .tiles, .tiers, .sync, .dma, .events, .trace, .hif, .log,
        .fab, .graph, .pilot, .stks, .agent] o s11 := .foldl hs10 (fun _ _ h26 => .abortChain h26)
    have hs12 : Keeps [.free, .mem, .hostMem, .quays, .tiles, .tiers, .sync, .dma, .events, .trace, .hif, .log,
        .fab, .graph, .pilot, .stks, .agent] o s12 := .abortDma hs11
    exact .removeWaits hs12

theorem Keeps.failGraph {seq st node unit ks} (h : Keeps ks o s)
    (hk : [.free, .mem, .hostMem, .quays, .tiles, .tiers, .sync, .dma, .events, .trace, .hif, .log, .fab, .graph,
    .pilot, .stks, .agent] ⊆ ks := by decide) :
    Keeps ks o (s.failGraph seq st node unit) :=
  h.lift hk fun o h => by
  unfold State.failGraph
  split
  · exact h
  · split
    · exact h
    · extract_lets -lift s8
      have hs8 : Keeps [.free, .mem, .hostMem, .quays, .tiles, .tiers, .sync, .dma, .events, .trace, .hif, .log,
          .fab, .graph, .pilot, .stks, .agent] o s8 := by
        unfold s8
        split
        · exact .traceCentral h
        · exact h
      exact .abortGraph (.updGraph hs8)

theorem Keeps.failNode {seq node st ks} (h : Keeps ks o s)
    (hk : [.free, .mem, .hostMem, .quays, .tiles, .tiers, .sync, .dma, .events, .trace, .hif, .log, .fab, .graph,
    .pilot, .stks, .agent] ⊆ ks := by decide) :
    Keeps ks o (s.failNode seq node st) :=
  h.lift hk fun o h => .failGraph h

theorem Keeps.noteDispatch {seq node ks} (h : Keeps ks o s)
    (hk : [.mem, .events, .trace, .log, .graph] ⊆ ks := by decide) :
    Keeps ks o (s.noteDispatch seq node) :=
  h.lift hk fun o h => by
  unfold State.noteDispatch
  split
  · exact h
  · extract_lets -lift _ s8 s9 s10 s11
    have hs8 : Keeps [.mem, .events, .trace, .log, .graph] o s8 := .traceCentral h
    have hs9 : Keeps [.mem, .events, .trace, .log, .graph] o s9 := .logDecision (.cntMod hs8)
    have hs10 : Keeps [.mem, .events, .trace, .log, .graph] o s10 := .updNode hs9
    have hs11 : Keeps [.mem, .events, .trace, .log, .graph] o s11 := .updGraph hs10
    exact .ite hs11 (.foldl hs11 (fun _ _ h13 => .updGraph h13))

theorem Keeps.soSignal {n v ks} (h : Keeps ks o s)
    (hk : [.free, .hostMem, .tiles, .sync, .events, .trace, .hif] ⊆ ks := by decide) :
    Keeps ks o (s.soSignal n v) :=
  h.lift hk fun o h => .passObj (.cntSync (.ite (.setSo h) (.raise (.withSync (.setSo h)))))

theorem Keeps.lowerSuccessors {seq node ks} (h : Keeps ks o s) (hk : [.graph] ⊆ ks := by decide) :
    Keeps ks o (s.lowerSuccessors seq node) :=
  h.lift hk fun o h => by
  unfold State.lowerSuccessors
  split
  · exact h
  · exact .foldl h (fun _ _ h6 => .updNode h6)

theorem Keeps.cntTen {tenant i n ks} (h : Keeps ks o s) (hk : [.trace] ⊆ ks := by decide) :
    Keeps ks o (s.cntTen tenant i n) :=
  h.lift hk fun o h => .upd h (by simp [Keeps, State.cntTen])

theorem Keeps.completeNode {seq node ks} (h : Keeps ks o s)
    (hk : [.tiles, .trace, .graph, .stks] ⊆ ks := by decide) :
    Keeps ks o (s.completeNode seq node) :=
  h.lift hk fun o h => by
  unfold State.completeNode
  split
  · exact .noteReady (.cntTen (.updGraph (.lowerSuccessors (.releaseNode (.traceCentral h)))))
  · exact h

end

end Sys2Proof.Machine

/-! Settles the statement about the dispatch of nodes. -/

namespace Sys2Proof.Machine

set_option Elab.async false

/-! ### What an update of one graph leaves of it -/

theorem foldl_keeps {α β σ : Type} {v : σ → α} {f : σ → β → σ} (hf : ∀ s b, v (f s b) = v s) (l : List β) (s : σ) :
    v (l.foldl f s) = v s := by
  induction l generalizing s with
  | nil => rfl
  | cons b l ih => exact (ih _).trans (hf s b)

section
variable {s u : State} {q k n i : Nat} {α : Type}

theorem State.graphOf_congr (h : u.graph = s.graph) : u.graphOf k = s.graphOf k := by
  rw [State.graphOf, State.graphOf, h]

theorem State.nodeOf_congr (h : u.graph = s.graph) : u.nodeOf k n = s.nodeOf k n := by
  rw [State.nodeOf, State.nodeOf, State.graphOf_congr h]

theorem State.graphOf_map_updGraph {f : GraphRun → GraphRun} {v : GraphRun → α} (hf : ∀ g, v (f g) = v g) :
    ((s.updGraph q f).graphOf k).map v = (s.graphOf k).map v := by
  rw [State.graphOf_updGraph, Option.map_map]
  refine congrArg (Option.map · _) (funext fun g => ?_)
  simp only [Function.comp_apply]
  split
  · exact hf g
  · rfl

theorem State.nodeOf_updGraph {f : GraphRun → GraphRun} (hf : ∀ g, (f g).nodes = g.nodes) :
    (s.updGraph q f).nodeOf k n = s.nodeOf k n := by
  have hn (u : State) : u.nodeOf k n = ((u.graphOf k).map GraphRun.nodes).bind (Table.find · n) := by
    rw [State.nodeOf, Option.bind_map]
    rfl
  rw [hn, hn, State.graphOf_map_updGraph hf]

theorem State.nodeOf_updNode {f : NodeSt → NodeSt} :
    (s.updNode q i f).nodeOf k n = (s.nodeOf k n).map (fun x => if k = q ∧ n = i then f x else x) := by
  rw [State.nodeOf, State.nodeOf, State.updNode, State.graphOf_updGraph]
  cases s.graphOf k with
  | none => rfl
  | some g =>
    simp only [Option.map_some, Option.bind_some]
    by_cases hk : k = q
    · rw [if_pos hk, Table.find_mapV]
      simp only [hk, true_and]
    · simp [hk]

theorem State.nodeOf_map_updNode {f : NodeSt → NodeSt} {v : NodeSt → α} (hf : ∀ x, v (f x) = v x) :
    ((s.updNode q i f).nodeOf k n).map v = (s.nodeOf k n).map v := by
  rw [State.nodeOf_updNode, Option.map_map]
  refine congrArg (Option.map · _) (funext fun x => ?_)
  simp only [Function.comp_apply]
  split
  · exact hf x
  · rfl

theorem State.graphOf_map_updNode {f : NodeSt → NodeSt} {v : GraphRun → α}
    (hv : ∀ g l, v { g with nodes := l } = v g) : ((s.updNode q i f).graphOf k).map v = (s.graphOf k).map v :=
  State.graphOf_map_updGraph fun g => hv g _

end

/-! ### What the operations on nodes leave

`failing`, the read entries and the resident graphs stay; of the nodes, what a reader sees of each. -/

/-- The graph engine of `u` fails the same graphs and holds the same entries and resident graphs as that of `s`. -/
def State.SameRuns (s u : State) : Prop :=
  (∀ k, (u.graphOf k).map GraphRun.failing = (s.graphOf k).map GraphRun.failing)
    ∧ u.graph.entries = s.graph.entries ∧ u.graph.residents = s.graph.residents

section
variable {o s u : State} {q n k i : Nat} {α β : Type}

theorem State.SameRuns.refl : s.SameRuns s := ⟨fun _ => rfl, rfl, rfl⟩

theorem State.SameRuns.congr (h : o.SameRuns s) (hg : u.graph = s.graph) : o.SameRuns u := by
  obtain ⟨hfail, hent, hres⟩ := h
  refine ⟨fun k => ?_, ?_, ?_⟩
  · rw [State.graphOf_congr hg, hfail]
  · rw [hg, hent]
  · rw [hg, hres]

theorem State.SameRuns.updGraph {f : GraphRun → GraphRun} (h : o.SameRuns s)
    (hf : ∀ g, (f g).failing = g.failing) : o.SameRuns (s.updGraph q f) := by
  obtain ⟨hfail, hent, hres⟩ := h
  exact ⟨fun k => (State.graphOf_map_updGraph hf).trans (hfail k), hent, hres⟩

theorem State.SameRuns.updNode {f : NodeSt → NodeSt} (h : o.SameRuns s) : o.SameRuns (s.updNode q n f) :=
  h.updGraph fun _ => rfl

theorem State.SameRuns.foldl {f : State → β → State} (h : o.SameRuns s)
    (hf : ∀ u b, o.SameRuns u → o.SameRuns (f u b)) (l : List β) : o.SameRuns (l.foldl f s) := by
  induction l generalizing s with
  | nil => exact h
  | cons b l ih => exact ih (hf s b h)

/-! ### The note of a dispatch -/

/-- The trace record and the counter of a dispatch. -/
def State.dispatchNoted (s : State) (q n : Nat) (x : NodeSt) : State :=
  (s.traceCentral 0 0x10 4 0 (ndTag x.w) (q + 2 ^ 64 * n + 2 ^ 78 * ndKind x.w + 2 ^ 82 * b2n (x.form == some true)
    + 2 ^ 96 * (if ndKind x.w = 4 then x.cls / 4 else 0))).cntMod (6 + ndKind x.w) 1

def GraphRun.shared (g : GraphRun) : GraphRun := { g with soloRun := false }

def GraphRun.started (g : GraphRun) (t : Nat) : GraphRun :=
  { g with lastEvent := t, startedAt := some (g.startedAt.getD t) }

theorem GraphRun.shared_failing (g : GraphRun) : g.shared.failing = g.failing := rfl
theorem GraphRun.shared_nodes (g : GraphRun) : g.shared.nodes = g.nodes := rfl
theorem GraphRun.started_failing (g : GraphRun) (t : Nat) : (g.started t).failing = g.failing := rfl
theorem GraphRun.started_nodes (g : GraphRun) (t : Nat) : (g.started t).nodes = g.nodes := rfl

def NodeSt.dispatchedNow (x : NodeSt) (t : Nat) : NodeSt := { x with phase := .running, dispatchedAt := t }

theorem State.logDecision_off {p : Nat} {l : List Nat} (h : s.logging = false) : s.logDecision p l = s := by
  simp [State.logDecision, h]

theorem State.dispatchNoted_keeps {x : NodeSt} : Keeps [.trace] s (s.dispatchNoted q n x) :=
  .cntMod (.traceCentral (.refl s))

theorem State.logging_congr (h : u.log = s.log) : u.logging = s.logging := by
  simp only [State.logging, State.replaying, h]

theorem State.noteDispatch_eq {x : NodeSt} (hx : s.nodeOf q n = some x) (hl : s.logging = false) :
    ∃ l : List Nat, s.noteDispatch q n = l.foldl (fun s q => s.updGraph q GraphRun.shared)
      (((s.dispatchNoted q n x).updNode q n (NodeSt.dispatchedNow · s.time)).updGraph q
        (GraphRun.started · s.time)) := by
  have hk : Keeps _ s (s.dispatchNoted q n x) := State.dispatchNoted_keeps
  have htime : (s.dispatchNoted q n x).time = s.time := hk.time_eq (by decide)
  have hlog : (s.dispatchNoted q n x).logDecision 0x601 [dispatchWord q n] = s.dispatchNoted q n x :=
    State.logDecision_off ((State.logging_congr (hk.log_eq (by decide))).trans hl)
  unfold State.noteDispatch
  rw [hx]
  simp only
  rw [show State.cntMod _ (6 + ndKind x.w) 1 = s.dispatchNoted q n x from rfl, hlog, ← htime]
  split
  · exact ⟨[], rfl⟩
  · exact ⟨_, rfl⟩

theorem State.noteDispatch_keeps (hl : s.logging = false) : Keeps [.trace, .graph] s (s.noteDispatch q n) := by
  cases hx : s.nodeOf q n with
  | none =>
    rw [State.noteDispatch, hx]
    exact .refl s
  | some x =>
    obtain ⟨l, hs⟩ := State.noteDispatch_eq hx hl
    rw [hs]
    exact .foldl (.updGraph (.updNode (State.dispatchNoted_keeps.mono (by decide)))) (fun _ _ h => .updGraph h)

theorem State.noteDispatch_sameRuns (hl : s.logging = false) : s.SameRuns (s.noteDispatch q n) := by
  cases hx : s.nodeOf q n with
  | none =>
    rw [State.noteDispatch, hx]
    exact .refl
  | some x =>
    obtain ⟨l, hs⟩ := State.noteDispatch_eq hx hl
    rw [hs]
    have h : s.SameRuns (s.dispatchNoted q n x) := .congr .refl (State.dispatchNoted_keeps.graph_eq (by decide))
    exact .foldl (h.updNode.updGraph fun g => g.started_failing _)
      (fun _ _ h => h.updGraph GraphRun.shared_failing) l

theorem State.noteDispatch_nodeOf {x : NodeSt} (hx : s.nodeOf q n = some x) (hl : s.logging = false) :
    (s.noteDispatch q n).nodeOf q n = some (x.dispatchedNow s.time) := by
  obtain ⟨l, hs⟩ := State.noteDispatch_eq hx hl
  rw [hs, foldl_keeps (v := fun u : State => u.nodeOf q n) (fun u b => State.nodeOf_updGraph GraphRun.shared_nodes) l,
    State.nodeOf_updGraph fun g => g.started_nodes _, State.nodeOf_updNode,
    State.nodeOf_congr (State.dispatchNoted_keeps.graph_eq (by decide)), hx]
  simp

theorem State.noteDispatch_graphOf (hl : s.logging = false) (hg : (s.graphOf q).isSome = true) :
    ((s.noteDispatch q n).graphOf q).isSome = true := by
  have hm := congrArg Option.isSome ((State.noteDispatch_sameRuns (n := n) (q := q) hl).1 q)
  simpa [hg] using hm

/-! ### The release of a node -/

def GraphRun.flagged (g : GraphRun) (fl : BitVec 8) : GraphRun := { g with flags := g.flags ||| fl }

theorem GraphRun.flagged_failing (g : GraphRun) (fl : BitVec 8) : (g.flagged fl).failing = g.failing := rfl
theorem GraphRun.flagged_nodes (g : GraphRun) (fl : BitVec 8) : (g.flagged fl).nodes = g.nodes := rfl

def NodeSt.released (x : NodeSt) : NodeSt :=
  { x with phase := .ended, held := [], stages := [], memops := 0, areaBase := 0, areaSize := 0, spill := [],
           claim := [] }

/-- The graphs after a release. -/
theorem State.releaseNode_graph {x : NodeSt} (hx : s.nodeOf q n = some x) :
    ∃ fl, (s.releaseNode q n).graph
      = ((s.updGraph q (GraphRun.flagged · fl)).updNode q n NodeSt.released).graph := by
  have hr : ∃ (u : State) (fl : BitVec 8), u.graph = s.graph ∧ s.releaseNode q n
      = ((u.updGraph q (GraphRun.flagged · fl)).updNode q n NodeSt.released).growReserves := by
    unfold State.releaseNode
    rw [hx]
    refine ⟨_, _, ?_, rfl⟩
    exact (Keeps.withStks (ks := [.tiles, .stks]) (.foldl (.refl s) (fun _ _ h => .updTile h))).graph_eq (by decide)
  obtain ⟨u, fl, hu, hs⟩ := hr
  refine ⟨fl, ?_⟩
  rw [hs, (Keeps.growReserves (ks := [.stks]) (.refl _)).graph_eq (by decide)]
  simp only [State.updNode, State.updGraph, hu]

theorem State.releaseNode_none (hx : s.nodeOf q n = none) : s.releaseNode q n = s := by
  rw [State.releaseNode, hx]

theorem State.SameRuns.releaseNode (h : o.SameRuns s) : o.SameRuns (s.releaseNode q n) := by
  cases hx : s.nodeOf q n with
  | none => rwa [State.releaseNode_none hx]
  | some x =>
    obtain ⟨fl, hg⟩ := State.releaseNode_graph hx
    exact .congr (.updNode (h.updGraph fun g => g.flagged_failing _)) hg

theorem State.nodeOf_releaseNode :
    (s.releaseNode q n).nodeOf k i = (s.nodeOf k i).map (fun x => if k = q ∧ i = n then x.released else x) := by
  cases hx : s.nodeOf q n with
  | none =>
    rw [State.releaseNode_none hx]
    by_cases hk : k = q ∧ i = n
    · obtain ⟨rfl, rfl⟩ := hk
      rw [hx]
      rfl
    · simp [hk]
  | some x =>
    obtain ⟨fl, hg⟩ := State.releaseNode_graph hx
    rw [State.nodeOf_congr hg, State.nodeOf_updNode, State.nodeOf_updGraph fun g => g.flagged_nodes _]

/-! ### The completion of a node -/

theorem State.SameRuns.lowerSuccessors (h : o.SameRuns s) : o.SameRuns (s.lowerSuccessors q n) := by
  unfold State.lowerSuccessors
  split
  · exact h
  · exact h.foldl (fun _ _ h => h.updNode) _

theorem State.nodeOf_map_lowerSuccessors {v : NodeSt → α} (hv : ∀ x i, v { x with indeg := i } = v x) :
    ((s.lowerSuccessors q n).nodeOf k i).map v = (s.nodeOf k i).map v := by
  unfold State.lowerSuccessors
  split
  · rfl
  · exact foldl_keeps (v := fun u : State => (u.nodeOf k i).map v)
      (fun u e => State.nodeOf_map_updNode fun x => hv x _) _ _

theorem State.SameRuns.noteReady (h : o.SameRuns s) : o.SameRuns s.noteReady :=
  h.foldl (fun _ _ h => h.updNode) _

theorem State.nodeOf_map_noteReady {v : NodeSt → α} (hv : ∀ x t, v { x with readyAt := t } = v x) :
    (s.noteReady.nodeOf k i).map v = (s.nodeOf k i).map v :=
  foldl_keeps (v := fun u : State => (u.nodeOf k i).map v) (fun _ _ => State.nodeOf_map_updNode fun x => hv x _) _ _

def GraphRun.touched (g : GraphRun) (t : Nat) : GraphRun := { g with lastEvent := t }

theorem GraphRun.touched_failing (g : GraphRun) (t : Nat) : (g.touched t).failing = g.failing := rfl
theorem GraphRun.touched_nodes (g : GraphRun) (t : Nat) : (g.touched t).nodes = g.nodes := rfl

theorem State.completeNode_eq {g : GraphRun} {x : NodeSt} (hg : s.graphOf q = some g) (hx : s.nodeOf q n = some x) :
    ∃ (u : State) (t : Nat), u.graph = s.graph ∧ s.completeNode q n
      = (((((u.releaseNode q n).lowerSuccessors q n).updGraph q (GraphRun.touched · t)).cntTen g.tenant 1 1).noteReady) := by
  rw [State.completeNode, hg, hx]
  exact ⟨_, _, (Keeps.traceCentral (ks := [.trace]) (.refl s)).graph_eq (by decide), rfl⟩

theorem State.SameRuns.completeNode (h : o.SameRuns s) : o.SameRuns (s.completeNode q n) := by
  cases hg : s.graphOf q with
  | none => rwa [State.completeNode, hg]
  | some g =>
    cases hx : s.nodeOf q n with
    | none => rwa [State.completeNode, hg, hx]
    | some x =>
      obtain ⟨u, t, hu, hs⟩ := State.completeNode_eq hg hx
      rw [hs]
      exact .noteReady (.congr (.updGraph (.lowerSuccessors (.releaseNode (h.congr hu))) fun g => g.touched_failing t) rfl)

theorem State.nodeOf_cntTen {t c m : Nat} : (s.cntTen t c m).nodeOf k i = s.nodeOf k i := rfl

theorem State.completeNode_nodeOf {g : GraphRun} {x : NodeSt} (hg : s.graphOf q = some g)
    (hx : s.nodeOf q n = some x) :
    ((s.completeNode q n).nodeOf q n).map (fun m => (m.phase, m.held)) = some (.ended, []) := by
  obtain ⟨u, t, hu, hs⟩ := State.completeNode_eq hg hx
  rw [hs, State.nodeOf_map_noteReady (fun _ _ => rfl),
    State.nodeOf_cntTen, State.nodeOf_updGraph fun g => g.touched_nodes t,
    State.nodeOf_map_lowerSuccessors (fun _ _ => rfl), State.nodeOf_releaseNode, State.nodeOf_congr hu, hx]
  simp [NodeSt.released]

/-! ### JOIN -/

theorem State.readyOrder_at {t : Nat} : (s.at t).readyOrder = s.readyOrder := rfl

theorem execNodeDispatch_join {g : GraphRun} {x : NodeSt} {t : Nat} {cands : List Placement} {rows : List (Option Nat)}
    (hg : s.graphOf q = some g) (hx : s.nodeOf q n = some x) (hf : g.failing = none) (hp : x.phase = .waiting)
    (hk : ndKind x.w = 6) (hr : s.readyOrder.contains (q, n) = true) (hh : (s.at t).headAllows q n 6 = true)
    (hl : s.logging = false) (hheld : s.log.held = false) :
    execNodeDispatch q n t cands rows s = .next (((s.at t).noteDispatch q n).completeNode q n) := by
  have hd : (s.at t).decisionAllowed 0x601 (dispatchWord q n) = true := State.decisionAllowed_free hheld hl
  have hg' : (s.at t).graphOf q = some g := hg
  have hx' : (s.at t).nodeOf q n = some x := hx
  simp [execNodeDispatch, hg', hx', hf, hd, hp, State.readyOrder_at, List.contains_iff_mem.mp hr, hk, hh]

theorem gives_nodeDispatch_join {g : GraphRun} {x : NodeSt} {t : Nat} {cands : List Placement}
    {rows : List (Option Nat)} (hg : s.graphOf q = some g) (hx : s.nodeOf q n = some x) (hf : g.failing = none)
    (hp : x.phase = .waiting) (hk : ndKind x.w = 6) (hr : s.readyOrder.contains (q, n) = true)
    (hh : (s.at t).headAllows q n 6 = true) (hl : s.logging = false) (hheld : s.log.held = false) :
    Gives (.nodeDispatch q n t cands rows) s (fun u =>
      (u.nodeOf q n).map (fun m => (m.phase, m.held)) = some (.ended, [])
      ∧ (u.graphOf q).map (fun x => x.failing) = some none ∧ u.graph.entries = s.graph.entries
      ∧ u.graph.residents = s.graph.residents ∧ Keeps [.time, .tiles, .trace, .graph, .stks] s u) := by
  have hl' : (s.at t).logging = false := hl
  have hx' : (s.at t).nodeOf q n = some x := hx
  have hsome := State.noteDispatch_graphOf (q := q) (n := n) hl' (by
    rw [show (s.at t).graphOf q = some g from hg]
    rfl)
  obtain ⟨g', hg'⟩ := Option.isSome_iff_exists.mp hsome
  obtain ⟨hfail, hent, hres⟩ := (State.noteDispatch_sameRuns (n := n) (q := q) hl').completeNode (q := q) (n := n)
  refine ⟨_, execNodeDispatch_join hg hx hf hp hk hr hh hl hheld,
    State.completeNode_nodeOf hg' (State.noteDispatch_nodeOf hx' hl'), ?_, hent, hres,
    .completeNode (Keeps.trans (.at (.refl s)) ((State.noteDispatch_keeps hl').mono (by decide)))⟩
  rw [hfail q, show (s.at t).graphOf q = some g from hg]
  exact congrArg some hf

/-! ### SYNC that signals -/

theorem Keeps.sync_eq {ks : List Part} (h : Keeps ks s u) (hk : Part.sync ∉ ks) : u.sync = s.sync := by
  obtain ⟨-, -, -, -, -, -, -, -, -, -, -, hsync, -⟩ := h
  exact hsync.resolve_left hk

theorem State.soSignal_alone {m v : Nat} (hw : (s.so m).waiters = []) (hi : (s.so m).irqEn = false)
    (hc : (s.so m).count.toNat + max 1 v < 2 ^ 32) :
    s.soSignal m v = (((s.setSo m { s.so m with count := BitVec.ofNat 32 ((s.so m).count.toNat + max 1 v) }).cntSync 0
      1).setSo m { s.so m with count := BitVec.ofNat 32 ((s.so m).count.toNat + max 1 v) }) := by
  have hv : (if v = 0 then 1 else v) = max 1 v := by split <;> omega
  have hle : (s.so m).count.toNat + max 1 v ≤ 0xFFFFFFFF := by omega
  have hso (u : State) (x : SyncObj) : ((u.setSo m x).cntSync 0 1).so m = x := State.so_setSo _ _ _
  have hmod : (BitVec.ofNat 32 ((s.so m).count.toNat + max 1 v)).toNat = (s.so m).count.toNat + max 1 v := by
    rw [BitVec.toNat_ofNat, Nat.mod_eq_of_lt hc]
  simp only [State.soSignal, hv, if_pos hle, State.passObj, hso, hw, passWaiters, hi, Bool.false_and, hmod]
  simp

theorem execNodeDispatch_signal {g : GraphRun} {x : NodeSt} {t : Nat} {cands : List Placement}
    {rows : List (Option Nat)}
    (hg : s.graphOf q = some g) (hx : s.nodeOf q n = some x) (hf : g.failing = none) (hp : x.phase = .waiting)
    (hk : ndKind x.w = 5) (hop : ndSyncOp x.w = 0) (hr : s.readyOrder.contains (q, n) = true)
    (hh : (s.at t).headAllows q n 5 = true) (hl : s.logging = false) (hheld : s.log.held = false)
    (ha : s.soAllowed g.tenant (ndSo x.w) = true) :
    execNodeDispatch q n t cands rows s
      = .next ((((s.at t).noteDispatch q n).soSignal (ndSo x.w) (ndSyncValue x.w)).wake (.node q n) 0) := by
  have hd : (s.at t).decisionAllowed 0x601 (dispatchWord q n) = true := State.decisionAllowed_free hheld hl
  have hg' : (s.at t).graphOf q = some g := hg
  have hx' : (s.at t).nodeOf q n = some x := hx
  have ha' : (s.at t).soAllowed g.tenant (ndSo x.w) = true := ha
  simp [execNodeDispatch, hg', hx', hf, hd, hp, State.readyOrder_at, List.contains_iff_mem.mp hr, hk, hh,
    State.dispatchSync, ha', hop]

theorem gives_nodeDispatch_signal {g : GraphRun} {x : NodeSt} {t : Nat} {cands : List Placement}
    {rows : List (Option Nat)}
    (hg : s.graphOf q = some g) (hx : s.nodeOf q n = some x) (hf : g.failing = none) (hp : x.phase = .waiting)
    (hk : ndKind x.w = 5) (hop : ndSyncOp x.w = 0) (hr : s.readyOrder.contains (q, n) = true)
    (hh : (s.at t).headAllows q n 5 = true) (hl : s.logging = false) (hheld : s.log.held = false)
    (ha : s.soAllowed g.tenant (ndSo x.w) = true) (hw : (s.so (ndSo x.w)).waiters = [])
    (hi : (s.so (ndSo x.w)).irqEn = false)
    (hc : (s.so (ndSo x.w)).count.toNat + max 1 (ndSyncValue x.w) < 2 ^ 32) :
    Gives (.nodeDispatch q n t cands rows) s (fun u =>
      (u.so (ndSo x.w)).count.toNat = (s.so (ndSo x.w)).count.toNat + max 1 (ndSyncValue x.w)
      ∧ OnlyAt s.sync.objs u.sync.objs (ndSo x.w) ∧ u.sync.woken = s.sync.woken ++ [(.node q n, 0)]
      ∧ (u.nodeOf q n).map (fun m => m.phase) = some .running
      ∧ Keeps [.time, .trace, .graph, .sync] s u) := by
  have hl' : (s.at t).logging = false := hl
  have hnode := State.noteDispatch_nodeOf (s := s.at t) (q := q) (n := n) hx hl'
  have hkeep : Keeps [.time, .trace, .graph] s ((s.at t).noteDispatch q n) :=
    Keeps.trans (.at (.refl s)) ((State.noteDispatch_keeps hl').mono (by decide))
  have hexec := execNodeDispatch_signal (cands := cands) (rows := rows) hg hx hf hp hk hop hr hh hl hheld ha
  generalize (s.at t).noteDispatch q n = v at hnode hkeep hexec
  have hsync : v.sync = s.sync := hkeep.sync_eq (by decide)
  have hso : v.so (ndSo x.w) = s.so (ndSo x.w) := by rw [State.so, State.so, hsync]
  rw [← hso] at hw hi hc
  rw [State.soSignal_alone hw hi hc] at hexec
  refine ⟨_, hexec, ?_, ?_, ?_, ?_, ?_⟩
  · rw [← hso]
    refine (congrArg (fun o => BitVec.toNat (SyncObj.count o)) (State.so_setSo _ (ndSo x.w) _)).trans ?_
    rw [BitVec.toNat_ofNat, Nat.mod_eq_of_lt hc]
  · rw [← hsync]
    exact OnlyAt.put.trans .put
  · rw [← hsync]
    rfl
  · exact congrArg (Option.map NodeSt.phase) hnode
  · exact .withSync (.setSo (.cntSync (.setSo (hkeep.mono (by decide)))))

/-! ### The head -/

theorem gives_nodeHead {t : Nat} : Gives (.nodeHead t) s (fun u =>
    u.graph = { s.graph with head := (s.at t).headNode } ∧ Keeps [.time, .trace, .graph] s u) := by
  by_cases h : (s.at t).headNode = (s.at t).graph.head
  · refine ⟨s.at t, if_pos h, ?_, .at (.refl s)⟩
    rw [h]
    rfl
  · refine ⟨_, if_neg h, ?_, .ite (.cntMod (.withGraph (.at (.refl s)))) (.withGraph (.at (.refl s)))⟩
    split <;> rfl

/-! ### A dispatch that takes too long -/

def State.NodeEnded (q n : Nat) (u : State) : Prop :=
  (u.nodeOf q n).map (fun m => (m.phase, m.memops)) = some (.ended, 0)

theorem State.NodeEnded.congr (h : s.NodeEnded q n) (hg : u.graph = s.graph) : u.NodeEnded q n := by
  rw [State.NodeEnded, State.nodeOf_congr hg]
  exact h

theorem State.NodeEnded.updGraph {f : GraphRun → GraphRun} (h : s.NodeEnded q n) (hf : ∀ g, (f g).nodes = g.nodes) :
    (s.updGraph k f).NodeEnded q n := by
  rw [State.NodeEnded, State.nodeOf_updGraph hf]
  exact h

theorem State.NodeEnded.releaseNode (h : s.NodeEnded q n) : (s.releaseNode k i).NodeEnded q n := by
  rw [State.NodeEnded] at h ⊢
  rw [State.nodeOf_releaseNode, Option.map_map]
  obtain ⟨x, hx, hv⟩ := Option.map_eq_some_iff.mp h
  rw [hx, Option.map_some]
  refine congrArg some ?_
  simp only [Function.comp_apply]
  split
  · rfl
  · exact hv

theorem State.nodeEnded_releaseNode (h : (s.nodeOf q n).isSome = true) : (s.releaseNode q n).NodeEnded q n := by
  obtain ⟨x, hx⟩ := Option.isSome_iff_exists.mp h
  rw [State.NodeEnded, State.nodeOf_releaseNode, hx]
  simp [NodeSt.released]

/-- One node of an aborted graph. -/
def State.abortNode (seq : Nat) (s : State) (n : Nat × NodeSt) : State :=
  let s := if n.2.phase == .running && n.2.isTile then
      n.2.held.foldl (fun s t => s.abortTile t) s else s
  if n.2.phase == .reserved ∨ n.2.phase == .spilled ∨ n.2.phase == .restoring then s.releaseNode seq n.1 else s

theorem State.abortNode_cases (p : Nat × NodeSt) :
    ∃ u, u.graph = s.graph ∧ s.abortNode k p = if p.2.phase == .reserved ∨ p.2.phase == .spilled
      ∨ p.2.phase == .restoring then u.releaseNode k p.1 else u := by
  refine ⟨_, ?_, rfl⟩
  exact (Keeps.ite (ks := [.free, .hostMem, .tiles, .sync, .trace, .hif]) (.foldl (.refl s)
    (fun _ _ h => .abortTile h)) (.refl s)).graph_eq (by decide)

theorem State.SameRuns.abortNode (h : o.SameRuns s) (p : Nat × NodeSt) : o.SameRuns (s.abortNode k p) := by
  obtain ⟨u, hu, hs⟩ := s.abortNode_cases (k := k) p
  rw [hs]
  split
  · exact (h.congr hu).releaseNode
  · exact h.congr hu

theorem State.NodeEnded.abortNode (h : s.NodeEnded q n) (p : Nat × NodeSt) : (s.abortNode k p).NodeEnded q n := by
  obtain ⟨u, hu, hs⟩ := s.abortNode_cases (k := k) p
  rw [hs]
  split
  · exact (h.congr hu).releaseNode
  · exact h.congr hu

theorem State.nodeOf_isSome_releaseNode : ((s.releaseNode k i).nodeOf q n).isSome = (s.nodeOf q n).isSome := by
  rw [State.nodeOf_releaseNode, Option.isSome_map]

theorem State.nodeOf_isSome_abortNode (p : Nat × NodeSt) :
    ((s.abortNode k p).nodeOf q n).isSome = (s.nodeOf q n).isSome := by
  obtain ⟨u, hu, hs⟩ := s.abortNode_cases (k := k) p
  rw [hs]
  split
  · rw [State.nodeOf_isSome_releaseNode, State.nodeOf_congr hu]
  · rw [State.nodeOf_congr hu]

theorem State.nodeEnded_abortNode {x : NodeSt} (h : (s.nodeOf q n).isSome = true) (hp : x.phase = .reserved) :
    (s.abortNode q (n, x)).NodeEnded q n := by
  obtain ⟨u, hu, hs⟩ := s.abortNode_cases (k := q) (n, x)
  rw [hs, if_pos (by simp [hp])]
  exact State.nodeEnded_releaseNode (by rwa [State.nodeOf_congr hu])

theorem Table.mem_of_find {t : Table α} {x : α} (h : Table.find t k = some x) : (k, x) ∈ t := by
  induction t with
  | nil => cases h
  | cons p t ih =>
    obtain ⟨a, y⟩ := p
    rw [Table.find] at h
    split at h
    · next ha =>
      obtain rfl := Option.some.inj h
      exact ha ▸ List.mem_cons_self
    · exact List.mem_cons_of_mem _ (ih h)

/-- A fold over a list that holds a reserved node ends it. -/
theorem State.nodeEnded_abortNodes {x : NodeSt} {l : List (Nat × NodeSt)} (hl : (n, x) ∈ l)
    (hs : (s.nodeOf q n).isSome = true) (hp : x.phase = .reserved) :
    (l.foldl (State.abortNode q) s).NodeEnded q n := by
  induction l generalizing s with
  | nil => cases hl
  | cons p l ih =>
    rw [List.foldl_cons]
    obtain hpx | hl := List.mem_cons.mp hl
    · have h1 : (s.abortNode q p).NodeEnded q n := hpx ▸ State.nodeEnded_abortNode hs hp
      exact List.foldlRecOn l (State.abortNode q) h1 fun u hu p _ => hu.abortNode p
    · exact ih hl (by rwa [State.nodeOf_isSome_abortNode])

theorem State.abortGraph_graph {g : GraphRun} (hg : s.graphOf q = some g) :
    (s.abortGraph q).graph = (g.nodes.foldl (State.abortNode q) s).graph := by
  unfold State.abortGraph
  rw [hg]
  refine ((Keeps.removeWaits (ks := [.free, .mem, .hostMem, .quays, .tiles, .tiers, .sync, .events, .trace, .hif, .log,
    .fab, .pilot, .stks, .agent, .dma]) (.abortDma (.foldl (.refl _) fun _ _ h => .abortChain h))).graph_eq
      (by decide))

theorem State.SameRuns.abortGraph (h : o.SameRuns s) : o.SameRuns (s.abortGraph q) := by
  cases hg : s.graphOf q with
  | none => rwa [State.abortGraph, hg]
  | some g => exact (h.foldl (fun _ p h => h.abortNode p) g.nodes).congr (State.abortGraph_graph hg)

/-- The graph that fails with this status, node and unit. -/
def GraphRun.failed (g : GraphRun) (st : Status) (node unit : Nat) : GraphRun :=
  { g with failing := some (st, node, unit) }

theorem State.failGraph_eq {g : GraphRun} {st : Status} (hg : s.graphOf q = some g) (hf : g.failing = none) :
    ∃ u : State, u.graph = s.graph ∧ s.failGraph q st n i = (u.updGraph q (GraphRun.failed · st n i)).abortGraph q := by
  have hf' : ¬ g.failing.isSome = true := by simp [hf]
  unfold State.failGraph
  simp only [hg, if_neg hf']
  refine ⟨_, ?_, rfl⟩
  split
  · exact (Keeps.traceCentral (ks := [.trace]) (.refl s)).graph_eq (by decide)
  · rfl

theorem State.failGraph_failing {g : GraphRun} {st : Status} (hg : s.graphOf q = some g) (hf : g.failing = none) :
    ((s.failGraph q st n i).graphOf q).map GraphRun.failing = some (some (st, n, i)) := by
  obtain ⟨u, hu, hs⟩ := State.failGraph_eq (n := n) (i := i) (st := st) hg hf
  obtain ⟨hfail, -⟩ := State.SameRuns.abortGraph (q := q) (.refl (s := u.updGraph q (GraphRun.failed · st n i)))
  rw [hs, hfail, State.graphOf_updGraph_self, State.graphOf_congr hu, hg]
  rfl

theorem State.failGraph_residents {g : GraphRun} {st : Status} (hg : s.graphOf q = some g) (hf : g.failing = none) :
    (s.failGraph q st n i).graph.residents = s.graph.residents := by
  obtain ⟨u, hu, hs⟩ := State.failGraph_eq (n := n) (i := i) (st := st) hg hf
  obtain ⟨-, -, hres⟩ := State.SameRuns.abortGraph (q := q) (.refl (s := u.updGraph q (GraphRun.failed · st n i)))
  rw [hs, hres, ← hu]
  rfl

/-- A reserved node of a graph that fails has ended. -/
theorem State.failGraph_nodeEnded {g : GraphRun} {x : NodeSt} {st : Status} (hg : s.graphOf q = some g)
    (hf : g.failing = none) (hx : s.nodeOf q n = some x) (hp : x.phase = .reserved) :
    (s.failGraph q st n i).NodeEnded q n := by
  obtain ⟨u, hu, hs⟩ := State.failGraph_eq (n := n) (i := i) (st := st) hg hf
  have hg' : (u.updGraph q (GraphRun.failed · st n i)).graphOf q = some (g.failed st n i) := by
    rw [State.graphOf_updGraph_self, State.graphOf_congr hu, hg]
    rfl
  have hx' : (u.updGraph q (GraphRun.failed · st n i)).nodeOf q n = some x := by
    rw [State.nodeOf, hg] at hx
    rw [State.nodeOf, hg']
    exact hx
  have hmem : (n, x) ∈ (g.failed st n i).nodes := by
    rw [State.nodeOf, hg] at hx
    exact Table.mem_of_find (t := g.nodes) hx
  rw [hs]
  exact (State.nodeEnded_abortNodes hmem (by rw [hx']; rfl) hp).congr (State.abortGraph_graph hg')

theorem gives_dispatchTimeout {g : GraphRun} {x : NodeSt} {t : Nat} (hg : s.graphOf q = some g)
    (hx : s.nodeOf q n = some x) (hf : g.failing = none) (hp : x.phase = .reserved) (hh : x.held = [])
    (ht : x.reservedAt + usTicks 90 ≤ t) :
    Gives (.dispatchTimeout q n t) s (fun u =>
      (u.graphOf q).map (fun x => x.failing) = some (some (ST_GRAPH_DISPATCH_TIMEOUT, n, failUnit 4 0))
      ∧ (u.nodeOf q n).map (fun m => (m.phase, m.memops)) = some (.ended, 0)
      ∧ u.graph.residents = s.graph.residents
      ∧ Keeps [.time, .free, .mem, .hostMem, .quays, .tiles, .tiers, .sync, .dma, .events, .trace, .hif, .log, .fab,
          .graph, .pilot, .stks, .agent] s u) := by
  have hx' : (s.at t).nodeOf q n = some x := hx
  have hg' : (s.at t).graphOf q = some g := hg
  have ht' : x.reservedAt + usTicks 90 ≤ (s.at t).time := Nat.le_trans ht (Nat.le_max_right s.time t)
  have hexec : execDispatchTimeout q n t s
      = .next (((s.at t).failNode q n ST_GRAPH_DISPATCH_TIMEOUT).cntMod 20 1) := by
    simp only [execDispatchTimeout, hx', hp, hh, List.any_nil, beq_self_eq_true, Bool.not_false, Bool.and_self,
      decide_eq_true ht', if_true]
  refine ⟨_, hexec, State.failGraph_failing hg' hf, State.failGraph_nodeEnded hg' hf hx' hp,
    State.failGraph_residents hg' hf, .cntMod (.failNode (.at (.refl s)))⟩

end

/-- Settles O24. -/
theorem nodeDispatch : Obligations.NodeDispatch :=
  ⟨fun _ _ _ _ _ _ _ _ hg hx hf hp hk hr hh hl hheld => gives_nodeDispatch_join hg hx hf hp hk hr hh hl hheld,
   fun _ _ _ _ _ _ _ _ hg hx hf hp hk hop hr hh hl hheld ha hw hi hc =>
    gives_nodeDispatch_signal hg hx hf hp hk hop hr hh hl hheld ha hw hi hc,
   fun _ _ => gives_nodeHead,
   fun _ _ _ _ _ _ hg hx hf hp hh ht => gives_dispatchTimeout hg hx hf hp hh ht⟩

end Sys2Proof.Machine

/-! ### More frames -/

namespace Sys2Proof.Machine

set_option Elab.async false

section
variable {α β ε : Type} {ks : List Part} {o s : State}

theorem Keeps.takeReport {seq node fl ks} (h : Keeps ks o s) (hk : [.sync, .dma, .graph] ⊆ ks := by decide) :
    Keeps ks o (s.takeReport seq node fl) :=
  h.lift hk fun o h => .updGraph (.upd h)

end

end Sys2Proof.Machine

/-! Fields of a record that is put together from numbers. -/

namespace Sys2Proof.Machine

set_option Elab.async false

theorem natOfBytes_append (a b : List Byte) : natOfBytes (a ++ b) = natOfBytes a + 256 ^ a.length * natOfBytes b := by
  induction a with
  | nil => simp [natOfBytes]
  | cons x a ih =>
    rw [List.cons_append, natOfBytes, natOfBytes, ih, List.length_cons, Nat.pow_succ]
    rw [Nat.mul_add, Nat.add_assoc, ← Nat.mul_assoc, Nat.mul_comm 256 (256 ^ a.length)]

theorem natOfBytes_lt (a : List Byte) : natOfBytes a < 256 ^ a.length := by
  induction a with
  | nil => simp [natOfBytes]
  | cons x a ih =>
    rw [natOfBytes, List.length_cons, Nat.pow_succ]
    have hx : x.toNat < 256 := x.isLt
    omega

theorem natOfBytes_bytesOfNat (n x : Nat) : natOfBytes (bytesOfNat n x) = x % 256 ^ n := by
  induction n generalizing x with
  | zero => simp [bytesOfNat, natOfBytes, Nat.mod_one]
  | succ n ih =>
    rw [bytesOfNat, natOfBytes, ih, BitVec.toNat_ofNat, show (2 : Nat) ^ 8 = 256 from rfl, Nat.pow_succ,
      Nat.mul_comm (256 ^ n) 256, Nat.mod_mul]

theorem bits_append_skip {a b : List Byte} {lo n : Nat} (h : 8 * a.length ≤ lo) :
    bits (natOfBytes (a ++ b)) lo n = bits (natOfBytes b) (lo - 8 * a.length) n := by
  have hp : (256 : Nat) ^ a.length = 2 ^ (8 * a.length) := (Nat.pow_mul 2 8 a.length).symm
  have hsplit : 2 ^ lo = 256 ^ a.length * 2 ^ (lo - 8 * a.length) := by
    rw [hp, ← Nat.pow_add, Nat.add_sub_cancel' h]
  rw [bits, bits, hsplit, ← Nat.div_div_eq_div_mul, natOfBytes_append,
    Nat.add_mul_div_left _ _ (Nat.pow_pos (by decide)), Nat.div_eq_of_lt (natOfBytes_lt a), Nat.zero_add]

/-- A field past the first number of a record lies in what follows it. -/
theorem byteField_skip {k off n x : Nat} {r : List Byte} (h : k ≤ off) :
    byteField (natOfBytes (bytesOfNat k x ++ r)) off n = byteField (natOfBytes r) (off - k) n := by
  have hl : (bytesOfNat k x).length = k := bytesOfNat_length k x
  rw [byteField, bits_append_skip (by rw [hl]; omega), byteField, hl]
  congr 1
  omega

/-- The field that the first number of a record fills. -/
theorem byteField_first {k x : Nat} {r : List Byte} :
    byteField (natOfBytes (bytesOfNat k x ++ r)) 0 k = x % 256 ^ k := by
  have hp : (2 : Nat) ^ (8 * k) = 256 ^ k := Nat.pow_mul 2 8 k
  have hl : (bytesOfNat k x).length = k := bytesOfNat_length k x
  rw [byteField, bits, Nat.mul_zero, Nat.pow_zero, Nat.div_one, hp, natOfBytes_append, hl, Nat.add_mul_mod_self_left,
    natOfBytes_bytesOfNat, Nat.mod_mod]

end Sys2Proof.Machine

/-! Settles the statement about how nodes and graphs end. -/

namespace Sys2Proof.Machine

set_option Elab.async false

section
variable {s u : State} {q n m k i : Nat} {α : Type}

/-! ### The report of a unit -/

theorem State.takeReport_nodeOf {fl : BitVec 8} : (s.takeReport q n fl).nodeOf k i = s.nodeOf k i :=
  State.nodeOf_updGraph (f := (GraphRun.flagged · fl)) fun _ => rfl

theorem State.takeReport_graphOf {fl : BitVec 8} :
    (s.takeReport q n fl).graphOf q = (s.graphOf q).map (GraphRun.flagged · fl) :=
  State.graphOf_updGraph_self (f := (GraphRun.flagged · fl))

theorem NodeSt.not_isTile_of_kind {x : NodeSt} (h : ndKind x.w = 5) : x.isTile = false := by
  simp [NodeSt.isTile, h]

theorem NodeSt.not_isStack_of_kind {x : NodeSt} (h : ndKind x.w = 5) : x.isStack = false := by
  simp [NodeSt.isStack, h]

/-- A SYNC node ends with the status that woke it. -/
theorem State.unitResult_sync {x : NodeSt} {st : Status} (hp : x.phase = .running) (hk : ndKind x.w = 5)
    (hw : s.sync.woken = [(.node q n, st)]) : s.unitResult q n x = some (st, failUnit 4 0, 0) := by
  simp [State.unitResult, hp, NodeSt.not_isTile_of_kind hk, NodeSt.not_isStack_of_kind hk, hk, hw]

/-! ### The successors of a node that completes -/

theorem State.graphOf_map_releaseNode {v : GraphRun → α} (hf : ∀ g fl, v (g.flagged fl) = v g)
    (hn : ∀ g l, v { g with nodes := l } = v g) : ((s.releaseNode q n).graphOf k).map v = (s.graphOf k).map v := by
  cases hx : s.nodeOf q n with
  | none => rw [State.releaseNode_none hx]
  | some x =>
    obtain ⟨fl, hg⟩ := State.releaseNode_graph hx
    rw [State.graphOf_congr hg, State.graphOf_map_updNode hn, State.graphOf_map_updGraph fun g => hf g fl]

theorem State.lowerSuccessors_one {g : GraphRun} (hg : s.graphOf q = some g) (he : g.edges = [(n, m)]) :
    s.lowerSuccessors q n = s.updNode q m (fun x => { x with indeg := x.indeg - 1 }) := by
  simp [State.lowerSuccessors, hg, he]

/-- The only successor of a node that completes waits for one less. -/
theorem State.completeNode_successor {g : GraphRun} {x y : NodeSt} (hg : s.graphOf q = some g)
    (hx : s.nodeOf q n = some x) (hy : s.nodeOf q m = some y) (hm : m ≠ n) (he : g.edges = [(n, m)]) :
    ((s.completeNode q n).nodeOf q m).map (fun x => (x.indeg, x.phase)) = some (y.indeg - 1, y.phase) := by
  obtain ⟨u, t, hu, hs⟩ := State.completeNode_eq hg hx
  have hg' : ((u.releaseNode q n).graphOf q).map GraphRun.edges = some [(n, m)] := by
    rw [State.graphOf_map_releaseNode (fun _ _ => rfl) (fun _ _ => rfl), State.graphOf_congr hu, hg, ← he]
    rfl
  obtain ⟨g', hg', he'⟩ := Option.map_eq_some_iff.mp hg'
  rw [hs, State.nodeOf_map_noteReady (fun _ _ => rfl), State.nodeOf_cntTen,
    State.nodeOf_updGraph fun g => g.touched_nodes t, State.lowerSuccessors_one hg' he', State.nodeOf_updNode,
    State.nodeOf_releaseNode, State.nodeOf_congr hu, hy]
  simp [hm]

theorem execNodeComplete_done {g : GraphRun} {x : NodeSt} (hg : s.graphOf q = some g) (hx : s.nodeOf q n = some x)
    (hf : g.failing = none) {l : Nat} {fl : BitVec 8} (hr : s.unitResult q n x = some (0, l, fl)) :
    execNodeComplete q n s = .next ((s.takeReport q n fl).completeNode q n) := by
  simp [execNodeComplete, hg, hx, hf, hr]

theorem gives_nodeComplete {g : GraphRun} {x y : NodeSt} (hg : s.graphOf q = some g) (hx : s.nodeOf q n = some x)
    (hy : s.nodeOf q m = some y) (hm : m ≠ n) (he : g.edges = [(n, m)]) (hf : g.failing = none)
    (hp : x.phase = .running) (hk : ndKind x.w = 5) (hw : s.sync.woken = [(.node q n, 0)]) :
    Gives (.nodeComplete q n) s (fun u => (u.nodeOf q n).map (fun x => x.phase) = some .ended
      ∧ (u.nodeOf q m).map (fun x => (x.indeg, x.phase)) = some (y.indeg - 1, y.phase) ∧ u.sync.woken = []
      ∧ u.sync.objs = s.sync.objs ∧ Keeps [.tiles, .sync, .dma, .trace, .graph, .stks] s u) := by
  have hg' : (s.takeReport q n 0).graphOf q = some (g.flagged 0) := by
    rw [State.takeReport_graphOf, hg]
    rfl
  have hx' : (s.takeReport q n 0).nodeOf q n = some x := State.takeReport_nodeOf.trans hx
  have hsync : ((s.takeReport q n 0).completeNode q n).sync = (s.takeReport q n 0).sync :=
    (Keeps.completeNode (ks := [.tiles, .trace, .graph, .stks]) (.refl _)).sync_eq (by decide)
  refine ⟨_, execNodeComplete_done hg hx hf (State.unitResult_sync hp hk hw), ?_,
    State.completeNode_successor hg' hx' (State.takeReport_nodeOf.trans hy) hm he, ?_, ?_,
    .completeNode (.takeReport (.refl s))⟩
  · have h := congrArg (Option.map Prod.fst) (State.completeNode_nodeOf hg' hx')
    rw [Option.map_map] at h
    exact h
  · rw [hsync]
    simp [State.takeReport, State.updGraph, hw]
  · rw [hsync]
    rfl

/-! ### A unit that fails -/

theorem execUnitFailure_failed {g : GraphRun} {x : NodeSt} (hg : s.graphOf q = some g)
    (hx : s.nodeOf q n = some x) (hf : g.failing = none) {st : Status} {l : Nat} {fl : BitVec 8}
    (hr : s.unitResult q n x = some (st, l, fl)) (hst : st ≠ 0) :
    execUnitFailure q n s = .next ((s.takeReport q n fl).failGraph q st n l) := by
  simp only [execUnitFailure, hg, hx, hf, hr, if_neg hst, Option.isSome_none, Bool.false_eq_true, if_false]

theorem gives_unitFailure {g : GraphRun} {x : NodeSt} {st : Status} (hg : s.graphOf q = some g)
    (hx : s.nodeOf q n = some x) (hf : g.failing = none) (hp : x.phase = .running) (hk : ndKind x.w = 5)
    (hw : s.sync.woken = [(.node q n, st)]) (hst : st ≠ 0) :
    Gives (.unitFailure q n) s (fun u =>
      (u.graphOf q).map (fun x => x.failing) = some (some (st, n, failUnit 4 0))
      ∧ u.graph.residents = s.graph.residents
      ∧ Keeps [.free, .mem, .hostMem, .quays, .tiles, .tiers, .sync, .dma, .events, .trace, .hif, .log, .fab, .graph,
          .pilot, .stks, .agent] s u) := by
  have hg' : (s.takeReport q n 0).graphOf q = some (g.flagged 0) := by
    rw [State.takeReport_graphOf, hg]
    rfl
  exact ⟨_, execUnitFailure_failed hg hx hf (State.unitResult_sync hp hk hw) hst, State.failGraph_failing hg' hf,
    State.failGraph_residents hg' hf, .failGraph (.takeReport (.refl s))⟩

/-! ### The wait watchdog -/

theorem foldl_max_of_forall_eq {l : List Nat} (h : ∀ a ∈ l, a = q) : l.foldl max q = q := by
  induction l with
  | nil => rfl
  | cons a l ih =>
    rw [List.foldl_cons, h a List.mem_cons_self, Nat.max_self]
    exact ih fun b hb => h b (List.mem_cons_of_mem a hb)

theorem execGraphWatchdog_alone {g : GraphRun} {t : Nat} (hg : s.graphOf q = some g)
    (hgs : s.graph.graphs = [(q, g)]) (hfw : s.fw.state = 2) (hst : (s.at t).graphStalled q g = true)
    (ht : (s.at t).stalledSince q g + msTicks (entWd g.entry.toNat) ≤ t) (hl : s.logging = false)
    (hh : s.log.held = false) :
    execGraphWatchdog q t s = .next (((s.at t).failGraph q ST_GRAPH_WATCHDOG ((s.at t).firstWait q g).1
      ((s.at t).firstWait q g).2).cntMod 13 1) := by
  have hg' : (s.at t).graphOf q = some g := hg
  have hd : (s.at t).decisionAllowed 0x601 (2 ^ 63 + q) = true := State.decisionAllowed_free hh hl
  have hlog : (s.at t).logDecision 0x601 [2 ^ 63 + q] = s.at t := State.logDecision_off hl
  have ht' : (s.at t).stalledSince q g + msTicks (entWd g.entry.toNat) ≤ (s.at t).time :=
    Nat.le_trans ht (Nat.le_max_right s.time t)
  have hfw' : (s.at t).fw.state = 2 := hfw
  have hmax (p : Nat × GraphRun → Bool) : (((s.at t).graph.graphs.filter p).map Prod.fst).foldl max q = q := by
    refine foldl_max_of_forall_eq fun a ha => ?_
    obtain ⟨x, hx, rfl⟩ := List.mem_map.mp ha
    have hx' : x ∈ [(q, g)] := hgs ▸ (List.mem_filter.mp hx).1
    rw [List.mem_singleton.mp hx']
  simp only [execGraphWatchdog, hg', hfw', hst, decide_eq_true ht', hmax, hd, hlog]
  rfl

theorem gives_graphWatchdog {g : GraphRun} {t : Nat} (hg : s.graphOf q = some g)
    (hgs : s.graph.graphs = [(q, g)]) (hfw : s.fw.state = 2) (hst : (s.at t).graphStalled q g = true)
    (ht : (s.at t).stalledSince q g + msTicks (entWd g.entry.toNat) ≤ t) (hl : s.logging = false)
    (hh : s.log.held = false) :
    Gives (.graphWatchdog q t) s (fun u =>
      (u.graphOf q).map (fun x => x.failing) = some (some (ST_GRAPH_WATCHDOG,
        ((s.at t).firstWait q g).1, ((s.at t).firstWait q g).2)) ∧ u.graph.residents = s.graph.residents
      ∧ Keeps [.time, .free, .mem, .hostMem, .quays, .tiles, .tiers, .sync, .dma, .events, .trace, .hif, .log, .fab,
          .graph, .pilot, .stks, .agent] s u) := by
  have hf : g.failing = none := by
    simp only [State.graphStalled, Bool.and_eq_true, Option.isNone_iff_eq_none] at hst
    obtain ⟨⟨⟨hnone, -⟩, -⟩, -⟩ := hst
    exact hnone
  have hg' : (s.at t).graphOf q = some g := hg
  exact ⟨_, execGraphWatchdog_alone hg hgs hfw hst ht hl hh, State.failGraph_failing hg' hf,
    State.failGraph_residents hg' hf, .cntMod (.failGraph (.at (.refl s)))⟩

/-! ### The end of a graph -/

/-- The completion record of a graph that has not failed. -/
def GraphRun.doneRecord (g : GraphRun) (q t : Nat) : List Byte :=
  bytesOfNat 3 0x430401 ++ bytesOfNat 1 (entOp g.entry.toNat) ++ bytesOfNat 2 0 ++ bytesOfNat 1 g.flags.toNat
    ++ bytesOfNat 1 0 ++ bytesOfNat 4 (entTag g.entry.toNat) ++ bytesOfNat 2 0xFFFF ++ bytesOfNat 2 0
    ++ bytesOfNat 8 q ++ bytesOfNat 2 (if g.op = 1 then g.handle.getD 0 else 0) ++ bytesOfNat 2 0 ++ bytesOfNat 4 t

theorem GraphRun.doneRecord_length (g : GraphRun) (q t : Nat) : (g.doneRecord q t).length = 32 := by
  simp [GraphRun.doneRecord, bytesOfNat_length]

theorem GraphRun.doneRecord_fields (g : GraphRun) (q t : Nat) :
    (byteField (natOfBytes (g.doneRecord q t)) 0 3, byteField (natOfBytes (g.doneRecord q t)) 3 1,
      byteField (natOfBytes (g.doneRecord q t)) 4 2, byteField (natOfBytes (g.doneRecord q t)) 8 4,
      byteField (natOfBytes (g.doneRecord q t)) 12 2, byteField (natOfBytes (g.doneRecord q t)) 16 8)
      = (0x430401, entOp g.entry.toNat % 256, 0, entTag g.entry.toNat, 0xFFFF, q % 2 ^ 64) := by
  have htag : entTag g.entry.toNat < 4294967296 := Nat.mod_lt _ (by decide)
  simp only [GraphRun.doneRecord, List.append_assoc]
  simp (disch := decide) only [byteField_skip, byteField_first, Nat.reduceSub, Nat.reducePow, Nat.reduceMod]
  rw [Nat.mod_eq_of_lt htag]

theorem State.writeRecord_host {g : GraphRun} (hf : g.failing = none) (hen : entRecEn g.entry.toNat = true)
    (hhost : entRecHost g.entry.toNat = true) :
    s.writeRecord q g = s.hostWrite (entRec g.entry.toNat) (g.doneRecord q s.time) := by
  simp only [State.writeRecord, hf, hen, hhost]
  rfl

theorem State.noteLaunch_of_op {g : GraphRun} (h : g.op ≠ 2) : s.noteLaunch g = s := by
  unfold State.noteLaunch
  split
  · rw [if_pos (Or.inl h)]
  · rfl

/-- The record of a graph that ends, with its trace record and its counter. -/
def State.recordedEnd (s : State) (q : Nat) (g : GraphRun) : State :=
  ((s.hostWrite (entRec g.entry.toNat) (g.doneRecord q s.time)).traceCentral 1 0x12 4 0 g.tag.toNat
    (q + 2 ^ 64 * 0)).cntMod 5 1

/-- The state of a graph that leaves its slot. -/
def State.leaves (s : State) (q : Nat) (g : GraphRun) : State :=
  { s.recordedEnd q g with
    serving := { s.serving with
      inFlight := s.serving.inFlight.map (fun x => if x.seq = some q then { x with result := some 0 } else x) }
    graph := { s.graph with graphs := Table.del s.graph.graphs q } }

theorem State.recordedEnd_keeps {g : GraphRun} : Keeps [.hostMem, .trace] s (s.recordedEnd q g) :=
  .cntMod (.traceCentral (.hostWrite (.refl s)))

theorem Keeps.serving_eq {ks : List Part} (h : Keeps ks s u) (hk : Part.serving ∉ ks) : u.serving = s.serving := by
  obtain ⟨-, -, -, -, -, -, -, -, -, -, -, -, -, -, -, -, -, -, -, -, -, -, -, hserving, -⟩ := h
  exact hserving.resolve_left hk

theorem execGraphComplete_done {g : GraphRun} {t : Nat} (hg : s.graphOf q = some g) (hf : g.failing = none)
    (hop : g.op = 0) (hn : g.nodes.all (fun n => n.2.phase == .ended) = true) (hen : entRecEn g.entry.toNat = true)
    (hhost : entRecHost g.entry.toNat = true) (hd : entDoneEn g.entry.toNat = false) :
    execGraphComplete q t s = .next ((s.at t).leaves q g).noteReady := by
  have hg' : (s.at t).graphOf q = some g := hg
  have hmay : (s.at t).mayComplete q g = true := by
    rw [State.mayComplete, hf, hop]
    exact hn
  have hnone : g.nodes.filter (fun n => n.2.phase != .ended) = [] :=
    List.filter_eq_nil_iff.mpr fun n hmem => by
      have h := List.all_eq_true.mp hn n hmem
      simp only [beq_iff_eq] at h
      simp [h]
  have hserving : ((s.at t).recordedEnd q g).serving = (s.at t).serving := State.recordedEnd_keeps.serving_eq (by decide)
  have hgraph : ((s.at t).recordedEnd q g).graph = (s.at t).graph := State.recordedEnd_keeps.graph_eq (by decide)
  have hrec := State.writeRecord_host (s := s.at t) (q := q) hf hen hhost
  simp only [execGraphComplete, hg', hmay, hnone, List.foldl_nil, Option.getD_some, hrec, hd, hf, Bool.not_true,
    Bool.false_eq_true, if_false, State.noteLaunch_of_op (g := g) (by rw [hop]; decide), hop, State.leaves, ← hserving, ← hgraph]
  rfl

theorem State.noteReady_keeps : Keeps [.graph] s s.noteReady := .noteReady (.refl s)

theorem State.noteReady_queues : s.noteReady.graph.queues = s.graph.queues := by
  refine foldl_keeps (v := fun u : State => u.graph.queues) ?_ _ _
  intro u p
  rfl

theorem Keeps.hostMem_eq {ks : List Part} (h : Keeps ks s u) (hk : Part.hostMem ∉ ks) : u.hostMem = s.hostMem := by
  obtain ⟨-, -, -, -, -, -, hhost, -⟩ := h
  exact hhost.resolve_left hk

theorem State.recordedEnd_hostMem {g : GraphRun} : (s.recordedEnd q g).hostMem
    = (s.hostWrite (entRec g.entry.toNat) (g.doneRecord q s.time)).hostMem := by
  have h : Keeps [.trace] (s.hostWrite (entRec g.entry.toNat) (g.doneRecord q s.time)) (s.recordedEnd q g) :=
    .cntMod (.traceCentral (.refl _))
  exact h.hostMem_eq (by decide)

theorem State.leaves_keeps {g : GraphRun} : Keeps [.hostMem, .graph, .serving, .trace] s (s.leaves q g) :=
  .upd (State.recordedEnd_keeps.mono (by decide) : Keeps _ s (s.recordedEnd q g)) (by simp [Keeps, State.leaves])

theorem gives_graphComplete {g : GraphRun} {t : Nat} (hg : s.graphOf q = some g) (hf : g.failing = none)
    (hop : g.op = 0) (hn : g.nodes.all (fun n => n.2.phase == .ended) = true) (hen : entRecEn g.entry.toNat = true)
    (hhost : entRecHost g.entry.toNat = true) (hd : entDoneEn g.entry.toNat = false) :
    Gives (.graphComplete q t) s (fun u => u.graphOf q = none
      ∧ (Mem.readBytes u.hostMem (entRec g.entry.toNat) 32).map (fun b => (byteField (natOfBytes b) 0 3,
          byteField (natOfBytes b) 3 1, byteField (natOfBytes b) 4 2, byteField (natOfBytes b) 8 4,
          byteField (natOfBytes b) 12 2, byteField (natOfBytes b) 16 8))
        = some (0x430401, entOp g.entry.toNat % 256, 0, entTag g.entry.toNat, 0xFFFF, q % 2 ^ 64)
      ∧ SameOutside s.hostMem u.hostMem (entRec g.entry.toNat) (entRec g.entry.toNat + 32)
      ∧ u.graph.residents = s.graph.residents ∧ u.graph.queues = s.graph.queues
      ∧ Keeps [.time, .hostMem, .graph, .serving, .trace] s u) := by
  have hlen := g.doneRecord_length q (s.at t).time
  have hhm : ((s.at t).leaves q g).noteReady.hostMem
      = ((s.at t).hostWrite (entRec g.entry.toNat) (g.doneRecord q (s.at t).time)).hostMem :=
    (State.noteReady_keeps.hostMem_eq (by decide)).trans State.recordedEnd_hostMem
  obtain ⟨-, hres, hgraphs⟩ := State.noteReady_notes (s := (s.at t).leaves q g)
  refine ⟨_, execGraphComplete_done hg hf hop hn hen hhost hd, ?_, ?_, ?_, ?_, ?_, ?_⟩
  · have h := hgraphs q
    rw [show ((s.at t).leaves q g).graphOf q = none by
      exact Table.find_del_self _ _] at h
    exact Option.map_eq_none_iff.mp h
  · rw [hhm]
    have hread := State.hostWrite_readBytes (s := s.at t) (entRec g.entry.toNat) (g.doneRecord q (s.at t).time)
    rw [hlen] at hread
    rw [hread, Option.map_some, GraphRun.doneRecord_fields]
  · rw [hhm]
    have hout := State.hostWrite_sameOutside (s := s.at t) (entRec g.entry.toNat) (g.doneRecord q (s.at t).time)
    rwa [hlen] at hout
  · exact hres
  · exact State.noteReady_queues
  · exact .noteReady (Keeps.trans (.at (.refl s)) (State.leaves_keeps.mono (by decide)))

end

/-- Settles O25. -/
theorem nodeEnds : Obligations.NodeEnds :=
  ⟨fun _ _ _ _ _ _ _ hg hx hy hm he hf hp hk hw => gives_nodeComplete hg hx hy hm he hf hp hk hw,
   fun _ _ _ _ _ _ hg hx hf hp hk hw hst => gives_unitFailure hg hx hf hp hk hw hst,
   fun _ _ _ _ hg hf hop hn hen hhost hd => gives_graphComplete hg hf hop hn hen hhost hd,
   fun _ _ _ _ hg hgs hfw hst ht hl hh => gives_graphWatchdog hg hgs hfw hst ht hl hh⟩

end Sys2Proof.Machine

/-! What a descriptor of a compute stack leaves that works in the vector buffer of one stack. -/

namespace Sys2Proof.Machine

set_option Elab.async false

section
variable {s u v : State} {c i d st : Nat} {ks : List Part}

/-! ### A descriptor that runs -/

theorem State.runsDesc_iff {opc : Nat} : s.runsDesc c i d opc = true ↔ ∃ x w r,
    Table.find s.stks.chains c = some x ∧ x.stopped = false ∧ x.descs[i]? = some w ∧ w.toNat = d ∧ sdOpc d = opc
      ∧ x.running.find? (fun r => r.idx == i) = some r ∧ r.done = false ∧ r.failed = none ∧ sdOverlaps d = false := by
  constructor
  · intro h
    unfold State.runsDesc at h
    split at h
    · cases h
    · next x hx =>
      simp only [Bool.and_eq_true, Bool.not_eq_true', beq_iff_eq] at h
      obtain ⟨⟨⟨⟨hstop, hdesc⟩, hopc⟩, hrun⟩, hover⟩ := h
      obtain ⟨w, hw, hd⟩ := Option.map_eq_some_iff.mp hdesc
      split at hrun
      · next r hr =>
        simp only [Bool.and_eq_true, Bool.not_eq_true', Option.isNone_iff_eq_none] at hrun
        exact ⟨x, w, r, hx, hstop, hw, hd, hopc, hr, hrun.1, hrun.2, hover⟩
      · cases hrun
  · rintro ⟨x, w, r, hx, hstop, hw, hd, hopc, hr, hdone, hfail, hover⟩
    simp [State.runsDesc, hx, hstop, hw, hd, hopc, hr, hdone, hfail, hover]

/-- The chain whose descriptor `i` has run with these flags. -/
def StackChain.ended (i : Nat) (fl : ArithFlags) (x : StackChain) : StackChain :=
  { x with running := x.running.map (fun q => if q.idx = i then { q with done := true, flags := fl } else q) }

theorem State.runStack_ok {opc : Nat} {run : Nat → Nat → State → StkOut} {fl : ArithFlags}
    (h : s.runsDesc c i d opc = true) (hrun : run d (s.chainTenant c) (s.countWork c d) = (v, .ok fl)) :
    s.runStack c i opc run = v.updChain c (StackChain.ended i fl) := by
  obtain ⟨x, w, r, hx, hstop, hw, rfl, hopc, hr, hdone, hfail, hover⟩ := State.runsDesc_iff.mp h
  rw [State.chainTenant, hx] at hrun
  simp only [Option.map_some, Option.getD_some] at hrun
  simp only [State.runStack, hx, hw, hr, hdone, hfail, hstop, hopc, hrun, hover, Option.isSome_none, Bool.or_self,
    bne_self_eq_false, Bool.false_eq_true, if_false]
  rfl

/-! ### What a run leaves of the chains -/

/-- What the vector buffers and the running descriptors of a chain are. -/
def StackChain.work (x : StackChain) : Table Mem × List StackRun := (x.vb, x.running)

/-- Between `s` and `u` a descriptor of chain `c` has worked in stack `st`, has written no vector buffer and has
not ended. -/
def State.Works (ks : List Part) (c st : Nat) (s u : State) : Prop :=
  Keeps ks s u ∧ OnlyAt s.stks.chains u.stks.chains c ∧ OnlyAt s.stks.units u.stks.units st
    ∧ (Table.find u.stks.chains c).map StackChain.work = (Table.find s.stks.chains c).map StackChain.work

theorem State.Works.refl : s.Works ks c st s := ⟨.refl s, .refl, .refl, rfl⟩

theorem State.Works.trans (h : s.Works ks c st u) (k : u.Works ks c st v) : s.Works ks c st v := by
  obtain ⟨h1, h2, h3, h4⟩ := h
  obtain ⟨k1, k2, k3, k4⟩ := k
  exact ⟨h1.trans k1, h2.trans k2, h3.trans k3, k4.trans h4⟩

theorem State.Works.mono {ls : List Part} (h : s.Works ks c st u) (hs : ks ⊆ ls) : s.Works ls c st u := by
  obtain ⟨h1, h2, h3, h4⟩ := h
  exact ⟨h1.mono hs, h2, h3, h4⟩

/-- What leaves the stacks alone is such work. -/
theorem State.Works.of_keeps (h : Keeps ks s u) (hs : u.stks = s.stks) : s.Works ks c st u := by
  refine ⟨h, ?_, ?_, ?_⟩ <;> rw [hs]
  · exact .refl
  · exact .refl

theorem State.find_updChain {k : Nat} {f : StackChain → StackChain} :
    Table.find (s.updChain c f).stks.chains k = (Table.find s.stks.chains k).map (fun x => if k = c then f x else x) :=
  Table.find_mapV s.stks.chains (fun k x => if k = c then f x else x) k

theorem State.find_updChain_self {f : StackChain → StackChain} :
    Table.find (s.updChain c f).stks.chains c = (Table.find s.stks.chains c).map f := by simp [State.find_updChain]

theorem State.onlyAt_updChain {f : StackChain → StackChain} : OnlyAt s.stks.chains (s.updChain c f).stks.chains c :=
  .mapV_at

theorem State.Works.updChain {f : StackChain → StackChain} (hf : ∀ x, (f x).work = x.work) :
    s.Works [.stks] c st (s.updChain c f) := by
  refine ⟨.updChain (.refl s), State.onlyAt_updChain, .refl, ?_⟩
  rw [State.find_updChain_self, Option.map_map]
  exact congrArg (Option.map · _) (funext hf)

theorem State.Works.updStack {f : StackUnit → StackUnit} : s.Works [.stks] c st (s.updStack st f) :=
  ⟨.updStack (.refl s), .refl, .put, rfl⟩

/-- The work of a descriptor in one stack is counted there and in its chain. -/
theorem State.countWork_works (hst : sdStacks d = [st]) : s.Works [.stks] c st (s.countWork c d) := by
  rw [State.countWork, hst]
  simp only [List.zipIdx_cons, List.zipIdx_nil, List.foldl_cons, List.foldl_nil]
  split
  · exact .trans (.updChain (by intro x; rfl)) .updStack
  · exact .updStack

theorem State.freshBytes_works {n : Nat} : s.Works [.free] c st (s.freshBytes n).2 :=
  .of_keeps (by simp [Keeps, State.freshBytes]) rfl

theorem State.Works.vbBytes_eq (h : s.Works ks c st u) (k o n : Nat) : u.vbBytes c k o n = s.vbBytes c k o n := by
  obtain ⟨-, -, -, hw⟩ := h
  have hv (u : State) : u.vbBytes c k o n = ((Table.find u.stks.chains c).map StackChain.work).bind
      (fun p => Mem.readBytes (Table.getD p.1 k []) o n) := by
    rw [State.vbBytes]
    cases Table.find u.stks.chains c <;> rfl
  rw [hv, hv, hw]

/-! ### Reading a vector buffer -/

theorem Mem.map_getD_of_readBytes {m : Mem} {n : Nat} {a : Nat} {xs : List Byte} (h : Mem.readBytes m a n = some xs)
    (g : Nat → Byte) : (List.range n).map (fun k => (Mem.read m (a + k)).getD (g k)) = xs := by
  induction n generalizing a xs g with
  | zero =>
    rw [Mem.readBytes] at h
    exact Option.some.inj h
  | succ n ih =>
    rw [Mem.readBytes] at h
    split at h
    · next b r hb hr =>
      rw [← Option.some.inj h, List.range_succ_eq_map, List.map_cons, List.map_map]
      have ht := ih hr (fun k => g (k + 1))
      simp only [Nat.add_zero, hb, Option.getD_some, Function.comp_def, Nat.succ_eq_add_one]
      rw [← ht]
      exact congrArg (b :: ·) (List.map_congr_left fun k _ => by rw [show a + (k + 1) = a + 1 + k by omega])
    · cases h

theorem State.stkRead_buffer {addr o n : Nat} {xs : List Byte} (ho : vbOff addr = some o)
    (hx : s.vbBytes c st o n = some xs) : s.stkRead c st addr n = (some xs, (s.freshBytes n).2) := by
  rw [State.vbBytes] at hx
  cases hc : Table.find s.stks.chains c with
  | none =>
    rw [hc] at hx
    cases hx
  | some x =>
    rw [hc] at hx
    simp only [State.stkRead, ho, hc, Option.map_some, Option.getD_some]
    rw [Mem.map_getD_of_readBytes hx]

/-- The one vector of a descriptor, read from the vector buffer. -/
theorem State.withX_buffer {n ox : Nat} {xs : List Byte} (hm : sdXMode d = 0) (ho : vbOff (sdXAddr d) = some ox)
    (hx : s.vbBytes c st ox ((n * typeBits (sdXType d) + 7) / 8) = some xs) (f : Nat → Nat → State → StkOut) :
    s.withX c st d 1 n f = f (natOfBytes xs) 0 (s.freshBytes ((n * typeBits (sdXType d) + 7) / 8)).2 := by
  rw [State.withX]
  simp only [Nat.sub_self, Nat.zero_mul, Nat.zero_add, State.stkRead_buffer ho hx, withBytes, if_pos hm]

/-- The values at AUX_ADDR, read from the vector buffer. -/
theorem State.withAux_buffer {n oa : Nat} {az : List Byte} (ho : n = 0 ∨ vbOff (sdAux d) = some oa)
    (hx : s.vbBytes c st oa (4 * n) = some az) :
    ∃ v, s.Works [.free] c st v ∧ ∀ f, s.withAux c st d n f = f (natOfBytes az) v := by
  by_cases hn : n = 0
  · subst hn
    have haz : az = [] := by
      rw [State.vbBytes] at hx
      split at hx
      · cases hx
      · exact (Option.some.inj hx).symm
    exact ⟨s, .refl, fun f => by rw [State.withAux, if_pos rfl, haz]; rfl⟩
  · refine ⟨_, State.freshBytes_works (n := 4 * n), fun f => ?_⟩
    rw [State.withAux, if_neg hn, State.stkRead_buffer (ho.resolve_left hn) hx]
    rfl

/-- The operation ends well in the state `u`. -/
def StkOut.leaves (o : StkOut) (u : State) : Prop := ∃ fl, o = (u, .ok fl)

theorem stkAll_one {α : Type} {f : α → State → StkOut} {x : α} (h : (f x s).leaves u) : (stkAll f [x] s).leaves u := by
  obtain ⟨fl, h⟩ := h
  exact ⟨fl ||| 0, by rw [stkAll, h]; rfl⟩

/-! ### Writing a vector buffer -/

/-- The bytes at `o` of the vector buffer of stack `st` are written. -/
def State.wrote (s : State) (c st o : Nat) (bs : List Byte) : State :=
  s.updChain c (fun x => { x with vb := Table.upd x.vb st [] (fun m => Mem.writeBytes m o bs) })

theorem State.stkWrite_buffer {addr o off : Nat} {bs : List Byte} (ho : vbOff addr = some o) :
    s.stkWrite c [st] addr off bs = s.wrote c st (o + off) bs := by
  simp only [State.stkWrite, ho]
  rfl

/-- The bytes of values as a descriptor stores them, without scales. -/
def storedBytes (d : Nat) (vs : List FV) : List Byte :=
  bytesOfNat ((vs.length * typeBits (sdStoredType d) + 7) / 8) (packElems (typeBits (sdStoredType d))
    (vs.map (fun v => (convElem (sdStoredType d) (sdSat d) .rne v).1)))

theorem storedBytes_map (vs : List (BitVec 32)) : storedBytes d (vs.map ofFp32) = vbValues d vs := by
  simp [storedBytes, vbValues, Function.comp_def]

theorem State.stkOutput_buffer {oo per : Nat} {vs : List FV} (hd : sdDest d = 0) (hm : sdOutMode d = 0)
    (ho : vbOff (sdOut d) = some oo) :
    ∃ fl, s.stkOutput c d 0 0 st per vs = (s.wrote c st oo (storedBytes d vs), fl) := by
  have hbit : bit (sdOut d) 63 = true := by
    refine Classical.byContradiction fun hb => ?_
    rw [vbOff, if_neg hb] at ho
    cases ho
  have ht : sdTarget d 0 st = ([st], 0) := by
    rw [sdTarget, if_neg (by omega), if_pos ⟨hd, hbit⟩]
  have hmode : ¬ (sdOutMode d = 1 ∧ sdDest d ≠ 3 ∧ sdStoredType d = sdOutType d) := by omega
  simp only [State.stkOutput, ht, if_neg hmode, ite_self, Nat.zero_mul, Nat.zero_div,
    State.stkWrite_buffer ho, List.length_map, Nat.add_zero, List.map_map, storedBytes, Function.comp_def]
  exact ⟨_, rfl⟩

end

/-! ### A descriptor that has written one vector -/

section
variable {s u : State} {c i st o : Nat} {bs : List Byte} {ks : List Part}

theorem State.wrote_find : Table.find (s.wrote c st o bs).stks.chains c = (Table.find s.stks.chains c).map
    (fun x => { x with vb := Table.upd x.vb st [] (fun m => Mem.writeBytes m o bs) }) := State.find_updChain_self

theorem State.wrote_keeps : Keeps [.stks] s (s.wrote c st o bs) := .updChain (.refl s)

/-- The vector buffers of the chain, once one has been written. -/
theorem State.wrote_vbBytes (hc : (Table.find s.stks.chains c).isSome = true) (a n : Nat) :
    (s.wrote c st o bs).vbBytes c st a n
      = (Table.find s.stks.chains c).bind (fun x =>
          Mem.readBytes (Mem.writeBytes (Table.getD x.vb st []) o bs) a n) := by
  obtain ⟨x, hx⟩ := Option.isSome_iff_exists.mp hc
  rw [State.vbBytes, State.wrote_find, hx]
  simp only [Option.map_some, Option.bind_some, Table.getD_upd_self]

theorem State.wrote_vbBytes_self (hc : (Table.find s.stks.chains c).isSome = true) :
    (s.wrote c st o bs).vbBytes c st o bs.length = some bs := by
  obtain ⟨x, hx⟩ := Option.isSome_iff_exists.mp hc
  rw [State.wrote_vbBytes hc, hx]
  exact Mem.readBytes_writeBytes ..

theorem State.wrote_vbBytes_outside (hc : (Table.find s.stks.chains c).isSome = true) {a n : Nat}
    (ha : a + n ≤ o ∨ o + bs.length ≤ a) : (s.wrote c st o bs).vbBytes c st a n = s.vbBytes c st a n := by
  obtain ⟨x, hx⟩ := Option.isSome_iff_exists.mp hc
  rw [State.wrote_vbBytes hc, State.vbBytes, hx, Option.bind_some]
  simp only
  have hread (y : Nat) (hy : a ≤ y) (hyn : y < a + n) : Mem.read (Mem.writeBytes (Table.getD x.vb st []) o bs) y
      = Mem.read (Table.getD x.vb st []) y := Mem.read_writeBytes_outside bs _ o y (by omega)
  clear ha
  induction n generalizing a with
  | zero => rfl
  | succ n ih =>
    rw [Mem.readBytes, Mem.readBytes, hread a (by omega) (by omega),
      ih fun y hy hyn => hread y (by omega) (by omega)]

theorem State.wrote_vbBytes_other {k : Nat} (hk : k ≠ st) : (s.wrote c st o bs).vbBytes c k = s.vbBytes c k := by
  funext a n
  rw [State.vbBytes, State.wrote_find, State.vbBytes]
  cases Table.find s.stks.chains c with
  | none => rfl
  | some x =>
    simp only [Option.map_some]
    rw [Table.getD_upd_ne _ _ _ hk]

theorem State.ended_vbBytes {fl : ArithFlags} : (s.updChain c (StackChain.ended i fl)).vbBytes c = s.vbBytes c := by
  funext k a n
  rw [State.vbBytes, State.find_updChain_self, State.vbBytes]
  cases Table.find s.stks.chains c <;> rfl

theorem State.ended_ranDesc {fl : ArithFlags} {l : List StackRun} {r : StackRun}
    (hl : (Table.find s.stks.chains c).map StackChain.running = some l)
    (hr : l.find? (fun r => r.idx == i) = some r) (hf : r.failed = none) :
    (s.updChain c (StackChain.ended i fl)).ranDesc c i fl = true := by
  obtain ⟨x, hx, rfl⟩ := Option.map_eq_some_iff.mp hl
  have hfind : (StackChain.ended i fl x).running.find? (fun r => r.idx == i)
      = some { r with done := true, flags := fl } := by
    have hi : r.idx = i := by simpa using List.find?_some hr
    have hcomp : ((fun r : StackRun => r.idx == i) ∘ fun q : StackRun =>
        if q.idx = i then { q with done := true, flags := fl } else q) = fun r => r.idx == i := by
      funext q
      simp only [Function.comp_apply]
      split <;> rfl
    rw [StackChain.ended, List.find?_map, hcomp, hr, Option.map_some, if_pos hi]
  rw [State.ranDesc, State.find_updChain_self, hx]
  simp only [Option.map_some, hfind, hf, beq_self_eq_true, Option.isNone_none, Bool.and_self]

end

end Sys2Proof.Machine

/-! Settles the statement about element-wise operations in SRU place. -/

namespace Sys2Proof.Machine

set_option Elab.async false

section
variable {s u : State} {c i d st ox oa oo : Nat} {xs az bs : List Byte}

/-! ### One vector written -/

/-- A descriptor that works in the vector buffer of one stack and writes one vector there. -/
theorem State.gives_wrote {opc : Nat} {run : Nat → Nat → State → StkOut} {ks : List Part}
    (h : s.runsDesc c i d opc = true) (hst : sdStacks d = [st]) (hks : .stks ∈ ks)
    (hu : (s.countWork c d).Works ks c st u)
    (hrun : (run d (s.chainTenant c) (s.countWork c d)).leaves (u.wrote c st oo bs)) :
    ∃ v, s.runStack c i opc run = v ∧ v.vbBytes c st oo bs.length = some bs
      ∧ (∀ a n, (a + n ≤ oo ∨ oo + bs.length ≤ a) → v.vbBytes c st a n = s.vbBytes c st a n)
      ∧ (∀ k, k ≠ st → v.vbBytes c k = s.vbBytes c k) ∧ (∃ fl, v.ranDesc c i fl = true)
      ∧ OnlyAt s.stks.chains v.stks.chains c ∧ OnlyAt s.stks.units v.stks.units st ∧ Keeps ks s v := by
  obtain ⟨fl, hrun⟩ := hrun
  obtain ⟨x, w, r, hx, -, -, -, -, hr, -, hfail, -⟩ := State.runsDesc_iff.mp h
  have hsu : s.Works ks c st u := .trans (.mono (State.countWork_works hst) (by simpa using hks)) hu
  have hvb := hsu.vbBytes_eq
  obtain ⟨hkeep, hchains, hunits, hwork⟩ := hsu
  have hc : (Table.find u.stks.chains c).isSome = true := by
    have := congrArg Option.isSome hwork
    rw [hx] at this
    simpa using this
  have hrunning : (Table.find (u.wrote c st oo bs).stks.chains c).map StackChain.running = some x.running := by
    have := congrArg (Option.map Prod.snd) hwork
    rw [hx, Option.map_map] at this
    rw [State.wrote_find, Option.map_map]
    exact this
  refine ⟨_, State.runStack_ok h hrun, ?_, ?_, ?_, ⟨fl, State.ended_ranDesc hrunning hr hfail⟩, ?_, hunits, ?_⟩
  · rw [State.ended_vbBytes, State.wrote_vbBytes_self hc]
  · intro a n ha
    rw [State.ended_vbBytes, State.wrote_vbBytes_outside hc ha, hvb]
  · intro k hk
    funext a n
    rw [State.ended_vbBytes, State.wrote_vbBytes_other hk, hvb]
  · exact hchains.trans (State.onlyAt_updChain.trans State.onlyAt_updChain)
  · have hsk : [Part.stks] ⊆ ks := by simpa using hks
    exact .updChain (.trans hkeep (State.wrote_keeps.mono hsk)) hsk

/-- An operation in SRU place whose run writes the values `f` gives. -/
theorem sruOp_of {cmd : Nat → Nat → Instr} {opc : Nat} {p : Nat → Bool} {xN auxN : Nat → Nat}
    {f : Nat → (Nat → BitVec 32) → (Nat → BitVec 32) → List (BitVec 32)} {run : State → Nat → Nat → StkOut}
    (hcmd : ∀ c i s, exec (cmd c i) s = .next (s.runStack c i opc (fun d _ s => run s c d)))
    (hrun : ∀ (s : State) (c d st ox oa oo : Nat) (xs az : List Byte), sdOpc d = opc → vectorForm d st ox oo →
      sdNbu d = false → p d = true → (auxN d = 0 ∨ vbOff (sdAux d) = some oa) →
      s.vbBytes c st ox ((xN d * typeBits (sdXType d) + 7) / 8) = some xs → s.vbBytes c st oa (4 * auxN d) = some az →
      ∃ u, s.Works [.free] c st u ∧ (run s c d).leaves
        (u.wrote c st oo (vbValues d (f d (xValue d xs) (fp32At (natOfBytes az)))))) :
    SruOp cmd opc p xN auxN f := by
  intro s c i d st ox oa oo xs az h hform hn hp ha hx haz
  have hst : sdStacks d = [st] := hform.1
  have hcount := (State.countWork_works (s := s) (c := c) hst).vbBytes_eq
  obtain ⟨_, _, _, -, -, -, -, hopc, -⟩ := State.runsDesc_iff.mp h
  obtain ⟨u, hu, hr⟩ := hrun (s.countWork c d) c d st ox oa oo xs az hopc hform hn hp ha
    ((hcount _ _ _).trans hx) ((hcount _ _ _).trans haz)
  obtain ⟨v, hv, hself, hout, hother, hran, hchains, hunits, hkeep⟩ :=
    State.gives_wrote (run := fun d _ s => run s c d) (ks := [.free, .stks]) h hst (by decide)
      (hu.mono (by decide)) hr
  refine ⟨v, (hcmd c i s).trans (congrArg _ hv), hself, fun a ha => hout a 1 ?_, hother, hran, hchains, hunits,
    hkeep⟩
  omega

/-! ### The element-wise operations -/

/-- The second operand of element `i`. -/
def ewAux (d : Nat) (g : Nat → BitVec 32) (i : Nat) : BitVec 32 :=
  if sdOpc d = 0x1C then g (i / max 1 (if sdParam d = 0 then sdN d else sdParam d)) else g i

/-- How many values at AUX_ADDR one vector takes. -/
def ewAuxN (d : Nat) : Nat :=
  if sdOpc d = 0x1A then 0
  else if sdOpc d = 0x1C then
    (sdN d + (if sdParam d = 0 then sdN d else sdParam d) - 1) / max 1 (if sdParam d = 0 then sdN d else sdParam d)
  else sdN d

theorem State.ewSru_vector (hform : vectorForm d st ox oo) (ha : ewAuxN d = 0 ∨ vbOff (sdAux d) = some oa)
    (hx : s.vbBytes c st ox ((sdN d * typeBits (sdXType d) + 7) / 8) = some xs)
    (haz : s.vbBytes c st oa (4 * ewAuxN d) = some az) :
    ∃ u, s.Works [.free] c st u ∧ (s.ewSru c d).leaves (u.wrote c st oo (vbValues d ((List.range (sdN d)).map
      (fun i => (ewOp d (xValue d xs i) (ewAux d (fp32At (natOfBytes az)) i)).1)))) := by
  obtain ⟨hst, hb, hxm, hd, hm, hox, hoo⟩ := hform
  have hfresh : s.Works [.free] c st (s.freshBytes ((sdN d * typeBits (sdXType d) + 7) / 8)).2 := State.freshBytes_works
  have haz' := (hfresh.vbBytes_eq st oa (4 * ewAuxN d)).trans haz
  have hauxN : (if sdOpc d = 0x1A then 0 else if sdOpc d = 0x1C then
      1 * ((sdN d + (if sdParam d = 0 then sdN d else sdParam d) - 1) / max 1 (if sdParam d = 0 then sdN d else sdParam d))
      else (1 - 1) * sdXVs d + sdN d) = ewAuxN d := by simp [ewAuxN]
  obtain ⟨u, hu, haux⟩ := State.withAux_buffer ha haz'
  obtain ⟨fl, hout⟩ := State.stkOutput_buffer (s := u) (c := c) (st := st) (per := sdN d) (vs := ((List.range (sdN d)).map
    (fun i => (ewOp d (xValue d xs i) (ewAux d (fp32At (natOfBytes az)) i)).1)).map ofFp32) hd hm hoo
  rw [storedBytes_map] at hout
  have hrange : List.range 1 = [0] := rfl
  refine ⟨u, .trans hfresh hu, ?_⟩
  unfold State.ewSru
  rw [hst, hb]
  simp only [List.zipIdx_cons, List.zipIdx_nil, hauxN]
  refine stkAll_one ?_
  simp only [State.withX_buffer hxm hox hx, haux, hrange]
  refine stkAll_one ?_
  simp only [List.map_map, Function.comp_def, Nat.zero_mul, Nat.zero_add, xValue, ewAux] at hout ⊢
  rw [hout]
  exact ⟨_, rfl⟩

/-- An element-wise operation with its own count of second operands and its own values. -/
theorem sruOp_ew {cmd : Nat → Nat → Instr} {opc : Nat} {p : Nat → Bool} {auxN : Nat → Nat}
    {f : Nat → (Nat → BitVec 32) → (Nat → BitVec 32) → List (BitVec 32)}
    (hcmd : ∀ c i s, exec (cmd c i) s = .next (s.runStack c i opc (fun d _ s => s.runEw c d)))
    (hN : ∀ d, sdOpc d = opc → p d = true → auxN d = ewAuxN d)
    (hf : ∀ d x g, sdOpc d = opc → p d = true →
      f d x g = (List.range (sdN d)).map (fun i => (ewOp d (x i) (ewAux d g i)).1)) :
    SruOp cmd opc p (fun d => sdN d) auxN f := by
  refine sruOp_of hcmd fun s c d st ox oa oo xs az hopc hform hn hp ha hx haz => ?_
  rw [hN d hopc hp] at ha haz
  obtain ⟨u, hu, hrun⟩ := State.ewSru_vector hform ha hx haz
  refine ⟨u, hu, ?_⟩
  rw [hf d _ _ hopc hp, State.runEw, hn]
  exact hrun

end

/-- Settles O26. -/
theorem stackElementwise : Obligations.StackElementwise := by
  refine ⟨?_, ?_, ?_, ?_, ?_⟩
  · exact sruOp_ew (fun _ _ _ => rfl) (fun d h _ => by simp [ewAuxN, h])
      (fun d x g h _ => by simp [ewOp, ewAux, h])
  · exact sruOp_ew (fun _ _ _ => rfl) (fun d h _ => by simp [ewAuxN, h])
      (fun d x g h _ => by simp [ewOp, ewAux, h])
  · exact sruOp_ew (fun _ _ _ => rfl) (fun d h _ => by simp [ewAuxN, h])
      (fun d x g h _ => by simp [ewOp, h])
  · exact sruOp_ew (fun _ _ _ => rfl) (fun d h _ => by simp [ewAuxN, h])
      (fun d x g h _ => by simp [ewOp, ewAux, h])
  · have hseg (d : Nat) (hp : 0 < sdN d) : max 1 (if sdParam d = 0 then sdN d else sdParam d)
        = if sdParam d = 0 then sdN d else sdParam d := by split <;> omega
    refine sruOp_ew (fun _ _ _ => rfl) (fun d h hp => ?_) (fun d x g h hp => ?_)
    · have hp' := hseg d (of_decide_eq_true hp)
      have hop : ¬ sdOpc d = 0x1A := by rw [h]; decide
      rw [ewAuxN, if_neg hop, if_pos h, hp']
    · have hp' := hseg d (of_decide_eq_true hp)
      refine List.map_congr_left fun i _ => ?_
      simp only [ewOp, ewAux, h, if_true, hp']
      split <;> rfl

end Sys2Proof.Machine

/-! Settles the statement about normalisation, softmax and reduction. -/

namespace Sys2Proof.Machine

set_option Elab.async false

section
variable {s u : State} {c i d st ox oa oo : Nat} {xs az bs : List Byte}

theorem zipIdx_map_range {α : Type} (f : Nat → α) (n : Nat) :
    ((List.range n).map f).zipIdx = (List.range n).map (fun i => (f i, i)) := by
  refine List.ext_getElem (by simp) fun i h _ => ?_
  simp

theorem xVec_values (n : Nat) : (xVec d (natOfBytes xs) 0 0 n).map Prod.fst = (List.range n).map (xValue d xs) := by
  simp [xVec, xValue, Function.comp_def]

/-- One vector of values written to the vector buffer. -/
theorem State.stkOutput_values {per : Nat} (hform : vectorForm d st ox oo) (vs : List (BitVec 32)) :
    ∃ fl, s.stkOutput c d 0 0 st per (vs.map ofFp32) = (s.wrote c st oo (vbValues d vs), fl) := by
  obtain ⟨-, -, -, hd, hm, -, hoo⟩ := hform
  rw [← storedBytes_map]
  exact State.stkOutput_buffer hd hm hoo

/-! ### NORM -/

/-- How many values at AUX_ADDR a normalisation of one vector takes. -/
def normAuxN (d : Nat) : Nat :=
  match sdFunc d with
  | 0 => sdN d
  | 1 => 2 * sdN d
  | 4 => 1
  | _ => 0

/-- What the run of a normalisation writes. -/
def normRun (d aux : Nat) (xs : List (BitVec 32)) : List FpOut :=
  if sdFunc d ≤ 1 then normVec d aux xs else [normHalf d (fp32At aux 0) xs]

theorem normRun_values (hf : sdFunc d ≤ 4) (aux : Nat) (x : Nat → BitVec 32) :
    (normRun d aux ((List.range (sdN d)).map x)).map Prod.fst = normValues d x (fp32At aux) := by
  obtain h | h | h | h | h : sdFunc d = 0 ∨ sdFunc d = 1 ∨ sdFunc d = 2 ∨ sdFunc d = 3 ∨ sdFunc d = 4 := by omega
  · simp [normRun, normVec, normValues, h, zipIdx_map_range]
  · simp only [normRun, normVec, normValues, h, subAll, List.map_map, Function.comp_def, zipIdx_map_range, Nat.le_refl,
      if_true, Nat.one_ne_zero, if_false]
  · simp [normRun, normHalf, normValues, h]
  · simp [normRun, normHalf, normValues, h]
  · simp [normRun, normHalf, normValues, h, subAll, Function.comp_def]

theorem State.runNorm_vector (hform : vectorForm d st ox oo) (hn : sdNbu d = false) (hf : sdFunc d ≤ 4)
    (ha : normAuxN d = 0 ∨ vbOff (sdAux d) = some oa)
    (hx : s.vbBytes c st ox ((sdN d * typeBits (sdXType d) + 7) / 8) = some xs)
    (haz : s.vbBytes c st oa (4 * normAuxN d) = some az) :
    ∃ u, s.Works [.free] c st u ∧ (s.runNorm c d).leaves
      (u.wrote c st oo (vbValues d (normValues d (xValue d xs) (fp32At (natOfBytes az))))) := by
  have ⟨hst, hb, hxm, _, _, hox, _⟩ := hform
  obtain ⟨u, hu, haux⟩ := State.withAux_buffer ha haz
  have hx' := (hu.vbBytes_eq st ox ((sdN d * typeBits (sdXType d) + 7) / 8)).trans hx
  have hrange : List.range 1 = [0] := rfl
  refine ⟨_, hu.trans (State.freshBytes_works (n := (sdN d * typeBits (sdXType d) + 7) / 8)), ?_⟩
  unfold State.runNorm
  rw [hst, hb]
  simp only [List.zipIdx_cons, List.zipIdx_nil, hn]
  refine stkAll_one ?_
  refine (congrArg (StkOut.leaves · _) (haux _)).mpr ?_
  simp only [State.withX_buffer hxm hox hx', Bool.false_eq_true, if_false, hrange]
  refine stkAll_one ?_
  have hvals : (normRun d (natOfBytes az) ((List.range (sdN d)).map (xValue d xs))).map (fun y => ofFp32 y.1)
      = (normValues d (xValue d xs) (fp32At (natOfBytes az))).map ofFp32 := by
    rw [← normRun_values hf, List.map_map]
    rfl
  obtain ⟨fl, hout⟩ := State.stkOutput_values (s := (u.freshBytes ((sdN d * typeBits (sdXType d) + 7) / 8)).2) (c := c)
    (per := (normRun d (natOfBytes az) ((List.range (sdN d)).map (xValue d xs))).length) hform
    (normValues d (xValue d xs) (fp32At (natOfBytes az)))
  rw [xVec_values, ← normRun, hvals, hout]
  exact ⟨_, rfl⟩

/-! ### SMX -/

/-- The maximum of the vector. -/
def smxMax (d : Nat) (x : Nat → BitVec 32) : BitVec 32 := vecMax ((List.range (sdN d)).map x)

/-- The exponential of one element less the maximum. -/
def smxExp (d : Nat) (x : Nat → BitVec 32) (k : Nat) : BitVec 32 := fnApply 0x52 (fpSub (x k) (smxMax d x)).1

theorem smxPair_values (x : Nat → BitVec 32) : ∃ fl, smxPair ((List.range (sdN d)).map x)
    = (smxMax d x, (vecSum ((List.range (sdN d)).map (smxExp d x))).1, fl) := by
  simp only [smxPair, subAll, List.map_map]
  exact ⟨_, rfl⟩

theorem State.runSmx_pair (hform : vectorForm d st ox oo) (hn : sdNbu d = false) (hf : sdFunc d = 1)
    (hx : s.vbBytes c st ox ((sdN d * typeBits (sdXType d) + 7) / 8) = some xs) :
    ∃ u, s.Works [.free] c st u ∧ (s.runSmx c d).leaves (u.wrote c st oo (vbValues d
      [smxMax d (xValue d xs), (vecSum ((List.range (sdN d)).map (smxExp d (xValue d xs)))).1])) := by
  have ⟨hst, hb, hxm, _, _, hox, _⟩ := hform
  have hrange : List.range 1 = [0] := rfl
  refine ⟨_, State.freshBytes_works (n := (sdN d * typeBits (sdXType d) + 7) / 8), ?_⟩
  obtain ⟨fs, hpair⟩ := smxPair_values (d := d) (xValue d xs)
  obtain ⟨fl, hout⟩ := State.stkOutput_values (s := (s.freshBytes ((sdN d * typeBits (sdXType d) + 7) / 8)).2) (c := c)
    (per := 2) hform [smxMax d (xValue d xs), (vecSum ((List.range (sdN d)).map (smxExp d (xValue d xs)))).1]
  unfold State.runSmx
  rw [hst, hb]
  simp only [List.zipIdx_cons, List.zipIdx_nil, hn]
  refine stkAll_one ?_
  simp only [hf, Nat.reduceEqDiff, State.withX_buffer hxm hox hx, Bool.false_eq_true, if_false, hrange]
  refine stkAll_one ?_
  simp only [xVec_values, hpair, if_true]
  rw [show [ofFp32 (smxMax d (xValue d xs)), ofFp32 (vecSum ((List.range (sdN d)).map (smxExp d (xValue d xs)))).1]
    = [smxMax d (xValue d xs), (vecSum ((List.range (sdN d)).map (smxExp d (xValue d xs)))).1].map ofFp32 from rfl, hout]
  exact ⟨_, rfl⟩

theorem getD_xVec {n k : Nat} (hk : k < n) :
    (((xVec d (natOfBytes xs) 0 0 n)[k]?).map Prod.fst).getD 0 = xValue d xs k := by
  simp [xVec, hk, xValue]

theorem smxFold_xVec : smxFold ((List.range (sdN d)).map (fun k =>
    ((((xVec d (natOfBytes xs) 0 0 (2 * sdN d))[2 * k]?).map Prod.fst).getD 0,
      (((xVec d (natOfBytes xs) 0 0 (2 * sdN d))[2 * k + 1]?).map Prod.fst).getD 0)))
    = smxFold ((List.range (sdN d)).map (fun k => (xValue d xs (2 * k), xValue d xs (2 * k + 1)))) := by
  refine congrArg smxFold (List.map_congr_left fun k hk => ?_)
  have hk' : k < sdN d := List.mem_range.mp hk
  rw [getD_xVec (by omega), getD_xVec (by omega)]

theorem State.runSmx_join (hform : vectorForm d st ox oo) (hn : sdNbu d = false) (hf : sdFunc d = 2)
    (hx : s.vbBytes c st ox ((2 * sdN d * typeBits (sdXType d) + 7) / 8) = some xs)
    {r : BitVec 32 × BitVec 32}
    (hr : (smxFold ((List.range (sdN d)).map (fun k => (xValue d xs (2 * k), xValue d xs (2 * k + 1))))).1 = r) :
    ∃ u, s.Works [.free] c st u ∧ (s.runSmx c d).leaves (u.wrote c st oo (vbValues d [r.1, r.2])) := by
  have ⟨hst, hb, hxm, _, _, hox, _⟩ := hform
  have hrange : List.range 1 = [0] := rfl
  refine ⟨_, State.freshBytes_works (n := (2 * sdN d * typeBits (sdXType d) + 7) / 8), ?_⟩
  obtain ⟨fl, hout⟩ := State.stkOutput_values (s := (s.freshBytes ((2 * sdN d * typeBits (sdXType d) + 7) / 8)).2)
    (c := c) (per := 2) hform [r.1, r.2]
  unfold State.runSmx
  rw [hst, hb]
  simp only [List.zipIdx_cons, List.zipIdx_nil, hn]
  refine stkAll_one ?_
  simp only [hf, if_true, State.withX_buffer hxm hox hx, Bool.false_eq_true, if_false, hrange]
  refine stkAll_one ?_
  simp only [smxFold_xVec, hr]
  rw [show [ofFp32 r.1, ofFp32 r.2] = [r.1, r.2].map ofFp32 from rfl, hout]
  exact ⟨_, rfl⟩

/-- The exponentials at OUT_ADDR and their sum at AUX_ADDR. -/
theorem State.runSmx_exps (hform : vectorForm d st ox oo) (hn : sdNbu d = false) (hf : sdFunc d = 0)
    (ha : vbOff (sdAux d) = some oa)
    (hx : s.vbBytes c st ox ((sdN d * typeBits (sdXType d) + 7) / 8) = some xs) :
    ∃ u, s.Works [.free] c st u ∧ (s.runSmx c d).leaves ((u.wrote c st oo (vbValues d
      ((List.range (sdN d)).map (smxExp d (xValue d xs))))).wrote c st oa
        (bytesOfNat 4 (vecSum ((List.range (sdN d)).map (smxExp d (xValue d xs)))).1.toNat)) := by
  have ⟨hst, hb, hxm, _, _, hox, _⟩ := hform
  have hrange : List.range 1 = [0] := rfl
  refine ⟨_, State.freshBytes_works (n := (sdN d * typeBits (sdXType d) + 7) / 8), ?_⟩
  obtain ⟨fs, hpair⟩ := smxPair_values (d := d) (xValue d xs)
  obtain ⟨fl, hout⟩ := State.stkOutput_values (s := (s.freshBytes ((sdN d * typeBits (sdXType d) + 7) / 8)).2) (c := c)
    (per := sdN d) hform ((List.range (sdN d)).map (smxExp d (xValue d xs)))
  unfold State.runSmx
  rw [hst, hb]
  simp only [List.zipIdx_cons, List.zipIdx_nil, hn]
  refine stkAll_one ?_
  simp only [hf, Nat.reduceEqDiff, State.withX_buffer hxm hox hx, Bool.false_eq_true, if_false, hrange]
  refine stkAll_one ?_
  simp only [xVec_values, hpair, Nat.zero_ne_one, if_false]
  rw [show (((subAll ((List.range (sdN d)).map (xValue d xs)) (smxMax d (xValue d xs))).map
    (fun y => fnApply 0x52 y.1)).map ofFp32) = ((List.range (sdN d)).map (smxExp d (xValue d xs))).map ofFp32 by
      simp only [subAll, List.map_map]
      rfl, hout]
  rw [State.stkWrite_buffer ha]
  exact ⟨_, rfl⟩

/-! ### REDUCE -/

/-- Element `k` of the arrays added in increasing order. -/
def reduceValue (d aux k : Nat) : BitVec 32 :=
  (List.range (sdKsplit d - 1)).foldl (fun a q => (fpAdd a (fp32At aux ((q + 1) * sdXVs d + k))).1) (fp32At aux k)

/-- The fold that gathers the flags as well gives the same value. -/
theorem reduceFold_value (aux k : Nat) (l : List Nat) (p : FpOut) :
    (l.foldl (fun (p : FpOut) q => ((fpAdd p.1 (fp32At aux ((q + 1) * sdXVs d + k))).1,
        p.2 ||| (fpAdd p.1 (fp32At aux ((q + 1) * sdXVs d + k))).2)) p).1
      = l.foldl (fun a q => (fpAdd a (fp32At aux ((q + 1) * sdXVs d + k))).1) p.1 := by
  induction l generalizing p with
  | nil => rfl
  | cons a l ih => rw [List.foldl_cons, List.foldl_cons, ih]

theorem State.runReduce_vector (hform : vectorForm d st ox oo) (hk : 0 < sdKsplit d)
    (hx : s.vbBytes c st ox (4 * ((sdKsplit d - 1) * sdXVs d + sdN d)) = some xs) :
    ∃ u, s.Works [.free] c st u ∧ (s.runReduce c d).leaves (u.wrote c st oo (vbValues d
      ((List.range (sdN d)).map (reduceValue d (natOfBytes xs))))) := by
  have ⟨hst, hb, _, _, _, hox, _⟩ := hform
  have hrange : List.range 1 = [0] := rfl
  have hks : max 1 (sdKsplit d) = sdKsplit d := by omega
  refine ⟨_, State.freshBytes_works (n := 4 * ((sdKsplit d - 1) * sdXVs d + sdN d)), ?_⟩
  obtain ⟨fl, hout⟩ := State.stkOutput_values
    (s := (s.freshBytes (4 * ((sdKsplit d - 1) * sdXVs d + sdN d))).2) (c := c) (per := sdN d) hform
    ((List.range (sdN d)).map (reduceValue d (natOfBytes xs)))
  unfold State.runReduce
  rw [hst, hb]
  simp only [List.zipIdx_cons, List.zipIdx_nil]
  refine stkAll_one ?_
  simp only [hks, Nat.mul_one, State.stkRead_buffer hox hx, withBytes, hrange]
  refine stkAll_one ?_
  simp only [List.map_map, Function.comp_def, Nat.add_zero, Nat.zero_mul, Nat.zero_add, reduceFold_value]
  simp only [List.map_map, Function.comp_def, reduceValue] at hout
  rw [hout]
  exact ⟨_, rfl⟩

end

/-! ### The statement -/

section
variable {s : State} {c i d st ox oa oo : Nat} {xs : List Byte}

/-- A descriptor of a chain, seen by the state that has counted its work. -/
theorem State.counted_vbBytes (hst : sdStacks d = [st]) {o n : Nat} (h : s.vbBytes c st o n = some xs) :
    (s.countWork c d).vbBytes c st o n = some xs :=
  ((State.countWork_works (c := c) hst).vbBytes_eq st o n).trans h

theorem State.runsDesc_opc {opc : Nat} (h : s.runsDesc c i d opc = true) : sdOpc d = opc := by
  obtain ⟨_, _, _, -, -, -, -, hopc, -⟩ := State.runsDesc_iff.mp h
  exact hopc

theorem not_sdNbu_of_smx (h : sdOpc d = 0x22) (hf : sdFunc d ≠ 1) : sdNbu d = false := by
  simp [sdNbu, sdIsRow, h, hf]

theorem storedType_of_smx (hd : sdDest d = 0) (h : sdOpc d = 0x22) (hf : sdFunc d = 0) :
    sdStoredType d = sdOutType d := by
  simp [sdStoredType, hd, h, hf]

theorem vbValues_length (vs : List (BitVec 32)) :
    (vbValues d vs).length = (vs.length * typeBits (sdStoredType d) + 7) / 8 := by
  rw [vbValues, bytesOfNat_length]

theorem gives_smx_exps (h : s.runsDesc c i d 0x22 = true) (hform : vectorForm d st ox oo) (hf : sdFunc d = 0)
    (ha : vbOff (sdAux d) = some oa) (hao : oa + 4 ≤ oo ∨ oo + (sdN d * typeBits (sdOutType d) + 7) / 8 ≤ oa)
    (hx : s.vbBytes c st ox ((sdN d * typeBits (sdXType d) + 7) / 8) = some xs) :
    Gives (.smx c i) s (fun u =>
      u.vbBytes c st oo ((sdN d * typeBits (sdOutType d) + 7) / 8)
        = some (vbValues d ((List.range (sdN d)).map (smxExp d (xValue d xs))))
      ∧ u.vbBytes c st oa 4
        = some (bytesOfNat 4 (vecSum ((List.range (sdN d)).map (smxExp d (xValue d xs)))).1.toNat)
      ∧ OnlyAt s.stks.chains u.stks.chains c ∧ OnlyAt s.stks.units u.stks.units st ∧ Keeps [.free, .stks] s u) := by
  have hst : sdStacks d = [st] := hform.1
  have hopc := State.runsDesc_opc h
  obtain ⟨u, hu, fl, hrun⟩ := State.runSmx_exps hform (not_sdNbu_of_smx hopc (by omega)) hf ha
    (State.counted_vbBytes hst hx)
  have hsu : s.Works [.free, .stks] c st u :=
    .trans (.mono (State.countWork_works hst) (by decide)) (hu.mono (by decide))
  obtain ⟨hkeep, hchains, hunits, hwork⟩ := hsu
  obtain ⟨x, w, r, hfind, -⟩ := State.runsDesc_iff.mp h
  have hc : (Table.find u.stks.chains c).isSome = true := by
    have := congrArg Option.isSome hwork
    rw [hfind] at this
    simpa using this
  have hlen : (vbValues d ((List.range (sdN d)).map (smxExp d (xValue d xs)))).length
      = (sdN d * typeBits (sdOutType d) + 7) / 8 := by
    rw [vbValues_length, List.length_map, List.length_range, storedType_of_smx hform.2.2.2.1 hopc hf]
  have hself := State.wrote_vbBytes_self (st := st) (o := oo)
    (bs := vbValues d ((List.range (sdN d)).map (smxExp d (xValue d xs)))) hc
  rw [hlen] at hself
  have hc' : (Table.find (u.wrote c st oo (vbValues d ((List.range (sdN d)).map
      (smxExp d (xValue d xs))))).stks.chains c).isSome = true := by
    rw [State.wrote_find, Option.isSome_map, hc]
  refine ⟨_, congrArg Host.Outcome.next (State.runStack_ok (run := fun d _ s => s.runSmx c d) h hrun), ?_, ?_, ?_, hunits, ?_⟩
  · rw [State.ended_vbBytes, State.wrote_vbBytes_outside hc' (by rw [bytesOfNat_length]; omega)]
    exact hself
  · rw [State.ended_vbBytes]
    have := State.wrote_vbBytes_self (st := st) (o := oa)
      (bs := bytesOfNat 4 (vecSum ((List.range (sdN d)).map (smxExp d (xValue d xs)))).1.toNat) hc'
    rwa [bytesOfNat_length] at this
  · exact hchains.trans (State.onlyAt_updChain.trans (State.onlyAt_updChain.trans State.onlyAt_updChain))
  · exact .updChain (hkeep.trans ((State.wrote_keeps.trans State.wrote_keeps).mono (by decide)))

theorem gives_reduce (h : s.runsDesc c i d 0x30 = true) (hform : vectorForm d st ox oo) (hk : 0 < sdKsplit d)
    (hx : s.vbBytes c st ox (4 * ((sdKsplit d - 1) * sdXVs d + sdN d)) = some xs) :
    Gives (.reduce c i) s (fun u =>
      u.vbBytes c st oo (vbValues d ((List.range (sdN d)).map (reduceValue d (natOfBytes xs)))).length
        = some (vbValues d ((List.range (sdN d)).map (reduceValue d (natOfBytes xs))))
      ∧ OnlyAt s.stks.chains u.stks.chains c ∧ OnlyAt s.stks.units u.stks.units st ∧ Keeps [.free, .stks] s u) := by
  have hst : sdStacks d = [st] := hform.1
  obtain ⟨u, hu, hrun⟩ := State.runReduce_vector hform hk (State.counted_vbBytes hst hx)
  obtain ⟨v, hv, hself, -, -, -, hchains, hunits, hkeep⟩ := State.gives_wrote (run := fun d _ s => s.runReduce c d)
    (ks := [.free, .stks]) h hst (by decide) (hu.mono (by decide)) hrun
  exact ⟨v, congrArg Host.Outcome.next hv, hself, hchains, hunits, hkeep⟩

end

/-- Settles O27. -/
theorem stackVectors : Obligations.StackVectors := by
  refine ⟨?_, ?_, ?_, ?_, ?_⟩
  · refine sruOp_of (fun _ _ _ => rfl) fun s c d st ox oa oo xs az _ hform hn hp ha hx haz => ?_
    exact State.runNorm_vector hform hn (of_decide_eq_true hp) ha hx haz
  · refine sruOp_of (fun _ _ _ => rfl) fun s c d st ox oa oo xs az _ hform hn hp _ hx _ => ?_
    exact State.runSmx_pair hform hn (beq_iff_eq.mp hp) hx
  · refine sruOp_of (fun _ _ _ => rfl) fun s c d st ox oa oo xs az _ hform hn hp _ hx _ => ?_
    exact State.runSmx_join hform hn (beq_iff_eq.mp hp) hx rfl
  · exact fun _ _ _ _ _ _ _ _ _ h hform hf ha hao hx => gives_smx_exps h hform hf ha hao hx
  · exact fun _ _ _ _ _ _ _ _ h hform hk hx => gives_reduce h hform hk hx

end Sys2Proof.Machine

/-! An access to memory does not look at the stacks or at the free bytes: it commutes with a change of them. -/

namespace Sys2Proof.Machine

set_option Elab.async false

/-- The state with other stacks and another count of free bytes. -/
def State.restk (s : State) (k : Stacks) (f : Nat) : State := { s with stks := k, free := f }

section
variable {s : State} {k : Stacks} {f : Nat}

/-! ### What is read alike -/

@[simp] theorem State.restk_mem : (s.restk k f).mem = s.mem := rfl
@[simp] theorem State.restk_tiers : (s.restk k f).tiers = s.tiers := rfl
@[simp] theorem State.restk_events : (s.restk k f).events = s.events := rfl
@[simp] theorem State.restk_log : (s.restk k f).log = s.log := rfl
@[simp] theorem State.restk_pilot : (s.restk k f).pilot = s.pilot := rfl
@[simp] theorem State.restk_time : (s.restk k f).time = s.time := rfl
@[simp] theorem State.restk_agent : (s.restk k f).agent = s.agent := rfl
@[simp] theorem State.restk_quay (q : Nat) : (s.restk k f).quay q = s.quay q := rfl
@[simp] theorem State.restk_point (p : Nat) : (s.restk k f).point p = s.point p := rfl
@[simp] theorem State.restk_resv (n : Nat) : (s.restk k f).resv n = s.resv n := rfl
@[simp] theorem State.restk_logging : (s.restk k f).logging = s.logging := rfl
@[simp] theorem State.restk_logIsFull : (s.restk k f).logIsFull = s.logIsFull := rfl
@[simp] theorem State.restk_logSlots : (s.restk k f).logSlots = s.logSlots := rfl
@[simp] theorem State.restk_region (a : Nat) : (s.restk k f).region a = s.region a := rfl
@[simp] theorem State.restk_regionEnd (a : Nat) : (s.restk k f).regionEnd a = s.regionEnd a := rfl
@[simp] theorem State.restk_spreadSize : (s.restk k f).spreadSize = s.spreadSize := rfl
@[simp] theorem State.restk_spreadAt (i : Nat) : (s.restk k f).spreadAt i = s.spreadAt i := rfl
@[simp] theorem State.restk_pcTotal : (s.restk k f).pcTotal = s.pcTotal := rfl
@[simp] theorem State.restk_pcCount (st : Nat) : (s.restk k f).pcCount st = s.pcCount st := rfl
@[simp] theorem State.restk_pcList (st : Nat) : (s.restk k f).pcList st = s.pcList st := rfl
@[simp] theorem State.restk_stackBase (st : Nat) : (s.restk k f).stackBase st = s.stackBase st := rfl
@[simp] theorem State.restk_chList : (s.restk k f).chList = s.chList := rfl

@[simp] theorem State.restk_memLoc (a : Nat) : (s.restk k f).memLoc a = s.memLoc a := by
  simp only [State.memLoc, State.restk_region, State.t1Loc, State.t2Loc, State.restk_spreadSize, State.restk_spreadAt,
    State.restk_pcTotal, State.restk_pcCount, State.restk_pcList, State.restk_stackBase, State.restk_chList,
    State.restk_tiers]
  rfl

@[simp] theorem State.restk_unitAt (a : Nat) : (s.restk k f).unitAt a = s.unitAt a := by
  simp only [State.unitAt, State.restk_memLoc]

@[simp] theorem State.restk_inBankGroup (st : Nat) (l : List (Nat × Nat)) :
    (s.restk k f).inBankGroup st l = s.inBankGroup st l := by
  simp only [State.inBankGroup, State.restk_memLoc]

@[simp] theorem State.restk_checkPiece (t a n : Nat) (w : Bool) :
    (s.restk k f).checkPiece t w a n = s.checkPiece t w a n := by
  have hi : (s.restk k f).isolated a n = s.isolated a n := by
    simp only [State.isolated, State.restk_memLoc]
    rfl
  have hp : (s.restk k f).permitted t w a n = s.permitted t w a n := rfl
  have hu (b : Nat) : (s.restk k f).underReset b = s.underReset b := rfl
  simp only [State.checkPiece, State.restk_region, State.restk_quay, hi, hp, hu]

theorem State.restk_accessCheck_go (t n0 a n : Nat) (w : Bool) :
    State.accessCheck.go (s.restk k f) t w n0 a n = State.accessCheck.go s t w n0 a n := by
  induction n0 generalizing a n with
  | zero => rfl
  | succ n0 ih => simp only [State.accessCheck.go, State.restk_regionEnd, State.restk_checkPiece, ih]

@[simp] theorem State.restk_accessCheck (t a n : Nat) (w : Bool) :
    (s.restk k f).accessCheck t w a n = s.accessCheck t w a n := by
  simp only [State.accessCheck, State.restk_accessCheck_go]

@[simp] theorem State.restk_atomsOf (a n : Nat) : (s.restk k f).atomsOf a n = s.atomsOf a n := rfl
@[simp] theorem State.restk_unitFenced (u : Nat) : (s.restk k f).unitFenced u = s.unitFenced u := rfl
@[simp] theorem State.restk_nbuLocal (st pc bg o : Nat) :
    (s.restk k f).nbuLocal st pc bg o = s.nbuLocal st pc bg o := rfl
@[simp] theorem State.restk_nbuPieces (st n o l : Nat) :
    (s.restk k f).nbuPieces st n o l = s.nbuPieces st n o l := rfl
@[simp] theorem State.restk_newEntry (st : Status) (kd u : Nat) (t : Option Nat) (a : Nat) :
    (s.restk k f).newEntry st kd u t a = s.newEntry st kd u t a := rfl

/-! ### Loops and branches -/

theorem restk_foldl {β : Type} {g : State → β → State}
    (hg : ∀ s b, g (s.restk k f) b = (g s b).restk k f) (l : List β) (s : State) :
    l.foldl g (s.restk k f) = (l.foldl g s).restk k f := by
  induction l generalizing s with
  | nil => rfl
  | cons b l ih => rw [List.foldl_cons, List.foldl_cons, hg, ih]

theorem restk_ite {c : Prop} [Decidable c] {a b : State} :
    (if c then a else b).restk k f = if c then a.restk k f else b.restk k f := by split <;> rfl

/-! ### The updates an access makes -/

@[simp] theorem State.restk_updQuay (q : Nat) (g : Quay → Quay) :
    (s.restk k f).updQuay q g = (s.updQuay q g).restk k f := rfl
@[simp] theorem State.restk_updChan (c : Nat) (g : T2Chan → T2Chan) :
    (s.restk k f).updChan c g = (s.updChan c g).restk k f := rfl
@[simp] theorem State.restk_updInteg (c : Nat) (g : Integrity → Integrity) :
    (s.restk k f).updInteg c g = (s.updInteg c g).restk k f := rfl
@[simp] theorem State.restk_putAtom (a : Nat) (bs : List Byte) :
    (s.restk k f).putAtom a bs = (s.putAtom a bs).restk k f := rfl
@[simp] theorem State.restk_setPoint (p : Nat) (x : LogPoint) :
    (s.restk k f).setPoint p x = (s.setPoint p x).restk k f := rfl
@[simp] theorem State.restk_resvWrite (u a : Nat) (bs : List Byte) :
    (s.restk k f).resvWrite u a bs = (s.resvWrite u a bs).restk k f := rfl
@[simp] theorem State.restk_logHeader : (s.restk k f).logHeader = s.logHeader.restk k f := by
  simp only [State.logHeader, State.restk_resv, State.restk_log, State.restk_resvWrite]

@[simp] theorem State.restk_raise (st : Status) (kd u : Nat) (t : Option Nat) (a : Nat) :
    (s.restk k f).raise st kd u t a = (s.raise st kd u t a).restk k f := by
  rw [State.raise, State.raise, State.restk_newEntry, State.placeEntry, State.placeEntry]
  split <;> rfl

theorem State.restk_withLog (l : Logbook) :
    ({ s.restk k f with log := l } : State) = ({ s with log := l } : State).restk k f := rfl

@[simp] theorem State.restk_logFull : (s.restk k f).logFull = s.logFull.restk k f := by
  simp only [State.logFull, State.restk_withLog, State.restk_log, State.restk_logHeader, State.restk_raise, restk_ite]
  rfl

@[simp] theorem State.restk_logPut (r : Nat) : (s.restk k f).logPut r = (s.logPut r).restk k f := by
  simp only [State.logPut, State.restk_logIsFull, State.restk_logFull, ← restk_ite]
  generalize (if s.logIsFull then s.logFull else s) = u
  simp only [State.restk_log, State.restk_resv, State.restk_logSlots, State.restk_resvWrite, State.restk_withLog,
    State.restk_logHeader, restk_ite]

@[simp] theorem State.restk_logFlush (p : Nat) : (s.restk k f).logFlush p = (s.logFlush p).restk k f := by
  rw [State.logFlush, State.logFlush, State.restk_point]
  split
  · rfl
  · rw [State.restk_setPoint, State.restk_logPut]

@[simp] theorem State.restk_logArb (p : Nat) (w : BitVec 16) :
    (s.restk k f).logArb p w = (s.logArb p w).restk k f := by
  simp only [State.logArb, State.restk_logging, State.restk_point, State.restk_setPoint, State.restk_logFlush, restk_ite]

@[simp] theorem State.restk_logUnit (u : Nat) : (s.restk k f).logUnit u = (s.logUnit u).restk k f :=
  State.restk_logArb _ _

theorem State.restk_withAgent (w : BitVec 16) :
    ({ s.restk k f with agent := w } : State) = ({ s with agent := w } : State).restk k f := rfl

@[simp] theorem State.restk_asAgent (kd u a : Nat) : (s.restk k f).asAgent kd u a = (s.asAgent kd u a).restk k f := by
  simp only [State.asAgent, State.restk_withAgent, State.restk_logArb, ← restk_ite]
  generalize (if kd = 2 then _ else _) = v
  rw [State.restk_region]
  split <;> rfl

@[simp] theorem State.restk_isolation (st : Status) (kd u t a : Nat) :
    (s.restk k f).isolation st kd u t a = (s.isolation st kd u t a).restk k f := State.restk_raise _ _ _ _ _

@[simp] theorem State.restk_touch (a n : Nat) (r : Bool) : (s.restk k f).touch a n r = (s.touch a n r).restk k f := by
  simp only [State.touch, restk_ite]
  rfl

/-! ### Merge entries -/

theorem State.restk_withTiers (t : Tiers) :
    ({ s.restk k f with tiers := t } : State) = ({ s with tiers := t } : State).restk k f := rfl

@[simp] theorem State.restk_retire (e : MergeEntry) : (s.restk k f).retire e = (s.retire e).restk k f := by
  simp only [State.retire, State.restk_withTiers, State.restk_tiers, State.restk_updChan, ← restk_ite]
  generalize (if e.unit < 1024 then _ else _) = v
  simp only [State.restk_mem, State.restk_putAtom, State.restk_updInteg, State.restk_raise]
  split <;> rfl

@[simp] theorem State.restk_retireAll (p : MergeEntry → Bool) :
    (s.restk k f).retireAll p = (s.retireAll p).restk k f := restk_foldl (fun _ _ => State.restk_retire _) _ _

/-! ### Reads -/

@[simp] theorem State.restk_countPoison (a n : Nat) :
    (s.restk k f).countPoison a n = (s.countPoison a n).restk k f := by
  simp only [State.countPoison, State.restk_region, State.restk_atomsOf]
  split
  · refine restk_foldl (fun s b => ?_) _ _
    simp only [State.restk_unitAt, State.restk_unitFenced, State.restk_mem, State.restk_updInteg, restk_ite]
  · refine restk_foldl (fun s b => ?_) _ _
    simp only [State.restk_unitAt, State.restk_unitFenced, State.restk_mem, State.restk_updInteg, restk_ite]
  · rfl
  · rfl
  · rfl

theorem State.restk_load (a n : Nat) :
    (s.restk k f).load a n = ((s.load a n).1, (s.load a n).2.restk k f) := by
  have hlog (v : State) : (v.atomsOf a n).foldl (fun s x => if (s.memLoc x).isSome then s.logUnit (s.unitAt x) else s)
      (v.restk k f) = ((v.atomsOf a n).foldl (fun s x =>
        if (s.memLoc x).isSome then s.logUnit (s.unitAt x) else s) v).restk k f :=
    restk_foldl (fun s b => by simp only [State.restk_memLoc, State.restk_unitAt, State.restk_logUnit, restk_ite]) _ _
  simp only [State.load, State.restk_retireAll, State.restk_touch, State.restk_logging, State.restk_atomsOf, hlog,
    ← restk_ite]
  generalize (if State.logging _ then _ else _) = v
  simp only [State.restk_mem, State.restk_region, State.restk_countPoison]
  split
  · split
    · refine congrArg (Prod.mk _) ?_
      exact restk_foldl (fun s b => by simp only [State.restk_unitAt, State.restk_updChan]) _ _
    · rfl
  · rfl

/-- A fold that also answers. -/
theorem restk_foldl_snd {α β : Type} {g : α × State → β → α × State}
    (hg : ∀ p b, g (p.1, p.2.restk k f) b = ((g p b).1, (g p b).2.restk k f)) (l : List β) (p : α × State) :
    l.foldl g (p.1, p.2.restk k f) = ((l.foldl g p).1, (l.foldl g p).2.restk k f) := by
  induction l generalizing p with
  | nil => rfl
  | cons b l ih => rw [List.foldl_cons, List.foldl_cons, hg, ih]

theorem State.restk_nbuRead (st n o l : Nat) :
    (s.restk k f).nbuRead st n o l = ((s.nbuRead st n o l).1, (s.nbuRead st n o l).2.restk k f) := by
  simp only [State.nbuRead, State.restk_nbuPieces, State.restk_nbuLocal, State.restk_asAgent]
  refine restk_foldl_snd (fun p b => ?_) _ (some [], s.asAgent 3 st (s.nbuLocal st (n / 16) (n % 16) o))
  obtain ⟨x, v⟩ := p
  cases x with
  | none => rfl
  | some x =>
    simp only [State.restk_load]
    generalize v.load b.2.1 b.2.2 = w
    obtain ⟨y, w⟩ := w
    cases y <;> rfl

theorem State.restk_accessRecord (kd u t a n : Nat) (w : Bool) : (s.restk k f).accessRecord kd u t w a n
    = ((s.accessRecord kd u t w a n).1, (s.accessRecord kd u t w a n).2.restk k f) := by
  simp only [State.accessRecord, State.restk_accessCheck, State.restk_isolation, State.restk_asAgent, ← restk_ite]
  split <;> rfl

theorem State.restk_pageRead (t st a n : Nat) :
    (s.restk k f).pageRead t st a n = ((s.pageRead t st a n).1, (s.pageRead t st a n).2.restk k f) := by
  simp only [State.pageRead, State.restk_accessRecord]
  generalize s.accessRecord 3 st t false a n = x
  obtain ⟨x, v⟩ := x
  cases x with
  | some e => rfl
  | none => simp only [State.restk_load]

/-! ### Writes -/

theorem State.restk_withPilot (x : Pilot) :
    ({ s.restk k f with pilot := x } : State) = ({ s with pilot := x } : State).restk k f := rfl

/-- The state that has room for one more entry of this unit, where `old` is the entry of the atom and `mine` are
the entries of the unit. -/
def State.mergeRoom (s : State) (old : Option MergeEntry) (mine : List MergeEntry) (unit : Nat) : State :=
  match old with
  | some _ => s
  | none =>
    if (if unit < 1024 then 8 else 32) ≤ mine.length then
      match mine with
      | e :: _ => s.retire e
      | [] => s
    else s

/-- The bytes merged into the entry of the atom. -/
def State.mergeInto (s : State) (old : Option MergeEntry) (atom unit a : Nat) (bs : List Byte) : State :=
  let n := atomBytes unit
  let e := old.getD { atom := atom, unit := unit, mask := 0, data := 0, last := 0 }
  let lo := a - atom
  let k := bs.length
  let mask := e.mask.toNat ||| ((2 ^ k - 1) * 2 ^ lo)
  let data := setBits e.data.toNat (8 * lo) (8 * k) (natOfBytes bs)
  let s := { s with tiers := { s.tiers with writeBacks := Table.del s.tiers.writeBacks atom } }
  if mask = 2 ^ n - 1 then
    ({ s with tiers := { s.tiers with merge := s.tiers.merge.filter (fun x => x.atom != atom) } }).putAtom
      atom (bytesOfNat n data)
  else
    let e' := { e with mask := BitVec.ofNat 128 mask, data := BitVec.ofNat 1024 data, last := s.time }
    { s with tiers := { s.tiers with merge :=
        match old with
        | some _ => s.tiers.merge.map (fun (x : MergeEntry) => if x.atom = atom then e' else x)
        | none => s.tiers.merge ++ [e'] } }

theorem State.mergePart_eq (atom u a : Nat) (bs : List Byte) : s.mergePart atom u a bs
    = (s.mergeRoom (s.tiers.merge.find? (fun e => e.atom == atom)) (s.tiers.merge.filter (fun e => e.unit == u))
        u).mergeInto (s.tiers.merge.find? (fun e => e.atom == atom)) atom u a bs := rfl

theorem State.restk_mergeRoom (old : Option MergeEntry) (mine : List MergeEntry) (u : Nat) :
    (s.restk k f).mergeRoom old mine u = (s.mergeRoom old mine u).restk k f := by
  cases old with
  | some e => rfl
  | none =>
    cases mine with
    | nil => simp only [State.mergeRoom, ite_self]
    | cons e l => simp only [State.mergeRoom, State.restk_retire, restk_ite]

theorem State.restk_mergeInto (old : Option MergeEntry) (atom u a : Nat) (bs : List Byte) :
    (s.restk k f).mergeInto old atom u a bs = (s.mergeInto old atom u a bs).restk k f := by
  rw [State.mergeInto, State.mergeInto]
  extract_lets
  split <;> rfl

@[simp] theorem State.restk_mergePart (atom u a : Nat) (bs : List Byte) :
    (s.restk k f).mergePart atom u a bs = (s.mergePart atom u a bs).restk k f := by
  rw [State.mergePart_eq, State.mergePart_eq, State.restk_tiers, State.restk_mergeRoom, State.restk_mergeInto]

@[simp] theorem State.restk_writeTier (a : Nat) (bs : List Byte) :
    (s.restk k f).writeTier a bs = (s.writeTier a bs).restk k f := by
  simp only [State.writeTier, State.restk_atomsOf]
  refine restk_foldl (fun s b => ?_) _ _
  simp only [State.restk_unitAt, State.restk_logUnit, State.restk_unitFenced, State.restk_updChan, ← restk_ite]
  split
  · rfl
  · generalize (if s.unitAt b < 1024 then _ else _) = v
    simp only [State.restk_tiers, State.restk_withTiers, State.restk_putAtom, State.restk_mergePart, ← restk_ite]

@[simp] theorem State.restk_countPartial (t u a n : Nat) :
    (s.restk k f).countPartial t u a n = (s.countPartial t u a n).restk k f := by
  simp only [State.countPartial, State.restk_mem, State.restk_updQuay, restk_ite]
  rfl

theorem State.restk_withMem (m : Mem) :
    ({ s.restk k f with mem := m } : State) = ({ s with mem := m } : State).restk k f := rfl

theorem State.restk_writePlain_go (n a : Nat) (bs : List Byte) :
    State.writePlain.go n (s.restk k f) a bs = (State.writePlain.go n s a bs).restk k f := by
  induction n generalizing s a bs with
  | zero => rfl
  | succ n ih =>
    rw [State.writePlain.go, State.writePlain.go]
    split
    · rfl
    · simp only [State.restk_regionEnd, State.restk_region, State.restk_mem]
      rw [← ih]
      congr 1
      split
      · exact State.restk_writeTier _ _
      · exact State.restk_writeTier _ _
      · rw [State.restk_countPartial, State.restk_withMem]
      · rw [State.restk_countPartial, State.restk_withMem]
      · rfl

@[simp] theorem State.restk_writePlain (a : Nat) (bs : List Byte) :
    (s.restk k f).writePlain a bs = (s.writePlain a bs).restk k f := State.restk_writePlain_go _ _ _

@[simp] theorem State.restk_monitorWrite (m : PilMove) (a : Nat) (bs : List Byte) :
    (s.restk k f).monitorWrite m a bs = (s.monitorWrite m a bs).restk k f := by
  simp only [State.monitorWrite, State.restk_writePlain]
  split <;> rfl

@[simp] theorem State.restk_writeMem (a : Nat) (bs : List Byte) :
    (s.restk k f).writeMem a bs = (s.writeMem a bs).restk k f := by
  have hmon (l : List PilMove) (v : State) : l.foldl (fun s m => s.monitorWrite m a bs) (v.restk k f)
      = (l.foldl (fun s m => s.monitorWrite m a bs) v).restk k f :=
    restk_foldl (fun _ _ => State.restk_monitorWrite _ _ _) _ _
  simp only [State.writeMem, State.restk_touch, State.restk_pilot, State.restk_withPilot, State.restk_writePlain, hmon,
    restk_ite]

@[simp] theorem State.restk_nbuWrite (st n o : Nat) (bs : List Byte) :
    (s.restk k f).nbuWrite st n o bs = (s.nbuWrite st n o bs).restk k f :=
  restk_foldl (fun _ _ => State.restk_writeMem _ _) _ _

end

end Sys2Proof.Machine

/-! ### More frames -/

namespace Sys2Proof.Machine

set_option Elab.async false

section
variable {α β ε : Type} {ks : List Part} {o s : State}

theorem Keeps.nbuRead {stack nbu y3 n ks} (h : Keeps ks o s)
    (hk : [.mem, .quays, .tiers, .events, .trace, .log, .pilot, .agent] ⊆ ks := by decide) :
    Keeps ks o (s.nbuRead stack nbu y3 n).2 :=
  h.lift hk fun o h => by
  unfold State.nbuRead
  refine .foldl_snd (.asAgent h) fun _ _ h5 => ?_
  split
  · split
    · next e => exact Keeps.snd_of_eq (.load h5) e
    · next e => exact Keeps.snd_of_eq (.load h5) e
  · exact h5

theorem Keeps.pageRead {tenant stack a n ks} (h : Keeps ks o s)
    (hk : [.mem, .quays, .tiers, .events, .trace, .log, .pilot, .agent] ⊆ ks := by decide) :
    Keeps ks o (s.pageRead tenant stack a n).2 :=
  h.lift hk fun o h => by
  unfold State.pageRead
  split
  · next e => exact Keeps.snd_of_eq (.accessRecord h) e
  next e7 =>
    have he7 := Keeps.snd_of_eq (.accessRecord h) e7
    split
    · next e => exact Keeps.snd_of_eq (.load he7) e

end

end Sys2Proof.Machine

/-! Settles the statement about the row operations of a near-bank unit. -/

namespace Sys2Proof.Machine

set_option Elab.async false

section
variable {s u v : State} {c i d st opc : Nat} {ks : List Part} {fl : ArithFlags}

theorem stkAll_one_eq {α : Type} {f : α → State → StkOut} {x : α} (h : f x s = (u, .ok fl)) :
    stkAll f [x] s = (u, .ok fl) := by
  rw [stkAll, h]
  exact congrArg (fun x => (u, Except.ok x)) (BitVec.or_zero (x := fl))

/-- Counting the work of a descriptor changes the stacks alone. -/
theorem State.countWork_restk (hst : sdStacks d = [st]) : ∃ k, s.countWork c d = s.restk k s.free := by
  rw [State.countWork, hst]
  simp only [List.zipIdx_cons, List.zipIdx_nil, List.foldl_cons, List.foldl_nil]
  split <;> exact ⟨_, rfl⟩

/-- A descriptor that writes no vector buffer. -/
theorem State.gives_ran {run : Nat → Nat → State → StkOut} (h : s.runsDesc c i d opc = true) (hst : sdStacks d = [st])
    (hks : .stks ∈ ks) (hu : (s.countWork c d).Works ks c st u)
    (hrun : run d (s.chainTenant c) (s.countWork c d) = (u, .ok fl)) :
    ∃ v, s.runStack c i opc run = v ∧ v.mem = u.mem ∧ v.ranDesc c i fl = true
      ∧ OnlyAt s.stks.chains v.stks.chains c ∧ Keeps ks s v := by
  obtain ⟨x, w, r, hx, -, -, -, -, hr, -, hfail, -⟩ := State.runsDesc_iff.mp h
  have hsk : [Part.stks] ⊆ ks := by simpa using hks
  obtain ⟨hkeep, hchains, -, hwork⟩ := State.Works.trans ((State.countWork_works hst).mono hsk) hu
  have hrunning : (Table.find u.stks.chains c).map StackChain.running = some x.running := by
    have hsnd := congrArg (Option.map Prod.snd) hwork
    rw [hx, Option.map_map] at hsnd
    exact hsnd
  exact ⟨_, State.runStack_ok h hrun, rfl, State.ended_ranDesc hrunning hr hfail,
    hchains.trans State.onlyAt_updChain, .updChain hkeep hsk⟩

/-! ### One row in one near-bank unit -/

theorem State.runRow_init (hst : sdStacks d = [st]) (hcnt : sdNbuCnt d = 1) (hN : sdN d = 1) (hopc : sdOpc d = 2) :
    s.runRow d = (s.nbuWrite st (sdNbuFirst d) (sdOff d 2) (bytesOfNat 1024 (packElems 64
      (List.replicate 128 (sdAux d)))), .ok 0) := by
  have hrange : List.range 1 = [0] := rfl
  rw [State.runRow, hst, hcnt, hN, hrange]
  refine stkAll_one_eq (stkAll_one_eq (stkAll_one_eq ?_))
  simp only [hopc, if_true, Nat.mul_zero, Nat.add_zero]

theorem State.runRow_one {a : List Byte} (hst : sdStacks d = [st]) (hcnt : sdNbuCnt d = 1) (hN : sdN d = 1)
    (hopc : sdOpc d ≠ 2) (huse : sdUses d 1 = false)
    (ha : (s.nbuRead st (sdNbuFirst d) (sdOff d 0) 1024).1 = some a) :
    s.runRow d = ((s.nbuRead st (sdNbuFirst d) (sdOff d 0) 1024).2.nbuWrite st (sdNbuFirst d) (sdOff d 2)
      (bytesOfNat 1024 (rowOp d (natOfBytes a) 0)), .ok 0) := by
  have hrange : List.range 1 = [0] := rfl
  rw [State.runRow, hst, hcnt, hN, hrange]
  refine stkAll_one_eq (stkAll_one_eq (stkAll_one_eq ?_))
  generalize hx : s.nbuRead st (sdNbuFirst d) (sdOff d 0) 1024 = x at ha
  obtain ⟨o, v⟩ := x
  simp only at ha
  subst ha
  simp only [Nat.mul_zero, Nat.add_zero, hx, if_neg hopc, withBytes, huse]
  rfl

theorem State.runRow_two {a b : List Byte} (hst : sdStacks d = [st]) (hcnt : sdNbuCnt d = 1) (hN : sdN d = 1)
    (hopc : sdOpc d ≠ 2) (huse : sdUses d 1 = true)
    (ha : (s.nbuRead st (sdNbuFirst d) (sdOff d 0) 1024).1 = some a)
    (hb : ((s.nbuRead st (sdNbuFirst d) (sdOff d 0) 1024).2.nbuRead st (sdNbuFirst d) (sdOff d 1) 1024).1 = some b) :
    s.runRow d = (((s.nbuRead st (sdNbuFirst d) (sdOff d 0) 1024).2.nbuRead st (sdNbuFirst d) (sdOff d 1)
      1024).2.nbuWrite st (sdNbuFirst d) (sdOff d 2) (bytesOfNat 1024 (rowOp d (natOfBytes a) (natOfBytes b))), .ok 0) := by
  have hrange : List.range 1 = [0] := rfl
  rw [State.runRow, hst, hcnt, hN, hrange]
  refine stkAll_one_eq (stkAll_one_eq (stkAll_one_eq ?_))
  generalize hx : s.nbuRead st (sdNbuFirst d) (sdOff d 0) 1024 = x at ha hb
  obtain ⟨o, v⟩ := x
  simp only at ha hb ⊢
  subst ha
  generalize hy : v.nbuRead st (sdNbuFirst d) (sdOff d 1) 1024 = y at hb
  obtain ⟨o, w⟩ := y
  simp only at hb
  subst hb
  simp only [Nat.mul_zero, Nat.add_zero, hx, hy, if_neg hopc, withBytes, huse, if_true]

theorem sdNbu_of_row (h1 : 1 ≤ sdOpc d) (h6 : sdOpc d ≤ 6) : sdNbu d = true := by simp [sdNbu, sdIsRow, h1, h6]

/-- What a row operation leaves of the stacks. -/
theorem State.row_works (hst : sdStacks d = [st]) {f : State → State}
    (hf : ∀ (s : State) (k : Stacks) (n : Nat), f (s.restk k n) = (f s).restk k n)
    (hk : Keeps [.mem, .quays, .tiers, .events, .trace, .log, .fab, .pilot, .agent] (s.countWork c d)
      (f (s.countWork c d))) :
    (s.countWork c d).Works [.mem, .quays, .tiers, .events, .trace, .log, .fab, .pilot, .stks, .agent] c st
      (f (s.countWork c d)) ∧ (f (s.countWork c d)).mem = (f s).mem := by
  obtain ⟨k, hs⟩ := State.countWork_restk (s := s) (c := c) hst
  refine ⟨.mono (.of_keeps hk ?_) (by decide), ?_⟩
  · rw [hs, hf]
    rfl
  · rw [hs, hf]
    rfl

/-- One row read, and the row `g` makes of it written. -/
def State.rowWritten (s : State) (d st : Nat) (v : Nat) : State :=
  (s.nbuRead st (sdNbuFirst d) (sdOff d 0) 1024).2.nbuWrite st (sdNbuFirst d) (sdOff d 2) (bytesOfNat 1024 v)

/-- Two rows read, and the row made of them written. -/
def State.rowsWritten (s : State) (d st : Nat) (v : Nat) : State :=
  ((s.nbuRead st (sdNbuFirst d) (sdOff d 0) 1024).2.nbuRead st (sdNbuFirst d) (sdOff d 1) 1024).2.nbuWrite st
    (sdNbuFirst d) (sdOff d 2) (bytesOfNat 1024 v)

theorem State.restk_rowWritten (w : Nat) (s : State) (k : Stacks) (n : Nat) :
    (s.restk k n).rowWritten d st w = (s.rowWritten d st w).restk k n := by
  simp only [State.rowWritten, State.restk_nbuRead, State.restk_nbuWrite]

theorem State.restk_rowsWritten (w : Nat) (s : State) (k : Stacks) (n : Nat) :
    (s.restk k n).rowsWritten d st w = (s.rowsWritten d st w).restk k n := by
  simp only [State.rowsWritten, State.restk_nbuRead, State.restk_nbuWrite]

/-- The statement about one row, from what the run of the operation leaves. -/
theorem State.gives_row {f : State → State} (h : s.runsDesc c i d opc = true) (hst : sdStacks d = [st])
    (hf : ∀ (s : State) (k : Stacks) (n : Nat), f (s.restk k n) = (f s).restk k n)
    (hk : Keeps [.mem, .quays, .tiers, .events, .trace, .log, .fab, .pilot, .agent] (s.countWork c d)
      (f (s.countWork c d)))
    (hrun : (s.countWork c d).runRow d = (f (s.countWork c d), .ok 0)) :
    ∃ u, s.runStack c i opc (fun d _ s => s.runRow d) = u ∧ u.mem = (f s).mem ∧ u.ranDesc c i 0 = true
      ∧ OnlyAt s.stks.chains u.stks.chains c
      ∧ Keeps [.mem, .quays, .tiers, .events, .trace, .log, .fab, .pilot, .stks, .agent] s u := by
  obtain ⟨hworks, hmem⟩ := State.row_works hst hf hk
  obtain ⟨v, hv, hvm, hran, hchains, hkeep⟩ := State.gives_ran (run := fun d _ s => s.runRow d) h hst (by decide) hworks
    hrun
  exact ⟨v, hv, hvm.trans hmem, hran, hchains, hkeep⟩

theorem rowOp1_of {cmd : Nat → Nat → Instr} {f : Nat → Nat}
    (hcmd : ∀ c i s, exec (cmd c i) s = .next (s.runStack c i opc (fun d _ s => s.runRow d)))
    (hopc : opc = 1 ∨ opc = 6) (hf : ∀ d a, sdOpc d = opc → rowOp d a 0 = f a) : RowOp1 cmd opc f := by
  intro s c i d st a h hp hst hcnt hN ha
  have hd := State.runsDesc_opc h
  have huse : sdUses d 1 = false := by
    rw [sdUses, hp, sdNbu_of_row (by omega) (by omega)]
    obtain h | h : sdOpc d = 1 ∨ sdOpc d = 6 := by omega
    all_goals simp [h]
  obtain ⟨k, hs⟩ := State.countWork_restk (s := s) (c := c) hst
  have ha' : ((s.countWork c d).nbuRead st (sdNbuFirst d) (sdOff d 0) 1024).1 = some a := by
    rw [hs, State.restk_nbuRead]
    exact ha
  obtain ⟨u, hu, hmem, hrest⟩ := State.gives_row (f := fun s => s.rowWritten d st (f (natOfBytes a))) h hst
    (State.restk_rowWritten _) (.nbuWrite (.nbuRead (.refl _)))
    (by rw [State.runRow_one hst hcnt hN (by omega) huse ha', hf d _ hd]; rfl)
  exact ⟨u, (hcmd c i s).trans (congrArg _ hu), hmem, hrest⟩

theorem rowOp2_of {cmd : Nat → Nat → Instr} {f : Nat → Nat → Nat}
    (hcmd : ∀ c i s, exec (cmd c i) s = .next (s.runStack c i opc (fun d _ s => s.runRow d)))
    (hopc : opc = 3 ∨ opc = 4 ∨ opc = 5) (hf : ∀ d a b, sdOpc d = opc → rowOp d a b = f a b) : RowOp2 cmd opc f := by
  intro s c i d st a b h hp hst hcnt hN ha hb
  have hd := State.runsDesc_opc h
  have huse : sdUses d 1 = true := by
    rw [sdUses, hp, sdNbu_of_row (by omega) (by omega)]
    obtain h | h | h : sdOpc d = 3 ∨ sdOpc d = 4 ∨ sdOpc d = 5 := by omega
    all_goals simp [h]
  obtain ⟨k, hs⟩ := State.countWork_restk (s := s) (c := c) hst
  have ha' : ((s.countWork c d).nbuRead st (sdNbuFirst d) (sdOff d 0) 1024).1 = some a := by
    rw [hs, State.restk_nbuRead]
    exact ha
  have hb' : (((s.countWork c d).nbuRead st (sdNbuFirst d) (sdOff d 0) 1024).2.nbuRead st (sdNbuFirst d) (sdOff d 1)
      1024).1 = some b := by
    rw [hs, State.restk_nbuRead, State.restk_nbuRead]
    exact hb
  obtain ⟨u, hu, hmem, hrest⟩ := State.gives_row (f := fun s => s.rowsWritten d st (f (natOfBytes a) (natOfBytes b))) h
    hst (State.restk_rowsWritten _) (.nbuWrite (.nbuRead (.nbuRead (.refl _))))
    (by rw [State.runRow_two hst hcnt hN (by omega) huse ha' hb', hf d _ _ hd]; rfl)
  exact ⟨u, (hcmd c i s).trans (congrArg _ hu), hmem, hrest⟩

theorem gives_rowinit (h : s.runsDesc c i d 2 = true) (hst : sdStacks d = [st]) (hcnt : sdNbuCnt d = 1)
    (hN : sdN d = 1) :
    Gives (.rowinit c i) s (fun u => u.mem = (s.nbuWrite st (sdNbuFirst d) (sdOff d 2) (bytesOfNat 1024
        (packElems 64 (List.replicate 128 (sdAux d))))).mem
      ∧ u.ranDesc c i 0 = true ∧ OnlyAt s.stks.chains u.stks.chains c
      ∧ Keeps [.mem, .quays, .tiers, .events, .trace, .log, .fab, .pilot, .stks, .agent] s u) := by
  obtain ⟨u, hu, hrest⟩ := State.gives_row (f := fun s => s.nbuWrite st (sdNbuFirst d) (sdOff d 2)
    (bytesOfNat 1024 (packElems 64 (List.replicate 128 (sdAux d))))) h hst (fun _ _ _ => State.restk_nbuWrite _ _ _ _)
    (.nbuWrite (.refl _)) (State.runRow_init hst hcnt hN (State.runsDesc_opc h))
  exact ⟨u, congrArg Host.Outcome.next hu, hrest⟩

end

/-- Settles O28. -/
theorem rowOperations : Obligations.RowOperations := by
  refine ⟨rowOp1_of (fun _ _ _ => rfl) (by decide) fun d a h => ?_,
    rowOp1_of (fun _ _ _ => rfl) (by decide) fun d a h => ?_,
    rowOp2_of (fun _ _ _ => rfl) (by decide) fun d a b h => ?_,
    rowOp2_of (fun _ _ _ => rfl) (by decide) fun d a b h => ?_,
    rowOp2_of (fun _ _ _ => rfl) (by decide) fun d a b h => ?_,
    fun _ _ _ _ _ h hst hcnt hN => gives_rowinit h hst hcnt hN⟩
  all_goals simp only [rowOp, h]

end Sys2Proof.Machine

/-! Settles the statement about GEMV, GEMVT and TOPK of a stack. -/

namespace Sys2Proof.Machine

set_option Elab.async false

theorem Keeps.stks_eq {ks : List Part} {s u : State} (h : Keeps ks s u) (hk : .stks ∉ ks) : u.stks = s.stks := by
  obtain ⟨-, -, -, -, -, -, -, -, -, -, -, -, -, -, -, -, -, -, -, -, -, h, -⟩ := h
  exact h.resolve_left hk

section
variable {s u v : State} {c i d st ox oo : Nat} {xs ws lst : List Byte}

/-! ### Reads by a state whose stacks and free bytes are others -/

/-- The same state but for the stacks and the count of free bytes. -/
def State.Restked (s u : State) : Prop := ∃ k n, u = s.restk k n

theorem State.Restked.countWork (hst : sdStacks d = [st]) : s.Restked (s.countWork c d) := by
  obtain ⟨k, h⟩ := State.countWork_restk (s := s) (c := c) hst
  exact ⟨k, _, h⟩

theorem State.Restked.freshBytes (h : s.Restked u) (n : Nat) : s.Restked (u.freshBytes n).2 := by
  obtain ⟨k, m, rfl⟩ := h
  exact ⟨k, m + n, rfl⟩

theorem State.Restked.nbuRead (h : s.Restked u) {n o l : Nat} (hw : (s.nbuRead st n o l).1 = some ws) :
    u.nbuRead st n o l = (some ws, (u.nbuRead st n o l).2) := by
  obtain ⟨k, m, rfl⟩ := h
  rw [State.restk_nbuRead, hw]

/-- The list of pages, read. -/
theorem State.Restked.load (h : s.Restked u) {a n : Nat} (hw : ((s.asAgent 3 st a).load a n).1 = some ws) :
    ∃ v, ((s.asAgent 3 st a).load a n).2.Restked v ∧ (u.asAgent 3 st a).load a n = (some ws, v)
      ∧ Keeps [.mem, .quays, .tiers, .events, .trace, .log, .pilot, .agent] u v := by
  refine ⟨((u.asAgent 3 st a).load a n).2, ?_, ?_, .load (.asAgent (.refl u))⟩ <;> obtain ⟨k, m, rfl⟩ := h
  · exact ⟨k, m, by rw [State.restk_asAgent, State.restk_load]⟩
  · rw [State.restk_asAgent, State.restk_load, hw]

theorem State.Restked.inBankGroup (h : s.Restked u) (l : List (Nat × Nat)) :
    u.inBankGroup st l = s.inBankGroup st l := by
  obtain ⟨k, m, rfl⟩ := h
  exact State.restk_inBankGroup st l

theorem State.Restked.pageRead (h : s.Restked u) {t a n : Nat} (hw : s.pageRead t st a n = ((none, some ws), v)) :
    ∃ w, u.pageRead t st a n = ((none, some ws), w)
      ∧ Keeps [.mem, .quays, .tiers, .events, .trace, .log, .pilot, .agent] u w := by
  refine ⟨(u.pageRead t st a n).2, ?_, .pageRead (.refl u)⟩
  obtain ⟨k, m, rfl⟩ := h
  rw [State.restk_pageRead, hw]

/-! ### The output of a matrix operation -/

theorem bit63_of_vbOff {a o : Nat} (h : vbOff a = some o) : bit a 63 = true := by
  refine Classical.byContradiction fun hb => ?_
  rw [vbOff, if_neg hb] at h
  cases h

theorem StkOut.leaves_then {o : StkOut} {f : State → StkOut} (h : o.leaves v) (hf : (f v).leaves u) :
    (o.then_ f).leaves u := by
  obtain ⟨fl, rfl⟩ := h
  obtain ⟨fl', hf⟩ := hf
  exact ⟨fl ||| fl', by rw [StkOut.then_, hf]⟩

theorem stkOk_leaves {fl : ArithFlags} : (stkOk s fl).leaves s := ⟨fl, rfl⟩

theorem byteField_zero (o n : Nat) : byteField 0 o n = 0 := by simp [byteField, bits]

/-- No block has a scale. -/
def noScale : BlockScale := { mode := 0, e := 0, s2 := 0 }

/-- The sum of the one group of a row. -/
def gemvSum (d x w : Nat) : BitVec 32 :=
  (accumulate ((pairKind (sdWType d) (sdXType d) 0 0).getD .block) 0 ((List.range (sdK d)).map (fun k =>
    (xElem d x 0 k, elemValue (sdWType d) 0 (packedElem w (typeBits (sdWType d)) k)))) noScale noScale).1

theorem gemvPart_one {x w : Nat} (hwm : sdWMode d = 0) (hxm : sdXMode d = 0) (hk : sdK d ≤ 32) :
    (gemvPart d x 0 0 w 0 0 0 1 0).1 = gemvSum d x w := by
  have hrange : List.range (1 - 0) = [0] := rfl
  simp only [gemvPart, hrange, List.foldl_cons, List.foldl_nil, hwm, hxm, Nat.mul_zero, Nat.sub_zero,
    Nat.min_eq_right hk, Nat.zero_add, xScale, byteField_zero, gemvSum, noScale]

/-- The row in the near-bank memory, read and summed. -/
theorem State.gemvRow_leaves {x t r : Nat} {f : List (BitVec 32) → ArithFlags → State → StkOut} (hb : sdB d = 1)
    (hwm : sdWMode d = 0) (hxm : sdXMode d = 0) (hk0 : 0 < sdK d) (hk : sdK d ≤ 32) (hks : sdKsplit d = 1)
    (hac : sdAccIn d = false)
    (hw : s.nbuRead st (sdNbuFirst d) (sdOff d 0) ((sdK d * typeBits (sdWType d) + 7) / 8) = (some ws, v))
    (hf : ∀ fl, (f [gemvSum d x (natOfBytes ws)] fl v).leaves u) :
    (s.gemvRow t d st 0 x 0 0 r none f).leaves u := by
  have hrange : List.range 1 = [0] := rfl
  have hg : (sdK d + 31) / 32 = 1 := by omega
  have hmin : min 32 (sdK d) = sdK d := Nat.min_eq_right hk
  simp only [State.gemvRow, hb, hks, hac, hg, hrange, Nat.max_self]
  simp only [State.gemvRow.parts, State.gemvWeights, Nat.zero_mul, Nat.zero_add, Nat.zero_div, Nat.zero_mod,
    Nat.mul_one, Nat.div_one, hmin, Nat.mul_zero, Nat.sub_zero, Nat.add_zero, hw, withBytes, hwm, if_true,
    List.map_cons, List.map_nil, Bool.false_eq_true, if_false, List.getElem?_cons_zero, Option.getD_some,
    gemvPart_one hwm hxm hk]
  exact hf _

/-! ### GEMV -/

/-- What changes while a matrix operation reads its operands. -/
abbrev matrixParts : List Part := [.free, .mem, .quays, .tiers, .events, .trace, .log, .fab, .pilot, .stks, .agent]

theorem State.runGemv_row (hn : sdPaged d = false) (hst : sdStacks d = [st]) (hb : sdB d = 1) (hwm : sdWMode d = 0)
    (hxm : sdXMode d = 0) (hd : sdDest d = 0) (hom : sdOutMode d = 0) (hox : vbOff (sdXAddr d) = some ox)
    (hoo : vbOff (sdOut d) = some oo) (hN : sdN d = 1) (hk0 : 0 < sdK d) (hk : sdK d ≤ 32) (hks : sdKsplit d = 1)
    (hac : sdAccIn d = false) (hopc : sdOpc d = 0x10) {t : Nat}
    (hx : s.vbBytes c st ox ((sdK d * typeBits (sdXType d) + 7) / 8) = some xs)
    (hw : ((s.freshBytes ((sdK d * typeBits (sdXType d) + 7) / 8)).2.nbuRead st (sdNbuFirst d) (sdOff d 0)
      ((sdK d * typeBits (sdWType d) + 7) / 8)) = (some ws, v)) :
    (s.runGemv c d t).leaves (v.wrote c st oo (storedBytes d
      [(sdScale d (sdInt d) (gemvSum d (natOfBytes xs) (natOfBytes ws))).1])) := by
  have hrows : sdLocalRows d 0 = 1 := by simp [sdLocalRows, sdL, hopc, hst, hN]
  have hrange : List.range 1 = [0] := rfl
  obtain ⟨fl, hout⟩ := State.stkOutput_buffer (s := v) (c := c) (st := st) (per := sdN d)
    (vs := [(sdScale d (sdInt d) (gemvSum d (natOfBytes xs) (natOfBytes ws))).1]) hd hom hoo
  rw [State.runGemv, hst]
  simp only [hd, Nat.reduceEqDiff, if_false, List.zipIdx_cons, List.zipIdx_nil]
  refine stkAll_one ?_
  simp only [State.gemvStack, hrows, hb, State.withX_buffer hxm hox hx, hac, hn, Bool.false_eq_true, if_false,
    State.gemvStack.go]
  refine State.gemvRow_leaves hb hwm hxm hk0 hk hks hac hw fun fl' => ?_
  refine StkOut.leaves_then stkOk_leaves ?_
  simp only [State.gemvOutput, hb, hrange, List.nil_append, List.map_cons, List.map_nil]
  refine stkAll_one ?_
  simp only [List.getElem?_cons_zero, Option.getD_some, hout]
  exact ⟨_, rfl⟩

/-- A GEMV of one row of at most one group. -/
theorem gives_gemv (h : s.runsDesc c i d 0x10 = true) (hn : sdPaged d = false) (hst : sdStacks d = [st])
    (hb : sdB d = 1) (hwm : sdWMode d = 0)
    (hxm : sdXMode d = 0) (hd : sdDest d = 0) (hom : sdOutMode d = 0) (hox : vbOff (sdXAddr d) = some ox)
    (hoo : vbOff (sdOut d) = some oo) (hN : sdN d = 1) (hk0 : 0 < sdK d) (hk : sdK d ≤ 32) (hks : sdKsplit d = 1)
    (hac : sdAccIn d = false)
    (hx : s.vbBytes c st ox ((sdK d * typeBits (sdXType d) + 7) / 8) = some xs)
    (hw : (s.nbuRead st (sdNbuFirst d) (sdOff d 0) ((sdK d * typeBits (sdWType d) + 7) / 8)).1 = some ws) :
    Gives (.gemv c i) s (fun u => u.vbBytes c st oo (storedBytes d
        [(sdScale d (sdInt d) (gemvSum d (natOfBytes xs) (natOfBytes ws))).1]).length = some (storedBytes d
        [(sdScale d (sdInt d) (gemvSum d (natOfBytes xs) (natOfBytes ws))).1])
      ∧ OnlyAt s.stks.chains u.stks.chains c ∧ OnlyAt s.stks.units u.stks.units st ∧ Keeps matrixParts s u) := by
  have hfresh := (State.Restked.countWork (s := s) (c := c) hst).freshBytes ((sdK d * typeBits (sdXType d) + 7) / 8)
  have hx' := ((State.countWork_works (s := s) (c := c) hst).vbBytes_eq st ox _).trans hx
  have hrun := State.runGemv_row (t := s.chainTenant c) hn hst hb hwm hxm hd hom hox hoo hN hk0 hk hks hac
    (State.runsDesc_opc h) hx' (hfresh.nbuRead hw)
  have hkeep := Keeps.nbuRead (ks := [.mem, .quays, .tiers, .events, .trace, .log, .pilot, .agent]) (stack := st)
    (nbu := sdNbuFirst d) (y3 := sdOff d 0) (n := (sdK d * typeBits (sdWType d) + 7) / 8)
    (.refl ((s.countWork c d).freshBytes ((sdK d * typeBits (sdXType d) + 7) / 8)).2)
  obtain ⟨v, hv, hself, -, -, -, hchains, hunits, hkeep⟩ :=
    State.gives_wrote (run := fun d tn s => s.runGemv c d tn) (ks := matrixParts) h hst (by decide)
      (.trans (.mono State.freshBytes_works (by decide)) (.mono (.of_keeps hkeep (hkeep.stks_eq (by decide))) (by decide))) hrun
  exact ⟨v, congrArg _ hv, hself, hchains, hunits, hkeep⟩

/-! ### GEMVT -/

/-- What one page row adds to one output. -/
def gemvtTerm (d x w k : Nat) : BitVec 32 :=
  (toFp32 (blockTerm [(xElem d x 0 0, scaledValue (sdWType d) 0 (packedElem w (typeBits (sdWType d)) k) 0 0)]
    noScale noScale).1).1

/-- The page of one row, read. -/
theorem State.gemvtPage_leaves {x t p : Nat} {f : List (List (BitVec 32)) → ArithFlags → State → StkOut} (hb : sdB d = 1)
    (hwm : sdWMode d = 0) (hxm : sdXMode d = 0) (hk : sdK d = 1)
    (hbank : s.inBankGroup st (pageRows d 1 ((sdN d * typeBits (sdWType d) + 7) / 8) 0 (p, 0)) = true)
    (hw : s.pageRead t st p ((sdN d * typeBits (sdWType d) + 7) / 8) = ((none, some ws), v))
    (hf : ∀ fl, (f [(List.range (sdN d)).map (gemvtTerm d x (natOfBytes ws))] fl v).leaves u) :
    (s.gemvtPage t d st 0 x 0 (p, 0) f).leaves u := by
  have hrange : List.range 1 = [0] := rfl
  have hmin : min 32 (1 - 32 * 0) = 1 := rfl
  simp only [State.gemvtPage, hb, hwm, hk, hmin, if_true, hbank, Bool.not_true, Bool.false_eq_true, if_false,
    State.gemvtPage.rows, State.withPage, Nat.zero_mul, Nat.add_zero, hw, withBytes, hrange]
  refine (congrArg (fun vals => (f vals _ v).leaves u) ?_).mpr (hf _)
  simp [gemvtTerm, hxm, xScale, byteField_zero, noScale]

/-- What GEMVT of one page row gives one output. -/
def gemvtOut (d x w k : Nat) : FV := (sdScale d false (fpAdd 0 (gemvtTerm d x w k)).1).1

theorem State.runGemvt_row {t p : Nat} {y w : State} (hst : sdStacks d = [st]) (hb : sdB d = 1) (hwm : sdWMode d = 0)
    (hxm : sdXMode d = 0) (hd : sdDest d = 0) (hom : sdOutMode d = 0) (hox : vbOff (sdXAddr d) = some ox)
    (hoo : vbOff (sdOut d) = some oo) (hk : sdK d = 1)
    (hx : s.vbBytes c st ox ((sdK d * typeBits (sdXType d) + 7) / 8) = some xs)
    (hl : ((s.freshBytes ((sdK d * typeBits (sdXType d) + 7) / 8)).2.asAgent 3 st (sdPageAddr d)).load (sdPageAddr d) 16
      = (some lst, y)) (hp : pageOf (natOfBytes lst) 0 = some (p, 0))
    (hbank : y.inBankGroup st (pageRows d 1 ((sdN d * typeBits (sdWType d) + 7) / 8) 0 (p, 0)) = true)
    (hw : y.pageRead t st p ((sdN d * typeBits (sdWType d) + 7) / 8) = ((none, some ws), w)) :
    (s.runGemvt c d t).leaves (w.wrote c st oo
      (storedBytes d ((List.range (sdN d)).map (gemvtOut d (natOfBytes xs) (natOfBytes ws))))) := by
  have hrange : List.range 1 = [0] := rfl
  obtain ⟨fl, hout⟩ := State.stkOutput_buffer (s := w) (c := c) (st := st) (per := sdN d)
    (vs := (List.range (sdN d)).map (gemvtOut d (natOfBytes xs) (natOfBytes ws))) hd hom hoo
  have hnp : (sdK d + 31) / 32 = 1 := by omega
  rw [State.runGemvt, hst]
  simp only [List.zipIdx_cons, List.zipIdx_nil]
  refine stkAll_one ?_
  simp only [hb, hnp, State.withX_buffer hxm hox hx, State.withList, Nat.mul_one, hl, withBytes, State.runGemvt.go, hp]
  refine State.gemvtPage_leaves hb hwm hxm hk hbank hw fun fl' => ?_
  refine StkOut.leaves_then stkOk_leaves ?_
  simp only [hrange]
  refine stkAll_one ?_
  have hsum : List.zipWith (fun y z => fpAdd y z) (List.replicate (sdN d) 0)
      ((List.range (sdN d)).map (gemvtTerm d (natOfBytes xs) (natOfBytes ws)))
      = (List.range (sdN d)).map (fun k => fpAdd 0 (gemvtTerm d (natOfBytes xs) (natOfBytes ws) k)) := by
    apply List.ext_getElem <;> simp
  simp only [List.replicate_one, List.zipWith_cons_cons, List.zipWith_nil_left, hsum, List.map_cons, List.map_nil,
    List.getElem?_cons_zero, Option.getD_some, List.map_map, Function.comp_def]
  rw [show (fun k => (sdScale d false (fpAdd 0 (gemvtTerm d (natOfBytes xs) (natOfBytes ws) k)).1).1)
    = gemvtOut d (natOfBytes xs) (natOfBytes ws) from rfl, hout]
  exact ⟨_, rfl⟩

/-- A GEMVT of one page row. -/
theorem gives_gemvt {p : Nat} {y w : State} (h : s.runsDesc c i d 0x11 = true) (hst : sdStacks d = [st]) (hb : sdB d = 1)
    (hwm : sdWMode d = 0) (hxm : sdXMode d = 0) (hd : sdDest d = 0) (hom : sdOutMode d = 0)
    (hox : vbOff (sdXAddr d) = some ox) (hoo : vbOff (sdOut d) = some oo) (hk : sdK d = 1)
    (hx : s.vbBytes c st ox ((sdK d * typeBits (sdXType d) + 7) / 8) = some xs)
    (hl : (s.asAgent 3 st (sdPageAddr d)).load (sdPageAddr d) 16 = (some lst, y))
    (hp : pageOf (natOfBytes lst) 0 = some (p, 0))
    (hbank : y.inBankGroup st (pageRows d 1 ((sdN d * typeBits (sdWType d) + 7) / 8) 0 (p, 0)) = true)
    (hw : y.pageRead (s.chainTenant c) st p ((sdN d * typeBits (sdWType d) + 7) / 8) = ((none, some ws), w)) :
    Gives (.gemvt c i) s (fun u => u.vbBytes c st oo (storedBytes d ((List.range (sdN d)).map
          (gemvtOut d (natOfBytes xs) (natOfBytes ws)))).length
        = some (storedBytes d ((List.range (sdN d)).map (gemvtOut d (natOfBytes xs) (natOfBytes ws))))
      ∧ OnlyAt s.stks.chains u.stks.chains c ∧ OnlyAt s.stks.units u.stks.units st ∧ Keeps matrixParts s u) := by
  have hfresh := (State.Restked.countWork (s := s) (c := c) hst).freshBytes ((sdK d * typeBits (sdXType d) + 7) / 8)
  have hx' := ((State.countWork_works (s := s) (c := c) hst).vbBytes_eq st ox _).trans hx
  obtain ⟨y', hy, hl', hky⟩ := hfresh.load (by rw [hl])
  rw [hl] at hy
  obtain ⟨w', hw', hkw⟩ := hy.pageRead hw
  have hrun := State.runGemvt_row hst hb hwm hxm hd hom hox hoo hk hx' hl' hp ((hy.inBankGroup _).trans hbank) hw'
  have hkeep := hky.trans hkw
  obtain ⟨v, hv, hself, -, -, -, hchains, hunits, hkeep⟩ :=
    State.gives_wrote (run := fun d tn s => s.runGemvt c d tn) (ks := matrixParts) h hst (by decide)
      (.trans (.mono State.freshBytes_works (by decide)) (.mono (.of_keeps hkeep (hkeep.stks_eq (by decide))) (by decide))) hrun
  exact ⟨v, congrArg _ hv, hself, hchains, hunits, hkeep⟩

/-! ### TOPK -/

/-- The index and the score of the one page. -/
def topkBytes (d x w : Nat) : List Byte := bytesOfNat 4 0 ++ bytesOfNat 4 (topkScore d x 0 0 w).1.toNat

theorem State.runTopk_page {t p q : Nat} {y w : State} (hst : sdStacks d = [st]) (hb : sdB d = 1)
    (hxm : sdXMode d = 0) (hox : vbOff (sdXAddr d) = some ox) (hoo : vbOff (sdOut d) = some oo) (hN : sdN d = 1)
    (hparam : sdParam d = 1) (hx : s.vbBytes c st ox ((sdK d * typeBits (sdXType d) + 7) / 8) = some xs)
    (hl : ((s.freshBytes ((sdK d * typeBits (sdXType d) + 7) / 8)).2.asAgent 3 st (sdPageAddr d)).load (sdPageAddr d) 16
      = (some lst, y)) (hp : pageOf (natOfBytes lst) 0 = some (p, q))
    (hbank : y.inBankGroup st [(p, 2 * sdK d * typeBits (sdWType d) / 8)] = true)
    (hw : y.pageRead t st p (2 * sdK d * typeBits (sdWType d) / 8) = ((none, some ws), w))
    (hnan : fvIsNan (ofFp32 (topkScore d (natOfBytes xs) 0 0 (natOfBytes ws)).1) = false) :
    (s.runTopk c d t).leaves (w.wrote c st oo (topkBytes d (natOfBytes xs) (natOfBytes ws))) := by
  have hrange : List.range 1 = [0] := rfl
  rw [State.runTopk, hst]
  simp only [List.zipIdx_cons, List.zipIdx_nil]
  refine stkAll_one ?_
  simp only [hb, hN, State.withX_buffer hxm hox hx, State.withList, Nat.mul_one, hl, withBytes, State.runTopk.go, hp,
    hbank, Bool.not_true, Bool.false_eq_true, if_false, State.withPage, hw, hparam, hrange]
  refine StkOut.leaves_then (stkAll_one ?_) ⟨_, rfl⟩
  simp only [List.replicate_one, List.map_cons, List.map_nil, List.zipWith_cons_cons, List.zipWith_nil_left, hnan,
    Bool.false_eq_true, if_false, topkInsert, List.getElem?_cons_zero, Option.getD_some, List.take_succ_cons,
    List.flatMap_cons, List.flatMap_nil, List.append_nil, Nat.mul_zero, State.stkWrite_buffer hoo, Nat.add_zero]
  exact ⟨_, rfl⟩

theorem gives_topk {p q : Nat} {y w : State} (h : s.runsDesc c i d 0x28 = true) (hst : sdStacks d = [st]) (hb : sdB d = 1)
    (hxm : sdXMode d = 0) (hox : vbOff (sdXAddr d) = some ox) (hoo : vbOff (sdOut d) = some oo) (hN : sdN d = 1)
    (hparam : sdParam d = 1) (hx : s.vbBytes c st ox ((sdK d * typeBits (sdXType d) + 7) / 8) = some xs)
    (hl : (s.asAgent 3 st (sdPageAddr d)).load (sdPageAddr d) 16 = (some lst, y))
    (hp : pageOf (natOfBytes lst) 0 = some (p, q))
    (hbank : y.inBankGroup st [(p, 2 * sdK d * typeBits (sdWType d) / 8)] = true)
    (hw : y.pageRead (s.chainTenant c) st p (2 * sdK d * typeBits (sdWType d) / 8) = ((none, some ws), w))
    (hnan : fvIsNan (ofFp32 (topkScore d (natOfBytes xs) 0 0 (natOfBytes ws)).1) = false) :
    Gives (.topk c i) s (fun u => u.vbBytes c st oo 8 = some (topkBytes d (natOfBytes xs) (natOfBytes ws))
      ∧ OnlyAt s.stks.chains u.stks.chains c ∧ OnlyAt s.stks.units u.stks.units st ∧ Keeps matrixParts s u) := by
  have hfresh := (State.Restked.countWork (s := s) (c := c) hst).freshBytes ((sdK d * typeBits (sdXType d) + 7) / 8)
  have hx' := ((State.countWork_works (s := s) (c := c) hst).vbBytes_eq st ox _).trans hx
  obtain ⟨y', hy, hl', hky⟩ := hfresh.load (by rw [hl])
  rw [hl] at hy
  obtain ⟨w', hw', hkw⟩ := hy.pageRead hw
  have hrun := State.runTopk_page hst hb hxm hox hoo hN hparam hx' hl' hp ((hy.inBankGroup _).trans hbank) hw' hnan
  have hkeep := hky.trans hkw
  obtain ⟨v, hv, hself, -, -, -, hchains, hunits, hkeep⟩ :=
    State.gives_wrote (run := fun d tn s => s.runTopk c d tn) (ks := matrixParts) h hst (by decide)
      (.trans (.mono State.freshBytes_works (by decide)) (.mono (.of_keeps hkeep (hkeep.stks_eq (by decide))) (by decide))) hrun
  exact ⟨v, congrArg _ hv, by simpa [topkBytes, bytesOfNat_length] using hself, hchains, hunits, hkeep⟩

end

/-- Settles O29. -/
theorem stackMatrix : Obligations.StackMatrix := by
  refine ⟨?_, ?_, ?_⟩
  · intro s c i d st ox oo xs ws h hn hst hb hwm hxm hd hom hox hoo hN hk0 hk hks hac hx hw
    have hres := gives_gemv h hn hst hb hwm hxm hd hom hox hoo hN hk0 hk hks hac hx hw
    simpa only [storedBytes, bytesOfNat_length, List.length_singleton, Nat.one_mul, List.map_cons, List.map_nil,
      gemvSum, noScale] using hres
  · intro s v c i d st ox oo p xs lst ws h hn hst hb hwm hxm hd hom hox hoo hk hlog hx hl hp hbank hw
    have hres := gives_gemvt h hst hb hwm hxm hd hom hox hoo hk (by rw [hk, Nat.one_mul]; exact hx)
      (Prod.ext hl rfl) hp hbank hw
    simpa only [storedBytes, bytesOfNat_length, List.length_map, List.length_range, List.map_map, Function.comp_def, gemvtOut, gemvtTerm,
      noScale] using hres
  · intro s v c i d st ox oo p q xs lst ws h hst hb hxm hox hoo hN hparam hlog hx hl hp hbank hw hnan
    exact gives_topk h hst hb hxm hox hoo hN hparam hx (Prod.ext hl rfl) hp hbank hw hnan

end Sys2Proof.Machine

/-! What an operation of a stack may change: memory, its accounts, its stacks and its own chain. -/

namespace Sys2Proof.Machine

set_option Elab.async false

/-- The parts of the state an operation of a stack may change. -/
abbrev stackParts : List Part := [.free, .mem, .quays, .tiers, .events, .trace, .log, .fab, .pilot, .stks, .agent]

/-- From `o` to `s` only chain `c` and those parts have changed. -/
def State.InChain (c : Nat) (o s : State) : Prop := OnlyAt o.stks.chains s.stks.chains c ∧ Keeps stackParts o s

section
variable {α : Type} {o s u : State} {c : Nat}

theorem State.InChain.refl : s.InChain c s := ⟨.refl, .refl s⟩

/-- What leaves the stacks alone stays in the chain. -/
theorem State.InChain.keep (h : o.InChain c s)
    (hk : Keeps [.free, .mem, .quays, .tiers, .events, .trace, .log, .fab, .pilot, .agent] s u
      := by exact .mono (.refl _) (by decide)) : o.InChain c u := by
  obtain ⟨hc, hs⟩ := h
  exact ⟨by rw [hk.stks_eq (by decide)]; exact hc, hs.trans (hk.mono (by decide))⟩

theorem State.InChain.updStack {n f} (h : o.InChain c s) : o.InChain c (s.updStack n f) := by
  obtain ⟨hc, hs⟩ := h
  exact ⟨hc, .updStack hs⟩

theorem State.InChain.updChain {f} (h : o.InChain c s) : o.InChain c (s.updChain c f) := by
  obtain ⟨hc, hs⟩ := h
  exact ⟨hc.trans State.onlyAt_updChain, .updChain hs⟩

theorem State.InChain.freshBytes {n} (h : o.InChain c s) : o.InChain c (s.freshBytes n).2 :=
  h.keep (by simp [Keeps, State.freshBytes])

theorem State.InChain.ite {p : Prop} [Decidable p] {a b : State} (ha : o.InChain c a) (hb : o.InChain c b) :
    o.InChain c (if p then a else b) := by split <;> assumption

theorem State.InChain.ite_fst {p : Prop} [Decidable p] {a b : State × α} (ha : o.InChain c a.1) (hb : o.InChain c b.1) :
    o.InChain c (if p then a else b).1 := by split <;> assumption

theorem State.InChain.fst_of_eq {p : State × α} {a : α} (h : o.InChain c p.1) (e : p = (s, a)) : o.InChain c s := by
  subst e; exact h

theorem State.InChain.snd_of_eq {p : α × State} {a : α} (h : o.InChain c p.2) (e : p = (a, s)) : o.InChain c s := by
  subst e; exact h

theorem State.InChain.foldl {l : List α} {f : State → α → State} (h : o.InChain c s)
    (hf : ∀ s a, o.InChain c s → o.InChain c (f s a)) : o.InChain c (l.foldl f s) := by
  induction l generalizing s with
  | nil => exact h
  | cons a l ih => exact ih (hf s a h)

theorem State.InChain.writeMem {a bs} (h : o.InChain c s) : o.InChain c (s.writeMem a bs) :=
  h.keep (.writeMem (.refl s))

theorem State.InChain.appendMap {d} (h : o.InChain c s) : o.InChain c (s.appendMap d).2 :=
  h.keep (.appendMap (.refl s))

theorem State.InChain.appendRow {m g tenant stack v r0 codes scales} (h : o.InChain c s) : o.InChain c (s.appendRow m g tenant stack v r0 codes scales).1 :=
  h.keep (.appendRow (.refl s))

theorem State.InChain.nbuWrite {stack nbu y3 bs} (h : o.InChain c s) : o.InChain c (s.nbuWrite stack nbu y3 bs) :=
  h.keep (.nbuWrite (.refl s))

theorem State.InChain.nbuRead {stack nbu y3 n} (h : o.InChain c s) : o.InChain c (s.nbuRead stack nbu y3 n).2 :=
  h.keep (.nbuRead (.refl s))

theorem State.InChain.load {a n} (h : o.InChain c s) : o.InChain c (s.load a n).2 :=
  h.keep (.load (.refl s))

theorem State.InChain.asAgent {kind unit a} (h : o.InChain c s) : o.InChain c (s.asAgent kind unit a) :=
  h.keep (.asAgent (.refl s))

theorem State.InChain.pageRead {tenant stack a n} (h : o.InChain c s) : o.InChain c (s.pageRead tenant stack a n).2 :=
  h.keep (.pageRead (.refl s))

theorem State.InChain.stkWrite {stks addr off bs} (h : o.InChain c s) : o.InChain c (s.stkWrite c stks addr off bs) := by
  unfold State.stkWrite
  split
  · exact .writeMem h
  · exact .updChain h

theorem State.InChain.scrambleAt {stks a n} (h : o.InChain c s) : o.InChain c (s.scrambleAt c stks a n) := .stkWrite (.freshBytes h)

theorem State.InChain.scrambleOutputs {d tenant} (h : o.InChain c s) : o.InChain c (s.scrambleOutputs c d tenant) := by
  unfold State.scrambleOutputs
  extract_lets -lift _ s7
  have hs7 : o.InChain c s7 := .foldl h (fun _ _ h8 => .foldl h8 (fun _ _ h9 => .scrambleAt h9))
  split
  · exact .foldl hs7 (fun _ _ h14 => .foldl h14 (fun _ _ h15 => .foldl h15 (fun _ _ h16 => .nbuWrite (.freshBytes h16))))
  · split
    · split
      · next e => exact State.InChain.snd_of_eq (.appendMap hs7) e
      next e27 =>
        have he27 := State.InChain.snd_of_eq (.appendMap hs7) e27
        exact .foldl he27 (fun _ _ h28 => .foldl h28 (fun _ _ h29 => .appendRow (.freshBytes (.freshBytes h29))))
    · exact hs7

theorem State.InChain.countWork {d} (h : o.InChain c s) : o.InChain c (s.countWork c d) :=
  .foldl h (fun _ _ h1 => .updStack (.ite (.updChain h1) h1))

theorem State.InChain.runStack {idx opc run} (h : o.InChain c s) (hrun : ∀ z1 z2 s, o.InChain c s → o.InChain c (run z1 z2 s).1) :
    o.InChain c (s.runStack c idx opc run) := by
  unfold State.runStack
  split
  · exact h
  · split
    · extract_lets -lift _ s13
      have hs13 : o.InChain c s13 := .countWork h
      split
      · exact h
      · split
        next e19 =>
          have he19 := State.InChain.fst_of_eq (hrun _ _ _ hs13) e19
          exact .updChain (.ite (.scrambleOutputs he19) he19)
        · next e => exact .updChain (State.InChain.fst_of_eq (hrun _ _ _ hs13) e)
    · exact h

theorem State.InChain.then_ {r : StkOut} {f} (h : o.InChain c r.1) (hf : ∀ s, o.InChain c s → o.InChain c (f s).1) :
    o.InChain c (r.then_ f).1 := by
  unfold StkOut.then_
  split
  · exact h
  · next s fl =>
    have h1 := hf s h
    split
    · next e => exact .fst_of_eq h1 e
    · next e => exact .fst_of_eq h1 e

theorem State.InChain.stkAll {f : α → State → StkOut} {l : List α} (h : o.InChain c s)
    (hf : ∀ a s, o.InChain c s → o.InChain c (f a s).1) : o.InChain c (stkAll f l s).1 := by
  induction l generalizing s with
  | nil => exact h
  | cons a l ih => exact .then_ (hf a s h) fun _ => ih

theorem State.InChain.withBytes {r f} (h : o.InChain c r.2) (hf : ∀ z1 s, o.InChain c s → o.InChain c (f z1 s).1) :
    o.InChain c (withBytes r f).1 := by
  unfold Machine.withBytes
  split
  · exact hf _ _ h
  · exact h

theorem State.InChain.runRow {d} (h : o.InChain c s) : o.InChain c (s.runRow d).1 := by
  refine .stkAll h fun st s h => .stkAll h fun k s h => .stkAll h fun i s h => ?_
  refine .ite_fst (.nbuWrite h) (.withBytes (.nbuRead h) fun a s h => ?_)
  exact .ite_fst (.withBytes (.nbuRead h) fun b s h => .nbuWrite h) (.nbuWrite h)

theorem State.InChain.gemvAppend {d tenant m g first rows} (h : o.InChain c s) :
    o.InChain c (s.gemvAppend d tenant m g first rows).1 :=
  .stkAll h fun _ _ h => .stkAll h fun _ _ h => .then_ (.appendRow h) fun _ h => h

theorem State.InChain.stkRead {stack addr n} (h : o.InChain c s) : o.InChain c (s.stkRead c stack addr n).2 := by
  unfold State.stkRead
  split
  · exact .load (.asAgent h)
  · exact .freshBytes h

theorem State.InChain.withX {stack d b n f} (h : o.InChain c s) (hf : ∀ z1 z2 s, o.InChain c s → o.InChain c (f z1 z2 s).1) :
    o.InChain c (s.withX c stack d b n f).1 :=
  .withBytes (.stkRead h) fun _ _ h => .ite_fst (hf _ _ _ h) (.withBytes (.stkRead h) fun _ _ h => hf _ _ _ h)

theorem State.InChain.withList {stack d n f} (h : o.InChain c s) (hf : ∀ z1 s, o.InChain c s → o.InChain c (f z1 s).1) :
    o.InChain c (s.withList stack d n f).1 := .withBytes (.load (.asAgent h)) fun _ _ h => hf _ _ h

theorem State.InChain.withPage {tenant stack a n f} (h : o.InChain c s) (hf : ∀ z1 s, o.InChain c s → o.InChain c (f z1 s).1) :
    o.InChain c (s.withPage tenant stack a n f).1 := by
  unfold State.withPage
  split
  · next e => exact .snd_of_eq (.pageRead h) e
  · next e => exact .withBytes (.snd_of_eq (.pageRead h) e) fun _ _ h => hf _ _ h

theorem State.InChain.gemvWeights {tenant d stack rho p g0 g1 page f} (h : o.InChain c s)
    (hf : ∀ z1 z2 z3 s, o.InChain c s → o.InChain c (f z1 z2 z3 s).1) :
    o.InChain c (s.gemvWeights tenant d stack rho p g0 g1 page f).1 := by
  cases page with
  | some pg =>
    exact .withPage h fun _ _ h => .ite_fst (hf _ _ _ _ h) (.withPage h fun _ _ h => hf _ _ _ _ h)
  | none =>
    refine .withBytes (.nbuRead h) fun _ _ h => .ite_fst (hf _ _ _ _ h) ?_
    refine .withBytes (.nbuRead h) fun _ _ h => .ite_fst (hf _ _ _ _ h) ?_
    exact .withBytes (.nbuRead h) fun _ _ h => hf _ _ _ _ h

theorem State.InChain.gemvRow_parts {tenant d stack rho x xsc page f g ks vs init k p sums fl} (h : o.InChain c s)
    (hf : ∀ z1 z2 s, o.InChain c s → o.InChain c (f z1 z2 s).1) :
    o.InChain c (State.gemvRow.parts tenant d stack rho x xsc page f g ks vs init k p sums fl s).1 := by
  induction k generalizing s p sums fl with
  | zero => exact hf _ _ _ h
  | succ k ih => exact .gemvWeights h fun _ _ _ _ h => .ite_fst (ih h) (ih h)

theorem State.InChain.gemvRow {tenant d stack rho x xsc acc accRow page f} (h : o.InChain c s) (hf :
    ∀ z1 z2 s, o.InChain c s → o.InChain c (f z1 z2 s).1) :
    o.InChain c (s.gemvRow tenant d stack rho x xsc acc accRow page f).1 := .gemvRow_parts h (fun _ _ _ h1 => hf _ _ _ h1)

theorem State.InChain.gemvStack_go {tenant d sig stack f x xsc acc lst k rho out} (h : o.InChain c s)
    (hf : ∀ z1 s, o.InChain c s → o.InChain c (f z1 s).1) :
    o.InChain c (State.gemvStack.go tenant d sig stack f x xsc acc lst k rho out s).1 := by
  induction k generalizing s rho out with
  | zero => exact hf _ _ h
  | succ k ih =>
    unfold State.gemvStack.go
    extract_lets r finish
    have hfin : ∀ z1 z2 s, o.InChain c s → o.InChain c (finish z1 z2 s).1 := fun _ _ _ h => .then_ h fun _ h => ih h
    split
    · split
      · exact ih h
      · exact .ite_fst (.gemvRow h hfin) h
    · exact .gemvRow h hfin

theorem State.InChain.gemvStack {tenant c d sig stack f} (h : o.InChain c s)
    (hf : ∀ z1 s, o.InChain c s → o.InChain c (f z1 s).1) : o.InChain c (s.gemvStack tenant c d sig stack f).1 := by
  refine .withX h fun x xsc s h => ?_
  have hlist : ∀ acc s, o.InChain c s → o.InChain c ((if sdPaged d then s.withList stack d ((sdN d + 31) / 32) fun lst s =>
      State.gemvStack.go tenant d sig stack f x xsc acc lst (sdLocalRows d sig) 0 [] s
      else State.gemvStack.go tenant d sig stack f x xsc acc 0 (sdLocalRows d sig) 0 [] s)).1 := fun acc s h =>
    .ite_fst (.withList h fun _ _ h => .gemvStack_go h hf) (.gemvStack_go h hf)
  exact .ite_fst (.withBytes (.stkRead h) hlist) (hlist 0 s h)

theorem State.InChain.runGemv_all {d tenant m g l rows} (h : o.InChain c s) :
    o.InChain c (State.runGemv.all c d tenant m g l rows s).1 := by
  induction l generalizing s rows with
  | nil => exact .gemvAppend h
  | cons p r ih => exact .gemvStack h fun _ _ h => ih h

theorem State.InChain.stkOutput {d v sig stack per vs} (h : o.InChain c s) :
    o.InChain c (s.stkOutput c d v sig stack per vs).1 := .ite_fst (.stkWrite (.stkWrite h)) (.stkWrite h)

theorem State.InChain.gemvOutput {d sig stack rows} (h : o.InChain c s) : o.InChain c (s.gemvOutput c d sig stack rows).1 :=
  .stkAll h fun _ _ h => .stkOutput h

theorem State.InChain.runGemv {d tenant} (h : o.InChain c s) : o.InChain c (s.runGemv c d tenant).1 := by
  unfold State.runGemv
  split
  · split
    · next e => exact .snd_of_eq (.appendMap h) e
    · next e => exact .runGemv_all (.snd_of_eq (.appendMap h) e)
  · exact .stkAll h fun _ _ h => .gemvStack h fun _ _ h => .gemvOutput h

theorem State.InChain.gemvtPage_rows {tenant d stack j x xsc page f n wb rowBytes scRow k t acc} (h : o.InChain c s)
    (hf : ∀ z1 z2 s, o.InChain c s → o.InChain c (f z1 z2 s).1) :
    o.InChain c (State.gemvtPage.rows tenant d stack j x xsc page f n wb rowBytes scRow k t acc s).1 := by
  induction k generalizing s t acc with
  | zero => exact hf _ _ _ h
  | succ k ih => exact .withPage h fun _ _ h => .ite_fst (ih h) (.withPage h fun _ _ h => ih h)

theorem State.InChain.gemvtPage {tenant d stack j x xsc page f} (h : o.InChain c s) (hf : ∀ z1 z2 s, o.InChain c s → o.InChain c
    (f z1 z2 s).1) :
    o.InChain c (s.gemvtPage tenant d stack j x xsc page f).1 :=
  .ite_fst h (.gemvtPage_rows h (fun _ _ _ h1 => hf _ _ _ h1))

theorem State.InChain.runGemvt_go {d tenant p x xsc lst k j sums} (h : o.InChain c s) :
    o.InChain c (State.runGemvt.go c d tenant p x xsc lst k j sums s).1 := by
  induction k generalizing s j sums with
  | zero => exact .stkAll h fun _ _ h => .stkOutput h
  | succ k ih =>
    rw [State.runGemvt.go]
    split
    · exact ih h
    · exact .gemvtPage h fun _ _ _ h => .then_ h fun _ h => ih h

theorem State.InChain.runGemvt {d tenant} (h : o.InChain c s) : o.InChain c (s.runGemvt c d tenant).1 :=
  .stkAll h fun _ _ h => .withX h fun _ _ _ h => .withList h fun _ _ h => .runGemvt_go h

theorem State.InChain.ewNbu {d} (h : o.InChain c s) : o.InChain c (s.ewNbu d).1 := by
  refine .stkAll h fun _ _ h => .stkAll h fun _ _ h => .stkAll h fun _ _ h => .withBytes (.nbuRead h) fun _ _ h => ?_
  exact .ite_fst (.withBytes (.nbuRead h) fun _ _ h => .nbuWrite h) (.nbuWrite h)

theorem State.InChain.withAux {stack d n f} (h : o.InChain c s) (hf : ∀ z1 s, o.InChain c s → o.InChain c (f z1 s).1) :
    o.InChain c (s.withAux c stack d n f).1 := .ite_fst (hf _ _ h) (.withBytes (.stkRead h) fun _ _ h => hf _ _ h)

theorem State.InChain.ewSru {d} (h : o.InChain c s) : o.InChain c (s.ewSru c d).1 :=
  .stkAll h fun _ _ h => .withX h fun _ _ _ h => .withAux h fun _ _ h => .stkAll h fun _ _ h => .stkOutput h

theorem State.InChain.runEw {d} (h : o.InChain c s) : o.InChain c (s.runEw c d).1 := .ite_fst (.ewNbu h) (.ewSru h)

theorem State.InChain.nbuVecs_go {d stack v f wb k i acc} (h : o.InChain c s)
    (hf : ∀ z1 s, o.InChain c s → o.InChain c (f z1 s).1) :
    o.InChain c (State.nbuVecs.go d stack v f wb k i acc s).1 := by
  induction k generalizing s i acc with
  | zero => exact hf _ _ h
  | succ k ih => exact .withBytes (.nbuRead h) fun _ _ h => ih h

theorem State.InChain.nbuVecs {d stack v f} (h : o.InChain c s) (hf : ∀ z1 s, o.InChain c s → o.InChain c (f z1 s).1) :
    o.InChain c (s.nbuVecs d stack v f).1 := .nbuVecs_go h (fun _ _ h1 => hf _ _ h1)

theorem State.InChain.runNorm {d} (h : o.InChain c s) : o.InChain c (s.runNorm c d).1 :=
  .stkAll h fun _ _ h => .withAux h fun _ _ h => .ite_fst
    (.stkAll h fun _ _ h => .nbuVecs h fun _ _ h => .stkOutput h)
    (.withX h fun _ _ _ h => .stkAll h fun _ _ h => .stkOutput h)

theorem State.InChain.runSmx {d} (h : o.InChain c s) : o.InChain c (s.runSmx c d).1 :=
  .stkAll h fun _ _ h => .ite_fst
    (.stkAll h fun _ _ h => .nbuVecs h fun _ _ h => .stkOutput h)
    (.withX h fun _ _ _ h => .stkAll h fun _ _ h => .ite_fst (.stkOutput h)
      (.ite_fst (.stkOutput h) (.stkWrite (.stkOutput h))))

theorem State.InChain.runTopk_go {d tenant bytes p x sc lst k j best fl} (h : o.InChain c s) :
    o.InChain c (State.runTopk.go c d tenant bytes p x sc lst k j best fl s).1 := by
  induction k generalizing s j best fl with
  | zero => exact .then_ (.stkAll h fun _ _ h => .stkWrite h) fun _ h => h
  | succ k ih =>
    rw [State.runTopk.go]
    split
    · exact ih h
    · exact .ite_fst h (.withPage h fun _ _ h => ih h)

theorem State.InChain.runTopk {d tenant} (h : o.InChain c s) : o.InChain c (s.runTopk c d tenant).1 :=
  .stkAll h fun _ _ h => .withX h fun _ _ _ h => .withList h fun _ _ h => .runTopk_go h

theorem State.InChain.runReduce {d} (h : o.InChain c s) : o.InChain c (s.runReduce c d).1 :=
  .stkAll h fun _ _ h => .withBytes (.stkRead h) fun _ _ h => .stkAll h fun _ _ h => .stkOutput h

end

end Sys2Proof.Machine

/-! Settles the statement about the chains of a compute stack. -/

namespace Sys2Proof.Machine

set_option Elab.async false

section
variable {s : State} {c i st t : Nat} {x : StackChain} {w : BitVec 1024}

/-! ### The operations of a stack -/

theorem inChain_of_stackOp {k : Instr} (hk : k ∈ [.rowcopy c i, .rowinit c i, .rowand c i, .rowor c i, .rowxor c i,
    .rownot c i, .gemv c i, .gemvt c i, .eadd c i, .emul c i, .eact c i, .eglu c i, .escale c i, .norm c i, .smx c i,
    .topk c i, .reduce c i]) : ∃ u, exec k s = .next u ∧ s.InChain c u := by
  have hrow (opc : Nat) : s.InChain c (s.runStack c i opc (fun d _ s => s.runRow d)) :=
    .runStack .refl fun _ _ _ h => .runRow h
  have hew (opc : Nat) : s.InChain c (s.runStack c i opc (fun d _ s => s.runEw c d)) :=
    .runStack .refl fun _ _ _ h => .runEw h
  simp only [List.mem_cons, List.not_mem_nil, or_false] at hk
  rcases hk with rfl | rfl | rfl | rfl | rfl | rfl | rfl | rfl | rfl | rfl | rfl | rfl | rfl | rfl | rfl | rfl | rfl
  · exact ⟨_, rfl, hrow _⟩
  · exact ⟨_, rfl, hrow _⟩
  · exact ⟨_, rfl, hrow _⟩
  · exact ⟨_, rfl, hrow _⟩
  · exact ⟨_, rfl, hrow _⟩
  · exact ⟨_, rfl, hrow _⟩
  · exact ⟨_, rfl, .runStack .refl fun _ _ _ h => .runGemv h⟩
  · exact ⟨_, rfl, .runStack .refl fun _ _ _ h => .runGemvt h⟩
  · exact ⟨_, rfl, hew _⟩
  · exact ⟨_, rfl, hew _⟩
  · exact ⟨_, rfl, hew _⟩
  · exact ⟨_, rfl, hew _⟩
  · exact ⟨_, rfl, hew _⟩
  · exact ⟨_, rfl, .runStack .refl fun _ _ _ h => .runNorm h⟩
  · exact ⟨_, rfl, .runStack .refl fun _ _ _ h => .runSmx h⟩
  · exact ⟨_, rfl, .runStack .refl fun _ _ _ h => .runTopk h⟩
  · exact ⟨_, rfl, .runStack .refl fun _ _ _ h => .runReduce h⟩

/-! ### The start of a descriptor -/

/-- A descriptor that waits for nothing is added to the running ones. -/
def StackChain.begun (x : StackChain) (d time : Nat) : StackChain :=
  { x with running := x.running ++ [{ idx := x.next, done := false, flags := 0, failed := none }]
           next := x.next + 1, waitSent := false, waitDone := false, lastProgress := time
           startAt := (sdStacks d).foldl (fun m st => Table.put m st time) x.startAt }

theorem State.foldl_logArb (hl : s.logging = false) (l : List Nat) (p : Nat → Nat) (v : Nat → BitVec 16) :
    l.foldl (fun s st => s.logArb (p st) (v st)) s = s := by
  have hstep (n : Nat) (b : BitVec 16) : s.logArb n b = s := by simp [State.logArb, hl]
  induction l with
  | nil => rfl
  | cons a l ih => rw [List.foldl_cons, hstep, ih]

theorem execStkDescStart_begins (hx : Table.find s.stks.chains c = some x) (hstop : x.stopped = false)
    (hfail : x.failed = none) (hw : x.descs[x.next]? = some w) (hover : x.overlapOk w.toNat = true)
    (hfits : x.rbFits w.toNat = true) (hspace : (s.at t).startSpaced w.toNat = true) (hblk : s.bring.blkBusy = false)
    (hwait : sdWaitEn w.toNat = false) (hlog : s.logging = false) :
    ∃ k n tag data, execStkDescStart c t s = .next (((s.at t).updChain c (fun y => y.begun w.toNat (s.at t).time)).traceCentral
      0 k 2 n tag data) := by
  have hx' : Table.find (s.at t).stks.chains c = some x := hx
  have hreset : (sdStacks w.toNat).any (fun st => (s.at t).underReset (0x100 + st)) = false := by
    simp [State.underReset, hblk]
  have hlog' : (s.at t).logging = false := hlog
  simp only [execStkDescStart, hx', hw, hstop, hfail, hover, hfits, hspace, hreset, hwait, Option.isSome_none,
    Bool.not_true, Bool.or_self, Bool.false_eq_true, if_false, Bool.not_false, Bool.true_or, if_true,
    State.foldl_logArb hlog']
  exact ⟨_, _, _, _, rfl⟩

/-- A descriptor of a chain begins. -/
theorem gives_stkDescStart (hx : Table.find s.stks.chains c = some x) (hstop : x.stopped = false)
    (hfail : x.failed = none) (hw : x.descs[x.next]? = some w) (hover : x.overlapOk w.toNat = true)
    (hfits : x.rbFits w.toNat = true) (hspace : (s.at t).startSpaced w.toNat = true) (hblk : s.bring.blkBusy = false)
    (hwait : sdWaitEn w.toNat = false) (hlog : s.logging = false) :
    Gives (.stkDescStart c t) s (fun u => (Table.find u.stks.chains c).map (fun y => (y.next, y.running))
        = some (x.next + 1, x.running ++ [{ idx := x.next, done := false, flags := 0, failed := none }])
      ∧ OnlyAt s.stks.chains u.stks.chains c ∧ u.stks.units = s.stks.units ∧ Keeps [.time, .trace, .stks] s u) := by
  obtain ⟨k, n, tag, data, hstart⟩ :=
    execStkDescStart_begins hx hstop hfail hw hover hfits hspace hblk hwait hlog
  have hstks := (Keeps.traceCentral (m := 0) (ty := k) (kind := 2) (index := n) (tag := tag) (data := data)
    (.refl ((s.at t).updChain c (fun y => y.begun w.toNat (s.at t).time)))).stks_eq (ks := [.trace]) (by decide)
  refine ⟨_, hstart, ?_, ?_, ?_, .traceCentral (.updChain (.at (.refl s)))⟩
  · rw [hstks, State.find_updChain_self, show Table.find (s.at t).stks.chains c = some x from hx]
    rfl
  · rw [hstks]
    exact State.onlyAt_updChain (s := s.at t)
  · rw [hstks]
    rfl

/-! ### The end of a descriptor -/

/-- Descriptor `i` has completed. -/
def StackChain.completes (x : StackChain) (i time : Nat) (fl : ArithFlags) : StackChain :=
  { x with running := x.running.filter (fun q => q.idx != i), completed := x.completed + 1, lastProgress := time
           flags := x.flags ||| fl }

theorem foldl_updStack_chains (l : List Nat) (f : StackUnit → StackUnit) (s : State) :
    (l.foldl (fun s st => s.updStack st f) s).stks.chains = s.stks.chains := by
  induction l generalizing s with
  | nil => rfl
  | cons a l ih => rw [List.foldl_cons, ih]; rfl

/-- A finished descriptor completes. -/
theorem gives_stkDescComplete {r : StackRun} (hx : Table.find s.stks.chains c = some x) (hrun : x.running = [r])
    (hr : r.idx = i) (hdone : r.done = true) (hw : x.descs[i]? = some w) (hsig : sdSigEn w.toNat = false) :
    Gives (.stkDescComplete c i) s (fun u =>
      (Table.find u.stks.chains c).map (fun y => (y.running, y.completed, y.flags))
        = some ([], x.completed + 1, x.flags ||| r.flags)
      ∧ OnlyAt s.stks.chains u.stks.chains c ∧ Keeps [.trace, .stks] s u) := by
  have hcomplete : ∃ k n tag data, execStkDescComplete c i s = .next
      (((sdStacks w.toNat).foldl (fun s st => s.updStack st (fun u => { u with descCnt := u.descCnt + 1 }))
        (s.updChain c (fun y => y.completes i s.time r.flags))).traceCentral 1 k 2 n tag data) := by
    have hfind : x.running.find? (fun r => r.idx == i && r.done) = some r := by simp [hrun, hr, hdone]
    simp only [execStkDescComplete, hx, hfind, hw, hsig, Bool.false_eq_true, if_false]
    exact ⟨_, _, _, _, rfl⟩
  obtain ⟨k, n, tag, data, hcomplete⟩ := hcomplete
  have hstks := (Keeps.traceCentral (m := 1) (ty := k) (kind := 2) (index := n) (tag := tag) (data := data)
    (.refl ((sdStacks w.toNat).foldl (fun s st => s.updStack st (fun u => { u with descCnt := u.descCnt + 1 }))
      (s.updChain c (fun y => y.completes i s.time r.flags))))).stks_eq (ks := [.trace]) (by decide)
  refine ⟨_, hcomplete, ?_, ?_, .traceCentral (.foldl (.updChain (.refl s)) fun _ _ h => .updStack h)⟩
  · rw [hstks, foldl_updStack_chains, State.find_updChain_self, hx]
    simp [StackChain.completes, hrun, hr]
  · rw [hstks, foldl_updStack_chains]
    exact State.onlyAt_updChain

/-! ### The failure of a chain -/

theorem State.removeWaits_reset (h : s.sync = State.reset.sync) (p : SyncUnit → Bool) : s.removeWaits p = s := by
  have hs : s = { s with sync := State.reset.sync } := by rw [← h]
  rw [hs]
  rfl

/-- A chain stops at its first error. -/
theorem gives_stkChainFail {e : Status} (hx : Table.find s.stks.chains c = some x) (hstop : x.stopped = false)
    (hrun : x.running = []) (hfail : x.failed = some (e, st, i)) (hsync : s.sync = State.reset.sync) :
    Gives (.stkChainFail c) s (fun u => (Table.find u.stks.chains c).map (fun y => (y.stopped, y.failed, y.next))
        = some (true, some (e, st, i), x.next)
      ∧ (u.stackUnit st).errStatus = e ∧ (u.stackUnit st).errIndex = BitVec.ofNat 12 i
      ∧ OnlyAt s.stks.units u.stks.units st ∧ OnlyAt s.stks.chains u.stks.chains c
      ∧ Keeps [.trace, .stks] s u) := by
  let v := s.updStack st (fun u => { u with errStatus := e, errIndex := BitVec.ofNat 12 i })
  have hstops : ∃ k n tag data, execStkChainFail c s = .next ((v.traceCentral 1 k 2 n tag data).updChain c
      (fun y => { y with failed := some (e, st, i), stopped := true, running := [] })) := by
    have hwaits (p) : v.removeWaits p = v := State.removeWaits_reset (s := v) hsync p
    simp only [execStkChainFail, hx, hfail, hstop, hrun, Option.orElse_some, List.foldl_nil,
      Bool.false_eq_true, if_false]
    exact ⟨_, _, _, _, by rw [hwaits]⟩
  obtain ⟨k, n, tag, data, hstops⟩ := hstops
  have hstks := (Keeps.traceCentral (m := 1) (ty := k) (kind := 2) (index := n) (tag := tag) (data := data)
    (.refl v)).stks_eq (ks := [.trace]) (by decide)
  have hunit : ((v.traceCentral 1 k 2 n tag data).updChain c
      (fun y => { y with failed := some (e, st, i), stopped := true, running := [] })).stks.units = v.stks.units := by
    rw [← hstks]
    rfl
  have hself : v.stackUnit st = { s.stackUnit st with errStatus := e, errIndex := BitVec.ofNat 12 i } :=
    Table.getD_put_self ..
  refine ⟨_, hstops, ?_, ?_, ?_, ?_, ?_, .updChain (.traceCentral (.updStack (.refl s)))⟩
  · rw [State.find_updChain_self, hstks, show Table.find v.stks.chains c = some x from hx]
    rfl
  · rw [State.stackUnit, hunit, ← State.stackUnit, hself]
  · rw [State.stackUnit, hunit, ← State.stackUnit, hself]
  · rw [hunit]
    exact .put
  · exact .trans (by rw [hstks]; exact .refl) State.onlyAt_updChain

/-! ### The reserve of a stack -/

theorem gives_stkSlotCfgWrite {v : Nat} (hst : st < 12) :
    Gives (.stkSlotCfgWrite .scheduler st v) s (fun u => (u.stackUnit st).serveRsv = BitVec.ofNat 8 (min 192 (v % 256))
      ∧ OnlyAt s.stks.units u.stks.units st ∧ u.stks.chains = s.stks.chains ∧ Keeps [.stks] s u) := by
  have hself (s : State) (f) : (s.updStack st f).stackUnit st = f (s.stackUnit st) := Table.getD_put_self ..
  refine ⟨_, congrArg Host.Outcome.next (if_pos ⟨rfl, hst⟩), ?_, .trans .put .put, rfl, .updStack (.updStack (.refl s))⟩
  rw [State.setServeRsv, State.resizeReserve, hself, hself]

end

/-- Settles O30. -/
theorem stackChains : Obligations.StackChains := by
  refine ⟨?_, ?_, ?_, ?_, ?_, ?_⟩
  · intro s k c i hk
    obtain ⟨u, hu, hchains, hkeep⟩ := inChain_of_stackOp (s := s) hk
    exact ⟨u, hu, hchains, hkeep⟩
  · intro s c t x w hx hstop hfail hw hover hfits hspace hblk hwait hlog
    exact gives_stkDescStart hx hstop hfail hw hover hfits hspace hblk hwait hlog
  · intro s c i x w r hx hrun hr hdone hw hsig
    exact gives_stkDescComplete hx hrun hr hdone hw hsig
  · intro s c st i e x hx hstop hrun hfail hsync
    exact gives_stkChainFail hx hstop hrun hfail hsync
  · intro s st v hst
    exact gives_stkSlotCfgWrite hst
  · intro s r st v hr
    exact ⟨s, congrArg Host.Outcome.next (if_neg fun h => hr h.1), rfl⟩

end Sys2Proof.Machine

/-! What a frame keeps, part by part. -/

namespace Sys2Proof.Machine

set_option Elab.async false

section
variable {ks : List Part} {s u : State} (h : Keeps ks s u)
include h

theorem Keeps.pending_eq (hk : .pending ∉ ks) : u.pending = s.pending := by
  obtain ⟨hp, -⟩ := h
  exact hp.resolve_left hk

theorem Keeps.onRing_eq (hk : .onRing ∉ ks) : u.onRing = s.onRing := by
  obtain ⟨-, -, hp, -⟩ := h
  exact hp.resolve_left hk

theorem Keeps.refclkFailSeen_eq (hk : .refclkFailSeen ∉ ks) : u.refclkFailSeen = s.refclkFailSeen := by
  obtain ⟨-, -, -, hp, -⟩ := h
  exact hp.resolve_left hk

theorem Keeps.free_eq (hk : .free ∉ ks) : u.free = s.free := by
  obtain ⟨-, -, -, -, hp, -⟩ := h
  exact hp.resolve_left hk

theorem Keeps.mem_eq (hk : .mem ∉ ks) : u.mem = s.mem := by
  obtain ⟨-, -, -, -, -, hp, -⟩ := h
  exact hp.resolve_left hk

theorem Keeps.quays_eq (hk : .quays ∉ ks) : u.quays = s.quays := by
  obtain ⟨-, -, -, -, -, -, -, hp, -⟩ := h
  exact hp.resolve_left hk

theorem Keeps.central_eq (hk : .central ∉ ks) : u.central = s.central := by
  obtain ⟨-, -, -, -, -, -, -, -, hp, -⟩ := h
  exact hp.resolve_left hk

theorem Keeps.tiers_eq (hk : .tiers ∉ ks) : u.tiers = s.tiers := by
  obtain ⟨-, -, -, -, -, -, -, -, -, -, hp, -⟩ := h
  exact hp.resolve_left hk

theorem Keeps.dma_eq (hk : .dma ∉ ks) : u.dma = s.dma := by
  obtain ⟨-, -, -, -, -, -, -, -, -, -, -, -, hp, -⟩ := h
  exact hp.resolve_left hk

theorem Keeps.events_eq (hk : .events ∉ ks) : u.events = s.events := by
  obtain ⟨-, -, -, -, -, -, -, -, -, -, -, -, -, hp, -⟩ := h
  exact hp.resolve_left hk

theorem Keeps.trace_eq (hk : .trace ∉ ks) : u.trace = s.trace := by
  obtain ⟨-, -, -, -, -, -, -, -, -, -, -, -, -, -, hp, -⟩ := h
  exact hp.resolve_left hk

theorem Keeps.hm_eq (hk : .hm ∉ ks) : u.hm = s.hm := by
  obtain ⟨-, -, -, -, -, -, -, -, -, -, -, -, -, -, -, -, hp, -⟩ := h
  exact hp.resolve_left hk

theorem Keeps.fab_eq (hk : .fab ∉ ks) : u.fab = s.fab := by
  obtain ⟨-, -, -, -, -, -, -, -, -, -, -, -, -, -, -, -, -, -, hp, -⟩ := h
  exact hp.resolve_left hk

theorem Keeps.pilot_eq (hk : .pilot ∉ ks) : u.pilot = s.pilot := by
  obtain ⟨-, -, -, -, -, -, -, -, -, -, -, -, -, -, -, -, -, -, -, -, hp, -⟩ := h
  exact hp.resolve_left hk

theorem Keeps.kv_eq (hk : .kv ∉ ks) : u.kv = s.kv := by
  obtain ⟨-, -, -, -, -, -, -, -, -, -, -, -, -, -, -, -, -, -, -, -, -, -, hp, -⟩ := h
  exact hp.resolve_left hk

theorem Keeps.fw_eq (hk : .fw ∉ ks) : u.fw = s.fw := by
  obtain ⟨-, -, -, -, -, -, -, -, -, -, -, -, -, -, -, -, -, -, -, -, -, -, -, -, hp, -⟩ := h
  exact hp.resolve_left hk

theorem Keeps.power_eq (hk : .power ∉ ks) : u.power = s.power := by
  obtain ⟨-, -, -, -, -, -, -, -, -, -, -, -, -, -, -, -, -, -, -, -, -, -, -, -, -, hp, -⟩ := h
  exact hp.resolve_left hk

theorem Keeps.thermal_eq (hk : .thermal ∉ ks) : u.thermal = s.thermal := by
  obtain ⟨-, -, -, -, -, -, -, -, -, -, -, -, -, -, -, -, -, -, -, -, -, -, -, -, -, -, hp, -⟩ := h
  exact hp.resolve_left hk

theorem Keeps.bring_eq (hk : .bring ∉ ks) : u.bring = s.bring := by
  obtain ⟨-, -, -, -, -, -, -, -, -, -, -, -, -, -, -, -, -, -, -, -, -, -, -, -, -, -, -, hp, -⟩ := h
  exact hp.resolve_left hk

theorem Keeps.backup_eq (hk : .backup ∉ ks) : u.backup = s.backup := by
  obtain ⟨-, -, -, -, -, -, -, -, -, -, -, -, -, -, -, -, -, -, -, -, -, -, -, -, -, -, -, -, hp, -⟩ := h
  exact hp.resolve_left hk

theorem Keeps.i3c_eq (hk : .i3c ∉ ks) : u.i3c = s.i3c := by
  obtain ⟨-, -, -, -, -, -, -, -, -, -, -, -, -, -, -, -, -, -, -, -, -, -, -, -, -, -, -, -, -, hp, -⟩ := h
  exact hp.resolve_left hk

theorem Keeps.agent_eq (hk : .agent ∉ ks) : u.agent = s.agent := by
  obtain ⟨-, -, -, -, -, -, -, -, -, -, -, -, -, -, -, -, -, -, -, -, -, -, -, -, -, -, -, -, -, -, hp, -⟩ := h
  exact hp.resolve_left hk

theorem Keeps.resp_eq (hk : .resp ∉ ks) : u.resp = s.resp := by
  obtain ⟨-, -, -, -, -, -, -, -, -, -, -, -, -, -, -, -, -, -, -, -, -, -, -, -, -, -, -, -, -, -, -, hp, -⟩ := h
  exact hp.resolve_left hk

theorem Keeps.licences_eq (hk : .licences ∉ ks) : u.licences = s.licences := by
  obtain ⟨-, -, -, -, -, -, -, -, -, -, -, -, -, -, -, -, -, -, -, -, -, -, -, -, -, -, -, -, -, -, -, -, hp, -⟩ := h
  exact hp.resolve_left hk

theorem Keeps.mapMode_eq (hk : .mapMode ∉ ks) : u.mapMode = s.mapMode := by
  obtain ⟨-, -, -, -, -, -, -, -, -, -, -, -, -, -, -, -, -, -, -, -, -, -, -, -, -, -, -, -, -, -, -, -, -, hp⟩ := h
  exact hp.resolve_left hk

end

section
variable {ks : List Part} {o s : State}

theorem Keeps.withPending {x} (h : Keeps ks o s) (hk : [.pending] ⊆ ks := by decide) : Keeps ks o { s with pending := x } :=
  h.lift hk fun _ h => .upd h

theorem Keeps.withTime {x} (h : Keeps ks o s) (hk : [.time] ⊆ ks := by decide) : Keeps ks o { s with time := x } :=
  h.lift hk fun _ h => .upd h

theorem Keeps.withOnRing {x} (h : Keeps ks o s) (hk : [.onRing] ⊆ ks := by decide) : Keeps ks o { s with onRing := x } :=
  h.lift hk fun _ h => .upd h

theorem Keeps.withRefclkFailSeen {x} (h : Keeps ks o s) (hk : [.refclkFailSeen] ⊆ ks := by decide) : Keeps ks o { s with refclkFailSeen := x } :=
  h.lift hk fun _ h => .upd h

theorem Keeps.withMem {x} (h : Keeps ks o s) (hk : [.mem] ⊆ ks := by decide) : Keeps ks o { s with mem := x } :=
  h.lift hk fun _ h => .upd h

theorem Keeps.withHostMem {x} (h : Keeps ks o s) (hk : [.hostMem] ⊆ ks := by decide) : Keeps ks o { s with hostMem := x } :=
  h.lift hk fun _ h => .upd h

theorem Keeps.withHm {x} (h : Keeps ks o s) (hk : [.hm] ⊆ ks := by decide) : Keeps ks o { s with hm := x } :=
  h.lift hk fun _ h => .upd h

theorem Keeps.withFw {x} (h : Keeps ks o s) (hk : [.fw] ⊆ ks := by decide) : Keeps ks o { s with fw := x } :=
  h.lift hk fun _ h => .upd h

theorem Keeps.withPower {x} (h : Keeps ks o s) (hk : [.power] ⊆ ks := by decide) : Keeps ks o { s with power := x } :=
  h.lift hk fun _ h => .upd h

theorem Keeps.withThermal {x} (h : Keeps ks o s) (hk : [.thermal] ⊆ ks := by decide) : Keeps ks o { s with thermal := x } :=
  h.lift hk fun _ h => .upd h

theorem Keeps.withBring {x} (h : Keeps ks o s) (hk : [.bring] ⊆ ks := by decide) : Keeps ks o { s with bring := x } :=
  h.lift hk fun _ h => .upd h

theorem Keeps.withBackup {x} (h : Keeps ks o s) (hk : [.backup] ⊆ ks := by decide) : Keeps ks o { s with backup := x } :=
  h.lift hk fun _ h => .upd h

theorem Keeps.withI3c {x} (h : Keeps ks o s) (hk : [.i3c] ⊆ ks := by decide) : Keeps ks o { s with i3c := x } :=
  h.lift hk fun _ h => .upd h

theorem Keeps.withLicences {x} (h : Keeps ks o s) (hk : [.licences] ⊆ ks := by decide) : Keeps ks o { s with licences := x } :=
  h.lift hk fun _ h => .upd h

theorem Keeps.withMapMode {x} (h : Keeps ks o s) (hk : [.mapMode] ⊆ ks := by decide) : Keeps ks o { s with mapMode := x } :=
  h.lift hk fun _ h => .upd h

end

end Sys2Proof.Machine

/-! Settles the statement about reads and writes of module memory. -/

namespace Sys2Proof.Machine

set_option Elab.async false

/-! ### Where an access lies -/

theorem State.pcTotal_le (s : State) : s.pcTotal ≤ 768 := by
  have h (k : Nat) : s.pcCount k ≤ 64 := Nat.sub_le ..
  have hsum : ∀ l : List Nat, (l.map s.pcCount).sum ≤ 64 * l.length := by
    intro l
    induction l with
    | nil => simp
    | cons a l ih =>
      have := h a
      simp only [List.map_cons, List.sum_cons, List.length_cons]
      omega
  exact hsum (List.range 12)

theorem State.t1Top_le (s : State) : s.t1Top ≤ 768 * 2 ^ 30 := by
  have h := s.pcTotal_le
  rw [State.t1Top]
  split <;> omega

/-- The blocks of registers lie above all memory. -/
theorem regAt_below {a : Nat} (h : a < 0x7F0000000000) : regAt a = none := by
  have hnone : regBlocks.find? (fun b => decide (b.2.1 ≤ a) && decide (a < b.2.1 + b.2.2.1 * b.2.2.2)) = none := by
    simp only [List.find?_eq_none, Bool.and_eq_true, decide_eq_true_eq, not_and]
    have hbase : ∀ b ∈ regBlocks, 0x7F0000000000 ≤ b.2.1 := by decide
    intro b hb hle
    have := hbase b hb
    omega
  rw [regAt, hnone]

/-! ### The map of memory -/

/-- Two states in which memory is mapped alike. -/
structure State.SameMap (s u : State) : Prop where
  spread : u.tiers.spread = s.tiers.spread
  t1Up : u.tiers.t1Up = s.tiers.t1Up
  t2Up : u.tiers.t2Up = s.tiers.t2Up
  pcOut : u.tiers.pcOut = s.tiers.pcOut
  chIn : u.tiers.chIn = s.tiers.chIn
  licences : u.licences = s.licences

namespace State.SameMap

variable {s u v : State}

theorem of_eq (ht : u.tiers = s.tiers) (hl : u.licences = s.licences) : s.SameMap u := by
  constructor <;> simp only [ht, hl]

theorem refl (s : State) : s.SameMap s := .of_eq rfl rfl

theorem trans (h : s.SameMap u) (k : u.SameMap v) : s.SameMap v := by
  constructor <;> simp only [k.spread, k.t1Up, k.t2Up, k.pcOut, k.chIn, k.licences, h.spread, h.t1Up, h.t2Up, h.pcOut,
    h.chIn, h.licences]

section
variable (h : s.SameMap u)
include h

theorem pcCount (k : Nat) : u.pcCount k = s.pcCount k := by simp only [State.pcCount, State.pcOut, h.pcOut]

theorem pcList (k : Nat) : u.pcList k = s.pcList k := by simp only [State.pcList, State.pcWorks, State.pcOut, h.pcOut]

theorem pcTotal : u.pcTotal = s.pcTotal := by simp only [State.pcTotal, funext h.pcCount]

theorem chList : u.chList = s.chList := by simp only [State.chList, h.chIn]

theorem t1Top : u.t1Top = s.t1Top := by simp only [State.t1Top, h.t1Up, h.pcTotal]

theorem t2Top : u.t2Top = s.t2Top := by simp only [State.t2Top, h.t2Up, h.chList, h.licences]

theorem region (a : Nat) : u.region a = s.region a := by simp only [State.region, h.t1Top, h.t2Top]

theorem regionEnd (a : Nat) : u.regionEnd a = s.regionEnd a := by
  simp only [State.regionEnd, h.region, h.t1Top, h.t2Top]

theorem unitBytes (a : Nat) : u.unitBytes a = s.unitBytes a := by simp only [State.unitBytes, h.region]

theorem atomsOf (a n : Nat) : u.atomsOf a n = s.atomsOf a n := by simp only [State.atomsOf, h.unitBytes]

theorem spreadSize : u.spreadSize = s.spreadSize := by simp only [State.spreadSize, h.pcTotal, h.spread]

theorem spreadAt (w : Nat) : u.spreadAt w = s.spreadAt w := by
  simp only [State.spreadAt, State.spreadList, State.pcWorks, State.pcOut, h.pcOut, h.pcTotal]

theorem stackBase (k : Nat) : u.stackBase k = s.stackBase k := by
  simp only [State.stackBase, h.spreadSize, h.pcCount, h.spread]

theorem t1Loc (a : Nat) : u.t1Loc a = s.t1Loc a := by
  simp only [State.t1Loc, h.spreadSize, h.spreadAt, h.stackBase, h.pcTotal, h.pcCount, h.pcList, h.spread]

theorem memLoc (a : Nat) : u.memLoc a = s.memLoc a := by
  simp only [State.memLoc, h.region, h.t1Loc, State.t2Loc, h.chList]

theorem unitAt (a : Nat) : u.unitAt a = s.unitAt a := by simp only [State.unitAt, h.memLoc]

end

end State.SameMap

section
variable {s : State} {a k n : Nat} {bs : List Byte}

theorem State.region_tier1 (h : s.region a = .tier1) : a < s.t1Top := by
  refine Classical.byContradiction fun hn => ?_
  rw [State.region, if_neg hn] at h
  simp only at h
  split at h
  · cases h
  · split at h
    · split at h
      · cases h
      · split at h <;> cases h
    · split at h <;> cases h

theorem State.region_spad (h : s.region a = .spad k) : tileBase k ≤ a ∧ a < tileBase k + 0x30000 ∧ a < 0x7F0000000000 := by
  rw [State.region] at h
  split at h
  · cases h
  · split at h
    · cases h
    · split at h
      · next hw =>
        obtain ⟨hlo, hhi⟩ := hw
        simp only at h
        split at h
        · next ho =>
          injection h with h
          subst h
          simp only [tileBase, tileWindows] at *
          omega
        · split at h <;> cases h
      · split at h <;> cases h

theorem regAt_spad (h : s.region a = .spad k) : regAt a = none := by
  obtain ⟨-, -, h⟩ := State.region_spad h
  exact regAt_below h

theorem regAt_tier1 (h : s.region a = .tier1) : regAt a = none := by
  have h1 := State.region_tier1 h
  have h2 := s.t1Top_le
  exact regAt_below (by omega)

/-- An access within one region is one piece. -/
theorem State.pieces_one (hn : 0 < n) (h : a + n ≤ s.regionEnd a) : s.pieces a n = [(a, n)] := by
  have hmin : min n (s.regionEnd a - a) = n := by omega
  rw [State.pieces, State.pieces.go, if_neg (by omega)]
  simp only [hmin, Nat.sub_self]
  rw [show n / 0x8000 + 3 = (n / 0x8000 + 2) + 1 from rfl, State.pieces.go, if_pos rfl]

theorem State.atomsOf_one {u : Nat} (hu : s.unitBytes a = u) (hpos : 0 < u) (ha : a % u = 0) : s.atomsOf a u = [a] := by
  have hdiv : a / u * u = a := Nat.div_mul_cancel (Nat.dvd_of_mod_eq_zero ha)
  have hlast : (a + u - 1) / u = a / u := by
    obtain ⟨q, hq⟩ := Nat.dvd_of_mod_eq_zero ha
    rw [hq, Nat.mul_div_cancel_left _ hpos, Nat.add_sub_assoc hpos, Nat.mul_add_div hpos, Nat.div_eq_of_lt (by omega),
      Nat.add_zero]
  simp only [State.atomsOf, hu, if_neg (Nat.pos_iff_ne_zero.mp hpos), hlast, Nat.sub_self, Nat.zero_add]
  simp [hdiv]

/-! ### What an access notes -/

/-- The same state with other blocks. -/
def State.piloted (s : State) (p : Pilot) : State := { s with pilot := p }

/-- Noting the use of blocks changes only them. -/
theorem State.touch_eq (s : State) (a n : Nat) (r : Bool) : ∃ p, s.touch a n r = s.piloted p ∧ p.moves = s.pilot.moves := by
  rw [State.touch]
  split
  · exact ⟨s.pilot, rfl, rfl⟩
  · exact ⟨_, rfl, rfl⟩

/-- The rights and the map let the access through. -/
theorem State.requestCheck_granted {r : Requester} {write : Bool} (hl : s.logging = false)
    (h : s.accessCheck (s.requesterTenant r) write a n = none) :
    s.requestCheck r write a n = (none, { s with agent := agentOf (requesterUnit r).1 (requesterUnit r).2 }) := by
  simp only [State.requestCheck, h, State.asAgent_keeps _ _ _ _ hl]

/-- What a refused request leaves. -/
theorem State.requestCheck_refused {r : Requester} {write : Bool} {e : Status}
    (h : s.accessCheck (s.requesterTenant r) write a n = some e) :
    ∃ k u tn, s.requestCheck r write a n = (some e, if e = ST_ISO_ADDRESS then s.isolation e k u tn a else s) := by
  simp only [State.requestCheck, h]
  exact ⟨_, _, _, rfl⟩

theorem Keeps.memRespond {ks : List Part} {o : State} {st : Status} {d : List Byte} (h : Keeps ks o s)
    (hk : [.resp] ⊆ ks := by decide) : Keeps ks o (s.memRespond st a d) := h.withResp hk

/-! ### Refused accesses -/

/-- The state after a refused access. -/
theorem refused_of_requestCheck {t : Nat} {e : Status} {u : State} (h : ∃ k i tn,
    u = (if e = ST_ISO_ADDRESS then (s.at t).isolation e k i tn a else s.at t).memRespond e a []) :
    u.resp = { status := e, addr := a, data := [] } ∧ (e = ST_ISO_ADDRESS → s.raised u [ST_ISO_ADDRESS])
      ∧ Keeps [.time, .events, .trace, .resp] s u := by
  obtain ⟨k, i, tn, rfl⟩ := h
  refine ⟨rfl, fun he => ?_, .memRespond (.ite (.isolation (.at (.refl s))) (.at (.refl s)))⟩
  rw [if_pos he, he]
  exact State.raised_raise (s := s.at t) (by decide)

theorem gives_memoryRead_refused {r : Requester} {t : Nat} {e : Status}
    (h : (s.at t).accessCheck (s.requesterTenant r) false a n = some e) :
    Gives (.memoryRead r a n [] t) s (fun u => u.resp = { status := e, addr := a, data := [] }
      ∧ (e = ST_ISO_ADDRESS → s.raised u [ST_ISO_ADDRESS]) ∧ Keeps [.time, .events, .trace, .resp] s u) := by
  obtain ⟨k, i, tn, hcheck⟩ := State.requestCheck_refused (s := s.at t) (r := r) h
  exact ⟨_, congrArg Host.Outcome.next (by rw [State.memoryRead, hcheck]), refused_of_requestCheck ⟨k, i, tn, rfl⟩⟩

theorem gives_memoryWrite_refused {r : Requester} {t : Nat} {e : Status}
    (h : (s.at t).accessCheck (s.requesterTenant r) true a bs.length = some e) :
    Gives (.memoryWrite r a bs t) s (fun u => u.resp = { status := e, addr := a, data := [] }
      ∧ (e = ST_ISO_ADDRESS → s.raised u [ST_ISO_ADDRESS]) ∧ Keeps [.time, .events, .trace, .resp] s u) := by
  obtain ⟨k, i, tn, hcheck⟩ := State.requestCheck_refused (s := s.at t) (r := r) h
  exact ⟨_, congrArg Host.Outcome.next (by rw [State.memoryWrite, hcheck]), refused_of_requestCheck ⟨k, i, tn, rfl⟩⟩

/-! ### Reads -/

theorem State.readAccess_one {errs : List (Nat × Nat × Nat)} {u : Pilot → State} (hl : s.logging = false)
    (hn : 0 < n) (hend : a + n ≤ s.regionEnd a) (h : ∀ p, (s.piloted p).decodedRead a n errs = (.ok bs, u p)) :
    ∃ p, s.readAccess a n errs = (.ok bs, u p) := by
  obtain ⟨p, hp, -⟩ := s.touch_eq a n true
  have hl' : (s.piloted p).logging = false := hl
  have hlog (l : List Nat) :
      l.foldl (fun s y => if (s.memLoc y).isSome then s.logUnit (s.unitAt y) else s) (s.piloted p)
        = (s.piloted p) := by
    induction l with
    | nil => rfl
    | cons y l ih => rw [List.foldl_cons, State.logUnit, State.logArb_off _ _ _ hl', ite_self, ih]
  refine ⟨p, ?_⟩
  rw [State.readAccess, State.pieces_one hn hend, List.foldl_cons, List.foldl_nil]
  simp only [hp, hlog, h, List.nil_append]

theorem State.countReads_one (hn : 0 < n) (hend : a + n ≤ s.regionEnd a) (ht : s.region a ≠ .tier2) :
    s.countReads a n = s := by
  rw [State.countReads, State.pieces_one hn hend, List.foldl_cons, List.foldl_nil]
  split
  · next h => exact absurd h ht
  · rfl

/-- The state of a granted access at time `t`. -/
def State.granted (s : State) (r : Requester) (t : Nat) : State :=
  { s.at t with agent := agentOf (requesterUnit r).1 (requesterUnit r).2 }

theorem State.granted_keeps {r : Requester} {t : Nat} : Keeps [.time, .agent] s (s.granted r t) := by
  simp [Keeps, State.granted, State.at]

/-- A read of one piece of memory that is ready. -/
theorem State.memoryRead_ready {r : Requester} {errs : List (Nat × Nat × Nat)} {t : Nat} {u : Pilot → State} (hl : s.logging = false)
    (hc : (s.at t).accessCheck (s.requesterTenant r) false a n = none) (hreg : regAt a = none) (hn : 0 < n)
    (hend : a + n ≤ s.regionEnd a) (hready : s.memReady true a n = true) (ht : s.region a ≠ .tier2)
    (hread : ∀ p, ((s.granted r t).piloted p).decodedRead a n errs = (.ok bs, u p))
    (hmap : ∀ p, s.SameMap (u p)) :
    ∃ p, execMemoryRead r a n errs t s = .next ((u p).memRespond 0 0 bs) := by
  obtain ⟨p, hp⟩ := State.readAccess_one (s := s.granted r t) (u := u) hl hn hend hread
  have hcheck := State.requestCheck_granted (s := s.at t) hl hc
  have hpieces : (s.granted r t).pieces a n = [(a, n)] := State.pieces_one (s := s.granted r t) hn hend
  have hmapg : s.SameMap (s.granted r t) := .of_eq rfl rfl
  have hsame (b : Bool) : (s.granted r t).memReady b a n = s.memReady b a n := by
    simp only [State.memReady, hmapg.region, hmapg.atomsOf, hmapg.unitAt]
    rfl
  have hready' := (hsame true).trans hready
  have hcount : (u p).countReads a n = u p :=
    State.countReads_one hn (Nat.le_trans hend (Nat.le_of_eq ((hmap p).regionEnd a).symm))
      (fun h => ht (((hmap p).region a).symm.trans h))
  refine ⟨p, congrArg Host.Outcome.next ?_⟩
  rw [State.memoryRead, hcheck, ← State.granted]
  simp only [hreg, hpieces, List.all_cons, List.all_nil, hready', Bool.and_self, if_true, hp, hcount]

/-! ### Good bytes of a scratchpad -/

theorem Mem.readBytes_append {m : Mem} (i j : Nat) (a : Nat) :
    Mem.readBytes m a (i + j) = (Mem.readBytes m a i).bind (fun x => (Mem.readBytes m (a + i) j).map (x ++ ·)) := by
  induction i generalizing a with
  | zero => simp [Mem.readBytes]
  | succ i ih =>
    rw [Nat.add_right_comm, Mem.readBytes, ih, Mem.readBytes, Nat.add_right_comm a 1 i]
    cases Mem.read m a <;> cases Mem.readBytes m (a + 1) i <;> cases Mem.readBytes m (a + i + 1) j <;> rfl

theorem Mem.length_of_readBytes {m : Mem} {n a : Nat} {bs : List Byte} (h : Mem.readBytes m a n = some bs) : bs.length = n := by
  rw [← Mem.map_getD_of_readBytes h (fun _ => 0), List.length_map, List.length_range]

/-- Good words of a scratchpad, read one after another. -/
theorem State.decodedRead_go_spad {x b m : Nat} {acc : List Byte} (hr : s.region b = .spad k)
    (h : Mem.readBytes s.mem x (8 * m) = some bs) :
    State.decodedRead.go b (fun _ => []) 8 m x acc none s = (.ok (acc ++ bs), s) := by
  induction m generalizing x acc bs with
  | zero =>
    rw [Mem.readBytes] at h
    rw [State.decodedRead.go, ← Option.some.inj h, List.append_nil]
  | succ m ih =>
    rw [Nat.mul_succ, Nat.add_comm, Mem.readBytes_append] at h
    obtain ⟨w, hw, h⟩ := Option.bind_eq_some_iff.mp h
    obtain ⟨rest, hrest, rfl⟩ := Option.map_eq_some_iff.mp h
    rw [State.decodedRead.go]
    simp only [hr, State.readWord, hw, List.any_nil, Bool.false_eq_true, if_false, List.filter_nil, List.length_nil, if_true]
    rw [ih hrest, List.append_assoc]

theorem State.decodedRead_spad (hr : s.region a = .spad k) (ha : a % 8 = 0) (hn8 : n % 8 = 0) (hn : 0 < n)
    (h : Mem.readBytes s.mem a n = some bs) : s.decodedRead a n [] = (.ok bs, s) := by
  have hu : s.unitBytes a = 8 := by rw [State.unitBytes, hr]
  have hcount : (a + n - 1) / 8 - a / 8 + 1 = n / 8 := by omega
  have hfirst : a / 8 * 8 = a := by omega
  have hgo := State.decodedRead_go_spad (x := a) (m := n / 8) (acc := []) hr (by rw [show 8 * (n / 8) = n by omega]; exact h)
  simp only [State.decodedRead, hu, if_neg (Nat.pos_iff_ne_zero.mp hn), hcount, hfirst, List.filter_nil, List.map_nil,
    hgo, List.nil_append, Nat.sub_self, List.drop_zero]
  rw [List.take_of_length_le (Nat.le_of_eq (Mem.length_of_readBytes h))]

theorem gives_memoryRead_spad {r : Requester} {t : Nat}
    (hc : (s.at t).accessCheck (s.requesterTenant r) false a n = none) (hr : s.region a = .spad k)
    (hf : s.bring.tilesFilled = true) (hl : s.logging = false) (ha : a % 8 = 0) (hn8 : n % 8 = 0) (hn : 0 < n)
    (hend : a + n ≤ s.regionEnd a) (h : Mem.readBytes s.mem a n = some bs) :
    Gives (.memoryRead r a n [] t) s (fun u => u.resp = { status := 0, addr := 0, data := bs }
      ∧ Keeps [.time, .pilot, .agent, .resp] s u) := by
  have hready : s.memReady true a n = true := by simp [State.memReady, hr, hf]
  obtain ⟨p, hp⟩ := State.memoryRead_ready (u := (s.granted r t).piloted) hl hc (regAt_spad hr) hn hend hready (by simp [hr])
    (fun p => State.decodedRead_spad (s := ((s.granted r t).piloted p)) hr ha hn8 hn h)
    (fun p => .of_eq rfl rfl)
  exact ⟨_, hp, rfl, .memRespond (.withPilot (s := s.granted r t) (State.granted_keeps.mono (by decide)))⟩

/-! ### One atom of tier 1 -/

/-- An atom of tier 1 is one atom of 64 bytes. -/
theorem State.decodedRead_atom {errs : List (Nat × Nat × Nat)} {er : List (Nat × Nat)} {u : State} (hr : s.region a = .tier1)
    (ha : a % 64 = 0) (her : (errs.filter (fun e => e.1 == a)).map (fun e => e.2) = er)
    (h : s.readAtom a er = (some bs, u)) (hbs : bs.length = 64) : s.decodedRead a 64 errs = (.ok bs, u) := by
  have hu : s.unitBytes a = 64 := by rw [State.unitBytes, hr]
  have hcount : (a + 64 - 1) / 64 - a / 64 = 0 := by omega
  have hfirst : a / 64 * 64 = a := by omega
  simp only [State.decodedRead, hu, Nat.reduceEqDiff, if_false, hcount, hfirst, State.decodedRead.go, hr, her, h,
    List.nil_append, Nat.sub_self, List.drop_zero]
  rw [List.take_of_length_le (Nat.le_of_eq hbs)]

theorem State.readAtom_good (hm : s.tiers.merge = []) (hf : s.unitFenced (s.unitAt a) = false)
    (h64 : atomBytes (s.unitAt a) = 64) (h : Mem.readBytes s.mem a 64 = some bs) : s.readAtom a [] = (some bs, s) := by
  have hclass : classify 64 false [] = .good := rfl
  simp only [State.readAtom, State.retireAll_empty s _ hm, hf, Bool.false_eq_true, if_false, h64, h, Option.isNone_some,
    hclass, List.filter_nil, Option.getD_some, xorBytes, List.foldl_nil]

/-- What the count of a corrected error changes. -/
theorem State.ceUnit_tiers {b : Nat} (hb : b < 2048) : ∃ k, (s.ceUnit b).tiers = { s.tiers with
    integ := Table.upd s.tiers.integ (integIndex b) Integrity.reset (fun x => { x with ceTotal := x.ceTotal + 1 })
    buckets := Table.put s.tiers.buckets b k } := by
  rw [State.ceUnit]
  simp only [if_neg (Nat.not_le.mpr hb)]
  split
  · exact ⟨_, State.raise_tiers ..⟩
  · exact ⟨_, rfl⟩

/-- A corrected atom goes into the queue of write-backs. -/
def State.corrected (s : State) (a : Nat) (d : List Byte) : State :=
  { s.ceUnit (s.unitAt a) with tiers := { (s.ceUnit (s.unitAt a)).tiers with
      writeBacks := Table.put (s.ceUnit (s.unitAt a)).tiers.writeBacks a (BitVec.ofNat 1024 (natOfBytes d)) } }

theorem State.readAtom_corrected {er fix : List (Nat × Nat)} (hm : s.tiers.merge = [])
    (hf : s.unitFenced (s.unitAt a) = false) (h64 : atomBytes (s.unitAt a) = 64) (h : Mem.readBytes s.mem a 64 = some bs)
    (hfix : classify 64 false er = .corrected fix) :
    s.readAtom a er = (some (xorBytes bs ((er ++ fix).filter (fun e => decide (e.1 < 64)))),
      s.corrected a (xorBytes bs ((er ++ fix).filter (fun e => decide (e.1 < 64))))) := by
  simp only [State.readAtom, State.retireAll_empty s _ hm, hf, Bool.false_eq_true, if_false, h64, h, Option.isNone_some,
    hfix, Option.getD_some]
  rfl

theorem xorBytes_length (es : List (Nat × Nat)) : (xorBytes bs es).length = bs.length := by
  rw [xorBytes]
  induction es generalizing bs with
  | nil => rfl
  | cons e es ih => rw [List.foldl_cons, ih, List.length_set]

theorem State.spreadAt_lt (w : Nat) (hw : w < s.pcTotal) : (s.spreadAt w).2 * 64 + (s.spreadAt w).1 < 768 := by
  rw [State.spreadAt]
  split
  · omega
  · cases hp : s.spreadList[w]? with
    | none => simp
    | some p =>
      obtain ⟨i, hi, rfl⟩ : ∃ i, i < 768 ∧ (i / 12, i % 12) = p := by
        have := List.mem_of_getElem? hp
        simp only [State.spreadList, List.mem_filter, List.mem_map, List.mem_range] at this
        exact this.1
      simp only [Option.getD_some]
      omega

theorem unitNumber_lt {st pc : Nat} (hst : st < 12) (hpc : pc < 64) : st * 64 + pc < 768 := by omega

theorem find_range_lt (n : Nat) (hn : 0 < n) (p : Nat → Bool) : ((List.range n).reverse.find? p).getD 0 < n := by
  cases hf : (List.range n).reverse.find? p with
  | none => exact hn
  | some k => exact List.mem_range.mp (List.mem_reverse.mp (List.mem_of_find?_eq_some hf))

theorem State.pcList_lt (k i : Nat) : ((s.pcList k)[i]?).getD 0 < 64 := by
  cases hp : (s.pcList k)[i]? with
  | none => exact Nat.succ_pos _
  | some p =>
    have hm := List.mem_of_getElem? hp
    rw [State.pcList, List.mem_filter] at hm
    simpa using hm.1

theorem State.t1Loc_unit_lt (hpos : 0 < s.pcTotal) : (s.t1Loc a).unit < 768 := by
  simp only [State.t1Loc]
  split
  · have h := State.spreadAt_lt (s := s) (a / 4096 % s.pcTotal) (Nat.mod_lt _ hpos)
    generalize s.spreadAt (a / 4096 % s.pcTotal) = p at h ⊢
    obtain ⟨pc, stack⟩ := p
    exact h
  · exact unitNumber_lt (find_range_lt 12 (Nat.succ_pos _) _) (State.pcList_lt _ _)

theorem State.pcTotal_pos (h : s.region a = .tier1) : 0 < s.pcTotal := by
  have htop := State.region_tier1 h
  refine Classical.byContradiction fun hn => ?_
  rw [State.t1Top, Nat.eq_zero_of_not_pos hn, Nat.zero_mul, ite_self] at htop
  exact Nat.not_lt_zero a htop

theorem State.unitAt_eq_t1Loc (h : s.region a = .tier1) : s.unitAt a = (s.t1Loc a).unit := by
  have hloc : s.memLoc a = some (s.t1Loc a) := by rw [State.memLoc, h]
  rw [State.unitAt, hloc, Option.map_some, Option.getD_some]

/-- The units of tier 1 are those of 12 stacks. -/
theorem State.unitAt_tier1 (h : s.region a = .tier1) : s.unitAt a < 768 := by
  rw [State.unitAt_eq_t1Loc h]
  exact State.t1Loc_unit_lt (State.pcTotal_pos h)

theorem State.atomBytes_tier1 (h : s.region a = .tier1) : atomBytes (s.unitAt a) = 64 := by
  have := State.unitAt_tier1 h
  rw [atomBytes, if_pos (by omega)]

theorem State.unitBytes_tier1_end (h : s.region a = .tier1) (ha : a + 64 ≤ s.t1Top) : a + 64 ≤ s.regionEnd a := by
  rw [State.regionEnd, h]
  exact ha

theorem gives_memoryRead_tier1 {r : Requester} {t : Nat}
    (hc : (s.at t).accessCheck (s.requesterTenant r) false a 64 = none) (hr : s.region a = .tier1)
    (hready : s.memReady true a 64 = true) (hl : s.logging = false) (ha : a % 64 = 0) (htop : a + 64 ≤ s.t1Top)
    (hf : s.unitFenced (s.unitAt a) = false) (hm : s.tiers.merge = []) (h : Mem.readBytes s.mem a 64 = some bs) :
    Gives (.memoryRead r a 64 [] t) s (fun u => u.resp = { status := 0, addr := 0, data := bs }
      ∧ Keeps [.time, .pilot, .agent, .resp] s u) := by
  obtain ⟨p, hp⟩ := State.memoryRead_ready (u := (s.granted r t).piloted) (errs := []) hl hc (regAt_tier1 hr) (by omega)
    (State.unitBytes_tier1_end hr htop) hready (by simp [hr]) (fun p => by
      have hmap : s.SameMap ((s.granted r t).piloted p) := .of_eq rfl rfl
      have hr' := (hmap.region a).trans hr
      refine State.decodedRead_atom hr' ha rfl (State.readAtom_good hm ?_ (State.atomBytes_tier1 hr') h)
        (Mem.length_of_readBytes h)
      rw [hmap.unitAt]
      exact hf) (fun p => .of_eq rfl rfl)
  exact ⟨_, hp, rfl, .memRespond (.withPilot (s := s.granted r t) (State.granted_keeps.mono (by decide)))⟩

theorem Keeps.ceUnit {ks : List Part} {o : State} {b : Nat} (h : Keeps ks o s)
    (hk : [.tiers, .events, .trace] ⊆ ks := by decide) : Keeps ks o (s.ceUnit b) :=
  h.lift hk fun o h => by
  rw [State.ceUnit]
  exact .ite (.raise (.withTiers (.updInteg h))) (.withTiers (.updInteg h))

theorem gives_memoryRead_corrected {r : Requester} {t : Nat} {er fix : List (Nat × Nat)}
    (hc : (s.at t).accessCheck (s.requesterTenant r) false a 64 = none) (hr : s.region a = .tier1)
    (hready : s.memReady true a 64 = true) (hl : s.logging = false) (ha : a % 64 = 0) (htop : a + 64 ≤ s.t1Top)
    (hf : s.unitFenced (s.unitAt a) = false) (hm : s.tiers.merge = []) (h : Mem.readBytes s.mem a 64 = some bs)
    (hfix : classify 64 false er = .corrected fix) :
    Gives (.memoryRead r a 64 (er.map (fun e => (a, e.1, e.2))) t) s (fun u => u.resp.status = 0
      ∧ u.resp.data = xorBytes bs ((er ++ fix).filter (fun e => decide (e.1 < 64))) ∧ u.mem = s.mem
      ∧ (u.integ (integIndex (s.unitAt a))).ceTotal = (s.integ (integIndex (s.unitAt a))).ceTotal + 1
      ∧ Table.find u.tiers.writeBacks a = some (BitVec.ofNat 1024 (natOfBytes u.resp.data))
      ∧ OnlyAt s.tiers.writeBacks u.tiers.writeBacks a
      ∧ Keeps [.time, .tiers, .events, .trace, .pilot, .agent, .resp] s u) := by
  have her : ((er.map (fun e => (a, e.1, e.2))).filter (fun e => e.1 == a)).map (fun e => e.2) = er := by
    simp [List.filter_map, Function.comp_def]
  have hlen := Mem.length_of_readBytes h
  have hb : s.unitAt a < 2048 := Nat.lt_trans (State.unitAt_tier1 hr) (by decide)
  have hmap (p : Pilot) : s.SameMap ((s.granted r t).piloted p) := .of_eq rfl rfl
  have htiers (p : Pilot) := State.ceUnit_tiers (s := (s.granted r t).piloted p) hb
  obtain ⟨p, hp⟩ := State.memoryRead_ready (errs := er.map (fun e => (a, e.1, e.2)))
    (bs := xorBytes bs ((er ++ fix).filter (fun e => decide (e.1 < 64))))
    (u := fun p => ((s.granted r t).piloted p).corrected a (xorBytes bs ((er ++ fix).filter (fun e => decide (e.1 < 64)))))
    hl hc (regAt_tier1 hr) (by omega) (State.unitBytes_tier1_end hr htop) hready (by simp [hr])
    (fun p => by
      have hr' := ((hmap p).region a).trans hr
      refine State.decodedRead_atom hr' ha her (State.readAtom_corrected hm ?_ (State.atomBytes_tier1 hr') h hfix)
        ((xorBytes_length _).trans hlen)
      rw [(hmap p).unitAt]
      exact hf)
    (fun p => by
      obtain ⟨k, hk⟩ := htiers p
      refine .trans (hmap p) ?_
      have hlic : (((s.granted r t).piloted p).ceUnit (s.unitAt a)).licences = s.licences :=
        (Keeps.ceUnit (ks := [.tiers, .events, .trace]) (b := s.unitAt a) (.refl ((s.granted r t).piloted p))).licences_eq
          (by decide)
      simp only [State.corrected, (hmap p).unitAt, hk]
      exact ⟨rfl, rfl, rfl, rfl, rfl, hlic⟩)
  obtain ⟨k, hk⟩ := htiers p
  have hkeep := Keeps.ceUnit (b := s.unitAt a) (.refl ((s.granted r t).piloted p)) (ks := [.tiers, .events, .trace])
  refine ⟨_, hp, rfl, rfl, ?_, ?_, ?_, ?_, ?_⟩
  · simp only [State.memRespond, State.corrected, (hmap p).unitAt]
    exact hkeep.mem_eq (by decide)
  · simp only [State.integ, State.memRespond, State.corrected, (hmap p).unitAt, hk, Table.getD_upd_self]
    rfl
  · simp only [State.memRespond, State.corrected, Table.find_put_self]
  · simp only [State.memRespond, State.corrected, (hmap p).unitAt, hk]
    exact .put
  · exact .memRespond (.withTiers (.ceUnit (.withPilot (s := s.granted r t) (State.granted_keeps.mono (by decide)))))

/-! ### Writes of a scratchpad -/

theorem Mem.writeBytes_append {m : Mem} (x y : List Byte) (a : Nat) :
    Mem.writeBytes m a (x ++ y) = Mem.writeBytes (Mem.writeBytes m a x) (a + x.length) y := by
  induction x generalizing m a with
  | nil => rfl
  | cons b x ih =>
    rw [List.cons_append, Mem.writeBytes, ih, Mem.writeBytes, List.length_cons, Nat.add_assoc, Nat.add_comm 1]

/-- One step of a write by units, where the unit is written whole. -/
theorem Mem.writeUnits_step {m : Mem} {u q j : Nat} (hj : j * u + u ≤ bs.length) (m' : Mem)
    (hm : m' = Mem.writeBytes m (q * u) (bs.take (j * u))) :
    (if min (q * u + bs.length) ((q + j) * u + u) - max (q * u) ((q + j) * u) = u
        ∨ (Mem.readBytes m' ((q + j) * u) u).isSome
      then Mem.writeBytes m' (max (q * u) ((q + j) * u)) ((bs.drop (max (q * u) ((q + j) * u) - q * u)).take
        (min (q * u + bs.length) ((q + j) * u + u) - max (q * u) ((q + j) * u)))
      else Mem.drop m' ((q + j) * u) u) = Mem.writeBytes m (q * u) (bs.take ((j + 1) * u)) := by
  have hlo : max (q * u) ((q + j) * u) = q * u + j * u := by
    rw [Nat.add_mul]
    omega
  have hhi : min (q * u + bs.length) ((q + j) * u + u) = q * u + j * u + u := by
    rw [Nat.add_mul]
    omega
  rw [hlo, hhi, if_pos (Or.inl (by omega)), show q * u + j * u - q * u = j * u by omega,
    show q * u + j * u + u - (q * u + j * u) = u by omega, hm, Nat.succ_mul, List.take_add, Mem.writeBytes_append,
    List.length_take, Nat.min_eq_left (by omega)]

theorem lastUnit_div {q k u : Nat} (hu : 0 < u) : (q * u + (k + 1) * u - 1) / u = q + k := by
  have h : q * u + (k + 1) * u - 1 = (u - 1) + u * (q + k) := by
    rw [Nat.succ_mul, Nat.mul_add, Nat.mul_comm u q, Nat.mul_comm u k]
    omega
  rw [h, Nat.add_mul_div_left _ _ hu, Nat.div_eq_of_lt (by omega), Nat.zero_add]

/-- Whole units are written as they stand. -/
theorem Mem.writeUnits_aligned {m : Mem} {u : Nat} (hu : 0 < u) (ha : a % u = 0) (hb : bs.length % u = 0) :
    Mem.writeUnits m u a bs = Mem.writeBytes m a bs := by
  obtain ⟨q, rfl⟩ := Nat.dvd_of_mod_eq_zero ha
  obtain ⟨k, hk⟩ := Nat.dvd_of_mod_eq_zero hb
  rw [Nat.mul_comm u q] at *
  rw [Nat.mul_comm u k] at hk
  have hfold (j : Nat) (hj : j ≤ k) : (List.range j).foldl (fun m' i =>
      if min (q * u + bs.length) ((q + i) * u + u) - max (q * u) ((q + i) * u) = u
          ∨ (Mem.readBytes m' ((q + i) * u) u).isSome
        then Mem.writeBytes m' (max (q * u) ((q + i) * u)) ((bs.drop (max (q * u) ((q + i) * u) - q * u)).take
          (min (q * u + bs.length) ((q + i) * u + u) - max (q * u) ((q + i) * u)))
        else Mem.drop m' ((q + i) * u) u) m = Mem.writeBytes m (q * u) (bs.take (j * u)) := by
    induction j with
    | zero => simp [Mem.writeBytes]
    | succ j ih =>
      have hle : (j + 1) * u ≤ k * u := Nat.mul_le_mul_right u hj
      rw [Nat.succ_mul] at hle
      rw [List.range_succ, List.foldl_append, List.foldl_cons, List.foldl_nil]
      exact Mem.writeUnits_step (by omega) _ (ih (by omega))
  have hcount : (if bs.length = 0 then 0 else (q * u + bs.length - 1) / u + 1 - q * u / u) = k := by
    rw [Nat.mul_div_cancel _ hu, hk]
    split
    · next h => exact ((Nat.mul_eq_zero.mp h).resolve_right (by omega)).symm
    · next h =>
      have hpos : 0 < k * u := Nat.pos_of_ne_zero h
      obtain ⟨k, rfl⟩ := Nat.exists_eq_succ_of_ne_zero (fun h0 : k = 0 => h (by rw [h0, Nat.zero_mul]))
      rw [lastUnit_div hu]
      omega
  rw [Nat.mul_div_cancel _ hu] at hcount
  simp only [Mem.writeUnits, Nat.mul_div_cancel _ hu, hcount, hfold k (Nat.le_refl k)]
  rw [List.take_of_length_le (by omega)]

/-- Whole units of a scratchpad are written as they stand. -/
theorem State.writePlain_spad (hr : s.region a = .spad k) (ha : a % 8 = 0) (hb : bs.length % 8 = 0) (hne : bs ≠ [])
    (hend : a + bs.length ≤ s.regionEnd a) : s.writePlain a bs = { s with mem := Mem.writeBytes s.mem a bs } := by
  have hpos : 0 < bs.length := List.length_pos_iff.mpr hne
  have hmin : min bs.length (s.regionEnd a - a) = bs.length := by omega
  have hpart : s.countPartial k 8 a bs.length = s := by
    have hfirst : a / 8 * 8 = a := by omega
    have hlast : (a + bs.length - 1) / 8 * 8 = a + bs.length - 8 := by omega
    simp only [State.countPartial, if_neg (Nat.pos_iff_ne_zero.mp hpos), hfirst, hlast]
    rw [if_pos]
    simp [b2n, show ¬ (a + bs.length < a + 8) by omega, show ¬ (a + bs.length - 8 < a) by omega,
      show a + bs.length - 8 + 8 = a + bs.length by omega]
  rw [State.writePlain, State.writePlain.go, if_neg (by simpa using hne)]
  simp only [hmin, hr, List.take_length, List.drop_length, hpart, Mem.writeUnits_aligned (Nat.succ_pos 7) ha hb]
  rw [State.writePlain.go]
  exact if_pos rfl

/-- A write that no move of a block meets. -/
theorem State.writeMem_spad (hr : s.region a = .spad k) (hmv : s.pilot.moves = []) (ha : a % 8 = 0)
    (hb : bs.length % 8 = 0) (hne : bs ≠ []) (hend : a + bs.length ≤ s.regionEnd a) :
    ∃ p, s.writeMem a bs = { s.piloted p with mem := Mem.writeBytes s.mem a bs } := by
  obtain ⟨p, hp, hmoves⟩ := s.touch_eq a bs.length false
  have hmoves' : (s.piloted p).pilot.moves = [] := hmoves.trans hmv
  refine ⟨p, ?_⟩
  simp only [State.writeMem, hp, hmoves', List.any_nil, Bool.false_eq_true, if_false, List.filter_nil, List.foldl_nil]
  exact State.writePlain_spad (s := s.piloted p) hr ha hb hne hend

theorem gives_memoryWrite_spad {r : Requester} {t : Nat}
    (hc : (s.at t).accessCheck (s.requesterTenant r) true a bs.length = none) (hr : s.region a = .spad k)
    (hmv : s.pilot.moves = []) (hl : s.logging = false) (ha : a % 8 = 0) (hb : bs.length % 8 = 0) (hne : bs ≠ [])
    (hend : a + bs.length ≤ s.regionEnd a) :
    Gives (.memoryWrite r a bs t) s (fun u => u.resp = { status := 0, addr := a, data := [] }
      ∧ Mem.readBytes u.mem a bs.length = some bs ∧ SameOutside s.mem u.mem a (a + bs.length)
      ∧ Keeps [.time, .mem, .pilot, .agent, .resp] s u) := by
  have hcheck := State.requestCheck_granted (s := s.at t) hl hc
  have hmap : s.SameMap (s.granted r t) := .of_eq rfl rfl
  have hr' := (hmap.region a).trans hr
  have hend' := Nat.le_trans hend (Nat.le_of_eq (hmap.regionEnd a).symm)
  have hpos : 0 < bs.length := List.length_pos_iff.mpr hne
  have hready : (s.granted r t).memReady false a bs.length = true := by simp [State.memReady, hr']
  have hfenced : (s.granted r t).fencedIn a bs.length = false := by simp [State.fencedIn, hr']
  obtain ⟨p, hp⟩ := State.writeMem_spad hr' hmv ha hb hne hend'
  have hwrite : execMemoryWrite r a bs t s = .next (({ (s.granted r t).piloted p with
      mem := Mem.writeBytes s.mem a bs } : State).memRespond 0 a []) := by
    refine congrArg Host.Outcome.next ?_
    rw [State.memoryWrite, hcheck, ← State.granted]
    simp only [regAt_spad hr, Option.isSome_none, Bool.false_eq_true, if_false, State.pieces_one hpos hend', List.all_cons,
      List.all_nil, List.any_cons, List.any_nil, hready, hfenced, Bool.and_self, Bool.or_self, if_true, hp]
    rfl
  refine ⟨_, hwrite, rfl, Mem.readBytes_writeBytes bs s.mem a, ?_, ?_⟩
  · intro x hx
    exact Mem.read_writeBytes_outside bs s.mem a x hx
  · exact .memRespond (.withMem (s := (s.granted r t).piloted p) (.withPilot (s := s.granted r t)
      (State.granted_keeps.mono (by decide))))

end

/-- Settles O31. -/
theorem memoryAccess : Obligations.MemoryAccess := by
  refine ⟨?_, ?_, ?_, ?_, ?_, ?_⟩
  · intro s r a n t e h
    exact gives_memoryRead_refused h
  · intro s r a t bs e h
    exact gives_memoryWrite_refused h
  · intro s r a n t k bs hc hr hf hl ha hn8 hn hend h
    exact gives_memoryRead_spad hc hr hf hl ha hn8 hn hend h
  · intro s r a t bs hc hr hready hl ha htop hf hm h
    exact gives_memoryRead_tier1 hc hr hready hl ha htop hf hm h
  · intro s r a t bs er fix hc hr hready hl ha htop hf hm h hfix
    exact gives_memoryRead_corrected hc hr hready hl ha htop hf hm h hfix
  · intro s r a t k bs hc hr hmv hl ha hb hne hend
    exact gives_memoryWrite_spad hc hr hmv hl ha hb hne hend

end Sys2Proof.Machine

/-! Settles the statement about merging, write-back, refresh and leaks. -/

namespace Sys2Proof.Machine

set_option Elab.async false

section
variable {s : State} {a n t : Nat} {e : MergeEntry}

/-- The bytes of an atom are written at its address, and its write-back is no longer due. -/
theorem State.putAtom_written (bs : List Byte) : Mem.readBytes (s.putAtom a bs).mem a bs.length = some bs
    ∧ SameOutside s.mem (s.putAtom a bs).mem a (a + bs.length) :=
  ⟨Mem.readBytes_writeBytes bs s.mem a, fun x hx => Mem.read_writeBytes_outside bs s.mem a x hx⟩

/-- An entry leaves the buffer and is merged over the bytes of its atom. -/
theorem State.retire_merges {old : List Byte} (h : Mem.readBytes s.mem e.atom (atomBytes e.unit) = some old) :
    ∃ u : State, s.retire e = u.putAtom e.atom (mergeBytes old e.mask.toNat e.data.toNat) ∧ u.mem = s.mem
      ∧ u.tiers.merge = s.tiers.merge.filter (fun x => x.atom != e.atom) ∧ Keeps [.tiers] s u := by
  rw [State.retire]
  by_cases hu : e.unit < 1024
  · refine ⟨{ s with tiers := { s.tiers with merge := s.tiers.merge.filter (fun x => x.atom != e.atom) } }, ?_, rfl, rfl,
      .withTiers (.refl s)⟩
    simp only [if_pos hu, h]
  · refine ⟨({ s with tiers := { s.tiers with merge := s.tiers.merge.filter (fun x => x.atom != e.atom) } }
      : State).updChan (e.unit - 1024) (fun c => { c with mergeRmw := c.mergeRmw + 1 }), ?_, rfl, rfl,
      .updChan (.withTiers (.refl s))⟩
    simp only [if_neg hu, State.updChan, h]

/-- An entry that has waited 1 µs is merged. -/
theorem gives_mergeRetire {old : List Byte} (hm : s.tiers.merge = [e]) (ht : e.last + usTicks 1 ≤ t)
    (h : Mem.readBytes s.mem e.atom (atomBytes e.unit) = some old) :
    Gives (.mergeRetire e.atom t) s (fun u =>
      Mem.readBytes u.mem e.atom (atomBytes e.unit) = some (mergeBytes old e.mask.toNat e.data.toNat)
      ∧ SameOutside s.mem u.mem e.atom (e.atom + atomBytes e.unit) ∧ u.tiers.merge = []
      ∧ Keeps [.time, .mem, .tiers] s u) := by
  obtain ⟨u, hu, hmem, hmerge, hkeep⟩ := State.retire_merges (s := s.at t) h
  have hlen : (mergeBytes old e.mask.toNat e.data.toNat).length = atomBytes e.unit := by
    rw [mergeBytes, List.length_map, List.length_range, Mem.length_of_readBytes h]
  obtain ⟨hread, hout⟩ := u.putAtom_written (a := e.atom) (mergeBytes old e.mask.toNat e.data.toNat)
  rw [hlen] at hread hout
  have hexec : execMergeRetire e.atom t s = .next (u.putAtom e.atom (mergeBytes old e.mask.toNat e.data.toNat)) := by
    have hfind : (s.at t).tiers.merge.find? (fun x => x.atom == e.atom) = some e := by
      rw [show (s.at t).tiers.merge = [e] from hm]
      simp
    simp only [execMergeRetire, hfind, State.time_at, if_pos (Nat.le_trans ht (Nat.le_max_right s.time t)), hu]
  refine ⟨_, hexec, hread, ?_, ?_, .putAtom (.trans (.at (.refl s)) (hkeep.mono (by decide)))⟩
  · rw [hmem] at hout
    exact hout
  · refine hmerge.trans ?_
    rw [show (s.at t).tiers.merge = [e] from hm]
    simp

theorem gives_mergeRetire_early (hm : s.tiers.merge = [e]) (hs : s.time < e.last + usTicks 1)
    (ht : t < e.last + usTicks 1) : Gives (.mergeRetire e.atom t) s (fun u => Keeps [.time] s u) := by
  have hexec : execMergeRetire e.atom t s = .next (s.at t) := by
    have hfind : (s.at t).tiers.merge.find? (fun x => x.atom == e.atom) = some e := by
      rw [show (s.at t).tiers.merge = [e] from hm]
      simp
    have hearly : ¬ (e.last + usTicks 1 ≤ (s.at t).time) := by
      rw [State.time_at]
      omega
    simp only [execMergeRetire, hfind, if_neg hearly]
  exact ⟨_, hexec, .at (.refl s)⟩

/-- A queued write-back puts its atom back. -/
theorem gives_ceWriteback {d : BitVec 1024} (h : Table.find s.tiers.writeBacks a = some d) :
    Gives (.ceWriteback a) s (fun u =>
      Mem.readBytes u.mem a (bytesOfNat (s.unitBytes a) d.toNat).length = some (bytesOfNat (s.unitBytes a) d.toNat)
      ∧ Table.find u.tiers.writeBacks a = none ∧ OnlyAt s.tiers.writeBacks u.tiers.writeBacks a
      ∧ SameOutside s.mem u.mem a (a + (bytesOfNat (s.unitBytes a) d.toNat).length)
      ∧ Keeps [.mem, .tiers] s u) := by
  obtain ⟨hread, hout⟩ := s.putAtom_written (a := a) (bytesOfNat (s.unitBytes a) d.toNat)
  have hexec : execCeWriteback a s = .next (s.putAtom a (bytesOfNat (s.unitBytes a) d.toNat)) := by
    rw [execCeWriteback, h]
  exact ⟨_, hexec, hread, Table.find_del_self .., fun j hj => Table.find_del_ne _ hj, hout, .putAtom (.refl s)⟩

/-! ### Heat -/

theorem getLsbD_two_pow {k : Nat} (hk : k < 12) : (BitVec.ofNat 12 (2 ^ n)).getLsbD k = decide (n = k) := by
  rw [BitVec.getLsbD_ofNat, Nat.testBit_two_pow]
  simp [hk]

theorem gives_dramHotChange {temp : Nat} {hot : Bool} {m : BitVec 12 → BitVec 12}
    (hm : (if 85 * 16 < sext 16 temp then s.tiers.stkHot ||| BitVec.ofNat 12 (2 ^ n)
      else if sext 16 temp ≤ 82 * 16 then s.tiers.stkHot &&& ~~~BitVec.ofNat 12 (2 ^ n) else s.tiers.stkHot)
      = m s.tiers.stkHot) :
    exec (.dramHotChange false n temp hot) s
      = .next { s with tiers := { s.tiers with stkHot := m s.tiers.stkHot } } := by
  rw [← hm]
  rfl

theorem gives_dramHotChange_hot {temp : Nat} {hot : Bool} (hn : n < 12) (h : 85 * 16 < sext 16 temp) :
    Gives (.dramHotChange false n temp hot) s (fun u => u.tiers.stkHot.getLsbD n = true
      ∧ (∀ k, k ∈ List.range 12 → k ≠ n → u.tiers.stkHot.getLsbD k = s.tiers.stkHot.getLsbD k)
      ∧ Keeps [.tiers] s u) := by
  refine ⟨_, gives_dramHotChange (m := fun w => w ||| BitVec.ofNat 12 (2 ^ n)) (if_pos h), ?_, ?_, .withTiers (.refl s)⟩
  · simp only [BitVec.getLsbD_or, getLsbD_two_pow hn, decide_true, Bool.or_true]
  · intro k hk hne
    simp only [BitVec.getLsbD_or, getLsbD_two_pow (List.mem_range.mp hk), decide_eq_false (Ne.symm hne), Bool.or_false]

theorem gives_dramHotChange_cool {temp : Nat} {hot : Bool} (hn : n < 12) (h : sext 16 temp ≤ 82 * 16) :
    Gives (.dramHotChange false n temp hot) s (fun u => u.tiers.stkHot.getLsbD n = false
      ∧ (∀ k, k ∈ List.range 12 → k ≠ n → u.tiers.stkHot.getLsbD k = s.tiers.stkHot.getLsbD k)
      ∧ Keeps [.tiers] s u) := by
  refine ⟨_, gives_dramHotChange (m := fun w => w &&& ~~~BitVec.ofNat 12 (2 ^ n))
    ((if_neg (by omega)).trans (if_pos h)), ?_, ?_, .withTiers (.refl s)⟩
  · simp only [BitVec.getLsbD_and, BitVec.getLsbD_not, getLsbD_two_pow hn, decide_true, Bool.not_true, Bool.and_false]
  · intro k hk hne
    have hk' := List.mem_range.mp hk
    simp only [BitVec.getLsbD_and, BitVec.getLsbD_not, getLsbD_two_pow hk', decide_eq_false (Ne.symm hne), hk',
      decide_true, Bool.not_false, Bool.and_true]

/-! ### Leaks -/

/-- A bucket loses one, and an empty one stays empty. -/
theorem leaked_toNat {w : Nat} (x : BitVec w) : (if x = 0 then 0 else x - 1 : BitVec w).toNat = x.toNat - 1 := by
  split
  · next h => simp [h]
  · next h =>
    have hpos : 1 ≤ x.toNat := by
      refine Classical.byContradiction fun hn => ?_
      exact h (BitVec.eq_of_toNat_eq (by simp; omega))
    have hlt := x.isLt
    have hone : (1 : BitVec w).toNat = 1 % 2 ^ w := BitVec.toNat_ofNat ..
    have hw : 1 < 2 ^ w := by omega
    rw [Nat.mod_eq_of_lt hw] at hone
    rw [BitVec.toNat_sub, hone]
    have heq : 2 ^ w - 1 + x.toNat = (x.toNat - 1) + 2 ^ w := by omega
    rw [heq, Nat.add_mod_right, Nat.mod_eq_of_lt (by omega)]

theorem gives_ceLeak_unit {b : Nat} (hb : b < 1024) (hms : 0 < (s.integ (integIndex b)).leakMs.toNat)
    (ht : Table.getD s.tiers.leakAt b 0 + msTicks (s.integ (integIndex b)).leakMs.toNat ≤ t) :
    Gives (.ceLeak b t false) s (fun u => (Table.getD u.tiers.buckets b CeBucket.reset).level.toNat
        = (Table.getD s.tiers.buckets b CeBucket.reset).level.toNat - 1
      ∧ OnlyAt s.tiers.buckets u.tiers.buckets b ∧ Keeps [.time, .tiers] s u) := by
  let tiers' : Tiers := { s.tiers with
    leakAt := Table.put s.tiers.leakAt b (max s.time t)
    buckets := Table.upd s.tiers.buckets b CeBucket.reset
      (fun k => { k with level := if k.level = 0 then 0 else k.level - 1 }) }
  have hexec : execCeLeak b t false s = .next { s.at t with tiers := tiers' } := by
    have hint : (s.at t).integ (integIndex b) = s.integ (integIndex b) := rfl
    have htiers : (s.at t).tiers = s.tiers := rfl
    have hdue : ¬ ((s.integ (integIndex b)).leakMs.toNat = 0
        ∨ max s.time t < Table.getD s.tiers.leakAt b 0 + msTicks (s.integ (integIndex b)).leakMs.toNat) := by
      have := Nat.le_max_right s.time t
      omega
    simp only [execCeLeak, Bool.false_eq_true, if_false, decide_eq_true_eq, if_neg (show ¬ 4096 ≤ b by omega),
      if_neg (show ¬ 2048 ≤ b by omega), hint, htiers, State.time_at, if_neg hdue, tiers']
  refine ⟨_, hexec, ?_, .put, .withTiers (.at (.refl s))⟩
  simp only [tiers', Table.getD_upd_self, leaked_toNat]

theorem gives_ceLeak_quay {q : Nat} (hms : 0 < (s.quay q).ceLeakMs.toNat)
    (ht : Table.getD s.tiers.leakAt (4096 + q) 0 + msTicks (s.quay q).ceLeakMs.toNat ≤ t) :
    Gives (.ceLeak (4096 + q) t false) s (fun u => (u.quay q).ceLevel.toNat = (s.quay q).ceLevel.toNat - 1
      ∧ OnlyAt s.quays u.quays q ∧ Keeps [.time, .quays, .tiers] s u) := by
  let v : State := { s.at t with tiers := { s.tiers with
    leakAt := Table.put s.tiers.leakAt (4096 + q) (max s.time t) } }
  have hexec : execCeLeak (4096 + q) t false s = .next (v.updQuay q (fun x => { x with
      ceLevel := if x.ceLevel = 0 then 0 else x.ceLevel - 1 })) := by
    have hquay : (s.at t).quay q = s.quay q := rfl
    have htiers : (s.at t).tiers = s.tiers := rfl
    have hdue : ¬ ((s.quay q).ceLeakMs.toNat = 0
        ∨ max s.time t < Table.getD s.tiers.leakAt (4096 + q) 0 + msTicks (s.quay q).ceLeakMs.toNat) := by
      have := Nat.le_max_right s.time t
      omega
    simp only [execCeLeak, Bool.false_eq_true, if_false, decide_eq_true_eq, if_pos (Nat.le_add_right 4096 q),
      Nat.add_sub_cancel_left, hquay, htiers, State.time_at, if_neg hdue, v]
  refine ⟨_, hexec, ?_, .put, .updQuay (.withTiers (.at (.refl s)))⟩
  rw [State.updQuay_eq, State.quay_setQuay, show v.quay q = s.quay q from rfl]
  exact leaked_toNat _

end

/-- Settles O32. -/
theorem mergeAndLeak : Obligations.MergeAndLeak := by
  refine ⟨?_, ?_, ?_, ?_, ?_, ?_, ?_, ?_, ?_⟩
  · intro s t e old hm ht h
    exact gives_mergeRetire hm ht h
  · intro s t e hm hs ht
    exact gives_mergeRetire_early hm hs ht
  · intro s a d h
    exact gives_ceWriteback h
  · intro s n
    exact ⟨s, rfl, rfl⟩
  · intro s n temp hot hn h
    exact gives_dramHotChange_hot hn h
  · intro s n temp hot hn h
    exact gives_dramHotChange_cool hn h
  · intro s n temp hot
    refine ⟨s.updChan n (fun c => { c with hot := hot }), rfl, ?_, .put, .withTiers (.refl s)⟩
    rw [State.chan, State.updChan, Table.getD_upd_self]
  · intro s b t hb hms ht
    exact gives_ceLeak_unit hb hms ht
  · intro s q t hms ht
    exact gives_ceLeak_quay hms ht

end Sys2Proof.Machine

/-! Refutes the statement about calibration and fencing: the accesses held for a fenced pseudo-channel are served
once it is fenced, their records go to the ring of the logbook, and the ring may lie in what has been fenced. -/

namespace Sys2Proof.Machine

set_option Elab.async false

/-- Pseudo-channel 0 of stack 0 has lost calibration at time 0, one read of its first atom is held, and the logbook
records into a ring at address 0. -/
def State.ringLost : State := { State.reset with
  tiers := { Tiers.reset with t1Up := true, t1Filled := true, calLost := [(0, 0)]
                              held := [{ write := false, addr := 0, len := 64, data := [] }], resv := [(6, (0, 8192))] }
  log := { State.reset.log with recording := true
                                points := [(0x100, { pseq := 1, iseq := 0, digest := 0, runWinner := some 1,
                                                     runStart := 0, runLen := 1 })] } }

/-- After the fence its bytes hold the header of the ring. -/
theorem State.ringLost_readable :
    Mem.read (((State.ringLost.at (msTicks 1)).fencePc 0).serveHeld).mem 0x20 = some 0 := by decide +kernel

/-- Refutes O33: the byte at 0x20 of `State.ringLost` can be read after the fence. -/
theorem not_memoryUnits : ¬ Obligations.MemoryUnits := by
  unfold Obligations.MemoryUnits
  rintro ⟨-, h, -⟩
  obtain ⟨u, hu, -, hread, -⟩ := h State.ringLost 0 0 (msTicks 1) 0 0x20 (by decide) (by decide) (by decide +kernel)
    (by decide +kernel) (by decide +kernel) (by decide +kernel)
  have he : ((State.ringLost.at (msTicks 1)).fencePc 0).serveHeld = u := Host.Outcome.next.inj hu
  rw [← he, State.ringLost_readable] at hread
  cases hread

end Sys2Proof.Machine

/-! Settles the statement about the handling of an uncorrectable atom. -/

namespace Sys2Proof.Machine

set_option Elab.async false

section
variable {s : State} {a n t : Nat} {bs : List Byte} {h : UeHandling}

/-! ### A write of one atom of tier 1 -/

/-- A write while no block moves. -/
theorem State.writeMem_still (hmv : s.pilot.moves = []) :
    ∃ p, s.writeMem a bs = (s.piloted p).writePlain a bs := by
  obtain ⟨p, hp, hmoves⟩ := s.touch_eq a bs.length false
  have hmoves' : (s.piloted p).pilot.moves = [] := hmoves.trans hmv
  refine ⟨p, ?_⟩
  simp only [State.writeMem, hp, hmoves', List.any_nil, Bool.false_eq_true, if_false, List.filter_nil, List.foldl_nil]

/-- The state in which a whole atom has been written. -/
def State.atomWritten (s : State) (a : Nat) (bs : List Byte) : State :=
  ({ s with tiers := { s.tiers with merge := s.tiers.merge.filter (fun x => x.atom != a) } }).putAtom a bs

theorem Keeps.atomWritten {ks : List Part} {o : State} (h : Keeps ks o s) (hk : [.mem, .tiers] ⊆ ks := by decide) :
    Keeps ks o (s.atomWritten a bs) :=
  h.lift hk fun _ h => .putAtom (.withTiers h)

theorem State.writeTier_atom (hl : s.logging = false) (hr : s.region a = .tier1) (ha : a % 64 = 0)
    (hf : s.unitFenced (s.unitAt a) = false) (hb : bs.length = 64) : s.writeTier a bs = s.atomWritten a bs := by
  have hatoms : s.atomsOf a 64 = [a] := State.atomsOf_one (by rw [State.unitBytes, hr]) (by omega) ha
  have hunit := State.unitAt_tier1 hr
  have hmin : min (a + 64) (a + 64) = a + 64 := Nat.min_self _
  simp only [State.writeTier, hb, hatoms, List.foldl_cons, List.foldl_nil, State.logUnit, State.logArb_off _ _ _ hl, hf,
    Bool.false_eq_true, if_false, if_pos (show s.unitAt a < 1024 by omega), State.atomBytes_tier1 hr, hmin, Nat.max_self,
    Nat.add_sub_cancel_left, if_true, Nat.sub_self, List.drop_zero]
  rw [List.take_of_length_le (by omega)]
  rfl

theorem State.writePlain_atom (hl : s.logging = false) (hr : s.region a = .tier1) (ha : a % 64 = 0)
    (htop : a + 64 ≤ s.t1Top) (hf : s.unitFenced (s.unitAt a) = false) (hb : bs.length = 64) :
    s.writePlain a bs = s.atomWritten a bs := by
  have hend := State.unitBytes_tier1_end hr htop
  have hmin : min bs.length (s.regionEnd a - a) = bs.length := by omega
  have hne : bs.isEmpty = false := by
    cases bs with
    | nil => cases hb
    | cons b r => rfl
  rw [State.writePlain, State.writePlain.go, hne, if_neg Bool.false_ne_true]
  simp only [hmin, hr, List.take_length, List.drop_length, State.writeTier_atom hl hr ha hf hb]
  rw [State.writePlain.go]
  exact if_pos rfl

/-! ### The owner of an atom -/

theorem State.no_resv (hr : s.tiers.resv = []) :
    (List.range 7).find? (fun k => meetsAtom a n (s.resv k).1 (s.resv k).2) = none := by
  have hresv (k : Nat) : s.resv k = (0, 0) := by rw [State.resv, hr]; rfl
  rw [List.find?_eq_none]
  intro k _
  simp [hresv, meetsAtom]

theorem State.atomOwner_ne_resv (hr : s.tiers.resv = []) (k : Nat) : s.atomOwner a n ≠ .resv k := by
  rw [State.atomOwner, State.no_resv hr]
  simp only
  split
  · exact fun h => by cases h
  · split <;> exact fun h => by cases h

theorem State.atomOwner_unknown (hr : s.tiers.resv = []) (hareas : s.kv.areas = []) (hslots : s.kv.slots = [])
    (hb : s.pilot.blocks = []) : s.atomOwner a n = .unknown := by
  have he : s.atomEntry a n = none := by rw [State.atomEntry, hareas, hslots]; rfl
  rw [State.atomOwner, State.no_resv hr, he, hb]
  rfl

/-! ### The end of a handling -/

theorem State.ueDone_last (hrun : s.tiers.ueRunning = [h]) (hq : s.tiers.ueQueue = []) :
    (s.ueDone h.atom).tiers.ueRunning = [] := by
  simp [State.ueDone, hrun, hq]

theorem Keeps.ueDone {ks : List Part} {o : State} (h : Keeps ks o s) (hk : [.tiers] ⊆ ks := by decide) :
    Keeps ks o (s.ueDone a) :=
  h.lift hk fun _ h => by
  rw [State.ueDone]
  exact .withTiers h

/-- An event is raised and the handling ends. -/
theorem State.raise_ueDone {st : Status} {k i arg : Nat} {tn : Option Nat} (ha : isAlarm st = false)
    (hrun : s.tiers.ueRunning = [h]) (hq : s.tiers.ueQueue = []) (he : s.events.entries = []) :
    ((((s.raise st k i tn arg).ueDone h.atom).events.entries.any (fun e => e.record.status == st)) = true)
      ∧ ((s.raise st k i tn arg).ueDone h.atom).tiers.ueRunning = [] := by
  refine ⟨?_, State.ueDone_last (by rw [State.raise_tiers, hrun]) (by rw [State.raise_tiers, hq])⟩
  have hentries : ((s.raise st k i tn arg).ueDone h.atom).events.entries = [s.newEntry st k i tn arg] :=
    State.raise_entries_of_nil he ha
  rw [hentries]
  simp [State.newEntry]

/-- An atom without an owner. -/
theorem gives_ueHandling (hrun : s.tiers.ueRunning = [h]) (htag : h.tag = none) (hq : s.tiers.ueQueue = [])
    (hr : s.tiers.resv = []) (hareas : s.kv.areas = []) (hslots : s.kv.slots = []) (hb : s.pilot.blocks = [])
    (he : s.events.entries = []) :
    Gives (.ueHandling h.atom t) s (fun u =>
      (u.events.entries.any (fun e => e.record.status == ST_UE_OWNER_UNKNOWN)) = true ∧ u.tiers.ueRunning = []
      ∧ Keeps [.time, .tiers, .events, .trace] s u) := by
  have howner (n : Nat) : (s.at t).atomOwner h.atom n = .unknown :=
    State.atomOwner_unknown (s := s.at t) hr hareas hslots hb
  have hask : (s.at t).askTwin h.atom .unknown = false := rfl
  have hfind : (s.at t).tiers.ueRunning.find? (fun x => x.atom == h.atom) = some h := by
    rw [show (s.at t).tiers.ueRunning = [h] from hrun]
    simp
  have hend : ∃ k i, execUeHandling h.atom t s
      = .next (((s.at t).raise ST_UE_OWNER_UNKNOWN k i none 0).ueDone h.atom) := by
    simp only [execUeHandling, hfind, htag, howner, hask, Bool.false_eq_true, if_false, State.ueEnd]
    exact ⟨_, _, rfl⟩
  obtain ⟨k, i, hend⟩ := hend
  obtain ⟨hany, hnone⟩ := State.raise_ueDone (s := s.at t) (k := k) (i := i) (arg := 0) (tn := none)
    (show isAlarm ST_UE_OWNER_UNKNOWN = false by decide) hrun hq he
  exact ⟨_, hend, hany, hnone, .ueDone (.raise (.at (.refl s)))⟩

/-- The state once the only packet of the inbox has been taken. -/
def State.inboxTaken (s : State) (p : Nat) (q : Packet) : State :=
  ({ s with fab := { s.fab with inbox := [] } } : State).freeSlots p q

theorem State.inboxTaken_keeps {p : Nat} {q : Packet} : Keeps [.fab] s (s.inboxTaken p q) :=
  .freeSlots (.withFab (.refl s))

theorem State.inboxTaken_inbox {p : Nat} {q : Packet} : (s.inboxTaken p q).fab.inbox = [] := by
  rw [State.inboxTaken, State.freeSlots]
  split <;> rfl

theorem State.takeInbox_one {p : Nat} {q : Packet} {f : Nat × Packet → Bool} (hi : s.fab.inbox = [(p, q)])
    (hf : f (p, q) = true) : s.takeInbox f = some (p, q, s.inboxTaken p q) := by
  simp only [State.takeInbox, hi, List.find?_cons, hf, State.takeInbox.drop, if_true, State.inboxTaken]

/-- The copy of the paired module is written over the atom. -/
theorem execMirrorRepairResponse_writes {p : Nat} {q : Packet} (hrun : s.tiers.ueRunning = [h]) (htag : h.tag = some q.tag)
    (hi : s.fab.inbox = [(p, q)]) (hvc : q.vc = 3) (hty : q.ptype = 5) (hr : s.tiers.resv = [])
    (hlen : q.data.length = s.unitBytes h.atom) (hbad : Mem.readBytes s.mem h.atom (s.unitBytes h.atom) = none) :
    ∃ k i, execMirrorRepairResponse t s = .next (((((s.at t).inboxTaken p q).writeMem h.atom q.data).raise
      ST_MIRROR_REPAIRED k i none 0).ueDone h.atom) := by
  let v := (s.at t).inboxTaken p q
  have hv : Keeps [.time, .fab] s v := .trans (.at (.refl s)) (State.inboxTaken_keeps.mono (by decide))
  have htiers : v.tiers = s.tiers := hv.tiers_eq (by decide)
  have hmap : s.SameMap v := .of_eq htiers (hv.licences_eq (by decide))
  have htake : (s.at t).takeInbox (fun x => x.2.vc == 3 && (x.2.ptype == 5 || x.2.ptype == 7)
      && ((s.at t).tiers.ueRunning.filterMap (fun h => h.tag)).contains x.2.tag) = some (p, q, v) := by
    refine State.takeInbox_one hi ?_
    rw [show (s.at t).tiers.ueRunning = [h] from hrun]
    simp [htag, hvc, hty]
  have hfind : v.tiers.ueRunning.find? (fun x => x.tag == some q.tag) = some h := by
    rw [htiers, hrun]
    simp [htag]
  have hread : v.readMem h.atom (s.unitBytes h.atom) = none := by
    rw [State.readMem, hv.mem_eq (by decide), hbad]
  have hno : ¬ (q.ptype = 7 ∨ q.data.length ≠ s.unitBytes h.atom) := by
    rw [hlen, hty]
    simp
  have howner (k : Nat) := State.atomOwner_ne_resv (s := v) (a := h.atom) (n := s.unitBytes h.atom)
    (by rw [htiers, hr]) k
  simp only [execMirrorRepairResponse, htake, hfind, hmap.unitBytes, if_neg hno, hread, Option.isSome_none,
    Bool.false_eq_true, if_false]
  exact ⟨_, _, rfl⟩

theorem gives_mirrorRepairResponse {p : Nat} {q : Packet} (hrun : s.tiers.ueRunning = [h]) (htag : h.tag = some q.tag)
    (hq : s.tiers.ueQueue = []) (hi : s.fab.inbox = [(p, q)]) (hvc : q.vc = 3) (hty : q.ptype = 5)
    (hr : s.tiers.resv = []) (hmv : s.pilot.moves = []) (hl : s.logging = false) (hreg : s.region h.atom = .tier1)
    (ha : h.atom % 64 = 0) (htop : h.atom + 64 ≤ s.t1Top) (hf : s.unitFenced (s.unitAt h.atom) = false)
    (hlen : q.data.length = 64) (hbad : Mem.readBytes s.mem h.atom 64 = none) (he : s.events.entries = []) :
    Gives (.mirrorRepairResponse t) s (fun u => Mem.readBytes u.mem h.atom 64 = some q.data
      ∧ SameOutside s.mem u.mem h.atom (h.atom + 64) ∧ u.tiers.ueRunning = [] ∧ u.fab.inbox = []
      ∧ (u.events.entries.any (fun e => e.record.status == ST_MIRROR_REPAIRED)) = true
      ∧ Keeps [.time, .mem, .tiers, .events, .trace, .fab, .pilot] s u) := by
  have h64 : s.unitBytes h.atom = 64 := by rw [State.unitBytes, hreg]
  obtain ⟨k, i, hexec⟩ := execMirrorRepairResponse_writes (t := t) hrun htag hi hvc hty hr (by rw [h64, hlen])
    (by rw [h64, hbad])
  have hv : Keeps [.time, .fab] s ((s.at t).inboxTaken p q) :=
    .trans (.at (.refl s)) (State.inboxTaken_keeps.mono (by decide))
  have hinbox := State.inboxTaken_inbox (s := s.at t) (p := p) (q := q)
  generalize (s.at t).inboxTaken p q = v at hexec hv hinbox
  have htiers : v.tiers = s.tiers := hv.tiers_eq (by decide)
  obtain ⟨b, hb⟩ := State.writeMem_still (s := v) (a := h.atom) (bs := q.data) (by rw [hv.pilot_eq (by decide), hmv])
  have hmap : s.SameMap (v.piloted b) := .of_eq htiers (hv.licences_eq (by decide))
  have hfenced : (v.piloted b).unitFenced ((v.piloted b).unitAt h.atom) = false := by
    rw [hmap.unitAt, ← hf, State.unitFenced, State.unitFenced, show (v.piloted b).tiers = s.tiers from htiers]
  have hlog : (v.piloted b).logging = false := by
    rw [← hl, State.logging, State.logging, State.replaying, State.replaying,
      show (v.piloted b).log = s.log from hv.log_eq (by decide)]
  rw [hb, State.writePlain_atom hlog ((hmap.region _).trans hreg) ha (Nat.lt_of_lt_of_eq htop hmap.t1Top.symm) hfenced hlen] at hexec
  obtain ⟨hread, hout⟩ := State.putAtom_written
    (s := { v.piloted b with tiers := { (v.piloted b).tiers with
      merge := (v.piloted b).tiers.merge.filter (fun x => x.atom != h.atom) } }) (a := h.atom) q.data
  rw [hlen] at hread hout
  obtain ⟨hany, hnone⟩ := State.raise_ueDone (s := (v.piloted b).atomWritten h.atom q.data) (k := k) (i := i) (arg := 0)
    (tn := none) (show isAlarm ST_MIRROR_REPAIRED = false by decide) (by rw [← hrun, ← htiers]; rfl)
    (by rw [← hq, ← htiers]; rfl) (by rw [← he, ← hv.events_eq (by decide)]; rfl)
  have hmem : ((((v.piloted b).atomWritten h.atom q.data).raise ST_MIRROR_REPAIRED k i none 0).ueDone h.atom).mem
      = ((v.piloted b).atomWritten h.atom q.data).mem := State.raise_mem ..
  refine ⟨_, hexec, ?_, ?_, hnone, ?_, hany, ?_⟩
  · rw [hmem]
    exact hread
  · rw [hmem]
    intro x hx
    rw [← hv.mem_eq (by decide)]
    exact hout x hx
  · rw [← hinbox]
    exact congrArg Fabric.inbox (State.raise_fab ..)
  · exact .ueDone (.raise (.atomWritten (.withPilot (hv.mono (by decide)))))

end

/-- Settles O34. -/
theorem uncorrectableAtoms : Obligations.UncorrectableAtoms := by
  refine ⟨?_, ?_⟩
  · intro s atom t h hrun hatom htag hq hr hareas hslots hb he
    subst hatom
    exact gives_ueHandling hrun htag hq hr hareas hslots hb he
  · intro s t p h q hrun htag hq hi hvc hty hr hmv hb hl hreg ha htop hu hf hlen hbad he
    exact gives_mirrorRepairResponse hrun htag hq hi hvc hty hr hmv hl hreg ha htop hf hlen hbad he

end Sys2Proof.Machine

/-! What the answer of the access check rests on, and states that hold one DMA list with one descriptor. -/

namespace Sys2Proof.Machine

set_option Elab.async false

/-- The parts of the state the access check does not read. -/
abbrev uncheckedParts : List Part := [.pending, .time, .onRing, .refclkFailSeen, .free, .mem, .hostMem, .central, .sync, .dma,
  .events, .trace, .hm, .fab, .graph, .pilot, .stks, .kv, .serving, .fw, .power, .thermal, .backup, .i3c, .agent, .resp]

section
variable {s u : State} {a n tn : Nat} {write : Bool} {bs : List Byte}

theorem Keeps.sameMap (h : Keeps uncheckedParts s u) : s.SameMap u := .of_eq (h.tiers_eq (by decide)) (h.licences_eq (by decide))

theorem State.checkPiece_of_keeps (h : Keeps uncheckedParts s u) : u.checkPiece tn write a n = s.checkPiece tn write a n := by
  have hm := h.sameMap
  have hb : u.bring = s.bring := h.bring_eq (by decide)
  have ht : u.tiers = s.tiers := h.tiers_eq (by decide)
  have hreset (k : Nat) : u.underReset k = s.underReset k := by simp only [State.underReset, hb]
  have hisolated : u.isolated a n = s.isolated a n := by simp only [State.isolated, hm.memLoc, hreset, hb]
  have hresv : u.resvHit a n = s.resvHit a n := by simp only [State.resvHit, ht]
  have hgrants : u.grants tn = s.grants tn := by
    simp only [State.grants, h.hif_eq (by decide)]
  have hpermitted : u.permitted tn write a n = s.permitted tn write a n := by
    simp only [State.permitted, hm.region, hresv, hgrants, State.tile, h.tiles_eq (by decide), h.log_eq (by decide)]
  have hquay (k : Nat) : u.quay k = s.quay k := by simp only [State.quay, h.quays_eq (by decide)]
  simp only [State.checkPiece, hm.region, hpermitted, hisolated, hreset, hquay]

theorem State.accessCheck_of_keeps (h : Keeps uncheckedParts s u) : u.accessCheck tn write a n = s.accessCheck tn write a n := by
  have hgo (k a n : Nat) : State.accessCheck.go u tn write k a n = State.accessCheck.go s tn write k a n := by
    induction k generalizing a n with
    | zero => rfl
    | succ k ih =>
      simp only [State.accessCheck.go, h.sameMap.regionEnd, State.checkPiece_of_keeps h, ih]
  simp only [State.accessCheck, hgo]

theorem State.memReady_of_keeps (h : Keeps uncheckedParts s u) : u.memReady write a n = s.memReady write a n := by
  have hm := h.sameMap
  simp only [State.memReady, hm.region, hm.atomsOf, hm.unitAt, State.chan, h.tiers_eq (by decide), h.bring_eq (by decide)]

theorem State.logging_of_keeps (h : Keeps uncheckedParts s u) : u.logging = s.logging := by
  simp only [State.logging, State.replaying, h.log_eq (by decide)]

/-- A read of good bytes of a scratchpad or of tier 1. -/
theorem State.load_plain (hm : s.tiers.merge = []) (hl : s.logging = false) (ht : s.region a ≠ .tier2)
    (h : Mem.readBytes s.mem a n = some bs) :
    ∃ p, s.load a n = (some bs, s.piloted p) ∧ p.moves = s.pilot.moves := by
  obtain ⟨p, hp, hmoves⟩ := s.touch_eq a n true
  have hl' : (s.piloted p).logging = false := hl
  have hmem : Mem.readBytes (s.piloted p).mem a n = some bs := h
  refine ⟨p, ?_, hmoves⟩
  rw [State.load, State.retireAll_empty s _ hm]
  simp only [hp, hl', Bool.false_eq_true, if_false, hmem]
  split
  · next h2 => exact absurd h2 ht
  · rfl

end

end Sys2Proof.Machine

/-! Settles the statement about COPY, FILL, ATOMIC and REDADD. -/

namespace Sys2Proof.Machine

set_option Elab.async false

/-! ### A list with one descriptor -/

/-- The same state, holding one DMA list with one descriptor. -/
def State.holds (s : State) (c : Nat) (x : DmaCtx) (r : DmaRun) : State :=
  { s with dma := { s.dma with ctxs := [(c, { x with running := [r] })] } }

/-- A descriptor enters a stage. -/
def DmaRun.enters (r : DmaRun) (st : DmaStage) (t : Nat) : DmaRun := { r with stage := st, sent := 0, since := t }

/-- No check value is formed. -/
def DmaRun.uncrced (r : DmaRun) : DmaRun := { r with crc := 0 }

section
variable {s u v w : State} {c i t : Nat} {x : DmaCtx} {r y z : DmaRun}

theorem State.eq_holds (h : s.dma.ctxs = [(c, x)]) (hr : x.running = [r]) : s = s.holds c x r := by
  have hx : x = { x with running := [r] } := by rw [← hr]
  rw [State.holds, ← hx, ← h]

@[simp] theorem State.holds_time : (s.holds c x r).time = s.time := rfl

@[simp] theorem State.holds_dmaCtx : (s.holds c x r).dmaCtx c = some { x with running := [r] } := by
  simp [State.dmaCtx, State.holds, Table.find]

theorem State.holds_dmaRun (hi : r.index = i) : (s.holds c x r).dmaRun c i = some r := by
  simp [State.dmaRun, hi]

theorem State.holds_updRun (hi : r.index = i) (f : DmaRun → DmaRun) :
    (s.holds c x r).updRun c i f = s.holds c x (f r) := by
  simp [State.updRun, State.updCtx, State.holds, Table.mapV, hi]

theorem State.holds_runStage (hi : r.index = i) (st : DmaStage) :
    (s.holds c x r).runStage c i st = s.holds c x (r.enters st s.time) := State.holds_updRun hi _

/-- A descriptor of one piece on each side, from its start to the last write. -/
theorem State.runAdvance_one {ps : List Piece} {q : Piece} (hi : r.index = i) (hstage : r.stage = .started)
    (hstatus : r.status = 0) (hcrc : ddCrc r.desc.toNat = false)
    (hsrc : ∀ (s : State) (y : DmaRun), y.desc = r.desc → s.sidePlan y false (ddLength r.desc.toNat) = .pieces ps)
    (hdst : ∀ (s : State) (y : DmaRun), y.desc = r.desc → s.sidePlan y true (ddDstBytes r.desc.toNat) = .pieces [q])
    (hread : State.readPieces c i x.tenant (if ddOp r.desc.toNat = 1 then [] else ps)
      (s.holds c x (r.enters .reading s.time)) = v.holds c x y)
    (hy : y.index = i ∧ y.desc = r.desc ∧ y.status = 0 ∧ y.outstanding = 0
      ∧ y.sent = (if ddOp r.desc.toNat = 1 then [] else ps).length)
    (hput : (if ddOp r.desc.toNat = 3 then
        State.addPieces c i x.tenant (ddBf16 r.desc.toNat) [q] y.sourceBytes
          (v.holds c x (y.enters .writing v.time).uncrced)
      else State.writePieces c i x.tenant [q] y.sourceBytes
          (v.holds c x (y.enters .writing v.time).uncrced)) = w.holds c x z)
    (hz : z.index = i ∧ z.status = 0 ∧ z.outstanding = 0 ∧ z.sent = 1) :
    (s.holds c x r).runAdvance c i = w.holds c x (z.enters .written w.time) := by
  obtain ⟨hyi, hyd, hys, hyo, hysent⟩ := hy
  obtain ⟨hzi, hzs, hzo, hzsent⟩ := hz
  have hresolve : (s.holds c x r).resolve c i x.tenant r = none := by
    simp only [State.resolve, hsrc _ r rfl, hdst _ r rfl, ite_self]
    rfl
  have hi1 : (r.enters .reading s.time).index = i := hi
  have hplan : (if ddOp r.desc.toNat = 1 then [] else ((s.holds c x r).sidePlan r false (ddLength r.desc.toNat)).list)
      = if ddOp r.desc.toNat = 1 then [] else ps := by rw [hsrc _ r rfl]; rfl
  have hstage3 := State.holds_runStage (s := v) (c := c) (x := x) hyi .writing
  have hi3 : (y.enters .writing v.time).index = i := hyi
  have hd3 : (y.enters .writing v.time).desc = r.desc := hyd
  have hst3 : (y.enters .writing v.time).stage = .writing := rfl
  have hs3 : (y.enters .writing v.time).status = 0 := hys
  have hsent3 : (y.enters .writing v.time).sent = 0 := rfl
  have hsrc3 : (y.enters .writing v.time).sourceBytes = y.sourceBytes := rfl
  generalize y.enters .writing v.time = r3 at *
  have hplan3 : ((v.holds c x r3).sidePlan r3 true (ddDstBytes r.desc.toNat)).list ++ crcPieces r.desc.toNat = [q] := by
    rw [hdst _ r3 hd3, crcPieces, ddCrcBytes, hcrc]
    rfl
  have hcrc3 : r3.crcOf = 0 := by rw [DmaRun.crcOf, hd3, hcrc]; rfl
  have hbytes : bytesOfNat (ddCrcBytes r.desc.toNat) 0 = [] := by rw [ddCrcBytes, hcrc]; rfl
  have hcrcRun : (v.holds c x r3).updRun c i (fun r => { r with crc := BitVec.ofNat 64 0 }) = v.holds c x r3.uncrced :=
    State.holds_updRun hi3 _
  have hzi5 : (z.enters .written w.time).index = i := hzi
  have hzs5 : (z.enters .written w.time).status = 0 := hzs
  simp only [State.runAdvance, State.holds_dmaCtx, State.holds_dmaRun hi, hstage, hstatus, hresolve, State.holds_runStage hi,
    State.holds_dmaRun hi1, hplan, if_true, ne_eq, not_true_eq_false, false_and, or_self, if_false, Option.map_some,
    Option.getD_some, show (r.enters .reading s.time).sent = 0 from rfl, List.drop_zero, hread, State.holds_dmaRun hyi, hys,
    hyo, hysent, and_self, hstage3, State.holds_dmaRun hi3, hst3, hs3, hd3, hsent3, hplan3, hcrc3, hsrc3,
    hcrcRun, List.take_zero, List.map_nil, List.sum_nil, Nat.zero_div, hbytes, List.append_nil, hput,
    State.holds_dmaRun hzi, hzs, hzo, hzsent, List.length_singleton, hcrc, Bool.false_eq_true, State.holds_runStage hzi,
    State.holds_dmaRun hzi5, hzs5]

theorem State.runOp_start {op : Nat} (hi : r.index = i) (hstatus : r.status = 0) (hop : ddOp r.desc.toNat = op) :
    (s.holds c x r).runOp op c i false = (s.holds c x r).runAdvance c i := by
  simp only [State.runOp, State.holds_dmaRun hi, hstatus, hop, State.hostAnswer, Bool.false_and, Bool.false_eq_true,
    ne_eq, not_true_eq_false, false_and, if_false]

theorem State.holds_keeps : Keeps [.dma] s (s.holds c x r) := .withDma (.refl s)

/-! ### Pieces -/

/-- A range that is not cut. -/
def Piece.whole (place : Place) (a n : Nat) : Piece := { off := 0, len := n, place := place, addr := a }

theorem State.sidePlan_host {dst : Bool} {n : Nat} (h : ddMode r.desc.toNat dst = 2) (s : State) (y : DmaRun)
    (hy : y.desc = r.desc) : s.sidePlan y dst n = .pieces [.whole .host (ddAddr r.desc.toNat dst) n] := by
  simp only [State.sidePlan, hy, h]
  rfl

theorem State.sidePlan_loc {dst : Bool} {n : Nat} (h : ddMode r.desc.toNat dst = 0) (s : State) (y : DmaRun)
    (hy : y.desc = r.desc) : s.sidePlan y dst n = .pieces [.whole .loc (ddAddr r.desc.toNat dst) n] := by
  simp only [State.sidePlan, hy, h]
  rfl

/-- A descriptor once a piece of its source has been read. -/
def DmaRun.got (r : DmaRun) (bs : List Byte) : DmaRun :=
  { r with source := Table.put r.source 0 bs, sent := r.sent + 1 }

/-- A descriptor once a piece of its destination has been written. -/
def DmaRun.put (r : DmaRun) (n : Nat) : DmaRun := { r with acked := Table.put r.acked 0 n, sent := r.sent + 1 }

/-- The engine has moved `n` bytes. -/
def State.moved (s : State) (e n : Nat) : State := s.updEngine e (fun x => { x with bytes := x.bytes + BitVec.ofNat 64 n })

theorem State.moved_keeps {e n : Nat} : Keeps [.dma] s (s.moved e n) := .withDma (.refl s)

theorem State.moved_engine {e n : Nat} :
    ((s.moved e n).engine e).bytes = (s.engine e).bytes + BitVec.ofNat 64 n := by
  rw [State.moved, State.updEngine, State.engine, Table.getD_put_self]

theorem DmaRun.sourceBytes_got {bs : List Byte} (hop : ddOp r.desc.toNat ≠ 1) (hsrc : r.source = []) :
    (r.got bs).sourceBytes = bs := by
  rw [DmaRun.sourceBytes, if_neg (by exact hop), DmaRun.got, hsrc]
  exact List.append_nil bs

section
variable {a n tn : Nat} {bs : List Byte}

theorem State.readPieces_host (hup : s.bring.pcieUp = true) (hl : s.logging = false) (hi : y.index = i) :
    State.readPieces c i tn [.whole .host a n] (s.holds c x y) = s.holds c x (y.got (s.hostRead a n)) := by
  have hfetch : (s.holds c x y).hostFetch a n = (s.hostRead a n, s.holds c x y) := by
    have hlog : (s.holds c x y).logging = false := hl
    simp only [State.hostFetch, State.logInput, hlog]
    rfl
  have hup' : (s.holds c x y).bring.pcieUp = true := hup
  simp only [State.readPieces, Piece.whole, hup', hfetch, Bool.not_true, Bool.false_eq_true, if_false]
  exact State.holds_updRun hi _

theorem State.writePieces_host (hup : s.bring.pcieUp = true) (hi : y.index = i) :
    State.writePieces c i tn [.whole .host a n] bs (s.holds c x y)
      = ((s.hostWrite a (bs.take n)).moved y.engine n).holds c x (y.put n) := by
  have hup' : (s.holds c x y).bring.pcieUp = true := hup
  have hwrite : (s.holds c x y).hostWrite a (bs.take n) = (s.hostWrite a (bs.take n)).holds c x y := rfl
  simp only [State.writePieces, Piece.whole, hup', Bool.not_true, Bool.false_eq_true, if_false, hwrite,
    State.holds_dmaRun hi, Option.map_some, Option.getD_some, State.holds_updRun hi]
  rfl

/-- The agent of a DMA engine. -/
def State.driven (s : State) (e : Nat) : State := { s with agent := agentOf 6 e }

theorem State.driven_keeps {e : Nat} : Keeps [.agent] s (s.driven e) := .withAgent (.refl s)

theorem State.accessRecord_granted {k e : Nat} {write : Bool} (hl : s.logging = false)
    (h : s.accessCheck tn write a n = none) : s.accessRecord k e tn write a n = (none, { s with agent := agentOf k e }) := by
  rw [State.accessRecord, h]
  exact congrArg (Prod.mk none) (State.asAgent_keeps s k e a hl)

theorem State.holds_unchecked : Keeps uncheckedParts s (s.holds c x y) := State.holds_keeps.mono (by decide)

theorem State.readPieces_loc (hl : s.logging = false) (hc : s.accessCheck tn false a n = none)
    (hready : s.memReady true a n = true) (hm : s.tiers.merge = []) (hr : s.region a ≠ .register)
    (ht : s.region a ≠ .tier2) (h : Mem.readBytes s.mem a n = some bs) (hi : y.index = i) :
    ∃ p, State.readPieces c i tn [.whole .loc a n] (s.holds c x y) = ((s.driven y.engine).piloted p).holds c x (y.got bs)
      ∧ p.moves = s.pilot.moves := by
  obtain ⟨p, hp, hmoves⟩ := State.load_plain (s := (s.driven y.engine).holds c x y) (a := a) (n := n) hm hl ht h
  have hready' := (State.memReady_of_keeps (State.holds_unchecked (c := c) (x := x) (y := y))).trans hready
  have hacc := State.accessRecord_granted (s := s.holds c x y) (k := 6) (e := y.engine) hl
    ((State.accessCheck_of_keeps State.holds_unchecked).trans hc)
  have hreg : ((s.driven y.engine).holds c x y).region a ≠ .register := hr
  have hread : ((s.driven y.engine).holds c x y).engineRead a n = (some bs, ((s.driven y.engine).holds c x y).piloted p) := by
    rw [State.engineRead, if_neg hreg, hp]
  have hagent : ({ s.holds c x y with agent := agentOf 6 y.engine } : State) = (s.driven y.engine).holds c x y := rfl
  refine ⟨p, ?_, hmoves⟩
  simp only [State.readPieces, Piece.whole, hready', Bool.not_true, Bool.false_eq_true, if_false, State.holds_dmaRun hi,
    Option.map_some, Option.getD_some, hacc, hagent, hread]
  exact State.holds_updRun (s := (s.driven y.engine).piloted p) hi _

/-- The same state with other bytes in module memory. -/
def State.stored (s : State) (p : Pilot) (m : Mem) : State := { s.piloted p with mem := m }

theorem State.stored_keeps {p : Pilot} {m : Mem} : Keeps [.mem, .pilot] s (s.stored p m) :=
  .withMem (s := s.piloted p) (.withPilot (.refl s))

/-- A write of whole words of a scratchpad. -/
theorem State.writeMem_words {k : Nat} (hr : s.region a = .spad k) (hmv : s.pilot.moves = []) (ha : a % 8 = 0)
    (hb : bs.length % 8 = 0) (hend : a + bs.length ≤ s.regionEnd a) :
    ∃ p, s.writeMem a bs = s.stored p (Mem.writeBytes s.mem a bs) := by
  by_cases hne : bs = []
  · obtain ⟨p, hp⟩ := State.writeMem_still (a := a) (bs := bs) hmv
    refine ⟨p, ?_⟩
    rw [hp, hne, State.writePlain, State.writePlain.go]
    exact if_pos rfl
  · exact State.writeMem_spad hr hmv ha hb hne hend

theorem State.writePieces_loc {k : Nat} (hl : s.logging = false) (hc : s.accessCheck tn true a n = none)
    (hr : s.region a = .spad k) (hmv : s.pilot.moves = []) (ha : a % 8 = 0) (hn : n % 8 = 0) (hlen : bs.length = n)
    (hend : a + n ≤ s.regionEnd a) (hi : y.index = i) :
    ∃ p, State.writePieces c i tn [.whole .loc a n] bs (s.holds c x y)
      = (((s.driven y.engine).stored p (Mem.writeBytes s.mem a bs)).moved y.engine n).holds c x (y.put n) := by
  subst hlen
  obtain ⟨p, hp⟩ := State.writeMem_words (s := (s.driven y.engine).holds c x y) (bs := bs) hr hmv ha hn hend
  have hready : (s.holds c x y).memReady false a bs.length = true := by
    have hr' : (s.holds c x y).region a = .spad k := hr
    simp [State.memReady, hr']
  have hacc := State.accessRecord_granted (s := s.holds c x y) (k := 6) (e := y.engine) hl
    ((State.accessCheck_of_keeps State.holds_unchecked).trans hc)
  have hagent : ({ s.holds c x y with agent := agentOf 6 y.engine } : State) = (s.driven y.engine).holds c x y := rfl
  have hfenced : ((s.driven y.engine).holds c x y).fencedIn a bs.length = false := by
    have hr' : ((s.driven y.engine).holds c x y).region a = .spad k := hr
    simp [State.fencedIn, hr']
  have hwrite : ((s.driven y.engine).holds c x y).engineWrite tn a bs
      = (none, ((s.driven y.engine).stored p (Mem.writeBytes s.mem a bs)).holds c x y) := by
    rw [State.engineWrite, regAt_spad hr]
    simp only [hfenced, Bool.false_eq_true, if_false, hp]
    rfl
  refine ⟨p, ?_⟩
  simp only [State.writePieces, Piece.whole, hready, Bool.not_true, Bool.false_eq_true, if_false, State.holds_dmaRun hi,
    Option.map_some, Option.getD_some, hacc, hagent, List.take_length, hwrite, State.holds_updRun hi]
  rfl

/-! ### COPY and FILL -/

/-- The descriptor of a COPY once everything has been written. -/
def DmaRun.copied (r : DmaRun) (bs : List Byte) (n t t' t'' : Nat) : DmaRun :=
  ((((r.enters .reading t).got bs).enters .writing t').uncrced.put n).enters .written t''

theorem State.written_dmaRun (hi : r.index = i) (hs : r.status = 0) {bs : List Byte} {n t1 t2 t3 : Nat} :
    ((u.holds c x (r.copied bs n t1 t2 t3)).dmaRun c i).map (fun y => (y.stage, y.status)) = some (.written, 0) := by
  rw [State.holds_dmaRun (r := r.copied bs n t1 t2 t3) hi]
  exact congrArg (fun e => some (DmaStage.written, e)) hs

theorem ddDstBytes_of {d : Nat} (h : ddOp d ≠ 3) : ddDstBytes d = ddLength d := if_neg (fun hb => h hb.1)

theorem State.hostRead_length (s : State) (a n : Nat) : (s.hostRead a n).length = n := by
  rw [State.hostRead, List.length_map, List.length_range]

theorem State.hostWrite_readBytes_of {n : Nat} (hn : bs.length = n) :
    Mem.readBytes (s.hostWrite a bs).hostMem a n = some bs := by
  rw [← hn]
  exact Mem.readBytes_writeBytes bs s.hostMem a

theorem gives_copy_host (hctx : s.dma.ctxs = [(c, x)]) (hrun : x.running = [r]) (hi : r.index = i)
    (hstage : r.stage = .started) (hstatus : r.status = 0) (hout : r.outstanding = 0) (hsrc : r.source = [])
    (hop : ddOp r.desc.toNat = 0) (hsm : ddSrcMode r.desc.toNat = 2) (hdm : ddDstMode r.desc.toNat = 2)
    (hcrc : ddCrc r.desc.toNat = false) (hup : s.bring.pcieUp = true) (hl : s.logging = false) :
    Gives (.copy c i t false) s (fun u =>
      Mem.readBytes u.hostMem (ddDst r.desc.toNat) (ddLength r.desc.toNat)
        = some (s.hostRead (ddSrc r.desc.toNat) (ddLength r.desc.toNat))
      ∧ SameOutside s.hostMem u.hostMem (ddDst r.desc.toNat) (ddDst r.desc.toNat + ddLength r.desc.toNat)
      ∧ (u.dmaRun c i).map (fun y => (y.stage, y.status)) = some (.written, 0)
      ∧ Keeps [.time, .hostMem, .dma] s u) := by
  let n := ddLength r.desc.toNat
  let bs := s.hostRead (ddSrc r.desc.toNat) n
  let v := s.at t
  have hlen : bs.length = n := State.hostRead_length ..
  have hself : s.at t = v.holds c x r := State.eq_holds (s := s.at t) hctx hrun
  have hop1 : ddOp r.desc.toNat ≠ 1 := by omega
  have hread := State.readPieces_host (s := v) (c := c) (i := i) (x := x) (tn := x.tenant) (a := ddSrc r.desc.toNat)
    (n := n) (y := r.enters .reading v.time) hup hl hi
  have hput := State.writePieces_host (s := v) (c := c) (i := i) (x := x) (tn := x.tenant) (a := ddDst r.desc.toNat)
    (n := n) (bs := bs) (y := (((r.enters .reading v.time).got bs).enters .writing v.time).uncrced) hup hi
  rw [List.take_of_length_le (Nat.le_of_eq hlen)] at hput
  have hadv := State.runAdvance_one (s := v) (v := v) (c := c) (x := x) (y := (r.enters .reading v.time).got bs)
    (w := (v.hostWrite (ddDst r.desc.toNat) bs).moved r.engine n)
    (z := (((r.enters .reading v.time).got bs).enters .writing v.time).uncrced.put n) hi hstage hstatus hcrc
    (State.sidePlan_host (dst := false) hsm) (State.sidePlan_host (dst := true) hdm)
    (by rw [if_neg hop1]; exact hread) ⟨hi, rfl, hstatus, hout, by rw [if_neg hop1]; rfl⟩
    (by
      rw [if_neg (by omega), DmaRun.sourceBytes_got (r := r.enters .reading v.time) hop1 hsrc, ddDstBytes_of (by omega)]
      exact hput) ⟨hi, hstatus, hout, rfl⟩
  have hexec : execCopy c i t false s = .next (((v.hostWrite (ddDst r.desc.toNat) bs).moved r.engine n).holds c x
      (r.copied bs n v.time v.time v.time)) := by
    rw [execCopy, hself, State.runOp_start hi hstatus hop, hadv]
    rfl
  refine ⟨_, hexec, State.hostWrite_readBytes_of hlen, ?_, State.written_dmaRun hi hstatus, ?_⟩
  · intro a ha
    exact Mem.read_writeBytes_outside bs s.hostMem _ a (by rw [hlen]; exact ha)
  · exact .trans (.at (.refl s)) (.trans (.hostWrite (.refl v)) (.trans (State.moved_keeps.mono (by decide))
      (State.holds_keeps.mono (by decide))))

theorem State.ready_spad {k : Nat} {read : Bool} (hr : s.region a = .spad k) (hf : s.bring.tilesFilled = true) :
    s.memReady read a n = true := by
  simp [State.memReady, hr, hf]

theorem gives_copy_spad {k : Nat} (hctx : s.dma.ctxs = [(c, x)]) (hrun : x.running = [r]) (hi : r.index = i)
    (hstage : r.stage = .started) (hstatus : r.status = 0) (hout : r.outstanding = 0) (hsrc : r.source = [])
    (hop : ddOp r.desc.toNat = 0) (hsm : ddSrcMode r.desc.toNat = 0) (hdm : ddDstMode r.desc.toNat = 0)
    (hcrc : ddCrc r.desc.toNat = false) (hl : s.logging = false) (hmv : s.pilot.moves = []) (hm : s.tiers.merge = [])
    (hf : s.bring.tilesFilled = true)
    (hcs : s.accessCheck x.tenant false (ddSrc r.desc.toNat) (ddLength r.desc.toNat) = none)
    (hcd : s.accessCheck x.tenant true (ddDst r.desc.toNat) (ddLength r.desc.toNat) = none)
    (hrs : s.region (ddSrc r.desc.toNat) = .spad k) (hrd : s.region (ddDst r.desc.toNat) = .spad k)
    (ha : ddDst r.desc.toNat % 8 = 0) (hn : ddLength r.desc.toNat % 8 = 0)
    (hend : ddDst r.desc.toNat + ddLength r.desc.toNat ≤ s.regionEnd (ddDst r.desc.toNat))
    (h : Mem.readBytes s.mem (ddSrc r.desc.toNat) (ddLength r.desc.toNat) = some bs) :
    Gives (.copy c i t false) s (fun u =>
      Mem.readBytes u.mem (ddDst r.desc.toNat) (ddLength r.desc.toNat) = some bs
      ∧ SameOutside s.mem u.mem (ddDst r.desc.toNat) (ddDst r.desc.toNat + ddLength r.desc.toNat)
      ∧ (u.dmaRun c i).map (fun y => (y.stage, y.status)) = some (.written, 0)
      ∧ (u.engine r.engine).bytes = (s.engine r.engine).bytes + BitVec.ofNat 64 (ddLength r.desc.toNat)
      ∧ Keeps [.time, .mem, .dma, .pilot, .agent] s u) := by
  let n := ddLength r.desc.toNat
  let v := s.at t
  have hself : s.at t = v.holds c x r := State.eq_holds (s := s.at t) hctx hrun
  have hlen : bs.length = n := Mem.length_of_readBytes h
  have hop1 : ddOp r.desc.toNat ≠ 1 := by omega
  have hv : Keeps uncheckedParts s v := .at (.refl s)
  obtain ⟨p, hread, hmoves⟩ := State.readPieces_loc (s := v) (c := c) (x := x) (tn := x.tenant)
    (y := r.enters .reading v.time) hl ((State.accessCheck_of_keeps hv).trans hcs) (State.ready_spad hrs hf) hm
    (by rw [show v.region _ = _ from hrs]; nofun) (by rw [show v.region _ = _ from hrs]; nofun) h hi
  let w := (v.driven r.engine).piloted p
  have hw : Keeps uncheckedParts s w := .withPilot (.trans hv (State.driven_keeps.mono (by decide)))
  obtain ⟨p', hput⟩ := State.writePieces_loc (s := w) (c := c) (x := x) (tn := x.tenant) (bs := bs)
    (y := (((r.enters .reading v.time).got bs).enters .writing w.time).uncrced) hl
    ((State.accessCheck_of_keeps hw).trans hcd) hrd (hmoves.trans hmv) ha hn hlen hend hi
  let m := (w.driven r.engine).stored p' (Mem.writeBytes w.mem (ddDst r.desc.toNat) bs)
  have hadv := State.runAdvance_one (s := v) (v := w) (c := c) (x := x) (y := (r.enters .reading v.time).got bs)
    (w := m.moved r.engine n) (z := (((r.enters .reading v.time).got bs).enters .writing w.time).uncrced.put n) hi
    hstage hstatus hcrc (State.sidePlan_loc (dst := false) hsm) (State.sidePlan_loc (dst := true) hdm)
    (by rw [if_neg hop1]; exact hread) ⟨hi, rfl, hstatus, hout, by rw [if_neg hop1]; rfl⟩
    (by
      rw [if_neg (by omega), DmaRun.sourceBytes_got (r := r.enters .reading v.time) hop1 hsrc, ddDstBytes_of (by omega)]
      exact hput) ⟨hi, hstatus, hout, rfl⟩
  have hexec : execCopy c i t false s = .next ((m.moved r.engine n).holds c x (r.copied bs n v.time w.time v.time)) := by
    rw [execCopy, hself, State.runOp_start hi hstatus hop, hadv]
    rfl
  refine ⟨_, hexec, ?_, ?_, State.written_dmaRun hi hstatus, ?_, ?_⟩
  · have hb := Mem.readBytes_writeBytes bs s.mem (ddDst r.desc.toNat)
    rwa [hlen] at hb
  · intro a ha
    exact Mem.read_writeBytes_outside bs s.mem _ a (by rw [hlen]; exact ha)
  · exact State.moved_engine (s := m) (e := r.engine) (n := n)
  · exact .trans (.at (.refl s)) (.trans (State.driven_keeps.mono (by decide)) (.trans (.withPilot (.refl _))
      (.trans (State.driven_keeps.mono (by decide)) (.trans (State.stored_keeps.mono (by decide))
        (.trans (State.moved_keeps.mono (by decide)) (State.holds_keeps.mono (by decide)))))))

theorem getElem?_bytesOfNat {n k v : Nat} (h : k < n) : (bytesOfNat n v)[k]? = some (BitVec.ofNat 8 (v / 256 ^ k)) := by
  induction n generalizing k v with
  | zero => exact absurd h (Nat.not_lt_zero k)
  | succ n ih =>
    cases k with
    | zero => simp [bytesOfNat]
    | succ k => rw [bytesOfNat, List.getElem?_cons_succ, ih (Nat.lt_of_succ_lt_succ h), Nat.div_div_eq_div_mul, Nat.pow_succ']

/-- The pattern of a FILL: the eight bytes of SRC_AUX over and over. -/
theorem DmaRun.sourceBytes_fill (hop : ddOp r.desc.toNat = 1) : r.sourceBytes
    = (List.range (ddLength r.desc.toNat)).map (fun k => BitVec.ofNat 8 (byteField (ddSrcAux r.desc.toNat) (k % 8) 1)) := by
  rw [DmaRun.sourceBytes, if_pos hop]
  refine List.map_congr_left fun k _ => ?_
  rw [getElem?_bytesOfNat (Nat.mod_lt k (by decide)), Option.getD_some]
  apply BitVec.eq_of_toNat_eq
  rw [BitVec.toNat_ofNat, BitVec.toNat_ofNat, byteField, bits, Nat.mod_mod, Nat.pow_mul]

theorem gives_fill (hctx : s.dma.ctxs = [(c, x)]) (hrun : x.running = [r]) (hi : r.index = i)
    (hstage : r.stage = .started) (hstatus : r.status = 0) (hout : r.outstanding = 0)
    (hop : ddOp r.desc.toNat = 1) (hsm : ddSrcMode r.desc.toNat = 0) (hdm : ddDstMode r.desc.toNat = 2)
    (hcrc : ddCrc r.desc.toNat = false) (hup : s.bring.pcieUp = true) :
    Gives (.fill c i t) s (fun u =>
      Mem.readBytes u.hostMem (ddDst r.desc.toNat) (ddLength r.desc.toNat) = some ((List.range (ddLength r.desc.toNat)).map
        (fun k => BitVec.ofNat 8 (byteField (ddSrcAux r.desc.toNat) (k % 8) 1)))
      ∧ SameOutside s.hostMem u.hostMem (ddDst r.desc.toNat) (ddDst r.desc.toNat + ddLength r.desc.toNat)
      ∧ (u.dmaRun c i).map (fun y => (y.stage, y.status)) = some (.written, 0)
      ∧ Keeps [.time, .hostMem, .dma] s u) := by
  let n := ddLength r.desc.toNat
  let v := s.at t
  obtain ⟨bs, hbs⟩ : ∃ bs, bs = (List.range n).map (fun k => BitVec.ofNat 8 (byteField (ddSrcAux r.desc.toNat) (k % 8) 1)) :=
    ⟨_, rfl⟩
  have hlen : bs.length = n := by rw [hbs, List.length_map, List.length_range]
  have hself : s.at t = v.holds c x r := State.eq_holds (s := s.at t) hctx hrun
  have hput := State.writePieces_host (s := v) (c := c) (i := i) (x := x) (tn := x.tenant) (a := ddDst r.desc.toNat)
    (n := n) (bs := bs) (y := ((r.enters .reading v.time).enters .writing v.time).uncrced) hup hi
  rw [List.take_of_length_le (Nat.le_of_eq hlen)] at hput
  have hadv := State.runAdvance_one (s := v) (v := v) (c := c) (x := x) (y := r.enters .reading v.time)
    (w := (v.hostWrite (ddDst r.desc.toNat) bs).moved r.engine n)
    (z := ((r.enters .reading v.time).enters .writing v.time).uncrced.put n) hi
    hstage hstatus hcrc (State.sidePlan_loc (dst := false) hsm) (State.sidePlan_host (dst := true) hdm)
    (by rw [if_pos hop]; rfl) ⟨hi, rfl, hstatus, hout, by rw [if_pos hop]; rfl⟩
    (by
      rw [if_neg (by omega), DmaRun.sourceBytes_fill (r := r.enters .reading v.time) hop, ddDstBytes_of (by omega)]
      rw [hbs] at hput
      rw [hbs]
      exact hput) ⟨hi, hstatus, hout, rfl⟩
  rw [← hbs]
  refine ⟨_, (congrArg Host.Outcome.next (by rw [hself, State.runOp_start hi hstatus hop, hadv]; rfl) :
    execFill c i t s = .next (((v.hostWrite (ddDst r.desc.toNat) bs).moved r.engine n).holds c x
      ((((r.enters .reading v.time).enters .writing v.time).uncrced.put n).enters .written v.time))),
    State.hostWrite_readBytes_of hlen, ?_, ?_, ?_⟩
  · intro a ha
    exact Mem.read_writeBytes_outside bs s.hostMem _ a (by rw [hlen]; exact ha)
  · rw [State.holds_dmaRun (by exact hi)]
    exact congrArg (fun e => some (DmaStage.written, e)) hstatus
  · exact .trans (.at (.refl s)) (.trans (.hostWrite (.refl v)) (.trans (State.moved_keeps.mono (by decide))
      (State.holds_keeps.mono (by decide))))

/-! ### ATOMIC and REDADD -/

theorem State.moved_done {e n : Nat} : ((s.moved e n).engine e).done = (s.engine e).done := by
  rw [State.moved, State.updEngine, State.engine, Table.getD_put_self]

theorem Keeps.updEngine {ks : List Part} {o : State} {e : Nat} {f : DmaEngine → DmaEngine} (h : Keeps ks o s)
    (hk : [.dma] ⊆ ks := by decide) : Keeps ks o (s.updEngine e f) :=
  h.lift hk fun _ h => .withDma h

/-- A list leaves its context, and its end waits to be reported. -/
def State.listGone (s : State) (e : Nat × Nat × Status × ArithFlags) : State :=
  { s with dma := { s.dma with ctxs := [], ended := s.dma.ended ++ [e] } }

theorem State.listGone_engine {e : Nat × Nat × Status × ArithFlags} {k : Nat} : (s.listGone e).engine k = s.engine k := rfl

theorem State.updCtx_engine {f : DmaCtx → DmaCtx} {k : Nat} : (s.updCtx c f).engine k = s.engine k := rfl

theorem State.cntMod_engine {j n k : Nat} : (s.cntMod j n).engine k = s.engine k := rfl

theorem State.updEngine_engine {f : DmaEngine → DmaEngine} {k : Nat} : (s.updEngine k f).engine k = f (s.engine k) :=
  Table.getD_put_self ..

theorem State.endList_alone {y : DmaCtx} {st : Status} (h : s.dma.ctxs = [(c, y)]) :
    s.endList c x st = s.listGone (x.seq, x.node, st, x.flags) := by
  have hdel : Table.del s.dma.ctxs c = [] := by simp [h, Table.del]
  rw [State.endList, hdel]
  rfl

/-- The last descriptor of a list ends the list. -/
theorem State.runDone_last (hi : r.index = i) (hstatus : r.status = 0) (hsig : ddSig r.desc.toNat = false)
    (hlast : x.completed + 1 = listCount x.hdr.toNat) :
    ∃ u, (s.holds c x r).runDone c i = u ∧ u.dma.ctxs = [] ∧ u.dma.waiting = s.dma.waiting
      ∧ u.dma.ended = s.dma.ended ++ [(x.seq, x.node, 0, x.flags ||| r.flags)]
      ∧ (u.engine r.engine).done = (s.engine r.engine).done + 1 ∧ Keeps [.trace, .dma] s u := by
  let y : DmaCtx := { x with running := [], completed := listCount x.hdr.toNat, flags := x.flags ||| r.flags }
  let v := (s.holds c x r).traceCentral 1 0x15 3 r.engine (ddTag r.desc.toNat)
    (r.status.toNat + 2 ^ 16 * r.index + 2 ^ 64 * x.seq)
  let w := (v.updEngine r.engine (fun e => { e with done := e.done + 1 })).cntMod (76 + ddOp r.desc.toNat) 1
  have hdma : v.dma = (s.holds c x r).dma := (Keeps.traceCentral (ks := [.trace]) (.refl _)).dma_eq (by decide)
  have hengine : v.engine r.engine = s.engine r.engine := by
    rw [State.engine, hdma]
    rfl
  have hctxs : (w.updCtx c (fun _ => y)).dma.ctxs = [(c, y)] := by
    have hmap : (w.updCtx c (fun _ => y)).dma.ctxs = Table.mapV v.dma.ctxs (fun k x => if k = c then y else x) := rfl
    rw [hmap, hdma]
    simp [State.holds, Table.mapV]
  have hrunning : ({ x with running := [r] } : DmaCtx).running.filter (fun y => y.index != i) = [] := by simp [hi]
  have hdone : (s.holds c x r).runDone c i = (w.updCtx c (fun _ => y)).listGone (x.seq, x.node, 0, x.flags ||| r.flags) := by
    rw [← State.endList_alone (x := y) hctxs]
    simp only [State.runDone, State.holds_dmaCtx, State.holds_dmaRun hi, hsig, hrunning, Bool.not_false, if_true]
    rw [if_neg (not_not_intro hstatus), if_pos hlast, hlast]
  refine ⟨_, hdone, rfl, ?_, ?_, ?_, ?_⟩
  · exact congrArg (·.waiting) hdma
  · exact congrArg (·.ended ++ [(x.seq, x.node, 0, x.flags ||| r.flags)]) hdma
  · rw [State.listGone_engine, State.updCtx_engine, State.cntMod_engine, State.updEngine_engine, hengine]
  · exact .withDma (.withDma (.cntMod (.updEngine (.traceCentral (State.holds_keeps.mono (by decide))))))

/-- An atomic operation on one word of a scratchpad. -/
theorem State.rmw_spad {k : Nat} {f : Nat → Nat} (hl : s.logging = false) (hm : s.tiers.merge = [])
    (hmv : s.pilot.moves = []) (hr : s.region a = .spad k) (ha : a % 8 = 0) (h : Mem.readBytes s.mem a 8 = some bs) :
    ∃ p, s.rmw a 8 f = (some (natOfBytes bs), s.stored p (Mem.writeBytes s.mem a (bytesOfNat 8 (f (natOfBytes bs))))) := by
  have hlen : bs.length = 8 := Mem.length_of_readBytes h
  have hunit : s.unitBytes a = 8 := by rw [State.unitBytes, hr]
  have hbase : a / 8 * 8 = a := by omega
  obtain ⟨p, hp, hmoves⟩ := State.load_plain hm hl (by rw [hr]; nofun) h
  have hend : a + 8 ≤ s.regionEnd a := by
    have hwin := State.region_spad hr
    rw [State.regionEnd, hr]
    simp only [tileBase, tileWindows] at hwin ⊢
    omega
  obtain ⟨q, hq⟩ := State.writeMem_words (s := s.piloted p) (bs := bytesOfNat 8 (f (natOfBytes bs))) hr (hmoves.trans hmv)
    ha (by rw [bytesOfNat_length]) (by rw [bytesOfNat_length]; exact hend)
  have hold : byteField (natOfBytes bs) 0 8 = natOfBytes bs := by
    have hlt := natOfBytes_lt bs
    rw [hlen] at hlt
    simp only [byteField, bits]
    omega
  refine ⟨q, ?_⟩
  simp only [State.rmw, hunit, hbase, hp, Nat.sub_self, hold, List.take_zero, List.nil_append, Nat.zero_add,
    List.drop_of_length_le (Nat.le_of_eq hlen), List.append_nil, hq]
  rfl

theorem gives_atomic {k : Nat} (hctx : s.dma.ctxs = [(c, x)]) (hrun : x.running = [r]) (hi : r.index = i)
    (hstage : r.stage = .started) (hstatus : r.status = 0)
    (hlast : x.completed + 1 = listCount x.hdr.toNat) (hcq : listCq x.hdr.toNat = 0) (hop : ddOp r.desc.toNat = 2)
    (hdm : ddDstMode r.desc.toNat = 0) (hn : ddAsize r.desc.toNat = 8) (hsrc : ddSrc r.desc.toNat = 0)
    (hsig : ddSig r.desc.toNat = false) (hl : s.logging = false) (hmv : s.pilot.moves = []) (hm : s.tiers.merge = [])
    (hf : s.bring.tilesFilled = true) (hcd : s.accessCheck x.tenant true (ddDst r.desc.toNat) 8 = none)
    (hrd : s.region (ddDst r.desc.toNat) = .spad k) (ha : ddDst r.desc.toNat % 8 = 0)
    (h : Mem.readBytes s.mem (ddDst r.desc.toNat) 8 = some bs) :
    Gives (.atomic c i t) s (fun u =>
      Mem.readBytes u.mem (ddDst r.desc.toNat) 8 = some (bytesOfNat 8
        (atomicNew (ddAtop r.desc.toNat) 8 (natOfBytes bs) (ddSrcAux r.desc.toNat) (ddDstAux r.desc.toNat)))
      ∧ SameOutside s.mem u.mem (ddDst r.desc.toNat) (ddDst r.desc.toNat + 8) ∧ u.dma.ctxs = []
      ∧ u.dma.ended = s.dma.ended ++ [(x.seq, x.node, 0, x.flags ||| r.flags)]
      ∧ (u.engine r.engine).done = (s.engine r.engine).done + 1
      ∧ Keeps [.time, .mem, .trace, .dma, .pilot, .agent] s u) := by
  let v := s.at t
  have hv : Keeps uncheckedParts s v := .at (.refl s)
  have hself : s.at t = v.holds c x r := State.eq_holds (s := s.at t) hctx hrun
  have hlen : bs.length = 8 := Mem.length_of_readBytes h
  obtain ⟨p, hrmw⟩ := State.rmw_spad (s := (v.driven r.engine).holds c x r) (a := ddDst r.desc.toNat)
    (f := fun old => atomicNew (ddAtop r.desc.toNat) 8 old (ddSrcAux r.desc.toNat) (ddDstAux r.desc.toNat)) hl hm hmv hrd ha h
  obtain ⟨new, hnew⟩ : ∃ new, new = atomicNew (ddAtop r.desc.toNat) 8 (natOfBytes bs) (ddSrcAux r.desc.toNat)
    (ddDstAux r.desc.toNat) := ⟨_, rfl⟩
  have hnew8 : (bytesOfNat 8 new).length = 8 := bytesOfNat_length ..
  let w := (v.driven r.engine).stored p (Mem.writeBytes s.mem (ddDst r.desc.toNat) (bytesOfNat 8 new))
  have hw : Keeps [.time, .mem, .pilot, .agent] s w := .trans (.at (.refl s)) (.trans (State.driven_keeps.mono (by decide))
    (State.stored_keeps.mono (by decide)))
  let y : DmaRun := { r with result := BitVec.ofNat 64 (natOfBytes bs) }
  have hrmw' : ((v.driven r.engine).holds c x r).rmw (ddDst r.desc.toNat) 8
      (fun old => atomicNew (ddAtop r.desc.toNat) 8 old (ddSrcAux r.desc.toNat) (ddDstAux r.desc.toNat))
      = (some (natOfBytes bs), w.holds c x r) := by
    rw [hrmw, ← hnew]
    rfl
  have hready := (State.memReady_of_keeps (State.holds_unchecked (s := v) (c := c) (x := x) (y := r))).trans
    (State.ready_spad (s := v) (read := true) (n := 8) hrd hf)
  have hheld : (v.holds c x r).writesHeld (ddDst r.desc.toNat) 8 = false := by
    have hmv' : (v.holds c x r).pilot.moves = [] := hmv
    rw [State.writesHeld, hmv']
    rfl
  have hacc := State.accessRecord_granted (s := v.holds c x r) (k := 6) (e := r.engine) hl
    ((State.accessCheck_of_keeps State.holds_unchecked).trans ((State.accessCheck_of_keeps hv).trans hcd))
  have hagent : ({ v.holds c x r with agent := agentOf 6 r.engine } : State) = (v.driven r.engine).holds c x r := rfl
  obtain ⟨u, hu, hctxs, -, hended, hdone, hkeep⟩ := State.runDone_last (s := w.moved r.engine 8)
    (r := y.enters .trailing w.time) (x := x) (c := c) hi hstatus hsig hlast
  have hmoved : (((w.holds c x r).updRun c i (fun r => { r with result := BitVec.ofNat 64 (natOfBytes bs) })).updEngine
      r.engine (fun e => { e with bytes := e.bytes + BitVec.ofNat 64 8 })).runStage c i .trailing
      = (w.moved r.engine 8).holds c x (y.enters .trailing w.time) := by
    rw [State.holds_updRun hi]
    exact State.holds_runStage (s := w.moved r.engine 8) (r := y) hi .trailing
  have hrun' := State.holds_dmaRun (s := w.moved r.engine 8) (c := c) (x := x) (r := y.enters .trailing w.time) hi
  have hd' : (y.enters .trailing w.time).desc = r.desc := rfl
  have hexec : execAtomic c i t s = .next u := by
    rw [execAtomic, hself]
    simp only [State.holds_dmaCtx, State.holds_dmaRun hi, hstage, reduceCtorEq, or_self, if_false, hstatus, ne_eq,
      not_true_eq_false, hop, hn, hdm, Nat.zero_ne_one, hready, hheld, Bool.not_true, Bool.or_self, Bool.false_eq_true, hacc,
      hagent, hrmw', hmoved, hrun', State.putOld, hd', hsrc, if_true, State.runRecord, State.holds_dmaCtx, hcq, true_or, hu]
  rw [← hnew]
  refine ⟨u, hexec, ?_, ?_, hctxs, hended, hdone.trans (congrArg (· + 1) State.moved_done), .trans (hw.mono (by decide)) (.trans (State.moved_keeps.mono (by decide))
    (hkeep.mono (by decide)))⟩
  · have hb := Mem.readBytes_writeBytes (bytesOfNat 8 new) s.mem (ddDst r.desc.toNat)
    rw [hnew8] at hb
    rw [hkeep.mem_eq (by decide)]
    exact hb
  · rw [hkeep.mem_eq (by decide)]
    intro a ha
    exact Mem.read_writeBytes_outside _ s.mem _ a (by rw [hnew8]; exact ha)



theorem State.fenced_of_keeps (h : Keeps uncheckedParts s u) :
    u.unitFenced (u.unitAt a) = s.unitFenced (s.unitAt a) := by
  rw [h.sameMap.unitAt, State.unitFenced, State.unitFenced, h.tiers_eq (by decide)]

/-- One more element has been added. -/
def State.added (s : State) : State := { s with dma := { s.dma with redaddCnt := s.dma.redaddCnt + 1 } }

/-- One FP32 element added to the first one of an atom of tier 1. -/
theorem State.redadd_tier1 {e : BitVec 32} (hl : s.logging = false) (hm : s.tiers.merge = [])
    (hmv : s.pilot.moves = []) (hr : s.region a = .tier1) (ha : a % 64 = 0) (htop : a + 64 ≤ s.t1Top)
    (hf : s.unitFenced (s.unitAt a) = false) (h : Mem.readBytes s.mem a 64 = some bs) :
    ∃ (p : Pilot) (f : ArithFlags), s.redadd a [e] = (f, true, 1,
      ((s.piloted p).atomWritten a
        (bytesOfNat 4 (fpAdd (BitVec.ofNat 32 (natOfBytes (bs.take 4))) e).1.toNat ++ bs.drop 4)).added) := by
  have hlen : bs.length = 64 := Mem.length_of_readBytes h
  have hunit : s.unitBytes a = 64 := by rw [State.unitBytes, hr]
  have hbase : a / 64 * 64 = a := by omega
  obtain ⟨p, hp, hmoves⟩ := State.load_plain hm hl (by rw [hr]; nofun) h
  have hold : byteField (natOfBytes bs) 0 4 = natOfBytes (bs.take 4) := by
    have hsplit : natOfBytes (bs.take 4 ++ bs.drop 4) = natOfBytes bs := by rw [List.take_append_drop]
    have hlt := natOfBytes_lt (bs.take 4)
    rw [natOfBytes_append] at hsplit
    rw [List.length_take, hlen, show min 4 64 = 4 from rfl] at hsplit hlt
    simp only [byteField, bits]
    omega
  obtain ⟨new, hnew⟩ : ∃ new, new = bytesOfNat 4 (fpAdd (BitVec.ofNat 32 (natOfBytes (bs.take 4))) e).1.toNat ++ bs.drop 4 :=
    ⟨_, rfl⟩
  have hnewlen : new.length = 64 := by rw [hnew, List.length_append, bytesOfNat_length, List.length_drop, hlen]
  obtain ⟨q, hq⟩ := State.writeMem_still (s := s.piloted p) (a := a) (bs := new) (hmoves.trans hmv)
  have hq' : Keeps uncheckedParts s (s.piloted q) := .withPilot (.refl s)
  have hwrite : (s.piloted p).writeMem a new = (s.piloted q).atomWritten a new :=
    hq.trans (State.writePlain_atom (s := s.piloted q) hl hr ha htop ((State.fenced_of_keeps hq').trans hf) hnewlen)
  rw [← hnew]
  refine ⟨q, redFlags (BitVec.ofNat 32 (natOfBytes (bs.take 4))) e ||| 0, ?_⟩
  simp only [State.redadd, State.rmw, hunit, hbase, hp, Nat.sub_self, hold, List.take_zero, List.nil_append, Nat.zero_add,
    ← hnew, hwrite]
  rfl

/-- A descriptor once one element of its destination has been added to. -/
def DmaRun.summed (r : DmaRun) (f : ArithFlags) : DmaRun :=
  { r with flags := r.flags ||| f, sent := r.sent + 1, acked := Table.put r.acked 0 4 }

theorem redElems_one (h : bs.length = 4) : redElems false bs = [BitVec.ofNat 32 (natOfBytes bs)] := by
  simp only [redElems, h, Bool.false_eq_true, if_false]
  rw [show List.range (4 / 4) = [0] from rfl, List.map_singleton, Nat.mul_zero, List.drop_zero,
    List.take_of_length_le (Nat.le_of_eq h)]

theorem State.addPieces_tier1 {src : List Byte} (hl : s.logging = false) (hm : s.tiers.merge = [])
    (hmv : s.pilot.moves = []) (hc : s.accessCheck tn true a 4 = none) (hr : s.region a = .tier1) (ha : a % 64 = 0)
    (htop : a + 64 ≤ s.t1Top) (hready : s.memReady true a 4 = true) (hf : s.unitFenced (s.unitAt a) = false)
    (hsrc : src.length = 4) (h : Mem.readBytes s.mem a 64 = some bs) (hi : y.index = i) :
    ∃ (p : Pilot) (f : ArithFlags), State.addPieces c i tn false [.whole .loc a 4] src (s.holds c x y)
      = (((((s.driven y.engine).piloted p).atomWritten a (bytesOfNat 4 (fpAdd (BitVec.ofNat 32 (natOfBytes (bs.take 4)))
          (BitVec.ofNat 32 (natOfBytes src))).1.toNat ++ bs.drop 4)).added).moved y.engine 4).holds c x (y.summed f) := by
  have hh : Keeps uncheckedParts s ((s.driven y.engine).holds c x y) := .trans (State.driven_keeps.mono (by decide))
    State.holds_unchecked
  obtain ⟨p, f, hadd⟩ := State.redadd_tier1 (s := (s.driven y.engine).holds c x y) (e := BitVec.ofNat 32 (natOfBytes src))
    hl hm hmv hr ha htop ((State.fenced_of_keeps hh).trans hf) h
  have hready' := (State.memReady_of_keeps (State.holds_unchecked (c := c) (x := x) (y := y))).trans hready
  have hheld : (s.holds c x y).writesHeld a 4 = false := by
    have hmv' : (s.holds c x y).pilot.moves = [] := hmv
    rw [State.writesHeld, hmv']
    rfl
  have hacc := State.accessRecord_granted (s := s.holds c x y) (k := 6) (e := y.engine) hl
    ((State.accessCheck_of_keeps State.holds_unchecked).trans hc)
  have hagent : ({ s.holds c x y with agent := agentOf 6 y.engine } : State) = (s.driven y.engine).holds c x y := rfl
  have hsum : ((((s.driven y.engine).holds c x y).piloted p).atomWritten a (bytesOfNat 4
      (fpAdd (BitVec.ofNat 32 (natOfBytes (bs.take 4))) (BitVec.ofNat 32 (natOfBytes src))).1.toNat ++ bs.drop 4)).added
      = ((((s.driven y.engine).piloted p).atomWritten a (bytesOfNat 4 (fpAdd (BitVec.ofNat 32 (natOfBytes (bs.take 4)))
          (BitVec.ofNat 32 (natOfBytes src))).1.toNat ++ bs.drop 4)).added).holds c x y := rfl
  refine ⟨p, f, ?_⟩
  simp only [State.addPieces, Piece.whole, hready', hheld, Bool.not_true, Bool.or_self, Bool.false_eq_true, if_false,
    State.holds_dmaRun hi, Option.map_some, Option.getD_some, hacc, hagent, List.take_of_length_le (Nat.le_of_eq hsrc), redElems_one hsrc,
    hadd, if_true, hsum, State.holds_updRun hi]
  rfl

theorem gives_redadd (hctx : s.dma.ctxs = [(c, x)]) (hrun : x.running = [r]) (hi : r.index = i)
    (hstage : r.stage = .started) (hstatus : r.status = 0) (hout : r.outstanding = 0) (hsrc : r.source = [])
    (hop : ddOp r.desc.toNat = 3) (hsm : ddSrcMode r.desc.toNat = 2) (hdm : ddDstMode r.desc.toNat = 0)
    (hbf : ddBf16 r.desc.toNat = false) (hlen : ddLength r.desc.toNat = 4) (hcrc : ddCrc r.desc.toNat = false)
    (hup : s.bring.pcieUp = true) (hl : s.logging = false) (hmv : s.pilot.moves = []) (hm : s.tiers.merge = [])
    (hc : s.accessCheck x.tenant true (ddDst r.desc.toNat) 4 = none) (hr : s.region (ddDst r.desc.toNat) = .tier1)
    (ha : ddDst r.desc.toNat % 64 = 0) (htop : ddDst r.desc.toNat + 64 ≤ s.t1Top)
    (hready : s.memReady true (ddDst r.desc.toNat) 4 = true)
    (hf : s.unitFenced (s.unitAt (ddDst r.desc.toNat)) = false)
    (h : Mem.readBytes s.mem (ddDst r.desc.toNat) 64 = some bs) :
    Gives (.redadd c i t false) s (fun u =>
      Mem.readBytes u.mem (ddDst r.desc.toNat) 64 = some (bytesOfNat 4 (fpAdd (BitVec.ofNat 32 (natOfBytes (bs.take 4)))
        (BitVec.ofNat 32 (natOfBytes (s.hostRead (ddSrc r.desc.toNat) 4)))).1.toNat ++ bs.drop 4)
      ∧ SameOutside s.mem u.mem (ddDst r.desc.toNat) (ddDst r.desc.toNat + 64)
      ∧ u.dma.redaddCnt = s.dma.redaddCnt + 1
      ∧ (u.dmaRun c i).map (fun y => (y.stage, y.status)) = some (.written, 0)
      ∧ Keeps [.time, .mem, .tiers, .dma, .pilot, .agent] s u) := by
  let v := s.at t
  let src := s.hostRead (ddSrc r.desc.toNat) 4
  have hself : s.at t = v.holds c x r := State.eq_holds (s := s.at t) hctx hrun
  have hv : Keeps uncheckedParts s v := .at (.refl s)
  have hop1 : ddOp r.desc.toNat ≠ 1 := by omega
  have hsrclen : src.length = 4 := State.hostRead_length ..
  have hdst : ddDstBytes r.desc.toNat = 4 := by rw [ddDstBytes, hbf, hlen]; simp
  have hread := State.readPieces_host (s := v) (c := c) (i := i) (x := x) (tn := x.tenant) (a := ddSrc r.desc.toNat)
    (n := ddLength r.desc.toNat) (y := r.enters .reading v.time) hup hl hi
  rw [hlen] at hread
  obtain ⟨p, f, hadd⟩ := State.addPieces_tier1 (s := v) (c := c) (x := x) (src := src)
    (y := (((r.enters .reading v.time).got src).enters .writing v.time).uncrced) hl hm hmv
    ((State.accessCheck_of_keeps hv).trans hc) hr ha htop ((State.memReady_of_keeps hv).trans hready)
    ((State.fenced_of_keeps hv).trans hf) hsrclen h hi
  obtain ⟨new, hnew⟩ : ∃ new, new = bytesOfNat 4 (fpAdd (BitVec.ofNat 32 (natOfBytes (bs.take 4)))
    (BitVec.ofNat 32 (natOfBytes src))).1.toNat ++ bs.drop 4 := ⟨_, rfl⟩
  have hnewlen : new.length = 64 := by
    rw [hnew, List.length_append, bytesOfNat_length, List.length_drop, Mem.length_of_readBytes h]
  rw [← hnew] at hadd
  rw [← hnew]
  let w := (((v.driven r.engine).piloted p).atomWritten (ddDst r.desc.toNat) new).added
  have hw : Keeps [.time, .mem, .tiers, .dma, .pilot, .agent] s w := .withDma (.atomWritten (.withPilot
    (.trans (.at (.refl s)) (State.driven_keeps.mono (by decide)))))
  have hadv := State.runAdvance_one (s := v) (v := v) (c := c) (x := x) (y := (r.enters .reading v.time).got src)
    (w := w.moved r.engine 4)
    (z := (((r.enters .reading v.time).got src).enters .writing v.time).uncrced.summed f) hi
    hstage hstatus hcrc (State.sidePlan_host (dst := false) hsm) (State.sidePlan_loc (dst := true) hdm)
    (by rw [if_neg hop1, hlen]; exact hread) ⟨hi, rfl, hstatus, hout, by rw [if_neg hop1]; rfl⟩
    (by
      rw [if_pos hop, DmaRun.sourceBytes_got (r := r.enters .reading v.time) hop1 hsrc, hbf, hdst]
      exact hadd) ⟨hi, hstatus, hout, rfl⟩
  obtain ⟨hbytes, hout⟩ := State.putAtom_written (s := s) (a := ddDst r.desc.toNat) new
  rw [hnewlen] at hbytes hout
  refine ⟨_, congrArg Host.Outcome.next (by rw [hself, State.runOp_start hi hstatus hop, hadv]), ?_, ?_, ?_, ?_, ?_⟩
  · exact hbytes
  · exact hout
  · rfl
  · rw [State.holds_dmaRun (by exact hi)]
    exact congrArg (fun e => some (DmaStage.written, e)) hstatus
  · exact hw.trans (.trans (State.moved_keeps.mono (by decide)) (State.holds_keeps.mono (by decide)))

end

/-- Settles O35: each operation starts, reads its one source piece and writes its one destination piece. -/
theorem dmaOperations : Obligations.DmaOperations := by
  unfold Obligations.DmaOperations
  refine ⟨?_, ?_, ?_, ?_, ?_⟩
  · intro s c i t x r hctx hrun hi hstage hstatus hout _ hsrc hop hsm hdm hcrc hup hl
    exact gives_copy_host hctx hrun hi hstage hstatus hout hsrc hop hsm hdm hcrc hup hl
  · intro s c i t x r k bs hctx hrun hi hstage hstatus hout _ hsrc hop hsm hdm hcrc hl hmv hm hf hcs hcd hrs hrd ha hn hend h
    exact gives_copy_spad hctx hrun hi hstage hstatus hout hsrc hop hsm hdm hcrc hl hmv hm hf hcs hcd hrs hrd ha hn hend h
  · intro s c i t x r hctx hrun hi hstage hstatus hout _ _ hop hsm hdm hcrc hup
    exact gives_fill hctx hrun hi hstage hstatus hout hop hsm hdm hcrc hup
  · intro s c i t x r k bs hctx hrun hi hstage hstatus _ hlast hcq hop hdm hn hsrc hsig _ hl hmv hm hf hcd hrd ha h
    exact gives_atomic hctx hrun hi hstage hstatus hlast hcq hop hdm hn hsrc hsig hl hmv hm hf hcd hrd ha h
  · intro s c i t x r bs hctx hrun hi hstage hstatus hout _ hsrc hop hsm hdm hbf hlen hcrc hup hl hmv hm hc hr ha htop hready
      hf h
    exact gives_redadd hctx hrun hi hstage hstatus hout hsrc hop hsm hdm hbf hlen hcrc hup hl hmv hm hc hr ha htop hready hf h

end

end Sys2Proof.Machine

/-! Settles the statement about lists, read-back and failure of the module DMA. -/

namespace Sys2Proof.Machine

set_option Elab.async false

/-! ### Starting the descriptors of the lists -/

theorem iter_induct {α : Type} {p : α → Prop} {f : α → α} (hf : ∀ a, p a → p (f a)) {n : Nat} {a : α} (ha : p a) :
    p (iter f n a) := by
  induction n generalizing a with
  | zero => exact ha
  | succ n ih => exact ih (hf a ha)

/-- The engine, submission number, node and header of a list. -/
def DmaCtx.list (x : DmaCtx) : Nat × Nat × Nat × BitVec 512 := (x.engine, x.seq, x.node, x.hdr)

/-- The parts that starting descriptors may change. -/
abbrev startParts : List Part := [.mem, .quays, .tiers, .dma, .events, .trace, .log, .pilot, .agent]

/-- The same lists, some of whose descriptors may have started. -/
structure State.SameLists (s u : State) : Prop where
  waiting : u.dma.waiting = s.dma.waiting
  nextCtx : u.dma.nextCtx = s.dma.nextCtx
  ended : u.dma.ended = s.dma.ended
  lists : ∀ k, (u.dmaCtx k).map DmaCtx.list = (s.dmaCtx k).map DmaCtx.list
  keeps : Keeps startParts s u

section
variable {s u v : State} {c : Nat}

theorem State.SameLists.refl : s.SameLists s := ⟨rfl, rfl, rfl, fun _ => rfl, .refl s⟩

theorem State.SameLists.trans (h : s.SameLists u) (h' : u.SameLists v) : s.SameLists v where
  waiting := h'.waiting.trans h.waiting
  nextCtx := h'.nextCtx.trans h.nextCtx
  ended := h'.ended.trans h.ended
  lists k := (h'.lists k).trans (h.lists k)
  keeps := h.keeps.trans h'.keeps

theorem State.SameLists.of_keeps (h : Keeps [.mem, .quays, .tiers, .events, .trace, .log, .pilot, .agent] s u) :
    s.SameLists u := by
  have hd : u.dma = s.dma := h.dma_eq (by decide)
  exact ⟨by rw [hd], by rw [hd], by rw [hd], fun k => by rw [State.dmaCtx, hd, State.dmaCtx], h.mono (by decide)⟩

theorem State.SameLists.updCtx {f : DmaCtx → DmaCtx} (hf : ∀ x, (f x).list = x.list) : s.SameLists (s.updCtx c f) where
  waiting := rfl
  nextCtx := rfl
  ended := rfl
  lists k := by
    have hfind : (s.updCtx c f).dmaCtx k = (s.dmaCtx k).map (fun x => if k = c then f x else x) := Table.find_mapV s.dma.ctxs (fun k x => if k = c then f x else x) k
    rw [hfind, Option.map_map]
    congr 1
    funext x
    simp only [Function.comp_apply]
    split
    · exact hf x
    · rfl
  keeps := .withDma (.refl s)

/-- The descriptor at an address, as an engine reads it for a list. -/
def State.fetched (s : State) (e : Nat) (x : DmaCtx) (a : Nat) : Status × Nat × State :=
  match s.accessRecord 6 e x.tenant false a 64 with
  | (some e, s) => (e, 0, s)
  | (none, s) =>
    match s.loadNum a 64 with
    | (none, s) => (ST_DESC_FETCH_UE, 0, s)
    | (some d, s) => (ddCheck d, d, s)

theorem State.fetched_keeps {e a d : Nat} {x : DmaCtx} {st : Status} {w : State} (h : s.fetched e x a = (st, d, w)) :
    Keeps [.mem, .quays, .tiers, .events, .trace, .log, .pilot, .agent] s w := by
  have hacc := Keeps.accessRecord (kind := 6) (unit := e) (tenant := x.tenant) (write := false) (a := a) (n := 64) (.refl s)
    (List.Subset.refl _)
  rw [State.fetched] at h
  split at h
  · next heq =>
    cases h
    rw [heq] at hacc
    exact hacc.mono (by decide)
  · next v heq =>
    rw [heq] at hacc
    have hload := Keeps.loadNum (a := a) (n := 64) (.refl v) (List.Subset.refl _)
    split at h
    · next heq2 =>
      cases h
      rw [heq2] at hload
      exact .trans (hacc.mono (by decide)) (hload.mono (by decide))
    · next heq2 =>
      cases h
      rw [heq2] at hload
      exact .trans (hacc.mono (by decide)) (hload.mono (by decide))

/-- A descriptor that has been read joins the running ones, unless a fence holds it. -/
def State.started (c : Nat) (x : DmaCtx) (e : Nat) (g : Status × Nat × State) : State :=
  if g.1 = 0 ∧ ddFence g.2.1 ∧ !x.running.isEmpty then g.2.2
  else
    (if listSpread x.hdr.toNat then g.2.2.logDecision 0x604 [e] else g.2.2).updCtx c (fun y =>
      { y with next := y.next + 1, running := y.running ++ [
        { index := x.next, engine := e, desc := BitVec.ofNat 512 g.2.1, stage := .started, result := 0,
          crc := 0, flags := 0, status := g.1, outstanding := 0, sent := 0, source := [], tbl := [],
          acked := [], back := [], since := g.2.2.time }] })

theorem State.SameLists.started {x : DmaCtx} {e d : Nat} {st : Status} : s.SameLists (State.started c x e (st, d, s)) := by
  rw [State.started]
  split
  · exact .refl
  · refine State.SameLists.trans ?_ (.updCtx fun _ => rfl)
    split
    · exact .of_keeps (.logDecision (.refl s))
    · exact .refl

theorem State.SameLists.startDescs : s.SameLists (s.startDescs c) := by
  rw [State.startDescs]
  refine iter_induct (p := s.SameLists) (fun v hv => ?_) .refl
  dsimp only
  split
  · exact hv
  · next x _ =>
    split
    · exact hv
    · split
      · exact hv
      · next e _ =>
        change s.SameLists (State.started c x e (v.fetched e x (listDesc x.hdr.toNat + 64 * x.next)))
        generalize hfetch : v.fetched e x (listDesc x.hdr.toNat + 64 * x.next) = g
        obtain ⟨st, d, w⟩ := g
        exact hv.trans (.trans (.of_keeps (State.fetched_keeps hfetch)) .started)

theorem State.SameLists.startAll : s.SameLists s.startAll := by
  rw [State.startAll]
  generalize s.dma.ctxs.map Prod.fst = l
  induction l generalizing s with
  | nil => exact .refl
  | cons c l ih =>
    have hfirst : s.SameLists (s.startDescs c) := .startDescs
    rw [List.foldl_cons]
    exact hfirst.trans ih

/-- The oldest waiting list has a context of an engine. -/
def State.listPlaced (s : State) (e : Nat) (x : DmaCtx) (rest : List DmaCtx) : State :=
  { s with dma := { s.dma with waiting := rest, nextCtx := s.dma.nextCtx + 1,
                               ctxs := Table.put s.dma.ctxs s.dma.nextCtx { x with engine := e } } }

theorem gives_dmaListStart {t e : Nat} {x : DmaCtx} {rest : List DmaCtx} (hw : s.dma.waiting = x :: rest)
    (he : (s.at t).leastEngine (fun e => decide ((s.at t).engineLists e < 8)) = some e) :
    Gives (.dmaListStart t) s (fun u => u.dma.waiting = rest ∧ u.dma.nextCtx = s.dma.nextCtx + 1
      ∧ (u.dmaCtx s.dma.nextCtx).map (fun y => (y.engine, y.seq, y.node, y.hdr)) = some (e, x.seq, x.node, x.hdr)
      ∧ u.dma.ended = s.dma.ended
      ∧ Keeps [.time, .mem, .quays, .tiers, .dma, .events, .trace, .log, .pilot, .agent] s u) := by
  have hw' : (s.at t).dma.waiting = x :: rest := hw
  have hexec : execDmaListStart t s = .next ((s.at t).listPlaced e x rest).startAll := by
    simp only [execDmaListStart, State.placeList, hw', he, Option.getD_some]
    rfl
  have hstart : ((s.at t).listPlaced e x rest).SameLists ((s.at t).listPlaced e x rest).startAll := .startAll
  refine ⟨_, hexec, hstart.waiting, hstart.nextCtx, ?_, hstart.ended, ?_⟩
  · have hput : ((s.at t).listPlaced e x rest).dmaCtx s.dma.nextCtx = some { x with engine := e } := Table.find_put_self ..
    exact (hstart.lists s.dma.nextCtx).trans (by rw [hput]; rfl)
  · exact .trans (.at (.refl s)) (.trans (.withDma (.refl (s.at t))) (hstart.keeps.mono (by decide)))

/-! ### The end of a descriptor -/

section
variable {i t : Nat} {x : DmaCtx} {r : DmaRun}

/-- Without a completion queue a descriptor ends without a record. -/
theorem State.runRecord_unqueued (hi : r.index = i) (hcq : listCq x.hdr.toNat = 0) :
    (s.holds c x r).runRecord c i = (s.holds c x r).runDone c i := by
  simp only [State.runRecord, State.holds_dmaCtx, State.holds_dmaRun hi, hcq, true_or, if_true]

/-- The status of a failed descriptor is kept with its engine. -/
theorem State.runDone_failed (hi : r.index = i) (hstatus : r.status ≠ 0) :
    ∃ u, (s.holds c x r).runDone c i = u ∧ u.dmaRun c i = some { r with stage := .failed }
      ∧ u.dma.ended = s.dma.ended ∧ (u.engine r.engine).err = r.status ∧ Keeps [.trace, .dma] s u := by
  let v := (s.holds c x r).traceCentral 1 0x15 3 r.engine (ddTag r.desc.toNat)
    (r.status.toNat + 2 ^ 16 * r.index + 2 ^ 64 * x.seq)
  let w := v.updEngine r.engine (fun e => { e with err := r.status })
  have hdma : v.dma = (s.holds c x r).dma := (Keeps.traceCentral (ks := [.trace]) (.refl _)).dma_eq (by decide)
  have hdone : (s.holds c x r).runDone c i = w.updRun c i (fun r => { r with stage := .failed }) := by
    simp only [State.runDone, State.holds_dmaCtx, State.holds_dmaRun hi]
    rw [if_pos hstatus]
  refine ⟨_, hdone, ?_, ?_, ?_, ?_⟩
  · have hmap : (w.updRun c i (fun r => { r with stage := .failed })).dma.ctxs
        = ((s.holds c x r).updRun c i (fun r => { r with stage := .failed })).dma.ctxs := by
      change (v.updRun c i (fun r => { r with stage := .failed })).dma.ctxs = _
      rw [State.updRun, State.updRun, State.updCtx, State.updCtx, hdma]
    rw [State.dmaRun, State.dmaCtx, hmap, State.holds_updRun hi]
    exact State.holds_dmaRun (s := s) (x := x) (r := { r with stage := .failed }) hi
  · exact congrArg (·.ended) hdma
  · have hrun : (w.updRun c i (fun r => { r with stage := .failed })).engine r.engine = w.engine r.engine := rfl
    rw [hrun, State.updEngine_engine]
  · exact .withDma (.updEngine (.traceCentral (State.holds_keeps.mono (by decide))))

/-! ### Read-back -/

theorem State.lastWindow_host (hop : ddOp r.desc.toNat = 0) (hcrc : ddCrc r.desc.toNat = false)
    (hdm : ddDstMode r.desc.toNat = 2) (s : State) : s.lastWindow r
      = some (.whole .host (ddDst r.desc.toNat) (ddLength r.desc.toNat),
          (ddDst r.desc.toNat + ddLength r.desc.toNat - 1) / 8 * 8) := by
  simp only [State.lastWindow, State.sidePlan_host (r := r) (dst := true) hdm s r rfl, ddDstBytes_of (d := r.desc.toNat)
    (by omega), crcPieces, ddCrcBytes, hcrc]
  rfl

theorem State.windowBytes_host (hop : ddOp r.desc.toNat = 0) (hcrc : ddCrc r.desc.toNat = false)
    (hdm : ddDstMode r.desc.toNat = 2) : u.windowBytes r = s.windowBytes r := by
  simp only [State.windowBytes, State.lastWindow_host hop hcrc hdm, State.sidePlan_host (r := r) (dst := true) hdm _ r rfl]

theorem execDmaReadbackDone_judges (hctx : s.dma.ctxs = [(c, x)]) (hrun : x.running = [r]) (hi : r.index = i)
    (hstage : r.stage = .written) (hstatus : r.status = 0) (hop : ddOp r.desc.toNat = 0)
    (hcrc : ddCrc r.desc.toNat = false) (hdm : ddDstMode r.desc.toNat = 2) (hup : s.bring.pcieUp = true)
    (hl : s.logging = false) : execDmaReadbackDone c i t false s
      = .next (((s.at t).holds c x r).judgeBack c i
          (s.hostRead ((ddDst r.desc.toNat + ddLength r.desc.toNat - 1) / 8 * 8) 8)) := by
  have hself : s.at t = (s.at t).holds c x r := State.eq_holds (s := s.at t) hctx hrun
  have hfetch (a : Nat) : ((s.at t).holds c x r).hostFetch a 8 = (s.hostRead a 8, (s.at t).holds c x r) := by
    have hlog : ((s.at t).holds c x r).logging = false := hl
    simp only [State.hostFetch, State.logInput, hlog]
    rfl
  have hup' : ((s.at t).holds c x r).bring.pcieUp = true := hup
  conv => lhs; rw [execDmaReadbackDone, hself]
  simp only [State.holds_dmaCtx, State.holds_dmaRun hi, hstage, hstatus, reduceCtorEq, if_false, ne_eq, not_true_eq_false,
    or_self, State.lastWindow_host hop hcrc hdm, Piece.whole, Bool.false_eq_true, hup', Bool.not_true, hfetch]

theorem gives_dmaReadbackDone_ends (hctx : s.dma.ctxs = [(c, x)]) (hrun : x.running = [r]) (hi : r.index = i)
    (hstage : r.stage = .written) (hstatus : r.status = 0) (hlast : x.completed + 1 = listCount x.hdr.toNat)
    (hcq : listCq x.hdr.toNat = 0) (hdm : ddDstMode r.desc.toNat = 2) (hop : ddOp r.desc.toNat = 0)
    (hcrc : ddCrc r.desc.toNat = false) (hcmp : ddCmp r.desc.toNat = false) (hsig : ddSig r.desc.toNat = false)
    (hup : s.bring.pcieUp = true) (hl : s.logging = false) :
    Gives (.dmaReadbackDone c i t false) s (fun u => u.dma.ctxs = []
      ∧ u.dma.ended = s.dma.ended ++ [(x.seq, x.node, 0, x.flags ||| r.flags)]
      ∧ (u.engine r.engine).done = (s.engine r.engine).done + 1 ∧ Keeps [.time, .trace, .dma] s u) := by
  obtain ⟨u, hu, hctxs, -, hended, hdone, hkeep⟩ := State.runDone_last (s := s.at t) (r := r) (x := x) (c := c) hi hstatus
    hsig hlast
  refine ⟨u, (execDmaReadbackDone_judges hctx hrun hi hstage hstatus hop hcrc hdm hup hl).trans ?_, hctxs, hended, hdone,
    .trans (.at (.refl s)) (hkeep.mono (by decide))⟩
  rw [← hu]
  simp only [State.judgeBack, State.holds_dmaRun hi, hcmp, Bool.false_and, Bool.false_eq_true, if_false,
    State.runRecord_unqueued hi hcq]

theorem gives_dmaReadbackDone_differs {b : Nat × Byte} (hctx : s.dma.ctxs = [(c, x)]) (hrun : x.running = [r])
    (hi : r.index = i) (hstage : r.stage = .written) (hstatus : r.status = 0)
    (hcq : listCq x.hdr.toNat = 0) (hdm : ddDstMode r.desc.toNat = 2) (hop : ddOp r.desc.toNat = 0)
    (hcrc : ddCrc r.desc.toNat = false) (hcmp : ddCmp r.desc.toNat = true)
    (hup : s.bring.pcieUp = true) (hl : s.logging = false) (hb : b ∈ s.windowBytes r)
    (hdiff : (s.hostRead ((ddDst r.desc.toNat + ddLength r.desc.toNat - 1) / 8 * 8) 8)[b.1]? ≠ some b.2) :
    Gives (.dmaReadbackDone c i t false) s (fun u =>
      (u.dmaRun c i).map (fun y => (y.stage, y.status)) = some (.failed, ST_DMA_READBACK_MISMATCH)
      ∧ (u.engine r.engine).err = ST_DMA_READBACK_MISMATCH ∧ Keeps [.time, .trace, .dma] s u) := by
  let y : DmaRun := { r with status := ST_DMA_READBACK_MISMATCH }
  let v := (s.at t).cntMod 81 1
  obtain ⟨u, hu, hrun', -, herr, hkeep⟩ := State.runDone_failed (s := v) (r := y) (x := x) (c := c) hi
    (show ST_DMA_READBACK_MISMATCH ≠ 0 by decide)
  have hbad : (((s.at t).holds c x r).windowBytes r).any (fun p =>
      (s.hostRead ((ddDst r.desc.toNat + ddLength r.desc.toNat - 1) / 8 * 8) 8)[p.1]? != some p.2) = true := by
    rw [State.windowBytes_host (s := s) hop hcrc hdm]
    exact List.any_eq_true.2 ⟨b, hb, bne_iff_ne.2 hdiff⟩
  have hfail : (((s.at t).holds c x r).runFail c i ST_DMA_READBACK_MISMATCH).cntMod 81 1 = v.holds c x y := by
    rw [State.runFail, State.holds_updRun hi, if_pos hstatus]
    rfl
  refine ⟨u, (execDmaReadbackDone_judges hctx hrun hi hstage hstatus hop hcrc hdm hup hl).trans ?_, ?_, herr,
    .trans (.cntMod (.at (.refl s))) (hkeep.mono (by decide))⟩
  · rw [← hu]
    simp only [State.judgeBack, State.holds_dmaRun hi, hcmp, Bool.true_and, hbad, if_true, hfail]
    rw [State.runRecord_unqueued (r := y) hi hcq]
  · rw [hrun']
    rfl

/-! ### Failures -/

theorem gives_cqReserveRetry (hctx : s.dma.ctxs = [(c, x)]) (hrun : x.running = [r]) (hi : r.index = i)
    (hstage : r.stage = .cqWait) (ht : r.since + msTicks 100 ≤ t) (hl : s.logging = false) :
    Gives (.cqReserveRetry c i t) s (fun u =>
      (u.dmaRun c i).map (fun y => (y.stage, y.status)) = some (.failed, ST_DMA_CQ_TIMEOUT)
      ∧ (u.engine r.engine).err = ST_DMA_CQ_TIMEOUT ∧ u.dma.ended = s.dma.ended ∧ Keeps [.time, .trace, .dma] s u) := by
  let y : DmaRun := { r with status := ST_DMA_CQ_TIMEOUT }
  have hself : s.at t = (s.at t).holds c x r := State.eq_holds (s := s.at t) hctx hrun
  obtain ⟨u, hu, hrun', hended, herr, hkeep⟩ := State.runDone_failed (s := s.at t) (r := y) (x := x) (c := c) hi
    (show ST_DMA_CQ_TIMEOUT ≠ 0 by decide)
  have htime : r.since + msTicks 100 ≤ (s.at t).time := Nat.le_trans ht (Nat.le_max_right ..)
  have hearly : ¬ (s.at t).time < r.since + usTicks 1 := by
    have hle : usTicks 1 ≤ msTicks 100 := by decide
    omega
  have hfail : (((s.at t).holds c x r).updRun c i (fun r => { r with status := ST_DMA_CQ_TIMEOUT }))
      = (s.at t).holds c x y := State.holds_updRun hi _
  have hlog : ((s.at t).holds c x r).logging = false := hl
  have hexec : execCqReserveRetry c i t s = .next u := by
    rw [execCqReserveRetry, hself, ← hu]
    simp only [State.holds_dmaRun hi, hstage, ne_eq, not_true_eq_false, false_or, State.holds_time, hearly, if_false, htime,
      if_true, State.logDecision_off hlog, hfail]
  refine ⟨u, hexec, ?_, herr, hended, .trans (.at (.refl s)) (hkeep.mono (by decide))⟩
  rw [hrun']
  rfl

theorem gives_dmaDescFail (hctx : s.dma.ctxs = [(c, x)]) (hrun : x.running = [r]) (hi : r.index = i)
    (hstage : r.stage = .failed) :
    Gives (.dmaDescFail c i t) s (fun u => u.dma.ctxs = []
      ∧ u.dma.ended = s.dma.ended ++ [(x.seq, x.node, r.status, x.flags ||| r.flags)] ∧ Keeps [.time, .dma] s u) := by
  have hself : s.at t = (s.at t).holds c x r := State.eq_holds (s := s.at t) hctx hrun
  have hend := State.endList_alone (s := (s.at t).holds c x r) (c := c) (y := { x with running := [r] })
    (x := { x with running := [r], flags := x.flags ||| r.flags }) (st := r.status) rfl
  have hexec : execDmaDescFail c i t s
      = .next (((s.at t).holds c x r).listGone (x.seq, x.node, r.status, x.flags ||| r.flags)) := by
    conv => lhs; rw [execDmaDescFail, hself]
    simp only [State.holds_dmaRun hi, hstage, ne_eq, not_true_eq_false, false_and, and_false, if_false, State.holds_dmaCtx, hend]
  exact ⟨_, hexec, rfl, rfl, .withDma (.withDma (.at (.refl s)))⟩

theorem gives_pcieCompletionTimeout (hctx : s.dma.ctxs = [(c, x)]) (hrun : x.running = [r]) (hi : r.index = i)
    (hstage : r.stage = .reading) (hstatus : r.status = 0) (hcq : listCq x.hdr.toNat = 0) (hop : ddOp r.desc.toNat = 0)
    (hsm : ddSrcMode r.desc.toNat = 2) (ht : r.since + msTicks 50 ≤ t) :
    Gives (.pcieCompletionTimeout none c i t) s (fun u =>
      (u.dmaRun c i).map (fun y => (y.stage, y.status)) = some (.failed, ST_DMA_HOST_ERR)
      ∧ (u.engine r.engine).err = ST_DMA_HOST_ERR ∧ Keeps [.time, .trace, .dma] s u) := by
  let y : DmaRun := { r with status := ST_DMA_HOST_ERR }
  have hself : s.at t = (s.at t).holds c x r := State.eq_holds (s := s.at t) hctx hrun
  obtain ⟨u, hu, hrun', -, herr, hkeep⟩ := State.runDone_failed (s := s.at t) (r := y) (x := x) (c := c) hi
    (show ST_DMA_HOST_ERR ≠ 0 by decide)
  have htime : r.since + msTicks 50 ≤ (s.at t).time := Nat.le_trans ht (Nat.le_max_right ..)
  have hfail : ((s.at t).holds c x r).runFail c i ST_DMA_HOST_ERR = (s.at t).holds c x y := by
    rw [State.runFail, State.holds_updRun hi, if_pos hstatus]
  have hdue : ((r.stage = .started ∨ r.stage = .reading) ∧ ddOp r.desc.toNat ≠ 1 ∧ ddOp r.desc.toNat ≠ 2
      ∧ ddSrcMode r.desc.toNat = 2 ∨ r.stage = .written ∧ ddDstMode r.desc.toNat = 2) ∧ r.status = 0
      ∧ r.since + msTicks 50 ≤ ((s.at t).holds c x r).time :=
    ⟨.inl ⟨.inr hstage, by omega, by omega, hsm⟩, hstatus, htime⟩
  have hexec : execPcieCompletionTimeout none c i t s = .next u := by
    rw [execPcieCompletionTimeout, hself, ← hu]
    simp only [State.holds_dmaRun hi]
    rw [if_pos hdue, hfail, State.runRecord_unqueued (r := y) hi hcq]
  refine ⟨u, hexec, ?_, herr, .trans (.at (.refl s)) (hkeep.mono (by decide))⟩
  rw [hrun']
  rfl

end

end

/-- Settles O36. -/
theorem dmaLists : Obligations.DmaLists := by
  unfold Obligations.DmaLists
  refine ⟨?_, ?_, ?_, ?_, ?_, ?_⟩
  · intro s t e x rest hw he
    exact gives_dmaListStart hw he
  · intro s c i t x r hctx hrun hi hstage hstatus _ hlast hcq hdm _ hop hcrc hcmp hsig _ hup hl
    exact gives_dmaReadbackDone_ends hctx hrun hi hstage hstatus hlast hcq hdm hop hcrc hcmp hsig hup hl
  · intro s c i t x r b hctx hrun hi hstage hstatus _ hcq hdm _ hop hcrc hcmp hup hl hb hdiff
    exact gives_dmaReadbackDone_differs hctx hrun hi hstage hstatus hcq hdm hop hcrc hcmp hup hl hb hdiff
  · intro s c i t x r hctx hrun hi hstage _ ht hl
    exact gives_cqReserveRetry hctx hrun hi hstage ht hl
  · intro s c i t x r hctx hrun hi hstage _
    exact gives_dmaDescFail hctx hrun hi hstage
  · intro s c i t x r hctx hrun hi hstage hstatus _ hcq hop hsm ht
    exact gives_pcieCompletionTimeout hctx hrun hi hstage hstatus hcq hop hsm ht

end Sys2Proof.Machine

/-! Settles the statement about the barrier operations of a tile stream. -/

namespace Sys2Proof.Machine

set_option Elab.async false

/-! ### An operation that waits -/

/-- A stream of a tile stands at operation `pc` and waits for `c`. -/
def Tile.Waits (x : Tile) (ex : Bool) (pc : Nat) (c : WaitCause) : Prop :=
  (x.stream ex).pc = pc ∧ (x.stream ex).wait = c

section
variable {x : Tile} {ex : Bool} {pc : Nat} {c : WaitCause}

/-- Leaving a PREEMPT leaves a stream that waits for something else alone. -/
theorem Tile.Waits.unhold (h : x.Waits ex pc c) (hc : ∀ i, c ≠ .hold i) (b : Bool) (now : Nat) :
    (x.unhold b now).Waits ex pc c := by
  unfold Tile.unhold
  split
  · next i hw =>
    obtain rfl | rfl : b = ex ∨ b = !ex := by cases b <;> cases ex <;> simp
    · exact absurd (h.2.symm.trans hw) (hc i)
    · have hother : (x.advance (!ex) none now).stream ex = x.stream ex := Tile.stream_setStream_other ..
      rw [Tile.Waits, hother]
      exact h
  · exact h

end

section
variable {s s1 : State} {t g opc w : Nat} {ex : Bool} {c : WaitCause} {run : Nat → OpOut}

theorem State.skipCheck_waits {pc : Nat} (h : (s.tile t).Waits ex pc c) (hc : ∀ i, c ≠ .hold i) :
    ((s.skipCheck t).tile t).Waits ex pc c ∧ OnlyAt s.tiles (s.skipCheck t).tiles t
      ∧ Keeps [.tiles, .trace] s (s.skipCheck t) := by
  unfold State.skipCheck
  extract_lets x0
  split
  · refine ⟨?_, .put, State.keeps_updTile.append State.keeps_cntQuay⟩
    rw [State.cntQuay_tile, State.updTile_tile]
    exact (h.unhold hc false s.time).unhold hc true s.time
  · exact ⟨h, .refl, .refl s⟩

/-- An operation that waits leaves its stream where it stands. -/
theorem State.streamOp_wait (hs : s.standsAt t ex opc w) (hr : run w = .wait s1 c) (hc : ∀ i, c ≠ .hold i) :
    ∃ u, s.streamOp t ex opc run = u ∧ (u.tile t).Waits ex ((s1.tile t).stream ex).pc c
      ∧ OnlyAt s1.tiles u.tiles t ∧ Keeps [.tiles, .trace] s1 u := by
  obtain ⟨hop, hopc, hissue, hwait⟩ := hs
  have hclose : ((closeOp t ex (run w)).tile t).Waits ex ((s1.tile t).stream ex).pc c := by
    rw [hr, closeOp, State.updTile_tile, Tile.Waits, Tile.stream_setStream_same]
    exact ⟨rfl, rfl⟩
  obtain ⟨h1, h2, h3⟩ := State.skipCheck_waits hclose hc
  have ho : OnlyAt s1.tiles (closeOp t ex (run w)).tiles t := by rw [hr]; exact .put
  have hk : Keeps [.tiles] s1 (closeOp t ex (run w)) := by rw [hr]; exact State.keeps_updTile
  refine ⟨_, ?_, h1, ho.trans h2, (hk.append h3).mono (by decide)⟩
  simp [State.streamOp, hop, hopc, hissue, hwait]

/-! ### Arrival at a barrier -/

/-- One more member has arrived, and may wait. -/
def Barrier.joined (b : Barrier) (t : Nat) (ex wait : Bool) : Barrier :=
  if wait then { b.arrive t with waiting := b.waiting ++ [(t, ex)] } else b.arrive t

theorem State.barRelease_go_early {n : Nat} (h : (s.bar g).arrived.length < (s.bar g).size) :
    State.barRelease.go g (n + 1) s = s := by
  rw [State.barRelease.go]
  exact if_pos (.inr h)

theorem State.barRelease_early (h : (s.bar g).arrived.length < (s.bar g).size) : s.barRelease g = s :=
  State.barRelease_go_early h

/-- A member that is not the last raises its wire. -/
theorem State.barArrive_early {wait : Bool} (hsize : (s.bar g).arrived.length + 1 < (s.bar g).size)
    (hnew : (s.bar g).arrived.contains t = false) :
    s.barArrive g t ex wait = ((s.setBar g ((s.bar g).joined t ex wait)).cntQuay (t / 64) 51 1, !wait) := by
  have hlen : ((s.bar g).arrive t).arrived.length = (s.bar g).arrived.length + 1 := by simp [Barrier.arrive]
  have hreleased : decide ((s.bar g).size ≤ ((s.bar g).arrive t).arrived.length) = false := by
    rw [hlen]
    exact decide_eq_false (by omega)
  have hjoined : ((s.bar g).joined t ex wait).arrived.length = (s.bar g).arrived.length + 1
      ∧ ((s.bar g).joined t ex wait).size = (s.bar g).size := by
    cases wait <;> exact ⟨hlen, rfl⟩
  have hwaiting : (if wait && !false then { (s.bar g).arrive t with waiting := ((s.bar g).arrive t).waiting ++ [(t, ex)] }
      else (s.bar g).arrive t) = (s.bar g).joined t ex wait := by cases wait <;> rfl
  have hsize' : ((s.bar g).arrive t).size = (s.bar g).size := rfl
  simp only [State.barArrive, hnew, Bool.false_eq_true, if_false, hsize', hreleased, hwaiting, Bool.or_false]
  rw [State.barRelease_early]
  have hbar : ((s.setBar g ((s.bar g).joined t ex wait)).cntQuay (t / 64) 51 1).bar g = (s.bar g).joined t ex wait :=
    State.bar_setBar ..
  rw [hbar, hjoined.1, hjoined.2]
  exact hsize

/-- The group as its last member has arrived: the phase toggles and the wires clear. -/
def Barrier.opened (b : Barrier) : Barrier :=
  { b with phase := !b.phase, arrived := [], waiting := [], second := [], releases := b.releases + 1 }

theorem State.barRelease_last (hsize : (s.bar g).size = (s.bar g).arrived.length) (hpos : 0 < (s.bar g).size)
    (hw : (s.bar g).waiting = []) (hsec : (s.bar g).second = []) (hsig : (s.bar g).sigEn = false) :
    s.barRelease g = (s.setBar g (s.bar g).opened).cntMod 74 1 := by
  have hbar : ((s.setBar g (s.bar g).opened).cntMod 74 1).bar g = (s.bar g).opened := State.bar_setBar ..
  have hwait : ¬ ((s.bar g).size = 0 ∨ (s.bar g).arrived.length < (s.bar g).size) := by omega
  have hearly : (((s.setBar g (s.bar g).opened).cntMod 74 1).bar g).arrived.length
      < (((s.setBar g (s.bar g).opened).cntMod 74 1).bar g).size := by
    rw [hbar]
    exact hpos
  have hstep : State.barRelease.go g 2 s = State.barRelease.go g 1 ((s.setBar g (s.bar g).opened).cntMod 74 1) := by
    rw [State.barRelease.go]
    simp only [if_neg hwait, hsec, List.foldl_nil, List.filter_nil, List.map_nil, hw, hsig, Bool.false_eq_true, if_false, Barrier.opened]
  rw [State.barRelease, hsec]
  exact hstep.trans (State.barRelease_go_early hearly)

theorem State.barArrive_last (hsize : (s.bar g).size = (s.bar g).arrived.length + 1)
    (hnew : (s.bar g).arrived.contains t = false) (hw : (s.bar g).waiting = []) (hsec : (s.bar g).second = [])
    (hsig : (s.bar g).sigEn = false) :
    s.barArrive g t ex true = ((((s.setBar g ((s.bar g).arrive t)).cntQuay (t / 64) 51 1).setBar g
      ((s.bar g).arrive t).opened).cntMod 74 1, true) := by
  have hlen : ((s.bar g).arrive t).arrived.length = (s.bar g).arrived.length + 1 := by simp [Barrier.arrive]
  have hsize' : ((s.bar g).arrive t).size = (s.bar g).size := rfl
  have hbar : ((s.setBar g ((s.bar g).arrive t)).cntQuay (t / 64) 51 1).bar g = (s.bar g).arrive t := State.bar_setBar ..
  have hreleased : decide ((s.bar g).size ≤ ((s.bar g).arrive t).arrived.length) = true := by
    rw [hlen]
    exact decide_eq_true (by omega)
  have hrel := State.barRelease_last (s := (s.setBar g ((s.bar g).arrive t)).cntQuay (t / 64) 51 1) (g := g)
    (by rw [hbar, hlen, hsize', hsize]) (by rw [hbar, hsize']; omega) (by rw [hbar]; exact hw) (by rw [hbar]; exact hsec)
    (by rw [hbar]; exact hsig)
  rw [hbar] at hrel
  simp only [State.barArrive, hnew, Bool.false_eq_true, if_false, hsize', hreleased, Bool.not_true, Bool.and_false, hrel,
    Bool.or_true]

/-! ### What the operations answer -/

/-- The stream has handed its operation over. -/
def State.marked (s : State) (t : Nat) (ex : Bool) : State :=
  s.setTile t ((s.tile t).setStream ex { (s.tile t).stream ex with sent := true })

/-- A stream has handed over an operation it waits for, or has done it. -/
def barAnswer (t : Nat) (ex : Bool) (r : State × Bool) : OpOut :=
  if r.2 then .done r.1 none else .wait (r.1.marked t ex) .sync

variable {sop : Nat}

theorem opSync_bar (hsop : bits w 8 4 = sop) (hs : 5 ≤ sop) (hg : bits w 24 6 = g)
    (hsent : ((s.tile t).stream ex).sent = false) (hc : s.barCheck g t (s.tile t).tenant = none)
    (hcov : sop ≤ 6 → (s.tile t).coverOf ex = []) :
    opSync t ex s w = barAnswer t ex (if sop = 7 then s.barWait g t ex else s.barArrive g t ex (sop == 5)) := by
  have hgroup : bits w 24 17 % 64 = g := by
    rw [← hg]
    simp only [bits]
    omega
  have hcover : (decide (sop ≤ 6) && !((s.tile t).coverOf ex).isEmpty) = false := by
    by_cases h6 : sop ≤ 6
    · rw [hcov h6]
      simp
    · simp [h6]
  simp only [opSync, hsop, show sop ≠ 0 by omega, show ¬ sop ≤ 4 by omega, if_false, hgroup, hc, hsent, Bool.false_eq_true,
    hcover]
  rfl

theorem exec_bar (hs : s.standsAt t ex 0x06 w) (hsop : bits w 8 4 = sop) (hg : bits w 24 6 = g) :
    s.barOp t ex sop g = .next (s.streamOp t ex 0x06 (opSync t ex s)) := by
  simp only [State.barOp, hs.1, hsop, hg, and_self, if_true]
  rfl

/-- A barrier operation that goes on. -/
theorem State.barOp_goes {v : State} (hs : s.standsAt t ex 0x06 w) (hsop : bits w 8 4 = sop) (h5 : 5 ≤ sop)
    (hg : bits w 24 6 = g) (hsent : ((s.tile t).stream ex).sent = false) (hc : s.barCheck g t (s.tile t).tenant = none)
    (hcov : sop ≤ 6 → (s.tile t).coverOf ex = [])
    (hgo : (if sop = 7 then s.barWait g t ex else s.barArrive g t ex (sop == 5)) = (v, true))
    (htiles : v.tiles = s.tiles) :
    ∃ u, s.barOp t ex sop g = .next u ∧ ((u.tile t).stream ex).pc = ((s.tile t).stream ex).pc + 1
      ∧ OnlyAt s.tiles u.tiles t ∧ Keeps [.tiles, .trace] v u := by
  have hr : opSync t ex s w = .done v none := by
    rw [opSync_bar hsop h5 hg hsent hc hcov, hgo, barAnswer]
    exact if_pos rfl
  obtain ⟨u, hu, hwent, honly, hkeep⟩ := State.streamOp_done hs hr
  have htile : v.tile t = s.tile t := by rw [State.tile, htiles, State.tile]
  rw [htile] at hwent
  rw [htiles] at honly
  exact ⟨u, by rw [exec_bar hs hsop hg, hu], hwent.pc_eq, honly, hkeep⟩

/-- A barrier operation that waits. -/
theorem State.barOp_waits {v : State} (hs : s.standsAt t ex 0x06 w) (hsop : bits w 8 4 = sop) (h5 : 5 ≤ sop)
    (hg : bits w 24 6 = g) (hsent : ((s.tile t).stream ex).sent = false) (hc : s.barCheck g t (s.tile t).tenant = none)
    (hcov : sop ≤ 6 → (s.tile t).coverOf ex = [])
    (hgo : (if sop = 7 then s.barWait g t ex else s.barArrive g t ex (sop == 5)) = (v, false))
    (htiles : v.tiles = s.tiles) :
    ∃ u, s.barOp t ex sop g = .next u ∧ ((u.tile t).stream ex).pc = ((s.tile t).stream ex).pc
      ∧ ((u.tile t).stream ex).wait ≠ .none ∧ OnlyAt s.tiles u.tiles t ∧ Keeps [.tiles, .trace] v u := by
  have hr : opSync t ex s w = .wait (v.marked t ex) .sync := by
    rw [opSync_bar hsop h5 hg hsent hc hcov, hgo, barAnswer]
    exact if_neg Bool.false_ne_true
  obtain ⟨u, hu, hwaits, honly, hkeep⟩ := State.streamOp_wait hs hr (by nofun)
  have htile : v.tile t = s.tile t := by rw [State.tile, htiles, State.tile]
  have hmarked : (((v.marked t ex).tile t).stream ex).pc = ((s.tile t).stream ex).pc := by
    rw [State.marked, State.tile_setTile, Tile.stream_setStream_same, htile]
  have hmark : Keeps [.tiles] v (v.marked t ex) := State.keeps_setTile
  refine ⟨u, by rw [exec_bar hs hsop hg, hu], hwaits.1.trans hmarked, ?_, ?_, .trans (hmark.mono (by decide)) hkeep⟩
  · rw [hwaits.2]
    nofun
  · rw [← htiles]
    exact OnlyAt.put.trans honly

/-! ### The settlement -/

theorem State.setBar_cntQuay_at {b : Barrier} {q k : Nat} {u : State}
    (h : Keeps [.tiles, .trace] ((s.setBar g b).cntQuay q k 1) u) : u.bar g = b ∧ u.sync.objs = s.sync.objs
      ∧ OnlyAt s.sync.bars u.sync.bars g ∧ Keeps [.tiles, .sync, .trace] s u := by
  have hsync : u.sync = (s.setBar g b).sync := h.sync_eq (by decide)
  refine ⟨?_, by rw [hsync]; rfl, by rw [hsync]; exact .put, ?_⟩
  · rw [State.bar, hsync]
    exact State.bar_setBar ..
  · have hset : Keeps [.sync] s (s.setBar g b) := State.keeps_setBar
    exact .trans (.cntQuay (hset.mono (by decide))) (h.mono (by decide))

end

/-- Settles O38. -/
theorem barriers : Obligations.Barriers := by
  unfold Obligations.Barriers
  refine ⟨?_, ?_, ?_, ?_, ?_⟩
  · intro s t w g ex hs hsop hg hsent hc hcov hsize hnew
    obtain ⟨u, hu, hpc, hwait, honly, hkeep⟩ := State.barOp_waits hs hsop (by decide) hg hsent hc (fun _ => hcov)
      (State.barArrive_early hsize hnew) rfl
    obtain ⟨hbar, hobjs, hbars, hk⟩ := State.setBar_cntQuay_at hkeep
    exact ⟨u, hu, by rw [hbar]; rfl, by rw [hbar]; rfl, by rw [hbar]; rfl, hpc, hwait, hobjs, hbars, honly, hk⟩
  · intro s t w g ex hs hsop hg hsent hc hcov hsize hnew hw hsec hsig
    obtain ⟨u, hu, hpc, honly, hkeep⟩ := State.barOp_goes hs hsop (by decide) hg hsent hc (fun _ => hcov)
      (State.barArrive_last hsize hnew hw hsec hsig) rfl
    have hset (v : State) (b : Barrier) : Keeps [.sync] v (v.setBar g b) := State.keeps_setBar
    have hk : Keeps [.tiles, .sync, .trace] s u := .trans (.cntMod (.trans (.cntQuay ((hset s _).mono (by decide)))
      ((hset _ _).mono (by decide)))) (hkeep.mono (by decide))
    have hsync : u.sync = (((s.setBar g ((s.bar g).arrive t)).cntQuay (t / 64) 51 1).setBar g
        ((s.bar g).arrive t).opened).sync := hkeep.sync_eq (by decide)
    have hbar : u.bar g = ((s.bar g).arrive t).opened := by
      rw [State.bar, hsync]
      exact State.bar_setBar ..
    refine ⟨u, hu, by rw [hbar]; rfl, by rw [hbar]; rfl, by rw [hbar]; rfl, hpc, by rw [hsync]; rfl, ?_, honly, hk⟩
    rw [hsync]
    have hput : OnlyAt s.sync.bars (Table.put s.sync.bars g ((s.bar g).arrive t)) g := .put
    exact hput.trans .put
  · intro s t w g ex hs hsop hg hsent hc hcov hsize hnew
    obtain ⟨u, hu, hpc, honly, hkeep⟩ := State.barOp_goes hs hsop (by decide) hg hsent hc (fun _ => hcov)
      (State.barArrive_early hsize hnew) rfl
    obtain ⟨hbar, hobjs, hbars, hk⟩ := State.setBar_cntQuay_at hkeep
    exact ⟨u, hu, by rw [hbar]; rfl, by rw [hbar]; rfl, hpc, hobjs, hbars, honly, hk⟩
  · intro s t w g ex hs hsop hg hsent hc hnew
    have hgo : s.barWait g t ex = (s.cntQuay (t / 64) 52 1, true) := by
      rw [State.barWait]
      exact if_neg (by rw [hnew]; decide)
    obtain ⟨u, hu, hpc, honly, hkeep⟩ := State.barOp_goes hs hsop (by decide) hg hsent hc (fun h => absurd h (by decide))
      hgo rfl
    have hk : Keeps [.tiles, .trace] s u := .trans (.cntQuay (.refl s)) hkeep
    exact ⟨u, hu, by rw [hk.sync_eq (by decide)], hpc, honly, hk⟩
  · intro s t w g ex hs hsop hg hsent hc hold
    have hgo : s.barWait g t ex = ((s.cntQuay (t / 64) 52 1).setBar g
        { s.bar g with waiting := (s.bar g).waiting ++ [(t, ex)] }, false) := by
      rw [State.barWait]
      exact if_pos hold
    obtain ⟨u, hu, hpc, hwait, honly, hkeep⟩ := State.barOp_waits hs hsop (by decide) hg hsent hc
      (fun h => absurd h (by decide)) hgo rfl
    obtain ⟨hbar, hobjs, hbars, hk⟩ := State.setBar_cntQuay_at (s := s) (q := t / 64) (k := 52) hkeep
    exact ⟨u, hu, by rw [hbar], by rw [hbar], hpc, hwait, hobjs, hbars, honly, hk⟩

end Sys2Proof.Machine

/-! Refutes the statement about the commands of the serving engine: the time of an entry is kept in 8 bytes, the time
base of the statement is any number. -/

namespace Sys2Proof.Machine

set_option Elab.async false

/-- A RESUME command of the entry 3. -/
def resumeWord : Nat := 0x2000000000000000004d0000000304600801

/-- The serving engine with a RESUME at the head of queue 9 for the paused entry 3. -/
def State.resuming : State :=
  wSrv resumeWord 0x3e7000000040000000000000000000050040000400000001000ffffffff00000000000000000000000000000000000000550000000000000004
    id

/-- At time 2^64 the time in the entry is 0. -/
theorem State.resuming_wraps : (((execResume (2 ^ 64) State.resuming).state State.resuming).srvE 3).time = 0
    ∧ ((execResume (2 ^ 64) State.resuming).state State.resuming).time = 2 ^ 64 := by decide +kernel

/-- Refutes O40: RESUME at time 2^64 leaves an entry whose time is 0. -/
theorem not_servingCommands : ¬ Obligations.ServingCommands := by
  unfold Obligations.ServingCommands
  rintro ⟨-, -, -, -, -, -, h, -⟩
  obtain ⟨u, hu, -, htime, -⟩ := h State.resuming (2 ^ 64) 9 3 resumeWord wSq (wSg 1).toNat (by decide +kernel)
    (by decide +kernel) (by decide) (by decide) (by decide +kernel) (by decide) (by decide) (by decide +kernel)
    (by decide +kernel) (by decide +kernel) (by decide) (by decide +kernel) (by decide +kernel) (by decide +kernel)
    (by decide +kernel) (by decide +kernel) (by decide +kernel) (by decide +kernel)
  obtain ⟨hwrap, hnow⟩ := State.resuming_wraps
  have hu' : execResume (2 ^ 64) State.resuming = .next u := hu
  rw [hu'] at hwrap hnow
  have hzero : (u.srvE 3).time = 0 := hwrap
  have hbase : u.time = 2 ^ 64 := hnow
  omega

end Sys2Proof.Machine

/-! Refutes the statement about the steps of the serving engine: the time of an entry is kept in 8 bytes, the time base
of the statement is any number. -/

namespace Sys2Proof.Machine

set_option Elab.async false

/-- A model of two stages with launch queue 5. -/
def twoStages : SrvModel := { tenant := 0, words := BitVec.ofNat 4608 (5 * 2 ^ 64 + 2 * 2 ^ 48) }

/-- The step 7 of entry 3 in stage 0 of that model, which has ended well. -/
def endedStep : SrvStep := wStep (fun x => { x with result := some 0 })

/-- The serving engine with that step in flight and its entry IN_STEP. -/
def State.stepEnded : State :=
  wSrv 0 3 (fun s => { s with serving := { s.serving with inFlight := [endedStep], models := [(0, twoStages)] } })

/-- At time 2^64 the time in the entry is 0. -/
theorem State.stepEnded_wraps : (((execStepCompletion 7 (2 ^ 64) State.stepEnded).state State.stepEnded).srvE 3).time = 0
    ∧ ((execStepCompletion 7 (2 ^ 64) State.stepEnded).state State.stepEnded).time = 2 ^ 64 := by decide +kernel

/-- Refutes O41: the completion of a step at time 2^64 leaves an entry whose time is 0. -/
theorem not_servingSteps : ¬ Obligations.ServingSteps := by
  unfold Obligations.ServingSteps
  rintro ⟨-, -, h, -⟩
  obtain ⟨u, hu, -, -, htime, -⟩ := h State.stepEnded 7 3 (2 ^ 64) endedStep twoStages (by decide +kernel) (by decide) (by decide)
    (by decide) (by decide) (by decide +kernel) (by decide +kernel) (by decide +kernel) (by decide +kernel) (by decide +kernel)
    (by decide +kernel) (by decide +kernel)
  obtain ⟨hwrap, hnow⟩ := State.stepEnded_wraps
  have hu' : execStepCompletion 7 (2 ^ 64) State.stepEnded = .next u := hu
  rw [hu'] at hwrap hnow
  have hzero : (u.srvE 3).time = 0 := hwrap
  have hbase : u.time = 2 ^ 64 := hnow
  omega

end Sys2Proof.Machine

/-! Refutes the statement about flits and remote requests: a write that isolation refuses waits, as every access does,
while the unit of its address has lost calibration. -/

namespace Sys2Proof.Machine

set_option Elab.async false

/-- A write of eight bytes at address 0 of tier 1 for tenant 6, which has no right to it. -/
def deniedWrite : Packet := wPkt (fun p => { p with loc := 0, tenant := 6, ptype := 2, data := bytesOfNat 8 77 })

/-- Pseudo-channel 0 of stack 0 has lost calibration, and that write stands in the inbox. -/
def State.deniedAtLost : State :=
  let s := wFab (fun f => { f with inbox := [(16, deniedWrite)] })
  { s with tiers := { s.tiers with calLost := [(0, 0)] } }

/-- The write stays in the inbox; answered, it would have made room for its refusal. -/
theorem State.deniedAtLost_waits :
    (((execPktWr 9 State.deniedAtLost).state State.deniedAtLost).fab.inbox.map (fun p => p.2.ptype)) = [2]
    ∧ ((State.deniedAtLost.answered1 16 deniedWrite
        (State.deniedAtLost.replyTo deniedWrite 7 ST_ISO_ADDRESS.toNat [])).inbox.map (fun p => p.2.ptype)) = [7] := by
  decide +kernel

/-- Refutes O43: the refused write to a unit that has lost calibration is not answered. -/
theorem not_fabricPackets : ¬ Obligations.FabricPackets := by
  unfold Obligations.FabricPackets
  rintro ⟨-, -, -, -, -, -, h, -⟩
  obtain ⟨u, hu, hfab, -⟩ := h State.deniedAtLost 9 16 deniedWrite ST_ISO_ADDRESS (by decide +kernel) (by decide)
    (by decide) (by decide +kernel) (by decide +kernel) (by decide +kernel) (by decide +kernel) (by decide +kernel)
  obtain ⟨hstays, hanswered⟩ := State.deniedAtLost_waits
  have hu' : execPktWr 9 State.deniedAtLost = .next u := hu
  rw [hu'] at hstays
  have hin : u.fab.inbox.map (fun p => p.2.ptype) = [2] := hstays
  rw [hfab, hanswered] at hin
  cases hin

end Sys2Proof.Machine

/-! Settles the statement about the ports of the fabric. -/

namespace Sys2Proof.Machine

set_option Elab.async false

/-! ### What a step does to one port -/

/-- Port `p` of the fabric is `x`, and of the rest of the fabric the other ports, the packets, the routes and the
requests are as they were. -/
structure State.PortSet (s u : State) (p : Nat) (x : FabPort) : Prop where
  port : u.port p = x
  only : OnlyAt s.fab.ports u.fab.ports p
  inbox : u.fab.inbox = s.fab.inbox
  rt : u.fab.rt = s.fab.rt
  reqs : u.fab.reqs = s.fab.reqs
  assigned : u.fab.assigned = s.fab.assigned
  waitQ : u.fab.waitQ = s.fab.waitQ

section
variable {s u v : State} {p t : Nat} {x : FabPort}

theorem State.PortSet.refl : s.PortSet s p (s.port p) := ⟨rfl, .refl, rfl, rfl, rfl, rfl, rfl⟩

theorem State.PortSet.updPort (h : s.PortSet u p x) (f : FabPort → FabPort) : s.PortSet (u.updPort p f) p (f x) where
  port := by
    rw [← h.port]
    exact Table.getD_upd_self ..
  only := h.only.trans .put
  inbox := h.inbox
  rt := h.rt
  reqs := h.reqs
  assigned := h.assigned
  waitQ := h.waitQ

theorem State.PortSet.of_fab (h : s.PortSet u p x) (hv : v.fab = u.fab) : s.PortSet v p x where
  port := by
    rw [State.port, hv]
    exact h.port
  only := by rw [hv]; exact h.only
  inbox := by rw [hv]; exact h.inbox
  rt := by rw [hv]; exact h.rt
  reqs := by rw [hv]; exact h.reqs
  assigned := by rw [hv]; exact h.assigned
  waitQ := by rw [hv]; exact h.waitQ

theorem State.PortSet.raise {st : Status} {k n a : Nat} {tn : Option Nat} (h : s.PortSet u p x) :
    s.PortSet (u.raise st k n tn a) p x := h.of_fab ((Keeps.raise (ks := [.events, .trace]) (.refl u)).fab_eq (by decide))

theorem State.PortSet.linksChanged (h : s.PortSet u p x) : s.PortSet u.linksChanged p x where
  port := h.port
  only := h.only
  inbox := h.inbox
  rt := h.rt
  reqs := h.reqs
  assigned := h.assigned
  waitQ := h.waitQ

theorem State.PortSet.laneEvent {n : Nat} (h : s.PortSet u p x) : s.PortSet (u.laneEvent p n) p x := by
  rw [State.laneEvent]
  split
  · exact h.raise
  · exact h

theorem State.pumpFabric_idle (h : s.fab.waitQ = []) : s.pumpFabric = s := by
  have hfab : ({ s.fab with waitQ := [] } : Fabric) = s.fab := by rw [← h]
  rw [State.pumpFabric, h, List.foldl_nil, hfab]

theorem State.pairCheck_far (h : p < 14) : s.pairCheck p = s := if_pos h

theorem State.countDown_far (h : p < 14) : s.countDown p = s := if_pos h

/-! ### Events -/

theorem State.raise_entries_of_one {st : Status} {k n a : Nat} {tn : Option Nat} {e : EventEntry}
    (he : s.events.entries = [e]) (hst : e.record.status ≠ st) (ha : isAlarm st = false) :
    (s.raise st k n tn a).events.entries = [e, s.newEntry st k n tn a] := by
  have hx : ¬ (s.newEntry st k n tn a).alarm = true := by simp [State.newEntry, ha]
  have hsame : e.sameEvent (s.newEntry st k n tn a) = false := by simp [EventEntry.sameEvent, State.newEntry, hst]
  have hlen : ([e].filter (fun y => !y.alarm && !y.reserved)).length < 4080 :=
    Nat.lt_of_le_of_lt (List.length_filter_le _ _) (by simp)
  simp only [State.raise, State.placeEntry, if_neg hx]
  simp [EventStores.placeEvent, he, hsame, hlen]

theorem State.laneEvent_full : s.laneEvent p 8 = s := if_neg (by decide)

theorem State.laneEvent_degraded {n : Nat} (h : n < 8) : s.laneEvent p n = s.raise ST_FAB_LANE_DEGRADED 5 p none n :=
  if_pos h

/-! ### HELLO -/

theorem gives_helloSend_due (hp : p < 16) (hst : (s.port p).state = 2) (hsent : (s.port p).helloSent = none)
    (hc : (s.helloPacket p).slots ≤ ((s.port p).credits[4]?).getD 0) :
    Gives (.helloSend p t) s (fun u => u.port p = { ((s.port p).putPacket (s.helloPacket p)) with helloSent := some u.time }
      ∧ OnlyAt s.fab.ports u.fab.ports p ∧ u.fab.inbox = s.fab.inbox ∧ u.fab.rt = s.fab.rt
      ∧ u.fab.reqs = s.fab.reqs ∧ Keeps [.time, .fab] s u) := by
  have hset := (State.PortSet.refl (s := s.at t) (p := p)).updPort
    (fun x => { (x.putPacket (s.helloPacket p)) with helloSent := some (s.at t).time })
  have hport : (s.at t).port p = s.port p := rfl
  have hpacket : (s.at t).helloPacket p = s.helloPacket p := rfl
  have hexec : execHelloSend p t s = .next ((s.at t).updPort p
      (fun x => { (x.putPacket (s.helloPacket p)) with helloSent := some (s.at t).time })) := by
    simp only [execHelloSend, hport, hpacket, hst, hsent]
    refine if_neg ?_
    simp only [Bool.not_true, Bool.false_eq_true, false_or, beq_self_eq_true, Bool.or_true]
    omega
  exact ⟨_, hexec, hset.port, hset.only, hset.inbox, hset.rt, hset.reqs, .updPort (.at (.refl s))⟩

theorem gives_helloSend_early {h : Nat} (hsent : (s.port p).helloSent = some h)
    (ht : max s.time t < h + msTicks (if (s.port p).helloSeen.isNone then 1 else 10)) :
    Gives (.helloSend p t) s (fun u => Keeps [.time] s u) := by
  have hport : (s.at t).port p = s.port p := rfl
  have hdue : decide (h + msTicks (if (s.port p).helloSeen.isNone then 1 else 10) ≤ (s.at t).time) = false :=
    decide_eq_false (Nat.not_le.mpr ht)
  refine ⟨s.at t, ?_, .at (.refl s)⟩
  change execHelloSend p t s = _
  simp only [execHelloSend, hport, hsent]
  refine if_pos (.inr (.inr (.inl ?_)))
  rw [hdue]
  rfl

section
variable {q : Packet}

/-- A port owes the credits of a packet that has been taken. -/
def FabPort.owing (x : FabPort) (q : Packet) : FabPort :=
  let c := 2 * q.vc + b2n q.esc
  let owed := if x.owed.isEmpty then List.replicate 8 0 else x.owed
  { x with owed := owed.set c ((owed[c]?).getD 0 + q.slots) }

theorem State.port_updPort (f : FabPort → FabPort) : (s.updPort p f).port p = f (s.port p) := Table.getD_upd_self ..

theorem State.inboxTaken_port (hp : p < 16) :
    (s.inboxTaken p q).PortSet (s.inboxTaken p q) p ((s.port p).owing q) := by
  have hport : (s.inboxTaken p q).port p = (s.port p).owing q := by
    rw [State.inboxTaken, State.freeSlots, if_neg (by omega)]
    exact State.port_updPort _
  exact { State.PortSet.refl with port := hport }

theorem State.inboxTaken_rest : OnlyAt s.fab.ports (s.inboxTaken p q).fab.ports p
    ∧ (s.inboxTaken p q).fab.assigned = s.fab.assigned ∧ (s.inboxTaken p q).fab.waitQ = s.fab.waitQ := by
  rw [State.inboxTaken, State.freeSlots]
  split
  · exact ⟨.refl, rfl, rfl⟩
  · exact ⟨.put, rfl, rfl⟩

/-- What an accepted HELLO says of the peer. -/
def FabPort.greeted (x : FabPort) (d now : Nat) : FabPort :=
  { x with helloSeen := some now, flitSeen := some now, peerValid := true
           peerBerth := BitVec.ofNat 13 (byteField d 6 2), peerHarbour := bit (byteField d 5 1) 0
           peerAssigned := bit (byteField d 5 1) 1, peerPort := BitVec.ofNat 4 (byteField d 3 1 % 16)
           peerSn := if x.state = 3 then x.peerSn else BitVec.ofNat 64 (byteField d 8 8)
           peerVer := BitVec.ofNat 8 (min 1 (byteField d 4 1)) }

theorem execHello_refuses (hp : p < 16) (hi : s.fab.inbox = [(p, q)]) (hty : q.ptype = 0xB)
    (hok : helloOk (natOfBytes q.data) q.data.length = false) : execHello t s
      = .next ((((s.at t).inboxTaken p q).updPort p (fun x => { x with state := 1, training := false })).raise
          ST_FAB_PEER_VERSION 5 p none 0) := by
  have htake := State.takeInbox_one (s := s.at t) (f := fun x => x.2.ptype == 0xB) hi (by simp [hty])
  simp only [execHello, htake, hok, Bool.not_false, if_true]
  exact if_neg (by omega)

/-- The first accepted HELLO of an unassigned module. -/
theorem execHello_accepts (hp : p < 14) (hi : s.fab.inbox = [(p, q)]) (hty : q.ptype = 0xB)
    (hok : helloOk (natOfBytes q.data) q.data.length = true) (hst : (s.port p).state = 1) (ha : s.fab.assigned = false)
    (hw : s.fab.waitQ = []) : execHello t s = .next (
      let u := ((s.at t).inboxTaken p q).updPort p (fun x => x.greeted (natOfBytes q.data) (s.at t).time)
      if BitVec.ofNat 64 (byteField (natOfBytes q.data) 8 8) = Config.serial then
        u.unassign.raise ST_FAB_SERIAL_DUP 5 p none 0
      else (u.updPort p (fun x => { x with state := 2, training := false, downSince := none })).linksChanged) := by
  have htake := State.takeInbox_one (s := s.at t) (f := fun x => x.2.ptype == 0xB) hi (by simp [hty])
  have hport := State.inboxTaken_port (s := s.at t) (q := q) (show p < 16 by omega)
  obtain ⟨-, hassigned, hwait⟩ := State.inboxTaken_rest (s := s.at t) (p := p) (q := q)
  have htime : ((s.at t).inboxTaken p q).time = (s.at t).time := State.inboxTaken_keeps.time_eq (by decide)
  generalize (s.at t).inboxTaken p q = v at *
  have hset := hport.updPort (fun x => x.greeted (natOfBytes q.data) (s.at t).time)
  have hassigned' : (v.updPort p (fun x => x.greeted (natOfBytes q.data) (s.at t).time)).fab.assigned = false :=
    hassigned.trans ha
  have hwait' : (v.updPort p (fun x => x.greeted (natOfBytes q.data) (s.at t).time)).fab.waitQ = [] := hwait.trans hw
  have hgreet : (fun x : FabPort => { x with
      helloSeen := some v.time, flitSeen := some v.time, peerValid := true
      peerBerth := BitVec.ofNat 13 (byteField (natOfBytes q.data) 6 2)
      peerHarbour := bit (byteField (natOfBytes q.data) 5 1) 0
      peerAssigned := bit (byteField (natOfBytes q.data) 5 1) 1
      peerPort := BitVec.ofNat 4 (byteField (natOfBytes q.data) 3 1 % 16)
      peerSn := if x.state = 3 then x.peerSn else BitVec.ofNat 64 (byteField (natOfBytes q.data) 8 8)
      peerVer := BitVec.ofNat 8 (min 1 (byteField (natOfBytes q.data) 4 1)) })
      = fun x => x.greeted (natOfBytes q.data) (s.at t).time := by rw [htime]; rfl
  have hsn : (((s.at t).port p).owing q |>.greeted (natOfBytes q.data) (s.at t).time).peerSn
      = BitVec.ofNat 64 (byteField (natOfBytes q.data) 8 8) := by
    have h3 : (((s.at t).port p).owing q).state ≠ 3 := by
      rw [show (((s.at t).port p).owing q).state = 1 from hst]
      decide
    exact if_neg h3
  have hst' : (((s.at t).port p).owing q |>.greeted (natOfBytes q.data) (s.at t).time).state = 1 := hst
  simp only [execHello, htake, hok, Bool.not_true, Bool.false_eq_true, if_false, show ¬ 16 ≤ p by omega, hgreet, hset.port,
    hsn, hst', State.mispaired, hassigned', Bool.false_and, Bool.not_false, and_self, if_true]
  generalize v.updPort p (fun x => x.greeted (natOfBytes q.data) (s.at t).time) = u at *
  have hassigned2 : (u.updPort p (fun x => { x with state := 2, training := false, downSince := none })).linksChanged.fab.assigned
      = false := hassigned'
  have hwait2 : (u.updPort p (fun x => { x with state := 2, training := false, downSince := none })).linksChanged.fab.waitQ
      = [] := hwait'
  generalize (u.updPort p (fun x => { x with state := 2, training := false, downSince := none })).linksChanged = w at *
  simp only [hassigned2, Bool.and_false, Bool.false_and, Bool.false_eq_true, if_false, State.pairCheck_far hp,
    State.pumpFabric_idle hwait2, apply_ite Host.Outcome.next]


theorem State.PortSet.unassign (h : s.PortSet u p x) (ha : s.fab.assigned = false) : s.PortSet u.unassign p x where
  port := h.port
  only := h.only
  inbox := h.inbox
  rt := h.rt
  reqs := h.reqs
  assigned := ha.symm
  waitQ := h.waitQ

theorem gives_hello_accepted (hp : p < 14) (hi : s.fab.inbox = [(p, q)]) (hty : q.ptype = 0xB)
    (hok : helloOk (natOfBytes q.data) q.data.length = true) (hst : (s.port p).state = 1) (ha : s.fab.assigned = false)
    (hw : s.fab.waitQ = []) : Gives (.hello t) s (fun u =>
      (u.port p).peerSn = BitVec.ofNat 64 (byteField (natOfBytes q.data) 8 8)
      ∧ (u.port p).peerBerth = BitVec.ofNat 13 (byteField (natOfBytes q.data) 6 2)
      ∧ (u.port p).peerValid = true ∧ (u.port p).helloSeen = some u.time
      ∧ (BitVec.ofNat 64 (byteField (natOfBytes q.data) 8 8) ≠ Config.serial → (u.port p).state = 2
        ∧ (u.port p).training = false ∧ u.events = s.events)
      ∧ (BitVec.ofNat 64 (byteField (natOfBytes q.data) 8 8) = Config.serial → (u.port p).state = 1
        ∧ s.raised u [ST_FAB_SERIAL_DUP]) ∧ u.fab.assigned = false ∧ u.fab.inbox = []
      ∧ OnlyAt s.fab.ports u.fab.ports p ∧ Keeps [.time, .events, .trace, .fab] s u) := by
  have hexec := execHello_accepts (t := t) hp hi hty hok hst ha hw
  obtain ⟨honly, hassigned, hwait⟩ := State.inboxTaken_rest (s := s.at t) (p := p) (q := q)
  have hinbox : ((s.at t).inboxTaken p q).fab.inbox = [] := State.inboxTaken_inbox
  have hkeep : Keeps [.time, .events, .trace, .fab] s ((s.at t).inboxTaken p q) :=
    .trans (.at (.refl s)) (State.inboxTaken_keeps.mono (by decide))
  have hevents : ((s.at t).inboxTaken p q).events = s.events := State.inboxTaken_keeps.events_eq (by decide)
  have htime : ((s.at t).inboxTaken p q).time = (s.at t).time := State.inboxTaken_keeps.time_eq (by decide)
  have hset := (State.inboxTaken_port (s := s.at t) (q := q) (show p < 16 by omega)).updPort
    (fun x => x.greeted (natOfBytes q.data) (s.at t).time)
  generalize (s.at t).inboxTaken p q = v at *
  let y := ((s.at t).port p).owing q |>.greeted (natOfBytes q.data) (s.at t).time
  have hy1 : (((s.at t).port p).owing q).state = 1 := hst
  have hsn : y.peerSn = BitVec.ofNat 64 (byteField (natOfBytes q.data) 8 8) := if_neg (by rw [hy1]; decide)
  by_cases hdup : BitVec.ofNat 64 (byteField (natOfBytes q.data) 8 8) = Config.serial
  · rw [if_pos hdup] at hexec
    have hu := (hset.unassign (hassigned.trans ha)).raise (st := ST_FAB_SERIAL_DUP) (k := 5) (n := p) (a := 0) (tn := none)
    refine ⟨_, hexec, ?_, ?_, ?_, ?_, fun h => absurd hdup h, fun _ => ⟨?_, ?_⟩, ?_, ?_, ?_, ?_⟩
    · rw [hu.port]
      exact hsn
    · rw [hu.port]
      rfl
    · rw [hu.port]
      rfl
    · rw [hu.port, (Keeps.raise (ks := [.events, .trace]) (.refl _)).time_eq (by decide)]
      exact congrArg some htime.symm
    · rw [hu.port]
      exact hst
    · intro he
      exact State.raised_raise (by decide) (hevents ▸ he)
    · exact hu.assigned.trans (hassigned.trans ha)
    · exact hu.inbox.trans hinbox
    · exact honly.trans hu.only
    · exact .raise (.withFab (.updPort hkeep))
  · rw [if_neg hdup] at hexec
    have hu := (hset.updPort (fun x => { x with state := 2, training := false, downSince := none })).linksChanged
    refine ⟨_, hexec, ?_, ?_, ?_, ?_, fun _ => ⟨?_, ?_, hevents⟩, fun h => absurd h hdup, ?_, ?_, ?_, ?_⟩
    · rw [hu.port]
      exact hsn
    · rw [hu.port]
      rfl
    · rw [hu.port]
      rfl
    · rw [hu.port]
      exact congrArg some htime.symm
    · rw [hu.port]
    · rw [hu.port]
    · exact hu.assigned.trans (hassigned.trans ha)
    · exact hu.inbox.trans hinbox
    · exact honly.trans hu.only
    · exact .withFab (.updPort (.updPort hkeep))

theorem gives_hello_refused (hp : p < 16) (hi : s.fab.inbox = [(p, q)]) (hty : q.ptype = 0xB)
    (hok : helloOk (natOfBytes q.data) q.data.length = false) :
    Gives (.hello t) s (fun u => (u.port p).state = 1 ∧ (u.port p).training = false
      ∧ (u.port p).peerSn = (s.port p).peerSn ∧ s.raised u [ST_FAB_PEER_VERSION]
      ∧ OnlyAt s.fab.ports u.fab.ports p ∧ Keeps [.time, .events, .trace, .fab] s u) := by
  have hexec := execHello_refuses (t := t) hp hi hty hok
  obtain ⟨honly, -, -⟩ := State.inboxTaken_rest (s := s.at t) (p := p) (q := q)
  have hkeep : Keeps [.time, .events, .trace, .fab] s ((s.at t).inboxTaken p q) :=
    .trans (.at (.refl s)) (State.inboxTaken_keeps.mono (by decide))
  have hevents : ((s.at t).inboxTaken p q).events = s.events := State.inboxTaken_keeps.events_eq (by decide)
  have hu := ((State.inboxTaken_port (s := s.at t) (q := q) hp).updPort (fun x => { x with state := 1, training := false })).raise
    (st := ST_FAB_PEER_VERSION) (k := 5) (n := p) (a := 0) (tn := none)
  generalize (s.at t).inboxTaken p q = v at *
  refine ⟨_, hexec, by rw [hu.port], by rw [hu.port], by rw [hu.port]; rfl, ?_, honly.trans hu.only, .raise (.updPort hkeep)⟩
  intro he
  exact State.raised_raise (by decide) (hevents ▸ he)

end

/-! ### Loss, training and retraining -/

theorem gives_portLost_silent {h : Nat} (hp : p < 14) (hst : (s.port p).state = 2) (hseen : (s.port p).flitSeen = some h)
    (ht : h + msTicks 1 ≤ t) :
    Gives (.portLost p t) s (fun u => u.port p = { s.port p with state := 3, attempt := 1, since := u.time }
      ∧ OnlyAt s.fab.ports u.fab.ports p ∧ u.fab.inbox = s.fab.inbox ∧ u.fab.rt = s.fab.rt
      ∧ u.fab.reqs = s.fab.reqs ∧ Keeps [.time, .fab] s u) := by
  have hport : (s.at t).port p = s.port p := rfl
  have htime : h + msTicks 1 ≤ (s.at t).time := Nat.le_trans ht (Nat.le_max_right ..)
  have hretrain : (s.at t).retrain p
      = (s.at t).updPort p (fun x => { x with state := 3, attempt := 1, since := (s.at t).time }) := by
    rw [State.retrain, hport, hst]
    exact if_neg (by decide)
  have hset := (State.PortSet.refl (s := s.at t) (p := p)).updPort
    (fun x => { x with state := 3, attempt := 1, since := (s.at t).time })
  refine ⟨(s.at t).retrain p, ?_, ?_⟩
  · change execPortLost p t s = _
    simp only [execPortLost, hport, hst, hseen, decide_eq_true htime, true_or, and_self, if_true, State.countDown_far hp]
  · rw [hretrain]
    exact ⟨hset.port, hset.only, hset.inbox, hset.rt, hset.reqs, .updPort (.at (.refl s))⟩

theorem gives_portLost_heard {h : Nat} (hseen : (s.port p).flitSeen = some h) (ht : max s.time t < h + msTicks 1)
    (hhello : (s.port p).helloSeen = some h) : Gives (.portLost p t) s (fun u => Keeps [.time] s u) := by
  have hport : (s.at t).port p = s.port p := rfl
  have h1 : decide (h + msTicks 1 ≤ (s.at t).time) = false := decide_eq_false (Nat.not_le.mpr ht)
  have h35 : decide (h + msTicks 35 ≤ (s.at t).time) = false := by
    refine decide_eq_false (Nat.not_le.mpr (Nat.lt_of_lt_of_le ht ?_))
    exact Nat.add_le_add_left (by decide) _
  refine ⟨s.at t, ?_, .at (.refl s)⟩
  change execPortLost p t s = _
  simp only [execPortLost, hport, hseen, hhello, h1, h35, Bool.false_eq_true, or_self, and_false, if_false]

/-- A port once its lanes have trained. -/
def FabPort.trained (x : FabPort) (n r now : Nat) : FabPort :=
  { x with lanes := BitVec.ofNat 4 n, rttNs := BitVec.ofNat 16 r, credits := fullCredits,
           owed := List.replicate 8 0, txSeq := 0, rxSeq := 0, since := now, ucwSeen := [], replaySeen := [] }

theorem gives_portTrained {n r : Nat} (hp : p < 16) (hst : (s.port p).state = 1) (htr : (s.port p).training = true)
    (hc : (s.port p).credits = []) (hn : n = 8 ∨ n = 4 ∨ n = 2) (ht : t ≤ (s.port p).since + msTicks 501)
    (hs : s.time ≤ (s.port p).since + msTicks 501) :
    Gives (.portTrained p n r t) s (fun u => (u.port p).lanes = BitVec.ofNat 4 n
      ∧ (u.port p).rttNs = BitVec.ofNat 16 r ∧ (u.port p).credits = fullCredits ∧ (u.port p).txSeq = 0
      ∧ (u.port p).rxSeq = 0 ∧ (u.port p).state = 1 ∧ (n < 8 → s.raised u [ST_FAB_LANE_DEGRADED])
      ∧ (n = 8 → u.events = s.events) ∧ OnlyAt s.fab.ports u.fab.ports p ∧ u.fab.inbox = s.fab.inbox
      ∧ u.fab.rt = s.fab.rt ∧ u.fab.reqs = s.fab.reqs ∧ Keeps [.time, .events, .trace, .fab] s u) := by
  have hport : (s.at t).port p = s.port p := rfl
  have hwidth : laneWidth n = true := by
    obtain rfl | rfl | rfl := hn <;> rfl
  have htime : ¬ (s.port p).since + msTicks 501 < (s.at t).time := Nat.not_lt.mpr (Nat.max_le.mpr ⟨hs, ht⟩)
  have hset := ((State.PortSet.refl (s := s.at t) (p := p)).updPort (·.trained n r (s.at t).time)).laneEvent (n := n)
  have hexec : execPortTrained p n r t s = .next (((s.at t).updPort p (·.trained n r (s.at t).time)).laneEvent p n) := by
    simp only [execPortTrained, hport, hst, htr, hc, hwidth, htime, List.isEmpty_nil, ne_eq, not_true_eq_false, Bool.not_true,
      Bool.false_eq_true, or_self, or_false, if_neg (Nat.not_le.mpr hp)]
    rfl
  have hkeep : Keeps [.time, .events, .trace, .fab] s ((s.at t).updPort p (·.trained n r (s.at t).time)) :=
    .updPort (.at (.refl s))
  refine ⟨_, hexec, ?_, ?_, ?_, ?_, ?_, ?_, ?_, ?_, hset.only, hset.inbox, hset.rt, hset.reqs, ?_⟩
  · rw [hset.port]; rfl
  · rw [hset.port]; rfl
  · rw [hset.port]; rfl
  · rw [hset.port]; rfl
  · rw [hset.port]; rfl
  · rw [hset.port]; exact hst
  · intro h he
    rw [State.laneEvent_degraded h]
    exact State.raised_raise (s := (s.at t).updPort p (·.trained n r (s.at t).time)) (by decide) he
  · rintro rfl
    rw [State.laneEvent_full]
    rfl
  · rw [State.laneEvent]
    exact .ite (.raise hkeep) hkeep

theorem gives_portTrainTimeout (hp : p < 16) (hst : (s.port p).state = 1) (htr : (s.port p).training = true)
    (hc : (s.port p).credits = []) (ht : (s.port p).since + msTicks 501 ≤ t) :
    Gives (.portTrainTimeout p t) s (fun u => u.port p = { s.port p with state := 4, training := false, credits := [] }
      ∧ s.raised u [ST_FAB_TRAIN_TIMEOUT] ∧ OnlyAt s.fab.ports u.fab.ports p ∧ u.fab.inbox = s.fab.inbox
      ∧ u.fab.rt = s.fab.rt ∧ u.fab.reqs = s.fab.reqs ∧ Keeps [.time, .events, .trace, .fab] s u) := by
  have hport : (s.at t).port p = s.port p := rfl
  have htime : ¬ (s.at t).time < (s.port p).since + msTicks 501 := Nat.not_lt.mpr (Nat.le_trans ht (Nat.le_max_right ..))
  let v := (s.at t).updPort p (fun x => { x with state := 4, training := false, credits := [] })
  have hset := ((State.PortSet.refl (s := s.at t) (p := p)).updPort
    (fun x => { x with state := 4, training := false, credits := [] })).raise (st := ST_FAB_TRAIN_TIMEOUT) (k := 5) (n := p)
    (a := 0) (tn := none)
  refine ⟨v.raise ST_FAB_TRAIN_TIMEOUT 5 p none 0, ?_, hset.port, ?_, hset.only, hset.inbox, hset.rt, hset.reqs,
    .raise (.updPort (.at (.refl s)))⟩
  · change execPortTrainTimeout p t s = _
    simp only [execPortTrainTimeout, hport, hst, htr, hc, htime, List.isEmpty_nil, if_true, ne_eq, not_true_eq_false,
      Bool.not_true, Bool.false_eq_true, or_self, or_false, if_neg (Nat.not_le.mpr hp)]
    rfl
  · intro he
    exact State.raised_raise (s := v) (by decide) he

theorem seenSum_now (now n : Nat) (l : List (Nat × Nat)) : n ≤ seenSum now (seenNow now n l) := by
  simp [seenSum, seenNow]

theorem gives_portRetrainTrigger {c w : Nat} (hp : p < 16) (hst : (s.port p).state = 2)
    (hw : (s.port p).ucwThresh.toNat < w) :
    Gives (.portRetrainTrigger p c w t) s (fun u => (u.port p).state = 3 ∧ (u.port p).attempt = 1
      ∧ (u.port p).fecUcw = (s.port p).fecUcw + BitVec.ofNat 32 w
      ∧ (u.port p).fecCorr = (s.port p).fecCorr + BitVec.ofNat 32 c ∧ OnlyAt s.fab.ports u.fab.ports p
      ∧ u.fab.inbox = s.fab.inbox ∧ u.fab.rt = s.fab.rt ∧ u.fab.reqs = s.fab.reqs ∧ Keeps [.time, .fab] s u) := by
  have hset := (State.PortSet.refl (s := s.at t) (p := p)).updPort (fun x =>
    { x with fecCorr := x.fecCorr + BitVec.ofNat 32 c, fecUcw := x.fecUcw + BitVec.ofNat 32 w
             ucwSeen := seenNow (s.at t).time w x.ucwSeen })
  have hst' : ((s.at t).port p).state = 2 := hst
  have hmany : (s.port p).ucwThresh.toNat < seenSum (s.at t).time (seenNow (s.at t).time w (s.port p).ucwSeen) :=
    Nat.lt_of_lt_of_le hw (seenSum_now ..)
  have hkeep : Keeps [.time, .fab] s ((s.at t).updPort p (fun x =>
    { x with fecCorr := x.fecCorr + BitVec.ofNat 32 c, fecUcw := x.fecUcw + BitVec.ofNat 32 w
             ucwSeen := seenNow (s.at t).time w x.ucwSeen })) := .updPort (.at (.refl s))
  have hexec : execPortRetrainTrigger p c w t s = .next (((s.at t).updPort p (fun x =>
    { x with fecCorr := x.fecCorr + BitVec.ofNat 32 c, fecUcw := x.fecUcw + BitVec.ofNat 32 w
             ucwSeen := seenNow (s.at t).time w x.ucwSeen })).retrain p) := by
    simp only [execPortRetrainTrigger, hset.port, if_neg (Nat.not_le.mpr hp)]
    rw [if_pos ⟨hst', .inl hmany⟩]
  have hretrain : ∀ v : State, (v.port p).state = 2 → v.retrain p
      = v.updPort p (fun x => { x with state := 3, attempt := 1, since := v.time }) := by
    intro v hv
    rw [State.retrain, hv]
    exact if_neg (by decide)
  rw [hretrain _ (by rw [hset.port]; exact hst')] at hexec
  have hu := hset.updPort (fun x => { x with state := 3, attempt := 1, since := (s.at t).time })
  refine ⟨_, hexec, ?_, ?_, ?_, ?_, hu.only, hu.inbox, hu.rt, hu.reqs, .updPort hkeep⟩
  · exact congrArg FabPort.state hu.port
  · exact congrArg FabPort.attempt hu.port
  · exact congrArg FabPort.fecUcw hu.port
  · exact congrArg FabPort.fecCorr hu.port

theorem gives_portRetrainDone_again {r : Nat} {sn : BitVec 64} (hp : p < 16) (hst : (s.port p).state = 3)
    (ha : (s.port p).attempt.toNat < 3) :
    Gives (.portRetrainDone p 0 r sn t) s (fun u =>
      u.port p = { s.port p with failed := (s.port p).failed + 1, attempt := (s.port p).attempt + 1, since := u.time }
      ∧ OnlyAt s.fab.ports u.fab.ports p ∧ u.fab.inbox = s.fab.inbox ∧ u.fab.rt = s.fab.rt
      ∧ u.fab.reqs = s.fab.reqs ∧ Keeps [.time, .fab] s u) := by
  have hport : (s.at t).port p = s.port p := rfl
  have hset := ((State.PortSet.refl (s := s.at t) (p := p)).updPort (fun x => { x with failed := x.failed + 1 })).updPort
    (fun x => { x with attempt := x.attempt + 1, since := (s.at t).time })
  refine ⟨((s.at t).updPort p (fun x => { x with failed := x.failed + 1 })).updPort p
    (fun x => { x with attempt := x.attempt + 1, since := (s.at t).time }), ?_, hset.port, hset.only, hset.inbox, hset.rt,
    hset.reqs, .updPort (.updPort (.at (.refl s)))⟩
  change execPortRetrainDone p 0 r sn t s = _
  simp only [execPortRetrainDone, hport, hst, show laneWidth 0 = false from rfl, Bool.false_eq_true, false_and, if_false, ha,
    if_true, ne_eq, not_true_eq_false, or_false, if_neg (Nat.not_le.mpr hp)]
  rfl

theorem gives_portRetrainDone_down {r : Nat} {sn : BitVec 64} (hp : p < 14) (hst : (s.port p).state = 3)
    (ha : (s.port p).attempt = 3) (hpeer : (s.port p).peerAssigned = false) (hw : s.fab.waitQ = []) :
    Gives (.portRetrainDone p 0 r sn t) s (fun u => (u.port p).state = 4 ∧ (u.port p).attempt = 0
      ∧ (u.port p).retry = [] ∧ (u.port p).credits = [] ∧ (u.port p).failed = (s.port p).failed + 1
      ∧ s.raised u [ST_FAB_PORT_DOWN] ∧ OnlyAt s.fab.ports u.fab.ports p ∧ u.fab.inbox = s.fab.inbox
      ∧ u.fab.rt = s.fab.rt ∧ u.fab.reqs = s.fab.reqs ∧ Keeps [.time, .events, .trace, .hm, .fab] s u) := by
  have hport : (s.at t).port p = s.port p := rfl
  let v := (s.at t).updPort p (fun x => { x with failed := x.failed + 1 })
  let w := (v.updPort p (fun x =>
    { x with state := 4, attempt := 0, retry := [], partialSlots := [], credits := [], training := false })).linksChanged
  have hv := (State.PortSet.refl (s := s.at t) (p := p)).updPort (fun x => { x with failed := x.failed + 1 })
  have hset := ((hv.updPort (fun x =>
    { x with state := 4, attempt := 0, retry := [], partialSlots := [], credits := [], training := false })).linksChanged).raise
    (st := ST_FAB_PORT_DOWN) (k := 5) (n := p) (a := 0) (tn := none)
  have hassigned : (v.port p).peerAssigned = false := by
    rw [hv.port]
    exact hpeer
  have hdown : v.portDown p = w.raise ST_FAB_PORT_DOWN 5 p none 0 := by
    simp only [State.portDown, hassigned, Bool.false_eq_true, and_false, if_false, State.countDown_far hp]
    exact State.pumpFabric_idle (hset.waitQ.trans hw)
  have hexec : execPortRetrainDone p 0 r sn t s = .next (v.portDown p) := by
    simp only [execPortRetrainDone, hport, hst, show laneWidth 0 = false from rfl, Bool.false_eq_true, false_and, if_false,
      ne_eq, not_true_eq_false, or_false, if_neg (show ¬ 16 ≤ p by omega), ha]
    exact if_neg (by decide)
  rw [hdown] at hexec
  refine ⟨_, hexec, ?_, ?_, ?_, ?_, ?_, ?_, hset.only, hset.inbox, hset.rt, hset.reqs,
    .raise (.withFab (.updPort (.updPort (.at (.refl s)))))⟩
  · exact congrArg FabPort.state hset.port
  · exact congrArg FabPort.attempt hset.port
  · exact congrArg FabPort.retry hset.port
  · exact congrArg FabPort.credits hset.port
  · exact congrArg FabPort.failed hset.port
  · intro he
    exact State.raised_raise (s := w) (by decide) he

/-- A port that has trained again with the same peer: it keeps its flits for replay. -/
def FabPort.retrained (x : FabPort) (n r : Nat) (sn : BitVec 64) (now : Nat) : FabPort :=
  { x with state := 2, attempt := 0, lanes := BitVec.ofNat 4 n, rttNs := BitVec.ofNat 16 r, credits := fullCredits
           owed := List.replicate 8 0, done := x.done + 1, peerSn := sn
           replays := x.replays + BitVec.ofNat 32 x.retry.length, flitSeen := some now, helloSeen := some now
           ucwSeen := [], replaySeen := [], downSince := none }

theorem gives_portRetrainDone_same {n r : Nat} {sn : BitVec 64} (hp : p < 14) (hst : (s.port p).state = 3)
    (hn : n = 8 ∨ n = 4 ∨ n = 2) (ht : max s.time t ≤ (s.port p).since + usTicks 166101) (hsn : (s.port p).peerSn = sn)
    (hc : (s.port p).credits.isEmpty = false) (hw : s.fab.waitQ = []) :
    Gives (.portRetrainDone p n r sn t) s (fun u => (u.port p).state = 2
      ∧ (u.port p).lanes = BitVec.ofNat 4 n ∧ (u.port p).done = (s.port p).done + 1
      ∧ (u.port p).retry = (s.port p).retry ∧ (u.port p).credits = fullCredits ∧ (u.port p).downSince = none
      ∧ (n < 8 → s.raised u [ST_FAB_RETRAIN, ST_FAB_LANE_DEGRADED]) ∧ (n = 8 → s.raised u [ST_FAB_RETRAIN])
      ∧ OnlyAt s.fab.ports u.fab.ports p ∧ u.fab.inbox = s.fab.inbox ∧ u.fab.rt = s.fab.rt
      ∧ u.fab.reqs = s.fab.reqs ∧ Keeps [.time, .events, .trace, .fab] s u) := by
  have hport : (s.at t).port p = s.port p := rfl
  have hwidth : laneWidth n = true := by
    obtain rfl | rfl | rfl := hn <;> rfl
  have htime : (s.at t).time ≤ (s.port p).since + usTicks 166101 := ht
  have hsame : ((s.port p).peerSn == sn && !(s.port p).credits.isEmpty) = true := by simp [hsn, hc]
  let v := ((s.at t).updPort p (·.retrained n r sn (s.at t).time)).raise ST_FAB_RETRAIN 5 p none 0
  let w := if n = (s.port p).lanes.toNat then v else v.linksChanged
  have hv := ((State.PortSet.refl (s := s.at t) (p := p)).updPort (·.retrained n r sn (s.at t).time)).raise
    (st := ST_FAB_RETRAIN) (k := 5) (n := p) (a := 0) (tn := none)
  have hset : (s.at t).PortSet w p ((s.port p).retrained n r sn (s.at t).time) := by
    change (s.at t).PortSet (if _ then _ else _) _ _
    split
    · exact hv
    · exact hv.linksChanged
  have hevents : w.events = v.events := by
    change State.events (if _ then _ else _) = _
    split <;> rfl
  have hkeep : Keeps [.time, .events, .trace, .fab] s w :=
    .ite (.raise (.updPort (.at (.refl s)))) (.withFab (.raise (.updPort (.at (.refl s)))))
  have hu := hset.laneEvent (n := n)
  have hexec : execPortRetrainDone p n r sn t s = .next (w.laneEvent p n) := by
    simp only [execPortRetrainDone, hport, hst, hwidth, htime, hsame, and_self, if_true, ne_eq, not_true_eq_false, or_false,
      if_neg (show ¬ 16 ≤ p by omega), State.pairCheck_far hp]
    exact congrArg Host.Outcome.next (State.pumpFabric_idle (s := w.laneEvent p n) (hu.waitQ.trans hw))
  refine ⟨_, hexec, ?_, ?_, ?_, ?_, ?_, ?_, ?_, ?_, hu.only, hu.inbox, hu.rt, hu.reqs, ?_⟩
  · exact congrArg FabPort.state hu.port
  · exact congrArg FabPort.lanes hu.port
  · exact congrArg FabPort.done hu.port
  · rw [hu.port]
    rfl
  · exact congrArg FabPort.credits hu.port
  · exact congrArg FabPort.downSince hu.port
  · intro h he
    have hone : w.events.entries = [_] := hevents ▸ State.raise_entries_of_nil
      (s := (s.at t).updPort p (·.retrained n r sn (s.at t).time)) he (st := ST_FAB_RETRAIN) (by decide)
    rw [State.laneEvent_degraded h, State.raise_entries_of_one hone (show ST_FAB_RETRAIN ≠ ST_FAB_LANE_DEGRADED by decide)
      (by decide)]
    rfl
  · rintro rfl he
    rw [State.laneEvent_full, hevents]
    exact State.raised_raise (s := (s.at t).updPort p (·.retrained 8 r sn (s.at t).time)) (by decide) he
  · rw [State.laneEvent]
    exact .ite (.raise hkeep) hkeep

end

/-- Settles O44. -/
theorem fabricPorts : Obligations.FabricPorts := by
  unfold Obligations.FabricPorts
  refine ⟨?_, ?_, ?_, ?_, ?_, ?_, ?_, ?_, ?_, ?_, ?_, ?_⟩
  · intro s t p hp hst hsent hc
    exact gives_helloSend_due hp hst hsent hc
  · intro s t p h _ _ hsent ht
    exact gives_helloSend_early hsent ht
  · intro s t p q hp hi hty hok hst ha hw
    exact gives_hello_accepted hp hi hty hok hst ha hw
  · intro s t p q hp hi hty hok
    exact gives_hello_refused hp hi hty hok
  · intro s t p h hp hst hseen ht
    exact gives_portLost_silent hp hst hseen ht
  · intro s t p h _ hseen ht hhello
    exact gives_portLost_heard hseen ht hhello
  · intro s t p n r hp hst htr hc hn ht hs
    exact gives_portTrained hp hst htr hc hn ht hs
  · intro s t p hp hst htr hc ht
    exact gives_portTrainTimeout hp hst htr hc ht
  · intro s t p c w hp hst hw
    exact gives_portRetrainTrigger hp hst hw
  · intro s t p n r sn hp hst hn ht hsn hc hw
    exact gives_portRetrainDone_same hp hst hn ht hsn hc hw
  · intro s t p r sn hp hst ha
    exact gives_portRetrainDone_again hp hst ha
  · intro s t p r sn hp hst ha hpeer hw
    exact gives_portRetrainDone_down hp hst ha hpeer hw

end Sys2Proof.Machine

/-! ### More frames -/

namespace Sys2Proof.Machine

set_option Elab.async false

section
variable {α β ε : Type} {ks : List Part} {o s : State}

theorem Keeps.noRoute {p ks} (h : Keeps ks o s) (hk : [.fab] ⊆ ks := by decide) : Keeps ks o (s.noRoute p) :=
  h.lift hk fun o h => .ite (.sendPacket h) h

theorem Keeps.pumpFabric {ks} (h : Keeps ks o s) (hk : [.fab] ⊆ ks := by decide) :
    Keeps ks o s.pumpFabric :=
  h.lift hk fun o h => by
  unfold State.pumpFabric
  extract_lets -lift _ _ s4
  have hs4 : Keeps [.fab] o s4 := .upd h (by simp [Keeps, s4])
  refine .foldl hs4 fun _ _ h9 => ?_
  extract_lets -lift
  split
  · exact .noRoute (.freeSlots h9)
  · split
    · exact .freeSlots (.updPort h9)
    · exact .upd h9

theorem Keeps.freshBytes {n ks} (h : Keeps ks o s) (hk : [.free] ⊆ ks := by decide) :
    Keeps ks o (s.freshBytes n).2 :=
  h.lift hk fun o h => .upd h (by simp [Keeps, State.freshBytes])

theorem Keeps.pairCheck {p ks} (h : Keeps ks o s) (hk : [.events, .trace, .fab] ⊆ ks := by decide) :
    Keeps ks o (s.pairCheck p) :=
  h.lift hk fun o h => .ite h (.ite (.ite (.updPort h) (.raise (.updPort h))) (.ite (.upd h) h))

theorem Keeps.flood {except_ ks} (h : Keeps ks o s) (hk : [.free, .fab] ⊆ ks := by decide) :
    Keeps ks o (s.flood except_) :=
  h.lift hk fun o h => .foldl h (fun _ _ h1 => .ite (.updPort (.withFree h1)) (.withFab (.withFree h1)))

theorem Keeps.commitRoutes {ks} (h : Keeps ks o s) (hk : [.fab] ⊆ ks := by decide) : Keeps ks o s.commitRoutes :=
  h.lift hk fun o h => .pumpFabric (.upd h)

end

end Sys2Proof.Machine

/-! Settles the statement about berths, advertisements and routing tables. -/

namespace Sys2Proof.Machine

set_option Elab.async false

/-! ### Moving packets -/

/-- Packets have moved: the ports, the waiting packets and the inbox may have changed, the rest of the fabric has not. -/
def State.Pumped (o s : State) : Prop :=
  ∃ ports waitQ inbox, s.fab = { o.fab with ports := ports, waitQ := waitQ, inbox := inbox }

section
variable {o s : State} {p : Nat} {q : Packet}

theorem State.Pumped.refl : s.Pumped s := ⟨s.fab.ports, s.fab.waitQ, s.fab.inbox, rfl⟩

theorem State.Pumped.set (h : o.Pumped s) {u : State} {po : Table FabPort} {w : List QueuedPacket} {i : List (Nat × Packet)}
    (hu : u.fab = { s.fab with ports := po, waitQ := w, inbox := i }) : o.Pumped u := by
  obtain ⟨po', w', i', hs⟩ := h
  exact ⟨po, w, i, by rw [hu, hs]⟩

theorem State.Pumped.updPort {f : FabPort → FabPort} (h : o.Pumped s) : o.Pumped (s.updPort p f) := h.set rfl

theorem State.Pumped.freeSlots (h : o.Pumped s) : o.Pumped (s.freeSlots p q) := by
  rw [State.freeSlots]
  split
  · exact h
  · exact h.updPort

theorem State.Pumped.forward (h : o.Pumped s) : o.Pumped (s.forward p q) := by
  rw [State.forward]
  split
  · exact h.updPort.freeSlots
  · exact h.set rfl

theorem State.Pumped.sendPacket (h : o.Pumped s) : o.Pumped (s.sendPacket q) := by
  rw [State.sendPacket]
  split
  · exact h.set rfl
  · exact h.forward

theorem State.Pumped.noRoute (h : o.Pumped s) : o.Pumped (s.noRoute q) := by
  rw [State.noRoute]
  split
  · exact h.sendPacket
  · exact h

theorem State.Pumped.foldl {α : Type} {l : List α} {f : State → α → State} (h : o.Pumped s)
    (hf : ∀ s a, o.Pumped s → o.Pumped (f s a)) : o.Pumped (l.foldl f s) := by
  induction l generalizing s with
  | nil => exact h
  | cons a l ih => exact ih (hf s a h)

theorem State.Pumped.pumpFabric (h : o.Pumped s) : o.Pumped s.pumpFabric := by
  rw [State.pumpFabric]
  refine (h.set (w := []) rfl).foldl fun s w hs => ?_
  extract_lets -lift
  split
  · exact hs.freeSlots.noRoute
  · split
    · exact hs.updPort.freeSlots
    · exact hs.set rfl

theorem State.Pumped.flood (h : o.Pumped s) : o.Pumped (s.flood p) := by
  rw [State.flood]
  refine h.foldl fun s k hs => ?_
  dsimp only
  split
  · exact hs.updPort
  · exact hs.set rfl

end

/-! ### Berths -/

section
variable {s u v : State} {p t : Nat}

/-- Pairing may take a port down, raise an event or start the twin: it leaves the berth and the tables. -/
structure State.Paired (o s : State) : Prop where
  assigned : s.fab.assigned = o.fab.assigned
  berth : s.fab.berth = o.fab.berth
  harbour : s.fab.harbour = o.fab.harbour
  step : s.fab.step = o.fab.step
  rt : s.fab.rt = o.fab.rt
  keeps : Keeps [.events, .trace, .fab] o s

theorem State.Paired.refl : s.Paired s := ⟨rfl, rfl, rfl, rfl, rfl, .refl s⟩

theorem State.Paired.trans (h : s.Paired u) (h' : u.Paired v) : s.Paired v where
  assigned := h'.assigned.trans h.assigned
  berth := h'.berth.trans h.berth
  harbour := h'.harbour.trans h.harbour
  step := h'.step.trans h.step
  rt := h'.rt.trans h.rt
  keeps := h.keeps.trans h'.keeps

theorem State.Paired.of_fab (hf : u.fab = s.fab) (hk : Keeps [.events, .trace] s u) : s.Paired u where
  assigned := by rw [hf]
  berth := by rw [hf]
  harbour := by rw [hf]
  step := by rw [hf]
  rt := by rw [hf]
  keeps := hk.mono (by decide)

theorem State.Paired.updPort {f : FabPort → FabPort} : s.Paired (s.updPort p f) :=
  ⟨rfl, rfl, rfl, rfl, rfl, .updPort (.refl s)⟩

theorem State.Paired.raise {st : Status} {k n a : Nat} {tn : Option Nat} : s.Paired (s.raise st k n tn a) :=
  .of_fab ((Keeps.raise (ks := [.events, .trace]) (.refl s)).fab_eq (by decide)) (.raise (.refl s))

theorem State.Paired.pairCheck : s.Paired (s.pairCheck p) := by
  rw [State.pairCheck]
  split
  · exact .refl
  · split
    · dsimp only
      split
      · exact .updPort
      · exact .trans .updPort .raise
    · dsimp only
      split
      · exact ⟨rfl, rfl, rfl, rfl, rfl, .withFab (.refl s)⟩
      · exact .refl

/-- The berth is set, and the flood of advertisements begins. -/
def State.berthed (s : State) (h : Bool) (b : BitVec 13) : State :=
  { s with fab := { s.fab with
    berth := b, harbour := h, assigned := true, step := 5, stepAt := s.time, advertChanged := s.time, advertAt := 0 } }

theorem State.takeBerth_paired (h : Bool) (b : BitVec 13) : (s.berthed h b).Paired (s.takeBerth h b) :=
  .trans .pairCheck .pairCheck

variable {l : List (BitVec 64)}

/-- No port trains and the module waits for its berth. -/
theorem State.awaits_berth
    (hidle : (List.range 16).all (fun p => !((s.port p).state == 1 && (s.port p).training)) = true) (hstep : s.fab.step = 4) :
    ¬ ((List.range 16).any (fun p => ((s.at t).port p).state == 1 && ((s.at t).port p).training) = true
      ∨ (!((s.at t).fab.step == 1 || (s.at t).fab.step == 4)) = true) ∧ ¬ (s.at t).fab.step = 1 := by
  have hstep' : (s.at t).fab.step = 4 := hstep
  have hport (p : Nat) : (s.at t).port p = s.port p := rfl
  rw [List.all_eq_not_any_not, Bool.not_eq_true'] at hidle
  simp only [Bool.not_not] at hidle
  rw [hstep']
  simp only [hport, hidle]
  decide

theorem gives_berthAssign_table
    (hidle : (List.range 16).all (fun p => !((s.port p).state == 1 && (s.port p).training)) = true) (hstep : s.fab.step = 4)
    (hmode : s.fab.mode = 0) : Gives (.berthAssign l t) s (fun u =>
      u.fab.assigned = (s.fab.berthTable.find? (fun e => e.1 == Config.serial)).isSome
      ∧ u.fab.berth = ((s.fab.berthTable.find? (fun e => e.1 == Config.serial)).map (·.2.2)).getD s.fab.berth
      ∧ u.fab.harbour = ((s.fab.berthTable.find? (fun e => e.1 == Config.serial)).map (·.2.1)).getD s.fab.harbour
      ∧ u.fab.rt = s.fab.rt ∧ Keeps [.time, .events, .trace, .fab] s u) := by
  obtain ⟨hbusy, hstep'⟩ := State.awaits_berth (t := t) hidle hstep
  have hmode' : (s.at t).fab.mode = 0 := hmode
  have hstart : execBerthAssign l t s = match s.fab.berthTable.find? (fun e => e.1 == Config.serial) with
      | some e => .next ((s.at t).takeBerth e.2.1 e.2.2)
      | none => .next (s.at t).noBerth := by
    simp only [execBerthAssign, if_neg hbusy, if_neg hstep', if_pos hmode']
    rfl
  cases hfind : s.fab.berthTable.find? (fun e => e.1 == Config.serial) with
  | some e =>
    rw [hfind] at hstart
    have hp := State.takeBerth_paired (s := s.at t) e.2.1 e.2.2
    exact ⟨_, hstart, hp.assigned, hp.berth, hp.harbour, hp.rt, .trans (.withFab (.at (.refl s))) (hp.keeps.mono (by decide))⟩
  | none =>
    rw [hfind] at hstart
    have hp := State.Paired.raise (s := (s.at t).unassign) (st := ST_FAB_UNASSIGNED) (k := 0) (n := 0) (a := 0) (tn := none)
    exact ⟨_, hstart, hp.assigned, hp.berth, hp.harbour, hp.rt, .trans (.withFab (.at (.refl s))) (hp.keeps.mono (by decide))⟩

theorem length_eraseDups_le {α : Type} [BEq α] (l : List α) : l.eraseDups.length ≤ l.length := by
  induction hn : l.length using Nat.strongRecOn generalizing l with
  | _ n ih =>
    cases l with
    | nil => simp
    | cons a l =>
      have hfilter := List.length_filter_le (fun b => !b == a) l
      rw [List.length_cons] at hn
      have hrest := ih _ (by omega) (l.filter (fun b => !b == a)) rfl
      rw [List.eraseDups_cons, List.length_cons]
      omega

theorem gives_berthAssign_rank
    (hidle : (List.range 16).all (fun p => !((s.port p).state == 1 && (s.port p).training)) = true) (hstep : s.fab.step = 4)
    (hmode : s.fab.mode = 1) (hh : s.fab.harbour = false) (hown : l.contains Config.serial = false)
    (hlate : max s.time t < s.fab.stepAt + msTicks 2000) (hdue : s.fab.stepAt + msTicks 200 ≤ t) (hlen : l.length < 8192) :
    Gives (.berthAssign l t) s (fun u => u.fab.assigned = true ∧ u.fab.harbour = false
      ∧ u.fab.berth.toNat = (l.eraseDups.filter (fun x => decide (x < Config.serial))).length ∧ u.fab.step = 5
      ∧ u.fab.rt = s.fab.rt ∧ Keeps [.time, .events, .trace, .fab] s u) := by
  obtain ⟨hbusy, hstep'⟩ := State.awaits_berth (t := t) hidle hstep
  have hmode' : ¬ (s.at t).fab.mode = 0 := by
    rw [show (s.at t).fab.mode = 1 from hmode]
    decide
  have hh' : (s.at t).fab.harbour = false := hh
  have hlate' : decide ((s.at t).fab.stepAt + msTicks 2000 ≤ (s.at t).time) = false := decide_eq_false (Nat.not_le.mpr hlate)
  have hdue' : ¬ (s.at t).time < (s.at t).fab.stepAt + msTicks 200 := Nat.not_lt.mpr (Nat.le_trans hdue (Nat.le_max_right ..))
  let n := (l.eraseDups.filter (fun x => decide (x < Config.serial))).length
  have hn : n < 8192 := by
    exact Nat.lt_of_le_of_lt (List.length_filter_le _ _) (Nat.lt_of_le_of_lt (length_eraseDups_le l) hlen)
  have hexec : execBerthAssign l t s = .next ((s.at t).takeBerth false (BitVec.ofNat 13 n)) := by
    simp only [execBerthAssign, if_neg hbusy, if_neg hstep', if_neg hmode', hh', hown, hlate', if_neg hdue', Bool.not_false,
      if_true, Bool.false_eq_true, if_false]
    rw [if_neg (Nat.not_le.mpr hn)]
  have hp := State.takeBerth_paired (s := s.at t) false (BitVec.ofNat 13 n)
  refine ⟨_, hexec, hp.assigned, hp.harbour, ?_, hp.step, hp.rt, .trans (.withFab (.at (.refl s))) (hp.keeps.mono (by decide))⟩
  rw [hp.berth]
  exact Nat.mod_eq_of_lt hn

/-! ### Advertisements -/

theorem gives_lsaSend (ha : s.fab.assigned = true) (ht : s.fab.advertAt + msTicks 10000 ≤ t) :
    Gives (.lsaSend t) s (fun u =>
      Table.find u.fab.adverts s.ownBerth = some { serial := Config.serial, seq := s.fab.ownSeq + 1, links := s.ownLinks }
      ∧ u.fab.ownSeq = s.fab.ownSeq + 1 ∧ u.fab.advertAt = u.time
      ∧ OnlyAt s.fab.adverts u.fab.adverts s.ownBerth ∧ u.fab.rt = s.fab.rt ∧ Keeps [.time, .free, .fab] s u) := by
  have htime : ¬ (s.at t).time < (s.at t).fab.advertAt + msTicks 10000 := Nat.not_lt.mpr (Nat.le_trans ht (Nat.le_max_right ..))
  have ha' : (s.at t).fab.assigned = true := ha
  obtain ⟨c, hexec⟩ : ∃ c, execLsaSend t s = .next (({ s.at t with fab := { s.fab with
      adverts := Table.put s.fab.adverts s.ownBerth { serial := Config.serial, seq := s.fab.ownSeq + 1, links := s.ownLinks }
      ownSeq := s.fab.ownSeq + 1, advertAt := (s.at t).time, advertChanged := c } } : State).flood 16) := by
    simp only [execLsaSend]
    refine ⟨_, if_neg ?_⟩
    rintro (h | ⟨-, h⟩)
    · rw [ha'] at h
      exact Bool.noConfusion h
    · exact htime h
  generalize hv : ({ s.at t with fab := { s.fab with
      adverts := Table.put s.fab.adverts s.ownBerth { serial := Config.serial, seq := s.fab.ownSeq + 1, links := s.ownLinks }
      ownSeq := s.fab.ownSeq + 1, advertAt := (s.at t).time, advertChanged := c } } : State) = v at hexec
  obtain ⟨po, w, i, hfab⟩ := State.Pumped.flood (p := 16) (State.Pumped.refl (s := v))
  have hkeep : Keeps [.free, .fab] v (v.flood 16) := .flood (.refl v)
  have hsv : Keeps [.time, .free, .fab] s v := by
    rw [← hv]
    exact .withFab (.at (.refl s))
  refine ⟨_, hexec, ?_, ?_, ?_, ?_, ?_, hsv.trans (hkeep.mono (by decide))⟩
  · rw [hfab, ← hv]
    exact Table.find_put_self ..
  · rw [hfab, ← hv]
  · rw [hfab, hkeep.time_eq (by decide), ← hv]
  · rw [hfab, ← hv]
    exact .put
  · rw [hfab, ← hv]

variable {b : Nat} {sn : BitVec 64} {sq : BitVec 32} {links : List (Nat × Nat × Nat)}

theorem gives_lsaReceived_new (hp : p < 14) (hb : b < 8192) (hown : b ≠ s.ownBerth)
    (hsn : s.fab.assigned = false ∨ sn ≠ Config.serial) (hnone : Table.find s.fab.adverts b = none) :
    Gives (.lsaReceived p b sn sq links t) s (fun u =>
      Table.find u.fab.adverts b = some { serial := sn, seq := sq, links := links }
      ∧ u.fab.advertChanged = u.time ∧ OnlyAt s.fab.adverts u.fab.adverts b ∧ u.fab.rt = s.fab.rt
      ∧ Keeps [.time, .free, .fab] s u) := by
  have hown' : ¬ ((s.at t).fab.assigned = true ∧ b = (s.at t).ownBerth) := fun h => hown h.2
  have hsn' : ¬ ((s.at t).fab.assigned = true ∧ sn = Config.serial) := by
    rintro ⟨h1, h2⟩
    rcases hsn with h | h
    · exact Bool.false_ne_true (h.symm.trans h1)
    · exact h h2
  have hnone' : Table.find (s.at t).fab.adverts b = none := hnone
  let v : State := { s.at t with fab := { s.fab with
    adverts := Table.put s.fab.adverts b { serial := sn, seq := sq, links := links }, advertChanged := (s.at t).time } }
  have hexec : execLsaReceived p b sn sq links t s = .next (v.flood p) := by
    simp only [execLsaReceived, if_neg hown', if_neg hsn', hnone', Bool.not_true, Bool.false_eq_true, if_false, if_true]
    exact if_neg (by omega)
  obtain ⟨po, w, i, hfab⟩ := State.Pumped.flood (p := p) (State.Pumped.refl (s := v))
  have hkeep : Keeps [.free, .fab] v (v.flood p) := .flood (.refl v)
  have hsv : Keeps [.time, .free, .fab] s v := .withFab (.at (.refl s))
  refine ⟨_, hexec, ?_, ?_, ?_, ?_, hsv.trans (hkeep.mono (by decide))⟩
  · rw [hfab]
    exact Table.find_put_self ..
  · rw [hfab, hkeep.time_eq (by decide)]
  · rw [hfab]
    exact .put
  · rw [hfab]

theorem gives_lsaReceived_old {a : Advert} (hp : p < 14) (hb : b < 8192) (hown : b ≠ s.ownBerth)
    (hsn : s.fab.assigned = false ∨ sn ≠ Config.serial) (hsome : Table.find s.fab.adverts b = some a) (hsq : sq ≤ a.seq) :
    Gives (.lsaReceived p b sn sq links t) s (fun u => Keeps [.time] s u) := by
  have hown' : ¬ ((s.at t).fab.assigned = true ∧ b = (s.at t).ownBerth) := fun h => hown h.2
  have hsn' : ¬ ((s.at t).fab.assigned = true ∧ sn = Config.serial) := by
    rintro ⟨h1, h2⟩
    rcases hsn with h | h
    · exact Bool.false_ne_true (h.symm.trans h1)
    · exact h h2
  have hsome' : Table.find (s.at t).fab.adverts b = some a := hsome
  have hold : decide (a.seq < sq) = false := decide_eq_false (BitVec.not_lt.mpr hsq)
  refine ⟨s.at t, ?_, .at (.refl s)⟩
  change execLsaReceived p b sn sq links t s = _
  simp only [execLsaReceived, if_neg hown', if_neg hsn', hsome', hold, Bool.not_false, if_true]
  exact if_neg (by omega)

/-! ### Routes -/

/-- The table with the entry that `f` gives for `d`, if any. -/
def putSome {α : Type} (f : Nat → Option α) (t : Table α) (d : Nat) : Table α :=
  match f d with
  | some e => Table.put t d e
  | none => t

/-- What a table holds once each entry of a list that has a value has been put into it. -/
theorem find_putSome {α : Type} (f : Nat → Option α) (l : List Nat) (tab : Table α) (d : Nat) :
    Table.find (l.foldl (putSome f) tab) d = if d ∈ l ∧ (f d).isSome then f d else Table.find tab d := by
  induction l generalizing tab with
  | nil => simp
  | cons a l ih =>
    rw [List.foldl_cons, ih]
    by_cases hd : d = a
    · subst hd
      cases hf : f d <;> simp [putSome, hf]
    · have hput : Table.find (putSome f tab a) d = Table.find tab d := by
        rw [putSome]
        split
        · exact Table.find_put_ne _ _ hd
        · rfl
      simp [hd, hput]

/-- The routing table of the advertised berths. -/
def State.routes (s : State) : Table (BitVec 32) :=
  (s.fab.adverts.map Prod.fst).foldl (putSome (s.routeEntry s.levels)) []

theorem State.routes_all :
    (s.fab.adverts.map Prod.fst).all (fun d => Table.find s.routes d == s.routeEntry s.levels d) = true := by
  rw [List.all_eq_true]
  intro d hd
  have hfind : Table.find s.routes d = if d ∈ s.fab.adverts.map Prod.fst ∧ (s.routeEntry s.levels d).isSome then
      s.routeEntry s.levels d else Table.find ([] : Table (BitVec 32)) d :=
    find_putSome ..
  rw [beq_iff_eq, hfind]
  cases h : s.routeEntry s.levels d with
  | some e => exact if_pos ⟨hd, rfl⟩
  | none => exact if_neg (by simp)

/-- The fabric as routes are committed, before the waiting packets move. -/
theorem State.commitRoutes_eq (s : State) : ∃ (dl : BitVec 16) (rc : BitVec 8192), s.commitRoutes
    = ({ s with fab := { s.fab with prevRt := s.fab.rt, rt := s.routes, gen := s.fab.gen + 1, committedAt := s.time,
                                    prevDown := s.fab.downLinks, downLinks := dl, reached := rc } } : State).pumpFabric := by
  obtain ⟨dl, rc, rt, hcommit, hrt⟩ : ∃ (dl : BitVec 16) (rc : BitVec 8192) (rt : Table (BitVec 32)), s.commitRoutes
    = ({ s with fab := { s.fab with prevRt := s.fab.rt, rt := rt, gen := s.fab.gen + 1, committedAt := s.time,
                                    prevDown := s.fab.downLinks, downLinks := dl, reached := rc } } : State).pumpFabric
    ∧ rt = s.routes := by
    refine ⟨_, _, _, rfl, ?_⟩
    rw [State.routes]
    congr 1
    funext t d
    rw [putSome]
    cases s.routeEntry s.levels d <;> rfl
  exact ⟨dl, rc, hrt ▸ hcommit⟩

theorem gives_routeCommit (ha : s.fab.assigned = true) (hstep : s.fab.step = 5)
    (ht : max s.fab.stepAt s.fab.advertChanged + msTicks 100 ≤ t) (hw : s.fab.waitQ = []) :
    Gives (.routeCommit t) s (fun u => u.fab.gen = s.fab.gen + 1 ∧ u.fab.ready = true ∧ u.fab.step = 7
      ∧ u.fab.prevRt = s.fab.rt ∧ u.fab.committedAt = u.time
      ∧ (s.fab.adverts.map Prod.fst).all (fun d => Table.find u.fab.rt d == s.routeEntry s.levels d) = true
      ∧ u.fab.ports = s.fab.ports ∧ Keeps [.time, .fab] s u) := by
  have hquiet : max (s.at t).fab.stepAt (s.at t).fab.advertChanged + msTicks 100 ≤ (s.at t).time := Nat.le_trans ht (Nat.le_max_right ..)
  have ha' : (s.at t).fab.assigned = true := ha
  have hstep' : ((s.at t).fab.step == 5) = true := beq_iff_eq.mpr hstep
  obtain ⟨dl, rc, hcommit⟩ := (s.at t).commitRoutes_eq
  rw [State.pumpFabric_idle (by exact hw)] at hcommit
  have hexec : execRouteCommit t s = .next (s.at t).commitRoutes.fabReady := by
    simp only [execRouteCommit]
    exact if_pos (by rw [ha', hstep', decide_eq_true hquiet]; rfl)
  rw [hcommit] at hexec
  exact ⟨_, hexec, rfl, rfl, rfl, rfl, rfl, State.routes_all, rfl, .withFab (.withFab (.at (.refl s)))⟩

theorem gives_routeFloodTimeout (hstep : s.fab.step = 5) (ht : s.fab.stepAt + msTicks 1000 ≤ t) :
    Gives (.routeFloodTimeout t) s (fun u => u.fab.gen = s.fab.gen + 1 ∧ u.fab.ready = true
      ∧ u.fab.partialRoutes = true ∧ s.raised u [ST_FAB_ROUTE_PARTIAL]
      ∧ (s.fab.adverts.map Prod.fst).all (fun d => Table.find u.fab.rt d == s.routeEntry s.levels d) = true
      ∧ Keeps [.time, .events, .trace, .fab] s u) := by
  have hdue : (s.at t).fab.step = 5 ∧ (s.at t).fab.stepAt + msTicks 1000 ≤ (s.at t).time :=
    ⟨hstep, Nat.le_trans ht (Nat.le_max_right ..)⟩
  obtain ⟨dl, rc, hcommit⟩ := (s.at t).commitRoutes_eq
  have hkeep : Keeps [.time, .fab] s (s.at t).commitRoutes := .commitRoutes (.at (.refl s))
  let v : State := { (s.at t).commitRoutes with fab := { (s.at t).commitRoutes.fab with partialRoutes := true } }
  have hexec : execRouteFloodTimeout t s = .next (v.raise ST_FAB_ROUTE_PARTIAL 0 0 none 0).fabReady := by
    simp only [execRouteFloodTimeout]
    exact if_pos hdue
  have hraise : (v.raise ST_FAB_ROUTE_PARTIAL 0 0 none 0).fab = v.fab :=
    (Keeps.raise (ks := [.events, .trace]) (.refl v)).fab_eq (by decide)
  obtain ⟨po, w, i, hfab⟩ := State.Pumped.pumpFabric (State.Pumped.refl (s := ({ s.at t with fab := { (s.at t).fab with
    prevRt := (s.at t).fab.rt, rt := (s.at t).routes, gen := (s.at t).fab.gen + 1, committedAt := (s.at t).time,
    prevDown := (s.at t).fab.downLinks, downLinks := dl, reached := rc } } : State)))
  rw [← hcommit] at hfab
  have hrt : (v.raise ST_FAB_ROUTE_PARTIAL 0 0 none 0).fabReady.fab.rt = s.routes := by
    change (v.raise ST_FAB_ROUTE_PARTIAL 0 0 none 0).fab.rt = _
    rw [hraise]
    change (s.at t).commitRoutes.fab.rt = _
    rw [hfab]
    rfl
  refine ⟨_, hexec, ?_, rfl, ?_, ?_, ?_, .withFab (.raise (.withFab (hkeep.mono (by decide))))⟩
  · change (v.raise ST_FAB_ROUTE_PARTIAL 0 0 none 0).fab.gen = _
    rw [hraise]
    change (s.at t).commitRoutes.fab.gen = _
    rw [hfab]
    rfl
  · change (v.raise ST_FAB_ROUTE_PARTIAL 0 0 none 0).fab.partialRoutes = _
    rw [hraise]
  · intro he
    exact State.raised_raise (s := v) (by decide) (by rw [show v.events = s.events from hkeep.events_eq (by decide)]; exact he)
  · rw [hrt]
    exact State.routes_all

end

/-- Settles O45. -/
theorem fabricRoutes : Obligations.FabricRoutes := by
  unfold Obligations.FabricRoutes
  refine ⟨?_, ?_, ?_, ?_, ?_, ?_, ?_⟩
  · intro s t l hidle hstep hmode
    exact gives_berthAssign_table hidle hstep hmode
  · intro s t l hidle hstep hmode hh hown hlate hdue hlen
    exact gives_berthAssign_rank hidle hstep hmode hh hown hlate hdue hlen
  · intro s t ha ht
    exact gives_lsaSend ha ht
  · intro s t p b sn sq l hp hb hown hsn hnone
    exact gives_lsaReceived_new hp hb hown hsn hnone
  · intro s t p b sn sq l a hp hb hown hsn hsome hsq
    exact gives_lsaReceived_old hp hb hown hsn hsome hsq
  · intro s t ha hstep ht hw
    exact gives_routeCommit ha hstep ht hw
  · intro s t hstep ht
    exact gives_routeFloodTimeout hstep ht

end Sys2Proof.Machine

/-! Refutes the statement about failed tiles: what a failed tile waited for may have stood before another tile's wait,
which then passes. -/

namespace Sys2Proof.Machine

set_option Elab.async false

/-- Tile 0 has made no progress since time 0, and waits at object 7 for a count of 5; tile 1 waits behind it for 1. -/
def State.waitsBehindFailed : State :=
  let s := wTile (fun x => { x with mode := .running, lastProgress := 0 })
  { s with fw := { s.fw with state := 2 } }.setSo 7
    { count := 1, thresh := 0, tenant := 0, valid := true, irqEn := false, ovf := false, unf := false,
      waiters := [{ unit := .stream 0 false, dec := true, t := 5 }, { unit := .stream 1 false, dec := true, t := 1 }] }

/-- The wait of tile 1 passes, and its stream goes on. -/
theorem State.waitsBehindFailed_passes :
    (Table.find State.waitsBehindFailed.tiles 1).isNone = true
    ∧ (Table.find ((execTileFailure 0 (msTicks 10) State.waitsBehindFailed).state
        State.waitsBehindFailed).tiles 1).isSome = true := by
  decide +kernel

/-- Refutes O47: with the wait of the failed tile gone, the wait behind it passes, and another tile changes. -/
theorem not_faultsAndLogbook : ¬ Obligations.FaultsAndLogbook := by
  unfold Obligations.FaultsAndLogbook
  rintro ⟨-, -, -, -, -, -, -, -, -, -, -, h, -⟩
  obtain ⟨u, hu, -, -, -, -, -, -, htiles, -⟩ := h State.waitsBehindFailed 0 (msTicks 10) 0 (by decide)
    (by decide +kernel) (by decide +kernel) (by decide +kernel) (by decide +kernel) (by decide +kernel)
  obtain ⟨hbefore, hafter⟩ := State.waitsBehindFailed_passes
  have hu' : execTileFailure 0 (msTicks 10) State.waitsBehindFailed = .next u := hu
  rw [hu'] at hafter
  have hin : (Table.find u.tiles 1).isSome = true := hafter
  rw [htiles 1 (by decide)] at hin
  rw [Option.isNone_iff_eq_none.mp hbefore] at hin
  cases hin

end Sys2Proof.Machine

/-! Refutes the statements about the mailbox and about sessions: the clearing of a tenant lets the slots of delivered
steps go, also where the manifest is empty. -/

namespace Sys2Proof.Machine

set_option Elab.async false

/-- VF 5 is in its reset with no work left and no manifest entry is taken, while a step of another model has delivered
its last row and waits for nothing. -/
def State.clearsWithDelivered : State :=
  let s := wMem id
  { s with
    hif := { s.hif with funcs := [(5, { Func.reset with inReset := true, session := 4 })] }
    serving := { s.serving with inFlight := [wStep (fun x => { x with delivered := true })] } }

/-- The reset of the function lets the slot of the delivered step go. -/
theorem State.clearsWithDelivered_frees :
    State.clearsWithDelivered.serving.inFlight.length = 1
    ∧ ((execFunctionLevelReset 5 9 State.clearsWithDelivered).state
        State.clearsWithDelivered).serving.inFlight.length = 0 := by
  decide +kernel

/-- Refutes O48: the reset of a function also lets the slot of a delivered step go. -/
theorem not_mailboxProtocol : ¬ Obligations.MailboxProtocol := by
  unfold Obligations.MailboxProtocol
  rintro ⟨-, -, -, -, -, -, h, -⟩
  obtain ⟨u, hu, -, -, -, -, hkeeps⟩ := h State.clearsWithDelivered 5 9 (by decide) (by decide) (by decide +kernel)
    (by decide +kernel) (by decide +kernel)
  obtain ⟨hbefore, hafter⟩ := State.clearsWithDelivered_frees
  have hu' : execFunctionLevelReset 5 9 State.clearsWithDelivered = .next u := hu
  rw [hu'] at hafter
  have hin : u.serving.inFlight.length = 0 := hafter
  rw [hkeeps.serving_eq (by decide), hbefore] at hin
  cases hin

end Sys2Proof.Machine

/-! Refutes the statement about session commands: TENANT_CLEAR too lets the slots of delivered steps go. -/

namespace Sys2Proof.Machine

set_option Elab.async false

/-- TENANT_CLEAR of tenant 5 waits in the queue of the scheduler core. -/
def State.tenantClearWaits : State := wMbx 2 (wAdm 0x0107 [5]) State.clearsWithDelivered

/-- The clearing of tenant 5 lets the slot of the delivered step go. -/
theorem State.tenantClearWaits_frees :
    State.tenantClearWaits.serving.inFlight.length = 1
    ∧ ((execTenantClear (.func 0) 9 State.tenantClearWaits).state
        State.tenantClearWaits).serving.inFlight.length = 0 := by
  decide +kernel

/-- Refutes O49: TENANT_CLEAR also lets the slot of a delivered step go. -/
theorem not_sessionCommands : ¬ Obligations.SessionCommands := by
  unfold Obligations.SessionCommands
  rintro ⟨-, -, -, -, -, -, -, -, -, -, -, -, -, -, -, -, h⟩
  obtain ⟨u, hu, -, -, -, -, -, hkeeps⟩ := h State.tenantClearWaits (.func 0) 9 (wAdm 0x0107 [5]) (by decide +kernel)
    (by decide +kernel) (by decide +kernel) (by decide +kernel) (by decide +kernel) rfl (by decide +kernel)
    (by decide +kernel) (by decide +kernel)
  obtain ⟨hbefore, hafter⟩ := State.tenantClearWaits_frees
  have hu' : execTenantClear (.func 0) 9 State.tenantClearWaits = .next u := hu
  rw [hu'] at hafter
  have hin : u.serving.inFlight.length = 0 := hafter
  rw [hkeeps.serving_eq (by decide), hbefore] at hin
  cases hin

end Sys2Proof.Machine

/-! Refutes the statement about work commands: a wait that found no room among the waiters stands in the retry list of
its object, and SO_FREE ends it with the object. -/

namespace Sys2Proof.Machine

set_option Elab.async false

/-- SO_FREE of object 7 waits; no waiter stands at the object, but the access stream of tile 3 tries its wait again. -/
def State.freesRetried : State :=
  let s := wMbx 2 (wAdm 0x0301 [7, 1]) ((wMem id).setSo 7 { SyncObj.reset with valid := true })
  { s with
    tiles := [(3, { Tile.reset with mode := .running, active := true })]
    sync := { s.sync with
      retried := [{ so := 7, waiter := { unit := .stream 3 false, dec := false, t := 5 }, tenant := 0 }] } }

/-- The wait of tile 3 ends, and with it its descriptor. -/
theorem State.freesRetried_ends :
    (State.freesRetried.tile 3).mode = .running
    ∧ (((execSoFree (.func 0) 9 State.freesRetried).state State.freesRetried).tile 3).mode ≠ .running := by
  decide +kernel

/-- Refutes O50: SO_FREE of an object without waiters ends the wait of a tile which its retry list holds. -/
theorem not_workCommands : ¬ Obligations.WorkCommands := by
  unfold Obligations.WorkCommands
  rintro ⟨-, -, -, -, -, -, -, -, -, -, h, -⟩
  obtain ⟨u, hu, -, -, -, -, -, hkeeps⟩ := h State.freesRetried (.func 0) 9 (wAdm 0x0301 [7, 1]) (by decide +kernel)
    (by decide +kernel) (by decide +kernel) (by decide +kernel) (by decide +kernel)
  obtain ⟨hbefore, hafter⟩ := State.freesRetried_ends
  have hu' : execSoFree (.func 0) 9 State.freesRetried = .next u := hu
  rw [hu'] at hafter
  have hin : (u.tile 3).mode ≠ .running := hafter
  rw [State.tile, hkeeps.tiles_eq (by decide)] at hin
  exact hin hbefore

end Sys2Proof.Machine

/-! Refutes the statement about module commands: the reading of the berth table retires the merged writes it meets
first, and what it keeps are the entries after them. -/

namespace Sys2Proof.Machine

set_option Elab.async false

/-- A table of two berths at the base of the scratchpad of tile 0. -/
def berthBytes : List Byte := bytesOfNat 32 0x600000000000000334400000000000005000000000000001122

/-- BERTH_TABLE of that table waits, and a merged write of its first byte has not been retired. -/
def State.berthMerge : State :=
  let s := wMbx 2 (wAdm 0x0700 [0x400000000000, 2]) (wMem id)
  { s with
    mem := Mem.writeBytes [] 0x400000000000 (berthBytes ++ List.replicate 96 0)
    tiers := { s.tiers with merge := [{ atom := 0x400000000000, unit := 1024, mask := 1, data := 0x99, last := 0 }] } }

/-- The merged write leaves the buffer. -/
theorem State.berthMerge_retires :
    State.berthMerge.tiers.merge.length = 1
    ∧ ((execBerthTable (.func 0) 9 State.berthMerge).state State.berthMerge).tiers.merge.length = 0 := by
  decide +kernel

/-- Refutes O52: with a merged write over the table, the command changes the merge buffer too. -/
theorem not_moduleCommands : ¬ Obligations.ModuleCommands := by
  unfold Obligations.ModuleCommands
  rintro ⟨-, -, -, -, -, -, -, -, -, -, -, -, -, h, -⟩
  obtain ⟨u, hu, -, -, -, -, hkeeps⟩ := h State.berthMerge (.func 0) 9 (wAdm 0x0700 [0x400000000000, 2]) 0 berthBytes
    [(0x1122#64, false, 5#13), (0x3344#64, false, 6#13)] (by decide +kernel) (by decide +kernel) (by decide +kernel)
    (by decide +kernel) (by decide +kernel) (by decide +kernel) (by decide +kernel) (by decide +kernel)
    (by decide +kernel) (by decide +kernel) (by decide +kernel) (by decide +kernel) (by decide +kernel)
  obtain ⟨hbefore, hafter⟩ := State.berthMerge_retires
  have hu' : execBerthTable (.func 0) 9 State.berthMerge = .next u := hu
  rw [hu'] at hafter
  have hin : u.tiers.merge.length = 0 := hafter
  rw [hkeeps.tiers_eq (by decide), hbefore] at hin
  cases hin

end Sys2Proof.Machine

/-! Refutes the statement about management commands: a requested step above the range falls in stages. -/

namespace Sys2Proof.Machine

set_option Elab.async false

/-- PACE_SET of quay 3 to step 75 waits, and the quay's requested step stands at 200. -/
def State.paceFromAbove : State :=
  let s := wMbx 1 (wAdm 0x0900 [8, 75, 20]) (wMem id)
  { s with quays := [(3, { Quay.reset with limits := { Quay.reset.limits with reqStep := 200 } })] }

/-- The command begins the first stage only. -/
theorem State.paceFromAbove_stages :
    ((((execPaceSet (.func 0) 9 State.paceFromAbove).state State.paceFromAbove).quay 3).limits.reqStep == 70) = false := by
  decide +kernel

/-- Refutes O54: from a requested step far above it, step 70 is not the requested step at once. -/
theorem not_managementCommands : ¬ Obligations.ManagementCommands := by
  unfold Obligations.ManagementCommands
  rintro ⟨-, h, -⟩
  obtain ⟨u, hu, hstep, -⟩ := h State.paceFromAbove (.func 0) 9 (wAdm 0x0900 [8, 75, 20]) 3 (by decide +kernel)
    (by decide +kernel) (by decide +kernel) (by decide)
  have hstages := State.paceFromAbove_stages
  have hu' : execPaceSet (.func 0) 9 State.paceFromAbove = .next u := hu
  rw [hu'] at hstages
  exact ne_of_beq_false hstages hstep

end Sys2Proof.Machine

/-! What serving a request leaves, in one piece and in parts (18 R577 to R580): the work changes the state as it does,
and the host interface gets the answer or the mark. -/

namespace Sys2Proof.Machine

set_option Elab.async false

section

variable {s w : State} {iss : Issuer} {code t : Nat} {a : Admitted} {c : Cmd}

/-- The state with another host interface. -/
def State.withHif (s : State) (h : HostIf) : State := { s with hif := h }

/-- The queue of `core` after the work on request `a` has begun. -/
def State.mark (s : State) (core : Nat) (a : Admitted) : State :=
  s.setCoreQ core { s.coreQ core with
    queue := changeFirst (fun x => x == a) (fun x => { x with started := true }) (s.coreQ core).queue }

theorem State.mark_eq (core : Nat) : s.mark core a = s.withHif (s.mark core a).hif := by
  simp only [State.mark, State.setCoreQ]
  split
  · rfl
  · split <;> rfl

theorem State.mark_sameHif (core : Nat) : s.sameHif (s.mark core a) := by
  simp only [State.sameHif, State.mark, State.setCoreQ]
  split
  · exact ⟨rfl, rfl, rfl, rfl⟩
  · split <;> exact ⟨rfl, rfl, rfl, rfl⟩

theorem State.began_mark {core : Nat} (hcore : core < 3) (hw : w.hif = s.hif) : s.began (w.mark core a) core a := by
  refine ⟨?_, ?_, ?_⟩
  · rw [← hw, State.mark, State.setCoreQ]
    split
    · rfl
    · split <;> rfl
  · rw [State.mark, State.coreQ_setCoreQ, State.coreQ_congr hw]
  · simp only [List.all_eq_true, List.mem_range, Bool.or_eq_true, beq_iff_eq, decide_eq_true_eq]
    intro k hk
    by_cases h : k = core
    · exact .inl h
    · exact .inr ((w.coreQ_setCoreQ_ne _ hcore hk h).trans (State.coreQ_congr hw k))

/-- The checks before the work of a request that is served. -/
theorem State.serve_serves (hs : s.serves iss c.core code a) :
    ((s.at t).coreQ c.core).served iss code = some a
    ∧ (!(s.at t).coreRuns (64 + c.core) && !(romCmd code && !(s.at t).fw.switching.getLsbD 64)) = false := by
  obtain ⟨hserved, -, hruns⟩ := hs
  refine ⟨hserved, ?_⟩
  rw [State.at_coreRuns_of, State.at_fw, ← Bool.not_or, hruns, Bool.not_true]

/-- A request whose work replies is answered so, on what the work has left. -/
theorem State.serve_answers {work : Bool → Nat → State → Reply × State} {st : Status} {vals : List Nat}
    (hc : cmdOf code = some c) (hcore : c.core < 3) (hs : s.serves iss c.core code a)
    (hw : work a.started a.msg.toNat (s.at t) = (some (st, vals), w)) (hif : w.hif = s.hif) :
    ∃ h, State.serve iss code t work s = .next (w.withHif h) ∧ s.gave (w.withHif h) iss c.core code a st vals
      ∧ s.sameHif (w.withHif h) := by
  let msg := response a.msg.toNat st 0 (((cmdOf code).map (·.res)).getD []) vals
  have heq : w.conclude iss c.core a msg = w.withHif (w.conclude iss c.core a msg).hif := w.conclude_eq iss c.core a msg
  have hgave := State.gave_conclude (code := code) iss a st vals hcore hif
  have hsame := w.conclude_sameHif iss c.core a msg
  refine ⟨(w.conclude iss c.core a msg).hif, ?_, heq ▸ hgave, heq ▸ ?_⟩
  · obtain ⟨hserved, hruns⟩ := State.serve_serves (t := t) hs
    rw [← heq]
    simp only [State.serve, hc, servingCore_eq hcore, hserved, hruns, hw, hs.2.1, Bool.false_eq_true, ↓reduceIte, msg,
      Option.map_some, Option.getD_some]
    rfl
  · simp only [State.sameHif, hif] at hsame ⊢
    exact hsame

/-- A request whose work is not complete is marked as begun, on what the work has left. -/
theorem State.serve_begins {work : Bool → Nat → State → Reply × State}
    (hc : cmdOf code = some c) (hcore : c.core < 3) (hs : s.serves iss c.core code a)
    (hw : work a.started a.msg.toNat (s.at t) = (none, w)) (hif : w.hif = s.hif) :
    ∃ h, State.serve iss code t work s = .next (w.withHif h) ∧ s.began (w.withHif h) c.core a
      ∧ s.sameHif (w.withHif h) := by
  have heq := w.mark_eq (a := a) c.core
  have hbegan := State.began_mark (a := a) hcore hif
  have hsame := w.mark_sameHif (a := a) c.core
  refine ⟨(w.mark c.core a).hif, ?_, heq ▸ hbegan, heq ▸ ?_⟩
  · obtain ⟨hserved, hruns⟩ := State.serve_serves (t := t) hs
    rw [← heq]
    simp only [State.serve, hc, servingCore_eq hcore, hserved, hruns, hw, Bool.false_eq_true, ↓reduceIte]
    rfl
  · simp only [State.sameHif, hif] at hsame ⊢
    exact hsame

/-- A command that has several forms is served in the form its request has. -/
theorem State.serveIf_form {work : Bool → Nat → State → Reply × State} {form : Nat → Bool} (hc : cmdOf code = some c)
    (hs : s.serves iss c.core code a) (hf : form a.msg.toNat = true) :
    State.serveIf iss code t form work s = State.serve iss code t work s := by
  have hdue : s.dueMsg iss code = some a.msg.toNat := by simp only [State.dueMsg, hc, hs.1, Option.map_some]
  rw [State.serveIf, hdue]
  exact if_pos hf

theorem Keeps.answered {ks : List Part} {o : State} {h : HostIf} (hk : Keeps ks o w)
    (hks : [.hif] ⊆ ks := by decide) : Keeps ks o (w.withHif h) := hk.withHif hks

end

end Sys2Proof.Machine

/-! Logbook, replay and trace commands (17 R541 to R549, 22 R666, R673). -/

namespace Sys2Proof.Machine

set_option Elab.async false

section

variable {s w : State} {iss : Issuer} {code core t : Nat} {a : Admitted} {cmd : Instr} {P : State → Prop}

/-- A command whose work replies gives what its work has left, and the answer. -/
theorem State.gives_answers {work : Bool → Nat → State → Reply × State} {st : Status} {vals : List Nat}
    (hexec : exec cmd s = State.serve iss code t work s) (hs : s.serves iss core code a)
    (hw : work a.started a.msg.toNat (s.at t) = (some (st, vals), w)) (hif : w.hif = s.hif)
    (hP : ∀ h, s.gave (w.withHif h) iss core code a st vals → s.sameHif (w.withHif h) → P (w.withHif h))
    (hc : (cmdOf code).map (·.core) = some core := by rfl) (hcore : core < 3 := by decide) : Gives cmd s P := by
  obtain ⟨c, hcmd, rfl⟩ := Option.map_eq_some_iff.mp hc
  obtain ⟨h, hserve, hgave, hsame⟩ := State.serve_answers (t := t) (work := work) hcmd hcore hs hw hif
  exact ⟨_, hexec.trans hserve, hP h hgave hsame⟩

/-- A command whose work is not complete gives what its work has left, and the mark. -/
theorem State.gives_begins {work : Bool → Nat → State → Reply × State}
    (hexec : exec cmd s = State.serve iss code t work s) (hs : s.serves iss core code a)
    (hw : work a.started a.msg.toNat (s.at t) = (none, w)) (hif : w.hif = s.hif)
    (hP : ∀ h, s.began (w.withHif h) core a → s.sameHif (w.withHif h) → P (w.withHif h))
    (hc : (cmdOf code).map (·.core) = some core := by rfl) (hcore : core < 3 := by decide) : Gives cmd s P := by
  obtain ⟨c, hcmd, rfl⟩ := Option.map_eq_some_iff.mp hc
  obtain ⟨h, hserve, hbegan, hsame⟩ := State.serve_begins (t := t) (work := work) hcmd hcore hs hw hif
  exact ⟨_, hexec.trans hserve, hP h hbegan hsame⟩

/-! ### The logbook -/

/-- The state with a mark that waits for the module to come to rest. -/
def State.marking (s : State) (t : Nat) (iss : Issuer) (start wrap : Bool) : State :=
  (s.at t).updLog (fun l => { l with
    mark := some { start := start, since := (s.at t).time, wrap := wrap, issuer := some iss }, paused := true })

theorem State.sendMarks_alone (hrt : s.fab.rt = []) (code wrap : Nat) : s.sendMarks code wrap = s := by
  have hreach : ∀ b, s.reachable b = false := fun b => by
    have hb : bit (s.route b) 31 = false := by simp [State.route, hrt, Table.getD, bit]
    rw [State.reachable, hb, Bool.and_false]
  refine List.foldlRecOn (motive := fun u => u = s) _ _ rfl fun u hu b _ => ?_
  rw [hu, hreach, Bool.and_false]
  rfl

theorem State.beginMark_alone {start wrap : Bool} : (s.at t).beginMark iss start wrap false = s.marking t iss start wrap := by
  simp only [State.beginMark, Bool.false_eq_true, if_false]
  rfl

theorem State.beginMark_noRoutes {start wrap : Bool} (hrt : s.fab.rt = []) :
    (s.at t).beginMark iss start wrap true = s.marking t iss start wrap := by
  have hrt' : (s.marking t iss start wrap).fab.rt = [] := hrt
  simp only [State.beginMark, if_true]
  exact State.sendMarks_alone hrt' _ _

/-- What LOG_START does once it is served. -/
def logStartWork (iss : Issuer) (_ : Bool) (m : Nat) (s : State) : Reply × State :=
  if 2 ≤ msgArg m 0 ∨ 2 ≤ msgArg m 1 ∨ (s.resv 6).2 = 0 ∨ s.replaying then (done ST_MBX_ARG, s)
  else (none, s.beginMark iss true (msgArg m 0 == 1) (msgArg m 1 == 1))

/-- What LOG_MARK does once it is served. -/
def logMarkWork (iss : Issuer) (_ : Bool) (m : Nat) (s : State) : Reply × State :=
  if 2 ≤ msgArg m 0 ∨ !s.log.recording then (done ST_MBX_ARG, s)
  else (none, s.beginMark iss false false (msgArg m 0 == 1))

theorem exec_logStart (hm : s.log.mark = none) :
    exec (.logStart iss t) s = State.serve iss 0x0800 t (logStartWork iss) s := by
  have hmark : ¬s.log.mark.isSome = true := by rw [hm]; decide
  exact if_neg hmark

theorem exec_logMark (hm : s.log.mark = none) :
    exec (.logMark iss t) s = State.serve iss 0x0802 t (logMarkWork iss) s := by
  have hmark : ¬s.log.mark.isSome = true := by rw [hm]; decide
  exact if_neg hmark

theorem gives_logStart {c : Nat} (hs : s.serves iss 2 0x0800 a) (hm : s.log.mark = none) (h0 : msgArg a.msg.toNat 0 < 2)
    (h1 : msgArg a.msg.toNat 1 = c) (hc : c = 0 ∨ c = 1 ∧ s.fab.rt = []) (hr : (s.resv 6).2 ≠ 0)
    (hf : s.log.replayFrom = none) :
    Gives (.logStart iss t) s (fun u => u.log = { s.log with mark := some { start := true, since := u.time, wrap := msgArg a.msg.toNat 0 == 1, issuer := some iss }, paused := true }
      ∧ s.began u 2 a ∧ s.sameHif u ∧ Keeps [.time, .hif, .log] s u) := by
  refine State.gives_begins (w := s.marking t iss true (msgArg a.msg.toNat 0 == 1)) (exec_logStart hm) hs ?_ rfl
    fun h hbegan hsame => ⟨rfl, hbegan, hsame, Keeps.answered (.withLog (.at (.refl _)))⟩
  have hbad : ¬(2 ≤ msgArg a.msg.toNat 0 ∨ 2 ≤ msgArg a.msg.toNat 1 ∨ ((s.at t).resv 6).2 = 0
      ∨ (s.at t).replaying = true) := by
    have h1' : msgArg a.msg.toNat 1 < 2 := by omega
    have hrep : (s.at t).replaying = false := by simp [State.replaying, hf]
    simp only [hrep, Bool.false_eq_true, or_false]
    rintro (h | h | h)
    · omega
    · omega
    · exact hr h
  rw [logStartWork, if_neg hbad]
  congr 1
  rw [h1]
  rcases hc with rfl | ⟨rfl, hrt⟩
  · exact State.beginMark_alone
  · exact State.beginMark_noRoutes hrt

theorem gives_logStart_refused (hs : s.serves iss 2 0x0800 a) (hm : s.log.mark = none)
    (hbad : 2 ≤ msgArg a.msg.toNat 0 ∨ 2 ≤ msgArg a.msg.toNat 1 ∨ (s.resv 6).2 = 0 ∨ s.log.replayFrom.isSome = true) :
    Gives (.logStart iss t) s (fun u => u.log = s.log ∧ s.gave u iss 2 0x0800 a ST_MBX_ARG [] ∧ s.sameHif u
      ∧ Keeps [.time, .hif] s u) := by
  exact State.gives_answers (exec_logStart hm) hs (if_pos hbad) rfl
    fun h hgave hsame => ⟨rfl, hgave, hsame, Keeps.answered (.at (.refl _))⟩

theorem gives_logMark (hs : s.serves iss 2 0x0802 a) (hm : s.log.mark = none) (h0 : msgArg a.msg.toNat 0 = 0)
    (hr : s.log.recording = true) :
    Gives (.logMark iss t) s (fun u => u.log = { s.log with mark := some { start := false, since := u.time, wrap := false, issuer := some iss }, paused := true }
      ∧ s.began u 2 a ∧ s.sameHif u ∧ Keeps [.time, .hif, .log] s u) := by
  refine State.gives_begins (w := s.marking t iss false false) (exec_logMark hm) hs ?_ rfl
    fun h hbegan hsame => ⟨rfl, hbegan, hsame, Keeps.answered (.withLog (.at (.refl _)))⟩
  have hbad : ¬(2 ≤ msgArg a.msg.toNat 0 ∨ (!(s.at t).log.recording) = true) := by
    rw [h0, show (s.at t).log.recording = true from hr]
    decide
  rw [logMarkWork, if_neg hbad, h0]
  exact congrArg _ State.beginMark_alone

theorem gives_logMark_refused (hs : s.serves iss 2 0x0802 a) (hm : s.log.mark = none) (hr : s.log.recording = false) :
    Gives (.logMark iss t) s (fun u => u.log = s.log ∧ s.gave u iss 2 0x0802 a ST_MBX_ARG [] ∧ s.sameHif u
      ∧ Keeps [.time, .hif] s u) := by
  have hbad : 2 ≤ msgArg a.msg.toNat 0 ∨ (!(s.at t).log.recording) = true :=
    .inr (by rw [show (s.at t).log.recording = false from hr]; rfl)
  exact State.gives_answers (exec_logMark hm) hs (if_pos hbad) rfl
    fun h hgave hsame => ⟨rfl, hgave, hsame, Keeps.answered (.at (.refl _))⟩

theorem Table.find_append {α : Type} (l r : Table α) (k : Nat) : Table.find (l ++ r) k = (Table.find l k).or (Table.find r k) := by
  induction l with
  | nil => rfl
  | cons p l ih =>
    simp only [List.cons_append, Table.find]
    split
    · rfl
    · exact ih

theorem Table.find_map_of_ne {α β : Type} (l : List β) (f : β → Nat × α) (k : Nat) (h : ∀ x ∈ l, (f x).1 ≠ k) :
    Table.find (l.map f) k = none := by
  induction l with
  | nil => rfl
  | cons x l ih =>
    simp only [List.map_cons, Table.find, if_neg (h x List.mem_cons_self), ih fun y hy => h y (List.mem_cons_of_mem _ hy)]

/-- The zeroing of an area leaves what lies outside it. -/
theorem Mem.read_fillZero_outside (m : Mem) {b n x : Nat} (hx : x < b ∨ b + n ≤ x) :
    Mem.read (Mem.fillZero m b n) x = Mem.read m x := by
  have hzero : Table.find ((List.range n).map (fun i => (b + i, (0 : Byte)))) x = none :=
    Table.find_map_of_ne _ _ _ fun i hi => by
      have hin := List.mem_range.mp hi
      show b + i ≠ x
      omega
  have hlow := Mem.read_filter m (fun a => decide (a < b)) x
  have hhigh := Mem.read_filter m (fun a => decide (b + n ≤ a)) x
  simp only [Mem.read, decide_eq_true_eq] at hlow hhigh
  simp only [Mem.read, Mem.fillZero, Table.find_append, hzero, Option.or_none, hlow, hhigh]
  rcases hx with hx | hx
  · rw [if_pos hx, if_neg (by omega), Option.or_none]
  · rw [if_neg (by omega), if_pos hx, Option.none_or]

/-- A write of a reservation meets whole units of it. -/
theorem State.resvWrite_sameOutside {u b lo hi : Nat} {bs : List Byte} (hu : 0 < u) (hlo : lo ≤ b / u * u)
    (hhi : b + bs.length + u ≤ hi + 1) : SameOutside s.mem (s.resvWrite u b bs).mem lo hi := by
  intro x hx
  have hb := Nat.div_mul_le_self b u
  rw [State.resvWrite]
  refine (Mem.read_writeBytes_outside _ _ _ _ (by omega)).trans ?_
  refine List.foldlRecOn (motive := fun m => Mem.read m x = Mem.read s.mem x) _ _ rfl fun m hm i hi' => ?_
  dsimp only
  split
  · exact hm
  · refine (Mem.read_fillZero_outside _ ?_).trans hm
    obtain ⟨hpos, hlast⟩ : 0 < bs.length ∧ b / u + i ≤ (b + bs.length - 1) / u := by
      have hin := List.mem_range.mp hi'
      split at hin
      · exact absurd hin (Nat.not_lt_zero i)
      · next hne =>
        have hpos : bs.length ≠ 0 := fun h => hne (List.isEmpty_iff.mpr (List.length_eq_zero_iff.mp h))
        exact ⟨by omega, by omega⟩
    have hstart : b / u * u ≤ (b / u + i) * u := Nat.mul_le_mul_right u (Nat.le_add_right _ _)
    have hend : (b / u + i) * u ≤ b + bs.length - 1 :=
      Nat.le_trans (Nat.mul_le_mul_right u hlast) (Nat.div_mul_le_self _ _)
    omega

theorem State.logHeader_sameOutside :
    SameOutside s.mem s.logHeader.mem ((s.resv 6).1 / 128 * 128) ((s.resv 6).1 + 256) := by
  rw [State.logHeader]
  generalize (s.resv 6).1 = b
  have hlow : ∀ k, b / 128 * 128 ≤ (b + k) / 128 * 128 := fun k =>
    Nat.mul_le_mul_right 128 (Nat.div_le_div_right (Nat.le_add_right b k))
  intro x hx
  refine (State.resvWrite_sameOutside (by decide) (hlow 0x20) ?_ x hx).trans
    (State.resvWrite_sameOutside (by decide) (hlow 3) ?_ x hx)
  · simp only [List.length_append, bytesOfNat_length]
    omega
  · rw [bytesOfNat_length]
    omega

/-- The state of a recording that has ended, as the header says. -/
def State.logStopped (s : State) : State := (s.updLog (fun l => { l with recording := false })).logHeader

/-- What LOG_STOP does once it is served. -/
def logStopWork (_ : Nat) (s : State) : Reply × State :=
  let s := if s.log.recording then
      ((s.logFlushAll).updLog (fun l => { l with recording := false })).logHeader
    else s
  (reply [s.log.nextRec], s)

theorem exec_logStop : exec (.logStop iss t) s = State.serveNow iss 0x0801 t logStopWork s := rfl

theorem State.logStopped_keeps : Keeps [.mem, .log] s s.logStopped := .logHeader (.withLog (.refl s))

theorem State.logStopped_log : s.logStopped.log = { s.log with recording := false } :=
  (Keeps.logHeader (ks := [.mem]) (.refl (s.updLog _))).log_eq (by decide)

theorem State.logStopped_sameOutside :
    SameOutside s.mem s.logStopped.mem ((s.resv 6).1 / 128 * 128) ((s.resv 6).1 + 256) :=
  (s.updLog (fun l => { l with recording := false })).logHeader_sameOutside

theorem State.resv_at (k : Nat) : (s.at t).resv k = s.resv k := rfl

theorem logStopWork_on {m : Nat} (hr : s.log.recording = true) (hp : s.log.points = []) :
    logStopWork m s = (reply [s.log.nextRec], s.logStopped) := by
  have hflush : s.logFlushAll = s := by
    rw [State.logFlushAll, hp]
    rfl
  have hlog : s.logStopped.log.nextRec = s.log.nextRec := by rw [State.logStopped_log]
  rw [← hlog]
  simp only [logStopWork, hr, if_true, hflush]
  rfl

theorem logStopWork_off {m : Nat} (hr : s.log.recording = false) : logStopWork m s = (reply [s.log.nextRec], s) := by
  simp only [logStopWork, hr, Bool.false_eq_true, if_false]

theorem gives_logStop (hs : s.serves iss 2 0x0801 a) (hr : s.log.recording = true) (hp : s.log.points = []) :
    Gives (.logStop iss t) s (fun u => u.log = { s.log with recording := false }
      ∧ SameOutside s.mem u.mem ((s.resv 6).1 / 128 * 128) ((s.resv 6).1 + 256)
      ∧ s.gave u iss 2 0x0801 a 0 [s.log.nextRec] ∧ s.sameHif u
      ∧ Keeps [.time, .mem, .events, .trace, .hif, .log] s u) := by
  have houtside := (s.at t).logStopped_sameOutside
  rw [State.resv_at] at houtside
  have hkeeps : Keeps [.time, .mem, .events, .trace, .hif, .log] s (s.at t).logStopped :=
    .trans (.at (.refl _)) ((s.at t).logStopped_keeps.mono (by decide))
  have hhif : (s.at t).logStopped.hif = s.hif := (s.at t).logStopped_keeps.hif_eq (by decide)
  have hlog : (s.at t).logStopped.log = { s.log with recording := false } := (s.at t).logStopped_log
  have hwork : logStopWork a.msg.toNat (s.at t) = (some (0, [s.log.nextRec]), (s.at t).logStopped) := logStopWork_on hr hp
  generalize (s.at t).logStopped = w at *
  exact State.gives_answers exec_logStop hs hwork hhif fun h hgave hsame =>
    ⟨hlog, houtside, hgave, hsame, hkeeps.answered⟩

theorem gives_logStop_off (hs : s.serves iss 2 0x0801 a) (hr : s.log.recording = false) :
    Gives (.logStop iss t) s (fun u => u.log = s.log ∧ s.gave u iss 2 0x0801 a 0 [s.log.nextRec] ∧ s.sameHif u
      ∧ Keeps [.time, .hif] s u) := by
  exact State.gives_answers (w := s.at t) exec_logStop hs (logStopWork_off hr) rfl
    fun h hgave hsame => ⟨rfl, hgave, hsame, Keeps.answered (.at (.refl _))⟩

/-! ### Replay -/

/-- What REPLAY_START does once it is served. -/
def replayStartWork (m : Nat) (s : State) : Reply × State :=
  let n := msgArg m 0
  match s.readMem (s.resv 6).1 64 with
  | none => (done ST_MBX_ARG, s)
  | some bs =>
    let h := natOfBytes bs
    if (s.resv 6).2 = 0 ∨ s.log.recording ∨ s.replaying ∨ byteField h 0 3 ≠ 0x720801 then (done ST_MBX_ARG, s)
    else if byteField h 0x18 8 ≠ s.mapSum ∨ byteField h 0x10 8 ≠ s.configSum ∨ byteField h 4 4 ≠ s.fwVer then
      (done ST_REPLAY_CONFIG, s)
    else
      let l : Logbook := { s.log with
        first := byteField h 0x20 8, nextRec := byteField h 0x28 8, lastMark := byteField h 0x30 8
        gaps := BitVec.ofNat 32 (byteField h 0x38 4), wrap := bit (byteField h 3 1) 0 }
      let s1 := { s with log := l }
      let rs := s1.logRecords n
      let isMark : Bool := ((s1.logRecord n).map (fun r => recKind r == 4 && bit r 20)).getD false
      let gap : Bool := rs.any (fun (r : Option Nat) => (r.map (fun x => recKind x == 5)).getD true)
      if n < l.first ∨ l.nextRec ≤ n ∨ !isMark ∨ gap then (done ST_MBX_ARG, s)
      else
        (done 0, s1.updLog (fun l => { l with
          replayFrom := some n, replayPos := n, held := false, points := replayPoints rs [] }))

theorem exec_replayStart : exec (.replayStart iss t) s = State.serveNow iss 0x0803 t replayStartWork s := rfl

theorem replayStartWork_refused {m : Nat} (h : s.log.replayFrom.isSome = true ∨ s.log.recording = true) :
    replayStartWork m s = (done ST_MBX_ARG, s) := by
  rw [replayStartWork]
  dsimp only
  split
  · rfl
  · refine if_pos ?_
    rcases h with h | h
    · exact .inr (.inr (.inl h))
    · exact .inr (.inl h)

theorem gives_replayStart_refused (hs : s.serves iss 2 0x0803 a)
    (h : s.log.replayFrom.isSome = true ∨ s.log.recording = true) :
    Gives (.replayStart iss t) s (fun u => u.log = s.log ∧ s.gave u iss 2 0x0803 a ST_MBX_ARG [] ∧ s.sameHif u
      ∧ Keeps [.time, .hif] s u) :=
  State.gives_answers (w := s.at t) exec_replayStart hs (replayStartWork_refused h) rfl
    fun h hgave hsame => ⟨rfl, hgave, hsame, Keeps.answered (.at (.refl _))⟩

/-- The logbook as the header of the ring gives it. -/
def Logbook.ofHeader (l : Logbook) (h : Nat) : Logbook :=
  { l with
    first := byteField h 0x20 8, nextRec := byteField h 0x28 8, lastMark := byteField h 0x30 8
    gaps := BitVec.ofNat 32 (byteField h 0x38 4), wrap := bit (byteField h 3 1) 0 }

/-- The state that replays the records `rs` of the ring with header `h` from record `n`. -/
def State.replays (s : State) (h n : Nat) (rs : List (Option Nat)) : State :=
  { s with log := { s.log.ofHeader h with
    replayFrom := some n, replayPos := n, held := false, points := replayPoints rs [] } }

theorem State.logRecord_of_head {n : Nat} {x : Option Nat} (h : (s.logRecords n).head? = some x) : s.logRecord n = x := by
  rw [State.logRecords] at h
  cases hk : s.log.nextRec - n with
  | zero =>
    rw [hk] at h
    cases h
  | succ k =>
    rw [hk, List.range_succ_eq_map, List.map_cons, List.head?_cons] at h
    exact Option.some.inj h

theorem State.logRecords_withLog {l l' : Logbook} (h : l.nextRec = l'.nextRec) (n : Nat) :
    ({ s with log := l } : State).logRecords n = ({ s with log := l' } : State).logRecords n := by
  simp only [State.logRecords, h]
  rfl

/-- No record is a gap where each can be read and is none. -/
theorem noGap {rs : List (Option Nat)}
    (h : rs.all (fun (r : Option Nat) => (r.map (fun x => recKind x != 5)).getD false) = true) :
    rs.any (fun (r : Option Nat) => (r.map (fun x => recKind x == 5)).getD true) = false := by
  simp only [List.all_eq_true, List.any_eq_false] at h ⊢
  intro r hr
  have hone := h r hr
  cases r with
  | none => cases hone
  | some x => simpa using hone

section

variable {bs : List Byte} {rs : List (Option Nat)} {m r : Nat} (hread : s.readMem (s.resv 6).1 64 = some bs)
  (hresv : (s.resv 6).2 ≠ 0) (hrec : s.log.recording = false) (hfrom : s.log.replayFrom = none)
  (hmagic : byteField (natOfBytes bs) 0 3 = 0x720801)

include hread hresv hrec hfrom hmagic

theorem replayStartWork_config
    (hconfig : byteField (natOfBytes bs) 0x18 8 ≠ s.mapSum ∨ byteField (natOfBytes bs) 0x10 8 ≠ s.configSum
      ∨ byteField (natOfBytes bs) 4 4 ≠ s.fwVer) :
    replayStartWork m s = (done ST_REPLAY_CONFIG, s) := by
  have hok : ¬((s.resv 6).2 = 0 ∨ s.log.recording = true ∨ s.replaying = true
      ∨ byteField (natOfBytes bs) 0 3 ≠ 0x720801) := by
    simp [State.replaying, hresv, hrec, hfrom, hmagic]
  simp only [replayStartWork, hread, if_neg hok, if_pos hconfig]

theorem replayStartWork_replays
    (hsum : byteField (natOfBytes bs) 0x18 8 = s.mapSum) (hcfg : byteField (natOfBytes bs) 0x10 8 = s.configSum)
    (hver : byteField (natOfBytes bs) 4 4 = s.fwVer)
    (hrs : ({ s with log := s.log.ofHeader (natOfBytes bs) } : State).logRecords (msgArg m 0) = rs)
    (hlo : byteField (natOfBytes bs) 0x20 8 ≤ msgArg m 0) (hhi : msgArg m 0 < byteField (natOfBytes bs) 0x28 8)
    (hgap : rs.all (fun r => (r.map (fun x => recKind x != 5)).getD false) = true) (hhead : rs.head? = some (some r))
    (hmark : recKind r = 4) (hstate : bit r 20 = true) :
    replayStartWork m s = (done 0, s.replays (natOfBytes bs) (msgArg m 0) rs) := by
  have hok : ¬((s.resv 6).2 = 0 ∨ s.log.recording = true ∨ s.replaying = true
      ∨ byteField (natOfBytes bs) 0 3 ≠ 0x720801) := by
    simp [State.replaying, hresv, hrec, hfrom, hmagic]
  have hconfig : ¬(byteField (natOfBytes bs) 0x18 8 ≠ s.mapSum ∨ byteField (natOfBytes bs) 0x10 8 ≠ s.configSum
      ∨ byteField (natOfBytes bs) 4 4 ≠ s.fwVer) := by
    simp [hsum, hcfg, hver]
  have hrec0 := State.logRecord_of_head (hrs ▸ hhead)
  have hgap' := noGap hgap
  subst hrs
  have hgood : ¬(msgArg m 0 < byteField (natOfBytes bs) 0x20 8 ∨ byteField (natOfBytes bs) 0x28 8 ≤ msgArg m 0
      ∨ (!((({ s with log := s.log.ofHeader (natOfBytes bs) } : State).logRecord (msgArg m 0)).map
          (fun r => recKind r == 4 && bit r 20)).getD false) = true
      ∨ (({ s with log := s.log.ofHeader (natOfBytes bs) } : State).logRecords (msgArg m 0)).any
          (fun (r : Option Nat) => (r.map (fun x => recKind x == 5)).getD true) = true) := by
    rw [hrec0, hgap']
    simp only [Option.map_some, hmark, hstate, Option.getD_some]
    simp
    omega
  simp only [replayStartWork, hread, if_neg hok, if_neg hconfig]
  exact if_neg hgood

end

theorem gives_replayStart {bs : List Byte} {rs : List (Option Nat)} {r : Nat} (hs : s.serves iss 2 0x0803 a)
    (hread : s.readMem (s.resv 6).1 64 = some bs) (hresv : (s.resv 6).2 ≠ 0) (hrec : s.log.recording = false)
    (hfrom : s.log.replayFrom = none) (hmagic : byteField (natOfBytes bs) 0 3 = 0x720801)
    (hrs : ({ s with log := { s.log with first := byteField (natOfBytes bs) 0x20 8, nextRec := byteField (natOfBytes bs) 0x28 8 } } : State).logRecords (msgArg a.msg.toNat 0) = rs)
    (hlo : byteField (natOfBytes bs) 0x20 8 ≤ msgArg a.msg.toNat 0)
    (hhi : msgArg a.msg.toNat 0 < byteField (natOfBytes bs) 0x28 8)
    (hgap : (rs.all (fun r => (r.map (fun x => recKind x != 5)).getD false)) = true) (hhead : rs.head? = some (some r))
    (hmark : recKind r = 4) (hstate : bit r 20 = true) :
    Gives (.replayStart iss t) s (fun u => ((byteField (natOfBytes bs) 0x18 8 = s.mapSum
      ∧ byteField (natOfBytes bs) 0x10 8 = s.configSum ∧ byteField (natOfBytes bs) 4 4 = s.fwVer) →
      s.gave u iss 2 0x0803 a 0 [] ∧ u.log.replayFrom = some (msgArg a.msg.toNat 0) ∧ u.log.held = false
      ∧ u.log.nextRec = byteField (natOfBytes bs) 0x28 8 ∧ u.log.points = replayPoints rs [])
      ∧ ((byteField (natOfBytes bs) 0x18 8 ≠ s.mapSum ∨ byteField (natOfBytes bs) 0x10 8 ≠ s.configSum ∨ byteField (natOfBytes bs) 4 4 ≠ s.fwVer)
      → s.gave u iss 2 0x0803 a ST_REPLAY_CONFIG [] ∧ u.log = s.log) ∧ s.sameHif u
      ∧ Keeps [.time, .hif, .log] s u) := by
  by_cases hconfig : byteField (natOfBytes bs) 0x18 8 ≠ s.mapSum ∨ byteField (natOfBytes bs) 0x10 8 ≠ s.configSum
      ∨ byteField (natOfBytes bs) 4 4 ≠ s.fwVer
  · refine State.gives_answers (w := s.at t) exec_replayStart hs
      (replayStartWork_config (s := s.at t) hread hresv hrec hfrom hmagic hconfig) rfl fun h hgave hsame =>
      ⟨fun ⟨hsum, hcfg, hver⟩ => ?_, fun _ => ⟨hgave, rfl⟩, hsame, Keeps.answered (.at (.refl _))⟩
    rcases hconfig with h | h | h
    · exact absurd hsum h
    · exact absurd hcfg h
    · exact absurd hver h
  · have hconfig' := hconfig
    simp only [not_or, ne_eq, Decidable.not_not] at hconfig'
    obtain ⟨hsum, hcfg, hver⟩ := hconfig'
    have hrs' : ({ s.at t with log := (s.at t).log.ofHeader (natOfBytes bs) } : State).logRecords
        (msgArg a.msg.toNat 0) = rs := by
      rw [← hrs]
      exact State.logRecords_withLog (s := s.at t) rfl _
    exact State.gives_answers exec_replayStart hs
      (replayStartWork_replays (s := s.at t) hread hresv hrec hfrom hmagic hsum hcfg hver hrs' hlo hhi hgap hhead
        hmark hstate) rfl fun h hgave hsame =>
      ⟨fun _ => ⟨hgave, rfl, rfl, rfl, rfl⟩, fun h => absurd h hconfig, hsame, Keeps.answered (.withLog (.at (.refl _)))⟩

/-- What REPLAY_STOP does once it is served. -/
def replayStopWork (_ : Nat) (s : State) : Reply × State :=
  if s.replaying then (done 0, if s.log.held then s else s.replayEnd) else (done ST_MBX_ARG, s)

theorem exec_replayStop : exec (.replayStop iss t) s = State.serveNow iss 0x0804 t replayStopWork s := rfl

theorem State.replayEnd_disables : (s.replayEnd.graph.queues.all (fun q => !q.2.enabled)) = true := by
  rw [State.replayEnd]
  simp [State.updLog, Table.mapV]

theorem State.replayEnd_raises : s.raised s.replayEnd [ST_REPLAY_END] :=
  State.raised_raise (s := { s with graph := { s.graph with
    queues := Table.mapV s.graph.queues (fun _ (q : HwQueue) => { q with enabled := false }) } }) (by decide)

theorem gives_replayStop (hs : s.serves iss 2 0x0804 a) (hf : s.log.replayFrom.isSome = true) (hh : s.log.held = false) :
    Gives (.replayStop iss t) s (fun u => u.log = { s.log with held := true, replayPos := s.log.nextRec }
      ∧ (u.graph.queues.all (fun q => !q.2.enabled)) = true ∧ u.graph.graphs = s.graph.graphs
      ∧ u.graph.entries = s.graph.entries ∧ s.raised u [ST_REPLAY_END] ∧ s.gave u iss 2 0x0804 a 0 []
      ∧ s.sameHif u ∧ Keeps [.time, .events, .trace, .hif, .log, .graph] s u) := by
  have hwork : replayStopWork a.msg.toNat (s.at t) = (some (0, []), (s.at t).replayEnd) := by
    rw [replayStopWork, show (s.at t).replaying = true from hf, show (s.at t).log.held = false from hh]
    rfl
  have hkeeps : Keeps [.time, .events, .trace, .hif, .log, .graph] s (s.at t).replayEnd :=
    .withLog (.raise (.withGraph (.at (.refl _))))
  exact State.gives_answers exec_replayStop hs hwork rfl fun h hgave hsame =>
    ⟨rfl, (s.at t).replayEnd_disables, rfl, rfl, (s.at t).replayEnd_raises, hgave, hsame, hkeeps.answered⟩

theorem gives_replayStop_refused (hs : s.serves iss 2 0x0804 a) (hf : s.log.replayFrom = none) :
    Gives (.replayStop iss t) s (fun u => u.log = s.log ∧ u.graph = s.graph ∧ s.gave u iss 2 0x0804 a ST_MBX_ARG []
      ∧ s.sameHif u ∧ Keeps [.time, .hif] s u) := by
  have hwork : replayStopWork a.msg.toNat (s.at t) = (done ST_MBX_ARG, s.at t) := by
    rw [replayStopWork, State.replaying, show (s.at t).log.replayFrom = none from hf]
    rfl
  exact State.gives_answers exec_replayStop hs hwork rfl fun h hgave hsame =>
    ⟨rfl, rfl, hgave, hsame, Keeps.answered (.at (.refl _))⟩

/-! ### The trace units -/

/-- The state with other trace units. -/
def State.withUnits (s : State) (us : Table TraceUnit) : State := { s with trace := { s.trace with units := us } }

/-- Setting the first units one after another sets each by what it was. -/
theorem State.foldl_setUnit (f : Nat → TraceUnit → TraceUnit) (n : Nat) :
    ∃ us, (List.range n).foldl (fun s q => s.setUnit q (f q (s.unit q))) s = s.withUnits us
      ∧ ∀ k, (s.withUnits us).unit k = if k < n then f k (s.unit k) else s.unit k := by
  induction n with
  | zero => exact ⟨s.trace.units, rfl, fun k => rfl⟩
  | succ n ih =>
    obtain ⟨us, hus, hunit⟩ := ih
    refine ⟨Table.put us n (f n ((s.withUnits us).unit n)), ?_, fun k => ?_⟩
    · rw [List.range_succ, List.foldl_append, hus]
      rfl
    · by_cases hk : k = n
      · subst hk
        rw [if_pos (Nat.lt_succ_self k)]
        refine ((s.withUnits us).unit_setUnit k _).trans ?_
        rw [hunit, if_neg (Nat.lt_irrefl k)]
      · refine (State.unit_setUnit_ne (s := s.withUnits us) _ hk).trans ((hunit k).trans ?_)
        simp only [Nat.lt_succ_iff, Nat.le_iff_lt_or_eq, hk, or_false]

/-- What TRC_CFG makes of unit `k`. -/
def TraceUnit.configured (qmask mode k : Nat) (x : TraceUnit) : TraceUnit :=
  if k < 64 then { x with en := bit qmask k, mode := BitVec.ofNat 3 mode }
  else { x with en := bit mode 3, mode := BitVec.ofNat 3 (mode % 4) }

theorem State.traceConfig_units (qmask mode : Nat) :
    ∃ us, s.traceConfig qmask mode = s.withUnits us
      ∧ ∀ k, k < 65 → (s.withUnits us).unit k = (s.unit k).configured qmask mode k := by
  obtain ⟨us, hus, hunit⟩ := State.foldl_setUnit (s := s)
    (fun q x => { x with en := bit qmask q, mode := BitVec.ofNat 3 (mode % 8) }) 64
  have hmode : BitVec.ofNat 3 (mode % 8) = BitVec.ofNat 3 mode :=
    BitVec.eq_of_toNat_eq (by simp only [BitVec.toNat_ofNat]; omega)
  refine ⟨Table.put us 64 { (s.withUnits us).unit 64 with en := bit mode 3, mode := BitVec.ofNat 3 (mode % 4) }, ?_,
    fun k hk => ?_⟩
  · rw [State.traceConfig, hus]
    rfl
  · by_cases h64 : k = 64
    · subst h64
      refine ((s.withUnits us).unit_setUnit 64 _).trans ?_
      rw [hunit, if_neg (by decide)]
      rfl
    · have hlt : k < 64 := by omega
      refine (State.unit_setUnit_ne (s := s.withUnits us) _ h64).trans ((hunit k).trans ?_)
      rw [if_pos hlt, TraceUnit.configured, if_pos hlt, hmode]

/-- The units as TRC_CFG makes them, said of each. -/
theorem configured_all {u : State} {qmask mode : Nat} (h : ∀ k, k < 65 → u.unit k = (s.unit k).configured qmask mode k) :
    ((List.range 65).all (fun k => decide (u.unit k = if k < 64 then { s.unit k with en := bit qmask k, mode := BitVec.ofNat 3 mode } else { s.unit 64 with en := bit mode 3, mode := BitVec.ofNat 3 (mode % 4) }))) = true := by
  simp only [List.all_eq_true, List.mem_range, decide_eq_true_eq]
  intro k hk
  rw [h k hk, TraceUnit.configured]
  split
  · rfl
  · rw [show k = 64 by omega]

theorem trcCfgWork_configures {b : Bool} {m : Nat} (hform : bits (msgArg m 1) 4 3 = 0)
    (hsink : s.trace.sinkPages ≠ 0 ∨ (msgArg m 0 = 0 ∧ bit (msgArg m 1) 3 = false)) :
    trcCfgWork b m s = (done 0, if bit (msgArg m 1) 7 then (s.traceConfig (msgArg m 0) (msgArg m 1)).snapshot
      else s.traceConfig (msgArg m 0) (msgArg m 1)) := by
  have hset : ¬((msgArg m 0 ≠ 0 ∨ bit (msgArg m 1) 3 = true) ∧ (!s.sinkSet) = true) := by
    rintro ⟨hneed, hnone⟩
    rcases hsink with hsink | ⟨h0, h3⟩
    · exact hsink (by simpa [State.sinkSet] using hnone)
    · simp [h0, h3] at hneed
  simp only [trcCfgWork, ne_eq, hform, not_true_eq_false, if_false]
  exact if_neg hset

theorem trcCfgWork_noSink {b : Bool} {m : Nat} (hform : bits (msgArg m 1) 4 3 = 0) (hsink : s.trace.sinkPages = 0)
    (hneed : msgArg m 0 ≠ 0 ∨ bit (msgArg m 1) 3 = true) : trcCfgWork b m s = (done ST_TRC_NO_SINK, s) := by
  have hset : (msgArg m 0 ≠ 0 ∨ bit (msgArg m 1) 3 = true) ∧ (!s.sinkSet) = true :=
    ⟨hneed, by simp [State.sinkSet, hsink]⟩
  simp only [trcCfgWork, ne_eq, hform, not_true_eq_false, if_false]
  exact if_pos hset

theorem exec_trcCfg (hs : s.serves iss 2 0x0B00 a) (h7 : bit (msgArg a.msg.toNat 1) 7 = false) :
    exec (.trcCfg iss t) s = State.serve iss 0x0B00 t trcCfgWork s :=
  State.serveIf_form (form := fun m => !bit (msgArg m 1) 7) rfl hs (by rw [h7]; rfl)

theorem exec_counterSnapshot (hs : s.serves iss 2 0x0B00 a) (h7 : bit (msgArg a.msg.toNat 1) 7 = true) :
    exec (.counterSnapshot iss t) s = State.serve iss 0x0B00 t trcCfgWork s :=
  State.serveIf_form (form := fun m => bit (msgArg m 1) 7) rfl hs h7

theorem gives_trcCfg (hs : s.serves iss 2 0x0B00 a) (hform : bits (msgArg a.msg.toNat 1) 4 3 = 0)
    (h7 : bit (msgArg a.msg.toNat 1) 7 = false)
    (hsink : s.trace.sinkPages ≠ 0 ∨ (msgArg a.msg.toNat 0 = 0 ∧ bit (msgArg a.msg.toNat 1) 3 = false)) :
    Gives (.trcCfg iss t) s (fun u => ((List.range 65).all (fun k => decide (u.unit k = if k < 64 then { s.unit k with en := bit (msgArg a.msg.toNat 0) k, mode := BitVec.ofNat 3 (msgArg a.msg.toNat 1) } else { s.unit 64 with en := bit (msgArg a.msg.toNat 1) 3, mode := BitVec.ofNat 3 ((msgArg a.msg.toNat 1) % 4) }))) = true
      ∧ u.trace.sinkAddr = s.trace.sinkAddr ∧ u.trace.sinkPages = s.trace.sinkPages
      ∧ u.trace.quayCnt = s.trace.quayCnt ∧ u.trace.tenCnt = s.trace.tenCnt ∧ u.trace.modCnt = s.trace.modCnt
      ∧ u.trace.quayShadow = s.trace.quayShadow ∧ u.trace.modShadow = s.trace.modShadow
      ∧ u.trace.tenShadow = s.trace.tenShadow ∧ u.trace.snapTime = s.trace.snapTime
      ∧ u.trace.snapSeq = s.trace.snapSeq ∧ s.gave u iss 2 0x0B00 a 0 [] ∧ s.sameHif u
      ∧ Keeps [.time, .free, .trace, .hif] s u) := by
  obtain ⟨us, hus, hunit⟩ := (s.at t).traceConfig_units (msgArg a.msg.toNat 0) (msgArg a.msg.toNat 1)
  have hwork := trcCfgWork_configures (s := s.at t) (b := a.started) hform hsink
  rw [h7, hus] at hwork
  exact State.gives_answers (exec_trcCfg hs h7) hs hwork rfl fun h hgave hsame =>
    ⟨configured_all hunit, rfl, rfl, rfl, rfl, rfl, rfl, rfl, rfl, rfl, rfl, hgave, hsame,
      Keeps.answered (.withTrace (.at (.refl _)))⟩

theorem gives_trcCfg_noSink (hs : s.serves iss 2 0x0B00 a) (hform : bits (msgArg a.msg.toNat 1) 4 3 = 0)
    (h7 : bit (msgArg a.msg.toNat 1) 7 = false) (hsink : s.trace.sinkPages = 0)
    (hneed : msgArg a.msg.toNat 0 ≠ 0 ∨ bit (msgArg a.msg.toNat 1) 3 = true) :
    Gives (.trcCfg iss t) s (fun u => u.trace = s.trace ∧ s.gave u iss 2 0x0B00 a ST_TRC_NO_SINK [] ∧ s.sameHif u
      ∧ Keeps [.time, .free, .hif] s u) :=
  State.gives_answers (exec_trcCfg hs h7) hs (trcCfgWork_noSink (s := s.at t) hform hsink hneed) rfl
    fun h hgave hsame => ⟨rfl, hgave, hsame, Keeps.answered (.at (.refl _))⟩

theorem gives_counterSnapshot (hs : s.serves iss 2 0x0B00 a) (hform : bits (msgArg a.msg.toNat 1) 4 3 = 0)
    (h7 : bit (msgArg a.msg.toNat 1) 7 = true)
    (hsink : s.trace.sinkPages ≠ 0 ∨ (msgArg a.msg.toNat 0 = 0 ∧ bit (msgArg a.msg.toNat 1) 3 = false)) :
    Gives (.counterSnapshot iss t) s (fun u => ((List.range 65).all (fun k => decide (u.unit k = if k < 64 then { s.unit k with en := bit (msgArg a.msg.toNat 0) k, mode := BitVec.ofNat 3 (msgArg a.msg.toNat 1) } else { s.unit 64 with en := bit (msgArg a.msg.toNat 1) 3, mode := BitVec.ofNat 3 ((msgArg a.msg.toNat 1) % 4) }))) = true
      ∧ u.trace.sinkAddr = s.trace.sinkAddr ∧ u.trace.sinkPages = s.trace.sinkPages
      ∧ u.trace.quayShadow = s.trace.quayCnt ∧ u.trace.modShadow = s.trace.modCnt
      ∧ u.trace.tenShadow = s.trace.tenCnt ∧ u.trace.snapTime = BitVec.ofNat 64 u.time
      ∧ u.trace.snapSeq = s.trace.snapSeq + 1 ∧ u.trace.quayCnt = s.trace.quayCnt
      ∧ u.trace.tenCnt = s.trace.tenCnt ∧ s.gave u iss 2 0x0B00 a 0 [] ∧ s.sameHif u
      ∧ Keeps [.time, .free, .trace, .hif] s u) := by
  obtain ⟨us, hus, hunit⟩ := (s.at t).traceConfig_units (msgArg a.msg.toNat 0) (msgArg a.msg.toNat 1)
  have hwork := trcCfgWork_configures (s := s.at t) (b := a.started) hform hsink
  rw [h7, hus] at hwork
  exact State.gives_answers (exec_counterSnapshot hs h7) hs hwork rfl fun h hgave hsame =>
    ⟨configured_all hunit, rfl, rfl, rfl, rfl, rfl, rfl, rfl, rfl, rfl, hgave, hsame,
      Keeps.answered (.withTrace (.withTrace (.withFree (.withTrace (.at (.refl _))))))⟩

/-- Where TRC_SINK puts the part of unit `k` of a sink at `b` whose parts hold `part` bytes. -/
def TraceUnit.sunk (b part k : Nat) (x : TraceUnit) : TraceUnit :=
  { x with partBase := BitVec.ofNat 48 (b + k * part), partRecs := BitVec.ofNat 32 (part / 32) }

/-- What TRC_SINK does once it is served. -/
def trcSinkWork (m : Nat) (s : State) : Reply × State :=
  let b := msgArg m 0
  let n := msgArg m 1
  if s.traceOn then (done ST_TRC_ACTIVE, s)
  else if !s.sinkOk b n then (done ST_TRC_SINK_FMT, s)
  else
    let s := s.updTrace (fun t => { t with sinkAddr := BitVec.ofNat 48 b, sinkPages := BitVec.ofNat 32 (n / 4096) })
    (done 0, (List.range 65).foldl (fun s u => s.setUnit u ((s.unit u).sunk b (n / 266240 * 4096) u)) s)

theorem exec_trcSink : exec (.trcSink iss t) s = State.serveNow iss 0x0B01 t trcSinkWork s := rfl

theorem State.sinkOk_of {b n : Nat} (h0 : b % 4096 = 0) (h1 : n % 4096 = 0) (hlo : 266240 ≤ n) (hhi : n ≤ 2 ^ 36)
    (htier : b + n ≤ s.t1Top ∨ tier2Base ≤ b ∧ b + n ≤ s.t2Top) (hresv : s.resvHit b n = []) :
    s.sinkOk b n = true := by
  simp only [State.sinkOk, h0, h1, hlo, hhi, hresv, List.isEmpty_nil, decide_true, beq_self_eq_true, Bool.and_self,
    Bool.true_and, Bool.and_true, Bool.or_eq_true, Bool.and_eq_true, decide_eq_true_eq]
  exact htier

theorem State.traceOn_of_unit {k : Nat} (hk : k < 65) (h : (s.unit k).en = true) : s.traceOn = true := by
  simp only [State.traceOn, List.any_eq_true, List.mem_range]
  exact ⟨k, hk, h⟩

theorem State.traceOn_eq_false (h : ((List.range 65).all (fun k => !(s.unit k).en)) = true) : s.traceOn = false := by
  simp only [State.traceOn, List.any_eq_false, List.all_eq_true, Bool.not_eq_true'] at h ⊢
  exact fun k hk => by rw [h k hk]; decide

theorem gives_trcSink (hs : s.serves iss 2 0x0B01 a) (hoff : ((List.range 65).all (fun k => !(s.unit k).en)) = true)
    (h0 : msgArg a.msg.toNat 0 % 4096 = 0) (h1 : msgArg a.msg.toNat 1 % 4096 = 0)
    (hlo : 266240 ≤ msgArg a.msg.toNat 1) (hhi : msgArg a.msg.toNat 1 ≤ 2 ^ 36)
    (htier : msgArg a.msg.toNat 0 + msgArg a.msg.toNat 1 ≤ s.t1Top ∨ (tier2Base ≤ msgArg a.msg.toNat 0
      ∧ msgArg a.msg.toNat 0 + msgArg a.msg.toNat 1 ≤ s.t2Top))
    (hresv : s.resvHit (msgArg a.msg.toNat 0) (msgArg a.msg.toNat 1) = []) :
    Gives (.trcSink iss t) s (fun u => u.trace.sinkAddr = BitVec.ofNat 48 (msgArg a.msg.toNat 0)
      ∧ u.trace.sinkPages = BitVec.ofNat 32 ((msgArg a.msg.toNat 1) / 4096)
      ∧ ((List.range 65).all (fun k => decide (u.unit k = { s.unit k with partBase := BitVec.ofNat 48 ((msgArg a.msg.toNat 0) + k * ((msgArg a.msg.toNat 1) / 266240 * 4096)), partRecs := BitVec.ofNat 32 ((msgArg a.msg.toNat 1) / 266240 * 4096 / 32) }))) = true
      ∧ u.trace.quayCnt = s.trace.quayCnt ∧ u.trace.tenCnt = s.trace.tenCnt ∧ u.trace.modCnt = s.trace.modCnt
      ∧ u.trace.quayShadow = s.trace.quayShadow ∧ u.trace.modShadow = s.trace.modShadow
      ∧ u.trace.tenShadow = s.trace.tenShadow ∧ u.trace.snapTime = s.trace.snapTime
      ∧ u.trace.snapSeq = s.trace.snapSeq ∧ s.gave u iss 2 0x0B01 a 0 [] ∧ s.sameHif u
      ∧ Keeps [.time, .trace, .hif] s u) := by
  generalize hb : msgArg a.msg.toNat 0 = b at *
  generalize hn : msgArg a.msg.toNat 1 = n at *
  let y := (s.at t).updTrace (fun t => { t with sinkAddr := BitVec.ofNat 48 b, sinkPages := BitVec.ofNat 32 (n / 4096) })
  obtain ⟨us, hus, hunit⟩ := State.foldl_setUnit (s := y) (fun k x => x.sunk b (n / 266240 * 4096) k) 65
  have hok : (s.at t).sinkOk b n = true := State.sinkOk_of (s := s.at t) h0 h1 hlo hhi htier hresv
  have hwork : trcSinkWork a.msg.toNat (s.at t) = (done 0, y.withUnits us) := by
    rw [← hus]
    simp only [trcSinkWork, hb, hn, (s.at t).traceOn_eq_false hoff, hok, Bool.not_true, Bool.false_eq_true, if_false]
    rfl
  have hall : ((List.range 65).all (fun k => decide ((y.withUnits us).unit k = { s.unit k with partBase := BitVec.ofNat 48 (b + k * (n / 266240 * 4096)), partRecs := BitVec.ofNat 32 (n / 266240 * 4096 / 32) }))) = true := by
    simp only [List.all_eq_true, List.mem_range, decide_eq_true_eq]
    intro k hk
    rw [hunit, if_pos hk]
    rfl
  exact State.gives_answers exec_trcSink hs hwork rfl fun h hgave hsame =>
    ⟨rfl, rfl, hall, rfl, rfl, rfl, rfl, rfl, rfl, rfl, rfl, hgave, hsame,
      Keeps.answered (.withTrace (.withTrace (.at (.refl _))))⟩

theorem gives_trcSink_active {k : Nat} (hs : s.serves iss 2 0x0B01 a) (hen : (s.unit k).en = true) (hk : k < 65) :
    Gives (.trcSink iss t) s (fun u => u.trace = s.trace ∧ s.gave u iss 2 0x0B01 a ST_TRC_ACTIVE [] ∧ s.sameHif u
      ∧ Keeps [.time, .hif] s u) :=
  State.gives_answers exec_trcSink hs (if_pos ((s.at t).traceOn_of_unit hk hen)) rfl
    fun h hgave hsame => ⟨rfl, hgave, hsame, Keeps.answered (.at (.refl _))⟩

end

/-- Settles O53, command by command: each is served by its work, and what the work leaves is what the clause says. -/
theorem recordCommands : Obligations.RecordCommands := by
  unfold Obligations.RecordCommands
  refine ⟨?_, ?_, ?_, ?_, ?_, ?_, ?_, ?_, ?_, ?_, ?_, ?_, ?_, ?_, ?_, ?_⟩
  · intro s iss t a hs hm h0 h1 hr hf
    exact gives_logStart hs hm h0 h1 (.inl rfl) hr hf
  · intro s iss t a hs hm h0 h1 hr hf hrt _ _
    exact (gives_logStart hs hm h0 h1 (.inr ⟨rfl, hrt⟩) hr hf).imp fun u ⟨hlog, hbegan, hsame, hkeeps⟩ =>
      ⟨hlog, hbegan, hsame, hkeeps.mono (by decide)⟩
  · intro s iss t a hs hm hbad
    exact gives_logStart_refused hs hm hbad
  · intro s iss t a hs hm h0 hr
    exact gives_logMark hs hm h0 hr
  · intro s iss t a hs hm hr
    exact gives_logMark_refused hs hm hr
  · intro s iss t a hs hr hp
    exact gives_logStop hs hr hp
  · intro s iss t a hs hr
    exact gives_logStop_off hs hr
  · intro s iss t a bs rs r hs hread hresv hrec hfrom hmagic hrs hlo hhi hgap hhead hmark hstate
    exact gives_replayStart hs hread hresv hrec hfrom hmagic hrs hlo hhi hgap hhead hmark hstate
  · intro s iss t a hs hbad
    exact gives_replayStart_refused hs hbad
  · intro s iss t a hs hf hh
    exact gives_replayStop hs hf hh
  · intro s iss t a hs hf
    exact gives_replayStop_refused hs hf
  · intro s iss t a hs hform h7 hsink
    exact gives_trcCfg hs hform h7 hsink
  · intro s iss t a hs hform h7 hsink hneed
    exact gives_trcCfg_noSink hs hform h7 hsink hneed
  · intro s iss t a hs hform h7 hsink
    exact gives_counterSnapshot hs hform h7 hsink
  · intro s iss t a hs hoff h0 h1 hlo hhi htier hresv
    exact gives_trcSink hs hoff h0 h1 hlo hhi htier hresv
  · intro s iss t a k hs hen hk
    exact gives_trcSink_active hs hen hk

end Sys2Proof.Machine

/-! The I3C sideband (23 R687 to R694). -/

namespace Sys2Proof.Machine

set_option Elab.async false

section

variable {s : State} {bs : List Byte} {t v b : Nat}

theorem State.i3cOn_of (hv : s.bring.vaux = true) (ha : s.i3c.addr.isSome = true) : s.i3cOn = true := by
  rw [State.i3cOn, hv, ha]
  rfl

theorem State.i3cOn_of_none (ha : s.i3c.addr = none) : s.i3cOn = false := by
  rw [State.i3cOn, ha, Option.isSome_none, Bool.and_false]

theorem State.i3cOn_at : (s.at t).i3cOn = s.i3cOn := rfl

/-- What an I3C transfer of a bad form leaves. -/
abbrev State.i3cRefused (s u : State) (e : Status) : Prop :=
  u.i3c = { s.i3c with mailbox := false, regStatus := e, regValue := 0 } ∧ Keeps [.time, .i3c] s u

theorem State.i3cRefused_result (e : Status) : s.i3cRefused ((s.at t).i3cResult e 0) e :=
  ⟨rfl, .withI3c (.at (.refl s))⟩

/-- A register result replaces the result of a read, and leaves the rest of the target as it was. -/
theorem State.i3cResult_rest {w : State} {e : Status} {x : Word} (h : w.i3c = s.i3c) :
    (w.i3cResult e x).i3c.addr = s.i3c.addr ∧ (w.i3cResult e x).i3c.mwl = s.i3c.mwl
    ∧ (w.i3cResult e x).i3c.mrl = s.i3c.mrl ∧ (w.i3cResult e x).i3c.ibiOn = s.i3c.ibiOn
    ∧ (w.i3cResult e x).i3c.mbxState = s.i3c.mbxState ∧ (w.i3cResult e x).i3c.rsp = s.i3c.rsp := by
  rw [← h]
  exact ⟨rfl, rfl, rfl, rfl, rfl, rfl⟩

/-! ### Mailbox requests -/

/-- The form of a mailbox request: 16 to 256 bytes, as many as its LEN says. -/
abbrev i3cFormBad (bs : List Byte) : Prop :=
  bs.length < 16 ∨ 256 < bs.length ∨ bs.length ≠ 8 * byteField (natOfBytes bs) 1 1

section

variable (hon : s.i3cOn = true) (hidle : s.i3c.mbxState ≠ 1)

include hon hidle

theorem State.i3cFree : (!(s.at t).i3cOn || (s.at t).i3c.mbxState == 1) = false := by
  rw [State.i3cOn_at, hon, Bool.not_true, Bool.false_or]
  exact beq_eq_false_iff_ne.mpr hidle

theorem execI3cMbxReq_form (hbad : i3cFormBad bs) : execI3cMbxReq bs t s = .next ((s.at t).i3cResult ST_I3C_FMT 0) := by
  simp only [execI3cMbxReq, State.i3cFree hon hidle, Bool.false_eq_true, if_false, if_pos hbad]

/-- The answer of the target itself while the rails are off. -/
def State.i3cNoMain (s : State) (bs : List Byte) : State :=
  s.updI3c (fun i =>
    { i with mailbox := true, mbxState := 2, ibiRsp := i.ibiRsp || i.ibiOn
             rsp := BitVec.ofNat 2048 (response (natOfBytes bs) ST_I3C_NO_MAIN 0 [] []) })

/-- The target with a request under way. -/
def State.i3cBusy (s : State) : State := s.updI3c (fun i => { i with mailbox := true, mbxState := 1 })

theorem execI3cMbxReq_noMain (hform : ¬i3cFormBad bs) (hmain : s.bring.wakeStep ≠ 8) :
    execI3cMbxReq bs t s = .next ((s.at t).i3cNoMain bs) := by
  have hup : (s.at t).mainUp = false := beq_eq_false_iff_ne.mpr hmain
  simp only [execI3cMbxReq, State.i3cFree hon hidle, Bool.false_eq_true, if_false, if_neg hform, hup, Bool.not_false,
    if_true]
  rfl

theorem execI3cMbxReq_submits (hform : ¬i3cFormBad bs) (hmain : s.bring.wakeStep = 8) (hlog : s.logging = false) :
    execI3cMbxReq bs t s = .next ((s.at t).i3cBusy.submit .i3c (natOfBytes bs)) := by
  have hup : (s.at t).mainUp = true := beq_iff_eq.mpr hmain
  have hlog' : (s.at t).logging = false := hlog
  simp only [execI3cMbxReq, State.i3cFree hon hidle, Bool.false_eq_true, if_false, if_neg hform, hup, Bool.not_true,
    State.logArb_off _ _ _ hlog']
  rfl

end

theorem State.msgCheck_i3cBusy {iss : Issuer} {m : Nat} : s.i3cBusy.msgCheck iss m = s.msgCheck iss m := rfl

theorem State.submit_refused {iss : Issuer} {m : Nat} {e : Status} (h : s.msgCheck iss m = some e) :
    s.submit iss m = s.answer iss (response m e 0 [] []) := by
  rw [State.submit, h]

theorem State.submit_admitted {iss : Issuer} {m : Nat} {c : Cmd} (h : s.msgCheck iss m = none)
    (hc : cmdOf (msgCode m) = some c) : s.submit iss m = s.admitReq iss c.core m := by
  rw [State.submit, h, hc]

theorem gives_i3cMbxReq_form (hv : s.bring.vaux = true) (ha : s.i3c.addr.isSome = true) (hidle : s.i3c.mbxState ≠ 1)
    (hbad : i3cFormBad bs) : Gives (.i3cMbxReq bs t) s (fun u => s.i3cRefused u ST_I3C_FMT) :=
  ⟨_, execI3cMbxReq_form (State.i3cOn_of hv ha) hidle hbad, State.i3cRefused_result _⟩

theorem i3cForm_good (hlo : 16 ≤ bs.length) (hhi : bs.length ≤ 256)
    (hlen : bs.length = 8 * byteField (natOfBytes bs) 1 1) : ¬i3cFormBad bs := by
  rintro (h | h | h)
  · omega
  · omega
  · exact h hlen

theorem gives_i3cMbxReq_noMain (hv : s.bring.vaux = true) (ha : s.i3c.addr.isSome = true) (hidle : s.i3c.mbxState ≠ 1)
    (hform : ¬i3cFormBad bs) (hmain : s.bring.wakeStep ≠ 8) :
    Gives (.i3cMbxReq bs t) s (fun u => u.i3c = { s.i3c with mailbox := true, mbxState := 2, ibiRsp := s.i3c.ibiRsp || s.i3c.ibiOn, rsp := BitVec.ofNat 2048 (response (natOfBytes bs) ST_I3C_NO_MAIN 0 [] []) }
      ∧ Keeps [.time, .i3c] s u) :=
  ⟨_, execI3cMbxReq_noMain (State.i3cOn_of hv ha) hidle hform hmain, rfl, .withI3c (.at (.refl s))⟩

theorem gives_i3cMbxReq_refused {e : Status} (hv : s.bring.vaux = true) (ha : s.i3c.addr.isSome = true)
    (hidle : s.i3c.mbxState ≠ 1) (hform : ¬i3cFormBad bs) (hmain : s.bring.wakeStep = 8) (hlog : s.logging = false)
    (hcheck : (s.at t).msgCheck .i3c (natOfBytes bs) = some e) :
    Gives (.i3cMbxReq bs t) s (fun u => u.i3c = { s.i3c with mailbox := true, mbxState := 1 }
      ∧ u.hif.answers = s.hif.answers ++ [{ issuer := .i3c, msg := BitVec.ofNat 2048 (response (natOfBytes bs) e 0 [] []) }]
      ∧ u.hif.funcs = s.hif.funcs ∧ Keeps [.time, .hif, .i3c] s u) := by
  have hexec := execI3cMbxReq_submits (t := t) (State.i3cOn_of hv ha) hidle hform hmain hlog
  rw [State.submit_refused (State.msgCheck_i3cBusy.trans hcheck)] at hexec
  exact ⟨_, hexec, rfl, rfl, rfl, .withHif (.withI3c (.at (.refl s)))⟩

/-- Where nobody waits no place is given out. -/
theorem CoreQueue.distribute_noRing {q : CoreQueue} (hr : q.ring = []) : q.distribute = q := by
  have horder : q.order q.waiting = [] := by
    simp [CoreQueue.waiting, CoreQueue.order, hr]
  have hstep : ∀ n, iter (fun (q : CoreQueue) =>
      match q.order q.waiting with
      | [] => q
      | f :: _ =>
        if q.free = 0 then q
        else { q with ring := q.ring.map (fun e => if e.func = f then { e with held := true } else e)
                      lastPf := f == 0, lastVf := if f = 0 then q.lastVf else f }) n q = q := by
    intro n
    induction n with
    | zero => rfl
    | succ n ih => simp only [iter, horder, ih]
  exact hstep 32

/-- A request for a core whose queue and ring are empty enters its queue. -/
theorem State.admitReq_first {m : Nat} (hq : s.hif.secq.queue = []) (hr : s.hif.secq.ring = []) :
    s.admitReq .i3c 0 m = s.setCoreQ 0 { s.hif.secq with
      queue := [{ issuer := .i3c, msg := BitVec.ofNat 2048 m, at_ := s.time, started := false, mute := false, lost := false }] } := by
  have hcore : (s.coreQ 0).distribute = s.hif.secq := CoreQueue.distribute_noRing hr
  have hfree : s.hif.secq.free ≠ 0 := by simp [CoreQueue.free, hq, hr]
  simp only [State.admitReq, hcore, Admitted.isPeer, Bool.false_eq_true, if_false, hq, hr, List.any_nil, List.nil_append,
    List.filter_nil, if_pos hfree]

theorem gives_i3cMbxReq_admitted (hv : s.bring.vaux = true) (ha : s.i3c.addr.isSome = true)
    (hidle : s.i3c.mbxState ≠ 1) (hlen : bs.length = 16) (hform : ¬i3cFormBad bs) (hmain : s.bring.wakeStep = 8)
    (hlog : s.logging = false) (hcheck : (s.at t).msgCheck .i3c (natOfBytes bs) = none)
    (hcode : msgCode (natOfBytes bs) = 1) (hq : s.hif.secq.queue = []) (hr : s.hif.secq.ring = []) :
    Gives (.i3cMbxReq bs t) s (fun u => u.i3c = { s.i3c with mailbox := true, mbxState := 1 }
      ∧ u.hif.secq.queue.map (fun a => (a.issuer, a.msg.toNat)) = [(Issuer.i3c, natOfBytes bs)]
      ∧ u.hif.answers = s.hif.answers ∧ u.hif.funcs = s.hif.funcs ∧ Keeps [.time, .hif, .i3c] s u) := by
  have hexec := execI3cMbxReq_submits (t := t) (State.i3cOn_of hv ha) hidle hform hmain hlog
  have hcmd : cmdOf (msgCode (natOfBytes bs)) = some ⟨0, 0, true, 100, [], [1, 1, 1, 1, 1, 2, 8, 4, 4]⟩ := by
    rw [hcode]
    rfl
  rw [State.submit_admitted (State.msgCheck_i3cBusy.trans hcheck) hcmd,
    State.admitReq_first (s := (s.at t).i3cBusy) hq hr] at hexec
  have hsmall : natOfBytes bs < 2 ^ 2048 := Nat.lt_of_lt_of_le (natOfBytes_lt bs) (by
    rw [hlen, show (256 : Nat) = 2 ^ 8 from rfl, ← Nat.pow_mul]
    exact Nat.pow_le_pow_right (by decide) (by decide))
  refine ⟨_, hexec, rfl, ?_, rfl, rfl, .withHif (.withI3c (.at (.refl s)))⟩
  show [(Issuer.i3c, (BitVec.ofNat 2048 (natOfBytes bs)).toNat)] = _
  rw [BitVec.toNat_ofNat, Nat.mod_eq_of_lt hsmall]

theorem gives_i3cMbxReq_busy (hbusy : s.i3c.mbxState = 1) : Gives (.i3cMbxReq bs t) s (fun u => Keeps [.time] s u) := by
  have hbad : (!(s.at t).i3cOn || (s.at t).i3c.mbxState == 1) = true := by
    rw [show (s.at t).i3c.mbxState = 1 from hbusy]
    exact Bool.or_true _
  exact ⟨s.at t, if_pos hbad, .at (.refl s)⟩

theorem gives_i3cMbxPoll (hv : s.bring.vaux = true) (ha : s.i3c.addr.isSome = true) :
    Gives (.i3cMbxPoll bs) s (fun u => (bs = [] → u.i3c = { s.i3c with mailbox := true }) ∧ (bs ≠ [] →
      u.i3c = { s.i3c with mailbox := false, regStatus := ST_I3C_FMT, regValue := 0 }) ∧ Keeps [.i3c] s u) := by
  have hexec : exec (.i3cMbxPoll bs) s = .next (if bs.isEmpty then s.updI3c (fun i => { i with mailbox := true })
      else s.i3cResult ST_I3C_FMT 0) := by
    show execI3cMbxPoll bs s = _
    cases bs <;> simp [execI3cMbxPoll, State.i3cOn_of hv ha]
  cases bs with
  | nil => exact ⟨_, hexec, fun _ => rfl, fun h => absurd rfl h, .withI3c (.refl s)⟩
  | cons x r => exact ⟨_, hexec, fun h => absurd h (List.cons_ne_nil x r), fun _ => rfl, .withI3c (.refl s)⟩

/-! ### Registers -/

/-- An address no register operation may name. -/
abbrev i3cAddrBad (off : Nat) : Prop := off % 4 ≠ 0 ∨ regAt (registerBase + off) = none

theorem State.i3cRegister_refused {off : Nat} {f : Nat → State → Status × Word × State} (h : i3cAddrBad off) :
    s.i3cRegister off f = s.i3cResult ST_I3C_FMT 0 := by
  have hbad : off % 4 ≠ 0 ∨ (regAt (registerBase + off)).isNone = true := h.imp_right Option.isNone_iff_eq_none.mpr
  simp only [State.i3cRegister, if_pos hbad]

theorem State.i3cRegister_noMain {off : Nat} {f : Nat → State → Status × Word × State} (h4 : off % 4 = 0)
    (hreg : (regAt (registerBase + off)).isSome = true) (haux : auxRegister (registerBase + off) = false)
    (hmain : s.mainUp = false) : s.i3cRegister off f = s.i3cResult ST_I3C_NO_MAIN 0 := by
  have hgood : ¬(off % 4 ≠ 0 ∨ (regAt (registerBase + off)).isNone = true) := by
    rw [← Option.not_isSome, hreg]
    simp [h4]
  simp only [State.i3cRegister, if_neg hgood, haux, hmain, Bool.not_false, Bool.and_self, if_true]

theorem State.i3cRegister_runs {off : Nat} {f : Nat → State → Status × Word × State} (h4 : off % 4 = 0)
    (hreg : (regAt (registerBase + off)).isSome = true)
    (hup : auxRegister (registerBase + off) = true ∨ s.mainUp = true) :
    s.i3cRegister off f = (f (registerBase + off) s).2.2.i3cResult (f (registerBase + off) s).1
      (f (registerBase + off) s).2.1 := by
  have hgood : ¬(off % 4 ≠ 0 ∨ (regAt (registerBase + off)).isNone = true) := by
    rw [← Option.not_isSome, hreg]
    simp [h4]
  have hpower : (!auxRegister (registerBase + off) && !s.mainUp) = false := by
    rcases hup with h | h <;> rw [h] <;> simp
  simp only [State.i3cRegister, if_neg hgood, hpower, Bool.false_eq_true, if_false]

/-- What a register read on the sideband asks of the register unit. -/
def i3cReadReg (a : Nat) (s : State) : Status × Word × State :=
  match regAt a with
  | some (b, i, _) =>
    if s.regIsolated b i then (ST_RST_BLOCK_ISOLATED, 0, s) else let (v, s) := s.readReg a; (0, v, s)
  | none => (ST_I3C_FMT, 0, s)

theorem execI3cRegRead_short (hon : s.i3cOn = true) (h4 : bs.length ≠ 4) :
    execI3cRegRead bs t s = .next ((s.at t).i3cResult ST_I3C_FMT 0) := by
  simp only [execI3cRegRead, State.i3cOn_at, hon, Bool.not_true, Bool.false_eq_true, if_false, if_pos h4]

theorem execI3cRegRead_runs (hon : s.i3cOn = true) (h4 : bs.length = 4) :
    execI3cRegRead bs t s = .next ((s.at t).i3cRegister (natOfBytes bs) i3cReadReg) := by
  simp only [execI3cRegRead, State.i3cOn_at, hon, Bool.not_true, Bool.false_eq_true, if_false, h4, ne_eq,
    not_true_eq_false]
  rfl

theorem gives_i3cRegRead_form (hv : s.bring.vaux = true) (ha : s.i3c.addr.isSome = true)
    (hbad : bs.length ≠ 4 ∨ i3cAddrBad (natOfBytes bs)) :
    Gives (.i3cRegRead bs t) s (fun u => s.i3cRefused u ST_I3C_FMT) := by
  have hon := State.i3cOn_of hv ha
  refine ⟨(s.at t).i3cResult ST_I3C_FMT 0, ?_, State.i3cRefused_result _⟩
  by_cases h4 : bs.length = 4
  · exact (execI3cRegRead_runs hon h4).trans
      (congrArg _ (State.i3cRegister_refused (hbad.resolve_left fun h => h h4)))
  · exact execI3cRegRead_short hon h4

theorem gives_i3cRegRead_noMain (hv : s.bring.vaux = true) (ha : s.i3c.addr.isSome = true) (h4 : bs.length = 4)
    (hmod : natOfBytes bs % 4 = 0) (hreg : (regAt (registerBase + natOfBytes bs)).isSome = true)
    (haux : auxRegister (registerBase + natOfBytes bs) = false) (hmain : s.bring.wakeStep ≠ 8) :
    Gives (.i3cRegRead bs t) s (fun u => s.i3cRefused u ST_I3C_NO_MAIN) := by
  have hdown : (s.at t).mainUp = false := beq_eq_false_iff_ne.mpr hmain
  exact ⟨_, (execI3cRegRead_runs (State.i3cOn_of hv ha) h4).trans
    (congrArg _ (State.i3cRegister_noMain hmod hreg haux hdown)), State.i3cRefused_result _⟩

theorem Keeps.readReg {ks : List Part} {o : State} {a : Nat} (h : Keeps ks o s)
    (hk : [.free, .quays] ⊆ ks := by decide) : Keeps ks o (s.readReg a).2 := by
  refine h.lift hk fun o h => ?_
  unfold State.readReg
  split
  · split
    · exact .updQuay (.withFree h)
    · exact h
  · split
    · exact .withFree h
    · exact h
  · exact h

theorem i3cReadReg_plain {a : Nat} {x : RegBlock × Nat × Nat} (hreg : regAt a = some x)
    (hiso : s.regIsolated x.1 x.2.1 = false) : i3cReadReg a s = (0, (s.readReg a).1, (s.readReg a).2) := by
  obtain ⟨k, i, o⟩ := x
  have hiso' : s.regIsolated k i = false := hiso
  simp only [i3cReadReg, hreg, hiso', Bool.false_eq_true, if_false]

theorem gives_i3cRegRead {x : RegBlock × Nat × Nat} (hv : s.bring.vaux = true) (ha : s.i3c.addr.isSome = true)
    (h4 : bs.length = 4) (hmod : natOfBytes bs % 4 = 0) (hreg : regAt (registerBase + natOfBytes bs) = some x)
    (hup : auxRegister (registerBase + natOfBytes bs) = true ∨ s.bring.wakeStep = 8)
    (hiso : s.regIsolated x.1 x.2.1 = false) :
    Gives (.i3cRegRead bs t) s (fun u => u.i3c.mailbox = false
      ∧ u.i3c.regStatus = 0 ∧ u.i3c.regValue = ((s.at t).readReg (registerBase + natOfBytes bs)).1
      ∧ u.i3c.addr = s.i3c.addr ∧ u.i3c.mwl = s.i3c.mwl ∧ u.i3c.mrl = s.i3c.mrl ∧ u.i3c.ibiOn = s.i3c.ibiOn
      ∧ u.i3c.mbxState = s.i3c.mbxState ∧ u.i3c.rsp = s.i3c.rsp ∧ u.mem = s.mem
      ∧ Keeps [.time, .free, .quays, .i3c] s u) := by
  have hexec := (execI3cRegRead_runs (t := t) (State.i3cOn_of hv ha) h4).trans (congrArg _
    (State.i3cRegister_runs (s := s.at t) (f := i3cReadReg) hmod (by rw [hreg]; rfl) (hup.imp_right beq_iff_eq.mpr)))
  rw [i3cReadReg_plain (s := s.at t) hreg hiso] at hexec
  have hkeeps : Keeps [.time, .free, .quays] s ((s.at t).readReg (registerBase + natOfBytes bs)).2 :=
    .readReg (.at (.refl s))
  have hi3c := hkeeps.i3c_eq (by decide)
  have hmem := hkeeps.mem_eq (by decide)
  have hkeeps' : Keeps [.time, .free, .quays, .i3c] s ((s.at t).readReg (registerBase + natOfBytes bs)).2 :=
    .readReg (.at (.refl s))
  generalize (s.at t).readReg (registerBase + natOfBytes bs) = r at *
  obtain ⟨haddr, hmwl, hmrl, hibi, hmbx, hrsp⟩ := State.i3cResult_rest (e := 0) (x := r.1) hi3c
  exact ⟨_, hexec, rfl, rfl, rfl, haddr, hmwl, hmrl, hibi, hmbx, hrsp, hmem, .withI3c hkeeps'⟩

/-- What a register write on the sideband asks of the register unit. -/
def i3cWriteReg (v : Nat) (a : Nat) (s : State) : Status × Word × State :=
  let (st, s) := s.writeReg .i3c a v
  (st, 0, s)

theorem execI3cRegWrite_short (hon : s.i3cOn = true) (h8 : bs.length ≠ 8) :
    execI3cRegWrite bs t s = .next ((s.at t).i3cResult ST_I3C_FMT 0) := by
  simp only [execI3cRegWrite, State.i3cOn_at, hon, Bool.not_true, Bool.false_eq_true, if_false, if_pos h8]

theorem execI3cRegWrite_runs (hon : s.i3cOn = true) (h8 : bs.length = 8) :
    execI3cRegWrite bs t s = .next ((s.at t).i3cRegister (natOfBytes (bs.take 4)) (i3cWriteReg (natOfBytes (bs.drop 4)))) := by
  simp only [execI3cRegWrite, State.i3cOn_at, hon, Bool.not_true, Bool.false_eq_true, if_false, h8, ne_eq,
    not_true_eq_false]
  rfl

theorem gives_i3cRegWrite_form (hv : s.bring.vaux = true) (ha : s.i3c.addr.isSome = true)
    (hbad : bs.length ≠ 8 ∨ i3cAddrBad (natOfBytes (bs.take 4))) :
    Gives (.i3cRegWrite bs t) s (fun u => s.i3cRefused u ST_I3C_FMT) := by
  have hon := State.i3cOn_of hv ha
  refine ⟨(s.at t).i3cResult ST_I3C_FMT 0, ?_, State.i3cRefused_result _⟩
  by_cases h8 : bs.length = 8
  · exact (execI3cRegWrite_runs hon h8).trans
      (congrArg _ (State.i3cRegister_refused (hbad.resolve_left fun h => h h8)))
  · exact execI3cRegWrite_short hon h8

/-- The watchdog's KICK register. -/
theorem regAt_kick : regAt 0x7F00090200C4 = some (.rst, 0, 0xC4) :=
  regAt_of_mem (by decide : (RegBlock.rst, 0x7F0009020000, 0x10000, 1) ∈ regBlocks) (i := 0) (o := 0xC4) (by decide)
    (by decide)

/-- The state after a write of the KICK register. -/
def State.kicked (s : State) (v : Nat) : State :=
  if v = 0x4B1D then s.updBring (fun b => { b with wdogAt := s.time }) else s

theorem i3cWriteReg_kick : i3cWriteReg v 0x7F00090200C4 s = (0, 0, s.kicked v) := by
  have hkick : s.writeRst .i3c 0xC4 v = s.kicked v := by
    show Out.state (execRstWdogKick .i3c v s.time s) s = s.kicked v
    have hw : rstWriter .i3c = true := by decide
    have hat : s.at s.time = s := by rw [State.at, Nat.max_self]
    simp only [execRstWdogKick, hw, true_and, hat]
    rfl
  simp only [i3cWriteReg, State.writeReg, regAt_kick, State.regIsolated, regUnit, Bool.false_eq_true, if_false, hkick]

theorem gives_i3cRegWrite_kick (hv : s.bring.vaux = true) (ha : s.i3c.addr.isSome = true) (h8 : bs.length = 8)
    (haddr : registerBase + natOfBytes (bs.take 4) = 0x7F00090200C4) :
    Gives (.i3cRegWrite bs t) s (fun u => u.i3c.mailbox = false ∧ u.i3c.regStatus = 0 ∧ u.i3c.regValue = 0
      ∧ (natOfBytes (bs.drop 4) = 0x4B1D → u.bring = { s.bring with wdogAt := u.time })
      ∧ (natOfBytes (bs.drop 4) ≠ 0x4B1D → u.bring = s.bring) ∧ u.i3c.addr = s.i3c.addr
      ∧ u.i3c.mwl = s.i3c.mwl ∧ u.i3c.mrl = s.i3c.mrl ∧ u.i3c.ibiOn = s.i3c.ibiOn
      ∧ u.i3c.mbxState = s.i3c.mbxState ∧ u.i3c.rsp = s.i3c.rsp ∧ u.mem = s.mem ∧ u.hif = s.hif) := by
  have h4 : natOfBytes (bs.take 4) % 4 = 0 := by
    rw [registerBase] at haddr
    omega
  have haux : auxRegister 0x7F00090200C4 = true := by rw [auxRegister, regAt_kick]
  have hexec := (execI3cRegWrite_runs (t := t) (State.i3cOn_of hv ha) h8).trans (congrArg _
    (State.i3cRegister_runs (s := s.at t) (f := i3cWriteReg (natOfBytes (bs.drop 4))) h4
      (by rw [haddr, regAt_kick]; rfl) (.inl (by rw [haddr]; exact haux))))
  rw [haddr, i3cWriteReg_kick] at hexec
  refine ⟨_, hexec, ?_⟩
  by_cases hkey : natOfBytes (bs.drop 4) = 0x4B1D
  · rw [State.kicked, if_pos hkey]
    exact ⟨rfl, rfl, rfl, fun _ => rfl, fun h => absurd hkey h, rfl, rfl, rfl, rfl, rfl, rfl, rfl, rfl⟩
  · rw [State.kicked, if_neg hkey]
    exact ⟨rfl, rfl, rfl, fun h => absurd h hkey, fun _ => rfl, rfl, rfl, rfl, rfl, rfl, rfl, rfl, rfl⟩

/-! ### Private reads -/

theorem gives_i3cPrivateRead_ready (hv : s.bring.vaux = true) (ha : s.i3c.addr.isSome = true)
    (hm : s.i3c.mailbox = true) (h2 : s.i3c.mbxState = 2) :
    Gives (.i3cPrivateRead) s (fun u => u.resp = { status := 0, addr := 0, data := [1, 2] ++ bytesOfNat (8 * byteField s.i3c.rsp.toNat 1 1) s.i3c.rsp.toNat }
      ∧ u.i3c = { s.i3c with mbxState := 0 } ∧ Keeps [.i3c, .resp] s u) := by
  refine ⟨(s.memRespond 0 0 ([1, 2] ++ bytesOfNat (8 * byteField s.i3c.rsp.toNat 1 1) s.i3c.rsp.toNat)).updI3c
    (fun i => { i with mbxState := 0 }), ?_, rfl, rfl, .withI3c (.withResp (.refl s))⟩
  show execI3cPrivateRead s = _
  simp only [execI3cPrivateRead, State.i3cOn_of hv ha, Bool.not_true, Bool.false_eq_true, if_false, hm, if_true, h2]
  simp [State.updI3c, State.memRespond, h2, bytesOfNat]

theorem gives_i3cPrivateRead_waits (hv : s.bring.vaux = true) (ha : s.i3c.addr.isSome = true)
    (hm : s.i3c.mailbox = true) (h2 : s.i3c.mbxState ≠ 2) :
    Gives (.i3cPrivateRead) s (fun u => u.resp = { status := 0, addr := 0, data := [1] ++ bytesOfNat 1 s.i3c.mbxState.toNat }
      ∧ Keeps [.resp] s u) := by
  refine ⟨s.memRespond 0 0 ([1] ++ bytesOfNat 1 s.i3c.mbxState.toNat), ?_, rfl, .withResp (.refl s)⟩
  show execI3cPrivateRead s = _
  simp only [execI3cPrivateRead, State.i3cOn_of hv ha, Bool.not_true, Bool.false_eq_true, if_false, hm, if_true, h2]
  simp only [State.updI3c, State.memRespond, h2, if_false]
  rfl

theorem gives_i3cPrivateRead_register (hv : s.bring.vaux = true) (ha : s.i3c.addr.isSome = true)
    (hm : s.i3c.mailbox = false) :
    Gives (.i3cPrivateRead) s (fun u => u.resp = { status := 0, addr := 0, data := [2, 0] ++ bytesOfNat 2 s.i3c.regStatus.toNat ++ bytesOfNat 4 s.i3c.regValue.toNat }
      ∧ Keeps [.resp] s u) := by
  refine ⟨s.memRespond 0 0 ([2, 0] ++ bytesOfNat 2 s.i3c.regStatus.toNat ++ bytesOfNat 4 s.i3c.regValue.toNat), ?_,
    rfl, .withResp (.refl s)⟩
  show execI3cPrivateRead s = _
  simp only [execI3cPrivateRead, State.i3cOn_of hv ha, Bool.not_true, Bool.false_eq_true, if_false, hm]
  rfl

/-! ### Common commands -/

/-- A command that reads bytes of the target. -/
theorem gives_i3cAnswer {n x : Nat} (hv : s.bring.vaux = true) (ha : s.i3c.addr.isSome = true) :
    ∃ u, s.i3cAnswer n x = .next u ∧ u.resp = { status := 0, addr := 0, data := (bytesOfNat n x).reverse }
      ∧ Keeps [.resp] s u :=
  ⟨s.memRespond 0 0 (bytesOfNat n x).reverse, by rw [State.i3cAnswer, State.i3cOn_of hv ha]; rfl, rfl,
    .withResp (.refl s)⟩

theorem i3cAnswer_silent {n x : Nat} (ha : s.i3c.addr = none) : s.i3cAnswer n x = .next s := by
  rw [State.i3cAnswer, State.i3cOn_of_none ha]
  rfl

theorem bytesOfNat_two_mul (x : Nat) : (bytesOfNat 3 (x * 256 + 1)).reverse = (bytesOfNat 2 x).reverse ++ [1] := by
  have hdiv : (x * 256 + 1) / 256 = x := by omega
  rw [bytesOfNat, List.reverse_cons, hdiv]
  congr 2
  refine BitVec.eq_of_toNat_eq ((BitVec.toNat_ofNat _ _).trans ?_)
  show (x * 256 + 1) % 256 = 1
  omega

theorem gives_getstatus (hv : s.bring.vaux = true) (ha : s.i3c.addr.isSome = true) :
    Gives (.getstatus) s (fun u => u.resp.status = 0 ∧ u.resp.data.length = 2 ∧ Keeps [.free, .resp] s u) := by
  obtain ⟨u, hu, hresp, hkeeps⟩ := gives_i3cAnswer (s := s.freshLong.2) (n := 2)
    (x := s.freshLong.1.toNat % 2 ^ 16) hv ha
  refine ⟨u, hu, by rw [hresp], by rw [hresp, List.length_reverse, bytesOfNat_length], ?_⟩
  exact .trans (.withFree (.refl s)) (hkeeps.mono (by decide))

theorem gives_entdaa {x : BitVec 7} (hv : s.bring.vaux = true) (ha : s.i3c.addr = none) :
    Gives (.entdaa x) s (fun u => u.i3c = { s.i3c with addr := some x } ∧ Keeps [.i3c] s u) := by
  have hfree : s.bring.vaux = true ∧ s.i3c.addr.isNone = true := ⟨hv, by rw [ha]; rfl⟩
  exact ⟨_, congrArg Host.Outcome.next (if_pos hfree), rfl, .withI3c (.refl s)⟩

theorem gives_entdaa_named {x : BitVec 7} (ha : s.i3c.addr.isSome = true) :
    Gives (.entdaa x) s (fun u => Keeps [] s u) := by
  have hnamed : ¬(s.bring.vaux = true ∧ s.i3c.addr.isNone = true) := by
    rintro ⟨-, hnone⟩
    rw [← Option.not_isSome, ha] at hnone
    cases hnone
  exact ⟨_, congrArg Host.Outcome.next (if_neg hnamed), .refl s⟩

theorem gives_enec (hv : s.bring.vaux = true) (ha : s.i3c.addr.isSome = true) (hb : bit v 0 = true)
    (hoff : s.i3c.ibiOn = false) :
    Gives (.enec v) s (fun u => u.i3c = { s.i3c with ibiOn := true, alarmSeen := s.events.alarmCnt }
      ∧ Keeps [.i3c] s u) := by
  have hset : (s.i3cOn && bit v 0 && !s.i3c.ibiOn) = true := by rw [State.i3cOn_of hv ha, hb, hoff]; rfl
  exact ⟨_, congrArg Host.Outcome.next (if_pos hset), rfl, .withI3c (.refl s)⟩

theorem gives_disec (hv : s.bring.vaux = true) (ha : s.i3c.addr.isSome = true) (hb : bit v 0 = true) :
    Gives (.disec v) s (fun u => u.i3c.ibiOn = false ∧ u.i3c.ibiRsp = s.i3c.ibiRsp ∧ u.alarmIbi = s.alarmIbi
      ∧ u.i3c.mwl = s.i3c.mwl ∧ Keeps [.i3c] s u) := by
  have hset : (s.i3cOn && bit v 0) = true := by rw [State.i3cOn_of hv ha, hb]; rfl
  exact ⟨_, congrArg Host.Outcome.next (if_pos hset), rfl, rfl, Bool.or_false _, rfl, .withI3c (.refl s)⟩

theorem gives_ibiSend_response (hv : s.bring.vaux = true) (ha : s.i3c.addr.isSome = true)
    (hon : s.i3c.ibiOn = true) (hrsp : s.i3c.ibiRsp = true) :
    Gives (.ibiSend 1) s (fun u => u.resp = { status := 0, addr := 0, data := [1] }
      ∧ u.i3c = { s.i3c with ibiRsp := false } ∧ Keeps [.i3c, .resp] s u) := by
  refine ⟨(s.memRespond 0 0 [1]).updI3c (fun i => { i with ibiRsp := false }), ?_, rfl, rfl,
    .withI3c (.withResp (.refl s))⟩
  show execIbiSend 1 s = _
  simp only [execIbiSend, State.i3cOn_of hv ha, hon, hrsp, Bool.not_true, Bool.or_self, Bool.false_eq_true, if_false,
    and_self, if_true]
  rfl

theorem gives_ibiSend_alarm (hv : s.bring.vaux = true) (ha : s.i3c.addr.isSome = true) (hon : s.i3c.ibiOn = true)
    (halarm : s.i3c.ibiAlarm = true ∨ s.events.alarmCnt ≠ s.i3c.alarmSeen) :
    Gives (.ibiSend 2) s (fun u => u.resp = { status := 0, addr := 0, data := [2] } ∧ u.alarmIbi = false
      ∧ u.i3c.ibiRsp = s.i3c.ibiRsp ∧ Keeps [.i3c, .resp] s u) := by
  have hdue : s.alarmIbi = true := by
    rcases halarm with h | h
    · rw [State.alarmIbi, h, Bool.true_or]
    · rw [State.alarmIbi, hon, bne_iff_ne.mpr h, Bool.true_and, Bool.or_true]
  have hclear : ∀ n : BitVec 32, (false || (s.i3c.ibiOn && n != n)) = false := fun n => by
    rw [bne_self_eq_false, Bool.and_false, Bool.or_false]
  refine ⟨(s.memRespond 0 0 [2]).updI3c (fun i => { i with ibiAlarm := false, alarmSeen := s.events.alarmCnt }), ?_,
    rfl, hclear _, rfl, .withI3c (.withResp (.refl s))⟩
  show execIbiSend 2 s = _
  simp only [execIbiSend, State.i3cOn_of hv ha, hon, hdue, Bool.not_true, Bool.or_self, Bool.false_eq_true, if_false,
    and_self, if_true]
  rfl

end

/-- Settles O56, transfer by transfer and command by command. -/
theorem sidebandCommands : Obligations.SidebandCommands := by
  unfold Obligations.SidebandCommands
  refine ⟨?_, ?_, ?_, ?_, ?_, ?_, ?_, ?_, ?_, ?_, ?_, ?_, ?_, ?_, ?_, ?_, ?_, ?_, ?_, ?_, ?_, ?_, ?_, ?_, ?_, ?_, ?_, ?_,
    ?_, ?_, ?_, ?_, ?_, ?_, ?_, ?_⟩
  · intro s bs t hv ha hidle hbad
    exact gives_i3cMbxReq_form hv ha hidle hbad
  · intro s bs t hv ha hidle hlo hhi hlen hmain
    exact gives_i3cMbxReq_noMain hv ha hidle (i3cForm_good hlo hhi hlen) hmain
  · intro s bs t e hv ha hidle hlo hhi hlen hmain hlog hcheck
    exact (gives_i3cMbxReq_refused hv ha hidle (i3cForm_good hlo hhi hlen) hmain hlog hcheck).imp
      fun u ⟨hi3c, hans, hfuncs, hkeeps⟩ => ⟨hi3c, hans, hfuncs, hkeeps.mono (by decide)⟩
  · intro s bs t hv ha hidle h16 hlen hmain hlog hcheck hcode hq hr
    have hform : ¬i3cFormBad bs := i3cForm_good (by omega) (by omega) (by omega)
    exact (gives_i3cMbxReq_admitted hv ha hidle h16 hform hmain hlog hcheck hcode hq hr).imp
      fun u ⟨hi3c, hqueue, hans, hfuncs, hkeeps⟩ => ⟨hi3c, hqueue, hans, hfuncs, hkeeps.mono (by decide)⟩
  · intro s bs t hbusy
    exact gives_i3cMbxReq_busy hbusy
  · intro s bs t hv ha hbad
    exact gives_i3cRegRead_form hv ha hbad
  · intro s bs t x hv ha h4 hmod hreg hup hiso
    exact (gives_i3cRegRead hv ha h4 hmod hreg hup hiso).imp
      fun u ⟨hmbx, hst, hval, haddr, hmwl, hmrl, hibi, hstate, hrsp, hmem, hkeeps⟩ =>
      ⟨hmbx, hst, hval, haddr, hmwl, hmrl, hibi, hstate, hrsp, hmem, hkeeps.mono (by decide)⟩
  · intro s bs t hv ha h4 hmod hreg haux hmain
    exact gives_i3cRegRead_noMain hv ha h4 hmod hreg haux hmain
  · intro s bs t hv ha hbad
    exact gives_i3cRegWrite_form hv ha hbad
  · intro s bs t hv ha h8 haddr _
    exact gives_i3cRegWrite_kick hv ha h8 haddr
  · intro s bs hv ha
    exact gives_i3cMbxPoll hv ha
  · intro s hv ha hm h2
    exact gives_i3cPrivateRead_ready hv ha hm h2
  · intro s hv ha hm h2
    exact gives_i3cPrivateRead_waits hv ha hm h2
  · intro s hv ha hm
    exact gives_i3cPrivateRead_register hv ha hm
  · intro s x hv ha
    exact gives_entdaa hv ha
  · intro s x ha
    exact gives_entdaa_named ha
  · intro s
    exact ⟨_, rfl, rfl, .withI3c (.refl s)⟩
  · intro s hv ha
    exact gives_i3cAnswer hv ha
  · intro s hv ha
    exact gives_i3cAnswer (n := 1) hv ha
  · intro s hv ha
    exact gives_i3cAnswer (n := 1) hv ha
  · intro s hv ha
    exact gives_getstatus hv ha
  · intro s hv ha
    exact gives_i3cAnswer hv ha
  · intro s hv ha
    obtain ⟨u, hu, hresp, hkeeps⟩ := gives_i3cAnswer (n := 3) (x := s.i3c.mrl.toNat * 256 + 1) hv ha
    exact ⟨u, hu, hresp.trans (by rw [bytesOfNat_two_mul]), hkeeps⟩
  · intro s v hv ha
    exact ⟨_, congrArg Host.Outcome.next (if_pos (State.i3cOn_of hv ha)), rfl, .withI3c (.refl s)⟩
  · intro s v hv ha
    exact ⟨_, congrArg Host.Outcome.next (if_pos (State.i3cOn_of hv ha)), rfl, .withI3c (.refl s)⟩
  · intro s v hv ha hb hoff
    exact gives_enec hv ha hb hoff
  · intro s v hv ha hb
    exact gives_disec hv ha hb
  · intro s hv ha hon hrsp
    exact gives_ibiSend_response hv ha hon hrsp
  · intro s hv ha hon halarm
    exact gives_ibiSend_alarm hv ha hon halarm
  · intro s ha
    exact ⟨s, i3cAnswer_silent ha, .refl s⟩
  · intro s ha
    exact ⟨s.freshLong.2, i3cAnswer_silent (s := s.freshLong.2) ha, .withFree (.refl s)⟩
  · intro s ha
    exact ⟨s, i3cAnswer_silent ha, .refl s⟩
  · intro s v ha
    exact ⟨s, congrArg Host.Outcome.next (if_neg (by simp [State.i3cOn_of_none ha])), .refl s⟩
  · intro s v ha
    exact ⟨s, congrArg Host.Outcome.next (if_neg (by simp [State.i3cOn_of_none ha])), .refl s⟩
  · intro s v ha
    exact ⟨s, if_pos (by rw [State.i3cOn_of_none ha]; rfl), .refl s⟩
  · intro s ha
    exact ⟨s, if_pos (by rw [State.i3cOn_of_none ha]; rfl), .refl s⟩

end Sys2Proof.Machine
